-- ==== Sys2Proof/Word.lean ====
section
/-! DEFINITION. Word types of the A9 (spec/00_scope.md R2: little-endian, bit 0 least significant). -/

namespace Sys2Proof

/-- One byte. -/
abbrev Byte := BitVec 8
/-- A 64-bit scalar register, slot word or control register. -/
abbrev Word := BitVec 64
/-- A 64-byte line, also a 512-bit vector register. -/
abbrev Line := BitVec 512

end Sys2Proof
end

