-- ==== Sys2Proof/Syntax.lean ====
section
/-! DEFINITION. The one instruction type: one constructor per row of spec/opcode_table.json. A generator row
carries its encoded fields (spec/03 R66, spec/05), a slot row its slot word's fields (spec/03 R65), and an event row
the agent that takes the step and what its environment chooses (spec/95). -/

namespace Sys2Proof

/-- The seven engine slots of a bundle, in slot-index order (R57). -/
inductive Slot where
  | ctl | mem | cpy | vx | vy | mtx | syn
deriving DecidableEq, Repr

/-- The two vector slots. -/
inductive Pipe where
  | x | y
deriving DecidableEq, Repr

/-- Fields of a VX or VY slot word (R65). -/
structure VWord where
  sat : BitVec 1
  rm : BitVec 2
  ty : BitVec 4
  hb : BitVec 1
  ha : BitVec 1
  q : BitVec 3
  vc : BitVec 10
  vb : BitVec 10
  va : BitVec 10
  vd : BitVec 10
deriving DecidableEq, Repr

/-- Fields of the buffer form of a MEM slot word (R65). -/
structure MemBuf where
  part : BitVec 2
  row : BitVec 6
  tile : BitVec 6
  buf : BitVec 2
  v : BitVec 10
deriving DecidableEq, Repr

/-- Fields of the global form of a MEM slot word (R65). -/
structure MemGlob where
  off : BitVec 32
  arr : BitVec 8
  z : BitVec 4
  v : BitVec 10
deriving DecidableEq, Repr

/-- Fields of the gather form of a MEM slot word (R65). -/
structure MemGath where
  ty : BitVec 4
  arr : BitVec 8
  z : BitVec 4
  vb : BitVec 10
  v : BitVec 10
deriving DecidableEq, Repr

/-- Fields of a CPY slot word (R65). -/
structure CpyWord where
  port : BitVec 2
  fmt : BitVec 4
  ss : BitVec 1
  bf : BitVec 1
  tile : BitVec 6
  nest : BitVec 4
  tok : BitVec 3
  ch : BitVec 2
deriving DecidableEq, Repr

/-- Fields of a SYN slot word (R65). -/
structure SynWord where
  off : BitVec 18
  sub : BitVec 4
  ty : BitVec 4
  arr : BitVec 8
  z : BitVec 4
  vs : BitVec 10
  vd : BitVec 10
deriving DecidableEq, Repr

/-- Fields of an MTX slot word (R65). -/
structure MtxWord where
  cs : BitVec 5
  sat : BitVec 1
  rm : BitVec 2
  typ : BitVec 4
  half : BitVec 1
  f : BitVec 6
  zero : BitVec 1
  offb : BitVec 9
  offa : BitVec 9
  k : BitVec 10
  c : BitVec 5
deriving DecidableEq, Repr

/-- What the spec leaves open of a core cycle (R16, R352). -/
structure CycleEnv where
  /-- generator threads on a cache miss: those of the resident slots, then the firmware thread (R16) -/
  miss : BitVec 5
  /-- channels that have a line to move (R142) -/
  chans : BitVec 4
deriving DecidableEq, Repr

/-- The load a LOAD_PERFORM step performs (R36). -/
inductive LoadRef where
  /-- element `part` of landing entry `entry` -/
  | landing (entry part : Nat)
  /-- the k-th generator load that has executed and is still to be performed -/
  | gen (k : Nat)
deriving DecidableEq, Repr

/-- A die's fault page: of a Cobalt die or of a Serac die (R326). -/
inductive FaultPort where
  | cobalt (die : Nat)
  | serac (serac : Nat)
deriving DecidableEq, Repr

/-- The register pages of the device (device space, R46). -/
inductive DevPage where
  | sched (die : Nat)
  | command (die : Nat)
  | doorbell (die part : Nat)
  | fault (port : FaultPort)
  | coreControl (core : Nat)
  | collective (serac : Nat)
  | invalidation (die : Nat)
  | aperture (die part : Nat)
  | management (serac : Nat)
  /-- a tenant context's own copy status page (R160) -/
  | copyStatus (ctx : Nat)
  /-- a context table entry's landing descriptor and pointers and undo-log area (R272, R276), its page-out bit (R281) -/
  | tableEntry (ctx : Nat)
deriving DecidableEq, Repr

/-- What Deresk retires (R282, R348). -/
inductive RetireUnit where
  | core (core : Nat)
  | hbmChannel (n : Nat)
  | link (serac link : Nat)
deriving DecidableEq, Repr

/-- A unit that Deresk retires, or returns to service. -/
structure Retire where
  unit : RetireUnit
  undo : Bool
deriving DecidableEq, Repr

/-- A Serac die's reset, and the image to which Deresk has updated its firmware before it, if any (R342). -/
structure Reboot where
  serac : Nat
  update : Option (List Byte)
deriving DecidableEq, Repr

/-- Deresk updates the firmware of one of a package's two Serac dies to an image (R342). -/
structure FirmwareUpdate where
  second : Bool
  image : List Byte
deriving DecidableEq, Repr

/-- What moves a collective's chunk: a link or the reduction ALUs, whose chunk boundaries the Serac die arbitrates (R317), or
neither, within its package. -/
inductive CollResource where
  | link (n : Nat)
  | alu
  | within
deriving DecidableEq, Repr

/-- Where an SRAM error falls (R337). -/
inductive EccSite where
  /-- corrected: counted in the error counter of a unit of a Cobalt or a Serac die -/
  | corrected (port : FaultPort) (unit : Nat)
  /-- uncorrectable in a line of memory -/
  | memLine (pkg line : Nat)
  /-- uncorrectable in a buffer line of a core -/
  | bufLine (core buf line : Nat)
  /-- uncorrectable in a vector register, a scalar register, a stream slot of a context -/
  | vreg (ctx r : Nat)
  | sreg (ctx r : Nat)
  | stream (ctx sb slot : Nat)
  /-- uncorrectable in a predicate, in a latch of the vector engine -/
  | pred (ctx q : Nat)
  | latch (ctx l : Nat)
  /-- uncorrectable in a line of a chunk that a Serac die's chunk buffer holds: coordinator, communicator and instance, the chunk's
  place among those held, the line -/
  | chunk (coord comm inst index line : Nat)
  /-- uncorrectable in a composer slot, in an entry of the phase buffer, in a landing entry of a context -/
  | composer (ctx slot : Nat)
  | phaseEntry (ctx n : Nat)
  | landing (ctx n : Nat)
  /-- uncorrectable in context state without a poison tag: a machine check -/
  | context (ctx : Nat)
  /-- uncorrectable in a frost ring entry -/
  | frost (core entry : Nat)
deriving DecidableEq, Repr

/-- The flash write that a loss of power finds (R341, R342). -/
inductive FlashTear where
  /-- the boot-count copy that the boot ROM is writing -/
  | bootCount (serac : Nat)
  /-- a slot that an update, or the host in recovery, is writing, and what of it is written -/
  | slot (serac slot : Nat) (part : List Byte)
  /-- the marker copy that an update is writing once the image stands in its slot -/
  | marker (serac : Nat) (image : List Byte)
  /-- nothing: power goes after step 2 of an update to an image -/
  | updated (serac : Nat) (image : List Byte)
deriving DecidableEq, Repr

/-- Who accesses a register page: a thread to which it is mapped, the host over its port, or whoever FWMODE lets (R345). -/
inductive Actor where
  | thread
  | host
  | entitled
deriving DecidableEq, Repr

/-- One constructor per row of the opcode table. -/
inductive Instr where
  /-- ADD (R106). Writes the 64-bit wrapping sum of two scalar registers. -/
  | add (b : BitVec 6) (a : BitVec 6) (d : BitVec 6)
  /-- SUB (R106). Writes the 64-bit wrapping difference of two scalar registers. -/
  | sub (b : BitVec 6) (a : BitVec 6) (d : BitVec 6)
  /-- MUL (R106). Writes the low 64 bits of the product of two scalar registers. -/
  | mul (b : BitVec 6) (a : BitVec 6) (d : BitVec 6)
  /-- MULH (R106). Writes the high 64 bits of the signed 128-bit product. -/
  | mulh (b : BitVec 6) (a : BitVec 6) (d : BitVec 6)
  /-- DIV (R106). Writes the signed quotient truncated toward zero, taking extra core cycles by R103. -/
  | div (b : BitVec 6) (a : BitVec 6) (d : BitVec 6)
  /-- DIVU (R106). Writes the unsigned quotient, all ones for a zero divisor. -/
  | divu (b : BitVec 6) (a : BitVec 6) (d : BitVec 6)
  /-- REM (R106). Writes the signed remainder with the sign of the dividend. -/
  | rem (b : BitVec 6) (a : BitVec 6) (d : BitVec 6)
  /-- REMU (R106). Writes the unsigned remainder. -/
  | remu (b : BitVec 6) (a : BitVec 6) (d : BitVec 6)
  /-- AND (R106). Writes the bitwise AND of two scalar registers. -/
  | and (b : BitVec 6) (a : BitVec 6) (d : BitVec 6)
  /-- OR (R106). Writes the bitwise OR of two scalar registers. -/
  | or (b : BitVec 6) (a : BitVec 6) (d : BitVec 6)
  /-- XOR (R106). Writes the bitwise XOR of two scalar registers. -/
  | xor (b : BitVec 6) (a : BitVec 6) (d : BitVec 6)
  /-- SHL (R106). Shifts a register left by the low six bits of another. -/
  | shl (b : BitVec 6) (a : BitVec 6) (d : BitVec 6)
  /-- SHR (R106). Shifts a register right logically by the low six bits of another. -/
  | shr (b : BitVec 6) (a : BitVec 6) (d : BitVec 6)
  /-- SRA (R106). Shifts a register right arithmetically by the low six bits of another. -/
  | sra (b : BitVec 6) (a : BitVec 6) (d : BitVec 6)
  /-- SLT (R106). Writes 1 if the first register is below the second, signed. -/
  | slt (b : BitVec 6) (a : BitVec 6) (d : BitVec 6)
  /-- SLTU (R106). Writes 1 if the first register is below the second, unsigned. -/
  | sltu (b : BitVec 6) (a : BitVec 6) (d : BitVec 6)
  /-- MIN (R106). Writes the signed minimum of two registers. -/
  | min (b : BitVec 6) (a : BitVec 6) (d : BitVec 6)
  /-- MAX (R106). Writes the signed maximum of two registers. -/
  | max (b : BitVec 6) (a : BitVec 6) (d : BitVec 6)
  /-- MINU (R106). Writes the unsigned minimum of two registers. -/
  | minu (b : BitVec 6) (a : BitVec 6) (d : BitVec 6)
  /-- MAXU (R106). Writes the unsigned maximum of two registers. -/
  | maxu (b : BitVec 6) (a : BitVec 6) (d : BitVec 6)
  /-- CLZ (R106). Writes the count of leading zero bits of a register. -/
  | clz (a : BitVec 6) (d : BitVec 6)
  /-- POPC (R106). Writes the count of one bits of a register. -/
  | popc (a : BitVec 6) (d : BitVec 6)
  /-- ADDI (R107). Adds a sign-extended 13-bit immediate to a register. -/
  | addi (i : BitVec 13) (a : BitVec 6) (d : BitVec 6)
  /-- ANDI (R107). ANDs a register with a sign-extended immediate. -/
  | andi (i : BitVec 13) (a : BitVec 6) (d : BitVec 6)
  /-- ORI (R107). ORs a register with a sign-extended immediate. -/
  | ori (i : BitVec 13) (a : BitVec 6) (d : BitVec 6)
  /-- XORI (R107). XORs a register with a sign-extended immediate. -/
  | xori (i : BitVec 13) (a : BitVec 6) (d : BitVec 6)
  /-- SHLI (R107). Shifts a register left by an immediate of 0 to 63. -/
  | shli (i : BitVec 6) (a : BitVec 6) (d : BitVec 6)
  /-- SHRI (R107). Shifts a register right logically by an immediate of 0 to 63. -/
  | shri (i : BitVec 6) (a : BitVec 6) (d : BitVec 6)
  /-- SRAI (R107). Shifts a register right arithmetically by an immediate of 0 to 63. -/
  | srai (i : BitVec 6) (a : BitVec 6) (d : BitVec 6)
  /-- SLTI (R107). Writes 1 if a register is below a sign-extended immediate, signed. -/
  | slti (i : BitVec 13) (a : BitVec 6) (d : BitVec 6)
  /-- SLTIU (R107). Writes 1 if a register is below a sign-extended immediate, unsigned. -/
  | sltiu (i : BitVec 13) (a : BitVec 6) (d : BitVec 6)
  /-- LUI (R107). Writes the sign-extended 19-bit immediate shifted left by 13. -/
  | lui (i : BitVec 19) (d : BitVec 6)
  /-- PCADD (R107). Writes the instruction address plus the shifted 19-bit immediate. -/
  | pcadd (i : BitVec 19) (d : BitVec 6)
  /-- LDB (R108). Loads a sign-extended byte from memory or device space. -/
  | ldb (i : BitVec 13) (a : BitVec 6) (d : BitVec 6)
  /-- LDH (R108). Loads a sign-extended halfword. -/
  | ldh (i : BitVec 13) (a : BitVec 6) (d : BitVec 6)
  /-- LDW (R108). Loads a sign-extended word. -/
  | ldw (i : BitVec 13) (a : BitVec 6) (d : BitVec 6)
  /-- LDD (R108). Loads a doubleword. -/
  | ldd (i : BitVec 13) (a : BitVec 6) (d : BitVec 6)
  /-- LDBU (R108). Loads a zero-extended byte. -/
  | ldbu (i : BitVec 13) (a : BitVec 6) (d : BitVec 6)
  /-- LDHU (R108). Loads a zero-extended halfword. -/
  | ldhu (i : BitVec 13) (a : BitVec 6) (d : BitVec 6)
  /-- LDWU (R108). Loads a zero-extended word. -/
  | ldwu (i : BitVec 13) (a : BitVec 6) (d : BitVec 6)
  /-- STB (R108). Stores a byte into the phase buffer or to device space. -/
  | stb (i : BitVec 13) (a : BitVec 6) (b : BitVec 6)
  /-- STH (R108). Stores a halfword into the phase buffer or to device space. -/
  | sth (i : BitVec 13) (a : BitVec 6) (b : BitVec 6)
  /-- STW (R108). Stores a word into the phase buffer or to device space. -/
  | stw (i : BitVec 13) (a : BitVec 6) (b : BitVec 6)
  /-- STD (R108). Stores a doubleword into the phase buffer or to device space. -/
  | std (i : BitVec 13) (a : BitVec 6) (b : BitVec 6)
  /-- LDZ (R109). Loads a doubleword at a relocation register plus an offset. -/
  | ldz (o : BitVec 15) (z : BitVec 4) (d : BitVec 6)
  /-- STZ (R109). Stores a doubleword at a relocation register plus an offset. -/
  | stz (o : BitVec 15) (z : BitVec 4) (b : BitVec 6)
  /-- BEQ (R110). Branches if two registers are equal. -/
  | beq (i : BitVec 13) (b : BitVec 6) (a : BitVec 6)
  /-- BNE (R110). Branches if two registers differ. -/
  | bne (i : BitVec 13) (b : BitVec 6) (a : BitVec 6)
  /-- BLT (R110). Branches if the first register is below the second, signed. -/
  | blt (i : BitVec 13) (b : BitVec 6) (a : BitVec 6)
  /-- BGE (R110). Branches if the first register is at least the second, signed. -/
  | bge (i : BitVec 13) (b : BitVec 6) (a : BitVec 6)
  /-- BLTU (R110). Branches if the first register is below the second, unsigned. -/
  | bltu (i : BitVec 13) (b : BitVec 6) (a : BitVec 6)
  /-- BGEU (R110). Branches if the first register is at least the second, unsigned. -/
  | bgeu (i : BitVec 13) (b : BitVec 6) (a : BitVec 6)
  /-- JAL (R111). Jumps PC-relative and writes the return address. -/
  | jal (i : BitVec 19) (d : BitVec 6)
  /-- JALR (R111). Jumps to a register plus an immediate and writes the return address. -/
  | jalr (i : BitVec 13) (a : BitVec 6) (d : BitVec 6)
  /-- LOOP (R112). Pushes a loop level whose count comes from a register, or skips the body for a zero count. -/
  | loop (l : BitVec 13) (c : BitVec 6)
  /-- LOOPI (R112). Pushes a loop level with an immediate count, or skips the body for zero. -/
  | loopi (n : BitVec 19) (l : BitVec 6)
  /-- LBRK (R114). Makes the innermost loop end at its next end check. -/
  | lbrk
  /-- LIDX (R115). Writes the index of a loop level to a register. -/
  | lidx (k : BitVec 3) (d : BitVec 6)
  /-- BSET (R116). Copies a scalar register into a composer slot register. -/
  | bset (a : BitVec 6) (s : BitVec 3)
  /-- BFLD (R116). Writes a bit field of a composer slot register from a scalar register. -/
  | bfld (a : BitVec 6) (w : BitVec 6) (p : BitVec 6) (s : BitVec 3)
  /-- BLDT (R117). Loads a composer slot register from template memory. -/
  | bldt (o : BitVec 13) (a : BitVec 6) (s : BitVec 3)
  /-- BHDR (R116). Sets the composer header wait mask H. -/
  | bhdr (a : BitVec 6)
  /-- EMIT (R118). Builds a bundle from the composer and pushes it into the issue queue, stalling while the queue is full. -/
  | emit (c : BitVec 1) (h : BitVec 1) (s : BitVec 2) (p : BitVec 1) (r : BitVec 8) (m : BitVec 7)
  /-- EMITM (R119). Pushes a bundle image read from template memory into the issue queue. -/
  | emitm (o : BitVec 13) (a : BitVec 6)
  /-- NSET (R123). Appends a nest descriptor field write to the pending descriptor list. -/
  | nset (a : BitVec 6) (f : BitVec 5) (n : BitVec 4)
  /-- CSRR (R124). Reads a CSR into a scalar register. -/
  | csrr (c : BitVec 12) (d : BitVec 6)
  /-- CSRW (R124). Writes a CSR and returns its old value. -/
  | csrw (c : BitVec 12) (a : BitVec 6) (d : BitVec 6)
  /-- PHASEG (R125). Performs a PHASE at its scope and waits for it to complete. -/
  | phaseg (s : BitVec 2)
  /-- GCHK (R126). Raises POISON if the named scalar register is poisoned. -/
  | gchk (a : BitVec 6)
  /-- SPIN (R127). Pauses the thread for 64 core cycles or until an enabled interrupt is pending. -/
  | spin
  /-- YIELD (R128). Offers the context for drain when another context of its partition wants residency. -/
  | yield
  /-- HALT (R129). Waits for the queue and back end to empty before halting the context. -/
  | halt
  /-- TRAPC (R130). Raises the generator fault TRAPC with a code. -/
  | trapc (c : BitVec 13)
  /-- XRET (R131). Returns from the innermost handler, releasing a frozen back end after a BUNDLE trap. -/
  | xret
  /-- CPOST (R133). Performs a PHASE at SYS and posts a collective record to the local Serac die, returning its handle. -/
  | cpost (a : BitVec 6) (d : BitVec 6)
  /-- CQRY (R134). Reads the state and ticket rank of a collective handle. -/
  | cqry (a : BitVec 6) (d : BitVec 6)
  /-- DRAINQ (R132). Waits until the queue is empty and every operation of the context is complete. -/
  | drainq
  /-- ILLEGAL_INSTRUCTION (R66). Executing a generator word whose major opcode or fn is unassigned raises the generator fault ILLINS precisely at its PC. -/
  | illegalInstruction (w : BitVec 32)
  /-- NOP (R69). Does nothing, and empties the sticky word of a sticky slot it names. -/
  | nop (slot : Slot)
  /-- FMTSET (R70). Sets the pending format register, taking effect four context cycles later. -/
  | fmtset (acc : BitVec 1) (b a : BitVec 4)
  /-- QCFG_SLACK (R71). Sets the queue slack of the matrix, copy or sync engine. -/
  | qcfgSlack (slack : BitVec 5) (eng : BitVec 3)
  /-- QCFG_PORT (R72). Reserves or releases an accumulator-bank port slot for the context. -/
  | qcfgPort (rv : BitVec 1) (slot bank : BitVec 2)
  /-- STEP (R73). Sets the step register of one field of a sticky slot. -/
  | stepReg (n : BitVec 24) (sel : BitVec 4) (slot : BitVec 3)
  /-- WAITW (R74). Holds the bundle until a channel's oldest operation has delivered the given bytes. -/
  | waitw (bytes : BitVec 15) (ch : BitVec 2)
  /-- SADV (R75). Waits for enough produced beats and earlier MMAs, then advances a stream's consumer pointer. -/
  | sadv (beats : BitVec 10) (sb : BitVec 1)
  /-- MWAIT (R76). Holds the bundle while an earlier matrix operation owns the named C tile. -/
  | mwait (c : BitVec 5)
  /-- CKPT (R77). Places a checkpoint marker after its bundle. -/
  | ckpt
  /-- PROG (R77). Records one progress event for the watchdog. -/
  | prog
  /-- SYNC (R77). Holds until every earlier bundle, operation and landing of the context has finished. -/
  | sync
  /-- VLD (R226). Loads one 64-byte line of an F, W or C tile into a vector register. -/
  | vld (w : MemBuf)
  /-- VST (R226). Stores a vector register into one line of a tile at commit. -/
  | vst (w : MemBuf)
  /-- VLDG (R228). Issues an ordinary load of a global line landing at its arrival cycle. -/
  | vldg (w : MemGlob)
  /-- VLDGS (R231). Issues a speculative global line load that delivers poison instead of faulting. -/
  | vldgs (w : MemGlob)
  /-- VSTG (R228). Stores a vector register as a full line into the phase buffer at commit. -/
  | vstg (w : MemGlob)
  /-- VGTH (R228). Gathers 16 elements by ordinary loads into 32-bit lanes. -/
  | vgth (w : MemGath)
  /-- VGTHS (R231). Gathers 16 elements speculatively. -/
  | vgths (w : MemGath)
  /-- VSCT (R228). Scatters 16 elements into the phase buffer at commit, whole or not at all. -/
  | vsct (w : MemGath)
  /-- PHASE (R232). Performs a PHASE in the bundle stream at the bundle's scope. -/
  | phase
  /-- PFTCH (R228). A prefetch hint that performs no step and never faults. -/
  | pftch (w : MemGlob)
  /-- FILL (R150). Fills a 16 KiB F or W tile from global memory along a nest. -/
  | fill (w : CpyWord)
  /-- FILLS (R151). Fills a W tile by expanding 2:4 structured-sparse data. -/
  | fills (w : CpyWord)
  /-- FEED (R152). Feeds consecutive beats of a tile into operand stream SA or SB. -/
  | feed (w : CpyWord)
  /-- FEEDT (R152). Feeds transposed beats of a tile into an operand stream. -/
  | feedt (w : CpyWord)
  /-- DRAIN (R153). Writes a tile to global memory along a nest by the drain rule. -/
  | drain (w : CpyWord)
  /-- ADDW (R154). Adds global data into an accumulator tile through a port slot. -/
  | addw (w : CpyWord)
  /-- RPUT (R156). Sends bytes of an F tile as fragments to another context's F window with barrier credits. -/
  | rput (w : CpyWord)
  /-- CRESM (R161). From the firmware context, restarts a suspended copy operation at its cursor. -/
  | cresm (w : CpyWord)
  /-- CCLR (R162). Aborts every incomplete copy operation of the target context on a channel. -/
  | cclr (w : CpyWord)
  /-- AADD (R243). Atomically adds to a location at its home and returns the old value. -/
  | aadd (w : SynWord)
  /-- AMIN (R243). Atomically takes the minimum at a location and returns the old value. -/
  | amin (w : SynWord)
  /-- AMAX (R243). Atomically takes the maximum at a location and returns the old value. -/
  | amax (w : SynWord)
  /-- AAND (R243). Atomically ANDs into a location and returns the old value. -/
  | aand (w : SynWord)
  /-- AOR (R243). Atomically ORs into a location and returns the old value. -/
  | aor (w : SynWord)
  /-- AXOR (R243). Atomically XORs into a location and returns the old value. -/
  | axor (w : SynWord)
  /-- ASWP (R243). Atomically swaps a location with an operand and returns the old value. -/
  | aswp (w : SynWord)
  /-- ACAS (R243). Atomically compares and swaps a location and returns the old value. -/
  | acas (w : SynWord)
  /-- RED (R244). Performs a non-returning reduction at a location's home. -/
  | red (w : SynWord)
  /-- ARV (R247). Arrives at a barrier, possibly completing its phase. -/
  | arv (w : SynWord)
  /-- ARVD (R247). Arrives at a barrier and drops out of later phases. -/
  | arvd (w : SynWord)
  /-- BWAIT (R248). Waits at the barrier's home until its phase count reaches a value. -/
  | bwait (w : SynWord)
  /-- BTEST (R249). Reads a barrier's phase count and flags into a register. -/
  | btest (w : SynWord)
  /-- SIG (R252). Adds an increment to a signal at its home. -/
  | sig (w : SynWord)
  /-- SWAIT (R253). Waits at a signal's home until it reaches a value, plainly or idle. -/
  | swait (w : SynWord)
  /-- ULI (R254). Sets a user-level interrupt vector in a target context, or is refused. -/
  | uli (w : SynWord)
  /-- SFENCE (R255). Holds until every earlier sync operation is complete, then checks the async log. -/
  | sfence (w : SynWord)
  /-- BRST (R246). Resets a barrier record's counts, target and mode. -/
  | brst (w : SynWord)
  /-- MMA (R193). Captures FMT and multiplies stream beats into an accumulator tile. -/
  | mma (w : MtxWord)
  /-- MLD (R195). Loads an F tile into an accumulator tile, widening. -/
  | mld (w : MtxWord)
  /-- MLDT (R195). Loads an F tile transposed into an accumulator tile. -/
  | mldt (w : MtxWord)
  /-- MST (R196). Converts an accumulator tile into an F tile. -/
  | mst (w : MtxWord)
  /-- MSTQ (R197). Quantises an accumulator tile into shared-exponent blocks in an F tile. -/
  | mstq (w : MtxWord)
  /-- MCLR (R199). Clears an accumulator tile. -/
  | mclr (w : MtxWord)
  /-- MACC (R200). Adds one accumulator tile into another. -/
  | macc (w : MtxWord)
  /-- VADD (R210). Adds two vectors lane by lane. -/
  | vadd (p : Pipe) (w : VWord)
  /-- VSUB (R210). Subtracts two vectors lane by lane. -/
  | vsub (p : Pipe) (w : VWord)
  /-- VMUL (R210). Multiplies two vectors lane by lane. -/
  | vmul (p : Pipe) (w : VWord)
  /-- VFMA (R210). Fused multiply-add with one rounding. -/
  | vfma (p : Pipe) (w : VWord)
  /-- VFMS (R210). Fused multiply-subtract with one rounding. -/
  | vfms (p : Pipe) (w : VWord)
  /-- VMIN (R210). Takes the lane-wise minimum. -/
  | vmin (p : Pipe) (w : VWord)
  /-- VMAX (R210). Takes the lane-wise maximum. -/
  | vmax (p : Pipe) (w : VWord)
  /-- VABS (R210). Takes the lane-wise absolute value. -/
  | vabs (p : Pipe) (w : VWord)
  /-- VNEG (R210). Negates each lane. -/
  | vneg (p : Pipe) (w : VWord)
  /-- VRCP (R210). Computes the correctly rounded reciprocal of each lane. -/
  | vrcp (p : Pipe) (w : VWord)
  /-- VRSQ (R210). Computes the correctly rounded reciprocal square root. -/
  | vrsq (p : Pipe) (w : VWord)
  /-- VEXP2 (R210). Computes 2 to the power of each lane, correctly rounded. -/
  | vexp2 (p : Pipe) (w : VWord)
  /-- VDIV (R210). Divides two vectors lane by lane. -/
  | vdiv (p : Pipe) (w : VWord)
  /-- VAND (R212). Bitwise AND of two vectors. -/
  | vand (p : Pipe) (w : VWord)
  /-- VOR (R212). Bitwise OR of two vectors. -/
  | vor (p : Pipe) (w : VWord)
  /-- VXOR (R212). Bitwise XOR of two vectors. -/
  | vxor (p : Pipe) (w : VWord)
  /-- VNOT (R212). Bitwise complement of a vector. -/
  | vnot (p : Pipe) (w : VWord)
  /-- VSHL (R212). Shifts lanes left by per-lane amounts. -/
  | vshl (p : Pipe) (w : VWord)
  /-- VSHR (R212). Shifts lanes right logically by per-lane amounts. -/
  | vshr (p : Pipe) (w : VWord)
  /-- VSRA (R212). Shifts lanes right arithmetically by per-lane amounts. -/
  | vsra (p : Pipe) (w : VWord)
  /-- VSHLI (R212). Shifts lanes left by an immediate. -/
  | vshli (p : Pipe) (w : VWord)
  /-- VSHRI (R212). Shifts lanes right logically by an immediate. -/
  | vshri (p : Pipe) (w : VWord)
  /-- VMULH (R212). Writes the high half of each lane product. -/
  | vmulh (p : Pipe) (w : VWord)
  /-- VCLZ (R212). Counts leading zeros of each lane. -/
  | vclz (p : Pipe) (w : VWord)
  /-- VWADD (R213). Adds lanes into a register pair at double width. -/
  | vwadd (p : Pipe) (w : VWord)
  /-- VWACC (R213). Accumulates widened lanes into a register pair. -/
  | vwacc (p : Pipe) (w : VWord)
  /-- VWMUL (R213). Multiplies lanes into a register pair at double width. -/
  | vwmul (p : Pipe) (w : VWord)
  /-- VCMP (R214). Compares lanes and writes a predicate. -/
  | vcmp (p : Pipe) (w : VWord)
  /-- VSEL (R215). Selects lanes between two registers by a predicate. -/
  | vsel (p : Pipe) (w : VWord)
  /-- QOP (R216). Combines two predicates through a truth table. -/
  | qop (p : Pipe) (w : VWord)
  /-- VCVT (R217). Converts lanes from one type to another. -/
  | vcvt (p : Pipe) (w : VWord)
  /-- VQNT (R218). Quantises 16 binary32 lanes into one shared-exponent block. -/
  | vqnt (p : Pipe) (w : VWord)
  /-- VDQNT (R219). Decodes one shared-exponent block into binary32 lanes. -/
  | vdqnt (p : Pipe) (w : VWord)
  /-- VSCAN (R220). Computes a carried-in prefix combination across lanes. -/
  | vscan (p : Pipe) (w : VWord)
  /-- VRED (R221). Reduces the true lanes of a register into lane 0. -/
  | vred (p : Pipe) (w : VWord)
  /-- VPERM (R222). Permutes lanes by an index register. -/
  | vperm (p : Pipe) (w : VWord)
  /-- VBCST (R222). Broadcasts one lane to every lane. -/
  | vbcst (p : Pipe) (w : VWord)
  /-- VSHFL (R222). Shifts lanes across two registers. -/
  | vshfl (p : Pipe) (w : VWord)
  /-- VIOTA (R222). Writes an immediate plus the lane index in each lane. -/
  | viota (p : Pipe) (w : VWord)
  /-- VMOV (R222). Copies lanes bit for bit. -/
  | vmov (p : Pipe) (w : VWord)
  /-- VMOVI (R222). Writes a sign-extended 10-bit immediate into each lane. -/
  | vmovi (p : Pipe) (w : VWord)
  /-- VLDI (R222). Writes a 30-bit immediate into each lane by type. -/
  | vldi (p : Pipe) (w : VWord)
  /-- VCHK (R223). Raises the bundle fault VCHK if a register is poisoned. -/
  | vchk (p : Pipe) (w : VWord)
  /-- VCLRP (R224). Clears the poison tag of a register. -/
  | vclrp (p : Pipe) (w : VWord)
  /-- VSTAT (R225). Reads a C-tile status, VFLAGS, OORFLAG or landing count into lane 0. -/
  | vstat (p : Pipe) (w : VWord)
  /-- SPIN_LIMIT_REACHED (R269). A spin wait lasting beyond SPINLIM makes the context spinning. -/
  | spinLimitReached (ctx : Nat)
  /-- RESLATE (R270). A wanting age beyond PDL reports RESLATE once. -/
  | reslate (ctx : Nat)
  /-- COLDCAND (R281). A context NONRES and not wanting beyond COLDAGE is reported. -/
  | coldcand (ctx : Nat)
  /-- SLICE_END (R271). A context resident for SLICE core cycles is pre-empted if someone wants its slot, else its slice restarts. -/
  | sliceEnd (ctx : Nat)
  /-- SLOT_TABLE_UPDATE (R263). A slot-table write takes effect at the next cycle whose entry index is 0. -/
  | slotTableUpdate (core : Nat)
  /-- CHECKPOINT_LATEST (R275). A pending marker becomes the latest checkpoint once all before it is complete. -/
  | checkpointLatest (ctx : Nat)
  /-- WATCHDOG_FIRE (R331). A watchdog count reaching WDWIN freezes the context and posts WATCHDOG. -/
  | watchdogFire (ctx : Nat)
  /-- INTERVAL_CHECKPOINT (R275). After CKPTINT cycles of residency a marker is placed at the next boundary. -/
  | intervalCheckpoint (ctx : Nat)
  /-- FATAL_TRAP (R329). A fatal trap freezes the context, settles its work and withdraws its waiters. -/
  | fatalTrap (ctx : Nat)
  /-- CONTEXT_DEAD (R329). After the dump the context is saved, placed in DEAD and FATAL posted. -/
  | contextDead (ctx : Nat)
  /-- RIME_DUMP (R332). The dump engine writes an encrypted dump into the next free slot, or posts DUMPLOST. -/
  | rimeDump (ctx : Nat)
  /-- CONTEXT_DRAIN (R279). A drained context, its work settled and waiter parked, is saved as NONRES. -/
  | contextDrain (ctx : Nat)
  /-- ROLLBACK (R278). An eligible context is rolled back to its latest checkpoint and saved as NONRES. -/
  | rollback (ctx : Nat)
  /-- CONTEXT_RESTORE (R279). A saved context becomes RESIDENT in a usable slot of its core. -/
  | contextRestore (ctx : Nat)
  /-- FAIRNESS_WINDOW_START (R267). At each multiple of the window length every record's boost cycles reset. -/
  | fairnessWindowStart (die : Nat)
  /-- BOOST_DECAY (R267). At each BDECAY period every boost level above 0 decreases by one. -/
  | boostDecay (die : Nat)
  /-- LANDING_REPLAY (R274). A restored context replays a landing entry into its window and applies its credit. -/
  | landingReplay (ctx : Nat)
  /-- TILE_REFETCH (R280). On restore a read-only staged tile is filled again from its recorded descriptor. -/
  | tileRefetch (ctx : Nat)
  /-- DIE_CYCLE (R271). Each die cycle the scheduler applies arrivals and takes at most one residency decision per core. -/
  | dieCycle (die : Nat)
  /-- CORE_CYCLE (R264). Each core cycle decides freeze, the cycle's owner from the slot table, and flex grants. -/
  | coreCycle (core : Nat) (env : CycleEnv)
  /-- BUNDLE_COMMIT (R23). A bundle commits 8 context cycles after issue, making results architectural and starting its asynchronous operations. -/
  | bundleCommit (ctx : Nat)
  /-- VECTOR_RESULT_DUE (R206). A synchronous vector result is written to its destination at issue plus its latency. -/
  | vectorResultDue (ctx : Nat)
  /-- FMT_TAKES_EFFECT (R70). The pending format of a FMTSET becomes visible four context cycles after issue. -/
  | fmtTakesEffect (ctx : Nat)
  /-- LANDING_DATA_ARRIVES (R229). Data of a global load or returned sync result arrives into its landing entry. -/
  | landingDataArrives (ctx : Nat) (entry : Nat)
  /-- TIMED_LANDING (R229). At its arrival cycle the landed data is written to the register and the entry freed, or LATE holds. -/
  | timedLanding (ctx : Nat)
  /-- LOAD_PERFORM (R36). An ordinary load is answered from phase buffer, transit set, snapshot or home in one step. -/
  | loadPerform (ctx : Nat) (which : LoadRef)
  /-- TRANSIT_WRITE_APPLY (R34). A home applies a write of a transit set in per-sender order. -/
  | transitWriteApply (ctx : Nat) (k : Nat)
  /-- SNAPSHOT_LINE_DROP (R34). The machine drops a line from a context's snapshot. -/
  | snapshotLineDrop (ctx : Nat) (line : Nat)
  /-- PHASE_SEND (R38). Once earlier loads are performed, a PHASE moves the phase buffer into the transit set. -/
  | phaseSend (ctx : Nat) (k : Nat)
  /-- PHASE_COMPLETE (R38). Once its writes are applied in scope, a PHASE drops snapshot lines, checks the async log and completes. -/
  | phaseComplete (ctx : Nat) (k : Nat)
  /-- HALT_COMPLETE (R48). After all operations complete, HALT performs a PHASE at SYS and the context enters HALTED. -/
  | haltComplete (ctx : Nat)
  /-- DRAINQ_COMPLETE (R132). A waiting DRAINQ releases once queue and operations are done. -/
  | drainqComplete (ctx : Nat)
  /-- SPIN_TIMEOUT (R127). A SPIN ends after 64 core cycles. -/
  | spinTimeout (ctx : Nat)
  /-- BUNDLE_TRAP (R135). A pending bundle fault is taken as a BUNDLE trap at the thread's next boundary. -/
  | bundleTrap (ctx : Nat)
  /-- ULI_DELIVERY (R137). A pending enabled user-level interrupt is delivered to ULIVEC at a boundary. -/
  | uliDelivery (ctx : Nat)
  /-- COPY_OP_BEGIN (R141). A copy operation at the head of its channel list begins once the previous one has delivered. -/
  | copyOpBegin (ctx : Nat) (ch : Nat)
  /-- COPY_CHUNK (R146). A channel delivers the next 256-byte chunk of an operation, advancing its write pointer. -/
  | copyChunk (ctx : Nat) (ch : Nat) (ahead : Option Nat)
  /-- FEED_BEAT_LAND (R152). A FEED lands one beat in its stream once the stream has room. -/
  | feedBeatLand (ctx : Nat) (ch : Nat)
  /-- ADDW_ROW_WRITE (R155). An ADDW adds one row into its C tile in an open port slot cycle. -/
  | addwRowWrite (ctx : Nat) (ch : Nat) (row : Nat)
  /-- FRAGMENT_ARRIVAL (R158). The receiver die writes, lands, refuses with RETRY or rejects an RPUT fragment. -/
  | fragmentArrival (ctx : Nat) (ch : Nat)
  /-- FRAGMENT_RESPONSE (R158). The sender's channel takes acceptance as delivery, or backs off after RETRY. -/
  | fragmentResponse (ctx : Nat) (ch : Nat)
  /-- RPUT_BACKOFF_EXPIRY (R158). After its backoff the channel resends the refused fragment. -/
  | rputBackoffExpiry (ctx : Nat) (ch : Nat)
  /-- BARRIER_CREDIT (R247). A fragment's byte credit is applied at the barrier's home after its data, possibly completing a phase. -/
  | barrierCredit (k : Nat)
  /-- MATRIX_OP_BEGIN (R185). The matrix engine begins a context's head operation when its conditions and resources allow. -/
  | matrixOpBegin (core : Nat)
  /-- MMA_GROUP (R193). An MMA reads one group of beats once they have landed and accumulates it. -/
  | mmaGroup (ctx : Nat) (k : Nat)
  /-- MATRIX_OP_COMPLETE (R194). A matrix operation completes when its last row is written, updating status and flags. -/
  | matrixOpComplete (ctx : Nat) (k : Nat)
  /-- SYNC_OP_PERFORM (R43). A sync operation is performed in one step at its home's sync engine. -/
  | syncOpPerform (ctx : Nat) (k : Nat)
  /-- SYNC_ANSWER_ARRIVAL (R242). A home's acknowledgement or answer reaches the context, completing the operation and releasing a SYNC hold. -/
  | syncAnswerArrival (ctx : Nat) (k : Nat)
  /-- WAITER_BUSY_RESEND (R258). A wait answered BUSY is sent again after 1,024 core cycles. -/
  | waiterBusyResend (ctx : Nat)
  /-- ASYNC_LOG_RECORD (R257). A remote home's refusal returns and appends a record to the async log. -/
  | asyncLogRecord (ctx : Nat) (k : Nat)
  /-- INVALIDATE_ALL (R55). INVCMD kind 0 queues removal of every translation the die holds. -/
  | invalidateAll (die : Nat)
  /-- INVALIDATE_VA_RANGE (R55). INVCMD kind 1 queues removal of translations under INVROOT meeting the range. -/
  | invalidateVaRange (die : Nat)
  /-- INVALIDATE_IPA_RANGE (R55). INVCMD kind 2 queues removal of a partition's translations meeting the intermediate range. -/
  | invalidateIpaRange (die : Nat) (part : BitVec 4)
  /-- INVALIDATE_ROOT (R55). INVCMD kind 3 queues removal of every translation under INVROOT. -/
  | invalidateRoot (die : Nat)
  /-- INVALIDATE_PARTITION (R55). INVCMD kind 4 queues removal of every translation of a partition. -/
  | invalidatePartition (die : Nat) (part : BitVec 4)
  /-- INVALIDATION_COMPLETE (R55). A queued invalidation completes and INVSTAT's count increments. -/
  | invalidationComplete (die : Nat)
  /-- BT_START (R164). An aperture store queues a start on a block-transfer engine or is dropped with a report. -/
  | btStart (die : Nat) (part : Nat) (off : Nat) (size : Nat) (value : Word) (root : Nat)
  /-- BT_TAKE_START (R166). A free block-transfer engine takes its next queued start and reads template and argument. -/
  | btTakeStart (die : Nat) (eng : Nat)
  /-- BT_CHUNK (R167). A block-transfer engine moves a chunk, suspending on a translation fault. -/
  | btChunk (die : Nat) (eng : Nat)
  /-- BT_COMPLETE (R166). Once every write is applied the engine signals, raises its interrupt and counts the transfer. -/
  | btComplete (die : Nat) (eng : Nat)
  /-- QUEUE_START (R285). STATE write 1 from DISABLED starts a queue from QBASE with zero pointers. -/
  | queueStart (die : Nat) (h : Nat)
  /-- QUEUE_RESUME (R285). STATE write 1 from STOPPED or PARKED runs the queue again, refetching. -/
  | queueResume (die : Nat) (h : Nat)
  /-- QUEUE_PARK (R285). STATE write 3 parks a running queue before its next packet. -/
  | queuePark (die : Nat) (h : Nat)
  /-- QUEUE_DISABLE (R285). STATE write 0 parks and disables a queue. -/
  | queueDisable (die : Nat) (h : Nat)
  /-- DOORBELL (R286). A doorbell store sets a queue's write pointer, stopping it with BADPTR if too far ahead. -/
  | doorbell (die : Nat) (part : Nat) (off : Nat) (size : Nat) (value : Word)
  /-- PACKET_FETCH (R298). The command processor reads a copy of a packet ahead along the expected path. -/
  | packetFetch (die : Nat) (h : Nat)
  /-- PKT_NOP (R289). A NOP packet completes at execution. -/
  | pktNop (die : Nat) (h : Nat)
  /-- INVOKE (R292). An INVOKE packet reads its model slot, checks engines and contexts, and starts a task graph. -/
  | invoke (die : Nat) (h : Nat)
  /-- INVOKE_START (R292). The INVOKE lays out static shares and sends them to the dies' schedulers. -/
  | invokeStart (die : Nat) (h : Nat)
  /-- TASK_GRAPH_END (R292). When every tile task has halted the INVOKE completes. -/
  | taskGraphEnd (die : Nat) (h : Nat)
  /-- IB (R293). An IB packet executes the packets of a buffer and returns. -/
  | ib (die : Nat) (h : Nat)
  /-- PRED (R295). A PRED reads a word as a SYS sync operation and skips packets when its condition fails. -/
  | pred (die : Nat) (h : Nat)
  /-- PKT_LOOP (R294). A LOOP packet runs the next packets a given number of times. -/
  | pktLoop (die : Nat) (h : Nat)
  /-- PKT_WAIT (R296). A WAIT packet waits at a signal's home until it reaches a value. -/
  | pktWait (die : Nat) (h : Nat)
  /-- PKT_SIG_ADD (R296). A SIG packet with operation add increments a signal at SYS. -/
  | pktSigAdd (die : Nat) (h : Nat)
  /-- PKT_SIG_SET (R296). A SIG packet with operation set swaps a signal at SYS and answers waiters. -/
  | pktSigSet (die : Nat) (h : Nat)
  /-- FFENCE (R299). Waits for earlier packets, discards fetched copies behind it and refetches. -/
  | ffence (die : Nat) (h : Nat)
  /-- FAULT_SERVED (R325). An FSERV store with bit 0 set closes a fault entry as served and retries the source. -/
  | faultServed (port : FaultPort) (seq : BitVec 32)
  /-- FAULT_DECLINED (R325). An FSERV store with bit 0 clear closes a fault entry as declined. -/
  | faultDeclined (port : FaultPort) (seq : BitVec 32)
  /-- FAULT_QUEUE_HEAD_ADVANCE (R327). Advancing the fault queue HEAD writes entries of waiting faults in order. -/
  | faultQueueHeadAdvance (port : FaultPort) (head : BitVec 32)
  /-- THAW (R336). A THAW store clears a watchdog-frozen context's mark and count. -/
  | thaw (die : Nat) (value : Word)
  /-- REGISTER_WRITE (R3). A write to a control register without behaviour of its own, obeying field access codes. -/
  | registerWrite (page : DevPage) (off : Nat) (size : Nat) (value : Word)
  /-- HOST_WRITE (R49). A host write over PCI Express is applied at its home in arrival order. -/
  | hostWrite (serac : Nat) (pa : Nat) (data : List Byte)
  /-- HOST_READ (R49). A host read is answered at the home. -/
  | hostRead (serac : Nat) (pa : Nat) (n : Nat)
  /-- STEAL_REQUEST (R14). A victim die answers a thief's steal request with the upper half of its unplaced indices. -/
  | stealRequest (victim : Nat)
  /-- RETIREMENT (R282). Retiring a core, HBM channel or link freezes contexts and scales minima into EFFMIN. -/
  | retirement (die : Nat) (what : Retire)
  /-- POST_ACCEPT (R307). The Serac die takes an entry, copies and checks the record, assigns the instance and returns a handle. -/
  | postAccept (ctx : Nat)
  /-- COORDINATOR_NOTICE (R311). A coordinator receives a notice and tickets or faults a complete instance. -/
  | coordinatorNotice (serac : Nat) (k : Nat)
  /-- TICKET_REQUEST (R312). The ticket sequencer issues the next rank and sends start tickets to members. -/
  | ticketRequest (serac : Nat)
  /-- TICKET_TAKE (R313). A member takes a start ticket once its previous rank has been taken. -/
  | ticketTake (serac : Nat) (k : Nat)
  /-- RESERVATION (R313). A member reserves slots, buffers and lanes for a taken ticket, or faults with NOBUF. -/
  | reservation (serac : Nat) (k : Nat)
  /-- CONFIRMATION (R313). Once all members have reserved, the instance becomes RUNNING. -/
  | confirmation (serac : Nat) (k : Nat)
  /-- CHUNK_BOUNDARY (R317). At a link or ALU chunk boundary the Serac die picks the next chunk by priority and weight. -/
  | chunkBoundary (serac : Nat) (res : CollResource)
  /-- CHUNK_TRANSFER (R316). A collective chunk is read, reduced and written by the tile-path rule. -/
  | chunkTransfer (serac : Nat) (res : CollResource) (order : List Nat)
  /-- CREDIT_RETURN (R317). A receiving Serac die returns virtual channel credit. -/
  | creditReturn (serac : Nat) (link : Nat) (vc : Nat)
  /-- INSTANCE_COMPLETE (R319). An instance becomes DONE at a member, then signals and sets its interrupt. -/
  | instanceComplete (serac : Nat) (k : Nat)
  /-- INSTANCE_FAULT (R319). A faulted instance ends as FAULT, releasing reservations and reporting. -/
  | instanceFault (serac : Nat) (k : Nat)
  /-- SRAM_ECC_ERROR (R337). An ECC error is corrected and counted, poisons its line, or raises a machine check. -/
  | sramEccError (site : EccSite)
  /-- RESET_BOOT (R341, R342). At reset the boot ROM advances the boot count, picks and verifies a slot and boots or enters recovery;
  before it Deresk may have updated its firmware to an image. -/
  | resetBoot (boot : Reboot)
  /-- SPDM_MEASUREMENT (R343). A measurement request is answered with signed measurements over SPDM. -/
  | spdmMeasurement (serac : Nat) (nonce : List Byte)
  /-- DUMP_KEY_DELIVERY (R333). A tenant delivers its dump key over SPDM and the dump engine wraps it. -/
  | dumpKeyDelivery (serac : Nat) (tenant : BitVec 16) (key : BitVec 256)
  /-- STEAL_ANSWER (R14). A thief die receives the victim's answer to its steal request and places the stolen range, or tries the die with the next-largest count after an empty range. -/
  | stealAnswer (thief : Nat)
  /-- POWER_LOSS (R341). Loss of power stops the package mid-operation and may tear a flash write of a boot-count copy, a marker copy or a slot. -/
  | powerLoss (pkg : Nat) (torn : Option FlashTear)
  /-- PEER_UNREACHABLE (R319). A member's package or Serac die ceases to be reachable, faulting its collectives with UNREACH and refusing remote operations with UNREACH. -/
  | peerUnreachable (serac : Nat) (lost : Nat)
  /-- REDFISH_REQUEST (R346, R342). A DMTF Redfish request arrives at the 25 Gbit/s Ethernet port of Serac die 0 and is served by Deresk, which
  may update its firmware on it. -/
  | redfishRequest (pkg : Nat) (request : List Byte)
deriving DecidableEq, Repr

end Sys2Proof
end

