-- ==== Sys2Proof/Machine/State.lean ====
section
/-! DEFINITION. The state of the machine: everything the spec gives it, as plain data. Maps from numbers are sorted
lists of pairs (`SMap`), read with a default (Machine/SMap.lean). -/

namespace Sys2Proof.Machine

/-- A map from numbers, as a list of pairs; an unlisted key reads as the default its field's docstring names. -/
abbrev SMap (α : Type) := List (Nat × α)

/-! ### Generator thread (R101) -/

/-- One level of the loop stack (R101, R112). -/
structure LoopLevel where
  index : Word
  count : Word
  start : Word
  stop : Word
deriving DecidableEq, Repr

/-- One NSET write (R123). -/
structure NestWrite where
  n : Nat
  field : Nat
  value : Word
deriving DecidableEq, Repr

/-- The generator wait a thread is in (R103). -/
inductive GenWait where
  | none
  /-- PHASEG waits for its PHASE (R125) -/
  | phaseg
  /-- SPIN since this core cycle (R127) -/
  | spin (since : Nat)
  | drainq
  | halt
  /-- HALT's PHASE at SYS is under way (R48) -/
  | haltPhase
  /-- CPOST's PHASE at SYS is under way (R133) -/
  | cpostPhase (d : Nat) (rec : Word)
  /-- the posting is at the Serac die (R133); the entry it has taken, where the record's read is retried -/
  | cpostSent (d : Nat) (rec : Word) (entry : Option Nat)
  /-- the record's read waits for a page (R305) -/
  | cpostPage (d : Nat) (rec : Word) (entry : Nat)
  /-- an EMIT or EMITM stalls on a full queue (R17) -/
  | queueFull
  /-- a NOTPRES fault is open (R324) -/
  | page
deriving DecidableEq, Repr

/-- The location of a byte after translation (R51, R52): package, physical address, home code, DEV, OWN. -/
structure Loc where
  pkg : Nat
  pa : Nat
  home : Nat
  dev : Bool
  own : Bool
deriving DecidableEq, Repr

/-- A generator load that has executed and is still to be performed (R36): register, location, bytes, extension; EMITSEQ at its
execution and the number of the first bundle pushed later that has issued (R35); PHASEGs at CORE scope executed since, which end its
phase (R38). -/
structure GenLoad where
  d : BitVec 6
  loc : Loc
  size : Nat
  signed : Bool
  emit : BitVec 32
  before : Option Nat
  age : Nat
deriving DecidableEq, Repr

/-- The state of one generator thread with its own CSRs (R101, R104). -/
structure Thread where
  pc : Word
  /-- s0-s63; unlisted reads 0 -/
  regs : SMap Word
  rpoison : BitVec 64
  /-- i0 first -/
  loops : List LoopLevel
  /-- unlisted reads 0 -/
  composer : SMap Word
  cpoison : BitVec 8
  hreg : BitVec 8
  pending : List NestWrite
  emitSeq : BitVec 32
  tvec : Word
  tcause : Word
  tpc : Word
  tval : Word
  tstate : Word
  bfpc : Word
  bfseq : Word
  bfslot : Word
  bfcause : Word
  bfaddr : Word
  bfperf : BitVec 7
  ulivec : Word
  ulipend : Word
  ulimask : Word
  ulipc : Word
  ckptint : Word
  /-- the point before pc is a boundary (R115) -/
  boundary : Bool
  /-- the model's own count of the thread's CPOSTs, device-space stores and sent wide PHASEGs (R277): a marker of an
  earlier count is followed by one -/
  sideOps : Nat
  /-- loads that have executed and are still to be performed (R36), in order -/
  loads : List GenLoad
deriving DecidableEq, Repr

/-- A thread at context start (R101, R104): every register zero. -/
def Thread.start (pc : Word) : Thread where
  pc := pc
  regs := []
  rpoison := 0
  loops := []
  composer := []
  cpoison := 0
  hreg := 0
  pending := []
  emitSeq := 0
  tvec := 0
  tcause := 0
  tpc := 0
  tval := 0
  tstate := 0
  bfpc := 0
  bfseq := 0
  bfslot := 0
  bfcause := 0
  bfaddr := 0
  bfperf := 0
  ulivec := 0
  ulipend := 0
  ulimask := 0
  ulipc := 0
  ckptint := 0
  boundary := true
  sideOps := 0
  loads := []

/-! ### Back end of a context (R10, R59, R204) -/

/-- Format register FMT (R70): format codes of A and B, and 1 for an INT32 accumulator. -/
structure Fmt where
  a : BitVec 4
  b : BitVec 4
  acc : BitVec 1
deriving DecidableEq, Repr

/-- The vector registers, predicates and latches with their poison tags (R204). -/
structure VState where
  /-- v0-v1023; unlisted reads 0 -/
  regs : SMap Line
  poison : BitVec 1024
  /-- q1-q7; unlisted reads all ones (q0 always does) -/
  preds : SMap Word
  qpoison : BitVec 8
  /-- latch A, B of VX, A, B of VY; unlisted reads 0 -/
  latches : SMap Line
  lpoison : BitVec 4
deriving DecidableEq, Repr

/-- One slot of an operand stream (R187). -/
structure Beat where
  data : BitVec 2048
  tag : BitVec 4
  poison : Bool
deriving DecidableEq, Repr

/-- One operand stream (R187). -/
structure Stream where
  produced : BitVec 32
  consumer : BitVec 32
  /-- unlisted: zero, tag 0, clean -/
  slots : SMap Beat
deriving DecidableEq, Repr

/-- One copy status record (R160). -/
structure CopyStat where
  state : BitVec 2
  badmeta : Bool
  poisoned : Bool
  sub : BitVec 8
  cause : BitVec 8
  retries : BitVec 32
  retryTotal : Word
  clipped : Word
  poisonLines : Word
  addr : Word
  pc : Word
  seq : BitVec 32
  wp : BitVec 32
  cursor : List (BitVec 32)
  token : BitVec 3
  op : BitVec 6
deriving DecidableEq, Repr

def CopyStat.start : CopyStat where
  state := 0
  badmeta := false
  poisoned := false
  sub := 0
  cause := 0
  retries := 0
  retryTotal := 0
  clipped := 0
  poisonLines := 0
  addr := 0
  pc := 0
  seq := 0
  wp := 0
  cursor := [0, 0, 0, 0, 0, 0]
  token := 0
  op := 0

/-- Back-end state that a checkpoint covers (R276) and the saved image holds (R279). -/
structure BackEnd where
  /-- Sticky of slots 1-5; unlisted reads 0, which is NOP -/
  sticky : SMap Word
  /-- Count of slots 1-5; unlisted reads 0 -/
  count : SMap Nat
  /-- Step[s][f], keyed 8 s + f; unlisted reads 0 -/
  steps : SMap (BitVec 24)
  vec : VState
  fmt : Fmt
  slackMtx : Nat
  slackCpy : Nat
  slackSyn : Nat
  /-- bit 4 bank + slot (R72) -/
  ports : BitVec 16
  sa : Stream
  sb : Stream
  /-- outstanding counts of k0-k7; unlisted reads 0 -/
  tokens : SMap Nat
  /-- field f of descriptor n, keyed 32 n + f; unlisted reads 0 -/
  nests : SMap Word
  /-- unlisted reads CopyStat.start -/
  cstat : SMap CopyStat
  vflags : Word
  oorflag : Word
  ooraddr : Word
deriving DecidableEq, Repr

def Stream.start : Stream := { produced := 0, consumer := 0, slots := [] }

def VState.start : VState :=
  { regs := [], poison := 0, preds := [], qpoison := 0, latches := [], lpoison := 0 }

/-- The back end at context start (R59, R70, R71, R187, R204). -/
def BackEnd.start : BackEnd where
  sticky := []
  count := []
  steps := []
  vec := VState.start
  fmt := { a := 0, b := 0, acc := 0 }
  slackMtx := 8
  slackCpy := 16
  slackSyn := 16
  ports := 0
  sa := Stream.start
  sb := Stream.start
  tokens := []
  nests := []
  cstat := []
  vflags := 0
  oorflag := 0
  ooraddr := 0

/-! ### Work in flight -/

/-- What a register result writes (R206, R224). -/
inductive WriteTarget where
  /-- bytes of a vector register chosen by the mask; `keepPoison`: the old tag stays as it was besides (VSTAT
  and whole writes clear it) -/
  | vreg (r : Nat) (mask : BitVec 64) (data : Line)
  | pred (p : Nat) (mask : Word) (data : Word)
  | clearV (r : Nat)
  | clearQ (p : Nat)
deriving DecidableEq, Repr

/-- A register result on its way: due before the reads of context cycle `due`, issued as number `idx`, in slot
order `ord` (R207). -/
structure RegWrite where
  due : Nat
  idx : Nat
  ord : Nat
  target : WriteTarget
  poison : Bool
deriving DecidableEq, Repr

/-- A FMTSET within its shadow (R70). -/
structure PendingFmt where
  due : Nat
  idx : Nat
  fmt : Fmt
deriving DecidableEq, Repr

/-- The steps and slacks as a repeated bundle met them: what its CTL operation changes acts on later bundles only (R71, R73). -/
structure Seen where
  steps : SMap (BitVec 24)
  slackMtx : Nat
  slackCpy : Nat
  slackSyn : Nat
deriving DecidableEq, Repr

/-- A queue entry: a bundle image with provenance, descriptor writes and repetition position, or a descriptor entry
(R57, R121, R123, R139); `after` is the thread's state right after the push, for a marker the bundle gives rise to
(R140). -/
structure QEntry where
  isDesc : Bool
  header : BitVec 32
  words : SMap Word
  pc : Word
  seq : BitVec 32
  nest : List NestWrite
  reps : Nat
  after : Thread
  /-- a repetition of it gives rise to a marker -/
  marks : Bool
  /-- slots its next repetition leaves out (BFPERF, R135) -/
  skip : BitVec 7
  /-- once repetition 1 has issued -/
  seen : Option Seen
deriving DecidableEq, Repr

/-- An item of the issue queue: an entry, or a checkpoint marker in its place in issue order (R140); `waits`: its PHASEG
is not complete; `bundle`: a bundle gave rise to it. -/
inductive QItem where
  | entry (e : QEntry)
  | marker (t : Thread) (waits : Bool) (bundle : Bool)
deriving DecidableEq, Repr

/-- A store of a slot operation waiting for its bundle's commit (R37, R226, R228): one per line. -/
structure LineStore where
  va : Word
  loc : Loc
  mask : BitVec 64
  data : Line
  poison : Bool
deriving DecidableEq, Repr

/-- A translation fault: subcause (bit 7 set for stage 2) and lowest faulting address (R53). -/
structure XFault where
  sub : BitVec 8
  va : Word
deriving DecidableEq, Repr

/-- What a bundle does at its commit (R23). -/
inductive CommitAct where
  /-- VST: the F, W or C line -/
  | bufStore (buf : Nat) (tile line : Nat) (data : Line) (poison : Bool)
  /-- VSTG, VSCT -/
  | memStore (stores : List LineStore)
  /-- flags of the vector operations and of VQNT -/
  | flags (f : Word)
  /-- a buffer access outside the window: buffer, tile, row, byte (R226) -/
  | outOfRange (buf tile row byte : Nat)
  /-- MEM PHASE at a scope, with its place among the phase boundaries -/
  | phase (scope : BitVec 2) (phaseNo : Nat)
  | copy (id : Nat)
  | matrix (id : Nat)
  | sync (id : Nat)
  /-- CRESM, CCLR: channel and target slot -/
  | resume (ch : Nat) (slot : Nat)
  | clear (ch : Nat) (slot : Option Nat)
deriving DecidableEq, Repr

/-- Values that go back when R24 cancels an issue (R24, R62, R208). -/
structure IssueUndo where
  sticky : SMap Word
  count : SMap Nat
  steps : SMap (BitVec 24)
  latches : SMap Line
  lpoison : BitVec 4
  slackMtx : Nat
  slackCpy : Nat
  slackSyn : Nat
  ports : BitVec 16
  saConsumer : BitVec 32
  sbConsumer : BitVec 32
  nests : SMap Word
deriving DecidableEq, Repr

/-- A bundle repetition that has issued and not committed (R23, R24). -/
structure Issued where
  idx : Nat
  cc : Nat
  /-- the entry as it stood before this repetition -/
  entry : QEntry
  undo : IssueUndo
  acts : List CommitAct
  /-- a translation fault found at issue, taken at the commit point: slot and fault (R230, R239) -/
  fault : Option (Nat × XFault)
  /-- the marker that follows this bundle (R140) -/
  marks : Bool
  /-- the C tile that its VLD has read (R188) -/
  cRead : Option Nat
deriving DecidableEq, Repr

/-- The replay buffer (R24): the faulting bundle; its performed bits are BFPERF's. -/
structure Replay where
  entry : QEntry
  /-- the bundle is being served by the page-fault service, not by the tenant (R324) -/
  paging : Bool
deriving DecidableEq, Repr

/-- One load still to be performed for a landing entry (R36, R229): the lane, its address and location (none: speculative
and refused), its bytes, and whether the lane is sign-extended. A lane that crosses a line is two parts. -/
structure LoadPart where
  lane : Nat
  va : Word
  loc : Option Loc
  size : Nat
  signed : Bool
deriving DecidableEq, Repr

/-- A landing entry (R229, R240). -/
structure Landing where
  idx : Nat
  /-- context cycle at which it lands -/
  due : Nat
  v : Nat
  /-- 0 VLDG or VLDGS, 1 VGTH or VGTHS, 2 sync result (R350 section 11) -/
  kind : Nat
  /-- bytes of the register the landing writes -/
  mask : BitVec 64
  data : Line
  poison : Bool
  /-- loads still to be performed -/
  todo : List LoadPart
  /-- its data has arrived -/
  arrived : Bool
  /-- the phase of the bundle stream the load was issued in (R36) -/
  phaseNo : Nat
deriving DecidableEq, Repr

/-- State of a copy operation (R141, R158-R160). -/
inductive CopyState where
  | queued
  | running
  /-- an RPUT fragment is on its way to the receiver's die (R157) -/
  | sent
  /-- the receiver's answer is on its way: accepted, or RETRY, or a rejection (R158) -/
  | answered (accepted : Bool) (retry : Bool)
  | suspended
  /-- until this core cycle (R158) -/
  | backoff (n : Nat) (until_ : Nat)
deriving DecidableEq, Repr

/-- A copy operation (R141). -/
structure CopyOp where
  id : Nat
  idx : Nat
  op : BitVec 6
  w : CpyWord
  /-- the 27 descriptor fields as this operation uses them -/
  nest : List Word
  /-- ZREL of field 1 -/
  zrel : Word
  pc : Word
  seq : BitVec 32
  committed : Bool
  state : CopyState
  /-- chunks delivered -/
  done : Nat
  /-- reads of chunks still to be delivered that are performed (R40): number of the access, bytes with poison -/
  got : List (Nat × List (BitVec 8 × Bool))
  /-- writes of chunks still to be delivered that are applied (R40), by their numbers (DRAIN); the row made ready (ADDW) -/
  put : List Nat
  /-- the payload of an RPUT fragment that is on its way -/
  sent : List (BitVec 8 × Bool)
  /-- beats already in the stream (FEED); one more than the number of the context cycle that wrote the last row (ADDW) -/
  beats : Nat
  retries : Nat
  /-- the barrier's location (RPUT) -/
  barrier : Option Loc
  barrierVa : Option Word
  remote : Bool
deriving DecidableEq, Repr

/-- State of a matrix operation (R185, R194). -/
inductive MtxState where
  | queued
  | begun
deriving DecidableEq, Repr

/-- A matrix operation (R184-R200). -/
structure MtxOp where
  id : Nat
  idx : Nat
  op : BitVec 6
  w : MtxWord
  fmt : Fmt
  baseA : BitVec 32
  baseB : BitVec 32
  pc : Word
  seq : BitVec 32
  committed : Bool
  /-- core cycle in which the commit fell (R185) -/
  commitCycle : Word
  state : MtxState
  /-- core cycle of its begin -/
  begunAt : Word
  /-- MMA: rows loaded; it has the array (R194) -/
  loaded : Nat
  inArray : Bool
  /-- MMA: groups done, plane, mismatch, bad, flags collected, lines loaded poisoned -/
  groups : Nat
  plane : List (BitVec 32)
  mis : Bool
  bad : Bool
  flags : BitVec 8
  loadPoison : SMap Bool
  /-- rows written (MST, MSTQ write pointer, R198) -/
  rows : Nat
deriving DecidableEq, Repr

/-- Where a sync operation stands (R43, R241, R257). -/
inductive SyncState where
  | issued
  | committed
  /-- its PHASE is complete, or it needs none -/
  | ready
  /-- the Serac die has sent it to the home's package (R45, R257) -/
  | sent
  /-- the home watches a condition (BWAIT, SWAIT) -/
  | waiting
  /-- the home's answer is on its way: poison, data -/
  | answered (data : Word) (poison : Bool) (progress : Bool)
  /-- refused, the refusal on its way (R257) -/
  | refused (cause : Nat)
  /-- answered BUSY at this core cycle (R258) -/
  | busy (at_ : Nat)
deriving DecidableEq, Repr

/-- A sync operation (R43, R235-R257). -/
structure SyncOp where
  id : Nat
  idx : Nat
  /-- its place among the phase boundaries of the bundle stream (R36, R43) -/
  phaseNo : Nat
  op : BitVec 6
  w : SynWord
  scope : BitVec 2
  va : Word
  loc : Loc
  /-- bytes 0-15 of vs at issue, and its poison -/
  operand : BitVec 128
  poison : Bool
  pc : Word
  seq : BitVec 32
  state : SyncState
deriving DecidableEq, Repr

/-- A phase-buffer entry: one line (R34, R37). -/
structure PbEntry where
  va : Word
  loc : Loc
  mask : BitVec 64
  data : Line
  poison : Bool
deriving DecidableEq, Repr

/-- Who a PHASE belongs to (R38, R43, R47, R48). -/
inductive PhaseOwner where
  | phaseg
  /-- a MEM PHASE, with the issue number of its bundle -/
  | mem (idx : Nat)
  | sync (id : Nat)
  | halt
  | cpost
deriving DecidableEq, Repr

/-- A PHASE in progress (R38). -/
structure Phase where
  owner : PhaseOwner
  scope : BitVec 2
  sent : Bool
  /-- the phase buffer as it fills behind a PHASE of the bundle stream that is still to be sent (R39) -/
  after : List PbEntry
  /-- its place among the phase boundaries of the bundle stream; for a PHASE of the generator stream, the slot operations
  numbered before it -/
  phaseNo : Nat
deriving DecidableEq, Repr

/-- An async log record (R257). -/
structure AsyncRec where
  va : Word
  operand : Word
  seq : BitVec 32
  op : BitVec 6
  ty : BitVec 4
  sub : BitVec 4
  cause : Nat
  pc : Word
deriving DecidableEq, Repr

/-- A checkpoint: a marker with what a rollback restores (R140, R275, R276). `shadow` is the back end with the
effects of the operations issued before the marker only; `lines` and `own` are the old values of the buffer lines
and OWN-page lines that later operations changed. -/
structure Marker where
  idx : Nat
  thread : Thread
  shadow : BackEnd
  /-- buffer lines: buf, window line number, old data, old poison -/
  lines : List (Nat × Nat × Line × Bool)
  /-- OWN lines of memory: line key, old data, old poison -/
  own : List (Nat × Line × Bool)
  /-- items logged beside those lines: 0-1023 vector registers, 1024 + p predicates, 1032 + l latches, from 1036 the context state:
  FMT, Sticky and Count, steps, slack, tokens, streams A and B -/
  items : List Nat
  /-- an operation of R277 has issued after this marker -/
  spoiled : Bool
  /-- its PHASEG is not complete -/
  waits : Bool
  /-- a bundle gave rise to it -/
  bundle : Bool
deriving DecidableEq, Repr

inductive CtxStatus where
  | new | resident | nonres | halted | dead
deriving DecidableEq, Repr

/-- A pre-emption under way (R278, R279). -/
inductive Preempt where
  | drain
  | rollback
deriving DecidableEq, Repr

/-- The cause of a dump: class (0 generator, 1 bundle, 2 asynchronous), code, subcause (R332). -/
structure TrapCause where
  cls : Nat
  code : Nat
  sub : Nat
  tval : Word
deriving DecidableEq, Repr

/-- How far the freeze of a fatal trap or of the watchdog has come (R329, R331). -/
structure Freeze where
  cause : TrapCause
  fatal : Bool
  /-- steps 1 to 4 are done -/
  settled : Bool
  /-- step 5: the dump is written with this sequence, or lost (none) -/
  dumped : Option (Option Word)
  /-- the step in which it was frozen: dumps follow that order (R332) -/
  order : Nat
  /-- the frost ring and CYCLE as they stood at the freeze (R335, R332) -/
  frost : List (BitVec 16 × BitVec 128)
  cycle : Word
deriving DecidableEq, Repr

/-- A hold that is in force (R20). -/
structure Hold where
  /-- BANK cycles left before the head issues -/
  bank : Nat
  /-- BANK has been counted for the head repetition -/
  bankDone : Bool
  /-- the SPLIT cycle is due, with the weight of its VY operation (R30) -/
  split : Option Nat
  /-- the asserted wait hold's lowest cause, none when clear -/
  wait : Option Nat
  /-- TWAIT is among the asserted causes (R269) -/
  twait : Bool
deriving DecidableEq, Repr

/-- A line of a core's F, W or C buffer, or a C-tile status byte. -/
structure BufLine where
  data : Line
  poison : Bool
deriving DecidableEq, Repr

/-- A tile staged read-only (R150, R280): its buffer and tile, the slot word's fields, opcode, descriptor and
relocation value. -/
structure Refetch where
  buf : Nat
  tile : Nat
  op : BitVec 6
  w : CpyWord
  nest : List Word
  zrel : Word
deriving DecidableEq, Repr

/-- Identity and placement of a context (R10, R117, R292). -/
structure Ident where
  ctxid : BitVec 25
  tenant : BitVec 16
  gang : BitVec 20
  taskidx : BitVec 24
  taskcnt : BitVec 25
  part : Nat
  basePrio : Nat
  /-- stage-1 root; none: addresses are physical (firmware and management threads, log entry 14) -/
  s1root : Option Nat
  /-- the task graph -/
  graph : Nat
  templPa : Nat
  templSize : Nat
  /-- unlisted reads 0 -/
  zrel : SMap Word
  winF : Word
  winW : Word
  winC : Word
deriving DecidableEq, Repr

/-- The parts of the ordering machine a context has (R34), with the sync addresses it sent (R332). -/
structure OrdState where
  pbuf : List PbEntry
  transit : List PbEntry
  /-- line key, value, poison, home code and package: pkg * 16 + home -/
  snapshot : List (Nat × Line × Bool × Nat)
  phases : List Phase
  asyncLog : List AsyncRec
  syncAddrs : List (Word × BitVec 32 × BitVec 32 × Nat)
deriving DecidableEq, Repr

/-- Checkpoints of a context (R275-R277). -/
structure Checkpoints where
  latest : Option Marker
  pendingMarker : Option Marker
  logStopped : Bool
  /-- core cycles of residency since the latest checkpoint -/
  since : Nat
  /-- the marker of the interval checkpoint is placed: by the thread (0), or by the bundle of that number (R140) -/
  intervalPlaced : Option Nat
deriving DecidableEq, Repr

/-- Landing ring of a context (R272-R274); its descriptor stands in the die's context table. -/
structure LandRing where
  head : BitVec 32
  tail : BitVec 32
  replaying : Bool
  refusedSince : Bool
deriving DecidableEq, Repr

/-- Work of the context that has issued (R23, R141, R184, R241). -/
structure InFlight where
  journal : List RegWrite
  pendingFmt : List PendingFmt
  issued : List Issued
  issueIdx : Nat
  nextId : Nat
  landings : List Landing
  /-- phases of the bundle stream begun so far (R36) -/
  phaseNo : Nat
  copyOps : List CopyOp
  mtxOps : List MtxOp
  syncOps : List SyncOp
  /-- the sync operation the context waits on (R242) -/
  syncHold : Option Nat
  replay : Option Replay
deriving DecidableEq, Repr

/-- What the scheduler, the watchdog and the trap path hold of a context (R269-R271, R279-R281, R324-R331). -/
structure SchedInfo where
  wantingSince : Option Nat
  reslated : Bool
  coldSince : Nat
  coldReported : Bool
  /-- core cycles the hold or token wait that is a spin wait has lasted, and the SPIN wait (R269) -/
  spinCount : Nat
  genSpin : Nat
  spinning : Bool
  spinWait : Bool
  residentSince : Nat
  sliceStart : Nat
  /-- the die cycle found its slice over -/
  sliceDue : Bool
  wdCount : Nat
  wdFrozen : Bool
  freeze : Option Freeze
  yielding : Bool
  /-- effective priority at the end of the previous die cycle (R264, R265) -/
  prio : Int
  preempt : Option Preempt
  parkedAnswered : Bool
  /-- window lines in the saved image: buf, window line, data, poison -/
  savedLines : List (Nat × Nat × BufLine)
  refetch : List Refetch
  /-- refetches still to do before issue (R280) -/
  toRefetch : List Refetch
  /-- Deresk has paged the saved image out to storage, and whether its wanting again is reported (R281) -/
  pagedOut : Bool
  pageReported : Bool
deriving DecidableEq, Repr

/-- One context (R10, R12). -/
structure Context where
  status : CtxStatus
  firmware : Bool
  management : Bool
  coreKey : Nat
  slot : Option Nat
  id : Ident
  thread : Thread
  wait : GenWait
  /-- core cycle until which a division keeps the thread not ready (R103) -/
  busyUntil : Nat
  qstall : BitVec 48
  ckptseq : BitVec 32
  queue : List QItem
  be : BackEnd
  fl : InFlight
  beFrozen : Bool
  bundleTrap : Bool
  ctxcyc : Nat
  hold : Hold
  /-- HOLDCNT0-9; unlisted reads 0 -/
  holdcnt : SMap Nat
  ord : OrdState
  chk : Checkpoints
  land : LandRing
  sch : SchedInfo
deriving DecidableEq, Repr

/-! ### Core -/

/-- A core's frost ring (R334-R336). -/
structure FrostRing where
  /-- entry k; unlisted reads 0 -/
  entries : SMap (BitVec 128)
  /-- the tenant of entry k's context (R335) -/
  tenants : SMap (BitVec 16)
  /-- entries written since reset, modulo 2^32 -/
  written : BitVec 32
  /-- 512 entries have been written -/
  full : Bool
  /-- places, among the entries of one core cycle, of those made in this one, newest first (R334) -/
  now : List Nat
  /-- the copy of the ring that this core cycle's freezes take (R335) -/
  copy : Option (List (BitVec 16 × BitVec 128))
deriving DecidableEq, Repr

def FrostRing.reset : FrostRing := { entries := [], tenants := [], written := 0, full := false, now := [], copy := none }

/-- One core with its generator, buffers and frost ring. -/
structure Core where
  cycle : Word
  frzcnt : BitVec 48
  slotTable : List Word
  slotTableNext : Option (List Word)
  slotPart : Word
  slotWinF : Word
  slotWinW : Word
  slotWinC : Word
  slotmap : Word
  plim : Word
  plimNext : Option Word
  fwshare : Word
  spinlim : Word
  wdwin : Word
  /-- weights of the last 63 core cycles, newest first -/
  weights : List Nat
  frozen : Bool
  genUsed : Bool
  genLast : Nat
  fwHistory : List Bool
  flexLast : Nat
  mtxLast : Nat
  /-- list last served on each channel, by resident slot, 4 the firmware context's; unlisted reads 4 -/
  chanLast : SMap Nat
  /-- lines a channel has moved toward its next chunk (R142); unlisted reads 0 -/
  chanLines : SMap Nat
  /-- the line that each channel has moved last for an access before its chunk is delivered (R142) -/
  chanAt : SMap Nat
  /-- channels on which a beat has landed in this core cycle (R142) -/
  beatLanded : BitVec 4
  /-- array cycles performed toward the next group (R194) -/
  arrayCycles : Nat
  /-- context and operation whose row is due in this core cycle (R188, R194) -/
  rowsDue : List (Nat × Nat)
  /-- banks the matrix engine writes in this core cycle (R155) -/
  bankWrites : BitVec 4
  /-- the context whose context cycle this core cycle is, and the cycle's number (R155) -/
  ctxNow : Option (Nat × Nat)
  /-- contexts in resident slots 0-3; unlisted: empty -/
  slots : SMap Nat
  /-- buf * 2^16 + physical line; buf 0 F, 1 W, 2 C, 3 C-tile status; unlisted reads zero, clean -/
  lines : SMap BufLine
  frost : FrostRing
  retired : Bool
deriving DecidableEq, Repr

/-- A core at reset (R16, R27, R29, R104, R263, R353). -/
def Core.reset : Core where
  cycle := 0
  frzcnt := 0
  slotTable := [0x5555555555555555, 0x5555555555555555, 0x5555555555555555, 0x5555555555555555]
  slotTableNext := none
  slotPart := 0
  slotWinF := 0
  slotWinW := 0
  slotWinC := 0
  slotmap := 6
  plim := 0xA00
  plimNext := none
  fwshare := 4
  spinlim := 8192
  wdwin := 0x100000000
  weights := []
  frozen := false
  genUsed := false
  genLast := 4
  fwHistory := []
  flexLast := 3
  mtxLast := 4
  chanLast := []
  chanLines := []
  chanAt := []
  beatLanded := 0
  arrayCycles := 0
  rowsDue := []
  bankWrites := 0
  ctxNow := none
  slots := []
  lines := []
  frost := FrostRing.reset
  retired := false

/-! ### Cobalt die -/

/-- Partition registers (R259). -/
structure PartRegs where
  pdl : Word
  minima : Word
  eng : BitVec 4
  tenant : BitVec 16
  effmin : Word
deriving DecidableEq, Repr

def PartRegs.reset : PartRegs := { pdl := 0, minima := 0, eng := 0, tenant := 0, effmin := 0 }

/-- Fairness record (R266). -/
structure FairRec where
  valid : Bool
  level : Nat
  gang : BitVec 20
  /-- the tenant whose gang it is (R11) -/
  tenant : BitVec 16
  boost : BitVec 32
  accepted : BitVec 32
  refused : BitVec 32
  wstart : Word
  contexts : BitVec 32
deriving DecidableEq, Repr

def FairRec.empty : FairRec :=
  { valid := false, level := 0, gang := 0, tenant := 0, boost := 0, accepted := 0, refused := 0, wstart := 0, contexts := 0 }

/-- What a waiter watches (R248, R253). -/
inductive WatchKind where
  | barrier (p : BitVec 32)
  | signal (v : Word)
deriving DecidableEq, Repr

/-- Who waits at a home (R258, R296). -/
inductive Waiter where
  | context (ctx : Nat) (op : Nat)
  | queue (die h : Nat)
deriving DecidableEq, Repr

/-- A waiter-table entry (R258). -/
structure WaitEntry where
  who : Waiter
  pkg : Nat
  pa : Nat
  kind : WatchKind
  /-- answered, the answer not taken yet; whether it reports a collective's increment (R330) -/
  answered : Bool
  progress : Bool
deriving DecidableEq, Repr

/-- A cached translation (R51, R54): a virtual page of 2^size bytes, the smaller of its two leaves, and the stage-2 leaf of
2^isize bytes it was derived from; `loc` is the page's first byte. -/
structure TEntry where
  part : Nat
  s1root : Nat
  size : Nat
  vpage : Nat
  isize : Nat
  ipage : Nat
  loc : Loc
  ro1 : Bool
  ro2 : Bool
  x : Bool
deriving DecidableEq, Repr

/-- An invalidation command (R55). -/
structure InvCmd where
  kind : Nat
  part : Nat
  addr : Word
  span : Word
  root : Word
deriving DecidableEq, Repr

/-- A queued start of a block-transfer engine (R164). -/
structure BtStart where
  templ : Nat
  arg : Nat
  part : Nat
  root : Nat
deriving DecidableEq, Repr

/-- A transfer in progress (R165-R167): the template's and argument's words and the chunks done. -/
structure BtRun where
  start : BtStart
  templ : List (BitVec 8)
  arg : List (BitVec 8)
  done : Nat
  /-- lines moved toward the next chunk (R166) -/
  lines : Nat
  suspended : Bool
  fault : Option XFault
deriving DecidableEq, Repr

/-- A block-transfer engine (R164). -/
structure BtEngine where
  owner : Option Nat
  starts : List BtStart
  run : Option BtRun
  report : Nat
  count : BitVec 32
deriving DecidableEq, Repr

def BtEngine.reset : BtEngine := { owner := none, starts := [], run := none, report := 0, count := 0 }

/-- A buffer on the execution path: the ring, or an IB buffer, its length and the next packet's offset in 8-byte words
(a ring's offset modulo 2^32), and the ring word of the packet that opened it (R293). -/
structure Frame where
  isRing : Bool
  base : Word
  len : Nat
  off : Nat
  at_ : Nat
deriving DecidableEq, Repr

/-- A LOOP in progress: buffer depth, offset of the first body packet, body packets left in the pass, body count, passes
left with this one, its own ring word and address (R294). -/
structure PktLoop where
  depth : Nat
  start : Nat
  left : Nat
  body : Nat
  passes : Nat
  at_ : Nat
  va : Word
deriving DecidableEq, Repr

/-- A position on the execution path, innermost buffer and LOOP first (R293). -/
structure Pos where
  frames : List Frame
  loops : List PktLoop
deriving DecidableEq, Repr

/-- A fetched copy of a packet (R298). -/
structure PktCopy where
  pos : Pos
  words : List Word
deriving DecidableEq, Repr

/-- What the packet that has begun, whose position is the queue's, waits for. -/
inductive PktPhase where
  | idle
  /-- an INVOKE that holds before its start, or without OVERLAP runs; its graph and length -/
  | invoking (graph : Nat) (len : Nat)
  /-- the sync operation of a PRED, WAIT or SIG is on its way to its home (R295, R296) -/
  | sent (loc : Loc) (words : List Word)
  /-- a WAIT stands in the waiter table of its home -/
  | waiting (loc : Loc) (len : Nat)
  /-- a page fault is being served: of a packet's fetch, or of the access of a PRED, WAIT or SIG with its words -/
  | page (words : Option (List Word))
deriving DecidableEq, Repr

/-- An OVERLAP INVOKE that has started and not ended: its graph, its ring word where it stands at ring level outside every
LOOP, the buffers and LOOPs that hold it, the packets begun since (R290, R298). -/
structure Overlap where
  graph : Nat
  at_ : Option Nat
  frames : Nat
  loops : Nat
  begun : Nat
deriving DecidableEq, Repr

/-- A hardware queue slot (R284, R285); RPTR is computed from the positions. -/
structure Queue where
  qctl : Word
  qbase : Word
  qroot : Word
  wptr : BitVec 32
  qfault : Word
  done : BitVec 32
  pos : Pos
  /-- packets still to be skipped, then for each skipped LOOP that holds them the units of its level (R295) -/
  skip : List Nat
  copies : List PktCopy
  phase : PktPhase
  graphs : List Overlap
deriving DecidableEq, Repr

def Queue.reset : Queue where
  qctl := 0x90000
  qbase := 0
  qroot := 0
  wptr := 0
  qfault := 0
  done := 0
  pos := { frames := [], loops := [] }
  skip := []
  copies := []
  phase := .idle
  graphs := []

/-- A steal request of a thief die to a victim die (R14), in order of sending, with the answer on its way. -/
structure Steal where
  thief : Nat
  victim : Nat
  seq : Nat
  answer : Option (Nat × Nat)
deriving DecidableEq, Repr

/-- A task graph that an INVOKE launched (R292): its record and its unplaced index ranges per die. -/
structure Graph where
  queueDie : Nat
  queueSlot : Nat
  part : Nat
  prio : Nat
  n : Nat
  overlap : Bool
  persist : Bool
  gang : BitVec 20
  z : List Word
  record : List (BitVec 8)
  root : Nat
  started : Bool
  /-- per die number 0-7: unplaced range [lo, hi) -/
  shares : SMap (Nat × Nat)
  halted : Nat
  steals : List Steal
  /-- dies that stopped stealing, and victims a thief has already tried -/
  tried : List (Nat × Nat)
deriving DecidableEq, Repr

/-- An open or waiting entry of a fault queue (R324, R327). -/
structure FaultEntry where
  seq : BitVec 32
  source : Nat
  /-- context, queue slot, engine or posted entry -/
  who : Nat
  va : Word
  pc : Word
  emitseq : BitVec 32
  sub : BitVec 8
  /-- channel or BFSLOT -/
  unit : Nat
  record : List (BitVec 8)
  /-- it was written in host-assisted mode: the host holds it (R345) -/
  host : Bool := false
deriving DecidableEq, Repr

/-- A die's fault page (R326). -/
structure FaultPage where
  fqbase : Word
  fqHead : BitVec 32
  fqTail : BitVec 32
  waited : BitVec 32
  open_ : List FaultEntry
  waiting : List FaultEntry
  eqbase : Word
  eqHead : BitVec 32
  eqTail : BitVec 32
  dropped : BitVec 32
  overwritten : BitVec 32
deriving DecidableEq, Repr

def FaultPage.reset : FaultPage where
  fqbase := 0
  fqHead := 0
  fqTail := 0
  waited := 0
  open_ := []
  waiting := []
  eqbase := 0
  eqHead := 0
  eqTail := 0
  dropped := 0
  overwritten := 0

/-- One Cobalt die. -/
structure Die where
  dieCycle : Word
  /-- what the current die cycle still has to do: 1 window, 2 decay, 3 placement and decisions; 0 it is over (R267, R271) -/
  cycleStep : Nat
  schcfg : Word
  bdecay : Word
  slice : Word
  coldage : Word
  /-- unlisted reads PartRegs.reset -/
  parts : SMap PartRegs
  s2roots : SMap Nat
  modelTabs : SMap Word
  /-- unlisted reads FairRec.empty -/
  fair : SMap FairRec
  /-- landing descriptors of the context table's entries, as Deresk wrote them (R272); unlisted reads 3 -/
  landDescs : SMap Word
  /-- undo-log areas of the entries, as Deresk assigned them (R276); unlisted reads 0: none -/
  undoAreas : SMap Word
  /-- arrivals of the current die cycle: tenant, gang, accepted -/
  arrivals : List (BitVec 16 × BitVec 20 × Bool)
  landSeq : Word
  invaddr : Word
  invspan : Word
  invroot : Word
  invQueue : List InvCmd
  invErr : Bool
  invDone : BitVec 32
  tcache : List TEntry
  /-- the TLB of each core, by its number on the die (R51) -/
  tlbs : SMap (List TEntry)
  /-- partition: base, count -/
  btTabs : SMap (Nat × Nat)
  /-- unlisted reads BtEngine.reset -/
  bt : SMap BtEngine
  /-- unlisted reads Queue.reset -/
  queues : SMap Queue
  queueLast : Nat
  begunAt : Option Word
  waiters : List WaitEntry
  /-- lines the sync SRAM holds with the partition each is held for, most recently used first (R236) -/
  syncLines : List (Nat × Nat)
  /-- lines of a partition's share; unlisted: the whole SRAM -/
  syncShare : SMap Nat
  fault : FaultPage
  /-- unit: count, threshold, reported -/
  errors : SMap (Nat × Nat × Bool)
  retiredChannels : List Nat
deriving DecidableEq, Repr

def Die.reset : Die where
  dieCycle := 0
  cycleStep := 0
  schcfg := 0x440014
  bdecay := 1024
  slice := 0x200000
  coldage := 0
  parts := []
  s2roots := []
  modelTabs := []
  fair := []
  landDescs := []
  undoAreas := []
  arrivals := []
  landSeq := 0
  invaddr := 0
  invspan := 0
  invroot := 0
  invQueue := []
  invErr := false
  invDone := 0
  tcache := []
  tlbs := []
  btTabs := []
  bt := []
  queues := []
  queueLast := 255
  begunAt := none
  waiters := []
  syncLines := []
  syncShare := []
  fault := FaultPage.reset
  errors := []
  retiredChannels := []

/-! ### Collectives and Serac dies -/

/-- State of a posted instance at its member (R308). -/
inductive InstState where
  | posted | ticketed | reserved | running | done | fault
deriving DecidableEq, Repr

/-- An instance of an entry at its member (R307-R314). -/
structure Inst where
  number : Nat
  /-- it has received that number; the number of a fault that received none is the model's own (R307 step 5) -/
  counted : Bool
  state : InstState
  /-- rank, previous rank at the member, algorithm and chunk size of its ticket -/
  rank : Word
  prev : Word
  alg : Nat
  chunk : Nat
  taken : Bool
  /-- fault cause and subcause (R319) -/
  cause : Nat
  sub : BitVec 8
  /-- number of the previous instance of the same entry (R313) -/
  before : Option Nat
  /-- a page fault of one of its accesses is open -/
  page : Bool
  /-- of its ending (R319): 0 under way, 1 its signal is to be given, 2 its interrupt, 3 over -/
  stage : Nat
deriving DecidableEq, Repr

/-- An entry of the posted-collective table (R307, R309, R310). -/
structure Posted where
  generation : BitVec 16
  used : Bool
  /-- taken by a post whose record's read waits for a page -/
  hold : Bool
  persistent : Bool
  /-- its posting context is HALTED or DEAD (R309) -/
  ended : Bool
  record : List (BitVec 8)
  ctx : Nat
  tenant : BitVec 16
  part : Nat
  die : Nat
  s1root : Option Nat
  gang : BitVec 20
  coord : Nat
  comm : Nat
  rank : Nat
  age : Nat
  insts : List Inst
deriving DecidableEq, Repr

def Posted.free : Posted where
  generation := 0
  used := false
  hold := false
  persistent := false
  ended := false
  record := []
  ctx := 0
  tenant := 0
  part := 0
  die := 0
  s1root := none
  gang := 0
  coord := 0
  comm := 0
  rank := 0
  age := 0
  insts := []

/-- A notice to a coordinator (R311): `fields` are those it compares; `chunk` the record's chunk bytes. -/
structure Notice where
  comm : Nat
  inst : Nat
  rank : Nat
  fields : List (BitVec 8)
  chunk : Nat
  faulted : Bool
deriving DecidableEq, Repr

/-- A start ticket (R312) of an instance of a coordinator's communicator. -/
structure Ticket where
  coord : Nat
  comm : Nat
  inst : Nat
  rank : Word
  prev : Word
  alg : Nat
  chunk : Nat
  /-- die of the member it is for -/
  die : Nat
deriving DecidableEq, Repr

/-- A coordinator's request for a rank, with the group's member words (R312). -/
structure TicketReq where
  ticket : Ticket
  members : List Nat
deriving DecidableEq, Repr

/-- A fault on its way to a member (R311, R313, R316, R319). -/
structure FaultMsg where
  coord : Nat
  comm : Nat
  inst : Nat
  rank : Nat
  cause : Nat
  sub : BitVec 8
deriving DecidableEq, Repr

/-- The member whose chunk is picked at a chunk boundary: of which instance, its rank; and once a chunk is under way on a link its
transfer, the rank it goes to and the 256-byte pieces still to be sent (R317). -/
structure Pick where
  coord : Nat
  comm : Nat
  inst : Nat
  rank : Nat
  left : Option (Nat × Nat × Nat)
deriving DecidableEq, Repr

/-- Dump registers of a partition (R347). -/
structure DumpRegs where
  dbase : Word
  dgeom : Word
  head : BitVec 32
  tail : BitVec 32
  dcfg : Word
deriving DecidableEq, Repr

def DumpRegs.reset : DumpRegs := { dbase := 0, dgeom := 0, head := 0, tail := 0, dcfg := 0 }

/-- A marker copy or a boot-count copy of the flash (R339), and the slots. -/
structure FlashCopy where
  magic : BitVec 32
  value : BitVec 32
  slot : BitVec 32
  crc : BitVec 32
deriving DecidableEq, Repr

structure Flash where
  marker0 : FlashCopy
  marker1 : FlashCopy
  boot0 : FlashCopy
  boot1 : FlashCopy
  /-- the retirement list that the boot map follows: die and unit, oldest first (R348) -/
  retireList : List (Nat × RetireUnit)
  slotA : List (BitVec 8)
  slotB : List (BitVec 8)
deriving DecidableEq, Repr

def FlashCopy.blank : FlashCopy := { magic := 0, value := 0, slot := 0, crc := 0 }

def Flash.blank : Flash where
  marker0 := FlashCopy.blank
  marker1 := FlashCopy.blank
  boot0 := FlashCopy.blank
  boot1 := FlashCopy.blank
  retireList := []
  slotA := []
  slotB := []

inductive BootState where
  | inReset
  | booted (slot : Nat)
  | recovery
deriving DecidableEq, Repr

/-- One Serac die. -/
structure Serac where
  /-- CYCLE of the die (R338) -/
  cycle : Word
  /-- per unit: corrected errors, threshold, whether it is reported (R337); unlisted: 0, 0, not reported -/
  errors : SMap (Nat × Nat × Bool)
  commbase : Word
  tseq : Word
  /-- selection table; unlisted entries read as at reset (R315) -/
  select : SMap (BitVec 32)
  grants : SMap Word
  /-- unlisted reads Posted.free -/
  entries : SMap Posted
  posts : Nat
  /-- comm * 4096 + rank: posts that received an instance -/
  instCount : SMap Nat
  /-- notices on their way to this die's coordinators, and those received -/
  notices : List Notice
  heldNotices : List Notice
  /-- next instance to ticket, per communicator -/
  coordNext : SMap Nat
  /-- completions the coordinators hold: communicator, instance, member rank (R313) -/
  completions : List (Nat × Nat × Nat)
  seqRank : Word
  /-- member key pkg * 8 + die: last rank -/
  seqLast : SMap Word
  seqQueue : List TicketReq
  /-- tickets sent to members of this die and not taken: member rank, ticket -/
  tickets : List (Nat × Ticket)
  /-- last ticket taken at each Cobalt die of this Serac die -/
  takenRank : SMap Word
  /-- instances told complete at every member: coordinator, communicator, instance (R313) -/
  allDone : List (Nat × Nat × Nat)
  faultMsgs : List FaultMsg
  /-- link * 16 + vc: credits spent; 128 in all -/
  spent : SMap Nat
  /-- resource (0 the ALUs, n + 1 link n) -/
  picks : SMap Pick
  /-- round robin, resource * 8 + priority: communicator of the turn, chunks it has sent in it -/
  turn : SMap (Nat × Nat)
  retiredLinks : List Nat
  /-- Serac dies that are no longer reached -/
  unreachable : List Nat
  fault : FaultPage
  dump : SMap DumpRegs
  dumpKeys : SMap (BitVec 256)
  dumpSeq : BitVec 32
  bootCount : BitVec 32
  fwmode : Word
  flash : Flash
  measure : List (List (BitVec 8))
  boot : BootState
  hostRead : List (BitVec 8)
  spdmAnswer : List (BitVec 8)
  mgmtInbox : List (List (BitVec 8))
  /-- what the host port has forwarded to the host, oldest first (R345) -/
  hostInbox : List (List (BitVec 8))
  /-- answers sent at the Ethernet port (R346) -/
  portAnswers : List (List (BitVec 8))
deriving DecidableEq, Repr

def Serac.reset : Serac where
  cycle := 0
  errors := []
  commbase := 0
  tseq := 0
  select := []
  grants := []
  entries := []
  posts := 0
  instCount := []
  notices := []
  heldNotices := []
  coordNext := []
  completions := []
  seqRank := 0
  seqLast := []
  seqQueue := []
  tickets := []
  takenRank := []
  allDone := []
  faultMsgs := []
  spent := []
  picks := []
  turn := []
  retiredLinks := []
  unreachable := []
  fault := FaultPage.reset
  dump := []
  dumpKeys := []
  dumpSeq := 0
  bootCount := 0
  fwmode := 0
  flash := Flash.blank
  measure := [[], [], [], [], []]
  boot := .inReset
  hostRead := []
  spdmAnswer := []
  mgmtInbox := []
  hostInbox := []
  portAnswers := []

/-! ### The machine -/

/-- A member of a running instance as its Serac die serves it: entry, copied record, the poster's translations and gang (R305, R316). -/
structure RunMember where
  serac : Nat
  entry : Nat
  record : List (BitVec 8)
  die : Nat
  part : Nat
  s1root : Option Nat
  tenant : BitVec 16
  gang : BitVec 20
  /-- its Serac die has been reset or has lost its power since: it moves no more chunks -/
  lost : Bool
deriving DecidableEq, Repr

/-- One running collective instance over all its members (R316), by its coordinator, from its confirmation until it has ended at
every member; virtual channel, priority and weight are its communicator's. -/
structure CollRun where
  coord : Nat
  comm : Nat
  inst : Nat
  chunk : Nat
  vc : Nat
  prio : Nat
  weight : Nat
  /-- by rank -/
  members : List RunMember
  /-- ranks that wait for a page -/
  pages : List Nat
  /-- contributions read: transfer, destination rank, contributing rank, bytes with poison -/
  chunks : List (Nat × Nat × Nat × List (BitVec 8 × Bool))
  /-- transfer and destination rank written -/
  writtenTo : List (Nat × Nat)
deriving DecidableEq, Repr

/-- An earlier value of a line that a task has written through an OWN page since its task graph began (R56). -/
structure OwnPast where
  graph : Nat
  ctx : Nat
  key : Nat
  data : Line
  poison : Bool
deriving DecidableEq, Repr

/-- An RPUT byte credit on its way to its barrier's home (R41, R247). -/
structure Credit where
  loc : Loc
  bytes : Nat
  poison : Bool
deriving DecidableEq, Repr

/-- What moves next. -/
inductive Move where
  /-- the generator of a core executes the next instruction of the next ready thread that is on no cache miss; a load is performed
  in the same step or later -/
  | gen (core : Nat) (miss : BitVec 5) (late : Bool)
  /-- a management core executes its next instruction -/
  | mgmt (ctx : Nat) (late : Bool)
  /-- the part takes one of its own steps -/
  | ev (i : Instr)
deriving DecidableEq, Repr, Inhabited

/-- A bundle fault found at issue (R24, R65): slot, BFCAUSE code and subcause, BFADDR. -/
structure BFault where
  slot : Nat
  cause : Nat
  sub : Nat
  addr : Word
deriving DecidableEq, Repr

/-- The bundle whose slot operations are being issued: context, issue number, context cycle, scope, repetition. -/
structure SlotEnv where
  ctx : Nat
  idx : Nat
  cc : Nat
  scope : BitVec 2
  rep : Nat
  pc : Word
  seq : BitVec 32
  /-- what the slots have collected for the commit -/
  acts : List CommitAct
  /-- a translation fault, taken at the commit point (R230) -/
  fault : Option (Nat × XFault)
  /-- a bundle fault at issue: no slot is performed -/
  now : Option BFault
  marks : Bool
  /-- the C tile that its VLD reads (R188) -/
  cRead : Option Nat
  /-- causes of the wait holds its slots assert (R20, R78) -/
  holds : List Nat
  /-- slacks of MTX, CPY and SYN as this bundle meets them (R71) -/
  slackMtx : Nat
  slackCpy : Nat
  slackSyn : Nat
  /-- what the step of cpy.nest adds to the descriptor's base (R63) -/
  nestAdd : Word
deriving DecidableEq, Repr

/-- The state of the machine: a fabric domain of A9 packages. -/
structure State where
  /-- bytes keyed pkg * 2^52 + physical address; unlisted reads 0 -/
  mem : List Host.Cell
  /-- keys of poisoned lines, pkg * 2^46 + physical line -/
  poison : List Nat
  contexts : SMap Context
  /-- key pkg * 512 + die * 64 + core; unlisted reads Core.reset -/
  cores : SMap Core
  /-- key pkg * 8 + die; unlisted reads Die.reset -/
  dies : SMap Die
  /-- key pkg * 2 + k; unlisted reads Serac.reset -/
  seracs : SMap Serac
  graphs : SMap Graph
  nextGraph : Nat
  runs : List CollRun
  credits : List Credit
  ownPast : List OwnPast
  /-- where the register pages lie: 4 KiB page pkg * 2^40 + pa / 4096: the page and this part's offset in it (log
  entry 4) -/
  devMap : SMap (DevPage × Nat)
  cur : Nat
  /-- the model's own: the generator load that executes now is performed later (R36, log entry 8) -/
  late : Bool
  slotEnv : Option SlotEnv
  agenda : List Move
  moves : Nat
  freeCount : Nat
deriving DecidableEq, Repr

/-- The machine right after reset: no context, every core, die and Serac die at its reset, memory with nothing
listed. -/
def State.reset : State where
  mem := []
  poison := []
  contexts := []
  cores := []
  dies := []
  seracs := []
  graphs := []
  nextGraph := 0
  runs := []
  credits := []
  ownPast := []
  devMap := []
  cur := 0
  late := false
  slotEnv := none
  agenda := []
  moves := 0
  freeCount := 0

/-- Why the machine stops. Raised by no instruction the spec gives an effect: the A9 reports its faults as traps,
queue stops, suspensions and events, which are next states. -/
inductive Fault where
  /-- Raised by the generator instructions when no context exists under State.cur: the state names no thread that
  could execute. Safe: no reachable step of the part is such a state. -/
  | noThread
  /-- Raised by the slot operations when no bundle is being issued (State.slotEnv names none): the issue stage has no
  slot word. Safe: step runs a slot operation only from the bundle that issues it. -/
  | noBundle
deriving DecidableEq, Repr

/-- Why an instruction has no meaning. -/
inductive Refusal where
  /-- Raised by exec for an instruction that has no meaning yet. Safe: the machine stops. -/
  | notModelled (mnemonic : String)
deriving DecidableEq, Repr

end Sys2Proof.Machine
end

