-- ==== Sys2Proof/Config.lean ====
section
/-! DEFINITION. What the spec leaves open, as constants without a body: a claim holds whatever they are. -/

namespace Sys2Proof.Config

/-- DESIGN CHOICE (log entry 1): which agent moves next when State.agenda is empty (spec/02 R33: any interleaving),
applied to the counter State.moves. -/
opaque nextMove : Nat → Machine.Move

/-- DESIGN CHOICE (log entry 6): a choice between two values the spec allows, applied to State.freeCount and to a tag that
tells the choices of one step apart. -/
opaque freeBool : Nat → Nat → Bool

/-- DESIGN CHOICE (log entry 6): a value the spec leaves open, applied to State.freeCount and to a tag. -/
opaque freeNat : Nat → Nat → Nat

/-- DESIGN CHOICE (log entry 65): cycles of a Serac die from one of its reports to the next (spec/19 R338 names its CYCLE and gives no
rate), applied to State.freeCount. -/
opaque seracCycles : Nat → BitVec 32

/-- DESIGN CHOICE (log entry 63): the 16-byte header of an undo-log entry for the item of a number with its poison tag, and the 64 bytes
that hold an item shorter than a line (spec/13 R276 gives no layout). -/
opaque undoHeader : Nat → Bool → BitVec 128
opaque undoItem : Nat → Machine.BackEnd → BitVec 512

/-- DESIGN CHOICE (log entry 6): how the first detail of OVERCOMMIT holds the kind of minimum, the sum guaranteed and the capacity
(spec/19 R338 gives no layout). -/
opaque overcommitDetail : Nat → Nat → Nat → BitVec 64

/-- DESIGN CHOICE (log entry 12): a dump key wrapped under the dump engine's own key (spec/19 R333 gives neither the wrapping nor that
key). -/
opaque wrapKey : BitVec 256 → List Byte

/-- PRESUMED (log entry 12): SHAKE256 with a 32-byte digest (spec/20 R340, R343). -/
opaque shake256 : List Byte → List Byte

/-- PRESUMED (log entry 12): SLH-DSA-SHAKE-256f of FIPS 205 (spec/20 R340, R343): key, message, signature. -/
opaque slhVerify : List Byte → List Byte → List Byte → Bool
opaque slhSign : List Byte → List Byte

/-- DESIGN CHOICE (log entry 66): the bytes of the boot map and retirement list (spec/20 R339, R348 give no layout), where management
core j starts in the booted image (R341, R343), and Deresk's answer to a Redfish request (R346), applied to State.freeCount. -/
opaque bootMapBytes : List (Nat × RetireUnit) → List Byte
opaque imageEntry : Nat → Word
opaque redfishAnswer : Nat → List Byte → List Byte
/-- DESIGN CHOICE (log entry 66): the firmware update, if any, that Deresk makes on a Redfish request (spec/20 R342, R346), applied to
State.freeCount. -/
opaque redfishUpdate : Nat → List Byte → Option FirmwareUpdate

/-- DESIGN CHOICE (log entry 68): whether memory of a die's 64 KiB page lies on one of its HBM channels (spec/20 R348 gives no map):
die, page, channel. -/
opaque onChannel : Nat → Nat → Nat → Bool

/-- DESIGN CHOICE (log entry 12): the digest the boot ROM holds and the boot ROM's own bytes (spec/20 R340, R343). -/
opaque romDigest : List Byte
opaque romImage : List Byte

end Sys2Proof.Config
end

