-- ==== Sys2Proof/Decode.lean ====
section
/-! DEFINITION. Decoding and encoding of generator words (R66, spec/05) and of slot words (R65, spec/03), with the
checks each slot word meets. -/

namespace Sys2Proof

/-- The generator instruction of a 32-bit word (R66, spec/05); none where R66 gives an illegal instruction. -/
def decodeGen (w : BitVec 32) : Option Instr :=
  let b := w.extractLsb' 19 6
  let a := w.extractLsb' 13 6
  let d := w.extractLsb' 7 6
  let i := w.extractLsb' 19 13
  let u := w.extractLsb' 13 19
  let s := w.extractLsb' 7 3
  match (w.extractLsb' 0 7).toNat with
  | 0x00 =>
    match (w.extractLsb' 25 7).toNat with
    | 0 => some (.add b a d)
    | 1 => some (.sub b a d)
    | 2 => some (.mul b a d)
    | 3 => some (.mulh b a d)
    | 4 => some (.div b a d)
    | 5 => some (.divu b a d)
    | 6 => some (.rem b a d)
    | 7 => some (.remu b a d)
    | 8 => some (.and b a d)
    | 9 => some (.or b a d)
    | 10 => some (.xor b a d)
    | 11 => some (.shl b a d)
    | 12 => some (.shr b a d)
    | 13 => some (.sra b a d)
    | 14 => some (.slt b a d)
    | 15 => some (.sltu b a d)
    | 16 => some (.min b a d)
    | 17 => some (.max b a d)
    | 18 => some (.minu b a d)
    | 19 => some (.maxu b a d)
    | 20 => if b = 0 then some (.clz a d) else none
    | 21 => if b = 0 then some (.popc a d) else none
    | _ => none
  | 0x01 => some (.addi i a d)
  | 0x02 => some (.andi i a d)
  | 0x03 => some (.ori i a d)
  | 0x04 => some (.xori i a d)
  | 0x05 => if w.extractLsb' 25 7 = 0 then some (.shli b a d) else none
  | 0x06 => if w.extractLsb' 25 7 = 0 then some (.shri b a d) else none
  | 0x07 => if w.extractLsb' 25 7 = 0 then some (.srai b a d) else none
  | 0x08 => some (.slti i a d)
  | 0x09 => some (.sltiu i a d)
  | 0x0a => some (.lui u d)
  | 0x0b => some (.pcadd u d)
  | 0x10 => some (.ldb i a d)
  | 0x11 => some (.ldh i a d)
  | 0x12 => some (.ldw i a d)
  | 0x13 => some (.ldd i a d)
  | 0x14 => some (.ldbu i a d)
  | 0x15 => some (.ldhu i a d)
  | 0x16 => some (.ldwu i a d)
  | 0x18 => some (.stb i a d)
  | 0x19 => some (.sth i a d)
  | 0x1a => some (.stw i a d)
  | 0x1b => some (.std i a d)
  | 0x1c => some (.ldz (w.extractLsb' 17 15) (w.extractLsb' 13 4) d)
  | 0x1d => some (.stz (w.extractLsb' 17 15) (w.extractLsb' 13 4) d)
  | 0x20 => some (.beq i a d)
  | 0x21 => some (.bne i a d)
  | 0x22 => some (.blt i a d)
  | 0x23 => some (.bge i a d)
  | 0x24 => some (.bltu i a d)
  | 0x25 => some (.bgeu i a d)
  | 0x26 => some (.jal u d)
  | 0x27 => some (.jalr i a d)
  | 0x28 => if d = 0 ∧ i ≠ 0 then some (.loop i a) else none
  | 0x29 => some (.loopi u d)
  | 0x2a => if w.extractLsb' 7 25 = 0 then some .lbrk else none
  | 0x2b =>
    if w.extractLsb' 16 16 = 0 ∧ (w.extractLsb' 13 3).toNat ≤ 5 then some (.lidx (w.extractLsb' 13 3) d) else none
  | 0x30 => if w.extractLsb' 10 3 = 0 ∧ i = 0 ∧ s ≠ 7 then some (.bset a s) else none
  | 0x31 =>
    let p := w.extractLsb' 10 6
    let n := w.extractLsb' 16 6
    if w.extractLsb' 28 4 = 0 ∧ s ≠ 7 ∧ p.toNat + n.toNat + 1 ≤ 64 then some (.bfld (w.extractLsb' 22 6) n p s) else none
  | 0x32 => if w.extractLsb' 10 3 = 0 ∧ s ≠ 7 then some (.bldt i a s) else none
  | 0x33 => if d = 0 ∧ i = 0 then some (.bhdr a) else none
  | 0x34 =>
    if w.extractLsb' 27 5 = 0 then
      some (.emit (w.extractLsb' 26 1) (w.extractLsb' 25 1) (w.extractLsb' 23 2) (w.extractLsb' 22 1)
        (w.extractLsb' 14 8) (w.extractLsb' 7 7))
    else none
  | 0x35 => if d = 0 then some (.emitm i a) else none
  | 0x38 =>
    if w.extractLsb' 22 10 = 0 ∧ (w.extractLsb' 11 5).toNat ≤ 26 then
      some (.nset (w.extractLsb' 16 6) (w.extractLsb' 11 5) (w.extractLsb' 7 4))
    else none
  | 0x40 => if w.extractLsb' 31 1 = 0 ∧ a = 0 then some (.csrr (w.extractLsb' 19 12) d) else none
  | 0x41 => if w.extractLsb' 31 1 = 0 then some (.csrw (w.extractLsb' 19 12) a d) else none
  | 0x42 => if w.extractLsb' 9 23 = 0 then some (.phaseg (w.extractLsb' 7 2)) else none
  | 0x43 => if d = 0 ∧ i = 0 then some (.gchk a) else none
  | 0x44 => if w.extractLsb' 7 25 = 0 then some .spin else none
  | 0x45 => if w.extractLsb' 7 25 = 0 then some .yield else none
  | 0x46 => if w.extractLsb' 7 25 = 0 then some .halt else none
  | 0x47 => if d = 0 ∧ a = 0 then some (.trapc i) else none
  | 0x48 => if w.extractLsb' 7 25 = 0 then some .xret else none
  | 0x49 => if i = 0 then some (.cpost a d) else none
  | 0x4a => if i = 0 then some (.cqry a d) else none
  | 0x4b => if w.extractLsb' 7 25 = 0 then some .drainq else none
  | _ => none

/-- The word of a generator instruction, fields from the highest bit down (R66, spec/05); none for the rows that
are not generator instructions. -/
def encodeGen : Instr → Option (BitVec 32)
  | .add b a d => some (BitVec.ofNat 7 0 ++ b ++ a ++ d ++ 0x00#7)
  | .sub b a d => some (BitVec.ofNat 7 1 ++ b ++ a ++ d ++ 0x00#7)
  | .mul b a d => some (BitVec.ofNat 7 2 ++ b ++ a ++ d ++ 0x00#7)
  | .mulh b a d => some (BitVec.ofNat 7 3 ++ b ++ a ++ d ++ 0x00#7)
  | .div b a d => some (BitVec.ofNat 7 4 ++ b ++ a ++ d ++ 0x00#7)
  | .divu b a d => some (BitVec.ofNat 7 5 ++ b ++ a ++ d ++ 0x00#7)
  | .rem b a d => some (BitVec.ofNat 7 6 ++ b ++ a ++ d ++ 0x00#7)
  | .remu b a d => some (BitVec.ofNat 7 7 ++ b ++ a ++ d ++ 0x00#7)
  | .and b a d => some (BitVec.ofNat 7 8 ++ b ++ a ++ d ++ 0x00#7)
  | .or b a d => some (BitVec.ofNat 7 9 ++ b ++ a ++ d ++ 0x00#7)
  | .xor b a d => some (BitVec.ofNat 7 10 ++ b ++ a ++ d ++ 0x00#7)
  | .shl b a d => some (BitVec.ofNat 7 11 ++ b ++ a ++ d ++ 0x00#7)
  | .shr b a d => some (BitVec.ofNat 7 12 ++ b ++ a ++ d ++ 0x00#7)
  | .sra b a d => some (BitVec.ofNat 7 13 ++ b ++ a ++ d ++ 0x00#7)
  | .slt b a d => some (BitVec.ofNat 7 14 ++ b ++ a ++ d ++ 0x00#7)
  | .sltu b a d => some (BitVec.ofNat 7 15 ++ b ++ a ++ d ++ 0x00#7)
  | .min b a d => some (BitVec.ofNat 7 16 ++ b ++ a ++ d ++ 0x00#7)
  | .max b a d => some (BitVec.ofNat 7 17 ++ b ++ a ++ d ++ 0x00#7)
  | .minu b a d => some (BitVec.ofNat 7 18 ++ b ++ a ++ d ++ 0x00#7)
  | .maxu b a d => some (BitVec.ofNat 7 19 ++ b ++ a ++ d ++ 0x00#7)
  | .clz a d => some (20#7 ++ 0#6 ++ a ++ d ++ 0x00#7)
  | .popc a d => some (21#7 ++ 0#6 ++ a ++ d ++ 0x00#7)
  | .addi i a d => some (i ++ a ++ d ++ 0x01#7)
  | .andi i a d => some (i ++ a ++ d ++ 0x02#7)
  | .ori i a d => some (i ++ a ++ d ++ 0x03#7)
  | .xori i a d => some (i ++ a ++ d ++ 0x04#7)
  | .slti i a d => some (i ++ a ++ d ++ 0x08#7)
  | .sltiu i a d => some (i ++ a ++ d ++ 0x09#7)
  | .ldb i a d => some (i ++ a ++ d ++ 0x10#7)
  | .ldh i a d => some (i ++ a ++ d ++ 0x11#7)
  | .ldw i a d => some (i ++ a ++ d ++ 0x12#7)
  | .ldd i a d => some (i ++ a ++ d ++ 0x13#7)
  | .ldbu i a d => some (i ++ a ++ d ++ 0x14#7)
  | .ldhu i a d => some (i ++ a ++ d ++ 0x15#7)
  | .ldwu i a d => some (i ++ a ++ d ++ 0x16#7)
  | .stb i a d => some (i ++ a ++ d ++ 0x18#7)
  | .sth i a d => some (i ++ a ++ d ++ 0x19#7)
  | .stw i a d => some (i ++ a ++ d ++ 0x1a#7)
  | .std i a d => some (i ++ a ++ d ++ 0x1b#7)
  | .beq i a d => some (i ++ a ++ d ++ 0x20#7)
  | .bne i a d => some (i ++ a ++ d ++ 0x21#7)
  | .blt i a d => some (i ++ a ++ d ++ 0x22#7)
  | .bge i a d => some (i ++ a ++ d ++ 0x23#7)
  | .bltu i a d => some (i ++ a ++ d ++ 0x24#7)
  | .bgeu i a d => some (i ++ a ++ d ++ 0x25#7)
  | .jalr i a d => some (i ++ a ++ d ++ 0x27#7)
  | .shli i a d => some (0#7 ++ i ++ a ++ d ++ 0x05#7)
  | .shri i a d => some (0#7 ++ i ++ a ++ d ++ 0x06#7)
  | .srai i a d => some (0#7 ++ i ++ a ++ d ++ 0x07#7)
  | .lui u d => some (u ++ d ++ 0x0a#7)
  | .pcadd u d => some (u ++ d ++ 0x0b#7)
  | .jal u d => some (u ++ d ++ 0x26#7)
  | .loopi u d => some (u ++ d ++ 0x29#7)
  | .ldz o z d => some (o ++ z ++ d ++ 0x1c#7)
  | .stz o z d => some (o ++ z ++ d ++ 0x1d#7)
  | .loop l c => some (l ++ c ++ 0#6 ++ 0x28#7)
  | .lbrk => some 0x2a#32
  | .lidx k d => some (0#16 ++ k ++ d ++ 0x2b#7)
  | .bset a s => some (0#13 ++ a ++ 0#3 ++ s ++ 0x30#7)
  | .bfld a n p s => some (0#4 ++ a ++ n ++ p ++ s ++ 0x31#7)
  | .bldt o a s => some (o ++ a ++ 0#3 ++ s ++ 0x32#7)
  | .bhdr a => some (0#13 ++ a ++ 0#6 ++ 0x33#7)
  | .emit c h s p r m => some (0#5 ++ c ++ h ++ s ++ p ++ r ++ m ++ 0x34#7)
  | .emitm o a => some (o ++ a ++ 0#6 ++ 0x35#7)
  | .nset a f n => some (0#10 ++ a ++ f ++ n ++ 0x38#7)
  | .csrr c d => some (0#1 ++ c ++ 0#6 ++ d ++ 0x40#7)
  | .csrw c a d => some (0#1 ++ c ++ a ++ d ++ 0x41#7)
  | .phaseg s => some (0#23 ++ s ++ 0x42#7)
  | .gchk a => some (0#13 ++ a ++ 0#6 ++ 0x43#7)
  | .spin => some 0x44#32
  | .yield => some 0x45#32
  | .halt => some 0x46#32
  | .trapc c => some (c ++ 0#12 ++ 0x47#7)
  | .xret => some 0x48#32
  | .cpost a d => some (0#13 ++ a ++ d ++ 0x49#7)
  | .cqry a d => some (0#13 ++ a ++ d ++ 0x4a#7)
  | .drainq => some 0x4b#32
  | _ => none
/-- Why a slot word is illegal: the ILLSLOT subcauses of R65. -/
inductive SlotErr where
  | opc | rsvd | priv | opnd
deriving DecidableEq, Repr

/-- BFCAUSE.SUB of an ILLSLOT (spec/05 table "BFCAUSE"). -/
def SlotErr.code : SlotErr → Nat
  | .opc => 1
  | .rsvd => 2
  | .priv => 3
  | .opnd => 4

/-- The first broken rule of a list of checks: subcause and whether it holds. -/
def firstBroken : List (Bool × SlotErr) → Option SlotErr
  | [] => none
  | (true, e) :: _ => some e
  | (false, _) :: rest => firstBroken rest

/-! ### VX and VY words (R65, R209-R225) -/

def VWord.ofWord (w : Word) : VWord where
  sat := w.extractLsb' 59 1
  rm := w.extractLsb' 57 2
  ty := w.extractLsb' 53 4
  hb := w.extractLsb' 52 1
  ha := w.extractLsb' 51 1
  q := w.extractLsb' 48 3
  vc := w.extractLsb' 38 10
  vb := w.extractLsb' 28 10
  va := w.extractLsb' 18 10
  vd := w.extractLsb' 8 10

def VWord.toWord (op : BitVec 8) (v : VWord) : Word :=
  0#4 ++ v.sat ++ v.rm ++ v.ty ++ v.hb ++ v.ha ++ v.q ++ v.vc ++ v.vb ++ v.va ++ v.vd ++ op

/-- Element width in bytes of a vector type code (R170). -/
def typeBytes (ty : Nat) : Nat :=
  if ty = 0 ∨ ty = 3 ∨ ty = 4 then 4
  else if ty = 1 ∨ ty = 2 ∨ ty = 5 ∨ ty = 6 then 2
  else 1

/-- Lanes of a vector type (R170). -/
def typeLanes (ty : Nat) : Nat := 64 / typeBytes ty

def isFloatType (ty : Nat) : Bool := decide (ty ≤ 2)
def isIntType (ty : Nat) : Bool := decide (3 ≤ ty ∧ ty ≤ 8)

/-- Which fields an operation uses: va, vb, vc as registers, predicate q, rm, sat, the type, vd (R209). -/
structure VUse where
  va : Bool := true
  vb : Bool := true
  vc : Bool := false
  q : Bool := true
  rm : Bool := false
  sat : Bool := false
  ty : Bool := true
  vd : Bool := true
deriving DecidableEq, Repr

/-- Fields that must be zero because the operation does not use them, HA and HB among them (R208, R209), and
reserved type codes (R65). `imm` says that vc carries an immediate. -/
def vUnused (u : VUse) (imm : Bool) (w : VWord) : Bool :=
  (!u.va && (w.va != 0 || w.ha != 0)) || (!u.vb && (w.vb != 0 || w.hb != 0)) ||
  (!u.vc && !imm && w.vc != 0) || (!u.q && w.q != 0) || (!u.rm && w.rm != 0) || (!u.sat && w.sat != 0) ||
  (!u.ty && w.ty != 0) || (!u.vd && w.vd != 0) || decide (11 ≤ w.ty.toNat)

/-- The value of a signed 10-bit immediate fits type `ty` exactly (R222, VMOVI). -/
def immFits (ty : Nat) (v : Int) : Bool :=
  if ty = 0 ∨ ty = 2 ∨ ty = 3 ∨ ty = 5 then true
  else if ty = 1 then
    let m := v.natAbs
    decide (m < 256) || decide (m % 2 = 0 ∧ m < 512) || decide (m = 512)
  else if ty = 7 then decide (-128 ≤ v ∧ v ≤ 127)
  else if ty = 8 then decide (0 ≤ v ∧ v ≤ 255)
  else decide (0 ≤ v)

/-- A VLDI immediate has bits beyond those its type uses (R222). -/
def ldiTooWide (ty : Nat) (n : BitVec 30) : Bool :=
  if typeBytes ty = 4 then false
  else if typeBytes ty = 2 then n.extractLsb' 16 14 != 0
  else n.extractLsb' 8 22 != 0

/-- Block size in bytes of SB7, SB4, SB2 (codes 7, 8, 9; R175). -/
def blockBytes (code : Nat) : Nat := if code = 7 then 18 else if code = 8 then 12 else 8

def vldiImm (w : VWord) : BitVec 30 := w.vc ++ w.vb ++ w.va

/-- The checks of each vector opcode (R208-R225). -/
def vCheck (op : Nat) (w : VWord) : Option SlotErr :=
  let ty := w.ty.toNat
  let fl := isFloatType ty
  let u (use : VUse) (imm : Bool) (opnd : Bool) := firstBroken [(vUnused use imm w, .rsvd), (opnd, .opnd)]
  if op = 0x01 ∨ op = 0x02 ∨ op = 0x03 then u { rm := fl, sat := true } false (decide (8 < ty))
  else if op = 0x04 ∨ op = 0x05 then u { vc := true, rm := true, sat := true } false (!fl)
  else if op = 0x06 ∨ op = 0x07 then u {} false (decide (8 < ty))
  else if op = 0x08 ∨ op = 0x09 then u { vb := false, sat := !fl } false (decide (8 < ty))
  else if op = 0x0a ∨ op = 0x0b ∨ op = 0x0c then u { vb := false, rm := true, sat := true } false (!fl)
  else if op = 0x0d then u { rm := true, sat := true } false (!fl)
  else if op = 0x10 ∨ op = 0x11 ∨ op = 0x12 then u {} false false
  else if op = 0x13 then u { vb := false } false false
  else if op = 0x14 ∨ op = 0x15 ∨ op = 0x16 ∨ op = 0x19 then u {} false (!isIntType ty)
  else if op = 0x17 ∨ op = 0x18 then
    u { vb := false } true (!isIntType ty || decide (8 * typeBytes ty ≤ w.vc.toNat))
  else if op = 0x1a then u { vb := false } false (!isIntType ty)
  else if op = 0x1c ∨ op = 0x1e then
    u { rm := fl } false (decide (ty = 0 ∨ 8 < ty) || w.vd.extractLsb' 0 1 != 0)
  else if op = 0x1d then
    u { vc := true, rm := fl, sat := true } false (decide (ty = 0 ∨ 8 < ty) || w.vd.extractLsb' 0 1 != 0)
  else if op = 0x20 then
    firstBroken [(vUnused {} true w || decide (8 ≤ w.vd.toNat) || decide (8 ≤ w.vc.toNat), .rsvd),
      (w.vd == 0 || (isIntType ty && decide (6 ≤ w.vc.toNat)), .opnd)]
  else if op = 0x21 then u {} false false
  else if op = 0x22 then
    firstBroken [(w.q != 0 || w.ty != 0 || w.rm != 0 || w.sat != 0 || w.ha != 0 || w.hb != 0 ||
      decide (8 ≤ w.vd.toNat) || decide (8 ≤ w.va.toNat) || decide (8 ≤ w.vb.toNat) || decide (16 ≤ w.vc.toNat), .rsvd),
      (w.vd == 0, .opnd)]
  else if op = 0x28 then
    let src := w.vc.toNat % 16
    let h := w.vc.toNat / 16 % 4
    let ls := typeLanes src
    let ld := typeLanes ty
    firstBroken [(vUnused { vb := false, rm := true, sat := true } true w || decide (11 ≤ src) ||
        decide (64 ≤ w.vc.toNat), .rsvd),
      (decide ((ls = ld ∧ h ≠ 0) ∨ (ls < ld ∧ ld / ls ≤ h) ∨ (ld < ls ∧ ls / ld ≤ h)), .opnd)]
  else if op = 0x29 ∨ op = 0x2a then
    let f := w.vc.toNat % 16
    let j := w.vc.toNat / 16 % 4
    firstBroken [(vUnused { vb := false, q := decide (op = 0x2a) } true w || decide (10 ≤ f) ||
        decide (64 ≤ w.vc.toNat), .rsvd),
      (decide (f ≤ 6) || decide (64 < (j + 1) * blockBytes f) || decide (ty ≠ 0), .opnd)]
  else if op = 0x30 ∨ op = 0x31 then
    firstBroken [(vUnused { vb := decide (op = 0x30), rm := fl, sat := true } true w || decide (4 ≤ w.vc.toNat), .rsvd),
      (decide (8 < ty) || (w.vc == 3 && !isIntType ty), .opnd)]
  else if op = 0x32 then u {} false false
  else if op = 0x33 then u { vb := false } true (decide (typeLanes ty ≤ w.vc.toNat))
  else if op = 0x34 then u {} true (decide (typeLanes ty < w.vc.toNat))
  else if op = 0x35 then u { va := false, vb := false } true (!isIntType ty)
  else if op = 0x36 then u { vb := false } false false
  else if op = 0x37 then
    u { va := false, vb := false } true (decide (8 < ty) || !immFits ty w.vc.toInt)
  else if op = 0x38 then
    firstBroken [(w.ha != 0 || w.hb != 0 || w.rm != 0 || w.sat != 0 || decide (11 ≤ ty), .rsvd),
      (ldiTooWide ty (vldiImm w), .opnd)]
  else if op = 0x3c then
    firstBroken [(w.vd != 0 || w.vb != 0 || w.q != 0 || w.ty != 0 || w.rm != 0 || w.sat != 0 || w.ha != 0 || w.hb != 0 ||
      decide (2 ≤ w.vc.toNat) || (w.vc == 1 && decide (8 ≤ w.va.toNat)), .rsvd)]
  else if op = 0x3d then
    firstBroken [(w.va != 0 || w.vb != 0 || w.q != 0 || w.ty != 0 || w.rm != 0 || w.sat != 0 || w.ha != 0 || w.hb != 0 ||
      decide (2 ≤ w.vc.toNat) || (w.vc == 1 && decide (8 ≤ w.vd.toNat)), .rsvd)]
  else if op = 0x3e then
    u { va := false, vb := false, q := false, ty := false } true (decide (35 ≤ w.vc.toNat))
  else some .opc

/-- The vector instruction of an opcode. -/
def vInstr (p : Pipe) (w : VWord) : Nat → Option Instr
  | 0x01 => some (.vadd p w)
  | 0x02 => some (.vsub p w)
  | 0x03 => some (.vmul p w)
  | 0x04 => some (.vfma p w)
  | 0x05 => some (.vfms p w)
  | 0x06 => some (.vmin p w)
  | 0x07 => some (.vmax p w)
  | 0x08 => some (.vabs p w)
  | 0x09 => some (.vneg p w)
  | 0x0a => some (.vrcp p w)
  | 0x0b => some (.vrsq p w)
  | 0x0c => some (.vexp2 p w)
  | 0x0d => some (.vdiv p w)
  | 0x10 => some (.vand p w)
  | 0x11 => some (.vor p w)
  | 0x12 => some (.vxor p w)
  | 0x13 => some (.vnot p w)
  | 0x14 => some (.vshl p w)
  | 0x15 => some (.vshr p w)
  | 0x16 => some (.vsra p w)
  | 0x17 => some (.vshli p w)
  | 0x18 => some (.vshri p w)
  | 0x19 => some (.vmulh p w)
  | 0x1a => some (.vclz p w)
  | 0x1c => some (.vwadd p w)
  | 0x1d => some (.vwacc p w)
  | 0x1e => some (.vwmul p w)
  | 0x20 => some (.vcmp p w)
  | 0x21 => some (.vsel p w)
  | 0x22 => some (.qop p w)
  | 0x28 => some (.vcvt p w)
  | 0x29 => some (.vqnt p w)
  | 0x2a => some (.vdqnt p w)
  | 0x30 => some (.vscan p w)
  | 0x31 => some (.vred p w)
  | 0x32 => some (.vperm p w)
  | 0x33 => some (.vbcst p w)
  | 0x34 => some (.vshfl p w)
  | 0x35 => some (.viota p w)
  | 0x36 => some (.vmov p w)
  | 0x37 => some (.vmovi p w)
  | 0x38 => some (.vldi p w)
  | 0x3c => some (.vchk p w)
  | 0x3d => some (.vclrp p w)
  | 0x3e => some (.vstat p w)
  | _ => none

def decodeV (p : Pipe) (w : Word) : Except SlotErr Instr :=
  let f := VWord.ofWord w
  let op := (w.extractLsb' 0 8).toNat
  match vInstr p f op with
  | none => .error .opc
  | some i =>
    if w.extractLsb' 60 4 ≠ 0 then .error .rsvd
    else match vCheck op f with
      | some e => .error e
      | none => .ok i

/-! ### MEM words (R65, R226-R232) -/

def MemBuf.ofWord (w : Word) : MemBuf where
  part := w.extractLsb' 30 2
  row := w.extractLsb' 24 6
  tile := w.extractLsb' 18 6
  buf := w.extractLsb' 16 2
  v := w.extractLsb' 6 10

def MemBuf.toWord (op : BitVec 6) (m : MemBuf) : Word :=
  0#32 ++ m.part ++ m.row ++ m.tile ++ m.buf ++ m.v ++ op

def MemGlob.ofWord (w : Word) : MemGlob where
  off := w.extractLsb' 28 32
  arr := w.extractLsb' 20 8
  z := w.extractLsb' 16 4
  v := w.extractLsb' 6 10

def MemGlob.toWord (op : BitVec 6) (m : MemGlob) : Word :=
  0#4 ++ m.off ++ m.arr ++ m.z ++ m.v ++ op

def MemGath.ofWord (w : Word) : MemGath where
  ty := w.extractLsb' 38 4
  arr := w.extractLsb' 30 8
  z := w.extractLsb' 26 4
  vb := w.extractLsb' 16 10
  v := w.extractLsb' 6 10

def MemGath.toWord (op : BitVec 6) (m : MemGath) : Word :=
  0#22 ++ m.ty ++ m.arr ++ m.z ++ m.vb ++ m.v ++ op

def memBufCheck (m : MemBuf) : Option SlotErr := firstBroken [(m.buf == 3, .rsvd)]

/-- R228; `load` says that the arrival field is used, `hint` is PFTCH, which never faults on its offset. -/
def memGlobCheck (load hint : Bool) (m : MemGlob) : Option SlotErr :=
  firstBroken [((!load && m.arr != 0) || (hint && m.v != 0), .rsvd), (!hint && m.off.extractLsb' 0 6 != 0, .opnd)]

def memGathCheck (load : Bool) (m : MemGath) : Option SlotErr :=
  firstBroken [((!load && m.arr != 0) || decide (11 ≤ m.ty.toNat), .rsvd),
    (decide (m.ty.toNat ≠ 0 ∧ (m.ty.toNat < 3 ∨ 8 < m.ty.toNat)), .opnd)]

def checked (hi : Bool) (c : Option SlotErr) (i : Instr) : Except SlotErr Instr :=
  if hi then .error .rsvd else match c with
    | some e => .error e
    | none => .ok i

def decodeMem (w : Word) : Except SlotErr Instr :=
  let b := MemBuf.ofWord w
  let g := MemGlob.ofWord w
  let t := MemGath.ofWord w
  let bz := w.extractLsb' 32 32 != 0
  let gz := w.extractLsb' 60 4 != 0
  let tz := w.extractLsb' 42 22 != 0
  match (w.extractLsb' 0 6).toNat with
  | 0x00 => if w = 0 then .ok (.nop .mem) else .error .rsvd
  | 0x01 => checked bz (memBufCheck b) (.vld b)
  | 0x02 => checked bz (memBufCheck b) (.vst b)
  | 0x03 => checked gz (memGlobCheck true false g) (.vldg g)
  | 0x04 => checked gz (memGlobCheck true false g) (.vldgs g)
  | 0x05 => checked gz (memGlobCheck false false g) (.vstg g)
  | 0x06 => checked tz (memGathCheck true t) (.vgth t)
  | 0x07 => checked tz (memGathCheck true t) (.vgths t)
  | 0x08 => checked tz (memGathCheck false t) (.vsct t)
  | 0x09 => if w.extractLsb' 6 58 = 0 then .ok .phase else .error .rsvd
  | 0x0a => checked gz (memGlobCheck false true g) (.pftch g)
  | _ => .error .opc

/-! ### CPY words (R149) -/

def CpyWord.ofWord (w : Word) : CpyWord where
  port := w.extractLsb' 27 2
  fmt := w.extractLsb' 23 4
  ss := w.extractLsb' 22 1
  bf := w.extractLsb' 21 1
  tile := w.extractLsb' 15 6
  nest := w.extractLsb' 11 4
  tok := w.extractLsb' 8 3
  ch := w.extractLsb' 6 2

def CpyWord.toWord (op : BitVec 6) (c : CpyWord) : Word :=
  0#35 ++ c.port ++ c.fmt ++ c.ss ++ c.bf ++ c.tile ++ c.nest ++ c.tok ++ c.ch ++ op

/-- The table "Copy-slot fields by opcode" (R149). DESIGN CHOICE (log entry 57): a word that breaks one of these checks reports it, also
where it is privileged and the context a tenant's (RSVD before OPND before PRIV). -/
def cpyCheck (op : Nat) (c : CpyWord) : Option SlotErr :=
  let f := c.fmt.toNat
  if op = 1 ∨ op = 5 then firstBroken [(c.ss != 0 || c.fmt != 0 || c.port != 0, .rsvd)]
  else if op = 2 then
    firstBroken [(c.ss != 0 || c.port != 0 || decide (10 ≤ f), .rsvd),
      (c.bf == 0 || !(decide (f = 0 ∨ f = 7 ∨ f = 8 ∨ f = 9)), .opnd)]
  else if op = 3 then firstBroken [(c.port != 0 || decide (10 ≤ f), .rsvd)]
  else if op = 4 then firstBroken [(c.port != 0 || decide (10 ≤ f), .rsvd), (decide (2 < f), .opnd)]
  else if op = 6 then
    firstBroken [(c.bf != 0 || c.ss != 0 || decide (10 ≤ f), .rsvd),
      (decide (32 ≤ c.tile.toNat) || !(decide (f = 0 ∨ f = 5)), .opnd)]
  else if op = 7 then firstBroken [(c.ss != 0 || c.fmt != 0 || c.port != 0, .rsvd), (c.bf != 0, .opnd)]
  else if op = 8 then
    firstBroken [(c.bf != 0 || c.ss != 0 || c.fmt != 0 || c.port != 0 || c.tok != 0 || c.nest != 0, .rsvd),
      (decide (c.tile.toNat < 4 ∨ 7 < c.tile.toNat), .opnd)]
  else if op = 9 then
    firstBroken [(c.bf != 0 || c.ss != 0 || c.fmt != 0 || c.port != 0 || c.tok != 0 || c.nest != 0, .rsvd),
      (decide ((1 ≤ c.tile.toNat ∧ c.tile.toNat < 4) ∨ 7 < c.tile.toNat), .opnd)]
  else some .opc

def cpyInstr (c : CpyWord) : Nat → Option Instr
  | 1 => some (.fill c)
  | 2 => some (.fills c)
  | 3 => some (.feed c)
  | 4 => some (.feedt c)
  | 5 => some (.drain c)
  | 6 => some (.addw c)
  | 7 => some (.rput c)
  | 8 => some (.cresm c)
  | 9 => some (.cclr c)
  | _ => none

def decodeCpy (w : Word) : Except SlotErr Instr :=
  let c := CpyWord.ofWord w
  let op := (w.extractLsb' 0 6).toNat
  if op = 0 then (if w = 0 then .ok (.nop .cpy) else .error .rsvd)
  else match cpyInstr c op with
    | none => .error .opc
    | some i => checked (w.extractLsb' 29 35 != 0) (cpyCheck op c) i

/-! ### SYN words (R238) -/

def SynWord.ofWord (w : Word) : SynWord where
  off := w.extractLsb' 46 18
  sub := w.extractLsb' 42 4
  ty := w.extractLsb' 38 4
  arr := w.extractLsb' 30 8
  z := w.extractLsb' 26 4
  vs := w.extractLsb' 16 10
  vd := w.extractLsb' 6 10

def SynWord.toWord (op : BitVec 6) (s : SynWord) : Word :=
  s.off ++ s.sub ++ s.ty ++ s.arr ++ s.z ++ s.vs ++ s.vd ++ op

/-- The table "SYN fields by opcode" (R238). -/
def synCheck (op : Nat) (s : SynWord) : Option SlotErr :=
  let t := s.ty.toNat
  let nz (vd vs addr arr ty sub : Bool) : Bool :=
    (!vd && s.vd != 0) || (!vs && s.vs != 0) || (!addr && (s.z != 0 || s.off != 0)) || (!arr && s.arr != 0) ||
    (!ty && s.ty != 0) || (!sub && s.sub != 0)
  if op = 1 ∨ op = 2 ∨ op = 3 ∨ op = 7 ∨ op = 8 then
    firstBroken [(nz true true true true true false || decide (5 ≤ t), .rsvd)]
  else if op = 4 ∨ op = 5 ∨ op = 6 then
    firstBroken [(nz true true true true true false || decide (5 ≤ t), .rsvd), (decide (t = 4), .opnd)]
  else if op = 9 then
    firstBroken [(nz false true true false true true || decide (5 ≤ t) || decide (6 ≤ s.sub.toNat), .rsvd),
      (decide (3 ≤ s.sub.toNat ∧ t = 4), .opnd)]
  else if op = 10 ∨ op = 11 then firstBroken [(nz false false true false false false, .rsvd)]
  else if op = 12 ∨ op = 14 ∨ op = 18 then firstBroken [(nz false true true false false false, .rsvd)]
  else if op = 13 then firstBroken [(nz true false true true false false, .rsvd)]
  else if op = 15 then firstBroken [(nz false true true false false true || decide (2 ≤ s.sub.toNat), .rsvd)]
  else if op = 16 then firstBroken [(nz false true false false false true, .rsvd)]
  else if op = 17 then firstBroken [(nz false false false false false false, .rsvd)]
  else some .opc

def synInstr (s : SynWord) : Nat → Option Instr
  | 1 => some (.aadd s)
  | 2 => some (.amin s)
  | 3 => some (.amax s)
  | 4 => some (.aand s)
  | 5 => some (.aor s)
  | 6 => some (.axor s)
  | 7 => some (.aswp s)
  | 8 => some (.acas s)
  | 9 => some (.red s)
  | 10 => some (.arv s)
  | 11 => some (.arvd s)
  | 12 => some (.bwait s)
  | 13 => some (.btest s)
  | 14 => some (.sig s)
  | 15 => some (.swait s)
  | 16 => some (.uli s)
  | 17 => some (.sfence s)
  | 18 => some (.brst s)
  | _ => none

def decodeSyn (w : Word) : Except SlotErr Instr :=
  let s := SynWord.ofWord w
  let op := (w.extractLsb' 0 6).toNat
  if op = 0 then (if w = 0 then .ok (.nop .syn) else .error .rsvd)
  else match synInstr s op with
    | none => .error .opc
    | some i => checked false (synCheck op s) i

/-! ### MTX words (R192) -/

def MtxWord.ofWord (w : Word) : MtxWord where
  cs := w.extractLsb' 54 5
  sat := w.extractLsb' 53 1
  rm := w.extractLsb' 51 2
  typ := w.extractLsb' 47 4
  half := w.extractLsb' 46 1
  f := w.extractLsb' 40 6
  zero := w.extractLsb' 39 1
  offb := w.extractLsb' 30 9
  offa := w.extractLsb' 21 9
  k := w.extractLsb' 11 10
  c := w.extractLsb' 6 5

def MtxWord.toWord (op : BitVec 6) (m : MtxWord) : Word :=
  0#5 ++ m.cs ++ m.sat ++ m.rm ++ m.typ ++ m.half ++ m.f ++ m.zero ++ m.offb ++ m.offa ++ m.k ++ m.c ++ op

/-- The table "MTX fields by opcode" with its further limits (R192). -/
def mtxCheck (op : Nat) (m : MtxWord) : Option SlotErr :=
  let t := m.typ.toNat
  let nz (ab f half typ conv cs : Bool) : Bool :=
    (!ab && (m.k != 0 || m.offa != 0 || m.offb != 0 || m.zero != 0)) || (!f && m.f != 0) || (!half && m.half != 0) ||
    (!typ && m.typ != 0) || (!conv && (m.rm != 0 || m.sat != 0)) || (!cs && m.cs != 0)
  if op = 1 then
    firstBroken [(nz true false false false false false, .rsvd),
      (decide (m.k.toNat = 0 ∨ 512 < m.k.toNat ∨ 512 < m.offa.toNat + m.k.toNat ∨ 512 < m.offb.toNat + m.k.toNat), .opnd)]
  else if op = 2 ∨ op = 3 then
    firstBroken [(nz false true true true false false || decide (11 ≤ t), .rsvd),
      (decide (t = 4 ∨ 7 ≤ t) || (m.half != 0 && decide (t = 0 ∨ t = 3)), .opnd)]
  else if op = 4 then
    firstBroken [(nz false true true true true false || decide (11 ≤ t), .rsvd),
      (m.half != 0 && decide (t = 0 ∨ t = 3 ∨ t = 4), .opnd)]
  else if op = 5 then
    firstBroken [(nz false true true true false false || decide (10 ≤ t), .rsvd), (decide (t < 7), .opnd)]
  else if op = 6 then firstBroken [(nz false false false false false false, .rsvd)]
  else if op = 7 then firstBroken [(nz false false false false false true, .rsvd)]
  else some .opc

def mtxInstr (m : MtxWord) : Nat → Option Instr
  | 1 => some (.mma m)
  | 2 => some (.mld m)
  | 3 => some (.mldt m)
  | 4 => some (.mst m)
  | 5 => some (.mstq m)
  | 6 => some (.mclr m)
  | 7 => some (.macc m)
  | _ => none

def decodeMtx (w : Word) : Except SlotErr Instr :=
  let m := MtxWord.ofWord w
  let op := (w.extractLsb' 0 6).toNat
  if op = 0 then (if w = 0 then .ok (.nop .mtx) else .error .rsvd)
  else match mtxInstr m op with
    | none => .error .opc
    | some i => checked (w.extractLsb' 59 5 != 0) (mtxCheck op m) i

/-! ### CTL words (R69-R77) -/

/-- Selectors a slot has (R73, table "Step selectors"). -/
def stepSelectors (slot : Nat) : Nat :=
  if slot = 1 then 5 else if slot = 2 then 2 else if 3 ≤ slot ∧ slot ≤ 5 then 4 else 0

def ctlCheck : Instr → Option SlotErr
  | .fmtset _ b a => firstBroken [(decide (10 ≤ b.toNat) || decide (10 ≤ a.toNat), .rsvd)]
  | .qcfgSlack s e =>
    firstBroken [(decide (3 ≤ e.toNat), .rsvd), (decide ((if e = 0 then 8 else 16) < s.toNat), .opnd)]
  | .stepReg _ sel slot => firstBroken [(decide (stepSelectors slot.toNat ≤ sel.toNat), .rsvd)]
  | .sadv beats _ => firstBroken [(decide (512 < beats.toNat), .opnd)]
  | _ => none

def decodeCtl (w : Word) : Except SlotErr Instr :=
  match (w.extractLsb' 0 6).toNat with
  | 0x00 => if w = 0 then .ok (.nop .ctl) else .error .rsvd
  | 0x01 =>
    let i := Instr.fmtset (w.extractLsb' 14 1) (w.extractLsb' 10 4) (w.extractLsb' 6 4)
    checked (w.extractLsb' 15 49 != 0) (ctlCheck i) i
  | 0x02 =>
    if w.extractLsb' 6 3 = 7 then
      checked (w.extractLsb' 19 45 != 0 || w.extractLsb' 9 5 != 0) none
        (.qcfgPort (w.extractLsb' 18 1) (w.extractLsb' 16 2) (w.extractLsb' 14 2))
    else
      let i := Instr.qcfgSlack (w.extractLsb' 9 5) (w.extractLsb' 6 3)
      checked (w.extractLsb' 14 50 != 0) (ctlCheck i) i
  | 0x03 =>
    let i := Instr.stepReg (w.extractLsb' 16 24) (w.extractLsb' 9 4) (w.extractLsb' 6 3)
    checked (w.extractLsb' 40 24 != 0 || w.extractLsb' 13 3 != 0) (ctlCheck i) i
  | 0x04 => checked (w.extractLsb' 23 41 != 0) none (.waitw (w.extractLsb' 8 15) (w.extractLsb' 6 2))
  | 0x05 =>
    let i := Instr.sadv (w.extractLsb' 7 10) (w.extractLsb' 6 1)
    checked (w.extractLsb' 17 47 != 0) (ctlCheck i) i
  | 0x06 => checked (w.extractLsb' 11 53 != 0) none (.mwait (w.extractLsb' 6 5))
  | 0x07 => checked (w.extractLsb' 6 58 != 0) none .ckpt
  | 0x08 => checked (w.extractLsb' 6 58 != 0) none .prog
  | 0x09 => checked (w.extractLsb' 6 58 != 0) none .sync
  | _ => .error .opc

/-- The operation of a word in a slot, or the ILLSLOT subcause (R65). PRIV depends on the issuing context and is
checked at issue (R161, R162). -/
def decodeSlot : Slot → Word → Except SlotErr Instr
  | .ctl, w => decodeCtl w
  | .mem, w => decodeMem w
  | .cpy, w => decodeCpy w
  | .vx, w => if w.extractLsb' 0 8 = 0 then (if w = 0 then .ok (.nop .vx) else .error .rsvd) else decodeV .x w
  | .vy, w => if w.extractLsb' 0 8 = 0 then (if w = 0 then .ok (.nop .vy) else .error .rsvd) else decodeV .y w
  | .mtx, w => decodeMtx w
  | .syn, w => decodeSyn w

/-- The slot and the 64-bit word of a slot operation; none for the rows that are no slot operations. -/
def encodeSlot : Instr → Option (Slot × Word)
  | .nop s => some (s, 0)
  | .fmtset acc b a => some (.ctl, 0#49 ++ acc ++ b ++ a ++ 0x01#6)
  | .qcfgSlack s e => some (.ctl, 0#50 ++ s ++ e ++ 0x02#6)
  | .qcfgPort r s b => some (.ctl, 0#45 ++ r ++ s ++ b ++ 0#5 ++ 7#3 ++ 0x02#6)
  | .stepReg n sel slot => some (.ctl, 0#24 ++ n ++ 0#3 ++ sel ++ slot ++ 0x03#6)
  | .waitw b ch => some (.ctl, 0#41 ++ b ++ ch ++ 0x04#6)
  | .sadv b s => some (.ctl, 0#47 ++ b ++ s ++ 0x05#6)
  | .mwait c => some (.ctl, 0#53 ++ c ++ 0x06#6)
  | .ckpt => some (.ctl, 0x07#64)
  | .prog => some (.ctl, 0x08#64)
  | .sync => some (.ctl, 0x09#64)
  | .vld m => some (.mem, m.toWord 0x01)
  | .vst m => some (.mem, m.toWord 0x02)
  | .vldg m => some (.mem, m.toWord 0x03)
  | .vldgs m => some (.mem, m.toWord 0x04)
  | .vstg m => some (.mem, m.toWord 0x05)
  | .vgth m => some (.mem, m.toWord 0x06)
  | .vgths m => some (.mem, m.toWord 0x07)
  | .vsct m => some (.mem, m.toWord 0x08)
  | .phase => some (.mem, 0x09#64)
  | .pftch m => some (.mem, m.toWord 0x0a)
  | .fill c => some (.cpy, c.toWord 0x01)
  | .fills c => some (.cpy, c.toWord 0x02)
  | .feed c => some (.cpy, c.toWord 0x03)
  | .feedt c => some (.cpy, c.toWord 0x04)
  | .drain c => some (.cpy, c.toWord 0x05)
  | .addw c => some (.cpy, c.toWord 0x06)
  | .rput c => some (.cpy, c.toWord 0x07)
  | .cresm c => some (.cpy, c.toWord 0x08)
  | .cclr c => some (.cpy, c.toWord 0x09)
  | .aadd s => some (.syn, s.toWord 0x01)
  | .amin s => some (.syn, s.toWord 0x02)
  | .amax s => some (.syn, s.toWord 0x03)
  | .aand s => some (.syn, s.toWord 0x04)
  | .aor s => some (.syn, s.toWord 0x05)
  | .axor s => some (.syn, s.toWord 0x06)
  | .aswp s => some (.syn, s.toWord 0x07)
  | .acas s => some (.syn, s.toWord 0x08)
  | .red s => some (.syn, s.toWord 0x09)
  | .arv s => some (.syn, s.toWord 0x0a)
  | .arvd s => some (.syn, s.toWord 0x0b)
  | .bwait s => some (.syn, s.toWord 0x0c)
  | .btest s => some (.syn, s.toWord 0x0d)
  | .sig s => some (.syn, s.toWord 0x0e)
  | .swait s => some (.syn, s.toWord 0x0f)
  | .uli s => some (.syn, s.toWord 0x10)
  | .sfence s => some (.syn, s.toWord 0x11)
  | .brst s => some (.syn, s.toWord 0x12)
  | .mma m => some (.mtx, m.toWord 0x01)
  | .mld m => some (.mtx, m.toWord 0x02)
  | .mldt m => some (.mtx, m.toWord 0x03)
  | .mst m => some (.mtx, m.toWord 0x04)
  | .mstq m => some (.mtx, m.toWord 0x05)
  | .mclr m => some (.mtx, m.toWord 0x06)
  | .macc m => some (.mtx, m.toWord 0x07)
  | .vadd p w => some (if p = .x then .vx else .vy, w.toWord 0x01)
  | .vsub p w => some (if p = .x then .vx else .vy, w.toWord 0x02)
  | .vmul p w => some (if p = .x then .vx else .vy, w.toWord 0x03)
  | .vfma p w => some (if p = .x then .vx else .vy, w.toWord 0x04)
  | .vfms p w => some (if p = .x then .vx else .vy, w.toWord 0x05)
  | .vmin p w => some (if p = .x then .vx else .vy, w.toWord 0x06)
  | .vmax p w => some (if p = .x then .vx else .vy, w.toWord 0x07)
  | .vabs p w => some (if p = .x then .vx else .vy, w.toWord 0x08)
  | .vneg p w => some (if p = .x then .vx else .vy, w.toWord 0x09)
  | .vrcp p w => some (if p = .x then .vx else .vy, w.toWord 0x0a)
  | .vrsq p w => some (if p = .x then .vx else .vy, w.toWord 0x0b)
  | .vexp2 p w => some (if p = .x then .vx else .vy, w.toWord 0x0c)
  | .vdiv p w => some (if p = .x then .vx else .vy, w.toWord 0x0d)
  | .vand p w => some (if p = .x then .vx else .vy, w.toWord 0x10)
  | .vor p w => some (if p = .x then .vx else .vy, w.toWord 0x11)
  | .vxor p w => some (if p = .x then .vx else .vy, w.toWord 0x12)
  | .vnot p w => some (if p = .x then .vx else .vy, w.toWord 0x13)
  | .vshl p w => some (if p = .x then .vx else .vy, w.toWord 0x14)
  | .vshr p w => some (if p = .x then .vx else .vy, w.toWord 0x15)
  | .vsra p w => some (if p = .x then .vx else .vy, w.toWord 0x16)
  | .vshli p w => some (if p = .x then .vx else .vy, w.toWord 0x17)
  | .vshri p w => some (if p = .x then .vx else .vy, w.toWord 0x18)
  | .vmulh p w => some (if p = .x then .vx else .vy, w.toWord 0x19)
  | .vclz p w => some (if p = .x then .vx else .vy, w.toWord 0x1a)
  | .vwadd p w => some (if p = .x then .vx else .vy, w.toWord 0x1c)
  | .vwacc p w => some (if p = .x then .vx else .vy, w.toWord 0x1d)
  | .vwmul p w => some (if p = .x then .vx else .vy, w.toWord 0x1e)
  | .vcmp p w => some (if p = .x then .vx else .vy, w.toWord 0x20)
  | .vsel p w => some (if p = .x then .vx else .vy, w.toWord 0x21)
  | .qop p w => some (if p = .x then .vx else .vy, w.toWord 0x22)
  | .vcvt p w => some (if p = .x then .vx else .vy, w.toWord 0x28)
  | .vqnt p w => some (if p = .x then .vx else .vy, w.toWord 0x29)
  | .vdqnt p w => some (if p = .x then .vx else .vy, w.toWord 0x2a)
  | .vscan p w => some (if p = .x then .vx else .vy, w.toWord 0x30)
  | .vred p w => some (if p = .x then .vx else .vy, w.toWord 0x31)
  | .vperm p w => some (if p = .x then .vx else .vy, w.toWord 0x32)
  | .vbcst p w => some (if p = .x then .vx else .vy, w.toWord 0x33)
  | .vshfl p w => some (if p = .x then .vx else .vy, w.toWord 0x34)
  | .viota p w => some (if p = .x then .vx else .vy, w.toWord 0x35)
  | .vmov p w => some (if p = .x then .vx else .vy, w.toWord 0x36)
  | .vmovi p w => some (if p = .x then .vx else .vy, w.toWord 0x37)
  | .vldi p w => some (if p = .x then .vx else .vy, w.toWord 0x38)
  | .vchk p w => some (if p = .x then .vx else .vy, w.toWord 0x3c)
  | .vclrp p w => some (if p = .x then .vx else .vy, w.toWord 0x3d)
  | .vstat p w => some (if p = .x then .vx else .vy, w.toWord 0x3e)
  | _ => none

/-! ### Bytes -/

/-- Why bytes are no instruction: fewer than a word, or a word R66 gives an illegal instruction. -/
inductive DecodeError where
  | tooShort
  | illegal (w : BitVec 32)
deriving DecidableEq, Repr

/-- The generator instruction at the head of a list of bytes, little-endian (R2, R66), and the bytes after it. -/
def decodeBytes : List Byte → Except DecodeError (Instr × List Byte)
  | b0 :: b1 :: b2 :: b3 :: rest =>
    let w : BitVec 32 := b3 ++ b2 ++ b1 ++ b0
    match decodeGen w with
    | some i => .ok (i, rest)
    | none => .error (.illegal w)
  | _ => .error .tooShort

/-- What the decoder reads from an instruction of `nbits` bits: every generator instruction is one 32-bit word
(R66). The rows without bits in the table are slot operations and steps, which no generator word names. -/
def decodeTableWord (nbits w : Nat) : Option Instr :=
  if nbits ≤ 32 then
    match decodeBytes [BitVec.ofNat 8 w, BitVec.ofNat 8 (w / 256), BitVec.ofNat 8 (w / 65536),
      BitVec.ofNat 8 (w / 16777216)] with
    | .ok (i, _) => some i
    | .error _ => none
  else none

end Sys2Proof
end

