-- ==== Sys2Proof/Machine/Formats.lean ====
section
/-! DEFINITION. Number formats, rounding, conversion and quantisation (spec/07, R168-R183). -/

namespace Sys2Proof.Machine

/-! ### Flags of VFLAGS (spec/05) -/

abbrev Flags := BitVec 8
def flQZ : Flags := 0x01
def flQSAT : Flags := 0x02
def flSATF : Flags := 0x04
def flINV : Flags := 0x08
def flDZ : Flags := 0x10
def flOVF : Flags := 0x20
def flUNF : Flags := 0x40
def flINX : Flags := 0x80

/-! ### Values -/

/-- An exact value: (−1)^neg × m × 2^e, an infinity, or a NaN (R171-R173). -/
inductive FVal where
  | fin (neg : Bool) (m : Nat) (e : Int)
  | inf (neg : Bool)
  | nan
deriving DecidableEq, Repr

/-- A floating-point format (R171): field widths, bias, and whether E = all ones holds finite values (E4M3). -/
structure FpFmt where
  ebits : Nat
  tbits : Nat
  bias : Nat
  noInf : Bool

def fmtF32 : FpFmt := ⟨8, 23, 127, false⟩
def fmtBF16 : FpFmt := ⟨8, 7, 127, false⟩
def fmtF16 : FpFmt := ⟨5, 10, 15, false⟩
def fmtE4M3 : FpFmt := ⟨4, 3, 7, true⟩
def fmtE5M2 : FpFmt := ⟨5, 2, 15, false⟩

/-- The floating format of a vector type code (R170). -/
def fpOfType (ty : Nat) : FpFmt :=
  match ty with
  | 1 => fmtBF16
  | 2 => fmtF16
  | 9 => fmtE4M3
  | 10 => fmtE5M2
  | _ => fmtF32

def FpFmt.width (f : FpFmt) : Nat := 1 + f.ebits + f.tbits
/-- Largest biased exponent of a finite value. -/
def FpFmt.emax (f : FpFmt) : Nat := if f.noInf then 2 ^ f.ebits - 1 else 2 ^ f.ebits - 2
/-- Bits of the largest finite value. -/
def FpFmt.maxBits (f : FpFmt) : Nat :=
  if f.noInf then (2 ^ f.ebits - 1) * 2 ^ f.tbits + (2 ^ f.tbits - 2) else (2 ^ f.ebits - 2) * 2 ^ f.tbits + (2 ^ f.tbits - 1)
/-- Canonical NaN (R171, R173). -/
def FpFmt.nanBits (f : FpFmt) : Nat :=
  if f.noInf then 2 ^ (f.ebits + f.tbits) - 1 else (2 ^ f.ebits - 1) * 2 ^ f.tbits + 2 ^ (f.tbits - 1)
def FpFmt.infBits (f : FpFmt) : Nat := (2 ^ f.ebits - 1) * 2 ^ f.tbits
def FpFmt.signBit (f : FpFmt) (neg : Bool) : Nat := if neg then 2 ^ (f.ebits + f.tbits) else 0
/-- Exponent of the smallest normal value. -/
def FpFmt.emin (f : FpFmt) : Int := 1 - (f.bias : Int)

/-- The value of a bit pattern (R171). -/
def FpFmt.decode (f : FpFmt) (bits : Nat) : FVal :=
  let t := bits % 2 ^ f.tbits
  let e := bits / 2 ^ f.tbits % 2 ^ f.ebits
  let s := decide (bits / 2 ^ (f.ebits + f.tbits) % 2 = 1)
  if f.noInf && decide (e = 2 ^ f.ebits - 1 ∧ t = 2 ^ f.tbits - 1) then .nan
  else if !f.noInf && decide (e = 2 ^ f.ebits - 1) then (if t = 0 then .inf s else .nan)
  else if e = 0 then .fin s t (f.emin - f.tbits)
  else .fin s (t + 2 ^ f.tbits) ((e : Int) - f.bias - f.tbits)

/-! ### Rounding (R178-R180) -/

/-- Bits of a number (position of the leading one plus 1). -/
def natLength (n : Nat) : Nat := if n = 0 then 0 else Nat.log2 n + 1

/-- m × 2^e rounded to a multiple of 2^q under a mode (R178): the multiple, and whether it is inexact. -/
def roundAt (m : Nat) (e q : Int) (neg : Bool) (rm : Nat) : Nat × Bool :=
  if q ≤ e then (m * 2 ^ (e - q).toNat, false)
  else
    let k := (q - e).toNat
    let d := m / 2 ^ k
    let r := m % 2 ^ k
    let half := 2 ^ (k - 1)
    let up := match rm with
      | 0 => decide (half < r) || (decide (r = half) && decide (d % 2 = 1))
      | 1 => false
      | 2 => neg && decide (r ≠ 0)
      | _ => !neg && decide (r ≠ 0)
    (if up then d + 1 else d, decide (r ≠ 0))

/-- Result of a finite overflow (R179 table "Overflow results"). -/
def FpFmt.overflow (f : FpFmt) (neg : Bool) (rm : Nat) (sat : Bool) : Nat :=
  let toInf := !sat && (decide (rm = 0) || (decide (rm = 3) && !neg) || (decide (rm = 2) && neg))
  if toInf then (if f.noInf then f.nanBits else f.signBit neg + f.infBits) else f.signBit neg + f.maxBits

/-- A non-zero exact value rounded once to the format (R178-R180). -/
def FpFmt.round (f : FpFmt) (neg : Bool) (m : Nat) (e : Int) (rm : Nat) (sat : Bool) : Nat × Flags :=
  let lead := (natLength m : Int) - 1 + e
  -- with an unbounded exponent range
  let (u, _) := roundAt m e (lead - f.tbits) neg rm
  let ulead := (natLength u : Int) - 1 + (lead - f.tbits)
  -- in the format's range
  let q := (if lead < f.emin then f.emin else lead) - f.tbits
  let (d, inx) := roundAt m e q neg rm
  let (d', q') := if 2 ^ (f.tbits + 1) ≤ d then (d / 2, q + 1) else (d, q)
  let biased := q' + f.tbits + f.bias
  let tooBig := decide (2 ^ f.tbits ≤ d') && (decide ((f.emax : Int) < biased) ||
    (f.noInf && decide (biased = f.emax) && decide (d' = 2 ^ (f.tbits + 1) - 1)))
  if tooBig then (f.overflow neg rm sat, flOVF ||| flINX)
  else
    let bits := if 2 ^ f.tbits ≤ d' then biased.toNat * 2 ^ f.tbits + (d' - 2 ^ f.tbits) else d'
    let tiny := decide (ulead < f.emin)
    (f.signBit neg + bits, (if inx then flINX else 0) ||| (if tiny && inx then flUNF else 0))

/-- The value in the format: rounding, overflow, infinities by R179. -/
def FpFmt.encode (f : FpFmt) (v : FVal) (rm : Nat) (sat : Bool) : Nat × Flags :=
  match v with
  | .nan => (f.nanBits, 0)
  | .inf neg =>
    if sat then (f.signBit neg + f.maxBits, 0)
    else if f.noInf then (f.nanBits, flINV)
    else (f.signBit neg + f.infBits, 0)
  | .fin neg m e => if m = 0 then (f.signBit neg, 0) else f.round neg m e rm sat

/-! ### Exact arithmetic (R172, R173, R183, R211): a value, and whether the operation is invalid -/

def FVal.neg : FVal → FVal
  | .fin s m e => .fin (!s) m e
  | .inf s => .inf (!s)
  | .nan => .nan

def signedMant (s : Bool) (m : Nat) : Int := if s then -(m : Int) else m

/-- Exact sum; a zero sum takes its sign by R172. -/
def fadd (rm : Nat) (a b : FVal) : FVal × Bool :=
  match a, b with
  | .nan, _ => (.nan, false)
  | _, .nan => (.nan, false)
  | .inf s, .inf t => if s = t then (.inf s, false) else (.nan, true)
  | .inf s, _ => (.inf s, false)
  | _, .inf t => (.inf t, false)
  | .fin s m e, .fin t n g =>
    let q := min e g
    let x := signedMant s (m * 2 ^ (e - q).toNat) + signedMant t (n * 2 ^ (g - q).toNat)
    if x = 0 then (.fin (decide (rm = 2) || (s && t && decide (m = 0) && decide (n = 0))) 0 0, false)
    else (.fin (decide (x < 0)) x.natAbs q, false)

/-- Exact product. -/
def fmul (a b : FVal) : FVal × Bool :=
  match a, b with
  | .nan, _ => (.nan, false)
  | _, .nan => (.nan, false)
  | .inf s, .inf t => (.inf (s != t), false)
  | .inf s, .fin t n _ => if n = 0 then (.nan, true) else (.inf (s != t), false)
  | .fin s m _, .inf t => if m = 0 then (.nan, true) else (.inf (s != t), false)
  | .fin s m e, .fin t n g => (.fin (s != t) (m * n) (e + g), false)

/-- Exact product plus addend; ∞ × 0 is invalid even beside a NaN (R211). -/
def ffma (rm : Nat) (a b c : FVal) : FVal × Bool :=
  let p := fmul a b
  let r := fadd rm p.1 c
  (r.1, p.2 || r.2)

/-- A result with INV where the operation was invalid. -/
def FpFmt.finish (f : FpFmt) (r : FVal × Bool) (rm : Nat) (sat : Bool) : Nat × Flags :=
  let (b, fl) := f.encode r.1 rm sat
  (b, fl ||| (if r.2 then flINV else 0))

/-- An exact zero that is neither a sum nor a product: +0, or −0 rounding down (R172 by its letter; DEDUCED, log entry 57). -/
def exactZero (rm : Nat) : FVal := .fin (decide (rm = 2)) 0 0

/-- Quotient rounded once (R210, R211): enough quotient bits and a sticky bit. -/
def FpFmt.divide (f : FpFmt) (a b : FVal) (rm : Nat) (sat : Bool) : Nat × Flags :=
  match a, b with
  | .nan, _ => (f.nanBits, 0)
  | _, .nan => (f.nanBits, 0)
  | .inf _, .inf _ => (f.nanBits, flINV)
  | .inf s, .fin t _ _ => f.encode (.inf (s != t)) rm sat
  | .fin _ _ _, .inf _ => f.encode (exactZero rm) rm sat
  | .fin s m e, .fin t n g =>
    if n = 0 then
      if m = 0 then (f.nanBits, flINV)
      else
        let (b, fl) := f.encode (.inf (s != t)) rm sat
        (b, fl ||| flDZ)
    else if m = 0 then f.encode (exactZero rm) rm sat
    else
      let k := f.tbits + 4 + natLength n
      let q := m * 2 ^ k / n
      let r := m * 2 ^ k % n
      f.encode (.fin (s != t) (2 * q + (if r = 0 then 0 else 1)) (e - g - (k : Int) - 1)) rm sat

/-- Floor of the square root, by Newton's steps from above. -/
def isqrtFrom : Nat → Nat → Nat → Nat
  | 0, _, x => x
  | fuel + 1, n, x =>
    let y := (x + n / x) / 2
    if x ≤ y then x else isqrtFrom fuel n y

def isqrt (n : Nat) : Nat := if n = 0 then 0 else isqrtFrom (natLength n + 8) n (2 ^ ((natLength n + 1) / 2 + 1))

/-- 1 / √x rounded once (R210, R211). DESIGN CHOICE (log entry 70): of +∞ it is +0 in every rounding mode. -/
def FpFmt.rsqrt (f : FpFmt) (a : FVal) (rm : Nat) (sat : Bool) : Nat × Flags :=
  match a with
  | .nan => (f.nanBits, 0)
  | .inf s => if s then (f.nanBits, flINV) else f.encode (.fin false 0 0) rm sat
  | .fin s m e =>
    if m = 0 then
      let (b, fl) := f.encode (.inf s) rm sat
      (b, fl ||| flDZ)
    else if s then (f.nanBits, flINV)
    else
      let odd := decide (e % 2 = 1)
      let m' := if odd then 2 * m else m
      let e' := if odd then e - 1 else e
      let k := f.tbits + 8 + natLength m'
      let x := 2 ^ (2 * k) / m'
      let r := isqrt x
      let exact := decide (2 ^ (2 * k) % m' = 0) && decide (r * r = x)
      f.encode (.fin false (2 * r + (if exact then 0 else 1)) (-(k : Int) - e' / 2 - 1)) rm sat

/-- Fraction bits the powers of two are computed with (log entry 22). -/
def expBits : Nat := 256

/-- Product of the roots 2^(2^-j) whose bit of the fraction is set: `x` holds the fraction's bits below weight `j`. -/
def exp2Steps : Nat → Nat → Nat → Nat → Nat
  | 0, _, _, acc => acc
  | j + 1, x, root, acc =>
    let root' := isqrt (root * 2 ^ expBits)
    exp2Steps j (x % 2 ^ j) root' (if 2 ^ j ≤ x then acc * root' / 2 ^ expBits else acc)

/-- 2^(x / 2^k), 0 ≤ x < 2^k, in units of 2^-expBits, rounded down (log entry 22). -/
def exp2Frac (x k : Nat) : Nat := exp2Steps k x (2 ^ (expBits + 1)) (2 ^ expBits)

/-- 2^x rounded once (R210, R211). DESIGN CHOICE (log entry 70): of −∞ it is +0 in every rounding mode. -/
def FpFmt.exp2 (f : FpFmt) (a : FVal) (rm : Nat) (sat : Bool) : Nat × Flags :=
  match a with
  | .nan => (f.nanBits, 0)
  | .inf s => if s then f.encode (.fin false 0 0) rm sat else f.encode (.inf false) rm sat
  | .fin s m e =>
    if m = 0 then f.encode (.fin false 1 0) rm sat
    else if 12 < (natLength m : Int) + e then f.encode (.fin false 3 (if s then -5000 else 5000)) rm sat
    else
      let k := (-e).toNat
      let x := signedMant s m * 2 ^ e.toNat
      let n := x / 2 ^ k
      let frac := (x % 2 ^ k).toNat
      if frac = 0 then f.encode (.fin false 1 n) rm sat
      else f.encode (.fin false (2 * (exp2Frac frac k / 2 ^ (expBits - 60)) + 1) (n - 61)) rm sat

/-! ### Comparison -/

/-- Compares two values that are no NaN: the sign of a − b (−0 = +0). -/
def fcmp (a b : FVal) : Option Ordering :=
  match a, b with
  | .nan, _ => none
  | _, .nan => none
  | .inf s, .inf t => some (if s = t then .eq else if s then .lt else .gt)
  | .inf s, _ => some (if s then .lt else .gt)
  | _, .inf t => some (if t then .gt else .lt)
  | .fin s m e, .fin t n g =>
    let q := min e g
    some (compare (signedMant s (m * 2 ^ (e - q).toNat)) (signedMant t (n * 2 ^ (g - q).toNat)))

def FVal.isNan : FVal → Bool
  | .nan => true
  | _ => false

def FVal.isNegative : FVal → Bool
  | .fin s _ _ => s
  | .inf s => s
  | .nan => false

/-- a is below b with −0 below +0 (R211); neither is a NaN. -/
def flessOrdered (a b : FVal) : Bool :=
  match fcmp a b with
  | some .lt => true
  | some .eq => a.isNegative && !b.isNegative
  | _ => false

/-! ### Integers (R174) -/

/-- Signed type codes: int32, int16, int8. -/
def isSigned (ty : Nat) : Bool := decide (ty = 3 ∨ ty = 5 ∨ ty = 7)

/-- Value of a `w`-bit pattern. -/
def intOf (signed : Bool) (w x : Nat) : Int := if signed && decide (2 ^ (w - 1) ≤ x % 2 ^ w) then ((x % 2 ^ w : Nat) : Int) - 2 ^ w else (x % 2 ^ w : Nat)
/-- The `w` low bits of a number. -/
def wrapTo (w : Nat) (x : Int) : Nat := (x % 2 ^ w).toNat
def intMin (signed : Bool) (w : Nat) : Int := if signed then -(2 ^ (w - 1)) else 0
def intMax (signed : Bool) (w : Nat) : Int := if signed then 2 ^ (w - 1) - 1 else 2 ^ w - 1
/-- Clamped to the type's range, and whether it was. -/
def clampTo (signed : Bool) (w : Nat) (x : Int) : Int × Bool :=
  if x < intMin signed w then (intMin signed w, true)
  else if intMax signed w < x then (intMax signed w, true)
  else (x, false)

/-- An integer result: wrapped, or clamped with SATF (R210). -/
def intResult (signed : Bool) (w : Nat) (sat : Bool) (x : Int) : Nat × Flags :=
  if sat then
    let (y, c) := clampTo signed w x
    (wrapTo w y, if c then flSATF else 0)
  else (wrapTo w x, 0)

/-- An integer as an exact value. -/
def fvalOfInt (x : Int) : FVal := .fin (decide (x < 0)) x.natAbs 0

/-- A floating value to an integer type: rounded, clamped; a NaN gives 0 (R180). -/
def toIntType (v : FVal) (signed : Bool) (w rm : Nat) : Nat × Flags :=
  match v with
  | .nan => (0, flINV)
  | .inf s => (wrapTo w (if s then intMin signed w else intMax signed w), flINV)
  | .fin s m e =>
    let (d, inx) := roundAt m e 0 s rm
    let x := signedMant s d
    let (y, c) := clampTo signed w x
    (wrapTo w y, if c then flINV else if inx then flINX else 0)

/-! ### Conversions between vector types (R180) -/

/-- Bits of a lane of a vector type. -/
def laneBits (ty : Nat) : Nat := if ty = 0 ∨ ty = 3 ∨ ty = 4 then 32 else if ty = 7 ∨ ty = 8 ∨ ty = 9 ∨ ty = 10 then 8 else 16

def isFloat (ty : Nat) : Bool := decide (ty ≤ 2 ∨ ty = 9 ∨ ty = 10)

/-- The floating type `dst` holds every value of the floating type `src` (R180). -/
def holdsAll (src dst : Nat) : Bool :=
  decide (src = dst) || (decide (dst = 0) && isFloat src) || (decide (dst = 1 ∨ dst = 2) && decide (src = 9 ∨ src = 10))

/-- One element converted (R180). -/
def convert (src dst : Nat) (x rm : Nat) (sat : Bool) : Nat × Flags :=
  if isFloat src then
    let v := (fpOfType src).decode x
    if isFloat dst then (fpOfType dst).encode v rm (sat && !holdsAll src dst)
    else toIntType v (isSigned dst) (laneBits dst) rm
  else
    let n := intOf (isSigned src) (laneBits src) x
    if isFloat dst then (fpOfType dst).encode (if n = 0 then exactZero rm else fvalOfInt n) rm sat
    else intResult (isSigned dst) (laneBits dst) sat n

/-! ### Shared-exponent blocks (R175-R177) -/

/-- Magnitude bits m of a block format code 7, 8, 9. -/
def blockM (code : Nat) : Nat := if code = 7 then 7 else if code = 8 then 4 else 2

/-- The 16 elements of a block given as a number (R176). -/
def blockDecode (m bits : Nat) : List FVal :=
  let x := bits % 256
  (List.range 16).map (fun i =>
    let el := bits / 2 ^ (16 + i * (m + 1)) % 2 ^ (m + 1)
    let s := decide (el % 2 = 1)
    let mag := el / 2
    if x = 255 then
      if mag = 2 ^ m - 1 then .inf s
      else if mag = 0 && !s then .fin false 0 0
      else .nan
    else
      let sh := bits / 2 ^ (8 + 2 * (i / 4)) % 4
      .fin s mag ((x : Int) - 127 - sh - m + 1))

/-- floor(log2 |v|) of a non-zero finite value. -/
def FVal.log2 : FVal → Int
  | .fin _ m e => (natLength m : Int) - 1 + e
  | _ => 0

def FVal.nonzero : FVal → Bool
  | .fin _ m _ => decide (m ≠ 0)
  | _ => true

/-- The largest floor(log2) of the non-zero values. -/
def maxLog2 (vs : List FVal) : Option Int :=
  (vs.filter FVal.nonzero).foldl (fun acc v => match acc with
    | none => some v.log2
    | some a => some (max a v.log2)) none

def clampInt (x lo hi : Int) : Int := if x < lo then lo else if hi < x then hi else x

/-- Quantises 16 values into a block (R177): the block's bits and flags. -/
def blockEncode (m : Nat) (vs : List FVal) : Nat × Flags :=
  let special := vs.any (fun v => match v with | .fin _ _ _ => false | _ => true)
  let put (els : List (Nat × Nat)) : Nat :=
    (els.zip (List.range 16)).foldl (fun acc (e, i) => acc + (e.1 + 2 * e.2) * 2 ^ (16 + i * (m + 1))) 0
  if special then
    let els := vs.map (fun v => match v with
      | .nan => (1, 0)
      | .inf s => ((if s then 1 else 0), 2 ^ m - 1)
      | .fin _ _ _ => (0, 0))
    let qz := vs.any (fun v => match v with | .fin _ _ _ => true | _ => false)
    (255 + put els, if qz then flQZ else 0)
  else
    let x : Nat := match maxLog2 vs with
      | none => 0
      | some l => (clampInt (l + 127) 0 254).toNat
    let shift (g : Nat) : Nat := match maxLog2 ((vs.drop (4 * g)).take 4) with
      | none => 3
      | some l => (clampInt ((x : Int) - 127 - l) 0 3).toNat
    let quot := (vs.zip (List.range 16)).map (fun (v, i) => match v with
      | .fin s mm e =>
        let q := (roundAt mm e ((x : Int) - 127 - shift (i / 4) - m + 1) s 0).1
        (s, q)
      | _ => (false, 0))
    let els := quot.map (fun (s, q) =>
      let q' := min q (2 ^ m - 1)
      ((if q' ≠ 0 && s then 1 else 0), q'))
    let sat := quot.any (fun q => decide (2 ^ m - 1 < q.2))
    (x + (shift 0 + 4 * shift 1 + 16 * shift 2 + 64 * shift 3) * 256 + put els, if sat then flQSAT else 0)

end Sys2Proof.Machine
end

