-- ==== Sys2Proof/Machine/SMap.lean ====
section
/-! DEFINITION. Maps held as lists of pairs, and memory as a list of cells in canonical form. -/

namespace Sys2Proof.Machine

/-- The value of a key, if it is listed. -/
def SMap.find {α : Type} (m : SMap α) (k : Nat) : Option α :=
  match m with
  | [] => none
  | (j, a) :: rest => if j = k then some a else SMap.find rest k

/-- The value of a key, `d` where it is not listed. -/
def SMap.getD {α : Type} (m : SMap α) (k : Nat) (d : α) : α :=
  match SMap.find m k with
  | some a => a
  | none => d

/-- Sets a key, keeping keys in rising order. -/
def SMap.put {α : Type} (m : SMap α) (k : Nat) (a : α) : SMap α :=
  match m with
  | [] => [(k, a)]
  | (j, b) :: rest =>
    if k < j then (k, a) :: (j, b) :: rest
    else if k = j then (k, a) :: rest
    else (j, b) :: SMap.put rest k a

/-- Removes a key. -/
def SMap.drop {α : Type} (m : SMap α) (k : Nat) : SMap α :=
  m.filter (fun p => p.1 ≠ k)

namespace Memory

/-- The byte at an address; an unlisted address reads 0 (log entry 2). -/
def read (m : List Host.Cell) (a : Nat) : Byte :=
  match m with
  | [] => 0
  | (j, b) :: rest => if j = a then b else if a < j then 0 else read rest a

/-- Writes one byte and keeps the canonical form: addresses strictly rising, no entry 0. -/
def write (m : List Host.Cell) (a : Nat) (v : Byte) : List Host.Cell :=
  match m with
  | [] => if v = 0 then [] else [(a, v)]
  | (j, b) :: rest =>
    if a < j then (if v = 0 then (j, b) :: rest else (a, v) :: (j, b) :: rest)
    else if a = j then (if v = 0 then rest else (j, v) :: rest)
    else (j, b) :: write rest a v

/-- The canonical form from address `lo` on: addresses strictly rising from `lo`, no entry 0. -/
def wfFrom (lo : Nat) (m : List Host.Cell) : Bool :=
  match m with
  | [] => true
  | (j, b) :: rest => decide (lo ≤ j) && (b != 0) && wfFrom (j + 1) rest

/-- The canonical form of memory. -/
def wf (m : List Host.Cell) : Bool := wfFrom 0 m

/-- The bytes of `n` addresses from `a`. -/
def readBytes (m : List Host.Cell) (a : Nat) : Nat → List Byte
  | 0 => []
  | n + 1 => read m a :: readBytes m (a + 1) n

/-- Writes bytes from `a` on. -/
def writeBytes (m : List Host.Cell) (a : Nat) : List Byte → List Host.Cell
  | [] => m
  | b :: rest => writeBytes (write m a b) (a + 1) rest

end Memory

/-- The number a little-endian list of bytes holds (R2). -/
def leNat : List Byte → Nat
  | [] => 0
  | b :: rest => b.toNat + 256 * leNat rest

/-- The `n` little-endian bytes of a number (R2). -/
def leBytes : Nat → Nat → List Byte
  | 0, _ => []
  | n + 1, v => BitVec.ofNat 8 v :: leBytes n (v / 256)

end Sys2Proof.Machine
end

