-- ==== Sys2Proof/Machine/Ops.lean ====
section
/-! DEFINITION. The named operations over memory, registers and contexts that the meanings share: keys, lines, the
homes and their waiters, translation, the ordering machine, traps, reports. -/

namespace Sys2Proof.Machine

/-- A step's outcome. -/
abbrev Out := Host.Outcome State Fault Refusal

/-! ### Keys (spec/01 R7, R9) -/

def dieOfCore (core : Nat) : Nat := core / 64
/-- Cores of the Cobalt dies of 4,096 packages (R1). -/
def cobaltCores : Nat := 2 ^ 21
/-- The key, beyond those, of a core that belongs to a Serac die: number j of the one to which a Cobalt die attaches (R344, log entry 14). -/
def managementCore (die j : Nat) : Nat := cobaltCores + 64 * die + j
def pkgOfDie (die : Nat) : Nat := die / 8
/-- The Serac die a Cobalt die attaches to (R7). -/
def seracOfDie (die : Nat) : Nat := die / 8 * 2 + die % 8 / 4
def pkgOfSerac (serac : Nat) : Nat := serac / 2
/-- Domain number and die of a context global ID (R9): die key. -/
def dieOfCtx (ctx : Nat) : Nat := ctx / 1024
/-- Key of the firmware context of a core, and of a management core (log entry 14). -/
def firmwareKey (core : Nat) : Nat := 2 ^ 25 + core
def managementKey (serac j : Nat) : Nat := 2 ^ 25 + 2 ^ 21 + serac * 4 + j
def memKey (pkg pa : Nat) : Nat := pkg * 2 ^ 52 + pa
def lineKey (pkg line : Nat) : Nat := pkg * 2 ^ 46 + line

/-! ### Access to the parts of the state -/

def State.core (s : State) (k : Nat) : Core := SMap.getD s.cores k Core.reset
def State.setCore (s : State) (k : Nat) (c : Core) : State := { s with cores := SMap.put s.cores k c }
def State.updCore (s : State) (k : Nat) (f : Core → Core) : State := s.setCore k (f (s.core k))
def State.die (s : State) (k : Nat) : Die := SMap.getD s.dies k Die.reset
def State.setDie (s : State) (k : Nat) (d : Die) : State := { s with dies := SMap.put s.dies k d }
def State.updDie (s : State) (k : Nat) (f : Die → Die) : State := s.setDie k (f (s.die k))
def State.serac (s : State) (k : Nat) : Serac := SMap.getD s.seracs k Serac.reset
def State.setSerac (s : State) (k : Nat) (d : Serac) : State := { s with seracs := SMap.put s.seracs k d }
def State.updSerac (s : State) (k : Nat) (f : Serac → Serac) : State := s.setSerac k (f (s.serac k))
def State.ctx (s : State) (k : Nat) : Option Context := SMap.find s.contexts k
def State.setCtx (s : State) (k : Nat) (c : Context) : State := { s with contexts := SMap.put s.contexts k c }
/-- Changes a context that exists. -/
def State.updCtx (s : State) (k : Nat) (f : Context → Context) : State :=
  match s.ctx k with
  | some c => s.setCtx k (f c)
  | none => s

/-- Partition registers of a partition on a die. -/
def Die.part (d : Die) (p : Nat) : PartRegs := SMap.getD d.parts p PartRegs.reset

/-- The die whose registers govern a context: the die of its core; a management core's is die 0 or 4 of its
package. -/
def Context.die (c : Context) : Nat := dieOfCore (if c.management then c.coreKey - cobaltCores else c.coreKey)
def Context.pkg (c : Context) : Nat := pkgOfDie c.die

/-- A context as it is placed: state NEW, every part at its start (R10, R59, R101, R104, R271). -/
def Context.start (id : Ident) (pc : Word) (coreKey : Nat) : Context where
  status := .new
  firmware := false
  management := false
  coreKey := coreKey
  slot := none
  id := id
  thread := Thread.start pc
  wait := .none
  busyUntil := 0
  qstall := 0
  ckptseq := 0
  queue := []
  be := BackEnd.start
  fl :=
    { journal := [], pendingFmt := [], issued := [], issueIdx := 1, nextId := 0, landings := [], phaseNo := 0,
      copyOps := [], mtxOps := [], syncOps := [], syncHold := none, replay := none }
  beFrozen := false
  bundleTrap := false
  ctxcyc := 0
  hold := { bank := 0, bankDone := false, split := none, wait := none, twait := false }
  holdcnt := []
  ord := { pbuf := [], transit := [], snapshot := [], phases := [], asyncLog := [], syncAddrs := [] }
  chk := { latest := none, pendingMarker := none, logStopped := false, since := 0, intervalPlaced := none }
  land := { head := 0, tail := 0, replaying := false, refusedSince := false }
  sch :=
    { wantingSince := none, reslated := false, coldSince := 0, coldReported := false, spinCount := 0, genSpin := 0, spinning := false,
      spinWait := false, residentSince := 0, sliceStart := 0, sliceDue := false, wdCount := 0, wdFrozen := false, freeze := none,
      yielding := false, prio := id.basePrio, preempt := none, parkedAnswered := false, savedLines := [], refetch := [], toRefetch := [],
      pagedOut := false, pageReported := false }

/-! ### Lines and bytes -/

def lineByte (l : Line) (i : Nat) : Byte := l.extractLsb' (8 * i) 8
/-- A line from 64 bytes, byte 0 lowest (R2). -/
def lineOfBytes (b : List Byte) : Line := BitVec.ofNat 512 (leNat (b.take 64))
def bytesOfLine (l : Line) : List Byte := leBytes 64 l.toNat
/-- All bits of the bytes a byte mask chooses. -/
def expandMask (m : BitVec 64) : Line :=
  BitVec.ofNat 512 (leNat ((List.range 64).map (fun i => if m.getLsbD i then (255 : Byte) else 0)))
/-- `new` where the byte mask chooses, else `old`. -/
def mergeLine (old new : Line) (m : BitVec 64) : Line :=
  (old &&& ~~~(expandMask m)) ||| (new &&& expandMask m)
/-- Byte mask of `n` bytes from byte `i`. -/
def byteMask (i n : Nat) : BitVec 64 := BitVec.ofNat 64 ((2 ^ n - 1) * 2 ^ i)

/-! ### Homes (R32, R349, R354) -/

/-- The line at its home. -/
def State.homeLine (s : State) (pkg line : Nat) : Line :=
  lineOfBytes (Memory.readBytes s.mem (memKey pkg (line * 64)) 64)
def State.linePoisoned (s : State) (pkg line : Nat) : Bool := s.poison.contains (lineKey pkg line)
/-- Bytes read at the home. -/
def State.homeBytes (s : State) (pkg pa n : Nat) : List Byte := Memory.readBytes s.mem (memKey pkg pa) n
def State.home64 (s : State) (pkg pa : Nat) : Word := BitVec.ofNat 64 (leNat (s.homeBytes pkg pa 8))
def State.home32 (s : State) (pkg pa : Nat) : BitVec 32 := BitVec.ofNat 32 (leNat (s.homeBytes pkg pa 4))
/-- What a home answers a reader of a line: its value; of a line that another task has written through an OWN page, that or some
value since that task's graph began (R56; log entry 19). -/
def State.readHome (s : State) (me : Option Nat) (pkg line : Nat) : Line × Bool :=
  match s.ownPast.filter (fun p => decide (p.key = lineKey pkg line) && decide (some p.ctx ≠ me)) with
  | [] => (s.homeLine pkg line, s.linePoisoned pkg line)
  | past => match past[Config.freeNat s.freeCount (2 ^ 90 + lineKey pkg line) % (past.length + 1)]? with
    | some p => (p.data, p.poison)
    | none => (s.homeLine pkg line, s.linePoisoned pkg line)

/-- Lines that a range of bytes meets: address and length of each piece. -/
def linePieces (a n : Nat) : List (Nat × Nat) :=
  if n = 0 then []
  else (List.range ((a + n - 1) / 64 - a / 64 + 1)).map (fun i =>
    let lo := max a ((a / 64 + i) * 64)
    (lo, min (a + n) ((a / 64 + i + 1) * 64) - lo))

/-- Bytes that the home answers a reader, line by line, with poison. -/
def State.readHomeBytes (s : State) (me : Option Nat) (pkg pa n : Nat) : List (Byte × Bool) :=
  (linePieces pa n).flatMap fun p =>
    let x := s.readHome me pkg (p.1 / 64)
    (((bytesOfLine x.1).drop (p.1 % 64)).take p.2).map (fun b => (b, x.2))

/-- Some line of `n` bytes from `pa` is poisoned. -/
def State.rangePoisoned (s : State) (pkg pa n : Nat) : Bool :=
  (List.range ((pa + n - 1) / 64 - pa / 64 + 1)).any (fun i => s.linePoisoned pkg (pa / 64 + i))

/-- The waiter's condition holds (R248, R253). -/
def watchHolds (s : State) (pkg pa : Nat) : WatchKind → Bool
  | .barrier p => (s.home32 pkg (pa + 8) - p).getLsbD 31 == false
  | .signal v => decide (v.toNat ≤ (s.home64 pkg pa).toNat)

def watchBytes : WatchKind → Nat
  | .barrier _ => 32
  | .signal _ => 8

/-- Answers every waiter of a table whose watched location meets the line and whose condition now holds (R354). -/
def answerTable (s : State) (pkg line : Nat) (progress : Bool) (t : List WaitEntry) : List WaitEntry :=
  t.map (fun e =>
    if !e.answered && decide (e.pkg = pkg) && decide (e.pa / 64 ≤ line) &&
        decide (line ≤ (e.pa + watchBytes e.kind - 1) / 64) && watchHolds s pkg e.pa e.kind then
      { e with answered := true
               progress := progress || (match e.kind with | .barrier _ => true | .signal _ => false) }
    else e)

/-- Re-tests the waiters of a line at the dies of its package (R354). -/
def State.answerWaiters (s : State) (pkg line : Nat) (progress : Bool) : State :=
  { s with dies := s.dies.map (fun (k, d) =>
      if k / 8 = pkg then (k, { d with waiters := answerTable s pkg line progress d.waiters }) else (k, d)) }

/-- A key into its place in a rising list. -/
def insertKey (k : Nat) : List Nat → List Nat
  | [] => [k]
  | j :: rest => if k < j then k :: j :: rest else if k = j then j :: rest else j :: insertKey k rest

/-- Sets or clears a line's poison tag after one write step (R349). -/
def State.tagLine (s : State) (pkg line : Nat) (full poison : Bool) : State :=
  let k := lineKey pkg line
  if poison then (if s.poison.contains k then s else { s with poison := insertKey k s.poison })
  else if full then { s with poison := s.poison.filter (fun j => j ≠ k) }
  else s

/-- The bytes of a line under a mask, written from byte `i` on. -/
def writeMasked (m : List Host.Cell) (base : Nat) (mask : BitVec 64) (data : Line) : Nat → List Host.Cell
  | 0 => m
  | n + 1 =>
    let m' := writeMasked m base mask data n
    if mask.getLsbD n then Memory.write m' (base + n) (lineByte data n) else m'

/-- One write step at a home: the masked bytes of a line, its poison tag (R349), its waiters (R354). -/
def State.homeWriteLine (s : State) (pkg line : Nat) (mask : BitVec 64) (data : Line) (poison progress : Bool) : State :=
  if mask = 0 then s
  else
    let s1 := { s with mem := writeMasked s.mem (memKey pkg (line * 64)) mask data 64 }
    (s1.tagLine pkg line (mask == BitVec.allOnes 64) poison).answerWaiters pkg line progress

/-- The part of a byte range that lies in one line, as mask and data. -/
def rangeInLine (pa : Nat) (b : List Byte) (line : Nat) : BitVec 64 × Line :=
  let lo := line * 64
  let bytes := (List.range 64).map (fun i => if pa ≤ lo + i then b.getD (lo + i - pa) 0 else 0)
  let mask := (List.range 64).map (fun i => decide (pa ≤ lo + i ∧ lo + i < pa + b.length))
  (BitVec.ofNat 64 (mask.foldr (fun x n => (if x then 1 else 0) + 2 * n) 0), lineOfBytes bytes)

/-- Bytes written at their home, one write step per line (R349). -/
def State.homeWriteBytes (s : State) (pkg pa : Nat) (b : List Byte) (poison progress : Bool) : State :=
  if b.isEmpty then s
  else
    (List.range ((pa + b.length - 1) / 64 - pa / 64 + 1)).foldl
      (fun s i =>
        let line := pa / 64 + i
        let (m, d) := rangeInLine pa b line
        s.homeWriteLine pkg line m d poison progress) s

/-! ### Translation (R51-R54) -/

/-- Subcauses of R53. -/
def xBADVA : BitVec 8 := 1
def xNOTPRES : BitVec 8 := 2
def xBADPTE : BitVec 8 := 3
def xPERM : BitVec 8 := 4
def xDEVACC : BitVec 8 := 5
def stage2Bit : BitVec 8 := 0x80

/-- A level: lowest address bit it indexes, index bits, leaf allowed, leaf required, next table 4 KiB aligned
(table "Translation levels", R52). -/
structure Level where
  lo : Nat
  bits : Nat
  leaf : Bool
  must : Bool
  nextAligned : Bool

def levels : List Level :=
  [⟨48, 9, false, false, true⟩, ⟨39, 9, false, false, true⟩, ⟨30, 9, true, false, true⟩,
   ⟨21, 9, true, false, false⟩, ⟨16, 5, true, true, false⟩]

/-- What one table entry says at a level (R52, R53). -/
inductive Pte where
  | bad (sub : BitVec 8)
  | next (table : Nat)
  | leaf

/-- The checks both stages share; `rsv` are the leaf's reserved bits. -/
def readPte (l : Level) (e rsv : Word) : Pte :=
  if !e.getLsbD 0 then .bad xNOTPRES
  else if !e.getLsbD 1 then
    if l.must || (e &&& 0xFFF00000000000FC) != 0 || (l.nextAligned && (e &&& 0xF00) != 0) then .bad xBADPTE
    else .next ((e.toNat / 256 % 2 ^ 44) * 256)
  else if !l.leaf || (e &&& rsv) != 0 || (e.toNat % 2 ^ 52 / 65536 * 65536) % 2 ^ l.lo ≠ 0 then .bad xBADPTE
  else .leaf

/-- The Cobalt die whose sync engine performs operations of a home: of HOME 8 die 0, of HOME 9 die 4 (R235). -/
def homeDie (pkg home : Nat) : Nat := pkg * 8 + (if home = 8 then 0 else if home = 9 then 4 else home % 8)
def Loc.engine (l : Loc) : Nat := homeDie l.pkg l.home

/-- The memory at a location of a Cobalt die lies on a retired HBM channel (R257, R348). -/
def State.homeRetired (s : State) (l : Loc) : Bool :=
  decide (l.home < 8) && (s.die l.engine).retiredChannels.any (fun n => Config.onChannel l.engine (l.pa / 65536) n)

/-- Output address of a leaf for an input address. -/
def leafAddr (l : Level) (e : Word) (a : Nat) : Nat :=
  e.toNat % 2 ^ 52 / 2 ^ l.lo * 2 ^ l.lo + a % 2 ^ l.lo

def tableIndex (l : Level) (a : Nat) : Nat := a / 2 ^ l.lo % 2 ^ l.bits

/-- Stage 2: intermediate address to location, RO and the leaf's size (R51); every subcause carries bit 7. DESIGN CHOICE (log
entry 58): a leaf with RMT = 0 and PKG not zero, which breaks "zero otherwise" of R52 and which R53 does not name, is BADPTE. Memory of
the package on a retired HBM channel is unmapped (R348; log entry 68). -/
def walk2 (s : State) (pkg : Nat) (ia : Nat) : List Level → Nat → Except (BitVec 8) (Loc × Bool × Nat)
  | [], _ => .error (xBADPTE ||| stage2Bit)
  | l :: ls, table =>
    let e := s.home64 pkg (table + 8 * tableIndex l ia)
    match readPte l e 0xFE00 with
    | .bad sub => .error (sub ||| stage2Bit)
    | .next t => walk2 s pkg ia ls t
    | .leaf =>
      let rmt := e.getLsbD 8
      let home := (e.extractLsb' 4 4).toNat
      if 10 ≤ home || (!rmt && e.extractLsb' 52 12 != 0) then .error (xBADPTE ||| stage2Bit)
      else
        let p := if rmt then (e.extractLsb' 52 12).toNat else pkg
        let loc : Loc := { pkg := p, pa := leafAddr l e ia, home := home, dev := e.getLsbD 3, own := false }
        if !rmt && s.homeRetired loc then .error (xNOTPRES ||| stage2Bit) else .ok (loc, e.getLsbD 2, l.lo)

/-- Stage 1: virtual address to intermediate address with RO, OWN, X and the leaf's size. The root is a physical address; every
table below it is read through stage 2 (R51). `where_` is the table's package and address. -/
def walk1 (s : State) (pkg s2root : Nat) (va : Nat) : List Level → Nat × Nat → Except (BitVec 8) (Nat × Bool × Bool × Bool × Nat)
  | [], _ => .error xBADPTE
  | l :: ls, where_ =>
    let e := s.home64 where_.1 (where_.2 + 8 * tableIndex l va)
    match readPte l e 0xFFF000000000FFE0 with
    | .bad sub => .error sub
    | .leaf => .ok (leafAddr l e va, e.getLsbD 2, e.getLsbD 3, e.getLsbD 4, l.lo)
    | .next t =>
      match walk2 s pkg t levels s2root with
      | .error sub => .error sub
      | .ok (loc, _) =>
        if loc.dev then .error (xBADPTE ||| stage2Bit) else walk1 s pkg s2root va ls (loc.pkg, loc.pa)

/-- What kind of access is translated (R53). -/
inductive Access where
  | genLoad | genStore | fetch | load | store
deriving DecidableEq, Repr

def Access.writes : Access → Bool
  | .genStore => true
  | .store => true
  | _ => false

def Access.generator : Access → Bool
  | .genLoad => true
  | .genStore => true
  | _ => false

/-- A complete translation of one address: its page is the smaller of the two leaves (R51). -/
def walkPage (s : State) (die part root va : Nat) : Except (BitVec 8) TEntry :=
  let pkg := pkgOfDie die
  let s2root := SMap.getD (s.die die).s2roots part 0
  match walk1 s pkg s2root va levels (pkg, root) with
  | .error sub => .error sub
  | .ok (ia, ro1, own, x, n1) =>
    match walk2 s pkg ia levels s2root with
    | .error sub => .error sub
    | .ok (loc, ro2, n2) =>
      let n := min n1 n2
      .ok { part := part, s1root := root, size := n, vpage := va / 2 ^ n, isize := n2, ipage := ia / 2 ^ n2
            loc := { loc with own := own, pa := loc.pa / 2 ^ n * 2 ^ n }, ro1 := ro1, ro2 := ro2, x := x }

/-- What an entry says of an address of its page: location, RO of stage 1, RO of stage 2, X. -/
def TEntry.at_ (e : TEntry) (va : Nat) : Loc × Bool × Bool × Bool :=
  ({ e.loc with pa := e.loc.pa + va % 2 ^ e.size }, e.ro1, e.ro2, e.x)

/-- A translation of one address by the tables, before the checks of the access kind. -/
def walkBoth (s : State) (die part root va : Nat) : Except (BitVec 8) (Loc × Bool × Bool × Bool) :=
  match walkPage s die part root va with
  | .error sub => .error sub
  | .ok e => .ok (e.at_ va)

/-- The checks of an access on a translation (R53). DESIGN CHOICE (log entry 58): where several conditions hold, stage 1's PERM
is reported before stage 2's, and PERM before DEVACC. -/
def accessCheck (acc : Access) (va : Word) (r : Loc × Bool × Bool × Bool) : Except XFault Loc :=
  let (loc, ro1, ro2, x) := r
  if acc.writes && ro1 then .error ⟨xPERM, va⟩
  else if acc.writes && ro2 then .error ⟨xPERM ||| stage2Bit, va⟩
  else if acc == .fetch && !x then .error ⟨xPERM, va⟩
  else if loc.dev && !acc.generator then .error ⟨xDEVACC ||| stage2Bit, va⟩
  else .ok loc

/-- A held translation of an address (R54). -/
def TEntry.covers (part root va : Nat) (e : TEntry) : Bool :=
  decide (e.part = part ∧ e.s1root = root ∧ e.vpage = va / 2 ^ e.size)

/-- A translation with the held entries in view: an entry that differs from the tables may be used until it is invalidated
(R54); which of them or the tables are used is a free choice (log entry 11). -/
def translateHeld (s : State) (held : List TEntry) (die part root : Nat) (va : Word) (acc : Access) : Except XFault Loc :=
  if va.extractLsb' 57 7 ≠ 0 then .error ⟨xBADVA, va⟩
  else
    let fresh := walkBoth s die part root va.toNat
    let use := match fresh with
      | .error sub => Except.error ⟨sub, va⟩
      | .ok r => accessCheck acc va r
    let differs (e : TEntry) : Bool := match fresh with
      | .error _ => true
      | .ok r => r != e.at_ va.toNat
    match held.filter (fun e => e.covers part root va.toNat && differs e) with
    | [] => use
    | olds => match olds[Config.freeNat s.freeCount (die * 2 ^ 64 + va.toNat) % (olds.length + 1)]? with
      | some e => accessCheck acc va (e.at_ va.toNat)
      | none => use

/-- A translation for an agent of a die: the die's translation cache. -/
def translateRoot (s : State) (die part root : Nat) (va : Word) (acc : Access) : Except XFault Loc :=
  translateHeld s (s.die die).tcache die part root va acc

/-- The TLB of a core (R51). -/
def State.tlb (s : State) (core : Nat) : List TEntry := SMap.getD (s.die (dieOfCore core)).tlbs (core % 64) []

/-- Translation of a context's address. Firmware and management threads without a root use physical addresses
(log entry 14). -/
def translate (s : State) (c : Context) (va : Word) (acc : Access) : Except XFault Loc :=
  match c.id.s1root with
  | some root => translateHeld s ((if c.management then [] else s.tlb c.coreKey) ++ (s.die c.die).tcache) c.die c.id.part root va acc
  | none =>
    let pa := va.toNat % 2 ^ 52
    let dev := (SMap.find s.devMap (c.pkg * 2 ^ 40 + pa / 4096)).isSome
    if va.extractLsb' 57 7 ≠ 0 then .error ⟨xBADVA, va⟩
    else if dev && !acc.generator then .error ⟨xDEVACC ||| stage2Bit, va⟩
    else .ok { pkg := c.pkg, pa := pa, home := c.die % 8, dev := dev, own := false }

/-- An entry into a store of `n` entries, the oldest going, unless one of its address is held. -/
def keepEntry (e : TEntry) (va n : Nat) (l : List TEntry) : List TEntry :=
  if l.any (TEntry.covers e.part e.s1root va) then l else e :: l.take (n - 1)

/-- Keeps the translation of an address in the core's TLB of 128 entries and the die's cache of 16,384 (R51). -/
def State.cacheTranslation (s : State) (c : Context) (va : Word) : State :=
  match c.id.s1root with
  | none => s
  | some root =>
    match walkPage s c.die c.id.part root va.toNat with
    | .error _ => s
    | .ok e => s.updDie c.die (fun d => { d with
        tcache := keepEntry e va.toNat 16384 d.tcache
        tlbs := SMap.put d.tlbs (c.coreKey % 64) (keepEntry e va.toNat 128 (SMap.getD d.tlbs (c.coreKey % 64) [])) })

/-! ### Ways between dies (R7, R319, R341, R348) -/

/-- Fardon links of a Serac die (R1, R7). -/
def linkCount : Nat := 24

/-- A Serac die from which a route into the fabric starts: it is not in recovery, and has a link in service (R341, R348). -/
def Serac.routed (d : Serac) : Bool := d.boot != .recovery && !(List.range linkCount).all d.retiredLinks.contains

/-- One Serac die does not reach another: the way is lost, one of them is in recovery and out of the fabric domain, or, on two packages,
has no link left (R319, R341, R348). -/
def State.seracLost (s : State) (from_ to_ : Nat) : Bool :=
  (s.serac from_).unreachable.contains to_ || (from_ != to_ && ((s.serac from_).boot == .recovery || (s.serac to_).boot == .recovery)) ||
  (pkgOfSerac from_ != pkgOfSerac to_ && !((s.serac from_).routed && (s.serac to_).routed))

/-- A context does not reach a Cobalt die of another package. -/
def State.apart (s : State) (c : Context) (die : Nat) : Bool :=
  pkgOfDie die != c.pkg && s.seracLost (seracOfDie c.die) (seracOfDie die)

/-! ### Scopes (R33) -/

/-- The home of a location lies inside a scope of an agent on a Cobalt die. -/
def inScope (scope : BitVec 2) (die : Nat) (pkg home : Nat) : Bool :=
  match scope.toNat with
  | 0 => false
  | 1 => decide (pkg = pkgOfDie die ∧ home = die % 8)
  | 2 => decide (pkg = pkgOfDie die)
  | _ => true

/-! ### The ordering machine of a context (R34-R38) -/

/-- A PHASE of the bundle stream; those go in its order. -/
def PhaseOwner.ofBundle : PhaseOwner → Bool
  | .mem _ => true
  | .sync _ => true
  | _ => false

/-- The entry of a line in a store list. -/
def findEntry (l : List PbEntry) (pkg line : Nat) : Option PbEntry :=
  l.find? (fun e => decide (e.loc.pkg = pkg ∧ e.loc.pa / 64 = line))

/-- The phase-buffer entry of a store: it merges into the line's entry, newer bytes winning (R37). -/
def pbInsert (l : List PbEntry) (st : LineStore) : List PbEntry :=
  match l with
  | [] => [{ va := st.va, loc := st.loc, mask := st.mask, data := st.data, poison := st.poison }]
  | e :: rest =>
    if e.loc.pkg = st.loc.pkg ∧ e.loc.pa / 64 = st.loc.pa / 64 then
      { e with mask := e.mask ||| st.mask, data := mergeLine e.data st.data st.mask, poison := e.poison || st.poison } :: rest
    else e :: pbInsert rest st

/-- Stores enter a phase buffer whole or not at all: none where they need more than the 512 entries (R37, R228). -/
def pbStore (l : List PbEntry) (sts : List LineStore) : Option (List PbEntry) :=
  let l' := sts.foldl pbInsert l
  if l'.length ≤ 512 ∨ l'.length ≤ l.length then some l' else none

/-- A PHASE of the bundle stream that is still to be sent. -/
def Phase.holdsBack (p : Phase) : Bool := p.owner.ofBundle && !p.sent

/-- The buffer that ordinary stores of the bundle stream enter: what fills behind its last PHASE still to be sent, else the phase
buffer (R39; log entry 59). -/
def OrdState.slotBuffer (o : OrdState) : List PbEntry :=
  match (o.phases.filter Phase.holdsBack).getLast? with
  | some p => p.after
  | none => o.pbuf

/-- Changes the buffer behind the last PHASE of a list that satisfies a condition; none where no PHASE does. -/
def putBehind (b : List PbEntry) (f : Phase → Bool) : List Phase → Option (List Phase)
  | [] => none
  | p :: rest => match putBehind b f rest with
    | some l => some (p :: l)
    | none => if f p then some ({ p with after := b } :: rest) else none

def OrdState.putSlotBuffer (o : OrdState) (b : List PbEntry) : OrdState :=
  match putBehind b Phase.holdsBack o.phases with
  | some l => { o with phases := l }
  | none => { o with pbuf := b }

/-- Stores of a bundle into their buffer (R37). -/
def OrdState.slotStore (o : OrdState) (sts : List LineStore) : Option OrdState := (pbStore o.slotBuffer sts).map o.putSlotBuffer

/-- A generator store merges into the newest buffer that holds its line, else it enters the phase buffer (R37, log entry 59). -/
def OrdState.genStore (o : OrdState) (st : LineStore) : Option OrdState :=
  let has (p : Phase) : Bool := (findEntry p.after st.loc.pkg (st.loc.pa / 64)).isSome
  match (o.phases.filter has).getLast? with
  | some p => (pbStore p.after [st]).map (fun b => match putBehind b has o.phases with
    | some l => { o with phases := l }
    | none => o)
  | none => (pbStore o.pbuf [st]).map (fun b => { o with pbuf := b })

/-- Entries in use, of which PBLEVEL reads the number (R37). -/
def OrdState.entries (o : OrdState) : List PbEntry := o.pbuf ++ o.phases.flatMap (·.after)

/-- How far a load's bytes of one line are answered: the line, the bytes still wanted, the poison met. -/
structure Answer where
  data : Line
  want : BitVec 64
  poison : Bool
deriving DecidableEq, Repr

/-- A source gives those wanted bytes that it holds; where it gives one, its poison counts. -/
def Answer.from_ (a : Answer) (mask : BitVec 64) (data : Line) (poison : Bool) : Answer :=
  if a.want &&& mask = 0 then a
  else { data := mergeLine a.data data (a.want &&& mask), want := a.want &&& ~~~mask, poison := a.poison || poison }

/-- Entries of a store list give their bytes of a line, the first of the list before the others. -/
def Answer.entries (pkg line : Nat) (a : Answer) : List PbEntry → Answer
  | [] => a
  | e :: rest =>
    (if e.loc.pkg = pkg ∧ e.loc.pa / 64 = line then a.from_ e.mask e.data e.poison else a).entries pkg line rest

/-- The phase buffer and what fills behind unsent PHASEs, newest first (R37, R39). -/
def OrdState.buffers (o : OrdState) : List (List PbEntry) := (o.phases.map (·.after)).reverse ++ [o.pbuf]

/-- What phase buffer and transit set, newest write first, answer of the wanted bytes of a line (R36). -/
def OrdState.answer (o : OrdState) (pkg line : Nat) (want : BitVec 64) : Answer :=
  (Answer.entries pkg line ⟨0, want, false⟩ o.buffers.flatten).entries pkg line o.transit.reverse

/-- The snapshot's pair of a line. -/
def OrdState.snapLine (o : OrdState) (pkg line : Nat) : Option (Line × Bool) :=
  (o.snapshot.find? (fun e => decide (e.1 = lineKey pkg line))).map (fun e => (e.2.1, e.2.2.1))

/-- The wanted bytes of a line as an ordinary load of a context is answered: each from the first of phase buffer, transit set,
snapshot and home that holds it (R36); with poison, and whether the home answered. -/
def answerLine (s : State) (me : Option Nat) (o : OrdState) (pkg line : Nat) (want : BitVec 64) : Line × Bool × Bool :=
  let a := o.answer pkg line want
  if a.want = 0 then (a.data, a.poison, false)
  else
    let (base, psn) := (o.snapLine pkg line).getD (s.readHome me pkg line)
    let b := a.from_ (BitVec.allOnes 64) base psn
    (b.data, b.poison, (o.snapLine pkg line).isNone)

/-- The home's line added to the snapshot, replacing any older pair (R36 step 4). -/
def addSnapshot (s : State) (me : Option Nat) (o : OrdState) (loc : Loc) : OrdState :=
  let line := loc.pa / 64
  let got := s.readHome me loc.pkg line
  { o with snapshot := (lineKey loc.pkg line, got.1, got.2, loc.pkg * 16 + loc.home) ::
      o.snapshot.filter (fun e => decide (e.1 ≠ lineKey loc.pkg line)) }

/-- An ordinary load of `n` bytes within one line: value, poison, and the ordering state after it (R36). -/
def ordLoad (s : State) (me : Option Nat) (o : OrdState) (loc : Loc) (n : Nat) : Nat × Bool × OrdState :=
  let (l, p, fresh) := answerLine s me o loc.pkg (loc.pa / 64) (byteMask (loc.pa % 64) n)
  let v := l.toNat / 2 ^ (8 * (loc.pa % 64)) % 2 ^ (8 * n)
  (v, p, if fresh then addSnapshot s me o loc else o)

/-- The value of `n` loaded bytes, sign- or zero-extended (R108). -/
def extendLoad (n : Nat) (signed : Bool) (v : Nat) : Word :=
  if signed then BitVec.ofInt 64 (intOf true (8 * n) v) else BitVec.ofNat 64 v

/-! ### Registers of a thread (R101, R102) -/

def Thread.reg (t : Thread) (x : BitVec 6) : Word := if x = 0 then 0 else SMap.getD t.regs x.toNat 0
def Thread.regPoison (t : Thread) (x : BitVec 6) : Bool := if x = 0 then false else t.rpoison.getLsbD x.toNat
def setBit64 (m : BitVec 64) (i : Nat) (b : Bool) : BitVec 64 :=
  if b then m ||| BitVec.ofNat 64 (2 ^ i) else m &&& ~~~(BitVec.ofNat 64 (2 ^ i))
/-- Writes a register and its poison tag; a write to s0 is discarded (R102). -/
def Thread.setReg (t : Thread) (x : BitVec 6) (v : Word) (p : Bool) : Thread :=
  if x = 0 then t
  else { t with regs := SMap.put t.regs x.toNat v, rpoison := setBit64 t.rpoison x.toNat p }

/-- The task that reads, if a task's context it is (R56). -/
def Context.reader (c : Context) : Option Nat := if c.firmware || c.management then none else some c.id.ctxid.toNat

/-- A generator load is performed: its register takes the value and its poison (R36, R102). -/
def Context.performLoad (s : State) (c : Context) (l : GenLoad) : Context :=
  let (v, p, o) := ordLoad s c.reader c.ord l.loc l.size
  { c with ord := o, thread := c.thread.setReg l.d (extendLoad l.size l.signed v) p }

/-- A waiting load is to be performed where those of `p` are: it is one of them, or one of an earlier phase than one of them (R36). -/
def Thread.loadDue (t : Thread) (p : GenLoad → Bool) (l : GenLoad) : Bool := p l || t.loads.any (fun x => p x && decide (x.age < l.age))

/-- The waiting loads of `p` are performed, after those of earlier phases. -/
def Context.performWhere (s : State) (c : Context) (p : GenLoad → Bool) : Context :=
  (c.thread.loads.filter (c.thread.loadDue p)).foldl (Context.performLoad s)
    { c with thread := { c.thread with loads := c.thread.loads.filter (fun l => !c.thread.loadDue p l) } }

/-- A generator load executed before the EMIT of bundle number `idx` waits: it precedes every operation of the bundle (R35). -/
def Context.loadsBefore (c : Context) (idx : Nat) : Bool :=
  c.thread.loads.any (fun l => match l.before with | some b => decide (b ≤ idx) | none => false)

/-- The loads that precede the operations of bundle number `idx` are performed. -/
def Context.performBefore (s : State) (c : Context) (idx : Nat) : Context :=
  c.performWhere s (fun l => match l.before with | some b => decide (b ≤ idx) | none => false)

/-- A bundle of number `idx`, pushed as entry number `seq`, issues: the loads executed before its push precede it. -/
def Thread.noteIssue (t : Thread) (idx : Nat) (seq : BitVec 32) : Thread :=
  { t with loads := t.loads.map (fun l =>
      if l.before = none ∧ (seq - l.emit).toNat < 2 ^ 31 then { l with before := some idx } else l) }

/-- Every waiting load is performed. -/
def Context.performLoads (s : State) (c : Context) : Context := c.performWhere s (fun _ => true)
def State.performLoads (s : State) (k : Nat) : State := s.updCtx k (Context.performLoads s)

/-- TSTATE fields (spec/05 table "TSTATE"). -/
def Thread.inTrap (t : Thread) : Bool := t.tstate.getLsbD 0
def Thread.inUli (t : Thread) : Bool := t.tstate.getLsbD 1
def Thread.tdep (t : Thread) : Nat := (t.tstate.extractLsb' 2 3).toNat
def Thread.udep (t : Thread) : Nat := (t.tstate.extractLsb' 5 3).toNat
def mkTstate (udep tdep : Nat) (u t : Bool) : Word :=
  BitVec.ofNat 64 (udep % 8 * 32 + tdep % 8 * 4 + (if u then 2 else 0) + (if t then 1 else 0))

def Thread.depth (t : Thread) : Nat := t.loops.length
/-- Floor of the end check (R113). -/
def Thread.floor (t : Thread) : Nat := if t.inTrap then t.tdep else if t.inUli then t.udep else 0

/-! ### End check (R113) -/

/-- The end check on Next: loop stack, Next, and whether it took an iteration boundary. -/
def endCheck (floor : Nat) (next : Word) : List LoopLevel → List LoopLevel × Word × Bool
  | [] => ([], next, false)
  | l :: rest =>
    if rest.length + 1 ≤ floor ∨ next ≠ l.stop then (l :: rest, next, false)
    else if l.index.toNat + 1 < l.count.toNat then ({ l with index := l.index + 1 } :: rest, l.start, true)
    else
      let (ls, n, _) := endCheck floor next rest
      (ls, n, true)

/-- The thread after an instruction whose Next is `next`: the end check applied, and whether the point is a
boundary (R113, R115). -/
def Thread.finish (t : Thread) (next : Word) : Thread :=
  let (ls, n, it) := endCheck t.floor next t.loops
  { t with loops := ls, pc := n, boundary := it || decide (ls.length ≤ t.floor) }

/-! ### Frost ring (R334) -/

def frostEntry (kind index : Nat) (cycle : Word) (payload : BitVec 96) : BitVec 128 :=
  BitVec.ofNat 4 kind ++ BitVec.ofNat 10 index ++ cycle.extractLsb' 0 18 ++ payload

/-- Place of an entry among those of its core cycle (R334): the generator's first, then MEM, then SYN; a copy begin on channel ch has
place 3 + ch. -/
def frostRank (kind : Nat) (payload : BitVec 96) : Nat := if kind = 3 then (payload.extractLsb' 85 3).toNat else 0

def FrostRing.at_ (r : FrostRing) (i : Nat) : BitVec 16 × BitVec 128 := (SMap.getD r.tenants (i % 512) 0, SMap.getD r.entries (i % 512) 0)

def FrostRing.set (r : FrostRing) (i : Nat) (x : BitVec 16 × BitVec 128) : FrostRing :=
  { r with entries := SMap.put r.entries (i % 512) x.2, tenants := SMap.put r.tenants (i % 512) x.1 }

/-- A new entry, before the entries of the same core cycle whose place is a later one (R334). -/
def FrostRing.push (r : FrostRing) (e : BitVec 128) (tenant : BitVec 16) (rank : Nat) : FrostRing :=
  let later := (r.now.takeWhile (fun x => decide (rank < x))).length
  let first := r.written.toNat + 512 - later
  let es := (tenant, e) :: (List.range later).map (fun i => r.at_ (first + i))
  { (es.zip (List.range es.length)).foldl (fun (r : FrostRing) x => r.set (first + x.2) x.1) r with
    written := r.written + 1
    full := r.full || decide (r.written.toNat = 511)
    now := r.now.take later ++ rank :: r.now.drop later }

/-- Records an entry of a tenant thread in a place; the firmware context and management cores record none (R334). -/
def State.frostIn (s : State) (k kind : Nat) (payload : BitVec 96) (rank : Nat) : State :=
  match s.ctx k with
  | none => s
  | some c =>
    if c.firmware || c.management then s
    else s.updCore c.coreKey (fun r => { r with frost := r.frost.push (frostEntry kind (k % 1024) r.cycle payload) c.id.tenant rank })

def State.frost (s : State) (k kind : Nat) (payload : BitVec 96) : State := s.frostIn k kind payload (frostRank kind payload)

/-- The ring's entries with their tenants, oldest first (R335). -/
def FrostRing.list (r : FrostRing) : List (BitVec 16 × BitVec 128) :=
  let n := if r.full then 512 else r.written.toNat
  (List.range n).map (fun i => r.at_ (r.written.toNat + 512 - n + i))

/-- The ring with its copy of this core cycle: the first freeze of the cycle makes it, the others take the same one (R335; log entry
65). -/
def FrostRing.copied (r : FrostRing) : FrostRing := { r with copy := some (r.copy.getD r.list) }

def frostBranch (from_ to_ : Word) : BitVec 96 := from_.extractLsb' 2 48 ++ to_.extractLsb' 2 48

/-- A global memory operation: opcode, scope, source, address. -/
def frostMem (opcode : BitVec 6) (scope : BitVec 2) (source : BitVec 3) (va : Word) : BitVec 96 :=
  opcode ++ scope ++ source ++ 0#28 ++ va.extractLsb' 0 57

def frostTrap (cause sub : BitVec 8) (cls : BitVec 2) (vectors : BitVec 16) (pc : Word) : BitVec 96 :=
  cause ++ sub ++ cls ++ vectors ++ 0#5 ++ pc.extractLsb' 0 57

/-! ### Events and page faults (R324-R327, R338) -/

def State.faultPage (s : State) : FaultPort → FaultPage
  | .cobalt d => (s.die d).fault
  | .serac k => (s.serac k).fault
def State.setFaultPage (s : State) (p : FaultPort) (f : FaultPage) : State :=
  match p with
  | .cobalt d => s.updDie d (fun x => { x with fault := f })
  | .serac k => s.updSerac k (fun x => { x with fault := f })
def State.updFaultPage (s : State) (p : FaultPort) (f : FaultPage → FaultPage) : State := s.setFaultPage p (f (s.faultPage p))
def portPkg : FaultPort → Nat
  | .cobalt d => pkgOfDie d
  | .serac k => pkgOfSerac k
/-- Die number 0-9 of an event record (R338). -/
def portNumber : FaultPort → Nat
  | .cobalt d => d % 8
  | .serac k => 8 + k % 2

/-- A queue base is configured: base not 0 and LOG2N 4 to 16 (R326). -/
def queueConfigured (base : Word) : Bool :=
  base.extractLsb' 12 40 != 0 && decide (4 ≤ base.toNat % 32 ∧ base.toNat % 32 ≤ 16)
def queueSize (base : Word) : Nat := 2 ^ (base.toNat % 32)
def queuePa (base : Word) : Nat := base.toNat % 2 ^ 52 / 4096 * 4096

def satInc32 (x : BitVec 32) : BitVec 32 := if x = BitVec.allOnes 32 then x else x + 1

/-- CYCLE of a die: a Cobalt die's die cycles; a Serac die's own, which have gone on by a free number (R338 offset 16; log entry 65). -/
def State.portCycle (s : State) : FaultPort → Word
  | .cobalt d => (s.die d).dieCycle
  | .serac k => (s.serac k).cycle + (Config.seracCycles s.freeCount).setWidth 64

/-- The cycles of a Serac die that reports have gone on. -/
def State.passCycles (s : State) : FaultPort → State
  | .cobalt _ => s
  | .serac k => s.updSerac k (fun d => { d with cycle := s.portCycle (.serac k) })

/-! FWMODE (R344, R345) -/

def fwPFAULT : Nat := 0
def fwCPAGE : Nat := 1
def fwDUMPTX : Nat := 2
def fwSELTAB : Nat := 3
def fwLANDSZ : Nat := 4
def fwRETIRE : Nat := 5

def portSerac : FaultPort → Nat
  | .cobalt d => seracOfDie d
  | .serac k => k

/-- A function is in host-assisted mode at a Serac die. -/
def State.hosted (s : State) (serac fn : Nat) : Bool := (s.serac serac).fwmode.getLsbD fn

/-- A message to Deresk at a Serac die, over the host port where the host performs its function (R345, R346). -/
def State.report (s : State) (serac fn : Nat) (b : List Byte) : State :=
  s.updSerac serac (fun d =>
    if d.fwmode.getLsbD fn then { d with hostInbox := d.hostInbox ++ [b] } else { d with mgmtInbox := d.mgmtInbox ++ [b] })

/-- The function an event belongs to; DEDUCED (log entry 66): FATAL, WATCHDOG and DUMPLOST are dump transport's, COPYSUSP page-fault
service's, COLDCAND context paging's, OVERCOMMIT and RETIRECAND retirement's; the rest have none. -/
def eventFunction : Nat → Option Nat
  | 1 | 2 | 11 => some fwDUMPTX
  | 3 => some fwPFAULT
  | 8 => some fwCPAGE
  | 9 | 10 => some fwRETIRE
  | _ => none

/-- An event record of a function in host-assisted mode is forwarded over the host port (R345). -/
def State.forward (s : State) (p : FaultPort) (event : Nat) (b : List Byte) : State :=
  match eventFunction event with
  | some fn => if s.hosted (portSerac p) fn then s.updSerac (portSerac p) (fun d => { d with hostInbox := d.hostInbox ++ [b] }) else s
  | none => s

/-- Posts an event record (R338, R326): code, who, first detail, second detail. -/
def State.post (s : State) (p : FaultPort) (event who : Nat) (d1 d2 : Word) : State :=
  let f := s.faultPage p
  if !queueConfigured f.eqbase then s.setFaultPage p { f with dropped := satInc32 f.dropped }
  else
    let full := decide ((f.eqTail - f.eqHead).toNat = queueSize f.eqbase)
    let code := event + (if full then 2 ^ 15 else 0)
    let f' (f : FaultPage) : FaultPage := { f with eqTail := f.eqTail + 1, eqHead := if full then f.eqHead + 1 else f.eqHead,
                                                   overwritten := if full then satInc32 f.overwritten else f.overwritten }
    let rec_ := leBytes 2 code ++ leBytes 2 (portNumber p) ++ leBytes 4 who ++ leBytes 8 d1.toNat ++
      leBytes 8 (s.portCycle p).toNat ++ leBytes 8 d2.toNat
    (((s.passCycles p).forward p event rec_).updFaultPage p f').homeWriteBytes (portPkg p) (queuePa f.eqbase + 32 * (f.eqTail.toNat % queueSize f.eqbase)) rec_ false false

/-- The 160 bytes of a fault queue entry (R324). -/
def FaultEntry.bytes (e : FaultEntry) : List Byte :=
  leBytes 4 (e.who % 2 ^ 28 + e.source % 16 * 2 ^ 28) ++ leBytes 4 e.seq.toNat ++ leBytes 8 e.va.toNat ++
  leBytes 8 e.pc.toNat ++ leBytes 4 e.emitseq.toNat ++ leBytes 1 e.sub.toNat ++ leBytes 1 (if e.source = 1 ∨ e.source = 2 then e.unit else 0) ++ leBytes 2 0 ++
  (if e.record.isEmpty then List.replicate 128 0 else (e.record ++ List.replicate 128 0).take 128)

/-- The fault queue has a free entry (R327). -/
def FaultPage.hasRoom (f : FaultPage) : Bool :=
  queueConfigured f.fqbase && decide ((f.fqTail - f.fqHead).toNat < queueSize f.fqbase)

/-- Writes an entry: it takes its sequence and becomes open; who then serves faults holds it (R324, R326, R345). -/
def State.writeFaultEntry (s : State) (p : FaultPort) (e : FaultEntry) : State :=
  let f := s.faultPage p
  let e' := { e with seq := f.fqTail, host := s.hosted (portSerac p) fwPFAULT }
  let s1 := if e'.host then s.report (portSerac p) fwPFAULT e'.bytes else s
  (s1.updFaultPage p (fun f => { f with fqTail := f.fqTail + 1, open_ := f.open_ ++ [e'] })).homeWriteBytes (portPkg p)
    (queuePa f.fqbase + 160 * (f.fqTail.toNat % queueSize f.fqbase)) e'.bytes false false

/-- A NOTPRES fault goes to the fault queue, or waits for a free entry (R324, R327). -/
def State.queueFault (s : State) (p : FaultPort) (e : FaultEntry) : State :=
  let f := s.faultPage p
  if f.hasRoom && f.waiting.isEmpty then s.writeFaultEntry p e
  else s.setFaultPage p { f with waiting := f.waiting ++ [e], waited := satInc32 f.waited }

/-- NOTPRES at either stage. -/
def isNotPres (sub : BitVec 8) : Bool := sub &&& 0x7F == xNOTPRES

/-! ### Freezing and trapping (R135, R328, R329) -/

/-- The event of a dump, or DUMPLOST in its place (R332, R338). -/
def State.dumpEvent (s : State) (k : Nat) (c : Context) (f : Freeze) (code : Nat) (seq : Option Word) : State :=
  let pc := if f.cause.cls = 1 then c.thread.bfpc else 0
  match seq with
  | some q => s.post (.cobalt c.die) code (k % 2 ^ 25) q pc
  | none => s.post (.cobalt c.die) 11 (k % 2 ^ 25) 0 pc

/-- A new freeze of a context, with the core's copy of its frost ring; a pre-emption under way is over. -/
def State.freezeAnew (s : State) (k : Nat) (c : Context) (cause : TrapCause) (fatal : Bool) : State :=
  let r := s.core c.coreKey
  let ring := r.frost.copied
  let f : Freeze := ⟨cause, fatal, false, none, s.moves, ring.copy.getD [], r.cycle⟩
  (s.setCtx k { c with sch := { c.sch with freeze := some f, preempt := none } }).setCore c.coreKey { r with frost := ring }

/-- Begins the freeze of a context: a fatal trap (R329) or the watchdog (R331). A fatal cause prevails over the watchdog's; where the
watchdog's dump is already written, its event follows and the fatal trap freezes anew. -/
def State.beginFreeze (s : State) (k : Nat) (cause : TrapCause) (fatal : Bool) : State :=
  match s.ctx k with
  | none => s
  | some c =>
    match c.sch.freeze with
    | some f =>
      if !fatal || f.fatal then s
      else match f.dumped with
        | none => s.setCtx k { c with sch := { c.sch with freeze := some { f with cause := cause, fatal := true } } }
        | some seq => (s.dumpEvent k c f 2 seq).freezeAnew k { c with sch := { c.sch with wdFrozen := true } } cause true
    | none => s.freezeAnew k c cause fatal

/-- The item is not a marker whose PHASEG has not completed. -/
def keepItem : QItem → Bool
  | .entry _ => true
  | .marker _ waits _ => !waits

/-- A stalled or waiting instruction is taken off: it will execute again from its start, so the PHASE it began and the
marker of its PHASEG go (R120, R135, R138). -/
def Context.unwait (c : Context) : Context :=
  { c with
    wait := .none
    queue := c.queue.filter keepItem
    ord := { c.ord with phases := c.ord.phases.filter (fun p =>
      match p.owner with | .phaseg => false | .halt => false | .cpost => false | _ => true) }
    chk := { c.chk with pendingMarker := match c.chk.pendingMarker with
      | some m => if m.waits then none else some m
      | none => none } }

/-- Class, code and subcause of a trap: a BUNDLE trap carries its bundle fault's (R332, R334). -/
def Thread.cause (t : Thread) (code sub : Nat) (tval : Word) : TrapCause :=
  if code = 11 then { cls := 1, code := t.bfcause.toNat % 256, sub := t.bfcause.toNat / 256 % 256, tval := tval }
  else { cls := 0, code := code, sub := sub, tval := tval }

/-- TAKING A TRAP (R135): fatal where a handler is absent or already running (R328), else TPC, TCAUSE, TVAL and TSTATE
are written and the thread goes to TVEC. `tpc` is the return address; the table "Generator fault causes" names it. -/
def State.takeTrap (s : State) (k : Nat) (code sub : Nat) (tpc tval : Word) (fetch : Bool) : State :=
  match s.ctx k with
  | none => s
  | some c =>
    let t := c.thread
    let x := t.cause code sub tval
    if t.inTrap || t.tvec == 0 then s.beginFreeze k x true
    else
      let t' := { t with
        tpc := tpc, tval := tval
        tcause := BitVec.ofNat 64 (code + sub * 256 + (if fetch then 65536 else 0))
        tstate := mkTstate t.udep t.depth t.inUli true
        pc := t.tvec, boundary := true }
      (s.setCtx k { c.unwait with thread := t' }).frost k 4
        (frostTrap (BitVec.ofNat 8 x.code) (BitVec.ofNat 8 x.sub) (BitVec.ofNat 2 x.cls) 0 tpc)

/-- A generator fault, precise at the thread's pc (R135). -/
def State.genFault (s : State) (k : Nat) (code sub : Nat) (tval : Word) : State :=
  match s.ctx k with
  | none => s
  | some c => s.takeTrap k code sub c.thread.pc tval false

/-- A translation fault of a generator instruction: NOTPRES is served first (R324), the rest trap at once. -/
def State.genXlateFault (s : State) (k : Nat) (x : XFault) (fetch : Bool) : State :=
  match s.ctx k with
  | none => s
  | some c =>
    if isNotPres x.sub then
      (s.setCtx k { c with wait := .page }).queueFault (.cobalt c.die)
        { seq := 0, source := 0, who := k, va := x.va, pc := c.thread.pc, emitseq := 0, sub := x.sub,
          unit := if fetch then 1 else 0, record := [] }
    else s.takeTrap k 3 x.sub.toNat c.thread.pc x.va fetch

/-- THE RETURN FROM A HANDLER (R131): trap handler first, then the interrupt handler; none outside both. The thread with
its new pc, before the end check, and whether the back end is released. -/
def Thread.xret (t : Thread) : Option (Thread × Word × Bool) :=
  if t.inTrap then
    some ({ t with tstate := mkTstate t.udep t.tdep t.inUli false }, t.tpc, decide (t.tcause.toNat % 256 = 11))
  else if t.inUli then some ({ t with tstate := mkTstate t.udep t.tdep false false }, t.ulipc, false)
  else none

/-- The firmware context, and the management cores' Deresk threads (R104, log entry 14). -/
def Context.isFirmware (c : Context) : Bool := c.firmware || c.management

/-- A progress event for the watchdog and the spinning rule (R269, R330). -/
def Context.progress (c : Context) : Context :=
  { c with sch.wdCount := 0, sch.spinCount := 0, sch.genSpin := 0, sch.spinning := false, sch.spinWait := false }

/-- Changes every record of the thread that a rollback could restore (R140). -/
def Context.updSnapshots (c : Context) (f : Thread → Thread) : Context :=
  let entry (e : QEntry) : QEntry := { e with after := f e.after }
  let marker (m : Marker) : Marker := { m with thread := f m.thread }
  { c with
    queue := c.queue.map (fun q => match q with
      | .entry e => .entry (entry e)
      | .marker t w b => .marker (f t) w b)
    chk := { c.chk with latest := c.chk.latest.map marker, pendingMarker := c.chk.pendingMarker.map marker }
    fl := { c.fl with
      issued := c.fl.issued.map (fun i => { i with entry := entry i.entry })
      replay := c.fl.replay.map (fun r => { r with entry := entry r.entry }) } }

/-- ULIPEND with a vector's bit set. -/
def Thread.pend (v : Nat) (t : Thread) : Thread := { t with ulipend := t.ulipend ||| BitVec.ofNat 64 (2 ^ (v % 16)) }

/-- Sets a vector of ULIPEND (R137); a rollback keeps it (R278). -/
def State.setUlipend (s : State) (k v : Nat) : State :=
  s.updCtx k (fun c => { c.updSnapshots (Thread.pend v) with thread := c.thread.pend v })

/-- A context a fragment or an interrupt may reach: allocated, of the tenant, not HALTED or DEAD, not being frozen by a
fatal trap (R158, R254); else the refusal condition 2, 3 or 4 of R338. -/
def State.reachable (s : State) (target : Nat) (tenant : BitVec 16) : Option Nat :=
  match s.ctx target with
  | none => some 2
  | some c =>
    if c.firmware || c.management then some 2
    else if c.id.tenant ≠ tenant then some 3
    else if c.status == .halted || c.status == .dead || (match c.sch.freeze with | some f => f.fatal | none => false) then some 4
    else none

end Sys2Proof.Machine
end

