-- ==== Sys2Proof/Machine/Traps.lean ====
section
/-! DEFINITION. What happens at a thread's boundaries: pending BUNDLE traps, user-level interrupts and interval
checkpoints (R115, R135-R138, R140). -/

namespace Sys2Proof.Machine

/-- The queue entries, without the markers between them. -/
def Context.entries (c : Context) : List QEntry :=
  c.queue.filterMap (fun q => match q with | .entry e => some e | .marker _ _ _ => none)

/-- QLEVEL: occupied queue entries. -/
def Context.qlevel (c : Context) : Nat := c.entries.length

/-- The context is frozen by a fatal trap, by the watchdog, or is not one that runs (R329, R331). -/
def Context.isFrozen (c : Context) : Bool := c.sch.freeze.isSome || c.sch.wdFrozen

/-- Its thread may execute as far as the context's state goes: RESIDENT; a firmware or management thread counts as
RESIDENT until it ends. -/
def Context.runs (c : Context) : Bool := !c.isFrozen && c.status == .resident

/-- It is RESIDENT on a core that is retired: frozen in its state (R282). -/
def State.onRetired (s : State) (c : Context) : Bool := !c.management && c.status == .resident && (s.core c.coreKey).retired

/-- A waiting or stalled instruction, which a BUNDLE trap takes off at once (R103, R135). -/
def GenWait.interruptible (w : GenWait) : Bool := w != .none

/-- A pending BUNDLE trap is taken now (R135, R136). -/
def Context.bundleTrapDue (c : Context) : Bool :=
  c.bundleTrap && c.runs && !c.thread.inTrap &&
    ((c.wait == .none && c.thread.boundary) || c.wait.interruptible)

/-- (ULIPEND AND ULIMASK), the vectors that ask for delivery. -/
def Thread.uliAsked (t : Thread) : BitVec 16 := t.ulipend.extractLsb' 0 16 &&& t.ulimask.extractLsb' 0 16

/-- A user-level interrupt is delivered now (R137): at a boundary, also where a stalled EMIT has not begun (R120). -/
def Context.uliDue (c : Context) : Bool :=
  c.runs && c.thread.uliAsked != 0 && c.thread.ulivec != 0 && !c.thread.inTrap && !c.thread.inUli &&
    !c.bundleTrap && c.thread.boundary && (c.wait == .none || c.wait == .queueFull)

/-- An interval checkpoint is due (R140, R275). -/
def Context.intervalElapsed (c : Context) : Bool :=
  !c.firmware && !c.management && c.chk.intervalPlaced.isNone &&
    c.thread.ckptint.extractLsb' 0 32 != 0 && decide ((c.thread.ckptint.extractLsb' 0 32).toNat ≤ c.chk.since)

def Context.intervalDue (c : Context) : Bool :=
  c.runs && c.intervalElapsed && (c.wait == .none || c.wait == .queueFull) && c.thread.boundary

/-- The lowest vector set. -/
def lowestVector (m : BitVec 16) : Nat :=
  ((List.range 16).find? (fun i => m.getLsbD i)).getD 0

/-- The entry that a posting has taken, given back where the CPOST is taken off (it will post again, R135). -/
def State.releasePost (s : State) (c : Context) : State :=
  match c.wait with
  | .cpostSent _ _ (some i) => s.updSerac (seracOfDie c.die) (fun d =>
      { d with entries := SMap.put d.entries i { Posted.free with generation := (SMap.getD d.entries i Posted.free).generation } })
  | _ => s

/-- Takes the pending BUNDLE trap: TPC is the boundary's Next (R135). -/
def State.bundleTrap (s : State) (k : Nat) : State :=
  match s.ctx k with
  | none => s
  | some c => ((s.releasePost c).setCtx k { c with bundleTrap := false }).takeTrap k 11 0 c.thread.pc 0 false

/-- Delivers the user-level interrupt (R137). -/
def State.deliverUli (s : State) (k : Nat) : State :=
  match s.ctx k with
  | none => s
  | some c =>
    let t := c.thread
    let v := t.uliAsked
    let t' := { t with ulipc := t.pc, tstate := mkTstate t.depth t.tdep true t.inTrap, pc := t.ulivec, boundary := true }
    (s.setCtx k { c.unwait with thread := t' }).frost k 4 (frostTrap 0 (BitVec.ofNat 8 (lowestVector v)) 0 v t.pc)

/-- Places the interval checkpoint's marker after the youngest bundle pushed (R140). -/
def Context.placeInterval (c : Context) : Context :=
  { c with queue := c.queue ++ [.marker c.thread false false], chk := { c.chk with intervalPlaced := some 0 } }

/-- What is to be done at the thread's point before its next instruction, in the order of R136; none if nothing. The marker of an
interval checkpoint comes first: it records the state right after the instruction before the boundary (R140). -/
def State.boundaryWork (s : State) (k : Nat) : Option State :=
  match s.ctx k with
  | none => none
  | some c =>
    if c.intervalDue then some (s.setCtx k c.placeInterval)
    else if c.bundleTrapDue then some (s.bundleTrap k)
    else if c.uliDue then some (s.deliverUli k)
    else none

/-- A point at which a thread may be stopped (R138). -/
def Context.stopPoint (c : Context) : Bool :=
  match c.wait with
  | .none => c.thread.boundary || c.sch.yielding
  | .phaseg => true
  | .spin _ => true
  | .drainq => true
  | .halt => true
  | .haltPhase => true
  | .queueFull => true
  | _ => false

/-- A SPIN that began at a cycle is over: 64 core cycles, or an enabled interrupt pending (R127); a management core's cycles are not
counted (log entry 14). -/
def Context.spinOver (c : Context) (now : Nat) : Bool :=
  match c.wait with
  | .spin since => c.management || decide (since + 64 ≤ now) || c.thread.uliAsked != 0
  | _ => false

/-- The thread is stopped for a pre-emption. -/
def Context.stopped (c : Context) : Bool := c.sch.preempt.isSome && c.stopPoint

end Sys2Proof.Machine
end

