-- ==== Sys2Proof/Machine/Gen.lean ====
section
/-! DEFINITION. What every generator instruction shares: its thread, its poison rule, its result, its faults
(R101-R103, R113, R135). -/

namespace Sys2Proof.Machine

/-- The context that executes, and what the instruction makes of the state. -/
def withThread (s : State) (f : Context → State) : Out :=
  match s.ctx s.cur with
  | none => .fault .noThread
  | some c => .next (f c)

/-- The executing thread goes on at `next`, with the end check applied (R113). -/
def State.goOn (s : State) (c : Context) (t : Thread) (next : Word) : State :=
  s.setCtx s.cur { c with thread := t.finish next, wait := .none }

/-- A result in d and on to the next instruction (R102, R103). -/
def genWrite (s : State) (d : BitVec 6) (f : Thread → Word × Bool) : Out :=
  withThread s fun c =>
    s.goOn c (c.thread.setReg d (f c.thread).1 (f c.thread).2) (c.thread.pc + 4)

/-- An operation of two registers: the result is poisoned where a source is (R102, R106). -/
def genAlu (s : State) (d a b : BitVec 6) (f : Word → Word → Word) : Out :=
  genWrite s d fun t => (f (t.reg a) (t.reg b), t.regPoison a || t.regPoison b)

/-- An operation of one register. -/
def genUnary (s : State) (d a : BitVec 6) (f : Word → Word) : Out :=
  genWrite s d fun t => (f (t.reg a), t.regPoison a)

/-- Sext of an immediate. -/
def sext13 (i : BitVec 13) : Word := i.signExtend 64
def sext19 (i : BitVec 19) : Word := i.signExtend 64

def boolWord (b : Bool) : Word := if b then 1 else 0

/-- Number of bits of a number. -/
def bitLength : Nat → Nat → Nat
  | 0, _ => 0
  | f + 1, n => if n = 0 then 0 else 1 + bitLength f (n / 2)

/-- Leading zeros of a 64-bit value. -/
def clz64 (x : Word) : Word := BitVec.ofNat 64 (64 - bitLength 64 x.toNat)
def popc64 (x : Word) : Word := BitVec.ofNat 64 ((List.range 64).filter (fun i => x.getLsbD i)).length

/-- The quotients and remainders of R106, with the divisor 0 and −2^63 / −1 as it gives them. -/
def divSigned (a b : Word) : Word := if b = 0 then BitVec.allOnes 64 else BitVec.ofInt 64 (a.toInt.tdiv b.toInt)
def divUnsigned (a b : Word) : Word := if b = 0 then BitVec.allOnes 64 else a / b
def remSigned (a b : Word) : Word := if b = 0 then a else BitVec.ofInt 64 (a.toInt.tmod b.toInt)
def remUnsigned (a b : Word) : Word := if b = 0 then a else a % b

/-- Further core cycles of a division: 2 plus half the dividend's significant bits, rounded up (R103). -/
def divCycles (magnitude : Nat) : Nat := 2 + (bitLength 64 magnitude + 1) / 2

/-- A division: the result, and the thread not ready for the further cycles (R103). -/
def genDiv (s : State) (d a b : BitVec 6) (f : Word → Word → Word) (magnitude : Word → Nat) : Out :=
  withThread s fun c =>
    let t := c.thread
    let c' := { c with busyUntil := (s.core c.coreKey).cycle.toNat + 1 + divCycles (magnitude (t.reg a)) }
    s.goOn c' (t.setReg d (f (t.reg a) (t.reg b)) (t.regPoison a || t.regPoison b)) (t.pc + 4)

/-- Codes of the table "Generator fault causes" (spec/05). -/
def gILLINS : Nat := 1
def gMISALIGN : Nat := 2
def gXLATE : Nat := 3
def gPOISON : Nat := 4
def gCSRPRIV : Nat := 5
def gBADHDR : Nat := 6
def gLOOPOVF : Nat := 7
def gPOSTFULL : Nat := 8
def gTRAPC : Nat := 9
def gPHASEFULL : Nat := 10

/-- ILLINS carries the instruction word (spec/05 table "Generator fault causes"). -/
def State.illins (s : State) (i : Instr) (sub : Nat) : State :=
  s.genFault s.cur gILLINS sub ((encodeGen i).getD 0 |>.setWidth 64)

/-- Use of a poisoned register (R102). -/
def State.poisonUse (s : State) : State := s.genFault s.cur gPOISON 0 0

/-- A branch (R110): poison of an operand is a use; a taken branch is recorded (R334). -/
def genBranch (s : State) (a b : BitVec 6) (i : BitVec 13) (cond : Word → Word → Bool) : Out :=
  withThread s fun c =>
    let t := c.thread
    if t.regPoison a || t.regPoison b then s.poisonUse
    else if cond (t.reg a) (t.reg b) then
      (s.goOn c t (t.pc + sext13 i * 4)).frost s.cur 1 (frostBranch t.pc (t.pc + sext13 i * 4))
    else s.goOn c t (t.pc + 4)

/-- A loop of L words pushed with its count, or its body skipped (R112). -/
def State.pushLoop (s : State) (c : Context) (n : Word) (l : Nat) : State :=
  let t := c.thread
  let past := t.pc + 4 + BitVec.ofNat 64 (4 * l)
  if n = 0 then s.goOn c t past
  else if t.loops.length = 6 then s.genFault s.cur gLOOPOVF 0 0
  else s.goOn c { t with loops := { index := 0, count := n, start := t.pc + 4, stop := past } :: t.loops } (t.pc + 4)

end Sys2Proof.Machine
end

