-- ==== Sys2Proof/Machine/Alu.lean ====
section
/-! DEFINITION. Generator ALU and immediate operations (R106, R107). -/

namespace Sys2Proof.Machine

/-- ADD (R106): wrapping sum. -/
def execAdd (b a d : BitVec 6) (s : State) : Out := genAlu s d a b (· + ·)
/-- SUB (R106): wrapping difference. -/
def execSub (b a d : BitVec 6) (s : State) : Out := genAlu s d a b (· - ·)
/-- MUL (R106): low 64 bits of the product. -/
def execMul (b a d : BitVec 6) (s : State) : Out := genAlu s d a b (· * ·)
/-- MULH (R106): high 64 bits of the signed 128-bit product. -/
def execMulh (b a d : BitVec 6) (s : State) : Out :=
  genAlu s d a b (fun x y => (BitVec.ofInt 128 (x.toInt * y.toInt)).extractLsb' 64 64)
/-- DIV (R106, R103). -/
def execDiv (b a d : BitVec 6) (s : State) : Out := genDiv s d a b divSigned (fun x => x.toInt.natAbs)
/-- DIVU (R106, R103). -/
def execDivu (b a d : BitVec 6) (s : State) : Out := genDiv s d a b divUnsigned (fun x => x.toNat)
/-- REM (R106, R103). -/
def execRem (b a d : BitVec 6) (s : State) : Out := genDiv s d a b remSigned (fun x => x.toInt.natAbs)
/-- REMU (R106, R103). -/
def execRemu (b a d : BitVec 6) (s : State) : Out := genDiv s d a b remUnsigned (fun x => x.toNat)
/-- AND (R106). -/
def execAnd (b a d : BitVec 6) (s : State) : Out := genAlu s d a b (· &&& ·)
/-- OR (R106). -/
def execOr (b a d : BitVec 6) (s : State) : Out := genAlu s d a b (· ||| ·)
/-- XOR (R106). -/
def execXor (b a d : BitVec 6) (s : State) : Out := genAlu s d a b (· ^^^ ·)
/-- SHL (R106): by the low six bits. -/
def execShl (b a d : BitVec 6) (s : State) : Out := genAlu s d a b (fun x y => x <<< (y.toNat % 64))
/-- SHR (R106): by the low six bits, logically. -/
def execShr (b a d : BitVec 6) (s : State) : Out := genAlu s d a b (fun x y => x >>> (y.toNat % 64))
/-- SRA (R106): by the low six bits, arithmetically. -/
def execSra (b a d : BitVec 6) (s : State) : Out := genAlu s d a b (fun x y => x.sshiftRight (y.toNat % 64))
/-- SLT (R106): signed. -/
def execSlt (b a d : BitVec 6) (s : State) : Out := genAlu s d a b (fun x y => boolWord (x.slt y))
/-- SLTU (R106): unsigned. -/
def execSltu (b a d : BitVec 6) (s : State) : Out := genAlu s d a b (fun x y => boolWord (x.ult y))
/-- MIN (R106): signed minimum. -/
def execMin (b a d : BitVec 6) (s : State) : Out := genAlu s d a b (fun x y => if y.slt x then y else x)
/-- MAX (R106): signed maximum. -/
def execMax (b a d : BitVec 6) (s : State) : Out := genAlu s d a b (fun x y => if x.slt y then y else x)
/-- MINU (R106): unsigned minimum. -/
def execMinu (b a d : BitVec 6) (s : State) : Out := genAlu s d a b (fun x y => if y.ult x then y else x)
/-- MAXU (R106): unsigned maximum. -/
def execMaxu (b a d : BitVec 6) (s : State) : Out := genAlu s d a b (fun x y => if x.ult y then y else x)
/-- CLZ (R106): 64 for zero. -/
def execClz (a d : BitVec 6) (s : State) : Out := genUnary s d a clz64
/-- POPC (R106). -/
def execPopc (a d : BitVec 6) (s : State) : Out := genUnary s d a popc64

/-- ADDI (R107). -/
def execAddi (i : BitVec 13) (a d : BitVec 6) (s : State) : Out := genUnary s d a (fun x => x + sext13 i)
/-- ANDI (R107). -/
def execAndi (i : BitVec 13) (a d : BitVec 6) (s : State) : Out := genUnary s d a (fun x => x &&& sext13 i)
/-- ORI (R107). -/
def execOri (i : BitVec 13) (a d : BitVec 6) (s : State) : Out := genUnary s d a (fun x => x ||| sext13 i)
/-- XORI (R107). -/
def execXori (i : BitVec 13) (a d : BitVec 6) (s : State) : Out := genUnary s d a (fun x => x ^^^ sext13 i)
/-- SHLI (R107). -/
def execShli (i a d : BitVec 6) (s : State) : Out := genUnary s d a (fun x => x <<< i.toNat)
/-- SHRI (R107). -/
def execShri (i a d : BitVec 6) (s : State) : Out := genUnary s d a (fun x => x >>> i.toNat)
/-- SRAI (R107). -/
def execSrai (i a d : BitVec 6) (s : State) : Out := genUnary s d a (fun x => x.sshiftRight i.toNat)
/-- SLTI (R107): signed. -/
def execSlti (i : BitVec 13) (a d : BitVec 6) (s : State) : Out := genUnary s d a (fun x => boolWord (x.slt (sext13 i)))
/-- SLTIU (R107): unsigned. -/
def execSltiu (i : BitVec 13) (a d : BitVec 6) (s : State) : Out := genUnary s d a (fun x => boolWord (x.ult (sext13 i)))
/-- LUI (R107): the immediate times 2^13, sign-extended. -/
def execLui (i : BitVec 19) (d : BitVec 6) (s : State) : Out := genWrite s d fun _ => (sext19 i <<< 13, false)
/-- PCADD (R107): the instruction's address plus the immediate times 2^13. -/
def execPcadd (i : BitVec 19) (d : BitVec 6) (s : State) : Out :=
  genWrite s d fun t => (t.pc + (sext19 i <<< 13), false)

end Sys2Proof.Machine
end

