-- ==== Sys2Proof/Machine/Branch.lean ====
section
/-! DEFINITION. Generator branches, jumps and loops (R110-R115). -/

namespace Sys2Proof.Machine

/-- BEQ (R110). -/
def execBeq (i : BitVec 13) (b a : BitVec 6) (s : State) : Out := genBranch s a b i (fun x y => x == y)
/-- BNE (R110). -/
def execBne (i : BitVec 13) (b a : BitVec 6) (s : State) : Out := genBranch s a b i (fun x y => x != y)
/-- BLT (R110): signed. -/
def execBlt (i : BitVec 13) (b a : BitVec 6) (s : State) : Out := genBranch s a b i (fun x y => x.slt y)
/-- BGE (R110): signed. -/
def execBge (i : BitVec 13) (b a : BitVec 6) (s : State) : Out := genBranch s a b i (fun x y => !x.slt y)
/-- BLTU (R110): unsigned. -/
def execBltu (i : BitVec 13) (b a : BitVec 6) (s : State) : Out := genBranch s a b i (fun x y => x.ult y)
/-- BGEU (R110): unsigned. -/
def execBgeu (i : BitVec 13) (b a : BitVec 6) (s : State) : Out := genBranch s a b i (fun x y => !x.ult y)

/-- JAL (R111): d takes p + 4, the thread goes to p + 4 × off19. -/
def execJal (i : BitVec 19) (d : BitVec 6) (s : State) : Out :=
  withThread s fun c =>
    let t := c.thread
    (s.goOn c (t.setReg d (t.pc + 4) false) (t.pc + sext19 i * 4)).frost s.cur 1 (frostBranch t.pc (t.pc + sext19 i * 4))

/-- JALR (R111): the target is a register plus an immediate; MISALIGN where it is no multiple of 4. -/
def execJalr (i : BitVec 13) (a d : BitVec 6) (s : State) : Out :=
  withThread s fun c =>
    let t := c.thread
    let target := t.reg a + sext13 i
    if t.regPoison a then s.poisonUse
    else if target.toNat % 4 ≠ 0 then s.genFault s.cur gMISALIGN 0 target
    else (s.goOn c (t.setReg d (t.pc + 4) false) target).frost s.cur 1 (frostBranch t.pc target)

/-- LOOP (R112): the count comes from a register. -/
def execLoop (l : BitVec 13) (cnt : BitVec 6) (s : State) : Out :=
  withThread s fun c =>
    if c.thread.regPoison cnt then s.poisonUse else s.pushLoop c (c.thread.reg cnt) l.toNat

/-- LOOPI (R112): immediate count, body of l + 1 words. -/
def execLoopi (n : BitVec 19) (l : BitVec 6) (s : State) : Out :=
  withThread s fun c => s.pushLoop c (n.setWidth 64) (l.toNat + 1)

/-- LBRK (R114): the innermost loop ends at its next end check. -/
def execLbrk (s : State) : Out :=
  withThread s fun c =>
    let t := c.thread
    match t.loops with
    | [] => s.illins .lbrk 2
    | l :: rest =>
      if t.depth ≤ t.floor then s.illins .lbrk 2
      else s.goOn c { t with loops := { l with count := l.index + 1 } :: rest } (t.pc + 4)

/-- LIDX (R115): the index of level K, 0 at and beyond Depth − Floor. -/
def execLidx (k : BitVec 3) (d : BitVec 6) (s : State) : Out :=
  genWrite s d fun t =>
    (if t.depth ≤ t.floor + k.toNat then 0 else match t.loops[k.toNat]? with
      | some l => l.index
      | none => 0, false)

end Sys2Proof.Machine
end

