-- ==== Sys2Proof/Machine/Flags.lean ====
section
/-! DEFINITION. The sticky flags VFLAGS, OORFLAG and OORADDR (spec/05, R181, R226). -/

namespace Sys2Proof.Machine

/-- All flags of a list of lane results. -/
def orFlags (l : List Flags) : Flags := l.foldl (· ||| ·) 0

/-- Flags ORed into VFLAGS (R181). -/
def BackEnd.orVflags (b : BackEnd) (f : Flags) : BackEnd := { b with vflags := b.vflags ||| f.setWidth 64 }

/-- An access outside the window: OORFLAG, and OORADDR for the first offence (R226). -/
def BackEnd.outOfRange (b : BackEnd) (buf tile row byte : Nat) : BackEnd :=
  if b.oorflag.getLsbD 0 then b
  else
    { b with oorflag := 1
             ooraddr := BitVec.ofNat 64 (buf % 4 + tile % 64 * 4 + row % 64 * 256 + byte % 256 * 2 ^ 14) }

/-! ### The undo log of a checkpoint (R276) -/

/-- Items a 16 MiB undo log holds (R276). -/
def logLimit : Nat := 16 * 2 ^ 20 / 80

/-- Entries of a marker's log. -/
def Marker.logged (m : Marker) : Nat := m.lines.length + m.own.length + m.items.length

/-- Changes the markers; a log that would pass its limit stops (R276). -/
def Context.updMarkers (c : Context) (f : Marker → Marker) : Context :=
  let latest := c.chk.latest.map f
  let pend := c.chk.pendingMarker.map f
  let full := match latest with | some m => decide (logLimit < m.logged) | none => false
  { c with chk := { c.chk with latest := latest, pendingMarker := pend, logStopped := c.chk.logStopped || full } }

/-- Keys at which two maps differ. -/
def differ {α : Type} [BEq α] (d : α) (a b : SMap α) : List Nat :=
  ((a ++ b).map (·.1)).eraseDups.filter (fun k => SMap.getD a k d != SMap.getD b k d)

/-- Bits in which two words differ. -/
def differBits {n : Nat} (a b : BitVec n) : List Nat :=
  if a = b then [] else (List.range n).filter (fun i => a.getLsbD i != b.getLsbD i)

/-- Items of the log that a change of the back end has changed. -/
def BackEnd.changed (a b : BackEnd) : List Nat :=
  differ 0 a.vec.regs b.vec.regs ++ differBits a.vec.poison b.vec.poison ++
  (differ (BitVec.allOnes 64) a.vec.preds b.vec.preds ++ differBits a.vec.qpoison b.vec.qpoison).map (1024 + ·) ++
  (differ 0 a.vec.latches b.vec.latches ++ differBits a.vec.lpoison b.vec.lpoison).map (1032 + ·) ++
  (if a.fmt = b.fmt then [] else [1036]) ++
  (if a.sticky = b.sticky ∧ a.count = b.count then [] else [1037]) ++
  (if a.steps = b.steps then [] else [1038]) ++
  (if a.slackMtx = b.slackMtx ∧ a.slackCpy = b.slackCpy ∧ a.slackSyn = b.slackSyn then [] else [1039]) ++
  (if a.tokens = b.tokens then [] else [1040]) ++
  (if a.sa = b.sa then [] else [1041]) ++ (if a.sb = b.sb then [] else [1042])

/-- Items an operation after the marker has changed are logged, each once. -/
def Marker.note (m : Marker) (l : List Nat) : Marker := { m with items := (m.items ++ l).eraseDups }

/-- The back end after an operation of issue number `idx`: every marker before that issue logs what has changed. -/
def Context.setBe (c : Context) (idx : Nat) (b : BackEnd) : Context :=
  { c.updMarkers (fun m => if m.idx ≤ idx then m.note (c.be.changed b) else m) with be := b }

/-- Applies a change of the back end that operations of issue number `idx` make: to the context, and to every checkpoint
whose marker follows that issue; the others log it (R276). -/
def Context.applyBe (c : Context) (idx : Nat) (f : BackEnd → BackEnd) : Context :=
  (c.updMarkers (fun m => if idx < m.idx then { m with shadow := f m.shadow } else m)).setBe idx (f c.be)

end Sys2Proof.Machine
end

