-- ==== Sys2Proof/Machine/Operands.lean ====
section
/-! DEFINITION. Operands of slot operations: vector registers, predicates and latches as a context cycle sees them, lanes
and masks (R170, R204-R208). -/

namespace Sys2Proof.Machine

/-! ### Vector state -/

def VState.reg (v : VState) (r : Nat) : Line × Bool := (SMap.getD v.regs r 0, v.poison.getLsbD r)
/-- q0 reads as all ones, never poisoned (R205). -/
def VState.pred (v : VState) (p : Nat) : Word × Bool :=
  if p = 0 then (BitVec.allOnes 64, false) else (SMap.getD v.preds p (BitVec.allOnes 64), v.qpoison.getLsbD p)
def VState.latch (v : VState) (i : Nat) : Line × Bool := (SMap.getD v.latches i 0, v.lpoison.getLsbD i)

def setBitAt {n : Nat} (m : BitVec n) (i : Nat) (b : Bool) : BitVec n :=
  if b then m ||| BitVec.ofNat n (2 ^ i) else m &&& ~~~(BitVec.ofNat n (2 ^ i))

/-- The vector state with one result written: bytes under the mask; the old poison tag stays where bytes were kept
(R206, R224). -/
def VState.write (v : VState) (t : WriteTarget) (poison : Bool) : VState :=
  match t with
  | .vreg r mask data =>
    let kept := mask != BitVec.allOnes 64 && v.poison.getLsbD r
    { v with regs := SMap.put v.regs r (mergeLine (SMap.getD v.regs r 0) data mask)
             poison := setBitAt v.poison r (poison || kept) }
  | .pred p mask data =>
    let kept := mask != BitVec.allOnes 64 && v.qpoison.getLsbD p
    { v with preds := SMap.put v.preds p ((SMap.getD v.preds p (BitVec.allOnes 64) &&& ~~~mask) ||| (data &&& mask))
             qpoison := setBitAt v.qpoison p (poison || kept) }
  | .clearV r => { v with poison := setBitAt v.poison r false }
  | .clearQ p => { v with qpoison := setBitAt v.qpoison p false }

/-- Results in the order they are applied: by due cycle, then issue order, then slot order (R207). -/
def RegWrite.before (a b : RegWrite) : Bool :=
  decide (a.due < b.due) || (decide (a.due = b.due) && (decide (a.idx < b.idx) || (decide (a.idx = b.idx) && decide (a.ord ≤ b.ord))))

def journalInsert (w : RegWrite) : List RegWrite → List RegWrite
  | [] => [w]
  | x :: rest => if x.before w then x :: journalInsert w rest else w :: x :: rest

/-- The vector state as the reads of context cycle `cc` see it: every write due at or before it (R206). -/
def Context.vview (c : Context) (cc : Nat) : VState :=
  (c.fl.journal.filter (fun w => decide (w.due ≤ cc))).foldl (fun v w => v.write w.target w.poison) c.be.vec

def Context.addWrite (c : Context) (w : RegWrite) : Context :=
  { c with fl := { c.fl with journal := journalInsert w c.fl.journal } }

/-- Slot order of results (R207). -/
def ordMem : Nat := 0
def ordV : Pipe → Nat
  | .x => 1
  | .y => 2
def ordSyn : Nat := 3

/-! ### Lanes -/

/-- Lane i of `w` bits. -/
def lane (l : Line) (w i : Nat) : Nat := l.toNat / 2 ^ (w * i) % 2 ^ w
def lanes (l : Line) (w : Nat) : List Nat := (List.range (512 / w)).map (lane l w)
/-- A register from its lanes of `w` bits. -/
def ofLanes (w : Nat) (l : List Nat) : Line := BitVec.ofNat 512 (l.foldr (fun x acc => x % 2 ^ w + 2 ^ w * acc) 0)

/-- Bit number i × bytes governs lane i (R205). -/
def laneTrue (p : Word) (bytes i : Nat) : Bool := p.getLsbD (i * bytes)

/-- Byte mask of the lanes a function chooses. -/
def maskOf (bytes : Nat) (f : Nat → Bool) : BitVec 64 :=
  BitVec.ofNat 64 ((List.range (64 / bytes)).foldr (fun i acc => (if f i then 2 ^ bytes - 1 else 0) * 2 ^ (bytes * i) + acc) 0)

/-! ### Operands of a vector operation -/

/-- What an operation reads: operands, predicate, poison, and the latches it loads (R206, R208). -/
structure VIn where
  a : Line
  b : Line
  c : Line
  p : Word
  psn : Bool
  be : BackEnd

def latchIndex : Pipe → Nat
  | .x => 0
  | .y => 2

/-- One operand through its latch: the value and tag, and the vector state with the latch loaded (R208). -/
def readLatched (view : VState) (v : VState) (used : Bool) (hold : BitVec 1) (i r : Nat) : (Line × Bool) × VState :=
  if !used then ((0, false), v)
  else if hold = 1 then (v.latch i, v)
  else
    let x := view.reg r
    (x, { v with latches := SMap.put v.latches i x.1, lpoison := setBitAt v.lpoison i x.2 })

/-- The operands of a vector word, taken at context cycle `cc` (R206). -/
def readVec (c : Context) (cc : Nat) (p : Pipe) (u : VUse) (w : VWord) : VIn :=
  let view := c.vview cc
  let (a, v1) := readLatched view c.be.vec u.va w.ha (latchIndex p) w.va.toNat
  let (b, v2) := readLatched view v1 u.vb w.hb (latchIndex p + 1) w.vb.toNat
  let cc' := if u.vc then view.reg w.vc.toNat else (0, false)
  let q := if u.q then view.pred w.q.toNat else (BitVec.allOnes 64, false)
  { a := a.1, b := b.1, c := cc'.1, p := q.1, psn := a.2 || b.2 || cc'.2 || q.2, be := { c.be with vec := v2 } }

/-! ### The bundle being issued -/

/-- A slot operation: the bundle that issues it and its context. -/
def withSlot (s : State) (f : SlotEnv → Context → State) : Out :=
  match s.slotEnv with
  | none => .fault .noBundle
  | some env =>
    match s.ctx env.ctx with
    | none => .fault .noBundle
    | some c => .next (f env c)

/-- Changes the record of the bundle being issued. -/
def State.updEnv (s : State) (f : SlotEnv → SlotEnv) : State := { s with slotEnv := s.slotEnv.map f }

/-- Adds to what the bundle does at its commit. -/
def State.addActs (s : State) (a : List CommitAct) : State := s.updEnv fun e => { e with acts := e.acts ++ a }

/-- Asserts a wait hold on the bundle (R20, R78). -/
def State.holdSlot (s : State) (cause : Nat) : State := s.updEnv fun e => { e with holds := cause :: e.holds }

/-- Codes of BFCAUSE (spec/05). -/
def bXLATE : Nat := 1
def bACCBUSY : Nat := 2
def bSCHEDV : Nat := 3
def bFMTPAIR : Nat := 4
def bFMTACC : Nat := 5
def bPHASEFULL : Nat := 6
def bILLSLOT : Nat := 7
def bNESTSZ : Nat := 8
def bNOENG : Nat := 9
def bVCHK : Nat := 10
def bSYNCF : Nat := 11

/-- A bundle fault at issue; the lowest slot's is kept, an illegal word before any other (R65). -/
def State.slotFault (s : State) (f : BFault) : State :=
  s.updEnv fun e => match e.now with
    | none => { e with now := some f }
    | some g => if f.cause = bILLSLOT ∧ g.cause ≠ bILLSLOT then { e with now := some f } else e

/-- A translation fault, taken at the bundle's commit point; the lowest slot's is kept (R230). -/
def State.slotXlate (s : State) (slot : Nat) (x : XFault) : State :=
  s.updEnv fun e => match e.fault with
    | none => { e with fault := some (slot, x) }
    | some _ => e

/-! ### Windows (spec/01, R226) -/

def winBase (w : Word) : Nat := w.toNat % 128
def winLimit (w : Word) : Nat := w.toNat / 256 % 128
/-- The window of a buffer: 0 F, 1 W, 2 C. -/
def Context.window (c : Context) (buf : Nat) : Word :=
  if buf = 0 then c.id.winF else if buf = 1 then c.id.winW else c.id.winC
/-- Key of a line of a core's buffers: physical tile and line 0-255. -/
def bufKey (buf tile line : Nat) : Nat := buf * 2 ^ 16 + tile * 256 + line
/-- Key of the status byte of a physical C tile. -/
def statusKey (tile : Nat) : Nat := bufKey 3 tile 0
def Core.line (r : Core) (k : Nat) : BufLine := SMap.getD r.lines k { data := 0, poison := false }
/-- The key of a window-relative line; none outside the window. -/
def Context.lineKey (c : Context) (buf tile line : Nat) : Option Nat :=
  if tile < winLimit (c.window buf) then some (bufKey buf (winBase (c.window buf) + tile) line) else none

end Sys2Proof.Machine
end

