-- ==== Sys2Proof/Machine/Engines.lean ====
section
/-! DEFINITION. What the slots and the asynchronous engines share: nest descriptors, write pointers, busy bits, tile
ownership and queue occupancy (R71, R144-R147, R189). -/

namespace Sys2Proof.Machine

/-! ### Nest descriptors (R144, R152) -/

def nestField (n : List Word) (f : Nat) : Word := n.getD f 0
/-- Descriptor k as the context holds it: 27 fields. -/
def BackEnd.nest (b : BackEnd) (k : Nat) : List Word := (List.range 27).map (fun f => SMap.getD b.nests (32 * k + f) 0)
/-- Bound of dimension d; 0 counts as 1. -/
def nestBound (n : List Word) (d : Nat) : Nat :=
  let b := (nestField n (3 + d)).toNat % 2 ^ 32
  if b = 0 then 1 else b
def nestElemSize (n : List Word) : Nat := 2 ^ ((nestField n 2).toNat % 4)
def nestElems (n : List Word) : Nat := (List.range 6).foldl (fun acc d => acc * nestBound n d) 1
def nestBytes (n : List Word) : Nat := nestElemSize n * nestElems n

/-- Bytes per beat of a format (R152). -/
def beatBytes (fmt : Nat) : Nat :=
  if fmt = 0 then 256 else if fmt ≤ 2 then 128 else if fmt ≤ 5 then 64 else if fmt = 7 then 72 else if fmt = 8 then 48 else 32

/-- Dense bytes a FILLS produces (R151). -/
def fillsDense (fmt : Nat) (n : List Word) : Nat :=
  nestBound n 1 * (if fmt = 0 then nestBound n 0 * nestElemSize n else nestBound n 0 * (beatBytes fmt / 4))

/-! ### Copy operations -/

/-- Bytes of the tile-side order of an operation (R146). -/
def CopyOp.total (o : CopyOp) : Nat :=
  if o.op = 3 ∨ o.op = 4 then nestBound o.nest 0 * beatBytes o.w.fmt.toNat
  else if o.op = 7 then nestBytes o.nest
  else 16384

/-- The write pointer: the bytes of the delivered prefix of chunks (R146). -/
def CopyOp.wp (o : CopyOp) : Nat :=
  if o.op = 3 ∨ o.op = 4 then
    (if nestBound o.nest 0 ≤ o.beats then o.total else o.beats * beatBytes o.w.fmt.toNat / 256 * 256)
  else min o.total (o.done * 256)

/-- Buffer an operation works on: 0 F, 1 W, 2 C (R149). -/
def CopyOp.buf (o : CopyOp) : Nat := if o.op = 6 then 2 else o.w.bf.toNat

def CopyOp.writesTile (o : CopyOp) : Bool := decide (o.op = 1 ∨ o.op = 2)
def CopyOp.readsTile (o : CopyOp) : Bool := decide (o.op = 3 ∨ o.op = 4 ∨ o.op = 5 ∨ o.op = 7)

/-- The first tile byte beyond the range an operation reads (R147, R152, R156). -/
def copyReadEnd (op : Nat) (w : CpyWord) (nest : List Word) : Nat :=
  let b0 := (nestField nest 0).toNat
  if op = 3 then (b0 + nestBound nest 0) * beatBytes w.fmt.toNat
  else if op = 4 then 63 * 256 + (b0 + nestBound nest 0) * (beatBytes w.fmt.toNat / 64)
  else if op = 7 then b0 + nestBytes nest
  else 16384

/-! ### Matrix operations -/

/-- Bytes of one element of MST's target (R196). -/
def mstBytes (ty : Nat) : Nat := laneBits ty / 8

/-- The write pointer of an MST or MSTQ (R198). -/
def MtxOp.wp (o : MtxOp) : Nat :=
  if o.rows = 0 then 0
  else if o.op = 5 then (64 * o.w.half.toNat + o.rows) * beatBytes o.w.typ.toNat
  else if mstBytes o.w.typ.toNat = 4 then 256 * o.rows
  else if mstBytes o.w.typ.toNat = 2 then 256 * (o.rows - 1) + 128 * o.w.half.toNat + 128
  else 64 * (64 * o.w.half.toNat + o.rows)

def MtxOp.writesF (o : MtxOp) : Bool := decide (o.op = 4 ∨ o.op = 5)
/-- C tiles an operation names (R189). -/
def MtxOp.tiles (o : MtxOp) : List Nat := if o.op = 7 then [o.w.c.toNat, o.w.cs.toNat] else [o.w.c.toNat]

/-- The oldest matrix operation issued before number `idx` that owns a C tile; none owns a tile beyond the window
(R189, R190). DESIGN CHOICE (log entry 67): each repetition of a repeated bundle counts as a bundle of its own. -/
def Context.tileOwner (c : Context) (idx tile : Nat) : Option MtxOp :=
  if winLimit c.id.winC ≤ tile then none
  else c.fl.mtxOps.find? (fun o => decide (o.idx < idx) && o.tiles.contains tile)

/-- An incomplete ADDW issued before number `idx` names the C tile (R154). -/
def Context.addwOn (c : Context) (idx tile : Nat) : Bool :=
  c.fl.copyOps.any (fun o => decide (o.op = 6 ∧ o.idx < idx ∧ o.w.tile.toNat = tile))

/-! ### Busy bits of F and W tiles (R147) -/

/-- Write pointers of the incomplete operations issued before `idx` that set the tile's writer bit. -/
def Context.tileWriters (c : Context) (idx buf tile : Nat) : List Nat :=
  (c.fl.copyOps.filter (fun o => o.writesTile && decide (o.idx < idx ∧ o.buf = buf ∧ o.w.tile.toNat = tile))).map CopyOp.wp ++
  (c.fl.mtxOps.filter (fun o => o.writesF && decide (o.idx < idx ∧ buf = 0 ∧ o.w.f.toNat = tile))).map MtxOp.wp

def Context.tileReaders (c : Context) (idx buf tile : Nat) : Bool :=
  c.fl.copyOps.any (fun o => o.readsTile && decide (o.idx < idx ∧ o.buf = buf ∧ o.w.tile.toNat = tile))

/-- A read of the tile's bytes below `hi` holds. DESIGN CHOICE (log entry 60): no tile at or beyond its window's LIMIT holds, F and W
tiles as well as C tiles (R147, R189). -/
def Context.readHeld (c : Context) (idx buf tile hi : Nat) : Bool :=
  decide (tile < winLimit (c.window buf)) && (c.tileWriters idx buf tile).any (fun wp => decide (wp < hi))

/-- A write of the tile holds. -/
def Context.writeHeld (c : Context) (idx buf tile : Nat) : Bool :=
  decide (tile < winLimit (c.window buf)) && (!(c.tileWriters idx buf tile).isEmpty || c.tileReaders idx buf tile)

/-! ### Engine queues (R71) -/

def CopyState.begun : CopyState → Bool
  | .queued => false
  | _ => true

/-- Issued and not begun. -/
def Context.copyOccupancy (c : Context) (idx : Nat) : Nat :=
  (c.fl.copyOps.filter (fun o => decide (o.idx < idx) && !o.state.begun)).length
def Context.mtxOccupancy (c : Context) (idx : Nat) : Nat :=
  (c.fl.mtxOps.filter (fun o => decide (o.idx < idx) && decide (o.state = .queued))).length
/-- A sync operation is begun once its home has it, or it is sent to another package (R45). -/
def SyncState.begun : SyncState → Bool
  | .issued => false
  | .committed => false
  | .ready => false
  | _ => true
/-- MEM PHASEs take places in the sync queue too (R34). DESIGN CHOICE (log entry 67): in the SYN queue's occupancy of R71 one counts from
its issue to its completion, also once it is sent. -/
def Context.memPhases (c : Context) (idx : Nat) : Nat :=
  (c.ord.phases.filter (fun p => match p.owner with | .mem i => decide (i < idx) | _ => false)).length +
  (c.fl.issued.filter (fun i => decide (i.idx < idx) && i.acts.any (fun a => match a with | .phase sc _ => sc != 0 | _ => false))).length
def Context.synOccupancy (c : Context) (idx : Nat) : Nat :=
  (c.fl.syncOps.filter (fun o => decide (o.idx < idx) && !o.state.begun)).length + c.memPhases idx

/-- The slack hold of a queue of a depth. -/
def slackHolds (occ slack depth : Nat) : Bool := decide (slack < occ) || decide (depth ≤ occ)

/-- A sync operation is performed: its answer is on its way, or it is gone (R35, R241). -/
def SyncOp.performed (o : SyncOp) : Bool :=
  match o.state with
  | .answered _ _ _ => true
  | .refused _ => true
  | _ => false

/-! ### Format register (R70) -/

/-- FMT as a bundle issued at context cycle `cc` sees it. -/
def Context.fmtAt (c : Context) (cc : Nat) : Fmt :=
  (c.fl.pendingFmt.filter (fun p => decide (p.due ≤ cc))).foldl (fun _ p => p.fmt) c.be.fmt

/-- The pending format as the image and dump show it: the latest FMTSET still in its shadow. -/
def Context.fmtPending (c : Context) : Option PendingFmt := (c.fl.pendingFmt.filter (fun p => decide (c.ctxcyc < p.due))).getLast?

/-! ### Causes of holds (R20) -/

def hBANK : Nat := 0
def hSPLIT : Nat := 1
def hLATE : Nat := 2
def hSLACK : Nat := 3
def hTOKCAP : Nat := 4
def hTILE : Nat := 5
def hTWAIT : Nat := 6
def hSTREAM : Nat := 7
def hSYNC : Nat := 8
def hLANDFULL : Nat := 9

/-- Asserts a hold where its condition is met. -/
def State.holdIf (s : State) (cond : Bool) (cause : Nat) : State := if cond then s.holdSlot cause else s

end Sys2Proof.Machine
end

