-- ==== Sys2Proof/Machine/Cancel.lean ====
section
/-! DEFINITION. Cancelling issued bundles, taking a bundle fault, releasing the back end (R24, R62, R135, R208). -/

namespace Sys2Proof.Machine

/-- The values that go back when the issue about to happen is cancelled (R24, R62). -/
def BackEnd.undo (b : BackEnd) : IssueUndo where
  sticky := b.sticky
  count := b.count
  steps := b.steps
  latches := b.vec.latches
  lpoison := b.vec.lpoison
  slackMtx := b.slackMtx
  slackCpy := b.slackCpy
  slackSyn := b.slackSyn
  ports := b.ports
  saConsumer := b.sa.consumer
  sbConsumer := b.sb.consumer
  nests := b.nests

def BackEnd.redo (b : BackEnd) (u : IssueUndo) : BackEnd :=
  { b with
    sticky := u.sticky, count := u.count, steps := u.steps
    vec := { b.vec with latches := u.latches, lpoison := u.lpoison }
    slackMtx := u.slackMtx, slackCpy := u.slackCpy, slackSyn := u.slackSyn, ports := u.ports
    sa := { b.sa with consumer := u.saConsumer }
    sb := { b.sb with consumer := u.sbConsumer }
    nests := u.nests }

/-- One outstanding operation fewer on a token (R143). -/
def BackEnd.freeToken (b : BackEnd) (k : Nat) : BackEnd := { b with tokens := SMap.put b.tokens k (SMap.getD b.tokens k 0 - 1) }

/-- Two queue entries are one bundle's. -/
def QEntry.same (a b : QEntry) : Bool := a.isDesc == b.isDesc && !a.isDesc && a.pc == b.pc && a.seq == b.seq

/-- Repetitions of one bundle merged into its oldest cancelled repetition. -/
def mergeReps : List Issued → List Issued
  | [] => []
  | i :: rest =>
    match mergeReps rest with
    | [] => [i]
    | j :: more => if i.entry.same j.entry then i :: more else i :: j :: more

/-- A marker that the bundle issued last gave rise to. -/
def QItem.ofBundle : QItem → Bool
  | .marker _ _ b => b
  | .entry _ => false

/-- The queue with cancelled bundles at its head, in their order; the rest of a partly issued bundle is one of them. The marker of the
youngest, which has not issued, goes with it. -/
def returnToQueue (xs : List Issued) (marker : Option Marker) (q0 : List QItem) : List QItem :=
  let ms := mergeReps xs
  let q := q0.dropWhile QItem.ofBundle
  let q' := match ms.getLast?, q with
    | some l, .entry e :: rest => if l.entry.same e && decide (0 < e.reps) then rest else q
    | _, _ => q
  let items (l : List Issued) : List QItem := l.map (fun i => .entry i.entry)
  match marker with
  | some m =>
    if m.bundle then items ms ++ q'
    else items (ms.filter (fun i => decide (i.idx < m.idx))) ++ [.marker m.thread m.waits false] ++
      items (ms.filter (fun i => decide (m.idx ≤ i.idx))) ++ q'
  | none => items ms ++ q'

/-- Cancels every issued bundle from number `i` on: their results go, their bundles return to the queue, every value goes
back to what it was before the oldest of them (R24, R62). -/
def Context.cancelFrom (c : Context) (i : Nat) : Context :=
  match c.fl.issued.filter (fun x => decide (i ≤ x.idx)) with
  | [] => c
  | x :: xs =>
    let gone := c.fl.copyOps.filter (fun o => decide (i ≤ o.idx))
    let be := gone.foldl (fun b o => b.freeToken o.w.tok.toNat) (c.be.redo x.undo)
    let pend := c.chk.pendingMarker
    let lost := match pend with
      | some m => if i < m.idx then some m else none
      | none => none
    let syncOps := c.fl.syncOps.filter (fun o => decide (o.idx < i))
    { c with
      be := be
      queue := returnToQueue (x :: xs) lost c.queue
      fl := { c.fl with
        journal := c.fl.journal.filter (fun w => decide (w.idx < i))
        pendingFmt := c.fl.pendingFmt.filter (fun w => decide (w.idx < i))
        issued := c.fl.issued.filter (fun w => decide (w.idx < i))
        landings := c.fl.landings.filter (fun w => decide (w.idx < i))
        copyOps := c.fl.copyOps.filter (fun o => decide (o.idx < i))
        mtxOps := c.fl.mtxOps.filter (fun o => decide (o.idx < i))
        syncOps := syncOps
        syncHold := c.fl.syncHold.bind (fun h => if syncOps.any (fun o => decide (o.id = h)) then some h else none) }
      hold := { bank := 0, bankDone := false, split := none, wait := none, twait := false }
      chk := { c.chk with
        pendingMarker := if lost.isSome then none else pend
        intervalPlaced := c.chk.intervalPlaced.bind (fun n => if i ≤ n then none else some n) } }

/-- The queue without its first entry; a marker before it stays. -/
def dropEntry : List QItem → List QItem
  | [] => []
  | .entry _ :: rest => rest
  | m :: rest => m :: dropEntry rest

/-- The BF* CSRs of a bundle fault (spec/05). -/
def Thread.setBf (t : Thread) (e : QEntry) (f : BFault) : Thread :=
  { t with
    bfpc := e.pc, bfseq := e.seq.setWidth 64, bfslot := BitVec.ofNat 64 f.slot
    bfcause := BitVec.ofNat 64 (f.cause + f.sub * 256 + e.reps % 256 * 65536), bfaddr := f.addr, bfperf := 0 }

/-- A bundle fault (R24): the faulting bundle, at the head of the queue, goes to the replay buffer, the back end freezes
and the BUNDLE trap becomes pending. -/
def Context.bundleFault (c : Context) (e : QEntry) (f : BFault) : Context :=
  { c with
    queue := dropEntry c.queue
    fl := { c.fl with replay := some { entry := e, paging := false } }
    hold := { bank := 0, bankDone := false, split := none, wait := none, twait := false }
    beFrozen := true, bundleTrap := true, thread := c.thread.setBf e f }

/-- A bundle waits in its replay buffer for its page (R324). -/
def Context.pageWait (c : Context) (e : QEntry) : Context :=
  { c with
    queue := dropEntry c.queue
    fl := { c.fl with replay := some { entry := e, paging := true } }
    beFrozen := true }

/-- The back end is released (R135): the replay-buffer bundle reissues the slots whose performed bits are clear, ahead of the
cancelled ones; an ADDW suspended with SCHEDV goes on (R155). -/
def Context.release (c : Context) : Context :=
  let q := match c.fl.replay with
    | some r => if r.entry.isDesc then c.queue else .entry { r.entry with skip := if r.paging then 0 else c.thread.bfperf } :: c.queue
    | none => c.queue
  let stat (ch : Nat) : CopyStat := SMap.getD c.be.cstat ch CopyStat.start
  let goesOn (o : CopyOp) : Bool := decide (o.op = 6 ∧ o.state = .suspended ∧ (stat o.w.ch.toNat).cause = 2)
  { c with
    beFrozen := false
    queue := q
    be := (c.fl.copyOps.filter goesOn).foldl (fun b o =>
      { b with cstat := SMap.put b.cstat o.w.ch.toNat { stat o.w.ch.toNat with state := 1 } }) c.be
    fl := { c.fl with
      replay := none
      copyOps := c.fl.copyOps.map (fun o => if goesOn o then { o with state := .running } else o) } }

/-- Numbers below this one have committed. -/
def Context.committedBelow (c : Context) : Nat :=
  match c.fl.issued with
  | i :: _ => i.idx
  | [] => c.fl.issueIdx

/-- Due and committed results become the register file (R23, R206). -/
def Context.settleRegs (c : Context) : Context :=
  let ws := c.fl.journal.takeWhile (fun w => decide (w.due < c.ctxcyc ∧ w.idx < c.committedBelow))
  let c1 := ws.foldl (fun c w => c.applyBe w.idx (fun b => { b with vec := b.vec.write w.target w.poison })) c
  { c1 with fl := { c1.fl with journal := c1.fl.journal.drop ws.length } }

/-- Due and committed formats become FMT (R23, R70). -/
def Context.settleFmt (c : Context) : Context :=
  let fs := c.fl.pendingFmt.takeWhile (fun p => decide (p.due ≤ c.ctxcyc ∧ p.idx < c.committedBelow))
  let c1 := fs.foldl (fun c p => c.applyBe p.idx (fun b => { b with fmt := p.fmt })) c
  { c1 with fl := { c1.fl with pendingFmt := c1.fl.pendingFmt.drop fs.length } }

def Context.settle (c : Context) : Context := c.settleRegs.settleFmt

end Sys2Proof.Machine
end

