-- ==== Sys2Proof/Machine/Lines.lean ====
section
/-! DEFINITION. Writes to buffer lines, C-tile status and OWN lines, with the undo logs of the checkpoints
(R150, R226, R276). -/

namespace Sys2Proof.Machine

/-- One change of a buffer line by an operation of number `idx`, as a marker records it: an operation after the marker logs
the old value once, one before it changes a logged value too. -/
def Marker.lineChange (m : Marker) (idx buf wl : Nat) (old : BufLine) (f : BufLine → BufLine) : Marker :=
  let known := m.lines.any (fun e => decide (e.1 = buf ∧ e.2.1 = wl))
  if m.idx ≤ idx then
    (if known then m else { m with lines := m.lines ++ [(buf, wl, old.data, old.poison)] })
  else
    { m with lines := m.lines.map (fun e =>
        if e.1 = buf ∧ e.2.1 = wl then
          let n := f { data := e.2.2.1, poison := e.2.2.2 }
          (buf, wl, n.data, n.poison)
        else e) }

/-- As above for a line of memory in an OWN page. -/
def Marker.ownChange (m : Marker) (idx key : Nat) (old : BufLine) (f : BufLine → BufLine) : Marker :=
  if m.idx ≤ idx then
    (if m.own.any (fun e => decide (e.1 = key)) then m else { m with own := m.own ++ [(key, old.data, old.poison)] })
  else
    { m with own := m.own.map (fun e =>
        if e.1 = key then
          let n := f { data := e.2.1, poison := e.2.2 }
          (key, n.data, n.poison)
        else e) }

/-- The poison tag of an item that is no line: of a vector register, a predicate, a latch. -/
def BackEnd.itemPoison (b : BackEnd) (i : Nat) : Bool :=
  if i < 1024 then b.vec.poison.getLsbD i
  else if i < 1032 then b.vec.qpoison.getLsbD (i - 1024)
  else if i < 1036 then b.vec.lpoison.getLsbD (i - 1032)
  else false

/-- The entries of a marker's log as they stand in HBM: the item's number, its old 64 bytes and its poison tag. -/
def Marker.entries (m : Marker) : List (Nat × Line × Bool) :=
  m.lines.map (fun e => ((e.1 + 1) * 2 ^ 20 + e.2.1, e.2.2)) ++ m.own.map (fun e => (2 ^ 30 + e.1, e.2)) ++
  m.items.map (fun i => (i, if i < 1024 then SMap.getD m.shadow.vec.regs i 0 else Config.undoItem i m.shadow, m.shadow.itemPoison i))

/-- The undo log of a context in the area Deresk assigned to its table entry, 80 bytes an entry (R276, log entry 63). -/
def State.writeLog (s : State) (k : Nat) (c : Context) : State :=
  let area := (SMap.getD (s.die (k / 1024)).undoAreas (k % 1024) 0).toNat
  if area = 0 then s
  else
    let l := (c.chk.latest.toList ++ c.chk.pendingMarker.toList).flatMap Marker.entries
    (((List.range logLimit).zip l).foldl (fun s x =>
      s.homeWriteBytes c.pkg (area + 80 * x.1) (leBytes 16 (Config.undoHeader x.2.1 x.2.2.2).toNat ++ bytesOfLine x.2.2.1) false false) s)

/-- An operation of R277 has issued after the markers of numbers up to `idx`. -/
def Context.spoil (c : Context) (idx : Nat) : Context :=
  c.updMarkers (fun m => if m.idx ≤ idx then { m with spoiled := true } else m)

/-- Bytes of a mask written into a buffer line; its tag is the write's where the whole line is written, else it only gains
poison (R349). -/
def BufLine.merge (old : BufLine) (mask : BitVec 64) (data : Line) (poison : Bool) : BufLine :=
  { data := mergeLine old.data data mask
    poison := if poison then true else if mask = BitVec.allOnes 64 then false else old.poison }

/-- A write of an operation of number `idx` to a line of an OWN page, as the markers record it. -/
def Context.ownLogged (c : Context) (s : State) (idx : Nat) (e : PbEntry) : Context :=
  let line := e.loc.pa / 64
  if e.loc.own then c.updMarkers (fun m =>
    m.ownChange idx (Sys2Proof.Machine.lineKey e.loc.pkg line) { data := s.homeLine e.loc.pkg line, poison := s.linePoisoned e.loc.pkg line }
      (fun old => old.merge e.mask e.data e.poison))
  else c

/-- A task is about to write a line of an OWN page: the old value is one that a reader may still get (R56). -/
def State.ownWritten (s : State) (c : Context) (l : Loc) : State :=
  if l.own then { s with ownPast := s.ownPast ++ [{ graph := c.id.graph, ctx := c.id.ctxid.toNat, key := lineKey l.pkg (l.pa / 64),
                                                    data := s.homeLine l.pkg (l.pa / 64), poison := s.linePoisoned l.pkg (l.pa / 64) }] }
  else s

/-- Writes a window-relative line of a buffer (0 F, 1 W, 2 C, 3 C-tile status) for an operation of number `idx`; nothing
outside the window. A write cancels the tile's refetch record (R150). -/
def State.writeLine (s : State) (k idx buf tile line : Nat) (f : BufLine → BufLine) : State :=
  match s.ctx k with
  | none => s
  | some c =>
    let win := if buf = 3 then 2 else buf
    if winLimit (c.window win) ≤ tile then s
    else
      let key := bufKey buf (winBase (c.window win) + tile) line
      let old := (s.core c.coreKey).line key
      let c1 := c.updMarkers (fun m => m.lineChange idx buf (tile * 256 + line) old f)
      let c2 := { c1 with sch := { c1.sch with refetch := c1.sch.refetch.filter (fun r => decide (¬ (r.buf = buf ∧ r.tile = tile))) } }
      (s.setCtx k c2).updCore c.coreKey (fun r => { r with lines := SMap.put r.lines key (f (r.line key)) })

/-- Reads a window-relative line; zeros, clean, outside the window (R148, R226). -/
def State.readLine (s : State) (c : Context) (buf tile line : Nat) : BufLine :=
  match c.lineKey buf tile line with
  | none => { data := 0, poison := false }
  | some k => (s.core c.coreKey).line k

/-- Writes bytes of a tile from byte `off` on, one write per line touched. -/
def State.writeTile (s : State) (k idx buf tile off : Nat) (b : List Byte) (poison : Nat → Bool) : State :=
  if b.isEmpty then s
  else
    (List.range ((off + b.length - 1) / 64 - off / 64 + 1)).foldl (fun s i =>
      let line := off / 64 + i
      let (m, d) := rangeInLine off b line
      s.writeLine k idx buf tile line (fun o => o.merge m d (poison line))) s

/-- Reads `n` bytes of a tile from byte `off` on. -/
def State.readTile (s : State) (c : Context) (buf tile off n : Nat) : List Byte :=
  (List.range ((off + n - 1) / 64 - off / 64 + 1)).flatMap (fun i =>
    let line := off / 64 + i
    let bytes := bytesOfLine (s.readLine c buf tile line).data
    let lo := if i = 0 then off % 64 else 0
    let hi := min 64 (off + n - line * 64)
    (bytes.take hi).drop lo)

/-- Some line of a byte range of a tile is poisoned. -/
def State.tilePoison (s : State) (c : Context) (buf tile off n : Nat) : Bool :=
  (List.range ((off + n - 1) / 64 - off / 64 + 1)).any (fun i => (s.readLine c buf tile (off / 64 + i)).poison)

/-- Sets OORFLAG and OORADDR for a tile outside its window (R148, R226). -/
def State.tileOor (s : State) (k idx buf tile row byte : Nat) : State :=
  s.updCtx k fun c =>
    if tile < winLimit (c.window buf) then c else c.applyBe idx (fun b => b.outOfRange buf tile row byte)

/-- Status byte of a C tile; 0 outside the window (R191, R225). -/
def State.status (s : State) (c : Context) (tile : Nat) : Nat :=
  if tile < winLimit c.id.winC then ((s.core c.coreKey).line (statusKey (winBase c.id.winC + tile))).data.toNat % 256 else 0

def State.setStatus (s : State) (k idx tile : Nat) (f : Nat → Nat) : State :=
  s.writeLine k idx 3 tile 0 (fun o => { data := BitVec.ofNat 512 (f (o.data.toNat % 256)), poison := o.poison })

end Sys2Proof.Machine
end

