-- ==== Sys2Proof/Machine/Mem.lean ====
section
/-! DEFINITION. The MEM slot at issue: buffer lines, global loads and stores, PHASE, PFTCH (R226-R232). -/

namespace Sys2Proof.Machine

/-! ### Buffer form (R226, R227) -/

def MemBuf.line (w : MemBuf) : Nat := 4 * w.row.toNat + w.part.toNat

/-- What a MEM access to a C tile meets: ACCBUSY for a tile an earlier bundle's matrix operation owns (R190), a hold while
an ADDW names it (R154). -/
def State.checkCTile (s : State) (env : SlotEnv) (c : Context) (tile : Nat) : State :=
  let s1 := s.holdIf (c.addwOn env.idx tile) hTILE
  match c.tileOwner env.idx tile with
  | some o => s1.slotFault { slot := 1, cause := bACCBUSY, sub := 0, addr := BitVec.ofNat 64 (tile * 2 ^ 32 + o.seq.toNat) }
  | none => s1

/-- The line a VLD reads at issue: the latest VST of an uncommitted bundle, else the buffer's line (R226). -/
def Context.pendingStore (c : Context) (buf tile line : Nat) : Option (Line × Bool) :=
  c.fl.issued.foldl (fun acc i => i.acts.foldl (fun acc a => match a with
    | .bufStore b t l d p => if b = buf ∧ t = tile ∧ l = line then some (d, p) else acc
    | _ => acc) acc) none

def loadBufLine (s : State) (c : Context) (buf tile line : Nat) : Line × Bool :=
  match c.lineKey buf tile line with
  | none => (0, false)
  | some k => match c.pendingStore buf tile line with
    | some x => x
    | none => let l := (s.core c.coreKey).line k; (l.data, l.poison)

/-- The flag of an access outside the window, at commit (R226). -/
def oorAct (c : Context) (buf tile row byte : Nat) : List CommitAct :=
  if tile < winLimit (c.window buf) then [] else [.outOfRange buf tile row byte]

/-- VLD (R226, R227). -/
def execVld (w : MemBuf) (s : State) : Out :=
  withSlot s fun env c =>
    let buf := w.buf.toNat
    let tile := w.tile.toNat
    let x := loadBufLine s c buf tile (MemBuf.line w)
    let s1 := s.setCtx env.ctx (c.addWrite
      { due := env.cc + 6, idx := env.idx, ord := ordMem, target := .vreg w.v.toNat (BitVec.allOnes 64) x.1, poison := x.2 })
    let s2 := s1.addActs (oorAct c buf tile w.row.toNat (64 * w.part.toNat))
    if buf = 2 then (s2.updEnv fun e => { e with cRead := some tile }).checkCTile env c tile
    else s2.holdIf (c.readHeld env.idx buf tile (256 * w.row.toNat + 64 * w.part.toNat + 64)) hTILE

/-- VST (R226, R227). -/
def execVst (w : MemBuf) (s : State) : Out :=
  withSlot s fun env c =>
    let buf := w.buf.toNat
    let tile := w.tile.toNat
    let x := (c.vview env.cc).reg w.v.toNat
    let s1 := s.addActs (.bufStore buf tile (MemBuf.line w) x.1 x.2 :: oorAct c buf tile w.row.toNat (64 * w.part.toNat))
    if buf = 2 then s1.checkCTile env c tile else s1.holdIf (c.writeHeld env.idx buf tile) hTILE

/-! ### Global and gather forms (R228-R231) -/

def Context.zrel (c : Context) (z : BitVec 4) : Word := SMap.getD c.id.zrel z.toNat 0

/-- The line of a global form; ZREL must be a multiple of 64 (R228). -/
def State.globLine (s : State) (c : Context) (w : MemGlob) : State × Word :=
  let z := c.zrel w.z
  (if z.toNat % 64 = 0 then s else s.slotFault { slot := 1, cause := bILLSLOT, sub := SlotErr.opnd.code, addr := 0 },
   z + w.off.setWidth 64)

/-- The parts of one element: one, or two where it crosses a line (R228); none of its parts has a location where the
translation of one faults. -/
structure Element where
  va : Word
  parts : List (Word × Nat × Option Loc)
  fault : Option XFault

def bytesInLine (va : Word) : Nat := 64 - va.toNat % 64

def translateElement (s : State) (c : Context) (va : Word) (n : Nat) (acc : Access) : Element :=
  let n1 := min n (bytesInLine va)
  let ps := if n1 = n then [(va, n)] else [(va, n1), (va + BitVec.ofNat 64 n1, n - n1)]
  let ts := ps.map (fun p => (p.1, p.2, translate s c p.1 acc))
  let fault := ts.findSome? (fun t => match t.2.2 with | .error x => some x | .ok _ => none)
  { va := va, fault := fault
    parts := ts.map (fun t => (t.1, t.2.1, match fault, t.2.2 with | none, .ok l => some l | _, _ => none)) }

/-- The fault with the lowest address (R230). -/
def lowestFault (l : List Element) : Option XFault :=
  l.foldl (fun acc e => match acc, e.fault with
    | none, f => f
    | some a, some b => if b.va.toNat < a.va.toNat then some b else some a
    | some a, none => some a) none

/-- Size in bytes and sign of a gather's element type (R228). -/
def gatherSize (ty : Nat) : Nat := laneBits ty / 8
def gatherSigned (ty : Nat) : Bool := decide (ty = 5 ∨ ty = 7)

/-- The address of lane i (R228). -/
def gatherVa (base : Word) (index : Line) (i : Nat) : Word := base + (index.extractLsb' (32 * i) 32).signExtend 64

/-- Takes a landing entry for loads issued now, holding where none is free (R229). -/
def State.takeLanding (s : State) (env : SlotEnv) (kind v arr : Nat) (mask : BitVec 64) (todo : List LoadPart)
    (phaseNo : Nat) : State :=
  match s.ctx env.ctx with
  | none => s
  | some c =>
    let l : Landing :=
      { idx := env.idx, due := env.cc + arr + 24, v := v, kind := kind, mask := mask, data := 0, poison := false,
        todo := todo, arrived := false, phaseNo := phaseNo }
    (s.setCtx env.ctx { c with fl := { c.fl with landings := c.fl.landings ++ [l] } }).holdIf
      (decide (32 ≤ c.fl.landings.length)) hLANDFULL

def loadPart (lane : Nat) (signed : Bool) (p : Word × Nat × Option Loc) : LoadPart :=
  { lane := lane, va := p.1, loc := p.2.2, size := p.2.1, signed := signed }

def State.cacheElements (s : State) (c : Context) (l : List Element) : State :=
  l.foldl (fun s e => e.parts.foldl (fun s p => s.cacheTranslation c p.1) s) s

def frostMemSlot (s : State) (env : SlotEnv) (op : BitVec 6) (va : Word) : State :=
  s.frost env.ctx 3 (frostMem op 0 1 va)

/-- VLDG and VLDGS (R228, R229, R231). -/
def globalLoad (s : State) (w : MemGlob) (spec : Bool) : Out :=
  withSlot s fun env c =>
    let (s1, va) := s.globLine c w
    let e := translateElement s c va 64 .load
    let s2 := ((s1.cacheElements c [e]).takeLanding env 0 w.v.toNat w.arr.toNat (BitVec.allOnes 64)
      (e.parts.map (loadPart 0 false)) c.fl.phaseNo)
    let s3 := frostMemSlot s2 env (if spec then 4 else 3) va
    match e.fault with
    | some x => if spec then s3 else s3.slotXlate 1 x
    | none => s3

/-- VGTH and VGTHS (R228, R229, R231). -/
def gather (s : State) (w : MemGath) (spec : Bool) : Out :=
  withSlot s fun env c =>
    let n := gatherSize w.ty.toNat
    let index := ((c.vview env.cc).reg w.vb.toNat).1
    let es := (List.range 16).map (fun i => translateElement s c (gatherVa (c.zrel w.z) index i) n .load)
    let todo := (es.zip (List.range 16)).flatMap (fun ei => ei.1.parts.map (loadPart ei.2 (gatherSigned w.ty.toNat)))
    let s2 := (s.cacheElements c es).takeLanding env 1 w.v.toNat w.arr.toNat (BitVec.allOnes 64) todo c.fl.phaseNo
    let s3 := (frostMemSlot s2 env (if spec then 7 else 6) (gatherVa (c.zrel w.z) index 0))
    match lowestFault es with
    | some x => if spec then s3 else s3.slotXlate 1 x
    | none => s3

/-- VLDG (R228). -/
def execVldg (w : MemGlob) (s : State) : Out := globalLoad s w false
/-- VLDGS (R231). -/
def execVldgs (w : MemGlob) (s : State) : Out := globalLoad s w true
/-- VGTH (R228). -/
def execVgth (w : MemGath) (s : State) : Out := gather s w false
/-- VGTHS (R231). -/
def execVgths (w : MemGath) (s : State) : Out := gather s w true

/-- The store of the low `n` bytes of a value at an address, one part per line. -/
def storeParts (e : Element) (v : Nat) (poison : Bool) : List LineStore :=
  (e.parts.foldl (fun (acc : List LineStore × Nat) p =>
    match p.2.2 with
    | none => (acc.1, acc.2 / 2 ^ (8 * p.2.1))
    | some loc =>
      let i := loc.pa % 64
      (acc.1 ++ [{ va := BitVec.ofNat 64 (p.1.toNat / 64 * 64), loc := { loc with pa := loc.pa / 64 * 64 },
                   mask := byteMask i p.2.1, data := BitVec.ofNat 512 (acc.2 % 2 ^ (8 * p.2.1) * 2 ^ (8 * i)), poison := poison }],
       acc.2 / 2 ^ (8 * p.2.1))) ([], v)).1

/-- VSTG (R228): the whole line, into the phase buffer at commit. -/
def execVstg (w : MemGlob) (s : State) : Out :=
  withSlot s fun env c =>
    let (s1, va) := s.globLine c w
    let e := translateElement s c va 64 .store
    let x := (c.vview env.cc).reg w.v.toNat
    let s2 := frostMemSlot ((s1.cacheElements c [e]).addActs [.memStore (storeParts e x.1.toNat x.2)]) env 5 va
    match e.fault with
    | some f => s2.slotXlate 1 f
    | none => s2

/-- VSCT (R228): 16 stores in lane order, whole or not at all. -/
def execVsct (w : MemGath) (s : State) : Out :=
  withSlot s fun env c =>
    let n := gatherSize w.ty.toNat
    let view := c.vview env.cc
    let index := (view.reg w.vb.toNat).1
    let x := view.reg w.v.toNat
    let es := (List.range 16).map (fun i => translateElement s c (gatherVa (c.zrel w.z) index i) n .store)
    let sts := (es.zip (List.range 16)).flatMap (fun ei => storeParts ei.1 (lane x.1 32 ei.2) x.2)
    let s2 := frostMemSlot ((s.cacheElements c es).addActs [.memStore sts]) env 8 (gatherVa (c.zrel w.z) index 0)
    match lowestFault es with
    | some f => s2.slotXlate 1 f
    | none => s2

/-- Takes the next place among the phase boundaries of the bundle stream (R36). -/
def Context.nextPhase (c : Context) : Context := { c with fl := { c.fl with phaseNo := c.fl.phaseNo + 1 } }

/-- PHASE (R232, R39, R64): its scope is the bundle's; at DIE scope or wider it gives rise to a marker, at CORE scope it
serves as an interval checkpoint that is due (R275). -/
def execPhase (s : State) : Out :=
  withSlot s fun env c =>
    let s1 := (s.setCtx env.ctx c.nextPhase).addActs [.phase env.scope c.fl.phaseNo]
    let marks := !c.isFirmware && (env.scope != 0 || c.intervalElapsed)
    let s2 := if marks then s1.updEnv fun e => { e with marks := true } else s1
    let s3 := if env.scope == 0 && marks then
        s2.updCtx env.ctx (fun c => { c with chk := { c.chk with intervalPlaced := some env.idx } })
      else s2
    s3.frost env.ctx 3 (frostMem 9 env.scope 1 0)

/-- PFTCH (R228): a hint that performs no step; only the frost ring records it (R334). -/
def execPftch (w : MemGlob) (s : State) : Out :=
  withSlot s fun env c => frostMemSlot s env 0x0A (c.zrel w.z + w.off.setWidth 64)

end Sys2Proof.Machine
end

