-- ==== Sys2Proof/Machine/Composer.lean ====
section
/-! DEFINITION. The composer, the pushes into the issue queue and NSET (R57, R58, R116-R123). -/

namespace Sys2Proof.Machine

/-- Composer slot registers, 0-6. -/
def Thread.comp (t : Thread) (slot : Nat) : Word := SMap.getD t.composer slot 0
def Thread.compPoison (t : Thread) (slot : Nat) : Bool := t.cpoison.getLsbD slot

def setBit8 (m : BitVec 8) (i : Nat) (b : Bool) : BitVec 8 :=
  if b then m ||| BitVec.ofNat 8 (2 ^ i) else m &&& ~~~(BitVec.ofNat 8 (2 ^ i))

def Thread.setComp (t : Thread) (slot : Nat) (v : Word) (p : Bool) : Thread :=
  { t with composer := SMap.put t.composer slot v, cpoison := setBit8 t.cpoison slot p }

/-- BSET (R116). -/
def execBset (a : BitVec 6) (slot : BitVec 3) (s : State) : Out :=
  withThread s fun c =>
    let t := c.thread
    s.goOn c (t.setComp slot.toNat (t.reg a) (t.regPoison a)) (t.pc + 4)

/-- A field of `n` bits from bit `p` replaced (R116 BFLD). -/
def insertField (old v : Word) (p n : Nat) : Word :=
  let m := BitVec.ofNat 64 ((2 ^ n - 1) * 2 ^ p)
  (old &&& ~~~m) ||| ((v <<< p) &&& m)

/-- BFLD (R116): WIDTH is n + 1 bits. -/
def execBfld (a n p : BitVec 6) (slot : BitVec 3) (s : State) : Out :=
  withThread s fun c =>
    let t := c.thread
    s.goOn c (t.setComp slot.toNat (insertField (t.comp slot.toNat) (t.reg a) p.toNat (n.toNat + 1))
      (t.compPoison slot.toNat || t.regPoison a)) (t.pc + 4)

/-- Outcome of a template read (R117). -/
inductive TemplateRead where
  | misaligned
  | beyond
  | ok (b : List Byte) (poison : Bool)

/-- Reads `n` bytes of template memory at an offset (R117). -/
def readTemplate (s : State) (c : Context) (off : Word) (n : Nat) : TemplateRead :=
  if off.toNat % 4 ≠ 0 then .misaligned
  else if c.id.templSize < off.toNat + n then .beyond
  else .ok (s.homeBytes c.pkg (c.id.templPa + off.toNat) n) (s.rangePoisoned c.pkg (c.id.templPa + off.toNat) n)

/-- The fault of a template read: an offset beyond the section is delivered at once, never queued (R117). -/
def State.templateFault (s : State) (misaligned : Bool) (off : Word) : State :=
  if misaligned then s.genFault s.cur gMISALIGN 0 off else s.genFault s.cur gXLATE xBADVA.toNat off

/-- BLDT (R116, R117): OFF is 4 × o. -/
def execBldt (o : BitVec 13) (a : BitVec 6) (slot : BitVec 3) (s : State) : Out :=
  withThread s fun c =>
    let t := c.thread
    let off := t.reg a + sext13 o * 4
    if t.regPoison a then s.poisonUse
    else match readTemplate s c off 8 with
      | .misaligned => s.templateFault true off
      | .beyond => s.templateFault false off
      | .ok b p => s.goOn c (t.setComp slot.toNat (BitVec.ofNat 64 (leNat b)) p) (t.pc + 4)

/-- BHDR (R116): H takes a wait mask of eight bits. -/
def execBhdr (a : BitVec 6) (s : State) : Out :=
  withThread s fun c =>
    let t := c.thread
    if t.regPoison a then s.poisonUse
    else if t.reg a >>> 8 ≠ 0 then s.illins (.bhdr a) 1
    else s.goOn c { t with hreg := (t.reg a).extractLsb' 0 8 } (t.pc + 4)

/-! ### Headers (R57, R58) -/

def hdrPresent (h : BitVec 32) : BitVec 7 := h.extractLsb' 0 7
def hdrScopePresent (h : BitVec 32) : Bool := h.getLsbD 7
def hdrScope (h : BitVec 32) : BitVec 2 := h.extractLsb' 8 2
/-- Repetitions of the bundle, 1 to 256. -/
def hdrRepeat (h : BitVec 32) : Nat := (h.extractLsb' 10 8).toNat + 1
def hdrWait (h : BitVec 32) : BitVec 8 := h.extractLsb' 18 8
def hdrClrstk (h : BitVec 32) : Bool := h.getLsbD 26

/-- The header breaks R58. -/
def badHeader (h : BitVec 32) : Bool :=
  h.extractLsb' 27 5 != 0 || (hdrPresent h == 0 && h.extractLsb' 10 8 == 0) ||
    (!hdrScopePresent h && hdrScope h != 0)

/-- Slots of a present mask, in increasing index. -/
def presentSlots (h : BitVec 32) : List Nat := (List.range 7).filter (fun i => h.getLsbD i)

/-- Stalls on a full queue: the instruction has not pushed and executes again (R17, R120). -/
def State.stallQueue (s : State) (c : Context) : State := s.setCtx s.cur { c with wait := .queueFull }

/-- A management core has no issue queue (R344). -/
def noQueue (s : State) (c : Context) (i : Instr) (k : State) : State :=
  if c.management then s.illins i 2 else k

/-- Pushes an entry with the pending descriptor list (R118, R121, R123), recorded in the frost ring (R120). -/
def State.push (s : State) (c : Context) (hdr : BitVec 32) (words : SMap Word) : State :=
  let t := c.thread
  let t' := { t with pending := [], emitSeq := t.emitSeq + 1 }.finish (t.pc + 4)
  let e : QEntry :=
    { isDesc := false, header := hdr, words := words, pc := t.pc, seq := t.emitSeq, nest := t.pending, reps := 0, after := t', marks := false, skip := 0,
      seen := none }
  (s.setCtx s.cur { c with queue := c.queue ++ [.entry e], thread := t', wait := .none }).frost s.cur 2
    (t.emitSeq ++ 0#1 ++ hdrPresent hdr ++ hdr.extractLsb' 10 8 ++ t.pc.extractLsb' 2 48)

/-- Pushes, or stalls while the queue has no free entry. -/
def State.pushOrStall (s : State) (c : Context) (hdr : BitVec 32) (words : SMap Word) : State :=
  if 64 ≤ c.qlevel then s.stallQueue c else s.push c hdr words

/-- The header an EMIT word composes (R118). -/
def emitHeader (cs hw : BitVec 1) (sc : BitVec 2) (sp : BitVec 1) (r : BitVec 8) (m : BitVec 7) (h : BitVec 8) : BitVec 32 :=
  0#5 ++ cs ++ (if hw = 1 then h else 0) ++ r ++ sc ++ sp ++ m

/-- EMIT (R118). -/
def execEmit (c : BitVec 1) (h : BitVec 1) (sc : BitVec 2) (p : BitVec 1) (r : BitVec 8) (m : BitVec 7) (s : State) : Out :=
  withThread s fun x =>
    let t := x.thread
    let hdr := emitHeader c h sc p r m t.hreg
    noQueue s x (.emit c h sc p r m) <|
      if badHeader hdr then s.genFault s.cur gBADHDR 0 (hdr.setWidth 64)
      else if (presentSlots hdr).any t.compPoison then s.poisonUse
      else s.pushOrStall x hdr ((presentSlots hdr).map (fun i => (i, t.comp i)))

/-- Words of an image in template memory, in increasing slot index (R57). -/
def imageWords (hdr : BitVec 32) (b : List Byte) : SMap Word :=
  ((presentSlots hdr).zip (List.range 7)).map
    (fun (slot, i) => (slot, BitVec.ofNat 64 (leNat ((b.drop (4 + 8 * i)).take 8))))

/-- EMITM (R119): OFF is 4 × o. -/
def execEmitm (o : BitVec 13) (a : BitVec 6) (s : State) : Out :=
  withThread s fun c =>
    let t := c.thread
    let off := t.reg a + sext13 o * 4
    noQueue s c (.emitm o a) <|
      if t.regPoison a then s.poisonUse
      else match readTemplate s c off 4 with
        | .misaligned => s.templateFault true off
        | .beyond => s.templateFault false off
        | .ok hb _ =>
          let hdr := BitVec.ofNat 32 (leNat hb)
          if badHeader hdr then s.genFault s.cur gBADHDR 0 (hdr.setWidth 64)
          else match readTemplate s c off (4 + 8 * (presentSlots hdr).length) with
            | .misaligned => s.templateFault true off
            | .beyond => s.templateFault false off
            | .ok b p => if p then s.poisonUse else s.pushOrStall c hdr (imageWords hdr b)

/-- A value in the range of a descriptor field (R122). -/
def nestInRange (f : Nat) (v : Word) : Bool :=
  if f = 0 ∨ f = 21 ∨ f = 26 then true
  else if f = 1 then decide (v.toNat ≤ 15)
  else if f = 2 ∨ f = 23 then decide (v.toNat ≤ 3)
  else if (3 ≤ f ∧ f ≤ 8) ∨ (15 ≤ f ∧ f ≤ 20) then decide (v.toNat < 2 ^ 32)
  else if (9 ≤ f ∧ f ≤ 14) ∨ f = 22 then decide (-(2 ^ 31) ≤ v.toInt ∧ v.toInt < 2 ^ 31)
  else if f = 24 then decide (v.toNat < 2 ^ 25)
  else if f = 25 then decide (v.toNat < 2 ^ 20 ∧ v.toNat % 256 = 0)
  else false

/-- NSET (R122, R123): a thirty-third write first pushes the list as a descriptor entry, stalling as EMIT does. -/
def execNset (a : BitVec 6) (f : BitVec 5) (n : BitVec 4) (s : State) : Out :=
  withThread s fun c =>
    let t := c.thread
    let w : NestWrite := { n := n.toNat, field := f.toNat, value := t.reg a }
    if t.regPoison a then s.poisonUse
    else if !nestInRange f.toNat (t.reg a) then s.illins (.nset a f n) 1
    else if t.pending.length < 32 then s.goOn c { t with pending := t.pending ++ [w] } (t.pc + 4)
    else noQueue s c (.nset a f n) <|
      if 64 ≤ c.qlevel then s.stallQueue c
      else
        let e : QEntry :=
          { isDesc := true, header := 0, words := [], pc := 0, seq := 0, nest := t.pending, reps := 0, after := t, marks := false, skip := 0,
            seen := none }
        s.goOn { c with queue := c.queue ++ [.entry e] } { t with pending := [w] } (t.pc + 4)

end Sys2Proof.Machine
end

