-- ==== Sys2Proof/Machine/Residency.lean ====
section
/-! DEFINITION. What the scheduler computes of a context: priority, boost, wanting, usable slots (R261, R262, R265-R270). -/

namespace Sys2Proof.Machine

/-! ### Fairness (R265-R268) -/

def Die.wlog (d : Die) : Nat := d.schcfg.toNat % 32
def Die.bcap (d : Die) : Nat := d.schcfg.toNat / 2 ^ 12 % 256
def Die.hyst (d : Die) : Nat := d.schcfg.toNat / 2 ^ 20 % 16
/-- The budget B of a window (R268). -/
def Die.budget (d : Die) : Nat := 2 ^ d.wlog * d.bcap / 256

/-- The number of the record of a tenant's gang, if it has one (R11, R266). -/
def Die.recordOf (d : Die) (tenant : BitVec 16) (gang : BitVec 20) : Option Nat :=
  (d.fair.find? (fun p => p.2.valid && p.2.tenant == tenant && p.2.gang == gang)).map (·.1)

/-- The readable boost of a tenant's gang (R268); gang 0 has none (R11). -/
def Die.boost (d : Die) (tenant : BitVec 16) (gang : BitVec 20) : Nat :=
  if gang = 0 then 0
  else match d.recordOf tenant gang with
    | none => 0
    | some i =>
      let r := SMap.getD d.fair i FairRec.empty
      if r.boost.toNat < d.budget then r.level else 0

/-- The effective priority (R265). -/
def Die.priority (d : Die) (c : Context) : Int :=
  (c.id.basePrio : Int) + d.boost c.id.tenant c.id.gang - (if c.sch.spinning then 4 else 0)

/-- A flex cycle granted to a boosted gang (R268). -/
def Die.boostCycle (d : Die) (tenant : BitVec 16) (gang : BitVec 20) : Die :=
  if d.boost tenant gang = 0 then d
  else match d.recordOf tenant gang with
    | none => d
    | some i =>
      let r := SMap.getD d.fair i FairRec.empty
      { d with fair := SMap.put d.fair i { r with boost := r.boost + 1 } }

/-! ### Slots (R261-R264) -/

def Core.bound (r : Core) (slot : Nat) : Bool := r.slotPart.getLsbD (5 * slot + 4)
def Core.boundTo (r : Core) (slot : Nat) : Nat := r.slotPart.toNat / 2 ^ (5 * slot) % 16
/-- Partition p may occupy the slot (R261). -/
def Core.mayOccupy (r : Core) (slot part : Nat) : Bool :=
  if r.bound slot then decide (r.boundTo slot = part) else r.slotPart.getLsbD (32 + part)
/-- The region of a slot in a slot region register (R262): size and base. -/
def regionSize (w : Word) (slot : Nat) : Nat := w.toNat / 2 ^ (16 * slot + 8) % 128
def regionBase (w : Word) (slot : Nat) : Nat := w.toNat / 2 ^ (16 * slot) % 128
/-- A slot usable by a context of a partition with given window sizes (R261, R262). -/
def Core.fits (r : Core) (part f w c slot : Nat) : Bool :=
  r.mayOccupy slot part &&
    decide (f ≤ regionSize r.slotWinF slot ∧ w ≤ regionSize r.slotWinW slot ∧ c ≤ regionSize r.slotWinC slot)
/-- A slot the context may become RESIDENT in (R261, R262). -/
def Core.usable (r : Core) (c : Context) (slot : Nat) : Bool :=
  r.fits c.id.part (winLimit c.id.winF) (winLimit c.id.winW) (winLimit c.id.winC) slot
def Core.slotFree (r : Core) (slot : Nat) : Bool := (SMap.find r.slots slot).isNone

/-- Entry e of the slot table (R263). -/
def Core.entry (r : Core) (e : Nat) : Nat := (r.slotTable.getD (e / 16) 0).toNat / 16 ^ (e % 16) % 16
/-- A bound slot that some entry names (R263). -/
def Core.guaranteed (r : Core) (slot : Nat) : Bool :=
  r.bound slot && (List.range 64).any (fun e => decide (r.entry e = slot))

/-! ### Wanting (R270) -/

/-- The sync operation the context waits on. -/
def Context.waitOp (c : Context) : Option SyncOp := c.fl.syncHold.bind (fun i => c.fl.syncOps.find? (fun o => decide (o.id = i)))

/-- Its saved back end is held on a parked wait its home has not answered; a withdrawn one is no more parked (R242, R331). -/
def Context.parkedUnanswered (c : Context) : Bool :=
  match c.waitOp with
  | some o => decide (o.op = 12 ∨ o.op = 15) && o.state != .ready && !c.sch.parkedAnswered
  | none => false

def Context.runnable (now : Nat) (c : Context) : Bool :=
  c.status == .new ||
    match c.wait with
    | .none => true
    | .phaseg => true
    | .spin since => decide (since + 64 ≤ now)
    | .halt => !c.parkedUnanswered
    | .haltPhase => !c.parkedUnanswered
    | .drainq => !c.parkedUnanswered
    | .queueFull => !c.parkedUnanswered
    | _ => false

/-- Its landing buffer holds entries, or an arrival has been refused since it was saved. -/
def Context.landing (c : Context) : Bool := c.land.head != c.land.tail || c.land.refusedSince

/-- A NONRES or NEW context wants a slot. -/
def Context.wanting (now : Nat) (c : Context) : Bool :=
  (c.status == .new || c.status == .nonres) &&
    (c.runnable now || c.sch.parkedAnswered || c.thread.uliAsked != 0 || c.landing)

/-- A copy operation is suspended (R159). -/
def Context.hasSuspended (c : Context) : Bool := c.fl.copyOps.any (fun o => o.state == .suspended)

/-- It can be given a slot at all: not frozen, its core not retired (R282, R331). -/
def State.placeable (s : State) (c : Context) : Bool := !c.isFrozen && !(s.core c.coreKey).retired

/-- It asks for a slot of its core: its key, and its age. -/
def State.wants (s : State) (c : Context) : Bool := c.slot.isNone && s.placeable c && c.wanting (s.core c.coreKey).cycle.toNat

/-- A context that may issue: RESIDENT (or the firmware context), not frozen, its back end not frozen (R24, R264). -/
def Context.mayIssue (c : Context) : Bool :=
  c.status == .resident && !c.isFrozen && !c.beFrozen

/-! ### Counters of a core cycle (R17, R22, R269, R270, R275, R330) -/

/-- It holds on the wait it has sent: every issued bundle has committed, or the wait is saved with it (R242). An empty queue
changes nothing of it. -/
def Context.heldOnWait (c : Context) : Bool := c.status == .nonres || c.fl.issued.isEmpty

/-- A hold that is a spin wait (R269): a BWAIT or plain SWAIT, also parked, or TWAIT on a token with an RPUT or an operation
that has met another package. -/
def Context.spinHold (c : Context) : Bool :=
  let sync := match c.waitOp with
    | some o => decide (o.op = 12 ∨ (o.op = 15 ∧ o.w.sub = 0)) && !c.sch.parkedAnswered && c.heldOnWait
    | none => false
  let token := c.hold.twait && (match c.queue with
    | .entry e :: _ => c.fl.copyOps.any (fun o => (hdrWait e.header).getLsbD o.w.tok.toNat && (o.remote || decide (o.op = 7)))
    | _ => false)
  sync || token

/-- It holds on an IDLE SWAIT, or is saved in one (R253, R330). -/
def Context.idleWait (c : Context) : Bool :=
  match c.waitOp with
  | some o => decide (o.op = 15 ∧ o.w.sub = 1) && c.heldOnWait
  | none => false

def sat48 (n : Nat) : Nat := min n (2 ^ 48 - 1)

/-- The counts of a context in a core cycle `now` of its core, freeze cycles included. DESIGN CHOICE (log entry 60): QSTALL counts a
stalled EMIT whatever the context's status, and in a frozen one (R118 does not say). -/
def Context.count (now lim : Nat) (c : Context) : Context :=
  let live := (c.status == .resident || c.status == .nonres) && !c.firmware
  let held := c.spinHold
  let sch := c.sch
  let ended := !held && decide (0 < sch.spinCount)
  let genSpin := if sch.spinWait then sch.genSpin + 1 else 0
  let want := c.wanting now
  let sch1 := { sch with
    spinCount := if held then sch.spinCount + 1 else 0
    genSpin := genSpin
    spinning := if ended then sch.spinning && sch.spinWait && decide (lim < genSpin) else sch.spinning
    wdCount := if live && !sch.wdFrozen && !c.idleWait then sat48 (sch.wdCount + 1) else sch.wdCount
    wantingSince := if want then (match sch.wantingSince with | some w => some w | none => some now) else none
    reslated := sch.reslated && want
    coldSince := if c.status == .nonres && !want then sch.coldSince else now
    coldReported := sch.coldReported && c.status == .nonres && !want }
  { c with
    sch := sch1
    qstall := if c.wait == .queueFull && decide (64 ≤ c.qlevel) then BitVec.ofNat 48 (sat48 (c.qstall.toNat + 1)) else c.qstall
    chk := { c.chk with since := if c.status == .resident then c.chk.since + 1 else c.chk.since } }

end Sys2Proof.Machine
end

