-- ==== Sys2Proof/Machine/Copy.lean ====
section
/-! DEFINITION. The copy unit: chunks, their reads and their delivery, suspension, completion (R40, R141-R163). -/

namespace Sys2Proof.Machine

/-! ### Walks (R144, R145, R151) -/

/-- Indices of element number o, i0 first. -/
def nestIdx (n : List Word) (o : Nat) : List Nat :=
  ((List.range 6).foldl (fun (a : List Nat × Nat) d => (a.1 ++ [a.2 % nestBound n d], a.2 / nestBound n d)) ([], o)).1

def nestClipped (n : List Word) (idx : List Nat) : Bool :=
  (nestField n 23).getLsbD 0 && (List.range 6).any (fun d =>
    let x := (nestField n (15 + d)).toNat % 2 ^ 32
    decide (x ≠ 0 ∧ x ≤ idx.getD d 0))

/-- Address of an element. -/
def CopyOp.addr (o : CopyOp) (idx : List Nat) : Word :=
  (List.range 6).foldl (fun a d => a + BitVec.ofNat 64 (idx.getD d 0) * nestField o.nest (9 + d)) (o.zrel + nestField o.nest 0)

/-- Element numbers of a chunk. -/
def CopyOp.chunkElems (o : CopyOp) (ch : Nat) : List Nat :=
  let e := nestElemSize o.nest
  let lo := ch * 256 / e
  (List.range (min (256 / e) (nestElems o.nest - lo))).map (lo + ·)

/-- First element or unit of a chunk, for the cursor of the status record (R160). -/
def CopyOp.chunks (o : CopyOp) : Nat := (o.total + 255) / 256

/-! ### Reading by the fill rule (R40) -/

/-- What a read brings: bytes with poison, the lowest fault, whether it met another package. -/
structure Got where
  bytes : List (Byte × Bool)
  fault : Option XFault
  remote : Bool

def lowerFault (a b : Option XFault) : Option XFault :=
  match a, b with
  | none, f => f
  | some x, none => some x
  | some x, some y => if y.va.toNat < x.va.toNat then some y else some x

/-- Bytes read at their homes (R40); a task's past writes to an OWN line in view (R56). -/
def fillRead (s : State) (c : Context) (va : Word) (n : Nat) : Got :=
  let e := translateElement s c va n .load
  match e.fault with
  | some f => { bytes := List.replicate n (0, false), fault := some f, remote := false }
  | none =>
    { fault := none
      remote := e.parts.any (fun p => match p.2.2 with | some l => decide (l.pkg ≠ c.pkg) | none => false)
      bytes := e.parts.flatMap (fun p => match p.2.2 with
        | some l =>
          let x := s.readHome c.reader l.pkg (l.pa / 64)
          (((bytesOfLine x.1).drop (l.pa % 64)).take p.2.1).map (fun b => (b, x.2))
        | none => List.replicate p.2.1 (0, false)) }

/-- Units of a FILLS along a row, their source size and dense size (R151). -/
def CopyOp.units (o : CopyOp) : Nat := if o.w.fmt = 0 then nestBound o.nest 0 / 4 else nestBound o.nest 0
def CopyOp.unitSource (o : CopyOp) : Nat :=
  if o.w.fmt = 0 then 2 * nestElemSize o.nest else if o.w.fmt = 7 then 10 else if o.w.fmt = 8 then 7 else 5
def CopyOp.unitDense (o : CopyOp) : Nat :=
  if o.w.fmt = 0 then 4 * nestElemSize o.nest else if o.w.fmt = 7 then 18 else if o.w.fmt = 8 then 12 else 8
def CopyOp.unitCount (o : CopyOp) : Nat := nestBound o.nest 1 * o.units
def CopyOp.unitClipped (o : CopyOp) (u : Nat) : Bool := nestClipped o.nest [u % o.units, u / o.units, 0, 0, 0, 0]

/-- Units of a FILLS that fall in a chunk. -/
def CopyOp.chunkUnits (o : CopyOp) (ch : Nat) : List Nat :=
  let lo := ch * 256
  let hi := min (lo + 256) (fillsDense o.w.fmt.toNat o.nest)
  let first := lo / o.unitDense
  (List.range (if hi ≤ lo then 0 else (hi - 1) / o.unitDense + 1 - first)).map (first + ·)

/-- The reads of an operation are numbered: those of FILL and ADDW by element, those of FILLS by unit, 2u its source and 2u + 1 its
metadata. Address and length of one; none for a clipped element or unit and for a number beyond the last (R144, R145, R151). -/
def CopyOp.readAt (o : CopyOp) (n : Nat) : Option (Word × Nat) :=
  if o.op = 2 then
    let u := n / 2
    let i1 := BitVec.ofNat 64 (u / o.units)
    let i0 := u % o.units
    if o.unitCount ≤ u ∨ o.unitClipped u then none
    else if n % 2 = 0 then some (o.zrel + nestField o.nest 0 + i1 * nestField o.nest 10 + BitVec.ofNat 64 (i0 * o.unitSource), o.unitSource)
    else
      let m := o.zrel + nestField o.nest 21 + i1 * nestField o.nest 22
      some (if o.w.fmt = 0 then (m + BitVec.ofNat 64 (i0 / 2), 1) else (m + BitVec.ofNat 64 (2 * i0), 2))
  else if o.op = 1 ∨ o.op = 6 then
    let idx := nestIdx o.nest n
    if nestElems o.nest ≤ n ∨ nestClipped o.nest idx then none else some (o.addr idx, nestElemSize o.nest)
  else none

/-- Numbers of the reads of a chunk. -/
def CopyOp.chunkReads (o : CopyOp) (ch : Nat) : List Nat :=
  if o.op = 2 then (o.chunkUnits ch).flatMap (fun u => [2 * u, 2 * u + 1])
  else if o.op = 1 ∨ o.op = 6 then o.chunkElems ch
  else []

/-- Number of reads of the whole operation. -/
def CopyOp.readCount (o : CopyOp) : Nat :=
  if o.op = 2 then 2 * o.unitCount else if o.op = 1 ∨ o.op = 6 then nestElems o.nest else 0

/-- A read of a copy operation is one step at its home (R40): what it brought is kept until its chunk is delivered; the lowest
fault. -/
def CopyOp.perform (s : State) (c : Context) (x : CopyOp × Option XFault) (n : Nat) : CopyOp × Option XFault :=
  if x.1.got.any (fun g => decide (g.1 = n)) then x
  else match x.1.readAt n with
    | none => x
    | some (va, len) =>
      let g := fillRead s c va len
      match g.fault with
      | some f => (x.1, lowerFault x.2 (some f))
      | none => ({ x.1 with got := (n, g.bytes) :: x.1.got, remote := x.1.remote || g.remote }, x.2)

/-- Every read of a chunk that is still to be performed. -/
def CopyOp.gather (s : State) (c : Context) (o : CopyOp) (ch : Nat) : CopyOp × Option XFault :=
  (o.chunkReads ch).foldl (CopyOp.perform s c) (o, none)

/-- Every read of a chunk is performed. -/
def CopyOp.gathered (o : CopyOp) (ch : Nat) : Bool :=
  (o.chunkReads ch).all (fun n => (o.readAt n).isNone || o.got.any (fun g => decide (g.1 = n)))

def zeros (n : Nat) : List (Byte × Bool) := List.replicate n (0, false)

/-- What a read brought; zeros where it is clipped (R145). -/
def CopyOp.bytesOf (o : CopyOp) (n len : Nat) : List (Byte × Bool) :=
  match o.got.find? (fun g => decide (g.1 = n)) with
  | some g => g.2
  | none => zeros len

/-- The bytes of a chunk, its clipped count, BADMETA. -/
structure Chunk where
  data : List (Byte × Bool)
  clipped : Nat
  bad : Bool

/-- FILL, ADDW: the elements of a chunk (R145, R150). -/
def elemChunk (o : CopyOp) (ch : Nat) : Chunk :=
  { data := (o.chunkElems ch).flatMap (fun i => o.bytesOf i (nestElemSize o.nest))
    clipped := ((o.chunkElems ch).filter (fun i => nestClipped o.nest (nestIdx o.nest i))).length, bad := false }

/-- A 2:4 group in dense form: the two kept elements, `w` bits each, at the places of the metadata nibble; zeros and
BADMETA where it is invalid. -/
def expandGroup (w nib k0 k1 : Nat) : Nat × Bool :=
  let a := nib % 4
  let b := nib / 4
  if a < b then (k0 * 2 ^ (w * a) + k1 * 2 ^ (w * b), false) else (0, true)

/-- Dense bytes of a unit from its source bytes and its metadata nibbles, with BADMETA (R151). DESIGN CHOICE (log entry 61): a kept
element of a compressed block goes in as it stands, also one with s = 1 and M = 0. -/
def CopyOp.expand (o : CopyOp) (src : Nat) (nibs : Nat) : List Byte × Bool :=
  if o.w.fmt = 0 then
    let w := 8 * nestElemSize o.nest
    let (d, bad) := expandGroup w (nibs % 16) (src % 2 ^ w) (src / 2 ^ w)
    (leBytes o.unitDense d, bad)
  else
    let w := 1 + (if o.w.fmt = 7 then 7 else if o.w.fmt = 8 then 4 else 2)
    let kept (i : Nat) : Nat := src / 2 ^ (16 + w * i) % 2 ^ w
    let gs := (List.range 4).map (fun g => expandGroup w (nibs / 16 ^ g % 16) (kept (2 * g)) (kept (2 * g + 1)))
    (leBytes o.unitDense (src % 2 ^ 16 + 2 ^ 16 * gs.foldr (fun x acc => x.1 + 2 ^ (4 * w) * acc) 0), gs.any (·.2))

/-- One dense unit of a FILLS: its bytes, BADMETA. -/
def CopyOp.unit (o : CopyOp) (u : Nat) : List (Byte × Bool) × Bool :=
  if o.unitClipped u then (zeros o.unitDense, false)
  else
    let src := o.bytesOf (2 * u) o.unitSource
    let md := o.bytesOf (2 * u + 1) (if o.w.fmt = 0 then 1 else 2)
    let nibs := leNat (md.map (·.1)) / (if o.w.fmt = 0 ∧ u % o.units % 2 = 1 then 16 else 1)
    let (d, bad) := o.expand (leNat (src.map (·.1))) nibs
    (d.map (fun b => (b, (src ++ md).any (·.2))), bad)

/-- A chunk of a FILLS: the units that fall in it, each counted where it starts, then zeros that count as clipped bytes (R151). -/
def unitChunk (o : CopyOp) (ch : Nat) : Chunk :=
  let us := o.chunkUnits ch
  let starts := us.filter (fun u => decide (ch * 256 ≤ u * o.unitDense))
  let body := match us with
    | [] => []
    | u :: _ => ((us.flatMap (fun u => (o.unit u).1)).drop (ch * 256 - u * o.unitDense)).take
        (min (ch * 256 + 256) (fillsDense o.w.fmt.toNat o.nest) - ch * 256)
  { data := body ++ zeros (256 - body.length)
    clipped := (starts.filter o.unitClipped).length * (if o.w.fmt = 0 then 4 else 16) + (256 - body.length)
    bad := starts.any (fun u => (o.unit u).2) }

/-- DRAIN, RPUT: bytes of the tile from byte `off`, with their lines' poison. -/
def tileData (s : State) (c : Context) (buf tile off n : Nat) : List (Byte × Bool) :=
  let b := s.readTile c buf tile off n
  (b.zip (List.range b.length)).map (fun x => (x.1, (s.readLine c buf tile ((off + x.2) / 64)).poison))

/-- RPUT: the source bytes of a chunk, zeros where clipped (R156, R157). -/
def CopyOp.rputOff (o : CopyOp) : Nat := (nestField o.nest 0).toNat
def CopyOp.rputClip (o : CopyOp) (ch k : Nat) : Bool := nestClipped o.nest (nestIdx o.nest ((ch * 256 + k) / nestElemSize o.nest))
def rputChunk (s : State) (c : Context) (o : CopyOp) (ch : Nat) : Chunk :=
  let n := min 256 (o.total - ch * 256)
  let d := tileData s c 0 o.w.tile.toNat (o.rputOff + ch * 256) n
  { data := (d.zip (List.range n)).map (fun x => if o.rputClip ch x.2 then (0, false) else x.1)
    clipped := ((List.range n).filter (fun k => decide (k % nestElemSize o.nest = 0) && o.rputClip ch k)).length, bad := false }

/-- The bytes of a chunk whose reads are performed. -/
def chunkOf (s : State) (c : Context) (o : CopyOp) (ch : Nat) : Chunk :=
  if o.op = 1 ∨ o.op = 6 then elemChunk o ch
  else if o.op = 2 then unitChunk o ch
  else if o.op = 5 then
    { data := tileData s c o.buf o.w.tile.toNat (256 * ch) 256
      clipped := ((o.chunkElems ch).filter (fun i => nestClipped o.nest (nestIdx o.nest i))).length, bad := false }
  else rputChunk s c o ch

/-! ### The operation and its status record (R160) -/

def Context.setOp (c : Context) (o : CopyOp) : Context :=
  { c with fl := { c.fl with copyOps := c.fl.copyOps.map (fun x => if x.id = o.id then o else x) } }

/-- The head of a channel's list (R141). -/
def Context.copyHead (c : Context) (ch : Nat) : Option CopyOp := c.fl.copyOps.find? (fun o => decide (o.w.ch.toNat = ch))

def Context.stat (c : Context) (ch : Nat) : CopyStat := SMap.getD c.be.cstat ch CopyStat.start
def Context.updStat (c : Context) (ch : Nat) (f : CopyStat → CopyStat) : Context :=
  { c with be := { c.be with cstat := SMap.put c.be.cstat ch (f (c.stat ch)) } }

def satAdd64 (a : Word) (n : Nat) : Word := BitVec.ofNat 64 (min (a.toNat + n) (2 ^ 64 - 1))

/-- The state word of the record. -/
def CopyStat.word (r : CopyStat) : Nat :=
  r.state.toNat + (if r.badmeta then 4 else 0) + (if r.poisoned then 8 else 0) + r.sub.toNat * 2 ^ 8 + r.cause.toNat * 2 ^ 16

/-- The 128 bytes of the record (R160). -/
def CopyStat.bytes (r : CopyStat) : List Byte :=
  leBytes 4 r.word ++ leBytes 4 r.retries.toNat ++ leBytes 8 r.retryTotal.toNat ++ leBytes 8 r.clipped.toNat ++
  leBytes 8 r.poisonLines.toNat ++ leBytes 8 r.addr.toNat ++ leBytes 8 r.pc.toNat ++ leBytes 4 r.seq.toNat ++
  leBytes 4 r.wp.toNat ++ (List.range 6).flatMap (fun d => leBytes 4 (r.cursor.getD d 0).toNat) ++
  leBytes 4 (r.token.toNat + r.op.toNat * 2 ^ 8) ++ leBytes 44 0

/-- The indices the cursor names: of the first element of the suspended chunk. -/
def CopyOp.cursor (o : CopyOp) : List (BitVec 32) :=
  let idx := if o.op = 2 then
      let u := o.done * 256 / o.unitDense
      [u % o.units, u / o.units, 0, 0, 0, 0]
    else nestIdx o.nest (o.done * 256 / nestElemSize o.nest)
  idx.map (BitVec.ofNat 32)

/-- Lines of 64 bytes of a chunk that carry poison. -/
def poisonedLines (d : List (Byte × Bool)) : Nat :=
  ((List.range 4).filter (fun i => ((d.drop (64 * i)).take 64).any (·.2))).length

def Context.countChunk (c : Context) (ch : Nat) (clipped poisoned : Nat) (bad : Bool) : Context :=
  c.updStat ch fun r => { r with
    clipped := r.clipped + BitVec.ofNat 64 clipped, poisonLines := r.poisonLines + BitVec.ofNat 64 poisoned
    poisoned := r.poisoned || decide (0 < poisoned), badmeta := r.badmeta || bad }

/-- A declined copy entry (R325): ULIPEND bit 15 and COPYSUSP with the status word. -/
def State.copyDeclined (s : State) (k ch : Nat) : State :=
  match s.ctx k with
  | none => s
  | some c => (s.setUlipend k 15).post (.cobalt c.die) 3 (k % 2 ^ 32) (BitVec.ofNat 64 (c.stat ch).word) (c.stat ch).pc

def suspXlate : BitVec 8 := 1
def suspSchedv : BitVec 8 := 2
def suspRputdst : BitVec 8 := 3

/-- The channel suspends the operation (R159): its context is not pre-empted until that is over, its record is written; NOTPRES goes to the
fault queue, another translation fault or RPUTDST is a declined entry at once. -/
def State.suspendCopy (s : State) (k : Nat) (o : CopyOp) (cause : BitVec 8) (x : XFault) : State :=
  match s.ctx k with
  | none => s
  | some c =>
    let ch := o.w.ch.toNat
    let o' := { o with state := .suspended, got := [], put := [], sent := [] }
    let c' := (({ c with sch := { c.sch with preempt := none } } : Context).setOp o').updStat ch fun r => { r with
      state := 2, cause := cause, sub := x.sub, addr := if cause = suspXlate then x.va else r.addr, cursor := o.cursor,
      wp := BitVec.ofNat 32 o.wp }
    let s1 := s.setCtx k c'
    if cause = suspSchedv then s1
    else if cause = suspXlate && isNotPres x.sub then
      s1.queueFault (.cobalt c.die)
        { seq := 0, source := 2, who := k, va := x.va, pc := o.pc, emitseq := o.seq, sub := x.sub, unit := ch,
          record := (c'.stat ch).bytes }
    else s1.copyDeclined k ch

/-- Every page an operation reads is RO in stage 1 or stage 2 (R150). -/
def readsOnlyRo (s : State) (c : Context) (o : CopyOp) : Bool :=
  let ro (va : Word) : Bool := match c.id.s1root with
    | none => false
    | some root => match walkBoth s c.die c.id.part root va.toNat with
      | .error _ => false
      | .ok (_, r1, r2, _) => r1 || r2
  (List.range o.readCount).all (fun n => match o.readAt n with
    | none => true
    | some (va, len) => ro va && ro (va + BitVec.ofNat 64 (len - 1)))

/-- The operation leaves its list (a refetch of R280, numbered 0, holds no token): its token count is returned; the token's last one is a
progress event (R143, R330). -/
def Context.endCopy (c : Context) (o : CopyOp) : Context :=
  let c1 := { c with fl := { c.fl with copyOps := c.fl.copyOps.filter (fun x => x.id ≠ o.id) } }
  if o.idx = 0 then c1 else
  let c2 := c1.applyBe o.idx (fun b => b.freeToken o.w.tok.toNat)
  if SMap.getD c2.be.tokens o.w.tok.toNat 0 = 0 then c2.progress else c2

/-- COPY_OP_COMPLETE (R42, R143): with the refetch record of a read-only staged tile (R150). -/
def State.completeCopy (s : State) (k : Nat) (o : CopyOp) : State :=
  match s.ctx k with
  | none => s
  | some c =>
    let c1 := (c.endCopy o).updStat o.w.ch.toNat fun r => { r with state := 0, wp := BitVec.ofNat 32 o.total }
    let tile := o.w.tile.toNat
    let staged := decide (o.op = 1 ∨ o.op = 2) && (nestField o.nest 23).getLsbD 1 && decide (tile < winLimit (c.window o.buf)) &&
      readsOnlyRo s c o
    s.setCtx k (if staged then
        { c1 with sch := { c1.sch with refetch :=
            c1.sch.refetch ++ [{ buf := o.buf, tile := tile, op := o.op, w := o.w, nest := o.nest, zrel := o.zrel }] } }
      else c1)

/-- What is performed of the chunks after one is kept. -/
def CopyOp.nextChunk (o : CopyOp) : CopyOp :=
  let later := (o.chunkReads (o.done + 1))
  let gone (n : Nat) : Bool := (o.chunkReads o.done).contains n && !later.contains n
  { o with
    done := o.done + 1, state := .running, retries := 0, sent := []
    got := o.got.filter (fun g => !gone g.1), put := o.put.filter (fun n => decide (n % 64 ≠ o.done)) }

/-- A chunk is delivered: the write pointer moves, the operation may be complete (R146). -/
def State.chunkDone (s : State) (k : Nat) (o : CopyOp) : State :=
  match s.ctx k with
  | none => s
  | some c =>
    let o' := o.nextChunk
    let s1 := s.setCtx k ((c.setOp o').updStat o.w.ch.toNat fun r => { r with
      state := 1, retries := 0, wp := BitVec.ofNat 32 o'.wp })
    if o'.chunks ≤ o'.done then s1.completeCopy k o' else s1

/-! ### Delivery -/

/-- FILL and FILLS: the bytes that `keep` chooses go into the tile (R150, R162). -/
def State.fillTile (s : State) (k : Nat) (o : CopyOp) (ch : Nat) (d : List (Byte × Bool)) (keep : Nat → Bool) : State :=
  (List.range 4).foldl (fun s i =>
    let l := (d.drop (64 * i)).take 64
    let mask := maskOf 1 (fun j => keep (64 * i + j))
    if mask = 0 then s
    else s.writeLine k o.idx o.buf o.w.tile.toNat (4 * ch + i) (fun old => old.merge mask (lineOfBytes (l.map (·.1))) (l.any (·.2)))) s

/-- One element's write of a DRAIN, by parts. -/
def drainStores (s : State) (c : Context) (o : CopyOp) (d : List (Byte × Bool)) (ch i : Nat) : Except XFault (List LineStore) :=
  let e := nestElemSize o.nest
  let idx := nestIdx o.nest i
  if nestClipped o.nest idx then .ok []
  else
    let el := translateElement s c (o.addr idx) e .store
    match el.fault with
    | some f => .error f
    | none =>
      let b := (d.drop (i * e - ch * 256)).take e
      .ok (storeParts el (leNat (b.map (·.1))) (b.any (·.2)))

/-- Stores of one line as one write step (R349), with the undo log of an OWN page (R276) or the end of eligibility
(R277). -/
def State.drainLine (s : State) (k idx : Nat) (st : PbEntry) : State :=
  let line := st.loc.pa / 64
  let s1 := s.updCtx k fun c =>
    if st.loc.own then c.ownLogged s idx st else c.spoil idx
  let s2 := match s.ctx k with | some c => s1.ownWritten c st.loc | none => s1
  s2.homeWriteLine st.loc.pkg line st.mask st.data st.poison false

/-- The writes of a DRAIN chunk, one step a line (R349); the first fault with the lowest address. -/
def drainWrites (s : State) (c : Context) (o : CopyOp) (d : List (Byte × Bool)) (ch : Nat) : Option XFault × List PbEntry :=
  (o.chunkElems ch).foldl (fun acc i =>
    match drainStores s c o d ch i with
    | .error f => (lowerFault acc.1 (some f), acc.2)
    | .ok sts => (acc.1, sts.foldl pbInsert acc.2)) (none, [])

/-- Number of a chunk's write of a line, by which it is known once applied. -/
def drainNo (ch : Nat) (e : PbEntry) : Nat := lineKey e.loc.pkg (e.loc.pa / 64) * 64 + ch

/-- Some access of the chunk met another package (R269). -/
def CopyOp.meet (o : CopyOp) (remote : Bool) : CopyOp := { o with remote := o.remote || remote }

/-- A tile access of a chunk beyond the window (R148). -/
def State.chunkOor (s : State) (k : Nat) (o : CopyOp) (off : Nat) : State :=
  s.tileOor k o.idx o.buf o.w.tile.toNat (off / 256) (off % 256)

/-- A FILL or FILLS chunk is delivered. -/
def State.deliverFill (s : State) (k : Nat) (c : Context) (o : CopyOp) : State :=
  let x := chunkOf s c o o.done
  let s1 := (s.fillTile k o o.done x.data (fun _ => true)).chunkOor k o (256 * o.done)
  (s1.updCtx k (fun c => c.countChunk o.w.ch.toNat x.clipped (poisonedLines x.data) x.bad)).chunkDone k o

/-- A DRAIN chunk is delivered, or faults (R153): the writes not applied yet are. -/
def State.deliverDrain (s : State) (k : Nat) (c : Context) (o : CopyOp) : State :=
  let x := chunkOf s c o o.done
  let (f, lines) := drainWrites s c o x.data o.done
  let o1 := o.meet (lines.any (fun l => decide (l.loc.pkg ≠ c.pkg)))
  match f with
  | some f => s.suspendCopy k o1 suspXlate f
  | none =>
    let s1 := (lines.filter (fun e => !o.put.contains (drainNo o.done e))).foldl (fun s l => s.drainLine k o.idx l) s
    ((s1.chunkOor k o (256 * o.done)).updCtx k (fun c =>
      c.countChunk o.w.ch.toNat x.clipped (poisonedLines x.data) false)).chunkDone k o1

/-! ### Accesses before their chunk is delivered (R40, R142) -/

/-- A channel moves a line for an access: one of those it has moved in past core cycles, but for one more access to the line it
moved last (R142). -/
def State.moveLine (s : State) (core ch key : Nat) : Option State :=
  let r := s.core core
  let n := SMap.getD r.chanLines ch 0
  if SMap.find r.chanAt ch = some key then some s
  else if n = 0 then none
  else some (s.updCore core (fun r => { r with chanLines := SMap.put r.chanLines ch (n - 1), chanAt := SMap.put r.chanAt ch key }))

/-- Lines that a read of an operation meets. -/
def CopyOp.readLines (s : State) (c : Context) (o : CopyOp) (n : Nat) : List Nat :=
  match o.readAt n with
  | none => []
  | some (va, len) => (translateElement s c va len .load).parts.filterMap (fun p => p.2.2.map (fun l => lineKey l.pkg (l.pa / 64)))

/-- A read of a chunk still to be delivered is performed early. -/
def State.readAhead (s : State) (k ch : Nat) (c : Context) (o : CopyOp) (n : Nat) : State :=
  match (CopyOp.readLines s c o n).foldl (fun a key => a.bind (fun s => s.moveLine c.coreKey ch key)) (some s) with
  | none => s
  | some s1 => s1.setCtx k (c.setOp (CopyOp.perform s c (o, none) n).1)

/-- Write number j of a chunk of a DRAIN still to be delivered is applied early: the elements of the chunk in one line (R40, R349). -/
def State.writeAhead (s : State) (k ch : Nat) (c : Context) (o : CopyOp) (chunk j : Nat) : State :=
  match (drainWrites s c o (chunkOf s c o chunk).data chunk).2[j]? with
  | none => s
  | some e =>
    if o.put.contains (drainNo chunk e) then s
    else match s.moveLine c.coreKey ch (lineKey e.loc.pkg (e.loc.pa / 64)) with
      | none => s
      | some s1 =>
        let o1 := { o.meet (decide (e.loc.pkg ≠ c.pkg)) with put := drainNo chunk e :: o.put }
        (s1.setCtx k (c.setOp o1)).drainLine k o.idx e

/-- An RPUT fragment leaves (R156, R157): the barrier address is translated before the first one. -/
def State.sendFragment (s : State) (k : Nat) (c : Context) (o : CopyOp) : State :=
  let go (b : Option Loc) : State :=
    let o' := { o with barrier := b, state := .sent, remote := true, sent := (chunkOf s c o o.done).data }
    (s.setCtx k (c.setOp o')).chunkOor k o (o.rputOff + 256 * o.done)
  match o.barrierVa, o.barrier with
  | some va, none => match translate s c va .store with
    | .error f => s.suspendCopy k o suspXlate f
    | .ok l => go (some l)
  | _, b => go b

/-! ### The turn on a channel (R141, R142, R353) -/

/-- Beats a stream can take without touching one that a cancel could bring back (R24, R152). -/
def Context.streamRoom (c : Context) (sb : Bool) : Bool :=
  let st := if sb then c.be.sb else c.be.sa
  let cons := match c.fl.issued with
    | i :: _ => if sb then i.undo.sbConsumer else i.undo.saConsumer
    | [] => st.consumer
  decide ((st.produced - cons).toNat < 512)

/-- Number of a context's list in the round robin of a channel. -/
def Context.listNo (c : Context) : Nat := match c.slot with | some i => i | none => 4

/-- The head of the list is served next without anything to wait for: its chunk's reads are performed, a stream has room for its
beat, an ADDW's row is still to be made ready. A waiting operation stops only its own list (R141). -/
def Context.canServe (c : Context) (ch : Nat) : Bool :=
  match c.copyHead ch with
  | none => false
  | some o =>
    o.state == .running && c.sch.preempt != some .rollback &&
      (if o.op = 3 ∨ o.op = 4 then c.streamRoom (o.w.ss == 1)
       else if o.op = 1 ∨ o.op = 2 then o.gathered o.done
       else if o.op = 6 then o.put.isEmpty && o.gathered o.done
       else true)

/-- A FEED in the midst of a chunk of its beats: the chunk is served before the turn passes (R141). -/
def Context.midChunk (c : Context) (ch : Nat) : Bool :=
  match c.copyHead ch with
  | none => false
  | some o =>
    let size := beatBytes o.w.fmt.toNat
    decide (o.op = 3 ∨ o.op = 4) && decide (0 < o.beats ∧ o.beats * size / 256 = (o.beats - 1) * size / 256) && c.canServe ch

/-- The context of a list of a core. -/
def State.listCtx (s : State) (core i : Nat) : Option Context :=
  if i < 4 then (SMap.find (s.core core).slots i).bind s.ctx else s.ctx (firmwareKey core)

/-- Lists of the channel from the one whose turn is first (R353). -/
def State.listOrder (s : State) (core ch : Nat) : List Nat :=
  let last := SMap.getD (s.core core).chanLast ch 4
  let mid := match s.listCtx core last with | some c => c.midChunk ch | none => false
  (List.range 5).map (fun j => ((if mid then last else last + 1) + j) % 5)

/-- The list of the context may be served: every list before it in the round robin has something to wait for. -/
def State.chanTurn (s : State) (c : Context) (ch : Nat) : Bool :=
  ((s.listOrder c.coreKey ch).takeWhile (fun i => decide (i ≠ c.listNo))).all fun i =>
    match s.listCtx c.coreKey i with | some d => !d.canServe ch | none => true

/-- The channel has moved that many bytes, a line in a core cycle (R142). -/
def Core.hasMoved (r : Core) (ch bytes : Nat) : Bool := decide ((bytes + 63) / 64 ≤ SMap.getD r.chanLines ch 0)

/-- The channel has served a list. -/
def State.serveList (s : State) (c : Context) (ch : Nat) : State :=
  s.updCore c.coreKey (fun r => { r with chanLast := SMap.put r.chanLast ch c.listNo, chanLines := SMap.put r.chanLines ch 0, chanAt := SMap.drop r.chanAt ch })

/-- Bytes of the next chunk of the operation. -/
def CopyOp.chunkBytes (o : CopyOp) : Nat := min 256 (o.total - o.done * 256)

/-- The channel has something to move in a core cycle (R26, R142). -/
def State.chanMoves (s : State) (core ch : Nat) : Bool :=
  decide (SMap.getD (s.core core).chanLines ch 0 < 4) && s.contexts.any (fun p => decide (p.2.coreKey = core) &&
    (match p.2.copyHead ch with
      | some o => p.2.canServe ch || (o.state == .running && decide (o.op = 1 ∨ o.op = 2 ∨ o.op = 6))
      | none => false))

/-! ### Steps of the copy unit -/

/-- A step of a channel: the head of the context's list on it, in a core cycle that is no freeze cycle (R27, R142), and not
of a context chosen for rollback (R278). -/
def atChannel (s : State) (k ch : Nat) (f : Context → CopyOp → State) : Out :=
  match s.ctx k with
  | none => .next s
  | some c => match c.copyHead ch with
    | none => .next s
    | some o =>
      .next (if (s.core c.coreKey).frozen || (s.core c.coreKey).retired || c.sch.preempt == some .rollback || decide (o.idx = 0) then s
        else f c o)

/-- A MEM PHASE of this or an earlier bundle has not completed (R39). -/
def Context.phaseBefore (c : Context) (idx : Nat) : Bool :=
  c.ord.phases.any (fun p => match p.owner with | .mem i => decide (i ≤ idx) | _ => false)

/-- Address a frost ring entry names for a copy operation: its first element's, zero where it has none (R334). -/
def CopyOp.frostVa (o : CopyOp) : Word :=
  if o.op = 1 ∨ o.op = 2 ∨ o.op = 5 ∨ o.op = 6 then o.zrel + nestField o.nest 0 else 0

/-- COPY_OP_BEGIN (R141): the head of the list has committed; its record names it. -/
def execCopyOpBegin (k ch : Nat) (s : State) : Out :=
  atChannel s k ch fun c o =>
    if o.committed && o.state == .queued && !c.phaseBefore o.idx && !c.isFrozen then
      (s.setCtx k ((c.setOp { o with state := .running }).updStat ch fun r => { r with
        state := 1, retries := 0, pc := o.pc, seq := o.seq, wp := 0, token := o.w.tok, op := o.op })).frostIn k 3
        (frostMem o.op 0 3 o.frostVa) (3 + ch)
    else s

/-- COPY_CHUNK (R40, R141, R146): the next chunk is delivered, an ADDW's row is made ready, an RPUT's fragment leaves; or one access
of a chunk still to be delivered is performed early: a read, by its number, or a write of a DRAIN, 1,024 times its chunk and its
number in the chunk. -/
def execCopyChunk (k ch : Nat) (ahead : Option Nat) (s : State) : Out :=
  atChannel s k ch fun c o =>
    if o.state != .running || decide (o.op = 3 ∨ o.op = 4) || c.loadsBefore o.idx then s
    else match ahead with
      | some n =>
        if o.op = 5 then
          (if o.done ≤ n / 1024 ∧ n / 1024 < o.chunks then s.writeAhead k ch c o (n / 1024) (n % 1024) else s)
        else if (List.range o.done).any (fun d => (o.chunkReads d).contains n) then s
        else s.readAhead k ch c o n
      | none =>
        if !s.chanTurn c ch || !(s.core c.coreKey).hasMoved ch o.chunkBytes then s
        else
          let s1 := s.serveList c ch
          let (o1, f) := CopyOp.gather s c o o.done
          match f with
          | some f => s1.suspendCopy k o1 suspXlate f
          | none =>
            if o.op = 1 ∨ o.op = 2 then s1.deliverFill k c o1
            else if o.op = 5 then s1.deliverDrain k c o1
            else if o.op = 6 then s1.setCtx k (c.setOp { o1 with put := [o.done] })
            else s1.sendFragment k c o1

/-- The bytes of a FEED's or FEEDT's next beat, with poison (R152). -/
def feedBeat (s : State) (c : Context) (o : CopyOp) : List (Byte × Bool) :=
  let b := (nestField o.nest 0).toNat + o.beats
  let size := beatBytes o.w.fmt.toNat
  if o.op = 3 then tileData s c o.buf o.w.tile.toNat (b * size) size
  else (List.range 64).flatMap (fun m => tileData s c o.buf o.w.tile.toNat (256 * m + b * (size / 64)) (size / 64))

/-- FEED_BEAT_LAND (R152). -/
def execFeedBeatLand (k ch : Nat) (s : State) : Out :=
  atChannel s k ch fun c o =>
    let r := s.core c.coreKey
    if o.state != .running || !decide (o.op = 3 ∨ o.op = 4) || !c.streamRoom (o.w.ss == 1) || !s.chanTurn c ch ||
        !r.hasMoved ch (beatBytes o.w.fmt.toNat) || r.beatLanded.getLsbD ch then s
    else
      let d := feedBeat s c o
      let psn := d.any (·.2)
      let beat : Beat := { data := BitVec.ofNat 2048 (leNat (d.map (·.1))), tag := o.w.fmt, poison := psn }
      let land (st : Stream) : Stream :=
        { st with slots := SMap.put st.slots (st.produced.toNat % 512) beat, produced := st.produced + 1 }
      let b := (nestField o.nest 0).toNat + o.beats
      let off := if o.op = 3 then b * beatBytes o.w.fmt.toNat else b * (beatBytes o.w.fmt.toNat / 64)
      let o' := { o with beats := o.beats + 1 }
      let c1 := (c.applyBe o.idx fun b => if o.w.ss = 1 then { b with sb := land b.sb } else { b with sa := land b.sa }).setOp o'
      let c2 := (c1.countChunk ch 0 (if psn then 1 else 0) false).updStat ch fun r => { r with wp := BitVec.ofNat 32 o'.wp }
      let s0 := (s.serveList c ch).updCore c.coreKey (fun r => { r with beatLanded := r.beatLanded ||| BitVec.ofNat 4 (2 ^ ch) })
      let s1 := (s0.setCtx k c2).chunkOor k o off
      if nestBound o.nest 0 ≤ o'.beats then s1.completeCopy k o' else s1

/-! ### ADDW (R154, R155) -/

/-- Sum of a C element and a source element: bits and whether it saturated. -/
def addwSum (int : Bool) (a b : Nat) : Nat × Bool :=
  if int then
    let (x, c) := clampTo true 32 (intOf true 32 a + intOf true 32 b)
    (wrapTo 32 x, c)
  else ((fmtF32.finish (fadd 0 (fmtF32.decode a) (fmtF32.decode b)) 0 false).1, false)

/-- One 64-byte line of a row with its sixteen sums; a clipped element adds nothing. -/
def addwLine (o : CopyOp) (row part : Nat) (old : BufLine) (d : List (Byte × Bool)) : BufLine × Bool :=
  let xs := (List.range 16).map (fun j =>
    let src := (d.drop (64 * part + 4 * j)).take 4
    let c := lane old.data 32 j
    if nestClipped o.nest (nestIdx o.nest (64 * row + 16 * part + j)) then (c, false, false)
    else
      let (v, sat) := addwSum (o.w.fmt == 5) c (leNat (src.map (·.1)))
      (v, sat, src.any (·.2)))
  ({ data := ofLanes 32 (xs.map (·.1)), poison := old.poison || xs.any (·.2.2) }, xs.any (·.2.1))

/-- A row is added into the tile, with status and flags (R154, R191). -/
def State.addRow (s : State) (k : Nat) (c : Context) (o : CopyOp) (row : Nat) (d : List (Byte × Bool)) : State :=
  let tile := o.w.tile.toNat
  let line (i : Nat) : BufLine × Bool := addwLine o row i (s.readLine c 2 tile (4 * row + i)) d
  let sat := (List.range 4).any (fun i => (line i).2)
  let s1 := (List.range 4).foldl (fun s i =>
    s.writeLine k o.idx 2 tile (4 * row + i) (fun old => (addwLine o row i old d).1)) s
  let s2 := s1.setStatus k o.idx tile (fun b => b / 2 * 2 % 256 + (if o.w.fmt = 5 then 1 else 0) ||| (if sat then 2 else 0))
  (if sat then s2.updCtx k (fun c => c.applyBe o.idx (fun b => b.orVflags flSATF)) else s2).chunkOor k o (256 * row)

/-- SCHEDV (R155): the row is not written, the operation suspends, the bundle fault is taken by R24 and replays nothing. -/
def State.schedv (s : State) (k : Nat) (o : CopyOp) : State :=
  (s.suspendCopy k o suspSchedv ⟨0, 0⟩).updCtx k fun c =>
    let c1 := c.cancelFrom c.committedBelow
    let e : QEntry :=
      { isDesc := true, header := 0, words := [], pc := o.pc, seq := o.seq, nest := [], reps := 0, after := c1.thread, marks := false,
        skip := 0, seen := none }
    { c1 with
      fl := { c1.fl with replay := some { entry := e, paging := false } }
      beFrozen := true, bundleTrap := true
      thread := { c1.thread.setBf e { slot := 2, cause := bSCHEDV, sub := 0, addr := 0 } with bfperf := 0x7F } }

/-- ADDW_ROW_WRITE (R155): in a core cycle in which its port slot is open, its next row; SCHEDV where the slot is not reserved and the
matrix engine writes the bank in that cycle. -/
def execAddwRowWrite (k ch row : Nat) (s : State) : Out :=
  atChannel s k ch fun c o =>
    let r := s.core c.coreKey
    let bank := (winBase c.id.winC + o.w.tile.toNat) % 4
    match r.ctxNow with
    | none => s
    | some (k', n) =>
      if k' ≠ k ∨ o.op ≠ 6 ∨ o.state ≠ .running ∨ o.done ≠ row ∨ !o.put.contains row ∨ n % 4 ≠ o.w.port.toNat ∨ o.beats = n + 1 then s
      else if !c.be.ports.getLsbD (4 * bank + o.w.port.toNat) && decide (o.w.tile.toNat < winLimit c.id.winC) && r.bankWrites.getLsbD bank then
        s.schedv k o
      else
        let x := chunkOf s c o row
        let o' := { o with beats := n + 1, put := [] }
        ((s.addRow k c o row x.data).updCtx k (fun c =>
          (c.setOp o').countChunk ch x.clipped (poisonedLines x.data) false)).chunkDone k o'

/-! ### RPUT fragments (R157, R158, R273) -/

/-- A fragment as it travels. -/
structure Fragment where
  dest : Nat
  gang : BitVec 20
  countOnly : Bool
  off : Nat
  data : List (Byte × Bool)
  barrier : Option Loc
  sender : Nat

def CopyOp.fragment (o : CopyOp) (k : Nat) (c : Context) : Fragment :=
  let d := o.sent
  { dest := (nestField o.nest 24).toNat % 2 ^ 25, gang := c.id.gang,
    countOnly := (List.range d.length).all (fun i => o.rputClip o.done i),
    off := (nestField o.nest 25).toNat + 256 * o.done, data := d, barrier := o.barrier, sender := k % 2 ^ 25 }

/-- Poison bits of the payload's lines. -/
def Fragment.poisonBits (f : Fragment) : Nat :=
  (List.range 4).foldl (fun a i => if ((f.data.drop (64 * i)).take 64).any (·.2) then a + 2 ^ i else a) 0

/-- The 32-byte fragment header (R157). -/
def Fragment.header (f : Fragment) : List Byte :=
  let bar := f.barrier.isSome
  leBytes 4 f.dest ++ leBytes 4 (f.gang.toNat + (if f.countOnly then 2 ^ 20 else 0) + (if bar then 2 ^ 21 else 0)) ++
  leBytes 4 f.off ++ leBytes 2 f.data.length ++ leBytes 2 f.poisonBits ++
  leBytes 8 (match f.barrier with | some l => l.pa + l.home * 2 ^ 52 | none => 0) ++ leBytes 4 f.sender ++
  leBytes 4 (match f.barrier with | some l => l.pkg | none => 0)

/-- Fragment bytes into the receiver's F window at a window offset; a fragment counts as issued before every marker (R158,
R276). -/
def State.writeWindow (s : State) (k off : Nat) (b : List Byte) (poisonBits : Nat) : State :=
  (List.range ((b.length + 63) / 64)).foldl (fun s i =>
    let at_ := off + 64 * i
    let l := (b.drop (64 * i)).take 64
    let mask := byteMask 0 l.length
    ((s.writeLine k 0 0 (at_ / 16384) (at_ % 16384 / 64)
      (fun old => old.merge mask (lineOfBytes l) (poisonBits.testBit i))).tileOor k 0 0 (at_ / 16384) (at_ % 16384 / 256) (at_ % 256))) s

/-- The landing descriptor of a context table entry (R272). -/
def State.landDesc (s : State) (k : Nat) : Word := SMap.getD (s.die (k / 1024)).landDescs (k % 1024) 3
/-- The ring a descriptor gives: entries, existence, the address of an entry (R272, R273). -/
def ringLog2n (desc : Word) : Nat := desc.toNat % 32
def ringValid (desc : Word) : Bool := desc.getLsbD 5 && decide (3 ≤ ringLog2n desc ∧ ringLog2n desc ≤ 16)
def ringEntryPa (desc : Word) (i : BitVec 32) : Nat := desc.toNat % 2 ^ 52 / 4096 * 4096 + 320 * (i.toNat % 2 ^ ringLog2n desc)
/-- An arrival is refused: the ring does not exist, or is full (R273). -/
def LandRing.isFull (r : LandRing) (desc : Word) : Bool := !ringValid desc || decide ((r.tail - r.head).toNat = 2 ^ ringLog2n desc)

/-- LANDING_APPEND (R273). -/
def State.appendLanding (s : State) (k : Nat) (c : Context) (f : Fragment) : State :=
  let d := s.die c.die
  let at_ := ringEntryPa (s.landDesc k) c.land.tail
  let head := f.header ++ leBytes 8 d.landSeq.toNat ++ leBytes 4 (d.dieCycle.toNat % 2 ^ 32) ++ leBytes 20 0
  let s1 := s.homeWriteBytes c.pkg at_ head false false
  let s2 := if f.countOnly then s1 else
    (List.range ((f.data.length + 63) / 64)).foldl (fun s i =>
      let l := (f.data.drop (64 * i)).take 64
      s.homeWriteBytes c.pkg (at_ + 64 + 64 * i) (l.map (·.1)) (l.any (·.2)) false) s1
  (s2.updDie c.die (fun d => { d with landSeq := d.landSeq + 1 })).updCtx k (fun c =>
    { c with land := { c.land with tail := c.land.tail + 1 } })

/-- An arrival is counted in the scheduler's next die cycle (R267). -/
def State.arrival (s : State) (die : Nat) (tenant : BitVec 16) (gang : BitVec 20) (accepted : Bool) : State :=
  s.updDie die (fun d => { d with arrivals := d.arrivals ++ [(tenant, gang, accepted)] })

/-- Arrivals for the context go to its window (R158, R274): not from the step that chose its rollback on (R278 step 1). -/
def Context.takesDirectly (c : Context) : Bool :=
  c.status == .resident && !c.land.replaying && c.sch.preempt != some .rollback && c.land.head == c.land.tail

/-- What the receiver's die does with a fragment: the state, whether it accepts, whether it answers RETRY (R158). -/
def State.receive (s : State) (tenant : BitVec 16) (f : Fragment) : State × Bool × Bool :=
  match s.reachable f.dest tenant, s.ctx f.dest with
  | some _, _ => (s, false, false)
  | none, none => (s, false, false)
  | none, some c =>
    let b := if f.countOnly then List.replicate f.data.length 0 else f.data.map (·.1)
    if c.takesDirectly && !s.onRetired c then
      let s1 := s.writeWindow f.dest f.off b f.poisonBits
      let s2 := match f.barrier with
        | some l => { s1 with credits := s1.credits ++ [({ loc := l, bytes := f.data.length, poison := decide (f.poisonBits ≠ 0) } : Credit)] }
        | none => s1
      (s2.arrival c.die tenant f.gang true, true, false)
    else if c.land.isFull (s.landDesc f.dest) then
      ((s.setCtx f.dest { c with land := { c.land with refusedSince := c.land.refusedSince || c.status != .resident } }).arrival c.die tenant f.gang false,
        false, true)
    else ((s.appendLanding f.dest c f).arrival c.die tenant f.gang true, true, false)

/-- FRAGMENT_ARRIVAL (R158): at the receiver's die. -/
def execFragmentArrival (k ch : Nat) (s : State) : Out :=
  match s.ctx k with
  | none => .next s
  | some c => match c.copyHead ch with
    | none => .next s
    | some o =>
      if o.state != .sent || s.apart c (dieOfCtx (o.fragment k c).dest) then .next s
      else
        let (s1, acc, retry) := s.receive c.id.tenant (o.fragment k c)
        .next (s1.updCtx k (fun c => c.setOp { o with state := .answered acc retry }))

/-- FRAGMENT_RESPONSE (R158): acceptance delivers the chunk; a RETRY backs the list off; a rejection suspends. -/
def execFragmentResponse (k ch : Nat) (s : State) : Out :=
  atChannel s k ch fun c o =>
    match o.state with
    | .answered true _ =>
      let n := ((List.range o.sent.length).filter (fun i => decide (i % nestElemSize o.nest = 0) && o.rputClip o.done i)).length
      (s.setCtx k (c.countChunk ch n (poisonedLines o.sent) false)).chunkDone k o
    | .answered false true =>
      let n := o.retries + 1
      let o' := { o with retries := n, state := .backoff n ((s.core c.coreKey).cycle.toNat + 256 * 2 ^ min n 8) }
      s.setCtx k ((c.setOp o').updStat ch fun r => { r with
        state := 3, retries := BitVec.ofNat 32 n, retryTotal := satAdd64 r.retryTotal 1 })
    | .answered false false => s.suspendCopy k o suspRputdst ⟨0, 0⟩
    | _ => s

/-- RPUT_BACKOFF_EXPIRY (R158): the same fragment is sent again. -/
def execRputBackoffExpiry (k ch : Nat) (s : State) : Out :=
  atChannel s k ch fun c o =>
    match o.state with
    | .backoff _ until_ =>
      if until_ ≤ (s.core c.coreKey).cycle.toNat then
        s.setCtx k ((c.setOp { o with state := .sent }).updStat ch fun r => { r with state := 1 })
      else s
    | _ => s

/-! ### CRESM, CCLR (R161, R162) -/

/-- Restarts a suspended operation at its cursor; the fault queue has no more to do with it. -/
def Context.resumeCopy (c : Context) (ch : Nat) : Context :=
  match c.copyHead ch with
  | some o => if o.state == .suspended then (c.setOp { o with state := .running }).updStat ch (fun r => { r with state := 1 }) else c
  | none => c

/-- What an aborted operation leaves of its undelivered chunks: each byte old or new, each write applied or not (R162). -/
def State.abortLeftovers (s : State) (k : Nat) (o : CopyOp) : State :=
  if o.state == .queued || decide (o.op = 3 ∨ o.op = 4 ∨ o.idx = 0) then s
  else
    (List.range (o.chunks - o.done)).foldl (fun s j =>
      let ch := o.done + j
      let pick (i : Nat) : Bool := Config.freeBool s.freeCount ((k * 2 ^ 20 + o.id) * 2 ^ 20 + 256 * ch + i)
      match s.ctx k with
      | none => s
      | some c =>
        let (o, f) := CopyOp.gather s c o ch
        let x := chunkOf s c o ch
        if f.isSome then s
        else if o.op = 1 ∨ o.op = 2 then s.fillTile k o ch x.data pick
        else if o.op = 5 then
          let lines := (drainWrites s c o x.data ch).2
          let applied (i : Nat) : Bool := Config.freeBool s.freeCount ((k * 2 ^ 20 + o.id) * 2 ^ 20 + 1024 * ch + i)
          ((List.range lines.length).zip lines).foldl (fun s l =>
            if applied l.1 && !o.put.contains (drainNo ch l.2) then s.drainLine k o.idx l.2 else s) s
        else if o.op = 6 then (if pick 0 then s.addRow k c o ch x.data else s)
        else s) s

/-- A fragment on its way still arrives. -/
def State.lastFragment (s : State) (k : Nat) (c : Context) (o : CopyOp) : State :=
  if o.state == .sent && !s.apart c (dieOfCtx (o.fragment k c).dest) then (s.receive c.id.tenant (o.fragment k c)).1 else s

/-- Aborts one operation. -/
def State.abortCopy (s : State) (k : Nat) (o : CopyOp) : State :=
  match s.ctx k with
  | none => s
  | some c0 =>
    let c := c0.performBefore s o.idx
    (((s.setCtx k c).lastFragment k c o).abortLeftovers k o).updCtx k (fun c =>
      let c1 := c.endCopy o
      if o.state == .queued then c1 else c1.updStat o.w.ch.toNat (fun r => { r with state := 0 }))

/-- Aborts the context's incomplete operations on a channel whose bundles have committed. -/
def State.clearChannel (s : State) (k ch : Nat) : State :=
  match s.ctx k with
  | none => s
  | some c => (c.fl.copyOps.filter (fun o => o.committed && decide (o.w.ch.toNat = ch))).foldl (fun s o => s.abortCopy k o) s

end Sys2Proof.Machine
end

