-- ==== Sys2Proof/Machine/Place.lean ====
section
/-! DEFINITION. Task graphs: static shares, the placement of their tasks, stealing (R10, R11, R13, R14, R266, R291, R292). -/

namespace Sys2Proof.Machine

/-- One of several the spec leaves open (log entry 6). -/
def pickFree {α : Type} (s : State) (tag : Nat) : List α → Option α
  | [] => none
  | [x] => some x
  | x :: l => some (((x :: l)[Config.freeNat s.freeCount tag % (l.length + 1)]?).getD x)

/-! ### The model-slot record (R291) -/

def recField (r : List Byte) (off n : Nat) : Nat := leNat ((r.drop off).take n)
def modelFlags (r : List Byte) : Nat := recField r 0 4
def modelTemplSize (r : List Byte) : Nat := recField r 4 4
def modelPc (r : List Byte) : Word := BitVec.ofNat 64 (recField r 8 8 + recField r 16 8)
def modelTemplPa (r : List Byte) : Nat := recField r 24 8 % 2 ^ 52
def modelNestPa (r : List Byte) : Nat := recField r 32 8 % 2 ^ 52
def modelNestSize (r : List Byte) : Nat := recField r 40 4
def modelWin (r : List Byte) (buf : Nat) : Nat := recField r (44 + buf) 1
def modelMtx (r : List Byte) : Bool := (modelFlags r).testBit 3

/-! ### Cores of a partition (R13, R292) -/

/-- The core has a slot the program's tasks could use; a retired core has none (R282). -/
def Core.takes (r : Core) (part : Nat) (record : List Byte) : Bool :=
  !r.retired && (List.range 4).any (r.fits part (modelWin record 0) (modelWin record 1) (modelWin record 2))

def dieCores (die : Nat) : List Nat := (List.range 64).map (64 * die + ·)

/-- cores_d of R13: none on a die without the matrix engine type where the program uses it (R292). -/
def State.coresOf (s : State) (die part : Nat) (record : List Byte) : List Nat :=
  if modelMtx record && !((s.die die).part part).eng.getLsbD 0 then []
  else (dieCores die).filter (fun k => (s.core k).takes part record)

/-- Static shares (R13): numbers of tasks per die, from the cores of each die. -/
def shareSizes (n : Nat) (cores : List Nat) : List Nat :=
  let total := cores.foldl (· + ·) 0
  let floors := cores.map (fun c => if total = 0 then 0 else n * c / total)
  let rest := n - floors.foldl (· + ·) 0
  ((floors.zip cores).foldl (fun (a : List Nat × Nat) x =>
    if 0 < x.2 ∧ 0 < a.2 then (a.1 ++ [x.1 + 1], a.2 - 1) else (a.1 ++ [x.1], a.2)) ([], rest)).1

/-- The shares laid out in increasing die number from index 0; a die without cores has none. -/
def layShares (cores sizes : List Nat) : SMap (Nat × Nat) :=
  ((cores.zip (sizes.zip (List.range cores.length))).foldl (fun (a : SMap (Nat × Nat) × Nat) x =>
    if x.1 = 0 then a else (a.1 ++ [(x.2.2, (a.2, a.2 + x.2.1))], a.2 + x.2.1)) ([], 0)).1

/-! ### Context table entries and fairness records (R9, R266) -/

/-- Entries of a die's context table a placement may take: unallocated ones, else those of HALTED contexts (log entry 23). -/
def State.freeEntries (s : State) (die : Nat) : List Nat :=
  let keys := (List.range 1024).map (1024 * die + ·)
  let free := keys.filter (fun k => (s.ctx k).isNone)
  if free.isEmpty then keys.filter (fun k => match s.ctx k with | some c => c.status == .halted | none => false) else free

def State.entriesLeft (s : State) (die : Nat) : Nat :=
  (((List.range 1024).map (1024 * die + ·)).filter (fun k =>
    match s.ctx k with | some c => c.status == .halted | none => true)).length

/-- A context of a gang is placed on the die: its record counts it, a new record where it is the first (R266). -/
def Die.joinGang (d : Die) (s : State) (tenant : BitVec 16) (gang : BitVec 20) : Die :=
  if gang = 0 then d
  else
    let w := 2 ^ d.wlog
    let rec_ : Option (Nat × FairRec) := match d.recordOf tenant gang with
      | some i => some (i, SMap.getD d.fair i FairRec.empty)
      | none =>
        (pickFree s 0 ((List.range 1024).filter (fun i => !(SMap.getD d.fair i FairRec.empty).valid))).map (fun i =>
          (i, { FairRec.empty with valid := true, gang := gang, tenant := tenant, wstart := BitVec.ofNat 64 (d.dieCycle.toNat / w * w) }))
    match rec_ with
    | some (i, r) => { d with fair := SMap.put d.fair i { r with contexts := r.contexts + 1 } }
    | none => d

/-- A context of a gang is HALTED, DEAD, or leaves the table (R266): with the last one the record is free, and its counts read on
until it is allocated again (R321). -/
def Die.leaveGang (d : Die) (tenant : BitVec 16) (gang : BitVec 20) : Die :=
  match d.recordOf tenant gang with
  | none => d
  | some i =>
    let r := SMap.getD d.fair i FairRec.empty
    { d with fair := SMap.put d.fair i { r with valid := decide (1 < r.contexts.toNat), contexts := r.contexts - 1 } }

/-! ### Placing a task (R14, R292) -/

/-- Descriptors from the `.nestinit` image (R87): complete records of 32 doublewords, fields 0 to 26. DESIGN CHOICE (log entry 21):
a doubleword is loaded whole, also one outside its field's range in R122, whose uses take the field's bits; poison of the image
is not carried. -/
def State.nestInit (s : State) (pkg : Nat) (record : List Byte) : SMap Word :=
  let n := min 16 (modelNestSize record / 256)
  (List.range n).flatMap (fun i => (List.range 27).map (fun f =>
    (32 * i + f, s.home64 pkg (modelNestPa record + 256 * i + 8 * f))))

def State.identOf (s : State) (key : Nat) (g : Graph) (gid index : Nat) : Ident where
  ctxid := BitVec.ofNat 25 key
  tenant := ((s.die g.queueDie).part g.part).tenant
  gang := g.gang
  taskidx := BitVec.ofNat 24 index
  taskcnt := BitVec.ofNat 25 g.n
  part := g.part
  basePrio := g.prio
  s1root := some g.root
  graph := gid
  templPa := modelTemplPa g.record
  templSize := modelTemplSize g.record
  zrel := (List.range g.z.length).zip g.z
  winF := BitVec.ofNat 64 (modelWin g.record 0 * 256)
  winW := BitVec.ofNat 64 (modelWin g.record 1 * 256)
  winC := BitVec.ofNat 64 (modelWin g.record 2 * 256)

/-- Task `index` of a graph takes a table entry of a die in state NEW, on a core (R292). -/
def State.placeTask (s : State) (die gid : Nat) (g : Graph) (index core : Nat) : State :=
  match pickFree s (4 * index + 1) (s.freeEntries die) with
  | none => s
  | some key =>
    let c := Context.start (s.identOf key g gid index) (modelPc g.record) core
    let now := (s.core core).cycle.toNat
    let c1 := { c with be := { c.be with nests := s.nestInit (pkgOfDie die) g.record }
                       sch := { c.sch with wantingSince := some now, coldSince := now } }
    (s.setCtx key c1).updDie die (fun d => d.joinGang s ((s.die g.queueDie).part g.part).tenant g.gang)

/-- Empty usable slots of a core beyond the NEW or wanting contexts of the partition that could fill one of them (R14). -/
def State.hasRoom (s : State) (core : Nat) (g : Graph) : Bool :=
  let r := s.core core
  let free := (List.range 4).filter (fun i => r.slotFree i &&
    r.fits g.part (modelWin g.record 0) (modelWin g.record 1) (modelWin g.record 2) i)
  let waiting := s.contexts.filter (fun p =>
    decide (p.2.coreKey = core ∧ p.2.id.part = g.part) && s.wants p.2 && free.any (r.usable p.2))
  decide (waiting.length < free.length)

/-- Unplaced range of a die number in a graph. -/
def Graph.share (g : Graph) (n : Nat) : Nat × Nat := SMap.getD g.shares n (0, 0)
def Graph.left (g : Graph) (n : Nat) : Nat := (g.share n).2 - (g.share n).1
def State.setGraph (s : State) (gid : Nat) (g : Graph) : State := { s with graphs := SMap.put s.graphs gid g }

/-- Cores of a die that can take the next task of a graph now. -/
def State.roomCores (s : State) (die : Nat) (g : Graph) : List Nat :=
  (s.coresOf die g.part g.record).filter (fun k => s.hasRoom k g)

/-- TASK_PLACE (R14): the die places the next task of one of its shares, at most one in a die cycle. -/
def State.placeNext (s : State) (die : Nat) : State :=
  let mine := s.graphs.filter (fun p => decide (pkgOfDie p.2.queueDie = pkgOfDie die) && p.2.started &&
    decide (0 < p.2.left (die % 8)) && !(s.roomCores die p.2).isEmpty)
  if (s.freeEntries die).isEmpty then s
  else match pickFree s 2 mine with
    | none => s
    | some (gid, g) =>
      match pickFree s 3 (s.roomCores die g) with
      | none => s
      | some core =>
        let (lo, hi) := g.share (die % 8)
        (s.placeTask die gid g lo core).setGraph gid { g with shares := SMap.put g.shares (die % 8) (lo + 1, hi) }

/-- PERSIST: a die places its whole share at once, on cores the spec leaves open (R292). -/
def State.placeShare (s : State) (die gid : Nat) (g : Graph) : State :=
  let (lo, hi) := g.share (die % 8)
  (List.range (hi - lo)).foldl (fun s i =>
    match pickFree s (4 * (lo + i) + 3) (s.coresOf die g.part g.record) with
    | some core => s.placeTask die gid g (lo + i) core
    | none => s) s

/-! ### Stealing (R14) -/

/-- Mark in Graph.tried of a die that has stopped stealing. -/
def stoppedMark : Nat := 8

/-- Whom a die without unplaced indices asks: the die with the most, ties to the lowest number, of those it has not asked in vain. -/
def Graph.victim (g : Graph) (me : Nat) : Option Nat :=
  let ds := g.shares.filter (fun p => decide (p.1 ≠ me) && !g.tried.contains (me, p.1))
  (ds.foldl (fun (b : Option (Nat × Nat)) p =>
    let n := p.2.2 - p.2.1
    match b with
    | some (_, m) => if m < n then some (p.1, n) else b
    | none => some (p.1, n)) none).map (·.1)

/-- A thief sends its next request, number `seq`; it stops once every die reports fewer than two unplaced indices. -/
def Graph.thief (g : Graph) (me seq : Nat) : Graph :=
  if g.persist || !g.started || !(SMap.find g.shares me).isSome || 0 < g.left me || g.tried.contains (me, stoppedMark) ||
      g.steals.any (fun x => decide (x.thief = me)) then g
  else if g.shares.all (fun p => decide (p.2.2 - p.2.1 < 2)) then { g with tried := g.tried ++ [(me, stoppedMark)] }
  else match g.victim me with
    | some v => { g with steals := g.steals ++ [{ thief := me, victim := v, seq := seq, answer := none }] }
    | none => { g with tried := g.tried.filter (fun x => decide (x.1 ≠ me)) }

def State.sendSteals (s : State) (die : Nat) : State :=
  { s with graphs := s.graphs.map (fun p =>
      if pkgOfDie p.2.queueDie = pkgOfDie die then (p.1, p.2.thief (die % 8) s.moves) else p) }

/-- A request gets its answer: the upper half of what the victim still holds. -/
def Graph.answer (g : Graph) (x : Steal) : Graph :=
  let (lo, hi) := g.share x.victim
  let k := if hi - lo < 2 then 0 else (hi - lo) / 2
  { g with
    shares := SMap.put g.shares x.victim (lo, hi - k)
    steals := g.steals.map (fun y => if y = x then { x with answer := some (hi - k, hi) } else y) }

/-- Requests of all task graphs of the package that wait at a die: graph number, graph, request. -/
def State.stealRequests (s : State) (die : Nat) : List (Nat × Graph × Steal) :=
  s.graphs.flatMap (fun p => if pkgOfDie p.2.queueDie = pkgOfDie die then
    (p.2.steals.filter (fun x => decide (x.victim = die % 8) && x.answer.isNone)).map (fun x => (p.1, p.2, x)) else [])

/-- The first in arrival order. -/
def firstSteal : List (Nat × Graph × Steal) → Option (Nat × Graph × Steal)
  | [] => none
  | x :: rest => match firstSteal rest with
    | none => some x
    | some y => if y.2.2.seq < x.2.2.seq then some y else some x

/-- STEAL_REQUEST (R14): the victim's scheduler serves one request, the first to arrive for any task graph. -/
def execStealRequest (die : Nat) (s : State) : Out :=
  match firstSteal (s.stealRequests die) with
  | none => .next s
  | some (gid, g, x) => .next (s.setGraph gid (g.answer x))

/-- The thief takes a stolen range as its own share, or notes an empty one. -/
def Graph.takeAnswer (g : Graph) (me : Nat) : Graph :=
  match g.steals.find? (fun x => decide (x.thief = me) && x.answer.isSome) with
  | some x =>
    let (lo, hi) := x.answer.getD (0, 0)
    let g1 := { g with steals := g.steals.filter (fun y => decide (y.thief ≠ me)) }
    if lo < hi then
      { g1 with shares := SMap.put g1.shares me (lo, hi), tried := g1.tried.filter (fun y => decide (y.1 ≠ me ∨ y.2 = stoppedMark)) }
    else { g1 with tried := g1.tried ++ [(me, x.victim)] }
  | none => g

/-- STEAL_ANSWER (R14). -/
def execStealAnswer (die : Nat) (s : State) : Out :=
  .next { s with graphs := s.graphs.map (fun p =>
    if pkgOfDie p.2.queueDie = pkgOfDie die then (p.1, p.2.takeAnswer (die % 8)) else p) }

end Sys2Proof.Machine
end

