-- ==== Sys2Proof/Machine/Agents.lean ====
section
/-! DEFINITION. What agents without a context share: their accesses by the fill rule, reads of tables of system software,
interrupts they set (R40, R49, R137, R165, R338). -/

namespace Sys2Proof.Machine

/-- An agent of a die that uses a stage-1 root and a partition's stage 2, in the place of a context; no core's TLB serves it. -/
def agentCtx (die part root : Nat) : Context :=
  let c := Context.start
    { ctxid := 0, tenant := 0, gang := 0, taskidx := 0, taskcnt := 0, part := part, basePrio := 0, s1root := some root, graph := 0,
      templPa := 0, templSize := 0, zrel := [], winF := 0, winW := 0, winC := 0 } 0 (managementCore die 63)
  { c with management := true }

/-- A read of a range by the fill rule (R40, R49). -/
def readRange (s : State) (c : Context) (va : Word) (n : Nat) : Got :=
  (linePieces va.toNat n).foldl (fun g p =>
    let x := fillRead s c (BitVec.ofNat 64 p.1) p.2
    { bytes := g.bytes ++ x.bytes, fault := lowerFault g.fault x.fault, remote := g.remote || x.remote })
    { bytes := [], fault := none, remote := false }

/-- A read of a range of intermediate addresses through stage 2 alone (R165). -/
def readIpa (s : State) (die part a n : Nat) : Except XFault (List Byte) :=
  let root := SMap.getD (s.die die).s2roots part 0
  (linePieces a n).foldl (fun (acc : Except XFault (List Byte)) p =>
    match acc with
    | .error e => .error e
    | .ok l => match walk2 s (pkgOfDie die) p.1 levels root with
      | .error sub => .error ⟨sub, BitVec.ofNat 64 p.1⟩
      | .ok (loc, _) =>
        if loc.dev then .error ⟨xDEVACC ||| stage2Bit, BitVec.ofNat 64 p.1⟩
        else .ok (l ++ (s.readHomeBytes none loc.pkg loc.pa p.2).map (·.1))) (.ok [])

/-- A user-level interrupt set by a block-transfer template or a collective completion; a refusal posts ULIREF (R166, R319,
R338). -/
def State.agentUli (s : State) (port : FaultPort) (target vector : Nat) (tenant : BitVec 16) (progress : Bool) : State :=
  match (if 2 ^ 25 ≤ target then some 1 else s.reachable target tenant) with
  | some cond => s.post port 12 target (BitVec.ofNat 64 cond) 0
  | none =>
    let s1 := s.setUlipend target vector
    if progress then s1.updCtx target Context.progress else s1

/-- A SIG at SYS from an agent: the signal at its home grows (R252). -/
def State.agentSignal (s : State) (l : Loc) (n : Word) (poison progress : Bool) : State :=
  s.homeWriteBytes l.pkg l.pa (leBytes 8 (s.home64 l.pkg l.pa + n).toNat) poison progress

end Sys2Proof.Machine
end

