-- ==== Sys2Proof/Machine/CopyIssue.lean ====
section
/-! DEFINITION. The CPY slot at issue (R65, R71, R143-R162). -/

namespace Sys2Proof.Machine

/-- The fields of a descriptor as this operation uses them: the base with the step of cpy.nest added (R63). -/
def SlotEnv.nest (env : SlotEnv) (c : Context) (w : CpyWord) : List Word :=
  let n := c.be.nest w.nest.toNat
  (nestField n 0 + env.nestAdd) :: n.tail

/-- A descriptor breaks a size rule of its instruction (R150-R154, R156). -/
def nestBreaks (op : Nat) (w : CpyWord) (n : List Word) : Bool :=
  let b0 := (nestField n 0).toNat
  let cnt := nestBound n 0
  let fmt := w.fmt.toNat
  if op = 1 ∨ op = 5 then decide (nestBytes n ≠ 16384)
  else if op = 2 then
    decide ((List.range 4).any (fun d => decide (nestBound n (d + 2) ≠ 1)) ∨ (fmt = 0 ∧ cnt % 4 ≠ 0) ∨ 16384 < fillsDense fmt n)
  else if op = 3 then decide (512 < cnt ∨ 16384 < (b0 + cnt) * beatBytes fmt)
  else if op = 4 then decide (512 < cnt ∨ (if fmt = 0 then 64 else 128) < b0 + cnt)
  else if op = 6 then decide (nestElemSize n ≠ 4 ∨ nestBytes n ≠ 16384)
  else decide (nestBytes n < 1 ∨ 16384 < nestBytes n ∨ 16384 < b0 + nestBytes n)

/-- The address of an RPUT's barrier; none for the offset −1 (R156). -/
def rputBarrier (zrel : Word) (n : List Word) : Option Word :=
  if nestField n 26 = BitVec.allOnes 64 then none else some (zrel + nestField n 26)

def BackEnd.token (b : BackEnd) (k : Nat) : Nat := SMap.getD b.tokens k 0

/-- A copy operation issues (R141, R143, R147, R149): its checks, its holds, its place in the queue. DESIGN CHOICE (log entry
57): NESTSZ is reported before the OPND of a misaligned barrier. -/
def issueCopy (op : Nat) (w : CpyWord) (s : State) : Out :=
  withSlot s fun env c =>
    let n := env.nest c w
    let z := SMap.getD c.id.zrel ((nestField n 1).toNat % 16) 0
    let buf := if op = 6 then 2 else w.bf.toNat
    let tile := w.tile.toNat
    let bar := if op = 7 then rputBarrier z n else none
    let o : CopyOp :=
      { id := c.fl.nextId, idx := env.idx, op := BitVec.ofNat 6 op, w := w, nest := n, zrel := z, pc := env.pc, seq := env.seq,
        committed := false, state := .queued, done := 0, got := [], put := [], sent := [], beats := 0, retries := 0,
        barrier := none, barrierVa := bar, remote := false }
    let c' := { c with
      be := { c.be with tokens := SMap.put c.be.tokens w.tok.toNat (c.be.token w.tok.toNat + 1) }
      fl := { c.fl with copyOps := c.fl.copyOps ++ [o], nextId := c.fl.nextId + 1 } }
    let s1 := (s.setCtx env.ctx c').addActs [.copy o.id]
    let s2 := ((s1.holdIf (slackHolds (c.copyOccupancy env.idx) env.slackCpy 16) hSLACK).holdIf
      (decide (15 ≤ c.be.token w.tok.toNat)) hTOKCAP).holdIf
        (if op = 1 ∨ op = 2 then c.writeHeld env.idx buf tile
         else if op = 6 then false
         else c.readHeld env.idx buf tile (copyReadEnd op w n)) hTILE
    if nestBreaks op w n then s2.slotFault { slot := 2, cause := bNESTSZ, sub := 0, addr := 0 }
    else match bar with
      | some a =>
        if a.toNat % 32 = 0 then s2 else s2.slotFault { slot := 2, cause := bILLSLOT, sub := SlotErr.opnd.code, addr := 0 }
      | none =>
        match (if op = 6 then c.tileOwner env.idx tile else none) with
        | some m => s2.slotFault { slot := 2, cause := bACCBUSY, sub := 0, addr := BitVec.ofNat 64 (tile * 2 ^ 32 + m.seq.toNat) }
        | none => s2

/-- FILL (R150). -/
def execFill (w : CpyWord) (s : State) : Out := issueCopy 1 w s
/-- FILLS (R151). -/
def execFills (w : CpyWord) (s : State) : Out := issueCopy 2 w s
/-- FEED (R152). -/
def execFeed (w : CpyWord) (s : State) : Out := issueCopy 3 w s
/-- FEEDT (R152). -/
def execFeedt (w : CpyWord) (s : State) : Out := issueCopy 4 w s
/-- DRAIN (R153). -/
def execDrain (w : CpyWord) (s : State) : Out := issueCopy 5 w s
/-- ADDW (R154). -/
def execAddw (w : CpyWord) (s : State) : Out := issueCopy 6 w s
/-- RPUT (R156). -/
def execRput (w : CpyWord) (s : State) : Out := issueCopy 7 w s

/-- The word asks for what only the firmware context may do (R65, R161, R162). -/
def State.privFault (s : State) : State := s.slotFault { slot := 2, cause := bILLSLOT, sub := SlotErr.priv.code, addr := 0 }

/-- CRESM (R161): only from the firmware context; acts at its commit on the named resident slot. DESIGN CHOICE (log entry 57):
an encoding check of the word (R149) is reported before PRIV. -/
def execCresm (w : CpyWord) (s : State) : Out :=
  withSlot s fun _ c => if c.firmware then s.addActs [.resume w.ch.toNat (w.tile.toNat - 4)] else s.privFault

/-- CCLR (R162): acts at its commit on the issuing context, or from the firmware context on the named resident slot. -/
def execCclr (w : CpyWord) (s : State) : Out :=
  withSlot s fun _ c =>
    if w.tile = 0 then s.addActs [.clear w.ch.toNat none]
    else if c.firmware then s.addActs [.clear w.ch.toNat (some (w.tile.toNat - 4))]
    else s.privFault

end Sys2Proof.Machine
end

