-- ==== Sys2Proof/Machine/SyncIssue.lean ====
section
/-! DEFINITION. The SYN slot at issue (R238-R242). -/

namespace Sys2Proof.Machine

/-- Width in bytes of a sync type (R239). -/
def synTypeBytes (ty : BitVec 4) : Nat := if ty = 2 ∨ ty = 3 then 8 else 4

/-- Alignment of a sync operation's address; 0 for one that has no address (R239). -/
def synWidth (op : Nat) (ty : BitVec 4) : Nat :=
  if op ≤ 9 then synTypeBytes ty
  else if op = 14 ∨ op = 15 then 8
  else if op = 16 ∨ op = 17 then 0
  else 32

/-- Operations that count as writes (R239). -/
def synWrites (op : Nat) : Bool := decide (op ≤ 11 ∨ op = 14 ∨ op = 18)
/-- Operations that return a result into vd (R240). -/
def synReturns (op : Nat) : Bool := decide (op ≤ 8 ∨ op = 13)
/-- Bytes of the result (R240, R249). -/
def synResultBytes (op : Nat) (ty : BitVec 4) : Nat := if op = 13 then 8 else synTypeBytes ty
/-- Operations whose scope gives them the steps of a PHASE (R43). -/
def synScoped (op : Nat) : Bool := decide (op ≤ 11 ∨ op = 14 ∨ op = 18)
/-- Operations that hold the next bundle until their answer (R242). -/
def synHolds (op : Nat) : Bool := decide (op = 12 ∨ op = 15 ∨ op = 17)
/-- Operations that read vs (table "SYN fields by opcode"). -/
def synReadsVs (op : Nat) : Bool := decide (op ≤ 9 ∨ op = 12 ∨ 14 ≤ op) && decide (op ≠ 17)

def noLoc : Loc := { pkg := 0, pa := 0, home := 0, dev := false, own := false }

/-- A sync operation issues: address, checks, operand, landing entry, its place in the queue (R238-R242). -/
def issueSync (op : Nat) (w : SynWord) (s : State) : Out :=
  withSlot s fun env c =>
    let a := c.zrel w.z + BitVec.ofNat 64 (8 * w.off.toNat)
    let width := synWidth op w.ty
    let va : Word := if width = 0 then 0 else a
    let xl : Except XFault Loc :=
      if width = 0 then .ok noLoc else translate s c a (if synWrites op then .store else .load)
    let x := if synReadsVs op then (c.vview env.cc).reg w.vs.toNat else (0, false)
    let bounds := synScoped op && env.scope != 0
    let o : SyncOp :=
      { id := c.fl.nextId, idx := env.idx, phaseNo := c.fl.phaseNo, op := BitVec.ofNat 6 op, w := w, scope := env.scope, va := va,
        loc := (match xl with | .ok l => l | .error _ => noLoc), operand := x.1.extractLsb' 0 128, poison := x.2,
        pc := env.pc, seq := env.seq, state := .issued }
    let fl1 := { c.fl with
      syncOps := c.fl.syncOps ++ [o], nextId := c.fl.nextId + 1
      phaseNo := if bounds then c.fl.phaseNo + 1 else c.fl.phaseNo
      syncHold := if synHolds op then some o.id else c.fl.syncHold }
    let s1 := ((s.setCtx env.ctx { c with fl := fl1 }).addActs [.sync o.id]).frost env.ctx 3
      (frostMem (BitVec.ofNat 6 op) env.scope 2 va)
    let s2 := if width = 0 then s1 else s1.cacheTranslation c a
    let s3 := s2.holdIf (slackHolds (c.synOccupancy env.idx) env.slackSyn 16) hSLACK
    let s4 := if synReturns op then
        s3.takeLanding env 2 w.vd.toNat w.arr.toNat (byteMask 0 (synResultBytes op w.ty)) [] c.fl.phaseNo
      else s3
    if width ≠ 0 ∧ a.toNat % width ≠ 0 then s4.slotFault { slot := 6, cause := bSYNCF, sub := 0, addr := a }
    else match xl with
      | .error f => s4.slotXlate 6 f
      | .ok _ => s4

/-- AADD (R243). -/
def execAadd (w : SynWord) (s : State) : Out := issueSync 1 w s
/-- AMIN (R243). -/
def execAmin (w : SynWord) (s : State) : Out := issueSync 2 w s
/-- AMAX (R243). -/
def execAmax (w : SynWord) (s : State) : Out := issueSync 3 w s
/-- AAND (R243). -/
def execAand (w : SynWord) (s : State) : Out := issueSync 4 w s
/-- AOR (R243). -/
def execAor (w : SynWord) (s : State) : Out := issueSync 5 w s
/-- AXOR (R243). -/
def execAxor (w : SynWord) (s : State) : Out := issueSync 6 w s
/-- ASWP (R243). -/
def execAswp (w : SynWord) (s : State) : Out := issueSync 7 w s
/-- ACAS (R243). -/
def execAcas (w : SynWord) (s : State) : Out := issueSync 8 w s
/-- RED (R244). -/
def execRed (w : SynWord) (s : State) : Out := issueSync 9 w s
/-- ARV (R247). -/
def execArv (w : SynWord) (s : State) : Out := issueSync 10 w s
/-- ARVD (R247). -/
def execArvd (w : SynWord) (s : State) : Out := issueSync 11 w s
/-- BWAIT (R248). -/
def execBwait (w : SynWord) (s : State) : Out := issueSync 12 w s
/-- BTEST (R249). -/
def execBtest (w : SynWord) (s : State) : Out := issueSync 13 w s
/-- SIG (R252). -/
def execSig (w : SynWord) (s : State) : Out := issueSync 14 w s
/-- SWAIT (R253). -/
def execSwait (w : SynWord) (s : State) : Out := issueSync 15 w s
/-- ULI (R254). -/
def execUli (w : SynWord) (s : State) : Out := issueSync 16 w s
/-- SFENCE (R255). -/
def execSfence (w : SynWord) (s : State) : Out := issueSync 17 w s
/-- BRST (R246). -/
def execBrst (w : SynWord) (s : State) : Out := issueSync 18 w s

end Sys2Proof.Machine
end

