-- ==== Sys2Proof/Machine/Csr.lean ====
section
/-! DEFINITION. Generator CSRs (R104, R105, R124). -/

namespace Sys2Proof.Machine

/-- Access of a CSR for tenant threads (table "Generator CSRs"). -/
inductive CsrAccess where
  | unassigned | ro | rw | w1c | privileged
deriving DecidableEq, Repr

def csrAccess (n : Nat) : CsrAccess :=
  if n ≤ 0x004 ∨ (0x010 ≤ n ∧ n ≤ 0x01F) ∨ n = 0x021 ∨ n = 0x023 ∨ n = 0x024 ∨ (0x028 ≤ n ∧ n ≤ 0x02C) ∨
      (0x040 ≤ n ∧ n ≤ 0x046) ∨ (0x050 ≤ n ∧ n ≤ 0x059) ∨ (0x060 ≤ n ∧ n ≤ 0x062) ∨ n = 0x064 ∨ n = 0x071 then .ro
  else if n = 0x020 ∨ n = 0x022 ∨ n = 0x02D ∨ n = 0x030 ∨ n = 0x032 ∨ n = 0x033 ∨ n = 0x070 then .rw
  else if n = 0x031 ∨ n = 0x063 ∨ n = 0x068 then .w1c
  else if 0x100 ≤ n ∧ n ≤ 0x104 then .privileged
  else .unassigned

/-- A CSR's value in this core cycle (R105). DESIGN CHOICE (log entry 67): QLEVEL reads 64 while cancelled bundles returned to a full queue
make it hold more. -/
def csrValue (s : State) (c : Context) (n : Nat) : Word :=
  let t := c.thread
  let r := s.core c.coreKey
  if 0x010 ≤ n ∧ n ≤ 0x01F then SMap.getD c.id.zrel (n - 0x010) 0
  else if 0x050 ≤ n ∧ n ≤ 0x059 then BitVec.ofNat 64 (SMap.getD c.holdcnt (n - 0x050) 0)
  else match n with
  | 0x000 => c.id.ctxid.setWidth 64
  | 0x001 => c.id.tenant.setWidth 64
  | 0x002 => c.id.gang.setWidth 64
  | 0x003 => c.id.taskidx.setWidth 64
  | 0x004 => c.id.taskcnt.setWidth 64
  | 0x020 => t.tvec
  | 0x021 => t.tcause
  | 0x022 => t.tpc
  | 0x023 => t.tval
  | 0x024 => t.tstate
  | 0x028 => t.bfpc
  | 0x029 => t.bfseq
  | 0x02A => t.bfslot
  | 0x02B => t.bfcause
  | 0x02C => t.bfaddr
  | 0x02D => t.bfperf.setWidth 64
  | 0x030 => t.ulivec
  | 0x031 => t.ulipend
  | 0x032 => t.ulimask
  | 0x033 => t.ulipc
  | 0x040 => t.emitSeq.setWidth 64
  | 0x041 => BitVec.ofNat 64 (min 64 c.qlevel)
  | 0x042 => c.qstall.setWidth 64
  | 0x043 => r.frzcnt.setWidth 64
  | 0x044 => r.cycle
  | 0x045 => BitVec.ofNat 64 c.ctxcyc
  | 0x046 => BitVec.ofNat 64 c.ord.entries.length
  | 0x060 => c.id.winF
  | 0x061 => c.id.winW
  | 0x062 => c.id.winC
  | 0x063 => c.be.oorflag
  | 0x064 => c.be.ooraddr
  | 0x068 => c.be.vflags
  | 0x070 => t.ckptint
  | 0x071 => c.ckptseq.setWidth 64
  | 0x100 => r.fwshare
  | 0x101 => r.slotmap
  | 0x102 => match r.plimNext with
    | some p => p
    | none => r.plim
  | 0x103 => r.spinlim
  | 0x104 => r.wdwin
  | _ => 0

/-- Only the low `n` bits. -/
def low (n : Nat) (v : Word) : Word := BitVec.ofNat 64 (v.toNat % 2 ^ n)

/-- Bits [1:0] cleared (R124). -/
def clear2 (v : Word) : Word := v &&& ~~~3#64

/-- Some tenant context is RESIDENT on the core (R29). -/
def State.tenantResident (s : State) (core : Nat) : Bool :=
  (s.core core).slots.any (fun p => match s.ctx p.2 with
    | some c => c.status == .resident && !c.firmware
    | none => false)

/-- BFPERF is writable: the trap is BUNDLE and its handler runs (R104). -/
def Thread.bfperfWritable (t : Thread) : Bool := t.inTrap && decide (t.tcause.toNat % 256 = 11)

/-- A write to a CSR of the context itself, obeying field access codes (R104, R124). -/
def Context.writeCsr (c : Context) (n : Nat) (v : Word) : Context :=
  let t := c.thread
  let th (t' : Thread) : Context := { c with thread := t' }
  if 0x010 ≤ n ∧ n ≤ 0x01F then { c with id := { c.id with zrel := SMap.put c.id.zrel (n - 0x010) v } }
  else if 0x050 ≤ n ∧ n ≤ 0x059 then { c with holdcnt := SMap.put c.holdcnt (n - 0x050) (v.toNat % 2 ^ 48) }
  else match n with
  | 0x000 => { c with id := { c.id with ctxid := v.extractLsb' 0 25 } }
  | 0x001 => { c with id := { c.id with tenant := v.extractLsb' 0 16 } }
  | 0x002 => { c with id := { c.id with gang := v.extractLsb' 0 20 } }
  | 0x003 => { c with id := { c.id with taskidx := v.extractLsb' 0 24 } }
  | 0x004 => { c with id := { c.id with taskcnt := v.extractLsb' 0 25 } }
  | 0x020 => th { t with tvec := clear2 v }
  | 0x021 => th { t with tcause := low 17 v }
  | 0x022 => th { t with tpc := clear2 v }
  | 0x023 => th { t with tval := v }
  | 0x024 => th { t with tstate := low 8 v }
  | 0x028 => th { t with bfpc := v }
  | 0x029 => th { t with bfseq := v }
  | 0x02A => th { t with bfslot := v }
  | 0x02B => th { t with bfcause := low 24 v }
  | 0x02C => th { t with bfaddr := v }
  | 0x02D =>
    if t.bfperfWritable then th { t with bfperf := v.extractLsb' 0 7 } else c
  | 0x030 => th { t with ulivec := clear2 v }
  | 0x031 => th { t with ulipend := t.ulipend &&& ~~~(low 16 v) }
  | 0x032 => th { t with ulimask := low 16 v }
  | 0x033 => th { t with ulipc := clear2 v }
  | 0x040 => th { t with emitSeq := v.extractLsb' 0 32 }
  | 0x042 => { c with qstall := v.extractLsb' 0 48 }
  | 0x045 => { c with ctxcyc := v.toNat }
  | 0x060 => { c with id := { c.id with winF := v &&& 0x7F7F } }
  | 0x061 => { c with id := { c.id with winW := v &&& 0x7F7F } }
  | 0x062 => { c with id := { c.id with winC := v &&& 0x7F7F } }
  | 0x063 => { c with be := { c.be with oorflag := c.be.oorflag &&& ~~~(low 1 v) } }
  | 0x064 => { c with be := { c.be with ooraddr := low 22 v } }
  | 0x068 => { c with be := { c.be with vflags := c.be.vflags &&& ~~~(low 8 v) } }
  | 0x070 => th { t with ckptint := low 32 v }
  | 0x071 => { c with ckptseq := v.extractLsb' 0 32 }
  | _ => c

/-- A write to a CSR of the core: SLOTMAP only while no tenant context is RESIDENT (R29), PLIM from the next core cycle
(R28). -/
def State.writeCoreCsr (s : State) (core n : Nat) (v : Word) : State :=
  match n with
  | 0x043 => s.updCore core (fun r => { r with frzcnt := v.extractLsb' 0 48 })
  | 0x044 => s.updCore core (fun r => { r with cycle := v })
  | 0x100 => s.updCore core (fun r => { r with fwshare := low 7 v })
  | 0x101 => if s.tenantResident core then s else s.updCore core (fun r => { r with slotmap := low 3 v })
  | 0x102 => s.updCore core (fun r => { r with plimNext := some (low 20 v) })
  | 0x103 => s.updCore core (fun r => { r with spinlim := low 32 v })
  | 0x104 => s.updCore core (fun r => { r with wdwin := low 48 v })
  | _ => s

/-- Whether the thread may read, or write, the CSR: the fault code and subcause where it may not (R104). -/
def csrCheck (firmware write : Bool) (n : Nat) : Option (Nat × Nat) :=
  match csrAccess n with
  | .unassigned => some (gILLINS, 1)
  | .privileged => if firmware then none else some (gCSRPRIV, 0)
  | .ro => if firmware || !write then none else some (gCSRPRIV, 0)
  | _ => none

/-- The fault of a refused CSR access: ILLINS carries the word, CSRPRIV the number (spec/05). -/
def State.csrFault (s : State) (i : Instr) (n : Nat) (f : Nat × Nat) : State :=
  if f.1 = gILLINS then s.illins i f.2 else s.genFault s.cur f.1 f.2 (BitVec.ofNat 64 n)

/-- CSRR (R124). -/
def execCsrr (n : BitVec 12) (d : BitVec 6) (s : State) : Out :=
  withThread s fun c =>
    match csrCheck c.isFirmware false n.toNat with
    | some f => s.csrFault (.csrr n d) n.toNat f
    | none => s.goOn c (c.thread.setReg d (csrValue s c n.toNat) false) (c.thread.pc + 4)

/-- CSRW (R124): the old value to d, then the write. DESIGN CHOICE (log entry 69): an unassigned or forbidden CSR is reported before a
poisoned operand. -/
def execCsrw (n : BitVec 12) (a d : BitVec 6) (s : State) : Out :=
  withThread s fun c =>
    match csrCheck c.isFirmware true n.toNat with
    | some f => s.csrFault (.csrw n a d) n.toNat f
    | none =>
      if c.thread.regPoison a then s.poisonUse
      else
        let v := c.thread.reg a
        let c' := c.writeCsr n.toNat v
        (s.goOn c' (c'.thread.setReg d (csrValue s c n.toNat) false) (c.thread.pc + 4)).writeCoreCsr c.coreKey n.toNat v

end Sys2Proof.Machine
end

