-- ==== Sys2Proof/Machine/System.lean ====
section
/-! DEFINITION. Generator system instructions and the ends of generator waits (R38, R48, R125-R137). -/

namespace Sys2Proof.Machine

/-- A PHASE of the generator stream begins (R38, R125); it records how many slot operations came before it. -/
def Context.beginGenPhase (c : Context) (owner : PhaseOwner) (scope : BitVec 2) : Context :=
  { c with ord := { c.ord with phases := c.ord.phases ++
      [{ owner := owner, scope := scope, sent := false, after := [], phaseNo := c.fl.nextId }] } }

/-- The thread as a PHASEG's marker records it: right after the PHASEG, its PHASE sent (R140, R277). -/
def Thread.afterPhaseg (t : Thread) : Thread := { t.finish (t.pc + 4) with sideOps := t.sideOps + 1 }

/-- A marker after the youngest bundle pushed; the firmware context places none (R140, R275). -/
def Context.addMarker (c : Context) (t : Thread) (waits : Bool) : Context :=
  if c.isFirmware then c else { c with queue := c.queue ++ [.marker t waits false] }

/-- A phase boundary without further effect: the loads that wait belong to an earlier phase (R36, R38). -/
def Thread.endPhase (t : Thread) : Thread := { t with loads := t.loads.map (fun l => { l with age := l.age + 1 }) }

/-- PHASEG (R125): at CORE scope only a phase boundary, which serves as an interval checkpoint that is due (R38, R275);
else the thread waits for its PHASE. -/
def execPhaseg (sc : BitVec 2) (s : State) : Out :=
  withThread s fun c =>
    let t := c.thread.endPhase
    let s1 :=
      if sc = 0 then
        let c1 := if c.intervalElapsed then
            { c.addMarker (t.finish (t.pc + 4)) false with chk := { c.chk with intervalPlaced := some 0 } }
          else c
        s.goOn c1 t (t.pc + 4)
      else s.setCtx s.cur { (c.addMarker c.thread.afterPhaseg true).beginGenPhase .phaseg sc with wait := .phaseg }
    s1.frost s.cur 3 (frostMem 2 sc 0 0)

/-- GCHK (R126). -/
def execGchk (a : BitVec 6) (s : State) : Out :=
  withThread s fun c => if c.thread.regPoison a then s.poisonUse else s.goOn c c.thread (c.thread.pc + 4)

/-- SPIN (R127): a wait, which counts toward SPINLIM until the next progress event (R269). -/
def execSpin (s : State) : Out :=
  withThread s fun c =>
    s.setCtx s.cur { c with wait := .spin (s.core c.coreKey).cycle.toNat, sch := { c.sch with spinWait := true } }

/-- HALT waits (R129); ILLINS while the back end is frozen. -/
def execHalt (s : State) : Out :=
  withThread s fun c => if c.beFrozen then s.illins .halt 2 else s.setCtx s.cur { c with wait := .halt }

/-- DRAINQ waits (R132); ILLINS while the back end is frozen, and on a management core (R344). -/
def execDrainq (s : State) : Out :=
  withThread s fun c =>
    if c.beFrozen || c.management then s.illins .drainq 2 else s.setCtx s.cur { c with wait := .drainq }

/-- TRAPC (R130). -/
def execTrapc (code : BitVec 13) (s : State) : Out :=
  withThread s fun c => s.takeTrap s.cur gTRAPC 0 (c.thread.pc + 4) (code.setWidth 64) false

/-- ILLEGAL_INSTRUCTION (R66): ILLINS with subcause 0, precise at its PC, TVAL the word. -/
def execIllegalInstruction (w : BitVec 32) (s : State) : Out :=
  withThread s fun _ => s.genFault s.cur gILLINS 0 (w.setWidth 64)

/-- XRET (R131): the return, the release of the back end, the end check on Next. A BUNDLE trap that has waited for a trap handler's
XRET is taken at that point, also inside a loop body (R136). -/
def execXret (s : State) : Out :=
  withThread s fun c =>
    match c.thread.xret with
    | none => s.illins .xret 2
    | some (t, next, release) =>
      let s1 := s.goOn (if release then c.release else c) t next
      let s2 := if c.thread.inTrap && c.bundleTrap then
          s1.updCtx s.cur (fun c => { c with thread := { c.thread with boundary := true } }) else s1
      s2.frost s.cur 1 (frostBranch c.thread.pc next)

/-- CPOST (R133), first part: the PHASE at SYS. -/
def execCpost (a d : BitVec 6) (s : State) : Out :=
  withThread s fun c =>
    let rec_ := c.thread.reg a
    if c.management then s.illins (.cpost a d) 2
    else if c.thread.regPoison a then s.poisonUse
    else if rec_.toNat % 256 ≠ 0 then s.genFault s.cur gMISALIGN 0 rec_
    else (s.setCtx s.cur { c.beginGenPhase .cpost 3 with wait := .cpostPhase d.toNat rec_ }).frost s.cur 3
      (frostMem 9 3 0 rec_)

/-! ### Ends of waits -/

/-- An event at a context: nothing where its guard fails (log entry 7). -/
def atCtx (s : State) (k : Nat) (f : Context → State) : Out :=
  match s.ctx k with
  | none => .next s
  | some c => .next (f c)

/-- An event of its core at a context: nothing while it is frozen with a retired core (R282). -/
def atCore (s : State) (k : Nat) (f : Context → State) : Out := atCtx s k fun c => if s.onRetired c then s else f c

/-- The waiting instruction is done: on to the next one (R103, R113). -/
def State.endWait (s : State) (k : Nat) (c : Context) : State :=
  s.setCtx k { c with thread := c.thread.finish (c.thread.pc + 4), wait := .none }

/-- Queue, issued bundles, replay buffer, copy and matrix operations are empty. -/
def Context.backEndIdle (c : Context) : Bool :=
  c.entries.isEmpty && c.fl.issued.isEmpty && c.fl.replay.isNone && c.fl.copyOps.isEmpty && c.fl.mtxOps.isEmpty

/-- Every load of the bundle stream is performed and every PHASE of it complete. -/
def Context.bundleStreamDone (c : Context) : Bool := c.fl.landings.all (·.todo.isEmpty) && !c.ord.phases.any (fun p => p.owner.ofBundle)

/-- DRAINQ_COMPLETE (R132): what follows DRAINQ follows every operation of every bundle before it (R35). DESIGN CHOICE (log entry 69): one
that waits in a trap handler as the back end freezes goes on waiting, and so does a HALT. -/
def execDrainqComplete (k : Nat) (s : State) : Out :=
  atCore s k fun c =>
    if c.wait == .drainq && c.runs && !c.stopped && c.backEndIdle && c.fl.syncOps.all SyncOp.performed && c.bundleStreamDone then s.endWait k c
    else s

/-- SPIN_TIMEOUT (R127). -/
def execSpinTimeout (k : Nat) (s : State) : Out :=
  atCore s k fun c =>
    if c.runs && !c.stopped && c.spinOver (s.core c.coreKey).cycle.toNat then s.endWait k c else s

/-- BUNDLE_TRAP (R135, R136). -/
def execBundleTrap (k : Nat) (s : State) : Out :=
  atCore s k fun c => if c.bundleTrapDue then s.bundleTrap k else s

/-- ULI_DELIVERY (R137). -/
def execUliDelivery (k : Nat) (s : State) : Out :=
  atCore s k fun c => if c.uliDue then s.deliverUli k else s

end Sys2Proof.Machine
end

