-- ==== Sys2Proof/Machine/Commit.lean ====
section
/-! DEFINITION. The commit point of a bundle and the landings of its loads (R23, R24, R37, R229, R230, R233, R241). -/

namespace Sys2Proof.Machine

/-! ### Effects at commit (R23) -/

/-- A PHASE of the bundle stream begins (R38, R39). -/
def Context.addPhase (c : Context) (owner : PhaseOwner) (scope : BitVec 2) (n : Nat) : Context :=
  { c with ord := { c.ord with phases := c.ord.phases ++ [{ owner := owner, scope := scope, sent := false, after := [], phaseNo := n }] } }

/-- Sync operations that end eligibility for rollback: all but BWAIT, BTEST, SWAIT, SFENCE (R277). -/
def synSpoils (op : Nat) : Bool := !decide (op = 12 ∨ op = 13 ∨ op = 15 ∨ op = 17)

/-- A sync operation leaves its context (R241): at a scope wider than CORE the steps of a PHASE come first (R43). -/
def Context.commitSync (c : Context) (id : Nat) : Context :=
  match c.fl.syncOps.find? (fun o => decide (o.id = id)) with
  | none => c
  | some o =>
    let phased := synScoped o.op.toNat && o.scope != 0
    let o' := { o with state := if phased then .committed else .ready }
    let c1 := { c with fl := { c.fl with syncOps := c.fl.syncOps.map (fun x => if x.id = id then o' else x) } }
    let c2 := if phased then c1.addPhase (.sync id) o.scope o.phaseNo else c1
    if synSpoils o.op.toNat then c2.spoil o.idx else c2

/-- A copy operation enters its channel's list; an RPUT ends eligibility (R141, R277). -/
def Context.commitCopy (c : Context) (id : Nat) : Context :=
  match c.fl.copyOps.find? (fun o => decide (o.id = id)) with
  | none => c
  | some o =>
    let c1 := c.setOp { o with committed := true }
    if o.op = 7 then c1.spoil o.idx else c1

def Context.commitMatrix (c : Context) (id : Nat) (cycle : Word) : Context :=
  let mark (o : MtxOp) : MtxOp := if o.id = id then { o with committed := true, commitCycle := cycle } else o
  { c with fl := { c.fl with mtxOps := c.fl.mtxOps.map mark } }

/-- One effect of a bundle of context `k` and number `idx`. -/
def State.act (k idx : Nat) (s : State) (a : CommitAct) : State :=
  match a with
  | .bufStore buf tile line d p => s.writeLine k idx buf tile line (fun _ => { data := d, poison := p })
  | .memStore sts => s.updCtx k fun c => match c.ord.slotStore sts with
    | some o => { c with ord := o }
    | none => c
  | .flags f => s.updCtx k fun c => c.applyBe idx (fun b => { b with vflags := b.vflags ||| f })
  | .outOfRange buf tile row byte => s.updCtx k fun c => c.applyBe idx (fun b => b.outOfRange buf tile row byte)
  | .phase scope n => if scope = 0 then s else s.updCtx k fun c => c.addPhase (.mem idx) scope n
  | .copy id => s.updCtx k fun c => c.commitCopy id
  | .matrix id => s.updCtx k fun c => c.commitMatrix id (s.core c.coreKey).cycle
  | .sync id => s.updCtx k fun c => c.commitSync id
  | .resume ch slot =>
    match s.ctx k with
    | some c => match SMap.find (s.core c.coreKey).slots slot with
      | some t => s.updCtx t (fun c => c.resumeCopy ch)
      | none => s
    | none => s
  | .clear ch none => s.clearChannel k ch
  | .clear ch (some slot) =>
    match s.ctx k with
    | some c => match SMap.find (s.core c.coreKey).slots slot with
      | some t => s.clearChannel t ch
      | none => s
    | none => s

/-- All stores of a bundle. -/
def bundleStores (acts : List CommitAct) : List LineStore :=
  acts.flatMap (fun a => match a with | .memStore sts => sts | _ => [])

/-- The first store that finds no entry in the phase buffer (R37). -/
def firstOver (l : List PbEntry) : List LineStore → Option Word
  | [] => none
  | st :: rest =>
    let l' := pbInsert l st
    if l.length < l'.length ∧ 512 < l'.length then some st.va else firstOver l' rest

/-! ### BUNDLE_COMMIT -/

/-- A bundle fault at the commit point: the bundle and every younger one are cancelled (R24). -/
def Context.faultAtCommit (c : Context) (i : Issued) (f : BFault) : Context := (c.cancelFrom i.idx).bundleFault i.entry f

/-- A translation fault found at issue (R230, R239): NOTPRES is served first (R324), the rest are bundle faults. -/
def State.commitXlate (s : State) (k : Nat) (c : Context) (i : Issued) (slot : Nat) (x : XFault) : State :=
  if isNotPres x.sub then
    (s.setCtx k ((c.cancelFrom i.idx).pageWait i.entry)).queueFault (.cobalt c.die)
      { seq := 0, source := 1, who := k, va := x.va, pc := i.entry.pc, emitseq := i.entry.seq, sub := x.sub, unit := slot, record := [] }
  else s.setCtx k (c.faultAtCommit i { slot := slot, cause := bXLATE, sub := x.sub.toNat, addr := x.va })

/-- The oldest issued bundle commits; generator loads that precede its stores are performed first (R35). -/
def State.commitOldest (s : State) (k : Nat) (c : Context) (i : Issued) : State :=
  match i.fault with
  | some (slot, x) => s.commitXlate k c i slot x
  | none =>
    let sts := bundleStores i.acts
    let c := if sts.isEmpty then c else c.performBefore s i.idx
    match c.ord.slotStore sts with
    | none =>
      s.setCtx k (c.faultAtCommit i { slot := 1, cause := bPHASEFULL, sub := 0, addr := (firstOver c.ord.slotBuffer sts).getD 0 })
    | some _ =>
      let c1 := { c with fl := { c.fl with issued := c.fl.issued.tail } }
      (i.acts.foldl (State.act k i.idx) (s.setCtx k c1)).updCtx k Context.settle

/-- A bundle of the context is due to commit: 8 context cycles after its issue. -/
def Context.commitDue (c : Context) : Bool :=
  match c.fl.issued with
  | i :: _ => decide (i.cc + 8 < c.ctxcyc)
  | [] => false

/-- BUNDLE_COMMIT (R23). -/
def execBundleCommit (k : Nat) (s : State) : Out :=
  atCore s k fun c =>
    match c.fl.issued with
    | [] => s
    | i :: _ =>
      if !c.commitDue then s
      else
        let t := s.commitOldest k c i
        match t.ctx k with
        | some c' => if c'.commitDue then { t with agenda := .ev (.bundleCommit k) :: t.agenda } else t
        | none => t

/-! ### Landings (R229, R240) -/

def updateNth {α : Type} (l : List α) (i : Nat) (f : α → α) : List α :=
  match l, i with
  | [], _ => []
  | x :: rest, 0 => f x :: rest
  | x :: rest, n + 1 => x :: updateNth rest n f

/-- LANDING_DATA_ARRIVES (R229): every load of the entry is performed; a sync result has come back. -/
def execLandingDataArrives (k entry : Nat) (s : State) : Out :=
  atCore s k fun c =>
    match c.fl.landings[entry]? with
    | none => s
    | some l =>
      if l.arrived || !l.todo.isEmpty || (l.kind == 2 && c.fl.syncOps.any (fun o => decide (o.idx = l.idx))) then s
      else
        let s1 := s.setCtx k { c with fl := { c.fl with landings := updateNth c.fl.landings entry (fun l => { l with arrived := true }) } }
        if l.due ≤ c.ctxcyc then { s1 with agenda := .ev (.timedLanding k) :: s1.agenda } else s1

/-- The register result of a landing entry. -/
def Landing.write (l : Landing) : RegWrite :=
  { due := l.due, idx := l.idx, ord := if l.kind = 2 then ordSyn else ordMem, target := .vreg l.v l.mask l.data, poison := l.poison }

/-- TIMED_LANDING (R229): data due and arrived is written, its entries are freed. -/
def execTimedLanding (k : Nat) (s : State) : Out :=
  atCore s k fun c =>
    let ready (l : Landing) : Bool := decide (l.due ≤ c.ctxcyc) && l.arrived
    s.setCtx k ({ c with fl := { c.fl with
      landings := c.fl.landings.filter (fun l => !ready l)
      journal := (c.fl.landings.filter ready).foldl (fun j l => journalInsert l.write j) c.fl.journal } } : Context).settle

end Sys2Proof.Machine
end

