-- ==== Sys2Proof/Machine/Ordering.lean ====
section
/-! DEFINITION. Steps of the ordering machine: loads, writes of the transit set, snapshot drops, PHASE (R34-R39, R43). -/

namespace Sys2Proof.Machine

/-! ### Ordinary loads (R36) -/

/-- A phase boundary before phase number `n` of the bundle stream that still has something to do: a PHASE or a scoped sync
operation that is not complete, or has not committed. -/
def Context.phaseOpen (c : Context) (n : Nat) : Bool :=
  c.ord.phases.any (fun p => match p.owner with
    | .mem _ => decide (p.phaseNo < n)
    | .sync _ => decide (p.phaseNo < n)
    | _ => false) ||
  c.fl.syncOps.any (fun o => synScoped o.op.toNat && o.scope != 0 && decide (o.phaseNo < n) && !o.performed) ||
  c.fl.issued.any (fun i => i.acts.any (fun a => match a with
    | .phase scope m => scope != 0 && decide (m < n)
    | _ => false))

/-- An earlier store of the stream that has not committed overlaps the bytes. -/
def Context.storeBefore (c : Context) (idx : Nat) (l : Loc) (n : Nat) : Bool :=
  (c.fl.issued.filter (fun i => decide (i.idx < idx))).any (fun i => (bundleStores i.acts).any (fun st =>
    decide (st.loc.pkg = l.pkg ∧ st.loc.pa / 64 = l.pa / 64) && (st.mask &&& byteMask (l.pa % 64) n) != 0))

/-- A lane of a landing entry may be performed now. -/
def Context.loadReady (c : Context) (l : Landing) (parts : List LoadPart) : Bool :=
  !parts.isEmpty && !c.phaseOpen l.phaseNo && !c.loadsBefore l.idx &&
  !(c.fl.landings.any (fun m => decide (m.phaseNo < l.phaseNo) && !m.todo.isEmpty)) &&
  parts.all (fun p => match p.loc with | some loc => !c.storeBefore l.idx loc p.size | none => true)

/-- The parts of one load performed: value, poison, ordering state. -/
def performParts (s : State) (me : Option Nat) (o : OrdState) : List LoadPart → Nat × Bool × OrdState
  | [] => (0, false, o)
  | p :: rest =>
    let (v, psn, o1) := match p.loc with
      | some loc => ordLoad s me o loc p.size
      | none => (0, true, o)
    let (v2, psn2, o2) := performParts s me o1 rest
    (v + v2 * 2 ^ (8 * p.size), psn || psn2, o2)

/-- The lane's value in the register: a gather's is extended to 32 bits (R228). -/
def Landing.put (l : Landing) (lane_ : Nat) (bytes v : Nat) (signed : Bool) : Line :=
  if l.kind = 1 then
    l.data ||| BitVec.ofNat 512 (wrapTo 32 (intOf signed (8 * bytes) v) * 2 ^ (32 * lane_))
  else BitVec.ofNat 512 v

/-- LOAD_PERFORM (R36): all bytes of one load of the bundle stream, or of a generator load that has executed. -/
def execLoadPerform (k : Nat) (which : LoadRef) (s : State) : Out :=
  atCore s k fun c =>
    match which with
    | .landing entry lane_ =>
      match c.fl.landings[entry]? with
      | none => s
      | some l =>
        let parts := l.todo.filter (fun p => decide (p.lane = lane_))
        if !c.loadReady l parts || parts.any (fun p => p.loc.any (fun x => s.apart c x.engine)) then s
        else
          let (v, psn, o) := performParts s c.reader c.ord parts
          let bytes := (parts.map (·.size)).foldl (· + ·) 0
          let l' := { l with
            data := l.put lane_ bytes v (parts.any (·.signed)), poison := l.poison || psn
            todo := l.todo.filter (fun p => decide (p.lane ≠ lane_)) }
          s.setCtx k { c with ord := o, fl := { c.fl with landings := updateNth c.fl.landings entry (fun _ => l') } }
    | .gen n =>
      match c.thread.loads[n]? with
      | none => s
      | some l =>
        if c.thread.loads.any (fun x => decide (l.age < x.age)) || s.apart c l.loc.engine then s
        else s.setCtx k (({ c with thread := { c.thread with loads := c.thread.loads.eraseIdx n } } : Context).performLoad s l)

/-! ### Transit set and snapshot (R34, R37) -/

/-- Two writes have a byte in common. -/
def PbEntry.meets (e x : PbEntry) : Bool :=
  decide (x.loc.pkg = e.loc.pkg ∧ x.loc.pa / 64 = e.loc.pa / 64) && (x.mask &&& e.mask) != 0

/-- TRANSIT_WRITE_APPLY (R34): a write may pass every other but an earlier one that writes a byte of its own (R37). The logs treat
it as one before every marker: a PHASE that sends a later one has ended eligibility (R277). -/
def execTransitWriteApply (k n : Nat) (s : State) : Out :=
  atCtx s k fun c =>
    match c.ord.transit[n]? with
    | none => s
    | some e =>
      if (c.ord.transit.take n).any e.meets || s.apart c e.loc.engine then s
      else
        ((s.setCtx k ({ c with ord := { c.ord with transit := c.ord.transit.eraseIdx n } }.ownLogged s 0 e)).ownWritten c e.loc).homeWriteLine e.loc.pkg (e.loc.pa / 64)
          e.mask e.data e.poison false

/-- SNAPSHOT_LINE_DROP (R34). -/
def execSnapshotLineDrop (k line : Nat) (s : State) : Out :=
  .next (s.updCtx k fun c => { c with ord := { c.ord with snapshot := c.ord.snapshot.filter (fun e => decide (e.1 ≠ line)) } })

/-- The snapshot without the lines homed inside a scope (R38 step 4, R43 step 3). -/
def Context.dropInScope (c : Context) (scope : BitVec 2) : Context :=
  { c with ord := { c.ord with snapshot := c.ord.snapshot.filter (fun e => !inScope scope c.die (e.2.2.2 / 16) (e.2.2.2 % 16)) } }

/-! ### PHASE (R38) -/

/-- A generator load that precedes its bundle waits (R35). -/
def Context.phaseWaits (c : Context) (p : Phase) : Bool :=
  match p.owner with
  | .mem i => c.loadsBefore i
  | .sync id => c.fl.syncOps.any (fun o => decide (o.id = id) && c.loadsBefore o.idx)
  | _ => false

/-- Step 1: every earlier load of its stream is performed, every earlier PHASE of the bundle stream is sent. -/
def Context.phaseMaySend (c : Context) (n : Nat) (p : Phase) : Bool :=
  if !p.owner.ofBundle then c.thread.loads.isEmpty
  else
    !c.phaseWaits p && (!(c.fl.landings.any (fun l => decide (l.phaseNo ≤ p.phaseNo) && !l.todo.isEmpty)) &&
      (c.ord.phases.take n).all (fun q => q.sent || !q.owner.ofBundle))

/-- What sending does to eligibility for rollback (R50, R277): a MEM PHASE counts as issued before its own marker, so
does a PHASEG. -/
def Context.phaseSpoils (c : Context) (p : Phase) : Context :=
  match p.owner with
  | .mem i => c.spoil i
  | .sync _ => c
  | _ =>
    let c1 := c.updMarkers (fun m => if m.waits then m else { m with spoiled := true })
    { c1 with thread := { c1.thread with sideOps := c1.thread.sideOps + 1 } }

/-- The registers of a PHASEG's marker are the thread's as its PHASE is sent, every load before it performed (R38, R140). -/
def Thread.withLoadsOf (t u : Thread) : Thread := { t with regs := u.regs, rpoison := u.rpoison, loads := u.loads }
def QItem.sentFrom (u : Thread) : QItem → QItem
  | .marker t true b => .marker (t.withLoadsOf u) true b
  | q => q
def Context.markSent (c : Context) (p : Phase) : Context :=
  if p.owner = .phaseg then
    { c with
      queue := c.queue.map (QItem.sentFrom c.thread)
      chk := { c.chk with pendingMarker := c.chk.pendingMarker.map (fun m =>
        if m.waits then { m with thread := m.thread.withLoadsOf c.thread } else m) } }
  else c

/-- Its thread or back end may go on: RESIDENT, or a firmware or management thread, and not frozen. -/
def Context.mayPhase (c : Context) : Bool := c.runs

/-- What a PHASE sends (R38 step 2, R39): one of the bundle stream the phase buffer, which then is what filled behind it; one of
the generator every entry. -/
def OrdState.send (o : OrdState) (n : Nat) (p : Phase) : OrdState :=
  if p.owner.ofBundle then
    { o with transit := o.transit ++ o.pbuf, pbuf := p.after
             phases := updateNth o.phases n (fun p => { p with sent := true, after := [] }) }
  else
    { o with transit := o.transit ++ o.entries, pbuf := []
             phases := updateNth (o.phases.map (fun q => { q with after := [] })) n (fun p => { p with sent := true }) }

/-- PHASE_SEND (R38 step 2): the phase buffer moves into the transit set. -/
def execPhaseSend (k n : Nat) (s : State) : Out :=
  atCore s k fun c =>
    match c.ord.phases[n]? with
    | none => s
    | some p =>
      if p.sent || !c.mayPhase || !c.phaseMaySend n p then s
      else
        s.setCtx k ((({ c with ord := c.ord.send n p } : Context).phaseSpoils p).markSent p)

/-- A sync operation comes before a PHASE in its context. -/
def Phase.follows (p : Phase) (o : SyncOp) : Bool :=
  match p.owner with
  | .mem i => decide (o.idx < i)
  | .sync id => decide (o.id < id)
  | _ => decide (o.id < p.phaseNo)

/-- Step 3: every write sent to a home inside the scope is applied, every earlier sync operation homed there performed. -/
def Context.phaseApplied (c : Context) (p : Phase) : Bool :=
  !(c.ord.transit.any (fun e => inScope p.scope c.die e.loc.pkg e.loc.home)) &&
  c.fl.syncOps.all (fun o => !p.follows o || o.performed || decide (synWidth o.op.toNat o.w.ty = 0) ||
    !inScope p.scope c.die o.loc.pkg o.loc.home)

/-- The async log halts the context (R45, R257): a fatal trap of the asynchronous class, code 1. -/
def State.asyncHalt (s : State) (k : Nat) : State := s.beginFreeze k { cls := 2, code := 1, sub := 0, tval := 0 } true

def settleMarker : QItem → QItem
  | .marker t _ b => .marker t false b
  | e => e

/-- A PHASEG is complete: its marker waits no more (R277), the thread goes on. -/
def Context.phasegDone (c : Context) : Context :=
  { c with
    queue := c.queue.map settleMarker
    chk := { c.chk with pendingMarker := c.chk.pendingMarker.map (fun m => { m with waits := false }) }
    thread := c.thread.finish (c.thread.pc + 4), wait := .none }

/-- What the end of a PHASE brings to its owner. -/
def Context.phaseOwnerDone (c : Context) (p : Phase) : Context :=
  match p.owner with
  | .phaseg => c.phasegDone
  | .mem _ => c
  | .sync id => { c with fl := { c.fl with syncOps := c.fl.syncOps.map (fun o => if o.id = id then { o with state := .ready } else o) } }
  | .halt => c
  | .cpost => match c.wait with
    | .cpostPhase d rec_ => { c with wait := .cpostSent d rec_ none, thread := { c.thread with sideOps := c.thread.sideOps + 1 } }
    | _ => c

/-- PHASE_COMPLETE (R38 steps 3 to 5). -/
def execPhaseComplete (k n : Nat) (s : State) : Out :=
  atCore s k fun c =>
    match c.ord.phases[n]? with
    | none => s
    | some p =>
      if !p.sent || !c.mayPhase || !c.phaseApplied p then s
      else
        let c1 := c.dropInScope p.scope
        if !c1.ord.asyncLog.isEmpty then (s.setCtx k c1).asyncHalt k
        else s.setCtx k (({ c1 with ord := { c1.ord with phases := c1.ord.phases.eraseIdx n } } : Context).phaseOwnerDone p)

end Sys2Proof.Machine
end

