-- ==== Sys2Proof/Machine/VecCore.lean ====
section
/-! DEFINITION. What vector operations share: issue, lane-wise results, lane arithmetic (R206, R210-R222). -/

namespace Sys2Proof

/-! ### Fields of the word -/

def VWord.t (w : VWord) : Nat := w.ty.toNat
def VWord.mode (w : VWord) : Nat := w.rm.toNat
def VWord.saturates (w : VWord) : Bool := w.sat == 1
def VWord.float (w : VWord) : Bool := Machine.isFloat w.t
def VWord.fmt (w : VWord) : Machine.FpFmt := Machine.fpOfType w.t
def VWord.bits (w : VWord) : Nat := Machine.laneBits w.t
def VWord.int (w : VWord) (x : Nat) : Int := Machine.intOf (Machine.isSigned w.t) w.bits x
/-- Latency 4 for floating types, 2 for integer types (R210). -/
def VWord.latency (w : VWord) : Nat := if w.float then 4 else 2

end Sys2Proof

namespace Sys2Proof.Machine

/-- Results of a vector operation: registers or predicates written with their poison, flags of its true lanes. -/
structure VOut where
  writes : List (WriteTarget × Bool)
  flags : Flags

/-- Issues a vector operation: operands and latches at the issue cycle, results due after the latency, flags at commit
(R206). -/
def issueVec (s : State) (p : Pipe) (w : VWord) (u : VUse) (lat : Nat) (f : Context → VIn → VOut) : Out :=
  withSlot s fun env c =>
    let i := readVec c env.cc p u w
    let o := f c i
    let c' := o.writes.foldl (fun c t =>
      c.addWrite { due := env.cc + lat, idx := env.idx, ord := ordV p, target := t.1, poison := t.2 }) { c with be := i.be }
    (s.setCtx env.ctx c').addActs (if o.flags = 0 then [] else [.flags (o.flags.setWidth 64)])

/-- A result per lane of a type, governed by the predicate (R206). -/
def laneWise (ty : Nat) (w : VWord) (i : VIn) (f : Nat → Nat × Flags) : VOut :=
  let b := typeBytes ty
  let r := (List.range (typeLanes ty)).map (fun j => (laneTrue i.p b j, f j))
  { writes := [(.vreg w.vd.toNat (maskOf b (laneTrue i.p b)) (ofLanes (8 * b) (r.map (fun x => x.2.1))), i.psn)]
    flags := orFlags (r.map (fun x => if x.1 then x.2.2 else 0)) }

/-- An operation of one, two or three operands lane by lane. -/
def lanes1 (s : State) (p : Pipe) (w : VWord) (lat : Nat) (f : Nat → Nat × Flags) : Out :=
  issueVec s p w { vb := false } lat fun _ i =>
    laneWise w.ty.toNat w i fun j => f (lane i.a (laneBits w.ty.toNat) j)

def lanes2 (s : State) (p : Pipe) (w : VWord) (lat : Nat) (f : Nat → Nat → Nat × Flags) : Out :=
  issueVec s p w {} lat fun _ i =>
    laneWise w.ty.toNat w i fun j => f (lane i.a (laneBits w.ty.toNat) j) (lane i.b (laneBits w.ty.toNat) j)

def lanes3 (s : State) (p : Pipe) (w : VWord) (lat : Nat) (f : Nat → Nat → Nat → Nat × Flags) : Out :=
  issueVec s p w { vc := true } lat fun _ i =>
    laneWise w.ty.toNat w i fun j =>
      f (lane i.a (laneBits w.ty.toNat) j) (lane i.b (laneBits w.ty.toNat) j) (lane i.c (laneBits w.ty.toNat) j)

/-! ### Lane arithmetic (R210, R211) -/

/-- A floating operation of two operands, or an integer one wrapped or clamped. -/
def arith2 (w : VWord) (ff : FVal → FVal → FVal × Bool) (fi : Int → Int → Int) (x y : Nat) : Nat × Flags :=
  if w.float then w.fmt.finish (ff (w.fmt.decode x) (w.fmt.decode y)) w.mode w.saturates
  else intResult (isSigned w.t) w.bits w.saturates (fi (w.int x) (w.int y))

/-- Minimum or maximum (R211): −0 below +0, a NaN gives the canonical NaN, no flag. -/
def minMax (ty : Nat) (max : Bool) (x y : Nat) : Nat :=
  if isFloat ty then
    let f := fpOfType ty
    let a := f.decode x
    let b := f.decode y
    if a.isNan || b.isNan then f.nanBits
    else if max then (if flessOrdered a b then y else x) else (if flessOrdered b a then y else x)
  else
    let a := intOf (isSigned ty) (laneBits ty) x
    let b := intOf (isSigned ty) (laneBits ty) y
    if max then (if a < b then y else x) else (if b < a then y else x)

/-- VABS and VNEG of a floating lane change only the sign bit; a NaN gives the canonical NaN (R211). -/
def signLane (f : FpFmt) (x : Nat) (s : Nat → Nat) : Nat :=
  if (f.decode x).isNan then f.nanBits
  else s (x / 2 ^ (f.ebits + f.tbits) % 2) * 2 ^ (f.ebits + f.tbits) + x % 2 ^ (f.ebits + f.tbits)

def absLane (w : VWord) (x : Nat) : Nat × Flags :=
  if w.float then (signLane w.fmt x (fun _ => 0), 0)
  else intResult (isSigned w.t) w.bits w.saturates (w.int x).natAbs

def negLane (w : VWord) (x : Nat) : Nat × Flags :=
  if w.float then (signLane w.fmt x (fun s => 1 - s), 0)
  else intResult (isSigned w.t) w.bits w.saturates (-(w.int x))

/-! ### Combination of VSCAN and VRED (R220, R221) -/

/-- OP: 0 add, 1 min, 2 max, 3 or. DESIGN CHOICE (log entry 70): with SAT a floating sum that is infinite is clamped as R179 clamps results
of R210 and R211. -/
def combine (ty op rm : Nat) (sat : Bool) (x y : Nat) : Nat × Flags :=
  match op with
  | 0 =>
    if isFloat ty then
      let f := fpOfType ty
      f.finish (fadd rm (f.decode x) (f.decode y)) rm sat
    else
      intResult (isSigned ty) (laneBits ty) sat (intOf (isSigned ty) (laneBits ty) x + intOf (isSigned ty) (laneBits ty) y)
  | 1 => (minMax ty false x y, 0)
  | 2 => (minMax ty true x y, 0)
  | _ => (x ||| y, 0)

/-- The identity VRED answers when no lane takes part (R221). -/
def redIdentity (ty op : Nat) : Nat :=
  match op with
  | 1 => if isFloat ty then (fpOfType ty).infBits else wrapTo (laneBits ty) (intMax (isSigned ty) (laneBits ty))
  | 2 => if isFloat ty then (fpOfType ty).signBit true + (fpOfType ty).infBits
         else wrapTo (laneBits ty) (intMin (isSigned ty) (laneBits ty))
  | _ => 0

/-- Running combination: the prefix after each lane with the flags of its step. -/
def scanPrefix (comb : Nat → Nat → Nat × Flags) (pre : Nat) : List Nat → List (Nat × Flags)
  | [] => []
  | x :: rest =>
    let r := comb pre x
    r :: scanPrefix comb r.1 rest

/-- VSCAN (R220): result lanes with flags; a prefix step counts when some lane at or after it is true. -/
def scanLanes (comb : Nat → Nat → Nat × Flags) (carry : Nat) (xs : List Nat) (true_ : Nat → Bool) : List Nat × Flags :=
  match xs with
  | [] => ([], 0)
  | x :: rest =>
    let pre := (x, (0 : Flags)) :: scanPrefix comb x rest
    let n := pre.length
    let out := (pre.zip (List.range n)).map (fun (p, j) =>
      let r := comb carry p.1
      let later := (List.range n).any (fun k => decide (j ≤ k) && true_ k)
      (r.1, (if later then p.2 else 0) ||| (if true_ j then r.2 else 0)))
    (out.map (fun o => o.1), orFlags (out.map (fun o => o.2)))

/-- A lane as a result: a floating NaN is canonical (R173). -/
def canonLane (ty x : Nat) : Nat :=
  if isFloat ty && ((fpOfType ty).decode x).isNan then (fpOfType ty).nanBits else x

/-- VRED (R221): the true lanes combined in increasing order; `canon` is a lane as a result. DESIGN CHOICE (log entry 70): one lane alone
is no sum, and an infinite one is not clamped. -/
def redLanes (comb : Nat → Nat → Nat × Flags) (canon : Nat → Nat) (identity : Nat) : List Nat → Nat × Flags
  | [] => (identity, 0)
  | x :: rest => rest.foldl (fun acc y =>
      let r := comb acc.1 y
      (r.1, acc.2 ||| r.2)) (canon x, 0)

/-! ### Widening (R213) -/

/-- The wide value of a source lane and the wide result: binary32 for floating types, twice the width for integers. -/
def wideResult (w : VWord) (r : FVal × Bool ⊕ Int) : Nat × Flags :=
  match r with
  | .inl v => fmtF32.finish v w.mode w.saturates
  | .inr x => intResult (isSigned w.t) (2 * w.bits) w.saturates x

/-- Widening result for every source lane: lane i goes to register i / (L/2) of the pair, lane i mod (L/2). -/
def widen (w : VWord) (i : VIn) (f : Nat → Nat × Flags) : VOut :=
  let n := typeLanes w.t
  let b := typeBytes w.t
  let half := n / 2
  let r := (List.range n).map (fun j => (laneTrue i.p b j, f j))
  let part (h : Nat) : WriteTarget × Bool :=
    (.vreg (w.vd.toNat + h) (maskOf (2 * b) (fun j => laneTrue i.p b (h * half + j)))
      (ofLanes (16 * b) (((r.drop (h * half)).take half).map (fun x => x.2.1))), i.psn)
  { writes := [part 0, part 1], flags := orFlags (r.map (fun x => if x.1 then x.2.2 else 0)) }

end Sys2Proof.Machine
end

