-- ==== Sys2Proof/Machine/Sync.lean ====
section
/-! DEFINITION. The sync engines: operations at their homes, waiters, answers, the async log (R43-R45, R235-R258). -/

namespace Sys2Proof.Machine

/-! ### Homes (R235) -/

/-- Device memory, not host memory. -/
def Loc.isDevice (l : Loc) : Bool := decide (l.home < 8)

/-- The sync SRAM holds 8 MiB of lines. -/
def syncCapacity : Nat := 131072

def dropLast {α : Type} (p : α → Bool) (l : List α) : List α := (l.reverse.eraseP p).reverse

/-- The engine holds a line for a partition, evicting the partition's least recently used line where its share is full, and any
partition's where the whole SRAM is (log entry 6); a line with a waiter stays (R1, R236, R354). -/
def Die.holdLine (d : Die) (key part : Nat) : Die :=
  let rest := d.syncLines.filter (fun x => decide (x.1 ≠ key))
  let share := min syncCapacity (SMap.getD d.syncShare part syncCapacity)
  let waited (k : Nat) : Bool := d.waiters.any (fun w => decide (lineKey w.pkg (w.pa / 64) = k))
  let kept := if (rest.filter (fun x => decide (x.2 = part))).length < share then rest
    else dropLast (fun x => decide (x.2 = part) && !waited x.1) rest
  let room := if kept.length < syncCapacity then kept else dropLast (fun x => !waited x.1) kept
  { d with syncLines := (key, part) :: room.take (syncCapacity - 1) }

def State.holdLine (s : State) (l : Loc) (part : Nat) : State :=
  if l.isDevice then s.updDie l.engine (fun d => d.holdLine (lineKey l.pkg (l.pa / 64)) part) else s

/-! ### Atomics (R243, R244) -/

/-- Operations of an atomic: 1 add, 2 min, 3 max, 4 and, 5 or, 6 xor, 7 swap, 8 compare and swap. -/
def atomicNew (op : Nat) (ty : BitVec 4) (old x cmp : Nat) : Nat :=
  let w := 8 * synTypeBytes ty
  let signed := ty == 0 || ty == 2
  let float := ty == 4
  if op = 1 then
    (if float then (fmtF32.encode (fadd 0 (fmtF32.decode old) (fmtF32.decode x)).1 0 false).1 else (old + x) % 2 ^ w)
  else if op = 2 ∨ op = 3 then
    (if float then minMax 0 (op == 3) old x
     else if decide (intOf signed w x < intOf signed w old) == (op == 2) then x else old)
  else if op = 4 then old &&& x
  else if op = 5 then old ||| x
  else if op = 6 then old ^^^ x
  else if op = 7 then x
  else if old = cmp then x else old

/-- One atomic at its home: the state and the old value with its poison. -/
def State.atomic (s : State) (l : Loc) (op : Nat) (ty : BitVec 4) (operand : Nat) (poison : Bool) : State × Nat × Bool :=
  let n := synTypeBytes ty
  let old := leNat (s.homeBytes l.pkg l.pa n)
  let x := operand % 2 ^ (8 * n)
  let cmp := operand / 2 ^ (8 * n) % 2 ^ (8 * n)
  let oldPoison := s.linePoisoned l.pkg (l.pa / 64)
  let s1 := if op = 8 ∧ old ≠ cmp then s
    else s.homeWriteBytes l.pkg l.pa (leBytes n (atomicNew op ty old x cmp)) poison false
  (s1, old, oldPoison || poison)

/-! ### Barriers (R245-R249) -/

structure Barrier where
  expected : Nat
  arrived : Nat
  phase : Nat
  flags : Nat
  drops : Nat
  target : Nat
  bytes : Nat

def State.barrier (s : State) (l : Loc) : Barrier :=
  let f (off n : Nat) : Nat := leNat (s.homeBytes l.pkg (l.pa + off) n)
  { expected := f 0 4, arrived := f 4 4, phase := f 8 4, flags := f 12 2, drops := f 14 2, target := f 16 8, bytes := f 24 8 }

def Barrier.record (b : Barrier) : List Byte :=
  leBytes 4 b.expected ++ leBytes 4 b.arrived ++ leBytes 4 b.phase ++ leBytes 2 b.flags ++ leBytes 2 b.drops ++
  leBytes 8 b.target ++ leBytes 8 b.bytes

def State.putBarrier (s : State) (l : Loc) (b : Barrier) (poison : Bool) : State :=
  s.homeWriteBytes l.pkg l.pa b.record poison false

/-- TryComplete of R247. -/
def Barrier.tryComplete (b : Barrier) : Barrier :=
  if b.expected ≤ b.arrived ∧ (b.flags.testBit 1 = false ∨ b.target ≤ b.bytes) then
    { b with
      phase := (b.phase + 1) % 2 ^ 32, arrived := 0, expected := b.expected - b.drops, drops := 0
      bytes := b.bytes - b.target
      flags := (b.flags / 2 % 2 * 2) + (if b.flags.testBit 2 then 1 else 0) }
  else b

def Barrier.arrive (b : Barrier) (drop : Bool) : Barrier :=
  { b with arrived := min (b.arrived + 1) (2 ^ 32 - 1), drops := if drop then min (b.drops + 1) 65535 else b.drops }.tryComplete

def Barrier.credit (b : Barrier) (n : Nat) (poison : Bool) : Barrier :=
  { b with bytes := min (b.bytes + n) (2 ^ 64 - 1), flags := if poison then b.flags ||| 4 else b.flags }.tryComplete

/-- BRST (R246). -/
def Barrier.reset (b : Barrier) (operand : Nat) : Barrier :=
  let target := operand / 2 ^ 64 % 2 ^ 64
  { b with expected := operand % 2 ^ 32, target := target, arrived := 0, drops := 0, bytes := 0
           flags := b.flags % 2 + (if target ≠ 0 then 2 else 0) }

/-! ### Refusals of a remote home (R257) -/

def causeULIDST : Nat := 1
def causeDENIED : Nat := 2
def causeRETIRED : Nat := 3
def causeUNREACH : Nat := 4

/-- Whether and why a home on another package refuses: no route; retired memory; or, as the spec gives no further condition, its
partition's denial by a free choice (log entry 6). The location is none for an interrupt. -/
def remoteRefusal (s : State) (c : Context) (die : Nat) (l : Option Loc) : Option Nat :=
  if pkgOfDie die = c.pkg then none
  else if s.apart c die then some causeUNREACH
  else if l.any s.homeRetired then some causeRETIRED
  else if Config.freeBool s.freeCount 1 then some causeDENIED
  else none

/-! ### SYNC_OP_PERFORM (R43, R44, R255, R258) -/

def Context.setSync (c : Context) (o : SyncOp) : Context :=
  { c with fl := { c.fl with syncOps := c.fl.syncOps.map (fun x => if x.id = o.id then o else x) } }
def Context.dropSync (c : Context) (id : Nat) : Context :=
  { c with fl := { c.fl with syncOps := c.fl.syncOps.filter (fun x => decide (x.id ≠ id)) } }

/-- Target of a ULI: bits [31:25] must be zero (R254). -/
def SyncOp.target (o : SyncOp) : Nat := o.operand.toNat % 2 ^ 32
/-- The die that performs an operation; none for SFENCE. -/
def SyncOp.homeOf (o : SyncOp) : Option Nat :=
  if o.op = 17 then none
  else if o.op = 16 then some (dieOfCtx (o.target % 2 ^ 25))
  else some o.loc.engine

/-- Its home: package and home code; the die of an interrupt's target (R44, R254). -/
def SyncOp.homeKey (o : SyncOp) : Nat × Nat :=
  if o.op = 16 then (pkgOfDie (dieOfCtx (o.target % 2 ^ 25)), dieOfCtx (o.target % 2 ^ 25) % 8) else (o.loc.pkg, o.loc.home)

/-- Has not reached its home. -/
def SyncState.away : SyncState → Bool
  | .issued => true
  | .committed => true
  | .ready => true
  | .sent => true
  | .busy _ => true
  | _ => false

/-- Has not left the sync queue, or not the context. -/
def SyncState.queued : SyncState → Bool
  | .issued => true
  | .committed => true
  | _ => false

/-- A generator load that precedes it waits (R35), or what comes before it in the sync queue has not left it (R44): a sync operation, or the
PHASE of an earlier bundle or of its own; an operation for another package leaves after every earlier one of those (R257). -/
def Context.syncWaits (c : Context) (o : SyncOp) : Bool :=
  c.loadsBefore o.idx || c.fl.syncOps.any (fun x => decide (x.id < o.id) && (x.state.queued || (x.state == .ready && x.homeKey.1 != c.pkg && o.homeKey.1 != c.pkg))) ||
  c.ord.phases.any (fun p => match p.owner with | .mem i => decide (i ≤ o.idx) | _ => false)

/-- An earlier operation of the context stands before it in the queue, or has the same home and is not there yet (R44). -/
def Context.syncBlocked (c : Context) (o : SyncOp) : Bool :=
  if o.op = 17 then c.fl.syncOps.any (fun x => decide (x.id < o.id))
  else (o.state != .sent && c.syncWaits o) ||
    c.fl.syncOps.any (fun x => decide (x.id < o.id) && x.state.away && decide (x.homeKey = o.homeKey))

/-- The sync addresses sent, the last 64 (R332). -/
def Context.noteSent (c : Context) (o : SyncOp) : Context :=
  if synWidth o.op.toNat o.w.ty = 0 then c
  else
    let l := c.ord.syncAddrs ++ [(o.va, BitVec.ofNat 32 (o.op.toNat + o.w.ty.toNat * 2 ^ 8), o.seq, memKey o.loc.pkg o.loc.pa)]
    { c with ord := { c.ord with syncAddrs := l.drop (l.length - 64) } }

/-- A BWAIT or SWAIT at its home: answered at once, entered in the waiter table, or BUSY (R248, R253, R258). -/
def State.performWait (s : State) (k : Nat) (c : Context) (o : SyncOp) : State × SyncState :=
  let kind : WatchKind := if o.op = 12 then .barrier (o.operand.extractLsb' 0 32) else .signal (o.operand.extractLsb' 0 64)
  if watchHolds s o.loc.pkg o.loc.pa kind then (s, .answered 0 false (o.op == 12))
  else if 8192 ≤ ((s.die o.loc.engine).waiters.filter (fun w => !w.answered)).length then (s, .busy (s.core c.coreKey).cycle.toNat)
  else
    (s.updDie o.loc.engine (fun d => { d with waiters := d.waiters ++
      [{ who := .context k o.id, pkg := o.loc.pkg, pa := o.loc.pa, kind := kind, answered := false, progress := false }] }), .waiting)

/-- The one step at the home (R43 step 2): the state, and where the operation then stands. -/
def State.performSync (s : State) (k : Nat) (c : Context) (o : SyncOp) : State × SyncState :=
  let op := o.op.toNat
  let x := o.operand.toNat
  if op ≤ 8 then
    let (s1, old, p) := s.atomic o.loc op o.w.ty x o.poison
    (s1, .answered (BitVec.ofNat 64 old) p false)
  else if op = 9 then ((s.atomic o.loc (o.w.sub.toNat + 1) o.w.ty x o.poison).1, .answered 0 false false)
  else if op = 10 ∨ op = 11 then (s.putBarrier o.loc ((s.barrier o.loc).arrive (op == 11)) false, .answered 0 false false)
  else if op = 12 ∨ op = 15 then s.performWait k c o
  else if op = 13 then
    let b := s.barrier o.loc
    (s, .answered (BitVec.ofNat 64 (b.phase + b.flags * 2 ^ 32)) (s.linePoisoned o.loc.pkg (o.loc.pa / 64)) false)
  else if op = 14 then
    let v := s.home64 o.loc.pkg o.loc.pa + o.operand.extractLsb' 0 64
    (s.homeWriteBytes o.loc.pkg o.loc.pa (leBytes 8 v.toNat) o.poison false, .answered 0 false false)
  else if op = 16 then
    match (if 2 ^ 25 ≤ o.target then some 1 else s.reachable o.target c.id.tenant) with
    | some _ => (s, .refused causeULIDST)
    | none => (s.setUlipend o.target o.w.sub.toNat, .answered 0 false false)
  else if op = 17 then (s, .answered 0 false false)
  else (s.putBarrier o.loc ((s.barrier o.loc).reset x) o.poison, .answered 0 false false)

/-- An operation for another package that its Serac die is still to send (R45, R257). -/
def Context.toSend (c : Context) (o : SyncOp) : Bool := o.op != 17 && o.state == .ready && o.homeKey.1 != c.pkg

/-- SYNC_OP_PERFORM (R43): an operation for another package is sent first, and leaves the sync queue (R45, R257). -/
def execSyncOpPerform (k n : Nat) (s : State) : Out :=
  atCtx s k fun c =>
    match c.fl.syncOps[n]? with
    | none => s
    | some o =>
      if s.onRetired c && o.state != .sent then s
      else if c.toSend o then
        (if c.syncWaits o || (s.core c.coreKey).frozen || (!c.runs && decide (o.op = 12 ∨ o.op = 15)) then s else s.setCtx k (c.setSync { o with state := .sent }))
      else if (o.state != .ready && o.state != .sent) || c.syncBlocked o || (s.core c.coreKey).frozen || (!c.runs && decide (o.op = 12 ∨ o.op = 15)) then s
      else
        let die := o.homeOf.getD c.die
        let (s1, st) : State × SyncState := match remoteRefusal s c die (if o.op = 16 ∨ o.op = 17 then none else some o.loc) with
          | some cause => (s, .refused cause)
          | none => (if synWidth o.op.toNat o.w.ty = 0 then s else s.holdLine o.loc c.id.part).performSync k c o
        s1.updCtx k fun c =>
          let c1 := (c.noteSent o).setSync { o with state := st }
          if synScoped o.op.toNat then c1.dropInScope o.scope else c1

/-! ### Answers (R240-R242, R257) -/

/-- The result goes into the operation's landing entry (R240). -/
def Context.syncLands (c : Context) (o : SyncOp) (data : Word) (poison : Bool) : Context :=
  { c with fl := { c.fl with landings := c.fl.landings.map (fun l =>
      if l.kind = 2 ∧ l.idx = o.idx then { l with data := data.setWidth 512, poison := poison } else l) } }

/-- The operation is complete: it leaves the queue, its hold is released. -/
def Context.syncDone (c : Context) (o : SyncOp) (data : Word) (poison progress : Bool) : Context :=
  let c1 := (c.syncLands o data poison).dropSync o.id
  let c2 := { c1 with
    fl := { c1.fl with syncHold := if c1.fl.syncHold = some o.id then none else c1.fl.syncHold }
    sch := { c1.sch with parkedAnswered := if c1.fl.syncHold = some o.id then false else c1.sch.parkedAnswered } }
  let c3 := if o.op = 12 ∨ o.op = 15 then c2.dropInScope o.scope else c2
  if progress then c3.progress else c3

/-- The waiter's answered entry at its home. -/
def State.answeredEntry (s : State) (k : Nat) (o : SyncOp) : Option WaitEntry :=
  (s.die o.loc.engine).waiters.find? (fun w => w.answered && w.who == .context k o.id)

def State.dropWaiter (s : State) (die : Nat) (who : Waiter) : State :=
  s.updDie die (fun d => { d with waiters := d.waiters.filter (fun w => w.who != who) })

/-- Withdraws a context's waiters from their homes; the wait is to be sent again (R242, R278, R329). -/
def State.withdrawWaiters (s : State) (k : Nat) : State :=
  match s.ctx k with
  | none => s
  | some c =>
    let s1 := (c.fl.syncOps.filter (fun o => o.state == .waiting)).foldl (fun s o => s.dropWaiter o.loc.engine (.context k o.id)) s
    s1.updCtx k fun c => { c with fl := { c.fl with syncOps := c.fl.syncOps.map (fun o =>
      if o.state == .waiting then { o with state := .ready } else o) } }

/-- SYNC_ANSWER_ARRIVAL (R242): an acknowledgement or answer reaches the context; for a saved context with a parked wait it
reaches the scheduler, which records it. SFENCE checks the async log (R255). -/
def execSyncAnswerArrival (k n : Nat) (s : State) : Out :=
  atCore s k fun c =>
    match c.fl.syncOps[n]? with
    | none => s
    | some o =>
      match o.state with
      | .answered data p progress =>
        if o.op = 17 ∧ !c.ord.asyncLog.isEmpty then s.asyncHalt k
        else if c.status == .nonres && decide (c.fl.syncHold = some o.id) then s.setCtx k { c with sch := { c.sch with parkedAnswered := true } }
        else s.setCtx k (c.syncDone o data p progress)
      | .waiting =>
        match s.answeredEntry k o with
        | none => s
        | some w =>
          let s1 := s.dropWaiter o.loc.engine (.context k o.id)
          if c.status == .nonres then
            let c1 := if w.progress then c.progress else c
            s1.setCtx k ({ c1 with sch := { c1.sch with parkedAnswered := true } }.setSync { o with state := .answered 0 false false })
          else s1.setCtx k (c.syncDone o 0 false w.progress)
      | _ => s

/-- WAITER_BUSY_RESEND (R258): 1,024 core cycles after the BUSY answer. -/
def execWaiterBusyResend (k : Nat) (s : State) : Out :=
  atCore s k fun c =>
    let now := (s.core c.coreKey).cycle.toNat
    s.setCtx k { c with fl := { c.fl with syncOps := c.fl.syncOps.map (fun o => match o.state with
      | .busy at_ => if at_ + 1024 ≤ now then { o with state := .ready } else o
      | _ => o) } }

/-- ASYNC_LOG_RECORD (R257): a refusal returns; a returning operation delivers zeros, poisoned; the sixty-fifth record halts
the context at once (R45). -/
def execAsyncLogRecord (k n : Nat) (s : State) : Out :=
  atCtx s k fun c =>
    match c.fl.syncOps[n]? with
    | none => s
    | some o =>
      match o.state with
      | .refused cause =>
        let r : AsyncRec :=
          { va := o.va, operand := o.operand.extractLsb' 0 64, seq := o.seq, op := o.op, ty := o.w.ty, sub := o.w.sub, cause := cause,
            pc := o.pc }
        let c1 := c.syncDone o 0 true false
        let s1 := s.setCtx k { c1 with ord := { c1.ord with asyncLog := c1.ord.asyncLog ++ [r] } }
        if 64 ≤ c.ord.asyncLog.length then s1.asyncHalt k else s1
      | _ => s

/-- BARRIER_CREDIT (R41, R247). -/
def execBarrierCredit (n : Nat) (s : State) : Out :=
  match s.credits[n]? with
  | none => .next s
  | some c =>
    .next (({ s with credits := s.credits.eraseIdx n } : State).putBarrier c.loc ((s.barrier c.loc).credit c.bytes c.poison) false)

end Sys2Proof.Machine
end

