-- ==== Sys2Proof/Machine/Transfer.lean ====
section
/-! DEFINITION. Block-transfer engines (R164-R167). -/

namespace Sys2Proof.Machine

def Die.engine (d : Die) (c : Nat) : BtEngine := SMap.getD d.bt c BtEngine.reset
def State.bt (s : State) (die c : Nat) : BtEngine := (s.die die).engine c
def State.setBt (s : State) (die c : Nat) (e : BtEngine) : State := s.updDie die (fun d => { d with bt := SMap.put d.bt c e })

def btNOENG : Nat := 1
def btENGBUSY : Nat := 2
def btBADTMPL : Nat := 3
def btBADARG : Nat := 4
def btFAULT : Nat := 5
def btABORTED : Nat := 6

/-- A report sets the engine's last report code and goes to the event queue (R164). -/
def State.btReport (s : State) (die c code : Nat) : State :=
  (s.setBt die c { s.bt die c with report := code }).post (.cobalt die) 5 c (BitVec.ofNat 64 code) 0

/-- The engine is the partition's: assigned to it, on a die where the partition has the engine type (R164, R259). -/
def State.btOwned (s : State) (die c part : Nat) : Bool :=
  decide ((s.bt die c).owner = some part) && ((s.die die).part part).eng.getLsbD 1

/-- An aperture store (R164). -/
def State.btStore (s : State) (die part off size : Nat) (v : Word) (root : Nat) : State :=
  let c := off / 8
  if 32 ≤ c then s
  else if !s.btOwned die c part then s.btReport die c btNOENG
  else if size ≠ 8 ∨ v.extractLsb' 32 32 ≠ 0 then s.btReport die c btBADARG
  else
    let e := s.bt die c
    if 4 ≤ e.starts.length then s.btReport die c btENGBUSY
    else s.setBt die c { e with starts := e.starts ++ [{ templ := v.toNat % 2 ^ 16, arg := v.toNat / 2 ^ 16 % 2 ^ 16, part := part, root := root }] }

/-- An aperture load: the engine's status word. -/
def State.btLoad (s : State) (die part off : Nat) : Word :=
  let c := off / 8
  if 32 ≤ c ∨ !s.btOwned die c part then 0
  else
    let e := s.bt die c
    BitVec.ofNat 64 ((if e.run.isSome then 1 else 0) + e.starts.length * 2 + e.report * 2 ^ 8 + e.count.toNat * 2 ^ 32)

/-- BT_START (R164). -/
def execBtStart (die part off size : Nat) (value : Word) (root : Nat) (s : State) : Out := .next (s.btStore die part off size value root)

/-! ### Templates (R165) -/

def BtRun.f (r : BtRun) (off n : Nat) : Nat := recField r.templ off n
def BtRun.flags (r : BtRun) : Nat := r.f 0 4
def BtRun.elem (r : BtRun) : Nat := 2 ^ (r.f 4 4 % 4)
def BtRun.bound (r : BtRun) (d : Nat) : Nat := let b := r.f (24 + 4 * d) 4; if b = 0 then 1 else b
def BtRun.elems (r : BtRun) : Nat := (List.range 6).foldl (fun a d => a * r.bound d) 1
def BtRun.chunks (r : BtRun) : Nat := (r.elems * r.elem + 255) / 256
def BtRun.idx (r : BtRun) (o : Nat) : List Nat :=
  ((List.range 6).foldl (fun (a : List Nat × Nat) d => (a.1 ++ [a.2 % r.bound d], a.2 / r.bound d)) ([], o)).1
/-- Address of element o from an address field, a stride field and an argument offset (R144, R166). -/
def BtRun.addr (r : BtRun) (base strides argOff : Nat) (add : Bool) (o : Nat) : Word :=
  let idx := r.idx o
  (List.range 6).foldl (fun a d => a + BitVec.ofNat 64 (idx.getD d 0) * (BitVec.ofNat 32 (r.f (strides + 4 * d) 4)).signExtend 64)
    (BitVec.ofNat 64 (r.f base 8) + (if add then BitVec.ofNat 64 (recField r.arg argOff 8) else 0))
def BtRun.src (r : BtRun) (o : Nat) : Word := r.addr 8 48 0 (r.flags.testBit 1) o
def BtRun.dst (r : BtRun) (o : Nat) : Word := r.addr 16 72 8 (r.flags.testBit 2) o
def BtRun.ctx (r : BtRun) (die : Nat) : Context := agentCtx die r.start.part r.start.root

/-- The transfer is aborted: report FAULT, then ABORTED; the engine takes its next start (R167). -/
def State.btAbort (s : State) (die c : Nat) : State :=
  ((s.setBt die c { s.bt die c with run := none }).btReport die c btFAULT).btReport die c btABORTED

/-- The record of a suspended engine that goes to Deresk (R167): engine, template and argument indices, cursor, fault address, cause;
DESIGN CHOICE (log entry 48): its form. -/
def BtRun.record (r : BtRun) (c : Nat) (x : XFault) : List Byte :=
  leBytes 2 c ++ leBytes 2 r.start.templ ++ leBytes 2 r.start.arg ++ leBytes 8 r.done ++ leBytes 8 x.va.toNat ++ leBytes 1 x.sub.toNat

/-- A translation fault suspends the engine, and its record goes to Deresk (R167); NOTPRES goes to the fault queue (R324). -/
def State.btFault (s : State) (die c : Nat) (r : BtRun) (x : XFault) : State :=
  let s1 := (s.setBt die c { s.bt die c with run := some { r with suspended := true, fault := some x } }).report (seracOfDie die) fwPFAULT
    (r.record c x)
  if isNotPres x.sub then
    s1.queueFault (.cobalt die)
      { seq := 0, source := 4, who := c, va := x.va, pc := 0, emitseq := 0, sub := x.sub, unit := 0, record := [] }
  else s1

/-- The fault entry is closed as served: the engine goes on from its cursor, or reads its template again (R167). -/
def State.btServed (s : State) (die c : Nat) : State :=
  let e := s.bt die c
  match e.run with
  | none => s
  | some r => s.setBt die c { e with run := some { r with suspended := false, fault := none } }

/-- Deresk's choice for an engine whose fault is none of a fault queue: it resumes the engine from its cursor or aborts it (R167; which,
and when, is Deresk's: log entry 48). -/
def State.btDecide (s : State) (die c : Nat) : State :=
  if Config.freeBool s.freeCount 5 then s.btServed die c else s.btAbort die c

/-- Template and argument entry of a start: bytes, a bad template, or a fault (R165, R166). -/
def btRead (s : State) (die : Nat) (st : BtStart) : Except XFault (Option (List Byte × List Byte)) :=
  let (base, count) := SMap.getD (s.die die).btTabs st.part (0, 0)
  if count ≤ st.templ then .ok none
  else match readIpa s die st.part (base + 128 * st.templ) 128 with
    | .error x => .error x
    | .ok t =>
      if !(recField t 0 4).testBit 0 then .ok none
      else
        let g := readRange s (agentCtx die st.part st.root) (BitVec.ofNat 64 (recField t 96 8 + 32 * st.arg)) 32
        match g.fault with
        | some x => .error x
        | none => .ok (some (t, g.bytes.map (·.1)))

/-- An engine reads template and argument of the start it has taken (R165, R166). -/
def State.btBegin (s : State) (die c : Nat) (st : BtStart) : State :=
  let r : BtRun := { start := st, templ := [], arg := [], done := 0, lines := 0, suspended := false, fault := none }
  match btRead s die st with
  | .error x => s.btFault die c r x
  | .ok none => (s.setBt die c { s.bt die c with run := none }).btReport die c btBADTMPL
  | .ok (some (t, a)) => s.setBt die c { s.bt die c with run := some { r with templ := t, arg := a } }

/-- The transfer waits to read its template and argument again after a fault of theirs (R167). -/
def BtRun.rereads (r : BtRun) : Bool := r.templ.isEmpty && !r.suspended

/-- BT_TAKE_START (R166). -/
def execBtTakeStart (die c : Nat) (s : State) : Out :=
  let e := s.bt die c
  .next (match e.run, e.starts with
    | none, st :: rest => (s.setBt die c { e with starts := rest }).btBegin die c st
    | some r, _ => if r.rereads then s.btBegin die c r.start else s
    | none, [] => s)

/-- Reads and writes of a chunk: stores by line, or the lowest fault. -/
def btChunk (s : State) (die : Nat) (r : BtRun) : Except XFault (List PbEntry) :=
  let ctx := r.ctx die
  let e := r.elem
  let lo := r.done * 256 / e
  let els := (List.range (min (256 / e) (r.elems - lo))).map (lo + ·)
  let step (acc : Option XFault × List PbEntry) (o : Nat) : Option XFault × List PbEntry :=
    let g := fillRead s ctx (r.src o) e
    let el := translateElement s ctx (r.dst o) e .store
    match lowerFault g.fault el.fault with
    | some f => (lowerFault acc.1 (some f), acc.2)
    | none => (acc.1, (storeParts el (leNat (g.bytes.map (·.1))) (g.bytes.any (·.2))).foldl pbInsert acc.2)
  match els.foldl step (none, []) with
  | (some f, _) => .error f
  | (none, l) => .ok l

/-- Lines of the next chunk. -/
def BtRun.need (r : BtRun) : Nat := (min 256 (r.elems * r.elem - r.done * 256) + 63) / 64

/-- In a core cycle a running engine moves a line at most (R166). -/
def BtEngine.pass (e : BtEngine) : BtEngine :=
  { e with run := e.run.map (fun r =>
      if r.suspended || r.templ.isEmpty || decide (r.chunks ≤ r.done ∨ r.need ≤ r.lines) then r else { r with lines := r.lines + 1 }) }

def Die.passBt (d : Die) : Die := { d with bt := d.bt.map (fun p => (p.1, p.2.pass)) }

/-- BT_CHUNK (R166, R167): once the lines of the chunk have had their core cycles. A suspended engine waits for its fault entry, or for
Deresk's choice. -/
def execBtChunk (die c : Nat) (s : State) : Out :=
  match (s.bt die c).run with
  | none => .next s
  | some r =>
    if r.suspended then
      .next (match r.fault with
        | some x => if isNotPres x.sub then s else s.btDecide die c
        | none => s)
    else if r.templ.isEmpty ∨ r.chunks ≤ r.done ∨ r.lines < r.need then .next s
    else
      .next (match btChunk s die r with
        | .error x => s.btFault die c r x
        | .ok lines =>
          (lines.foldl (fun s l => s.homeWriteLine l.loc.pkg (l.loc.pa / 64) l.mask l.data l.poison false) s).setBt die c
            { s.bt die c with run := some { r with done := r.done + 1, lines := 0 } })

/-- BT_COMPLETE (R166): the signal, then the interrupt, then the count. -/
def execBtComplete (die c : Nat) (s : State) : Out :=
  match (s.bt die c).run with
  | none => .next s
  | some r =>
    if r.suspended || r.templ.isEmpty || decide (r.done < r.chunks) then .next s
    else
      let mode := r.flags / 8 % 4
      let inc := let n := recField r.arg 16 8; if n = 0 then 1 else n
      let sig : Except XFault (Option Loc) :=
        if mode % 2 = 1 then
          (match translate s (r.ctx die) (BitVec.ofNat 64 (r.f 104 8)) .store with
            | .error x => .error x
            | .ok l => .ok (some l))
        else .ok none
      .next (match sig with
        | .error x => s.btFault die c r x
        | .ok l =>
          let s1 := match l with
            | some l => s.agentSignal l (BitVec.ofNat 64 inc) false false
            | none => s
          let s2 := if 2 ≤ mode then
              s1.agentUli (.cobalt die) (r.f 112 4) (r.f 116 4) ((s.die die).part r.start.part).tenant false
            else s1
          let e := s2.bt die c
          s2.setBt die c { e with run := none, count := e.count + 1 })

end Sys2Proof.Machine
end

