-- ==== Sys2Proof/Machine/Sched.lean ====
section
/-! DEFINITION. The context scheduler: die cycles, residency, drains, rollbacks, restores, checkpoints, landing replays
(R128, R259-R282). -/

namespace Sys2Proof.Machine

/-! ### Eligibility and checkpoints (R275-R277) -/

/-- A SYN write or an RPUT has issued after number `i` (R277). -/
def Context.sideIssued (c : Context) (i : Nat) : Bool :=
  c.fl.syncOps.any (fun o => decide (i ≤ o.idx) && synSpoils o.op.toNat) || c.fl.copyOps.any (fun o => decide (i ≤ o.idx ∧ o.op = 7))

/-- Eligible for rollback (R277). -/
def Context.eligible (c : Context) : Bool :=
  match c.chk.latest with
  | none => false
  | some m => !m.spoiled && !c.chk.logStopped && c.thread.sideOps == m.thread.sideOps && !c.sideIssued m.idx

/-- Every bundle issued before the marker has committed and every operation of those bundles is complete (R275). -/
def Context.settledBefore (c : Context) (i : Nat) : Bool :=
  c.fl.issued.all (fun x => decide (i ≤ x.idx)) && c.fl.copyOps.all (fun o => decide (i ≤ o.idx)) &&
  c.fl.mtxOps.all (fun o => decide (i ≤ o.idx)) && c.fl.syncOps.all (fun o => decide (i ≤ o.idx)) &&
  c.fl.landings.all (fun l => decide (i ≤ l.idx)) &&
  c.ord.phases.all (fun p => match p.owner with | .mem j => decide (i ≤ j) | _ => true)

/-- CHECKPOINT_LATEST (R275, R276). -/
def execCheckpointLatest (k : Nat) (s : State) : Out :=
  atCore s k fun c =>
    match c.chk.pendingMarker with
    | none => s
    | some m =>
      if m.waits || !c.settledBefore m.idx then s
      else s.setCtx k { c with
        ckptseq := c.ckptseq + 1
        chk := { c.chk with latest := some m, pendingMarker := none, logStopped := decide (logLimit < m.logged), since := 0,
                            intervalPlaced := none } }

/-- INTERVAL_CHECKPOINT (R140, R275). -/
def execIntervalCheckpoint (k : Nat) (s : State) : Out :=
  atCore s k fun c => if c.intervalDue then s.setCtx k c.placeInterval else s

/-! ### Pre-emption (R271, R278, R279) -/

/-- A RESIDENT context that may be pre-empted: none with a suspended copy operation (R159). -/
def Context.preemptable (c : Context) : Bool :=
  c.status == .resident && c.sch.preempt.isNone && !c.isFrozen && !c.hasSuspended

/-- A pre-emption begins: a rollback if the context is eligible, else a drain. -/
def Context.beginPreempt (c : Context) : Context :=
  { c with sch := { c.sch with preempt := some (if c.eligible then .rollback else .drain) } }

/-- A key of a core's buffers lies in the windows of a context. -/
def Context.ownsLine (c : Context) (key : Nat) : Bool :=
  let buf := key / 2 ^ 16
  let tile := key % 2 ^ 16 / 256
  let w := c.window (if buf = 3 then 2 else buf)
  decide (winBase w ≤ tile ∧ tile < winBase w + winLimit w)

/-- The window lines of a saved context, without the tiles staged read-only (R279, R280): buffer, window line, content. -/
def Context.windowLines (c : Context) (r : Core) : List (Nat × Nat × BufLine) :=
  (r.lines.filter (fun p => c.ownsLine p.1)).filterMap (fun p =>
    let buf := p.1 / 2 ^ 16
    let wl := p.1 % 2 ^ 16 - winBase (c.window (if buf = 3 then 2 else buf)) * 256
    if c.sch.refetch.any (fun x => decide (x.buf = buf ∧ x.tile = wl / 256)) then none else some (buf, wl, p.2))

/-- The context leaves its slot. -/
def State.leaveSlot (s : State) (k : Nat) (c : Context) : State :=
  s.updCore c.coreKey (fun r => { r with slots := r.slots.filter (fun p => decide (p.2 ≠ k)) })

/-- Saves a context (R279 step 6): its image, its slot freed; the snapshot is not saved. -/
def State.saveContext (s : State) (k : Nat) (status : CtxStatus) : State :=
  match s.ctx k with
  | none => s
  | some c =>
    let r := s.core c.coreKey
    (s.leaveSlot k c).setCtx k { c.performLoads s with
      status := status, slot := none
      ord := { (c.performLoads s).ord with snapshot := [] }
      land := { c.land with refusedSince := false }
      sch := { c.sch with
        savedLines := if c.status == .resident then c.windowLines r else c.sch.savedLines
        preempt := none, yielding := false, sliceDue := false, toRefetch := [], coldSince := r.cycle.toNat, wantingSince := none } }

/-- A sync operation that a drain need not wait for: it has left the context, and is the wait the context parks once that stands
at its home (R242, R279). -/
def SyncOp.settled (o : SyncOp) : Bool :=
  match o.state with
  | .issued => false
  | .committed => false
  | .ready => false
  | .waiting => true
  | _ => !decide (o.op = 12 ∨ o.op = 15)

/-- Steps 1 to 5 of R279 are done. -/
def Context.drained (c : Context) : Bool :=
  c.stopped && c.fl.issued.isEmpty && c.hold.split.isNone && c.fl.copyOps.isEmpty && c.fl.mtxOps.isEmpty &&
  c.fl.landings.all (·.arrived) && c.fl.syncOps.all SyncOp.settled

/-- CONTEXT_DRAIN (R279). -/
def execContextDrain (k : Nat) (s : State) : Out :=
  atCore s k fun c =>
    if c.sch.preempt == some .drain && c.status == .resident && !c.isFrozen && c.drained then s.saveContext k .nonres else s

/-! ### Rollback (R278) -/

/-- The back end at the marker: results of earlier bundles still on their way are merged. -/
def Context.atMarker (c : Context) (m : Marker) : BackEnd :=
  let b := (c.fl.journal.filter (fun w => decide (w.idx < m.idx))).foldl (fun b w => { b with vec := b.vec.write w.target w.poison })
    m.shadow
  { (c.fl.pendingFmt.filter (fun p => decide (p.idx < m.idx))).foldl (fun b p => { b with fmt := p.fmt }) b with cstat := c.be.cstat }

/-- The buffer lines go back to their logged values. -/
def State.undoLines (s : State) (c : Context) (m : Marker) : State :=
  s.updCore c.coreKey (fun r => { r with lines := m.lines.foldl (fun ls e =>
    let buf := e.1
    SMap.put ls (bufKey buf (winBase (c.window (if buf = 3 then 2 else buf)) + e.2.1 / 256) (e.2.1 % 256))
      { data := e.2.2.1, poison := e.2.2.2 }) r.lines })

/-- The lines of OWN pages go back to their logged values; a reader may still get the undone ones (R56). -/
def State.undoOwn (s : State) (c : Context) (m : Marker) : State :=
  m.own.foldl (fun s e =>
    (s.ownWritten c { pkg := e.1 / 2 ^ 46, pa := e.1 % 2 ^ 46 * 64, home := 0, dev := false, own := true }).homeWriteLine (e.1 / 2 ^ 46) (e.1 % 2 ^ 46) (BitVec.allOnes 64) e.2.1 e.2.2 false) s

/-- The context as the marker has it, before it is saved (R278 steps 2, 3, 6, 7). -/
def Context.rolledBack (c : Context) (m : Marker) : Context :=
  let begun := c.fl.copyOps.filter (fun o => o.state.begun)
  let be := begun.foldl (fun (b : BackEnd) o =>
    let r := SMap.getD b.cstat o.w.ch.toNat CopyStat.start
    { b with cstat := SMap.put b.cstat o.w.ch.toNat { r with state := 0 } }) (c.atMarker m)
  { c with
    thread := m.thread
    wait := .none
    queue := []
    be := be
    fl := { c.fl with journal := [], pendingFmt := [], issued := [], landings := [], copyOps := [], mtxOps := [], syncOps := [],
                      syncHold := none, replay := none }
    beFrozen := false, bundleTrap := false
    hold := { bank := 0, bankDone := false, split := none, wait := none, twait := false }
    ord := { c.ord with pbuf := [], snapshot := [], phases := [] }
    chk := { c.chk with latest := some { m with lines := [], own := [], items := [] }, pendingMarker := none, intervalPlaced := none }
    sch := { c.sch with
      refetch := c.sch.refetch.filter (fun x => !(m.lines.any (fun e => decide (e.1 = x.buf ∧ e.2.1 / 256 = x.tile))))
      parkedAnswered := false } }

/-- ROLLBACK (R278): at a point of R138; a context that lost its eligibility before it got there is drained instead. -/
def execRollback (k : Nat) (s : State) : Out :=
  atCore s k fun c =>
    if c.sch.preempt != some .rollback || c.status != .resident || c.isFrozen || !c.stopped then s
    else
      match (if c.eligible then c.chk.latest else none) with
      | none => s.setCtx k { c with sch := { c.sch with preempt := some .drain } }
      | some m =>
        let s1 := ((s.withdrawWaiters k).undoLines c m).undoOwn c m
        (s1.setCtx k (c.rolledBack m)).saveContext k .nonres

/-! ### Becoming RESIDENT (R262, R274, R279, R280) -/

def withBase (w : Word) (base : Nat) : Word := BitVec.ofNat 64 (winLimit w * 256 + base)

/-- The windows of a context in a slot: BASE from the slot's regions (R262). -/
def Ident.inSlot (i : Ident) (r : Core) (slot : Nat) : Ident :=
  { i with winF := withBase i.winF (regionBase r.slotWinF slot), winW := withBase i.winW (regionBase r.slotWinW slot),
           winC := withBase i.winC (regionBase r.slotWinC slot) }

/-- The context's lines are written into its windows; what they held goes. -/
def Core.loadLines (r : Core) (c : Context) : Core :=
  let place (ls : SMap BufLine) (e : Nat × Nat × BufLine) : SMap BufLine :=
    SMap.put ls (bufKey e.1 (winBase (c.window (if e.1 = 3 then 2 else e.1)) + e.2.1 / 256) (e.2.1 % 256)) e.2.2
  { r with lines := c.sch.savedLines.foldl place (r.lines.filter (fun p => !c.ownsLine p.1)) }

/-- What the answer of a parked wait does at the restore (R242). -/
def Context.takeParked (c : Context) : Context :=
  match c.waitOp with
  | some o => if c.sch.parkedAnswered then c.syncDone o 0 false false else c
  | none => c

/-- A NEW or saved context becomes RESIDENT in the slot it was given. -/
def State.makeResident (s : State) (k : Nat) : State :=
  match s.ctx k with
  | none => s
  | some c =>
    match c.slot with
    | none => s
    | some slot =>
      let r := s.core c.coreKey
      let now := r.cycle.toNat
      let c1 := { c with
        id := c.id.inSlot r slot
        status := .resident
        land := { c.land with replaying := c.land.head != c.land.tail, refusedSince := false }
        sch := { c.sch with residentSince := now, sliceStart := now, wantingSince := none, reslated := false,
                            toRefetch := c.sch.refetch } }
      let s1 := if c.status == .new then s else s.setCore c.coreKey (r.loadLines c1)
      s1.setCtx k { c1.unwait.takeParked with sch.savedLines := [] }

/-- RESIDENCY_FILL (R271 rule 1): the slot goes to the context; a saved one is restored into it, whenever that is done (R352). -/
def State.giveSlot (s : State) (k : Nat) (c : Context) (slot : Nat) : State :=
  let s1 := (s.updCore c.coreKey (fun r => { r with slots := SMap.put r.slots slot k })).setCtx k { c with slot := some slot }
  if c.status == .new then s1.makeResident k else s1

/-- CONTEXT_RESTORE (R279). -/
def execContextRestore (k : Nat) (s : State) : Out :=
  atCtx s k fun c =>
    if c.status == .nonres && c.slot.isSome && !c.isFrozen && !(s.core c.coreKey).retired then s.makeResident k else s

/-! ### Residency decisions (R271) -/

/-- Contexts of a core that want a slot. -/
def State.wantingOf (s : State) (core : Nat) : List (Nat × Context) :=
  s.contexts.filter (fun p => decide (p.2.coreKey = core) && s.wants p.2)

/-- RESIDENT contexts in the slots of a core, with their slots. -/
def State.residents (s : State) (core : Nat) : List (Nat × Nat × Context) :=
  (List.range 4).filterMap (fun i => match SMap.find (s.core core).slots i with
    | some k => match s.ctx k with | some c => if c.status == .resident then some (i, k, c) else none | none => none
    | none => none)

/-- The free slot a context is put into: a bound one first, then the lowest number. -/
def Core.slotFor (r : Core) (c : Context) : Option Nat :=
  let fs := (List.range 4).filter (fun i => r.slotFree i && r.usable c i)
  match fs.find? r.bound with
  | some i => some i
  | none => fs.head?

def Context.age (c : Context) (now : Nat) : Nat := match c.sch.wantingSince with | some w => now - w | none => 0

/-- Comes before another wanting context: priority, wanting age, lower ID. -/
def fillsBefore (d : Die) (now : Nat) (a b : Nat × Context) : Bool :=
  let pa := d.priority a.2
  let pb := d.priority b.2
  decide (pb < pa) || (decide (pa = pb) &&
    (decide (b.2.age now < a.2.age now) || (decide (a.2.age now = b.2.age now) && decide (a.1 < b.1))))

def bestBy {α : Type} (before : α → α → Bool) : List α → Option α
  | [] => none
  | x :: rest => match bestBy before rest with
    | none => some x
    | some y => if before y x then some y else some x

/-- Rule 1: the context and slot of a fill; none whose image is on storage (R281). -/
def State.fillChoice (s : State) (core : Nat) : Option (Nat × Context × Nat) :=
  let r := s.core core
  let cs := (s.wantingOf core).filter (fun p => (r.slotFor p.2).isSome && !p.2.sch.pagedOut)
  match bestBy (fillsBefore (s.die (dieOfCore core)) r.cycle.toNat) cs with
  | none => none
  | some (k, c) => (r.slotFor c).map (fun i => (k, c, i))

/-- Rule 2: the RESIDENT context that a landing one outranks by HYST. -/
def State.boostChoice (s : State) (core : Nat) : Option (Nat × Context) :=
  let r := s.core core
  let d := s.die (dieOfCore core)
  let ws := (s.wantingOf core).filter (fun p => p.2.landing)
  let vs := (s.residents core).filter (fun v => v.2.2.preemptable && !r.guaranteed v.1 &&
    ws.any (fun w => r.usable w.2 v.1 && decide (d.priority v.2.2 + (d.hyst : Int) ≤ d.priority w.2)))
  (bestBy (fun a b => decide (d.priority a.2.2 < d.priority b.2.2) ||
    (decide (d.priority a.2.2 = d.priority b.2.2) && decide (b.1 < a.1))) vs).map (·.2)

/-- A wanting context may occupy the slot. -/
def State.wantedSlot (s : State) (core slot : Nat) : Bool := (s.wantingOf core).any (fun w => (s.core core).usable w.2 slot)

def State.sliceOver (s : State) (core : Nat) (c : Context) : Bool :=
  decide ((s.die (dieOfCore core)).slice.toNat % 2 ^ 48 ≤ (s.core core).cycle.toNat - c.sch.sliceStart)

/-- Rule 3: contexts whose slices end now, in slot order: each that no one can follow, and the first that is pre-empted. -/
def State.sliceChoice (s : State) (core : Nat) : List (Nat × Nat × Context) → List Nat × Bool
  | [] => ([], false)
  | (slot, k, c) :: rest =>
    if !s.sliceOver core c || c.sch.preempt.isSome || c.isFrozen then s.sliceChoice core rest
    else if c.preemptable && s.wantedSlot core slot then ([k], true)
    else
      let (ks, b) := s.sliceChoice core rest
      (k :: ks, b)

/-- Rule 4: yielding contexts, and whether another context of the partition could follow one (R128). -/
def State.yieldWanted (s : State) (core slot : Nat) (c : Context) : Bool :=
  (s.wantingOf core).any (fun w => decide (w.2.id.part = c.id.part) && (s.core core).usable w.2 slot)

/-- YIELD_PREEMPT: a drain with the YIELD as the stopping point; the YIELD does nothing where no one waits any more. -/
def State.yieldDecision (s : State) (core : Nat) : State :=
  let ys := (s.residents core).filter (fun v => v.2.2.sch.yielding && v.2.2.sch.preempt.isNone)
  let idle := ys.filter (fun v => !(v.2.2.preemptable && s.yieldWanted core v.1 v.2.2))
  let s1 := idle.foldl (fun s v => s.updCtx v.2.1 (fun c => { c with sch := { c.sch with yielding := false } })) s
  match ys.find? (fun v => v.2.2.preemptable && s.yieldWanted core v.1 v.2.2) with
  | some v => s1.updCtx v.2.1 (fun c => { c with sch := { c.sch with preempt := some .drain } })
  | none => s1

/-- The decision of a core in a die cycle: the first rule that applies. -/
def State.decideCore (s : State) (core : Nat) : State :=
  if (s.core core).retired then s
  else match s.fillChoice core with
  | some (k, c, slot) => s.giveSlot k c slot
  | none =>
    match s.boostChoice core with
    | some (k, c) => s.setCtx k c.beginPreempt
    | none =>
      let (ends, taken) := s.sliceChoice core (s.residents core)
      let s1 := ends.foldl (fun s k => s.updCtx k (fun c => { c with sch := { c.sch with sliceDue := true } })) s
      let s2 := { s1 with agenda := ends.map (fun k => .ev (.sliceEnd k)) ++ s1.agenda }
      if taken then s2 else s2.yieldDecision core

/-- SLICE_END (R271 rule 3): pre-emption if a wanting context may occupy the slot, else the slice restarts. -/
def execSliceEnd (k : Nat) (s : State) : Out :=
  atCore s k fun c =>
    if !c.sch.sliceDue then s
    else
      let c1 := { c with sch := { c.sch with sliceDue := false } }
      match c.slot with
      | none => s.setCtx k c1
      | some slot =>
        if c.preemptable && s.wantedSlot c.coreKey slot then s.setCtx k c1.beginPreempt
        else s.setCtx k { c1 with sch := { c1.sch with sliceStart := (s.core c.coreKey).cycle.toNat } }

/-! ### A die cycle (R267, R271) -/

def Die.mapRecords (d : Die) (f : FairRec → FairRec) : Die :=
  { d with fair := d.fair.map (fun p => if p.2.valid then (p.1, f p.2) else p) }

/-- R267 step 1. -/
def Die.window (d : Die) : Die := d.mapRecords (fun r => { r with boost := 0, wstart := d.dieCycle })
/-- R267 step 2. -/
def Die.decay (d : Die) : Die := d.mapRecords (fun r => { r with level := r.level - 1 })

def FairRec.arrival (r : FairRec) (accepted : Bool) : FairRec :=
  if accepted then { r with level := min (r.level + 1) 15, accepted := satInc32 r.accepted } else { r with refused := satInc32 r.refused }

/-- ARRIVAL_COUNT (R267 step 3). -/
def Die.countArrivals (d : Die) : Die :=
  { (d.arrivals.foldl (fun (d : Die) (a : BitVec 16 × BitVec 20 × Bool) =>
      if a.2.1 = 0 then d
      else match d.recordOf a.1 a.2.1 with
        | none => d
        | some i => { d with fair := SMap.put d.fair i ((SMap.getD d.fair i FairRec.empty).arrival a.2.2) }) d) with arrivals := [] }

def Die.windowDue (d : Die) : Bool := decide (d.dieCycle.toNat % 2 ^ d.wlog = 0)
def Die.decayDue (d : Die) : Bool := decide (d.bdecay.toNat % 2 ^ 32 ≠ 0 ∧ d.dieCycle.toNat % (d.bdecay.toNat % 2 ^ 32) = 0)

/-- Priorities as they stand at the end of the die cycle (R264). -/
def State.setPriorities (s : State) (die : Nat) : State :=
  { s with contexts := s.contexts.map (fun p =>
      if p.2.die = die then (p.1, { p.2 with sch := { p.2.sch with prio := (s.die die).priority p.2 } }) else p) }

/-- Cores of a die that have contexts. -/
def State.liveCores (s : State) (die : Nat) : List Nat :=
  (dieCores die).filter (fun k => s.contexts.any (fun p => decide (p.2.coreKey = k) && !p.2.firmware && !p.2.management))

/-- A paged-out context that has become wanting is reported to Deresk, once, by its number (R281, log entry 62). -/
def State.reportPaged (s : State) (k : Nat) (c : Context) : State :=
  if c.sch.pagedOut && !c.sch.pageReported && c.wanting (s.core c.coreKey).cycle.toNat then
    (s.setCtx k { c with sch := { c.sch with pageReported := true } }).report (seracOfDie c.die) fwCPAGE (leBytes 4 k)
  else s

/-- The die's paged-out contexts. -/
def State.reportAllPaged (s : State) (die : Nat) : State :=
  (s.contexts.filter (fun p => decide (p.2.die = die))).foldl (fun s p => s.reportPaged p.1 p.2) s

/-- Placement, steal requests, reports, one residency decision per core, priorities. -/
def State.decisions (s : State) (die : Nat) : State :=
  let s1 := ((s.placeNext die).sendSteals die).reportAllPaged die
  (((s1.liveCores die).foldl State.decideCore s1).updDie die (fun d => { d with cycleStep := 0 })).setPriorities die

/-- DIE_CYCLE (R267, R271): where a window or a decay falls due, their steps come first. The block-transfer engines have a cycle
(R166). -/
def execDieCycle (die : Nat) (s : State) : Out :=
  let d := s.die die
  if d.cycleStep = 3 then .next (s.decisions die)
  else if d.cycleStep ≠ 0 then .next s
  else
    let d1 := { d with dieCycle := d.dieCycle + 1 }.passBt
    if d1.windowDue then
      let t := s.setDie die { d1 with cycleStep := 1 }
      .next { t with agenda := .ev (.fairnessWindowStart die) :: .ev (.dieCycle die) :: t.agenda }
    else if d1.decayDue then
      let t := s.setDie die { d1 with cycleStep := 2 }
      .next { t with agenda := .ev (.boostDecay die) :: .ev (.dieCycle die) :: t.agenda }
    else .next ((s.setDie die d1.countArrivals).decisions die)

/-- FAIRNESS_WINDOW_START (R267). -/
def execFairnessWindowStart (die : Nat) (s : State) : Out :=
  let d := s.die die
  if d.cycleStep ≠ 1 then .next s
  else if d.decayDue then
    let t := s.setDie die { d.window with cycleStep := 2 }
    .next { t with agenda := .ev (.boostDecay die) :: t.agenda }
  else .next (s.setDie die { d.window.countArrivals with cycleStep := 3 })

/-- BOOST_DECAY (R267). -/
def execBoostDecay (die : Nat) (s : State) : Out :=
  let d := s.die die
  if d.cycleStep ≠ 2 then .next s else .next (s.setDie die { d.decay.countArrivals with cycleStep := 3 })

/-! ### YIELD, RESLATE, COLDCAND (R128, R270, R281) -/

/-- YIELD (R128): where another context of its partition waits for the slot, the thread stops here for the scheduler's next
die cycle; else nothing. A firmware or management thread has no slot to yield. -/
def execYield (s : State) : Out :=
  withThread s fun c =>
    let s1 := s.goOn c c.thread (c.thread.pc + 4)
    match c.slot with
    | some slot =>
      if s.yieldWanted c.coreKey slot c then s1.updCtx s.cur (fun c => { c with sch := { c.sch with yielding := true } }) else s1
    | none => s1

/-- RESLATE (R270): the wanting age exceeds the partition's PDL, reported once. -/
def execReslate (k : Nat) (s : State) : Out :=
  atCtx s k fun c =>
    let now := (s.core c.coreKey).cycle.toNat
    let pdl := ((s.die c.die).part c.id.part).pdl.toNat % 2 ^ 48
    if c.sch.wantingSince.isSome && decide (0 < pdl ∧ pdl < c.age now) && !c.sch.reslated then
      (s.setCtx k { c with sch := { c.sch with reslated := true } }).post (.cobalt c.die) 7 (k % 2 ^ 25) (BitVec.ofNat 64 (c.age now)) 0
    else s

/-- COLDCAND (R281). -/
def execColdcand (k : Nat) (s : State) : Out :=
  atCtx s k fun c =>
    let r := s.core c.coreKey
    let age := r.cycle.toNat - c.sch.coldSince
    let lim := (s.die c.die).coldage.toNat % 2 ^ 48
    if c.status == .nonres && !c.wanting r.cycle.toNat && decide (0 < lim ∧ lim < age) && !c.sch.coldReported then
      (s.setCtx k { c with sch := { c.sch with coldReported := true } }).post (.cobalt c.die) 8 (k % 2 ^ 25) (BitVec.ofNat 64 age) 0
    else s

/-! ### Landing replay and refetch (R274, R280) -/

/-- An entry of a landing ring as the replay reads it. -/
def State.ringBytes (s : State) (k : Nat) (c : Context) (i : BitVec 32) (off n : Nat) : List Byte :=
  s.homeBytes c.pkg (ringEntryPa (s.landDesc k) i + off) n

/-- The entry at HEAD goes into the window, its credit is sent (R274). -/
def State.replayEntry (s : State) (k : Nat) (c : Context) : State :=
  let h := s.ringBytes k c c.land.head 0 32
  let flags := recField h 4 4
  let n := recField h 12 2
  let bits := recField h 14 2
  let b := if flags.testBit 20 then List.replicate n 0 else s.ringBytes k c c.land.head 64 n
  let s1 := s.writeWindow k (recField h 8 4) b bits
  let credit : Credit :=
    { loc := { pkg := recField h 28 4 % 4096, pa := recField h 16 8 % 2 ^ 52, home := recField h 16 8 / 2 ^ 52 % 16, dev := false,
               own := false }
      bytes := n, poison := decide (bits % 16 ≠ 0) }
  let s2 := if flags.testBit 21 then { s1 with credits := s1.credits ++ [credit] } else s1
  s2.updCtx k (fun c => { c with land := { c.land with head := c.land.head + 1 } })

/-- The tiles staged read-only have been fetched again. -/
def Context.refetched (c : Context) : Bool := c.sch.toRefetch.isEmpty && !c.fl.copyOps.any (fun o => decide (o.idx = 0))

/-- LANDING_REPLAY (R274): the next entry, after the refetches; with the ring empty the replay is over. -/
def execLandingReplay (k : Nat) (s : State) : Out :=
  atCore s k fun c =>
    if c.status != .resident || !c.land.replaying || c.isFrozen || !c.refetched then s
    else if c.land.head = c.land.tail then s.setCtx k { c with land := { c.land with replaying := false } }
    else
      (s.replayEntry k c).updCtx k (fun c => { c with land := { c.land with replaying := c.land.head != c.land.tail } })

/-- The copy operation that refetches a record. -/
def Refetch.copyOp (x : Refetch) (id : Nat) : CopyOp :=
  { id := id, idx := 0, op := x.op, w := x.w, nest := x.nest, zrel := x.zrel, pc := 0, seq := 0, committed := true, state := .running,
    done := 0, got := [], put := [], sent := [], beats := 0, retries := 0, barrier := none, barrierVa := none, remote := false }

/-- A refetched chunk in the tile; no undo log has to do with it. -/
def Core.fillChunk (r : Core) (buf tile ch : Nat) (d : List (Byte × Bool)) : Core :=
  { r with lines := (List.range 4).foldl (fun ls i =>
      let l := (d.drop (64 * i)).take 64
      SMap.put ls (bufKey buf tile (4 * ch + i)) { data := lineOfBytes (l.map (·.1)), poison := l.any (·.2) }) r.lines }

/-- A refetch is complete: its record stands where its pages still are read-only (R150, R280). -/
def Context.endRefetch (c : Context) (s : State) (o : CopyOp) : Context :=
  { c with
    fl := { c.fl with copyOps := c.fl.copyOps.filter (fun x => x.id ≠ o.id) }
    sch := { c.sch with
      refetch := if readsOnlyRo s c o then c.sch.refetch
        else c.sch.refetch.filter (fun x => decide (¬ (x.buf = o.buf ∧ x.tile = o.w.tile.toNat))) } }

/-- The next chunk of a refetch, as of any copy operation of its channel (R141, R142): in the tile, or suspended (R159, R280). -/
def State.refetchChunk (s : State) (k : Nat) (c : Context) (o : CopyOp) : State :=
  let ch := o.w.ch.toNat
  if !s.chanTurn c ch || !(s.core c.coreKey).hasMoved ch 256 then s
  else
    let s1 := s.serveList c ch
    let (o1, f) := CopyOp.gather s c o o.done
    match f with
    | some f => s1.suspendCopy k o1 suspXlate f
    | none =>
      let s2 := s1.updCore c.coreKey (fun r => r.fillChunk o.buf (winBase (c.window o.buf) + o.w.tile.toNat) o.done (chunkOf s c o1 o.done).data)
      let o2 := o1.nextChunk
      s2.setCtx k (if o2.chunks ≤ o2.done then c.endRefetch s o2 else c.setOp o2)

/-- TILE_REFETCH (R280): the next record's refetch begins, or its next chunk is fetched; in no freeze cycle (R27). -/
def execTileRefetch (k : Nat) (s : State) : Out :=
  atCtx s k fun c =>
    let r := s.core c.coreKey
    if c.status != .resident || c.isFrozen || r.frozen || r.retired then s
    else match c.fl.copyOps.find? (fun o => decide (o.idx = 0)) with
      | some o => if o.state == .running then s.refetchChunk k c o else s
      | none =>
        match c.sch.toRefetch with
        | [] => s
        | x :: rest => s.setCtx k { c with
            sch := { c.sch with toRefetch := rest }
            fl := { c.fl with nextId := c.fl.nextId + 1, copyOps := x.copyOp c.fl.nextId :: c.fl.copyOps } }

/-! ### HALT (R48, R129) -/

/-- Everything a HALT waits for is done. -/
def Context.haltReady (c : Context) : Bool :=
  c.runs && !c.stopped && !c.beFrozen && c.backEndIdle && c.fl.syncOps.isEmpty

/-- Persistent posted-collective entries of an ended context are freed, unless an instance is in flight (R309). -/
def Posted.endedWith (k : Nat) (p : Posted) : Posted :=
  if p.used && p.persistent && decide (p.ctx = k) then
    (if p.insts.all (fun i => decide (3 ≤ i.stage)) then { Posted.free with generation := p.generation + 1 } else { p with ended := true })
  else p

def State.freePersistent (s : State) (k : Nat) : State :=
  { s with seracs := s.seracs.map (fun x => (x.1, { x.2 with entries := x.2.entries.map (fun e => (e.1, e.2.endedWith k)) })) }

/-- A task graph has ended: the values that its tasks have overwritten in OWN pages are read no more (R32, R56). -/
def State.endOwn (s : State) (gid : Nat) : State := { s with ownPast := s.ownPast.filter (fun p => decide (p.graph ≠ gid)) }

/-- The context's task graph counts a halted task (R292); with its last one it has ended (R48). -/
def State.countHalted (s : State) (gid : Nat) : State :=
  match SMap.find s.graphs gid with
  | some g =>
    let s1 := s.setGraph gid { g with halted := g.halted + 1 }
    if g.n ≤ g.halted + 1 then s1.endOwn gid else s1
  | none => s

/-- A context ends: its slot and its place in its gang's record are free (R266, R329). -/
def State.endContext (s : State) (k : Nat) (status : CtxStatus) : State :=
  match s.ctx k with
  | none => s
  | some c => ((s.saveContext k status).updDie c.die (fun d => d.leaveGang c.id.tenant c.id.gang)).freePersistent k

/-- HALT_COMPLETE (R48): first the PHASE at SYS; after it the context is HALTED, a progress event. -/
def execHaltComplete (k : Nat) (s : State) : Out :=
  atCore s k fun c =>
    if c.wait == .halt && c.haltReady then s.setCtx k { c.beginGenPhase .halt 3 with wait := .haltPhase }
    else if c.wait == .haltPhase && c.haltReady && !c.ord.phases.any (fun p => p.owner == .halt) then
      if c.isFirmware then s.setCtx k { c with status := .halted, wait := .none, slot := none }
      else ((s.setCtx k { c.progress with wait := .none }).endContext k .halted).countHalted c.id.graph
    else s

end Sys2Proof.Machine
end

