-- ==== Sys2Proof/Machine/CollCore.lean ====
section
/-! DEFINITION. The collective sequencer: communicators, records, posting, handles (R302-R310, R133, R134). -/

namespace Sys2Proof.Machine

/-! ### Communicators (R304) -/

structure Comm where
  size : Nat
  vc : Nat
  prio : Nat
  coord : Nat
  tenant : Nat
  weight : Nat
  words : List Nat

/-- Die key and Serac die key of a member word: [11:0] the domain number, [14:12] the Cobalt die. -/
def memberDie (w : Nat) : Nat := 8 * (w % 4096) + w / 4096 % 8
def memberSerac (w : Nat) : Nat := seracOfDie (memberDie w)
/-- Serac die key of a coordinator field: [11:0] the domain number, [12] the Serac die. -/
def coordKey (w : Nat) : Nat := 2 * (w % 4096) + w / 4096 % 2

/-- The valid entry c of a Serac die's communicator table. -/
def State.commOf (s : State) (serac c : Nat) : Option Comm :=
  let pkg := pkgOfSerac serac
  let e := s.homeBytes pkg ((s.serac serac).commbase.toNat % 2 ^ 52 / 2 ^ 12 * 2 ^ 12 + 64 * c) 64
  let f (off n : Nat) : Nat := recField e off n
  let table := f 16 8
  let words := (List.range (f 4 2)).map (fun q => leNat (s.homeBytes pkg (table % 2 ^ 52 + 4 * q) 4))
  let ok := decide (c < 4096 ∧ f 0 4 = 1 ∧ 1 ≤ f 4 2 ∧ f 4 2 ≤ 4096 ∧ 2 ≤ f 6 1 ∧ f 6 1 ≤ 15 ∧ f 7 1 < 8 ∧ f 8 2 < 2 ^ 13 ∧
      f 12 1 ≤ 16 ∧ f 13 3 = 0 ∧ table % 4 = 0 ∧ table < 2 ^ 52) && (e.drop 24).all (· == 0) &&
    words.all (fun w => decide (w < 2 ^ 15)) && decide (words.Nodup)
  if ok then
    some { size := f 4 2, vc := f 6 1, prio := f 7 1, coord := coordKey (f 8 2), tenant := f 10 2,
           weight := max 1 (f 12 1), words := words }
  else none

/-! ### Records (R305, R318) -/

def recKind (r : List Byte) : Nat := recField r 0 4
def recOp (r : List Byte) : Nat := recField r 4 4
def recComm (r : List Byte) : Nat := recField r 8 4
def recFlags (r : List Byte) : Nat := recField r 12 4
def recSrc (r : List Byte) : Nat := recField r 16 8
def recDst (r : List Byte) : Nat := recField r 24 8
def recBytes (r : List Byte) : Nat := recField r 32 8
def recType (r : List Byte) : Nat := recField r 40 4
def recRed (r : List Byte) : Nat := recField r 44 4
def recRoot (r : List Byte) : Nat := recField r 48 4
def recChunk (r : List Byte) : Nat := recField r 52 4
def recSignal (r : List Byte) : Nat := recField r 56 8
def recTarget (r : List Byte) : Nat := recField r 64 4
def recVector (r : List Byte) : Nat := recField r 68 4
def recHandle (r : List Byte) : Nat := recField r 72 8
def recPersist (r : List Byte) : Bool := (recFlags r).testBit 0
def recOverride (r : List Byte) : Nat := recFlags r / 2 % 8
def recInPlace (r : List Byte) : Bool := (recFlags r).testBit 4

/-- Bound, source stride, destination stride, a, b, c of a NEST level (R318). -/
def recBound (r : List Byte) (l : Nat) : Nat := let b := recField r (96 + 24 * l) 4; if b = 0 then 1 else b
def recS32 (r : List Byte) (off : Nat) : Int := (BitVec.ofNat 32 (recField r off 4)).toInt
def recS16 (r : List Byte) (off : Nat) : Int := (BitVec.ofNat 16 (recField r off 2)).toInt
def recWalk (r : List Byte) : Nat := (List.range 6).foldl (fun a l => a * recBound r l) 1

/-- Checks that need no communicator (table "Record checks", table "Collective record", R318). -/
def recordOk (r : List Byte) : Bool :=
  let op := recOp r
  let ty := recType r
  let e := laneBits ty / 8
  let reduces := op == 1 || op == 2
  let ch := recChunk r
  decide (recKind r ≤ 1 ∧ 1 ≤ op ∧ op ≤ 7 ∧ (recKind r = 1 → op = 6) ∧ recComm r < 4096 ∧ recFlags r < 32 ∧ ty ≤ 10) &&
  decide (recBytes r % e = 0 ∧ recBytes r ≤ 2 ^ 40 ∧ recSrc r % e = 0 ∧ recDst r % e = 0) &&
  (if reduces then decide (ty ≤ 3 ∧ recRed r ≤ 2) else decide (recRed r = 0)) &&
  decide (op = 7 → recBytes r = 0 ∧ recSrc r = 0 ∧ recDst r = 0) &&
  (!recInPlace r || decide ((op = 1 ∨ op = 4) ∧ recDst r = 0)) &&
  decide (ch = 0 ∨ ch % 4096 = 0 ∧ 4096 ≤ ch ∧ ch ≤ 2 ^ 20) &&
  decide (recSignal r % 8 = 0 ∧ recVector r < 16 ∧ (recTarget r = 2 ^ 32 - 1 ∨ recTarget r < 2 ^ 25)) &&
  decide (recField r 80 16 = 0 ∧ recField r 240 16 = 0) &&
  (if recKind r = 0 then decide (recField r 96 144 = 0)
   else decide (recWalk r ≤ 2 ^ 32) && (List.range 6).all (fun l => recField r (96 + 24 * l + 18) 6 == 0))

/-- Lengths of a rank's own source and destination ranges (R306). -/
def srcLen (r : List Byte) (size rank : Nat) : Nat :=
  let op := recOp r
  if op = 2 ∨ op = 6 then size * recBytes r
  else if op = 1 ∨ op = 3 ∨ ((op = 4 ∨ op = 5) ∧ rank = recRoot r) then recBytes r else 0
def dstLen (r : List Byte) (size : Nat) : Nat :=
  let op := recOp r
  if op = 3 ∨ op = 6 then size * recBytes r else if op = 7 then 0 else recBytes r

/-- The range of bytes a NEST record's walk spans with the strides at an offset of its levels (R318): first byte and length. -/
def walkRange (r : List Byte) (base off : Nat) : Int × Int :=
  let ends := (List.range 6).map (fun l => (recBound r l - 1 : Int) * recS32 r (96 + 24 * l + off))
  let lo := ends.foldl (fun a e => a + min e 0) 0
  ((base : Int) + lo, ends.foldl (fun a e => a + max e 0) 0 - lo + recBytes r)

/-- The poster's own source and destination: first byte and length (R306, R318; DEDUCED for NEST, log entry 64). -/
def ownSource (r : List Byte) (size rank : Nat) : Int × Int :=
  if recKind r = 1 then walkRange r (recSrc r) 4 else ((recSrc r : Int), (srcLen r size rank : Int))
def ownDest (r : List Byte) (size : Nat) : Int × Int :=
  if recKind r = 1 then walkRange r (recDst r) 8 else ((recDst r : Int), (dstLen r size : Int))

/-- Two ranges without a byte in common. -/
def rangesApart (a b : Int × Int) : Bool := decide (a.2 ≤ 0 ∨ b.2 ≤ 0 ∨ a.1 + a.2 ≤ b.1 ∨ b.1 + b.2 ≤ a.1)

/-- Checks that need the group: the root rank, the overlap of the poster's own ranges. -/
def recordFits (r : List Byte) (size rank : Nat) : Bool :=
  (if recOp r = 4 ∨ recOp r = 5 then decide (recRoot r < size) else decide (recRoot r = 0)) &&
  (recInPlace r || decide (recBytes r = 0) || rangesApart (ownSource r size rank) (ownDest r size))

/-- Fault causes (R319). -/
def cBADRECORD : Nat := 1
def cBADCOMM : Nat := 2
def cMISMATCH : Nat := 3
def cPEERFAULT : Nat := 4
def cXLATE : Nat := 5
def cNOBUF : Nat := 6
def cUNREACH : Nat := 7

/-! ### The posted-collective table (R302, R309) -/

def State.posted (s : State) (serac i : Nat) : Posted := SMap.getD (s.serac serac).entries i Posted.free
def State.setPosted (s : State) (serac i : Nat) (p : Posted) : State :=
  s.updSerac serac (fun d => { d with entries := SMap.put d.entries i p })
def Posted.setInst (p : Posted) (x : Inst) : Posted :=
  { p with insts := p.insts.map (fun y => if y.number = x.number then x else y) }

/-- The instance has ended, its signal and interrupt given. -/
def Inst.over (x : Inst) : Bool := decide (3 ≤ x.stage)
/-- DONE or FAULT at its member. -/
def Inst.ended (x : Inst) : Bool := x.state == .done || x.state == .fault
/-- Retired: not persistent, in DONE or FAULT (R309). -/
def Posted.retired (p : Posted) : Bool := p.used && !p.hold && !p.persistent && p.insts.all Inst.ended

/-- The entry a post takes: a free one, else the oldest retired one (R307 step 1). -/
def State.takeEntry (s : State) (serac : Nat) : Option Nat :=
  match pickFree s 6 ((List.range 1024).filter (fun i => !(s.posted serac i).used)) with
  | some i => some i
  | none =>
    (((s.serac serac).entries.filter (fun p => decide (p.1 < 1024) && p.2.retired)).foldl (fun (b : Option (Nat × Nat)) p =>
      match b with
      | some (_, a) => if p.2.age < a then some (p.1, p.2.age) else b
      | none => some (p.1, p.2.age)) none).map (·.1)

/-- An entry as a post takes it: at reuse its generation grows (R309). -/
def Posted.taken (p : Posted) : Posted :=
  { Posted.free with generation := if p.used && !p.hold then p.generation + 1 else p.generation, used := true }

/-- The number of an entry, also of one set aside. -/
def entryNumber (i : Nat) : Nat := i % 2 ^ 28
/-- The key of an entry set aside: its number, and above it what tells its posts apart. -/
def asideKey (i age : Nat) : Nat := i + 2 ^ 28 * (age + 1)

/-- Faults that name an entry in the fault queue, and members of instances in flight, name it by another key. -/
def State.renameEntry (s : State) (serac i j : Nat) : State :=
  let entry (e : FaultEntry) : FaultEntry := if e.source = 5 ∧ e.who = i then { e with who := j } else e
  let s1 := s.updSerac serac (fun d => { d with fault := { d.fault with
    open_ := d.fault.open_.map entry, waiting := d.fault.waiting.map entry } })
  { s1 with runs := s1.runs.map (fun r => { r with members := r.members.map (fun m =>
      if m.serac = serac ∧ m.entry = i then { m with entry := j } else m) }) }

/-- What an entry still has to do as a post reuses it, its signals, interrupts, reports and page faults, goes on beyond the table's
1,024 entries under its number (R309, R319). -/
def State.setAside (s : State) (serac i : Nat) : State :=
  let p := s.posted serac i
  let left := p.insts.filter (fun x => !x.over)
  if !p.used || p.hold then s
  else
    let s1 := s.renameEntry serac i (asideKey i p.age)
    if left.isEmpty then s1 else s1.setPosted serac (asideKey i p.age) { p with persistent := false, insts := left }

def postHandle (i : Nat) (p : Posted) : Word := BitVec.ofNat 64 (i + p.generation.toNat * 2 ^ 16)

/-- The post is accepted: CPOST returns its handle (R133, R307 step 6). -/
def State.acceptPost (s : State) (k : Nat) (c : Context) (d i : Nat) (serac : Nat) : State :=
  let t := c.thread.setReg (BitVec.ofNat 6 d) (postHandle i (s.posted serac i)) false
  s.endWait k { c with thread := t }

def Inst.start (n : Nat) : Inst :=
  { number := n, counted := true, state := .posted, rank := 0, prev := 0, alg := 0, chunk := 0, taken := false, cause := 0, sub := 0,
    before := none, page := false, stage := 0 }

/-- A fault that receives no instance (R307 step 5). -/
def Inst.uncounted (n cause : Nat) (sub : BitVec 8) : Inst :=
  { Inst.start (2 ^ 32 + n) with counted := false, state := .fault, cause := cause, sub := sub, stage := 1 }

def Inst.fail (x : Inst) (cause : Nat) (sub : BitVec 8) : Inst := { x with state := .fault, cause := cause, sub := sub, stage := 1 }

/-- The fields a coordinator compares (R311). -/
def noticeFields (r : List Byte) : List Byte :=
  (r.take 8) ++ (r.drop 32).take 20 ++
    (if recKind r = 1 then (List.range 6).flatMap (fun l => leBytes 4 (recBound r l)) else [])

/-- The poster's rank: the communicator is valid, of the poster's tenant, names its die in exactly one member word, and the
partition has collective channels there (R302, R307 step 3). -/
def State.rankAt (s : State) (die part : Nat) (tenant : BitVec 16) (serac comm : Nat) : Option (Comm × Nat) :=
  match s.commOf serac comm with
  | none => none
  | some m =>
    let me := pkgOfDie die + 4096 * (die % 8)
    match (List.range m.size).filter (fun q => decide (m.words.getD q 0 = me)) with
    | [q] => if m.tenant = tenant.toNat ∧ ((s.die die).part part).eng.getLsbD 2 = true then some (m, q) else none
    | _ => none

def State.posterRank (s : State) (c : Context) (serac comm : Nat) : Option (Comm × Nat) :=
  s.rankAt c.die c.id.part c.id.tenant serac comm

/-- The rank of a re-post is that of the entry, whichever die it comes from (R310). -/
def State.entryRank (s : State) (p : Posted) (serac : Nat) : Option (Comm × Nat) := s.rankAt p.die p.part p.tenant serac p.comm

/-- Cause of a post's fault, none where it is good (R305, R307 step 3). -/
def postCause (rank : Option (Comm × Nat)) (r : List Byte) (stale : Bool) : Option Nat :=
  if stale || !recordOk r then some cBADRECORD
  else match rank with
    | none => some cBADCOMM
    | some (m, q) => if recordFits r m.size q then none else some cBADRECORD

/-- An instance takes its number and its notice goes to the coordinator (R307 steps 4 and 5, R311); UNREACH where that is not reached
(R319). -/
def State.postInstance (s : State) (serac i : Nat) (p : Posted) (m : Comm) (q : Nat) (bad : Option Nat) : State :=
  let lost := s.seracLost serac m.coord
  let cause := if bad.isNone && lost then some cUNREACH else bad
  let key := p.comm * 4096 + q
  let n := SMap.getD (s.serac serac).instCount key 0
  let x0 := { Inst.start n with before := p.insts.getLast?.map (·.number) }
  let x := match cause with | some e => x0.fail e 0 | none => x0
  let p1 := { p with coord := m.coord, rank := q, insts := p.insts.filter (fun y => !(y.state == .done && y.over)) ++ [x] }
  let note : Notice :=
    { comm := p.comm, inst := n, rank := q, fields := noticeFields p.record, chunk := recChunk p.record, faulted := cause.isSome }
  let s1 := (s.setPosted serac i p1).updSerac serac (fun d => { d with instCount := SMap.put d.instCount key (n + 1) })
  if lost then s1 else s1.updSerac m.coord (fun d => { d with notices := d.notices ++ [note] })

/-- A new entry of the record (R307 steps 3 to 5); a record of a stale handle is a BADRECORD (R310). -/
def State.postNew (s : State) (c : Context) (k serac i : Nat) (r : List Byte) (stale : Bool) : State :=
  let rank := s.posterRank c serac (recComm r)
  let cause := postCause rank r stale
  let age := (s.serac serac).posts
  let p : Posted := { (s.posted serac i).taken with
    persistent := recPersist r && !stale, record := r, ctx := k, tenant := c.id.tenant, part := c.id.part, die := c.die, s1root := c.id.s1root,
    gang := c.id.gang, comm := recComm r, age := age }
  let s1 := ((s.setAside serac i).setPosted serac i p).updSerac serac (fun d => { d with posts := d.posts + 1 })
  match rank, cause with
  | some (m, q), _ => s1.postInstance serac i p m q cause
  | none, some e => s1.setPosted serac i { p with insts := [Inst.uncounted age e 0] }
  | none, none => s1

/-- A record that cannot be read: the entry is in FAULT with XLATE, without rank or instance (R305). -/
def State.postXlate (s : State) (c : Context) (k serac i : Nat) (sub : BitVec 8) : State :=
  let p := (s.posted serac i).taken
  ((s.setAside serac i).setPosted serac i { p with
    ctx := k, tenant := c.id.tenant, part := c.id.part, die := c.die, s1root := c.id.s1root, gang := c.id.gang,
    age := (s.serac serac).posts, insts := [Inst.uncounted (s.serac serac).posts cXLATE sub] }).updSerac serac (fun d => { d with posts := d.posts + 1 })

/-- The persistent entry a handle names, of the poster's tenant (R310). -/
def State.handleEntry (s : State) (c : Context) (serac : Nat) (h : Nat) : Option Posted :=
  let p := s.posted serac (h % 2 ^ 16)
  if h < 2 ^ 32 ∧ h % 2 ^ 16 < 1024 ∧ p.used = true ∧ p.persistent = true ∧ h / 2 ^ 16 = p.generation.toNat ∧ p.tenant = c.id.tenant then
    some p
  else none

/-- The post of a record that has been read (R307 steps 2 to 6, R310). -/
def State.postRecord (s : State) (k : Nat) (c : Context) (d : Nat) (va : Word) (serac i : Nat) (held : Bool) (r : List Byte) : State :=
  if recPersist r && recHandle r != 0 then
    let j := recHandle r % 2 ^ 16
    match s.handleEntry c serac (recHandle r) with
    | none => (s.postNew c k serac i r true).acceptPost k c d i serac
    | some p =>
      let s0 := if held then s.setPosted serac i { Posted.free with generation := (s.posted serac i).generation } else s
      if 2 ≤ (p.insts.filter (fun x => x.state != .done)).length then s0.genFault k gPOSTFULL 1 va
      else
        let s1 := match s.entryRank p serac with
          | some (m, q) => s0.postInstance serac j p m q (postCause (some (m, q)) p.record false)
          | none => (s0.setPosted serac j { p with insts := p.insts ++ [Inst.uncounted (s.serac serac).posts cBADCOMM 0] }).updSerac serac
              (fun d => { d with posts := d.posts + 1 })
        s1.acceptPost k c d j serac
  else (s.postNew c k serac i r false).acceptPost k c d i serac

/-- POST_ACCEPT (R307): the local Serac die takes the post, or refuses it with POSTFULL; one in recovery does neither (R341, log entry
68). -/
def execPostAccept (k : Nat) (s : State) : Out :=
  atCore s k fun c =>
    match c.wait with
    | .cpostSent d va held =>
      let serac := seracOfDie c.die
      if (s.serac serac).boot == .recovery then s
      else match (match held with | some i => some i | none => s.takeEntry serac) with
      | none => s.genFault k gPOSTFULL 0 va
      | some i =>
        let g := readRange s c va 256
        (match g.fault with
          | none => s.postRecord k c d va serac i held.isSome (g.bytes.map (·.1))
          | some x =>
            if isNotPres x.sub then
              (((s.setAside serac i).setPosted serac i { (s.posted serac i).taken with hold := true }).setCtx k { c with wait := .cpostPage d va i }).queueFault
                (.serac serac)
                { seq := 0, source := 5, who := i, va := x.va, pc := va, emitseq := 0, sub := x.sub, unit := 0, record := [] }
            else (s.postXlate c k serac i x.sub).acceptPost k c d i serac)
    | _ => s

/-! ### CQRY (R134, R308) -/

def instCode : InstState → Nat
  | .posted => 0
  | .ticketed => 1
  | .reserved => 2
  | .running => 3
  | .done => 4
  | .fault => 5

/-- The instance whose state an entry shows: the oldest that is not DONE, else the last one. -/
def Posted.current (p : Posted) : Option Inst :=
  match p.insts.find? (fun x => x.state != .done) with
  | some x => some x
  | none => p.insts.getLast?

/-- The answer to a query. -/
def State.queryPost (s : State) (serac : Nat) (tenant : BitVec 16) (h : Word) : Word :=
  let i := h.toNat % 2 ^ 16
  let p := s.posted serac i
  if h.extractLsb' 32 32 ≠ 0 ∨ 1024 ≤ i ∨ p.used = false ∨ p.hold = true ∨ p.generation ≠ h.extractLsb' 16 16 ∨ p.tenant ≠ tenant then 15
  else match p.current with
    | none => 15
    | some x =>
      let n := instCode x.state
      BitVec.ofNat 64 (n + (if n = 0 then 0 else x.rank.toNat % 2 ^ 60 * 16))

/-- CQRY (R134): a device-space load of the local Serac die; ILLINS on a management core (R344). -/
def execCqry (a d : BitVec 6) (s : State) : Out :=
  withThread s fun c =>
    let t := c.thread
    if c.management then s.illins (.cqry a d) 2
    else s.goOn c (t.setReg d (s.queryPost (seracOfDie c.die) c.id.tenant (t.reg a)) (t.regPoison a)) (t.pc + 4)

end Sys2Proof.Machine
end

