-- ==== Sys2Proof/Machine/Tickets.lean ====
section
/-! DEFINITION. Coordinators, the ticket sequencer, taking tickets, reservations, faults of instances (R311-R315, R319). -/

namespace Sys2Proof.Machine

/-! ### Members and faults on their way -/

/-- The entry of a member that has an instance: Serac die and entry, entry, instance. -/
def State.memberInst (s : State) (serac coord comm inst rank : Nat) : Option (Nat × Posted × Inst) :=
  (s.serac serac).entries.findSome? (fun e =>
    if e.2.used && decide (e.2.coord = coord ∧ e.2.comm = comm ∧ e.2.rank = rank) then
      (e.2.insts.find? (fun x => x.counted && decide (x.number = inst))).map (fun x => (e.1, e.2, x))
    else none)

/-- The member of rank q of a communicator as its Serac die holds it. -/
def State.member (s : State) (m : Comm) (coord comm inst q : Nat) : Option (Nat × Nat × Posted × Inst) :=
  let k := memberSerac (m.words.getD q 0)
  (s.memberInst k coord comm inst q).map (fun x => (k, x))

/-- A fault goes from a Serac die to every one of an instance's members that it reaches (R319). -/
def State.faultMembers (s : State) (from_ : Nat) (words : List Nat) (coord comm inst cause : Nat) (sub : BitVec 8) : State :=
  (List.range words.length).foldl (fun s q =>
    let w := words.getD q 0
    if s.seracLost from_ (memberSerac w) then s
    else s.updSerac (memberSerac w) (fun d => { d with faultMsgs := d.faultMsgs ++
      [{ coord := coord, comm := comm, inst := inst, rank := q, cause := cause, sub := sub }] })) s

def State.faultAll (s : State) (from_ : Nat) (m : Comm) (coord comm inst cause : Nat) (sub : BitVec 8) : State :=
  s.faultMembers from_ m.words coord comm inst cause sub

/-! ### The coordinator (R311, R315) -/

/-- Size class and group class (R315). -/
def sizeClass (n : Nat) : Nat :=
  ([2 ^ 12, 2 ^ 16, 2 ^ 20, 2 ^ 24, 2 ^ 28, 2 ^ 32, 2 ^ 36].filter (fun l => decide (l < n))).length
def groupClass (g : Nat) : Nat := ([8, 64, 512].filter (fun l => decide (l < g))).length

/-- Algorithm of a selection-table entry at reset (R315). -/
def resetAlg (e : Nat) : Nat :=
  let c := e / 4
  if e % 4 = 0 then (if c = 0 then 3 else 0)
  else if e % 4 = 1 then (if c < 2 then 1 else 0)
  else if c < 3 then 1 else if c < 5 then 2 else 0

def Serac.selectEntry (d : Serac) (e : Nat) : BitVec 32 := SMap.getD d.select e (BitVec.ofNat 32 (resetAlg e))

/-- Whether an algorithm applies to an operation. -/
def algApplies (alg op : Nat) : Bool :=
  if alg = 1 then decide (op = 1 ∨ op = 4 ∨ op = 5 ∨ op = 7)
  else if alg = 3 then true
  else decide (op = 1 ∨ op = 2 ∨ op = 3)

/-- Algorithm and chunk size of an instance: kind, operation, B, the record's chunk bytes. -/
def Serac.choose (d : Serac) (kind op bytes size chunk : Nat) : Nat × Nat :=
  let n := if op = 2 ∨ op = 3 ∨ op = 6 then bytes * size else bytes
  let e := d.selectEntry (4 * sizeClass n + groupClass size)
  let alg := (e.extractLsb' 0 2).toNat
  let ch := (e.extractLsb' 8 9).toNat
  (if kind = 1 ∨ op = 6 ∨ algApplies alg op = false then 3 else alg,
   if ch ≠ 0 ∧ ch ≤ 256 then 4096 * ch else if chunk = 0 then 65536 else chunk)

/-- The Serac die of the domain's ticket sequencer (R303). -/
def Serac.sequencer (d : Serac) : Nat := coordKey (d.tseq.toNat % 2 ^ 13)

/-- A complete instance: PEERFAULT, MISMATCH, or a request for a rank. -/
def State.settleInstance (s : State) (coord comm inst : Nat) (m : Comm) (ns : List Notice) : State :=
  let d := s.serac coord
  let s1 := s.setSerac coord { d with
    heldNotices := d.heldNotices.filter (fun n => !decide (n.comm = comm ∧ n.inst = inst))
    coordNext := SMap.put d.coordNext comm (inst + 1) }
  match ns with
  | [] => s1
  | n :: rest =>
    if ns.any (·.faulted) then s1.faultAll coord m coord comm inst cPEERFAULT 0
    else if rest.any (fun x => decide (x.fields ≠ n.fields)) then s1.faultAll coord m coord comm inst cMISMATCH 0
    else
      let chunk := (pickFree s 7 (ns.map (·.chunk))).getD 0
      let (alg, ch) := d.choose (recField n.fields 0 4) (recField n.fields 4 4) (recField n.fields 8 8) m.size chunk
      if s.seracLost coord d.sequencer then s1.faultAll coord m coord comm inst cUNREACH 0
      else s1.updSerac d.sequencer (fun q => { q with seqQueue := q.seqQueue ++
        [{ ticket := { coord := coord, comm := comm, inst := inst, rank := 0, prev := 0, alg := alg, chunk := ch, die := 0 }, members := m.words }] })

/-- The instances of a communicator that are complete, in increasing number. -/
def State.settleComm (s : State) (coord comm : Nat) : Nat → State
  | 0 => s
  | fuel + 1 =>
    let d := s.serac coord
    let i := SMap.getD d.coordNext comm 0
    let ns := d.heldNotices.filter (fun n => decide (n.comm = comm ∧ n.inst = i))
    match s.commOf coord comm with
    | none => s
    | some m => if ns.length = m.size then (s.settleInstance coord comm i m ns).settleComm coord comm fuel else s

/-- COORDINATOR_NOTICE (R311): a notice arrives. -/
def execCoordinatorNotice (serac k : Nat) (s : State) : Out :=
  let d := s.serac serac
  match d.notices[k]? with
  | none => .next s
  | some n =>
    let s1 := s.setSerac serac { d with notices := d.notices.eraseIdx k, heldNotices := d.heldNotices ++ [n] }
    .next (s1.settleComm serac n.comm (d.heldNotices.length + 1))

/-! ### The ticket sequencer (R312) -/

/-- TICKET_REQUEST (R312): the next rank, and a start ticket to every member; UNREACH where one of them is not reached (R319). -/
def execTicketRequest (serac : Nat) (s : State) : Out :=
  let d := s.serac serac
  match d.seqQueue with
  | [] => .next s
  | r :: rest =>
    if !d.tseq.getLsbD 16 then .next s
    else if r.members.any (fun w => s.seracLost serac (memberSerac w)) then
      .next ((s.setSerac serac { d with seqQueue := rest }).faultMembers serac r.members r.ticket.coord r.ticket.comm r.ticket.inst cUNREACH 0)
    else
      let rank := d.seqRank + 1
      let last := r.members.foldl (fun l w => SMap.put l (memberDie w) rank) d.seqLast
      let s1 := s.setSerac serac { d with seqQueue := rest, seqRank := rank, seqLast := last }
      .next ((r.members.zip (List.range r.members.length)).foldl (fun s wq =>
        let t := { r.ticket with rank := rank, prev := SMap.getD d.seqLast (memberDie wq.1) 0, die := memberDie wq.1 }
        s.updSerac (memberSerac wq.1) (fun x => { x with tickets := x.tickets ++ [(wq.2, t)] })) s1)

/-! ### Taking (R313) -/

/-- Instance i − 1 of a persistent entry has completed at every member, or has ended in FAULT. -/
def State.beforeDone (s : State) (serac : Nat) (p : Posted) (x : Inst) : Bool :=
  match x.before with
  | none => true
  | some n => (s.serac serac).allDone.contains (p.coord, p.comm, n) ||
      p.insts.any (fun y => decide (y.number = n) && y.state == .fault)

/-- The chain of the member allows the ticket to be taken. -/
def State.chainReady (s : State) (serac die : Nat) (t : Ticket) : Bool :=
  t.prev == 0 || SMap.getD (s.serac serac).takenRank die 0 == t.prev

def State.dropTicket (s : State) (serac k die : Nat) (t : Ticket) : State :=
  s.updSerac serac (fun d => { d with tickets := d.tickets.eraseIdx k, takenRank := SMap.put d.takenRank die t.rank })

/-- TICKET_TAKE (R313): a ticket is received, then taken once its chain and, for a persistent entry, the previous instance allow it.
The ticket of a faulted instance, also of one whose entry is reused, keeps its place in the chain. -/
def execTicketTake (serac k : Nat) (s : State) : Out :=
  match (s.serac serac).tickets[k]? with
  | none => .next s
  | some (q, t) =>
    .next (match s.memberInst serac t.coord t.comm t.inst q with
      | none => if s.chainReady serac t.die t then s.dropTicket serac k t.die t else s
      | some (i, p, x) =>
        if x.state == .posted then
          s.setPosted serac i (p.setInst { x with state := .ticketed, rank := t.rank, prev := t.prev, alg := t.alg, chunk := t.chunk })
        else if !s.chainReady serac t.die t then s
        else if x.state == .fault then s.dropTicket serac k t.die t
        else if !s.beforeDone serac p x then s
        else (s.setPosted serac i (p.setInst { x with taken := true })).dropTicket serac k t.die t)

/-! ### Reservation (R313, R314) -/

/-- What a ticket needs: chunk-buffer bytes, reduction lanes, active slots. -/
structure Need where
  bytes : Nat
  lanes : Nat
  slots : Nat

def needOf (op alg size chunk : Nat) : Need :=
  if op = 7 then ⟨0, 0, 1⟩
  else if alg = 1 then ⟨6 * chunk, if op = 1 then 1 else 0, 1⟩
  else if alg = 3 then ⟨2 * min (size - 1) 8 * chunk, if op = 1 ∨ op = 2 then 1 else 0, 1⟩
  else ⟨4 * chunk, if op = 1 ∨ op = 2 then 1 else 0, 1⟩

/-- A ticketed instance at a Serac die: entry, partition, instance, its need. -/
structure Claim where
  entry : Nat
  part : Nat
  inst : Inst
  need : Need

def State.claims (s : State) (serac : Nat) : List Claim :=
  (s.serac serac).entries.flatMap (fun e =>
    let size := match s.commOf serac e.2.comm with | some m => m.size | none => 1
    e.2.insts.map (fun x => { entry := e.1, part := e.2.part, inst := x, need := needOf (recOp e.2.record) x.alg size x.chunk }))

def Claim.holds (c : Claim) : Bool := c.inst.state == .reserved || c.inst.state == .running
def Claim.waits (c : Claim) : Bool := c.inst.state == .ticketed && c.inst.taken

/-- What a Serac die has (R1, R302). -/
def dieSlots : Nat := 128
def dieLanes : Nat := 16
def dieBytes : Nat := 128 * 2 ^ 20

/-- A partition's grant: bytes of chunk buffer and active slots, of what the die has (R302, R303). -/
def Serac.grantBytes (d : Serac) (p : Nat) : Nat := min ((SMap.getD d.grants p 0).toNat / 2 ^ 16 % 2 ^ 8 * 2 ^ 20) dieBytes
def Serac.grantSlots (d : Serac) (p : Nat) : Nat := min ((SMap.getD d.grants p 0).toNat % 2 ^ 8) dieSlots

/-- What claims need together. -/
def totalNeed (l : List Claim) : Need :=
  l.foldl (fun n h => ⟨n.bytes + h.need.bytes, n.lanes + h.need.lanes, n.slots + h.need.slots⟩) ⟨0, 0, 0⟩

/-- What a claim lacks beside the claims that hold resources: of its partition's grant and of the die, bytes, lanes and slots. -/
def Serac.lacks (d : Serac) (c : Claim) (held : List Claim) : Need × Need :=
  let mine := totalNeed (c :: held.filter (fun h => decide (h.part = c.part)))
  let all := totalNeed (c :: held)
  (⟨mine.bytes - d.grantBytes c.part, 0, mine.slots - d.grantSlots c.part⟩, ⟨all.bytes - dieBytes, all.lanes - dieLanes, all.slots - dieSlots⟩)

/-- A claim fits beside the claims that hold resources. -/
def Serac.fitsBeside (d : Serac) (c : Claim) (held : List Claim) : Bool :=
  let (p, q) := d.lacks c held
  decide (p.bytes = 0 ∧ p.slots = 0 ∧ q.bytes = 0 ∧ q.lanes = 0 ∧ q.slots = 0)

/-- Another claim holds some of what is lacked. -/
def Claim.helps (h c : Claim) (p q : Need) : Bool :=
  decide (h.part = c.part ∧ (0 < p.bytes ∧ 0 < h.need.bytes ∨ 0 < p.slots ∧ 0 < h.need.slots) ∨
    0 < q.bytes ∧ 0 < h.need.bytes ∨ 0 < q.lanes ∧ 0 < h.need.lanes ∨ 0 < q.slots ∧ 0 < h.need.slots)

/-- More than the partition's whole grant. -/
def Serac.tooBig (d : Serac) (c : Claim) : Bool := !d.fitsBeside c []

/-- A claim into its place among claims of falling rank. -/
def insertClaim (c : Claim) : List Claim → List Claim
  | [] => [c]
  | h :: rest => if h.inst.rank.toNat < c.inst.rank.toNat then c :: h :: rest else h :: insertClaim c rest

/-- Unconfirmed reservations of higher rank, the highest first. -/
def higherFirst (c : Claim) (held : List Claim) : List Claim :=
  (held.filter (fun h => h.inst.state == .reserved && decide (c.inst.rank.toNat < h.inst.rank.toNat))).foldr insertClaim []

def sameClaim (a b : Claim) : Bool := decide (a.entry = b.entry ∧ a.inst.number = b.inst.number)

/-- The reservations to withdraw, from a list of candidates and beside those chosen already, so that the claim fits; none where
even all of them do not do (R314). -/
def Serac.withdrawals (d : Serac) (c : Claim) (held chosen : List Claim) : List Claim → Option (List Claim)
  | [] => if d.fitsBeside c (held.filter (fun h => !chosen.any (sameClaim h))) then some chosen else none
  | h :: more =>
    let left := held.filter (fun h => !chosen.any (sameClaim h))
    if d.fitsBeside c left then some chosen
    else
      let (p, q) := d.lacks c left
      d.withdrawals c held (if h.helps c p q then chosen ++ [h] else chosen) more

def State.reserveWith (s : State) (serac : Nat) (c : Claim) : Option (List Claim) :=
  let held := (s.claims serac).filter Claim.holds
  (s.serac serac).withdrawals c held [] (higherFirst c held)

def State.setInst (s : State) (serac i : Nat) (x : Inst) : State := s.setPosted serac i ((s.posted serac i).setInst x)

/-- The taken claim of an entry that waits to reserve. -/
def State.waitingClaim (s : State) (serac i : Nat) : Option Claim :=
  (s.claims serac).find? (fun c => decide (c.entry = i) && c.waits)

/-- RESERVATION (R313, R314): NOBUF at every member where the whole grant is too small; else the lowest rank that can reserve does,
withdrawing unconfirmed reservations of higher ranks. -/
def execReservation (serac k : Nat) (s : State) : Out :=
  match s.waitingClaim serac k with
  | none => .next s
  | some c =>
    let p := s.posted serac k
    if (s.serac serac).tooBig c then
      .next (match s.commOf serac p.comm with
        | some m => s.faultAll serac m p.coord p.comm c.inst.number cNOBUF 0
        | none => s)
    else if (s.claims serac).any (fun o => o.waits && decide (o.inst.rank.toNat < c.inst.rank.toNat) && !(s.serac serac).tooBig o &&
        (s.reserveWith serac o).isSome) then .next s
    else match s.reserveWith serac c with
      | none => .next s
      | some ws =>
        .next ((ws.foldl (fun s w => s.setInst serac w.entry { w.inst with state := .ticketed }) s).setInst serac k
          { c.inst with state := .reserved })

/-- The run of an instance of which every member holds its reservation. -/
def State.newRun (s : State) (m : Comm) (p : Posted) (x : Inst) : CollRun where
  coord := p.coord
  comm := p.comm
  inst := x.number
  chunk := max 1 x.chunk
  vc := m.vc
  prio := m.prio
  weight := m.weight
  members := (List.range m.size).filterMap (fun q => (s.member m p.coord p.comm x.number q).map (fun o =>
    { serac := o.1, entry := o.2.1, record := o.2.2.1.record, die := o.2.2.1.die, part := o.2.2.1.part, s1root := o.2.2.1.s1root,
      tenant := o.2.2.1.tenant, gang := o.2.2.1.gang, lost := false }))
  pages := []
  chunks := []
  writtenTo := []

/-- CONFIRMATION (R313): all members hold their reservations and are reached; the instance is RUNNING at every one. -/
def execConfirmation (serac k : Nat) (s : State) : Out :=
  let p := s.posted serac k
  match p.insts.find? (fun x => x.state == .reserved), s.commOf serac p.comm with
  | some x, some m =>
    let ms := (List.range m.size).map (fun q => s.member m p.coord p.comm x.number q)
    let ready := ms.all (fun o => match o with | some (_, _, _, y) => y.state == .reserved | none => false)
    if !ready || m.words.any (fun w => s.seracLost serac (memberSerac w)) then .next s
    else
      let s1 := ms.foldl (fun s o => match o with
        | some (j, i, _, y) => s.setInst j i { y with state := .running }
        | none => s) s
      .next { s1 with runs := s1.runs ++ [s.newRun m p x] }
  | _, _ => .next s

/-! ### Faults (R319) -/

/-- An instance that has ended lets a persistent entry of an ended context go (R309), and an entry set aside with the last of its
work. -/
def State.freeIfEnded (s : State) (serac i : Nat) : State :=
  let p := s.posted serac i
  if 1024 ≤ i ∧ p.insts.all Inst.over then s.updSerac serac (fun d => { d with entries := SMap.drop d.entries i })
  else if p.ended then s.setPosted serac i (p.endedWith p.ctx) else s

/-- COLLFAULT (R319, R338). -/
def State.reportColl (s : State) (serac i cause : Nat) (inst : Nat) : State :=
  s.post (.serac serac) 6 (entryNumber i) (BitVec.ofNat 64 cause) (BitVec.ofNat 64 inst)

/-- The interrupt a record names. -/
def State.collUli (s : State) (serac : Nat) (p : Posted) (progress : Bool) : State :=
  if p.record.isEmpty ∨ recTarget p.record = 2 ^ 32 - 1 then s
  else s.agentUli (.serac serac) (recTarget p.record) (recVector p.record) p.tenant progress

/-- A fault that reaches a member ends its instance there, unless it has ended; its reservation is released with its state. -/
def State.applyFault (s : State) (serac : Nat) (f : FaultMsg) : State :=
  match s.memberInst serac f.coord f.comm f.inst f.rank with
  | none => s
  | some (i, p, x) =>
    if x.state == .done || x.state == .fault then s else s.setPosted serac i (p.setInst (x.fail f.cause f.sub))

/-- A fault message for an instance of an entry. -/
def Posted.named (p : Posted) (f : FaultMsg) : Bool :=
  p.used && decide (p.coord = f.coord ∧ p.comm = f.comm ∧ p.rank = f.rank) &&
    p.insts.any (fun x => x.counted && decide (x.number = f.inst))

/-- INSTANCE_FAULT (R319): a fault arrives at the member of an entry; a faulted instance sets its interrupt and is reported. -/
def execInstanceFault (serac k : Nat) (s : State) : Out :=
  let p := s.posted serac k
  let d := s.serac serac
  match d.faultMsgs.findIdx? p.named with
  | some j =>
    .next (match d.faultMsgs[j]? with
      | some f => (s.setSerac serac { d with faultMsgs := d.faultMsgs.eraseIdx j }).applyFault serac f
      | none => s)
  | none => match p.insts.find? (fun x => x.state == .fault && !x.over) with
    | none => .next s
    | some x =>
      let s1 := (s.setInst serac k { x with stage := 3 }).reportColl serac k x.cause x.number
      .next ((s1.collUli serac p false).freeIfEnded serac k)

/-- Instances at a Serac die with a member that is not reached end with UNREACH at every member still reached (R319). -/
def State.faultUnreached (s : State) (serac : Nat) (lost : Nat → Bool) : State :=
  (s.serac serac).entries.foldl (fun s e =>
    match s.commOf serac e.2.comm with
    | none => s
    | some m =>
      if e.2.used && m.words.any (fun w => lost (memberSerac w)) then
        e.2.insts.foldl (fun s x => if x.ended then s else s.faultAll serac m e.2.coord e.2.comm x.number cUNREACH 0) s
      else s) s

/-- PEER_UNREACHABLE (R319): a Serac die is no longer reached, a package where neither of its two is; instances with a member there
end with UNREACH at every member. -/
def execPeerUnreachable (serac lost : Nat) (s : State) : Out :=
  let d := s.serac serac
  .next ((s.setSerac serac { d with unreachable := insertKey lost d.unreachable }).faultUnreached serac (fun k => decide (k = lost)))

/-- Without its last link a Serac die is reached by no other package: the collectives across it end (R348). -/
def State.faultSevered (s : State) (serac : Nat) : State :=
  if (s.serac serac).routed then s
  else (s.seracs.map (·.1)).foldl (fun s k => s.faultUnreached k (fun t => decide (k = serac ∨ t = serac) && s.seracLost k t)) s

end Sys2Proof.Machine
end

