-- ==== Sys2Proof/Machine/CollData.lean ====
section
/-! DEFINITION. The data of collectives: chunks, arbitration and credits, completion (R306, R316-R319). -/

namespace Sys2Proof.Machine

/-! ### Transfers of an instance (R306, R318)

A transfer u to a destination rank d is a chunk of results: the ranks that contribute to it with their source addresses, and the
destination address. -/

structure Piece where
  len : Nat
  /-- contributing ranks and the addresses of their bytes -/
  srcs : List (Nat × Word)
  dst : Word

/-- Chunks of B bytes. -/
def chunksOf (bytes chunk : Nat) : Nat := (bytes + chunk - 1) / chunk

def addrAt (base : Nat) (off : Nat) : Word := BitVec.ofNat 64 (base + off)

/-- The iteration numbers of step j of a walk, j0 first. -/
def walkIdx (r : List Byte) (j : Nat) : List Nat :=
  ((List.range 6).foldl (fun (a : List Nat × Nat) l => (a.1 ++ [a.2 % recBound r l], a.2 / recBound r l)) ([], j)).1

/-- Source and destination offsets and peer of step j of rank r's walk (R318). -/
def walkStep (r : List Byte) (rank size j : Nat) : Int × Int × Nat :=
  let ix := (List.range 6).zip (walkIdx r j)
  let sum (f : Nat → Nat → Int) : Int := ix.foldl (fun a x => a + f x.1 x.2) 0
  (sum (fun l i => i * recS32 r (96 + 24 * l + 4)), sum (fun l i => i * recS32 r (96 + 24 * l + 8)),
   ((sum (fun l i => recS16 r (96 + 24 * l + 12) * rank + recS16 r (96 + 24 * l + 14) * i + recS16 r (96 + 24 * l + 16))) % size).toNat)

/-- An instance as its data moves: the group size, chunk size and each member's record. -/
structure CollDesc where
  size : Nat
  chunk : Nat
  recs : List (List Byte)

def CollDesc.rec_ (c : CollDesc) (q : Nat) : List Byte := c.recs.getD q []
def CollDesc.bytes (c : CollDesc) : Nat := recBytes (c.rec_ 0)
def CollDesc.op (c : CollDesc) : Nat := recOp (c.rec_ 0)
def CollDesc.nest (c : CollDesc) : Bool := recKind (c.rec_ 0) == 1
def CollDesc.perRange (c : CollDesc) : Nat := chunksOf c.bytes c.chunk
/-- Address where the results of a rank go: in place, its source. -/
def CollDesc.dstBase (c : CollDesc) (d : Nat) : Nat := if recInPlace (c.rec_ d) then recSrc (c.rec_ d) else recDst (c.rec_ d)

/-- Number of transfer numbers u. -/
def CollDesc.transfers (c : CollDesc) : Nat :=
  if c.op = 7 then 0
  else if c.nest then c.size * recWalk (c.rec_ 0) * c.perRange
  else if c.op = 3 ∨ c.op = 6 then c.size * c.perRange
  else c.perRange

/-- Transfer u to rank d, none where there is no such transfer. -/
def CollDesc.piece (c : CollDesc) (u d : Nat) : Option Piece :=
  let n := c.perRange
  let b := c.bytes
  let off := u % n * c.chunk
  let len := min c.chunk (b - off)
  let all (f : Nat → Nat) : List (Nat × Word) := (List.range c.size).map (fun q => (q, addrAt (recSrc (c.rec_ q)) (f q)))
  let q := u / n
  if c.transfers ≤ u ∨ c.size ≤ d then none
  else if c.nest then
    let walk := recWalk (c.rec_ 0)
    let r := q / walk
    let (so, po, peer) := walkStep (c.rec_ r) r c.size (q % walk)
    if peer = d then
      some { len := len, srcs := [(r, addrAt (recSrc (c.rec_ r)) off + BitVec.ofInt 64 so)],
             dst := addrAt (recDst (c.rec_ d)) off + BitVec.ofInt 64 po }
    else none
  else if c.op = 1 then some { len := len, srcs := all (fun _ => off), dst := addrAt (c.dstBase d) off }
  else if c.op = 2 then some { len := len, srcs := all (fun _ => d * b + off), dst := addrAt (c.dstBase d) off }
  else if c.op = 3 then
    some { len := len, srcs := [(q, addrAt (recSrc (c.rec_ q)) off)], dst := addrAt (c.dstBase d) (q * b + off) }
  else if c.op = 6 then
    some { len := len, srcs := [(q, addrAt (recSrc (c.rec_ q)) (d * b + off))], dst := addrAt (c.dstBase d) (q * b + off) }
  else
    let root := recRoot (c.rec_ 0)
    if recInPlace (c.rec_ d) && d == root then none
    else some { len := len, srcs := [(root, addrAt (recSrc (c.rec_ root)) off)], dst := addrAt (c.dstBase d) off }

/-- A running instance as its data moves. -/
def CollRun.desc (r : CollRun) : CollDesc := { size := r.members.length, chunk := r.chunk, recs := r.members.map (·.record) }

def State.findRun (s : State) (p : Posted) (x : Inst) : Option CollRun :=
  s.runs.find? (fun r => x.counted && decide (r.coord = p.coord ∧ r.comm = p.comm ∧ r.inst = x.number))
def sameRun (a b : CollRun) : Bool := decide (a.coord = b.coord ∧ a.comm = b.comm ∧ a.inst = b.inst)
def State.setRun (s : State) (r : CollRun) : State := { s with runs := s.runs.map (fun x => if sameRun x r then r else x) }
def CollRun.got (r : CollRun) (u d q : Nat) : Option (List (Byte × Bool)) :=
  (r.chunks.find? (fun c => decide (c.1 = u ∧ c.2.1 = d ∧ c.2.2.1 = q))).map (·.2.2.2)

/-- The members at some Serac dies move no more chunks: those dies are reset, or have lost their power. -/
def State.loseRuns (s : State) (gone : Nat → Bool) : State :=
  { s with runs := s.runs.map (fun r => { r with members := r.members.map (fun m => { m with lost := m.lost || gone m.serac }) }) }

/-! ### Reductions (R306) -/

/-- One combination of two contributions, element by element. -/
def combineBytes (ty red : Nat) (a b : List (Byte × Bool)) : List (Byte × Bool) :=
  let e := laneBits ty / 8
  (List.range (a.length / e)).flatMap (fun i =>
    let x := (a.drop (e * i)).take e
    let y := (b.drop (e * i)).take e
    let v := (combine ty red 0 (ty == 3) (leNat (x.map (·.1))) (leNat (y.map (·.1)))).1
    let p := (x ++ y).any (·.2)
    (leBytes e v).map (fun w => (w, p)))

/-- Contributions by rank; a pair (i, j) of the order combines that of j into that of i, and what is left at the end is combined
in rank order: every tree of combinations is some order. DESIGN CHOICE (log entry 70): of one rank alone the contribution's bytes are the
result, a NaN's too. -/
def reduceBy (ty red : Nat) : List Nat → List (Nat × List (Byte × Bool)) → List (Byte × Bool)
  | i :: j :: rest, l =>
    match l.find? (fun x => decide (x.1 = i)), l.find? (fun x => decide (x.1 = j)) with
    | some (_, a), some (_, b) =>
      if i = j then reduceBy ty red rest l
      else reduceBy ty red rest ((l.filter (fun x => decide (x.1 ≠ j))).map (fun x =>
        if x.1 = i then (i, combineBytes ty red a b) else x))
    | _, _ => reduceBy ty red rest l
  | _, l => match l with
    | [] => []
    | x :: rest => rest.foldl (fun a y => combineBytes ty red a y.2) x.2

/-- In place, a rank's source is overwritten only once every other rank has its contribution to the transfer. -/
def CollRun.mayWrite (r : CollRun) (c : CollDesc) (u d : Nat) : Bool :=
  !(c.op == 1 && recInPlace (c.rec_ d)) || (List.range c.size).all (fun e =>
    e == d || r.writtenTo.contains (u, e) || (r.got u e d).isSome)

/-- Length and address of rank q's contribution to a transfer to rank d that is still to be read. -/
def CollRun.toRead (r : CollRun) (q u d : Nat) : Option (Nat × Word) :=
  if r.writtenTo.contains (u, d) ∨ (r.got u d q).isSome then none
  else (r.desc.piece u d).bind (fun pc => (pc.srcs.find? (fun y => decide (y.1 = q))).map (fun y => (pc.len, y.2)))

/-- Address and contributions of a transfer to rank d that is complete and still to be written. -/
def CollRun.toWrite (r : CollRun) (u d : Nat) : Option (Word × List (Nat × List (Byte × Bool))) :=
  match r.desc.piece u d with
  | none => none
  | some pc =>
    let got := pc.srcs.filterMap (fun y => (r.got u d y.1).map (fun b => (y.1, b)))
    if r.writtenTo.contains (u, d) ∨ got.length ≠ pc.srcs.length ∨ r.mayWrite r.desc u d = false then none else some (pc.dst, got)

/-- The two ranks of a transfer lie on one package. -/
def CollRun.samePkg (r : CollRun) (q d : Nat) : Bool :=
  match r.members[q]?, r.members[d]? with
  | some a, some b => decide (pkgOfSerac a.serac = pkgOfSerac b.serac)
  | _, _ => false

/-- Rank q has a contribution to send to another package, results to combine (R317). -/
def CollRun.sends (r : CollRun) (q : Nat) : Bool :=
  (List.range r.desc.transfers).any (fun u => (List.range r.desc.size).any (fun d => (r.toRead q u d).isSome && !r.samePkg q d))
def CollRun.combines (r : CollRun) (q : Nat) : Bool := (List.range r.desc.transfers).any (fun u => (r.toWrite u q).isSome)

/-! ### Arbitration (R317) -/

def resKey : CollResource → Nat
  | .alu => 0
  | .link n => n + 1
  | .within => 0

/-- Credits of a virtual channel on a link. -/
def vcCredits : Nat := 128
def Serac.credits (d : Serac) (link vc : Nat) : Nat := vcCredits - SMap.getD d.spent (link * 16 + vc) 0

/-- A member's effective priority: its record's override, else the communicator's. -/
def CollRun.priority (r : CollRun) (m : RunMember) : Nat := if recOverride m.record = 0 then r.prio else recOverride m.record
def CollRun.reduces (r : CollRun) : Bool := r.desc.op == 1 || r.desc.op == 2
/-- A link in service. -/
def Serac.linkUp (d : Serac) (n : Nat) : Bool := decide (n < linkCount) && !d.retiredLinks.contains n

/-- State of a run's instance at a rank; none where its entry is reused. -/
def State.rankState (s : State) (r : CollRun) (m : RunMember) (q : Nat) : Option InstState :=
  (s.memberInst m.serac r.coord r.comm r.inst q).map (fun x => x.2.2.state)
/-- A rank supplies its contributions until the run ends, also once it is DONE itself; it is written while it runs. -/
def State.supplies (s : State) (r : CollRun) (m : RunMember) (q : Nat) : Bool :=
  !m.lost && s.rankState r m q != some .fault && !r.pages.contains q
def State.receives (s : State) (r : CollRun) (m : RunMember) (q : Nat) : Bool :=
  !m.lost && s.rankState r m q == some .running && !r.pages.contains q

/-- A member of a run that a resource can serve. -/
structure ChunkCand where
  run : CollRun
  rank : Nat
  prio : Nat

/-- Members at a Serac die that a resource can serve: on a link, those with a chunk to send elsewhere whose channel holds a credit; at the
ALUs, those with results to combine. -/
def State.chunkCands (s : State) (serac : Nat) (res : CollResource) : List ChunkCand :=
  let d := s.serac serac
  s.runs.flatMap (fun r => ((List.range r.members.length).zip r.members).filterMap (fun x =>
    let able : Bool := match res with
      | .link n => d.linkUp n && decide (0 < d.credits n r.vc) && s.supplies r x.2 x.1 && r.sends x.1
      | .alu => r.reduces && s.receives r x.2 x.1 && r.combines x.1
      | .within => false
    if x.2.serac = serac ∧ able then some { run := r, rank := x.1, prio := r.priority x.2 } else none))

/-- Those of them that have a chunk ready: which, is the algorithm's schedule, which the spec leaves open (R306; log entry 6); at a
chunk boundary one at least has. -/
def State.readyChunks (s : State) (serac : Nat) (res : CollResource) : List ChunkCand :=
  let l := s.chunkCands serac res
  let some_ := l.filter (fun x => Config.freeBool s.freeCount (4 * (x.run.comm * 4096 + x.rank) + 2))
  if some_.isEmpty then l else some_

/-- The communicator whose turn it is: the current one while its weight lasts, else the next. -/
def nextTurn (cur : Option (Nat × Nat)) (comms : List (Nat × Nat)) : Nat × Nat :=
  let lowest := comms.foldl (fun a c => min a c.1) (comms.headD (0, 0)).1
  match cur with
  | none => (lowest, 0)
  | some (c, n) =>
    if comms.any (fun x => decide (x.1 = c ∧ n < x.2)) then (c, n)
    else match comms.filter (fun x => decide (c < x.1)) with
      | [] => (lowest, 0)
      | y :: ys => (ys.foldl (fun a x => min a x.1) y.1, 0)

/-- CHUNK_BOUNDARY (R317): the next chunk of a link or of the ALUs, by priority, then weighted round robin by communicator. -/
def execChunkBoundary (serac : Nat) (res : CollResource) (s : State) : Out :=
  let d := s.serac serac
  let l := s.readyChunks serac res
  if (SMap.find d.picks (resKey res)).isSome then .next s
  else
    let top := l.foldl (fun a x => max a x.prio) 0
    let cand := l.filter (fun x => decide (x.prio = top))
    let key := resKey res * 8 + top
    let (comm, n) := nextTurn (SMap.find d.turn key) (cand.map (fun x => (x.run.comm, x.run.weight)))
    match pickFree s 8 (cand.filter (fun x => decide (x.run.comm = comm))) with
    | none => .next s
    | some x =>
      .next (s.setSerac serac { d with
        picks := SMap.put d.picks (resKey res) { coord := x.run.coord, comm := x.run.comm, inst := x.run.inst, rank := x.rank, left := none }
        turn := SMap.put d.turn key (comm, n + 1) })

/-- CREDIT_RETURN (R317): of one of the die's links. -/
def execCreditReturn (serac link vc : Nat) (s : State) : Out :=
  let d := s.serac serac
  let n := SMap.getD d.spent (link * 16 + vc) 0
  .next (if n = 0 ∨ linkCount ≤ link ∨ 16 ≤ vc then s else s.setSerac serac { d with spent := SMap.put d.spent (link * 16 + vc) (n - 1) })

/-! ### Chunks (R316) -/

/-- The poster's translations (R305). -/
def collCtx (die part : Nat) (s1root : Option Nat) : Context :=
  let c := agentCtx die part 0
  { c with id := { c.id with s1root := s1root } }
def Posted.ctxOf (p : Posted) : Context := collCtx p.die p.part p.s1root
def RunMember.ctxOf (m : RunMember) : Context := collCtx m.die m.part m.s1root

/-- Lines of a range as translated parts, or the lowest fault. -/
def rangeParts (s : State) (c : Context) (va : Word) (n : Nat) (acc : Access) : Except XFault (List (Loc × Nat)) :=
  (linePieces va.toNat n).foldl (fun (a : Except XFault (List (Loc × Nat))) p =>
    match a with
    | .error x => .error x
    | .ok l => match translate s c (BitVec.ofNat 64 p.1) acc with
      | .error x => .error x
      | .ok loc => .ok (l ++ [(loc, p.2)])) (.ok [])

/-- A home that cannot be reached, or whose memory is retired (R319). -/
def State.homeLost (s : State) (serac : Nat) (l : Loc) : Bool :=
  s.seracLost serac (seracOfDie l.engine) || s.homeRetired l

/-- The instance ends with a fault at every member. -/
def State.failRun (s : State) (serac : Nat) (r : CollRun) (cause : Nat) (sub : BitVec 8) : State :=
  match s.commOf serac r.comm with
  | some m => s.faultAll serac m r.coord r.comm r.inst cause sub
  | none => s

/-- A translation fault of a chunk at rank q: NOTPRES waits for its page, any other ends the instance (R316). -/
def State.chunkFault (s : State) (r : CollRun) (m : RunMember) (q : Nat) (f : XFault) : State :=
  if isNotPres f.sub then
    (s.setRun { r with pages := insertKey q r.pages }).queueFault (.serac m.serac)
      { seq := 0, source := 5, who := m.entry, va := f.va, pc := 0, emitseq := 0, sub := f.sub, unit := 0, record := [] }
  else s.failRun m.serac r cXLATE f.sub

/-- Rank q's contribution to a transfer is read and sent. -/
def State.readChunk (s : State) (r : CollRun) (m : RunMember) (q u d len : Nat) (va : Word) : State :=
  match rangeParts s m.ctxOf va len .load with
  | .error f => s.chunkFault r m q f
  | .ok l =>
    if l.any (fun y => s.homeLost m.serac y.1) then s.failRun m.serac r cUNREACH 0
    else
      let bytes := l.flatMap (fun y => s.readHomeBytes none y.1.pkg y.1.pa y.2)
      s.setRun { r with chunks := r.chunks ++ [(u, d, q, bytes)] }

/-- A transfer's result is written at rank d; each chunk is an arrival at its Cobalt die (R316, R267). -/
def State.writeChunk (s : State) (r : CollRun) (m : RunMember) (u d : Nat) (va : Word) (data : List (Byte × Bool)) : State :=
  match rangeParts s m.ctxOf va data.length .store with
  | .error f => s.chunkFault r m d f
  | .ok l =>
    if l.any (fun y => s.homeLost m.serac y.1) then s.failRun m.serac r cUNREACH 0
    else
      let s1 := (l.foldl (fun (a : State × List (Byte × Bool)) y =>
        let b := a.2.take y.2
        (a.1.homeWriteBytes y.1.pkg y.1.pa (b.map (·.1)) (b.any (·.2)) false, a.2.drop y.2)) (s, data)).1
      let r1 := { r with
        chunks := r.chunks.filter (fun c => !decide (c.1 = u ∧ c.2.1 = d))
        writtenTo := r.writtenTo ++ [(u, d)] }
      (s1.setRun r1).arrival m.die m.tenant m.gang true

/-- A transfer's result is written at rank d, its contributions combined in some order (R306). -/
def State.applyChunk (s : State) (r : CollRun) (m : RunMember) (u d : Nat) (order : List Nat) : State :=
  match r.toWrite u d with
  | none => s
  | some (va, got) =>
    if s.receives r m d then s.writeChunk r m u d va (reduceBy (recType m.record) (recRed m.record) order got) else s

def State.runOf (s : State) (coord comm inst : Nat) : Option CollRun :=
  s.runs.find? (fun r => decide (r.coord = coord ∧ r.comm = comm ∧ r.inst = inst))

/-- Within a package, of rank q: its contribution to a transfer there is read, or a result that needs no reduction is written at it. -/
def State.moveWithin (s : State) (serac : Nat) (r : CollRun) (q u d : Nat) : State :=
  match r.members[q]? with
  | none => s
  | some m =>
    if m.serac ≠ serac then s
    else if r.samePkg q d && s.supplies r m q && (r.toRead q u d).isSome then
      (match r.toRead q u d with | some (len, va) => s.readChunk r m q u d len va | none => s)
    else if q = d ∧ r.reduces = false then s.applyChunk r m u d []
    else s

/-- The address and length of the transfer u to rank d as rank q sends it on a link. -/
def CollRun.onLink (r : CollRun) (q u d : Nat) : Option (Nat × Word) := if r.samePkg q d then none else r.toRead q u d

/-- A link's channel takes a chunk's credits, and the chunk goes once it has all; it pauses where the channel has none (R317). -/
def State.spendCredits (s : State) (serac n : Nat) (k : Pick) (r : CollRun) (u d need : Nat) : State × Bool :=
  let x := s.serac serac
  let key := n * 16 + r.vc
  let spend := min need (x.credits n r.vc)
  let spent := if spend = 0 then x.spent else SMap.put x.spent key (SMap.getD x.spent key 0 + spend)
  if spend < need then
    (s.setSerac serac { x with spent := spent, picks := SMap.put x.picks (n + 1) { k with left := some (u, d, need - spend) } }, false)
  else (s.setSerac serac { x with spent := spent, picks := SMap.drop x.picks (n + 1) }, true)

/-- On a link, the pick's chunk: the transfer under way, else the one named; nothing moves where that names no chunk of its member. The
pick goes without one where the member has none left, the link is out of service, its source faults, or an end is not reached. -/
def State.moveLink (s : State) (serac n : Nat) (k : Pick) (r : CollRun) (u d : Nat) : State :=
  let x := s.serac serac
  let drop := s.setSerac serac { x with picks := SMap.drop x.picks (n + 1) }
  let (u, d) := match k.left with | some l => (l.1, l.2.1) | none => (u, d)
  match r.members[k.rank]? with
  | none => drop
  | some m =>
    if !x.linkUp n || !s.supplies r m k.rank || !r.sends k.rank then drop
    else match r.onLink k.rank u d with
      | none => if k.left.isSome then drop else s
      | some (len, va) => match rangeParts s m.ctxOf va len .load with
        | .error f => drop.chunkFault r m k.rank f
        | .ok l =>
          if l.any (fun y => s.homeLost serac y.1) || (r.members[d]?).any (fun y => s.seracLost serac y.serac) then drop.failRun serac r cUNREACH 0
          else
            let (s1, all) := s.spendCredits serac n k r u d (match k.left with | some l => l.2.2 | none => (len + 255) / 256)
            if all then s1.readChunk r m k.rank u d len va else s1

/-- At the ALUs, the pick's results of the transfer named are combined and written; nothing where that names none of its member's. The
pick goes without where the member has none left. -/
def State.moveAlu (s : State) (serac : Nat) (k : Pick) (r : CollRun) (u : Nat) (order : List Nat) : State :=
  let x := s.serac serac
  let drop := s.setSerac serac { x with picks := SMap.drop x.picks 0 }
  match r.members[k.rank]? with
  | none => drop
  | some m =>
    if !s.receives r m k.rank || !r.combines k.rank then drop
    else if (r.toWrite u k.rank).isNone then s
    else drop.applyChunk r m u k.rank order

/-- CHUNK_TRANSFER (R316, R317): the member picked for the link sends the transfer the order names first to the rank it names second; the
member picked for the ALUs reduces the transfer named, in the order of the rest; within a package the order names coordinator,
communicator, instance, rank, transfer and destination. -/
def execChunkTransfer (serac : Nat) (res : CollResource) (order : List Nat) (s : State) : Out :=
  let d := s.serac serac
  match res, order with
  | .within, coord :: comm :: inst :: q :: u :: t :: _ =>
    .next (match s.runOf coord comm inst with
      | some r => s.moveWithin serac r q u t
      | none => s)
  | .within, _ => .next s
  | res, u :: t :: rest =>
    .next (match SMap.find d.picks (resKey res) with
      | none => s
      | some k => match s.runOf k.coord k.comm k.inst, res with
        | some r, .link n => s.moveLink serac n k r u t
        | some r, _ => s.moveAlu serac k r u rest
        | none, _ => s.setSerac serac { d with picks := SMap.drop d.picks (resKey res) })
  | _, _ => .next s

/-! ### Completion (R306, R319) -/

/-- Every transfer to a rank is written. -/
def CollRun.writtenAt (r : CollRun) (c : CollDesc) (d : Nat) : Bool :=
  (List.range c.transfers).all (fun u => (c.piece u d).isNone || r.writtenTo.contains (u, d))

/-- Every transfer of an instance has been sent, so every member has finished its walk (R318). -/
def CollRun.walked (r : CollRun) (c : CollDesc) : Bool :=
  (List.range c.transfers).all (fun u => (List.range c.size).all (fun d => match c.piece u d with
    | some pc => r.writtenTo.contains (u, d) || pc.srcs.all (fun y => (r.got u d y.1).isSome)
    | none => true))

/-- A RUNNING instance is complete at a rank: its own destination is written; with operation 5, every rank's; a NEST instance also once
every member has finished its walk. -/
def CollRun.completeAt (r : CollRun) (c : CollDesc) (d : Nat) : Bool :=
  if c.op = 5 then (List.range c.size).all (r.writtenAt c) else r.writtenAt c d && (!c.nest || r.walked c)

/-- The coordinator hears of a persistent instance's completion, and tells the members once it has all (R313). -/
def State.noteComplete (s : State) (m : Comm) (p : Posted) (inst : Nat) : State :=
  let s1 := s.updSerac p.coord (fun d => { d with completions := d.completions ++ [(p.comm, inst, p.rank)] })
  let got := ((s1.serac p.coord).completions.filter (fun x => decide (x.1 = p.comm ∧ x.2.1 = inst))).length
  if got < m.size then s1
  else
    let s2 := s1.updSerac p.coord (fun d => { d with completions := d.completions.filter (fun x => !decide (x.1 = p.comm ∧ x.2.1 = inst)) })
    m.words.foldl (fun s w => s.updSerac (memberSerac w) (fun d =>
      { d with allDone := (p.coord, p.comm, inst) :: d.allDone.filter (fun y => decide (y ≠ (p.coord, p.comm, inst))) })) s2

/-- A run that has ended at every member leaves the sequencers. -/
def State.dropRun (s : State) (m : Comm) (p : Posted) (inst : Nat) : State :=
  let finished := (List.range m.size).all (fun q => match s.member m p.coord p.comm inst q with
    | some (_, _, _, y) => y.state == .done || y.state == .fault
    | none => true)
  if finished then { s with runs := s.runs.filter (fun r => !decide (r.coord = p.coord ∧ r.comm = p.comm ∧ r.inst = inst)) } else s

/-- The completion signal of a DONE instance (R319). -/
def State.collSignal (s : State) (serac i : Nat) (p : Posted) (x : Inst) : State :=
  let next := s.setInst serac i { x with stage := 2 }
  if recSignal p.record = 0 then next
  else match translate s p.ctxOf (BitVec.ofNat 64 (recSignal p.record)) .store with
    | .ok loc => next.agentSignal loc 1 false true
    | .error f =>
      if isNotPres f.sub then
        (s.setInst serac i { x with page := true }).queueFault (.serac serac)
          { seq := 0, source := 5, who := i, va := f.va, pc := 0, emitseq := 0, sub := f.sub, unit := 0, record := [] }
      else next.reportColl serac i cXLATE x.number

/-- INSTANCE_COMPLETE (R319): DONE, then the signal, then the interrupt. -/
def execInstanceComplete (serac k : Nat) (s : State) : Out :=
  let p := s.posted serac k
  let open_ (x : Inst) : Bool := x.state == .running || (x.state == .done && !x.over)
  match p.insts.find? open_, s.commOf serac p.comm with
  | some x, some m =>
    if x.page then .next s
    else if x.state == .running then
      .next (match s.findRun p x with
        | none => s
        | some r =>
          if !r.completeAt r.desc p.rank then s
          else
            let s1 := s.setInst serac k { x with state := .done, stage := 1 }
            let s2 := if p.persistent then s1.noteComplete m p x.number else s1
            s2.dropRun m p x.number)
    else if x.stage = 1 then .next (s.collSignal serac k p x)
    else .next (((s.setInst serac k { x with stage := 3 }).collUli serac p true).freeIfEnded serac k)
  | _, _ => .next s

/-! ### Page service (R305, R316, R319, R325) -/

/-- The context whose CPOST waits for the page of its record. -/
def State.postWaiter (s : State) (serac i : Nat) : Option (Nat × Context × Nat × Word) :=
  s.contexts.findSome? (fun p => match p.2.wait with
    | .cpostPage d va e => if e = i ∧ seracOfDie p.2.die = serac then some (p.1, p.2, d, va) else none
    | _ => none)

/-- Rank of a run that waits for a page with an entry. -/
def CollRun.waitsFor (r : CollRun) (serac i : Nat) : Option Nat :=
  r.pages.find? (fun q => match r.members[q]? with | some m => decide (m.serac = serac ∧ m.entry = i) | none => false)

/-- The chunks that wait for a page with an entry may be tried again. -/
def State.pageOver (s : State) (serac i : Nat) : State :=
  { s with runs := s.runs.map (fun r => match r.waitsFor serac i with
      | some q => { r with pages := r.pages.filter (· ≠ q) }
      | none => r) }

/-- A served fault of the sequencer: the record read, chunk or signal is retried. An entry whose CPOST a BUNDLE trap has taken off is
free. -/
def State.collServed (s : State) (serac i : Nat) : State :=
  match s.postWaiter serac i with
  | some (k, c, d, va) => s.setCtx k { c with wait := .cpostSent d va (some i) }
  | none =>
    let p := s.posted serac i
    let s1 := s.pageOver serac i
    if !p.used then s1
    else s1.setPosted serac i (if p.hold then { Posted.free with generation := p.generation }
      else { p with insts := p.insts.map (fun x => { x with page := false }) })

/-- A declined fault of the sequencer: the post is accepted in FAULT, the signal is not sent, or the instance ends with XLATE at
every member. -/
def State.collDeclined (s : State) (serac i : Nat) (sub : BitVec 8) : State :=
  match s.postWaiter serac i with
  | some (k, c, d, _) => (s.postXlate c k serac i sub).acceptPost k c d i serac
  | none =>
    let p := s.posted serac i
    if p.hold then s.setPosted serac i { Posted.free with generation := p.generation }
    else match p.insts.find? (·.page), s.runs.find? (fun r => (r.waitsFor serac i).isSome) with
    | some x, _ => (s.setInst serac i { x with page := false, stage := 2 }).reportColl serac i cXLATE x.number
    | none, some r => (s.pageOver serac i).failRun serac r cXLATE sub
    | none, none => s

end Sys2Proof.Machine
end

