-- ==== Sys2Proof/Machine/Ctl.lean ====
section
/-! DEFINITION. Control-slot operations and NOP (R68-R77). -/

namespace Sys2Proof.Machine

def slotIndex : Slot → Nat
  | .ctl => 0
  | .mem => 1
  | .cpy => 2
  | .vx => 3
  | .vy => 4
  | .mtx => 5
  | .syn => 6

/-- NOP (R69): a sticky slot it names is emptied; CTL and SYN are not sticky. -/
def execNop (slot : Slot) (s : State) : Out :=
  withSlot s fun env c =>
    match slot with
    | .ctl => s
    | .syn => s
    | .mem | .cpy | .vx | .vy | .mtx => s.setCtx env.ctx { c with be := { c.be with sticky := SMap.put c.be.sticky (slotIndex slot) 0 } }

/-- FMTSET (R70): seen from four context cycles after its issue. -/
def execFmtset (acc : BitVec 1) (b a : BitVec 4) (s : State) : Out :=
  withSlot s fun env c =>
    s.setCtx env.ctx { c with fl := { c.fl with pendingFmt := c.fl.pendingFmt ++
      [{ due := env.cc + 4, idx := env.idx, fmt := { a := a, b := b, acc := acc } }] } }

/-- QCFG of an engine's slack (R71). -/
def execQcfgSlack (slack : BitVec 5) (eng : BitVec 3) (s : State) : Out :=
  withSlot s fun env c =>
    let b := c.be
    s.setCtx env.ctx { c with be :=
      if eng = 0 then { b with slackMtx := slack.toNat }
      else if eng = 1 then { b with slackCpy := slack.toNat }
      else { b with slackSyn := slack.toNat } }

/-- QCFG of a port slot (R72). -/
def execQcfgPort (rv : BitVec 1) (slot bank : BitVec 2) (s : State) : Out :=
  withSlot s fun env c =>
    s.setCtx env.ctx { c with be := { c.be with ports := setBitAt c.be.ports (4 * bank.toNat + slot.toNat) (rv == 1) } }

/-- STEP (R73). -/
def execStepReg (n : BitVec 24) (sel : BitVec 4) (slot : BitVec 3) (s : State) : Out :=
  withSlot s fun env c =>
    s.setCtx env.ctx { c with be := { c.be with steps := SMap.put c.be.steps (8 * slot.toNat + sel.toNat) n } }

/-- WAITW (R74). -/
def execWaitw (bytes : BitVec 15) (ch : BitVec 2) (s : State) : Out :=
  withSlot s fun env c =>
    match c.fl.copyOps.find? (fun o => decide (o.idx < env.idx) && o.w.ch == ch) with
    | some o => s.holdIf (decide (o.wp < bytes.toNat)) hSTREAM
    | none => s

/-- Groups of beats of an MMA (R182, R193): kpc beats a group, one beat where kpc is below 1. -/
def kpcBeats (fa fb : Nat) : Nat :=
  let k (f : Nat) : Nat := if f ≤ 2 then 1 else if f = 6 ∨ f = 8 then 4 else if f = 9 then 8 else 2
  min (k fa) (k fb)
def MtxOp.groupCount (o : MtxOp) : Nat :=
  let g := kpcBeats o.fmt.a.toNat o.fmt.b.toNat
  (o.w.k.toNat + g - 1) / g
/-- An MMA has not finished reading its streams. -/
def MtxOp.reading (o : MtxOp) : Bool := decide (o.op = 1 ∧ o.groups < o.groupCount)

/-- SADV (R75). -/
def execSadv (beats : BitVec 10) (sb : BitVec 1) (s : State) : Out :=
  withSlot s fun env c =>
    if beats = 0 then s
    else
      let st := if sb = 0 then c.be.sa else c.be.sb
      let st' := { st with consumer := st.consumer + beats.setWidth 32 }
      let c' := { c with be := if sb = 0 then { c.be with sa := st' } else { c.be with sb := st' } }
      (s.setCtx env.ctx c').holdIf
        (c.fl.mtxOps.any (fun o => decide (o.idx < env.idx) && o.reading) ||
          decide ((st.produced - st.consumer).toNat < beats.toNat)) hSTREAM

/-- MWAIT (R76). -/
def execMwait (tile : BitVec 5) (s : State) : Out :=
  withSlot s fun env c => s.holdIf (c.tileOwner env.idx tile.toNat).isSome hSTREAM

/-- CKPT (R77, R140): the firmware context places no marker. -/
def execCkpt (s : State) : Out :=
  withSlot s fun _ c => if c.isFirmware then s else s.updEnv fun e => { e with marks := true }

/-- PROG (R77). -/
def execProg (s : State) : Out := withSlot s fun env c => s.setCtx env.ctx c.progress

/-- CTL SYNC (R77). A landing has arrived when its data has (R233): the held clock could not reach its arrival cycle. -/
def execSync (s : State) : Out :=
  withSlot s fun _ c =>
    s.holdIf (!(c.fl.issued.isEmpty && c.fl.mtxOps.isEmpty && c.fl.copyOps.isEmpty && c.fl.landings.all (·.arrived) &&
      c.fl.syncOps.all SyncOp.performed)) hSYNC

end Sys2Proof.Machine
end

