-- ==== Sys2Proof/Machine/Fetch.lean ====
section
/-! DEFINITION. Which generator thread executes next and which instruction it fetches (R16, R103, R353). -/

namespace Sys2Proof.Machine

/-- The context key of thread `i` of a core: resident slots 0-3, then the firmware thread. -/
def threadKey (s : State) (core i : Nat) : Option Nat :=
  if i < 4 then SMap.find (s.core core).slots i
  else if (s.ctx (firmwareKey core)).isSome then some (firmwareKey core) else none

/-- The firmware thread has room in its share: at most SHARE of any 64 consecutive instructions (R16). -/
def Core.firmwareShare (r : Core) : Bool :=
  decide ((r.fwHistory.filter id).length < min (r.fwshare.toNat % 128) 64)

/-- A thread can execute its next instruction (R16, R103): no wait, or a stall on a queue that has room again. -/
def Context.threadReady (r : Core) (c : Context) : Bool :=
  c.runs && !r.retired && !c.stopped && !c.sch.yielding && decide (c.busyUntil ≤ r.cycle.toNat) &&
    (c.wait == .none || (c.wait == .queueFull && decide (c.qlevel < 64)))

/-- A thread has an instruction to execute, or work to do at its boundary first. -/
def threadCandidate (s : State) (core i : Nat) : Bool :=
  match threadKey s core i with
  | none => false
  | some k =>
    match s.ctx k with
    | none => false
    | some c =>
      let r := s.core core
      (!r.retired && (s.boundaryWork k).isSome) || (c.threadReady r && (decide (i < 4) || r.firmwareShare))

/-- The next ready thread in round-robin order after the last one; a thread on a cache miss is not ready (R16, R353). Which threads
are on one is open (R352). -/
def nextThread (s : State) (core : Nat) (miss : BitVec 5) : Option Nat :=
  if cobaltCores ≤ core then none
  else ((List.range 5).map (fun j => ((s.core core).genLast + 1 + j) % 5)).find? (fun i => !miss.getLsbD i && threadCandidate s core i)

/-- What a thread does when its turn comes. -/
inductive Turn where
  /-- nothing, or work at its boundary: the state after it -/
  | settled (s : State)
  /-- it executes the instruction in this state -/
  | run (i : Instr) (s : State)

/-- The instruction of a word: an undefined word is an illegal instruction (R66). -/
def instrOf (w : BitVec 32) : Instr :=
  match decodeBytes [w.extractLsb' 0 8, w.extractLsb' 8 8, w.extractLsb' 16 8, w.extractLsb' 24 8] with
  | .ok (i, _) => i
  | .error _ => .illegalInstruction w

/-- The word at a location (code is read at its home; log entry 21). -/
def State.codeWord (s : State) (loc : Loc) : BitVec 32 := s.home32 loc.pkg loc.pa

/-- Registers of the thread that an instruction reads or writes. -/
def namedRegs : Instr → List (BitVec 6)
  | .add b a d => [a, b, d] | .sub b a d => [a, b, d] | .mul b a d => [a, b, d] | .mulh b a d => [a, b, d]
  | .div b a d => [a, b, d] | .divu b a d => [a, b, d] | .rem b a d => [a, b, d] | .remu b a d => [a, b, d]
  | .and b a d => [a, b, d] | .or b a d => [a, b, d] | .xor b a d => [a, b, d] | .shl b a d => [a, b, d]
  | .shr b a d => [a, b, d] | .sra b a d => [a, b, d] | .slt b a d => [a, b, d] | .sltu b a d => [a, b, d]
  | .min b a d => [a, b, d] | .max b a d => [a, b, d] | .minu b a d => [a, b, d] | .maxu b a d => [a, b, d]
  | .clz a d => [a, d] | .popc a d => [a, d]
  | .addi _ a d => [a, d] | .andi _ a d => [a, d] | .ori _ a d => [a, d] | .xori _ a d => [a, d]
  | .shli _ a d => [a, d] | .shri _ a d => [a, d] | .srai _ a d => [a, d]
  | .slti _ a d => [a, d] | .sltiu _ a d => [a, d] | .lui _ d => [d] | .pcadd _ d => [d]
  | .ldb _ a d => [a, d] | .ldh _ a d => [a, d] | .ldw _ a d => [a, d] | .ldd _ a d => [a, d]
  | .ldbu _ a d => [a, d] | .ldhu _ a d => [a, d] | .ldwu _ a d => [a, d] | .ldz _ _ d => [d]
  | .stb _ a b => [a, b] | .sth _ a b => [a, b] | .stw _ a b => [a, b] | .std _ a b => [a, b] | .stz _ _ b => [b]
  | .beq _ b a => [a, b] | .bne _ b a => [a, b] | .blt _ b a => [a, b] | .bge _ b a => [a, b]
  | .bltu _ b a => [a, b] | .bgeu _ b a => [a, b] | .jal _ d => [d] | .jalr _ a d => [a, d]
  | .loop _ c => [c] | .lidx _ d => [d]
  | .bset a _ => [a] | .bfld a _ _ _ => [a] | .bldt _ a _ => [a] | .bhdr a => [a] | .emitm _ a => [a] | .nset a _ _ => [a]
  | .csrr _ d => [d] | .csrw _ a d => [a, d] | .gchk a => [a] | .cpost a d => [a, d] | .cqry a d => [a, d]
  | _ => []

/-- The state in which an instruction executes: the loads of the registers that it names are performed (log entry 8). -/
def State.loadsFor (s : State) (k : Nat) (i : Instr) : State :=
  s.updCtx k (fun c => c.performWhere s (fun l => (namedRegs i).contains l.d))

/-- A thread fetches the instruction at its pc: a fetch fault traps with TPC and TVAL the pc and FETCH set (R111). -/
def fetchThread (s : State) (k : Nat) : Turn :=
  match s.ctx k with
  | none => .settled s
  | some c =>
    match translate s c c.thread.pc .fetch with
    | .error x => .settled (s.genXlateFault k x true)
    | .ok loc =>
      let i := instrOf (s.codeWord loc)
      .run i { (s.loadsFor k i).cacheTranslation c c.thread.pc with cur := k }

/-- Counts an instruction of thread `i` (R16). -/
def Core.countInstr (r : Core) (i : Nat) : Core :=
  { r with genUsed := true, genLast := i, fwHistory := (decide (i = 4) :: r.fwHistory).take 63 }

/-- The generator of a core: in a cycle that is no freeze cycle and in which none has executed yet, one instruction of
the next ready thread (R16, R27). -/
def generatorTurn (s : State) (core : Nat) (miss : BitVec 5) : Turn :=
  let r := s.core core
  if r.frozen || r.genUsed then .settled s
  else match nextThread s core miss with
    | none => .settled s
    | some i =>
      match threadKey s core i with
      | none => .settled s
      | some k =>
        match s.boundaryWork k with
        | some s' => .settled { s' with agenda := .gen core miss s.late :: s'.agenda }
        | none => fetchThread (s.updCore core (fun r => r.countInstr i)) k

/-- A management thread can execute: it runs and waits for nothing. -/
def Context.managementReady (c : Context) : Bool := c.management && c.runs && !c.stopped && !c.sch.yielding && c.wait == .none

/-- A management core executes its next instruction (R344); its CYCLE has gone on by a free number (log entry 65). -/
def managementTurn (s : State) (k : Nat) : Turn :=
  match s.ctx k with
  | none => .settled s
  | some c =>
    match s.boundaryWork k with
    | some s' => .settled s'
    | none =>
      if c.managementReady then
        fetchThread (s.updCore c.coreKey (fun r => { r with cycle := r.cycle + (Config.seracCycles s.freeCount).setWidth 64 })) k
      else .settled s

/-- What the next move of the machine is (log entry 1). -/
def State.nextMove (s : State) : Move :=
  match s.agenda with
  | m :: _ => m
  | [] => Config.nextMove s.moves

/-- The state in which the move is made: the move is taken off, the counters advance. -/
def State.begun (s : State) : State :=
  { s with agenda := s.agenda.tail, moves := s.moves + 1, freeCount := s.freeCount + 1 }

/-- A step of the part that is no instruction: the rows without an encoding. -/
def isEvent (i : Instr) : Bool :=
  (encodeGen i).isNone && (encodeSlot i).isNone && (match i with | .illegalInstruction _ => false | _ => true)

/-! ### The fabric domain (R1, R9)

A domain has 4,096 packages of eight Cobalt and two Serac dies; a context's key lies below those of the firmware and management contexts'
end. -/

def dieExists (die : Nat) : Bool := decide (die < 2 ^ 15)
def seracExists (serac : Nat) : Bool := decide (serac < 2 ^ 13)
def ctxExists (k : Nat) : Bool := decide (k < 2 ^ 25 + 2 ^ 22)
def portExists : FaultPort → Bool
  | .cobalt die => dieExists die
  | .serac k => seracExists k
def pageExists : DevPage → Bool
  | .sched die | .command die | .doorbell die _ | .invalidation die | .aperture die _ => dieExists die
  | .fault port => portExists port
  | .coreControl core => dieExists (dieOfCore core)
  | .collective k | .management k => seracExists k
  | .copyStatus k | .tableEntry k => dieExists (dieOfCtx k)

/-- The agent of a step is a part of one of the domain's packages (R1). -/
def inDomain : Instr → Bool
  | .spinLimitReached k | .reslate k | .coldcand k | .sliceEnd k | .checkpointLatest k | .watchdogFire k | .intervalCheckpoint k
  | .fatalTrap k | .contextDead k | .rimeDump k | .contextDrain k | .rollback k | .contextRestore k | .landingReplay k | .tileRefetch k
  | .bundleCommit k | .vectorResultDue k | .fmtTakesEffect k | .landingDataArrives k _ | .timedLanding k | .loadPerform k _
  | .transitWriteApply k _ | .snapshotLineDrop k _ | .phaseSend k _ | .phaseComplete k _ | .haltComplete k | .drainqComplete k
  | .spinTimeout k | .bundleTrap k | .uliDelivery k | .copyOpBegin k _ | .copyChunk k _ _ | .feedBeatLand k _ | .addwRowWrite k _ _
  | .fragmentArrival k _ | .fragmentResponse k _ | .rputBackoffExpiry k _ | .mmaGroup k _ | .matrixOpComplete k _ | .syncOpPerform k _
  | .syncAnswerArrival k _ | .waiterBusyResend k | .asyncLogRecord k _ | .postAccept k => ctxExists k
  | .slotTableUpdate core | .coreCycle core _ | .matrixOpBegin core => dieExists (dieOfCore core)
  | .fairnessWindowStart die | .boostDecay die | .dieCycle die | .invalidateAll die | .invalidateVaRange die | .invalidateIpaRange die _
  | .invalidateRoot die | .invalidatePartition die _ | .invalidationComplete die | .btStart die _ _ _ _ _ | .btTakeStart die _
  | .btChunk die _ | .btComplete die _ | .queueStart die _ | .queueResume die _ | .queuePark die _ | .queueDisable die _
  | .doorbell die _ _ _ _ | .packetFetch die _ | .pktNop die _ | .invoke die _ | .invokeStart die _ | .taskGraphEnd die _ | .ib die _
  | .pred die _ | .pktLoop die _ | .pktWait die _ | .pktSigAdd die _ | .pktSigSet die _ | .ffence die _ | .thaw die _ | .stealRequest die
  | .retirement die _ | .stealAnswer die => dieExists die
  | .hostWrite k _ _ | .hostRead k _ _ | .coordinatorNotice k _ | .ticketRequest k | .ticketTake k _ | .reservation k _ | .confirmation k _
  | .chunkBoundary k _ | .chunkTransfer k _ _ | .creditReturn k _ _ | .instanceComplete k _ | .instanceFault k _ | .spdmMeasurement k _
  | .dumpKeyDelivery k _ _ | .peerUnreachable k _ => seracExists k
  | .resetBoot b => seracExists b.serac
  | .powerLoss pkg _ | .redfishRequest pkg _ => decide (pkg < 2 ^ 12)
  | .faultServed p _ | .faultDeclined p _ | .faultQueueHeadAdvance p _ => portExists p
  | .registerWrite p _ _ _ => pageExists p
  | _ => true

/-- The turn of the next move; a move cannot make a thread execute what it has not fetched, nor an agent outside the domain act. -/
def State.turn (s : State) : Turn :=
  match s.nextMove with
  | .gen core miss late => generatorTurn { s.begun with late := late } core miss
  | .mgmt k late => managementTurn { s.begun with late := late } k
  | .ev i => if isEvent i && inDomain i then .run i s.begun else .settled s.begun

/-! ### Placing an instruction (log entry 13) -/

/-- Where the next move fetches an instruction, if it fetches one. -/
def State.fetchPlace (s : State) : Option Loc :=
  match s.agenda with
  | .gen core miss _ :: _ =>
    if (s.core core).frozen || (s.core core).genUsed then none
    else match nextThread s core miss with
      | none => none
      | some i =>
        match threadKey s core i with
        | none => none
        | some k =>
          match s.ctx k, s.boundaryWork k with
          | some c, none => match translate s c c.thread.pc .fetch with
            | .ok loc => some loc
            | .error _ => none
          | _, _ => none
  | _ => none

/-- The bytes of the placed instruction, as the hardware stores them (R2). -/
def State.placeWord (s : State) (pkg pa w : Nat) : State :=
  { s with mem := Memory.writeBytes s.mem (memKey pkg pa) (leBytes 4 w) }

/-- The identity of the placed program's context: context 0, partition 0, a task graph of one task. -/
def placedIdent : Ident where
  ctxid := 0
  tenant := 0
  gang := 0
  taskidx := 0
  taskcnt := 1
  part := 0
  basePrio := 0
  s1root := some 0x3000
  graph := 0
  templPa := 0x20000
  templSize := 4096
  zrel := []
  winF := 0x4000
  winW := 0x4000
  winC := 0x2000

/-- The two translation tables of the placed program: the first gigabyte of its addresses is the first gigabyte of
package 0, homed on die 0. -/
def placedTables : List (Nat × Nat) :=
  [(0x1000, 0x2001), (0x2000, 0x6001), (0x6000, 0x3), (0x3000, 0x4001), (0x4000, 0x5001), (0x5000, 0x13)]

def placeTables (m : List Host.Cell) : List (Nat × Nat) → List Host.Cell
  | [] => m
  | (a, e) :: rest => placeTables (Memory.writeBytes m (memKey 0 a) (leBytes 8 e)) rest

/-- A resident context in slot 0 of core 0, loaded from outside, whose thread is the core's next. -/
def State.placeContext (s : State) : State :=
  let s1 := { s with mem := placeTables s.mem placedTables, agenda := [.gen 0 0 false] }
  let s2 := s1.updDie 0 (fun d => { d with s2roots := SMap.put d.s2roots 0 0x1000, tcache := [], tlbs := [] })
  let s3 := s2.setCore 0 { s2.core 0 with frozen := false, genUsed := false, genLast := 4, slots := [(0, 0)], retired := false }
  s3.setCtx 0 { Context.start placedIdent 0x10000 0 with status := .resident, slot := some 0 }

/-- The word stored where the next step fetches; a program is loaded first where the next step fetches none. -/
def State.placeAtFetch (s : State) (w : Nat) : State :=
  match s.fetchPlace with
  | some loc => s.placeWord loc.pkg loc.pa w
  | none => s.placeContext.placeWord 0 0x10000 w

end Sys2Proof.Machine
end

