-- ==== Sys2Proof/Machine/MtxIssue.lean ====
section
/-! DEFINITION. The MTX slot at issue (R31, R186, R189, R192, R193, R195, R198). -/

namespace Sys2Proof.Machine

/-- Class of a matrix format (R168): 0 FP32, 1 bfloat16, 2 binary16, 3 FP8, 4 integer, 5 block. -/
def fmtClass (f : BitVec 4) : Nat :=
  let n := f.toNat
  if n ≤ 2 then n else if n ≤ 4 then 3 else if n ≤ 6 then 4 else 5

/-- The core has no matrix engine, or the context's partition has none (R31, R186). -/
def State.noMatrix (s : State) (c : Context) : Bool :=
  !(s.core c.coreKey).slotmap.getLsbD 2 || (!c.isFirmware && !((s.die c.die).part c.id.part).eng.getLsbD 0)

/-- A matrix operation issues: its checks, its holds, its place in the queue. -/
def issueMtx (op : Nat) (w : MtxWord) (s : State) : Out :=
  withSlot s fun env c =>
    let fmt := c.fmtAt env.cc
    let o : MtxOp :=
      { id := c.fl.nextId, idx := env.idx, op := BitVec.ofNat 6 op, w := w, fmt := fmt, baseA := c.be.sa.consumer,
        baseB := c.be.sb.consumer, pc := env.pc, seq := env.seq, committed := false, commitCycle := 0, state := .queued, begunAt := 0,
        loaded := 0, inArray := false, groups := 0,
        plane := [], mis := false, bad := false, flags := 0, loadPoison := [], rows := 0 }
    let s1 := (s.setCtx env.ctx { c with fl := { c.fl with mtxOps := c.fl.mtxOps ++ [o], nextId := c.fl.nextId + 1 } }).addActs
      [.matrix o.id]
    let s2 := (s1.holdIf (slackHolds (c.mtxOccupancy env.idx) env.slackMtx 8) hSLACK).holdIf
      (if op = 2 ∨ op = 3 then c.readHeld env.idx 0 w.f.toNat 16384
       else if op = 4 ∨ op = 5 then c.writeHeld env.idx 0 w.f.toNat
       else false) hTILE
    if s.noMatrix c then s2.slotFault { slot := 5, cause := bNOENG, sub := 0, addr := 0 }
    else if op = 1 ∧ fmtClass fmt.a ≠ fmtClass fmt.b then s2.slotFault { slot := 5, cause := bFMTPAIR, sub := 0, addr := 0 }
    else if op = 1 ∧ (fmt.acc == 1) ≠ decide (fmtClass fmt.a = 4) then
      s2.slotFault { slot := 5, cause := bFMTACC, sub := 0, addr := 0 }
    else s2

/-- MMA (R193). -/
def execMma (w : MtxWord) (s : State) : Out := issueMtx 1 w s
/-- MLD (R195). -/
def execMld (w : MtxWord) (s : State) : Out := issueMtx 2 w s
/-- MLDT (R195). -/
def execMldt (w : MtxWord) (s : State) : Out := issueMtx 3 w s
/-- MST (R196). -/
def execMst (w : MtxWord) (s : State) : Out := issueMtx 4 w s
/-- MSTQ (R197). -/
def execMstq (w : MtxWord) (s : State) : Out := issueMtx 5 w s
/-- MCLR (R199). -/
def execMclr (w : MtxWord) (s : State) : Out := issueMtx 6 w s
/-- MACC (R200). -/
def execMacc (w : MtxWord) (s : State) : Out := issueMtx 7 w s

end Sys2Proof.Machine
end

