-- ==== Sys2Proof/Machine/VecArith.lean ====
section
/-! DEFINITION. Floating-point, integer, bitwise and widening vector operations (R210-R213). -/

namespace Sys2Proof.Machine

/-- VADD (R210). -/
def execVadd (p : Pipe) (w : VWord) (s : State) : Out := lanes2 s p w w.latency (arith2 w (fadd w.mode) (· + ·))
/-- VSUB (R210). -/
def execVsub (p : Pipe) (w : VWord) (s : State) : Out :=
  lanes2 s p w w.latency (arith2 w (fun a b => fadd w.mode a b.neg) (· - ·))
/-- VMUL (R210). -/
def execVmul (p : Pipe) (w : VWord) (s : State) : Out := lanes2 s p w w.latency (arith2 w fmul (· * ·))
/-- VFMA (R210): one rounding. -/
def execVfma (p : Pipe) (w : VWord) (s : State) : Out :=
  lanes3 s p w 4 fun x y z =>
    w.fmt.finish (ffma w.mode (w.fmt.decode x) (w.fmt.decode y) (w.fmt.decode z)) w.mode w.saturates
/-- VFMS (R210): one rounding. -/
def execVfms (p : Pipe) (w : VWord) (s : State) : Out :=
  lanes3 s p w 4 fun x y z =>
    w.fmt.finish (ffma w.mode (w.fmt.decode x) (w.fmt.decode y) (w.fmt.decode z).neg) w.mode w.saturates
/-- VMIN (R210, R211). -/
def execVmin (p : Pipe) (w : VWord) (s : State) : Out := lanes2 s p w w.latency fun x y => (minMax w.t false x y, 0)
/-- VMAX (R210, R211). -/
def execVmax (p : Pipe) (w : VWord) (s : State) : Out := lanes2 s p w w.latency fun x y => (minMax w.t true x y, 0)
/-- VABS (R210, R211). -/
def execVabs (p : Pipe) (w : VWord) (s : State) : Out := lanes1 s p w w.latency (absLane w)
/-- VNEG (R210, R211). -/
def execVneg (p : Pipe) (w : VWord) (s : State) : Out := lanes1 s p w w.latency (negLane w)
/-- VRCP (R210, R211): 1 / va rounded once. -/
def execVrcp (p : Pipe) (w : VWord) (s : State) : Out :=
  lanes1 s p w 8 fun x => w.fmt.divide (.fin false 1 0) (w.fmt.decode x) w.mode w.saturates
/-- VRSQ (R210, R211). -/
def execVrsq (p : Pipe) (w : VWord) (s : State) : Out :=
  lanes1 s p w 8 fun x => w.fmt.rsqrt (w.fmt.decode x) w.mode w.saturates
/-- VEXP2 (R210, R211). -/
def execVexp2 (p : Pipe) (w : VWord) (s : State) : Out :=
  lanes1 s p w 8 fun x => w.fmt.exp2 (w.fmt.decode x) w.mode w.saturates
/-- VDIV (R210, R211). -/
def execVdiv (p : Pipe) (w : VWord) (s : State) : Out :=
  lanes2 s p w 8 fun x y => w.fmt.divide (w.fmt.decode x) (w.fmt.decode y) w.mode w.saturates

/-- VAND (R212). -/
def execVand (p : Pipe) (w : VWord) (s : State) : Out := lanes2 s p w 2 fun x y => (x &&& y, 0)
/-- VOR (R212). -/
def execVor (p : Pipe) (w : VWord) (s : State) : Out := lanes2 s p w 2 fun x y => (x ||| y, 0)
/-- VXOR (R212). -/
def execVxor (p : Pipe) (w : VWord) (s : State) : Out := lanes2 s p w 2 fun x y => (x ^^^ y, 0)
/-- VNOT (R212). -/
def execVnot (p : Pipe) (w : VWord) (s : State) : Out := lanes1 s p w 2 fun x => (2 ^ w.bits - 1 - x, 0)
/-- VSHL (R212): 0 when the amount reaches the width. -/
def execVshl (p : Pipe) (w : VWord) (s : State) : Out :=
  lanes2 s p w 2 fun x n => (if w.bits ≤ n then 0 else x * 2 ^ n % 2 ^ w.bits, 0)
/-- VSHR (R212): 0 when the amount reaches the width. -/
def execVshr (p : Pipe) (w : VWord) (s : State) : Out :=
  lanes2 s p w 2 fun x n => (if w.bits ≤ n then 0 else x / 2 ^ n, 0)
/-- VSRA (R212): of the bit pattern; copies of the top bit when the amount reaches the width. -/
def execVsra (p : Pipe) (w : VWord) (s : State) : Out :=
  lanes2 s p w 2 fun x n => (wrapTo w.bits (intOf true w.bits x / 2 ^ (min n w.bits)), 0)
/-- VSHLI (R212). -/
def execVshli (p : Pipe) (w : VWord) (s : State) : Out := lanes1 s p w 2 fun x => (x * 2 ^ w.vc.toNat % 2 ^ w.bits, 0)
/-- VSHRI (R212). -/
def execVshri (p : Pipe) (w : VWord) (s : State) : Out := lanes1 s p w 2 fun x => (x / 2 ^ w.vc.toNat, 0)
/-- VMULH (R212): the high half of the exact product. -/
def execVmulh (p : Pipe) (w : VWord) (s : State) : Out :=
  lanes2 s p w 2 fun x y => (wrapTo w.bits (w.int x * w.int y / 2 ^ w.bits), 0)
/-- VCLZ (R212). -/
def execVclz (p : Pipe) (w : VWord) (s : State) : Out := lanes1 s p w 2 fun x => (w.bits - natLength x, 0)

/-- VWADD (R213): exact for integers, rounded to binary32 for floating types. -/
def execVwadd (p : Pipe) (w : VWord) (s : State) : Out :=
  issueVec s p w {} w.latency fun _ i => widen w i fun j =>
    let x := lane i.a w.bits j
    let y := lane i.b w.bits j
    wideResult w (if w.float then .inl (fadd w.mode (w.fmt.decode x) (w.fmt.decode y)) else .inr (w.int x + w.int y))

/-- VWACC (R213): the accumulator pair is vb, vc at the wide type. -/
def execVwacc (p : Pipe) (w : VWord) (s : State) : Out :=
  issueVec s p w { vc := true } w.latency fun _ i => widen w i fun j =>
    let half := typeLanes w.t / 2
    let x := lane i.a w.bits j
    let acc := if j < half then lane i.b (2 * w.bits) j else lane i.c (2 * w.bits) (j - half)
    wideResult w (if w.float then .inl (fadd w.mode (fmtF32.decode acc) (w.fmt.decode x))
      else .inr (intOf (isSigned w.t) (2 * w.bits) acc + w.int x))

/-- VWMUL (R213). -/
def execVwmul (p : Pipe) (w : VWord) (s : State) : Out :=
  issueVec s p w {} w.latency fun _ i => widen w i fun j =>
    let x := lane i.a w.bits j
    let y := lane i.b w.bits j
    wideResult w (if w.float then .inl (fmul (w.fmt.decode x) (w.fmt.decode y)) else .inr (w.int x * w.int y))

end Sys2Proof.Machine
end

