-- ==== Sys2Proof/Machine/VecMove.lean ====
section
/-! DEFINITION. Compare, select, conversion, lane movement, checks and status (R214-R225). -/

namespace Sys2Proof.Machine

/-- The condition codes of VCMP (R214): 0 eq, 1 ne, 2 lt, 3 le, 4 gt, 5 ge, 6 unord, 7 ord. -/
def condHolds (cond : Nat) (r : Option Ordering) : Bool :=
  match r with
  | none => decide (cond = 1 ∨ cond = 6)
  | some .eq => decide (cond = 0 ∨ cond = 3 ∨ cond = 5 ∨ cond = 7)
  | some .lt => decide (cond = 1 ∨ cond = 2 ∨ cond = 3 ∨ cond = 7)
  | some .gt => decide (cond = 1 ∨ cond = 4 ∨ cond = 5 ∨ cond = 7)

def compareLanes (ty x y : Nat) : Option Ordering :=
  if isFloat ty then fcmp ((fpOfType ty).decode x) ((fpOfType ty).decode y)
  else some (compare (intOf (isSigned ty) (laneBits ty) x) (intOf (isSigned ty) (laneBits ty) y))

/-- VCMP (R214): writes the bits of the true lanes of predicate vd. -/
def execVcmp (p : Pipe) (w : VWord) (s : State) : Out :=
  issueVec s p w {} w.latency fun _ i =>
    let b := typeBytes w.t
    let data := maskOf b (fun j => condHolds w.vc.toNat (compareLanes w.t (lane i.a w.bits j) (lane i.b w.bits j)))
    { writes := [(.pred w.vd.toNat (maskOf b (laneTrue i.p b)) data, i.psn)], flags := 0 }

/-- VSEL (R215): every lane is written; q selects. -/
def execVsel (p : Pipe) (w : VWord) (s : State) : Out :=
  issueVec s p w {} 2 fun _ i =>
    let b := typeBytes w.t
    let data := (List.range (typeLanes w.t)).map (fun j =>
      if laneTrue i.p b j then lane i.a w.bits j else lane i.b w.bits j)
    { writes := [(.vreg w.vd.toNat (BitVec.allOnes 64) (ofLanes w.bits data), i.psn)], flags := 0 }

/-- QOP (R216): the truth table TT applied bit by bit. -/
def qopBits (tt : Nat) (a b : Word) : Word :=
  (List.range 64).foldl (fun acc j =>
    setBitAt acc j (decide (tt / 2 ^ ((if a.getLsbD j then 2 else 0) + (if b.getLsbD j then 1 else 0)) % 2 = 1))) 0

def execQop (p : Pipe) (w : VWord) (s : State) : Out :=
  withSlot s fun env c =>
    let view := c.vview env.cc
    let a := view.pred (w.va.toNat % 8)
    let b := view.pred (w.vb.toNat % 8)
    s.setCtx env.ctx (c.addWrite
      { due := env.cc + 2, idx := env.idx, ord := ordV p
        target := .pred (w.vd.toNat % 8) (BitVec.allOnes 64) (qopBits w.vc.toNat a.1 b.1), poison := a.2 || b.2 })

/-- VCVT (R217): source and destination lanes by the part h. -/
def execVcvt (p : Pipe) (w : VWord) (s : State) : Out :=
  issueVec s p w { vb := false } 4 fun _ i =>
    let src := w.vc.toNat % 16
    let h := w.vc.toNat / 16 % 4
    let ls := typeLanes src
    let ld := typeLanes w.t
    let b := typeBytes w.t
    -- the source lane of a destination lane
    let from_ (j : Nat) : Option Nat :=
      if ls = ld then some j
      else if ls < ld then (if h * ls ≤ j ∧ j < h * ls + ls then some (j - h * ls) else none)
      else some (h * ld + j)
    let r := (List.range ld).map (fun j => match from_ j with
      | some k => (laneTrue i.p b j, convert src w.t (lane i.a (laneBits src) k) w.mode w.saturates)
      | none => (false, (0, 0)))
    { writes := [(.vreg w.vd.toNat (maskOf b (fun j => laneTrue i.p b j && (from_ j).isSome)) (ofLanes w.bits (r.map (fun x => x.2.1))), i.psn)]
      flags := orFlags (r.map (fun x => if x.1 then x.2.2 else 0)) }

/-- VQNT (R218): one block into bytes J × z of vd. -/
def execVqnt (p : Pipe) (w : VWord) (s : State) : Out :=
  issueVec s p w { vb := false, q := false } 6 fun _ i =>
    let code := w.vc.toNat % 16
    let j := w.vc.toNat / 16 % 4
    let z := blockBytes code
    let r := blockEncode (blockM code) ((lanes i.a 32).map fmtF32.decode)
    { writes := [(.vreg w.vd.toNat (byteMask (j * z) z) (BitVec.ofNat 512 (r.1 * 2 ^ (8 * j * z))), i.psn)], flags := r.2 }

/-- VDQNT (R219): block J of va into 16 binary32 lanes, exactly. -/
def execVdqnt (p : Pipe) (w : VWord) (s : State) : Out :=
  issueVec s p w { vb := false } 4 fun _ i =>
    let code := w.vc.toNat % 16
    let j := w.vc.toNat / 16 % 4
    let z := blockBytes code
    let vals := blockDecode (blockM code) (i.a.toNat / 2 ^ (8 * j * z) % 2 ^ (8 * z))
    laneWise 0 w i fun k => ((fmtF32.encode (vals.getD k .nan) 0 false).1, 0)

/-- VSCAN (R220). -/
def execVscan (p : Pipe) (w : VWord) (s : State) : Out :=
  issueVec s p w {} 6 fun _ i =>
    let b := typeBytes w.t
    let r := scanLanes (combine w.t w.vc.toNat w.mode w.saturates) (lane i.b w.bits (typeLanes w.t - 1)) (lanes i.a w.bits)
      (laneTrue i.p b)
    { writes := [(.vreg w.vd.toNat (maskOf b (laneTrue i.p b)) (ofLanes w.bits r.1), i.psn)], flags := r.2 }

/-- VRED (R221): lane 0 receives the result, the other lanes zero. -/
def execVred (p : Pipe) (w : VWord) (s : State) : Out :=
  issueVec s p w { vb := false } 6 fun _ i =>
    let b := typeBytes w.t
    let xs := ((List.range (typeLanes w.t)).filter (laneTrue i.p b)).map (lane i.a w.bits)
    let r := redLanes (combine w.t w.vc.toNat w.mode w.saturates) (canonLane w.t) (redIdentity w.t w.vc.toNat) xs
    { writes := [(.vreg w.vd.toNat (BitVec.allOnes 64) (BitVec.ofNat 512 (r.1 % 2 ^ w.bits)), i.psn)], flags := r.2 }

/-- VPERM (R222). -/
def execVperm (p : Pipe) (w : VWord) (s : State) : Out :=
  issueVec s p w {} 6 fun _ i => laneWise w.t w i fun j => (lane i.a w.bits (lane i.b w.bits j % typeLanes w.t), 0)

/-- VBCST (R222). -/
def execVbcst (p : Pipe) (w : VWord) (s : State) : Out :=
  issueVec s p w { vb := false } 2 fun _ i => laneWise w.t w i fun _ => (lane i.a w.bits w.vc.toNat, 0)

/-- VSHFL (R222). -/
def execVshfl (p : Pipe) (w : VWord) (s : State) : Out :=
  issueVec s p w {} 2 fun _ i => laneWise w.t w i fun j =>
    let k := j + w.vc.toNat
    (if k < typeLanes w.t then lane i.a w.bits k else lane i.b w.bits (k - typeLanes w.t), 0)

/-- VIOTA (R222). -/
def execViota (p : Pipe) (w : VWord) (s : State) : Out :=
  issueVec s p w { va := false, vb := false } 2 fun _ i => laneWise w.t w i fun j => (wrapTo w.bits (w.vc.toInt + j), 0)

/-- VMOV (R222). -/
def execVmov (p : Pipe) (w : VWord) (s : State) : Out := lanes1 s p w 2 fun x => (x, 0)

/-- The immediate as a value of the type (R222 VMOVI). -/
def moviLane (ty : Nat) (v : Int) : Nat :=
  if isFloat ty then ((fpOfType ty).encode (fvalOfInt v) 0 false).1 else wrapTo (laneBits ty) v

/-- VMOVI (R222). -/
def execVmovi (p : Pipe) (w : VWord) (s : State) : Out :=
  issueVec s p w { va := false, vb := false } 2 fun _ i => laneWise w.t w i fun _ => (moviLane w.t w.vc.toInt, 0)

/-- The 30-bit immediate by the type (R222 VLDI). -/
def ldiLane (ty : Nat) (n : BitVec 30) : Nat :=
  if ty = 0 then n.toNat * 4
  else if ty = 3 then (n.signExtend 32).toNat
  else if ty = 4 then n.toNat
  else n.toNat % 2 ^ laneBits ty

/-- VLDI (R222). -/
def execVldi (p : Pipe) (w : VWord) (s : State) : Out :=
  issueVec s p w { va := false, vb := false } 2 fun _ i => laneWise w.t w i fun _ => (ldiLane w.t (vldiImm w), 0)

/-- Slot index of a pipe's slot (R57). -/
def pipeSlot : Pipe → Nat
  | .x => 3
  | .y => 4

/-- VCHK (R223): a poisoned register raises the bundle fault VCHK. -/
def execVchk (p : Pipe) (w : VWord) (s : State) : Out :=
  withSlot s fun env c =>
    let view := c.vview env.cc
    let isPred := w.vc == 1
    let bad := if isPred then (view.pred (w.va.toNat % 8)).2 else (view.reg w.va.toNat).2
    if bad then
      s.slotFault { slot := pipeSlot p, cause := bVCHK, sub := 0,
                    addr := BitVec.ofNat 64 (w.va.toNat + (if isPred then 1024 else 0)) }
    else s

/-- VCLRP (R224): the tag clears two context cycles later; q0 has none. -/
def execVclrp (p : Pipe) (w : VWord) (s : State) : Out :=
  withSlot s fun env c =>
    let isPred := w.vc == 1
    if isPred && w.vd == 0 then s
    else s.setCtx env.ctx (c.addWrite
      { due := env.cc + 2, idx := env.idx, ord := ordV p
        target := if isPred then .clearQ (w.vd.toNat % 8) else .clearV w.vd.toNat, poison := false })

/-- The status VSTAT reads (R225). DESIGN CHOICE (log entry 67): the count of landing entries has that of a load in the same bundle's MEM
slot. -/
def vstatValue (s : State) (c : Context) (sel : Nat) : Nat :=
  if sel < 32 then
    (if sel < winLimit c.id.winC then ((s.core c.coreKey).line (statusKey (winBase c.id.winC + sel))).data.toNat % 256 else 0)
  else if sel = 32 then c.be.vflags.toNat
  else if sel = 33 then c.be.oorflag.toNat
  else c.fl.landings.length

/-- VSTAT (R225). -/
def execVstat (p : Pipe) (w : VWord) (s : State) : Out :=
  withSlot s fun env c =>
    s.setCtx env.ctx (c.addWrite
      { due := env.cc + 2, idx := env.idx, ord := ordV p
        target := .vreg w.vd.toNat (BitVec.allOnes 64) (BitVec.ofNat 512 (vstatValue s c w.vc.toNat % 2 ^ 32)), poison := false })

end Sys2Proof.Machine
end

