-- ==== Sys2Proof/Machine/SlotRun.lean ====
section
/-! DEFINITION. The issue stage runs a decoded slot operation. -/

namespace Sys2Proof.Machine

/-- A slot operation in the bundle being issued; nothing for what is no slot operation. -/
def slotOp (i : Instr) (s : State) : Out :=
  match i with
  | .nop slot => execNop slot s
  | .fmtset acc b a => execFmtset acc b a s
  | .qcfgSlack slack eng => execQcfgSlack slack eng s
  | .qcfgPort rv slot bank => execQcfgPort rv slot bank s
  | .stepReg n sel slot => execStepReg n sel slot s
  | .waitw bytes ch => execWaitw bytes ch s
  | .sadv beats sb => execSadv beats sb s
  | .mwait c => execMwait c s
  | .ckpt => execCkpt s
  | .prog => execProg s
  | .sync => execSync s
  | .vld w => execVld w s
  | .vst w => execVst w s
  | .vldg w => execVldg w s
  | .vldgs w => execVldgs w s
  | .vstg w => execVstg w s
  | .vgth w => execVgth w s
  | .vgths w => execVgths w s
  | .vsct w => execVsct w s
  | .phase => execPhase s
  | .pftch w => execPftch w s
  | .fill w => execFill w s
  | .fills w => execFills w s
  | .feed w => execFeed w s
  | .feedt w => execFeedt w s
  | .drain w => execDrain w s
  | .addw w => execAddw w s
  | .rput w => execRput w s
  | .cresm w => execCresm w s
  | .cclr w => execCclr w s
  | .aadd w => execAadd w s
  | .amin w => execAmin w s
  | .amax w => execAmax w s
  | .aand w => execAand w s
  | .aor w => execAor w s
  | .axor w => execAxor w s
  | .aswp w => execAswp w s
  | .acas w => execAcas w s
  | .red w => execRed w s
  | .arv w => execArv w s
  | .arvd w => execArvd w s
  | .bwait w => execBwait w s
  | .btest w => execBtest w s
  | .sig w => execSig w s
  | .swait w => execSwait w s
  | .uli w => execUli w s
  | .sfence w => execSfence w s
  | .brst w => execBrst w s
  | .mma w => execMma w s
  | .mld w => execMld w s
  | .mldt w => execMldt w s
  | .mst w => execMst w s
  | .mstq w => execMstq w s
  | .mclr w => execMclr w s
  | .macc w => execMacc w s
  | .vadd p w => execVadd p w s
  | .vsub p w => execVsub p w s
  | .vmul p w => execVmul p w s
  | .vfma p w => execVfma p w s
  | .vfms p w => execVfms p w s
  | .vmin p w => execVmin p w s
  | .vmax p w => execVmax p w s
  | .vabs p w => execVabs p w s
  | .vneg p w => execVneg p w s
  | .vrcp p w => execVrcp p w s
  | .vrsq p w => execVrsq p w s
  | .vexp2 p w => execVexp2 p w s
  | .vdiv p w => execVdiv p w s
  | .vand p w => execVand p w s
  | .vor p w => execVor p w s
  | .vxor p w => execVxor p w s
  | .vnot p w => execVnot p w s
  | .vshl p w => execVshl p w s
  | .vshr p w => execVshr p w s
  | .vsra p w => execVsra p w s
  | .vshli p w => execVshli p w s
  | .vshri p w => execVshri p w s
  | .vmulh p w => execVmulh p w s
  | .vclz p w => execVclz p w s
  | .vwadd p w => execVwadd p w s
  | .vwacc p w => execVwacc p w s
  | .vwmul p w => execVwmul p w s
  | .vcmp p w => execVcmp p w s
  | .vsel p w => execVsel p w s
  | .qop p w => execQop p w s
  | .vcvt p w => execVcvt p w s
  | .vqnt p w => execVqnt p w s
  | .vdqnt p w => execVdqnt p w s
  | .vscan p w => execVscan p w s
  | .vred p w => execVred p w s
  | .vperm p w => execVperm p w s
  | .vbcst p w => execVbcst p w s
  | .vshfl p w => execVshfl p w s
  | .viota p w => execViota p w s
  | .vmov p w => execVmov p w s
  | .vmovi p w => execVmovi p w s
  | .vldi p w => execVldi p w s
  | .vchk p w => execVchk p w s
  | .vclrp p w => execVclrp p w s
  | .vstat p w => execVstat p w s
  | _ => .next s

/-- The state after a slot operation. -/
def State.runSlot (s : State) (i : Instr) : State :=
  match slotOp i s with
  | .next t => t
  | _ => s

end Sys2Proof.Machine
end

