-- ==== Sys2Proof/Machine/Issue.lean ====
section
/-! DEFINITION. The issue stage of a context: forming words, holds, bank conflicts, issue (R58-R64, R78-R80, R121, R123). -/

namespace Sys2Proof.Machine

/-! ### Forming words (R60, R63) -/

/-- Opcode of a slot word. -/
def opOf (slot : Nat) (w : Word) : Nat := if slot = 3 ∨ slot = 4 then w.toNat % 256 else w.toNat % 64

/-- Lowest bit and width of a stepped field, where it exists in the form of the word (table "Step selectors"). -/
def stepField (slot sel op : Nat) : Option (Nat × Nat) :=
  if slot = 1 then
    let buffer := op = 1 ∨ op = 2
    let glob := op = 3 ∨ op = 4 ∨ op = 5 ∨ op = 9 ∨ op = 10
    if sel = 0 then (if buffer then some (18, 6) else none)
    else if sel = 1 then (if buffer then some (24, 6) else none)
    else if sel = 2 then (if buffer then some (30, 2) else none)
    else if sel = 3 then (if glob then some (28, 32) else none)
    else if sel = 4 then (if op ≤ 10 then some (6, 10) else none)
    else none
  else if slot = 2 then (if sel = 0 then some (15, 6) else none)
  else if slot = 3 ∨ slot = 4 then
    if sel = 0 then some (8, 10)
    else if op = 0x38 then none
    else if sel ≤ 3 then some (8 + 10 * sel, 10)
    else none
  else if slot = 5 then
    if sel = 0 then some (6, 5) else if sel = 1 then some (21, 9) else if sel = 2 then some (30, 9)
    else if sel = 3 then some (40, 6) else none
  else none

/-- A field of `n` bits from bit `p` plus a number, modulo 2^n. -/
def addField (w : Word) (p n : Nat) (v : Int) : Word :=
  let f := w.toNat / 2 ^ p % 2 ^ n
  insertField w (BitVec.ofNat 64 (wrapTo n (f + v))) p n

def BackEnd.step (b : BackEnd) (slot sel : Nat) : Int := (SMap.getD b.steps (8 * slot + sel) 0).toInt
def BackEnd.stickyWord (b : BackEnd) (slot : Nat) : Word := SMap.getD b.sticky slot 0
def BackEnd.counted (b : BackEnd) (slot : Nat) : Nat := SMap.getD b.count slot 0

/-- Stepped(s) of R60. -/
def BackEnd.stepped (b : BackEnd) (slot : Nat) : Word :=
  let w := b.stickyWord slot
  let op := opOf slot w
  if op = 0 then w
  else (List.range 5).foldl (fun w sel => match stepField slot sel op with
    | some (p, n) => addField w p n (b.step slot sel * b.counted slot)
    | none => w) w

/-- One sticky slot of repetition j of a bundle: its word, Sticky and Count after it (R60). -/
def BackEnd.formSlot (b : BackEnd) (e : QEntry) (j slot : Nat) : BackEnd :=
  let set (w : Word) (n : Nat) : BackEnd := { b with sticky := SMap.put b.sticky slot w, count := SMap.put b.count slot n }
  match SMap.find e.words slot with
  | some w => if j = 1 then set w 0 else set (b.stickyWord slot) (b.counted slot + 1)
  | none =>
    if hdrClrstk e.header then set 0 0 else set (b.stickyWord slot) (b.counted slot + 1)

def BackEnd.form (b : BackEnd) (e : QEntry) (j : Nat) : BackEnd :=
  ([1, 2, 3, 4, 5] : List Nat).foldl (fun b s => b.formSlot e j s) b

/-- The words that repetition j issues: CTL and SYN with the first only (R60). -/
def BackEnd.issueWords (b : BackEnd) (e : QEntry) (j : Nat) : List (Nat × Word) :=
  let once (slot : Nat) : List (Nat × Word) := match SMap.find e.words slot with
    | some w => if j = 1 then [(slot, w)] else []
    | none => []
  once 0 ++ ([1, 2, 3, 4, 5] : List Nat).map (fun s => (s, b.stepped s)) ++ once 6

/-- The steps and slacks of a back end as a bundle meets them. -/
def BackEnd.seen (b : BackEnd) : Seen := { steps := b.steps, slackMtx := b.slackMtx, slackCpy := b.slackCpy, slackSyn := b.slackSyn }

/-- A bundle meets its own steps and slacks in every repetition, whatever its CTL operation has set for later ones (R71, R73). -/
def QEntry.meets (e : QEntry) (b : BackEnd) : Seen := e.seen.getD b.seen

/-! ### Descriptors (R122, R123) -/

def BackEnd.applyNest (b : BackEnd) (l : List NestWrite) : BackEnd :=
  { b with nests := l.foldl (fun m w => SMap.put m (32 * w.n + w.field) w.value) b.nests }

/-- A descriptor entry at the head is applied: it takes no context cycle; while bundles before it have not committed it is
kept with them, for R24. -/
def Context.issueDesc (c : Context) (e : QEntry) : Context :=
  let be := c.be.applyNest e.nest
  match c.fl.issued.getLast? with
  | none => { c with be := be }
  | some l =>
    let i : Issued := { idx := c.fl.issueIdx, cc := l.cc, entry := e, undo := c.be.undo, acts := [], fault := none, marks := false, cRead := none }
    { c with be := be, fl := { c.fl with issued := c.fl.issued ++ [i], issueIdx := c.fl.issueIdx + 1 } }

/-- A marker issues (R275, R276): it replaces the pending one. -/
def Context.issueMarker (c : Context) (t : Thread) (waits bundle : Bool) : Context :=
  let m : Marker :=
    { idx := c.fl.issueIdx, thread := t, shadow := c.be, lines := [], own := [], items := [], spoiled := false, waits := waits,
      bundle := bundle }
  { c with chk := { c.chk with pendingMarker := some m } }

/-- Markers and descriptor entries ahead of the first bundle; markers issue only in a context cycle. -/
def Context.takeLeaders (markers : Bool) (c : Context) : List QItem → Context
  | [] => { c with queue := [] }
  | .marker t w b :: rest =>
    if markers then (c.issueMarker t w b).takeLeaders markers rest else { c with queue := .marker t w b :: rest }
  | .entry e :: rest =>
    if e.isDesc then (c.issueDesc e).takeLeaders markers rest else { c with queue := .entry e :: rest }

/-- The bundle at the head of the queue. -/
def Context.head (c : Context) : Option QEntry :=
  match c.queue with
  | .entry e :: _ => some e
  | _ => none

/-! ### Banks (R80) -/

def opReadsA (op : Nat) : Bool := !(decide (op = 0x22 ∨ op = 0x35 ∨ op = 0x37 ∨ op = 0x38 ∨ op = 0x3d ∨ op = 0x3e))
def opReadsB (op : Nat) : Bool :=
  decide (op ∈ [0x01, 0x02, 0x03, 0x04, 0x05, 0x06, 0x07, 0x0d, 0x10, 0x11, 0x12, 0x14, 0x15, 0x16, 0x19, 0x1c, 0x1d, 0x1e,
    0x20, 0x21, 0x30, 0x32, 0x34])
def opReadsC (op : Nat) : Bool := decide (op = 0x04 ∨ op = 0x05 ∨ op = 0x1d)

/-- Vector registers a slot word reads. -/
def wordReads (slot : Nat) (w : Word) : List Nat :=
  let op := opOf slot w
  let f (p : Nat) : Nat := w.toNat / 2 ^ p % 1024
  if op = 0 then []
  else if slot = 3 ∨ slot = 4 then
    (if opReadsA op && !w.getLsbD 51 && !(op = 0x3c && w.getLsbD 38) then [f 18] else []) ++
    (if opReadsB op && !w.getLsbD 52 then [f 28] else []) ++ (if opReadsC op then [f 38] else [])
  else if slot = 1 then
    (if op = 2 ∨ op = 5 ∨ op = 8 then [f 6] else []) ++ (if op = 6 ∨ op = 7 ∨ op = 8 then [f 16] else [])
  else if slot = 6 then (if synReadsVs op then [f 16] else [])
  else []

def distinct : List Nat → List Nat
  | [] => []
  | x :: rest => if rest.contains x then distinct rest else x :: distinct rest

def excess (l : List Nat) : Nat :=
  (List.range 6).foldl (fun acc b => acc + ((l.filter (fun r => decide (r % 6 = b))).length - 1)) 0

/-- The hold H of a repetition that would issue the words at context cycle `cc`. DESIGN CHOICE (log entry 60): VCLRP's clearing of a
tag counts as no result written to its bank. -/
def bankHold (c : Context) (cc : Nat) (words : List (Nat × Word)) : Nat :=
  let reads := distinct (words.flatMap (fun w => wordReads w.1 w.2))
  let writes := c.fl.journal.filterMap (fun w => match w.target with
    | .vreg r _ _ => if w.due = cc then some r else none
    | _ => none)
  excess reads + excess writes

/-! ### Weights (R26) -/

def vectorWeight (w : Word) : Nat :=
  let op := w.toNat % 256
  if op = 0 then 0
  else if op ∈ [0x0a, 0x0b, 0x0c, 0x0d, 0x29, 0x30, 0x31, 0x32] then 6 else 4

def wordWeight (slot : Nat) (w : Word) : Nat :=
  if slot = 3 ∨ slot = 4 then vectorWeight w
  else if slot = 1 ∧ opOf 1 w ≠ 0 then 3
  else 0

/-! ### One attempt (R78) -/

/-- What a context does with a core cycle. -/
inductive Attempt where
  /-- it has nothing to do in it -/
  | idle
  /-- a wait hold with its cause: the cycle is not the context's (R21) -/
  | held (cause : Nat) (twait : Bool)
  /-- it spends the cycle: the state after it, and the weight of what advances -/
  | cycle (s : State) (weight : Nat)

def Context.countHold (c : Context) (cause : Nat) : Context :=
  { c with holdcnt := SMap.put c.holdcnt cause (min (SMap.getD c.holdcnt cause 0 + 1) (2 ^ 48 - 1)) }

/-- No wait hold is asserted. -/
def Context.unheld (c : Context) : Context := { c with hold := { c.hold with wait := none, twait := false } }

/-- A context cycle passes. -/
def Context.tick (c : Context) : Context := { c.unheld with ctxcyc := c.ctxcyc + 1 }

/-- An implicit empty bundle (R18, R61): markers at the head issue. -/
def emptyBundle (s : State) (k : Nat) (c : Context) : Attempt :=
  .cycle (s.setCtx k (c.takeLeaders true c.queue).tick) 0

def slotOfIndex (i : Nat) : Slot :=
  match i with
  | 0 => .ctl
  | 1 => .mem
  | 2 => .cpy
  | 3 => .vx
  | 4 => .vy
  | 5 => .mtx
  | _ => .syn

/-- Decodes a slot word and runs it; a word that breaks its encoding is an ILLSLOT (R65). -/
def State.issueWord (s : State) (w : Nat × Word) : State :=
  match decodeSlot (slotOfIndex w.1) w.2 with
  | .error e => s.slotFault { slot := w.1, cause := bILLSLOT, sub := e.code, addr := 0 }
  | .ok i => s.runSlot i

/-- Tentative issue of repetition j of the head bundle: the state with its effects, and the words of the slots that a replay does
not leave out (R135). -/
def tryBundle (s : State) (k : Nat) (c : Context) (e : QEntry) : State × List (Nat × Word) :=
  let j := e.reps + 1
  let x := e.meets c.be
  let b := { (if j = 1 then c.be.applyNest e.nest else c.be).form e j with steps := x.steps }
  let words := (b.issueWords e j).filter (fun w => !e.skip.getLsbD w.1)
  let env : SlotEnv :=
    { ctx := k, idx := c.fl.issueIdx, cc := c.ctxcyc, scope := if hdrScopePresent e.header then hdrScope e.header else 0,
      rep := j, pc := e.pc, seq := e.seq, acts := [], fault := none, now := none, marks := false, cRead := none, holds := [],
      slackMtx := x.slackMtx, slackCpy := x.slackCpy, slackSyn := x.slackSyn
      nestAdd := BitVec.ofInt 64 (b.step 2 1 * b.counted 2) }
  let s0 := { s.setCtx k { c with be := { b with steps := c.be.steps } } with slotEnv := some env }
  (words.foldl State.issueWord s0, words)

/-- A masked token is busy (R143). -/
def Context.tokenWait (c : Context) (e : QEntry) : Bool :=
  decide (e.reps = 0) && (List.range 8).any (fun k => (hdrWait e.header).getLsbD k && decide (0 < SMap.getD c.be.tokens k 0))

def replaceHead (e : QEntry) : List QItem → List QItem
  | .entry _ :: rest => .entry e :: rest
  | q => q

/-- The issue of a repetition (R78 step 4): `c` is the context before it, `t` the state its slots made. -/
def finishIssue (t : State) (k : Nat) (c : Context) (e : QEntry) (env : SlotEnv) (split : Option Nat) : State :=
  let j := e.reps + 1
  let marks := e.marks || env.marks
  let i : Issued :=
    { idx := env.idx, cc := env.cc, entry := e, undo := c.be.undo, acts := env.acts, fault := env.fault, marks := env.marks, cRead := env.cRead }
  let q :=
    if j = hdrRepeat e.header then
      (if marks then [QItem.marker e.after false true] else []) ++ dropEntry c.queue
    else replaceHead { e with reps := j, marks := marks, skip := 0, seen := some (e.meets c.be) } c.queue
  let t' := t.updCtx k fun x =>
    { ({ x with be := c.be } : Context).setBe env.idx x.be with
             queue := q
             thread := x.thread.noteIssue env.idx e.seq
             fl := { x.fl with issued := x.fl.issued ++ [i], issueIdx := x.fl.issueIdx + 1 }
             ctxcyc := x.ctxcyc + 1
             hold := { bank := 0, bankDone := false, split := split, wait := none, twait := false } }
  { t' with slotEnv := none }

/-- The lowest-numbered cause asserted. -/
def lowestCause (l : List Nat) : Nat := l.foldl min 9

/-- The core's vector slots share one pipe (R30). -/
def Core.onePipe (r : Core) : Bool := r.slotmap.getLsbD 0 == r.slotmap.getLsbD 1

/-- The head bundle's attempt (R78): decode, wait holds, bank holds, issue, split. -/
def headAttempt (s : State) (k : Nat) (c c1 : Context) (e : QEntry) : Attempt :=
  let (t, words) := tryBundle s k c1 e
  match t.slotEnv with
  | none => .idle
  | some env =>
    let fault (f : BFault) : Attempt := .cycle (s.setCtx k (c.bundleFault e f)) 0
    let illegal := match env.now with
      | some f => if f.cause = bILLSLOT then some f else none
      | none => none
    let holds := (if c1.tokenWait e then [hTWAIT] else []) ++ env.holds
    let h := bankHold c1 c1.ctxcyc words
    let bank (n : Nat) : Attempt :=
      .cycle (s.setCtx k (({ c.unheld with hold := { c.unheld.hold with bank := n, bankDone := true } } : Context).countHold hBANK)) 0
    let weight (slot : Nat) : Nat := (words.filter (fun w => decide (w.1 = slot))).foldl (fun a w => a + wordWeight w.1 w.2) 0
    let issue : Attempt :=
      match env.now with
      | some f => fault f
      | none =>
        let sp := (s.core c.coreKey).onePipe && decide (0 < weight 3 ∧ 0 < weight 4)
        .cycle (finishIssue t k c1 e env (if sp then some (weight 4) else none))
          (weight 1 + weight 3 + (if sp then 0 else weight 4))
    if c.hold.bankDone then (if c.hold.bank = 0 then issue else bank (c.hold.bank - 1))
    else match illegal with
      | some f => fault f
      | none =>
        if !holds.isEmpty then (if c.fl.issued.isEmpty then .held (lowestCause holds) (holds.contains hTWAIT) else emptyBundle s k c)
        else if h = 0 then issue
        else bank (h - 1)

/-- What a context does with a core cycle it is given (R18, R25, R78, R79, R229, R242, R274, R280). DESIGN CHOICE (log entry 60):
while it holds on a wait it has sent (R242), its next bundle is not decoded. DESIGN CHOICE (log entry 67): the later repetitions of a
repeated bundle are such a next bundle. -/
def attempt (s : State) (k : Nat) : Attempt :=
  match s.ctx k with
  | none => .idle
  | some c0 =>
    let c := c0.takeLeaders false c0.queue
    match c.hold.split with
    | some w => .cycle (s.setCtx k (({ c with hold := { c.hold with split := none } } : Context).countHold hSPLIT)) w
    | none =>
      if c.fl.landings.any (fun l => decide (l.due ≤ c.ctxcyc)) then .held hLATE false
      else if c.stopped then
        (if c.sch.preempt == some .drain && !c.fl.issued.isEmpty then emptyBundle s k c else .idle)
      else if c.land.replaying || !c.sch.toRefetch.isEmpty || c.fl.copyOps.any (fun o => decide (o.idx = 0)) then .idle
      else if c.fl.syncHold.isSome then (if c.fl.issued.isEmpty then .held hSYNC false else emptyBundle s k c)
      else
        let c1 := c.takeLeaders true c.queue
        match c1.head with
        | none => emptyBundle s k c
        | some e => headAttempt s k c c1 e

end Sys2Proof.Machine
end

