-- ==== Sys2Proof/Machine/Matrix.lean ====
section
/-! DEFINITION. The matrix engine: begin, groups of an MMA, rows of the other operations, completion (R182-R200). -/

namespace Sys2Proof.Machine

/-! ### Operands (R152, R168, R174-R176) -/

/-- The 64 elements of a beat in a floating or block format. -/
def beatFloats (fmt : Nat) (d : Nat) : List FVal :=
  if fmt = 0 then (List.range 64).map (fun i => fmtF32.decode (d / 2 ^ (32 * i) % 2 ^ 32))
  else if fmt = 1 then (List.range 64).map (fun i => fmtBF16.decode (d / 2 ^ (16 * i) % 2 ^ 16))
  else if fmt = 2 then (List.range 64).map (fun i => fmtF16.decode (d / 2 ^ (16 * i) % 2 ^ 16))
  else if fmt = 3 then (List.range 64).map (fun i => fmtE4M3.decode (d / 2 ^ (8 * i) % 2 ^ 8))
  else if fmt = 4 then (List.range 64).map (fun i => fmtE5M2.decode (d / 2 ^ (8 * i) % 2 ^ 8))
  else
    let m := blockM fmt
    let w := 16 + 16 * (m + 1)
    (List.range 4).flatMap (fun b => blockDecode m (d / 2 ^ (w * b) % 2 ^ w))

/-- The 64 elements of a beat in INT8 or INT4. -/
def beatInts (fmt : Nat) (d : Nat) : List Int :=
  let w := if fmt = 5 then 8 else 4
  (List.range 64).map (fun i => intOf true w (d / 2 ^ (w * i)))

/-- Beat number x of a stream. -/
def Stream.beat (st : Stream) (x : BitVec 32) : Beat := SMap.getD st.slots (x.toNat % 512) { data := 0, tag := 0, poison := false }

/-- The exact sum of a group of products, or its special value (R182, R183). -/
def groupSum : List (FVal × FVal) → FVal
  | [] => .fin false 0 0
  | [p] => (fmul p.1 p.2).1
  | p :: rest => (fadd 0 (fmul p.1 p.2).1 (groupSum rest)).1

def groupSumInt (l : List (Int × Int)) : Int := l.foldl (fun a p => a + p.1 * p.2) 0

/-- Column pairs: element m of each A beat with element n of each B beat. -/
def pairUp {α : Type} (d : α) (as bs : List (List α)) (m n : Nat) : List (α × α) :=
  (as.zip bs).map (fun p => (p.1.getD m d, p.2.getD n d))

/-- One output after a group, and whether it saturated. -/
def accFloat (acc : BitVec 32) (l : List (FVal × FVal)) : BitVec 32 :=
  BitVec.ofNat 32 (fmtF32.encode (fadd 0 (fmtF32.decode acc.toNat) (groupSum l)).1 0 false).1

def accInt (acc : BitVec 32) (l : List (Int × Int)) : BitVec 32 × Bool :=
  let (x, c) := clampTo true 32 (acc.toInt + groupSumInt l)
  (BitVec.ofInt 32 x, c)

/-- The plane after a group. -/
def accumulate (fa fb : Nat) (as bs : List Beat) (plane : List (BitVec 32)) : List (BitVec 32) × Bool :=
  if fmtClass (BitVec.ofNat 4 fa) = 4 then
    let a := as.map (fun b => beatInts fa b.data.toNat)
    let b := bs.map (fun b => beatInts fb b.data.toNat)
    let r := (plane.zip (List.range 4096)).map (fun x => accInt x.1 (pairUp 0 a b (x.2 / 64) (x.2 % 64)))
    (r.map (·.1), r.any (·.2))
  else
    let a := as.map (fun b => beatFloats fa b.data.toNat)
    let b := bs.map (fun b => beatFloats fb b.data.toNat)
    ((plane.zip (List.range 4096)).map (fun x => accFloat x.1 (pairUp .nan a b (x.2 / 64) (x.2 % 64))), false)

/-! ### Begin (R184-R186, R353) -/

def Context.setMtx (c : Context) (o : MtxOp) : Context :=
  { c with fl := { c.fl with mtxOps := c.fl.mtxOps.map (fun x => if x.id = o.id then o else x) } }

/-- The operations of the core that have begun. -/
def State.begunOps (s : State) (core : Nat) : List MtxOp :=
  (s.contexts.filter (fun p => decide (p.2.coreKey = core))).flatMap (fun p => p.2.fl.mtxOps.filter (fun o => o.state == .begun))

/-- The head of a context's queue, if it may begin (R185). A commit lies in the past, so a core cycle later than the
commit's is one that differs from it. -/
def State.mayBegin (s : State) (c : Context) : Option MtxOp :=
  let begun := s.begunOps c.coreKey
  match c.fl.mtxOps.find? (fun o => o.state == .queued) with
  | none => none
  | some o =>
    let free := if o.op = 1 then decide ((begun.filter (fun x => x.op == 1)).length < 2) else !begun.any (fun x => x.op != 1)
    let tilesFree := !(c.fl.mtxOps.any (fun x => decide (x.id < o.id) && x.tiles.any (fun t => o.tiles.contains t))) &&
      !(c.fl.copyOps.any (fun x => decide (x.op = 6) && o.tiles.contains x.w.tile.toNat))
    if o.committed && o.commitCycle != (s.core c.coreKey).cycle && free && tilesFree && (c.firmware || c.status == .resident) then some o else none

/-- The plane loaded from a C tile, and which lines came poisoned (R193). -/
def loadPlane (s : State) (c : Context) (tile : Nat) : List (BitVec 32) × SMap Bool :=
  let ls := (List.range 256).map (fun i => s.readLine c 2 tile i)
  (ls.flatMap (fun l => (List.range 16).map (fun j => BitVec.ofNat 32 (lane l.data 32 j))),
   (ls.zip (List.range 256)).filterMap (fun x => if x.1.poison then some (x.2, true) else none))

/-- The rows of a plane are loaded in later core cycles; nothing can change the tile meanwhile (R154, R189, R190), so its data are
taken here (DEDUCED, log entry 29). -/
def MtxOp.start (s : State) (c : Context) (o : MtxOp) : MtxOp :=
  let o1 := { o with state := .begun, begunAt := (s.core c.coreKey).cycle }
  if o.op = 1 then
    (if o.w.zero = 1 then { o1 with plane := List.replicate 4096 0 }
     else
       let (p, l) := loadPlane s c o.w.c.toNat
       { o1 with plane := p, loadPoison := l })
  else o1

/-- MATRIX_OP_BEGIN (R185): round robin by resident slot, the firmware context after slot 3. -/
def execMatrixOpBegin (core : Nat) (s : State) : Out :=
  let r := s.core core
  let order := (List.range 5).map (fun j => (r.mtxLast + 1 + j) % 5)
  let cand (i : Nat) : Option (Nat × Nat × Context × MtxOp) :=
    match (if i < 4 then SMap.find r.slots i else some (firmwareKey core)) with
    | none => none
    | some k => match s.ctx k with
      | none => none
      | some c => match s.mayBegin c with
        | none => none
        | some o => some (i, k, c, o)
  match order.findSome? cand with
  | none => .next s
  | some (i, k, c, o) =>
    .next (if r.frozen || r.retired then s
      else (s.setCtx k (c.setMtx (o.start s c))).updCore core (fun r => { r with mtxLast := i }))

/-! ### The array (R193, R194) -/

/-- A step of a matrix operation: the k-th incomplete one of a context that is RESIDENT, in no freeze cycle. -/
def atMatrix (s : State) (k n : Nat) (f : Context → MtxOp → State) : Out :=
  match s.ctx k with
  | none => .next s
  | some c => match c.fl.mtxOps[n]? with
    | none => .next s
    | some o =>
      let r := s.core c.coreKey
      .next (if o.state != .begun || r.frozen || r.retired || !(c.status == .resident) then s else f c o)

/-- The beats of an MMA's next group, from the first on, below the second number (R182). -/
def MtxOp.groupBeats (o : MtxOp) : Nat × Nat :=
  let g := kpcBeats o.fmt.a.toNat o.fmt.b.toNat
  (o.groups * g, min o.w.k.toNat (o.groups * g + g))

/-- The beats of the next group have landed (R193). -/
def Context.groupLanded (c : Context) (o : MtxOp) : Bool :=
  let landed (st : Stream) (base : BitVec 32) (off : Nat) : Bool := decide (off + o.groupBeats.2 ≤ (st.produced - base).toNat)
  landed c.be.sa o.baseA o.w.offa.toNat && landed c.be.sb o.baseB o.w.offb.toNat

/-- Array cycles of a group: four of a binary32 pair (R194). -/
def MtxOp.groupCycles (o : MtxOp) : Nat := if o.fmt.a = 0 ∨ o.fmt.b = 0 then 4 else 1

/-- MMA_GROUP (R182, R193, R194): one group of beats of the MMA in the array, its array cycles performed. -/
def execMmaGroup (k n : Nat) (s : State) : Out :=
  atMatrix s k n fun c o =>
    let fa := o.fmt.a.toNat
    let fb := o.fmt.b.toNat
    let (lo, hi) := o.groupBeats
    if !o.reading || !o.inArray || !c.groupLanded o || decide ((s.core c.coreKey).arrayCycles < o.groupCycles) then s
    else
      let js := (List.range (hi - lo)).map (lo + ·)
      let as := js.map (fun j => c.be.sa.beat (o.baseA + BitVec.ofNat 32 (o.w.offa.toNat + j)))
      let bs := js.map (fun j => c.be.sb.beat (o.baseB + BitVec.ofNat 32 (o.w.offb.toNat + j)))
      let mis := as.any (fun b => b.tag != o.fmt.a) || bs.any (fun b => b.tag != o.fmt.b)
      let psn := as.any (·.poison) || bs.any (·.poison)
      let (p, sat) := accumulate fa fb as bs o.plane
      let more := decide (o.groups + 1 < o.groupCount)
      (s.updCore c.coreKey (fun r => { r with arrayCycles := 0 })).setCtx k (c.setMtx { o with
        groups := o.groups + 1, inArray := more, plane := p, mis := o.mis || mis, bad := o.bad || mis || psn
        flags := o.flags ||| (if sat then flSATF else 0) })

/-! ### Rows (R194-R200) -/

/-- A row of a C tile: 64 elements, with the poison of each one's line. -/
def cRow (s : State) (c : Context) (tile row : Nat) : List (Nat × Bool) :=
  (List.range 4).flatMap (fun i =>
    let l := s.readLine c 2 tile (4 * row + i)
    (lanes l.data 32).map (fun x => (x, l.poison)))

/-- Writes a row of a C tile from 64 elements with poison. -/
def State.writeCRow (s : State) (k idx tile row : Nat) (els : List (Nat × Bool)) : State :=
  (List.range 4).foldl (fun s i =>
    let l := (els.drop (16 * i)).take 16
    s.writeLine k idx 2 tile (4 * row + i) (fun _ => { data := ofLanes 32 (l.map (·.1)), poison := l.any (·.2) })) s

/-- Rows of an MMA's plane. -/
def planeRow (o : MtxOp) (row : Nat) : List (Nat × Bool) :=
  (((o.plane.drop (64 * row)).take 64).zip (List.range 64)).map (fun x =>
    (x.1.toNat, o.bad || SMap.getD o.loadPoison (4 * row + x.2 / 16) false))

/-- Row m of an MLD's or MLDT's C tile from the F tile (R195). -/
def mldRow (s : State) (c : Context) (o : MtxOp) (m : Nat) : List (Nat × Bool) :=
  let ty := o.w.typ.toNat
  let sz := laneBits ty / 8
  let h := 64 * o.w.half.toNat
  (List.range 64).map (fun n =>
    let (row, col) := if o.op = 2 then (m, h + n) else (n, h + m)
    let d := tileData s c 0 o.w.f.toNat (256 * row + sz * col) sz
    let x := leNat (d.map (·.1))
    ((convert ty (if isFloat ty then 0 else 3) x 0 false).1, d.any (·.2)))

/-- Bytes of a row's results with poison, and their flags (R196, R197). -/
def mstBytesOf (s : State) (c : Context) (o : MtxOp) (m : Nat) : List (Byte × Bool) × Flags :=
  let src := cRow s c o.w.c.toNat m
  let int := s.status c o.w.c.toNat % 2 = 1
  let ty := o.w.typ.toNat
  if o.op = 4 then
    let ys := src.map (fun x => (convert (if int then 3 else 0) ty x.1 o.w.rm.toNat (o.w.sat == 1), x.2))
    (ys.flatMap (fun y => (leBytes (laneBits ty / 8) y.1.1).map (fun b => (b, y.2))), orFlags (ys.map (·.1.2)))
  else
    let val (x : Nat) : FVal := fmtF32.decode (if int then (convert 3 0 x 0 false).1 else x)
    let bs := (List.range 4).map (fun b =>
      let els := (src.drop (16 * b)).take 16
      (blockEncode (blockM ty) (els.map (fun x => val x.1)), els.any (·.2)))
    (bs.flatMap (fun b => (leBytes (beatBytes ty / 4) b.1.1).map (fun y => (y, b.2))), orFlags (bs.map (·.1.2)))

/-- F tile byte where row m's results go (R196, R197). -/
def MtxOp.place (o : MtxOp) (m : Nat) : Nat :=
  if o.op = 5 then (64 * o.w.half.toNat + m) * beatBytes o.w.typ.toNat
  else if mstBytes o.w.typ.toNat = 4 then 256 * m
  else if mstBytes o.w.typ.toNat = 2 then 256 * m + 128 * o.w.half.toNat
  else 64 * (64 * o.w.half.toNat + m)

/-- Some byte that row m or the row before it writes into an F line comes from a poisoned C line. The bytes of no other row
lie in a line with row m's (R196, R197). -/
def mstPoisoned (s : State) (c : Context) (o : MtxOp) (m line : Nat) : Bool :=
  [m - 1, m].any fun r =>
    let d := (mstBytesOf s c o r).1
    (d.zip (List.range d.length)).any (fun x => x.1.2 && decide ((o.place r + x.2) / 64 = line))

/-- Writes bytes of an F tile. A line is poisoned exactly when one of the lines it is written from is, however much of it is
written (R196). -/
def State.writeMst (s : State) (k idx tile off : Nat) (b : List Byte) (poison : Nat → Bool) : State :=
  (List.range ((off + b.length - 1) / 64 - off / 64 + 1)).foldl (fun s i =>
    let line := off / 64 + i
    let (m, d) := rangeInLine off b line
    s.writeLine k idx 0 tile line (fun o => { data := mergeLine o.data d m, poison := poison line })) s

/-- Row m of a MACC: elements and whether one saturated (R200). -/
def maccRow (s : State) (c : Context) (o : MtxOp) (m : Nat) : List (Nat × Bool) × Bool :=
  let int := s.status c o.w.c.toNat % 2 == 1
  let r := ((cRow s c o.w.c.toNat m).zip (cRow s c o.w.cs.toNat m)).map (fun x =>
    let (v, sat) := addwSum int x.1.1 x.2.1
    (v, x.1.2 || x.2.2, sat))
  (r.map (fun x => (x.1, x.2.1)), r.any (·.2.2))

/-- One row of an operation: the state and the flags it raises. -/
def State.matrixRow (s : State) (k : Nat) (c : Context) (o : MtxOp) (m : Nat) : State × Flags :=
  let t := o.w.c.toNat
  if o.op = 1 then (s.writeCRow k o.idx t m (planeRow o m), 0)
  else if o.op = 2 ∨ o.op = 3 then (s.writeCRow k o.idx t m (mldRow s c o m), 0)
  else if o.op = 4 ∨ o.op = 5 then
    let (d, fl) := mstBytesOf s c o m
    (s.writeMst k o.idx o.w.f.toNat (o.place m) (d.map (·.1)) (mstPoisoned s c o m), fl)
  else if o.op = 6 then (s.writeCRow k o.idx t m (List.replicate 64 (0, false)), 0)
  else
    let (els, sat) := maccRow s c o m
    (s.writeCRow k o.idx t m els, if sat then flSATF else 0)

/-- The C tile's status after an operation (R191). -/
def MtxOp.newStatus (o : MtxOp) (old oldCs : Nat) : Nat :=
  let satf := if o.flags &&& flSATF != 0 then 2 else 0
  let mis := if o.mis then 4 else 0
  if o.op = 1 then o.fmt.acc.toNat + (if o.w.zero = 1 then satf + mis else (old % 8 / 2 * 2) ||| satf ||| mis)
  else if o.op = 2 ∨ o.op = 3 then (if isFloat o.w.typ.toNat then 0 else 1)
  else if o.op = 6 then o.fmt.acc.toNat
  else old ||| satf ||| (oldCs / 4 % 2 * 4)

/-- MATRIX_OP_COMPLETE's effects: status, flags, accesses beyond a window, ownership and busy bits (R191-R200). DESIGN CHOICE (log entry
71): the byte that OORADDR names for an F tile beyond the window, and that it is recorded now, in which order. -/
def State.matrixDone (s : State) (k : Nat) (c : Context) (o : MtxOp) : State :=
  let t := o.w.c.toNat
  let cs := s.status c o.w.cs.toNat
  let s1 := if o.writesF then s else s.setStatus k o.idx t (fun old => o.newStatus old cs)
  let s2 := s1.updCtx k fun c =>
    let c1 := c.applyBe o.idx (fun b => b.orVflags o.flags)
    { c1 with fl := { c1.fl with mtxOps := c1.fl.mtxOps.filter (fun x => x.id ≠ o.id) } }
  let s3 := if o.op = 2 ∨ o.op = 3 then s2.tileOor k o.idx 0 o.w.f.toNat 0 0 else s2
  let s4 := s3.tileOor k o.idx 2 t 0 0
  let s5 := if o.op = 7 then s4.tileOor k o.idx 2 o.w.cs.toNat 0 0 else s4
  if o.writesF then s5.tileOor k o.idx 0 o.w.f.toNat (o.place 0 / 256) (o.place 0 % 256) else s5

/-- MATRIX_OP_COMPLETE (R194): the operation's next row, due in this core cycle; with its last row the operation is complete. -/
def execMatrixOpComplete (k n : Nat) (s0 : State) : Out :=
  atMatrix s0 k n fun c o =>
    if o.reading || !(s0.core c.coreKey).rowsDue.contains (k, o.id) then s0
    else
      let s := s0.updCore c.coreKey (fun r => { r with rowsDue := r.rowsDue.filter (fun x => decide (x ≠ (k, o.id))) })
      let (s1, fl) := s.matrixRow k c o o.rows
      let o' := { o with rows := o.rows + 1, flags := o.flags ||| fl }
      if o'.rows < 64 then s1.updCtx k (fun c => c.setMtx o')
      else
        match (s1.updCtx k (fun c => c.setMtx o')).ctx k with
        | some c' => (s1.updCtx k (fun c => c.setMtx o')).matrixDone k c' o'
        | none => s1

/-! ### A core cycle of the engine (R26, R155, R188, R194) -/

/-- Physical bank of a C tile of a context; none beyond its window (R188). -/
def Context.cBank (c : Context) (tile : Nat) : Option Nat :=
  if winLimit c.id.winC ≤ tile then none else some ((winBase c.id.winC + tile) % 4)

/-- Units of an array cycle: the pair goes at the rate of its lower-rate format (R26). -/
def arrayWeight (fa fb : Nat) : Nat :=
  let f := if kpcBeats fa fa ≤ kpcBeats fb fb then fa else fb
  if f = 0 then 24 else if f ≤ 2 then 32 else if f = 6 ∨ f = 8 then 38 else if f = 9 then 40 else 36

/-- What the engine does in a core cycle: the ports of the banks that are taken, the operations that load a row, those that write
one, the banks written, whether the conversion path works. -/
structure MtxPlan where
  read : BitVec 4
  write : BitVec 4
  loads : List (Nat × Nat)
  rows : List (Nat × Nat)
  banks : BitVec 4
  conv : Bool
deriving DecidableEq, Repr

def bankBit (b : Option Nat) : BitVec 4 := match b with | some b => BitVec.ofNat 4 (2 ^ b) | none => 0

/-- One operation that has begun takes its port, if that is free: a load and the reads of MST and MSTQ the read port, every write
of a C tile the write port, but not where a reserved port slot is open (`skip`). DESIGN CHOICE (log entry 29): operations that
began earlier come first; MLD's and MLDT's source, which lies in no bank, takes no port. -/
def MtxPlan.step (skip : BitVec 4) (p : MtxPlan) (x : Nat × Context × MtxOp) : MtxPlan :=
  let (k, c, o) := x
  let b := bankBit (c.cBank o.w.c.toNat)
  let write (conv : Bool) : MtxPlan :=
    if b &&& (p.write ||| skip) = 0 then { p with write := p.write ||| b, banks := p.banks ||| b, rows := p.rows ++ [(k, o.id)], conv := p.conv || conv }
    else p
  if o.op = 1 then
    (if o.w.zero = 0 ∧ o.loaded < 64 then
      (if b &&& p.read = 0 then { p with read := p.read ||| b, loads := p.loads ++ [(k, o.id)] } else p)
    else if o.reading then p
    else write false)
  else if o.writesF then
    (if b &&& p.read = 0 then { p with read := p.read ||| b, rows := p.rows ++ [(k, o.id)], conv := true } else p)
  else write true

/-- In order of their begin. -/
def insertByBegin (x : Nat × Context × MtxOp) : List (Nat × Context × MtxOp) → List (Nat × Context × MtxOp)
  | [] => [x]
  | y :: rest => if x.2.2.begunAt.toNat < y.2.2.begunAt.toNat then x :: y :: rest else y :: insertByBegin x rest

/-- Operations of the core's RESIDENT contexts that have begun, the earliest first. -/
def State.mtxRunning (s : State) (core : Nat) : List (Nat × Context × MtxOp) :=
  ((s.contexts.filter (fun p => decide (p.2.coreKey = core) && p.2.status == .resident)).flatMap (fun p =>
    (p.2.fl.mtxOps.filter (fun o => o.state == .begun)).map (fun o => (p.1, p.2, o)))).foldl (fun l x => insertByBegin x l) []

/-- The MMA that has the array: the one in it, else the first that is loaded (R194). -/
def arrayOf (l : List (Nat × Context × MtxOp)) : Option (Nat × Context × MtxOp) :=
  match l.find? (fun x => x.2.2.inArray) with
  | some x => some x
  | none => l.find? (fun x => x.2.2.reading && (x.2.2.w.zero == 1 || decide (64 ≤ x.2.2.loaded)))

/-- Weight of the array in a core cycle: none in a cycle in which it stalls (R26, R193). -/
def arrayWork (l : List (Nat × Context × MtxOp)) : Nat :=
  match arrayOf l with
  | some (_, c, o) => if c.groupLanded o then arrayWeight o.fmt.a.toNat o.fmt.b.toNat else 0
  | none => 0

def Context.updMtx (c : Context) (id : Nat) (f : MtxOp → MtxOp) : Context :=
  { c with fl := { c.fl with mtxOps := c.fl.mtxOps.map (fun o => if o.id = id then f o else o) } }

/-- The engine's core cycle: rows loaded, the array given, its cycle counted; the rows due are noted. -/
def State.mtxCycle (s : State) (core : Nat) (l : List (Nat × Context × MtxOp)) (p : MtxPlan) : State :=
  let s1 := p.loads.foldl (fun s x => s.updCtx x.1 (fun c => c.updMtx x.2 (fun o => { o with loaded := o.loaded + 1 }))) s
  let s2 := s1.updCore core (fun r => { r with rowsDue := p.rows, bankWrites := p.banks })
  match arrayOf l with
  | none => s2
  | some (k, c, o) =>
    let now := if o.inArray then (s.core core).arrayCycles else 0
    (s2.updCtx k (fun c => c.updMtx o.id (fun o => { o with inArray := true }))).updCore core (fun r =>
      { r with arrayCycles := if c.groupLanded o then now + 1 else now })

/-- The steps of operations of a core: of an MMA whose group has had its array cycles, and of every row due. Later operations of a
context come first, so that a completion moves none that follows. -/
def State.mtxMoves (s : State) (core : Nat) : List Move :=
  let r := s.core core
  s.contexts.flatMap fun p =>
    if p.2.coreKey ≠ core then []
    else ((p.2.fl.mtxOps.zip (List.range p.2.fl.mtxOps.length)).reverse).flatMap fun x =>
      (if x.1.inArray && decide (x.1.groupCycles ≤ r.arrayCycles) then [.ev (.mmaGroup p.1 x.2)] else []) ++
      (if r.rowsDue.contains (p.1, x.1.id) then [.ev (.matrixOpComplete p.1 x.2)] else [])

end Sys2Proof.Machine
end

