-- ==== Sys2Proof/Machine/Cycle.lean ====
section
/-! DEFINITION. A core cycle: freeze, owner, flex grants (R16, R18, R20-R22, R26-R28, R263, R264). -/

namespace Sys2Proof.Machine

/-! ### The core's contexts -/

/-- Context in a resident slot. -/
def State.inSlot (s : State) (core slot : Nat) : Option Nat := SMap.find (s.core core).slots slot

/-- Contexts whose holds the core keeps: those in its slots and the firmware context. -/
def State.coreKeys (s : State) (core : Nat) : List Nat :=
  (s.core core).slots.map (·.2) ++ (if (s.ctx (firmwareKey core)).isSome then [firmwareKey core] else [])

def Context.isHeld (c : Context) : Bool := c.hold.wait.isSome
/-- It has something to issue, or an issued bundle that has not committed. -/
def Context.busyIssue (c : Context) : Bool := !c.queue.isEmpty || !c.fl.issued.isEmpty

/-- Asserts a wait hold; descriptor entries at the head of the queue are applied. -/
def State.assertHold (s : State) (k cause : Nat) (twait : Bool) : State :=
  s.updCtx k fun c =>
    let c1 := c.takeLeaders false c.queue
    { c1 with hold := { c1.hold with wait := some cause, twait := twait } }

/-- Tests a hold in force again: it stands with the cause it now has, or clears. -/
def State.retestHold (s : State) (k : Nat) : State :=
  match s.ctx k with
  | none => s
  | some c =>
    if !c.isHeld then s
    else match (if c.mayIssue then attempt s k else .idle) with
      | .held cause tw => s.assertHold k cause tw
      | _ => s.setCtx k c.unheld

/-! ### Owner of the cycle (R264) -/

/-- A guaranteed entry gives the cycle to its slot's context, an F entry to the firmware context if that has a bundle to issue or
to commit. -/
def State.entryOwner (s : State) (core : Nat) : Option Nat :=
  let r := s.core core
  let e := r.entry (r.cycle.toNat % 64)
  if e < 4 then
    (if r.bound e then
      match s.inSlot core e with
      | some k => match s.ctx k with
        | some c => if c.mayIssue && !c.isHeld then some k else none
        | none => none
      | none => none
    else none)
  else if e = 4 then
    match s.ctx (firmwareKey core) with
    | some c => if c.mayIssue && !c.isHeld && c.busyIssue then some (firmwareKey core) else none
    | none => none
  else none

/-- Flex candidates: slot, context, priority; slots in the order after the last flex winner. -/
def State.flexCandidates (s : State) (core : Nat) : List (Nat × Nat × Int) :=
  ((List.range 4).map (fun j => ((s.core core).flexLast + 1 + j) % 4)).filterMap fun slot =>
    match s.inSlot core slot with
    | none => none
    | some k => match s.ctx k with
      | none => none
      | some c => if c.mayIssue && !c.isHeld && c.busyIssue then some (slot, k, c.sch.prio) else none

/-- In order of falling priority, equals as they stand. -/
def insertByPrio (x : Nat × Nat × Int) : List (Nat × Nat × Int) → List (Nat × Nat × Int)
  | [] => [x]
  | y :: rest => if y.2.2 < x.2.2 then x :: y :: rest else y :: insertByPrio x rest

def sortByPrio (l : List (Nat × Nat × Int)) : List (Nat × Nat × Int) := l.foldl (fun acc x => insertByPrio x acc) []

/-- What a cycle comes to: the state, the weight of what issues, the context that spent it. -/
abbrev Spent := State × Nat × Option Nat

/-- The flex cycle goes to the first candidate that no wait hold stops, also where that has nothing to do in it (R264). -/
def flexGrant (core : Nat) (s : State) : List (Nat × Nat × Int) → Spent
  | [] => (s, 0, none)
  | (slot, k, _) :: rest =>
    let won (t : State) : State := match s.ctx k with
      | some c => (t.updCore core (fun r => { r with flexLast := slot })).updDie (dieOfCore core) (fun d => d.boostCycle c.id.tenant c.id.gang)
      | none => t
    match attempt s k with
    | .idle => (won s, 0, none)
    | .held cause tw => flexGrant core (s.assertHold k cause tw) rest
    | .cycle t w => (won t, w, some k)

/-- The issue stage in a cycle that is no freeze cycle (R18, R21, R264). -/
def issueStage (s : State) (core : Nat) : Spent :=
  let flex (s : State) : Spent := flexGrant core s (sortByPrio (s.flexCandidates core))
  match s.entryOwner core with
  | none => flex s
  | some k =>
    match attempt s k with
    | .idle => (s, 0, none)
    | .held cause tw => flex (s.assertHold k cause tw)
    | .cycle t w =>
      (if k = firmwareKey core then t.updCore core (fun r => { r with fwHistory := (true :: r.fwHistory).take 63 }) else t,
       w, some k)

/-! ### The engines in a core cycle (R26, R142, R155, R188) -/

/-- The context cycle that a core cycle is, if it is one: the context, and the number of its context cycles before it (R155). -/
def contextCycle (s t : State) (spent : Option Nat) : Option (Nat × Nat) :=
  spent.bind fun k => match s.ctx k, t.ctx k with
    | some c, some d => if c.ctxcyc < d.ctxcyc then some (k, c.ctxcyc) else none
    | _, _ => none

/-- C banks that the MEM accesses performed in a context cycle take: of the VLD that issues, and of the VST that commits (R188). -/
def State.memPorts (s t : State) (now : Option (Nat × Nat)) : BitVec 4 × BitVec 4 :=
  match now with
  | none => (0, 0)
  | some (k, _) => match s.ctx k, t.ctx k with
    | some c, some d =>
      let load := if c.fl.issueIdx < d.fl.issueIdx then d.fl.issued.getLast?.bind (·.cRead) else none
      let stores := match d.fl.issued with
        | i :: _ => if i.cc + 8 < d.ctxcyc ∧ i.fault = none then i.acts else []
        | [] => []
      (bankBit (load.bind d.cBank),
       stores.foldl (fun m a => match a with
         | .bufStore 2 tile _ _ _ => m ||| bankBit (d.cBank tile)
         | _ => m) 0)
    | _, _ => (0, 0)

/-- Banks with a port slot open in the core cycle for a RESIDENT context that has reserved it (R72, R155). -/
def State.openBanks (s : State) (now : Option (Nat × Nat)) : BitVec 4 :=
  match now with
  | none => 0
  | some (k, n) => match s.ctx k with
    | some c => if c.status == .resident then
        ([0, 1, 2, 3] : List Nat).foldl (fun m b => if c.be.ports.getLsbD (4 * b + n % 4) then m ||| BitVec.ofNat 4 (2 ^ b) else m) 0
      else 0
    | none => 0

/-- What the matrix engine does in the core cycle; the ports that MEM takes are not free (R188), the reserved ones are those after the
bundle issued in it (R68, R72). -/
def State.mtxPlan (s t : State) (core : Nat) (now : Option (Nat × Nat)) : MtxPlan :=
  let (rd, wr) := s.memPorts t now
  (s.mtxRunning core).foldl (MtxPlan.step (t.openBanks now)) { read := rd, write := wr, loads := [], rows := [], banks := 0, conv := false }

/-- Channels that move a line in a core cycle: of those with something to move, the ones that the memory lets (R142, R352). -/
def State.movers (s : State) (core : Nat) (env : CycleEnv) : List Nat :=
  (List.range 4).filter (fun ch => env.chans.getLsbD ch && s.chanMoves core ch)

/-- ADDW rows that are written in a context cycle: its channels' heads, their rows ready, their port slot open (R155). -/
def State.addwMoves (s : State) (now : Option (Nat × Nat)) : List Move :=
  match now with
  | none => []
  | some (k, n) => match s.ctx k with
    | none => []
    | some c => (List.range 4).filterMap (fun ch => match c.copyHead ch with
      | some o => if o.op = 6 ∧ o.state = .running ∧ o.put.contains o.done ∧ n % 4 = o.w.port.toNat then some (.ev (.addwRowWrite k ch o.done)) else none
      | none => none)

/-! ### The cycle -/

/-- A pending slot table takes effect at entry index 0 (R263). -/
def Core.takeTable (r : Core) : Core :=
  match r.slotTableNext with
  | some t => { r with slotTable := t, slotTableNext := none }
  | none => r

/-- The core at the start of its next cycle: CYCLE, PLIM, slot table (R28, R263). -/
def Core.advance (r : Core) : Core :=
  let r1 := { r with cycle := r.cycle + 1, frost := { r.frost with now := [], copy := none }
                     plim := (match r.plimNext with | some p => p | none => r.plim), plimNext := none }
  if r1.cycle.toNat % 64 = 0 then r1.takeTable else r1

def Core.endCycle (r : Core) (weight : Nat) (freeze gen : Bool) : Core :=
  { r with
    weights := (weight :: r.weights).take 63
    frozen := freeze, genUsed := !gen
    frzcnt := if freeze then BitVec.ofNat 48 (sat48 (r.frzcnt.toNat + 1)) else r.frzcnt
    beatLanded := 0, rowsDue := [], bankWrites := 0, ctxNow := none }

/-- Lines that channels have moved in the core cycle. -/
def Core.moveLines (r : Core) (chs : List Nat) : Core :=
  { r with chanLines := chs.foldl (fun m ch => SMap.put m ch (SMap.getD m ch 0 + 1)) r.chanLines }

/-- Counts every context of the core (R17, R269, R270, R275, R330). -/
def State.countCycle (s : State) (core : Nat) : State :=
  let r := s.core core
  { s with contexts := s.contexts.map (fun p =>
      if p.2.coreKey = core ∧ !p.2.management then (p.1, p.2.count r.cycle.toNat r.spinlim.toNat) else p) }

/-- HOLDCNT of every RESIDENT context whose hold line is asserted with a wait hold (R22). -/
def State.countHolds (s : State) (core : Nat) : State :=
  (s.coreKeys core).foldl (fun s k => s.updCtx k fun c =>
    match c.hold.wait with
    | some cause => if c.runs then c.countHold cause else c
    | none => c) s

/-- What falls due after a context cycle of context `k`. -/
def dueMoves (s : State) (k : Nat) : List Move :=
  match s.ctx k with
  | none => []
  | some c =>
    (match c.fl.issued with
      | i :: _ => if i.cc + 8 < c.ctxcyc then [.ev (.bundleCommit k)] else []
      | [] => []) ++
    (if c.fl.landings.any (fun l => decide (l.due ≤ c.ctxcyc) && l.arrived) then [.ev (.timedLanding k)] else []) ++
    (if c.fl.journal.any (fun w => decide (w.due < c.ctxcyc)) then [.ev (.vectorResultDue k)] else []) ++
    (if c.fl.pendingFmt.any (fun p => decide (p.due ≤ c.ctxcyc)) then [.ev (.fmtTakesEffect k)] else [])

/-- What the counters of a core cycle bring about. -/
def counterMoves (s : State) (core : Nat) : List Move :=
  let r := s.core core
  let d := s.die (dieOfCore core)
  let now := r.cycle.toNat
  (s.contexts.filter (fun p => decide (p.2.coreKey = core) && !p.2.management)).flatMap fun p =>
    let k := p.1
    let c := p.2
    let pdl := (d.part c.id.part).pdl.toNat % 2 ^ 48
    (if c.spinOver now then [.ev (.spinTimeout k)] else []) ++
    (if decide (r.spinlim.toNat < max c.sch.spinCount c.sch.genSpin) && !c.sch.spinning then [.ev (.spinLimitReached k)] else []) ++
    (match c.sch.wantingSince with
      | some w => if decide (0 < pdl ∧ pdl < now - w) && !c.sch.reslated then [.ev (.reslate k)] else []
      | none => []) ++
    (if decide (0 < d.coldage.toNat % 2 ^ 48 ∧ d.coldage.toNat % 2 ^ 48 < now - c.sch.coldSince) && !c.sch.coldReported &&
        c.status == .nonres then [.ev (.coldcand k)] else []) ++
    (if decide (r.wdwin.toNat ≠ 0 ∧ r.wdwin.toNat ≤ c.sch.wdCount) && !c.isFrozen then [.ev (.watchdogFire k)] else [])

/-- The logs of the core's RESIDENT contexts reach HBM with the core cycle (R276). -/
def State.writeLogs (s : State) (core : Nat) : State :=
  (s.core core).slots.foldl (fun s p => match s.ctx p.2 with | some c => s.writeLog p.2 c | none => s) s

/-- Whether the core cycle is a freeze cycle (R27): the weights of the 63 before it and of what would advance in it. -/
def Core.freezes (r : Core) (weight : Nat) : Bool :=
  let p := r.weights.foldl (· + ·) 0
  decide (0 < p ∧ r.plim.toNat % 2 ^ 20 < p + weight)

/-- CORE_CYCLE (R264): nothing on a retired core (R282). A freeze cycle where P + W would pass the limit (R27). What the cycle brings
follows at once: the generator's instruction first, so that a flag set in the cycle stays set where it clears it (R105); then what
falls due, the rows of the matrix engine and of ADDW, what the counters bring about. -/
def execCoreCycle (core : Nat) (env : CycleEnv) (s : State) : Out :=
  if (s.core core).retired || cobaltCores ≤ core then .next s
  else
    let s0 := (s.updCore core Core.advance).countCycle core
    let s1 := (s0.coreKeys core).foldl State.retestHold s0
    let (t, w, spent) := issueStage s1 core
    let now := contextCycle s1 t spent
    let plan := s1.mtxPlan t core now
    let running := s1.mtxRunning core
    let movers := s1.movers core env
    let gen := (nextThread s0 core env.miss).isSome
    let total := w + (if gen then 1 else 0) + arrayWork running + (if plan.conv then 10 else 0) + 2 * movers.length
    if (s0.core core).freezes total then
      let f := s0.updCore core (fun r => r.endCycle 0 true false)
      .next { f with agenda := counterMoves f core ++ s.agenda }
    else
      let u := (t.countHolds core).updCore core (fun r => { (r.endCycle total false gen).moveLines movers with ctxNow := now })
      let v := (u.mtxCycle core running plan).writeLogs core
      .next { v with agenda :=
        (if gen then [.gen core env.miss (Config.freeBool s0.freeCount (core + 2 ^ 20))] else []) ++
          (match spent with | some k => dueMoves v k | none => []) ++ v.mtxMoves core ++ v.addwMoves now ++
          counterMoves v core ++ s.agenda }

/-- SLOT_TABLE_UPDATE (R263): the write takes effect with the core cycle whose entry index is 0. -/
def execSlotTableUpdate (core : Nat) (s : State) : Out :=
  .next (if ((s.core core).cycle + 1).toNat % 64 = 0 then s.updCore core Core.takeTable else s)

/-- VECTOR_RESULT_DUE (R206, R23). -/
def execVectorResultDue (k : Nat) (s : State) : Out := .next (s.updCtx k Context.settleRegs)

/-- FMT_TAKES_EFFECT (R70, R23). -/
def execFmtTakesEffect (k : Nat) (s : State) : Out := .next (s.updCtx k Context.settleFmt)

/-- SPIN_LIMIT_REACHED (R269): a spin wait longer than SPINLIM. -/
def execSpinLimitReached (k : Nat) (s : State) : Out :=
  .next (s.updCtx k fun c =>
    if (s.core c.coreKey).spinlim.toNat < max c.sch.spinCount c.sch.genSpin then { c with sch := { c.sch with spinning := true } } else c)

end Sys2Proof.Machine
end

