-- ==== Sys2Proof/Machine/Inval.lean ====
section
/-! DEFINITION. The invalidation page of a die (R54, R55). -/

namespace Sys2Proof.Machine

/-- A store to INVCMD queues one command with the registers as they stand; a ninth is dropped and sets ERR (R55). -/
def Die.queueInv (d : Die) (kind part : Nat) : Die :=
  if 8 ≤ d.invQueue.length then { d with invErr := true }
  else
    { d with
      invQueue := d.invQueue ++ [{ kind := kind, part := part, addr := d.invaddr, span := d.invspan, root := d.invroot }]
      invErr := false }

/-- INVALIDATE_ALL (R55). -/
def execInvalidateAll (die : Nat) (s : State) : Out := .next (s.updDie die (fun d => d.queueInv 0 0))
/-- INVALIDATE_VA_RANGE (R55). -/
def execInvalidateVaRange (die : Nat) (s : State) : Out := .next (s.updDie die (fun d => d.queueInv 1 0))
/-- INVALIDATE_IPA_RANGE (R55). -/
def execInvalidateIpaRange (die : Nat) (part : BitVec 4) (s : State) : Out := .next (s.updDie die (fun d => d.queueInv 2 part.toNat))
/-- INVALIDATE_ROOT (R55). -/
def execInvalidateRoot (die : Nat) (s : State) : Out := .next (s.updDie die (fun d => d.queueInv 3 0))
/-- INVALIDATE_PARTITION (R55). -/
def execInvalidatePartition (die : Nat) (part : BitVec 4) (s : State) : Out := .next (s.updDie die (fun d => d.queueInv 4 part.toNat))

/-- A page of 2^size bytes meets the command's range; a span of 0 counts as 1. -/
def InvCmd.meets (c : InvCmd) (page size : Nat) : Bool :=
  let lo := c.addr.toNat % 2 ^ 57 / 65536 * 65536
  let n := c.span.toNat % 2 ^ 32
  decide (lo < (page + 1) * 2 ^ size ∧ page * 2 ^ size < lo + 65536 * (if n = 0 then 1 else n))

/-- The command removes the entry (table "Invalidation kinds"). -/
def InvCmd.removes (c : InvCmd) (e : TEntry) : Bool :=
  let root := decide (e.s1root = c.root.toNat % 2 ^ 52 / 4096 * 4096)
  match c.kind with
  | 0 => true
  | 1 => root && c.meets e.vpage e.size
  | 2 => decide (e.part = c.part) && c.meets e.ipage e.isize
  | 3 => root
  | _ => decide (e.part = c.part)

/-- INVALIDATION_COMPLETE (R55): the oldest queued command; neither the die's cache nor a core's TLB holds an entry it removes. -/
def execInvalidationComplete (die : Nat) (s : State) : Out :=
  .next (s.updDie die fun d =>
    match d.invQueue with
    | [] => d
    | c :: rest =>
      { d with
        invQueue := rest, tcache := d.tcache.filter (fun e => !c.removes e)
        tlbs := d.tlbs.map (fun x => (x.1, x.2.filter (fun e => !c.removes e)))
        invDone := d.invDone + 1 })

/-- INVSTAT. -/
def Die.invStat (d : Die) : Word :=
  BitVec.ofNat 64 ((if d.invQueue.isEmpty then 0 else 1) + (if d.invErr then 2 else 0) + d.invDone.toNat * 2 ^ 32)

end Sys2Proof.Machine
end

