-- ==== Sys2Proof/Machine/Aes.lean ====
section
/-! DEFINITION. AES-256-GCM, in which the dump engine encrypts a Rime dump (R333): the cipher of FIPS 197 with a 256-bit key and the mode
of NIST SP 800-38D with a 96-bit nonce and a 128-bit tag (PRESUMED, log entry 12: the spec names the function and not its text). -/

namespace Sys2Proof.Machine

/-! ### The field of 256 elements, the S-box -/

/-- A byte times x, modulo x^8 + x^4 + x^3 + x + 1. -/
def gfDouble (a : Nat) : Nat := if a < 128 then 2 * a else (2 * a) ^^^ 0x11B

/-- The product of two bytes, by the bits of the second from bit `n` - 1 down. -/
def gfMulBits (a b : Nat) : Nat → Nat
  | 0 => 0
  | n + 1 =>
    let hi := gfMulBits a (b / 2) n
    (gfDouble hi) ^^^ (if b % 2 = 1 then a else 0)
def gfMul (a b : Nat) : Nat := gfMulBits a b 8

/-- A byte to the power 2^n - 2. -/
def gfPow2 (a : Nat) : Nat → Nat
  | 0 => 1
  | 1 => 1
  | n + 1 => let r := gfMul (gfPow2 a n) a; gfMul r r
/-- The inverse, of 0 itself: the power 254. -/
def gfInv (a : Nat) : Nat := gfPow2 a 8

def rotByte (a n : Nat) : Nat := (a * 2 ^ n ||| a / 2 ^ (8 - n)) % 256
def sboxOf (a : Nat) : Nat :=
  let b := gfInv a
  b ^^^ rotByte b 1 ^^^ rotByte b 2 ^^^ rotByte b 3 ^^^ rotByte b 4 ^^^ 0x63

/-! ### The cipher -/

def xorList (a b : List Nat) : List Nat := List.zipWith (· ^^^ ·) a b

/-- Round keys: four words a round, 15 rounds; the list holds the words so far, the last first. -/
def keyWord (ws : List (List Nat)) (i : Nat) : List Nat :=
  let prev := ws.getD 0 []
  let old := ws.getD 7 []
  let t := if i % 8 = 0 then
      xorList ((prev.drop 1 ++ prev.take 1).map sboxOf) [(List.range (i / 8 - 1)).foldl (fun a _ => gfDouble a) 1, 0, 0, 0]
    else if i % 8 = 4 then prev.map sboxOf else prev
  xorList old t

def chunks4 : List Nat → List (List Nat)
  | a :: b :: c :: d :: rest => [a, b, c, d] :: chunks4 rest
  | _ => []

/-- The 60 words of the expanded key. -/
def expandKey (key : List Nat) : List (List Nat) :=
  ((List.range 52).foldl (fun ws i => keyWord ws (i + 8) :: ws) (chunks4 key).reverse).reverse

def shiftRows (s : List Nat) : List Nat := (List.range 16).map (fun i => s.getD ((i + 4 * (i % 4)) % 16) 0)

def mixColumn : List Nat → List Nat
  | [a, b, c, d] =>
    let t (w x y z : Nat) : Nat := gfDouble w ^^^ (gfDouble x ^^^ x) ^^^ y ^^^ z
    [t a b c d, t b c d a, t c d a b, t d a b c]
  | l => l

def aesRounds : List (List Nat) → List Nat → List Nat
  | [k], s => xorList (shiftRows (s.map sboxOf)) k
  | k :: rest, s => aesRounds rest (xorList ((chunks4 (shiftRows (s.map sboxOf))).flatMap mixColumn) k)
  | [], s => s

def chunks16 (ws : List (List Nat)) : List (List Nat) :=
  (List.range (ws.length / 4)).map (fun i => ((ws.drop (4 * i)).take 4).flatten)

/-- AES-256 of a block of 16 bytes under an expanded key. -/
def aesBlock (w : List (List Nat)) (b : List Nat) : List Nat :=
  match chunks16 w with
  | k :: rest => aesRounds rest (xorList b k)
  | [] => b

/-! ### The mode -/

/-- A block as a number whose first bit is the highest (SP 800-38D). -/
def beNat (b : List Nat) : Nat := b.foldl (fun a x => a * 256 + x) 0
def beBytes : Nat → Nat → List Nat
  | 0, _ => []
  | n + 1, v => beBytes n (v / 256) ++ [v % 256]

/-- The product of two blocks: the bits of the first from its highest. -/
def ghashMul (x y : Nat) : Nat :=
  ((List.range 128).foldl (fun (a : Nat × Nat) i =>
    (if x.testBit (127 - i) then a.1 ^^^ a.2 else a.1,
     if a.2 % 2 = 1 then a.2 / 2 ^^^ (0xE1 * 2 ^ 120) else a.2 / 2)) (0, y)).1

def pad16 (b : List Nat) : List Nat := b ++ List.replicate ((16 - b.length % 16) % 16) 0

/-- Blocks of 16 bytes, `n` of them at most. -/
def blocks16 : Nat → List Nat → List (List Nat)
  | 0, _ => []
  | n + 1, b => if b.isEmpty then [] else b.take 16 :: blocks16 n (b.drop 16)

def ghash (h : Nat) (b : List Nat) : Nat := (blocks16 b.length b).foldl (fun y x => ghashMul (y ^^^ beNat x) h) 0

/-- AES-256-GCM: key, nonce of 12 bytes, additional data, plain text; cipher text, then the tag. -/
def aesGcm (key : BitVec 256) (nonce aad plain : List Byte) : List Byte :=
  let bytes (l : List Byte) : List Nat := l.map (·.toNat)
  let w := expandKey (bytes (leBytes 32 key.toNat))
  let h := beNat (aesBlock w (List.replicate 16 0))
  let counter (i : Nat) : List Nat := bytes nonce ++ beBytes 4 i
  let bs := blocks16 plain.length (bytes plain)
  let cipher := ((bs.zip (List.range bs.length)).map (fun x => xorList x.1 (aesBlock w (counter (x.2 + 2))))).flatten
  let s := ghash h (pad16 (bytes aad) ++ pad16 cipher ++ beBytes 8 (8 * aad.length) ++ beBytes 8 (8 * plain.length))
  (cipher ++ xorList (beBytes 16 s) (aesBlock w (counter 1))).map (BitVec.ofNat 8)

end Sys2Proof.Machine
end

