-- ==== Sys2Proof/Machine/Dump.lean ====
section
/-! DEFINITION. The Rime dump: its sections and its header (R332, R333, R335, R347, R350). -/

namespace Sys2Proof.Machine

def u8 (n : Nat) : List Byte := leBytes 1 n
def u16 (n : Nat) : List Byte := leBytes 2 n
def u32 (n : Nat) : List Byte := leBytes 4 n
def u64 (n : Nat) : List Byte := leBytes 8 n
def pad (n : Nat) (b : List Byte) : List Byte := (b ++ List.replicate n 0).take n
def one (b : Bool) : Nat := if b then 1 else 0

/-! ### Sections (R350) -/

def NestWrite.bytes (w : NestWrite) : List Byte := u8 w.n ++ u8 w.field ++ u16 0 ++ u32 0 ++ u64 w.value.toNat

def LoopLevel.bytes (l : LoopLevel) : List Byte := u64 l.index.toNat ++ u64 l.count.toNat ++ u64 l.start.toNat ++ u64 l.stop.toNat

/-- Section 1. -/
def Thread.bytes (t : Thread) : List Byte :=
  u64 t.pc.toNat ++ (List.range 64).flatMap (fun i => u64 (if i = 0 then 0 else (SMap.getD t.regs i 0).toNat)) ++
  u64 t.rpoison.toNat ++ u32 t.depth ++ u32 0 ++ pad 192 (t.loops.flatMap LoopLevel.bytes) ++
  (List.range 7).flatMap (fun i => u64 (SMap.getD t.composer i 0).toNat) ++ u8 t.cpoison.toNat ++ u8 t.hreg.toNat ++ u16 0 ++
  u32 t.emitSeq.toNat ++ u32 t.pending.length ++ u32 0 ++ pad 512 (t.pending.flatMap NestWrite.bytes)

/-- CSRs with access RO, RW or W1C, in order. -/
def dumpCsrs : List Nat :=
  (List.range 0x100).filter (fun n => match csrAccess n with | .ro => true | .rw => true | .w1c => true | _ => false)

/-- Section 2. -/
def csrSection (s : State) (c : Context) : List Byte :=
  dumpCsrs.flatMap (fun n => u64 (csrValue s c n).toNat) ++ u64 (s.core c.coreKey).wdwin.toNat

/-- The bundle image padded to 64 bytes. -/
def QEntry.image (e : QEntry) : List Byte :=
  if e.isDesc then List.replicate 64 0
  else pad 64 (u32 e.header.toNat ++ (List.range 7).flatMap (fun i =>
    match SMap.find e.words i with | some w => u64 w.toNat | none => []))

def QEntry.bytes (e : QEntry) : List Byte :=
  u32 (88 + 16 * e.nest.length) ++ u8 (one e.isDesc) ++ u8 e.nest.length ++ u16 e.reps ++ u64 e.pc.toNat ++ u32 e.seq.toNat ++ u32 0 ++
  e.image ++ e.nest.flatMap NestWrite.bytes

/-- Section 3. -/
def queueSection (c : Context) : List Byte := u32 c.entries.length ++ u32 0 ++ c.entries.flatMap QEntry.bytes

/-- Section 4. -/
def replaySection (c : Context) : List Byte :=
  match c.fl.replay with
  | some r =>
    u32 1 ++ u8 (if r.paging then 0 else c.thread.bfperf.toNat) ++ u8 r.entry.reps ++ u16 0 ++ u64 r.entry.pc.toNat ++ u32 r.entry.seq.toNat ++ u32 0 ++ r.entry.image
  | none => List.replicate 88 0

/-- Section 5. -/
def vectorSection (c : Context) : List Byte :=
  let v := c.vview c.ctxcyc
  let bits := v.poison.toNat + v.qpoison.toNat * 2 ^ 1024 + v.lpoison.toNat * 2 ^ 1032
  (List.range 1024).flatMap (fun i => bytesOfLine (v.reg i).1) ++ (List.range 8).flatMap (fun i => u64 (v.pred i).1.toNat) ++
  (List.range 4).flatMap (fun i => bytesOfLine (v.latch i).1) ++ leBytes 136 bits

/-- A window line of a context: in the core's buffers while it is RESIDENT, else in its saved image. -/
def State.windowLine (s : State) (c : Context) (buf tile line : Nat) : BufLine :=
  if c.status == .resident then
    (s.core c.coreKey).line (bufKey buf (winBase (c.window (if buf = 3 then 2 else buf)) + tile) line)
  else match c.sch.savedLines.find? (fun e => decide (e.1 = buf ∧ e.2.1 = tile * 256 + line)) with
    | some e => e.2.2
    | none => { data := 0, poison := false }

/-- Section 6. -/
def windowSection (s : State) (c : Context) : List Byte :=
  let lim (b : Nat) : Nat := winLimit (c.window b)
  let ls := (List.range 3).flatMap (fun b => (List.range (lim b)).flatMap (fun t =>
    (List.range 256).map (fun l => s.windowLine c b t l)))
  u32 (lim 0) ++ u32 (lim 1) ++ u32 (lim 2) ++ u32 0 ++ ls.flatMap (fun l => bytesOfLine l.data) ++
  leBytes (ls.length / 8) (ls.foldr (fun l n => one l.poison + 2 * n) 0)

def Stream.bytes (x : Stream) : List Byte :=
  let b (i : Nat) : Beat := SMap.getD x.slots i { data := 0, tag := 0, poison := false }
  u32 x.produced.toNat ++ u32 x.consumer.toNat ++ (List.range 512).flatMap (fun i => leBytes 256 (b i).data.toNat) ++
  (List.range 512).flatMap (fun i => u8 ((b i).tag.toNat + 128 * one (b i).poison))

/-- Step fields of the slots MEM, CPY, VX, VY, MTX. -/
def dumpSteps : List Nat :=
  (List.range 5).map (8 + ·) ++ (List.range 2).map (16 + ·) ++ (List.range 4).map (24 + ·) ++ (List.range 4).map (32 + ·) ++
  (List.range 4).map (40 + ·)

/-- Section 7. -/
def backSection (s : State) (c : Context) : List Byte :=
  let b := c.be
  let f := c.fmtAt c.ctxcyc
  let pend := match c.fmtPending with
    | some p => u8 p.fmt.a.toNat ++ u8 p.fmt.b.toNat ++ u8 p.fmt.acc.toNat ++ u8 1 ++ u32 (p.due - c.ctxcyc)
    | none => u32 0 ++ u32 0
  b.sa.bytes ++ b.sb.bytes ++ u8 f.a.toNat ++ u8 f.b.toNat ++ u8 f.acc.toNat ++ u8 0 ++ pend ++ u32 0 ++
  (List.range 5).flatMap (fun i => u64 (SMap.getD b.sticky (i + 1) 0).toNat) ++
  (List.range 5).flatMap (fun i => u32 (SMap.getD b.count (i + 1) 0)) ++
  dumpSteps.flatMap (fun k => u32 ((SMap.getD b.steps k 0).signExtend 32).toNat) ++
  u8 b.slackMtx ++ u8 b.slackCpy ++ u8 b.slackSyn ++ u8 0 ++ u16 b.ports.toNat ++ u16 0 ++
  (List.range 32).flatMap (fun t => u8 (if t < winLimit c.id.winC then (s.windowLine c 3 t 0).data.toNat else 0))

/-- Section 8. -/
def copySection (c : Context) : List Byte :=
  (List.range 8).flatMap (fun k => u8 (SMap.getD c.be.tokens k 0)) ++ (List.range 4).flatMap (fun ch => (c.stat ch).bytes)

/-- Section 9: the 32 bytes are read at their home when the dump is written. -/
def syncSection (s : State) (c : Context) : List Byte :=
  c.ord.syncAddrs.flatMap (fun x =>
    u64 x.1.toNat ++ u32 x.2.1.toNat ++ u32 x.2.2.1.toNat ++ Memory.readBytes s.mem x.2.2.2 32)

/-- Section 10. -/
def phaseSection (c : Context) : List Byte :=
  u32 c.ord.entries.length ++ u32 0 ++ c.ord.entries.flatMap (fun e =>
    u64 (e.va.toNat / 64 * 64) ++ u64 e.mask.toNat ++ bytesOfLine e.data ++ u64 (one e.poison))

/-- Section 11. -/
def landingSection (s : State) (c : Context) : List Byte :=
  let n := min 16 (c.land.tail - c.land.head).toNat
  u32 c.fl.landings.length ++ u32 0 ++ c.fl.landings.flatMap (fun l =>
    u16 l.v ++ u8 l.kind ++ u8 (one l.poison) ++ u32 (l.due - c.ctxcyc) ++ u64 0 ++ bytesOfLine l.data) ++
  u32 n ++ u32 0 ++ (List.range n).flatMap (fun i => s.homeBytes c.pkg (ringEntryPa (s.landDesc c.id.ctxid.toNat) (c.land.head + BitVec.ofNat 32 i)) 320)

/-- Section 12: entries of the tenant's contexts in the copy of the ring (R335). -/
def frostSection (c : Context) (f : Freeze) : List Byte :=
  (f.frost.filter (fun e => decide (e.1 = c.id.tenant))).flatMap (fun e => leBytes 16 e.2.toNat)

def AsyncRec.bytes (r : AsyncRec) : List Byte :=
  u64 r.va.toNat ++ u64 r.operand.toNat ++ u32 r.seq.toNat ++ u8 r.op.toNat ++ u8 (r.ty.toNat + 16 * r.sub.toNat) ++ u8 r.cause ++ u8 0 ++
  u64 r.pc.toNat

/-- The sections in increasing ID, with the windows or without. -/
def dumpSections (s : State) (c : Context) (f : Freeze) (win : Bool) : List (Nat × List Byte) :=
  [(1, c.thread.bytes), (2, csrSection s c), (3, queueSection c), (4, replaySection c), (5, vectorSection c)] ++
  (if win then [(6, windowSection s c)] else []) ++
  [(7, backSection s c), (8, copySection c), (9, syncSection s c), (10, phaseSection c), (11, landingSection s c),
   (12, frostSection c f), (13, c.ord.asyncLog.flatMap AsyncRec.bytes)]

/-! ### Header and encryption (R332, R333) -/

def sectionTable : Nat → List (Nat × List Byte) → List Byte
  | _, [] => []
  | off, (id, b) :: rest => u32 id ++ u32 b.length ++ u64 off ++ sectionTable (off + b.length) rest

def headerLength (n : Nat) : Nat := 72 + 16 * n
def dumpLength (l : List (Nat × List Byte)) : Nat := l.foldl (fun a x => a + x.2.length) (headerLength l.length + 16)

def dumpNonce (serac : Nat) (seq : Word) : List Byte := u16 (pkgOfSerac serac) ++ u16 (serac % 2) ++ u64 seq.toNat

def dumpHeader (c : Context) (f : Freeze) (serac : Nat) (seq : Word) (l : List (Nat × List Byte)) : List Byte :=
  let win := l.any (fun x => decide (x.1 = 6))
  u32 0x454D4952 ++ u16 1 ++ u16 l.length ++ u32 (headerLength l.length) ++
  u32 (one f.fatal + 2 * one (f.cause.cls == 2 && f.cause.code == 2) + 4 * one win) ++ u16 c.id.tenant.toNat ++ u16 (c.id.part % 16) ++
  u32 c.id.ctxid.toNat ++ u32 (f.cause.code % 256 + f.cause.sub % 256 * 2 ^ 8 + f.cause.cls % 4 * 2 ^ 16) ++ u32 c.id.gang.toNat ++
  u64 f.cycle.toNat ++ u64 seq.toNat ++ u64 (dumpLength l) ++ dumpNonce serac seq ++ u32 0 ++ sectionTable (headerLength l.length) l

/-- The whole dump: header in the clear, sections encrypted, tag. -/
def dumpBytes (c : Context) (f : Freeze) (serac : Nat) (seq : Word) (key : BitVec 256) (l : List (Nat × List Byte)) : List Byte :=
  let h := dumpHeader c f serac seq l
  h ++ aesGcm key (dumpNonce serac seq) h (l.flatMap (·.2))

def DumpRegs.slots (d : DumpRegs) : Nat := d.dgeom.toNat / 2 ^ 32 % 2 ^ 16
def DumpRegs.slotSize (d : DumpRegs) : Nat := d.dgeom.toNat % 2 ^ 20 * 4096
def DumpRegs.hasSlot (d : DumpRegs) : Bool := decide ((d.tail - d.head).toNat < d.slots)

/-- The sections that fit a slot: without the windows where the dump fits only so (R332). -/
def fitting (s : State) (c : Context) (f : Freeze) (d : DumpRegs) : Option (List (Nat × List Byte)) :=
  let full := dumpSections s c f (d.dcfg.getLsbD 0)
  let bare := dumpSections s c f false
  if !d.hasSlot then none
  else if dumpLength full ≤ d.slotSize then some full
  else if dumpLength bare ≤ d.slotSize then some bare
  else none

/-- The dump engine writes the dump of a frozen context, or loses it: the state and the dump's sequence (R332). -/
def State.writeDump (s : State) (c : Context) (f : Freeze) : State × Option Word :=
  let k := seracOfDie c.die
  let r := s.serac k
  let d := SMap.getD r.dump c.id.part DumpRegs.reset
  match fitting s c f d with
  | none => (s, none)
  | some l =>
    let seq : Word := BitVec.ofNat 64 (r.bootCount.toNat * 2 ^ 32 + r.dumpSeq.toNat)
    let key := SMap.getD r.dumpKeys c.id.tenant.toNat 0
    let pa := d.dbase.toNat % 2 ^ 52 / 4096 * 4096 + d.tail.toNat % d.slots * d.slotSize
    ((s.updSerac k (fun r => { r with dumpSeq := r.dumpSeq + 1, dump := SMap.put r.dump c.id.part { d with tail := d.tail + 1 } })).homeWriteBytes
      (pkgOfSerac k) pa (dumpBytes c f k seq key l) false false, some seq)

end Sys2Proof.Machine
end

