-- ==== Sys2Proof/Machine/Fatal.lean ====
section
/-! DEFINITION. Freezing a context: fatal traps, the watchdog, the dump, DEAD contexts, thawing (R328-R336). -/

namespace Sys2Proof.Machine

/-- Copy suspensions of a context in the fault queue are closed as declined, without an event (R329 step 3): vector 15 is pending
(R325). -/
def State.dropCopyFaults (s : State) (k : Nat) (c : Context) : State :=
  let f := (s.die c.die).fault
  let keep (e : FaultEntry) : Bool := !decide (e.source = 2 ∧ e.who = k)
  if f.open_.all keep && f.waiting.all keep then s
  else
    (s.updDie c.die (fun d => { d with fault := { d.fault with open_ := d.fault.open_.filter keep, waiting := d.fault.waiting.filter keep } })).setUlipend
      k 15

/-- Work that the freeze lets finish is over: every committed matrix operation complete, every begun copy operation
complete or suspended. -/
def Context.workOver (c : Context) : Bool :=
  c.fl.mtxOps.isEmpty && c.fl.copyOps.all (fun o => !o.state.begun || o.state == .suspended)

/-- Steps 1 to 4 of R329: bundles that have not committed are cancelled, work finishes, waiters are withdrawn. -/
def State.settleFreeze (s : State) (k : Nat) (c : Context) (f : Freeze) : State :=
  let c1 := (c.cancelFrom c.committedBelow).performLoads s
  if !c1.workOver then s.setCtx k c1
  else
    let c2 := { c1 with sch := { c1.sch with freeze := some { f with settled := true }, preempt := none, yielding := false } }
    (((s.setCtx k c2).dropCopyFaults k c2).withdrawWaiters k)

/-- FATAL_TRAP (R329): steps 1 to 4. -/
def execFatalTrap (k : Nat) (s : State) : Out :=
  atCtx s k fun c =>
    match c.sch.freeze with
    | some f => if f.fatal && !f.settled then s.settleFreeze k c f else s
    | none => s

/-- Some other context of the Serac die was frozen earlier and has no dump yet: dumps are written in that order (R332). -/
def State.earlierDump (s : State) (serac : Nat) (f : Freeze) : Bool :=
  s.contexts.any (fun p => decide (seracOfDie p.2.die = serac) &&
    (match p.2.sch.freeze with | some g => g.dumped.isNone && decide (g.order < f.order) | none => false))

/-- RIME_DUMP (R332): step 5. -/
def execRimeDump (k : Nat) (s : State) : Out :=
  atCtx s k fun c =>
    match c.sch.freeze with
    | none => s
    | some f =>
      if !f.settled || f.dumped.isSome || s.earlierDump (seracOfDie c.die) f then s
      else
        let (s1, seq) := s.writeDump c f
        s1.updCtx k (fun c => { c with sch := { c.sch with freeze := some { f with dumped := some seq } } })

/-- CONTEXT_DEAD (R329): step 6. -/
def execContextDead (k : Nat) (s : State) : Out :=
  atCtx s k fun c =>
    match c.sch.freeze with
    | none => s
    | some f =>
      match f.dumped with
      | none => s
      | some seq =>
        if !f.fatal then s
        else
          ((s.setCtx k { c with sch := { c.sch with freeze := none, wdFrozen := false } }).endContext k .dead).dumpEvent k c f 1 seq

/-- The watchdog's count has reached WDWIN (R330, R331). -/
def State.watchdogDue (s : State) (c : Context) : Bool :=
  let w := (s.core c.coreKey).wdwin.toNat % 2 ^ 48
  decide (w ≠ 0 ∧ w ≤ c.sch.wdCount) && (c.status == .resident || c.status == .nonres) && !c.isFirmware && !c.isFrozen

/-- WATCHDOG_FIRE (R331): the freeze, its steps 1 to 4, and after the dump the mark and the event. -/
def execWatchdogFire (k : Nat) (s : State) : Out :=
  atCore s k fun c =>
    match c.sch.freeze with
    | none => if s.watchdogDue c then s.beginFreeze k { cls := 2, code := 2, sub := 0, tval := 0 } false else s
    | some f =>
      if f.fatal then s
      else match f.dumped with
        | some seq => (s.setCtx k { c with sch := { c.sch with freeze := none, wdFrozen := true } }).dumpEvent k c f 2 seq
        | none => if f.settled then s else s.settleFreeze k c f

/-- A THAW store (R336): bits [30:10] zero and bit 31 set; the context named is one the watchdog has frozen. -/
def State.thaw (s : State) (die : Nat) (v : Word) : State :=
  if !v.getLsbD 31 || v.extractLsb' 10 21 != 0 then s
  else s.updCtx (die * 1024 + (v.extractLsb' 0 10).toNat) fun c =>
    if c.sch.wdFrozen then { c with sch := { c.sch with wdFrozen := false, wdCount := 0 } } else c

/-- THAW (R331, R336). -/
def execThaw (die : Nat) (v : Word) (s : State) : Out := .next (s.thaw die v)

end Sys2Proof.Machine
end

