-- ==== Sys2Proof/Machine/Queue.lean ====
section
/-! DEFINITION. The command processor: hardware queue slots, packets, the copies it fetches (R284-R299). -/

namespace Sys2Proof.Machine

/-! ### Slots (R284, R285) -/

def State.queue (s : State) (die h : Nat) : Queue := SMap.getD (s.die die).queues h Queue.reset
def State.setQueue (s : State) (die h : Nat) (q : Queue) : State := s.updDie die (fun d => { d with queues := SMap.put d.queues h q })

def Queue.state (q : Queue) : Nat := (q.qctl.extractLsb' 0 3).toNat
def Queue.log2n (q : Queue) : Nat := (q.qctl.extractLsb' 16 5).toNat
def Queue.prio (q : Queue) : Nat := (q.qctl.extractLsb' 27 3).toNat
def Queue.part (q : Queue) : Nat := (q.qctl.extractLsb' 30 4).toNat
def Queue.qnum (q : Queue) : Nat := (q.qctl.extractLsb' 34 6).toNat
def qDISABLED : Nat := 0
def qRUNNING : Nat := 1
def qSTOPPED : Nat := 2
def qPARKED : Nat := 3
def Queue.running (q : Queue) : Bool := decide (q.state = qRUNNING)

/-- The queue with a STATE, CAUSE and SUB. -/
def Queue.put (q : Queue) (state cause sub : Nat) : Queue :=
  { q with qctl := (q.qctl &&& 0xFFFFFFFFFFFF0008) ||| BitVec.ofNat 64 (state % 8 + cause % 16 * 16 + sub % 256 * 256) }
def Queue.cause (q : Queue) : Nat := (q.qctl.extractLsb' 4 4).toNat
def Queue.sub (q : Queue) : Nat := (q.qctl.extractLsb' 8 8).toNat
/-- The queue with another STATE alone. -/
def Queue.putState (q : Queue) (state : Nat) : Queue := q.put state q.cause q.sub

/-- The stage-1 root and the partition of the queue's addresses (R288). -/
def Queue.ctx (q : Queue) (die : Nat) : Context := agentCtx die q.part q.qroot.toNat

/-! ### Positions (R293, R294) -/

def Pos.top (p : Pos) : Frame := p.frames.headD { isRing := true, base := 0, len := 1, off := 0, at_ := 0 }
def Frame.wordVa (f : Frame) (i : Nat) : Word :=
  f.base + BitVec.ofNat 64 (8 * (if f.isRing then (f.off + i) % f.len else f.off + i))
def Pos.va (p : Pos) : Word := p.top.wordVa 0
def Frame.advance (f : Frame) (n : Nat) : Frame := { f with off := if f.isRing then (f.off + n) % 2 ^ 32 else f.off + n }
def Pos.move (p : Pos) (n : Nat) : Pos := { p with frames := p.frames.modifyHead (Frame.advance · n) }
/-- The innermost LOOP, where the position is in its own buffer. -/
def Pos.loop (p : Pos) : Option PktLoop :=
  match p.loops with
  | l :: _ => if l.depth = p.frames.length then some l else none
  | [] => none
/-- One packet of the innermost LOOP's body is behind the position. -/
def Pos.count (p : Pos) : Pos :=
  if p.loop.isSome then { p with loops := p.loops.modifyHead (fun l => { l with left := l.left - 1 }) } else p
def Pos.next (p : Pos) (n : Nat) : Pos := (p.move n).count

/-- The position of the innermost LOOP packet itself (two words before its body). -/
def Pos.atLoop (p : Pos) : Pos :=
  match p.loops with
  | l :: ls => { frames := p.frames.modifyHead (fun f => { f with off := l.start - 2 }), loops := ls }
  | [] => p

/-- What ends at a position. -/
inductive Ending where
  | none
  | pass
  | loop
  | ib
  /-- the body of a LOOP ends past its buffer -/
  | past (va : Word)
deriving DecidableEq, Repr

def Pos.ending (p : Pos) : Ending :=
  match p.loop with
  | some l =>
    if l.left = 0 then (if 1 < l.passes then .pass else .loop)
    else if !p.top.isRing && decide (p.top.len ≤ p.top.off) then .past l.va else .none
  | none => if !p.top.isRing && decide (p.top.len ≤ p.top.off) && decide (1 < p.frames.length) then .ib else .none

/-- The position after one ending. -/
def Pos.leave (p : Pos) : Pos :=
  match p.ending with
  | .pass => match p.loops with
    | l :: ls =>
      { frames := p.frames.modifyHead (fun f => { f with off := l.start })
        loops := { l with left := l.body, passes := l.passes - 1 } :: ls }
    | [] => p
  | .loop => ({ p with loops := p.loops.tail } : Pos).count
  | .ib => ({ p with frames := p.frames.tail } : Pos).count
  | _ => p

/-- Levels a position can leave at once: six of them and one new pass. -/
def maxLeaves : Nat := 8

def Pos.settle (p : Pos) : Nat → Pos
  | 0 => p
  | n + 1 => match p.ending with
    | .none => p
    | .past _ => p
    | _ => p.leave.settle n

/-- Ring word of the oldest ring-level packet not yet complete (R284). -/
def Queue.rptr (q : Queue) : BitVec 32 :=
  BitVec.ofNat 32 (match q.graphs.findSome? (·.at_) with
    | some a => a
    | none =>
      match q.pos.loops.getLast?, q.pos.frames.reverse with
      | some l, _ :: f :: _ => if l.depth = 1 then l.at_ else f.at_
      | some l, _ => l.at_
      | none, _ :: f :: _ => f.at_
      | none, r => (r.headD q.pos.top).off)

/-! ### Stops (R297) -/

def qBADPKT : Nat := 1
def qNOTRES : Nat := 2
def qNOENG : Nat := 3
def qXLATE : Nat := 4
def qNESTING : Nat := 5
def qNOCTX : Nat := 6
def qBADPTR : Nat := 7
def qREMOTE : Nat := 8

/-- The queue stops at a packet and reports it; what is in progress beside it runs on. -/
def State.stopQueue (s : State) (die h : Nat) (cause sub : Nat) (va : Word) : State :=
  let q := s.queue die h
  (s.setQueue die h { q.put qSTOPPED cause sub with qfault := va }).post (.cobalt die) 4 h (BitVec.ofNat 64 cause) va

/-- The packet that had begun has not: it will begin again (R285, R298). -/
def Queue.unbegin (q : Queue) : Queue := { q with graphs := q.graphs.map (fun g => { g with begun := g.begun - 1 }) }

/-- A stop of a packet that has begun: on resumption it begins again (R285). -/
def State.stopBegun (s : State) (die h : Nat) (cause sub : Nat) (va : Word) : State :=
  (s.setQueue die h { (s.queue die h).unbegin with phase := .idle }).stopQueue die h cause sub va

/-- BADPTR: the write pointer lies further than the ring's size from the read pointer (R286). -/
def Queue.overrun (q : Queue) : Bool := decide (2 ^ q.log2n < (q.wptr - q.rptr).toNat)

/-- A packet completes (R284). -/
def Queue.finish (q : Queue) : Queue := { q with done := q.done + 1 }

/-- An ending may be taken: of an IB or a LOOP only once its OVERLAP INVOKEs have ended. -/
def Queue.mayLeave (q : Queue) : Ending → Bool
  | .pass => true
  | .loop => q.graphs.all (fun g => decide (g.loops < q.pos.loops.length))
  | .ib => q.graphs.all (fun g => decide (g.frames < q.pos.frames.length))
  | _ => false

/-- The queue leaves finished passes, LOOPs and IB buffers; a skip that reaches the end of one ends there (R293-R295). -/
def Queue.settle (q : Queue) : Nat → Queue
  | 0 => q
  | n + 1 =>
    let e := q.pos.ending
    if q.mayLeave e then
      let q1 := { q with pos := q.pos.leave, skip := [] }
      (if e == .pass then q1 else q1.finish).settle n
    else q

/-- The packet at the position is complete: on to the next one (R290). -/
def Queue.complete (q : Queue) (len : Nat) : Queue :=
  ({ q with pos := q.pos.next len, phase := .idle } : Queue).finish.settle maxLeaves

/-! ### Packets (R289) -/

def pktType (w : Word) : Nat := w.toNat % 256
def pktLen (w : Word) : Nat := w.toNat / 256 % 256
def pktHi (w : Word) : Nat := w.toNat / 65536 % 65536
def pktWord (ws : List Word) (i : Nat) : Word := ws.getD i 0
/-- The u32 at byte offset 4 i. -/
def pktU32 (ws : List Word) (i : Nat) : Nat := ((pktWord ws (i / 2)).extractLsb' (32 * (i % 2)) 32).toNat

/-- Lengths of a type in the table. -/
def pktLens : Nat → Nat × Nat
  | 0 => (1, 255)
  | 1 => (2, 18)
  | 2 => (3, 3)
  | 3 => (4, 4)
  | 4 => (2, 2)
  | 5 => (3, 3)
  | 6 => (3, 3)
  | 7 => (1, 1)
  | _ => (0, 0)

/-- Subcauses 1 and 2: all that is checked of a skipped packet. -/
def pktBasic (hd : Word) : Option Nat :=
  if 8 ≤ pktType hd then some 1
  else if pktLen hd < (pktLens (pktType hd)).1 ∨ (pktLens (pktType hd)).2 < pktLen hd then some 2
  else none

/-- Subcause 3: a zero field or byte that is not zero. -/
def pktZeros (ws : List Word) : Bool :=
  let hi := pktHi (pktWord ws 0)
  match pktType (pktWord ws 0) with
  | 0 => hi == 0
  | 1 => hi / 64 == 0 && pktU32 ws 3 == 0 && pktU32 ws 2 / 4 % 1024 == 0
  | 2 => hi == 0 && pktU32 ws 1 == 0 && pktU32 ws 5 == 0
  | 3 => pktU32 ws 1 == 0 && (pktWord ws 3 == 0 || 4 ≤ hi % 256)
  | 4 => hi / 256 == 0 && pktWord ws 1 == 0
  | 5 => hi / 256 == 0 && pktU32 ws 1 == 0
  | 6 => hi / 256 == 0 && pktU32 ws 1 == 0
  | _ => hi == 0 && pktU32 ws 1 == 0

/-- Subcause 4: an operand outside its limit. -/
def pktOperands (ws : List Word) : Bool :=
  let lo := pktHi (pktWord ws 0) % 256
  let aligned := decide ((pktWord ws 1).toNat % 8 = 0)
  match pktType (pktWord ws 0) with
  | 1 => decide (1 ≤ pktU32 ws 1 ∧ pktU32 ws 1 ≤ 2 ^ 24)
  | 2 => aligned && decide (pktU32 ws 4 % 8 = 0 ∧ 8 ≤ pktU32 ws 4)
  | 3 => decide (lo ≤ 4) && aligned
  | 4 => decide (1 ≤ lo)
  | 5 => decide (lo = 3) && aligned
  | 6 => decide (lo ≤ 1) && aligned
  | _ => true

/-- BADPKT's subcause for a whole packet. -/
def pktBad (ws : List Word) : Option Nat :=
  match pktBasic (pktWord ws 0) with
  | some x => some x
  | none => if !pktZeros ws then some 3 else if !pktOperands ws then some 4 else none

/-! ### Reading packets (R288, R298) -/

/-- What reading a packet, or its header alone, brings. -/
inductive PktRead where
  | words (ws : List Word)
  /-- its words do not all lie below WPTR yet (R290) -/
  | notYet
  | fault (x : XFault)
  /-- it ends past the end of the buffer that holds it; its header -/
  | past (hd : Word)

def readWord (s : State) (c : Context) (va : Word) : Except XFault Word :=
  let g := fillRead s c va 8
  match g.fault with
  | some x => .error x
  | none => .ok (BitVec.ofNat 64 (leNat (g.bytes.map (·.1))))

def readWords (s : State) (c : Context) (f : Frame) : Nat → Nat → Except XFault (List Word)
  | _, 0 => .ok []
  | i, n + 1 => match readWord s c (f.wordVa i) with
    | .error x => .error x
    | .ok w => match readWords s c f (i + 1) n with
      | .error x => .error x
      | .ok l => .ok (w :: l)

/-- Words of the buffer from the position on; in the ring those below WPTR, none where that lies before the position (R286, R290). -/
def Queue.avail (q : Queue) (f : Frame) : Nat :=
  if !f.isRing then f.len - f.off
  else if q.overrun then 0
  else (q.wptr - q.rptr).toNat - (BitVec.ofNat 32 f.off - q.rptr).toNat

/-- The header of a packet whose words all lie in its buffer, and below WPTR in the ring. -/
def readHead (s : State) (die : Nat) (q : Queue) (p : Pos) : PktRead :=
  let f := p.top
  if q.avail f = 0 then .notYet
  else match readWord s (q.ctx die) (f.wordVa 0) with
    | .error x => .fault x
    | .ok hd => if q.avail f < pktLen hd then (if f.isRing then .notYet else .past hd) else .words [hd]

/-- A packet of type or length outside the table counts one word where its length is 0. -/
def readPacket (s : State) (die : Nat) (q : Queue) (p : Pos) : PktRead :=
  match readHead s die q p with
  | .words (hd :: _) => match readWords s (q.ctx die) p.top 1 (pktLen hd - 1) with
    | .error x => .fault x
    | .ok l => .words (hd :: l)
  | r => r

/-- Packets on the path from the oldest incomplete packet to the next one to begin (R298). -/
def Queue.behind (q : Queue) : Nat :=
  match q.graphs with
  | g :: _ => g.begun + 1
  | [] => if q.phase == .idle then 0 else 1

/-- The fetched copy of the packet at the position, which in the ring counts only where the packet's words lie below WPTR (R290). -/
def Queue.copyRead (q : Queue) : Option PktRead :=
  (q.copies.find? (fun c => decide (c.pos = q.pos))).map (fun c =>
    if q.pos.top.isRing && decide (q.avail q.pos.top < max 1 (pktLen (pktWord c.words 0))) then .notYet else .words c.words)

/-- The next packet: its fetched copy, or the packet read now; none may be read while 32 packets lie between it and the oldest
incomplete one. -/
def nextPacket (s : State) (die : Nat) (q : Queue) : PktRead :=
  match q.copyRead with
  | some r => r
  | none => if 33 ≤ q.behind then .notYet else readPacket s die q q.pos

/-! ### Skips (R295) -/

/-- One unit is skipped; a LOOP's last body packet completes its unit. -/
def Queue.unit (q : Queue) : List Nat → Queue
  | [] => { q with skip := [] }
  | [n] => { q with skip := if n ≤ 1 then [] else [n - 1], pos := q.pos.count }
  | n :: rest => if n ≤ 1 then q.unit rest else { q with skip := (n - 1) :: rest }

/-- The header of a packet to skip: of its fetched copy, or read now, alone (R295). -/
def skippedHead (s : State) (die : Nat) (q : Queue) : PktRead :=
  match q.copyRead with
  | some r => r
  | none => readHead s die q q.pos

/-- A position inside the buffer of the IB at another, or in the body of the LOOP there. -/
def Pos.inside (c p : Pos) : Bool :=
  (decide (p.frames.length < c.frames.length) && match c.frames.drop (c.frames.length - p.frames.length - 1) with
    | f :: rest => decide (f.at_ = p.top.off ∧ rest.tail = p.frames.tail)
    | [] => false) ||
  c.loops.any (fun l => decide (l.va = p.va ∧ p.loops.length < c.loops.length))

/-- A packet is skipped, by its header; its copy and those of what it holds, which the path does not reach, are gone (R298). -/
def Queue.skipOver (q : Queue) (hd : Word) : Queue :=
  let q1 := { q with pos := q.pos.move (pktLen hd), copies := q.copies.filter (fun c => decide (c.pos ≠ q.pos) && !c.pos.inside q.pos) }
  let body := if pktType hd = 4 then pktHi hd % 256 else 0
  (if body = 0 then q1.unit q1.skip else { q1 with skip := body :: q1.skip }).settle maxLeaves

/-- What a queue meets next. -/
inductive Ready where
  | wait
  | stop (cause sub : Nat) (va : Word)
  | fault (x : XFault)
  | begin (ws : List Word)

/-- BADPKT 5 for the body of a LOOP in an IB buffer, found before it begins: offset and units left (R289, R294). -/
def bodyPast (s : State) (c : Context) (f : Frame) : Nat → Nat → Nat → Except XFault Bool
  | 0, _, _ => .ok false
  | fuel + 1, off, left =>
    if left = 0 then .ok (decide (f.len < off))
    else if f.len ≤ off then .ok true
    else match readWord s c (f.base + BitVec.ofNat 64 (8 * off)) with
      | .error x => .error x
      | .ok hd =>
        if (pktBasic hd).isSome then .ok false
        else bodyPast s c f fuel (off + pktLen hd) (left - 1 + (if pktType hd = 4 then pktHi hd % 256 else 0))

/-- The checks of a packet that is to execute. -/
def Queue.check (q : Queue) (s : State) (die : Nat) (ws : List Word) : Ready :=
  let hd := pktWord ws 0
  match pktBad ws with
  | some sub => .stop qBADPKT sub q.pos.va
  | none =>
    if pktType hd = 4 ∧ q.pos.top.isRing = false then
      match bodyPast s (q.ctx die) q.pos.top (q.pos.top.len + 1) (q.pos.top.off + 2) (pktHi hd % 256) with
      | .error x => .fault x
      | .ok true => .stop qBADPKT 5 q.pos.va
      | .ok false => .begin ws
    else if pktType hd = 7 ∧ q.graphs ≠ [] then .wait
    else .begin ws

/-- The queue after the skips it can make now, and what it meets then. -/
def Queue.prepare (q : Queue) (s : State) (die : Nat) : Nat → Queue × Ready
  | 0 => (q, .wait)
  | fuel + 1 =>
    match q.pos.ending with
    | .past va => ({ q with pos := q.pos.atLoop }, .stop qBADPKT 5 va)
    | .none =>
      match (if q.skip.isEmpty then nextPacket s die q else skippedHead s die q) with
      | .notYet => (q, .wait)
      | .fault x => (q, .fault x)
      | .past hd => (q, .stop qBADPKT ((pktBasic hd).getD 5) q.pos.va)
      | .words ws =>
        if q.skip.isEmpty then (q, q.check s die ws)
        else match pktBasic (pktWord ws 0) with
          | some sub => (q, .stop qBADPKT sub q.pos.va)
          | none => (q.skipOver (pktWord ws 0)).prepare s die fuel
    | _ => (q, .wait)

/-- Fuel for `prepare`: every skipped packet has a word of the ring or of a buffer, for each level of buffers. -/
def prepareFuel : Nat := 2 ^ 32

/-- The queue may go on: RUNNING, no packet in progress. -/
def State.prepared (s : State) (die h : Nat) : Queue × Ready :=
  let q := s.queue die h
  if q.running && q.phase == .idle then q.prepare s die prepareFuel else (q, .wait)

def Ready.begins : Ready → Bool
  | .begin _ => true
  | _ => false

/-- Round robin: the slot is the first after the last one served whose next packet can begin, and no packet has begun in this
die cycle (R290). -/
def State.turnOf (s : State) (die h : Nat) : Bool :=
  let d := s.die die
  let rank (k : Nat) : Nat := (k + 255 - d.queueLast % 256) % 256
  decide (d.begunAt ≠ some d.dieCycle) &&
    d.queues.all (fun p => decide (rank h ≤ rank p.1) || !(s.prepared die p.1).2.begins)

/-- A translation fault of the queue, of a fetch or of the access of a packet that has begun: NOTPRES goes to the fault queue and the
access is retried, any other stops it (R288). -/
def State.queueXlate (s : State) (die h : Nat) (words : Option (List Word)) (x : XFault) : State :=
  let q := s.queue die h
  if isNotPres x.sub then
    (s.setQueue die h { q with phase := .page words }).queueFault (.cobalt die)
      { seq := 0, source := 3, who := h, va := x.va, pc := 0, emitseq := 0, sub := x.sub, unit := 0, record := [] }
  else if words.isSome then s.stopBegun die h qXLATE x.sub.toNat q.pos.va
  else s.stopQueue die h qXLATE x.sub.toNat q.pos.va

/-- A packet begins: it is the slot's turn; the copy is used up. -/
def State.beginPacket (s : State) (die h : Nat) (q : Queue) : State :=
  let q1 := { q with
    copies := q.copies.filter (fun c => decide (c.pos ≠ q.pos))
    graphs := q.graphs.map (fun g => { g with begun := g.begun + 1 }) }
  (s.setQueue die h q1).updDie die (fun d => { d with queueLast := h, begunAt := some d.dieCycle })

/-- The step of a queue whose next packet is of some kind: a stop or a fault met before it, or its beginning. -/
def atPacket (s : State) (die h : Nat) (kind : List Word → Bool) (f : State → Queue → List Word → State) : Out :=
  let (q, r) := s.prepared die h
  match r with
  | .wait => .next (if (s.queue die h).running then s.setQueue die h q else s)
  | .stop cause sub va => .next ((s.setQueue die h q).stopQueue die h cause sub va)
  | .fault x => .next ((s.setQueue die h q).queueXlate die h none x)
  | .begin ws =>
    .next (if kind ws && s.turnOf die h then
      let s1 := s.beginPacket die h q
      f s1 (s1.queue die h) ws
    else s)

def isType (t : Nat) (ws : List Word) : Bool := decide (pktType (pktWord ws 0) = t)
def lenOf (ws : List Word) : Nat := pktLen (pktWord ws 0)

/-! ### Commands of system software and of the producers (R285, R286) -/

/-- Another slot of the die that is not DISABLED has the same PART and QNUM. -/
def State.queueTaken (s : State) (die h : Nat) (q : Queue) : Bool :=
  (s.die die).queues.any (fun p => decide (p.1 ≠ h ∧ p.2.state ≠ qDISABLED ∧ p.2.part = q.part ∧ p.2.qnum = q.qnum))

/-- A WAIT in progress is withdrawn at its home and executes again later; so does a PRED, WAIT or SIG whose operation has not been
performed, or whose page is being served (log entry 51). -/
def State.withdrawWait (s : State) (die h : Nat) : State :=
  let q := s.queue die h
  match q.phase with
  | .waiting loc _ => (s.dropWaiter loc.engine (.queue die h)).setQueue die h { q.unbegin with phase := .idle }
  | .sent _ _ => s.setQueue die h { q.unbegin with phase := .idle }
  | .page (some _) => s.setQueue die h { q.unbegin with phase := .idle }
  | .page none => s.setQueue die h { q with phase := .idle }
  | _ => s

/-- The next packet to begin: after an INVOKE in progress, the one behind it. -/
def Queue.fetchFrom (q : Queue) : Pos :=
  match q.phase with
  | .invoking _ len => (q.pos.next len).settle maxLeaves
  | .sent _ ws => (q.pos.next (lenOf ws)).settle maxLeaves
  | .waiting _ len => (q.pos.next len).settle maxLeaves
  | _ => q.pos

/-- BADPTR stops a RUNNING queue before its next packet, which is the packet at QFAULT; an INVOKE in progress runs on, and what
else is in progress executes again (R285, log entry 51). -/
def State.checkPtr (s : State) (die h : Nat) : State :=
  if (s.queue die h).running && (s.queue die h).overrun then
    let s1 := s.withdrawWait die h
    s1.stopQueue die h qBADPTR 0 (s1.queue die h).fetchFrom.va
  else s

/-- A queue whose read pointer may have moved past its write pointer (R286). -/
def State.passQueue (s : State) (die h : Nat) (q : Queue) : State := (s.setQueue die h q).checkPtr die h

def State.queueStart (s : State) (die h : Nat) : State :=
  let q := s.queue die h
  if q.state ≠ qDISABLED ∨ s.queueTaken die h q then s
  else
    let ring : Frame := { isRing := true, base := q.qbase, len := 2 ^ q.log2n, off := 0, at_ := 0 }
    let q1 := q.put qRUNNING 0 0
    s.setQueue die h { q1 with
      wptr := 0, done := 0, pos := { frames := [ring], loops := [] }, skip := [], copies := [], phase := .idle, graphs := [] }

def State.queueResume (s : State) (die h : Nat) : State :=
  let q := s.queue die h
  if q.state = qSTOPPED ∨ q.state = qPARKED then
    (s.setQueue die h { q.put qRUNNING 0 0 with copies := [] }).checkPtr die h
  else s

def State.queuePark (s : State) (die h : Nat) : State :=
  if (s.queue die h).running then
    let s1 := s.withdrawWait die h
    s1.setQueue die h ((s1.queue die h).putState qPARKED)
  else s

def State.queueDisable (s : State) (die h : Nat) : State :=
  let s1 := if (s.queue die h).running then s.withdrawWait die h else s
  s1.setQueue die h ((s1.queue die h).putState qDISABLED)

/-- A write of STATE (R285). -/
def State.queueState (s : State) (die h v : Nat) : State :=
  if v = 1 then (if (s.queue die h).state = qDISABLED then s.queueStart die h else s.queueResume die h)
  else if v = 3 then s.queuePark die h
  else if v = 0 then s.queueDisable die h
  else s

/-- QUEUE_START (R285). -/
def execQueueStart (die h : Nat) (s : State) : Out := .next (s.queueStart die h)
/-- QUEUE_RESUME (R285). -/
def execQueueResume (die h : Nat) (s : State) : Out := .next (s.queueResume die h)
/-- QUEUE_PARK (R285). -/
def execQueuePark (die h : Nat) (s : State) : Out := .next (s.queuePark die h)
/-- QUEUE_DISABLE (R285). -/
def execQueueDisable (die h : Nat) (s : State) : Out := .next (s.queueDisable die h)

/-- The slot a partition's doorbell reaches. -/
def State.doorbellSlot (s : State) (die part off : Nat) : Option Nat :=
  if off % 8 ≠ 0 ∨ 512 ≤ off then none
  else ((s.die die).queues.find? (fun p => decide (p.2.state ≠ qDISABLED ∧ p.2.part = part ∧ p.2.qnum = off / 8))).map (·.1)

def State.doorbellStore (s : State) (die part off size : Nat) (v : Word) : State :=
  match s.doorbellSlot die part off with
  | none => s
  | some h =>
    if size ≠ 8 ∨ v.extractLsb' 32 32 ≠ 0 then s
    else
      (s.setQueue die h { s.queue die h with wptr := v.extractLsb' 0 32 }).checkPtr die h

/-- Word +0x18 of the slot a doorbell offset reaches, else 0. -/
def State.doorbellLoad (s : State) (die part off : Nat) : Word :=
  match s.doorbellSlot die part off with
  | none => 0
  | some h => (s.queue die h).wptr ++ (s.queue die h).rptr

/-- DOORBELL (R286). -/
def execDoorbell (die part off size : Nat) (value : Word) (s : State) : Out := .next (s.doorbellStore die part off size value)

/-! ### Fetching ahead (R298) -/

/-- Where a skip ends, by the headers as they stand now. -/
def Queue.skipTo (s : State) (die : Nat) : Nat → Queue → Option Pos
  | 0, _ => none
  | fuel + 1, q =>
    if q.skip.isEmpty then some q.pos
    else match q.pos.ending, skippedHead s die q with
      | .none, .words ws =>
        if (pktBasic (pktWord ws 0)).isSome then none else Queue.skipTo s die fuel (q.skipOver (pktWord ws 0))
      | _, _ => none

/-- The queue past a LOOP of repeat count 0: its body is skipped as part of the LOOP's unit (R294). -/
def Queue.emptyLoop (q : Queue) (p : Pos) (ws : List Word) : Queue :=
  { q with pos := p.move (lenOf ws), skip := [pktHi (pktWord ws 0) % 256, 1] }

/-- Where the path goes after a packet if every PRED holds; none where fetching ahead ends. -/
def Pos.follow (p : Pos) (ws : List Word) : Option Pos :=
  let len := lenOf ws
  if (pktBad ws).isSome then none
  else if isType 2 ws then
    if p.frames.length = 5 then none
    else some (Pos.settle { p with frames :=
      { isRing := false, base := pktWord ws 1, len := pktU32 ws 4 / 8, off := 0, at_ := p.top.off } :: (p.move len).frames } maxLeaves)
  else if isType 4 ws then
    if p.loops.length = 2 ∨ pktU32 ws 1 = 0 then none
    else
      let p1 := p.move len
      let n := pktHi (pktWord ws 0) % 256
      some { p1 with loops :=
        { depth := p1.frames.length, start := p1.top.off, left := n, body := n, passes := pktU32 ws 1, at_ := p.top.off, va := p.va } ::
          p1.loops }
  else some ((p.next len).settle maxLeaves)

/-- Positions whose packets may be read now: those with a copy, and the first without one. -/
def Queue.ahead (q : Queue) (s : State) (die : Nat) (p : Pos) : Nat → List Pos
  | 0 => []
  | n + 1 => match q.copies.find? (fun c => decide (c.pos = p)) with
    | none => [p]
    | some c => p :: (match (if isType 4 c.words && (pktBad c.words).isNone && decide (pktU32 c.words 1 = 0) then
          Queue.skipTo s die prepareFuel ({ q with graphs := [] } |>.emptyLoop p c.words) else p.follow c.words) with
      | some p1 => q.ahead s die p1 n
      | none => [])

/-- A copy read in the place of an earlier one; where that read otherwise, the copies of what it held are of no use. -/
def Queue.keepCopy (q : Queue) (x : PktCopy) : Queue :=
  let same := q.copies.contains x
  { q with copies := x :: q.copies.filter (fun c => decide (c.pos ≠ x.pos) && (same || !c.pos.inside x.pos)) }

/-- PACKET_FETCH (R298): one packet within the bound is read, for the first time or again. A fault of the packet that is to begin next
is reported or stops the queue (R288); one of a packet further on has no effect until the path reaches it. -/
def execPacketFetch (die h : Nat) (s : State) : Out :=
  let q := s.queue die h
  if !q.running || !q.skip.isEmpty then .next s
  else
    .next (match pickFree s 5 (q.ahead s die q.fetchFrom (33 - q.behind)) with
      | none => s
      | some p => match readPacket s die q p with
        | .words ws => s.setQueue die h (q.keepCopy { pos := p, words := ws })
        | .fault x => if q.phase == .idle && decide (p = q.pos) then s.queueXlate die h none x else s
        | _ => s)

/-! ### Packets that change the position (R293, R294, R299) -/

/-- PKT_NOP (R289). -/
def execPktNop (die h : Nat) (s : State) : Out :=
  atPacket s die h (isType 0) fun s q ws => s.passQueue die h (q.complete (lenOf ws))

/-- IB (R293): a fifth level stops the queue. -/
def execIb (die h : Nat) (s : State) : Out :=
  atPacket s die h (isType 2) fun s q ws =>
    if q.pos.frames.length = 5 then s.stopBegun die h qNESTING 1 q.pos.va
    else s.setQueue die h { q with pos := (q.pos.follow ws).getD q.pos }

/-- PKT_LOOP (R294): a third level stops the queue; a repeat count of 0 skips the body as part of the LOOP's unit. -/
def execPktLoop (die h : Nat) (s : State) : Out :=
  atPacket s die h (isType 4) fun s q ws =>
    if pktU32 ws 1 = 0 then
      s.passQueue die h (q.emptyLoop q.pos ws).finish
    else if q.pos.loops.length = 2 then s.stopBegun die h qNESTING 2 q.pos.va
    else s.setQueue die h { q with pos := (q.pos.follow ws).getD q.pos }

/-- FFENCE (R299): it begins once every earlier packet is complete, and discards every fetched copy. -/
def execFfence (die h : Nat) (s : State) : Out :=
  atPacket s die h (isType 7) fun s q ws => s.passQueue die h (({ q with copies := [] } : Queue).complete (lenOf ws))

/-! ### PRED, WAIT, SIG (R295, R296) -/

/-- The packet's sync operation is on its way, once its address translates. -/
def State.sendSync (s : State) (die h : Nat) (q : Queue) (ws : List Word) (acc : Access) : State :=
  match translate s (q.ctx die) (pktWord ws 1) acc with
  | .error x => s.queueXlate die h (some ws) x
  | .ok loc => s.setQueue die h { q with phase := .sent loc ws }

/-- A sync packet: it begins, or its operation is performed in one step at its home, or refused there (R257, R296). -/
def syncPacket (s : State) (die h : Nat) (kind : List Word → Bool) (acc : Access)
    (perform : State → Queue → Loc → List Word → State) : Out :=
  let q := s.queue die h
  match q.phase with
  | .sent loc ws =>
    if !kind ws then .next s
    else
      .next (match remoteRefusal s (q.ctx die) loc.engine (some loc) with
        | some cause =>
          let s1 := s.setQueue die h { q with phase := .idle }
          if q.state = qDISABLED then s1 else s1.stopBegun die h qREMOTE cause q.pos.va
        | none => perform (s.holdLine loc q.part) q loc ws)
  | _ => atPacket s die h kind fun s q ws => s.sendSync die h q ws acc

/-- A PRED's condition on the word read (R295). -/
def predHolds (ws : List Word) (word : Word) : Bool :=
  let v := pktWord ws 2
  match pktHi (pktWord ws 0) % 256 with
  | 0 => word == v
  | 1 => word != v
  | 2 => decide (word.toNat < v.toNat)
  | 3 => decide (v.toNat ≤ word.toNat)
  | _ => (word &&& pktWord ws 3) == v

/-- The queue after a PRED: the next n packets of its buffer are to be skipped where the condition fails; a skip ends with the
pass or buffer the PRED ends. -/
def Queue.afterPred (q : Queue) (ws : List Word) (holds : Bool) : Queue :=
  let n := pktHi (pktWord ws 0) / 256
  let p := q.pos.next (lenOf ws)
  let q1 := ({ q with pos := p, phase := .idle } : Queue).finish
  if holds ∨ n = 0 then q1.settle maxLeaves else ({ q1 with skip := [n] } : Queue).settle maxLeaves

/-- PRED (R295). -/
def execPred (die h : Nat) (s : State) : Out :=
  syncPacket s die h (isType 3) .load fun s q loc ws =>
    s.passQueue die h (q.afterPred ws (predHolds ws (BitVec.ofNat 64 (leNat ((s.readHomeBytes none loc.pkg loc.pa 8).map (·.1))))))

/-- PKT_WAIT (R296): the signal is tested at its home; while it is too small the queue stands in the waiter table, and a full table
is tried again (R258). -/
def execPktWait (die h : Nat) (s : State) : Out :=
  let q := s.queue die h
  match q.phase with
  | .waiting loc len =>
    .next (if (s.die loc.engine).waiters.any (fun w => w.answered && w.who == .queue die h) then
      (s.dropWaiter loc.engine (.queue die h)).passQueue die h (q.complete len)
    else s)
  | _ =>
    syncPacket s die h (isType 5) .load fun s q loc ws =>
      let kind : WatchKind := .signal (pktWord ws 2)
      if watchHolds s loc.pkg loc.pa kind then s.passQueue die h (q.complete (lenOf ws))
      else if 8192 ≤ ((s.die loc.engine).waiters.filter (fun w => !w.answered)).length then s
      else
        (s.setQueue die h { q with phase := .waiting loc (lenOf ws) }).updDie loc.engine (fun d => { d with waiters := d.waiters ++
          [{ who := .queue die h, pkg := loc.pkg, pa := loc.pa, kind := kind, answered := false, progress := false }] })

def isSig (op : Nat) (ws : List Word) : Bool := isType 6 ws && decide (pktHi (pktWord ws 0) % 256 = op)

/-- PKT_SIG_ADD (R296, R252). -/
def execPktSigAdd (die h : Nat) (s : State) : Out :=
  syncPacket s die h (isSig 0) .store fun s q loc ws =>
    (s.agentSignal loc (pktWord ws 2) false false).passQueue die h (q.complete (lenOf ws))

/-- PKT_SIG_SET (R296, R243). -/
def execPktSigSet (die h : Nat) (s : State) : Out :=
  syncPacket s die h (isSig 1) .store fun s q loc ws =>
    (s.homeWriteBytes loc.pkg loc.pa (leBytes 8 (pktWord ws 2).toNat) false false).passQueue die h (q.complete (lenOf ws))

/-! ### INVOKE (R291, R292) -/

/-- The model-slot record, at a physical address. -/
def State.modelRecord (s : State) (die part slot : Nat) : List Byte :=
  s.homeBytes (pkgOfDie die) ((SMap.getD (s.die die).modelTabs part 0).toNat % 2 ^ 52 + 64 * slot) 64

/-- The dies of a die's package. -/
def siblings (die : Nat) : List Nat := (List.range 8).map (8 * pkgOfDie die + ·)

/-- cores_d of the package's dies. -/
def State.coreCounts (s : State) (die part : Nat) (record : List Byte) : List Nat :=
  (siblings die).map (fun d => (s.coresOf d part record).length)

/-- The stop cause of an INVOKE, if any (R292 steps 1 to 3). -/
def invokeStop (record : List Byte) (cores : List Nat) (n : Nat) (persist : Bool) : Option Nat :=
  if modelFlags record % 8 ≠ 7 then some qNOTRES
  else if cores.all (· == 0) then some qNOENG
  else if persist && decide (1024 * (cores.filter (· != 0)).length < n) then some qNOCTX
  else none

/-- INVOKE (R292): the record is read, the checks are made, and the INVOKE is ready to start. -/
def execInvoke (die h : Nat) (s : State) : Out :=
  atPacket s die h (isType 1) fun s q ws =>
    let record := s.modelRecord die q.part (pktHi (pktWord ws 0) % 64)
    let flags := pktU32 ws 2
    let n := pktU32 ws 1
    match invokeStop record (s.coreCounts die q.part record) n (flags.testBit 1) with
    | some cause => s.stopBegun die h cause 0 q.pos.va
    | none =>
      let g : Graph :=
        { queueDie := die, queueSlot := h, part := q.part, prio := q.prio, n := n, overlap := flags.testBit 0,
          persist := flags.testBit 1, gang := BitVec.ofNat 20 (flags / 2 ^ 12), z := ws.drop 2, record := record,
          root := q.qroot.toNat, started := false, shares := [], halted := 0, steals := [], tried := [] }
      ({ s.setGraph s.nextGraph g with nextGraph := s.nextGraph + 1 } : State).setQueue die h
        { q with phase := .invoking s.nextGraph (lenOf ws) }

/-- Every die's share has enough free table entries (PERSIST). -/
def State.sharesFit (s : State) (die : Nat) (shares : SMap (Nat × Nat)) : Bool :=
  shares.all (fun p => decide (p.2.2 - p.2.1 ≤ s.entriesLeft (8 * pkgOfDie die + p.1)))

/-- The queue once an INVOKE has started: one with OVERLAP lets the next packet begin (R290). -/
def Queue.started (q : Queue) (gid len : Nat) (overlap : Bool) : Queue :=
  if overlap then
    let ringLevel := q.pos.frames.length == 1 && q.pos.loops.isEmpty
    let o : Overlap :=
      { graph := gid, at_ := if ringLevel then some q.pos.top.off else none, frames := q.pos.frames.length,
        loops := q.pos.loops.length, begun := 0 }
    ({ q with pos := q.pos.next len, phase := .idle, graphs := q.graphs ++ [o] } : Queue).settle maxLeaves
  else q

/-- INVOKE_START (R292 step 4): static shares go to the dies; with PERSIST every task takes its table entry at once. -/
def execInvokeStart (die h : Nat) (s : State) : Out :=
  let q := s.queue die h
  match q.phase with
  | .invoking gid len =>
    .next (match SMap.find s.graphs gid with
      | none => s
      | some g =>
        if g.started then s
        else
          let cores := s.coreCounts die g.part g.record
          let shares := layShares cores (shareSizes g.n cores)
          if g.persist && !s.sharesFit die shares then s
          else
            let g1 := { g with started := true, shares := shares }
            let placed := if g.persist then (shares.map (·.1)).foldl (fun s n => s.placeShare (8 * pkgOfDie die + n) gid g1) s else s
            let g2 := if g.persist then { g1 with shares := shares.map (fun p => (p.1, (p.2.2, p.2.2))) } else g1
            (placed.setGraph gid g2).passQueue die h (q.started gid len g.overlap))
  | _ => .next s

def State.graphOver (s : State) (gid : Nat) : Bool :=
  match SMap.find s.graphs gid with
  | some g => g.started && decide (g.n ≤ g.halted)
  | none => false

def State.dropGraph (s : State) (gid : Nat) : State := { s with graphs := SMap.drop s.graphs gid }.endOwn gid

/-- TASK_GRAPH_END (R292, R48): every tile task is HALTED, the INVOKE is complete. -/
def execTaskGraphEnd (die h : Nat) (s : State) : Out :=
  let q := s.queue die h
  match q.graphs.find? (fun o => s.graphOver o.graph) with
  | some o =>
    let q1 := ({ q with graphs := q.graphs.filter (fun x => decide (x.graph ≠ o.graph)) } : Queue).finish
    .next ((s.dropGraph o.graph).passQueue die h (q1.settle maxLeaves))
  | none => match q.phase with
    | .invoking gid len => .next (if s.graphOver gid then (s.dropGraph gid).passQueue die h (q.complete len) else s)
    | _ => .next s

/-! ### Page service of a queue (R325) -/

/-- A served fault of a queue: the access is retried, a fetch or that of a PRED, WAIT or SIG (R288). -/
def State.queueServed (s : State) (die h : Nat) : State :=
  let q := s.queue die h
  match q.phase with
  | .page none => s.setQueue die h { q with phase := .idle }
  | .page (some ws) => s.sendSync die h q ws (if isType 6 ws then .store else .load)
  | _ => s

/-- A declined fault of a queue: it stops with XLATE. -/
def State.queueDeclined (s : State) (die h : Nat) (sub : BitVec 8) : State :=
  let q := s.queue die h
  match q.phase with
  | .page words =>
    let s1 := s.setQueue die h { (if words.isSome then q.unbegin else q) with phase := .idle }
    if q.running then s1.stopQueue die h qXLATE sub.toNat q.pos.va else s1
  | _ => s

end Sys2Proof.Machine
end

