-- ==== Sys2Proof/Machine/Service.lean ====
section
/-! DEFINITION. The service of page faults: closing entries, freeing entries of a fault queue (R324-R327). -/

namespace Sys2Proof.Machine

/-! ### Sources (R325) -/

/-- A generator fault is served: the instruction executes again. -/
def State.genServed (s : State) (k : Nat) : State :=
  s.updCtx k fun c => if c.wait == .page then { c with wait := .none } else c

/-- A generator fault is declined: XLATE (R135), in a context that the watchdog holds too, whose thread then goes on in its handler
once thawed (log entry 65). DESIGN CHOICE (log entry 69): where a BUNDLE trap has taken the waiting instruction off, its entry stays open,
and its close acts on whatever page wait the thread then has. -/
def State.genDeclined (s : State) (k : Nat) (e : FaultEntry) : State :=
  match s.ctx k with
  | none => s
  | some c =>
    if c.wait != .page || (match c.sch.freeze with | some f => f.fatal | none => false) then s
    else s.takeTrap k gXLATE e.sub.toNat c.thread.pc e.va (e.unit == 1)

/-- A bundle fault is served: the bundle replays by its performed bits. -/
def Context.bundleServed (c : Context) : Context :=
  match c.fl.replay with
  | some r => if r.paging then c.release else c
  | none => c

/-- A bundle fault is declined: BUNDLE trap with BFCAUSE XLATE (R135). -/
def Context.bundleDeclined (c : Context) (e : FaultEntry) : Context :=
  match c.fl.replay with
  | some r =>
    if r.paging then
      { c with
        fl := { c.fl with replay := some { r with paging := false } }
        bundleTrap := true
        thread := c.thread.setBf r.entry { slot := e.unit, cause := bXLATE, sub := e.sub.toNat, addr := e.va } }
    else c
  | none => c

/-- The channel of a copy entry is still suspended. -/
def Context.copySuspended (c : Context) (ch : Nat) : Bool :=
  c.fl.copyOps.any (fun o => decide (o.w.ch.toNat = ch) && o.state == .suspended)

def portDie : FaultPort → Nat
  | .cobalt d => d
  | .serac k => k

/-- Effect of a served entry on its source. -/
def State.serve (s : State) (p : FaultPort) (e : FaultEntry) : State :=
  match e.source with
  | 0 => s.genServed e.who
  | 1 => s.updCtx e.who Context.bundleServed
  | 2 => s
  | 3 => s.queueServed (portDie p) e.who
  | 4 => s.btServed (portDie p) e.who
  | _ => s.collServed (portDie p) e.who

/-- Effect of a declined entry on its source. -/
def State.decline (s : State) (p : FaultPort) (e : FaultEntry) : State :=
  match e.source with
  | 0 => s.genDeclined e.who e
  | 1 => s.updCtx e.who (fun c => c.bundleDeclined e)
  | 2 => match s.ctx e.who with
    | some c => if c.copySuspended e.unit then s.copyDeclined e.who e.unit else s
    | none => s
  | 3 => s.queueDeclined (portDie p) e.who e.sub
  | 4 => s.btAbort (portDie p) e.who
  | _ => s.collDeclined (portDie p) e.who e.sub

/-! ### Closing and freeing entries (R325-R327) -/

/-- A close of the entry of a sequence; one that names no open entry is dropped. -/
def State.closeFault (s : State) (p : FaultPort) (seq : BitVec 32) (served : Bool) : State :=
  let f := s.faultPage p
  match f.open_.find? (fun e => decide (e.seq = seq)) with
  | none => s
  | some e =>
    let s1 := s.setFaultPage p { f with open_ := f.open_.filter (fun x => decide (x.seq ≠ seq)) }
    if served then s1.serve p e else s1.decline p e

/-- Waiting faults take free entries in the order they arose (R327). -/
def State.drainFaults (s : State) (p : FaultPort) : Nat → State
  | 0 => s
  | n + 1 =>
    let f := s.faultPage p
    match f.waiting with
    | [] => s
    | e :: rest =>
      if f.hasRoom then ((s.setFaultPage p { f with waiting := rest }).writeFaultEntry p e).drainFaults p n else s

/-- A write of the fault queue's HEAD. -/
def State.moveFaultHead (s : State) (p : FaultPort) (head : BitVec 32) : State :=
  let f := s.faultPage p
  (s.setFaultPage p { f with fqHead := head }).drainFaults p f.waiting.length

/-- FAULT_SERVED (R325). -/
def execFaultServed (p : FaultPort) (seq : BitVec 32) (s : State) : Out := .next (s.closeFault p seq true)

/-- FAULT_DECLINED (R325). -/
def execFaultDeclined (p : FaultPort) (seq : BitVec 32) (s : State) : Out := .next (s.closeFault p seq false)

/-- FAULT_QUEUE_HEAD_ADVANCE (R327). -/
def execFaultQueueHeadAdvance (p : FaultPort) (head : BitVec 32) (s : State) : Out := .next (s.moveFaultHead p head)

end Sys2Proof.Machine
end

