-- ==== Sys2Proof/Machine/Device.lean ====
section
/-! DEFINITION. The register pages of the device: what a load of one returns, what a store to one does (R3, R46, R55, R160, R164,
R259-R263, R282, R284-R286, R303, R326, R336, R344, R347). -/

namespace Sys2Proof.Machine

/-! ### Scheduler control page (R259-R263, R266) -/

/-- Bits kept of a written register. -/
def maskSCHCFG : Word := 0xFFF01F
def maskBase : Word := 0x000FFFFFFFFFF000
def maskSLOTPART : Word := 0x0000FFFF000FFFFF
def maskRegions : Word := 0x7F7F7F7F7F7F7F7F

/-- Word i of fairness record g (R266). -/
def FairRec.word (r : FairRec) (i : Nat) : Word :=
  match i with
  | 0 => BitVec.ofNat 64 ((if r.valid then 2 ^ 31 else 0) + r.level % 16 * 2 ^ 20 + r.gang.toNat + r.boost.toNat * 2 ^ 32)
  | 1 => BitVec.ofNat 64 (r.accepted.toNat + r.refused.toNat * 2 ^ 32)
  | 2 => r.wstart
  | _ => r.contexts.setWidth 64

def PartRegs.word (p : PartRegs) (i : Nat) : Word :=
  match i with
  | 0 => p.pdl
  | 1 => p.minima
  | 2 => BitVec.ofNat 64 (p.eng.toNat + p.tenant.toNat * 2 ^ 16)
  | 3 => p.effmin
  | _ => 0

/-- The slot table as written, in force or still to take effect (R263). -/
def Core.tableWord (r : Core) (i : Nat) : Word := (r.slotTableNext.getD r.slotTable).getD i 0

def Core.schedWord (r : Core) (i : Nat) : Word :=
  match i with
  | 4 => r.slotPart
  | 5 => r.slotWinF
  | 6 => r.slotWinW
  | 7 => r.slotWinC
  | _ => r.tableWord i

def State.schedWord (s : State) (die o : Nat) : Word :=
  let d := s.die die
  if o = 0x00 then d.schcfg
  else if o = 0x08 then d.bdecay
  else if o = 0x10 then d.slice
  else if o = 0x18 then d.coldage
  else if 0x100 ≤ o ∧ o < 0x500 then (d.part ((o - 0x100) / 0x40)).word ((o - 0x100) % 0x40 / 8)
  else if 0x1000 ≤ o ∧ o < 0x2000 then (s.core (64 * die + (o - 0x1000) / 0x40)).schedWord ((o - 0x1000) % 0x40 / 8)
  else if 0x4000 ≤ o ∧ o < 0xC000 then (SMap.getD d.fair ((o - 0x4000) / 32) FairRec.empty).word ((o - 0x4000) % 32 / 8)
  else 0

/-! Minima in force (R259, R282) -/

def minimumOf (kind : Nat) (w : Word) : Nat := w.toNat / 2 ^ (16 * kind) % 2 ^ 16

/-- Capacity of a die that remains: 0 MINSLOT, 1 MINISSUE, 2 MINBW. -/
def State.capacity (s : State) (die kind : Nat) : Nat :=
  let cores := 64 - ((dieCores die).filter (fun k => (s.core k).retired)).length
  if kind = 0 then 4 * cores else if kind = 1 then 64 * cores else 4800 - 150 * (s.die die).retiredChannels.length

def Die.sumMin (d : Die) (kind : Nat) : Nat := (List.range 16).foldl (fun n p => n + minimumOf kind (d.part p).minima) 0

/-- Some unit of a package is retired. -/
def State.anyRetired (s : State) (pkg : Nat) : Bool :=
  s.dies.any (fun p => decide (pkgOfDie p.1 = pkg) && !p.2.retiredChannels.isEmpty) ||
  s.cores.any (fun p => decide (pkgOfDie (dieOfCore p.1) = pkg) && p.2.retired) ||
  s.seracs.any (fun p => decide (pkgOfSerac p.1 = pkg) && !p.2.retiredLinks.isEmpty)

/-- The minimum of a kind in force: scaled where, after a retirement, the sum is more than the capacity that remains. -/
def State.scaled (s : State) (die kind n : Nat) : Nat :=
  let sum := (s.die die).sumMin kind
  let cap := s.capacity die kind
  if cap < sum ∧ s.anyRetired (pkgOfDie die) then n * cap / sum else n

/-- EFFMIN computed again from the programmed minima. -/
def State.rescale (s : State) (die : Nat) : State :=
  s.updDie die fun d => { d with parts := d.parts.map (fun p =>
    (p.1, { p.2 with effmin := BitVec.ofNat 64 ((List.range 3).foldl (fun a k =>
      a + s.scaled die k (minimumOf k p.2.minima) * 2 ^ (16 * k)) 0) })) }

/-- OVERCOMMIT is reported for each kind of minimum whose sum is more than what remains after a retirement (R282, R338). -/
def State.overcommit (s : State) (die : Nat) : State :=
  [2, 1, 0].foldl (fun (s : State) kind =>
    let sum := (s.die die).sumMin kind
    let cap := s.capacity die kind
    if cap < sum ∧ s.anyRetired (pkgOfDie die) then s.post (.cobalt die) 9 (die % 8) (Config.overcommitDetail kind sum cap) 0 else s) s

/-- The partition holds a context on the die: one that is not HALTED. -/
def State.partHolds (s : State) (die part : Nat) : Bool :=
  s.contexts.any (fun p => decide (p.2.die = die ∧ p.2.id.part = part) && !p.2.isFirmware && p.2.status != .halted)

def State.setPart (s : State) (die p : Nat) (r : PartRegs) : State := s.updDie die (fun d => { d with parts := SMap.put d.parts p r })

def State.storePart (s : State) (die p i : Nat) (v : Word) : State :=
  let r := (s.die die).part p
  match i with
  | 0 => s.setPart die p { r with pdl := low48 v }
  | 1 => ((s.setPart die p { r with minima := v &&& 0xFFFFFFFFFFFF }).rescale die).overcommit die
  | 2 => s.setPart die p { r with
      eng := v.extractLsb' 0 4, tenant := if s.partHolds die p then r.tenant else v.extractLsb' 16 16 }
  | _ => s
where
  low48 (v : Word) : Word := v &&& 0xFFFFFFFFFFFF

/-- BASE + SIZE of every slot's region lies within the buffer. -/
def regionsFit (v : Word) (tiles : Nat) : Bool :=
  (List.range 4).all (fun i => decide ((v.extractLsb' (16 * i) 7).toNat + (v.extractLsb' (16 * i + 8) 7).toNat ≤ tiles))

/-- A register of a core's slots: ignored while a tenant context is RESIDENT, and where a region leaves its buffer (R261, R262). -/
def State.storeSlots (s : State) (core i : Nat) (v : Word) : State :=
  let w := v &&& maskRegions
  if i < 4 then
    s.updCore core (fun r => { r with slotTableNext := some ((r.slotTableNext.getD r.slotTable).set i v) })
  else if s.tenantResident core then s
  else match i with
  | 4 => s.updCore core (fun r => { r with slotPart := v &&& maskSLOTPART })
  | 5 => if regionsFit w 64 then s.updCore core (fun r => { r with slotWinF := w }) else s
  | 6 => if regionsFit w 64 then s.updCore core (fun r => { r with slotWinW := w }) else s
  | _ => if regionsFit w 32 then s.updCore core (fun r => { r with slotWinC := w &&& 0x7F7C7F7C7F7C7F7C }) else s

def State.storeSched (s : State) (die o : Nat) (v : Word) : State :=
  if o = 0x00 then
    s.updDie die fun d =>
      let w := v.toNat % 32
      let wlog : Word := if 10 ≤ w ∧ w ≤ 24 then BitVec.ofNat 64 w else d.schcfg &&& 0x1F
      { d with schcfg := (v &&& maskSCHCFG &&& ~~~(0x1F : Word)) ||| wlog }
  else if o = 0x08 then s.updDie die (fun d => { d with bdecay := v &&& 0xFFFFFFFF })
  else if o = 0x10 then s.updDie die (fun d => { d with slice := v &&& 0xFFFFFFFFFFFF })
  else if o = 0x18 then s.updDie die (fun d => { d with coldage := v &&& 0xFFFFFFFFFFFF })
  else if 0x100 ≤ o ∧ o < 0x500 then s.storePart die ((o - 0x100) / 0x40) ((o - 0x100) % 0x40 / 8) v
  else if 0x1000 ≤ o ∧ o < 0x2000 then s.storeSlots (64 * die + (o - 0x1000) / 0x40) ((o - 0x1000) % 0x40 / 8) v
  else s

/-! ### Command control page (R284, R285, R291) -/

def State.queueWord (s : State) (die h i : Nat) : Word :=
  let q := s.queue die h
  match i with
  | 0 => q.qctl
  | 1 => q.qbase
  | 2 => q.qroot
  | 3 => q.wptr ++ q.rptr
  | 4 => q.qfault
  | 5 => q.done.setWidth 64
  | _ => 0

def State.commandWord (s : State) (die o : Nat) : Word :=
  if o < 0x4000 then s.queueWord die (o / 0x40) (o % 0x40 / 8)
  else if o < 0x4080 then SMap.getD (s.die die).modelTabs ((o - 0x4000) / 8) 0
  else 0

/-- QCTL's fields other than STATE, written while DISABLED; LOG2N outside 9-24 keeps its value. -/
def Queue.writeFields (q : Queue) (v : Word) : Queue :=
  let n := (v.extractLsb' 16 5).toNat
  let log2n : Word := if 9 ≤ n ∧ n ≤ 24 then v &&& 0x1F0000 else q.qctl &&& 0x1F0000
  { q with qctl := (q.qctl &&& 0xFFFF) ||| (v &&& 0xFFF8000000) ||| log2n }

def State.storeQueue (s : State) (die h i : Nat) (v : Word) : State :=
  let q := s.queue die h
  let free := decide (q.state = qDISABLED)
  match i with
  | 0 => (if free then s.setQueue die h (q.writeFields v) else s).queueState die h (v.toNat % 8)
  | 1 => if free then s.setQueue die h { q with qbase := v &&& 0x01FFFFFFFFFFF000 } else s
  | 2 => if free then s.setQueue die h { q with qroot := v &&& maskBase } else s
  | _ => s

def State.storeCommand (s : State) (die o : Nat) (v : Word) : State :=
  if o < 0x4000 then s.storeQueue die (o / 0x40) (o % 0x40 / 8) v
  else if o < 0x4080 then s.updDie die (fun d => { d with modelTabs := SMap.put d.modelTabs ((o - 0x4000) / 8) v })
  else s

/-! ### Die fault page (R326) -/

def maskQueueBase : Word := 0x000FFFFFFFFFF01F

def FaultPage.word (f : FaultPage) (o : Nat) : Word :=
  match o with
  | 0x00 => f.fqbase
  | 0x08 => f.fqTail ++ f.fqHead
  | 0x18 => f.waited ++ BitVec.ofNat 32 f.waiting.length
  | 0x20 => f.eqbase
  | 0x28 => f.eqTail ++ f.eqHead
  | 0x30 => f.overwritten ++ f.dropped
  | _ => 0

def State.storeFault (s : State) (p : FaultPort) (o : Nat) (v : Word) : State :=
  let f := s.faultPage p
  match o with
  | 0x00 => (s.setFaultPage p { f with fqbase := v &&& maskQueueBase }).drainFaults p f.waiting.length
  | 0x08 => s.moveFaultHead p (v.extractLsb' 0 32)
  | 0x10 => s.closeFault p (v.extractLsb' 32 32) (v.getLsbD 0)
  | 0x20 => s.setFaultPage p { f with eqbase := v &&& maskQueueBase }
  | 0x28 => s.setFaultPage p { f with eqHead := v.extractLsb' 0 32 }
  | _ => s

/-! ### Core control page (R336) and copy status page (R160) -/

/-- Doubleword i of a copy status record. -/
def statWord (r : CopyStat) (i : Nat) : Word := BitVec.ofNat 64 (leNat ((r.bytes.drop (8 * i)).take 8))

/-- FROZEN: each resident slot's table index, bit 15 where the watchdog has frozen its context. -/
def State.frozenWord (s : State) (core : Nat) : Word :=
  BitVec.ofNat 64 ((List.range 4).foldl (fun n i =>
    match SMap.find (s.core core).slots i with
    | none => n
    | some k => n + 2 ^ (16 * i) * (k % 1024 + (match s.ctx k with | some c => if c.sch.wdFrozen then 2 ^ 15 else 0 | none => 0))) 0)

def State.coreWord (s : State) (core o : Nat) : Word :=
  let r := s.core core
  if o < 0x2000 then (SMap.getD r.frost.entries (o / 16) 0).extractLsb' (64 * (o % 16 / 8)) 64
  else if o = 0x2000 then BitVec.ofNat 64 (r.frost.written.toNat % 512 + r.frost.written.toNat * 2 ^ 32)
  else if o = 0x2010 then s.frozenWord core
  else if 0x2800 ≤ o ∧ o < 0x3000 then
    match SMap.find r.slots ((o - 0x2800) / 0x200) with
    | none => 0
    | some k => match s.ctx k with
      | some c => statWord (c.stat ((o - 0x2800) % 0x200 / 0x80)) (o % 0x80 / 8)
      | none => 0
  else 0

/-- A context's own records, channel after channel (R160). -/
def State.copyStatusWord (s : State) (k o : Nat) : Word :=
  if o < 0x200 then
    match s.ctx k with
    | some c => statWord (c.stat (o / 0x80)) (o % 0x80 / 8)
    | none => 0
  else 0

/-! ### Pages of a Serac die (R303, R315, R344, R347) -/

def maskSelect : BitVec 32 := 0x1FF03

def Serac.collWord (d : Serac) (o : Nat) : Word :=
  if o = 0 then d.commbase
  else if o = 8 then d.tseq
  else if 0x100 ≤ o ∧ o < 0x180 then d.selectEntry ((o - 0x100) / 4 + 1) ++ d.selectEntry ((o - 0x100) / 4)
  else if 0x200 ≤ o ∧ o < 0x280 then SMap.getD d.grants ((o - 0x200) / 8) 0
  else 0

def Serac.storeColl (d : Serac) (o : Nat) (v : Word) : Serac :=
  if o = 0 then { d with commbase := v &&& maskBase }
  else if o = 8 then { d with tseq := v &&& 0x11FFF }
  else if 0x100 ≤ o ∧ o < 0x180 then
    let e := (o - 0x100) / 4
    { d with select := SMap.put (SMap.put d.select e (v.extractLsb' 0 32 &&& maskSelect)) (e + 1) (v.extractLsb' 32 32 &&& maskSelect) }
  else if 0x200 ≤ o ∧ o < 0x280 then { d with grants := SMap.put d.grants ((o - 0x200) / 8) (v &&& 0xFF00FF) }
  else d

def Serac.dumpOf (d : Serac) (p : Nat) : DumpRegs := SMap.getD d.dump p DumpRegs.reset

def DumpRegs.word (r : DumpRegs) (i : Nat) : Word :=
  match i with
  | 0 => r.dbase
  | 1 => r.dgeom
  | 2 => r.tail ++ r.head
  | _ => r.dcfg

def DumpRegs.store (r : DumpRegs) (i : Nat) (v : Word) : DumpRegs :=
  match i with
  | 0 => { r with dbase := v &&& maskBase }
  | 1 => { r with dgeom := v &&& 0x0000FFFF000FFFFF }
  | 2 => { r with head := v.extractLsb' 0 32 }
  | _ => { r with dcfg := v &&& 1 }

def Serac.mgmtWord (d : Serac) (o : Nat) : Word :=
  if o = 0 then d.fwmode
  else if 0x100 ≤ o ∧ o < 0x300 then (d.dumpOf ((o - 0x100) / 0x20)).word ((o - 0x100) % 0x20 / 8)
  else 0

def Serac.storeMgmt (d : Serac) (o : Nat) (v : Word) : Serac :=
  if o = 0 then { d with fwmode := v &&& 0x3F }
  else if 0x100 ≤ o ∧ o < 0x300 then
    let p := (o - 0x100) / 0x20
    { d with dump := SMap.put d.dump p ((d.dumpOf p).store ((o - 0x100) % 0x20 / 8) v) }
  else d

/-! ### Invalidation page (R55) -/

def Die.invWord (d : Die) (o : Nat) : Word :=
  match o with
  | 0x00 => d.invaddr
  | 0x08 => d.invspan
  | 0x10 => d.invroot
  | 0x20 => d.invStat
  | _ => 0

/-- INVCMD: a reserved kind or a zero bit that is set drops the store and sets ERR. -/
def Die.storeInv (d : Die) (o : Nat) (v : Word) : Die :=
  match o with
  | 0x00 => { d with invaddr := v &&& 0x01FFFFFFFFFF0000 }
  | 0x08 => { d with invspan := v &&& 0xFFFFFFFF }
  | 0x10 => { d with invroot := v &&& maskBase }
  | 0x18 => if v &&& ~~~(0xF7 : Word) ≠ 0 ∨ 5 ≤ v.toNat % 8 then { d with invErr := true } else d.queueInv (v.toNat % 8) (v.toNat / 16 % 16)
  | _ => d

/-! ### Context table entries (R272, R276, R281) -/

def maskLandDesc : Word := 0x000FFFFFFFFFF03F

/-- DESIGN CHOICE (log entry 62): 0x00 the landing descriptor, 0x08 the landing pointers, 0x10 the undo-log area, 0x18 bit 0 the
saved image is on storage. -/
def State.entryWord (s : State) (k o : Nat) : Word :=
  match o with
  | 0x00 => s.landDesc k
  | 0x08 => match s.ctx k with | some c => c.land.tail ++ c.land.head | none => 0
  | 0x10 => SMap.getD (s.die (k / 1024)).undoAreas (k % 1024) 0
  | 0x18 => match s.ctx k with | some c => if c.sch.pagedOut then 1 else 0 | none => 0
  | _ => 0

/-- Deresk pages the image of a NONRES context out, or has restored it (R281). -/
def Context.setPaged (c : Context) (out : Bool) : Context :=
  if c.status == .nonres then { c with sch := { c.sch with pagedOut := out, pageReported := c.sch.pageReported && out } } else c

/-- The descriptor changes only while the ring is empty (R272). -/
def State.storeEntry (s : State) (k o : Nat) (v : Word) : State :=
  match o with
  | 0x00 =>
    if (match s.ctx k with | some c => c.land.head == c.land.tail | none => true) then
      s.updDie (k / 1024) (fun d => { d with landDescs := SMap.put d.landDescs (k % 1024) (v &&& maskLandDesc) })
    else s
  | 0x10 => s.updDie (k / 1024) (fun d => { d with undoAreas := SMap.put d.undoAreas (k % 1024) (v &&& maskBase) })
  | 0x18 => s.updCtx k (fun c => c.setPaged (v.getLsbD 0))
  | _ => s

/-! ### Who acts on a register (R345) -/

/-- The Serac die whose FWMODE governs a page. -/
def pageSerac : DevPage → Nat
  | .sched die | .command die | .doorbell die _ | .invalidation die | .aperture die _ => seracOfDie die
  | .fault port => portSerac port
  | .coreControl core => seracOfDie (dieOfCore core)
  | .collective k | .management k => k
  | .copyStatus k | .tableEntry k => seracOfDie (dieOfCtx k)

/-- A page that is mapped only for Deresk, or for the host in host-assisted mode. -/
def isControl : DevPage → Bool
  | .doorbell _ _ | .aperture _ _ | .copyStatus _ => false
  | _ => true

/-- The function of FWMODE to which a register belongs; DEDUCED (log entry 66). -/
def regFunction (p : DevPage) (o : Nat) : Option Nat :=
  match p with
  | .fault _ => if o < 0x20 then some fwPFAULT else none
  | .tableEntry _ => some (if o = 0 then fwLANDSZ else fwCPAGE)
  | .collective _ => if 0x100 ≤ o ∧ o < 0x180 then some fwSELTAB else none
  | .management _ => if 0x100 ≤ o then some fwDUMPTX else none
  | _ => none

/-- The actor holds an open entry of the page's fault queue. -/
def State.holdsEntry (s : State) (p : DevPage) (host : Bool) : Bool :=
  match p with
  | .fault port => (s.faultPage port).open_.any (fun e => e.host == host)
  | _ => false

/-- The actor reaches a register: the one to which FWMODE gives its function, or, of a page without one, Deresk, and the host where
some function is in host-assisted mode; who holds an open fault entry still reaches the fault page (R345). -/
def State.mayReach (s : State) (p : DevPage) (o : Nat) : Actor → Bool
  | .entitled => true
  | .thread => match regFunction p o with
    | some fn => !s.hosted (pageSerac p) fn || s.holdsEntry p false
    | none => true
  | .host => !isControl p || (match regFunction p o with
    | some fn => s.hosted (pageSerac p) fn || s.holdsEntry p true
    | none => (s.serac (pageSerac p)).fwmode != 0)

/-- An actor closes only the entries it holds (R345). -/
def State.mayClose (s : State) (p : FaultPort) (seq : BitVec 32) : Actor → Bool
  | .entitled => true
  | .thread => !(s.faultPage p).open_.any (fun e => decide (e.seq = seq) && e.host)
  | .host => !(s.faultPage p).open_.any (fun e => decide (e.seq = seq) && !e.host)

/-! ### Measurement (R343) -/

/-- A measurement register extended (R343). -/
def extendReg (old data : List Byte) : List Byte := Config.shake256 (old ++ data)

/-- Deresk extends M4 with each partition configuration it writes: the register's offset and value, DESIGN CHOICE (log entry 66). -/
def State.measurePart (s : State) (die o : Nat) (v : Word) : State :=
  if (0x100 ≤ o ∧ o < 0x500) ∨ (0x1000 ≤ o ∧ o < 0x2000) then
    s.updSerac (seracOfDie die) (fun d => { d with
      measure := d.measure.set 4 (extendReg (d.measure.getD 4 []) (leBytes 8 o ++ leBytes 8 v.toNat)) })
  else s

/-! ### All pages -/

/-- The doubleword of a page at an offset that is a multiple of 8. -/
def State.pageWord (s : State) (p : DevPage) (o : Nat) : Word :=
  match p with
  | .sched die => s.schedWord die o
  | .command die => s.commandWord die o
  | .doorbell die part => s.doorbellLoad die part o
  | .fault port => (s.faultPage port).word o
  | .coreControl core => s.coreWord core o
  | .collective k => (s.serac k).collWord o
  | .invalidation die => (s.die die).invWord o
  | .aperture die part => if o < 0x100 then s.btLoad die part o else 0
  | .management k => (s.serac k).mgmtWord o
  | .copyStatus k => s.copyStatusWord k o
  | .tableEntry k => s.entryWord k o

/-- A store of a doubleword to a register. -/
def State.pageStore (s : State) (p : DevPage) (o : Nat) (v : Word) : State :=
  match p with
  | .sched die => (s.storeSched die o v).measurePart die o v
  | .command die => s.storeCommand die o v
  | .fault port => s.storeFault port o v
  | .coreControl core => if o = 0x2008 then s.thaw (dieOfCore core) v else s
  | .collective k => s.updSerac k (fun d => d.storeColl o v)
  | .invalidation die => s.updDie die (fun d => d.storeInv o v)
  | .management k => s.updSerac k (fun d => d.storeMgmt o v)
  | .tableEntry k => s.storeEntry k o v
  | _ => s

/-- A load of 1 to 8 bytes (R46); 0 where the page is not mapped for who asks. -/
def State.regLoad (s : State) (p : DevPage) (off size : Nat) (who : Actor) : Word :=
  if !s.mayReach p (off / 8 * 8) who then 0
  else BitVec.ofNat 64 ((s.pageWord p (off / 8 * 8)).toNat / 2 ^ (8 * (off % 8)) % 2 ^ (8 * size))

/-- A store of 1 to 8 bytes: doorbells and apertures by their own rules, the bytes of a register among those it holds
(R46, R164, R286); dropped where the page is not mapped for who stores, or the entry that it closes is another's (R345). -/
def State.regStore (s : State) (p : DevPage) (off size : Nat) (v : Word) (root : Nat) (who : Actor) : State :=
  match p with
  | .doorbell die part => s.doorbellStore die part off size v
  | .aperture die part => s.btStore die part off size v root
  | _ =>
    let o := off / 8 * 8
    if !s.mayReach p o who then s
    else if (match p with | .fault port => decide (o = 0x10) && !s.mayClose port (v.extractLsb' 32 32) who | _ => false) then s
    else
    let mask := BitVec.ofNat 64 ((2 ^ (8 * size) - 1) * 2 ^ (8 * (off % 8)))
    s.pageStore p o ((s.pageWord p o &&& ~~~mask) ||| ((v <<< (8 * (off % 8))) &&& mask))

/-- REGISTER_WRITE (R3): the register keeps the bits its access codes let it. -/
def execRegisterWrite (p : DevPage) (off size : Nat) (value : Word) (s : State) : Out :=
  .next (s.regStore p off (size % 9) value 0 .entitled)

/-! ### Device-space accesses (R46) -/

/-- The register page at a device location, and the offset in it; none where no device has one there. -/
def State.deviceAt (s : State) (l : Loc) : Option (DevPage × Nat) :=
  (SMap.find s.devMap (l.pkg * 2 ^ 40 + l.pa / 4096)).map (fun x => (x.1, x.2 + l.pa % 4096))

def State.deviceLoad (s : State) (l : Loc) (size : Nat) : Word :=
  match s.deviceAt l with
  | some (p, o) => s.regLoad p o size .thread
  | none => 0

def State.deviceStore (s : State) (l : Loc) (size : Nat) (v : Word) (root : Nat) : State :=
  match s.deviceAt l with
  | some (p, o) => s.regStore p o size v root .thread
  | none => s

/-! ### Retirement (R282, R348) -/

/-- The package of a unit. -/
def retirePkg (die : Nat) : RetireUnit → Nat
  | .core k => pkgOfDie (dieOfCore k)
  | .hbmChannel _ => pkgOfDie die
  | .link k _ => k / 2

/-- The unit is out of service, or in service again. -/
def State.setRetired (s : State) (die : Nat) (u : RetireUnit) (out : Bool) : State :=
  match u with
  | .core k => s.updCore k (fun r => { r with retired := out })
  | .hbmChannel n => s.updDie die (fun d =>
      { d with retiredChannels := if out then insertKey (n % 32) d.retiredChannels else d.retiredChannels.filter (· ≠ n % 32) })
  | .link k l => s.updSerac k (fun d =>
      { d with retiredLinks := if out then insertKey (l % 24) d.retiredLinks else d.retiredLinks.filter (· ≠ l % 24) })

/-- After a retirement, and after its undoing, each die's minima are computed again; a retirement reports what then is
overcommitted, each die's (R282). -/
def State.afterRetirement (s : State) (pkg : Nat) (report : Bool) : State :=
  ((List.range 8).map (8 * pkg + ·)).foldl (fun s d => if report then (s.rescale d).overcommit d else s.rescale d) s

/-- The Serac die that keeps the record of a unit's retirement, and the record. -/
def retireRecord (die : Nat) (u : RetireUnit) : Nat × (Nat × RetireUnit) :=
  match u with
  | .core k => (seracOfDie (dieOfCore k), (dieOfCore k, .core k))
  | .hbmChannel n => (seracOfDie die, (die, .hbmChannel (n % 32)))
  | .link k l => (k, (0, .link k (l % 24)))

/-- The unit is out of service. -/
def State.isRetired (s : State) (die : Nat) : RetireUnit → Bool
  | .core k => (s.core k).retired
  | .hbmChannel n => (s.die die).retiredChannels.contains (n % 32)
  | .link k l => (s.serac k).retiredLinks.contains (l % 24)

/-- Deresk records each retirement of a unit in service in the retirement list of the flash; one that is undone leaves it (R348). -/
def State.listRetired (s : State) (die : Nat) (u : RetireUnit) (out : Bool) : State :=
  let (k, x) := retireRecord die u
  if s.isRetired die u = out then s
  else s.updSerac k (fun d => { d with flash := { d.flash with
    retireList := if out then d.flash.retireList ++ [x] else (d.flash.retireList.reverse.erase x).reverse } })

/-- RETIREMENT (R282, R348): the unit is out of service, or again in service, and recorded so; the minima of every die of its package
follow, and what a die without links can no longer reach. -/
def execRetirement (die : Nat) (x : Retire) (s : State) : Out :=
  let s1 := (s.listRetired die x.unit (!x.undo)).setRetired die x.unit (!x.undo)
  let s2 := match x.unit with | .link k _ => s1.faultSevered k | _ => s1
  .next (s2.afterRetirement (retirePkg die x.unit) (!x.undo))

end Sys2Proof.Machine
end

