-- ==== Sys2Proof/Machine/GenMem.lean ====
section
/-! DEFINITION. Loads and stores of the generator (R36, R37, R46, R108, R109). -/

namespace Sys2Proof.Machine

/-- A store of the low `n` bytes of a value within one line. -/
def lineStore (va : Word) (loc : Loc) (n : Nat) (v : Word) (poison : Bool) : LineStore :=
  let i := loc.pa % 64
  { va := BitVec.ofNat 64 (va.toNat / 64 * 64), loc := { loc with pa := loc.pa / 64 * 64 }, mask := byteMask i n
    data := BitVec.ofNat 512 (v.toNat % 2 ^ (8 * n) * 2 ^ (8 * i)), poison := poison }

/-- A load from an address (R108): device space is answered by the device (R46), every other page by the ordering machine
(R36), in this step or in a later one (log entry 8). -/
def State.genLoadAt (s : State) (c : Context) (op : BitVec 6) (va : Word) (n : Nat) (signed : Bool) (d : BitVec 6) : State :=
  if va.toNat % n ≠ 0 then s.genFault s.cur gMISALIGN 0 va
  else match translate s c va .genLoad with
    | .error x => s.genXlateFault s.cur x false
    | .ok loc =>
      let t := c.thread
      let s1 := s.cacheTranslation c va
      let s2 :=
        if loc.dev then s1.goOn c (t.setReg d (extendLoad n signed (s1.deviceLoad loc n).toNat) false) (t.pc + 4)
        else
          let l : GenLoad := { d := d, loc := loc, size := n, signed := signed, emit := t.emitSeq, before := none, age := 0 }
          let c1 := if s.late then { c with thread := { t with loads := t.loads ++ [l] } }
            else (c.performWhere s1 (fun x => decide (0 < x.age))).performLoad s1 l
          s1.goOn c1 c1.thread (t.pc + 4)
      s2.frost s.cur 3 (frostMem op 0 0 va)

/-- A store to an address (R108): into the phase buffer (R37), or to the device in program order (R46). -/
def State.genStoreAt (s : State) (c : Context) (op : BitVec 6) (va : Word) (n : Nat) (v : Word) (poison : Bool) : State :=
  if va.toNat % n ≠ 0 then s.genFault s.cur gMISALIGN 0 va
  else match translate s c va .genStore with
    | .error x => s.genXlateFault s.cur x false
    | .ok loc =>
      let t := c.thread
      let s1 := s.cacheTranslation c va
      if loc.dev then
        ((s1.goOn c { t with sideOps := t.sideOps + 1 } (t.pc + 4)).frost s.cur 3 (frostMem op 0 0 va)).deviceStore loc n v
          (c.id.s1root.getD 0)
      else match c.ord.genStore (lineStore va loc n v poison) with
        | none => s.genFault s.cur gPHASEFULL 0 va
        | some o => (s1.goOn { c with ord := o } t (t.pc + 4)).frost s.cur 3 (frostMem op 0 0 va)

/-- LDx sD, IMM(sA): a poisoned base is a use (R102). -/
def genLoad (s : State) (op : BitVec 6) (n : Nat) (signed : Bool) (i : BitVec 13) (a d : BitVec 6) : Out :=
  withThread s fun c =>
    if c.thread.regPoison a then s.poisonUse else s.genLoadAt c op (c.thread.reg a + sext13 i) n signed d

/-- STx sB, IMM(sA): a poisoned base is a use, a poisoned value poisons its line (R102). -/
def genStore (s : State) (op : BitVec 6) (n : Nat) (i : BitVec 13) (a b : BitVec 6) : Out :=
  withThread s fun c =>
    if c.thread.regPoison a then s.poisonUse
    else s.genStoreAt c op (c.thread.reg a + sext13 i) n (c.thread.reg b) (c.thread.regPoison b)

/-- Address of a relocated access (R109). -/
def zrelAddr (c : Context) (z : BitVec 4) (o : BitVec 15) : Word := c.zrel z + BitVec.ofNat 64 (8 * o.toNat)

/-- LDB (R108). -/
def execLdb (i : BitVec 13) (a d : BitVec 6) (s : State) : Out := genLoad s 0x10 1 true i a d
/-- LDH (R108). -/
def execLdh (i : BitVec 13) (a d : BitVec 6) (s : State) : Out := genLoad s 0x11 2 true i a d
/-- LDW (R108). -/
def execLdw (i : BitVec 13) (a d : BitVec 6) (s : State) : Out := genLoad s 0x12 4 true i a d
/-- LDD (R108). -/
def execLdd (i : BitVec 13) (a d : BitVec 6) (s : State) : Out := genLoad s 0x13 8 false i a d
/-- LDBU (R108). -/
def execLdbu (i : BitVec 13) (a d : BitVec 6) (s : State) : Out := genLoad s 0x14 1 false i a d
/-- LDHU (R108). -/
def execLdhu (i : BitVec 13) (a d : BitVec 6) (s : State) : Out := genLoad s 0x15 2 false i a d
/-- LDWU (R108). -/
def execLdwu (i : BitVec 13) (a d : BitVec 6) (s : State) : Out := genLoad s 0x16 4 false i a d
/-- STB (R108). -/
def execStb (i : BitVec 13) (a b : BitVec 6) (s : State) : Out := genStore s 0x18 1 i a b
/-- STH (R108). -/
def execSth (i : BitVec 13) (a b : BitVec 6) (s : State) : Out := genStore s 0x19 2 i a b
/-- STW (R108). -/
def execStw (i : BitVec 13) (a b : BitVec 6) (s : State) : Out := genStore s 0x1A 4 i a b
/-- STD (R108). -/
def execStd (i : BitVec 13) (a b : BitVec 6) (s : State) : Out := genStore s 0x1B 8 i a b
/-- LDZ (R109). -/
def execLdz (o : BitVec 15) (z : BitVec 4) (d : BitVec 6) (s : State) : Out :=
  withThread s fun c => s.genLoadAt c 0x1C (zrelAddr c z o) 8 false d
/-- STZ (R109). -/
def execStz (o : BitVec 15) (z : BitVec 4) (b : BitVec 6) (s : State) : Out :=
  withThread s fun c => s.genStoreAt c 0x1D (zrelAddr c z o) 8 (c.thread.reg b) (c.thread.regPoison b)

end Sys2Proof.Machine
end

