-- ==== Sys2Proof/Machine/Manage.lean ====
section
/-! DEFINITION. The host port, soft errors, boot, measurement, loss of power, the management port (R49, R287, R333, R337, R339-R343,
R346). -/

namespace Sys2Proof.Machine

/-! ### The host port (R49, R287, R341) -/

def Serac.booted (d : Serac) : Bool := match d.boot with | .booted _ => true | _ => false

/-- Bytes written into a list at an offset, zeros before it where it is too short. -/
def overwrite (l : List Byte) (off : Nat) (b : List Byte) : List Byte :=
  (l ++ List.replicate (off - l.length) 0).take off ++ b ++ l.drop (off + b.length)

/-- Bytes of a slot (R339). -/
def slotSize : Nat := 0x2000000 - 0x10000

def Flash.slot (f : Flash) (n : Nat) : List Byte := if n = 0 then f.slotA else f.slotB
/-- A slot holds no more than its size. -/
def Flash.setSlot (f : Flash) (n : Nat) (b : List Byte) : Flash :=
  if n = 0 then { f with slotA := b.take slotSize } else { f with slotB := b.take slotSize }

/-- The recovery window: images written into slot A or B at their places in the flash (R339, R341). -/
def Flash.recover (f : Flash) (pa : Nat) (b : List Byte) : Flash :=
  if 0x10000 ≤ pa ∧ pa < 0x10000 + slotSize then f.setSlot 0 (overwrite f.slotA (pa - 0x10000) b)
  else if 0x2000000 ≤ pa ∧ pa < 0x2000000 + slotSize then f.setSlot 1 (overwrite f.slotB (pa - 0x2000000) b)
  else f

/-- HOST_WRITE (R49, R287): applied at its home or at its register page in the order of arrival; in recovery the port reaches the
recovery window alone (R341). -/
def execHostWrite (serac pa : Nat) (data : List Byte) (s : State) : Out :=
  let d := s.serac serac
  let pkg := pkgOfSerac serac
  match d.boot with
  | .inReset => .next s
  | .recovery => .next (s.setSerac serac { d with flash := d.flash.recover pa data })
  | .booted _ =>
    let l : Loc := { pkg := pkg, pa := pa, home := 8 + serac % 2, dev := false, own := false }
    match s.deviceAt l with
    | some (p, o) => .next (if 1 ≤ data.length ∧ data.length ≤ 8 then s.regStore p o data.length (BitVec.ofNat 64 (leNat data)) 0 .host else s)
    | none => .next (s.homeWriteBytes pkg pa data false false)

/-- HOST_READ (R49): answered at the home; the answer is what the host has received last. -/
def execHostRead (serac pa n : Nat) (s : State) : Out :=
  let d := s.serac serac
  let pkg := pkgOfSerac serac
  if !d.booted then .next s
  else
    let l : Loc := { pkg := pkg, pa := pa, home := 8 + serac % 2, dev := false, own := false }
    let answer := match s.deviceAt l with
      | some (p, o) => leBytes (min n 8) (s.regLoad p o (min n 8) .host).toNat
      | none => (s.readHomeBytes none pkg pa n).map (·.1)
    .next (s.setSerac serac { d with hostRead := answer })

/-! ### Soft errors (R337) -/

def State.errorsOf (s : State) : FaultPort → SMap (Nat × Nat × Bool)
  | .cobalt d => (s.die d).errors
  | .serac k => (s.serac k).errors
def State.setErrors (s : State) (p : FaultPort) (m : SMap (Nat × Nat × Bool)) : State :=
  match p with
  | .cobalt d => s.updDie d (fun x => { x with errors := m })
  | .serac k => s.updSerac k (fun x => { x with errors := m })

/-- A corrected error of a unit of a die is counted; past the unit's threshold RETIRECAND is posted, once. -/
def State.correctedError (s : State) (p : FaultPort) (unit : Nat) : State :=
  let (n, limit, told) := SMap.getD (s.errorsOf p) unit (0, 0, false)
  let beyond := decide (limit < n + 1) && !told
  let s1 := s.setErrors p (SMap.put (s.errorsOf p) unit (n + 1, limit, told || beyond))
  if beyond then s1.post p 10 unit (BitVec.ofNat 64 (n + 1)) 0 else s1

/-- A line of a chunk that a chunk buffer holds is poisoned. -/
def State.poisonChunk (s : State) (coord comm inst index line : Nat) : State :=
  { s with runs := s.runs.map (fun r =>
      if r.coord = coord ∧ r.comm = comm ∧ r.inst = inst then
        { r with chunks := (r.chunks.zip (List.range r.chunks.length)).map (fun x =>
            if x.2 ≠ index then x.1
            else (x.1.1, x.1.2.1, x.1.2.2.1, (x.1.2.2.2.zip (List.range x.1.2.2.2.length)).map (fun b =>
              (b.1.1, b.1.2 || decide (b.2 / 64 = line))))) }
      else r) }

def Stream.poisonSlot (t : Stream) (slot : Nat) : Stream :=
  { t with slots := SMap.put t.slots slot { SMap.getD t.slots slot { data := 0, tag := 0, poison := false } with poison := true } }

/-- The machine check of a context (R328, R337). -/
def machineCheck : TrapCause := { cls := 2, code := 3, sub := 0, tval := 0 }

/-- SRAM_ECC_ERROR (R337). -/
def execSramEccError (site : EccSite) (s : State) : Out :=
  .next (match site with
    | .corrected p unit => s.correctedError p unit
    | .memLine pkg line => s.tagLine pkg line false true
    | .bufLine core buf line => s.updCore core (fun r =>
        let k := buf * 2 ^ 16 + line
        { r with lines := SMap.put r.lines k { r.line k with poison := true } })
    | .vreg k r => s.updCtx k (fun c => { c with be := { c.be with vec := { c.be.vec with
        poison := c.be.vec.poison ||| BitVec.ofNat 1024 (2 ^ (r % 1024)) } } })
    | .pred k q => s.updCtx k (fun c => { c with be := { c.be with vec := { c.be.vec with
        qpoison := c.be.vec.qpoison ||| BitVec.ofNat 8 (2 ^ (q % 8)) } } })
    | .latch k l => s.updCtx k (fun c => { c with be := { c.be with vec := { c.be.vec with
        lpoison := c.be.vec.lpoison ||| BitVec.ofNat 4 (2 ^ (l % 4)) } } })
    | .chunk coord comm inst index line => s.poisonChunk coord comm inst index line
    | .sreg k r => s.updCtx k (fun c =>
        if r % 64 = 0 then c else { c with thread := { c.thread with rpoison := setBit64 c.thread.rpoison (r % 64) true } })
    | .stream k sb slot => s.updCtx k (fun c => { c with be :=
        if sb = 0 then { c.be with sa := c.be.sa.poisonSlot slot } else { c.be with sb := c.be.sb.poisonSlot slot } })
    | .composer k i => s.updCtx k (fun c => { c with thread := { c.thread with cpoison := setBit8 c.thread.cpoison (i % 7) true } })
    | .phaseEntry k n => s.updCtx k (fun c => { c with ord := { c.ord with
        pbuf := updateNth c.ord.pbuf n (fun e => { e with poison := true }) } })
    | .landing k n => s.updCtx k (fun c => { c with fl := { c.fl with
        landings := updateNth c.fl.landings n (fun l => { l with poison := true }) } })
    | .context k => match s.ctx k with
      | some c => if c.status == .halted || c.status == .dead then s else s.beginFreeze k machineCheck true
      | none => s
    | .frost core e => s.updCore core (fun r =>
        { r with frost := r.frost.set e ((r.frost.at_ e).1, BitVec.ofNat 4 15 ++ (r.frost.at_ e).2.extractLsb' 96 28 ++ 0#96) }))

/-! ### Flash records (R339) -/

/-- One bit of the CRC-32 of IEEE 802.3, reflected. -/
def crcBit (c : BitVec 32) : BitVec 32 := if c.getLsbD 0 then (c >>> 1) ^^^ 0xEDB88320 else c >>> 1
def crcByte (c : BitVec 32) (b : Byte) : BitVec 32 := (List.range 8).foldl (fun c _ => crcBit c) (c ^^^ b.setWidth 32)
def crc32 (b : List Byte) : BitVec 32 := ~~~(b.foldl crcByte (BitVec.allOnes 32))

def FlashCopy.body (c : FlashCopy) : List Byte := leBytes 4 c.magic.toNat ++ leBytes 4 c.value.toNat ++ leBytes 4 c.slot.toNat
def FlashCopy.bytes (c : FlashCopy) : List Byte := c.body ++ leBytes 4 c.crc.toNat
def FlashCopy.make (magic value slot : BitVec 32) : FlashCopy :=
  let c : FlashCopy := { magic := magic, value := value, slot := slot, crc := 0 }
  { c with crc := crc32 c.body }

def markerMagic : BitVec 32 := 0x4B52414D
def countMagic : BitVec 32 := 0x544E4342

/-- A copy is valid: right magic, matching CRC, its slot field 0 or 1. -/
def FlashCopy.valid (c : FlashCopy) (magic : BitVec 32) : Bool :=
  c.magic == magic && c.crc == crc32 c.body && decide (c.slot.toNat ≤ 1)

/-! ### Images (R340) -/

def imageField (img : List Byte) (off n : Nat) : Nat := recField img off n
def imageVersion (img : List Byte) : Nat := imageField img 4 4
def imageBodyLen (img : List Byte) : Nat := imageField img 8 8
def imageKey (img : List Byte) : List Byte := (img.drop 64).take 64
def imageSigned (img : List Byte) : List Byte := img.take (128 + imageBodyLen img)
def imageSignature (img : List Byte) : List Byte := (img.drop (128 + imageBodyLen img)).take 49856

/-- A slot verifies: it holds an image, the digest of its key is the boot ROM's, so is the header's, and its signature verifies. -/
def slotVerifies (img : List Byte) : Bool :=
  decide (128 + imageBodyLen img + 49856 ≤ img.length) &&
  (Config.shake256 (imageKey img) == Config.romDigest) && ((img.drop 16).take 32 == Config.romDigest) &&
  Config.slhVerify (imageKey img) (imageSigned img) (imageSignature img)

/-! ### Boot (R341, R343) -/

/-- A copy of a pair, written. -/
def Flash.setBoot (f : Flash) (first : Bool) (c : FlashCopy) : Flash := if first then { f with boot0 := c } else { f with boot1 := c }
def Flash.setMarker (f : Flash) (first : Bool) (c : FlashCopy) : Flash := if first then { f with marker0 := c } else { f with marker1 := c }

/-- Step 1 writes copy 0: it is invalid, or holds the lower count, or both are valid and equal; else copy 1. -/
def Flash.countsFirst (f : Flash) : Bool :=
  !f.boot0.valid countMagic || (f.boot1.valid countMagic && decide (f.boot0.value.toNat ≤ f.boot1.value.toNat))

/-- Step 1: this boot's count, and the flash with the written copy. -/
def Flash.countBoot (f : Flash) : BitVec 32 × Flash :=
  let n0 := if f.boot0.valid countMagic then f.boot0.value.toNat else 0
  let n1 := if f.boot1.valid countMagic then f.boot1.value.toNat else 0
  let n := BitVec.ofNat 32 (max n0 n1 + 1)
  (n, f.setBoot f.countsFirst (FlashCopy.make countMagic n 0))

/-- Step 2: the marker copy kept. -/
def Flash.kept (f : Flash) : Option FlashCopy :=
  let v0 := f.marker0.valid markerMagic
  let v1 := f.marker1.valid markerMagic
  if v0 && (!v1 || decide (f.marker1.value.toNat ≤ f.marker0.value.toNat)) then some f.marker0
  else if v1 then some f.marker1 else none

/-- Steps 3 to 5: the slot booted, none in recovery. -/
def Flash.bootSlot (f : Flash) : Option Nat :=
  let a := slotVerifies f.slotA
  let b := slotVerifies f.slotB
  match f.kept with
  | some m =>
    let n := m.slot.toNat
    if slotVerifies (f.slot n) then some n else if slotVerifies (f.slot (1 - n)) then some (1 - n) else none
  | none =>
    if a && b then some (if imageVersion f.slotA < imageVersion f.slotB then 1 else 0)
    else if a then some 0 else if b then some 1 else none

/-! ### Updates (R342) -/

/-- The slot that the kept marker does not name; with no marker kept the one that was not booted (log entry 66). -/
def Flash.spareSlot (f : Flash) (booted : Nat) : Nat := 1 - (match f.kept with | some m => m.slot.toNat | none => booted)

/-- The marker copy that is invalid or holds the lower sequence is copy 0; the other is left untouched. -/
def Flash.marksFirst (f : Flash) : Bool :=
  !f.marker0.valid markerMagic || (f.marker1.valid markerMagic && decide (f.marker0.value.toNat < f.marker1.value.toNat))

/-- Step 2's copy: the kept sequence plus 1, the new slot. -/
def Flash.nextMarker (f : Flash) (slot : Nat) : FlashCopy :=
  FlashCopy.make markerMagic ((match f.kept with | some m => m.value | none => 0) + 1) (BitVec.ofNat 32 slot)

/-- Deresk's update to an image: the slot, verified in place, then the marker copy; `torn` is a loss of power while that is written. -/
def Flash.update (f : Flash) (booted : Nat) (img : List Byte) (torn : Bool) : Flash :=
  let n := f.spareSlot booted
  let f1 := f.setSlot n img
  if slotVerifies (f1.slot n) then f1.setMarker f.marksFirst (if torn then FlashCopy.blank else f.nextMarker n) else f1

/-! ### Boot map (R348) -/

/-- Physical cores of a Cobalt die beyond its 64 (spec/00). -/
def spareCores : Nat := 8

/-- Cores of a die that the boot map leaves disabled: those retired after the die's spare cores have all taken a retired core's place. -/
def Flash.disabled (f : Flash) (die : Nat) : List Nat :=
  (f.retireList.filterMap (fun x => match x.2 with
    | .core k => if x.1 = die then some k else none
    | _ => none)).drop spareCores

/-- Channels of a die, and links of a Serac die, that are retired. -/
def Flash.channels (f : Flash) (die : Nat) : List Nat :=
  f.retireList.foldl (fun l x => match x.2 with | .hbmChannel n => if x.1 = die then insertKey n l else l | _ => l) []
def Flash.links (f : Flash) (serac : Nat) : List Nat :=
  f.retireList.foldl (fun l x => match x.2 with | .link k n => if k = serac then insertKey n l else l | _ => l) []

/-- A spare physical core takes a retired one's place, in its state at reset; Deresk ends the contexts that were frozen with that
one (R282, R348; log entry 68). -/
def State.spareIn (s : State) (core : Nat) : State :=
  ((s.contexts.filter (fun p => decide (p.2.coreKey = core) && !p.2.isFirmware && p.2.status != .halted && p.2.status != .dead)).foldl
    (fun s p => s.endContext p.1 .dead) s).setCore core Core.reset

/-- The boot map is applied to the Cobalt dies of a Serac die. -/
def State.applyBootMap (s : State) (serac : Nat) (f : Flash) : State :=
  ((List.range 4).map (4 * serac + ·)).foldl (fun s die =>
    ((dieCores die).foldl (fun (s : State) k =>
      if (s.core k).retired = (f.disabled die).contains k then s
      else if (s.core k).retired then s.spareIn k
      else s.setRetired die (.core k) true) s).updDie die (fun d => { d with retiredChannels := f.channels die })) s

/-- Management core j starts in the booted image; its address and start are Deresk's (log entries 14 and 66). -/
def managementStart (serac j : Nat) : Context :=
  { agentCtx (4 * serac) 0 0 with
    id := { (agentCtx (4 * serac) 0 0).id with s1root := none }
    status := .resident, coreKey := managementCore (4 * serac) j
    thread := { (agentCtx (4 * serac) 0 0).thread with pc := Config.imageEntry j } }

/-- The management cores of a Serac die start, or have stopped (R341, R344). -/
def State.startManagement (s : State) (serac : Nat) (run : Bool) : State :=
  (List.range 4).foldl (fun (s : State) j =>
    if run then s.setCtx (managementKey serac j) (managementStart serac j)
    else { s with contexts := SMap.drop s.contexts (managementKey serac j) }) s

/-- M0 to M3 as the boot ROM extends them; M4 is Deresk's. -/
def Flash.measures (f : Flash) (slot : Nat) : List (List Byte) :=
  let img := f.slot slot
  let kept := match f.kept with | some m => m.bytes | none => []
  [extendReg [] Config.romImage, extendReg [] (img.take 64 ++ (img.drop 128).take (imageBodyLen img)),
   extendReg [] (kept ++ leBytes 4 slot), extendReg [] ((Config.bootMapBytes f.retireList ++ List.replicate 0xC000 0).take 0xC000), []]

/-- The flash that a reset finds: an update that Deresk has made in a booted die stands in it (R342). -/
def Serac.updated (d : Serac) (update : Option (List Byte)) : Flash :=
  match update, d.boot with
  | some img, .booted n => d.flash.update n img false
  | _, _ => d.flash

/-- RESET_BOOT (R341, R342, R344, R348): the die is reset, its flash stays; the boot ROM counts the boot and boots a slot, whose boot
map and threads are Deresk's, or enters recovery. -/
def execResetBoot (b : Reboot) (s0 : State) : Out :=
  let serac := b.serac
  let s := s0.loseRuns (· == serac)
  let (n, f) := ((s.serac serac).updated b.update).countBoot
  let d : Serac := { Serac.reset with flash := f, bootCount := n, retiredLinks := f.links serac }
  .next (match f.bootSlot with
    | some slot => ((s.setSerac serac { d with boot := .booted slot, measure := f.measures slot }).applyBootMap serac f).startManagement serac true
    | none => (s.setSerac serac { d with boot := .recovery }).startManagement serac false)

/-- SPDM_MEASUREMENT (R343): the measurements with the requester's nonce, signed with the package's identity key. -/
def execSpdmMeasurement (serac : Nat) (nonce : List Byte) (s : State) : Out :=
  let d := s.serac serac
  let m := d.measure.flatten ++ nonce
  .next (if d.booted then s.setSerac serac { d with spdmAnswer := m ++ Config.slhSign m } else s)

/-- DUMP_KEY_DELIVERY (R333): the dump engine has the tenant's key; Deresk, which loads it, gets it wrapped alone. -/
def execDumpKeyDelivery (serac : Nat) (tenant : BitVec 16) (key : BitVec 256) (s : State) : Out :=
  let d := s.serac serac
  .next (if d.booted then s.setSerac serac { d with
      dumpKeys := SMap.put d.dumpKeys tenant.toNat key
      mgmtInbox := d.mgmtInbox ++ [leBytes 2 tenant.toNat ++ Config.wrapKey key] }
    else s)

/-! ### Loss of power (R341, R342) -/

/-- A torn write leaves the copy, or the slot, that was being written and nothing else: the boot ROM's boot-count copy; in a booted die
the slot that the kept marker does not name, and then the marker copy that is not the kept one; in recovery the slot the host writes. After
step 2 of an update both stand. -/
def Serac.tear (d : Serac) (serac : Nat) : FlashTear → Flash
  | .bootCount k => if k ≠ serac then d.flash else d.flash.setBoot d.flash.countsFirst FlashCopy.blank
  | .slot k n part =>
    if k ≠ serac then d.flash
    else match d.boot with
      | .booted b => d.flash.setSlot (d.flash.spareSlot b) part
      | .recovery => d.flash.setSlot n part
      | .inReset => d.flash
  | .marker k img =>
    if k ≠ serac then d.flash
    else match d.boot with
      | .booted b => d.flash.update b img true
      | _ => d.flash
  | .updated k img => if k ≠ serac then d.flash else d.updated (some img)

def Serac.powerOff (d : Serac) (k : Nat) (torn : Option FlashTear) : Serac :=
  { Serac.reset with flash := match torn with | some t => d.tear k t | none => d.flash }

/-- POWER_LOSS (R341): the package stops; its flash alone keeps its contents, but for a write the loss tears. -/
def execPowerLoss (pkg : Nat) (torn : Option FlashTear) (s : State) : Out :=
  .next { s with
    mem := s.mem.filter (fun c => decide (c.1 / 2 ^ 52 ≠ pkg))
    poison := s.poison.filter (fun k => decide (k / 2 ^ 46 ≠ pkg))
    ownPast := s.ownPast.filter (fun p => decide (p.key / 2 ^ 46 ≠ pkg) &&
      (SMap.find s.graphs p.graph).all (fun g => decide (pkgOfDie g.queueDie ≠ pkg)))
    contexts := s.contexts.filter (fun c => decide (c.2.pkg ≠ pkg))
    cores := s.cores.filter (fun c => decide (c.1 / 512 ≠ pkg))
    dies := s.dies.filter (fun d => decide (d.1 / 8 ≠ pkg))
    seracs := s.seracs.map (fun d => if d.1 / 2 = pkg then (d.1, d.2.powerOff d.1 torn) else d)
    graphs := s.graphs.filter (fun g => decide (pkgOfDie g.2.queueDie ≠ pkg))
    runs := (s.loseRuns (fun k => decide (pkgOfSerac k = pkg))).runs }

/-- Deresk updates the firmware of a running die: both steps; a loss of power before they are done is POWER_LOSS's (R342). -/
def Serac.update (img : List Byte) (d : Serac) : Serac := { d with flash := d.updated (some img) }

/-- REDFISH_REQUEST (R346, R342): the request reaches Deresk through the port of Serac die 0, which answers it there, and may update the
firmware of a die of the package on it; a die that has not booted has no Deresk. -/
def execRedfishRequest (pkg : Nat) (request : List Byte) (s : State) : Out :=
  if !(s.serac (2 * pkg)).booted then .next s
  else
    let s1 := s.updSerac (2 * pkg) (fun d =>
      { d with mgmtInbox := d.mgmtInbox ++ [request], portAnswers := d.portAnswers ++ [Config.redfishAnswer s.freeCount request] })
    .next (match Config.redfishUpdate s.freeCount request with
      | none => s1
      | some u => s1.updSerac (2 * pkg + if u.second then 1 else 0) (Serac.update u.image))

end Sys2Proof.Machine
end

