-- ==== Sys2Proof/Machine/Dispatch.lean ====
section
/-! DEFINITION. The meaning of every instruction: one arm per row of the opcode table. -/

namespace Sys2Proof.Machine

/-- The meaning of an instruction in a state. -/
def exec (i : Instr) (s : State) : Host.Outcome State Fault Refusal :=
  match i with
  | .add b a d => Sys2Proof.Machine.execAdd b a d s
  | .sub b a d => Sys2Proof.Machine.execSub b a d s
  | .mul b a d => Sys2Proof.Machine.execMul b a d s
  | .mulh b a d => Sys2Proof.Machine.execMulh b a d s
  | .div b a d => Sys2Proof.Machine.execDiv b a d s
  | .divu b a d => Sys2Proof.Machine.execDivu b a d s
  | .rem b a d => Sys2Proof.Machine.execRem b a d s
  | .remu b a d => Sys2Proof.Machine.execRemu b a d s
  | .and b a d => Sys2Proof.Machine.execAnd b a d s
  | .or b a d => Sys2Proof.Machine.execOr b a d s
  | .xor b a d => Sys2Proof.Machine.execXor b a d s
  | .shl b a d => Sys2Proof.Machine.execShl b a d s
  | .shr b a d => Sys2Proof.Machine.execShr b a d s
  | .sra b a d => Sys2Proof.Machine.execSra b a d s
  | .slt b a d => Sys2Proof.Machine.execSlt b a d s
  | .sltu b a d => Sys2Proof.Machine.execSltu b a d s
  | .min b a d => Sys2Proof.Machine.execMin b a d s
  | .max b a d => Sys2Proof.Machine.execMax b a d s
  | .minu b a d => Sys2Proof.Machine.execMinu b a d s
  | .maxu b a d => Sys2Proof.Machine.execMaxu b a d s
  | .clz a d => Sys2Proof.Machine.execClz a d s
  | .popc a d => Sys2Proof.Machine.execPopc a d s
  | .addi imm a d => Sys2Proof.Machine.execAddi imm a d s
  | .andi imm a d => Sys2Proof.Machine.execAndi imm a d s
  | .ori imm a d => Sys2Proof.Machine.execOri imm a d s
  | .xori imm a d => Sys2Proof.Machine.execXori imm a d s
  | .shli imm a d => Sys2Proof.Machine.execShli imm a d s
  | .shri imm a d => Sys2Proof.Machine.execShri imm a d s
  | .srai imm a d => Sys2Proof.Machine.execSrai imm a d s
  | .slti imm a d => Sys2Proof.Machine.execSlti imm a d s
  | .sltiu imm a d => Sys2Proof.Machine.execSltiu imm a d s
  | .lui imm d => Sys2Proof.Machine.execLui imm d s
  | .pcadd imm d => Sys2Proof.Machine.execPcadd imm d s
  | .ldb imm a d => Sys2Proof.Machine.execLdb imm a d s
  | .ldh imm a d => Sys2Proof.Machine.execLdh imm a d s
  | .ldw imm a d => Sys2Proof.Machine.execLdw imm a d s
  | .ldd imm a d => Sys2Proof.Machine.execLdd imm a d s
  | .ldbu imm a d => Sys2Proof.Machine.execLdbu imm a d s
  | .ldhu imm a d => Sys2Proof.Machine.execLdhu imm a d s
  | .ldwu imm a d => Sys2Proof.Machine.execLdwu imm a d s
  | .stb imm a b => Sys2Proof.Machine.execStb imm a b s
  | .sth imm a b => Sys2Proof.Machine.execSth imm a b s
  | .stw imm a b => Sys2Proof.Machine.execStw imm a b s
  | .std imm a b => Sys2Proof.Machine.execStd imm a b s
  | .ldz o z d => Sys2Proof.Machine.execLdz o z d s
  | .stz o z b => Sys2Proof.Machine.execStz o z b s
  | .beq imm b a => Sys2Proof.Machine.execBeq imm b a s
  | .bne imm b a => Sys2Proof.Machine.execBne imm b a s
  | .blt imm b a => Sys2Proof.Machine.execBlt imm b a s
  | .bge imm b a => Sys2Proof.Machine.execBge imm b a s
  | .bltu imm b a => Sys2Proof.Machine.execBltu imm b a s
  | .bgeu imm b a => Sys2Proof.Machine.execBgeu imm b a s
  | .jal imm d => Sys2Proof.Machine.execJal imm d s
  | .jalr imm a d => Sys2Proof.Machine.execJalr imm a d s
  | .loop l c => Sys2Proof.Machine.execLoop l c s
  | .loopi n l => Sys2Proof.Machine.execLoopi n l s
  | .lbrk => Sys2Proof.Machine.execLbrk s
  | .lidx k d => Sys2Proof.Machine.execLidx k d s
  | .bset a s1 => Sys2Proof.Machine.execBset a s1 s
  | .bfld a w p s1 => Sys2Proof.Machine.execBfld a w p s1 s
  | .bldt o a s1 => Sys2Proof.Machine.execBldt o a s1 s
  | .bhdr a => Sys2Proof.Machine.execBhdr a s
  | .emit c h s1 p r m => Sys2Proof.Machine.execEmit c h s1 p r m s
  | .emitm o a => Sys2Proof.Machine.execEmitm o a s
  | .nset a f n => Sys2Proof.Machine.execNset a f n s
  | .csrr c d => Sys2Proof.Machine.execCsrr c d s
  | .csrw c a d => Sys2Proof.Machine.execCsrw c a d s
  | .phaseg s1 => Sys2Proof.Machine.execPhaseg s1 s
  | .gchk a => Sys2Proof.Machine.execGchk a s
  | .spin => Sys2Proof.Machine.execSpin s
  | .yield => Sys2Proof.Machine.execYield s
  | .halt => Sys2Proof.Machine.execHalt s
  | .trapc c => Sys2Proof.Machine.execTrapc c s
  | .xret => Sys2Proof.Machine.execXret s
  | .cpost a d => Sys2Proof.Machine.execCpost a d s
  | .cqry a d => Sys2Proof.Machine.execCqry a d s
  | .drainq => Sys2Proof.Machine.execDrainq s
  | .illegalInstruction w => Sys2Proof.Machine.execIllegalInstruction w s
  | .nop slot => Sys2Proof.Machine.execNop slot s
  | .fmtset acc b a => Sys2Proof.Machine.execFmtset acc b a s
  | .qcfgSlack slack eng => Sys2Proof.Machine.execQcfgSlack slack eng s
  | .qcfgPort rv slot bank => Sys2Proof.Machine.execQcfgPort rv slot bank s
  | .stepReg n sel slot => Sys2Proof.Machine.execStepReg n sel slot s
  | .waitw bytes ch => Sys2Proof.Machine.execWaitw bytes ch s
  | .sadv beats sb => Sys2Proof.Machine.execSadv beats sb s
  | .mwait c => Sys2Proof.Machine.execMwait c s
  | .ckpt => Sys2Proof.Machine.execCkpt s
  | .prog => Sys2Proof.Machine.execProg s
  | .sync => Sys2Proof.Machine.execSync s
  | .vld w => Sys2Proof.Machine.execVld w s
  | .vst w => Sys2Proof.Machine.execVst w s
  | .vldg w => Sys2Proof.Machine.execVldg w s
  | .vldgs w => Sys2Proof.Machine.execVldgs w s
  | .vstg w => Sys2Proof.Machine.execVstg w s
  | .vgth w => Sys2Proof.Machine.execVgth w s
  | .vgths w => Sys2Proof.Machine.execVgths w s
  | .vsct w => Sys2Proof.Machine.execVsct w s
  | .phase => Sys2Proof.Machine.execPhase s
  | .pftch w => Sys2Proof.Machine.execPftch w s
  | .fill w => Sys2Proof.Machine.execFill w s
  | .fills w => Sys2Proof.Machine.execFills w s
  | .feed w => Sys2Proof.Machine.execFeed w s
  | .feedt w => Sys2Proof.Machine.execFeedt w s
  | .drain w => Sys2Proof.Machine.execDrain w s
  | .addw w => Sys2Proof.Machine.execAddw w s
  | .rput w => Sys2Proof.Machine.execRput w s
  | .cresm w => Sys2Proof.Machine.execCresm w s
  | .cclr w => Sys2Proof.Machine.execCclr w s
  | .aadd w => Sys2Proof.Machine.execAadd w s
  | .amin w => Sys2Proof.Machine.execAmin w s
  | .amax w => Sys2Proof.Machine.execAmax w s
  | .aand w => Sys2Proof.Machine.execAand w s
  | .aor w => Sys2Proof.Machine.execAor w s
  | .axor w => Sys2Proof.Machine.execAxor w s
  | .aswp w => Sys2Proof.Machine.execAswp w s
  | .acas w => Sys2Proof.Machine.execAcas w s
  | .red w => Sys2Proof.Machine.execRed w s
  | .arv w => Sys2Proof.Machine.execArv w s
  | .arvd w => Sys2Proof.Machine.execArvd w s
  | .bwait w => Sys2Proof.Machine.execBwait w s
  | .btest w => Sys2Proof.Machine.execBtest w s
  | .sig w => Sys2Proof.Machine.execSig w s
  | .swait w => Sys2Proof.Machine.execSwait w s
  | .uli w => Sys2Proof.Machine.execUli w s
  | .sfence w => Sys2Proof.Machine.execSfence w s
  | .brst w => Sys2Proof.Machine.execBrst w s
  | .mma w => Sys2Proof.Machine.execMma w s
  | .mld w => Sys2Proof.Machine.execMld w s
  | .mldt w => Sys2Proof.Machine.execMldt w s
  | .mst w => Sys2Proof.Machine.execMst w s
  | .mstq w => Sys2Proof.Machine.execMstq w s
  | .mclr w => Sys2Proof.Machine.execMclr w s
  | .macc w => Sys2Proof.Machine.execMacc w s
  | .vadd p w => Sys2Proof.Machine.execVadd p w s
  | .vsub p w => Sys2Proof.Machine.execVsub p w s
  | .vmul p w => Sys2Proof.Machine.execVmul p w s
  | .vfma p w => Sys2Proof.Machine.execVfma p w s
  | .vfms p w => Sys2Proof.Machine.execVfms p w s
  | .vmin p w => Sys2Proof.Machine.execVmin p w s
  | .vmax p w => Sys2Proof.Machine.execVmax p w s
  | .vabs p w => Sys2Proof.Machine.execVabs p w s
  | .vneg p w => Sys2Proof.Machine.execVneg p w s
  | .vrcp p w => Sys2Proof.Machine.execVrcp p w s
  | .vrsq p w => Sys2Proof.Machine.execVrsq p w s
  | .vexp2 p w => Sys2Proof.Machine.execVexp2 p w s
  | .vdiv p w => Sys2Proof.Machine.execVdiv p w s
  | .vand p w => Sys2Proof.Machine.execVand p w s
  | .vor p w => Sys2Proof.Machine.execVor p w s
  | .vxor p w => Sys2Proof.Machine.execVxor p w s
  | .vnot p w => Sys2Proof.Machine.execVnot p w s
  | .vshl p w => Sys2Proof.Machine.execVshl p w s
  | .vshr p w => Sys2Proof.Machine.execVshr p w s
  | .vsra p w => Sys2Proof.Machine.execVsra p w s
  | .vshli p w => Sys2Proof.Machine.execVshli p w s
  | .vshri p w => Sys2Proof.Machine.execVshri p w s
  | .vmulh p w => Sys2Proof.Machine.execVmulh p w s
  | .vclz p w => Sys2Proof.Machine.execVclz p w s
  | .vwadd p w => Sys2Proof.Machine.execVwadd p w s
  | .vwacc p w => Sys2Proof.Machine.execVwacc p w s
  | .vwmul p w => Sys2Proof.Machine.execVwmul p w s
  | .vcmp p w => Sys2Proof.Machine.execVcmp p w s
  | .vsel p w => Sys2Proof.Machine.execVsel p w s
  | .qop p w => Sys2Proof.Machine.execQop p w s
  | .vcvt p w => Sys2Proof.Machine.execVcvt p w s
  | .vqnt p w => Sys2Proof.Machine.execVqnt p w s
  | .vdqnt p w => Sys2Proof.Machine.execVdqnt p w s
  | .vscan p w => Sys2Proof.Machine.execVscan p w s
  | .vred p w => Sys2Proof.Machine.execVred p w s
  | .vperm p w => Sys2Proof.Machine.execVperm p w s
  | .vbcst p w => Sys2Proof.Machine.execVbcst p w s
  | .vshfl p w => Sys2Proof.Machine.execVshfl p w s
  | .viota p w => Sys2Proof.Machine.execViota p w s
  | .vmov p w => Sys2Proof.Machine.execVmov p w s
  | .vmovi p w => Sys2Proof.Machine.execVmovi p w s
  | .vldi p w => Sys2Proof.Machine.execVldi p w s
  | .vchk p w => Sys2Proof.Machine.execVchk p w s
  | .vclrp p w => Sys2Proof.Machine.execVclrp p w s
  | .vstat p w => Sys2Proof.Machine.execVstat p w s
  | .spinLimitReached ctx => Sys2Proof.Machine.execSpinLimitReached ctx s
  | .reslate ctx => Sys2Proof.Machine.execReslate ctx s
  | .coldcand ctx => Sys2Proof.Machine.execColdcand ctx s
  | .sliceEnd ctx => Sys2Proof.Machine.execSliceEnd ctx s
  | .slotTableUpdate core => Sys2Proof.Machine.execSlotTableUpdate core s
  | .checkpointLatest ctx => Sys2Proof.Machine.execCheckpointLatest ctx s
  | .watchdogFire ctx => Sys2Proof.Machine.execWatchdogFire ctx s
  | .intervalCheckpoint ctx => Sys2Proof.Machine.execIntervalCheckpoint ctx s
  | .fatalTrap ctx => Sys2Proof.Machine.execFatalTrap ctx s
  | .contextDead ctx => Sys2Proof.Machine.execContextDead ctx s
  | .rimeDump ctx => Sys2Proof.Machine.execRimeDump ctx s
  | .contextDrain ctx => Sys2Proof.Machine.execContextDrain ctx s
  | .rollback ctx => Sys2Proof.Machine.execRollback ctx s
  | .contextRestore ctx => Sys2Proof.Machine.execContextRestore ctx s
  | .coreCycle core env => Sys2Proof.Machine.execCoreCycle core env s
  | .bundleCommit ctx => Sys2Proof.Machine.execBundleCommit ctx s
  | .vectorResultDue ctx => Sys2Proof.Machine.execVectorResultDue ctx s
  | .fmtTakesEffect ctx => Sys2Proof.Machine.execFmtTakesEffect ctx s
  | .landingDataArrives ctx entry => Sys2Proof.Machine.execLandingDataArrives ctx entry s
  | .timedLanding ctx => Sys2Proof.Machine.execTimedLanding ctx s
  | .loadPerform ctx which => Sys2Proof.Machine.execLoadPerform ctx which s
  | .transitWriteApply ctx k => Sys2Proof.Machine.execTransitWriteApply ctx k s
  | .snapshotLineDrop ctx line => Sys2Proof.Machine.execSnapshotLineDrop ctx line s
  | .phaseSend ctx k => Sys2Proof.Machine.execPhaseSend ctx k s
  | .phaseComplete ctx k => Sys2Proof.Machine.execPhaseComplete ctx k s
  | .haltComplete ctx => Sys2Proof.Machine.execHaltComplete ctx s
  | .drainqComplete ctx => Sys2Proof.Machine.execDrainqComplete ctx s
  | .spinTimeout ctx => Sys2Proof.Machine.execSpinTimeout ctx s
  | .bundleTrap ctx => Sys2Proof.Machine.execBundleTrap ctx s
  | .uliDelivery ctx => Sys2Proof.Machine.execUliDelivery ctx s
  | .copyOpBegin ctx ch => Sys2Proof.Machine.execCopyOpBegin ctx ch s
  | .copyChunk ctx ch ahead => Sys2Proof.Machine.execCopyChunk ctx ch ahead s
  | .feedBeatLand ctx ch => Sys2Proof.Machine.execFeedBeatLand ctx ch s
  | .addwRowWrite ctx ch row => Sys2Proof.Machine.execAddwRowWrite ctx ch row s
  | .fragmentArrival ctx ch => Sys2Proof.Machine.execFragmentArrival ctx ch s
  | .fragmentResponse ctx ch => Sys2Proof.Machine.execFragmentResponse ctx ch s
  | .rputBackoffExpiry ctx ch => Sys2Proof.Machine.execRputBackoffExpiry ctx ch s
  | .barrierCredit k => Sys2Proof.Machine.execBarrierCredit k s
  | .matrixOpBegin core => Sys2Proof.Machine.execMatrixOpBegin core s
  | .mmaGroup ctx k => Sys2Proof.Machine.execMmaGroup ctx k s
  | .matrixOpComplete ctx k => Sys2Proof.Machine.execMatrixOpComplete ctx k s
  | .syncOpPerform ctx k => Sys2Proof.Machine.execSyncOpPerform ctx k s
  | .syncAnswerArrival ctx k => Sys2Proof.Machine.execSyncAnswerArrival ctx k s
  | .waiterBusyResend ctx => Sys2Proof.Machine.execWaiterBusyResend ctx s
  | .asyncLogRecord ctx k => Sys2Proof.Machine.execAsyncLogRecord ctx k s
  | .invalidateAll die => Sys2Proof.Machine.execInvalidateAll die s
  | .invalidateVaRange die => Sys2Proof.Machine.execInvalidateVaRange die s
  | .invalidateIpaRange die part => Sys2Proof.Machine.execInvalidateIpaRange die part s
  | .invalidateRoot die => Sys2Proof.Machine.execInvalidateRoot die s
  | .invalidatePartition die part => Sys2Proof.Machine.execInvalidatePartition die part s
  | .invalidationComplete die => Sys2Proof.Machine.execInvalidationComplete die s
  | .btStart die part off size value root => Sys2Proof.Machine.execBtStart die part off size value root s
  | .btTakeStart die eng => Sys2Proof.Machine.execBtTakeStart die eng s
  | .btChunk die eng => Sys2Proof.Machine.execBtChunk die eng s
  | .btComplete die eng => Sys2Proof.Machine.execBtComplete die eng s
  | .queueStart die h => Sys2Proof.Machine.execQueueStart die h s
  | .queueResume die h => Sys2Proof.Machine.execQueueResume die h s
  | .queuePark die h => Sys2Proof.Machine.execQueuePark die h s
  | .queueDisable die h => Sys2Proof.Machine.execQueueDisable die h s
  | .doorbell die part off size value => Sys2Proof.Machine.execDoorbell die part off size value s
  | .packetFetch die h => Sys2Proof.Machine.execPacketFetch die h s
  | .pktNop die h => Sys2Proof.Machine.execPktNop die h s
  | .invoke die h => Sys2Proof.Machine.execInvoke die h s
  | .invokeStart die h => Sys2Proof.Machine.execInvokeStart die h s
  | .taskGraphEnd die h => Sys2Proof.Machine.execTaskGraphEnd die h s
  | .ib die h => Sys2Proof.Machine.execIb die h s
  | .pred die h => Sys2Proof.Machine.execPred die h s
  | .pktLoop die h => Sys2Proof.Machine.execPktLoop die h s
  | .pktWait die h => Sys2Proof.Machine.execPktWait die h s
  | .pktSigAdd die h => Sys2Proof.Machine.execPktSigAdd die h s
  | .pktSigSet die h => Sys2Proof.Machine.execPktSigSet die h s
  | .ffence die h => Sys2Proof.Machine.execFfence die h s
  | .faultServed port seq => Sys2Proof.Machine.execFaultServed port seq s
  | .faultDeclined port seq => Sys2Proof.Machine.execFaultDeclined port seq s
  | .faultQueueHeadAdvance port head => Sys2Proof.Machine.execFaultQueueHeadAdvance port head s
  | .thaw die value => Sys2Proof.Machine.execThaw die value s
  | .registerWrite page off size value => Sys2Proof.Machine.execRegisterWrite page off size value s
  | .hostWrite serac pa data => Sys2Proof.Machine.execHostWrite serac pa data s
  | .hostRead serac pa n => Sys2Proof.Machine.execHostRead serac pa n s
  | .dieCycle die => Sys2Proof.Machine.execDieCycle die s
  | .fairnessWindowStart die => Sys2Proof.Machine.execFairnessWindowStart die s
  | .boostDecay die => Sys2Proof.Machine.execBoostDecay die s
  | .stealRequest victim => Sys2Proof.Machine.execStealRequest victim s
  | .landingReplay ctx => Sys2Proof.Machine.execLandingReplay ctx s
  | .tileRefetch ctx => Sys2Proof.Machine.execTileRefetch ctx s
  | .retirement die what => Sys2Proof.Machine.execRetirement die what s
  | .postAccept ctx => Sys2Proof.Machine.execPostAccept ctx s
  | .coordinatorNotice serac k => Sys2Proof.Machine.execCoordinatorNotice serac k s
  | .ticketRequest serac => Sys2Proof.Machine.execTicketRequest serac s
  | .ticketTake serac k => Sys2Proof.Machine.execTicketTake serac k s
  | .reservation serac k => Sys2Proof.Machine.execReservation serac k s
  | .confirmation serac k => Sys2Proof.Machine.execConfirmation serac k s
  | .chunkBoundary serac res => Sys2Proof.Machine.execChunkBoundary serac res s
  | .chunkTransfer serac res order => Sys2Proof.Machine.execChunkTransfer serac res order s
  | .creditReturn serac link vc => Sys2Proof.Machine.execCreditReturn serac link vc s
  | .instanceComplete serac k => Sys2Proof.Machine.execInstanceComplete serac k s
  | .instanceFault serac k => Sys2Proof.Machine.execInstanceFault serac k s
  | .sramEccError site => Sys2Proof.Machine.execSramEccError site s
  | .resetBoot boot => Sys2Proof.Machine.execResetBoot boot s
  | .spdmMeasurement serac nonce => Sys2Proof.Machine.execSpdmMeasurement serac nonce s
  | .dumpKeyDelivery serac tenant key => Sys2Proof.Machine.execDumpKeyDelivery serac tenant key s
  | .stealAnswer thief => Sys2Proof.Machine.execStealAnswer thief s
  | .powerLoss pkg torn => Sys2Proof.Machine.execPowerLoss pkg torn s
  | .peerUnreachable serac lost => Sys2Proof.Machine.execPeerUnreachable serac lost s
  | .redfishRequest pkg request => Sys2Proof.Machine.execRedfishRequest pkg request s

end Sys2Proof.Machine
end

