-- ==== Sys2Proof/Machine/Step.lean ====
section
/-! DEFINITION. One step of the machine. -/

namespace Sys2Proof.Machine

/-- One step: the next move's turn; where it executes an instruction, that instruction's meaning. -/
def step (s : State) : Host.Outcome State Fault Refusal :=
  match s.turn with
  | .settled s' => .next s'
  | .run i s' => exec i s'

/-- The state with an instruction stored where step fetches next (log entry 13). -/
def State.withFetchWord (s : State) (nbits w : Nat) : State := s.placeAtFetch (w % 2 ^ nbits)

end Sys2Proof.Machine
end

