-- ==== Sys2Proof/Safety.lean ====
section
/-! DEFINITION. What counts as a good state and a safe run, in the terms the statements use: the memory's canonical form,
what a step keeps, and the frames of the instructions. -/

namespace Sys2Proof.Machine

/-- The memory keeps its canonical form (log entry 2). -/
def State.MemWf (s : State) : Prop := Memory.wf s.mem = true

/-- A step that answers a next state keeps a property. -/
def Keeps (P : State → Prop) : Prop := ∀ s t, P s → step s = .next t → P t

/-- The byte of memory under a key: the read of one byte that the frames speak of. -/
def State.memByte (s : State) (a : Nat) : Byte := Memory.read s.mem a

/-! ### Frames of the generator's instructions -/

/-- The context whose thread executes. -/
def State.Executes (s : State) (c : Context) : Prop := s.ctx s.cur = some c

/-- Outside the executing context only frost rings change: every byte of memory, every poison tag, every other context, every
die, every core's other state is as before. -/
structure GenFrame (s t : State) : Prop where
  mem : ∀ a, t.memByte a = s.memByte a
  poison : t.poison = s.poison
  others : ∀ k, k ≠ s.cur → t.ctx k = s.ctx k
  rest : t = { s with contexts := t.contexts, cores := t.cores }
  rings : ∀ k, t.core k = { s.core k with frost := (t.core k).frost }

/-- Of a context only its thread has changed, and it waits for nothing. -/
def Context.OnlyThread (c c' : Context) : Prop := c' = { c with thread := c'.thread, wait := .none }

/-- Of a thread only registers, poison tags, pc, loop stack and the boundary mark may have changed: composer, header mask,
descriptor list, EMITSEQ and every CSR of the thread are as before. -/
def Thread.OnlyFlow (t t' : Thread) : Prop :=
  t' = { t with regs := t'.regs, rpoison := t'.rpoison, pc := t'.pc, loops := t'.loops, boundary := t'.boundary }

/-- The pc after an instruction whose Next is `next`: the end check applied (R113). -/
def Thread.nextPc (t : Thread) (next : Word) : Word := (endCheck t.floor next t.loops).2.1

/-- The loop stack after an instruction whose Next is `next` (R113). -/
def Thread.nextLoops (t : Thread) (next : Word) : List LoopLevel := (endCheck t.floor next t.loops).1

/-- Register d takes a value and a poison tag, s0 excepted, and every other register keeps its own (R102). -/
structure Thread.Wrote (t t' : Thread) (d : BitVec 6) (v : Word) (p : Bool) : Prop where
  value : ∀ x, t'.reg x = if x = d ∧ d ≠ 0 then v else t.reg x
  tag : ∀ x, t'.regPoison x = if x = d ∧ d ≠ 0 then p else t.regPoison x

/-- Every register and poison tag is as before. -/
structure Thread.SameRegs (t t' : Thread) : Prop where
  value : ∀ x, t'.reg x = t.reg x
  tag : ∀ x, t'.regPoison x = t.regPoison x

/-- The answer of an instruction that writes register d: a next state in which d holds the value with the poison tag, the
thread stands at the end-checked Next, and nothing else has changed. `c` is the executing context, with what else the
instruction changes in it where it changes more. -/
def Writes (s : State) (c : Context) (o : Out) (d : BitVec 6) (v : Word) (p : Bool) (next : Word) : Prop :=
  ∃ t c', o = .next t ∧ t.ctx s.cur = some c' ∧ c.thread.Wrote c'.thread d v p ∧
    c'.thread.pc = c.thread.nextPc next ∧ c'.thread.loops = c.thread.nextLoops next ∧
    c.OnlyThread c' ∧ c.thread.OnlyFlow c'.thread ∧ GenFrame s t

/-- The answer of an instruction that writes no register: a next state in which the thread stands at the end-checked Next,
and nothing else has changed. `c` is the executing context, with what the instruction changes in it. -/
def GoesOn (s : State) (c : Context) (o : Out) (next : Word) : Prop :=
  ∃ t c', o = .next t ∧ t.ctx s.cur = some c' ∧ c.thread.SameRegs c'.thread ∧
    c'.thread.pc = c.thread.nextPc next ∧ c'.thread.loops = c.thread.nextLoops next ∧
    c.OnlyThread c' ∧ c.thread.OnlyFlow c'.thread ∧ GenFrame s t

/-- The answer of an instruction that makes its thread wait: a next state in which the context is `c` with that wait, and
nothing else has changed. -/
def Waits (s : State) (c : Context) (o : Out) (w : GenWait) : Prop :=
  ∃ t, o = .next t ∧ t.ctx s.cur = some { c with wait := w } ∧ GenFrame s t

/-- A trap can be taken: its handler exists and does not run (R135). -/
def Context.Handles (c : Context) : Prop := c.thread.inTrap = false ∧ c.thread.tvec ≠ 0

/-- TCAUSE of a trap: cause in [7:0], subcause in [15:8], FETCH in [16]. -/
def trapCause (code sub : Nat) (fetch : Bool) : Word := BitVec.ofNat 64 (code + sub * 256 + (if fetch then 65536 else 0))

/-- The answer of an instruction that takes a trap (R135): a next state in which TPC, TCAUSE, TVAL and TSTATE are written, the
thread stands at TVEC, the instruction waits for nothing, and nothing else has changed. -/
def Traps (s : State) (c : Context) (o : Out) (code sub : Nat) (tpc tval : Word) (fetch : Bool) : Prop :=
  ∃ t, o = .next t ∧ GenFrame s t ∧ t.ctx s.cur = some { c.unwait with thread := { c.thread with
    tpc := tpc, tval := tval, tcause := trapCause code sub fetch
    tstate := mkTstate c.thread.udep c.thread.depth c.thread.inUli true, pc := c.thread.tvec, boundary := true } }

/-! ### Frames of the slot operations -/

/-- The bundle being issued and its context. -/
def State.Issues (s : State) (env : SlotEnv) (c : Context) : Prop := s.slotEnv = some env ∧ s.ctx env.ctx = some c

/-- Outside the issuing context and the record of its bundle only frost rings and cached translations change: every byte of
memory, every poison tag, every other context is as before. -/
structure SlotFrame (s t : State) (k : Nat) : Prop where
  mem : ∀ a, t.memByte a = s.memByte a
  poison : t.poison = s.poison
  others : ∀ j, j ≠ k → t.ctx j = s.ctx j
  rest : t = { s with contexts := t.contexts, slotEnv := t.slotEnv, cores := t.cores, dies := t.dies }
  rings : ∀ j, t.core j = { s.core j with frost := (t.core j).frost }
  caches : ∀ j, t.die j = { s.die j with tcache := (t.die j).tcache, tlbs := (t.die j).tlbs }

/-- The answer of a slot operation: a next state in which the issuing context is c' and the bundle's record env', and nothing
else has changed. -/
def SlotDoes (s : State) (env : SlotEnv) (o : Out) (c' : Context) (env' : SlotEnv) : Prop :=
  ∃ t, o = .next t ∧ t.ctx env.ctx = some c' ∧ t.slotEnv = some env' ∧ SlotFrame s t env.ctx

/-- The record of the bundle with a wait hold of a cause where a condition is met (R20). -/
def SlotEnv.held (env : SlotEnv) (cond : Bool) (cause : Nat) : SlotEnv := if cond then { env with holds := cause :: env.holds } else env

/-- The record of the bundle with more to do at its commit. -/
def SlotEnv.does (env : SlotEnv) (acts : List CommitAct) : SlotEnv := { env with acts := env.acts ++ acts }

/-- The record of the bundle with a fault of one of its slots; the lowest slot's stays, but an illegal word goes first (R65). -/
def SlotEnv.faults (env : SlotEnv) (f : BFault) : SlotEnv :=
  match env.now with
  | none => { env with now := some f }
  | some g => if f.cause = bILLSLOT ∧ g.cause ≠ bILLSLOT then { env with now := some f } else env

/-- The record of the bundle with a translation fault of one of its slots, taken at its commit point (R230). -/
def SlotEnv.misses (env : SlotEnv) (slot : Nat) (x : XFault) : SlotEnv :=
  match env.fault with
  | none => { env with fault := some (slot, x) }
  | some _ => env

/-- The answer of a vector operation with one register result (R206): its operands are read at the issue cycle through the
latches; `lat` context cycles later register vd takes, in the lanes of type `ty` that its predicate governs, the lanes f gives,
poisoned where a source is; its flags wait for the commit; nothing else has changed. -/
def VecWrites (s : State) (env : SlotEnv) (c : Context) (o : Out) (p : Pipe) (w : VWord) (u : VUse) (lat ty : Nat)
    (f : VIn → Nat → Nat × Flags) : Prop :=
  let i := readVec c env.cc p u w
  let b := typeBytes ty
  let flags := orFlags ((List.range (typeLanes ty)).map (fun j => if laneTrue i.p b j then (f i j).2 else 0))
  ∃ mask data,
    (∀ j, j < typeLanes ty → lane data (8 * b) j = (f i j).1 % 2 ^ (8 * b)) ∧
    (∀ n, n < 64 → mask.getLsbD n = i.p.getLsbD (n / b * b)) ∧
    SlotDoes s env o
      (Context.addWrite { c with be := i.be }
        { due := env.cc + lat, idx := env.idx, ord := ordV p, target := .vreg w.vd.toNat mask data, poison := i.psn })
      (env.does (if flags = 0 then [] else [.flags (flags.setWidth 64)]))

/-- What a sync operation is (R238-R242): its opcode, the alignment of its address (0: it has none), whether it counts as a
write, the bytes of its result (0: none), whether its scope makes it a phase boundary, whether it holds the next bundle until
its answer, whether it reads vs. -/
structure SynRow where
  op : Nat
  width : Nat
  writes : Bool
  result : Nat
  bounds : Bool
  holds : Bool
  reads : Bool

/-! ### Rounding (R171, R178-R180) -/

/-- A finite value is a real number. -/
def FVal.Is (v : FVal) (x : ℝ) : Prop := ∃ neg m e, v = .fin neg m e ∧ x = (if neg then -1 else 1) * (m : ℝ) * (2 : ℝ) ^ e

/-- The magnitudes with t fraction bits, of an exponent not below that of the format's smallest unit, or of any. -/
def OnGrid (t : Nat) (lo : Option Int) (y : ℝ) : Prop :=
  ∃ (m : Nat) (q : Int), m < 2 ^ (t + 1) ∧ (∀ l ∈ lo, l ≤ q) ∧ y = (m : ℝ) * (2 : ℝ) ^ q

/-- Those whose last bit is 0. -/
def EvenOnGrid (t : Nat) (lo : Option Int) (y : ℝ) : Prop :=
  ∃ (m : Nat) (q : Int), m < 2 ^ (t + 1) ∧ (∀ l ∈ lo, l ≤ q) ∧ m % 2 = 0 ∧ (2 ^ t ≤ m ∨ lo = some q) ∧ y = (m : ℝ) * (2 : ℝ) ^ q

/-- The magnitude y is the rounding of the magnitude x of a value with sign `neg` under mode rm (R178): 0 nearest, ties to even; 1 toward
zero; 2 down; 3 up. -/
structure RoundsTo (t : Nat) (lo : Option Int) (neg : Bool) (rm : Nat) (x y : ℝ) : Prop where
  grid : OnGrid t lo y
  nearest : rm = 0 → ∀ z, OnGrid t lo z → |x - y| ≤ |x - z| ∧ (z ≠ y → |x - z| = |x - y| → EvenOnGrid t lo y)
  inward : rm = 1 ∨ rm = 2 ∧ neg = false ∨ rm = 3 ∧ neg = true → y ≤ x ∧ ∀ z, OnGrid t lo z → z ≤ x → z ≤ y
  outward : rm = 2 ∧ neg = true ∨ rm = 3 ∧ neg = false → x ≤ y ∧ ∀ z, OnGrid t lo z → x ≤ z → y ≤ z

/-- Bits and flags r are the value with sign `neg` and magnitude x > 0 rounded once into a format (R178-R180): past the largest finite
value the table "Overflow results", OVF and INX; else the rounded value, INX where it is not x, and UNF where it then is tiny. -/
def FpFmt.Rounded (f : FpFmt) (neg : Bool) (rm : Nat) (sat : Bool) (x : ℝ) (r : Nat × Flags) : Prop :=
  let sign := if neg then 2 ^ (f.ebits + f.tbits) else 0
  let stops : Prop := sat = true ∨ rm = 1 ∨ rm = 2 ∧ neg = false ∨ rm = 3 ∧ neg = true
  ∃ y top, RoundsTo f.tbits (some (f.emin - f.tbits)) neg rm x y ∧ (f.decode f.maxBits).Is top ∧
    (top < y → r.2 = flOVF ||| flINX ∧ (stops → r.1 = sign + f.maxBits) ∧
      (¬ stops → r.1 = if f.noInf then f.nanBits else sign + f.infBits)) ∧
    (y ≤ top → r.1 < 2 ^ (1 + f.ebits + f.tbits) ∧ (f.decode r.1).Is (if neg then -y else y) ∧ (f.decode r.1).isNegative = neg ∧
      (y = x → r.2 = 0) ∧
      (y ≠ x → ∃ u, RoundsTo f.tbits none neg rm x u ∧ (u < (2 : ℝ) ^ f.emin → r.2 = flINX ||| flUNF) ∧
        ((2 : ℝ) ^ f.emin ≤ u → r.2 = flINX)))

end Sys2Proof.Machine
end

