-- ==== Sys2Proof/WellFormed.lean ====
section
/-! DEFINITION. Which instructions have an encoding: the operand limits of spec/05 for the generator and the checks of
R65 (spec/03) for slot words. The part's own steps have no encoding and no limits. -/

namespace Sys2Proof

/-- The instruction's fields are ones an encoding can carry. -/
def WellFormed : Instr → Bool
  | .loop l _ => l != 0
  | .lidx k _ => decide (k.toNat ≤ 5)
  | .bset _ s => s != 7
  | .bfld _ n p s => s != 7 && decide (p.toNat + n.toNat + 1 ≤ 64)
  | .bldt _ _ s => s != 7
  | .nset _ f _ => decide (f.toNat ≤ 26)
  | .fmtset acc b a => (ctlCheck (.fmtset acc b a)).isNone
  | .qcfgSlack s e => (ctlCheck (.qcfgSlack s e)).isNone
  | .stepReg n sel slot => (ctlCheck (.stepReg n sel slot)).isNone
  | .sadv beats s => (ctlCheck (.sadv beats s)).isNone
  | .vld m => (memBufCheck m).isNone
  | .vst m => (memBufCheck m).isNone
  | .vldg m => (memGlobCheck true false m).isNone
  | .vldgs m => (memGlobCheck true false m).isNone
  | .vstg m => (memGlobCheck false false m).isNone
  | .vgth m => (memGathCheck true m).isNone
  | .vgths m => (memGathCheck true m).isNone
  | .vsct m => (memGathCheck false m).isNone
  | .pftch m => (memGlobCheck false true m).isNone
  | .fill c => (cpyCheck 1 c).isNone
  | .fills c => (cpyCheck 2 c).isNone
  | .feed c => (cpyCheck 3 c).isNone
  | .feedt c => (cpyCheck 4 c).isNone
  | .drain c => (cpyCheck 5 c).isNone
  | .addw c => (cpyCheck 6 c).isNone
  | .rput c => (cpyCheck 7 c).isNone
  | .cresm c => (cpyCheck 8 c).isNone
  | .cclr c => (cpyCheck 9 c).isNone
  | .aadd s => (synCheck 1 s).isNone
  | .amin s => (synCheck 2 s).isNone
  | .amax s => (synCheck 3 s).isNone
  | .aand s => (synCheck 4 s).isNone
  | .aor s => (synCheck 5 s).isNone
  | .axor s => (synCheck 6 s).isNone
  | .aswp s => (synCheck 7 s).isNone
  | .acas s => (synCheck 8 s).isNone
  | .red s => (synCheck 9 s).isNone
  | .arv s => (synCheck 10 s).isNone
  | .arvd s => (synCheck 11 s).isNone
  | .bwait s => (synCheck 12 s).isNone
  | .btest s => (synCheck 13 s).isNone
  | .sig s => (synCheck 14 s).isNone
  | .swait s => (synCheck 15 s).isNone
  | .uli s => (synCheck 16 s).isNone
  | .sfence s => (synCheck 17 s).isNone
  | .brst s => (synCheck 18 s).isNone
  | .mma m => (mtxCheck 1 m).isNone
  | .mld m => (mtxCheck 2 m).isNone
  | .mldt m => (mtxCheck 3 m).isNone
  | .mst m => (mtxCheck 4 m).isNone
  | .mstq m => (mtxCheck 5 m).isNone
  | .mclr m => (mtxCheck 6 m).isNone
  | .macc m => (mtxCheck 7 m).isNone
  | .vadd _ w => (vCheck 0x01 w).isNone
  | .vsub _ w => (vCheck 0x02 w).isNone
  | .vmul _ w => (vCheck 0x03 w).isNone
  | .vfma _ w => (vCheck 0x04 w).isNone
  | .vfms _ w => (vCheck 0x05 w).isNone
  | .vmin _ w => (vCheck 0x06 w).isNone
  | .vmax _ w => (vCheck 0x07 w).isNone
  | .vabs _ w => (vCheck 0x08 w).isNone
  | .vneg _ w => (vCheck 0x09 w).isNone
  | .vrcp _ w => (vCheck 0x0a w).isNone
  | .vrsq _ w => (vCheck 0x0b w).isNone
  | .vexp2 _ w => (vCheck 0x0c w).isNone
  | .vdiv _ w => (vCheck 0x0d w).isNone
  | .vand _ w => (vCheck 0x10 w).isNone
  | .vor _ w => (vCheck 0x11 w).isNone
  | .vxor _ w => (vCheck 0x12 w).isNone
  | .vnot _ w => (vCheck 0x13 w).isNone
  | .vshl _ w => (vCheck 0x14 w).isNone
  | .vshr _ w => (vCheck 0x15 w).isNone
  | .vsra _ w => (vCheck 0x16 w).isNone
  | .vshli _ w => (vCheck 0x17 w).isNone
  | .vshri _ w => (vCheck 0x18 w).isNone
  | .vmulh _ w => (vCheck 0x19 w).isNone
  | .vclz _ w => (vCheck 0x1a w).isNone
  | .vwadd _ w => (vCheck 0x1c w).isNone
  | .vwacc _ w => (vCheck 0x1d w).isNone
  | .vwmul _ w => (vCheck 0x1e w).isNone
  | .vcmp _ w => (vCheck 0x20 w).isNone
  | .vsel _ w => (vCheck 0x21 w).isNone
  | .qop _ w => (vCheck 0x22 w).isNone
  | .vcvt _ w => (vCheck 0x28 w).isNone
  | .vqnt _ w => (vCheck 0x29 w).isNone
  | .vdqnt _ w => (vCheck 0x2a w).isNone
  | .vscan _ w => (vCheck 0x30 w).isNone
  | .vred _ w => (vCheck 0x31 w).isNone
  | .vperm _ w => (vCheck 0x32 w).isNone
  | .vbcst _ w => (vCheck 0x33 w).isNone
  | .vshfl _ w => (vCheck 0x34 w).isNone
  | .viota _ w => (vCheck 0x35 w).isNone
  | .vmov _ w => (vCheck 0x36 w).isNone
  | .vmovi _ w => (vCheck 0x37 w).isNone
  | .vldi _ w => (vCheck 0x38 w).isNone
  | .vchk _ w => (vCheck 0x3c w).isNone
  | .vclrp _ w => (vCheck 0x3d w).isNone
  | .vstat _ w => (vCheck 0x3e w).isNone
  | _ => true

end Sys2Proof
end

