-- ==== Sys2Proof/Certificates/Slice0/Obligations.lean ====
section
/-! DEFINITION. The statements for the provers. -/

section

open Sys2Proof Sys2Proof.Machine

/-! ### The step, the encodings, reset, the memory's form -/

/-- R16, R66, R103, R111, R65: a step in which a core's generator moves and has a ready thread with no work at its boundary runs the
instruction that the four bytes at the thread's pc decode to, in the state in which that thread is the executing one, the loads of the
registers that the instruction names are performed (log entry 8) and the translation is cached; a word that decodes to none runs as an
illegal instruction; a pc that does not translate takes the fetch fault. A management core's step does the same with its context, its CYCLE
gone on by an open number (log entry 65). A step of the part that is no instruction, of an agent of the domain's 4,096 packages (R1), runs
that step, and the issue of a slot word runs the operation the word decodes to. Which move comes next is the model's choice (log entry 1),
and so is reading code at its home (log entry 21). -/
def Obligations.StepRunsDecoded : Prop :=
  (∀ (s : State) (core i k : Nat) (miss : BitVec 5) (late : Bool) (c : Context), s.nextMove = .gen core miss late →
    let b := { s.begun with late := late }
    (b.core core).frozen = false → (b.core core).genUsed = false → nextThread b core miss = some i → threadKey b core i = some k →
    b.ctx k = some c → b.boundaryWork k = none →
    let u := b.updCore core (fun r => r.countInstr i)
    (∀ x, translate u c c.thread.pc .fetch = .error x → step s = .next (u.genXlateFault k x true)) ∧
    (∀ loc, translate u c c.thread.pc .fetch = .ok loc →
      let t (j : Instr) : State := { (u.loadsFor k j).cacheTranslation c c.thread.pc with cur := k }
      (∀ j rest, decodeBytes (u.homeBytes loc.pkg loc.pa 4) = .ok (j, rest) → step s = exec j (t j)) ∧
      (∀ e, decodeBytes (u.homeBytes loc.pkg loc.pa 4) = .error e →
        let j := Instr.illegalInstruction (u.home32 loc.pkg loc.pa)
        step s = exec j (t j)))) ∧
  (∀ (s : State) (k : Nat) (late : Bool) (c : Context) (loc : Loc), s.nextMove = .mgmt k late →
    let b := { s.begun with late := late }
    let u := b.updCore c.coreKey (fun r => { r with cycle := r.cycle + (Config.seracCycles b.freeCount).setWidth 64 })
    b.ctx k = some c → b.boundaryWork k = none → c.managementReady = true → translate u c c.thread.pc .fetch = .ok loc →
    ∀ j rest, decodeBytes (u.homeBytes loc.pkg loc.pa 4) = .ok (j, rest) →
      step s = exec j { (u.loadsFor k j).cacheTranslation c c.thread.pc with cur := k }) ∧
  (∀ (s : State) (i : Instr), s.nextMove = .ev i → isEvent i = true → inDomain i = true → step s = exec i s.begun) ∧
  (∀ (s : State) (i : Instr), s.nextMove = .ev i → inDomain i = false → step s = .next s.begun) ∧
  (∀ (s t : State) (n : Nat) (w : Word) (i : Instr), decodeSlot (slotOfIndex n) w = .ok i → exec i s = .next t →
    s.issueWord (n, w) = t)

/-- Words that the spec's programs spell out decode to what the programs name (spec/05, spec/06, spec/09, spec/10, spec/12). -/
def Obligations.DecodeWords : Prop :=
  decodeGen 0x00008229 = some (.loopi 4 4) ∧ decodeGen 0x0004819C = some (.ldz 2 4 3) ∧
  decodeGen 0x00588028 = some (.loop 11 4) ∧ decodeGen 0x034856B1 = some (.bfld 13 8 21 5) ∧
  decodeGen 0x04001234 = some (.emit 1 0 0 0 0 0x24) ∧
  decodeSlot .ctl 0x0000000000002201 = .ok (.fmtset 0 8 8) ∧
  decodeSlot .mem 0x0000000000080001 = .ok (.vld { part := 0, row := 0, tile := 2, buf := 0, v := 0 }) ∧
  decodeSlot .cpy 0x0000000000029341 = .ok (.fill { port := 0, fmt := 0, ss := 0, bf := 0, tile := 5, nest := 2, tok := 3, ch := 1 }) ∧
  decodeSlot .vx 0x0010970040065C04 =
    .ok (.vfma .x { sat := 0, rm := 0, ty := 0, hb := 1, ha := 0, q := 0, vc := 604, vb := 4, va := 1, vd := 604 }) ∧
  decodeSlot .syn 0x000200000C00000A = .ok (.arv { off := 8, sub := 0, ty := 0, arr := 0, z := 3, vs := 0, vd := 0 }) ∧
  decodeSlot .syn 0x000200000C0C000C = .ok (.bwait { off := 8, sub := 0, ty := 0, arr := 0, z := 3, vs := 12, vd := 0 })

/-- R65, R66: for every well-formed instruction, with every operand at every value its encoding admits, decoding the
instruction's word gives the instruction. -/
def Obligations.DecodeEncode : Prop :=
  ∀ i : Instr, WellFormed i = true →
    (∀ w, encodeGen i = some w → decodeGen w = some i) ∧ (∀ slot w, encodeSlot i = some (slot, w) → decodeSlot slot w = .ok i)

/-- R65, R66: what decodes is well-formed and has that very word: no bit of a word is ignored, and no two words decode to one
instruction. -/
def Obligations.EncodeDecode : Prop :=
  (∀ (w : BitVec 32) (i : Instr), decodeGen w = some i → WellFormed i = true ∧ encodeGen i = some w) ∧
  (∀ (slot : Slot) (w : Word) (i : Instr), decodeSlot slot w = .ok i → WellFormed i = true ∧ encodeSlot i = some (slot, w))

/-- What reset leaves where the spec gives a value: on every core CYCLE, SPINLIM, WDWIN (R104), FRZCNT, FWSHARE (R16), PLIM (R27), SLOTMAP
(R29), the slot table full of X (R263), SLOTPART and the regions (R261, R262), the frost ring's count (R334) and the
round-robin starting points (R353); on every Cobalt die the scheduler's registers, the partitions (R259), the queues (R284), the
invalidation registers (R55) and the fault page (R326); on every Serac die COMMBASE, TSEQ (R303), the dump registers (R347) and FWMODE
(R345). The rest of State.reset is the model's choice (log entry 5). -/
def Obligations.ResetState : Prop :=
  (∀ k, let r := State.reset.core k
    r.cycle = 0 ∧ r.frzcnt = 0 ∧ r.fwshare = 4 ∧ r.plim = 0xA00 ∧ r.slotmap = 6 ∧ r.spinlim = 8192 ∧ r.wdwin = 0x100000000 ∧
    r.slotTable = List.replicate 4 0x5555555555555555 ∧ r.slotPart = 0 ∧ r.slotWinF = 0 ∧ r.slotWinW = 0 ∧ r.slotWinC = 0 ∧
    r.frost.written = 0 ∧ (r.genLast + 1) % 5 = 0 ∧ (r.flexLast + 1) % 4 = 0) ∧
  (∀ k, let d := State.reset.die k
    d.dieCycle = 0 ∧ d.bdecay = 1024 ∧ d.slice = 0x200000 ∧ d.coldage = 0 ∧ d.schcfg = 4 * 2 ^ 20 + 64 * 2 ^ 12 + 20 ∧
    d.invaddr = 0 ∧ d.invspan = 0 ∧ d.invroot = 0 ∧ d.fault.fqbase = 0 ∧ d.fault.fqHead = 0 ∧ d.fault.fqTail = 0 ∧
    d.fault.eqbase = 0 ∧
    (∀ p, let g := SMap.getD d.parts p PartRegs.reset
      g.pdl = 0 ∧ g.minima = 0 ∧ g.eng = 0 ∧ g.tenant = 0) ∧
    (∀ n, let q := SMap.getD d.queues n Queue.reset
      q.qctl = 9 * 2 ^ 16 ∧ q.qbase = 0 ∧ q.qroot = 0 ∧ q.wptr = 0 ∧ q.qfault = 0 ∧ q.done = 0)) ∧
  (∀ k, let r := State.reset.serac k
    r.commbase = 0 ∧ r.tseq = 0 ∧ r.fwmode = 0 ∧
    ∀ p, let g := SMap.getD r.dump p DumpRegs.reset
      g.dbase = 0 ∧ g.dgeom = 0 ∧ g.head = 0 ∧ g.tail = 0 ∧ g.dcfg = 0) ∧
  State.reset.MemWf

/-- The memory's canonical form (addresses strictly rising, no entry equal to what an unlisted address reads as) is an
invariant: every step of the machine keeps it, from every state. The form is the model's (log entry 2). -/
def Obligations.MemoryFormKept : Prop := Keeps State.MemWf

/-! ### The generator (spec/05) -/

/-- R106: the result of every register operation but the divisions: d takes the result of the table "ALU functions" on the
old values of a and b, poisoned where a source is (R102), s0 excepted; the thread goes on at the next word, and nothing else
changes. R106: CLZ gives n where the n highest bits are 0 and the next, where there is one, is 1; POPC gives the number of
one bits. -/
def Obligations.AluResults : Prop :=
  (∀ (s : State) (c : Context) (b a d : BitVec 6), s.Executes c →
      let x := c.thread.reg a
      let y := c.thread.reg b
      let p := c.thread.regPoison a || c.thread.regPoison b
      let r (i : Instr) (v : Word) : Prop := Writes s c (exec i s) d v p (c.thread.pc + 4)
      r (.add b a d) (x + y) ∧ r (.sub b a d) (x - y) ∧ r (.mul b a d) (x * y) ∧
      r (.mulh b a d) (BitVec.ofInt 64 (x.toInt * y.toInt / 2 ^ 64)) ∧
      r (.and b a d) (x &&& y) ∧ r (.or b a d) (x ||| y) ∧ r (.xor b a d) (x ^^^ y) ∧
      r (.shl b a d) (x <<< (y.toNat % 64)) ∧ r (.shr b a d) (x >>> (y.toNat % 64)) ∧
      r (.sra b a d) (BitVec.ofInt 64 (x.toInt / 2 ^ (y.toNat % 64))) ∧
      r (.slt b a d) (if x.toInt < y.toInt then 1 else 0) ∧ r (.sltu b a d) (if x.toNat < y.toNat then 1 else 0) ∧
      r (.min b a d) (if x.toInt ≤ y.toInt then x else y) ∧ r (.max b a d) (if x.toInt ≤ y.toInt then y else x) ∧
      r (.minu b a d) (if x.toNat ≤ y.toNat then x else y) ∧ r (.maxu b a d) (if x.toNat ≤ y.toNat then y else x)) ∧
  (∀ (s : State) (c : Context) (a d : BitVec 6), s.Executes c →
      let x := c.thread.reg a
      (∃ n : Nat, n ≤ 64 ∧ (∀ i, 64 - n ≤ i → i < 64 → x.getLsbD i = false) ∧ (n < 64 → x.getLsbD (63 - n) = true) ∧
        Writes s c (exec (.clz a d) s) d (BitVec.ofNat 64 n) (c.thread.regPoison a) (c.thread.pc + 4)) ∧
      Writes s c (exec (.popc a d) s) d (BitVec.ofNat 64 ((List.range 64).countP fun i => x.getLsbD i))
        (c.thread.regPoison a) (c.thread.pc + 4))

/-- R106, R103: the divisions never trap: divisor 0 and the overflowing quotient have the results of the table, and the thread
is not ready for 2 core cycles plus half the significant bits of the dividend's magnitude, rounded up. -/
def Obligations.DivisionResults : Prop :=
  ∀ (s : State) (c : Context) (b a d : BitVec 6), s.Executes c →
    let x := c.thread.reg a
    let y := c.thread.reg b
    let p := c.thread.regPoison a || c.thread.regPoison b
    let busy (n : Nat) : Context := { c with busyUntil := (s.core c.coreKey).cycle.toNat + 1 + 2 + (n.size + 1) / 2 }
    let r (i : Instr) (n : Nat) (v : Word) : Prop := Writes s (busy n) (exec i s) d v p (c.thread.pc + 4)
    r (.div b a d) x.toInt.natAbs
      (if y = 0 then BitVec.allOnes 64 else if x.toInt = -(2 ^ 63) ∧ y.toInt = -1 then x else BitVec.ofInt 64 (x.toInt.tdiv y.toInt)) ∧
    r (.divu b a d) x.toNat (if y = 0 then BitVec.allOnes 64 else BitVec.ofNat 64 (x.toNat / y.toNat)) ∧
    r (.rem b a d) x.toInt.natAbs (if y = 0 then x else BitVec.ofInt 64 (x.toInt.tmod y.toInt)) ∧
    r (.remu b a d) x.toNat (if y = 0 then x else BitVec.ofNat 64 (x.toNat % y.toNat))

/-- R107: the result of every immediate operation. -/
def Obligations.ImmediateResults : Prop :=
  ∀ (s : State) (c : Context) (i : BitVec 13) (n : BitVec 6) (u : BitVec 19) (a d : BitVec 6), s.Executes c →
    let x := c.thread.reg a
    let r (j : Instr) (v : Word) : Prop := Writes s c (exec j s) d v (c.thread.regPoison a) (c.thread.pc + 4)
    let q (j : Instr) (v : Word) : Prop := Writes s c (exec j s) d v false (c.thread.pc + 4)
    r (.addi i a d) (x + i.signExtend 64) ∧ r (.andi i a d) (x &&& i.signExtend 64) ∧
    r (.ori i a d) (x ||| i.signExtend 64) ∧ r (.xori i a d) (x ^^^ i.signExtend 64) ∧
    r (.shli n a d) (x <<< n.toNat) ∧ r (.shri n a d) (x >>> n.toNat) ∧
    r (.srai n a d) (BitVec.ofInt 64 (x.toInt / 2 ^ n.toNat)) ∧
    r (.slti i a d) (if x.toInt < i.toInt then 1 else 0) ∧
    r (.sltiu i a d) (if x.toNat < (i.signExtend 64).toNat then 1 else 0) ∧
    q (.lui u d) (BitVec.ofInt 64 (u.toInt * 2 ^ 13)) ∧ q (.pcadd u d) (c.thread.pc + BitVec.ofInt 64 (u.toInt * 2 ^ 13))

/-- R102: s0 reads as zero and clean in every state, and a write to it is discarded: an operation whose result register is s0
(every register and immediate operation, the divisions, LIDX, JAL, JALR, the generator loads, CSRR, CSRW of a CSR of the context,
CQRY) goes on with every register and poison tag as before, and with its other effects as with any other register. -/
def Obligations.ZeroRegister : Prop :=
  (∀ t : Thread, t.reg 0 = 0 ∧ t.regPoison 0 = false) ∧
  (∀ (s : State) (c : Context) (o : Out) (v next : Word) (p : Bool), Writes s c o 0 v p next ↔ GoesOn s c o next) ∧
  (∀ (s : State) (c : Context) (i : BitVec 13) (u : BitVec 19) (n b a : BitVec 6) (k : BitVec 3), s.Executes c →
    (∀ j ∈ [Instr.add b a 0, .sub b a 0, .mul b a 0, .mulh b a 0, .and b a 0, .or b a 0, .xor b a 0, .shl b a 0, .shr b a 0,
            .sra b a 0, .slt b a 0, .sltu b a 0, .min b a 0, .max b a 0, .minu b a 0, .maxu b a 0, .clz a 0, .popc a 0,
            .addi i a 0, .andi i a 0, .ori i a 0, .xori i a 0, .shli n a 0, .shri n a 0, .srai n a 0, .slti i a 0, .sltiu i a 0,
            .lui u 0, .pcadd u 0, .lidx k 0],
      GoesOn s c (exec j s) (c.thread.pc + 4)) ∧
    (let busy (m : Nat) : Context := { c with busyUntil := (s.core c.coreKey).cycle.toNat + 1 + 2 + (m.size + 1) / 2 }
     let x := c.thread.reg a
     GoesOn s (busy x.toInt.natAbs) (exec (.div b a 0) s) (c.thread.pc + 4) ∧
     GoesOn s (busy x.toInt.natAbs) (exec (.rem b a 0) s) (c.thread.pc + 4) ∧
     GoesOn s (busy x.toNat) (exec (.divu b a 0) s) (c.thread.pc + 4) ∧
     GoesOn s (busy x.toNat) (exec (.remu b a 0) s) (c.thread.pc + 4)) ∧
    GoesOn s c (exec (.jal u 0) s) (c.thread.pc + BitVec.ofInt 64 (u.toInt * 4)) ∧
    (let target := c.thread.reg a + i.signExtend 64
     c.thread.regPoison a = false → target.toNat % 4 = 0 → GoesOn s c (exec (.jalr i a 0) s) target)) ∧
  (∀ (s : State) (c : Context) (i : BitVec 13) (o : BitVec 15) (z : BitVec 4) (a : BitVec 6) (loc : Loc), s.Executes c →
    s.late = false → loc.dev = false →
    let va := c.thread.reg a + i.signExtend 64
    let r (j : Instr) (va : Word) (n : Nat) : Prop :=
      let s1 := s.cacheTranslation c va
      GoesOn s1 { c with ord := (ordLoad s1 c.reader c.ord loc n).2.2 } (exec j s) (c.thread.pc + 4)
    (∀ x ∈ c.thread.loads, x.age = 0) →
    (c.thread.regPoison a = false → translate s c va .genLoad = .ok loc →
      r (.ldb i a 0) va 1 ∧ r (.ldbu i a 0) va 1 ∧ (va.toNat % 2 = 0 → r (.ldh i a 0) va 2 ∧ r (.ldhu i a 0) va 2) ∧
      (va.toNat % 4 = 0 → r (.ldw i a 0) va 4 ∧ r (.ldwu i a 0) va 4) ∧ (va.toNat % 8 = 0 → r (.ldd i a 0) va 8)) ∧
    (let zva := c.zrel z + BitVec.ofNat 64 (8 * o.toNat)
     translate s c zva .genLoad = .ok loc → zva.toNat % 8 = 0 → r (.ldz o z 0) zva 8)) ∧
  (∀ (s : State) (c : Context) (n : BitVec 12) (a : BitVec 6), s.Executes c →
    (csrCheck c.isFirmware false n.toNat = none → GoesOn s c (exec (.csrr n 0) s) (c.thread.pc + 4)) ∧
    (csrCheck c.isFirmware true n.toNat = none → c.thread.regPoison a = false → n.toNat < 0x100 → n.toNat ≠ 0x43 → n.toNat ≠ 0x44 →
      GoesOn s (c.writeCsr n.toNat (c.thread.reg a)) (exec (.csrw n a 0) s) (c.thread.pc + 4)) ∧
    (c.management = false → GoesOn s c (exec (.cqry a 0) s) (c.thread.pc + 4)))


/-- R108, R109, R36: a generator load from a page that is no device space, with a clean base and an aligned address that
translates, and that is performed as it executes, gives d the bytes the ordering machine answers, extended as the instruction
says, with the poison of the answer; the context keeps the answer's snapshot, and loads of earlier phases that still wait are
performed first. One that is not yet performed goes on with the load noted among the thread's, and its register as before (a load may
be performed later: log entry 8). R46: a load from a page of device space is answered by the device as it executes, clean, and no
other load with it. -/
def Obligations.LoadResults : Prop :=
  ∀ (s : State) (c : Context) (i : BitVec 13) (o : BitVec 15) (z : BitVec 4) (a d : BitVec 6) (loc : Loc), s.Executes c →
    let va := c.thread.reg a + i.signExtend 64
    let r (j : Instr) (va : Word) (n : Nat) (signed : Bool) : Prop :=
      let s1 := s.cacheTranslation c va
      let c0 := c.performWhere s1 (fun x => decide (0 < x.age))
      let m := ordLoad s1 c.reader c0.ord loc n
      let value (v : Nat) : Word := if signed then (BitVec.ofNat (8 * n) v).signExtend 64 else BitVec.ofNat 64 v
      (loc.dev = false → s.late = false → Writes s1 { c0 with ord := m.2.2 } (exec j s) d (value m.1) m.2.1 (c.thread.pc + 4)) ∧
      (loc.dev = false → s.late = true → GoesOn s1 { c with thread := { c.thread with loads := c.thread.loads ++
          [{ d := d, loc := loc, size := n, signed := signed, emit := c.thread.emitSeq, before := none, age := 0 }] } }
        (exec j s) (c.thread.pc + 4)) ∧
      (loc.dev = true → Writes s1 c (exec j s) d (value (s1.deviceLoad loc n).toNat) false (c.thread.pc + 4)) ∧
      ((∀ x ∈ c.thread.loads, x.age = 0) → c0 = c)
    (c.thread.regPoison a = false → translate s c va .genLoad = .ok loc →
      r (.ldb i a d) va 1 true ∧ r (.ldbu i a d) va 1 false ∧
      (va.toNat % 2 = 0 → r (.ldh i a d) va 2 true ∧ r (.ldhu i a d) va 2 false) ∧
      (va.toNat % 4 = 0 → r (.ldw i a d) va 4 true ∧ r (.ldwu i a d) va 4 false) ∧
      (va.toNat % 8 = 0 → r (.ldd i a d) va 8 false)) ∧
    (let zva := c.zrel z + BitVec.ofNat 64 (8 * o.toNat)
     translate s c zva .genLoad = .ok loc → zva.toNat % 8 = 0 → r (.ldz o z d) zva 8 false)


/-- R36, R35, R37: what a load is answered, byte by byte: from the newest buffer of the context (the phase buffer and what fills behind
unsent PHASEs, log entry 59) that holds the byte, else from the newest write of the transit set that does, else from the snapshot's line,
else from its home, which is noted. The answer is poisoned where a line that gives one of its bytes is, and not where it is not: also where
several lines, or writes of the transit set, give its bytes. The home answers its line, unless another task has written the line through an
OWN page (R56). -/
def Obligations.LoadAnswers : Prop :=
  ∀ (s : State) (me : Option Nat) (o : OrdState) (pkg line : Nat) (want : BitVec 64),
    let r := answerLine s me o pkg line want
    let gives (i : Nat) (e : PbEntry) : Prop := e.loc.pkg = pkg ∧ e.loc.pa / 64 = line ∧ e.mask.getLsbD i = true
    let buffered := o.buffers.flatten
    let rest := (o.snapLine pkg line).getD (s.readHome me pkg line)
    (∀ i, i < 64 → want.getLsbD i = true →
      (∀ e pre post, buffered = pre ++ e :: post → gives i e → (∀ x ∈ pre, ¬ gives i x) → lineByte r.1 i = lineByte e.data i) ∧
      ((∀ x ∈ buffered, ¬ gives i x) →
        (∀ e pre post, o.transit = pre ++ e :: post → gives i e → (∀ x ∈ post, ¬ gives i x) → lineByte r.1 i = lineByte e.data i) ∧
        ((∀ x ∈ o.transit, ¬ gives i x) → lineByte r.1 i = lineByte rest.1 i ∧ r.2.2 = (o.snapLine pkg line).isNone))) ∧
    (∀ e pre post, buffered = pre ++ e :: post → want ≠ 0 → (∀ i, i < 64 → want.getLsbD i = true → gives i e ∧ ∀ x ∈ pre, ¬ gives i x) →
      r.2.1 = e.poison ∧ r.2.2 = false) ∧
    (want ≠ 0 → (∀ i, i < 64 → want.getLsbD i = true → ∀ x ∈ buffered ++ o.transit, ¬ gives i x) → r.2.1 = rest.2) ∧
    (r.2.1 = true ↔ ∃ i, i < 64 ∧ want.getLsbD i = true ∧
      ((∃ e pre post, buffered = pre ++ e :: post ∧ gives i e ∧ (∀ x ∈ pre, ¬ gives i x) ∧ e.poison = true) ∨
       ((∀ x ∈ buffered, ¬ gives i x) ∧
        ∃ e pre post, o.transit = pre ++ e :: post ∧ gives i e ∧ (∀ x ∈ post, ¬ gives i x) ∧ e.poison = true) ∨
       ((∀ x ∈ buffered ++ o.transit, ¬ gives i x) ∧ rest.2 = true))) ∧
    ((∀ p ∈ s.ownPast, p.key ≠ lineKey pkg line) → s.readHome me pkg line = (s.homeLine pkg line, s.linePoisoned pkg line))


/-- R108, R109, R37: a generator store to a page that is no device space, with a clean base and an aligned address that
translates, puts the low bytes of b into the context's buffer where it has room, and changes no byte of memory: the line's entry
there has those bytes and keeps its others. Where it has none, PHASEFULL is raised at the address. R46: a store to a page of device
space goes to the device in program order, and the thread goes on. (The buffer is the phase
buffer, or what fills behind an unsent PHASE where that already holds the line: log entry 59.) -/
def Obligations.StoreResults : Prop :=
  (∀ (s : State) (c : Context) (i : BitVec 13) (o : BitVec 15) (z : BitVec 4) (a b : BitVec 6) (loc : Loc), s.Executes c →
    let va := c.thread.reg a + i.signExtend 64
    let r (j : Instr) (va : Word) (n : Nat) : Prop :=
      let s1 := s.cacheTranslation c va
      match c.ord.genStore (lineStore va loc n (c.thread.reg b) (c.thread.regPoison b)) with
      | some o => GoesOn s1 { c with ord := o } (exec j s) (c.thread.pc + 4)
      | none => c.Handles → Traps s c (exec j s) 10 0 c.thread.pc va false
    (loc.dev = true →
      let q (j : Instr) (va : Word) (n : Nat) : Prop := ∃ t, exec j s = .next (t.deviceStore loc n (c.thread.reg b) (c.id.s1root.getD 0)) ∧
        GoesOn (s.cacheTranslation c va) { c with thread := { c.thread with sideOps := c.thread.sideOps + 1 } } (.next t) (c.thread.pc + 4)
      (c.thread.regPoison a = false → translate s c va .genStore = .ok loc →
        q (.stb i a b) va 1 ∧ (va.toNat % 2 = 0 → q (.sth i a b) va 2) ∧ (va.toNat % 4 = 0 → q (.stw i a b) va 4) ∧
        (va.toNat % 8 = 0 → q (.std i a b) va 8)) ∧
      (let zva := c.zrel z + BitVec.ofNat 64 (8 * o.toNat)
       translate s c zva .genStore = .ok loc → zva.toNat % 8 = 0 → q (.stz o z b) zva 8)) ∧
    (loc.dev = false →
    (c.thread.regPoison a = false → translate s c va .genStore = .ok loc →
      r (.stb i a b) va 1 ∧ (va.toNat % 2 = 0 → r (.sth i a b) va 2) ∧ (va.toNat % 4 = 0 → r (.stw i a b) va 4) ∧
      (va.toNat % 8 = 0 → r (.std i a b) va 8)) ∧
    (let zva := c.zrel z + BitVec.ofNat 64 (8 * o.toNat)
     translate s c zva .genStore = .ok loc → zva.toNat % 8 = 0 → r (.stz o z b) zva 8))) ∧
  (∀ (l : Loc) (n : Nat) (v : Word) (root : Nat) (s : State) (p : DevPage) (o : Nat), s.deviceAt l = some (p, o) →
    s.deviceLoad l n = s.regLoad p o n .thread ∧ s.deviceStore l n v root = s.regStore p o n v root .thread) ∧
  (∀ (o : OrdState) (st : LineStore), (∀ p ∈ o.phases, findEntry p.after st.loc.pkg (st.loc.pa / 64) = none) →
    (o.pbuf.length < 512 → ∃ l, o.genStore st = some { o with pbuf := l } ∧ ∃ e, findEntry l st.loc.pkg (st.loc.pa / 64) = some e ∧
      ∀ i, i < 64 →
        (st.mask.getLsbD i = true → e.mask.getLsbD i = true ∧ lineByte e.data i = lineByte st.data i) ∧
        (∀ x, findEntry o.pbuf st.loc.pkg (st.loc.pa / 64) = some x → st.mask.getLsbD i = false →
          e.mask.getLsbD i = x.mask.getLsbD i ∧ lineByte e.data i = lineByte x.data i)) ∧
    (o.pbuf.length = 512 → findEntry o.pbuf st.loc.pkg (st.loc.pa / 64) = none → o.genStore st = none)) ∧
  (∀ (va : Word) (loc : Loc) (n : Nat) (v : Word) (p : Bool), loc.pa % 64 + n ≤ 64 → n ≤ 8 →
    let st := lineStore va loc n v p
    st.poison = p ∧ ∀ i, i < 64 → st.mask.getLsbD i = decide (loc.pa % 64 ≤ i ∧ i < loc.pa % 64 + n) ∧
      (loc.pa % 64 ≤ i → i < loc.pa % 64 + n → lineByte st.data i = v.extractLsb' (8 * (i - loc.pa % 64)) 8))


/-- R102, R108, R109, R53: where a load or store traps: POISON for a poisoned base, MISALIGN for a misaligned address, XLATE for a
translation fault other than a page that is not present, with the address in TVAL; LDZ and STZ, whose base is a relocation register,
for the last two. R102: every other use of a poisoned register raises POISON at the instruction, the registers unchanged: the
operands of a branch, the target base of JALR, LOOP's count (LOOPI has no register), the offset of BLDT and EMITM, the values of BHDR,
NSET, and CSRW to a CSR the thread may write, CPOST's record. -/
def Obligations.AccessTraps : Prop :=
  (∀ (s : State) (c : Context) (o : BitVec 15) (z : BitVec 4) (d : BitVec 6), s.Executes c → c.Handles →
    let va := c.zrel z + BitVec.ofNat 64 (8 * o.toNat)
    ∀ x ∈ [(Instr.ldz o z d, Access.genLoad), (.stz o z d, .genStore)],
      (va.toNat % 8 ≠ 0 → Traps s c (exec x.1 s) 2 0 c.thread.pc va false) ∧
      (∀ f, va.toNat % 8 = 0 → translate s c va x.2 = .error f → isNotPres f.sub = false →
        Traps s c (exec x.1 s) 3 f.sub.toNat c.thread.pc f.va false)) ∧
  (∀ (s : State) (c : Context) (i : BitVec 13) (b a d : BitVec 6) (slot : BitVec 3) (f : BitVec 5) (k : BitVec 4) (n : BitVec 12),
    s.Executes c → c.Handles →
    let uses (j : Instr) : Prop := Traps s c (exec j s) 4 0 c.thread.pc 0 false
    (c.thread.regPoison a = true ∨ c.thread.regPoison b = true →
      uses (.beq i b a) ∧ uses (.bne i b a) ∧ uses (.blt i b a) ∧ uses (.bge i b a) ∧ uses (.bltu i b a) ∧ uses (.bgeu i b a)) ∧
    (c.thread.regPoison a = true →
      uses (.jalr i a d) ∧ uses (.loop i a) ∧ uses (.bldt i a slot) ∧ uses (.bhdr a) ∧ uses (.nset a f k) ∧
      (c.management = false → uses (.emitm i a) ∧ uses (.cpost a d)) ∧
      (csrCheck c.isFirmware true n.toNat = none → uses (.csrw n a d)))) ∧
  ∀ (s : State) (c : Context) (i : BitVec 13) (a d : BitVec 6), s.Executes c → c.Handles →
    let va := c.thread.reg a + i.signExtend 64
    let acc : List (Instr × Nat × Access) :=
      [(.ldb i a d, 1, .genLoad), (.ldh i a d, 2, .genLoad), (.ldw i a d, 4, .genLoad), (.ldd i a d, 8, .genLoad),
       (.ldbu i a d, 1, .genLoad), (.ldhu i a d, 2, .genLoad), (.ldwu i a d, 4, .genLoad), (.stb i a d, 1, .genStore),
       (.sth i a d, 2, .genStore), (.stw i a d, 4, .genStore), (.std i a d, 8, .genStore)]
    ∀ x ∈ acc,
      (c.thread.regPoison a = true → Traps s c (exec x.1 s) 4 0 c.thread.pc 0 false) ∧
      (c.thread.regPoison a = false → va.toNat % x.2.1 ≠ 0 → Traps s c (exec x.1 s) 2 0 c.thread.pc va false) ∧
      (∀ f, c.thread.regPoison a = false → va.toNat % x.2.1 = 0 → translate s c va x.2.2 = .error f → isNotPres f.sub = false →
        Traps s c (exec x.1 s) 3 f.sub.toNat c.thread.pc f.va false)

/-- R110: a branch on clean registers goes to p + 4 × Sext(off13) where its condition holds and to p + 4 where it does not.
R111: JAL and JALR write the return address and go to their target; a JALR target that is no multiple of 4 raises MISALIGN
with the target in TVAL and the register unchanged. -/
def Obligations.ControlFlowResults : Prop :=
  (∀ (s : State) (c : Context) (i : BitVec 13) (b a : BitVec 6), s.Executes c →
      c.thread.regPoison a = false → c.thread.regPoison b = false →
      let x := c.thread.reg a
      let y := c.thread.reg b
      let r (j : Instr) (cond : Prop) : Prop :=
        (cond → GoesOn s c (exec j s) (c.thread.pc + BitVec.ofInt 64 (i.toInt * 4))) ∧ (¬ cond → GoesOn s c (exec j s) (c.thread.pc + 4))
      r (.beq i b a) (x = y) ∧ r (.bne i b a) (x ≠ y) ∧ r (.blt i b a) (x.toInt < y.toInt) ∧ r (.bge i b a) (y.toInt ≤ x.toInt) ∧
      r (.bltu i b a) (x.toNat < y.toNat) ∧ r (.bgeu i b a) (y.toNat ≤ x.toNat)) ∧
  (∀ (s : State) (c : Context) (u : BitVec 19) (i : BitVec 13) (a d : BitVec 6), s.Executes c →
      let target := c.thread.reg a + i.signExtend 64
      Writes s c (exec (.jal u d) s) d (c.thread.pc + 4) false (c.thread.pc + BitVec.ofInt 64 (u.toInt * 4)) ∧
      (c.thread.regPoison a = false → target.toNat % 4 = 0 →
        Writes s c (exec (.jalr i a d) s) d (c.thread.pc + 4) false target) ∧
      (c.thread.regPoison a = false → target.toNat % 4 ≠ 0 → c.Handles →
        Traps s c (exec (.jalr i a d) s) 2 0 c.thread.pc target false))

/-- R112: LOOP and LOOPI skip the body for a zero count, push a level for any other while fewer than six are pushed, and
raise LOOPOVF for the seventh. R114, R115: LBRK makes the innermost level's count its index plus one, or raises ILLINS with
subcause 2 at the floor; LIDX gives a level's index, and 0 at and beyond Depth − Floor. R113: the end check at the innermost level: it does
nothing at the floor or before the end PC; it starts the next iteration while one is left; else it pops the level and goes on with the
next. -/
def Obligations.LoopResults : Prop :=
  (∀ (s : State) (c : Context) (l : BitVec 13) (cnt : BitVec 6) (n : BitVec 19) (m : BitVec 6), s.Executes c →
      let r (j : Instr) (count : Word) (len : Nat) : Prop :=
        let past := c.thread.pc + 4 + BitVec.ofNat 64 (4 * len)
        let pushed : Context := { c with thread := { c.thread with
          loops := { index := 0, count := count, start := c.thread.pc + 4, stop := past } :: c.thread.loops } }
        (count = 0 → GoesOn s c (exec j s) past) ∧
        (count ≠ 0 → c.thread.loops.length ≠ 6 → GoesOn s pushed (exec j s) (c.thread.pc + 4)) ∧
        (count ≠ 0 → c.thread.loops.length = 6 → c.Handles → Traps s c (exec j s) 7 0 c.thread.pc 0 false)
      (c.thread.regPoison cnt = false → r (.loop l cnt) (c.thread.reg cnt) l.toNat) ∧
      r (.loopi n m) (n.setWidth 64) (m.toNat + 1)) ∧
  (∀ (s : State) (c : Context) (k : BitVec 3) (d : BitVec 6), s.Executes c →
      (∀ l rest, c.thread.loops = l :: rest → c.thread.floor < c.thread.depth →
        GoesOn s { c with thread := { c.thread with loops := { l with count := l.index + 1 } :: rest } } (exec .lbrk s)
          (c.thread.pc + 4)) ∧
      (c.thread.depth ≤ c.thread.floor → c.Handles → Traps s c (exec .lbrk s) 1 2 c.thread.pc 0x2A false) ∧
      Writes s c (exec (.lidx k d) s) d
        (if h : c.thread.floor + k.toNat < c.thread.depth then
          (c.thread.loops[k.toNat]'(by unfold Thread.depth at h; omega)).index else 0)
        false (c.thread.pc + 4)) ∧
  ∀ (floor : Nat) (next : Word) (l : LoopLevel) (rest : List LoopLevel),
    let r := endCheck floor next (l :: rest)
    (rest.length + 1 ≤ floor ∨ next ≠ l.stop → r = (l :: rest, next, false)) ∧
    (floor < rest.length + 1 → next = l.stop → l.index.toNat + 1 < l.count.toNat →
      r = ({ l with index := l.index + 1 } :: rest, l.start, true)) ∧
    (floor < rest.length + 1 → next = l.stop → l.count.toNat ≤ l.index.toNat + 1 →
      r.1 = (endCheck floor next rest).1 ∧ r.2.1 = (endCheck floor next rest).2.1 ∧ r.2.2 = true)
/-- R116, R117: the composer writes: BSET and BFLD with their poison rule, BLDT from template memory with its faults, BHDR with its
range. -/
def Obligations.ComposerResults : Prop :=
  ∀ (s : State) (c : Context) (a n p : BitVec 6) (slot : BitVec 3) (o : BitVec 13), s.Executes c →
    let t := c.thread
    let put (v : Word) (q : Bool) : Context := { c with thread := t.setComp slot.toNat v q }
    let off := t.reg a + BitVec.ofInt 64 (o.toInt * 4)
    GoesOn s (put (t.reg a) (t.regPoison a)) (exec (.bset a slot) s) (t.pc + 4) ∧
    (p.toNat + n.toNat + 1 ≤ 64 → ∃ v,
      (∀ i, i < 64 → v.getLsbD i = if p.toNat ≤ i ∧ i < p.toNat + n.toNat + 1 then (t.reg a).getLsbD (i - p.toNat)
        else (t.comp slot.toNat).getLsbD i) ∧
      GoesOn s (put v (t.compPoison slot.toNat || t.regPoison a)) (exec (.bfld a n p slot) s) (t.pc + 4)) ∧
    (t.regPoison a = false → off.toNat % 4 = 0 → off.toNat + 8 ≤ c.id.templSize →
      GoesOn s (put (s.home64 c.pkg (c.id.templPa + off.toNat)) (s.rangePoisoned c.pkg (c.id.templPa + off.toNat) 8))
        (exec (.bldt o a slot) s) (t.pc + 4)) ∧
    (t.regPoison a = false → off.toNat % 4 ≠ 0 → c.Handles → Traps s c (exec (.bldt o a slot) s) 2 0 t.pc off false) ∧
    (t.regPoison a = false → off.toNat % 4 = 0 → c.id.templSize < off.toNat + 8 → c.Handles →
      Traps s c (exec (.bldt o a slot) s) 3 1 t.pc off false) ∧
    (t.regPoison a = false → (t.reg a).toNat < 256 →
      GoesOn s { c with thread := { t with hreg := BitVec.ofNat 8 (t.reg a).toNat } } (exec (.bhdr a) s) (t.pc + 4)) ∧
    (t.regPoison a = false → 256 ≤ (t.reg a).toNat → c.Handles →
      Traps s c (exec (.bhdr a) s) 1 1 t.pc (((encodeGen (.bhdr a)).getD 0).setWidth 64) false)

/-- R118, R57, R58, R123: EMIT with a header that R58 allows, clean composer slots and a free queue entry pushes one entry: the header
of its fields, the named slots' composer words in slot order, the provenance (p, EMITSEQ) and the pending descriptor list; the
list becomes empty, EMITSEQ rises by one, the composer stays. Where 64 entries stand in the queue it stalls and has not begun. -/
def Obligations.EmitResults : Prop :=
  ∀ (s : State) (c : Context) (cs hw : BitVec 1) (sc : BitVec 2) (sp : BitVec 1) (r : BitVec 8) (m : BitVec 7),
    s.Executes c → c.management = false → ¬ (m = 0 ∧ r = 0) → ¬ (sp = 0 ∧ sc ≠ 0) →
    (∀ i, i < 7 → m.getLsbD i = true → c.thread.compPoison i = false) →
    let t := c.thread
    let hdr : BitVec 32 := m.setWidth 32 ||| sp.setWidth 32 <<< 7 ||| sc.setWidth 32 <<< 8 ||| r.setWidth 32 <<< 10 |||
      (if hw = 1 then t.hreg.setWidth 32 <<< 18 else 0) ||| cs.setWidth 32 <<< 26
    let words := ((List.range 7).filter (fun i => m.getLsbD i)).map (fun i => (i, t.comp i))
    (c.qlevel = 64 → Waits s c (exec (.emit cs hw sc sp r m) s) .queueFull) ∧
    (c.qlevel < 64 → ∃ e, e.isDesc = false ∧ e.header = hdr ∧ e.words = words ∧ e.pc = t.pc ∧ e.seq = t.emitSeq ∧
      e.nest = t.pending ∧ e.reps = 0 ∧
      GoesOn s { c with queue := c.queue ++ [.entry e], thread := { t with pending := [], emitSeq := t.emitSeq + 1 } }
        (exec (.emit cs hw sc sp r m) s) (t.pc + 4))

/-- R118, R58: EMIT raises BADHDR with the header in TVAL for an empty mask without repetition and for a scope without SP, and POISON
for a poisoned composer slot it would push. R117, R119: EMITM raises POISON for a poisoned base or image, MISALIGN for an offset that is
no multiple of 4, XLATE with BADVA for a header or an image that lies beyond the template section, with the offset in TVAL (log entry
56), and BADHDR with the header in TVAL for a header that R58 forbids. -/
def Obligations.EmitTraps : Prop :=
  (∀ (s : State) (c : Context) (o : BitVec 13) (a : BitVec 6), s.Executes c → c.management = false → c.Handles →
    let off := c.thread.reg a + BitVec.ofInt 64 (o.toInt * 4)
    let pa := c.id.templPa + off.toNat
    let hdr := s.home32 c.pkg pa
    let size := 4 + 8 * ((List.range 7).filter (fun i => hdr.getLsbD i)).length
    let bad := hdr.extractLsb' 27 5 ≠ 0 ∨ (hdr.extractLsb' 0 7 = 0 ∧ hdr.extractLsb' 10 8 = 0) ∨ (hdr.getLsbD 7 = false ∧ hdr.extractLsb' 8 2 ≠ 0)
    let r (code sub : Nat) (tval : Word) : Prop := Traps s c (exec (.emitm o a) s) code sub c.thread.pc tval false
    (c.thread.regPoison a = true → r 4 0 0) ∧
    (c.thread.regPoison a = false →
      (off.toNat % 4 ≠ 0 → r 2 0 off) ∧
      (off.toNat % 4 = 0 → c.id.templSize < off.toNat + 4 → r 3 1 off) ∧
      (off.toNat % 4 = 0 → off.toNat + 4 ≤ c.id.templSize →
        (bad → r 6 0 (hdr.setWidth 64)) ∧
        (¬ bad → c.id.templSize < off.toNat + size → r 3 1 off) ∧
        (¬ bad → off.toNat + size ≤ c.id.templSize → s.rangePoisoned c.pkg pa size = true → r 4 0 0)))) ∧
  ∀ (s : State) (c : Context) (cs hw : BitVec 1) (sc : BitVec 2) (sp : BitVec 1) (r : BitVec 8) (m : BitVec 7),
    s.Executes c → c.management = false → c.Handles →
    let bad := (m = 0 ∧ r = 0) ∨ (sp = 0 ∧ sc ≠ 0)
    (bad → Traps s c (exec (.emit cs hw sc sp r m) s) 6 0 c.thread.pc
      ((emitHeader cs hw sc sp r m c.thread.hreg).setWidth 64) false) ∧
    (¬ bad → (∃ i, i < 7 ∧ m.getLsbD i = true ∧ c.thread.compPoison i = true) →
      Traps s c (exec (.emit cs hw sc sp r m) s) 4 0 c.thread.pc 0 false)

/-- R119: EMITM pushes the bundle image at the template offset, its header first and then one 64-bit word per PRESENT bit, as EMIT
does, and neither reads nor changes the composer or H. -/
def Obligations.EmitmResults : Prop :=
  ∀ (s : State) (c : Context) (o : BitVec 13) (a : BitVec 6), s.Executes c → c.management = false → c.thread.regPoison a = false →
    let t := c.thread
    let off := t.reg a + BitVec.ofInt 64 (o.toInt * 4)
    let pa := c.id.templPa + off.toNat
    let hdr := s.home32 c.pkg pa
    let slots := (List.range 7).filter (fun i => hdr.getLsbD i)
    off.toNat % 4 = 0 → off.toNat + 4 + 8 * slots.length ≤ c.id.templSize → badHeader hdr = false →
    s.rangePoisoned c.pkg pa (4 + 8 * slots.length) = false →
    (c.qlevel = 64 → Waits s c (exec (.emitm o a) s) .queueFull) ∧
    (c.qlevel < 64 → ∃ e, e.isDesc = false ∧ e.header = hdr ∧ e.pc = t.pc ∧ e.seq = t.emitSeq ∧ e.nest = t.pending ∧ e.reps = 0 ∧
      e.words = (List.range slots.length).map (fun i => (slots.getD i 0, s.home64 c.pkg (pa + 4 + 8 * i))) ∧
      GoesOn s { c with queue := c.queue ++ [.entry e], thread := { t with pending := [], emitSeq := t.emitSeq + 1 } }
        (exec (.emitm o a) s) (t.pc + 4))

/-- R122, R123: NSET with a clean value in its field's range appends the write to the pending list; a thirty-third first pushes the
list as a descriptor entry; a value outside the range raises ILLINS with subcause 1. -/
def Obligations.NsetResults : Prop :=
  ∀ (s : State) (c : Context) (a : BitVec 6) (f : BitVec 5) (n : BitVec 4), s.Executes c → c.thread.regPoison a = false →
    let t := c.thread
    let w : NestWrite := { n := n.toNat, field := f.toNat, value := t.reg a }
    (nestInRange f.toNat (t.reg a) = true → t.pending.length < 32 →
      GoesOn s { c with thread := { t with pending := t.pending ++ [w] } } (exec (.nset a f n) s) (t.pc + 4)) ∧
    (nestInRange f.toNat (t.reg a) = true → t.pending.length = 32 → c.management = false → c.qlevel < 64 →
      ∃ e, e.isDesc = true ∧ e.nest = t.pending ∧
        GoesOn s { c with queue := c.queue ++ [.entry e], thread := { t with pending := [w] } } (exec (.nset a f n) s) (t.pc + 4)) ∧
    (nestInRange f.toNat (t.reg a) = false → c.Handles →
      Traps s c (exec (.nset a f n) s) 1 1 t.pc (((encodeGen (.nset a f n)).getD 0).setWidth 64) false)

/-- R124, R105, R104: CSRR gives d the CSR's value, clean. CSRW gives d the old value and then writes a into the CSR: of the
context, which then reads what was written in the bits that its fields have (TVEC, TPC, ULIVEC and ULIPC with bits [1:0] zero; a
W1C write clears the bits written as 1 and no other; BFPERF only in the handler of a BUNDLE trap), every other CSR as before; or
of its core: FRZCNT, CYCLE, FWSHARE, SPINLIM, WDWIN, SLOTMAP unless a tenant context is RESIDENT on the core (R29), and PLIM
held for the next core cycle (R28). -/
def Obligations.CsrResults : Prop :=
  (∀ (s : State) (c : Context) (n : BitVec 12) (a d : BitVec 6), s.Executes c →
      let v := c.thread.reg a
      let r := s.core c.coreKey
      (csrCheck c.isFirmware false n.toNat = none →
        Writes s c (exec (.csrr n d) s) d (csrValue s c n.toNat) false (c.thread.pc + 4)) ∧
      (csrCheck c.isFirmware true n.toNat = none → c.thread.regPoison a = false → (n.toNat < 0x100 ∧ n.toNat ≠ 0x43 ∧ n.toNat ≠ 0x44) →
        Writes s (c.writeCsr n.toNat v) (exec (.csrw n a d) s) d (csrValue s c n.toNat) false (c.thread.pc + 4)) ∧
      (let sets (m : Nat) (r' : Core) : Prop := n.toNat = m → csrCheck c.isFirmware true m = none → c.thread.regPoison a = false →
         ∃ t c', exec (.csrw n a d) s = .next t ∧ t.ctx s.cur = some c' ∧ c.thread.Wrote c'.thread d (csrValue s c m) false ∧
           c'.thread.pc = c.thread.nextPc (c.thread.pc + 4) ∧ c'.thread.loops = c.thread.nextLoops (c.thread.pc + 4) ∧
           c.OnlyThread c' ∧ c.thread.OnlyFlow c'.thread ∧ t.core c.coreKey = r' ∧ (∀ k, k ≠ c.coreKey → t.core k = s.core k) ∧
           (∀ k, k ≠ s.cur → t.ctx k = s.ctx k) ∧ t = { s with contexts := t.contexts, cores := t.cores }
       sets 0x043 { r with frzcnt := v.extractLsb' 0 48 } ∧ sets 0x044 { r with cycle := v } ∧
       sets 0x100 { r with fwshare := v &&& 0x7F#64 } ∧ sets 0x103 { r with spinlim := v &&& 0xFFFFFFFF#64 } ∧
       sets 0x104 { r with wdwin := v &&& 0xFFFFFFFFFFFF#64 } ∧ sets 0x102 { r with plimNext := some (v &&& 0xFFFFF#64) } ∧
       (s.tenantResident c.coreKey = false → sets 0x101 { r with slotmap := v &&& 7#64 }) ∧
       (s.tenantResident c.coreKey = true → sets 0x101 r))) ∧
  (∀ (s : State) (core : Nat), s.tenantResident core = true ↔
    ∃ p ∈ (s.core core).slots, ∃ x, s.ctx p.2 = some x ∧ x.status = .resident ∧ x.firmware = false) ∧
  (∀ (r : Core) (p : Word), r.plimNext = some p → r.advance.plim = p ∧ r.advance.plimNext = none) ∧
  (∀ (s : State) (c : Context) (v : Word),
      let r (n : Nat) : Word := csrValue s (c.writeCsr n v) n
      (∀ n ∈ [0x020, 0x022, 0x030, 0x033], r n = v &&& ~~~3#64) ∧ r 0x032 = v &&& 0xFFFF#64 ∧
      r 0x070 = v &&& 0xFFFFFFFF#64 ∧ r 0x031 = c.thread.ulipend &&& ~~~(v &&& 0xFFFF#64) ∧
      r 0x063 = c.be.oorflag &&& ~~~(v &&& 1#64) ∧ r 0x068 = c.be.vflags &&& ~~~(v &&& 0xFF#64) ∧
      (∀ n, 0x010 ≤ n → n ≤ 0x01F → r n = v) ∧ (∀ n ∈ [0x023, 0x028, 0x029, 0x02A, 0x02C, 0x045], r n = v) ∧
      (∀ n, 0x050 ≤ n → n ≤ 0x059 → r n = v &&& 0xFFFFFFFFFFFF#64) ∧
      (∀ x ∈ [(0x000, 25), (0x001, 16), (0x002, 20), (0x003, 24), (0x004, 25), (0x021, 17), (0x024, 8), (0x02B, 24), (0x040, 32),
              (0x042, 48), (0x064, 22), (0x071, 32)], r x.1 = BitVec.ofNat 64 (v.toNat % 2 ^ x.2)) ∧
      (∀ n ∈ [0x060, 0x061, 0x062], r n = v &&& 0x7F7F#64) ∧
      (c.thread.inTrap = true ∧ c.thread.tcause.toNat % 256 = 11 → r 0x02D = v &&& 0x7F#64) ∧
      (¬ (c.thread.inTrap = true ∧ c.thread.tcause.toNat % 256 = 11) → r 0x02D = c.thread.bfperf.setWidth 64) ∧
      ∀ n m, m ≠ n → csrValue s (c.writeCsr n v) m = csrValue s c m)


/-- R104: a tenant's CSRW to a CSR marked RO and any tenant access to a privileged CSR raise CSRPRIV with the number in TVAL; an
access to an unassigned number raises ILLINS with subcause 1; the thread's registers are unchanged. (A CSRW's operand is clean: which
of two faults comes first is log entry 69.) -/
def Obligations.CsrPrivilege : Prop :=
  ∀ (s : State) (c : Context) (n : BitVec 12) (a d : BitVec 6), s.Executes c → c.Handles → c.firmware = false → c.management = false →
    (csrAccess n.toNat = .privileged → Traps s c (exec (.csrr n d) s) 5 0 c.thread.pc (n.setWidth 64) false) ∧
    (csrAccess n.toNat = .privileged ∨ csrAccess n.toNat = .ro → c.thread.regPoison a = false →
      Traps s c (exec (.csrw n a d) s) 5 0 c.thread.pc (n.setWidth 64) false) ∧
    (csrAccess n.toNat = .unassigned →
      Traps s c (exec (.csrr n d) s) 1 1 c.thread.pc (((encodeGen (.csrr n d)).getD 0).setWidth 64) false ∧
      (c.thread.regPoison a = false → Traps s c (exec (.csrw n a d) s) 1 1 c.thread.pc (((encodeGen (.csrw n a d)).getD 0).setWidth 64) false))

/-- R126: GCHK raises POISON if s[a] is poisoned and otherwise does nothing. -/
def Obligations.GchkRule : Prop :=
  ∀ (s : State) (c : Context) (a : BitVec 6), s.Executes c →
    (c.thread.regPoison a = true → c.Handles → Traps s c (exec (.gchk a) s) 4 0 c.thread.pc 0 false) ∧
    (c.thread.regPoison a = false → GoesOn s c (exec (.gchk a) s) (c.thread.pc + 4))

/-- R130: TRAPC raises the generator fault TRAPC with TVAL := CODE and TPC := p + 4. -/
def Obligations.TrapcRule : Prop :=
  ∀ (s : State) (c : Context) (code : BitVec 13), s.Executes c → c.Handles →
    Traps s c (exec (.trapc code) s) 9 0 (c.thread.pc + 4) (code.setWidth 64) false

/-- R66: an undefined generator word raises ILLINS with subcause 0 at its PC, with the word in TVAL. -/
def Obligations.IllegalWord : Prop :=
  ∀ (s : State) (c : Context) (w : BitVec 32), s.Executes c → c.Handles →
    Traps s c (exec (.illegalInstruction w) s) 1 0 c.thread.pc (w.setWidth 64) false

/-- R135: a trap with a handler outside the handler is taken at TVEC, whatever its code, subcause, address and value: TPC, TCAUSE and TVAL
hold it, TSTATE.T is 1, the instruction waits for nothing, and everything else is as before. R328, R329: a trap that is taken with no
handler, or inside the handler, is fatal: the context freezes with its cause (a BUNDLE trap's is its bundle fault's), the core's frost ring
and CYCLE as they then stand, and a pre-emption under way ends (log entry 44); its thread and everything else is as before. Every generator
fault goes that way: TRAPC, an undefined word, a poisoned use, a misaligned access. -/
def Obligations.FatalTrap : Prop :=
  (∀ (s : State) (k : Nat) (c : Context) (code sub : Nat) (tpc tval : Word) (fetch : Bool), s.ctx k = some c → c.Handles →
    let t := s.takeTrap k code sub tpc tval fetch
    (∃ th, t.ctx k = some { c.unwait with thread := th } ∧ th.pc = c.thread.tvec ∧ th.tpc = tpc ∧ th.tval = tval ∧
      th.tcause = trapCause code sub fetch ∧ th.inTrap = true ∧ th.inUli = c.thread.inUli ∧ th.tdep = c.thread.depth % 8 ∧
      th.udep = c.thread.udep ∧
      th = { c.thread with pc := th.pc, tpc := th.tpc, tval := th.tval, tcause := th.tcause, tstate := th.tstate, boundary := true }) ∧
    (∀ j, j ≠ k → t.ctx j = s.ctx j) ∧ (∀ j, t.core j = { s.core j with frost := (t.core j).frost }) ∧
    t = { s with contexts := t.contexts, cores := t.cores }) ∧
  (∀ (s : State) (k : Nat) (c : Context) (code sub : Nat) (tpc tval : Word) (fetch : Bool), s.ctx k = some c → c.sch.freeze = none →
    c.thread.inTrap = true ∨ c.thread.tvec = 0 →
    let t := s.takeTrap k code sub tpc tval fetch
    let ring := (s.core c.coreKey).frost
    let cause : TrapCause := if code = 11 then { cls := 1, code := c.thread.bfcause.toNat % 256, sub := c.thread.bfcause.toNat / 256 % 256, tval := tval }
      else { cls := 0, code := code, sub := sub, tval := tval }
    let f : Freeze := { cause := cause, fatal := true, settled := false, dumped := none, order := s.moves,
                        frost := ring.copy.getD ring.list, cycle := (s.core c.coreKey).cycle }
    t.ctx k = some { c with sch := { c.sch with preempt := none, freeze := some f } } ∧
    (∀ j, j ≠ k → t.ctx j = s.ctx j) ∧ (∀ j, t.core j = { s.core j with frost := (t.core j).frost }) ∧
    t = { s with contexts := t.contexts, cores := t.cores }) ∧
  (∀ (s : State) (c : Context), s.Executes c → c.sch.freeze = none → c.thread.inTrap = true ∨ c.thread.tvec = 0 →
    let fatal (i : Instr) (code sub : Nat) (tval : Word) : Prop := ∃ t c' f, exec i s = .next t ∧ t.ctx s.cur = some c' ∧
      c'.thread = c.thread ∧ c'.sch.freeze = some f ∧ f.fatal = true ∧ f.cause = { cls := 0, code := code, sub := sub, tval := tval } ∧
      GenFrame s t
    (∀ code, fatal (.trapc code) 9 0 (code.setWidth 64)) ∧ (∀ w, fatal (.illegalInstruction w) 1 0 (w.setWidth 64)) ∧
    (∀ a, c.thread.regPoison a = true → fatal (.gchk a) 4 0 0) ∧
    (∀ i a d, c.thread.regPoison a = false → (c.thread.reg a + i.signExtend 64).toNat % 8 ≠ 0 →
      fatal (.ldd i a d) 2 0 (c.thread.reg a + i.signExtend 64)))


/-- R131: XRET from the trap handler clears TSTATE.T and goes to TPC; from the interrupt handler alone it clears U and goes to ULIPC;
outside both it raises ILLINS with subcause 2. A return from a BUNDLE trap releases the back end (R135), from another one leaves it as
it is; the end check (R113) applies to where it goes. -/
def Obligations.XretResults : Prop :=
  ∀ (s : State) (c : Context), s.Executes c →
    (c.thread.inTrap = true → c.thread.tcause.toNat % 256 ≠ 11 →
      GoesOn s { c with thread := { c.thread with tstate := mkTstate c.thread.udep c.thread.tdep c.thread.inUli false } }
        (exec .xret s) c.thread.tpc) ∧
    (c.thread.inTrap = true → c.thread.tcause.toNat % 256 = 11 →
      GoesOn s { c.release with thread := { c.thread with tstate := mkTstate c.thread.udep c.thread.tdep c.thread.inUli false } }
        (exec .xret s) c.thread.tpc) ∧
    (c.thread.inTrap = false → c.thread.inUli = true →
      GoesOn s { c with thread := { c.thread with tstate := mkTstate c.thread.udep c.thread.tdep false false } }
        (exec .xret s) c.thread.ulipc) ∧
    (c.thread.inTrap = false → c.thread.inUli = false → c.Handles →
      Traps s c (exec .xret s) 1 2 c.thread.pc 0x48 false)

/-- R125, R127, R129, R132, R133: the instructions that wait: PHASEG at a scope wider than CORE begins its PHASE, CPOST its PHASE at SYS
with its record's address; SPIN, HALT and DRAINQ wait; HALT and DRAINQ raise ILLINS with subcause 2 while the back end is frozen.
PHASEG at CORE scope goes on at once: loads that still wait belong to the phase before it (log entry 8). -/
def Obligations.GeneratorWaits : Prop :=
  ∀ (s : State) (c : Context) (sc : BitVec 2) (a d : BitVec 6), s.Executes c →
    (sc ≠ 0 → Waits s ((c.addMarker c.thread.afterPhaseg true).beginGenPhase .phaseg sc) (exec (.phaseg sc) s) .phaseg) ∧
    (c.intervalElapsed = false → GoesOn s { c with thread := { c.thread with loads := c.thread.loads.map (fun l => { l with age := l.age + 1 }) } }
      (exec (.phaseg 0) s) (c.thread.pc + 4)) ∧
    Waits s { c with sch := { c.sch with spinWait := true } } (exec .spin s) (.spin (s.core c.coreKey).cycle.toNat) ∧
    (c.beFrozen = false → Waits s c (exec .halt s) .halt) ∧
    (c.beFrozen = false → c.management = false → Waits s c (exec .drainq s) .drainq) ∧
    (c.beFrozen = true → c.Handles → Traps s c (exec .halt s) 1 2 c.thread.pc 0x46 false ∧
      Traps s c (exec .drainq s) 1 2 c.thread.pc 0x4B false) ∧
    (c.management = false → c.thread.regPoison a = false → (c.thread.reg a).toNat % 256 = 0 →
      Waits s (c.beginGenPhase .cpost 3) (exec (.cpost a d) s) (.cpostPhase d.toNat (c.thread.reg a))) ∧
    (c.management = false → c.thread.regPoison a = false → (c.thread.reg a).toNat % 256 ≠ 0 → c.Handles →
      Traps s c (exec (.cpost a d) s) 2 0 c.thread.pc (c.thread.reg a) false)

/-- R128: YIELD does nothing where no other context of the partition waits for the slot; else the thread stops after it for the
scheduler. -/
def Obligations.YieldResults : Prop :=
  ∀ (s : State) (c : Context), s.Executes c →
    (∀ slot, c.slot = some slot → s.yieldWanted c.coreKey slot c = true →
      GoesOn s { c with sch := { c.sch with yielding := true } } (exec .yield s) (c.thread.pc + 4)) ∧
    ((∀ slot, c.slot = some slot → s.yieldWanted c.coreKey slot c = false) → GoesOn s c (exec .yield s) (c.thread.pc + 4))

/-- R134: CQRY gives d the state of a handle: where the entry of the index is taken, of the handle's generation and of the context's
tenant, the code of its latest instance's state in [3:0] and, but for POSTED, its ticket rank from [4] on; else STALE. -/
def Obligations.CqryResults : Prop :=
  ∀ (s : State) (c : Context) (a d : BitVec 6), s.Executes c → c.management = false →
    let h := c.thread.reg a
    let p := s.posted (seracOfDie c.die) (h.toNat % 2 ^ 16)
    let live : Prop := h.toNat < 2 ^ 32 ∧ h.toNat % 2 ^ 16 < 1024 ∧ p.used = true ∧ p.hold = false ∧
      p.generation.toNat = h.toNat / 2 ^ 16 ∧ p.tenant = c.id.tenant
    let r (v : Word) : Prop := Writes s c (exec (.cqry a d) s) d v (c.thread.regPoison a) (c.thread.pc + 4)
    (¬ live → r 15) ∧
    (∀ x, live → p.current = some x →
      (x.state = .posted → r 0) ∧ (x.state = .ticketed → r (x.rank <<< 4 ||| 1)) ∧ (x.state = .reserved → r (x.rank <<< 4 ||| 2)) ∧
      (x.state = .running → r (x.rank <<< 4 ||| 3)) ∧ (x.state = .done → r (x.rank <<< 4 ||| 4)) ∧
      (x.state = .fault → r (x.rank <<< 4 ||| 5)))

/-! ### The slot operations (spec/03, spec/06, spec/08, spec/10, spec/12) -/

/-- R69-R77: what each control operation does at issue: NOP empties a sticky slot it names, FMTSET is seen four context cycles later,
QCFG sets a slack or a port slot, STEP a step register, WAITW and MWAIT and SYNC hold while their condition is not met, SADV
advances a consumer pointer, CKPT asks for a marker except in the firmware context, PROG is a progress event. -/
def Obligations.ControlResults : Prop :=
  ∀ (s : State) (env : SlotEnv) (c : Context), s.Issues env c →
    let be (b : BackEnd) : Context := { c with be := b }
    (∀ x ∈ [(Slot.mem, 1), (.cpy, 2), (.vx, 3), (.vy, 4), (.mtx, 5)],
      SlotDoes s env (exec (.nop x.1) s) (be { c.be with sticky := SMap.put c.be.sticky x.2 0 }) env) ∧
    SlotDoes s env (exec (.nop .ctl) s) c env ∧ SlotDoes s env (exec (.nop .syn) s) c env ∧
    (∀ acc b a, SlotDoes s env (exec (.fmtset acc b a) s)
      { c with fl := { c.fl with pendingFmt := c.fl.pendingFmt ++ [{ due := env.cc + 4, idx := env.idx, fmt := { a := a, b := b, acc := acc } }] } }
      env) ∧
    (∀ n : BitVec 5, SlotDoes s env (exec (.qcfgSlack n 0) s) (be { c.be with slackMtx := n.toNat }) env ∧
      SlotDoes s env (exec (.qcfgSlack n 1) s) (be { c.be with slackCpy := n.toNat }) env ∧
      SlotDoes s env (exec (.qcfgSlack n 2) s) (be { c.be with slackSyn := n.toNat }) env) ∧
    (∀ (rv : BitVec 1) (slot bank : BitVec 2), ∃ ports : BitVec 16, (∀ i, i < 16 → ports.getLsbD i =
        if i = 4 * bank.toNat + slot.toNat then rv == 1 else c.be.ports.getLsbD i) ∧
      SlotDoes s env (exec (.qcfgPort rv slot bank) s) (be { c.be with ports := ports }) env) ∧
    (∀ n sel slot, SlotDoes s env (exec (.stepReg n sel slot) s)
      (be { c.be with steps := SMap.put c.be.steps (8 * slot.toNat + sel.toNat) n }) env) ∧
    (∀ bytes ch, (∀ o ∈ c.fl.copyOps, ¬ (o.idx < env.idx ∧ o.w.ch = ch)) → SlotDoes s env (exec (.waitw bytes ch) s) c env) ∧
    (∀ bytes ch pre o post, c.fl.copyOps = pre ++ o :: post → (∀ q ∈ pre, ¬ (q.idx < env.idx ∧ q.w.ch = ch)) →
      o.idx < env.idx → o.w.ch = ch →
      SlotDoes s env (exec (.waitw bytes ch) s) c (env.held (decide (o.wp < bytes.toNat)) hSTREAM)) ∧
    SlotDoes s env (exec (.sadv 0 0) s) c env ∧
    (∀ beats : BitVec 10, beats ≠ 0 →
      let waits (st : Stream) : Bool := c.fl.mtxOps.any (fun o => decide (o.idx < env.idx) && o.reading) ||
        decide ((st.produced - st.consumer).toNat < beats.toNat)
      SlotDoes s env (exec (.sadv beats 0) s)
        (be { c.be with sa := { c.be.sa with consumer := c.be.sa.consumer + beats.setWidth 32 } }) (env.held (waits c.be.sa) hSTREAM) ∧
      SlotDoes s env (exec (.sadv beats 1) s)
        (be { c.be with sb := { c.be.sb with consumer := c.be.sb.consumer + beats.setWidth 32 } }) (env.held (waits c.be.sb) hSTREAM)) ∧
    (∀ tile, SlotDoes s env (exec (.mwait tile) s) c (env.held (c.tileOwner env.idx tile.toNat).isSome hSTREAM)) ∧
    SlotDoes s env (exec .ckpt s) c (if c.isFirmware then env else { env with marks := true }) ∧
    SlotDoes s env (exec .prog s) c.progress env ∧
    SlotDoes s env (exec .sync s) c (env.held (!(c.fl.issued.isEmpty && c.fl.mtxOps.isEmpty && c.fl.copyOps.isEmpty &&
      c.fl.landings.all (·.arrived) && c.fl.syncOps.all SyncOp.performed)) hSYNC)

/-- R226, R227, R154, R190: VLD of a tile within its window takes the latest uncommitted VST's line, else the buffer's, into v six context
cycles later; VST takes v at issue and stores it at its commit. Of an F or W tile, VLD holds while the tile's writer has not passed the line
and VST while the tile is written or read; of a C tile, both hold while an ADDW names it and raise ACCBUSY while a matrix operation owns it,
and a VLD's read of the bank is on the bundle's record (R188). Outside the window a VLD reads zeros, and both mark the access for
OORFLAG. -/
def Obligations.BufferAccess : Prop :=
  ∀ (s : State) (env : SlotEnv) (c : Context) (w : MemBuf), s.Issues env c → w.buf ≠ 3 →
    let buf := w.buf.toNat
    let tile := w.tile.toNat
    let line := 4 * w.row.toNat + w.part.toNat
    let inside : Prop := tile < winLimit (c.window buf)
    let stored := (c.vview env.cc).reg w.v.toNat
    let oor : List CommitAct := [.outOfRange buf tile w.row.toNat (64 * w.part.toNat)]
    let lands (x : Line × Bool) : Context := c.addWrite
      { due := env.cc + 6, idx := env.idx, ord := ordMem, target := .vreg w.v.toNat (BitVec.allOnes 64) x.1, poison := x.2 }
    let meets (e : SlotEnv) (busy : Bool) : SlotEnv :=
      if buf = 2 then match c.tileOwner env.idx tile with
        | some o => (e.held (c.addwOn env.idx tile) hTILE).faults
          { slot := 1, cause := bACCBUSY, sub := 0, addr := BitVec.ofNat 64 (tile * 2 ^ 32 + o.seq.toNat) }
        | none => e.held (c.addwOn env.idx tile) hTILE
      else e.held busy hTILE
    let reads (e : SlotEnv) : SlotEnv := if buf = 2 then { e with cRead := some tile } else e
    let reading := c.readHeld env.idx buf tile (256 * w.row.toNat + 64 * w.part.toNat + 64)
    let writing := c.writeHeld env.idx buf tile
    (inside → SlotDoes s env (exec (.vld w) s)
      (lands ((c.pendingStore buf tile line).getD ((s.readLine c buf tile line).data, (s.readLine c buf tile line).poison)))
      (meets (reads (env.does [])) reading)) ∧
    (¬ inside → SlotDoes s env (exec (.vld w) s) (lands (0, false)) (meets (reads (env.does oor)) reading)) ∧
    (inside → SlotDoes s env (exec (.vst w) s) c (meets (env.does [.bufStore buf tile line stored.1 stored.2]) writing)) ∧
    (¬ inside → SlotDoes s env (exec (.vst w) s) c (meets (env.does (.bufStore buf tile line stored.1 stored.2 :: oor)) writing))

/-- R228-R231: the global and gather forms: a load takes a landing entry whose data arrives no sooner than ARR + 24 context cycles after
issue, holding while all 32 are taken; a store enters what the bundle does at its commit; a translation fault is taken at the
commit point, except that a speculative load takes none; a relocation register that is no multiple of 64 makes the word of a
global form illegal. PFTCH performs nothing. That VGTH and VSCT ignore the poison of their index register is read from R228 and R229 (log
entry 39). -/
def Obligations.GlobalAccess : Prop :=
  ∀ (s : State) (env : SlotEnv) (c : Context) (g : MemGlob) (t : MemGath), s.Issues env c →
    let full := decide (32 ≤ c.fl.landings.length)
    let takes (kind v arr : Nat) (todo : List LoadPart) : Context := { c with fl := { c.fl with landings := c.fl.landings ++
      [{ idx := env.idx, due := env.cc + arr + 24, v := v, kind := kind, mask := BitVec.allOnes 64, data := 0, poison := false,
         todo := todo, arrived := false, phaseNo := c.fl.phaseNo }] } }
    let miss (e : SlotEnv) (f : Option XFault) : SlotEnv := match f with
      | some x => e.misses 1 x
      | none => e
    let va := c.zrel g.z + g.off.setWidth 64
    let index := ((c.vview env.cc).reg t.vb.toNat).1
    let lanesOf (acc : Access) := (List.range 16).map (fun i => translateElement s c (gatherVa (c.zrel t.z) index i) (gatherSize t.ty.toNat) acc)
    let loads := lanesOf .load
    let gtodo := (loads.zip (List.range 16)).flatMap (fun ei => ei.1.parts.map (loadPart ei.2 (gatherSigned t.ty.toNat)))
    let env0 := if (c.zrel g.z).toNat % 64 = 0 then env else env.faults { slot := 1, cause := bILLSLOT, sub := 4, addr := 0 }
    let ld := translateElement s c va 64 .load
    let st := translateElement s c va 64 .store
    let vg := (c.vview env.cc).reg g.v.toNat
    let vt := (c.vview env.cc).reg t.v.toNat
    let line := takes 0 g.v.toNat g.arr.toNat (ld.parts.map (loadPart 0 false))
    let lanes16 := takes 1 t.v.toNat t.arr.toNat gtodo
    SlotDoes s env (exec (.vldg g) s) line (miss (env0.held full hLANDFULL) ld.fault) ∧
    SlotDoes s env (exec (.vldgs g) s) line (env0.held full hLANDFULL) ∧
    SlotDoes s env (exec (.vstg g) s) c (miss (env0.does [.memStore (storeParts st vg.1.toNat vg.2)]) st.fault) ∧
    SlotDoes s env (exec (.vgth t) s) lanes16 (miss (env.held full hLANDFULL) (lowestFault loads)) ∧
    SlotDoes s env (exec (.vgths t) s) lanes16 (env.held full hLANDFULL) ∧
    SlotDoes s env (exec (.vsct t) s) c
      (miss (env.does [.memStore (((lanesOf .store).zip (List.range 16)).flatMap (fun ei => storeParts ei.1 (lane vt.1 32 ei.2) vt.2))])
        (lowestFault (lanesOf .store))) ∧
    SlotDoes s env (exec (.pftch g) s) c env

/-- R232, R39, R64, R275: PHASE takes the next place among the phase boundaries of the bundle stream with the bundle's scope; at DIE
scope or wider, but for the firmware context, its bundle gives rise to a marker. -/
def Obligations.PhaseResults : Prop :=
  ∀ (s : State) (env : SlotEnv) (c : Context), s.Issues env c →
    let c' : Context := { c with fl := { c.fl with phaseNo := c.fl.phaseNo + 1 } }
    let env' := env.does [.phase env.scope c.fl.phaseNo]
    (env.scope ≠ 0 → c.isFirmware = false → SlotDoes s env (exec .phase s) c' { env' with marks := true }) ∧
    (c.isFirmware = true → SlotDoes s env (exec .phase s) c' env') ∧
    (env.scope = 0 → c.intervalElapsed = false → SlotDoes s env (exec .phase s) c' env')

/-- R141, R143, R147, R149: a copy operation whose descriptor keeps its size rules issues: it takes the next number, the descriptor as it
stands, a place in the queue and one of its token's 15 counts, and waits for its bundle's commit; it holds while the queue is
deeper than the slack, the token is at 15, or its tile is busy. A descriptor that breaks a rule raises NESTSZ. -/
def Obligations.CopyIssue : Prop :=
  ∀ (s : State) (env : SlotEnv) (c : Context) (w : CpyWord), s.Issues env c →
    let n := env.nest c w
    let z := SMap.getD c.id.zrel ((nestField n 1).toNat % 16) 0
    let tile := w.tile.toNat
    let tok := SMap.getD c.be.tokens w.tok.toNat 0
    let occ := c.copyOccupancy env.idx
    ∀ x ∈ [(Instr.fill w, 1), (.fills w, 2), (.feed w, 3), (.feedt w, 4), (.drain w, 5), (.addw w, 6), (.rput w, 7)],
      let busy : Bool := if x.2 = 1 ∨ x.2 = 2 then c.writeHeld env.idx w.bf.toNat tile else if x.2 = 6 then false
        else c.readHeld env.idx w.bf.toNat tile (copyReadEnd x.2 w n)
      let o : CopyOp :=
        { id := c.fl.nextId, idx := env.idx, op := BitVec.ofNat 6 x.2, w := w, nest := n, zrel := z, pc := env.pc, seq := env.seq,
          committed := false, state := .queued, done := 0, got := [], put := [], sent := [], beats := 0, retries := 0, barrier := none,
          barrierVa := if x.2 = 7 then rputBarrier z n else none, remote := false }
      let c' : Context := { c with
        be := { c.be with tokens := SMap.put c.be.tokens w.tok.toNat (tok + 1) }
        fl := { c.fl with copyOps := c.fl.copyOps ++ [o], nextId := c.fl.nextId + 1 } }
      let env' := (((env.does [.copy o.id]).held (decide (env.slackCpy < occ) || decide (16 ≤ occ)) hSLACK).held
        (decide (15 ≤ tok)) hTOKCAP).held busy hTILE
      (nestBreaks x.2 w n = false → (x.2 = 7 → ∀ a, rputBarrier z n = some a → a.toNat % 32 = 0) →
        (x.2 = 6 → c.tileOwner env.idx tile = none) → SlotDoes s env (exec x.1 s) c' env') ∧
      (nestBreaks x.2 w n = true →
        SlotDoes s env (exec x.1 s) c' (env'.faults { slot := 2, cause := bNESTSZ, sub := 0, addr := 0 }))

/-- R161, R162, R65: CRESM and a CCLR that names another slot act at their commit in the firmware context and raise ILLSLOT with
subcause PRIV in any other; a CCLR of the issuing context acts in every context. -/
def Obligations.CopyControl : Prop :=
  ∀ (s : State) (env : SlotEnv) (c : Context) (w : CpyWord), s.Issues env c →
    let priv := env.faults { slot := 2, cause := bILLSLOT, sub := 3, addr := 0 }
    (c.firmware = true → SlotDoes s env (exec (.cresm w) s) c (env.does [.resume w.ch.toNat (w.tile.toNat - 4)])) ∧
    (c.firmware = false → SlotDoes s env (exec (.cresm w) s) c priv) ∧
    (w.tile = 0 → SlotDoes s env (exec (.cclr w) s) c (env.does [.clear w.ch.toNat none])) ∧
    (w.tile ≠ 0 → c.firmware = true →
      SlotDoes s env (exec (.cclr w) s) c (env.does [.clear w.ch.toNat (some (w.tile.toNat - 4))])) ∧
    (w.tile ≠ 0 → c.firmware = false → SlotDoes s env (exec (.cclr w) s) c priv)

/-- R238-R242: a sync operation issues with the address ZREL[z] + 8 × off: aligned to its width and translated, it takes the next number,
its operand from vs, a place in the queue, and a landing entry where it returns a result; one that waits holds the next bundle.
A misaligned address raises SYNCF. -/
def Obligations.SyncIssue : Prop :=
  ∀ (s : State) (env : SlotEnv) (c : Context) (w : SynWord), s.Issues env c →
    let width := if w.ty = 2 ∨ w.ty = 3 then 8 else 4
    let a := c.zrel w.z + BitVec.ofNat 64 (8 * w.off.toNat)
    let occ := c.synOccupancy env.idx
    ∀ x ∈ [(Instr.aadd w, SynRow.mk 1 width true width true false true), (.amin w, ⟨2, width, true, width, true, false, true⟩),
           (.amax w, ⟨3, width, true, width, true, false, true⟩), (.aand w, ⟨4, width, true, width, true, false, true⟩),
           (.aor w, ⟨5, width, true, width, true, false, true⟩), (.axor w, ⟨6, width, true, width, true, false, true⟩),
           (.aswp w, ⟨7, width, true, width, true, false, true⟩), (.acas w, ⟨8, width, true, width, true, false, true⟩),
           (.red w, ⟨9, width, true, 0, true, false, true⟩), (.arv w, ⟨10, 32, true, 0, true, false, false⟩),
           (.arvd w, ⟨11, 32, true, 0, true, false, false⟩), (.bwait w, ⟨12, 32, false, 0, false, true, true⟩),
           (.btest w, ⟨13, 32, false, 8, false, false, false⟩), (.sig w, ⟨14, 8, true, 0, true, false, true⟩),
           (.swait w, ⟨15, 8, false, 0, false, true, true⟩), (.uli w, ⟨16, 0, false, 0, false, false, true⟩),
           (.sfence w, ⟨17, 0, false, 0, false, true, false⟩), (.brst w, ⟨18, 32, true, 0, true, false, true⟩)],
      let r := x.2
      let bounds := r.bounds && env.scope != 0
      let v := if r.reads then (c.vview env.cc).reg w.vs.toNat else (0, false)
      let op (loc : Loc) : SyncOp :=
        { id := c.fl.nextId, idx := env.idx, phaseNo := c.fl.phaseNo, op := BitVec.ofNat 6 r.op, w := w, scope := env.scope,
          va := if r.width = 0 then 0 else a, loc := loc, operand := v.1.extractLsb' 0 128, poison := v.2, pc := env.pc,
          seq := env.seq, state := .issued }
      let c' (loc : Loc) : Context := { c with fl := { c.fl with
        syncOps := c.fl.syncOps ++ [op loc], nextId := c.fl.nextId + 1
        phaseNo := if bounds then c.fl.phaseNo + 1 else c.fl.phaseNo
        syncHold := if r.holds then some c.fl.nextId else c.fl.syncHold
        landings := if r.result = 0 then c.fl.landings else c.fl.landings ++
          [{ idx := env.idx, due := env.cc + w.arr.toNat + 24, v := w.vd.toNat, kind := 2, mask := byteMask 0 r.result, data := 0,
             poison := false, todo := [], arrived := false, phaseNo := c.fl.phaseNo }] } }
      let env' := ((env.does [.sync c.fl.nextId]).held (decide (env.slackSyn < occ) || decide (16 ≤ occ)) hSLACK).held
        (r.result != 0 && decide (32 ≤ c.fl.landings.length)) hLANDFULL
      (r.width = 0 → SlotDoes s env (exec x.1 s) (c' noLoc) env') ∧
      (∀ loc, r.width ≠ 0 → a.toNat % r.width = 0 → translate s c a (if r.writes then .store else .load) = .ok loc →
        SlotDoes s env (exec x.1 s) (c' loc) env') ∧
      (∀ loc, r.width ≠ 0 → a.toNat % r.width ≠ 0 → translate s c a (if r.writes then .store else .load) = .ok loc →
        SlotDoes s env (exec x.1 s) (c' loc) (env'.faults { slot := 6, cause := bSYNCF, sub := 0, addr := a }))

/-- R31, R71, R186, R189, R192: a matrix operation of a context that has a matrix engine issues with the format register as its bundle
sees it and the stream consumer pointers; it takes the next number and a place in the queue, and holds while the queue is
deeper than the slack or its F tile is busy. Without an engine it raises NOENG; an MMA whose formats are of two classes
raises FMTPAIR; one whose accumulator is not of its formats' class raises FMTACC (R169, R193). -/
def Obligations.MatrixIssue : Prop :=
  ∀ (s : State) (env : SlotEnv) (c : Context) (w : MtxWord), s.Issues env c →
    let fmt := c.fmtAt env.cc
    let occ := c.mtxOccupancy env.idx
    ∀ x ∈ [(Instr.mma w, 1), (.mld w, 2), (.mldt w, 3), (.mst w, 4), (.mstq w, 5), (.mclr w, 6), (.macc w, 7)],
      let o : MtxOp :=
        { id := c.fl.nextId, idx := env.idx, op := BitVec.ofNat 6 x.2, w := w, fmt := fmt, baseA := c.be.sa.consumer,
          baseB := c.be.sb.consumer, pc := env.pc, seq := env.seq, committed := false, commitCycle := 0, state := .queued, begunAt := 0,
          loaded := 0, inArray := false, groups := 0,
          plane := [], mis := false, bad := false, flags := 0, loadPoison := [], rows := 0 }
      let c' : Context := { c with fl := { c.fl with mtxOps := c.fl.mtxOps ++ [o], nextId := c.fl.nextId + 1 } }
      let busy : Bool := if x.2 = 2 ∨ x.2 = 3 then c.readHeld env.idx 0 w.f.toNat 16384
        else if x.2 = 4 ∨ x.2 = 5 then c.writeHeld env.idx 0 w.f.toNat else false
      let env' := ((env.does [.matrix o.id]).held (decide (env.slackMtx < occ) || decide (8 ≤ occ)) hSLACK).held busy hTILE
      let fault (code : Nat) : SlotEnv := env'.faults { slot := 5, cause := code, sub := 0, addr := 0 }
      (s.noMatrix c = false → (x.2 = 1 → fmtClass fmt.a = fmtClass fmt.b ∧ (fmt.acc = 1 ↔ fmtClass fmt.a = 4)) →
        SlotDoes s env (exec x.1 s) c' env') ∧
      (s.noMatrix c = true → SlotDoes s env (exec x.1 s) c' (fault bNOENG)) ∧
      (s.noMatrix c = false → x.2 = 1 → fmtClass fmt.a ≠ fmtClass fmt.b → SlotDoes s env (exec x.1 s) c' (fault bFMTPAIR)) ∧
      (s.noMatrix c = false → x.2 = 1 → fmtClass fmt.a = fmtClass fmt.b → ¬ (fmt.acc = 1 ↔ fmtClass fmt.a = 4) →
        SlotDoes s env (exec x.1 s) c' (fault bFMTACC))

/-- R206, R210, R211, R212: the integer vector operations, lane by lane of a type of `bits` bits: the exact result wrapped,
or where sat is set clamped to the type's range with SATF; two context cycles later. R212, R206: the bitwise operations act
on lanes of every type. -/
def Obligations.VectorIntegerResults : Prop :=
  (∀ (s : State) (env : SlotEnv) (c : Context) (p : Pipe) (w : VWord), s.Issues env c → 3 ≤ w.ty.toNat → w.ty.toNat ≤ 8 →
      let ty := w.ty.toNat
      let bits := 8 * typeBytes ty
      let signed : Bool := decide (ty = 3 ∨ ty = 5 ∨ ty = 7)
      let lo : Int := if signed then -(2 ^ (bits - 1)) else 0
      let hi : Int := if signed then 2 ^ (bits - 1) - 1 else 2 ^ bits - 1
      let val (x : Nat) : Int := if signed = true ∧ 2 ^ (bits - 1) ≤ x then (x : Int) - 2 ^ bits else x
      let wrap (v : Int) : Nat := (v % 2 ^ bits).toNat
      let fit (v : Int) : Nat × Flags :=
        if w.sat = 0 then (wrap v, 0) else if v < lo then (wrap lo, flSATF) else if hi < v then (wrap hi, flSATF) else (wrap v, 0)
      let two (i : Instr) (f : Nat → Nat → Nat × Flags) : Prop := VecWrites s env c (exec i s) p w {} 2 ty
        fun x j => f (lane x.a bits j) (lane x.b bits j)
      let one (i : Instr) (f : Nat → Nat × Flags) : Prop := VecWrites s env c (exec i s) p w { vb := false } 2 ty
        fun x j => f (lane x.a bits j)
      two (.vadd p w) (fun x y => fit (val x + val y)) ∧ two (.vsub p w) (fun x y => fit (val x - val y)) ∧
      two (.vmul p w) (fun x y => fit (val x * val y)) ∧
      two (.vmin p w) (fun x y => (if val x ≤ val y then x else y, 0)) ∧
      two (.vmax p w) (fun x y => (if val x ≤ val y then y else x, 0)) ∧
      one (.vabs p w) (fun x => fit |val x|) ∧ one (.vneg p w) (fun x => fit (- val x)) ∧
      two (.vshl p w) (fun x n => (x * 2 ^ n, 0)) ∧ two (.vshr p w) (fun x n => (x / 2 ^ n, 0)) ∧
      two (.vsra p w) (fun x n => (wrap ((if 2 ^ (bits - 1) ≤ x then (x : Int) - 2 ^ bits else x) / 2 ^ n), 0)) ∧
      one (.vshli p w) (fun x => (x * 2 ^ w.vc.toNat, 0)) ∧ one (.vshri p w) (fun x => (x / 2 ^ w.vc.toNat, 0)) ∧
      two (.vmulh p w) (fun x y => (wrap (val x * val y / 2 ^ bits), 0)) ∧
      one (.vclz p w) (fun x => (bits - x.size, 0))) ∧
  (∀ (s : State) (env : SlotEnv) (c : Context) (p : Pipe) (w : VWord), s.Issues env c → w.ty.toNat ≤ 10 →
      let bits := 8 * typeBytes w.ty.toNat
      let two (i : Instr) (f : Nat → Nat → Nat) : Prop := VecWrites s env c (exec i s) p w {} 2 w.ty.toNat
        fun x j => (f (lane x.a bits j) (lane x.b bits j), 0)
      two (.vand p w) (fun x y => x &&& y) ∧ two (.vor p w) (fun x y => x ||| y) ∧ two (.vxor p w) (fun x y => x ^^^ y) ∧
      VecWrites s env c (exec (.vnot p w) s) p w { vb := false } 2 w.ty.toNat (fun x j => (2 ^ bits - 1 - lane x.a bits j, 0)) ∧
      VecWrites s env c (exec (.vmov p w) s) p w { vb := false } 2 w.ty.toNat (fun x j => (lane x.a bits j, 0)))

/-- R206, R210, R211: the floating operations of the types F32, BF16 and F16: the exact value of the lanes' values, rounded
once by rm into the type; four context cycles later, eight for the functions and the division. R211: the floating minimum and
maximum take −0 below +0, a NaN gives the canonical NaN, and no flag is set; VABS and VNEG of a number change only its sign
bit. Two values of these are the model's choice and no rule of the spec: the sign of an exact zero (of sums and quotients,
log entry 57), and the 256 fraction bits that VEXP2's exact value is taken to before its rounding (log entry 22). -/
def Obligations.VectorFloatResults : Prop :=
  (∀ (s : State) (env : SlotEnv) (c : Context) (p : Pipe) (w : VWord), s.Issues env c → w.ty.toNat ≤ 2 →
      let f := fpOfType w.ty.toNat
      let bits := 8 * typeBytes w.ty.toNat
      let rm := w.rm.toNat
      let sat := w.sat == 1
      let v (x : Line) (j : Nat) : FVal := f.decode (lane x bits j)
      let one (i : Instr) (lat : Nat) (g : FVal → Nat × Flags) : Prop := VecWrites s env c (exec i s) p w { vb := false } lat w.ty.toNat
        fun x j => g (v x.a j)
      let two (i : Instr) (lat : Nat) (g : FVal → FVal → Nat × Flags) : Prop := VecWrites s env c (exec i s) p w {} lat w.ty.toNat
        fun x j => g (v x.a j) (v x.b j)
      let three (i : Instr) (g : FVal → FVal → FVal → Nat × Flags) : Prop := VecWrites s env c (exec i s) p w { vc := true } 4 w.ty.toNat
        fun x j => g (v x.a j) (v x.b j) (v x.c j)
      two (.vadd p w) 4 (fun x y => f.finish (fadd rm x y) rm sat) ∧ two (.vsub p w) 4 (fun x y => f.finish (fadd rm x y.neg) rm sat) ∧
      two (.vmul p w) 4 (fun x y => f.finish (fmul x y) rm sat) ∧
      three (.vfma p w) (fun x y z => f.finish (ffma rm x y z) rm sat) ∧
      three (.vfms p w) (fun x y z => f.finish (ffma rm x y z.neg) rm sat) ∧
      one (.vrcp p w) 8 (fun x => f.divide (.fin false 1 0) x rm sat) ∧ one (.vrsq p w) 8 (fun x => f.rsqrt x rm sat) ∧
      one (.vexp2 p w) 8 (fun x => f.exp2 x rm sat) ∧ two (.vdiv p w) 8 (fun x y => f.divide x y rm sat)) ∧
  (∀ (s : State) (env : SlotEnv) (c : Context) (p : Pipe) (w : VWord), s.Issues env c → w.ty.toNat ≤ 2 →
      let f := fpOfType w.ty.toNat
      let bits := 8 * typeBytes w.ty.toNat
      let nan (x : Nat) : Bool := f.decode x == .nan
      let pick (max : Bool) (x y : Nat) : Nat :=
        if nan x || nan y then f.nanBits
        else match fcmp (f.decode x) (f.decode y) with
          | some .lt => if max then y else x
          | some .gt => if max then x else y
          | _ => if max then (if x < 2 ^ (bits - 1) then x else y) else (if x < 2 ^ (bits - 1) then y else x)
      let two (i : Instr) (max : Bool) : Prop := VecWrites s env c (exec i s) p w {} 4 w.ty.toNat
        fun x j => (pick max (lane x.a bits j) (lane x.b bits j), 0)
      let one (i : Instr) (g : Nat → Nat) : Prop := VecWrites s env c (exec i s) p w { vb := false } 4 w.ty.toNat
        fun x j => (if nan (lane x.a bits j) then f.nanBits else g (lane x.a bits j), 0)
      two (.vmin p w) false ∧ two (.vmax p w) true ∧
      one (.vabs p w) (fun x => x % 2 ^ (bits - 1)) ∧
      one (.vneg p w) (fun x => if x < 2 ^ (bits - 1) then x + 2 ^ (bits - 1) else x - 2 ^ (bits - 1)))

/-- R171-R173, R178-R180, R210, R211: what the functions of the other statements compute, said of real numbers. A format's bit pattern of
fields E and T has the value of the table "Floating-point formats". A value whose magnitude is not zero is rounded once into a format: by
the mode to the nearest value with ties to even, toward zero, down or up; past the largest finite value the table "Overflow results" holds,
with OVF and INX; a rounding that is not exact sets INX, and UNF where it is tiny. A quotient and the reciprocal of a square root are
rounded so. Sums, products and fused sums are exact; a zero product has the exclusive-or of the signs; the sign of a zero sum, +0 but down
or of two −0, is R172's. A NaN gives the canonical NaN, an infinity the row of the table; ∞ − ∞ and ∞ × 0 are invalid. -/
def Obligations.RoundingResults : Prop :=
  (∀ f ∈ [fmtF32, fmtBF16, fmtF16, fmtE4M3, fmtE5M2], ∀ (rm : Nat) (sat : Bool), rm < 4 →
    (∀ (neg : Bool) (E T : Nat), T < 2 ^ f.tbits → E < 2 ^ f.ebits → (if f.noInf then E * 2 ^ f.tbits + T < 0x7F else E + 1 < 2 ^ f.ebits) →
      let v := f.decode ((if neg then 2 ^ (f.ebits + f.tbits) else 0) + E * 2 ^ f.tbits + T)
      v.isNegative = neg ∧ v.Is ((if neg then -1 else 1) * (if E = 0 then (T : ℝ) * (2 : ℝ) ^ (1 - (f.bias : Int) - f.tbits)
        else (2 ^ f.tbits + T : ℝ) * (2 : ℝ) ^ ((E : Int) - f.bias - f.tbits)))) ∧
    (∀ (neg : Bool) (m : Nat) (e : Int), m ≠ 0 → f.Rounded neg rm sat ((m : ℝ) * (2 : ℝ) ^ e) (f.encode (.fin neg m e) rm sat)) ∧
    (∀ neg e, f.encode (.fin neg 0 e) rm sat = (if neg then 2 ^ (f.ebits + f.tbits) else 0, 0)) ∧
    f.encode .nan rm sat = (f.nanBits, 0) ∧
    (∀ neg, let sign := if neg then 2 ^ (f.ebits + f.tbits) else 0
      f.encode (.inf neg) rm sat = if sat then (sign + f.maxBits, 0) else if f.noInf then (f.nanBits, flINV) else (sign + f.infBits, 0)) ∧
    (∀ v bad, f.finish (v, bad) rm sat = ((f.encode v rm sat).1, (f.encode v rm sat).2 ||| if bad then flINV else 0)) ∧
    (∀ (s : Bool) (m : Nat) (e : Int) (t : Bool) (n : Nat) (g : Int), m ≠ 0 → n ≠ 0 → f.Rounded (s != t) rm sat ((m : ℝ) * (2 : ℝ) ^ e / ((n : ℝ) * (2 : ℝ) ^ g))
      (f.divide (.fin s m e) (.fin t n g) rm sat)) ∧
    (∀ (m : Nat) (e : Int), m ≠ 0 → f.Rounded false rm sat (1 / Real.sqrt ((m : ℝ) * (2 : ℝ) ^ e)) (f.rsqrt (.fin false m e) rm sat))) ∧
  ([fmtF32, fmtBF16, fmtF16, fmtE4M3, fmtE5M2].map (fun f => (f.ebits, f.tbits, f.bias, f.noInf, f.maxBits, f.infBits, f.nanBits)) =
    [(8, 23, 127, false, 0x7F7FFFFF, 0x7F800000, 0x7FC00000), (8, 7, 127, false, 0x7F7F, 0x7F80, 0x7FC0),
     (5, 10, 15, false, 0x7BFF, 0x7C00, 0x7E00), (4, 3, 7, true, 0x7E, 0x78, 0x7F), (5, 2, 15, false, 0x7B, 0x7C, 0x7E)]) ∧
  ∀ (rm : Nat) (a b c : FVal),
    (∀ x y, a.Is x → b.Is y →
      (∃ v, fadd rm a b = (v, false) ∧ v.Is (x + y) ∧
        (x + y = 0 → v.isNegative = (decide (rm = 2) || (a.isNegative && b.isNegative)))) ∧
      (∃ v, fmul a b = (v, false) ∧ v.Is (x * y) ∧ v.isNegative = (a.isNegative != b.isNegative)) ∧
      ∀ z, c.Is z → ∃ v, ffma rm a b c = (v, false) ∧ v.Is (x * y + z)) ∧
    (a = .nan ∨ b = .nan → fadd rm a b = (.nan, false) ∧ fmul a b = (.nan, false)) ∧
    (∀ s t, fadd rm (.inf s) (.inf t) = (if s = t then (.inf s, false) else (.nan, true)) ∧ fmul (.inf s) (.inf t) = (.inf (s != t), false)) ∧
    (∀ s x, b.Is x → fadd rm (.inf s) b = (.inf s, false) ∧ fadd rm b (.inf s) = (.inf s, false) ∧
      (x = 0 → fmul (.inf s) b = (.nan, true) ∧ fmul b (.inf s) = (.nan, true)) ∧
      (x ≠ 0 → fmul (.inf s) b = (.inf (s != b.isNegative), false) ∧ fmul b (.inf s) = (.inf (s != b.isNegative), false)))

/-- R220-R222, R217, R219: the operations that move lanes: each result lane in terms of the operand's lanes. -/
def Obligations.VectorMoveResults : Prop :=
  ∀ (s : State) (env : SlotEnv) (c : Context) (p : Pipe) (w : VWord), s.Issues env c → w.ty.toNat ≤ 10 →
    let ty := w.ty.toNat
    let bits := 8 * typeBytes ty
    let n := typeLanes ty
    let r (i : Instr) (u : VUse) (lat : Nat) (f : VIn → Nat → Nat) : Prop := VecWrites s env c (exec i s) p w u lat ty fun x j => (f x j, 0)
    r (.vperm p w) {} 6 (fun x j => lane x.a bits (lane x.b bits j % n)) ∧
    r (.vbcst p w) { vb := false } 2 (fun x _ => lane x.a bits w.vc.toNat) ∧
    r (.vshfl p w) {} 2 (fun x j => if j + w.vc.toNat < n then lane x.a bits (j + w.vc.toNat) else lane x.b bits (j + w.vc.toNat - n)) ∧
    r (.viota p w) { va := false, vb := false } 2 (fun _ j => ((w.vc.toInt + j) % 2 ^ bits).toNat) ∧
    r (.vmovi p w) { va := false, vb := false } 2 (fun _ _ => if isFloat ty then ((fpOfType ty).encode (fvalOfInt w.vc.toInt) 0 false).1
      else (w.vc.toInt % 2 ^ bits).toNat) ∧
    r (.vldi p w) { va := false, vb := false } 2 (fun _ _ => ldiLane ty (w.vc ++ w.vb ++ w.va)) ∧
    (let code := w.vc.toNat % 16
     let z := blockBytes code
     VecWrites s env c (exec (.vdqnt p w) s) p w { vb := false } 4 0 fun x k =>
      ((fmtF32.encode ((blockDecode (blockM code) (x.a.toNat / 2 ^ (8 * (w.vc.toNat / 16 % 4) * z) % 2 ^ (8 * z))).getD k .nan) 0 false).1, 0))

/-- R214, R216, R223-R225: compares, predicate logic, checks and status: VCMP writes the governed bits of a predicate, QOP applies its
truth table bit by bit, VCHK raises VCHK for a poisoned register and else does nothing, VCLRP clears a tag and VSTAT writes a status
value, two context cycles later. -/
def Obligations.PredicateResults : Prop :=
  ∀ (s : State) (env : SlotEnv) (c : Context) (p : Pipe) (w : VWord), s.Issues env c →
    let view := c.vview env.cc
    let due (lat : Nat) (t : WriteTarget) (q : Bool) (b : BackEnd) : Context := Context.addWrite { c with be := b }
      { due := env.cc + lat, idx := env.idx, ord := ordV p, target := t, poison := q }
    (let i := readVec c env.cc p {} w
     let b := typeBytes w.ty.toNat
     let bits := laneBits w.ty.toNat
     ∃ mask data, (∀ n, n < 64 → mask.getLsbD n = i.p.getLsbD (n / b * b)) ∧
      (∀ n, n < 64 → data.getLsbD n = condHolds w.vc.toNat (compareLanes w.ty.toNat (lane i.a bits (n / b)) (lane i.b bits (n / b)))) ∧
      SlotDoes s env (exec (.vcmp p w) s)
        (due (if isFloat w.ty.toNat then 4 else 2) (.pred w.vd.toNat mask data) i.psn i.be) (env.does [])) ∧
    (let a := view.pred (w.va.toNat % 8)
     let b := view.pred (w.vb.toNat % 8)
     ∃ data, (∀ n, n < 64 → data.getLsbD n =
        decide (w.vc.toNat / 2 ^ ((if a.1.getLsbD n then 2 else 0) + (if b.1.getLsbD n then 1 else 0)) % 2 = 1)) ∧
      SlotDoes s env (exec (.qop p w) s) (due 2 (.pred (w.vd.toNat % 8) (BitVec.allOnes 64) data) (a.2 || b.2) c.be) env) ∧
    (w.vc = 0 → (view.reg w.va.toNat).2 = false → SlotDoes s env (exec (.vchk p w) s) c env) ∧
    (w.vc = 0 → (view.reg w.va.toNat).2 = true → SlotDoes s env (exec (.vchk p w) s) c
      (env.faults { slot := pipeSlot p, cause := bVCHK, sub := 0, addr := BitVec.ofNat 64 w.va.toNat })) ∧
    (w.vc = 1 → (view.pred (w.va.toNat % 8)).2 = false → SlotDoes s env (exec (.vchk p w) s) c env) ∧
    (w.vc = 1 → (view.pred (w.va.toNat % 8)).2 = true → SlotDoes s env (exec (.vchk p w) s) c
      (env.faults { slot := pipeSlot p, cause := bVCHK, sub := 0, addr := BitVec.ofNat 64 (w.va.toNat + 1024) })) ∧
    (w.vc = 0 → SlotDoes s env (exec (.vclrp p w) s) (due 2 (.clearV w.vd.toNat) false c.be) env) ∧
    (w.vc = 1 → w.vd ≠ 0 → SlotDoes s env (exec (.vclrp p w) s) (due 2 (.clearQ (w.vd.toNat % 8)) false c.be) env) ∧
    SlotDoes s env (exec (.vstat p w) s)
      (due 2 (.vreg w.vd.toNat (BitVec.allOnes 64) (BitVec.ofNat 512 (vstatValue s c w.vc.toNat % 2 ^ 32))) false c.be) env

/-- R215, R217, R218, R220, R221, R206: the operations whose result takes its own lanes, and the flags they bring to the commit: VSEL
writes every lane from va or vb by q, without a flag; VCVT the governed lanes that part h of the source reaches; VQNT the bytes
of block J; VSCAN the running combination with its carry from vb, whose steps count flags where a lane at or after them is
governed; VRED the combination of the governed lanes in rising order into lane 0, the other lanes zero. -/
def Obligations.VectorShapedResults : Prop :=
  ∀ (s : State) (env : SlotEnv) (c : Context) (p : Pipe) (w : VWord), s.Issues env c → w.ty.toNat ≤ 10 →
    let ty := w.ty.toNat
    let b := typeBytes ty
    let bits := laneBits ty
    let n := typeLanes ty
    let governs (q : Word) (mask : BitVec 64) : Prop := ∀ k, k < 64 → mask.getLsbD k = q.getLsbD (k / b * b)
    let r (i : Instr) (u : VUse) (lat : Nat) (flags : VIn → Flags) (f : VIn → BitVec 64 → Line → Prop) : Prop :=
      let x := readVec c env.cc p u w
      ∃ mask data, f x mask data ∧ SlotDoes s env (exec i s)
        (Context.addWrite { c with be := x.be }
          { due := env.cc + lat, idx := env.idx, ord := ordV p, target := .vreg w.vd.toNat mask data, poison := x.psn })
        (env.does (if flags x = 0 then [] else [.flags ((flags x).setWidth 64)]))
    let comb := combine ty w.vc.toNat w.rm.toNat (w.sat == 1)
    r (.vsel p w) {} 2 (fun _ => 0) (fun x mask data => mask = BitVec.allOnes 64 ∧
      ∀ j, j < n → lane data bits j = if laneTrue x.p b j then lane x.a bits j else lane x.b bits j) ∧
    (let src := w.vc.toNat % 16
     let h := w.vc.toNat / 16 % 4
     let part (j : Nat) : Nat := if typeLanes src < n then j - h * typeLanes src else if n < typeLanes src then h * n + j else j
     let reached (j : Nat) : Bool := decide (typeLanes src < n → h * typeLanes src ≤ j ∧ j < h * typeLanes src + typeLanes src)
     let got (x : VIn) (j : Nat) : Nat × Flags := convert src ty (lane x.a (laneBits src) (part j)) w.rm.toNat (w.sat == 1)
     r (.vcvt p w) { vb := false } 4
       (fun x => orFlags ((List.range n).map (fun j => if laneTrue x.p b j && reached j then (got x j).2 else 0)))
       (fun x mask data =>
         (∀ k, k < 64 → mask.getLsbD k = (x.p.getLsbD (k / b * b) && reached (k / b))) ∧
         ∀ j, j < n → reached j = true → lane data bits j = (got x j).1 % 2 ^ bits)) ∧
    (let code := w.vc.toNat % 16
     let j := w.vc.toNat / 16 % 4
     let z := blockBytes code
     let got (x : VIn) : Nat × Flags := blockEncode (blockM code) ((lanes x.a 32).map fmtF32.decode)
     r (.vqnt p w) { vb := false, q := false } 6 (fun x => (got x).2) (fun x mask data =>
       mask = byteMask (j * z) z ∧ data = BitVec.ofNat 512 ((got x).1 * 2 ^ (8 * j * z)))) ∧
    (let prefixes (x : VIn) (j : Nat) : Nat × Flags :=
       (List.range j).foldl (fun acc k => comb acc.1 (lane x.a bits (k + 1))) (lane x.a bits 0, 0)
     let carried (x : VIn) (j : Nat) : Nat × Flags := comb (lane x.b bits (n - 1)) (prefixes x j).1
     r (.vscan p w) {} 6
       (fun x => orFlags ((List.range n).map (fun j =>
         (if (List.range n).any (fun k => decide (j ≤ k) && laneTrue x.p b k) then (prefixes x j).2 else 0) |||
           (if laneTrue x.p b j then (carried x j).2 else 0))))
       (fun x mask data => governs x.p mask ∧ ∀ j, j < n → lane data bits j = (carried x j).1 % 2 ^ bits)) ∧
    (let got (x : VIn) : Nat × Flags := match ((List.range n).filter (laneTrue x.p b)).map (lane x.a bits) with
       | [] => (redIdentity ty w.vc.toNat, 0)
       | y :: rest => rest.foldl (fun acc z => ((comb acc.1 z).1, acc.2 ||| (comb acc.1 z).2)) (canonLane ty y, 0)
     r (.vred p w) { vb := false } 6 (fun x => (got x).2) (fun x mask data =>
       mask = BitVec.allOnes 64 ∧ data.toNat = (got x).1 % 2 ^ bits))


/-- R213, R206: the widening operations: source lane i goes to register i / (L/2) of the pair vd, vd + 1, lane i mod (L/2), at twice
the width: exact for integers (VWACC clamps where sat is set), rounded once to binary32 for floating types (the sign of a zero
sum: log entry 57); the flags of the governed lanes wait for the commit. -/
def Obligations.VectorWideningResults : Prop :=
  ∀ (s : State) (env : SlotEnv) (c : Context) (p : Pipe) (w : VWord), s.Issues env c → 1 ≤ w.ty.toNat → w.ty.toNat ≤ 8 →
    let ty := w.ty.toNat
    let b := typeBytes ty
    let bits := laneBits ty
    let half := typeLanes ty / 2
    let fl : Bool := isFloat ty
    let int (x : Nat) : Int := intOf (isSigned ty) bits x
    let f := fpOfType ty
    let rm := w.rm.toNat
    let sat := w.sat == 1
    let r (i : Instr) (u : VUse) (g : VIn → Nat → Nat × Flags) : Prop := let x := readVec c env.cc p u w
      let put (d : Context) (q : Nat) (mask : BitVec 64) (data : Line) : Context := d.addWrite
        { due := env.cc + (if fl then 4 else 2), idx := env.idx, ord := ordV p, target := .vreg q mask data, poison := x.psn }
      let good (h : Nat) (mask : BitVec 64) (data : Line) : Prop :=
        (∀ k, k < 64 → mask.getLsbD k = laneTrue x.p b (h * half + k / (2 * b))) ∧
        ∀ j, j < half → lane data (2 * bits) j = (g x (h * half + j)).1 % 2 ^ (2 * bits)
      let flags := orFlags ((List.range (typeLanes ty)).map (fun j => if laneTrue x.p b j then (g x j).2 else 0))
      ∃ mask0 data0 mask1 data1, good 0 mask0 data0 ∧ good 1 mask1 data1 ∧ SlotDoes s env (exec i s)
        (put (put { c with be := x.be } w.vd.toNat mask0 data0) (w.vd.toNat + 1) mask1 data1)
        (env.does (if flags = 0 then [] else [.flags (flags.setWidth 64)]))
    r (.vwadd p w) {} (fun x j => let a := lane x.a bits j
      let y := lane x.b bits j
      if fl then fmtF32.finish (fadd rm (f.decode a) (f.decode y)) rm sat else intResult (isSigned ty) (2 * bits) sat (int a + int y)) ∧
    r (.vwmul p w) {} (fun x j => let a := lane x.a bits j
      let y := lane x.b bits j
      if fl then fmtF32.finish (fmul (f.decode a) (f.decode y)) rm sat else intResult (isSigned ty) (2 * bits) sat (int a * int y)) ∧
    r (.vwacc p w) { vc := true } (fun x j => let a := lane x.a bits j
      let acc := if j < half then lane x.b (2 * bits) j else lane x.c (2 * bits) (j - half)
      if fl then fmtF32.finish (fadd rm (fmtF32.decode acc) (f.decode a)) rm sat
      else intResult (isSigned ty) (2 * bits) sat (intOf (isSigned ty) (2 * bits) acc + int a))


/-! ### The part's own steps: cycles and counters (spec/02, spec/05, spec/13, spec/14) -/

/-- R263: a pending slot table takes effect with the core cycle whose entry index is 0, and at no other. R206, R23: the results that are due
and committed leave their list, the oldest first, and each becomes the register file: a vector result in the bytes its lanes govern,
poisoned by the result and where it keeps bytes of a poisoned register; every other register as before. R70: a format due and committed
becomes FMT. R127, R113: a SPIN ends after 64 core cycles or once an enabled interrupt is pending, and the thread goes on. R269: a spin wait
longer than SPINLIM makes the context spinning. R264, R18, R26, R27, R282: a core cycle does nothing on a retired core, and none is of a
number beyond the domain's cores (R1; log entry 14). Else CYCLE grows and the contexts of the core are counted; where the weight of the
issue stage, the generator's instruction, the array, the conversion and 2 for each line moved, with those of the last 63 cycles, would pass
PLIM, the cycle is a freeze cycle, counted in FRZCNT, which issues nothing; else what the issue stage made stands, and the generator's
instruction follows at once. The cycle belongs to the context of its guaranteed entry where that may issue and is not held, or to the
firmware context at an F entry; without one, or where that one's attempt holds, to the flex candidates: in falling priority, equals in the
order after the last winner (R353), the first whose attempt does not hold has it. -/
def Obligations.CoreCycleResults : Prop :=
  (∀ (s : State) (core : Nat),
    (((s.core core).cycle + 1).toNat % 64 = 0 → ∀ tab, (s.core core).slotTableNext = some tab →
      exec (.slotTableUpdate core) s = .next (s.setCore core { s.core core with slotTable := tab, slotTableNext := none })) ∧
    (((s.core core).cycle + 1).toNat % 64 ≠ 0 → exec (.slotTableUpdate core) s = .next s)) ∧
  (∀ (v : VState) (mask : BitVec 64) (p : Bool),
    (∀ r data, r < 1024 → let v' := v.write (.vreg r mask data) p
      (∀ i, i < 64 → lineByte (v'.reg r).1 i = if mask.getLsbD i then lineByte data i else lineByte (v.reg r).1 i) ∧
      (v'.reg r).2 = (p || (mask != BitVec.allOnes 64 && (v.reg r).2)) ∧ (∀ x, x < 1024 → x ≠ r → v'.reg x = v.reg x) ∧
      (∀ x, v'.pred x = v.pred x)) ∧
    (∀ r data, 0 < r → r < 8 → let v' := v.write (.pred r mask data) p
      (∀ i, i < 64 → (v'.pred r).1.getLsbD i = if mask.getLsbD i then data.getLsbD i else (v.pred r).1.getLsbD i) ∧
      (v'.pred r).2 = (p || (mask != BitVec.allOnes 64 && (v.pred r).2)) ∧ (∀ x, x < 8 → x ≠ r → v'.pred x = v.pred x) ∧
      (∀ x, v'.reg x = v.reg x)) ∧
    (∀ r, r < 1024 → let v' := v.write (.clearV r) p
      v'.reg r = ((v.reg r).1, false) ∧ (∀ x, x < 1024 → x ≠ r → v'.reg x = v.reg x) ∧ ∀ x, v'.pred x = v.pred x) ∧
    (∀ r, 0 < r → r < 8 → let v' := v.write (.clearQ r) p
      v'.pred r = ((v.pred r).1, false) ∧ (∀ x, x < 8 → x ≠ r → v'.pred x = v.pred x) ∧ ∀ x, v'.reg x = v.reg x)) ∧
  (∀ (s : State) (k : Nat) (c : Context), s.ctx k = some c →
    let now := (s.core c.coreKey).cycle.toNat
    let falls (w : RegWrite) : Prop := w.due < c.ctxcyc ∧ w.idx < c.committedBelow
    (∀ w rest, c.fl.journal = w :: rest → falls w → ∃ d : Context, d.fl.journal = rest ∧
      d.be = { c.be with vec := c.be.vec.write w.target w.poison } ∧ d.thread = c.thread ∧ d.ctxcyc = c.ctxcyc ∧ d.fl.issued = c.fl.issued ∧
      exec (.vectorResultDue k) s = .next (s.setCtx k d.settleRegs) ∧ (rest = [] → d.settleRegs = d)) ∧
    (∀ w rest, c.fl.journal = w :: rest → ¬ falls w → exec (.vectorResultDue k) s = .next (s.setCtx k c)) ∧
    (∀ p, c.fl.pendingFmt = [p] → p.due ≤ c.ctxcyc → p.idx < c.committedBelow → ∃ c' t, exec (.fmtTakesEffect k) s = .next t ∧
      t.ctx k = some c' ∧ c'.be = { c.be with fmt := p.fmt } ∧ c'.fl = { c.fl with pendingFmt := [] } ∧ c'.thread = c.thread) ∧
    (∀ p rest, c.fl.pendingFmt = p :: rest → ¬ (p.due ≤ c.ctxcyc ∧ p.idx < c.committedBelow) →
      exec (.fmtTakesEffect k) s = .next (s.setCtx k c)) ∧
    (∀ since, c.wait = .spin since → since + 64 ≤ now ∨ c.thread.uliAsked ≠ 0 → c.runs = true → c.stopped = false → s.onRetired c = false →
      exec (.spinTimeout k) s = .next (s.setCtx k { c with wait := .none, thread := { c.thread with
        loops := c.thread.nextLoops (c.thread.pc + 4), pc := c.thread.nextPc (c.thread.pc + 4)
        boundary := (c.thread.finish (c.thread.pc + 4)).boundary } })) ∧
    ((s.core c.coreKey).spinlim.toNat < max c.sch.spinCount c.sch.genSpin →
      exec (.spinLimitReached k) s = .next (s.setCtx k { c with sch := { c.sch with spinning := true } })) ∧
    (max c.sch.spinCount c.sch.genSpin ≤ (s.core c.coreKey).spinlim.toNat → exec (.spinLimitReached k) s = .next (s.setCtx k c))) ∧
  (∀ (s : State) (core : Nat) (env : CycleEnv),
    let s0 := (s.updCore core Core.advance).countCycle core
    let r := s0.core core
    let s1 := (s0.coreKeys core).foldl State.retestHold s0
    let issue := issueStage s1 core
    let now := contextCycle s1 issue.1 issue.2.2
    let plan := s1.mtxPlan issue.1 core now
    let movers := s1.movers core env
    let gen := (nextThread s0 core env.miss).isSome
    let total := issue.2.1 + (if gen then 1 else 0) + arrayWork (s1.mtxRunning core) + (if plan.conv then 10 else 0) + 2 * movers.length
    let passes : Prop := 0 < r.weights.sum ∧ r.plim.toNat % 2 ^ 20 < r.weights.sum + total
    ((s.core core).retired = true ∨ 2 ^ 21 ≤ core → exec (.coreCycle core env) s = .next s) ∧
    (core < 2 ^ 21 → (s.core core).retired = false → passes → ∃ t, exec (.coreCycle core env) s = .next t ∧
      (t.core core).cycle = (s.core core).cycle + 1 ∧ (t.core core).frozen = true ∧ (t.core core).genUsed = true ∧
      (t.core core).frzcnt.toNat = min ((s.core core).frzcnt.toNat + 1) (2 ^ 48 - 1) ∧
      (t.core core).weights = (0 :: r.weights).take 63 ∧ t.contexts = s0.contexts ∧ t.mem = s.mem ∧
      t.agenda = counterMoves (s0.updCore core (fun r => r.endCycle 0 true false)) core ++ s.agenda) ∧
    (core < 2 ^ 21 → (s.core core).retired = false → ¬ passes → ∃ t moves,
      let u := (issue.1.countHolds core).updCore core (fun r => { (r.endCycle total false gen).moveLines movers with ctxNow := now })
      let v := (u.mtxCycle core (s1.mtxRunning core) plan).writeLogs core
      exec (.coreCycle core env) s = .next t ∧ t = { v with agenda := moves ++ s.agenda } ∧
      (gen = true → ∃ late, moves.head? = some (.gen core env.miss late)) ∧
      (∀ k, issue.2.2 = some k → ∀ m ∈ dueMoves v k, m ∈ moves) ∧ (∀ m ∈ v.mtxMoves core ++ v.addwMoves now, m ∈ moves) ∧
      ∀ m ∈ counterMoves v core, m ∈ moves)) ∧
  (∀ (s : State) (core : Nat),
    let r := s.core core
    let e := r.entry (r.cycle.toNat % 64)
    let flex (s : State) : Spent := flexGrant core s (sortByPrio (s.flexCandidates core))
    (∀ k c, e < 4 → r.bound e = true → SMap.find r.slots e = some k → s.ctx k = some c → c.mayIssue = true → c.hold.wait = none →
      s.entryOwner core = some k) ∧
    (∀ k, s.entryOwner core = some k → (e < 4 ∧ r.bound e = true ∧ SMap.find r.slots e = some k ∨ e = 4 ∧ k = firmwareKey core) ∧
      ∃ c, s.ctx k = some c ∧ c.mayIssue = true ∧ c.hold.wait = none) ∧
    (s.entryOwner core = none → issueStage s core = flex s) ∧
    (∀ k, s.entryOwner core = some k →
      (∀ t w, attempt s k = .cycle t w → k ≠ firmwareKey core → issueStage s core = (t, w, some k)) ∧
      (∀ cause tw, attempt s k = .held cause tw → issueStage s core = flex (s.assertHold k cause tw)) ∧
      (attempt s k = .idle → issueStage s core = (s, 0, none))) ∧
    (∀ x, x ∈ s.flexCandidates core ↔ x.1 < 4 ∧ SMap.find r.slots x.1 = some x.2.1 ∧ ∃ c, s.ctx x.2.1 = some c ∧ c.mayIssue = true ∧
      c.hold.wait = none ∧ ¬ (c.queue = [] ∧ c.fl.issued = []) ∧ x.2.2 = c.sch.prio) ∧
    (s.flexCandidates core).Pairwise (fun a b => (a.1 + 3 - r.flexLast % 4) % 4 < (b.1 + 3 - r.flexLast % 4) % 4) ∧
    (∀ l, (sortByPrio l).Perm l ∧ (sortByPrio l).Pairwise (fun a b => b.2.2 ≤ a.2.2) ∧
      ∀ p, (sortByPrio l).filter (fun x => decide (x.2.2 = p)) = l.filter (fun x => decide (x.2.2 = p))) ∧
    ∀ slot k p rest,
      (∀ cause tw, attempt s k = .held cause tw → flexGrant core s ((slot, k, p) :: rest) = flexGrant core (s.assertHold k cause tw) rest) ∧
      (∀ t w, attempt s k = .cycle t w → ∃ u, flexGrant core s ((slot, k, p) :: rest) = (u, w, some k) ∧ u.contexts = t.contexts ∧
        u.mem = t.mem) ∧
      (attempt s k = .idle → ∃ u, flexGrant core s ((slot, k, p) :: rest) = (u, 0, none) ∧ u.contexts = s.contexts ∧ u.mem = s.mem) ∧
      (∀ c, s.ctx k = some c → (∀ cause tw, attempt s k ≠ .held cause tw) →
        ((flexGrant core s ((slot, k, p) :: rest)).1.core core).flexLast = slot))


/-- R267, R271, R270, R281: a die cycle counts DIECYCLE; where a window or a decay falls due that step comes first, in this order, and the
arrivals are counted after them, one by one; then come placement, steal requests, reports, one residency decision per core and the
priorities. A window start clears every record's boost and stamps it; a decay lowers every level by one. R14: a placement gives the next
index of a share to a NEW context in a free table entry, on a core that has room; a die without unplaced indices asks the die with the most,
of those it has not asked in vain. R271: a fill gives the free slot (a bound one first, then the lowest) to the wanting context of the
highest priority, then wanting age, then lowest number; a context that a landing one outranks by HYST is pre-empted, the lowest priority
first; a saved context is restored into its slot in a step of its own (R352); a slice that ends pre-empts its context where a wanting one
may occupy the slot, else it restarts; a yielding one is drained. R265, R268, R11: the priority is the base, the boost of the tenant's gang
while its window's budget lasts, less 4 for a spinning context. A wanting age beyond PDL is reported once with RESLATE (event code 7), a
NONRES context cold for longer than COLDAGE once with COLDCAND (code 8). Which of several placements is taken is open (log entry 6). -/
def Obligations.SchedulerTimers : Prop :=
  (∀ (s : State) (die : Nat),
    let d := s.die die
    let d1 : Die := { d with dieCycle := d.dieCycle + 1 }.passBt
    (d.cycleStep = 0 → d1.windowDue = true → ∃ t, exec (.dieCycle die) s = .next t ∧ (t.die die).dieCycle = d.dieCycle + 1 ∧
      t.agenda = .ev (.fairnessWindowStart die) :: .ev (.dieCycle die) :: s.agenda ∧ t.contexts = s.contexts ∧ t.mem = s.mem) ∧
    (d.cycleStep = 0 → d1.windowDue = false → d1.decayDue = true → ∃ t, exec (.dieCycle die) s = .next t ∧
      (t.die die).dieCycle = d.dieCycle + 1 ∧ t.agenda = .ev (.boostDecay die) :: .ev (.dieCycle die) :: s.agenda ∧
      t.contexts = s.contexts ∧ t.mem = s.mem) ∧
    (d.cycleStep = 0 → d1.windowDue = false → d1.decayDue = false →
      exec (.dieCycle die) s = .next ((s.setDie die d1.countArrivals).decisions die)) ∧
    (d.cycleStep = 3 → exec (.dieCycle die) s = .next (s.decisions die)) ∧
    (d.cycleStep = 1 → ∃ t, exec (.fairnessWindowStart die) s = .next t ∧ t.mem = s.mem ∧ t.contexts = s.contexts ∧
      (d.decayDue = true → t.agenda = .ev (.boostDecay die) :: s.agenda) ∧
      (d.arrivals = [] → ∀ i r, SMap.find d.fair i = some r → r.valid = true →
        SMap.find (t.die die).fair i = some { r with boost := 0, wstart := d.dieCycle })) ∧
    (d.cycleStep = 2 → ∃ t, exec (.boostDecay die) s = .next t ∧ t.mem = s.mem ∧ t.contexts = s.contexts ∧
      (d.arrivals = [] → ∀ i r, SMap.find d.fair i = some r → r.valid = true →
        SMap.find (t.die die).fair i = some { r with level := r.level - 1 })) ∧
    (∀ ten gang ok rest i, d.arrivals = (ten, gang, ok) :: rest →
      (gang = 0 → d.countArrivals = { d with arrivals := rest }.countArrivals) ∧
      (gang ≠ 0 → d.recordOf ten gang = some i →
        let r := SMap.getD d.fair i FairRec.empty
        let r' : FairRec := if ok then { r with level := min (r.level + 1) 15, accepted := satInc32 r.accepted }
          else { r with refused := satInc32 r.refused }
        d.countArrivals = { d with arrivals := rest, fair := SMap.put d.fair i r' }.countArrivals))) ∧
  (∀ (s : State) (die : Nat),
    (s.decisions die = let s1 := ((s.placeNext die).sendSteals die).reportAllPaged die
      (((s1.liveCores die).foldl State.decideCore s1).updDie die (fun d => { d with cycleStep := 0 })).setPriorities die) ∧
    (∀ p ∈ (s.setPriorities die).contexts, p.2.die = die → p.2.sch.prio = (s.die die).priority p.2) ∧
    (let ready (p : Nat × Graph) : Prop := p ∈ s.graphs ∧ pkgOfDie p.2.queueDie = pkgOfDie die ∧ p.2.started = true ∧
       (p.2.share (die % 8)).1 < (p.2.share (die % 8)).2 ∧ s.roomCores die p.2 ≠ []
     (s.freeEntries die = [] ∨ (∀ p, ¬ ready p) → s.placeNext die = s) ∧
     (s.freeEntries die ≠ [] → (∃ p, ready p) → ∃ gid g core key c', ready (gid, g) ∧ core ∈ s.roomCores die g ∧ key ∈ s.freeEntries die ∧
       (s.placeNext die).ctx key = some c' ∧ c'.status = .new ∧ c'.coreKey = core ∧ c'.id.taskidx = BitVec.ofNat 24 (g.share (die % 8)).1 ∧
       c'.id.taskcnt = BitVec.ofNat 25 g.n ∧ c'.id.graph = gid ∧ c'.id.gang = g.gang ∧ c'.id.basePrio = g.prio ∧
       c'.thread = Thread.start (modelPc g.record) ∧ (∀ j, j ≠ key → (s.placeNext die).ctx j = s.ctx j) ∧
       SMap.find (s.placeNext die).graphs gid = some { g with
         shares := SMap.put g.shares (die % 8) ((g.share (die % 8)).1 + 1, (g.share (die % 8)).2) } ∧ (s.placeNext die).mem = s.mem)) ∧
    (∀ (core : Nat) g, core ∈ s.roomCores die g ↔ core ∈ s.coresOf die g.part g.record ∧ s.hasRoom core g = true)) ∧
  (∀ (g : Graph) (me seq v : Nat), g.persist = false → g.started = true → (SMap.find g.shares me).isSome = true → g.left me = 0 →
    (me, 8) ∉ g.tried → (∀ x ∈ g.steals, x.thief ≠ me) →
    ((∀ p ∈ g.shares, p.2.2 - p.2.1 < 2) → g.thief me seq = { g with tried := g.tried ++ [(me, 8)] }) ∧
    ((∃ p ∈ g.shares, 2 ≤ p.2.2 - p.2.1) → g.victim me = some v →
      g.thief me seq = { g with steals := g.steals ++ [{ thief := me, victim := v, seq := seq, answer := none }] } ∧
      v ≠ me ∧ (me, v) ∉ g.tried ∧ ∃ r, (v, r) ∈ g.shares ∧
        ∀ p ∈ g.shares, p.1 ≠ me → (me, p.1) ∉ g.tried → p.2.2 - p.2.1 ≤ r.2 - r.1)) ∧
  (∀ (s : State) (core k slot : Nat) (c : Context),
    let r := s.core core
    let d := s.die (dieOfCore core)
    let now := r.cycle.toNat
    (r.retired = true → s.decideCore core = s) ∧ (r.retired = false →
    (s.fillChoice core = some (k, c, slot) → s.decideCore core = s.giveSlot k c slot ∧ (k, c) ∈ s.wantingOf core ∧
      c.sch.pagedOut = false ∧ slot < 4 ∧ SMap.find r.slots slot = none ∧ r.usable c slot = true ∧
      (∀ j, j < 4 → SMap.find r.slots j = none → r.usable c j = true →
        (r.bound slot = true ∨ r.bound j = false) ∧ (r.bound slot = r.bound j → slot ≤ j)) ∧
      ∀ p ∈ s.wantingOf core, p.2.sch.pagedOut = false → (r.slotFor p.2).isSome = true →
        d.priority p.2 < d.priority c ∨ d.priority p.2 = d.priority c ∧
          (p.2.age now < c.age now ∨ p.2.age now = c.age now ∧ k ≤ p.1)) ∧
    (c.status = .new → ∃ c', (s.giveSlot k c slot).ctx k = some c' ∧ c'.status = .resident ∧ c'.slot = some slot ∧ c'.thread = c.thread ∧
      SMap.find ((s.giveSlot k c slot).core c.coreKey).slots slot = some k) ∧
    (c.status ≠ .new → (s.giveSlot k c slot).ctx k = some { c with slot := some slot } ∧
      (s.giveSlot k c slot).agenda = s.agenda ∧
      SMap.find ((s.giveSlot k c slot).core c.coreKey).slots slot = some k) ∧
    (s.fillChoice core = none → s.boostChoice core = some (k, c) →
      s.decideCore core = s.setCtx k { c with sch := { c.sch with preempt := some (if c.eligible then .rollback else .drain) } } ∧
      ∃ i, (i, k, c) ∈ s.residents core ∧ c.preemptable = true ∧ r.guaranteed i = false ∧
        (∃ w ∈ s.wantingOf core, w.2.landing = true ∧ r.usable w.2 i = true ∧ d.priority c + (d.hyst : Int) ≤ d.priority w.2) ∧
        ∀ v ∈ s.residents core, v.2.2.preemptable = true → r.guaranteed v.1 = false →
          (∃ w ∈ s.wantingOf core, w.2.landing = true ∧ r.usable w.2 v.1 = true ∧ d.priority v.2.2 + (d.hyst : Int) ≤ d.priority w.2) →
          d.priority c ≤ d.priority v.2.2) ∧
    (∀ rest, s.fillChoice core = none → s.boostChoice core = none → s.residents core = (slot, k, c) :: rest → s.sliceOver core c = true →
      c.preemptable = true → s.wantedSlot core slot = true → s.decideCore core =
        { s.updCtx k (fun c => { c with sch := { c.sch with sliceDue := true } }) with agenda := .ev (.sliceEnd k) :: s.agenda }) ∧
    (s.fillChoice core = none → s.boostChoice core = none → (∀ v ∈ s.residents core, s.sliceOver core v.2.2 = false) →
      (s.residents core).filter (fun v => v.2.2.sch.yielding && v.2.2.sch.preempt.isNone) = [(slot, k, c)] →
      c.preemptable = true → s.yieldWanted core slot c = true →
      s.decideCore core = s.updCtx k (fun c => { c with sch := { c.sch with preempt := some .drain } })))) ∧
  (∀ (d : Die) (c : Context),
    d.priority c = c.id.basePrio + d.boost c.id.tenant c.id.gang - (if c.sch.spinning then 4 else 0) ∧
    (c.id.gang = 0 → d.boost c.id.tenant c.id.gang = 0) ∧
    (∀ i r, c.id.gang ≠ 0 → d.recordOf c.id.tenant c.id.gang = some i → SMap.find d.fair i = some r →
      d.boost c.id.tenant c.id.gang = if r.boost.toNat < 2 ^ (d.schcfg.toNat % 32) * (d.schcfg.toNat / 2 ^ 12 % 256) / 256 then r.level else 0)) ∧
  ∀ (s : State) (k : Nat) (c : Context), s.ctx k = some c →
    let now := (s.core c.coreKey).cycle.toNat
    (∀ slot, c.sch.sliceDue = true → c.slot = some slot → s.onRetired c = false →
      exec (.sliceEnd k) s = .next (s.setCtx k (if c.preemptable = true ∧ s.wantedSlot c.coreKey slot = true then
          { c with sch := { c.sch with sliceDue := false, preempt := some (if c.eligible then .rollback else .drain) } }
        else { c with sch := { c.sch with sliceDue := false, sliceStart := now } }))) ∧
    (∀ since, c.sch.wantingSince = some since → c.sch.reslated = false →
      0 < ((s.die c.die).part c.id.part).pdl.toNat % 2 ^ 48 → ((s.die c.die).part c.id.part).pdl.toNat % 2 ^ 48 < now - since →
      exec (.reslate k) s = .next ((s.setCtx k { c with sch := { c.sch with reslated := true } }).post (.cobalt c.die) 7
        (k % 2 ^ 25) (BitVec.ofNat 64 (now - since)) 0)) ∧
    (c.status = .nonres → c.wanting now = false → c.sch.coldReported = false → 0 < (s.die c.die).coldage.toNat % 2 ^ 48 →
      (s.die c.die).coldage.toNat % 2 ^ 48 < now - c.sch.coldSince →
      exec (.coldcand k) s = .next ((s.setCtx k { c with sch := { c.sch with coldReported := true } }).post (.cobalt c.die) 8
        (k % 2 ^ 25) (BitVec.ofNat 64 (now - c.sch.coldSince)) 0))


/-! ### Residency, checkpoints, fatal traps (spec/14, spec/18, spec/19) -/

/-- R275-R280, R140: a pending marker whose earlier work is complete becomes the latest checkpoint and CKPTSEQ grows; an interval
checkpoint that is due places a marker at the thread's point. A drained context is saved with its window lines,
without its snapshot, and leaves its slot. A rollback of an eligible context puts the buffer lines and the lines of OWN pages its marker
logged back to their logged values, thread and back end as the marker has them (loads that waited there performed, log entry 8), its
work gone, and saves it; one that is not eligible is
drained instead. A restore makes a saved context with a slot RESIDENT: its windows at the slot's regions, its saved lines in them,
everything else there zero and clean. HALT first has its PHASE at SYS (R48), then the context is HALTED, its gang's record counts one
context fewer, its graph one halted task more; the firmware context is only HALTED. DRAINQ ends once the back end is idle (R132). A replay
writes the landing ring's oldest entry into the window and sends its credit, and ends with the ring empty (R274). A refetch begins, and
delivers its next chunk (R280). R282: a context that is RESIDENT on a retired core is frozen in its state: none of the steps of its core
changes anything. -/
def Obligations.ResidencyResults : Prop :=
  (∀ (s : State) (k n : Nat) (l : LoadRef) (c : Context), s.ctx k = some c → c.management = false → c.status = .resident →
    (s.core c.coreKey).retired = true →
    ∀ i ∈ [Instr.checkpointLatest k, .intervalCheckpoint k, .contextDrain k, .rollback k, .contextRestore k, .sliceEnd k, .haltComplete k,
        .drainqComplete k, .spinTimeout k, .landingReplay k, .tileRefetch k, .bundleTrap k, .uliDelivery k, .watchdogFire k, .bundleCommit k,
        .landingDataArrives k n, .timedLanding k, .loadPerform k l, .phaseSend k n, .phaseComplete k n, .syncAnswerArrival k n,
        .waiterBusyResend k, .postAccept k],
      exec i s = .next s) ∧
  ∀ (s : State) (k : Nat) (c : Context), s.ctx k = some c → s.onRetired c = false →
    let r := s.core c.coreKey
    let d := c.performLoads s
    let key (w : Context) (buf wl : Nat) : Nat := bufKey buf (winBase (w.window (if buf = 3 then 2 else buf)) + wl / 256) (wl % 256)
    (∀ m, c.chk.pendingMarker = some m → m.waits = false → c.settledBefore m.idx = true →
      exec (.checkpointLatest k) s = .next (s.setCtx k { c with ckptseq := c.ckptseq + 1, chk := { c.chk with
        latest := some m, pendingMarker := none, logStopped := decide (logLimit < m.logged), since := 0, intervalPlaced := none } })) ∧
    (c.intervalDue = true → exec (.intervalCheckpoint k) s = .next (s.setCtx k { c with
      queue := c.queue ++ [.marker c.thread false false], chk := { c.chk with intervalPlaced := some 0 } })) ∧
    (c.sch.preempt = some .drain → c.status = .resident → c.isFrozen = false → c.drained = true →
      ∃ t c', exec (.contextDrain k) s = .next t ∧ t.ctx k = some c' ∧ c'.status = .nonres ∧ c'.slot = none ∧
        c'.thread = d.thread ∧ c'.be = c.be ∧ c'.fl = c.fl ∧ c'.queue = c.queue ∧ c'.ord.pbuf = c.ord.pbuf ∧ c'.ord.snapshot = [] ∧
        c'.thread.loads = [] ∧ c'.sch.savedLines = c.windowLines r ∧
        c'.sch.preempt = none ∧ (∀ slot, (slot, k) ∉ (t.core c.coreKey).slots) ∧ (∀ a, t.memByte a = s.memByte a)) ∧
    (c.sch.preempt = some .rollback → c.status = .resident → c.isFrozen = false → c.stopped = true →
      (∀ m, c.eligible = true → c.chk.latest = some m → ∃ t c', exec (.rollback k) s = .next t ∧ t.ctx k = some c' ∧
        c'.status = .nonres ∧ c'.slot = none ∧ (m.thread.loads = [] → c'.thread = m.thread) ∧
        c'.thread = { m.thread with regs := c'.thread.regs, rpoison := c'.thread.rpoison, loads := [] } ∧
        (∀ x, (∀ l ∈ m.thread.loads, l.d ≠ x) → c'.thread.reg x = m.thread.reg x ∧ c'.thread.regPoison x = m.thread.regPoison x) ∧ c'.wait = .none ∧ c'.queue = [] ∧ c'.fl.issued = [] ∧
        c'.fl.landings = [] ∧ c'.fl.copyOps = [] ∧ c'.fl.mtxOps = [] ∧ c'.fl.syncOps = [] ∧ c'.ord.pbuf = [] ∧ c'.ord.phases = [] ∧
        c'.be = { c.atMarker m with cstat := c'.be.cstat } ∧
        ((∀ w ∈ c.fl.journal, m.idx ≤ w.idx) → (∀ p ∈ c.fl.pendingFmt, m.idx ≤ p.idx) → c'.be = { m.shadow with cstat := c'.be.cstat }) ∧
        (∀ pre e post, m.lines = pre ++ e :: post → (∀ x ∈ post, key c x.1 x.2.1 ≠ key c e.1 e.2.1) →
          (t.core c.coreKey).line (key c e.1 e.2.1) = { data := e.2.2.1, poison := e.2.2.2 }) ∧
        (∀ x, (∀ e ∈ m.lines, key c e.1 e.2.1 ≠ x) → (t.core c.coreKey).line x = r.line x) ∧
        (s.MemWf → (∀ pre e post, m.own = pre ++ e :: post → (∀ x ∈ post, x.1 ≠ e.1) →
            (∀ j, j < 64 → t.memByte (64 * e.1 + j) = lineByte e.2.1 j) ∧ t.poison.contains e.1 = e.2.2) ∧
          ∀ a, (∀ e ∈ m.own, a / 64 ≠ e.1) → t.memByte a = s.memByte a)) ∧
      (c.eligible = false → exec (.rollback k) s = .next (s.setCtx k { c with sch := { c.sch with preempt := some .drain } }))) ∧
    (∀ slot, c.status = .nonres → c.slot = some slot → c.isFrozen = false → r.retired = false →
      ∃ t c', exec (.contextRestore k) s = .next t ∧ t.ctx k = some c' ∧ c'.status = .resident ∧ c'.slot = some slot ∧
        c'.thread = c.thread ∧ c'.land.head = c.land.head ∧ c'.land.replaying = (c.land.head != c.land.tail) ∧
        c'.sch.toRefetch = c.sch.refetch ∧ c'.sch.savedLines = [] ∧
        winBase c'.id.winF = regionBase r.slotWinF slot ∧ winBase c'.id.winW = regionBase r.slotWinW slot ∧
        winBase c'.id.winC = regionBase r.slotWinC slot ∧
        (∀ pre e post, c.sch.savedLines = pre ++ e :: post → (∀ x ∈ post, key c' x.1 x.2.1 ≠ key c' e.1 e.2.1) →
          (t.core c.coreKey).line (key c' e.1 e.2.1) = e.2.2) ∧
        (∀ x, (∀ e ∈ c.sch.savedLines, key c' e.1 e.2.1 ≠ x) →
          (t.core c.coreKey).line x = if c'.ownsLine x then { data := 0, poison := false } else r.line x) ∧
        (∀ a, t.memByte a = s.memByte a)) ∧
    (c.wait = .halt → c.haltReady = true → exec (.haltComplete k) s = .next (s.setCtx k { c with wait := .haltPhase, ord := { c.ord with
      phases := c.ord.phases ++ [{ owner := .halt, scope := 3, sent := false, after := [], phaseNo := c.fl.nextId }] } })) ∧
    (c.wait = .haltPhase → c.haltReady = true → (∀ p ∈ c.ord.phases, p.owner ≠ .halt) →
      (c.isFirmware = true → exec (.haltComplete k) s = .next (s.setCtx k { c with status := .halted, wait := .none, slot := none })) ∧
      (c.isFirmware = false → ∃ t c', exec (.haltComplete k) s = .next t ∧ t.ctx k = some c' ∧ c'.status = .halted ∧ c'.slot = none ∧
        c'.wait = .none ∧ (∀ a, t.memByte a = s.memByte a) ∧ (∀ g, SMap.find s.graphs c.id.graph = some g →
          SMap.find t.graphs c.id.graph = some { g with halted := g.halted + 1 }) ∧
        (∀ i, (s.die c.die).recordOf c.id.tenant c.id.gang = some i →
          let f := SMap.getD (s.die c.die).fair i FairRec.empty
          SMap.getD (t.die c.die).fair i FairRec.empty = { f with valid := decide (1 < f.contexts.toNat), contexts := f.contexts - 1 }) ∧
        ∀ x i, SMap.find (t.serac x).entries i = (SMap.find (s.serac x).entries i).map (Posted.endedWith k))) ∧
    (c.wait = .drainq → c.runs = true → c.stopped = false → c.backEndIdle = true → c.fl.syncOps.all SyncOp.performed = true →
      c.bundleStreamDone = true →
      exec (.drainqComplete k) s = .next (s.setCtx k { c with wait := .none, thread := { c.thread with
        loops := c.thread.nextLoops (c.thread.pc + 4), pc := c.thread.nextPc (c.thread.pc + 4)
        boundary := (c.thread.finish (c.thread.pc + 4)).boundary } })) ∧
    (c.status = .resident → c.land.replaying = true → c.isFrozen = false → c.refetched = true →
      (c.land.head = c.land.tail → exec (.landingReplay k) s = .next (s.setCtx k { c with land := { c.land with replaying := false } })) ∧
      (c.land.head ≠ c.land.tail →
        let h := s.ringBytes k c c.land.head 0 32
        let n := recField h 12 2
        let w := s.writeWindow k (recField h 8 4)
          (if (recField h 4 4).testBit 20 then List.replicate n 0 else s.ringBytes k c c.land.head 64 n) (recField h 14 2)
        ∃ t c' c1, exec (.landingReplay k) s = .next t ∧ t.ctx k = some c' ∧ w.ctx k = some c1 ∧
          c' = { c1 with land := { c.land with head := c.land.head + 1, replaying := (c.land.head + 1 != c.land.tail) } } ∧
          t.cores = w.cores ∧ c'.thread = c.thread ∧ (∀ a, t.memByte a = s.memByte a) ∧
          t.credits = s.credits ++ (if (recField h 4 4).testBit 21 then
            [{ loc := { pkg := recField h 28 4 % 4096, pa := recField h 16 8 % 2 ^ 52, home := recField h 16 8 / 2 ^ 52 % 16,
                        dev := false, own := false }, bytes := n, poison := decide (recField h 14 2 % 16 ≠ 0) }] else []))) ∧
    (c.status = .resident → c.isFrozen = false → r.frozen = false → r.retired = false →
      (∀ x rest, (∀ o ∈ c.fl.copyOps, o.idx ≠ 0) → c.sch.toRefetch = x :: rest →
        exec (.tileRefetch k) s = .next (s.setCtx k { c with sch := { c.sch with toRefetch := rest }
                                                             fl := { c.fl with nextId := c.fl.nextId + 1
                                                                               copyOps := x.copyOp c.fl.nextId :: c.fl.copyOps } })) ∧
      (∀ o, c.fl.copyOps.find? (fun o => decide (o.idx = 0)) = some o → o.state = .running → s.chanTurn c o.w.ch.toNat = true →
        r.hasMoved o.w.ch.toNat 256 = true → (CopyOp.gather s c o o.done).2 = none →
        let o1 := (CopyOp.gather s c o o.done).1
        let x := (chunkOf s c o1 o.done).data
        ∃ t c', exec (.tileRefetch k) s = .next t ∧ t.ctx k = some c' ∧
          (∀ i, i < 4 → (t.core c.coreKey).line (bufKey o.buf (winBase (c.window o.buf) + o.w.tile.toNat) (4 * o.done + i)) =
            { data := lineOfBytes (((x.drop (64 * i)).take 64).map (·.1)), poison := ((x.drop (64 * i)).take 64).any (·.2) }) ∧
          (o.done + 1 < o.chunks → c' = c.setOp o1.nextChunk) ∧
          (o.chunks ≤ o.done + 1 → c'.fl.copyOps = c.fl.copyOps.filter (fun y => y.id ≠ o.id) ∧
            (readsOnlyRo s c o1.nextChunk = true → c'.sch.refetch = c.sch.refetch)) ∧ t.mem = s.mem))


/-- R135-R137: a BUNDLE trap that is due is taken with TPC the boundary's Next and TCAUSE 11, its frost entry with the class and code of the
bundle fault (R334), a posting's entry given back; fatal where there is no handler: the context freezes with that cause and the core's copy
of its frost ring. A user-level interrupt saves the pc in ULIPC and goes to ULIVEC. R329: a freeze settles (steps 1 to 4): bundles that have
not committed are cancelled; with the work over the pre-emption is over, copy entries of the fault queue are closed with ULIPEND bit 15,
waiters are withdrawn. R332: the dump is lost where it finds no slot; else DTAIL and the sequence grow and its bytes stand in the slot,
header first, the rest encrypted. After it the context is DEAD and FATAL (event 1) is posted, or DUMPLOST (11) in its place; the watchdog
freezes a context whose count has reached WDWIN, a pre-emption under way ending with each freeze (log entry 44), and after its dump marks it
and posts WATCHDOG (2), or DUMPLOST (R331). R338: a posted record is 32 bytes at the tail of the event queue, bit 15 of its code set where
it overwrites the oldest; without a queue it is dropped and counted. A THAW store lets the context it names go on (R336). The class of a
BUNDLE trap's frost entry and the frost copy of one core cycle rest on log entry 65. -/
def Obligations.FreezeResults : Prop :=
  (∀ (s : State) (k : Nat) (c : Context), s.ctx k = some c →
    let r := s.core c.coreKey
    let u := s.serac (seracOfDie c.die)
    let cause : TrapCause := { cls := 1, code := c.thread.bfcause.toNat % 256, sub := c.thread.bfcause.toNat / 256 % 256, tval := 0 }
    let freeze (x : TrapCause) (fatal : Bool) : Freeze := ⟨x, fatal, false, none, s.moves, r.frost.copy.getD r.frost.list, r.cycle⟩
    (s.onRetired c = false → c.bundleTrapDue = true → c.thread.tvec ≠ 0 → ∃ t c', exec (.bundleTrap k) s = .next t ∧ t.ctx k = some c' ∧
      c'.thread = { c.thread with tpc := c.thread.pc, tval := 0, tcause := 11, pc := c.thread.tvec, boundary := true
                                  tstate := mkTstate c.thread.udep c.thread.depth c.thread.inUli true } ∧
      c'.bundleTrap = false ∧ c'.wait = .none ∧ c'.be = c.be ∧ c'.fl = c.fl ∧
      (c.isFirmware = false → (t.core c.coreKey).frost = r.frost.push (frostEntry 4 (k % 1024) r.cycle
        (frostTrap (BitVec.ofNat 8 cause.code) (BitVec.ofNat 8 cause.sub) 1 0 c.thread.pc)) c.id.tenant 0) ∧
      (∀ a b i, c.wait = .cpostSent a b (some i) → SMap.find (t.serac (seracOfDie c.die)).entries i =
        some { Posted.free with generation := (SMap.getD u.entries i Posted.free).generation }) ∧
      (∀ a, t.memByte a = s.memByte a)) ∧
    (s.onRetired c = false → c.bundleTrapDue = true → c.thread.tvec = 0 → ∃ t, exec (.bundleTrap k) s = .next t ∧
      t.ctx k = some { c with bundleTrap := false, sch := { c.sch with freeze := some (freeze cause true), preempt := none } } ∧
      (t.core c.coreKey).frost.copy = some (r.frost.copy.getD r.frost.list) ∧ (∀ a, t.memByte a = s.memByte a)) ∧
    (s.onRetired c = false → c.uliDue = true → ∃ t c', exec (.uliDelivery k) s = .next t ∧ t.ctx k = some c' ∧
      c'.thread = { c.thread with ulipc := c.thread.pc, pc := c.thread.ulivec, boundary := true
                                  tstate := mkTstate c.thread.depth c.thread.tdep true c.thread.inTrap } ∧ c'.wait = .none ∧
      c'.be = c.be ∧ (∀ a, t.memByte a = s.memByte a)) ∧
    (∀ f, c.sch.freeze = some f → f.settled = false →
      (f.fatal = true → exec (.fatalTrap k) s = .next (s.settleFreeze k c f)) ∧
      (s.onRetired c = false → f.fatal = false → f.dumped = none → exec (.watchdogFire k) s = .next (s.settleFreeze k c f))) ∧
    (∀ f, let c1 := (c.cancelFrom c.committedBelow).performLoads s
      let mine (e : FaultEntry) : Prop := e.source = 2 ∧ e.who = k
      (c1.workOver = false → s.settleFreeze k c f = s.setCtx k c1) ∧
      (c1.workOver = true → ∃ c', (s.settleFreeze k c f).ctx k = some c' ∧ c'.sch.freeze = some { f with settled := true } ∧
        c'.sch.preempt = none ∧ c'.fl.issued.map (·.idx) = c1.fl.issued.map (·.idx) ∧ c'.be = c1.be ∧ (∀ o ∈ c'.fl.syncOps, o.state ≠ .waiting) ∧
        (∀ o ∈ c1.fl.syncOps, o.state = .waiting → ∀ w ∈ ((s.settleFreeze k c f).die o.loc.engine).waiters, w.who ≠ .context k o.id) ∧
        (∀ e, e ∈ ((s.settleFreeze k c f).die c.die).fault.open_ ↔ e ∈ (s.die c.die).fault.open_ ∧ ¬ mine e) ∧
        ((∀ e ∈ (s.die c.die).fault.open_ ++ (s.die c.die).fault.waiting, ¬ mine e) → c'.thread = c1.thread) ∧
        ((∃ e ∈ (s.die c.die).fault.open_ ++ (s.die c.die).fault.waiting, mine e) → c'.thread = c1.thread.pend 15) ∧
        (s.settleFreeze k c f).mem = s.mem)) ∧
    (∀ f, c.sch.freeze = some f → f.settled = true → f.dumped = none → s.earlierDump (seracOfDie c.die) f = false →
      let g := SMap.getD u.dump c.id.part DumpRegs.reset
      (fitting s c f g = none →
        exec (.rimeDump k) s = .next (s.setCtx k { c with sch := { c.sch with freeze := some { f with dumped := some none } } })) ∧
      (∀ l, fitting s c f g = some l →
        let seq : Word := BitVec.ofNat 64 (u.bootCount.toNat * 2 ^ 32 + u.dumpSeq.toNat)
        let b := dumpBytes c f (seracOfDie c.die) seq (SMap.getD u.dumpKeys c.id.tenant.toNat 0) l
        let pa := g.dbase.toNat % 2 ^ 52 / 4096 * 4096 + g.tail.toNat % g.slots * g.slotSize
        ∃ t, exec (.rimeDump k) s = .next t ∧ (t.serac (seracOfDie c.die)).dumpSeq = u.dumpSeq + 1 ∧
          SMap.getD (t.serac (seracOfDie c.die)).dump c.id.part DumpRegs.reset = { g with tail := g.tail + 1 } ∧
          t.ctx k = some { c with sch := { c.sch with freeze := some { f with dumped := some (some seq) } } } ∧
          (s.MemWf → ∀ a, t.memByte a = let i := a - memKey (pkgOfSerac (seracOfDie c.die)) pa
            if memKey (pkgOfSerac (seracOfDie c.die)) pa ≤ a ∧ i < b.length then b.getD i 0 else s.memByte a)) ∧
      ∀ l serac seq key, (dumpBytes c f serac seq key l).take (dumpHeader c f serac seq l).length = dumpHeader c f serac seq l ∧
        dumpHeader c f serac seq l =
          leBytes 4 0x454D4952 ++ leBytes 2 1 ++ leBytes 2 l.length ++ leBytes 4 (72 + 16 * l.length) ++
          leBytes 4 ((if f.fatal then 1 else 0) + 2 * (if f.cause.cls = 2 ∧ f.cause.code = 2 then 1 else 0) +
            4 * (if l.any (fun x => decide (x.1 = 6)) then 1 else 0)) ++
          leBytes 2 c.id.tenant.toNat ++ leBytes 2 (c.id.part % 16) ++ leBytes 4 c.id.ctxid.toNat ++
          leBytes 4 (f.cause.code % 256 + f.cause.sub % 256 * 2 ^ 8 + f.cause.cls % 4 * 2 ^ 16) ++ leBytes 4 c.id.gang.toNat ++
          leBytes 8 f.cycle.toNat ++ leBytes 8 seq.toNat ++ leBytes 8 (dumpLength l) ++ leBytes 2 (pkgOfSerac serac) ++
          leBytes 2 (serac % 2) ++ leBytes 8 seq.toNat ++ leBytes 4 0 ++ sectionTable (72 + 16 * l.length) l) ∧
    (∀ f seq, c.sch.freeze = some f → f.dumped = some seq →
      let event (v : State) (code : Nat) : State := v.post (.cobalt c.die) (if seq.isSome then code else 11) (k % 2 ^ 25) (seq.getD 0)
        (if f.cause.cls = 1 then c.thread.bfpc else 0)
      (f.fatal = true → ∃ v c', exec (.contextDead k) s = .next (event v 1) ∧ v.ctx k = some c' ∧ (event v 1).ctx k = some c' ∧
        c'.status = .dead ∧ c'.slot = none ∧ c'.sch.freeze = none ∧ c'.sch.wdFrozen = false ∧ c'.thread = (c.performLoads s).thread ∧
        v.mem = s.mem) ∧
      (s.onRetired c = false → f.fatal = false → exec (.watchdogFire k) s =
        .next (event (s.setCtx k { c with sch := { c.sch with freeze := none, wdFrozen := true } }) 2))) ∧
    (s.onRetired c = false → c.sch.freeze = none → s.watchdogDue c = true → ∃ t, exec (.watchdogFire k) s = .next t ∧ t.ctx k = some { c with
      sch := { c.sch with freeze := some (freeze { cls := 2, code := 2, sub := 0, tval := 0 } false), preempt := none } } ∧
      (∀ a, t.memByte a = s.memByte a)) ∧
    (∀ die (v : Word), k = die * 1024 + (v.extractLsb' 0 10).toNat → v.getLsbD 31 = true → v.extractLsb' 10 21 = 0 →
      c.sch.wdFrozen = true →
      exec (.thaw die v) s = .next (s.setCtx k { c with sch := { c.sch with wdFrozen := false, wdCount := 0 } }))) ∧
  (∀ (s : State) (die : Nat) (v : Word), v.getLsbD 31 = false ∨ v.extractLsb' 10 21 ≠ 0 → exec (.thaw die v) s = .next s) ∧
  ∀ (s : State) (p : FaultPort) (event who : Nat) (d1 d2 : Word),
    let f := s.faultPage p
    (queueConfigured f.eqbase = false → s.post p event who d1 d2 = s.setFaultPage p { f with dropped := satInc32 f.dropped }) ∧
    (queueConfigured f.eqbase = true →
      let full := (f.eqTail - f.eqHead).toNat = queueSize f.eqbase
      let rec_ := leBytes 2 (event + (if full then 2 ^ 15 else 0)) ++ leBytes 2 (portNumber p) ++ leBytes 4 who ++ leBytes 8 d1.toNat ++
        leBytes 8 (s.portCycle p).toNat ++ leBytes 8 d2.toNat
      let at_ := memKey (portPkg p) (queuePa f.eqbase + 32 * (f.eqTail.toNat % queueSize f.eqbase))
      (s.post p event who d1 d2).faultPage p = { f with
        eqTail := f.eqTail + 1, eqHead := if full then f.eqHead + 1 else f.eqHead
        overwritten := if full then satInc32 f.overwritten else f.overwritten } ∧
      (s.post p event who d1 d2).contexts = s.contexts ∧ (s.MemWf → ∀ a, (s.post p event who d1 d2).memByte a =
        if at_ ≤ a ∧ a < at_ + 32 then rec_.getD (a - at_) 0 else s.memByte a))


/-! ### Commit, landings, the ordering machine (spec/02, spec/03, spec/12) -/

/-- R23, R24, R229: the oldest bundle commits 8 context cycles after its issue, generator loads that precede its stores performed first (R35,
log entry 8), its effects in order, then results that are due: a buffer line
takes its data, stores enter their buffer, flags are ORed, the first access outside the window is noted (R226), a MEM PHASE begins, copy,
matrix and sync operations leave the bundle (R141, R185, R241), a resume restarts a suspended operation (R161), a clear takes the
committed operations of its channel (R162). Stores that need more than 512 entries are the bundle fault PHASEFULL (R37); a translation
fault found at issue cancels the bundle and every younger one, and is a bundle fault unless it is NOTPRES, which waits for its page
(R230, R324). A load of a landing entry, and a generator load (R36, log entry 8), is performed as the ordering machine answers it; an entry
whose loads are performed has its data; data due joins the results on their way as one that writes the governed bytes of its register.
A write of the transit set is applied at its home unless an earlier one writes a byte of its own (R34, R37): it changes its bytes and its
line's tag alone. A snapshot line may go. A PHASE sends the phase buffer, a generator's every entry (R38, log entry 59); it is complete once
every write inside its scope is applied, and takes the snapshot's lines of that scope; with records in the async log it halts the
context (R45). A home that is not reached (R341, log entry 68) answers no load and takes no write. -/
def Obligations.OrderingResults : Prop :=
  (∀ (s : State) (k : Nat) (c : Context), s.ctx k = some c →
    let goes (i : Instr) (u : State) : Prop := ∃ t, exec i s = .next t ∧ t = { u with agenda := t.agenda }
    let live : Prop := s.onRetired c = false
    (∀ i rest, live → c.fl.issued = i :: rest → i.cc + 8 < c.ctxcyc →
      let b := if bundleStores i.acts = [] then c else c.performBefore s i.idx
      (c.thread.loads = [] → b = c) ∧
      (i.fault = none → b.ord.slotStore (bundleStores i.acts) ≠ none → goes (.bundleCommit k)
        ((i.acts.foldl (State.act k i.idx) (s.setCtx k { b with fl := { b.fl with issued := rest } })).updCtx k Context.settle)) ∧
      (i.fault = none → b.ord.slotStore (bundleStores i.acts) = none → goes (.bundleCommit k) (s.setCtx k (b.faultAtCommit i
        { slot := 1, cause := bPHASEFULL, sub := 0, addr := (firstOver b.ord.slotBuffer (bundleStores i.acts)).getD 0 }))) ∧
      (∀ slot x, i.fault = some (slot, x) →
        (isNotPres x.sub = false → goes (.bundleCommit k) (s.setCtx k (c.faultAtCommit i
          { slot := slot, cause := bXLATE, sub := x.sub.toNat, addr := x.va }))) ∧
        (isNotPres x.sub = true → goes (.bundleCommit k) ((s.setCtx k ((c.cancelFrom i.idx).pageWait i.entry)).queueFault (.cobalt c.die)
          { seq := 0, source := 1, who := k, va := x.va, pc := i.entry.pc, emitseq := i.entry.seq, sub := x.sub, unit := slot
            record := [] }))) ∧
      (∀ f, let d := c.faultAtCommit i f
        d.bundleTrap = true ∧ d.beFrozen = true ∧ d.fl.replay = some { entry := i.entry, paging := false } ∧
        d.fl.issued = c.fl.issued.filter (fun x => decide (x.idx < i.idx)) ∧
        d.thread = { c.thread with bfpc := i.entry.pc, bfseq := i.entry.seq.setWidth 64, bfslot := BitVec.ofNat 64 f.slot, bfaddr := f.addr
                                   bfperf := 0, bfcause := BitVec.ofNat 64 (f.cause + f.sub * 256 + i.entry.reps % 256 * 65536) })) ∧
    (∀ e l, live → c.fl.landings[e]? = some l → l.arrived = false → l.todo = [] → (l.kind ≠ 2 ∨ ∀ o ∈ c.fl.syncOps, o.idx ≠ l.idx) →
      ∃ t c', exec (.landingDataArrives k e) s = .next t ∧ t.ctx k = some c' ∧ c'.fl.landings[e]? = some { l with arrived := true } ∧
        (∀ j, j ≠ e → c'.fl.landings[j]? = c.fl.landings[j]?) ∧ c'.thread = c.thread ∧ c'.be = c.be ∧ (∀ a, t.memByte a = s.memByte a)) ∧
    (live → let ready (l : Landing) : Bool := decide (l.due ≤ c.ctxcyc) && l.arrived
      let d : Context := { c with fl := { c.fl with
        landings := c.fl.landings.filter (fun l => !ready l)
        journal := (c.fl.landings.filter ready).foldl (fun j l => journalInsert l.write j) c.fl.journal } }
      exec (.timedLanding k) s = .next (s.setCtx k d.settle) ∧
      (∀ l ∈ c.fl.landings, ready l = true → ∃ w ∈ d.fl.journal, w.target = .vreg l.v l.mask l.data ∧ w.poison = l.poison ∧
        w.due = l.due ∧ w.idx = l.idx) ∧
      ∀ l, c.fl.landings.filter ready = [l] → c.fl.journal = [] → c.fl.pendingFmt = [] → l.due < c.ctxcyc → l.idx < c.committedBelow →
        d.settle.be = { c.be with vec := c.be.vec.write (.vreg l.v l.mask l.data) l.poison }) ∧
    (∀ e ln l va loc n sg, live → c.fl.landings[e]? = some l → l.todo = [⟨ln, va, some loc, n, sg⟩] → c.loadReady l l.todo = true →
      (s.apart c loc.engine = true → exec (.loadPerform k (.landing e ln)) s = .next s) ∧ (s.apart c loc.engine = false →
      let x := ordLoad s c.reader c.ord loc n
      ∃ t c' l', exec (.loadPerform k (.landing e ln)) s = .next t ∧ t.ctx k = some c' ∧
        c'.fl.landings[e]? = some l' ∧ l'.poison = (l.poison || x.2.1) ∧ l'.todo = [] ∧ c'.ord = x.2.2 ∧ c'.thread = c.thread ∧
        (l.kind ≠ 1 → l'.data = BitVec.ofNat 512 x.1) ∧
        (l.kind = 1 → n ≤ 4 → l'.data = l.data ||| BitVec.ofNat 512 ((BitVec.ofInt 32 (intOf sg (8 * n) x.1)).toNat * 2 ^ (32 * ln))) ∧
        (∀ a, t.memByte a = s.memByte a))) ∧
    (∀ n l, live → c.thread.loads[n]? = some l →
      let x := ordLoad s c.reader c.ord l.loc l.size
      ((∃ y ∈ c.thread.loads, l.age < y.age) ∨ s.apart c l.loc.engine = true → exec (.loadPerform k (.gen n)) s = .next s) ∧
      ((∀ y ∈ c.thread.loads, y.age ≤ l.age) → s.apart c l.loc.engine = false →
        exec (.loadPerform k (.gen n)) s = .next (s.setCtx k { c with
          ord := x.2.2
          thread := { c.thread with loads := c.thread.loads.eraseIdx n }.setReg l.d (extendLoad l.size l.signed x.1) x.2.1 }))) ∧
    (∀ n e, c.ord.transit[n]? = some e →
      ((c.ord.transit.take n).any e.meets = true ∨ s.apart c e.loc.engine = true → exec (.transitWriteApply k n) s = .next s) ∧
      ((c.ord.transit.take n).any e.meets = false → s.apart c e.loc.engine = false → s.MemWf →
        let base := memKey e.loc.pkg (e.loc.pa / 64 * 64)
        let key := lineKey e.loc.pkg (e.loc.pa / 64)
        ∃ t c', exec (.transitWriteApply k n) s = .next t ∧ t.ctx k = some c' ∧ c'.ord = { c.ord with transit := c.ord.transit.eraseIdx n } ∧
          c'.thread = c.thread ∧ c'.be = c.be ∧
          (∀ j, j < 64 → t.memByte (base + j) = if e.mask.getLsbD j then lineByte e.data j else s.memByte (base + j)) ∧
          (∀ a, a < base ∨ base + 64 ≤ a → t.memByte a = s.memByte a) ∧
          (e.mask ≠ 0 → t.poison.contains key = (e.poison || (e.mask != BitVec.allOnes 64 && s.poison.contains key))) ∧
          (∀ j, j ≠ key → t.poison.contains j = s.poison.contains j))) ∧
    (∀ line, exec (.snapshotLineDrop k line) s = .next (s.setCtx k { c with ord := { c.ord with
      snapshot := c.ord.snapshot.filter (fun e => decide (e.1 ≠ line)) } })) ∧
    (∀ n p, live → c.ord.phases[n]? = some p → p.sent = false → c.runs = true → c.phaseMaySend n p = true → ∃ t c',
      exec (.phaseSend k n) s = .next t ∧ t.ctx k = some c' ∧
        (p.owner.ofBundle = true → c'.ord.transit = c.ord.transit ++ c.ord.pbuf ∧ c'.ord.pbuf = p.after ∧
          ∀ j, j ≠ n → c'.ord.phases[j]? = c.ord.phases[j]?) ∧
        (p.owner.ofBundle = false → c'.ord.transit = c.ord.transit ++ c.ord.entries ∧ c'.ord.entries = []) ∧
        c'.ord.phases[n]? = some { p with sent := true, after := [] } ∧ c'.thread.regs = c.thread.regs ∧ c'.thread.pc = c.thread.pc ∧
        (∀ a, t.memByte a = s.memByte a)) ∧
    (∀ n p, live → c.ord.phases[n]? = some p → p.sent = true → c.runs = true → c.phaseApplied p = true →
      let gone : Context := { c with ord := { c.ord with
        snapshot := c.ord.snapshot.filter (fun e => !inScope p.scope c.die (e.2.2.2 / 16) (e.2.2.2 % 16)) } }
      (c.ord.asyncLog = [] → ∃ t c', exec (.phaseComplete k n) s = .next t ∧ t.ctx k = some c' ∧
        c'.ord = { gone.ord with phases := c.ord.phases.eraseIdx n } ∧
        (p.owner = .phaseg → c'.wait = .none ∧ c'.thread.pc = c.thread.nextPc (c.thread.pc + 4)) ∧
        (∀ id, p.owner = .sync id → c'.fl.syncOps = c.fl.syncOps.map (fun o => if o.id = id then { o with state := .ready } else o)) ∧
        (∀ a, t.memByte a = s.memByte a)) ∧
      (c.ord.asyncLog ≠ [] → exec (.phaseComplete k n) s = .next ((s.setCtx k gone).beginFreeze k
        { cls := 2, code := 1, sub := 0, tval := 0 } true)))) ∧
  ∀ (s : State) (k idx : Nat) (c : Context), s.ctx k = some c →
    (∀ buf tile line d p, buf < 4 → line < 256 → tile < winLimit (c.window (if buf = 3 then 2 else buf)) →
      let key (t l : Nat) : Nat := bufKey buf (winBase (c.window (if buf = 3 then 2 else buf)) + t) l
      let u := State.act k idx s (.bufStore buf tile line d p)
      (u.core c.coreKey).line (key tile line) = { data := d, poison := p } ∧
      (∀ x, x ≠ key tile line → (u.core c.coreKey).line x = (s.core c.coreKey).line x) ∧ u.mem = s.mem) ∧
    (∀ sts o, c.ord.slotStore sts = some o → State.act k idx s (.memStore sts) = s.setCtx k { c with ord := o }) ∧
    (∀ f, ∃ c', (State.act k idx s (.flags f)).ctx k = some c' ∧ c'.be = { c.be with vflags := c.be.vflags ||| f } ∧ c'.thread = c.thread) ∧
    (∀ buf tile row byte, ∃ c', (State.act k idx s (.outOfRange buf tile row byte)).ctx k = some c' ∧ c'.thread = c.thread ∧
      c'.be = if c.be.oorflag.getLsbD 0 then c.be else { c.be with
        oorflag := 1, ooraddr := BitVec.ofNat 64 (buf % 4 + tile % 64 * 4 + row % 64 * 256 + byte % 256 * 2 ^ 14) }) ∧
    (∀ n, State.act k idx s (.phase 0 n) = s) ∧
    (∀ sc n, sc ≠ 0 → State.act k idx s (.phase sc n) = s.setCtx k { c with ord := { c.ord with phases := c.ord.phases ++
      [{ owner := .mem idx, scope := sc, sent := false, after := [], phaseNo := n }] } }) ∧
    (∀ id o, c.fl.copyOps.find? (fun o => decide (o.id = id)) = some o → ∃ c', (State.act k idx s (.copy id)).ctx k = some c' ∧
      c'.fl = { c.fl with copyOps := c.fl.copyOps.map (fun x => if x.id = id then { o with committed := true } else x) } ∧
      (o.op = 7 → ∀ m, c.chk.latest = some m → m.idx ≤ o.idx → c'.chk.latest = some { m with spoiled := true })) ∧
    (∀ id, State.act k idx s (.matrix id) = s.setCtx k { c with fl := { c.fl with mtxOps := c.fl.mtxOps.map (fun o =>
      if o.id = id then { o with committed := true, commitCycle := (s.core c.coreKey).cycle } else o) } }) ∧
    (∀ id o, c.fl.syncOps.find? (fun o => decide (o.id = id)) = some o →
      let phased := synScoped o.op.toNat && o.scope != 0
      ∃ c', (State.act k idx s (.sync id)).ctx k = some c' ∧
      c'.fl = { c.fl with syncOps := c.fl.syncOps.map (fun x => if x.id = id then
        { o with state := if phased then .committed else .ready } else x) } ∧
      c'.ord.phases = c.ord.phases ++ (if phased then
        [{ owner := .sync id, scope := o.scope, sent := false, after := [], phaseNo := o.phaseNo }] else [])) ∧
    (∀ ch slot j d o, SMap.find (s.core c.coreKey).slots slot = some j → s.ctx j = some d → d.copyHead ch = some o → o.state = .suspended →
      ∃ d', (State.act k idx s (.resume ch slot)).ctx j = some d' ∧ d'.copyHead ch = some { o with state := .running } ∧
        (d'.stat ch).state = 1 ∧ d'.thread = d.thread) ∧
    (∀ ch, ∃ c', (State.act k idx s (.clear ch none)).ctx k = some c' ∧ ∀ o ∈ c'.fl.copyOps, o.committed = true → o.w.ch.toNat ≠ ch) ∧
    (∀ ch slot j d, SMap.find (s.core c.coreKey).slots slot = some j → s.ctx j = some d →
      ∃ d', (State.act k idx s (.clear ch (some slot))).ctx j = some d' ∧ ∀ o ∈ d'.fl.copyOps, o.committed = true → o.w.ch.toNat ≠ ch)


/-! ### The copy unit (spec/08) -/

/-- R40-R42, R141-R146, R148-R160, R273, R353: the steps of a channel, for the head of a list in a core cycle that is no freeze cycle. A
committed operation begins and its record names it. A chunk moves in the list's turn, once the channel has moved its lines; else nothing
happens. A chunk of a FILL or FILLS goes into its tile; a chunk of a DRAIN writes the lines its elements name and no other byte; an ADDW's
row is made ready; an RPUT's fragment leaves with its chunk's bytes; each access may be performed earlier, a read once, a DRAIN's write of a
line once (R349), each with a line that the channel has moved, or at the line it moved last (log entry 29). An operation waits for the
generator loads that precede it (R35). The chunk delivered is counted in the record; the last one completes the operation and frees its
token. A fault suspends the operation, NOTPRES through the fault queue, another with ULIPEND bit 15. A FEED's beat enters its stream with
its format's tag. An ADDW's row is added lane by lane in the open cycle of its port slot, with the tile's status and SATF; an unreserved
slot in which the matrix engine writes the bank is SCHEDV. At the receiver's die a fragment is rejected, written into the F window and
credited, appended to the landing ring, or answered RETRY by a full one (a context frozen with its core takes none into its window, R282,
log entry 68), each counted for its gang; the answer delivers the chunk, backs off or suspends; a back-off ends by sending again. Lanes of
an FP32 ADDW and what a kept element of a compressed block holds rest on log entries 57 and 61. -/
def Obligations.CopyResults : Prop :=
  (∀ (s : State) (k ch : Nat) (c : Context) (o : CopyOp), s.ctx k = some c → c.copyHead ch = some o →
    let r := s.core c.coreKey
    let live : Prop := r.frozen = false ∧ r.retired = false ∧ c.sch.preempt ≠ some .rollback ∧ o.idx ≠ 0
    let early : Prop := live ∧ o.state = .running ∧ c.loadsBefore o.idx = false
    let runs : Prop := early ∧ o.op ≠ 3 ∧ o.op ≠ 4
    let served : Prop := s.chanTurn c ch = true ∧ r.hasMoved ch o.chunkBytes = true
    let g := CopyOp.gather s c o o.done
    let x := chunkOf s c g.1 o.done
    let tile := o.w.tile.toNat
    let keeps (t : State) : Prop := ∀ a, t.memByte a = s.memByte a
    let moved (t : State) (c' : Context) (clipped poisoned : Nat) : Prop := t.ctx k = some c' ∧ c'.thread = c.thread ∧ c'.be.vec = c.be.vec ∧
      (c'.stat ch).clipped = (c.stat ch).clipped + BitVec.ofNat 64 clipped ∧
      (c'.stat ch).poisonLines = (c.stat ch).poisonLines + BitVec.ofNat 64 poisoned ∧
      (o.done + 1 < o.chunks → (c'.stat ch).state = 1 ∧ ∃ o', c'.copyHead ch = some o' ∧ o'.id = o.id ∧ o'.done = o.done + 1 ∧
        o'.state = .running ∧ o'.retries = 0) ∧
      (o.chunks ≤ o.done + 1 → (c'.stat ch).state = 0 ∧ c'.fl.copyOps = c.fl.copyOps.filter (fun y => y.id ≠ o.id) ∧
        SMap.getD c'.be.tokens o.w.tok.toNat 0 = SMap.getD c.be.tokens o.w.tok.toNat 0 - 1)
    let suspended (t : State) (cause sub : BitVec 8) (va : Word) : Prop := ∃ c' o', t.ctx k = some c' ∧ c'.copyHead ch = some o' ∧
      o'.id = o.id ∧ o'.done = o.done ∧ o'.state = .suspended ∧ o'.got = [] ∧ o'.put = [] ∧ c'.sch.preempt = none ∧
      (c'.stat ch).state = 2 ∧ (c'.stat ch).cause = cause ∧ (c'.stat ch).sub = sub ∧ (c'.stat ch).addr = va ∧ c'.thread.pc = c.thread.pc
    let written (t : State) (lines : List PbEntry) : Prop :=
      (∀ e ∈ lines, ∀ j, j < 64 → e.mask.getLsbD j = true → t.memByte (memKey e.loc.pkg (e.loc.pa / 64 * 64) + j) = lineByte e.data j) ∧
      ∀ a, (∀ e ∈ lines, ∀ j, j < 64 → e.mask.getLsbD j = true → a ≠ memKey e.loc.pkg (e.loc.pa / 64 * 64) + j) →
        t.memByte a = s.memByte a
    (live → o.committed = true → o.state = .queued → c.phaseBefore o.idx = false → c.isFrozen = false → ∃ t c',
      exec (.copyOpBegin k ch) s = .next t ∧ t.ctx k = some c' ∧ c'.copyHead ch = some { o with state := .running } ∧
      c'.stat ch = { c.stat ch with state := 1, retries := 0, pc := o.pc, seq := o.seq, wp := 0, token := o.w.tok, op := o.op } ∧
      c'.thread = c.thread ∧ keeps t) ∧
    (runs → ¬ served → exec (.copyChunk k ch none) s = .next s) ∧
    (runs → served → o.op = 1 ∨ o.op = 2 → g.2 = none → ∃ t c', exec (.copyChunk k ch none) s = .next t ∧ keeps t ∧
      moved t c' x.clipped (poisonedLines x.data) ∧
      (tile < winLimit (c.window o.buf) → o.done < 64 → ∀ i, i < 4 → t.readLine c o.buf tile (4 * o.done + i) =
        { data := lineOfBytes (((x.data.drop (64 * i)).take 64).map (·.1)), poison := ((x.data.drop (64 * i)).take 64).any (·.2) }) ∧
      (winLimit (c.window o.buf) ≤ tile → (t.core c.coreKey).lines = r.lines ∧ c'.be.oorflag.getLsbD 0 = true)) ∧
    (∀ lines, runs → served → o.op = 5 → s.MemWf → drainWrites s c o x.data o.done = (none, lines) →
      (∀ e ∈ lines, e.loc.pa < 2 ^ 52) → ∃ t c', exec (.copyChunk k ch none) s = .next t ∧
      moved t c' x.clipped (poisonedLines x.data) ∧ written t (lines.filter (fun e => !o.put.contains (drainNo o.done e)))) ∧
    (let left := SMap.getD r.chanLines ch 0
     let spent (t : State) (key : Nat) : Prop := if SMap.find r.chanAt ch = some key then t.cores = s.cores
       else t.cores = (s.updCore c.coreKey (fun r => { r with chanLines := SMap.put r.chanLines ch (left - 1), chanAt := SMap.put r.chanAt ch key })).cores
     (∀ n va len key, early → o.op = 1 ∨ o.op = 2 ∨ o.op = 6 → o.readAt n = some (va, len) → CopyOp.readLines s c o n = [key] →
       (∀ d, d < o.done → n ∉ o.chunkReads d) → (∀ y ∈ o.got, y.1 ≠ n) → (fillRead s c va len).fault = none →
       (left = 0 → SMap.find r.chanAt ch ≠ some key → exec (.copyChunk k ch (some n)) s = .next s) ∧
       (0 < left ∨ SMap.find r.chanAt ch = some key → ∃ t, exec (.copyChunk k ch (some n)) s = .next t ∧ spent t key ∧
         t = { s.setCtx k (c.setOp { o with
           got := (n, (fillRead s c va len).bytes) :: o.got, remote := o.remote || (fillRead s c va len).remote }) with cores := t.cores })) ∧
     (∀ m j e, early → o.op = 5 → s.MemWf → o.done ≤ m → m < o.chunks → j < 1024 →
       (drainWrites s c o (chunkOf s c o m).data m).2[j]? = some e → e.loc.pa < 2 ^ 52 → o.put.contains (drainNo m e) = false →
       (left = 0 → SMap.find r.chanAt ch ≠ some (lineKey e.loc.pkg (e.loc.pa / 64)) → exec (.copyChunk k ch (some (1024 * m + j))) s = .next s) ∧
       (0 < left ∨ SMap.find r.chanAt ch = some (lineKey e.loc.pkg (e.loc.pa / 64)) →
         ∃ t c' o', exec (.copyChunk k ch (some (1024 * m + j))) s = .next t ∧ spent t (lineKey e.loc.pkg (e.loc.pa / 64)) ∧ t.ctx k = some c' ∧
         c'.copyHead ch = some o' ∧ o'.put = drainNo m e :: o.put ∧ o'.done = o.done ∧ c'.be = c.be ∧ c'.thread = c.thread ∧ written t [e]))) ∧
    (runs → served → o.op = 6 → g.2 = none → ∃ t c', exec (.copyChunk k ch none) s = .next t ∧ t.ctx k = some c' ∧
      c'.copyHead ch = some { g.1 with put := [o.done] } ∧ c'.be = c.be ∧ c'.thread = c.thread ∧ keeps t) ∧
    (∀ b, runs → served → o.op = 7 → (o.barrierVa = none ∨ o.barrier ≠ none) ∧ b = o.barrier ∨
        (∃ va l, o.barrierVa = some va ∧ o.barrier = none ∧ translate s c va .store = .ok l ∧ b = some l) →
      ∃ t c', exec (.copyChunk k ch none) s = .next t ∧ t.ctx k = some c' ∧
      c'.copyHead ch = some { o with barrier := b, state := .sent, remote := true, sent := x.data } ∧ c'.thread = c.thread ∧ keeps t) ∧
    (∀ f, runs → served → (o.op = 1 ∨ o.op = 2 ∨ o.op = 6) ∧ g.2 = some f ∨
        o.op = 5 ∧ (∃ l, drainWrites s c o x.data o.done = (some f, l)) ∨
        o.op = 7 ∧ o.barrier = none ∧ (∃ va, o.barrierVa = some va ∧ translate s c va .store = .error f) →
      ∃ t, exec (.copyChunk k ch none) s = .next t ∧ suspended t 1 f.sub f.va ∧
      (isNotPres f.sub = true → ∃ (u : State) (b : List Byte), t = u.queueFault (.cobalt c.die) { seq := 0, source := 2, who := k, va := f.va, pc := o.pc, emitseq := o.seq, sub := f.sub, unit := ch, record := b }) ∧
      (isNotPres f.sub = false → ∃ c', t.ctx k = some c' ∧ c'.thread = c.thread.pend 15)) ∧
    (live → o.state = .running → o.op = 3 ∨ o.op = 4 → c.streamRoom (o.w.ss == 1) = true → s.chanTurn c ch = true →
      r.hasMoved ch (beatBytes o.w.fmt.toNat) = true → r.beatLanded.getLsbD ch = false → ∃ t c',
      exec (.feedBeatLand k ch) s = .next t ∧ t.ctx k = some c' ∧ c'.thread = c.thread ∧ keeps t ∧
      let old := if o.w.ss = 1 then c.be.sb else c.be.sa
      let new := if o.w.ss = 1 then c'.be.sb else c'.be.sa
      let d := feedBeat s c o
      new.produced = old.produced + 1 ∧ new.consumer = old.consumer ∧
      (if o.w.ss = 1 then c'.be.sa = c.be.sa else c'.be.sb = c.be.sb) ∧
      SMap.find new.slots (old.produced.toNat % 512) =
        some { data := BitVec.ofNat 2048 (leNat (d.map (·.1))), tag := o.w.fmt, poison := d.any (·.2) } ∧
      (o.beats + 1 < nestBound o.nest 0 → c'.copyHead ch = some { o with beats := o.beats + 1 }) ∧
      (nestBound o.nest 0 ≤ o.beats + 1 → c'.fl.copyOps = c.fl.copyOps.filter (fun y => y.id ≠ o.id))) ∧
    (∀ n, live → o.op = 6 → o.state = .running → o.done < 64 → o.done ∈ o.put → r.ctxNow = some (k, n) → n % 4 = o.w.port.toNat →
      o.beats ≠ n + 1 →
      let bank := (winBase c.id.winC + tile) % 4
      let row := chunkOf s c o o.done
      let line (i : Nat) : BufLine × Bool := addwLine o o.done i (s.readLine c 2 tile (4 * o.done + i)) row.data
      let clash := !c.be.ports.getLsbD (4 * bank + o.w.port.toNat) && decide (tile < winLimit c.id.winC) && r.bankWrites.getLsbD bank
      let sat := (List.range 4).any (fun i => (line i).2)
      (clash = false → ∃ t c', exec (.addwRowWrite k ch o.done) s = .next t ∧ keeps t ∧ moved t c' row.clipped (poisonedLines row.data) ∧
        (c'.be.vflags = if sat then c.be.vflags ||| flSATF.setWidth 64 else c.be.vflags) ∧
        (tile < winLimit c.id.winC → (∀ i, i < 4 → t.readLine c 2 tile (4 * o.done + i) = (line i).1) ∧
          t.status c tile = (s.status c tile / 2 * 2 + (if o.w.fmt = 5 then 1 else 0)) ||| (if sat then 2 else 0))) ∧
      (clash = true → ∃ t c', exec (.addwRowWrite k ch o.done) s = .next t ∧ t.ctx k = some c' ∧ c'.bundleTrap = true ∧ c'.beFrozen = true ∧
        c'.thread.bfcause = BitVec.ofNat 64 bSCHEDV ∧ c'.thread.bfpc = o.pc ∧ c'.thread.bfseq = o.seq.setWidth 64 ∧
        (c'.stat ch).state = 2 ∧ (c'.stat ch).cause = 2 ∧ keeps t)) ∧
    (o.state = .sent →
      let f := o.fragment k c
      let answer (t : State) (acc retry : Bool) : Prop := exec (.fragmentArrival k ch) s = .next t ∧
        ∃ c', t.ctx k = some c' ∧ c'.copyHead ch = some { o with state := .answered acc retry }
      (s.apart c (dieOfCtx f.dest) = true → exec (.fragmentArrival k ch) s = .next s) ∧ (s.apart c (dieOfCtx f.dest) = false →
      (∀ why, s.reachable f.dest c.id.tenant = some why → ∃ t, answer t false false ∧ keeps t ∧ t.credits = s.credits) ∧
      (∀ d, s.reachable f.dest c.id.tenant = none → s.ctx f.dest = some d →
        let w := s.writeWindow f.dest f.off (if f.countOnly then List.replicate f.data.length 0 else f.data.map (·.1)) f.poisonBits
        let direct := d.takesDirectly && !s.onRetired d
        (direct = true → ∃ t, answer t true false ∧ keeps t ∧ t.cores = w.cores ∧
          (t.die d.die).arrivals = (s.die d.die).arrivals ++ [(c.id.tenant, f.gang, true)] ∧ t.credits = s.credits ++ (match f.barrier with
            | some l => [{ loc := l, bytes := f.data.length, poison := decide (f.poisonBits ≠ 0) }]
            | none => [])) ∧
        (direct = false → d.land.isFull (s.landDesc f.dest) = true → ∃ t d', answer t false true ∧ keeps t ∧
          t.credits = s.credits ∧ (t.die d.die).arrivals = (s.die d.die).arrivals ++ [(c.id.tenant, f.gang, false)] ∧
          t.ctx f.dest = some d' ∧ d'.land.refusedSince = (d.land.refusedSince || d.status != .resident)) ∧
        (direct = false → d.land.isFull (s.landDesc f.dest) = false → s.MemWf → ∃ t d', answer t true false ∧
          t.credits = s.credits ∧ (t.die d.die).arrivals = (s.die d.die).arrivals ++ [(c.id.tenant, f.gang, true)] ∧
          t.ctx f.dest = some d' ∧ d'.land.tail = d.land.tail + 1 ∧ d'.land.head = d.land.head ∧
          (t.die d.die).landSeq = (s.die d.die).landSeq + 1 ∧
          let at_ := memKey d.pkg (ringEntryPa (s.landDesc f.dest) d.land.tail)
          let b := f.header ++ leBytes 8 (s.die d.die).landSeq.toNat ++ leBytes 4 ((s.die d.die).dieCycle.toNat % 2 ^ 32) ++ leBytes 20 0 ++
            (if f.countOnly then [] else f.data.map (·.1))
          ∀ a, t.memByte a = if at_ ≤ a ∧ a < at_ + b.length then b.getD (a - at_) 0 else s.memByte a)))) ∧
    (∀ b, live → o.state = .answered true b → ∃ t c', exec (.fragmentResponse k ch) s = .next t ∧ keeps t ∧
      moved t c' ((List.range o.sent.length).filter (fun i => decide (i % nestElemSize o.nest = 0) && o.rputClip o.done i)).length
        (poisonedLines o.sent)) ∧
    (live → o.state = .answered false true → ∃ t c', exec (.fragmentResponse k ch) s = .next t ∧ t.ctx k = some c' ∧
      c'.copyHead ch = some { o with
        retries := o.retries + 1
        state := .backoff (o.retries + 1) (r.cycle.toNat + 256 * 2 ^ min (o.retries + 1) 8) } ∧ (c'.stat ch).state = 3 ∧
      (c'.stat ch).retryTotal = satAdd64 (c.stat ch).retryTotal 1 ∧ c'.thread = c.thread ∧ keeps t) ∧
    (live → o.state = .answered false false → ∃ t c', exec (.fragmentResponse k ch) s = .next t ∧
      suspended t 3 0 (c.stat ch).addr ∧ t.ctx k = some c' ∧ c'.thread = c.thread.pend 15) ∧
    (∀ n u, live → o.state = .backoff n u → u ≤ r.cycle.toNat → ∃ t c', exec (.rputBackoffExpiry k ch) s = .next t ∧
      t.ctx k = some c' ∧ c'.copyHead ch = some { o with state := .sent } ∧ (c'.stat ch).state = 1 ∧ c'.thread = c.thread ∧ keeps t)) ∧
  (∀ (o : CopyOp) (row part : Nat) (old : BufLine) (d : List (Byte × Bool)) (j : Nat), j < 16 →
    let src := leNat (((d.drop (64 * part + 4 * j)).take 4).map (·.1))
    lane (addwLine o row part old d).1.data 32 j =
      if nestClipped o.nest (nestIdx o.nest (64 * row + 16 * part + j)) then lane old.data 32 j
      else if o.w.fmt = 5 then wrapTo 32 (max (-2 ^ 31) (min (2 ^ 31 - 1) (intOf true 32 (lane old.data 32 j) + intOf true 32 src)))
      else (fmtF32.finish (fadd 0 (fmtF32.decode (lane old.data 32 j)) (fmtF32.decode src)) 0 false).1 % 2 ^ 32) ∧
  (∀ (s : State) (k : Nat) (c : Context) (off bits : Nat) (b : List Byte), s.ctx k = some c → off % 64 = 0 →
    let t := s.writeWindow k off b bits
    t.mem = s.mem ∧
    (∀ i, i < b.length → (off + i) / 16384 < winLimit c.id.winF →
      lineByte (t.readLine c 0 ((off + i) / 16384) ((off + i) % 16384 / 64)).data ((off + i) % 64) = b.getD i 0) ∧
    (∀ tile line j, line < 256 → j < 64 → tile * 16384 + line * 64 + j < off ∨ off + b.length ≤ tile * 16384 + line * 64 + j →
      lineByte (t.readLine c 0 tile line).data j = lineByte (s.readLine c 0 tile line).data j) ∧
    (∀ i, 64 * i + 64 ≤ b.length → (off + 64 * i) / 16384 < winLimit c.id.winF →
      (t.readLine c 0 ((off + 64 * i) / 16384) ((off + 64 * i) % 16384 / 64)).poison = bits.testBit i)) ∧
  ∀ (s : State) (c : Context) (va : Word) (n : Nat) (l : Loc), translate s c va .load = .ok l → va.toNat % 64 + n ≤ 64 →
    l.pa % 64 + n ≤ 64 → s.ownPast = [] →
    (fillRead s c va n).fault = none ∧ (fillRead s c va n).remote = decide (l.pkg ≠ c.pkg) ∧
    (fillRead s c va n).bytes = (s.homeBytes l.pkg l.pa n).map (fun b => (b, s.linePoisoned l.pkg (l.pa / 64)))


/-- R41, R247: a credit on its way adds its bytes, and the poison of its lines, to the barrier it names. R43-R45, R235-R258: an operation for
another package is sent first (R45, R257); one whose turn it is is performed in one step at its home, which then holds the line most
recently used: an atomic stores the table's result (R243) and answers the old value, RED stores it, ARV and ARVD arrive (R247), BRST resets,
BTEST answers phase and flags, SIG adds to its signal, BWAIT and SWAIT are answered where their condition holds, else enter the waiter
table, or are BUSY where 8,192 wait, an interrupt sets its vector at the target, SFENCE changes nothing; no other byte changes; the
snapshot loses the lines of its scope. A refusal is noted: UNREACH where the way is lost, RETIRED where the memory is retired (which
pages lie on a channel is open, log entry 68), ULIDST for a target that cannot be interrupted. A
write that makes a waiter's condition hold answers it (R354). An answer takes the operation out of the queue, its data into its landing
entry, its hold with it; for a saved context that waits it is recorded; SFENCE with records in the async log halts the context. A BUSY
answer is sent again after 1,024 core cycles. A refusal is recorded in the async log; the sixty-fifth record halts the context. DENIED is
given by a free choice (log entry 6). -/
def Obligations.SyncResults : Prop :=
  (∀ (s : State) (n : Nat) (cr : Credit), s.MemWf → s.credits[n]? = some cr →
    ∃ t, exec (.barrierCredit n) s = .next t ∧ t.credits = s.credits.eraseIdx n ∧ t.contexts = s.contexts ∧
      t.barrier cr.loc = (s.barrier cr.loc).credit cr.bytes cr.poison ∧
      (∀ a, a < memKey cr.loc.pkg cr.loc.pa ∨ memKey cr.loc.pkg cr.loc.pa + 32 ≤ a → t.memByte a = s.memByte a)) ∧
  (∀ (b : Barrier),
    let complete (b : Barrier) : Prop := b.expected ≤ b.arrived ∧ (b.flags.testBit 1 = false ∨ b.target ≤ b.bytes)
    (complete b → b.tryComplete = { b with
      phase := (b.phase + 1) % 2 ^ 32, arrived := 0, expected := b.expected - b.drops, drops := 0, bytes := b.bytes - b.target
      flags := (b.flags / 2 % 2 * 2) + (if b.flags.testBit 2 then 1 else 0) }) ∧
    (¬ complete b → b.tryComplete = b) ∧
    (∀ drop, b.arrive drop = { b with arrived := min (b.arrived + 1) (2 ^ 32 - 1)
                                      drops := if drop then min (b.drops + 1) 65535 else b.drops : Barrier }.tryComplete) ∧
    (∀ n p, b.credit n p = { b with bytes := min (b.bytes + n) (2 ^ 64 - 1)
                                    flags := if p then b.flags ||| 4 else b.flags : Barrier }.tryComplete) ∧
    ∀ x, b.reset x = { b with expected := x % 2 ^ 32, target := x / 2 ^ 64 % 2 ^ 64, arrived := 0, drops := 0, bytes := 0
                              flags := b.flags % 2 + (if x / 2 ^ 64 % 2 ^ 64 ≠ 0 then 2 else 0) }) ∧
  (∀ (ty : BitVec 4) (old x cmp : Nat),
    let w := 8 * synTypeBytes ty
    let int (v : Nat) : Int := intOf (ty == 0 || ty == 2) w v
    (ty ≠ 4 → atomicNew 1 ty old x cmp = (old + x) % 2 ^ w ∧
      atomicNew 2 ty old x cmp = (if int x < int old then x else old) ∧ atomicNew 3 ty old x cmp = (if int x < int old then old else x)) ∧
    (ty = 4 → atomicNew 1 ty old x cmp = (fmtF32.encode (fadd 0 (fmtF32.decode old) (fmtF32.decode x)).1 0 false).1 ∧
      atomicNew 2 ty old x cmp = minMax 0 false old x ∧ atomicNew 3 ty old x cmp = minMax 0 true old x) ∧
    atomicNew 4 ty old x cmp = old &&& x ∧ atomicNew 5 ty old x cmp = old ||| x ∧ atomicNew 6 ty old x cmp = old ^^^ x ∧
    atomicNew 7 ty old x cmp = x ∧ atomicNew 8 ty old x cmp = if old = cmp then x else old) ∧
  (∀ (s : State) (pkg line die : Nat) (mask : BitVec 64) (data : Line) (p g : Bool) (e : WaitEntry),
    let t := s.homeWriteLine pkg line mask data p g
    mask ≠ 0 → die / 8 = pkg → e ∈ (s.die die).waiters → e.pkg = pkg → e.pa / 64 ≤ line → line ≤ (e.pa + watchBytes e.kind - 1) / 64 →
    watchHolds t pkg e.pa e.kind = true → ∃ e' ∈ (t.die die).waiters, e'.who = e.who ∧ e'.pa = e.pa ∧ e'.answered = true) ∧
  (∀ (s : State) (k n : Nat) (c : Context) (o : SyncOp), s.ctx k = some c → c.fl.syncOps[n]? = some o →
    let r := s.core c.coreKey
    let wait : Prop := o.op = 12 ∨ o.op = 15
    let home := o.homeOf.getD c.die
    let base := memKey o.loc.pkg o.loc.pa
    let w := synTypeBytes o.w.ty
    let stands (t : State) (st : SyncState) : Prop := exec (.syncOpPerform k n) s = .next t ∧ ∃ c', t.ctx k = some c' ∧
      c'.fl.syncOps[n]? = some { o with state := st } ∧ c'.be = c.be ∧ c'.ord.snapshot = (if synScoped o.op.toNat then
        c.ord.snapshot.filter (fun e => !inScope o.scope c.die (e.2.2.2 / 16) (e.2.2.2 % 16)) else c.ord.snapshot)
    let holds (t : State) : Prop := o.loc.isDevice = true →
      (t.die o.loc.engine).syncLines.head? = some (lineKey o.loc.pkg (o.loc.pa / 64), c.id.part)
    let keeps (t : State) (n : Nat) : Prop := ∀ a, a < base ∨ base + n ≤ a → t.memByte a = s.memByte a
    let live : Prop := s.onRetired c = false
    let at_ : Option Loc := if o.op = 16 ∨ o.op = 17 then none else some o.loc
    (¬ live → o.state ≠ .sent → exec (.syncOpPerform k n) s = .next s) ∧
    (live → c.toSend o = true → c.syncWaits o = false → r.frozen = false → (wait → c.runs = true) →
      exec (.syncOpPerform k n) s = .next (s.setCtx k (c.setSync { o with state := .sent }))) ∧
    (c.syncBlocked o = true ∨ r.frozen = true → c.toSend o = false → exec (.syncOpPerform k n) s = .next s) ∧
    (live ∨ o.state = .sent → c.toSend o = false → o.state = .ready ∨ o.state = .sent → c.syncBlocked o = false → r.frozen = false → (wait → c.runs = true) →
      (∀ cause, remoteRefusal s c home at_ = some cause → (∃ t, stands t (.refused cause) ∧ t.mem = s.mem) ∧ pkgOfDie home ≠ c.pkg ∧
        (s.apart c home = true → cause = 4) ∧ (s.apart c home = false → at_.any s.homeRetired = true → cause = causeRETIRED)) ∧
      (remoteRefusal s c home at_ = none → (pkgOfDie home ≠ c.pkg → s.apart c home = false ∧ at_.any s.homeRetired = false) ∧
        let old := leNat (s.homeBytes o.loc.pkg o.loc.pa w)
        let x := o.operand.toNat % 2 ^ (8 * w)
        let cmp := o.operand.toNat / 2 ^ (8 * w) % 2 ^ (8 * w)
        (s.MemWf → 1 ≤ o.op.toNat → o.op.toNat ≤ 8 → ∃ t,
          stands t (.answered (BitVec.ofNat 64 old) (s.linePoisoned o.loc.pkg (o.loc.pa / 64) || o.poison) false) ∧ keeps t w ∧
          leNat (t.homeBytes o.loc.pkg o.loc.pa w) = atomicNew o.op.toNat o.w.ty old x cmp % 2 ^ (8 * w) ∧
          (synWidth o.op.toNat o.w.ty ≠ 0 → holds t)) ∧
        (s.MemWf → o.op.toNat = 9 → ∃ t, stands t (.answered 0 false false) ∧ keeps t w ∧
          leNat (t.homeBytes o.loc.pkg o.loc.pa w) = atomicNew (o.w.sub.toNat + 1) o.w.ty old x cmp % 2 ^ (8 * w)) ∧
        (s.MemWf → o.op.toNat = 10 ∨ o.op.toNat = 11 → ∃ t, stands t (.answered 0 false false) ∧ keeps t 32 ∧
          t.barrier o.loc = (s.barrier o.loc).arrive (o.op == 11)) ∧
        (s.MemWf → o.op.toNat = 18 → ∃ t, stands t (.answered 0 false false) ∧ keeps t 32 ∧
          t.barrier o.loc = (s.barrier o.loc).reset o.operand.toNat) ∧
        (o.op.toNat = 13 → ∃ t, stands t (.answered (BitVec.ofNat 64 ((s.barrier o.loc).phase + (s.barrier o.loc).flags * 2 ^ 32))
          (s.linePoisoned o.loc.pkg (o.loc.pa / 64)) false) ∧ t.mem = s.mem) ∧
        (s.MemWf → o.op.toNat = 14 → ∃ t, stands t (.answered 0 false false) ∧ keeps t 8 ∧
          t.home64 o.loc.pkg o.loc.pa = s.home64 o.loc.pkg o.loc.pa + o.operand.extractLsb' 0 64) ∧
        (wait →
          let kind : WatchKind := if o.op = 12 then .barrier (o.operand.extractLsb' 0 32) else .signal (o.operand.extractLsb' 0 64)
          let met : Prop := if o.op = 12 then (s.home32 o.loc.pkg (o.loc.pa + 8) - o.operand.extractLsb' 0 32).getLsbD 31 = false
            else (o.operand.extractLsb' 0 64).toNat ≤ (s.home64 o.loc.pkg o.loc.pa).toNat
          let table := (s.die o.loc.engine).waiters
          let full : Prop := 8192 ≤ (table.filter (fun w => !w.answered)).length
          (met → ∃ t, stands t (.answered 0 false (o.op == 12)) ∧ t.mem = s.mem) ∧
          (¬ met → full → ∃ t, stands t (.busy r.cycle.toNat) ∧ t.mem = s.mem) ∧
          (¬ met → ¬ full → ∃ t, stands t .waiting ∧ t.mem = s.mem ∧ (t.die o.loc.engine).waiters = table ++
            [{ who := .context k o.id, pkg := o.loc.pkg, pa := o.loc.pa, kind := kind, answered := false, progress := false }])) ∧
        (∀ d, o.op.toNat = 16 → o.target < 2 ^ 25 → o.target ≠ k → s.reachable o.target c.id.tenant = none → s.ctx o.target = some d →
          ∃ t d', stands t (.answered 0 false false) ∧ t.mem = s.mem ∧ t.ctx o.target = some d' ∧
            d'.thread = { d.thread with ulipend := d.thread.ulipend ||| BitVec.ofNat 64 (2 ^ (o.w.sub.toNat % 16)) }) ∧
        (o.op.toNat = 16 → (2 ^ 25 ≤ o.target ∨ s.reachable o.target c.id.tenant ≠ none) → ∃ t, stands t (.refused 1) ∧ t.mem = s.mem) ∧
        (o.op.toNat = 17 → ∃ t, stands t (.answered 0 false false) ∧ t.mem = s.mem))) ∧
    (∀ data p g, live → o.state = .answered data p g →
      (o.op = 17 → c.ord.asyncLog ≠ [] → exec (.syncAnswerArrival k n) s =
        .next (s.beginFreeze k { cls := 2, code := 1, sub := 0, tval := 0 } true)) ∧
      (o.op ≠ 17 ∨ c.ord.asyncLog = [] → c.status = .nonres → c.fl.syncHold = some o.id → exec (.syncAnswerArrival k n) s =
        .next (s.setCtx k { c with sch := { c.sch with parkedAnswered := true } })) ∧
      (o.op ≠ 17 ∨ c.ord.asyncLog = [] → c.status ≠ .nonres ∨ c.fl.syncHold ≠ some o.id → exec (.syncAnswerArrival k n) s =
        .next (s.setCtx k (c.syncDone o data p g)))) ∧
    (live → o.state = .waiting →
      (s.answeredEntry k o = none → exec (.syncAnswerArrival k n) s = .next s) ∧
      (∀ e, s.answeredEntry k o = some e → ∃ t c', exec (.syncAnswerArrival k n) s = .next t ∧ t.ctx k = some c' ∧ t.mem = s.mem ∧
        (∀ x ∈ (t.die o.loc.engine).waiters, x.who ≠ .context k o.id) ∧ c'.thread = c.thread ∧
        (c.status ≠ .nonres → c' = c.syncDone o 0 false e.progress) ∧
        (c.status = .nonres → c'.sch.parkedAnswered = true ∧ c'.fl.syncOps[n]? = some { o with state := .answered 0 false false }))) ∧
    (∀ data p g, let d := c.syncDone o data p g
      d.fl.syncOps = c.fl.syncOps.filter (fun x => decide (x.id ≠ o.id)) ∧ d.thread = c.thread ∧ d.be = c.be ∧
      d.fl.landings = c.fl.landings.map (fun l => if l.kind = 2 ∧ l.idx = o.idx then { l with data := data.setWidth 512, poison := p } else l) ∧
      (c.fl.syncHold = some o.id → d.fl.syncHold = none) ∧ (c.fl.syncHold ≠ some o.id → d.fl.syncHold = c.fl.syncHold) ∧
      (g = true → d.sch.wdCount = 0) ∧ (g = false → d.sch.wdCount = c.sch.wdCount)) ∧
    (∀ cause, o.state = .refused cause → ∃ t c', exec (.asyncLogRecord k n) s = .next t ∧ t.ctx k = some c' ∧
      c'.ord.asyncLog = c.ord.asyncLog ++ [{ va := o.va, operand := o.operand.extractLsb' 0 64, seq := o.seq, op := o.op, ty := o.w.ty
                                             sub := o.w.sub, cause := cause, pc := o.pc }] ∧
      c'.fl = (c.syncDone o 0 true false).fl ∧ c'.thread = c.thread ∧
      (c.sch.freeze = none → (c'.sch.freeze.isSome ↔ 64 ≤ c.ord.asyncLog.length)))) ∧
  ∀ (s : State) (k : Nat) (c : Context), s.ctx k = some c → s.onRetired c = false →
    let now := (s.core c.coreKey).cycle.toNat
    ∃ t c', exec (.waiterBusyResend k) s = .next t ∧ t.ctx k = some c' ∧ (∀ a, t.memByte a = s.memByte a) ∧ c'.thread = c.thread ∧
      (∀ (i at_ : Nat) o, c.fl.syncOps[i]? = some o → o.state = .busy at_ → at_ + 1024 ≤ now →
        c'.fl.syncOps[i]? = some { o with state := .ready }) ∧
      (∀ (i : Nat) o, c.fl.syncOps[i]? = some o → (∀ at_, o.state = .busy at_ → now < at_ + 1024) → c'.fl.syncOps[i]? = some o)


/-! ### The matrix engine and the sync engines (spec/10, spec/12) -/

/-- R185, R353: the first context in turn whose operation may begin begins it. R182, R183, R193: a group of the MMA in the array, its beats
landed and its array cycles performed, adds its products to the plane, each output the exact sum of its products and its old value
rounded once, an INT32 one clamped; a beat of another format than the pair's, or a poisoned one, is noted. R194-R200: an operation's row
that is due in this core cycle is written: an MMA's of its plane, MCLR's zeros, MLD's and MLDT's elements converted, along a row or a
column, MST's and MSTQ's converted bytes at their place in the F tile, MACC's sums; a line is poisoned where one of its sources is. The
last row ends the operation: the tile's status is as R191 says, the flags are ORed into VFLAGS, its tiles are free. When a row is due is
the engine's core cycle's choice (log entry 29). -/
def Obligations.MatrixResults : Prop :=
  (∀ (fa fb : Nat) (as bs : List Beat) (p : List (BitVec 32)) (i : Nat), i < p.length → i < 4096 →
    let v := (accumulate fa fb as bs p).1.getD i 0
    let old := p.getD i 0
    (fmtClass (BitVec.ofNat 4 fa) ≠ 4 → v = BitVec.ofNat 32 (fmtF32.encode (fadd 0 (fmtF32.decode old.toNat) (groupSum
      ((as.zip bs).map (fun x => ((beatFloats fa x.1.data.toNat).getD (i / 64) .nan, (beatFloats fb x.2.data.toNat).getD (i % 64) .nan))))).1
      0 false).1) ∧
    (fmtClass (BitVec.ofNat 4 fa) = 4 → v = BitVec.ofInt 32 (max (-2 ^ 31) (min (2 ^ 31 - 1) (old.toInt +
      ((as.zip bs).map (fun x => (beatInts fa x.1.data.toNat).getD (i / 64) 0 * (beatInts fb x.2.data.toNat).getD (i % 64) 0)).sum))))) ∧
  ∀ (s : State),
    (∀ core j k c o, (s.core core).frozen = false → (s.core core).retired = false →
      let r := s.core core
      let turn (j : Nat) : Nat := (r.mtxLast + 1 + j) % 5
      let key (i : Nat) : Option Nat := if i < 4 then SMap.find r.slots i else some (firmwareKey core)
      j < 5 → key (turn j) = some k → s.ctx k = some c → s.mayBegin c = some o →
      (∀ j', j' < j → ∀ k' c', key (turn j') = some k' → s.ctx k' = some c' → s.mayBegin c' = none) →
      ∃ t, exec (.matrixOpBegin core) s = .next t ∧ t.ctx k = some (c.setMtx (o.start s c)) ∧ (t.core core).mtxLast = turn j ∧
        (o.start s c).state = .begun ∧ (o.start s c).begunAt = r.cycle ∧
        (o.op = 1 → o.w.zero = 1 → (o.start s c).plane = List.replicate 4096 0) ∧
        (o.op = 1 → o.w.zero = 0 → ∀ i, i < 4096 → (o.start s c).plane.getD i 0 =
          BitVec.ofNat 32 (lane (s.readLine c 2 o.w.c.toNat (i / 16)).data 32 (i % 16))) ∧
        (∀ a, t.memByte a = s.memByte a)) ∧
    ∀ k n c o, s.ctx k = some c → c.fl.mtxOps[n]? = some o → o.state = .begun → c.status = .resident →
      (s.core c.coreKey).frozen = false → (s.core c.coreKey).retired = false →
      let r := s.core c.coreKey
      let tile := o.w.c.toNat
      let m := o.rows
      (let lo := o.groups * kpcBeats o.fmt.a.toNat o.fmt.b.toNat
       let hi := min o.w.k.toNat (lo + kpcBeats o.fmt.a.toNat o.fmt.b.toNat)
       let js := (List.range (hi - lo)).map (lo + ·)
       let as := js.map (fun j => c.be.sa.beat (o.baseA + BitVec.ofNat 32 (o.w.offa.toNat + j)))
       let bs := js.map (fun j => c.be.sb.beat (o.baseB + BitVec.ofNat 32 (o.w.offb.toNat + j)))
       o.reading = true → o.inArray = true → o.groupCycles ≤ r.arrayCycles →
       o.w.offa.toNat + hi ≤ (c.be.sa.produced - o.baseA).toNat → o.w.offb.toNat + hi ≤ (c.be.sb.produced - o.baseB).toNat →
       ∃ t o', exec (.mmaGroup k n) s = .next t ∧ t.ctx k = some (c.setMtx o') ∧ o'.id = o.id ∧ o'.groups = o.groups + 1 ∧
         o'.inArray = decide (o.groups + 1 < o.groupCount) ∧ (t.core c.coreKey).arrayCycles = 0 ∧
         o'.plane = (accumulate o.fmt.a.toNat o.fmt.b.toNat as bs o.plane).1 ∧
         o'.mis = (o.mis || as.any (fun b => b.tag != o.fmt.a) || bs.any (fun b => b.tag != o.fmt.b)) ∧
         o'.bad = (o.bad || (as.any (fun b => b.tag != o.fmt.a) || bs.any (fun b => b.tag != o.fmt.b)) ||
           (as.any (·.poison) || bs.any (·.poison))) ∧ (∀ a, t.memByte a = s.memByte a)) ∧
      (o.reading = false → (k, o.id) ∈ r.rowsDue → m < 64 →
        let fl := o.flags ||| (s.matrixRow k c o m).2
        ∃ t c', exec (.matrixOpComplete k n) s = .next t ∧ t.ctx k = some c' ∧ c'.thread = c.thread ∧ c'.be.vec = c.be.vec ∧
        (∀ a, t.memByte a = s.memByte a) ∧
        (m < 63 → c'.be = c.be ∧ c'.fl.mtxOps[n]? = some { o with rows := m + 1, flags := fl }) ∧
        (m = 63 → (∀ x ∈ c'.fl.mtxOps, x.id ≠ o.id) ∧ c'.be.vflags = c.be.vflags ||| fl.setWidth 64 ∧
          (tile < winLimit c.id.winC → o.writesF = false →
            let old := s.status c tile
            let satf := if fl &&& flSATF != 0 then 2 else 0
            let mis := if o.mis then 4 else 0
            t.status c tile =
              if o.op = 1 then o.fmt.acc.toNat + (if o.w.zero = 1 then satf + mis else (old % 8 / 2 * 2) ||| satf ||| mis)
              else if o.op = 2 ∨ o.op = 3 then (if isFloat o.w.typ.toNat then 0 else 1)
              else if o.op = 6 then o.fmt.acc.toNat
              else old ||| satf ||| (s.status c o.w.cs.toNat / 4 % 2 * 4))) ∧
        (tile < winLimit c.id.winC → ∀ i, i < 4 →
          let l := t.readLine c 2 tile (4 * m + i)
          (o.op = 6 → l = { data := 0, poison := false }) ∧
          (o.op = 1 → o.plane.length = 4096 → l.poison = (o.bad || SMap.getD o.loadPoison (4 * m + i) false) ∧
            ∀ j, j < 16 → lane l.data 32 j = (o.plane.getD (64 * m + 16 * i + j) 0).toNat) ∧
          (o.op = 2 ∨ o.op = 3 →
            let ty := o.w.typ.toNat
            let sz := laneBits ty / 8
            let at_ (j : Nat) : Nat := if o.op = 2 then 256 * m + sz * (64 * o.w.half.toNat + 16 * i + j)
              else 256 * (16 * i + j) + sz * (64 * o.w.half.toNat + m)
            l.poison = (List.range 16).any (fun j => (tileData s c 0 o.w.f.toNat (at_ j) sz).any (·.2)) ∧
            ∀ j, j < 16 → lane l.data 32 j = (convert ty (if isFloat ty then 0 else 3)
              (leNat ((tileData s c 0 o.w.f.toNat (at_ j) sz).map (·.1))) 0 false).1 % 2 ^ 32) ∧
          (o.op = 7 →
            let x := s.readLine c 2 tile (4 * m + i)
            let y := s.readLine c 2 o.w.cs.toNat (4 * m + i)
            l.poison = (x.poison || y.poison) ∧ ∀ j, j < 16 →
              lane l.data 32 j = (addwSum (s.status c tile % 2 == 1) (lane x.data 32 j) (lane y.data 32 j)).1 % 2 ^ 32)) ∧
        (o.op = 4 ∨ o.op = 5 → o.w.f.toNat < winLimit c.id.winF →
          let ty := o.w.typ.toNat
          let b := (mstBytesOf s c o m).1
          let at_ := if o.op = 5 then (64 * o.w.half.toNat + m) * beatBytes ty
            else if laneBits ty / 8 = 4 then 256 * m
            else if laneBits ty / 8 = 2 then 256 * m + 128 * o.w.half.toNat
            else 64 * (64 * o.w.half.toNat + m)
          (∀ i, i < b.length → lineByte (t.readLine c 0 o.w.f.toNat ((at_ + i) / 64)).data ((at_ + i) % 64) = (b.getD i (0, false)).1) ∧
          (∀ line i, i < 64 → 64 * line + i < at_ ∨ at_ + b.length ≤ 64 * line + i →
            lineByte (t.readLine c 0 o.w.f.toNat line).data i = lineByte (s.readLine c 0 o.w.f.toNat line).data i) ∧
          (o.op = 4 → ∀ e, e < 64 → ((b.drop (e * (laneBits ty / 8))).take (laneBits ty / 8)).map (·.1) = leBytes (laneBits ty / 8)
            (convert (if s.status c tile % 2 = 1 then 3 else 0) ty (lane (s.readLine c 2 tile (4 * m + e / 16)).data 32 (e % 16))
              o.w.rm.toNat (o.w.sat == 1)).1)))


/-! ### Invalidation, block transfers, page service, registers, tasks (spec/04, spec/09, spec/13-15, spec/19) -/

/-- R55, R54, R51: a command is queued with the registers as they stand, a ninth is dropped and sets ERR; the oldest one completes: the
translations its kind names leave the die's cache and every core's TLB, INVDONE grows; kinds 1 and 2 name every page that meets the range. A
translation is kept for its whole page, the smaller of its two leaves; one without a held entry comes from the tables, with the checks of
its access. R164-R167: an aperture store of its owner queues a start; without ownership, with a bad size or value, or a fifth one is
reported NOENG, BADARG, ENGBUSY. An engine takes its oldest start with its template, a bad one is reported BADTMPL; once a fault of that
read is over it reads again, and moves nothing before; a running engine moves a line in a die cycle; with its lines moved a chunk writes the
lines its elements name and no other byte; a fault suspends the engine and goes to Deresk, NOTPRES to the fault queue, and where it is
another Deresk resumes or aborts it (log entry 48); with its last chunk written a transfer gives its signal or its interrupt, and counts.
The order of the checks of an access is the model's (log entry 58). -/
def Obligations.TransferResults : Prop :=
  (∀ (q : InvCmd) (e : TEntry),
    let lo := q.addr.toNat % 2 ^ 57 / 65536 * 65536
    let hi := lo + 65536 * (if q.span.toNat % 2 ^ 32 = 0 then 1 else q.span.toNat % 2 ^ 32)
    let root := q.root.toNat % 2 ^ 52 / 4096 * 4096
    (q.kind = 0 → q.removes e = true) ∧
    (q.kind = 1 → (q.removes e = true ↔ e.s1root = root ∧ lo < (e.vpage + 1) * 2 ^ e.size ∧ e.vpage * 2 ^ e.size < hi)) ∧
    (q.kind = 2 → (q.removes e = true ↔ e.part = q.part ∧ lo < (e.ipage + 1) * 2 ^ e.isize ∧ e.ipage * 2 ^ e.isize < hi)) ∧
    (q.kind = 3 → (q.removes e = true ↔ e.s1root = root)) ∧ (q.kind = 4 → (q.removes e = true ↔ e.part = q.part))) ∧
  (∀ (acc : Access) (va : Word) (l : Loc) (ro1 ro2 x : Bool),
    (acc.writes = true → ro1 = true → accessCheck acc va (l, ro1, ro2, x) = .error ⟨xPERM, va⟩) ∧
    (acc.writes = true → ro1 = false → ro2 = true → accessCheck acc va (l, ro1, ro2, x) = .error ⟨0x84, va⟩) ∧
    (acc = .fetch → x = false → accessCheck acc va (l, ro1, ro2, x) = .error ⟨xPERM, va⟩) ∧
    ((acc.writes = true → ro1 = false ∧ ro2 = false) → (acc = .fetch → x = true) → l.dev = true → acc ≠ .genLoad → acc ≠ .genStore →
      accessCheck acc va (l, ro1, ro2, x) = .error ⟨0x85, va⟩) ∧
    ((acc.writes = true → ro1 = false ∧ ro2 = false) → (acc = .fetch → x = true) → (l.dev = false ∨ acc = .genLoad ∨ acc = .genStore) →
      accessCheck acc va (l, ro1, ro2, x) = .ok l)) ∧
  ∀ (s : State) (die : Nat),
    let d := s.die die
    (∀ held part root (va : Word) acc, va.extractLsb' 57 7 = 0 → (∀ e ∈ held, e.covers part root va.toNat = false) →
      translateHeld s held die part root va acc = match walkBoth s die part root va.toNat with
        | .error sub => .error ⟨sub, va⟩
        | .ok r => accessCheck acc va r) ∧
    (∀ held part root (va : Word) acc, va.extractLsb' 57 7 ≠ 0 → translateHeld s held die part root va acc = .error ⟨xBADVA, va⟩) ∧
    (∀ (c : Context) root (va : Word) e, c.die = die → c.id.s1root = some root → walkPage s die c.id.part root va.toNat = .ok e →
      let t := s.cacheTranslation c va
      e.part = c.id.part ∧ e.s1root = root ∧ e.vpage = va.toNat / 2 ^ e.size ∧ t.mem = s.mem ∧
      (∃ x ∈ (t.die die).tcache, x.covers c.id.part root va.toNat = true) ∧ (∃ x ∈ t.tlb c.coreKey, x.covers c.id.part root va.toNat = true)) ∧
    (∀ part : BitVec 4, ∀ x ∈ [(Instr.invalidateAll die, 0, 0), (.invalidateVaRange die, 1, 0), (.invalidateIpaRange die part, 2, part.toNat),
        (.invalidateRoot die, 3, 0), (.invalidatePartition die part, 4, part.toNat)],
      exec x.1 s = .next (s.setDie die (if d.invQueue.length < 8 then
          { d with invErr := false, invQueue := d.invQueue ++
            [{ kind := x.2.1, part := x.2.2, addr := d.invaddr, span := d.invspan, root := d.invroot }] }
        else { d with invErr := true }))) ∧
    (∀ q rest, d.invQueue = q :: rest → ∃ t, exec (.invalidationComplete die) s = .next t ∧ (t.die die).invQueue = rest ∧
      (t.die die).invDone = d.invDone + 1 ∧ (∀ e, e ∈ (t.die die).tcache ↔ e ∈ d.tcache ∧ q.removes e = false) ∧
      (∀ core l e, SMap.find d.tlbs core = some l → (e ∈ SMap.getD (t.die die).tlbs core [] ↔ e ∈ l ∧ q.removes e = false)) ∧
      (∀ a, t.memByte a = s.memByte a) ∧ t.contexts = s.contexts) ∧
    ∀ c, let e := s.bt die c
      let fresh (st : BtStart) : BtRun := { start := st, templ := [], arg := [], done := 0, lines := 0, suspended := false, fault := none }
      let faulted (i : Instr) (r : BtRun) (x : XFault) : Prop := ∃ t, exec i s = .next t ∧
        (t.bt die c).run = some { r with suspended := true, fault := some x } ∧
        (isNotPres x.sub = true → ∃ u : State, t = u.queueFault (.cobalt die)
          { seq := 0, source := 4, who := c, va := x.va, pc := 0, emitseq := 0, sub := x.sub, unit := 0, record := [] }) ∧
        ((s.serac (seracOfDie die)).fwmode = 0 → (t.serac (seracOfDie die)).mgmtInbox = (s.serac (seracOfDie die)).mgmtInbox ++ [r.record c x])
      (∀ part (v : Word) root, c < 32 → s.btOwned die c part = true → v.extractLsb' 32 32 = 0 → e.starts.length < 4 →
        exec (.btStart die part (8 * c) 8 v root) s = .next (s.setBt die c { e with starts := e.starts ++
          [{ templ := v.toNat % 2 ^ 16, arg := v.toNat / 2 ^ 16 % 2 ^ 16, part := part, root := root }] })) ∧
      (∀ part size (v : Word) root code, c < 32 →
        (code = 1 ∧ s.btOwned die c part = false ∨ code = 4 ∧ s.btOwned die c part = true ∧ (size ≠ 8 ∨ v.extractLsb' 32 32 ≠ 0) ∨
          code = 2 ∧ s.btOwned die c part = true ∧ size = 8 ∧ v.extractLsb' 32 32 = 0 ∧ 4 ≤ e.starts.length) →
        ∃ t, exec (.btStart die part (8 * c) size v root) s = .next t ∧ t.bt die c = { e with report := code }) ∧
      (∀ st rest, e.run = none → e.starts = st :: rest →
        (∀ tm a, btRead s die st = .ok (some (tm, a)) → exec (.btTakeStart die c) s = .next ((s.setBt die c { e with starts := rest }).setBt die c
          { e with starts := rest, run := some { fresh st with templ := tm, arg := a } })) ∧
        (btRead s die st = .ok none → ∃ t, exec (.btTakeStart die c) s = .next t ∧ t.bt die c = { e with starts := rest, report := 3 }) ∧
        (∀ x, btRead s die st = .error x → faulted (.btTakeStart die c) (fresh st) x)) ∧
      (∀ r, e.run = some r → r.templ = [] → r.suspended = false →
        (∀ tm a, btRead s die r.start = .ok (some (tm, a)) → exec (.btTakeStart die c) s = .next (s.setBt die c
          { e with run := some { fresh r.start with templ := tm, arg := a } })) ∧
        (btRead s die r.start = .ok none → ∃ t, exec (.btTakeStart die c) s = .next t ∧ t.bt die c = { e with run := none, report := 3 }) ∧
        (∀ x, btRead s die r.start = .error x → faulted (.btTakeStart die c) (fresh r.start) x) ∧
        exec (.btChunk die c) s = .next s ∧ exec (.btComplete die c) s = .next s) ∧
      (∀ r, e.run = some r → r.templ ≠ [] → r.suspended = false →
        (r.done < r.chunks → r.lines < r.need → e.pass.run = some { r with lines := r.lines + 1 } ∧ exec (.btChunk die c) s = .next s) ∧
        (∀ lines, s.MemWf → r.done < r.chunks → r.need ≤ r.lines → btChunk s die r = .ok lines → (∀ l ∈ lines, l.loc.pa < 2 ^ 52) →
          ∃ t, exec (.btChunk die c) s = .next t ∧ (t.bt die c).run = some { r with done := r.done + 1, lines := 0 } ∧ t.contexts = s.contexts ∧
          (∀ l ∈ lines, ∀ j, j < 64 → l.mask.getLsbD j = true → t.memByte (memKey l.loc.pkg (l.loc.pa / 64 * 64) + j) = lineByte l.data j) ∧
          (∀ a, (∀ l ∈ lines, ∀ j, j < 64 → l.mask.getLsbD j = true → a ≠ memKey l.loc.pkg (l.loc.pa / 64 * 64) + j) →
            t.memByte a = s.memByte a)) ∧
        (∀ x, r.done < r.chunks → r.need ≤ r.lines → btChunk s die r = .error x → faulted (.btChunk die c) r x) ∧
        (r.chunks ≤ r.done →
          (r.flags / 8 % 4 = 0 → exec (.btComplete die c) s = .next (s.setBt die c { e with run := none, count := e.count + 1 })) ∧
          (∀ x, r.flags / 8 % 2 = 1 → translate s (r.ctx die) (BitVec.ofNat 64 (r.f 104 8)) .store = .error x →
            faulted (.btComplete die c) r x) ∧
          (∀ l, s.MemWf → r.flags / 8 % 4 = 1 → translate s (r.ctx die) (BitVec.ofNat 64 (r.f 104 8)) .store = .ok l → ∃ t,
            exec (.btComplete die c) s = .next t ∧ (t.bt die c).run = none ∧ (t.bt die c).count = e.count + 1 ∧
            t.home64 l.pkg l.pa = s.home64 l.pkg l.pa + (if recField r.arg 16 8 = 0 then 1 else BitVec.ofNat 64 (recField r.arg 16 8)) ∧
            (∀ a, a < memKey l.pkg l.pa ∨ memKey l.pkg l.pa + 8 ≤ a → t.memByte a = s.memByte a)) ∧
          (∀ x, r.flags / 8 % 4 = 2 → r.f 112 4 < 2 ^ 25 → s.reachable (r.f 112 4) ((s.die die).part r.start.part).tenant = none →
            s.ctx (r.f 112 4) = some x → ∃ t x', exec (.btComplete die c) s = .next t ∧ (t.bt die c).run = none ∧
            (t.bt die c).count = e.count + 1 ∧ t.ctx (r.f 112 4) = some x' ∧ x'.thread = x.thread.pend (r.f 116 4)))) ∧
      (∀ r x, e.run = some r → r.suspended = true → r.fault = some x →
        (isNotPres x.sub = true → exec (.btChunk die c) s = .next s) ∧
        (isNotPres x.sub = false → Config.freeBool s.freeCount 5 = true → exec (.btChunk die c) s =
          .next (s.setBt die c { e with run := some { r with suspended := false, fault := none } })) ∧
        (isNotPres x.sub = false → Config.freeBool s.freeCount 5 = false → ∃ t, exec (.btChunk die c) s = .next t ∧
          t.bt die c = { e with run := none, report := 6 }))


/-- R324-R327: closing an open entry as served lets a waiting thread execute its instruction again, a bundle replay, a block-transfer engine
go on; as declined the thread takes the XLATE trap, the bundle's BUNDLE trap is pending with XLATE, a suspended copy sets ULIPEND bit 15,
an engine aborts; one that names no open entry changes nothing. Freeing entries moves FQHEAD, and the first waiting fault takes a free entry:
its 160 bytes stand in the queue and it is open under its sequence. R3, R46: a store of a register's whole doubleword writes what its access
codes let it; of four bytes, those. The table entry's offsets are the model's (log entry 62). R14: the victim of the first steal
request gives the upper half of what it holds, none where that is fewer than two, and the thief takes it, or notes that it got nothing. R282,
R348: a retired core, channel or link is out of service and in the retirement list, once, and again in service where that is undone; every
minimum of the package's dies is scaled to what remains. -/
def Obligations.ServiceResults : Prop :=
  (∀ (s : State) (die : Nat) (e : FaultEntry), (s.die die).fault.open_ = [e] →
    let closed (t : State) : Prop := (t.die die).fault.open_ = []
    (∀ seq (b : Bool), seq ≠ e.seq → exec (if b then .faultServed (.cobalt die) seq else .faultDeclined (.cobalt die) seq) s = .next s) ∧
    (∀ c, s.ctx e.who = some c →
      (e.source = 0 → c.wait = .page →
        (∃ t, exec (.faultServed (.cobalt die) e.seq) s = .next t ∧ t.ctx e.who = some { c with wait := .none } ∧ closed t ∧
          (∀ a, t.memByte a = s.memByte a)) ∧
        ((∀ f, c.sch.freeze = some f → f.fatal = false) → c.Handles → ∃ t c', exec (.faultDeclined (.cobalt die) e.seq) s = .next t ∧
          t.ctx e.who = some c' ∧ c'.thread.pc = c.thread.tvec ∧ c'.thread.tpc = c.thread.pc ∧ c'.thread.tval = e.va ∧
          c'.thread.tcause = trapCause 3 e.sub.toNat (e.unit == 1) ∧ c'.wait = .none ∧ closed t ∧ (∀ a, t.memByte a = s.memByte a))) ∧
      (∀ r, e.source = 1 → c.fl.replay = some r → r.paging = true →
        (∃ t c', exec (.faultServed (.cobalt die) e.seq) s = .next t ∧ t.ctx e.who = some c' ∧ c'.fl.replay = none ∧ c'.beFrozen = false ∧
          (r.entry.isDesc = false → c'.queue = .entry { r.entry with skip := 0 } :: c.queue) ∧ c'.thread = c.thread ∧ closed t) ∧
        ∃ t c', exec (.faultDeclined (.cobalt die) e.seq) s = .next t ∧ t.ctx e.who = some c' ∧ c'.bundleTrap = true ∧
          c'.fl.replay = some { r with paging := false } ∧ c'.thread.bfpc = r.entry.pc ∧ c'.thread.bfaddr = e.va ∧
          c'.thread.bfcause = BitVec.ofNat 64 (bXLATE + e.sub.toNat * 256 + r.entry.reps % 256 * 65536) ∧ closed t) ∧
      (e.source = 2 →
        (∃ t, exec (.faultServed (.cobalt die) e.seq) s = .next t ∧ t.contexts = s.contexts ∧ closed t) ∧
        (c.copySuspended e.unit = true → ∃ t c', exec (.faultDeclined (.cobalt die) e.seq) s = .next t ∧ t.ctx e.who = some c' ∧
          c'.thread = c.thread.pend 15 ∧ closed t))) ∧
    (∀ r x, e.source = 4 → (s.bt die e.who).run = some r → r.suspended = true → r.fault = some x →
      (∃ t, exec (.faultServed (.cobalt die) e.seq) s = .next t ∧
        t.bt die e.who = { s.bt die e.who with run := some { r with suspended := false, fault := none } } ∧ closed t) ∧
      ∃ t, exec (.faultDeclined (.cobalt die) e.seq) s = .next t ∧ t.bt die e.who = { s.bt die e.who with run := none, report := 6 } ∧
        closed t)) ∧
  (∀ (s : State) (p : FaultPort) (head : BitVec 32),
    let f := s.faultPage p
    let g : FaultPage := { f with fqHead := head }
    (f.waiting = [] ∨ g.hasRoom = false → exec (.faultQueueHeadAdvance p head) s = .next (s.setFaultPage p g)) ∧
    (∀ e, f.waiting = [e] → g.hasRoom = true → s.MemWf →
      let e' : FaultEntry := { e with seq := f.fqTail, host := s.hosted (portSerac p) 0 }
      let at_ := memKey (portPkg p) (queuePa f.fqbase + 160 * (f.fqTail.toNat % queueSize f.fqbase))
      ∃ t, exec (.faultQueueHeadAdvance p head) s = .next t ∧
        t.faultPage p = { g with waiting := [], fqTail := f.fqTail + 1, open_ := f.open_ ++ [e'] } ∧ t.contexts = s.contexts ∧
        ∀ a, t.memByte a = if at_ ≤ a ∧ a < at_ + 160 then e'.bytes.getD (a - at_) 0 else s.memByte a) ∧
    (∀ e : FaultEntry, f.hasRoom = false ∨ f.waiting ≠ [] →
      s.queueFault p e = s.setFaultPage p { f with waiting := f.waiting ++ [e], waited := satInc32 f.waited }) ∧
    ∀ e : FaultEntry, f.hasRoom = true → f.waiting = [] → (s.queueFault p e).faultPage p = { f with
      fqTail := f.fqTail + 1, open_ := f.open_ ++ [{ e with seq := f.fqTail, host := s.hosted (portSerac p) 0 }] }) ∧
  (∀ (s : State) (die k : Nat) (v : Word),
    exec (.registerWrite (.sched die) 0x08 8 v) s = .next (s.setDie die { s.die die with bdecay := v &&& 0xFFFFFFFF }) ∧
    exec (.registerWrite (.sched die) 0x10 4 v) s = .next (s.setDie die { s.die die with slice :=
      ((s.die die).slice &&& 0xFFFFFFFF00000000 ||| v &&& 0xFFFFFFFF) &&& 0xFFFFFFFFFFFF }) ∧
    exec (.registerWrite (.invalidation die) 0x00 8 v) s = .next (s.setDie die { s.die die with invaddr := v &&& 0x01FFFFFFFFFF0000 }) ∧
    exec (.registerWrite (.collective k) 0x08 8 v) s = .next (s.setSerac k { s.serac k with tseq := v &&& 0x11FFF }) ∧
    exec (.registerWrite (.management k) 0x00 8 v) s = .next (s.setSerac k { s.serac k with fwmode := v &&& 0x3F }) ∧
    exec (.registerWrite (.coreControl k) 0x0000 8 v) s = .next s ∧
    exec (.registerWrite (.tableEntry k) 0x10 8 v) s = .next (s.updDie (k / 1024) (fun d => { d with
      undoAreas := SMap.put d.undoAreas (k % 1024) (v &&& 0x000FFFFFFFFFF000) })) ∧
    ((∀ c, s.ctx k = some c → c.land.head = c.land.tail) → ∃ t, exec (.registerWrite (.tableEntry k) 0x00 8 v) s = .next t ∧
      t.landDesc k = v &&& 0x000FFFFFFFFFF03F ∧ t.contexts = s.contexts ∧ t.mem = s.mem) ∧
    (∀ c, s.ctx k = some c → c.land.head ≠ c.land.tail → exec (.registerWrite (.tableEntry k) 0x00 8 v) s = .next s)) ∧
  (∀ (s : State) (die : Nat),
    (∀ gid g x, firstSteal (s.stealRequests die) = some (gid, g, x) →
      let lo := (g.share x.victim).1
      let hi := (g.share x.victim).2
      let n := if hi - lo < 2 then 0 else (hi - lo) / 2
      (gid, g, x) ∈ s.stealRequests die ∧ (∀ y ∈ s.stealRequests die, x.seq ≤ y.2.2.seq) ∧
      exec (.stealRequest die) s = .next (s.setGraph gid { g with
        shares := SMap.put g.shares x.victim (lo, hi - n)
        steals := g.steals.map (fun y => if y = x then { x with answer := some (hi - n, hi) } else y) })) ∧
    (s.stealRequests die = [] → exec (.stealRequest die) s = .next s) ∧
    (∀ gid g x lo hi, SMap.find s.graphs gid = some g → pkgOfDie g.queueDie = pkgOfDie die →
      g.steals.find? (fun x => decide (x.thief = die % 8) && x.answer.isSome) = some x → x.answer = some (lo, hi) →
      ∃ t g', exec (.stealAnswer die) s = .next t ∧ SMap.find t.graphs gid = some g' ∧
        g'.steals = g.steals.filter (fun y => decide (y.thief ≠ die % 8)) ∧
        (lo < hi → g'.share (die % 8) = (lo, hi)) ∧ (hi ≤ lo → g'.tried = g.tried ++ [(die % 8, x.victim)] ∧ g'.shares = g.shares) ∧
        t.mem = s.mem ∧ t.contexts = s.contexts)) ∧
  ∀ (s : State) (die : Nat) (u : RetireUnit) (undo : Bool),
    ∃ t, exec (.retirement die ⟨u, undo⟩) s = .next t ∧ t.contexts = s.contexts ∧
    (∀ core, u = .core core → (t.core core).retired = !undo ∧ ∀ j, j ≠ core → t.core j = s.core j) ∧
    (∀ ch, u = .hbmChannel ch → (ch % 32 ∈ (t.die die).retiredChannels ↔ undo = false) ∧
      ∀ j, j ≠ ch % 32 → (j ∈ (t.die die).retiredChannels ↔ j ∈ (s.die die).retiredChannels)) ∧
    (∀ k l, u = .link k l → (l % 24 ∈ (t.serac k).retiredLinks ↔ undo = false) ∧
      ∀ j, j ≠ l % 24 → (j ∈ (t.serac k).retiredLinks ↔ j ∈ (s.serac k).retiredLinks)) ∧
    (let before := (s.serac (retireRecord die u).1).flash.retireList
      let after := (t.serac (retireRecord die u).1).flash.retireList
      (s.isRetired die u = !undo → after = before) ∧
      (s.isRetired die u = undo → undo = false → after = before ++ [(retireRecord die u).2]) ∧
      (s.isRetired die u = undo → undo = true → after = (before.reverse.erase (retireRecord die u).2).reverse)) ∧
    ∀ d p r, pkgOfDie d = retirePkg die u → SMap.find (s.die d).parts p = some r →
      let cap (kind : Nat) : Nat :=
        let cores := 64 - ((dieCores d).filter (fun k => (t.core k).retired)).length
        if kind = 0 then 4 * cores else if kind = 1 then 64 * cores else 4800 - 150 * (t.die d).retiredChannels.length
      let sum (kind : Nat) : Nat := (List.range 16).foldl (fun n p => n + minimumOf kind ((s.die d).part p).minima) 0
      let eff (kind : Nat) : Nat := if cap kind < sum kind ∧ t.anyRetired (pkgOfDie d) = true then minimumOf kind r.minima * cap kind / sum kind
        else minimumOf kind r.minima
      SMap.find (t.die d).parts p = some { r with effmin := BitVec.ofNat 64 (eff 0 + eff 1 * 2 ^ 16 + eff 2 * 2 ^ 32) }


/-! ### Hardware queues (spec/15) -/

/-- R284-R286, R288, R298: starting a DISABLED slot whose PART and QNUM no other slot has makes it RUNNING with an empty ring and nothing
complete; another start of it, or a resumption of a slot that is neither STOPPED nor PARKED, changes nothing. A resumption discards the
copies and keeps QFAULT; it stops with BADPTR where the pointers lie further apart than the ring. Parking withdraws a WAIT at its home, and
a packet whose access is on its way or waits for its page; it begins again (log entry 51). Disabling changes STATE. A doorbell of a whole
doubleword below 2^32 writes WPTR of the slot it reaches, which stops with BADPTR where the ring is overrun; any other store there changes
nothing. A packet read ahead is kept as a copy, and one that now reads otherwise takes those of what it held with it; where the packet that
is next does not translate, NOTPRES goes to the fault queue and another cause stops the queue with XLATE; a fault further on has no
effect. -/
def Obligations.QueueControl : Prop :=
  ∀ (s : State) (die h : Nat),
    let q := s.queue die h
    let becomes (i : Instr) (q' : Queue) : Prop := exec i s = .next (s.setQueue die h q')
    let stopped (i : Instr) (cause : Nat) (r : Queue) : Prop := ∃ (u : State) (q' : Queue),
      exec i s = .next (u.post (.cobalt die) 4 h (BitVec.ofNat 64 cause) q.pos.va) ∧ u = s.setQueue die h q' ∧
      q'.state = 2 ∧ q'.cause = cause ∧ q'.qfault = q.pos.va ∧ q' = { r with qctl := q'.qctl, qfault := q'.qfault }
    (q.state = 0 → s.queueTaken die h q = false → ∃ q', becomes (.queueStart die h) q' ∧ q'.state = 1 ∧ q'.cause = 0 ∧ q'.sub = 0 ∧
      q'.wptr = 0 ∧ q'.rptr = 0 ∧ q'.pos.va = q.qbase ∧ q'.pos.top.len = 2 ^ q.log2n ∧ q'.copies = [] ∧ q'.graphs = [] ∧ q'.skip = [] ∧
      q'.phase = .idle ∧ q'.qbase = q.qbase ∧ q'.qroot = q.qroot ∧ q'.done = 0 ∧ q'.log2n = q.log2n ∧ q'.part = q.part ∧ q'.qnum = q.qnum) ∧
    (q.state ≠ 0 ∨ s.queueTaken die h q = true → exec (.queueStart die h) s = .next s) ∧
    (q.state = 2 ∨ q.state = 3 → q.overrun = false →
      becomes (.queueResume die h) { q.put 1 0 0 with copies := [] } ∧ (q.put 1 0 0).state = 1 ∧ (q.put 1 0 0).qfault = q.qfault) ∧
    (q.state = 2 ∨ q.state = 3 → q.overrun = true → q.phase = .idle → stopped (.queueResume die h) 7 { q with copies := [] }) ∧
    (q.state ≠ 2 → q.state ≠ 3 → exec (.queueResume die h) s = .next s) ∧
    (q.state = 1 → q.phase = .idle ∨ (∃ gid len, q.phase = .invoking gid len) → ∃ q', becomes (.queuePark die h) q' ∧ q'.state = 3 ∧
      q' = { q with qctl := q'.qctl }) ∧
    (q.state = 1 → ∀ loc len, q.phase = .waiting loc len → ∃ t q', exec (.queuePark die h) s = .next t ∧ t.queue die h = q' ∧
      q'.state = 3 ∧ q'.phase = .idle ∧ q'.pos = q.pos ∧ (∀ w ∈ (t.die loc.engine).waiters, w.who ≠ .queue die h)) ∧
    (q.state = 1 → (∃ loc ws, q.phase = .sent loc ws) ∨ (∃ ws, q.phase = .page (some ws)) → ∃ q', becomes (.queuePark die h) q' ∧
      q'.state = 3 ∧ q'.phase = .idle ∧ q'.pos = q.pos ∧ q'.graphs.map (·.graph) = q.graphs.map (·.graph)) ∧
    (q.state ≠ 1 → exec (.queuePark die h) s = .next s) ∧
    (q.state ≠ 1 ∨ q.phase = .idle → ∃ q', becomes (.queueDisable die h) q' ∧ q'.state = 0 ∧ q' = { q with qctl := q'.qctl }) ∧
    (∀ part off (v : Word), s.doorbellSlot die part off = some h →
      let r : Queue := { q with wptr := v.extractLsb' 0 32 }
      (v.extractLsb' 32 32 = 0 → (q.state = 1 → r.overrun = false) → becomes (.doorbell die part off 8 v) r) ∧
      (v.extractLsb' 32 32 = 0 → q.state = 1 → r.overrun = true → q.phase = .idle → stopped (.doorbell die part off 8 v) 7 r) ∧
      (∀ size, size ≠ 8 ∨ v.extractLsb' 32 32 ≠ 0 → exec (.doorbell die part off size v) s = .next s)) ∧
    (∀ part off size (v : Word), s.doorbellSlot die part off = none → exec (.doorbell die part off size v) s = .next s) ∧
    (q.state = 1 → q.skip = [] →
      (∀ ws, q.copies = [] → q.phase = .idle → q.graphs = [] → readPacket s die q q.pos = .words ws →
        becomes (.packetFetch die h) { q with copies := [{ pos := q.pos, words := ws }] }) ∧
      ∀ p, pickFree s 5 (q.ahead s die q.fetchFrom (33 - q.behind)) = some p →
        (∀ ws, readPacket s die q p = .words ws → ∃ cs, becomes (.packetFetch die h) { q with copies := { pos := p, words := ws } :: cs } ∧
          ∀ c, c ∈ cs ↔ c ∈ q.copies ∧ c.pos ≠ p ∧ (({ pos := p, words := ws } : PktCopy) ∈ q.copies ∨ c.pos.inside p = false)) ∧
        (∀ x, readPacket s die q p = .fault x → q.phase = .idle → p = q.pos →
          (isNotPres x.sub = true → exec (.packetFetch die h) s = .next ((s.setQueue die h { q with phase := .page none }).queueFault
            (.cobalt die) { seq := 0, source := 3, who := h, va := x.va, pc := 0, emitseq := 0, sub := x.sub, unit := 0, record := [] })) ∧
          (isNotPres x.sub = false → stopped (.packetFetch die h) 4 q)) ∧
        (∀ x, readPacket s die q p = .fault x → q.phase ≠ .idle ∨ p ≠ q.pos → exec (.packetFetch die h) s = .next s))


/-- R289-R297, R299, R257: a packet whose turn it is begins. NOP and FFENCE complete at once, FFENCE without the fetched copies; IB and LOOP
go on at their first packet, or stop with NESTING at a fifth or third level; a LOOP of count 0 skips its body as part of its unit. INVOKE
makes its task graph or stops with its cause; once it can, it starts with its static shares, PERSIST with an entry for every task, OVERLAP
with the next packet free to begin; it ends when every task is HALTED. PRED, WAIT and SIG send a sync operation, or meet a translation
fault: NOTPRES goes to the fault queue, another stops with XLATE. It is performed at its home in one step: PRED skips where its condition
fails (of a line written through an OWN page it reads some value since the graph began: log entry 19), WAIT completes, waits, or is tried
again where the table of waits not yet answered is full, SIG adds to or sets its doubleword and changes no other byte; a refusal of another
package stops the queue with REMOTE. A queue that has to wait or stop before its next packet does so with the skips it could make. A packet
that stops or is withdrawn begins again later; where a packet's end moves RPTR further from WPTR than the ring is long, a RUNNING queue
stops with BADPTR before its next packet (log entry 51). -/
def Obligations.PacketResults : Prop :=
  ∀ (s : State) (die h : Nat),
    let q := s.queue die h
    let keeps (t : State) : Prop := ∀ a, t.memByte a = s.memByte a
    let invokes : List Instr := [.pktNop die h, .ib die h, .pktLoop die h, .ffence die h, .invoke die h, .pred die h, .pktWait die h,
      .pktSigAdd die h, .pktSigSet die h]
    (∀ q' cause sub va, s.prepared die h = (q', .stop cause sub va) → ∀ i ∈ invokes,
      exec i s = .next ((s.setQueue die h q').stopQueue die h cause sub va)) ∧
    (∀ q', s.prepared die h = (q', .wait) → q.state = 1 → q.phase = .idle → ∀ i ∈ invokes, exec i s = .next (s.setQueue die h q')) ∧
    (∀ cause sub (va : Word), cause < 16 → sub < 256 →
      let b := s.setQueue die h { q.unbegin with phase := .idle }
      let r := (b.queue die h).put 2 cause sub
      s.stopBegun die h cause sub va = (b.setQueue die h { r with qfault := va }).post (.cobalt die) 4 h (BitVec.ofNat 64 cause) va ∧
        r.state = 2 ∧ r.cause = cause ∧ r.sub = sub ∧ r.pos = q.pos ∧ r.phase = .idle) ∧
    (q.state ≠ 1 ∨ q.overrun = false → s.checkPtr die h = s) ∧
    (q.state = 1 → q.overrun = true → ∃ (u : State) (q' : Queue), s.checkPtr die h = u.post (.cobalt die) 4 h 7 q'.qfault ∧ u.queue die h = q' ∧ q'.state = 2 ∧
      q'.cause = 7 ∧ (∀ gid len, q.phase = .invoking gid len → q'.qfault = ((q.pos.next len).settle maxLeaves).va) ∧
      ((∀ gid len, q.phase ≠ .invoking gid len) → q'.qfault = q.pos.va) ∧ q'.pos = q.pos ∧ q'.rptr = q.rptr ∧ q'.wptr = q.wptr ∧
      q'.done = q.done ∧ u.mem = s.mem ∧ u.contexts = s.contexts) ∧
    (∀ q' ws, s.prepared die h = (q', .begin ws) → s.turnOf die h = true →
      let q1 : Queue := { q' with
        copies := q'.copies.filter (fun c => decide (c.pos ≠ q'.pos)), graphs := q'.graphs.map (fun g => { g with begun := g.begun + 1 }) }
      let b := s.beginPacket die h q'
      let type := (pktWord ws 0).toNat % 256
      let len := (pktWord ws 0).toNat / 256 % 256
      let hi := pktHi (pktWord ws 0)
      let goes (i : Instr) (r : Queue) : Prop := ∃ t, exec i s = .next t ∧ t.queue die h = r ∧ (t.die die).queueLast = h ∧
        (t.die die).begunAt = some (s.die die).dieCycle ∧ keeps t ∧ t.contexts = s.contexts
      let passes (i : Instr) (r : Queue) : Prop := ∃ u, exec i s = .next (u.checkPtr die h) ∧ u.queue die h = r ∧
        (u.die die).queueLast = h ∧ (u.die die).begunAt = some (s.die die).dieCycle ∧ keeps u ∧ u.contexts = s.contexts
      let stops (i : Instr) (cause sub : Nat) : Prop := exec i s = .next (b.stopBegun die h cause sub q'.pos.va)
      (type = 0 → passes (.pktNop die h) (q1.complete len)) ∧
      (type = 7 → passes (.ffence die h) (({ q1 with copies := [] } : Queue).complete len)) ∧
      (type = 2 → q'.pos.frames.length ≠ 5 → goes (.ib die h) { q1 with pos := (q'.pos.follow ws).getD q'.pos }) ∧
      (type = 2 → q'.pos.frames.length = 5 → stops (.ib die h) 5 1) ∧
      (type = 4 → pktU32 ws 1 = 0 → passes (.pktLoop die h)
        { q1 with pos := q'.pos.move len, skip := [hi % 256, 1], done := q'.done + 1 }) ∧
      (type = 4 → pktU32 ws 1 ≠ 0 → q'.pos.loops.length ≠ 2 → goes (.pktLoop die h) { q1 with pos := (q'.pos.follow ws).getD q'.pos }) ∧
      (type = 4 → pktU32 ws 1 ≠ 0 → q'.pos.loops.length = 2 → stops (.pktLoop die h) 5 2) ∧
      (type = 1 →
        let record := s.modelRecord die q'.part (hi % 64)
        let n := pktU32 ws 1
        let flags := pktU32 ws 2
        (∀ cause, invokeStop record (s.coreCounts die q'.part record) n (flags.testBit 1) = some cause → stops (.invoke die h) cause 0) ∧
        (invokeStop record (s.coreCounts die q'.part record) n (flags.testBit 1) = none →
          goes (.invoke die h) { q1 with phase := .invoking s.nextGraph len } ∧ ∃ t g, exec (.invoke die h) s = .next t ∧
            SMap.find t.graphs s.nextGraph = some g ∧ g.n = n ∧ g.started = false ∧ g.overlap = flags.testBit 0 ∧
            g.persist = flags.testBit 1 ∧ g.part = q'.part ∧ g.record = record ∧ t.nextGraph = s.nextGraph + 1)) ∧
      (∀ i acc, (i = Instr.pred die h ∧ type = 3 ∧ acc = Access.load ∨ i = .pktWait die h ∧ type = 5 ∧ acc = .load ∨
          i = .pktSigAdd die h ∧ type = 6 ∧ hi % 256 = 0 ∧ acc = .store ∨ i = .pktSigSet die h ∧ type = 6 ∧ hi % 256 = 1 ∧ acc = .store) →
        (∀ loc, translate b (q1.ctx die) (pktWord ws 1) acc = .ok loc → goes i { q1 with phase := .sent loc ws }) ∧
        (∀ x, translate b (q1.ctx die) (pktWord ws 1) acc = .error x →
          (isNotPres x.sub = false → stops i 4 x.sub.toNat) ∧
          (isNotPres x.sub = true → exec i s = .next ((b.setQueue die h { q1 with phase := .page (some ws) }).queueFault (.cobalt die)
            { seq := 0, source := 3, who := h, va := x.va, pc := 0, emitseq := 0, sub := x.sub, unit := 0, record := [] }))))) ∧
    (∀ gid len g, q.phase = .invoking gid len → SMap.find s.graphs gid = some g → g.started = false →
      let shares := layShares (s.coreCounts die g.part g.record) (shareSizes g.n (s.coreCounts die g.part g.record))
      (g.persist = false → ∃ t, exec (.invokeStart die h) s = .next (t.checkPtr die h) ∧ keeps t ∧ t.contexts = s.contexts ∧
        t.queue die h = q.started gid len g.overlap ∧ SMap.find t.graphs gid = some { g with started := true, shares := shares }) ∧
      (g.persist = true → s.sharesFit die shares = true → ∃ t, exec (.invokeStart die h) s = .next (t.checkPtr die h) ∧ keeps t ∧
        t.queue die h = q.started gid len g.overlap ∧
        SMap.find t.graphs gid = some { g with started := true, shares := shares.map (fun p => (p.1, (p.2.2, p.2.2))) } ∧
        ∀ p ∈ shares, ∀ i, p.2.1 ≤ i → i < p.2.2 → ∃ k c, t.ctx k = some c ∧ k / 1024 = 8 * pkgOfDie die + p.1 ∧ c.status = .new ∧
          c.id.graph = gid ∧ c.id.taskidx = BitVec.ofNat 24 i) ∧
      (g.persist = true → s.sharesFit die shares = false → exec (.invokeStart die h) s = .next s)) ∧
    (∀ gid len, q.graphs = [] → q.phase = .invoking gid len → s.graphOver gid = true → ∃ t, exec (.taskGraphEnd die h) s = .next (t.checkPtr die h) ∧
      t.queue die h = q.complete len ∧ SMap.find t.graphs gid = none ∧ keeps t) ∧
    (∀ o, q.graphs = [o] → s.graphOver o.graph = true → ∃ t, exec (.taskGraphEnd die h) s = .next (t.checkPtr die h) ∧
      t.queue die h = ({ q with graphs := [], done := q.done + 1 } : Queue).settle maxLeaves ∧ SMap.find t.graphs o.graph = none ∧ keeps t) ∧
    (∀ loc ws, q.phase = .sent loc ws →
      let type := (pktWord ws 0).toNat % 256
      let len := (pktWord ws 0).toNat / 256 % 256
      let hi := pktHi (pktWord ws 0)
      let word := s.home64 loc.pkg loc.pa
      let read : Word := BitVec.ofNat 64 (leNat ((s.readHomeBytes none loc.pkg loc.pa 8).map (·.1)))
      (∀ cause i, remoteRefusal s (q.ctx die) loc.engine (some loc) = some cause → q.state ≠ 0 → (i = Instr.pred die h ∧ type = 3 ∨
          i = .pktWait die h ∧ type = 5 ∨ i = .pktSigAdd die h ∧ type = 6 ∧ hi % 256 = 0 ∨ i = .pktSigSet die h ∧ type = 6 ∧ hi % 256 = 1) →
        exec i s = .next ((s.setQueue die h { q with phase := .idle }).stopBegun die h 8 cause q.pos.va)) ∧
      (remoteRefusal s (q.ctx die) loc.engine (some loc) = none →
        let pending := (s.die loc.engine).waiters.filter (fun w => !w.answered)
        (type = 3 → ∃ t, exec (.pred die h) s = .next (t.checkPtr die h) ∧ keeps t ∧ t.queue die h = q.afterPred ws (
          if hi % 256 = 0 then read == pktWord ws 2 else if hi % 256 = 1 then read != pktWord ws 2
          else if hi % 256 = 2 then decide (read.toNat < (pktWord ws 2).toNat)
          else if hi % 256 = 3 then decide ((pktWord ws 2).toNat ≤ read.toNat) else (read &&& pktWord ws 3) == pktWord ws 2)) ∧
        (s.ownPast = [] → read = word) ∧
        (type = 5 → (pktWord ws 2).toNat ≤ word.toNat → ∃ t, exec (.pktWait die h) s = .next (t.checkPtr die h) ∧ keeps t ∧ t.queue die h = q.complete len) ∧
        (type = 5 → word.toNat < (pktWord ws 2).toNat → pending.length < 8192 → ∃ t,
          exec (.pktWait die h) s = .next t ∧ keeps t ∧ t.queue die h = { q with phase := .waiting loc len } ∧
          (t.die loc.engine).waiters = (s.die loc.engine).waiters ++ [{
            who := .queue die h, pkg := loc.pkg, pa := loc.pa, kind := .signal (pktWord ws 2), answered := false, progress := false }]) ∧
        (type = 5 → word.toNat < (pktWord ws 2).toNat → 8192 ≤ pending.length → ∃ t,
          exec (.pktWait die h) s = .next t ∧ keeps t ∧ t.queue die h = q ∧ (t.die loc.engine).waiters = (s.die loc.engine).waiters) ∧
        (∀ x ∈ [(Instr.pktSigAdd die h, 0, word + pktWord ws 2), (.pktSigSet die h, 1, pktWord ws 2)], s.MemWf → type = 6 →
          hi % 256 = x.2.1 → ∃ t : State, exec x.1 s = .next (t.checkPtr die h) ∧ t.queue die h = q.complete len ∧ t.home64 loc.pkg loc.pa = x.2.2 ∧
            (∀ a, a < memKey loc.pkg loc.pa ∨ memKey loc.pkg loc.pa + 8 ≤ a → t.memByte a = s.memByte a)))) ∧
    (∀ loc len w, q.phase = .waiting loc len → w ∈ (s.die loc.engine).waiters → w.answered = true → w.who = .queue die h → ∃ t,
      exec (.pktWait die h) s = .next (t.checkPtr die h) ∧ keeps t ∧ t.queue die h = q.complete len ∧
      (∀ x ∈ (t.die loc.engine).waiters, x.who ≠ .queue die h))


/-! ### Collectives (spec/16, spec/17) -/

/-- R302, R305-R319: CPOST's record is read and accepted under its entry's handle with an instance number, a notice goes to the coordinator,
and CPOST goes on; one that is no good is in FAULT; a handle posts its entry's record again. A notice is held until its instance is
complete; then the coordinator asks for a rank, or every member gets PEERFAULT or MISMATCH. The sequencer gives the next rank to every
member; a ticket reaches its instance, is taken in its member's chain, and reserves where grant and die have room, withdrawing unconfirmed
reservations of higher ranks; a need beyond them is NOBUF at every member. With every member's reservation the instance runs. At a chunk
boundary a ready member of the highest priority is picked, by weighted round robin of communicators; of the members with a chunk to move,
which are ready is the schedule's choice (log entry 6), and one chunk moves whole (log entry 9); a transfer named that cannot go moves
nothing. On a link a chunk takes its credits, or waits for more; they come back one by one. It is read at its rank, reduced, and written at
its destination with no other byte; a fault of a page waits for it. A complete instance is DONE, gives its signal, then its interrupt; a
fault ends it and is reported; a Serac die that is no longer reached, R341 and R348 also one in recovery or without its last link, ends the
instances with members there: UNREACH at posting where the coordinator, at settling where the sequencer, at the ticket where a member is not
reached. In recovery a Serac die takes no post (log entry 68). What a rank reads of a line written through an OWN page is some value since
the graph began (log entry 19). -/
def Obligations.CollectiveResults : Prop :=
  ∀ (s : State),
    let keeps (t : State) : Prop := ∀ a, t.memByte a = s.memByte a
    (∀ k c d va, s.ctx k = some c → c.wait = .cpostSent d va none → s.onRetired c = true ∨ (s.serac (seracOfDie c.die)).boot = .recovery →
      exec (.postAccept k) s = .next s) ∧
    (∀ k c d va i, s.ctx k = some c → c.wait = .cpostSent d va none → s.onRetired c = false →
      let serac := seracOfDie c.die
      (s.serac serac).boot ≠ .recovery →
      let r := (readRange s c va 256).bytes.map (·.1)
      let accepted (t : State) (h : Word) : Prop := exec (.postAccept k) s = .next t ∧ keeps t ∧ ∃ c', t.ctx k = some c' ∧ c'.wait = .none ∧
        c'.thread.reg (BitVec.ofNat 6 d) = (if BitVec.ofNat 6 d = 0 then 0 else h) ∧ c'.thread.pc = c.thread.nextPc (c.thread.pc + 4)
      s.takeEntry serac = some i → (readRange s c va 256).fault = none →
      (recPersist r = false ∨ recHandle r = 0 → ∃ t x, accepted t (postHandle i (t.posted serac i)) ∧ (t.posted serac i).used = true ∧
        (t.posted serac i).record = r ∧ (t.posted serac i).ctx = k ∧ (t.posted serac i).persistent = recPersist r ∧
        (t.posted serac i).insts = [x] ∧
        (∀ m q, s.posterRank c serac (recComm r) = some (m, q) → x.number = SMap.getD (s.serac serac).instCount (recComm r * 4096 + q) 0 ∧
          SMap.find (t.serac serac).instCount (recComm r * 4096 + q) = some (x.number + 1) ∧
          let good := recordOk r && recordFits r m.size q
          let lost := s.seracLost serac m.coord
          (x.state = if good && !lost then .posted else .fault) ∧ (good = false → x.cause = 1) ∧ (good = true → lost = true → x.cause = 7) ∧
          (lost = false →
            ∃ n ∈ (t.serac m.coord).notices, n.comm = recComm r ∧ n.inst = x.number ∧ n.rank = q ∧ n.faulted = (x.state == .fault))) ∧
        (s.posterRank c serac (recComm r) = none → x.state = .fault ∧ x.counted = false ∧ (x.cause = if recordOk r then 2 else 1) ∧
          (t.serac serac).instCount = (s.serac serac).instCount)) ∧
      (∀ p m q, recPersist r = true → recHandle r ≠ 0 → s.handleEntry c serac (recHandle r) = some p →
        (p.insts.filter (fun x => x.state != .done)).length < 2 → s.entryRank p serac = some (m, q) →
        recordOk p.record = true → recordFits p.record m.size q = true → ∃ t x,
          accepted t (postHandle (recHandle r % 2 ^ 16) p) ∧ x ∈ (t.posted serac (recHandle r % 2 ^ 16)).insts ∧
          (t.posted serac (recHandle r % 2 ^ 16)).rank = q ∧
          (s.seracLost serac m.coord = false → x.state = .posted) ∧ (s.seracLost serac m.coord = true → x.state = .fault ∧ x.cause = 7) ∧
          x.number = SMap.getD (s.serac serac).instCount (p.comm * 4096 + q) 0 ∧ x.before = p.insts.getLast?.map (·.number))) ∧
    ∀ (serac : Nat),
    let d := s.serac serac
    let told (t : State) (m : Comm) (coord comm inst cause : Nat) : Prop :=
      ∀ q, q < m.size → t.seracLost serac (memberSerac (m.words.getD q 0)) = false →
        ({ coord := coord, comm := comm, inst := inst, rank := q, cause := cause, sub := 0 } : FaultMsg) ∈
          (t.serac (memberSerac (m.words.getD q 0))).faultMsgs
    (∀ (k : Nat) n m, d.notices[k]? = some n → s.commOf serac n.comm = some m →
      let i := SMap.getD d.coordNext n.comm 0
      let ns := (d.heldNotices ++ [n]).filter (fun x => decide (x.comm = n.comm ∧ x.inst = i))
      (ns.length ≠ m.size → exec (.coordinatorNotice serac k) s =
        .next (s.setSerac serac { d with notices := d.notices.eraseIdx k, heldNotices := d.heldNotices ++ [n] })) ∧
      (ns.length = m.size → n.inst = i → (∀ x ∈ d.heldNotices, x.comm = n.comm → x.inst = i) → ∃ t,
        exec (.coordinatorNotice serac k) s = .next t ∧ keeps t ∧ SMap.find (t.serac serac).coordNext n.comm = some (i + 1) ∧
        ((∃ x ∈ ns, x.faulted = true) → told t m serac n.comm i 4) ∧
        ((∀ x ∈ ns, x.faulted = false) → (∃ x ∈ ns, ∃ y ∈ ns, x.fields ≠ y.fields) → told t m serac n.comm i 3) ∧
        ((∀ x ∈ ns, x.faulted = false ∧ x.fields = n.fields) → s.seracLost serac d.sequencer = true → told t m serac n.comm i 7) ∧
        ((∀ x ∈ ns, x.faulted = false ∧ x.fields = n.fields) → s.seracLost serac d.sequencer = false → ∃ chunk ∈ ns.map (·.chunk),
          let w := d.choose (recField n.fields 0 4) (recField n.fields 4 4) (recField n.fields 8 8) m.size chunk
          (t.serac d.sequencer).seqQueue = (s.serac d.sequencer).seqQueue ++ [{ members := m.words, ticket := {
            coord := serac, comm := n.comm, inst := i, rank := 0, prev := 0, alg := w.1, chunk := w.2, die := 0 } }]))) ∧
    (∀ r rest, d.seqQueue = r :: rest → d.tseq.getLsbD 16 = true → (∃ w ∈ r.members, s.seracLost serac (memberSerac w) = true) → ∃ t,
      exec (.ticketRequest serac) s = .next t ∧ keeps t ∧ (t.serac serac).seqQueue = rest ∧ (t.serac serac).seqRank = d.seqRank ∧
      ∀ (q : Nat) w, r.members[q]? = some w → s.seracLost serac (memberSerac w) = false →
        ({ coord := r.ticket.coord, comm := r.ticket.comm, inst := r.ticket.inst, rank := q, cause := 7, sub := 0 } : FaultMsg) ∈
          (t.serac (memberSerac w)).faultMsgs) ∧
    (∀ r rest, d.seqQueue = r :: rest → d.tseq.getLsbD 16 = true → (∀ w ∈ r.members, s.seracLost serac (memberSerac w) = false) → ∃ t,
      exec (.ticketRequest serac) s = .next t ∧ keeps t ∧
      (t.serac serac).seqRank = d.seqRank + 1 ∧ (t.serac serac).seqQueue = rest ∧
      (∀ (i : Nat) w, r.members[i]? = some w → ∃ tk, (i, tk) ∈ (t.serac (memberSerac w)).tickets ∧ tk.rank = d.seqRank + 1 ∧
        tk.prev = SMap.getD d.seqLast (memberDie w) 0 ∧ tk.inst = r.ticket.inst ∧ tk.alg = r.ticket.alg ∧ tk.chunk = r.ticket.chunk ∧
        tk.die = memberDie w)) ∧
    (∀ (k : Nat) q tk, d.tickets[k]? = some (q, tk) →
      (∀ i p x, s.memberInst serac tk.coord tk.comm tk.inst q = some (i, p, x) →
        (x.state = .posted → exec (.ticketTake serac k) s = .next (s.setPosted serac i (p.setInst
          { x with state := .ticketed, rank := tk.rank, prev := tk.prev, alg := tk.alg, chunk := tk.chunk }))) ∧
        (x.state = .ticketed → s.chainReady serac tk.die tk = true → s.beforeDone serac p x = true → ∃ t,
          exec (.ticketTake serac k) s = .next t ∧ t.posted serac i = p.setInst { x with taken := true } ∧
          (t.serac serac).tickets = d.tickets.eraseIdx k ∧ SMap.find (t.serac serac).takenRank tk.die = some tk.rank ∧ keeps t) ∧
        (x.state = .ticketed → tk.prev ≠ 0 → SMap.getD d.takenRank tk.die 0 ≠ tk.prev → exec (.ticketTake serac k) s = .next s)) ∧
      (s.memberInst serac tk.coord tk.comm tk.inst q = none → s.chainReady serac tk.die tk = true → ∃ t,
        exec (.ticketTake serac k) s = .next t ∧ (t.serac serac).tickets = d.tickets.eraseIdx k ∧
        SMap.find (t.serac serac).takenRank tk.die = some tk.rank ∧ (t.serac serac).entries = d.entries)) ∧
    (∀ (c : Claim) (held : List Claim),
      let mine := c :: held.filter (fun h => decide (h.part = c.part))
      d.fitsBeside c held = true ↔ (mine.map (·.need.bytes)).sum ≤ d.grantBytes c.part ∧ (mine.map (·.need.slots)).sum ≤ d.grantSlots c.part ∧
        ((c :: held).map (·.need.bytes)).sum ≤ 128 * 2 ^ 20 ∧ ((c :: held).map (·.need.lanes)).sum ≤ 16 ∧
        ((c :: held).map (·.need.slots)).sum ≤ 128) ∧
    (∀ k c, s.waitingClaim serac k = some c →
      (∀ m, d.fitsBeside c [] = false → s.commOf serac (s.posted serac k).comm = some m → ∃ t, exec (.reservation serac k) s = .next t ∧
        told t m (s.posted serac k).coord (s.posted serac k).comm c.inst.number 6 ∧ t.runs = s.runs ∧ keeps t) ∧
      (∀ ws, d.fitsBeside c [] = true →
        (∀ o ∈ s.claims serac, o.waits = true → o.inst.rank.toNat < c.inst.rank.toNat → d.tooBig o = false → s.reserveWith serac o = none) →
        s.reserveWith serac c = some ws →
        (∀ w ∈ ws, w ∈ s.claims serac ∧ w.inst.state = .reserved ∧ c.inst.rank.toNat < w.inst.rank.toNat) ∧
        (ws = [] → exec (.reservation serac k) s =
          .next (s.setPosted serac k ((s.posted serac k).setInst { c.inst with state := .reserved }))) ∧
        ∃ t, exec (.reservation serac k) s = .next t ∧ keeps t ∧ t.contexts = s.contexts ∧ t.runs = s.runs ∧
          (c.inst ∈ (s.posted serac k).insts → ∃ y ∈ (t.posted serac k).insts, y.number = c.inst.number ∧ y.state = .reserved) ∧
          ∀ w ∈ ws, w.entry ≠ k → w.inst ∈ (s.posted serac w.entry).insts →
            ∃ y ∈ (t.posted serac w.entry).insts, y.number = w.inst.number ∧ y.state = .ticketed)) ∧
    (∀ k x m, let p := s.posted serac k
      p.insts.find? (fun x => x.state == .reserved) = some x → s.commOf serac p.comm = some m →
      (∀ q, q < m.size → ∃ j i p' y, s.member m p.coord p.comm x.number q = some (j, i, p', y) ∧ y.state = .reserved ∧
        s.posted j i = p' ∧ y ∈ p'.insts) →
      ((∃ w ∈ m.words, s.seracLost serac (memberSerac w) = true) → exec (.confirmation serac k) s = .next s) ∧
      ((∀ w ∈ m.words, s.seracLost serac (memberSerac w) = false) → ∃ t r, exec (.confirmation serac k) s = .next t ∧ keeps t ∧ t.contexts = s.contexts ∧ t.runs = s.runs ++ [r] ∧
        r.coord = p.coord ∧ r.comm = p.comm ∧ r.inst = x.number ∧ r.vc = m.vc ∧ r.prio = m.prio ∧ r.weight = m.weight ∧
        r.members.length = m.size ∧ r.chunks = [] ∧ r.writtenTo = [] ∧
        ∀ q, q < m.size → ∀ j i p' y, s.member m p.coord p.comm x.number q = some (j, i, p', y) →
          r.members[q]? = some (RunMember.mk j i p'.record p'.die p'.part p'.s1root p'.tenant p'.gang false) ∧
          ∃ y' ∈ (t.posted j i).insts, y'.number = y.number ∧ y'.state = .running)) ∧
    (∀ res, SMap.find d.picks (resKey res) = none → s.chunkCands serac res ≠ [] → ∃ t x, exec (.chunkBoundary serac res) s = .next t ∧
      x ∈ s.readyChunks serac res ∧ (∀ y ∈ s.readyChunks serac res, y.prio ≤ x.prio) ∧ keeps t ∧ t.contexts = s.contexts ∧
      SMap.find (t.serac serac).picks (resKey res) =
        some { coord := x.run.coord, comm := x.run.comm, inst := x.run.inst, rank := x.rank, left := none } ∧
      let top := (s.readyChunks serac res).filter (fun y => decide (y.prio = x.prio))
      let key := resKey res * 8 + x.prio
      ∀ c n, SMap.find d.turn key = some (c, n) →
        ((∃ y ∈ top, y.run.comm = c ∧ n < y.run.weight) → x.run.comm = c ∧ SMap.find (t.serac serac).turn key = some (c, n + 1)) ∧
        ((∀ y ∈ top, y.run.comm = c → y.run.weight ≤ n) → SMap.find (t.serac serac).turn key = some (x.run.comm, 1) ∧
          ((∃ y ∈ top, c < y.run.comm) → c < x.run.comm ∧ ∀ y ∈ top, c < y.run.comm → x.run.comm ≤ y.run.comm) ∧
          ((∀ y ∈ top, y.run.comm ≤ c) → ∀ y ∈ top, x.run.comm ≤ y.run.comm))) ∧
    (∀ x res, x ∈ s.readyChunks serac res → x ∈ s.chunkCands serac res) ∧
    (∀ x n, x ∈ s.chunkCands serac (.link n) → n < 24 ∧ n ∉ d.retiredLinks ∧ 0 < d.credits n x.run.vc ∧
      ∃ u e, (x.run.toRead x.rank u e).isSome = true ∧ x.run.samePkg x.rank e = false) ∧
    (∀ x, x ∈ s.chunkCands serac .alu → (x.run.desc.op = 1 ∨ x.run.desc.op = 2) ∧ ∃ u, (x.run.toWrite u x.rank).isSome = true) ∧
    (s.ownPast = [] → ∀ pkg pa n, pa % 64 + n ≤ 64 →
      s.readHomeBytes none pkg pa n = (s.homeBytes pkg pa n).map (fun b => (b, s.linePoisoned pkg (pa / 64)))) ∧
    (∀ (r : CollRun) (m : RunMember) q u e len va l, r.toRead q u e = some (len, va) → rangeParts s m.ctxOf va len .load = .ok l →
      (∀ y ∈ l, s.homeLost m.serac y.1 = false) →
      let got : CollRun := { r with chunks := r.chunks ++
        [(u, e, q, l.flatMap (fun y => s.readHomeBytes none y.1.pkg y.1.pa y.2))] }
      (∀ n pick left, m.serac = serac → d.linkUp n = true → s.supplies r m q = true →
        (∀ y, r.members[e]? = some y → s.seracLost serac y.serac = false) → SMap.find d.picks (n + 1) = some pick → pick.rank = q → s.runOf pick.coord pick.comm pick.inst = some r →
        r.members[q]? = some m → r.samePkg q e = false → pick.left.getD (u, e, (len + 255) / 256) = (u, e, left) →
        (d.credits n r.vc < left → ∃ t, exec (.chunkTransfer serac (.link n) [u, e]) s = .next t ∧ keeps t ∧ t.contexts = s.contexts ∧
          SMap.find (t.serac serac).picks (n + 1) = some { pick with left := some (u, e, left - d.credits n r.vc) } ∧
          (t.serac serac).credits n r.vc = 0 ∧ t.runs = s.runs) ∧
        (left ≤ d.credits n r.vc → ∃ t, exec (.chunkTransfer serac (.link n) [u, e]) s = .next t ∧ keeps t ∧ t.contexts = s.contexts ∧
          SMap.find (t.serac serac).picks (n + 1) = none ∧ (t.serac serac).credits n r.vc = d.credits n r.vc - left ∧
          t.runs = (s.setRun got).runs)) ∧
      (m.serac = serac → r.members[q]? = some m → s.runOf r.coord r.comm r.inst = some r → r.samePkg q e = true → s.supplies r m q = true →
        exec (.chunkTransfer serac .within [r.coord, r.comm, r.inst, q, u, e]) s = .next (s.setRun got))) ∧
    (∀ n pick (r : CollRun) (m : RunMember) u e, SMap.find d.picks (n + 1) = some pick → pick.left = none →
      s.runOf pick.coord pick.comm pick.inst = some r → r.members[pick.rank]? = some m → d.linkUp n = true → s.supplies r m pick.rank = true →
      r.sends pick.rank = true → r.toRead pick.rank u e = none ∨ r.samePkg pick.rank e = true →
      exec (.chunkTransfer serac (.link n) [u, e]) s = .next s) ∧
    (∀ n pick u e, SMap.find d.picks (n + 1) = some pick → d.linkUp n = false →
      exec (.chunkTransfer serac (.link n) [u, e]) s = .next (s.setSerac serac { d with picks := SMap.drop d.picks (n + 1) })) ∧
    (∀ (r : CollRun) (m : RunMember) q u e len va f, r.toRead q u e = some (len, va) → rangeParts s m.ctxOf va len .load = .error f →
      m.serac = serac → r.members[q]? = some m → s.runOf r.coord r.comm r.inst = some r → r.samePkg q e = true → s.supplies r m q = true →
      (isNotPres f.sub = true → exec (.chunkTransfer serac .within [r.coord, r.comm, r.inst, q, u, e]) s =
        .next ((s.setRun { r with pages := insertKey q r.pages }).queueFault (.serac serac)
          { seq := 0, source := 5, who := m.entry, va := f.va, pc := 0, emitseq := 0, sub := f.sub, unit := 0, record := [] })) ∧
      (∀ c, isNotPres f.sub = false → s.commOf serac r.comm = some c →
        exec (.chunkTransfer serac .within [r.coord, r.comm, r.inst, q, u, e]) s =
          .next (s.faultAll serac c r.coord r.comm r.inst 5 f.sub))) ∧
    (∀ pick (r : CollRun) (m : RunMember) u order va got l, s.MemWf → SMap.find d.picks 0 = some pick →
      s.runOf pick.coord pick.comm pick.inst = some r → r.members[pick.rank]? = some m → r.toWrite u pick.rank = some (va, got) →
      s.receives r m pick.rank = true →
      let data := reduceBy (recType m.record) (recRed m.record) order got
      let start (i : Nat) : Nat := ((l.take i).map (·.2)).sum
      rangeParts s m.ctxOf va data.length .store = .ok l → (∀ y ∈ l, s.homeLost m.serac y.1 = false) →
      l.Pairwise (fun x y => memKey x.1.pkg x.1.pa + x.2 ≤ memKey y.1.pkg y.1.pa ∨ memKey y.1.pkg y.1.pa + y.2 ≤ memKey x.1.pkg x.1.pa) →
      ∃ t, exec (.chunkTransfer serac .alu (u :: pick.rank :: order)) s = .next t ∧
        (∀ (i : Nat) y, l[i]? = some y → ∀ j, j < y.2 → start i + j < data.length →
          t.memByte (memKey y.1.pkg y.1.pa + j) = (data.getD (start i + j) (0, false)).1) ∧
        (∀ a, (∀ y ∈ l, a < memKey y.1.pkg y.1.pa ∨ memKey y.1.pkg y.1.pa + y.2 ≤ a) → t.memByte a = s.memByte a) ∧
        t.runs = (s.setRun { r with chunks := r.chunks.filter (fun c => !decide (c.1 = u ∧ c.2.1 = pick.rank)),
                                    writtenTo := r.writtenTo ++ [(u, pick.rank)] }).runs ∧
        SMap.find (t.serac serac).picks 0 = none) ∧
    (∀ link vc n, link < 24 → vc < 16 → SMap.find d.spent (link * 16 + vc) = some (n + 1) →
      exec (.creditReturn serac link vc) s = .next (s.setSerac serac { d with spent := SMap.put d.spent (link * 16 + vc) n })) ∧
    (∀ k x m, let p := s.posted serac k
      k < 1024 → p.insts = [x] → p.ended = false → s.commOf serac p.comm = some m → x.page = false →
      (∀ r, x.state = .running → s.findRun p x = some r →
        ((∀ q, q < r.desc.size → (r.desc.op = 5 ∨ q = p.rank) → ∀ u, u < r.desc.transfers → r.desc.piece u q ≠ none →
            (u, q) ∈ r.writtenTo) → p.rank < r.desc.size → (r.desc.nest = true → r.walked r.desc = true) → p.persistent = false → ∃ t,
          exec (.instanceComplete serac k) s = .next t ∧ (t.posted serac k).insts = [{ x with state := .done, stage := 1 }] ∧ keeps t) ∧
        (∀ u, u < r.desc.transfers → r.desc.piece u p.rank ≠ none → (u, p.rank) ∉ r.writtenTo → p.rank < r.desc.size →
          exec (.instanceComplete serac k) s = .next s)) ∧
      (∀ loc, s.MemWf → x.state = .done → x.stage = 1 → recSignal p.record ≠ 0 →
        translate s p.ctxOf (BitVec.ofNat 64 (recSignal p.record)) .store = .ok loc → ∃ t, exec (.instanceComplete serac k) s = .next t ∧
        (t.posted serac k).insts = [{ x with stage := 2 }] ∧ t.home64 loc.pkg loc.pa = s.home64 loc.pkg loc.pa + 1 ∧
        (∀ a, a < memKey loc.pkg loc.pa ∨ memKey loc.pkg loc.pa + 8 ≤ a → t.memByte a = s.memByte a)) ∧
      (x.state = .done → x.stage = 2 → recTarget p.record = 2 ^ 32 - 1 → ∃ t, exec (.instanceComplete serac k) s = .next t ∧
        (t.posted serac k).insts = [{ x with stage := 3 }] ∧ keeps t) ∧
      (∀ c, x.state = .done → x.stage = 2 → p.record ≠ [] → recTarget p.record < 2 ^ 25 →
        s.reachable (recTarget p.record) p.tenant = none → s.ctx (recTarget p.record) = some c → ∃ t c',
        exec (.instanceComplete serac k) s = .next t ∧ (t.posted serac k).insts = [{ x with stage := 3 }] ∧
        t.ctx (recTarget p.record) = some c' ∧ c'.thread = c.thread.pend (recVector p.record) ∧ keeps t)) ∧
    (∀ k x f i p, d.faultMsgs = [f] → (s.posted serac k).named f = true →
      s.memberInst serac f.coord f.comm f.inst f.rank = some (i, p, x) → x.state ≠ .done → x.state ≠ .fault → ∃ t,
      exec (.instanceFault serac k) s = .next t ∧ (t.serac serac).faultMsgs = [] ∧
      t.posted serac i = p.setInst { x with state := .fault, cause := f.cause, sub := f.sub, stage := 1 } ∧ keeps t) ∧
    (∀ k x, k < 1024 → d.faultMsgs = [] → (s.posted serac k).insts = [x] → (s.posted serac k).ended = false → x.state = .fault →
      x.stage < 3 → recTarget (s.posted serac k).record = 2 ^ 32 - 1 → exec (.instanceFault serac k) s =
        .next ((s.setPosted serac k { s.posted serac k with insts := [{ x with stage := 3 }] }).post (.serac serac) 6 k
          (BitVec.ofNat 64 x.cause) (BitVec.ofNat 64 x.number))) ∧
    (∀ lost, ∃ t, exec (.peerUnreachable serac lost) s = .next t ∧ (t.serac serac).unreachable = insertKey lost d.unreachable ∧
      t.contexts = s.contexts ∧ keeps t ∧ ∀ e ∈ d.entries, ∀ m x, e.2.used = true → s.commOf serac e.2.comm = some m →
        (∃ w ∈ m.words, memberSerac w = lost) → x ∈ e.2.insts → x.state ≠ .done → x.state ≠ .fault →
        told t m e.2.coord e.2.comm x.number 7) ∧
    (∀ die k l, ∃ t, exec (.retirement die ⟨.link k l, false⟩) s = .next t ∧ ((t.serac k).routed = false →
      ∀ e ∈ d.entries, ∀ m x, e.2.used = true → s.commOf serac e.2.comm = some m →
        (∃ w ∈ m.words, (serac = k ∨ memberSerac w = k) ∧ t.seracLost serac (memberSerac w) = true) → x ∈ e.2.insts →
        x.state ≠ .done → x.state ≠ .fault → told t m e.2.coord e.2.comm x.number 7))


/-! ### The host port, soft errors, boot, power (spec/02, spec/19, spec/20) -/

/-- R49, R287, R337, R339, R341-R348: a host write to memory writes its bytes and no others, a host read answers the bytes at the home (of a
line written through an OWN page some value since the graph began: log entry 19); a control page answers the host only in host-assisted mode
(log entry 66); in recovery the port reaches the slots alone. A soft error poisons what it meets, ends a context whose state it meets, makes
a frost entry kind 15, or is counted; past its threshold a unit is reported, to the host where it performs retirement. A reset counts its
boot into one of the two copies, boots the slot that the kept marker names, the other where that does not verify, the higher version where
no marker is kept, or enters recovery; the boot map is applied and the management cores start, at an address the model leaves free (log
entries 14, 66). An update writes the slot that the kept marker does not name, and the other marker copy once the image verifies. A loss of
power keeps the flash alone, and never the last valid count or the kept marker is torn. A measurement is signed with the nonce, a dump key
goes to the dump engine, and wrapped to Deresk (log entry 12); a request is answered by a booted die, and may update a die of the package;
that answer and that choice are free (log entry 66). -/
def Obligations.PackageResults : Prop :=
  (∀ (s : State) (serac : Nat),
    let d := s.serac serac
    let base := pkgOfSerac serac
    let at_ (pa : Nat) : Loc := { pkg := base, pa := pa, home := 8 + serac % 2, dev := false, own := false }
    (∀ slot pa (data : List Byte), s.MemWf → d.boot = .booted slot → s.deviceAt (at_ pa) = none → ∃ t,
      exec (.hostWrite serac pa data) s = .next t ∧ t.contexts = s.contexts ∧
      (∀ i, i < data.length → t.memByte (memKey base pa + i) = data.getD i 0) ∧
      (∀ a, a < memKey base pa ∨ memKey base pa + data.length ≤ a → t.memByte a = s.memByte a)) ∧
    (∀ slot pa (data : List Byte) p o, d.boot = .booted slot → s.deviceAt (at_ pa) = some (p, o) →
      (1 ≤ data.length → data.length ≤ 8 → exec (.hostWrite serac pa data) s =
        .next (s.regStore p o data.length (BitVec.ofNat 64 (leNat data)) 0 .host)) ∧
      (isControl p = true → (s.serac (pageSerac p)).fwmode = 0 → s.holdsEntry p true = false →
        exec (.hostWrite serac pa data) s = .next s ∧ ∀ n, exec (.hostRead serac pa n) s =
          .next (s.setSerac serac { d with hostRead := List.replicate (min n 8) 0 }))) ∧
    (d.boot = .inReset → ∀ pa data n, exec (.hostWrite serac pa data) s = .next s ∧ exec (.hostRead serac pa n) s = .next s) ∧
    (∀ pa data, d.boot = .recovery → exec (.hostWrite serac pa data) s =
      .next (s.setSerac serac { d with flash := d.flash.recover pa data })) ∧
    (∀ slot pa n, d.boot = .booted slot → s.deviceAt (at_ pa) = none →
      exec (.hostRead serac pa n) s = .next (s.setSerac serac { d with hostRead := (s.readHomeBytes none base pa n).map (·.1) }) ∧
      (s.ownPast = [] → (s.readHomeBytes none base pa n).map (·.1) = Memory.readBytes s.mem (memKey base pa) n)) ∧
    (∀ pkg line, ∃ t, exec (.sramEccError (.memLine pkg line)) s = .next t ∧ t.linePoisoned pkg line = true ∧
      (∀ a, t.memByte a = s.memByte a) ∧ t.contexts = s.contexts) ∧
    (∀ core buf line, ∃ t, exec (.sramEccError (.bufLine core buf line)) s = .next t ∧
      SMap.find (t.core core).lines (buf * 2 ^ 16 + line) = some { (s.core core).line (buf * 2 ^ 16 + line) with poison := true } ∧
      t.contexts = s.contexts) ∧
    (∀ core e, ∃ t, exec (.sramEccError (.frost core e)) s = .next t ∧ ((t.core core).frost.at_ e).2.extractLsb' 124 4 = 15 ∧
      ((t.core core).frost.at_ e).2.extractLsb' 96 28 = ((s.core core).frost.at_ e).2.extractLsb' 96 28) ∧
    (∀ k c, s.ctx k = some c →
      (∀ r, ∃ t c', exec (.sramEccError (.vreg k r)) s = .next t ∧ t.ctx k = some c' ∧
        c'.be.vec.poison.getLsbD (r % 1024) = true ∧ c'.be.vec.regs = c.be.vec.regs ∧ c'.thread = c.thread) ∧
      (∀ q, ∃ t c', exec (.sramEccError (.pred k q)) s = .next t ∧ t.ctx k = some c' ∧
        c'.be.vec.qpoison.getLsbD (q % 8) = true ∧ c'.be.vec.preds = c.be.vec.preds ∧ c'.thread = c.thread) ∧
      (∀ l, ∃ t c', exec (.sramEccError (.latch k l)) s = .next t ∧ t.ctx k = some c' ∧
        c'.be.vec.lpoison.getLsbD (l % 4) = true ∧ c'.be.vec.latches = c.be.vec.latches ∧ c'.thread = c.thread) ∧
      (∀ slot, ∃ t c', exec (.sramEccError (.stream k 0 slot)) s = .next t ∧ t.ctx k = some c' ∧
        (∃ b, SMap.find c'.be.sa.slots slot = some b ∧ b.poison = true) ∧ c'.be.sa.produced = c.be.sa.produced ∧ c'.be.sb = c.be.sb) ∧
      (∀ r, r % 64 ≠ 0 → ∃ t c', exec (.sramEccError (.sreg k r)) s = .next t ∧ t.ctx k = some c' ∧
        c'.thread.regPoison (BitVec.ofNat 6 r) = true ∧ c'.thread.regs = c.thread.regs ∧ c'.thread.pc = c.thread.pc ∧ c'.be = c.be) ∧
      (∀ i, ∃ t c', exec (.sramEccError (.composer k i)) s = .next t ∧ t.ctx k = some c' ∧
        c'.thread.cpoison.getLsbD (i % 7) = true ∧ c'.thread.composer = c.thread.composer ∧ c'.thread.pc = c.thread.pc ∧ c'.be = c.be) ∧
      (∀ (n : Nat) e, c.ord.pbuf[n]? = some e → ∃ t c', exec (.sramEccError (.phaseEntry k n)) s = .next t ∧ t.ctx k = some c' ∧
        c'.ord.pbuf[n]? = some { e with poison := true } ∧ c'.ord.pbuf.length = c.ord.pbuf.length ∧ c'.thread = c.thread ∧ c'.be = c.be) ∧
      (∀ (n : Nat) l, c.fl.landings[n]? = some l → ∃ t c', exec (.sramEccError (.landing k n)) s = .next t ∧ t.ctx k = some c' ∧
        c'.fl.landings[n]? = some { l with poison := true } ∧ c'.fl.landings.length = c.fl.landings.length ∧ c'.thread = c.thread ∧
        c'.be = c.be) ∧
      (c.status = .resident → c.sch.freeze = none → ∃ t c' f, exec (.sramEccError (.context k)) s = .next t ∧
        t.ctx k = some c' ∧ c'.sch.freeze = some f ∧ f.fatal = true ∧ f.cause = { cls := 2, code := 3, sub := 0, tval := 0 })) ∧
    (∀ r coord comm inst index line, s.runs = [r] → r.coord = coord → r.comm = comm → r.inst = inst → ∃ t r',
      exec (.sramEccError (.chunk coord comm inst index line)) s = .next t ∧ t.runs = [r'] ∧ r'.writtenTo = r.writtenTo ∧
      ∀ (i : Nat) u q x bytes, r.chunks[i]? = some (u, q, x, bytes) → ∃ bytes', r'.chunks[i]? = some (u, q, x, bytes') ∧
        bytes'.map (·.1) = bytes.map (·.1) ∧ ∀ j, j < bytes.length →
          (bytes'.getD j (0, false)).2 = ((bytes.getD j (0, false)).2 || decide (i = index ∧ j / 64 = line))) ∧
    (∀ p unit n limit told, SMap.getD (s.errorsOf p) unit (0, 0, false) = (n, limit, told) →
      (n + 1 ≤ limit ∨ told = true → exec (.sramEccError (.corrected p unit)) s =
        .next (s.setErrors p (SMap.put (s.errorsOf p) unit (n + 1, limit, told)))) ∧
      (limit < n + 1 → told = false → exec (.sramEccError (.corrected p unit)) s =
          .next ((s.setErrors p (SMap.put (s.errorsOf p) unit (n + 1, limit, true))).post p 10 unit (BitVec.ofNat 64 (n + 1)) 0) ∧
        (queueConfigured (s.faultPage p).eqbase = true → (s.serac (portSerac p)).fwmode.getLsbD 5 = true → ∃ t b,
          exec (.sramEccError (.corrected p unit)) s = .next t ∧
          (t.serac (portSerac p)).hostInbox = (s.serac (portSerac p)).hostInbox ++ [b]))) ∧
    (∀ update, let f := d.updated update
      let g := f.countBoot.2
      ∃ t, exec (.resetBoot ⟨serac, update⟩) s = .next t ∧ (t.serac serac).bootCount = f.countBoot.1 ∧ (t.serac serac).flash = g ∧
        (t.serac serac).tseq = 0 ∧ (t.serac serac).entries = [] ∧ t.mem = s.mem ∧ (∀ k, k ≠ serac → t.serac k = s.serac k) ∧
        (∀ key, (∀ j, j < 4 → key ≠ managementKey serac j) → t.ctx key = s.ctx key) ∧
        (∀ slot, g.bootSlot = some slot → (t.serac serac).boot = .booted slot ∧ (t.serac serac).measure = g.measures slot ∧
          (∀ j, j < 4 → ∃ c, t.ctx (managementKey serac j) = some c ∧ c.management = true ∧ c.status = .resident ∧
            c.thread.pc = Config.imageEntry j ∧ c.coreKey = managementCore (4 * serac) j) ∧
          ∀ n, n < 4 → (t.die (4 * serac + n)).retiredChannels = g.channels (4 * serac + n) ∧
            ∀ k ∈ dieCores (4 * serac + n), (t.core k).retired = (g.disabled (4 * serac + n)).contains k) ∧
        (g.bootSlot = none → (t.serac serac).boot = .recovery ∧ ∀ j, j < 4 → t.ctx (managementKey serac j) = none)) ∧
    (∀ slot nonce, d.boot = .booted slot → exec (.spdmMeasurement serac nonce) s = .next (s.setSerac serac { d with
      spdmAnswer := d.measure.flatten ++ nonce ++ Config.slhSign (d.measure.flatten ++ nonce) })) ∧
    (∀ slot (tenant : BitVec 16) key, d.boot = .booted slot → exec (.dumpKeyDelivery serac tenant key) s = .next (s.setSerac serac
      { d with
        dumpKeys := SMap.put d.dumpKeys tenant.toNat key
        mgmtInbox := d.mgmtInbox ++ [leBytes 2 tenant.toNat ++ Config.wrapKey key] })) ∧
    (∀ nonce (tenant : BitVec 16) key, d.boot = .inReset ∨ d.boot = .recovery → exec (.spdmMeasurement serac nonce) s = .next s ∧
      exec (.dumpKeyDelivery serac tenant key) s = .next s) ∧
    (∀ pkg torn, s.MemWf → ∃ t, exec (.powerLoss pkg torn) s = .next t ∧
      (∀ a, t.memByte a = if a / 2 ^ 52 = pkg then 0 else s.memByte a) ∧
      (∀ p ∈ t.contexts, p.2.pkg ≠ pkg) ∧ (∀ p ∈ s.contexts, p.2.pkg ≠ pkg → p ∈ t.contexts) ∧
      (∀ k, (torn = none → k / 2 = pkg → t.serac k = { Serac.reset with flash := (s.serac k).flash }) ∧
        (k / 2 ≠ pkg → t.serac k = s.serac k)) ∧
      (serac / 2 = pkg → SMap.find s.seracs serac = some d →
        (torn = some (.bootCount serac) → (t.serac serac).flash = d.flash.setBoot d.flash.countsFirst FlashCopy.blank) ∧
        (∀ b n part, torn = some (.slot serac n part) → d.boot = .booted b →
          (t.serac serac).flash = d.flash.setSlot (d.flash.spareSlot b) part) ∧
        (∀ b img, torn = some (.marker serac img) → d.boot = .booted b → (t.serac serac).flash = d.flash.update b img true) ∧
        (∀ b img, torn = some (.updated serac img) → d.boot = .booted b → (t.serac serac).flash = d.flash.update b img false))) ∧
    (∀ pkg request slot, (s.serac (2 * pkg)).boot = .booted slot →
      let told := s.setSerac (2 * pkg) { s.serac (2 * pkg) with
        mgmtInbox := (s.serac (2 * pkg)).mgmtInbox ++ [request],
        portAnswers := (s.serac (2 * pkg)).portAnswers ++ [Config.redfishAnswer s.freeCount request] }
      (Config.redfishUpdate s.freeCount request = none → exec (.redfishRequest pkg request) s = .next told) ∧
      (∀ u, Config.redfishUpdate s.freeCount request = some u →
        let k := 2 * pkg + if u.second then 1 else 0
        exec (.redfishRequest pkg request) s = .next (told.setSerac k { told.serac k with flash := (told.serac k).updated (some u.image) }))) ∧
    (∀ pkg request, (s.serac (2 * pkg)).boot = .recovery → ∃ t, exec (.redfishRequest pkg request) s = .next t ∧
      ∀ k, t.serac k = s.serac k)) ∧
  (∀ (d : Serac) (img : List Byte) b, d.boot = .booted b → d.updated (some img) = d.flash.update b img false) ∧
  (∀ d : Serac, d.updated none = d.flash) ∧
  ∀ f : Flash,
    let valid (c : FlashCopy) : Bool := c.valid countMagic
    let n0 := if valid f.boot0 then f.boot0.value.toNat else 0
    let n1 := if valid f.boot1 then f.boot1.value.toNat else 0
    let n := BitVec.ofNat 32 (max n0 n1 + 1)
    let copy := FlashCopy.make countMagic n 0
    (f.countBoot.1 = n ∧ valid copy = true ∧ copy.value = n) ∧
    (valid f.boot0 = false ∨ valid f.boot1 = true ∧ n0 ≤ n1 → f.countBoot.2 = { f with boot0 := copy }) ∧
    (valid f.boot0 = true → valid f.boot1 = false ∨ n1 < n0 → f.countBoot.2 = { f with boot1 := copy }) ∧
    (∀ c, valid f.boot0 = true ∨ valid f.boot1 = true →
      valid (f.setBoot f.countsFirst c).boot0 = true ∨ valid (f.setBoot f.countsFirst c).boot1 = true) ∧
    (∀ m, f.kept = some m →
      let slot := m.slot.toNat
      m.valid markerMagic = true ∧ (m = f.marker0 ∨ m = f.marker1) ∧
      (∀ c ∈ [f.marker0, f.marker1], c.valid markerMagic = true → c.value.toNat ≤ m.value.toNat) ∧
      (slotVerifies (f.slot slot) = true → f.bootSlot = some slot) ∧
      (slotVerifies (f.slot slot) = false → slotVerifies (f.slot (1 - slot)) = true → f.bootSlot = some (1 - slot)) ∧
      (slotVerifies (f.slot slot) = false → slotVerifies (f.slot (1 - slot)) = false → f.bootSlot = none) ∧
      ∀ b img torn, let r := f.update b img torn
        r.slot (1 - slot) = img.take slotSize ∧ r.slot slot = f.slot slot ∧ (m = r.marker0 ∨ m = r.marker1) ∧
        (slotVerifies (img.take slotSize) = false → r.marker0 = f.marker0 ∧ r.marker1 = f.marker1) ∧
        (slotVerifies (img.take slotSize) = true → torn = false → ∃ c, (c = r.marker0 ∨ c = r.marker1) ∧ c.valid markerMagic = true ∧
          c.value = m.value + 1 ∧ c.slot.toNat = 1 - slot)) ∧
    (f.kept = none →
      (slotVerifies f.slotA = true → slotVerifies f.slotB = true →
        f.bootSlot = some (if imageVersion f.slotA < imageVersion f.slotB then 1 else 0)) ∧
      (slotVerifies f.slotA = true → slotVerifies f.slotB = false → f.bootSlot = some 0) ∧
      (slotVerifies f.slotA = false → slotVerifies f.slotB = true → f.bootSlot = some 1) ∧
      (slotVerifies f.slotA = false → slotVerifies f.slotB = false → f.bootSlot = none)) ∧
    ∀ pa (data : List Byte), data ≠ [] →
      (0x10000 ≤ pa → pa + data.length ≤ 0x10000 + slotSize → let r := f.recover pa data
        (∀ i, i < data.length → r.slotA.getD (pa - 0x10000 + i) 0 = data.getD i 0) ∧
        (∀ j, j < slotSize → j < pa - 0x10000 ∨ pa - 0x10000 + data.length ≤ j → r.slotA.getD j 0 = f.slotA.getD j 0) ∧
        r = { f with slotA := r.slotA }) ∧
      (pa < 0x10000 ∨ 0x2000000 + slotSize ≤ pa → f.recover pa data = f)


end
end

