-- ==== Sys2Proof/Laws/Bits.lean ====
section
/-! SUPPORT. Fields of words put together and taken apart again; the words of each slot read back. -/

namespace Sys2Proof.Laws

theorem ext_high {n m : Nat} (x : BitVec n) (y : BitVec m) (s k : Nat) (h : m ≤ s) :
    (x ++ y).extractLsb' s k = x.extractLsb' (s - m) k := by
  apply BitVec.eq_of_getLsbD_eq
  intro i hi
  simp only [BitVec.getLsbD_extractLsb', BitVec.getLsbD_append, hi, decide_true, Bool.true_and]
  rw [if_neg (by omega), show s - m + i = s + i - m by omega]

theorem ext_low {n m : Nat} (x : BitVec n) (y : BitVec m) (s k : Nat) (h : s + k ≤ m) :
    (x ++ y).extractLsb' s k = y.extractLsb' s k := by
  apply BitVec.eq_of_getLsbD_eq
  intro i hi
  simp only [BitVec.getLsbD_extractLsb', BitVec.getLsbD_append, hi, decide_true, Bool.true_and]
  rw [if_pos (by omega)]

theorem ext_all {n : Nat} (x : BitVec n) : x.extractLsb' 0 n = x := by
  apply BitVec.eq_of_getLsbD_eq
  intro i hi
  simp [hi]

theorem VWord_op (op : BitVec 8) (x : VWord) : (VWord.toWord op x).extractLsb' 0 8 = op := by
  unfold VWord.toWord; rw [ext_low _ _ _ _ (by decide)]; exact ext_all _

theorem VWord_vd (op : BitVec 8) (x : VWord) : (VWord.toWord op x).extractLsb' 8 10 = x.vd := by
  unfold VWord.toWord; rw [ext_high _ _ _ _ (by decide), ext_low _ _ _ _ (by decide)]; exact ext_all _

theorem VWord_va (op : BitVec 8) (x : VWord) : (VWord.toWord op x).extractLsb' 18 10 = x.va := by
  unfold VWord.toWord; rw [ext_high _ _ _ _ (by decide), ext_high _ _ _ _ (by decide), ext_low _ _ _ _ (by decide)]; exact ext_all _

theorem VWord_vb (op : BitVec 8) (x : VWord) : (VWord.toWord op x).extractLsb' 28 10 = x.vb := by
  unfold VWord.toWord; rw [ext_high _ _ _ _ (by decide), ext_high _ _ _ _ (by decide), ext_high _ _ _ _ (by decide), ext_low _ _ _ _ (by decide)]; exact ext_all _

theorem VWord_vc (op : BitVec 8) (x : VWord) : (VWord.toWord op x).extractLsb' 38 10 = x.vc := by
  unfold VWord.toWord; rw [ext_high _ _ _ _ (by decide), ext_high _ _ _ _ (by decide), ext_high _ _ _ _ (by decide), ext_high _ _ _ _ (by decide), ext_low _ _ _ _ (by decide)]; exact ext_all _

theorem VWord_q (op : BitVec 8) (x : VWord) : (VWord.toWord op x).extractLsb' 48 3 = x.q := by
  unfold VWord.toWord; rw [ext_high _ _ _ _ (by decide), ext_high _ _ _ _ (by decide), ext_high _ _ _ _ (by decide), ext_high _ _ _ _ (by decide), ext_high _ _ _ _ (by decide), ext_low _ _ _ _ (by decide)]; exact ext_all _

theorem VWord_ha (op : BitVec 8) (x : VWord) : (VWord.toWord op x).extractLsb' 51 1 = x.ha := by
  unfold VWord.toWord; rw [ext_high _ _ _ _ (by decide), ext_high _ _ _ _ (by decide), ext_high _ _ _ _ (by decide), ext_high _ _ _ _ (by decide), ext_high _ _ _ _ (by decide), ext_high _ _ _ _ (by decide), ext_low _ _ _ _ (by decide)]; exact ext_all _

theorem VWord_hb (op : BitVec 8) (x : VWord) : (VWord.toWord op x).extractLsb' 52 1 = x.hb := by
  unfold VWord.toWord; rw [ext_high _ _ _ _ (by decide), ext_high _ _ _ _ (by decide), ext_high _ _ _ _ (by decide), ext_high _ _ _ _ (by decide), ext_high _ _ _ _ (by decide), ext_high _ _ _ _ (by decide), ext_high _ _ _ _ (by decide), ext_low _ _ _ _ (by decide)]; exact ext_all _

theorem VWord_ty (op : BitVec 8) (x : VWord) : (VWord.toWord op x).extractLsb' 53 4 = x.ty := by
  unfold VWord.toWord; rw [ext_high _ _ _ _ (by decide), ext_high _ _ _ _ (by decide), ext_high _ _ _ _ (by decide), ext_high _ _ _ _ (by decide), ext_high _ _ _ _ (by decide), ext_high _ _ _ _ (by decide), ext_high _ _ _ _ (by decide), ext_high _ _ _ _ (by decide), ext_low _ _ _ _ (by decide)]; exact ext_all _

theorem VWord_rm (op : BitVec 8) (x : VWord) : (VWord.toWord op x).extractLsb' 57 2 = x.rm := by
  unfold VWord.toWord; rw [ext_high _ _ _ _ (by decide), ext_high _ _ _ _ (by decide), ext_high _ _ _ _ (by decide), ext_high _ _ _ _ (by decide), ext_high _ _ _ _ (by decide), ext_high _ _ _ _ (by decide), ext_high _ _ _ _ (by decide), ext_high _ _ _ _ (by decide), ext_high _ _ _ _ (by decide), ext_low _ _ _ _ (by decide)]; exact ext_all _

theorem VWord_sat (op : BitVec 8) (x : VWord) : (VWord.toWord op x).extractLsb' 59 1 = x.sat := by
  unfold VWord.toWord; rw [ext_high _ _ _ _ (by decide), ext_high _ _ _ _ (by decide), ext_high _ _ _ _ (by decide), ext_high _ _ _ _ (by decide), ext_high _ _ _ _ (by decide), ext_high _ _ _ _ (by decide), ext_high _ _ _ _ (by decide), ext_high _ _ _ _ (by decide), ext_high _ _ _ _ (by decide), ext_high _ _ _ _ (by decide), ext_low _ _ _ _ (by decide)]; exact ext_all _

theorem VWord_high (op : BitVec 8) (x : VWord) : (VWord.toWord op x).extractLsb' 60 4 = 0#4 := by
  unfold VWord.toWord; rw [ext_high _ _ _ _ (by decide), ext_high _ _ _ _ (by decide), ext_high _ _ _ _ (by decide), ext_high _ _ _ _ (by decide), ext_high _ _ _ _ (by decide), ext_high _ _ _ _ (by decide), ext_high _ _ _ _ (by decide), ext_high _ _ _ _ (by decide), ext_high _ _ _ _ (by decide), ext_high _ _ _ _ (by decide), ext_high _ _ _ _ (by decide)]; exact ext_all _

theorem VWord_ofWord (op : BitVec 8) (x : VWord) : VWord.ofWord (VWord.toWord op x) = x := by
  unfold VWord.ofWord
  rw [VWord_vd, VWord_va, VWord_vb, VWord_vc, VWord_q, VWord_ha, VWord_hb, VWord_ty, VWord_rm, VWord_sat]

theorem MemBuf_op (op : BitVec 6) (x : MemBuf) : (MemBuf.toWord op x).extractLsb' 0 6 = op := by
  unfold MemBuf.toWord; rw [ext_low _ _ _ _ (by decide)]; exact ext_all _

theorem MemBuf_v (op : BitVec 6) (x : MemBuf) : (MemBuf.toWord op x).extractLsb' 6 10 = x.v := by
  unfold MemBuf.toWord; rw [ext_high _ _ _ _ (by decide), ext_low _ _ _ _ (by decide)]; exact ext_all _

theorem MemBuf_buf (op : BitVec 6) (x : MemBuf) : (MemBuf.toWord op x).extractLsb' 16 2 = x.buf := by
  unfold MemBuf.toWord; rw [ext_high _ _ _ _ (by decide), ext_high _ _ _ _ (by decide), ext_low _ _ _ _ (by decide)]; exact ext_all _

theorem MemBuf_tile (op : BitVec 6) (x : MemBuf) : (MemBuf.toWord op x).extractLsb' 18 6 = x.tile := by
  unfold MemBuf.toWord; rw [ext_high _ _ _ _ (by decide), ext_high _ _ _ _ (by decide), ext_high _ _ _ _ (by decide), ext_low _ _ _ _ (by decide)]; exact ext_all _

theorem MemBuf_row (op : BitVec 6) (x : MemBuf) : (MemBuf.toWord op x).extractLsb' 24 6 = x.row := by
  unfold MemBuf.toWord; rw [ext_high _ _ _ _ (by decide), ext_high _ _ _ _ (by decide), ext_high _ _ _ _ (by decide), ext_high _ _ _ _ (by decide), ext_low _ _ _ _ (by decide)]; exact ext_all _

theorem MemBuf_part (op : BitVec 6) (x : MemBuf) : (MemBuf.toWord op x).extractLsb' 30 2 = x.part := by
  unfold MemBuf.toWord; rw [ext_high _ _ _ _ (by decide), ext_high _ _ _ _ (by decide), ext_high _ _ _ _ (by decide), ext_high _ _ _ _ (by decide), ext_high _ _ _ _ (by decide), ext_low _ _ _ _ (by decide)]; exact ext_all _

theorem MemBuf_high (op : BitVec 6) (x : MemBuf) : (MemBuf.toWord op x).extractLsb' 32 32 = 0#32 := by
  unfold MemBuf.toWord; rw [ext_high _ _ _ _ (by decide), ext_high _ _ _ _ (by decide), ext_high _ _ _ _ (by decide), ext_high _ _ _ _ (by decide), ext_high _ _ _ _ (by decide), ext_high _ _ _ _ (by decide)]; exact ext_all _

theorem MemBuf_ofWord (op : BitVec 6) (x : MemBuf) : MemBuf.ofWord (MemBuf.toWord op x) = x := by
  unfold MemBuf.ofWord
  rw [MemBuf_v, MemBuf_buf, MemBuf_tile, MemBuf_row, MemBuf_part]

theorem MemGlob_op (op : BitVec 6) (x : MemGlob) : (MemGlob.toWord op x).extractLsb' 0 6 = op := by
  unfold MemGlob.toWord; rw [ext_low _ _ _ _ (by decide)]; exact ext_all _

theorem MemGlob_v (op : BitVec 6) (x : MemGlob) : (MemGlob.toWord op x).extractLsb' 6 10 = x.v := by
  unfold MemGlob.toWord; rw [ext_high _ _ _ _ (by decide), ext_low _ _ _ _ (by decide)]; exact ext_all _

theorem MemGlob_z (op : BitVec 6) (x : MemGlob) : (MemGlob.toWord op x).extractLsb' 16 4 = x.z := by
  unfold MemGlob.toWord; rw [ext_high _ _ _ _ (by decide), ext_high _ _ _ _ (by decide), ext_low _ _ _ _ (by decide)]; exact ext_all _

theorem MemGlob_arr (op : BitVec 6) (x : MemGlob) : (MemGlob.toWord op x).extractLsb' 20 8 = x.arr := by
  unfold MemGlob.toWord; rw [ext_high _ _ _ _ (by decide), ext_high _ _ _ _ (by decide), ext_high _ _ _ _ (by decide), ext_low _ _ _ _ (by decide)]; exact ext_all _

theorem MemGlob_off (op : BitVec 6) (x : MemGlob) : (MemGlob.toWord op x).extractLsb' 28 32 = x.off := by
  unfold MemGlob.toWord; rw [ext_high _ _ _ _ (by decide), ext_high _ _ _ _ (by decide), ext_high _ _ _ _ (by decide), ext_high _ _ _ _ (by decide), ext_low _ _ _ _ (by decide)]; exact ext_all _

theorem MemGlob_high (op : BitVec 6) (x : MemGlob) : (MemGlob.toWord op x).extractLsb' 60 4 = 0#4 := by
  unfold MemGlob.toWord; rw [ext_high _ _ _ _ (by decide), ext_high _ _ _ _ (by decide), ext_high _ _ _ _ (by decide), ext_high _ _ _ _ (by decide), ext_high _ _ _ _ (by decide)]; exact ext_all _

theorem MemGlob_ofWord (op : BitVec 6) (x : MemGlob) : MemGlob.ofWord (MemGlob.toWord op x) = x := by
  unfold MemGlob.ofWord
  rw [MemGlob_v, MemGlob_z, MemGlob_arr, MemGlob_off]

theorem MemGath_op (op : BitVec 6) (x : MemGath) : (MemGath.toWord op x).extractLsb' 0 6 = op := by
  unfold MemGath.toWord; rw [ext_low _ _ _ _ (by decide)]; exact ext_all _

theorem MemGath_v (op : BitVec 6) (x : MemGath) : (MemGath.toWord op x).extractLsb' 6 10 = x.v := by
  unfold MemGath.toWord; rw [ext_high _ _ _ _ (by decide), ext_low _ _ _ _ (by decide)]; exact ext_all _

theorem MemGath_vb (op : BitVec 6) (x : MemGath) : (MemGath.toWord op x).extractLsb' 16 10 = x.vb := by
  unfold MemGath.toWord; rw [ext_high _ _ _ _ (by decide), ext_high _ _ _ _ (by decide), ext_low _ _ _ _ (by decide)]; exact ext_all _

theorem MemGath_z (op : BitVec 6) (x : MemGath) : (MemGath.toWord op x).extractLsb' 26 4 = x.z := by
  unfold MemGath.toWord; rw [ext_high _ _ _ _ (by decide), ext_high _ _ _ _ (by decide), ext_high _ _ _ _ (by decide), ext_low _ _ _ _ (by decide)]; exact ext_all _

theorem MemGath_arr (op : BitVec 6) (x : MemGath) : (MemGath.toWord op x).extractLsb' 30 8 = x.arr := by
  unfold MemGath.toWord; rw [ext_high _ _ _ _ (by decide), ext_high _ _ _ _ (by decide), ext_high _ _ _ _ (by decide), ext_high _ _ _ _ (by decide), ext_low _ _ _ _ (by decide)]; exact ext_all _

theorem MemGath_ty (op : BitVec 6) (x : MemGath) : (MemGath.toWord op x).extractLsb' 38 4 = x.ty := by
  unfold MemGath.toWord; rw [ext_high _ _ _ _ (by decide), ext_high _ _ _ _ (by decide), ext_high _ _ _ _ (by decide), ext_high _ _ _ _ (by decide), ext_high _ _ _ _ (by decide), ext_low _ _ _ _ (by decide)]; exact ext_all _

theorem MemGath_high (op : BitVec 6) (x : MemGath) : (MemGath.toWord op x).extractLsb' 42 22 = 0#22 := by
  unfold MemGath.toWord; rw [ext_high _ _ _ _ (by decide), ext_high _ _ _ _ (by decide), ext_high _ _ _ _ (by decide), ext_high _ _ _ _ (by decide), ext_high _ _ _ _ (by decide), ext_high _ _ _ _ (by decide)]; exact ext_all _

theorem MemGath_ofWord (op : BitVec 6) (x : MemGath) : MemGath.ofWord (MemGath.toWord op x) = x := by
  unfold MemGath.ofWord
  rw [MemGath_v, MemGath_vb, MemGath_z, MemGath_arr, MemGath_ty]

theorem CpyWord_op (op : BitVec 6) (x : CpyWord) : (CpyWord.toWord op x).extractLsb' 0 6 = op := by
  unfold CpyWord.toWord; rw [ext_low _ _ _ _ (by decide)]; exact ext_all _

theorem CpyWord_ch (op : BitVec 6) (x : CpyWord) : (CpyWord.toWord op x).extractLsb' 6 2 = x.ch := by
  unfold CpyWord.toWord; rw [ext_high _ _ _ _ (by decide), ext_low _ _ _ _ (by decide)]; exact ext_all _

theorem CpyWord_tok (op : BitVec 6) (x : CpyWord) : (CpyWord.toWord op x).extractLsb' 8 3 = x.tok := by
  unfold CpyWord.toWord; rw [ext_high _ _ _ _ (by decide), ext_high _ _ _ _ (by decide), ext_low _ _ _ _ (by decide)]; exact ext_all _

theorem CpyWord_nest (op : BitVec 6) (x : CpyWord) : (CpyWord.toWord op x).extractLsb' 11 4 = x.nest := by
  unfold CpyWord.toWord; rw [ext_high _ _ _ _ (by decide), ext_high _ _ _ _ (by decide), ext_high _ _ _ _ (by decide), ext_low _ _ _ _ (by decide)]; exact ext_all _

theorem CpyWord_tile (op : BitVec 6) (x : CpyWord) : (CpyWord.toWord op x).extractLsb' 15 6 = x.tile := by
  unfold CpyWord.toWord; rw [ext_high _ _ _ _ (by decide), ext_high _ _ _ _ (by decide), ext_high _ _ _ _ (by decide), ext_high _ _ _ _ (by decide), ext_low _ _ _ _ (by decide)]; exact ext_all _

theorem CpyWord_bf (op : BitVec 6) (x : CpyWord) : (CpyWord.toWord op x).extractLsb' 21 1 = x.bf := by
  unfold CpyWord.toWord; rw [ext_high _ _ _ _ (by decide), ext_high _ _ _ _ (by decide), ext_high _ _ _ _ (by decide), ext_high _ _ _ _ (by decide), ext_high _ _ _ _ (by decide), ext_low _ _ _ _ (by decide)]; exact ext_all _

theorem CpyWord_ss (op : BitVec 6) (x : CpyWord) : (CpyWord.toWord op x).extractLsb' 22 1 = x.ss := by
  unfold CpyWord.toWord; rw [ext_high _ _ _ _ (by decide), ext_high _ _ _ _ (by decide), ext_high _ _ _ _ (by decide), ext_high _ _ _ _ (by decide), ext_high _ _ _ _ (by decide), ext_high _ _ _ _ (by decide), ext_low _ _ _ _ (by decide)]; exact ext_all _

theorem CpyWord_fmt (op : BitVec 6) (x : CpyWord) : (CpyWord.toWord op x).extractLsb' 23 4 = x.fmt := by
  unfold CpyWord.toWord; rw [ext_high _ _ _ _ (by decide), ext_high _ _ _ _ (by decide), ext_high _ _ _ _ (by decide), ext_high _ _ _ _ (by decide), ext_high _ _ _ _ (by decide), ext_high _ _ _ _ (by decide), ext_high _ _ _ _ (by decide), ext_low _ _ _ _ (by decide)]; exact ext_all _

theorem CpyWord_port (op : BitVec 6) (x : CpyWord) : (CpyWord.toWord op x).extractLsb' 27 2 = x.port := by
  unfold CpyWord.toWord; rw [ext_high _ _ _ _ (by decide), ext_high _ _ _ _ (by decide), ext_high _ _ _ _ (by decide), ext_high _ _ _ _ (by decide), ext_high _ _ _ _ (by decide), ext_high _ _ _ _ (by decide), ext_high _ _ _ _ (by decide), ext_high _ _ _ _ (by decide), ext_low _ _ _ _ (by decide)]; exact ext_all _

theorem CpyWord_high (op : BitVec 6) (x : CpyWord) : (CpyWord.toWord op x).extractLsb' 29 35 = 0#35 := by
  unfold CpyWord.toWord; rw [ext_high _ _ _ _ (by decide), ext_high _ _ _ _ (by decide), ext_high _ _ _ _ (by decide), ext_high _ _ _ _ (by decide), ext_high _ _ _ _ (by decide), ext_high _ _ _ _ (by decide), ext_high _ _ _ _ (by decide), ext_high _ _ _ _ (by decide), ext_high _ _ _ _ (by decide)]; exact ext_all _

theorem CpyWord_ofWord (op : BitVec 6) (x : CpyWord) : CpyWord.ofWord (CpyWord.toWord op x) = x := by
  unfold CpyWord.ofWord
  rw [CpyWord_ch, CpyWord_tok, CpyWord_nest, CpyWord_tile, CpyWord_bf, CpyWord_ss, CpyWord_fmt, CpyWord_port]

theorem SynWord_op (op : BitVec 6) (x : SynWord) : (SynWord.toWord op x).extractLsb' 0 6 = op := by
  unfold SynWord.toWord; rw [ext_low _ _ _ _ (by decide)]; exact ext_all _

theorem SynWord_vd (op : BitVec 6) (x : SynWord) : (SynWord.toWord op x).extractLsb' 6 10 = x.vd := by
  unfold SynWord.toWord; rw [ext_high _ _ _ _ (by decide), ext_low _ _ _ _ (by decide)]; exact ext_all _

theorem SynWord_vs (op : BitVec 6) (x : SynWord) : (SynWord.toWord op x).extractLsb' 16 10 = x.vs := by
  unfold SynWord.toWord; rw [ext_high _ _ _ _ (by decide), ext_high _ _ _ _ (by decide), ext_low _ _ _ _ (by decide)]; exact ext_all _

theorem SynWord_z (op : BitVec 6) (x : SynWord) : (SynWord.toWord op x).extractLsb' 26 4 = x.z := by
  unfold SynWord.toWord; rw [ext_high _ _ _ _ (by decide), ext_high _ _ _ _ (by decide), ext_high _ _ _ _ (by decide), ext_low _ _ _ _ (by decide)]; exact ext_all _

theorem SynWord_arr (op : BitVec 6) (x : SynWord) : (SynWord.toWord op x).extractLsb' 30 8 = x.arr := by
  unfold SynWord.toWord; rw [ext_high _ _ _ _ (by decide), ext_high _ _ _ _ (by decide), ext_high _ _ _ _ (by decide), ext_high _ _ _ _ (by decide), ext_low _ _ _ _ (by decide)]; exact ext_all _

theorem SynWord_ty (op : BitVec 6) (x : SynWord) : (SynWord.toWord op x).extractLsb' 38 4 = x.ty := by
  unfold SynWord.toWord; rw [ext_high _ _ _ _ (by decide), ext_high _ _ _ _ (by decide), ext_high _ _ _ _ (by decide), ext_high _ _ _ _ (by decide), ext_high _ _ _ _ (by decide), ext_low _ _ _ _ (by decide)]; exact ext_all _

theorem SynWord_sub (op : BitVec 6) (x : SynWord) : (SynWord.toWord op x).extractLsb' 42 4 = x.sub := by
  unfold SynWord.toWord; rw [ext_high _ _ _ _ (by decide), ext_high _ _ _ _ (by decide), ext_high _ _ _ _ (by decide), ext_high _ _ _ _ (by decide), ext_high _ _ _ _ (by decide), ext_high _ _ _ _ (by decide), ext_low _ _ _ _ (by decide)]; exact ext_all _

theorem SynWord_off (op : BitVec 6) (x : SynWord) : (SynWord.toWord op x).extractLsb' 46 18 = x.off := by
  unfold SynWord.toWord; rw [ext_high _ _ _ _ (by decide), ext_high _ _ _ _ (by decide), ext_high _ _ _ _ (by decide), ext_high _ _ _ _ (by decide), ext_high _ _ _ _ (by decide), ext_high _ _ _ _ (by decide), ext_high _ _ _ _ (by decide)]; exact ext_all _

theorem SynWord_ofWord (op : BitVec 6) (x : SynWord) : SynWord.ofWord (SynWord.toWord op x) = x := by
  unfold SynWord.ofWord
  rw [SynWord_vd, SynWord_vs, SynWord_z, SynWord_arr, SynWord_ty, SynWord_sub, SynWord_off]

theorem MtxWord_op (op : BitVec 6) (x : MtxWord) : (MtxWord.toWord op x).extractLsb' 0 6 = op := by
  unfold MtxWord.toWord; rw [ext_low _ _ _ _ (by decide)]; exact ext_all _

theorem MtxWord_c (op : BitVec 6) (x : MtxWord) : (MtxWord.toWord op x).extractLsb' 6 5 = x.c := by
  unfold MtxWord.toWord; rw [ext_high _ _ _ _ (by decide), ext_low _ _ _ _ (by decide)]; exact ext_all _

theorem MtxWord_k (op : BitVec 6) (x : MtxWord) : (MtxWord.toWord op x).extractLsb' 11 10 = x.k := by
  unfold MtxWord.toWord; rw [ext_high _ _ _ _ (by decide), ext_high _ _ _ _ (by decide), ext_low _ _ _ _ (by decide)]; exact ext_all _

theorem MtxWord_offa (op : BitVec 6) (x : MtxWord) : (MtxWord.toWord op x).extractLsb' 21 9 = x.offa := by
  unfold MtxWord.toWord; rw [ext_high _ _ _ _ (by decide), ext_high _ _ _ _ (by decide), ext_high _ _ _ _ (by decide), ext_low _ _ _ _ (by decide)]; exact ext_all _

theorem MtxWord_offb (op : BitVec 6) (x : MtxWord) : (MtxWord.toWord op x).extractLsb' 30 9 = x.offb := by
  unfold MtxWord.toWord; rw [ext_high _ _ _ _ (by decide), ext_high _ _ _ _ (by decide), ext_high _ _ _ _ (by decide), ext_high _ _ _ _ (by decide), ext_low _ _ _ _ (by decide)]; exact ext_all _

theorem MtxWord_zero (op : BitVec 6) (x : MtxWord) : (MtxWord.toWord op x).extractLsb' 39 1 = x.zero := by
  unfold MtxWord.toWord; rw [ext_high _ _ _ _ (by decide), ext_high _ _ _ _ (by decide), ext_high _ _ _ _ (by decide), ext_high _ _ _ _ (by decide), ext_high _ _ _ _ (by decide), ext_low _ _ _ _ (by decide)]; exact ext_all _

theorem MtxWord_f (op : BitVec 6) (x : MtxWord) : (MtxWord.toWord op x).extractLsb' 40 6 = x.f := by
  unfold MtxWord.toWord; rw [ext_high _ _ _ _ (by decide), ext_high _ _ _ _ (by decide), ext_high _ _ _ _ (by decide), ext_high _ _ _ _ (by decide), ext_high _ _ _ _ (by decide), ext_high _ _ _ _ (by decide), ext_low _ _ _ _ (by decide)]; exact ext_all _

theorem MtxWord_half (op : BitVec 6) (x : MtxWord) : (MtxWord.toWord op x).extractLsb' 46 1 = x.half := by
  unfold MtxWord.toWord; rw [ext_high _ _ _ _ (by decide), ext_high _ _ _ _ (by decide), ext_high _ _ _ _ (by decide), ext_high _ _ _ _ (by decide), ext_high _ _ _ _ (by decide), ext_high _ _ _ _ (by decide), ext_high _ _ _ _ (by decide), ext_low _ _ _ _ (by decide)]; exact ext_all _

theorem MtxWord_typ (op : BitVec 6) (x : MtxWord) : (MtxWord.toWord op x).extractLsb' 47 4 = x.typ := by
  unfold MtxWord.toWord; rw [ext_high _ _ _ _ (by decide), ext_high _ _ _ _ (by decide), ext_high _ _ _ _ (by decide), ext_high _ _ _ _ (by decide), ext_high _ _ _ _ (by decide), ext_high _ _ _ _ (by decide), ext_high _ _ _ _ (by decide), ext_high _ _ _ _ (by decide), ext_low _ _ _ _ (by decide)]; exact ext_all _

theorem MtxWord_rm (op : BitVec 6) (x : MtxWord) : (MtxWord.toWord op x).extractLsb' 51 2 = x.rm := by
  unfold MtxWord.toWord; rw [ext_high _ _ _ _ (by decide), ext_high _ _ _ _ (by decide), ext_high _ _ _ _ (by decide), ext_high _ _ _ _ (by decide), ext_high _ _ _ _ (by decide), ext_high _ _ _ _ (by decide), ext_high _ _ _ _ (by decide), ext_high _ _ _ _ (by decide), ext_high _ _ _ _ (by decide), ext_low _ _ _ _ (by decide)]; exact ext_all _

theorem MtxWord_sat (op : BitVec 6) (x : MtxWord) : (MtxWord.toWord op x).extractLsb' 53 1 = x.sat := by
  unfold MtxWord.toWord; rw [ext_high _ _ _ _ (by decide), ext_high _ _ _ _ (by decide), ext_high _ _ _ _ (by decide), ext_high _ _ _ _ (by decide), ext_high _ _ _ _ (by decide), ext_high _ _ _ _ (by decide), ext_high _ _ _ _ (by decide), ext_high _ _ _ _ (by decide), ext_high _ _ _ _ (by decide), ext_high _ _ _ _ (by decide), ext_low _ _ _ _ (by decide)]; exact ext_all _

theorem MtxWord_cs (op : BitVec 6) (x : MtxWord) : (MtxWord.toWord op x).extractLsb' 54 5 = x.cs := by
  unfold MtxWord.toWord; rw [ext_high _ _ _ _ (by decide), ext_high _ _ _ _ (by decide), ext_high _ _ _ _ (by decide), ext_high _ _ _ _ (by decide), ext_high _ _ _ _ (by decide), ext_high _ _ _ _ (by decide), ext_high _ _ _ _ (by decide), ext_high _ _ _ _ (by decide), ext_high _ _ _ _ (by decide), ext_high _ _ _ _ (by decide), ext_high _ _ _ _ (by decide), ext_low _ _ _ _ (by decide)]; exact ext_all _

theorem MtxWord_high (op : BitVec 6) (x : MtxWord) : (MtxWord.toWord op x).extractLsb' 59 5 = 0#5 := by
  unfold MtxWord.toWord; rw [ext_high _ _ _ _ (by decide), ext_high _ _ _ _ (by decide), ext_high _ _ _ _ (by decide), ext_high _ _ _ _ (by decide), ext_high _ _ _ _ (by decide), ext_high _ _ _ _ (by decide), ext_high _ _ _ _ (by decide), ext_high _ _ _ _ (by decide), ext_high _ _ _ _ (by decide), ext_high _ _ _ _ (by decide), ext_high _ _ _ _ (by decide), ext_high _ _ _ _ (by decide)]; exact ext_all _

theorem MtxWord_ofWord (op : BitVec 6) (x : MtxWord) : MtxWord.ofWord (MtxWord.toWord op x) = x := by
  unfold MtxWord.ofWord
  rw [MtxWord_c, MtxWord_k, MtxWord_offa, MtxWord_offb, MtxWord_zero, MtxWord_f, MtxWord_half, MtxWord_typ, MtxWord_rm, MtxWord_sat, MtxWord_cs]

/-! ### Slot words read back -/

theorem decodeV_toWord (p : Pipe) (x : VWord) (op : BitVec 8) (i : Instr) (hi : vInstr p x op.toNat = some i)
    (hc : (vCheck op.toNat x).isNone = true) : decodeV p (VWord.toWord op x) = .ok i := by
  simp only [decodeV, VWord_ofWord, VWord_op, hi, VWord_high]
  rw [if_neg (by decide), Option.isNone_iff_eq_none.mp hc]

theorem decodeSlot_x (x : VWord) (op : BitVec 8) (i : Instr) (h0 : op ≠ 0) (hi : vInstr .x x op.toNat = some i)
    (hc : (vCheck op.toNat x).isNone = true) : decodeSlot .vx (VWord.toWord op x) = .ok i := by
  simp only [decodeSlot, VWord_op]
  rw [if_neg h0]; exact decodeV_toWord _ _ _ _ hi hc

theorem decodeSlot_y (x : VWord) (op : BitVec 8) (i : Instr) (h0 : op ≠ 0) (hi : vInstr .y x op.toNat = some i)
    (hc : (vCheck op.toNat x).isNone = true) : decodeSlot .vy (VWord.toWord op x) = .ok i := by
  simp only [decodeSlot, VWord_op]
  rw [if_neg h0]; exact decodeV_toWord _ _ _ _ hi hc

theorem decodeSlot_cpy (x : CpyWord) (op : BitVec 6) (i : Instr) (h0 : op.toNat ≠ 0) (hi : cpyInstr x op.toNat = some i)
    (hc : (cpyCheck op.toNat x).isNone = true) : decodeSlot .cpy (CpyWord.toWord op x) = .ok i := by
  simp only [decodeSlot, decodeCpy, CpyWord_op, CpyWord_ofWord, CpyWord_high, hi]
  rw [if_neg h0]; unfold checked
  rw [if_neg (by decide), Option.isNone_iff_eq_none.mp hc]

theorem decodeSlot_syn (x : SynWord) (op : BitVec 6) (i : Instr) (h0 : op.toNat ≠ 0) (hi : synInstr x op.toNat = some i)
    (hc : (synCheck op.toNat x).isNone = true) : decodeSlot .syn (SynWord.toWord op x) = .ok i := by
  simp only [decodeSlot, decodeSyn, SynWord_op, SynWord_ofWord, hi]
  rw [if_neg h0]; unfold checked
  rw [if_neg (by decide), Option.isNone_iff_eq_none.mp hc]

theorem decodeSlot_mtx (x : MtxWord) (op : BitVec 6) (i : Instr) (h0 : op.toNat ≠ 0) (hi : mtxInstr x op.toNat = some i)
    (hc : (mtxCheck op.toNat x).isNone = true) : decodeSlot .mtx (MtxWord.toWord op x) = .ok i := by
  simp only [decodeSlot, decodeMtx, MtxWord_op, MtxWord_ofWord, MtxWord_high, hi]
  rw [if_neg h0]; unfold checked
  rw [if_neg (by decide), Option.isNone_iff_eq_none.mp hc]

theorem checked_ok (c : Option SlotErr) (i : Instr) (h : c.isNone = true) : checked false c i = .ok i := by
  unfold checked; rw [if_neg (by decide), Option.isNone_iff_eq_none.mp h]

end Sys2Proof.Laws
end

