-- ==== Sys2Proof/Laws/Exec.lean ====
section
/-! SUPPORT. The meaning each constructor names, as an equation of exec. -/

namespace Sys2Proof.Machine

@[simp] theorem exec_add (b : BitVec 6) (a : BitVec 6) (d : BitVec 6) (s : State) : exec (.add b a d) s = execAdd b a d s := rfl
@[simp] theorem exec_sub (b : BitVec 6) (a : BitVec 6) (d : BitVec 6) (s : State) : exec (.sub b a d) s = execSub b a d s := rfl
@[simp] theorem exec_mul (b : BitVec 6) (a : BitVec 6) (d : BitVec 6) (s : State) : exec (.mul b a d) s = execMul b a d s := rfl
@[simp] theorem exec_mulh (b : BitVec 6) (a : BitVec 6) (d : BitVec 6) (s : State) : exec (.mulh b a d) s = execMulh b a d s := rfl
@[simp] theorem exec_div (b : BitVec 6) (a : BitVec 6) (d : BitVec 6) (s : State) : exec (.div b a d) s = execDiv b a d s := rfl
@[simp] theorem exec_divu (b : BitVec 6) (a : BitVec 6) (d : BitVec 6) (s : State) : exec (.divu b a d) s = execDivu b a d s := rfl
@[simp] theorem exec_rem (b : BitVec 6) (a : BitVec 6) (d : BitVec 6) (s : State) : exec (.rem b a d) s = execRem b a d s := rfl
@[simp] theorem exec_remu (b : BitVec 6) (a : BitVec 6) (d : BitVec 6) (s : State) : exec (.remu b a d) s = execRemu b a d s := rfl
@[simp] theorem exec_and (b : BitVec 6) (a : BitVec 6) (d : BitVec 6) (s : State) : exec (.and b a d) s = execAnd b a d s := rfl
@[simp] theorem exec_or (b : BitVec 6) (a : BitVec 6) (d : BitVec 6) (s : State) : exec (.or b a d) s = execOr b a d s := rfl
@[simp] theorem exec_xor (b : BitVec 6) (a : BitVec 6) (d : BitVec 6) (s : State) : exec (.xor b a d) s = execXor b a d s := rfl
@[simp] theorem exec_shl (b : BitVec 6) (a : BitVec 6) (d : BitVec 6) (s : State) : exec (.shl b a d) s = execShl b a d s := rfl
@[simp] theorem exec_shr (b : BitVec 6) (a : BitVec 6) (d : BitVec 6) (s : State) : exec (.shr b a d) s = execShr b a d s := rfl
@[simp] theorem exec_sra (b : BitVec 6) (a : BitVec 6) (d : BitVec 6) (s : State) : exec (.sra b a d) s = execSra b a d s := rfl
@[simp] theorem exec_slt (b : BitVec 6) (a : BitVec 6) (d : BitVec 6) (s : State) : exec (.slt b a d) s = execSlt b a d s := rfl
@[simp] theorem exec_sltu (b : BitVec 6) (a : BitVec 6) (d : BitVec 6) (s : State) : exec (.sltu b a d) s = execSltu b a d s := rfl
@[simp] theorem exec_min (b : BitVec 6) (a : BitVec 6) (d : BitVec 6) (s : State) : exec (.min b a d) s = execMin b a d s := rfl
@[simp] theorem exec_max (b : BitVec 6) (a : BitVec 6) (d : BitVec 6) (s : State) : exec (.max b a d) s = execMax b a d s := rfl
@[simp] theorem exec_minu (b : BitVec 6) (a : BitVec 6) (d : BitVec 6) (s : State) : exec (.minu b a d) s = execMinu b a d s := rfl
@[simp] theorem exec_maxu (b : BitVec 6) (a : BitVec 6) (d : BitVec 6) (s : State) : exec (.maxu b a d) s = execMaxu b a d s := rfl
@[simp] theorem exec_clz (a : BitVec 6) (d : BitVec 6) (s : State) : exec (.clz a d) s = execClz a d s := rfl
@[simp] theorem exec_popc (a : BitVec 6) (d : BitVec 6) (s : State) : exec (.popc a d) s = execPopc a d s := rfl
@[simp] theorem exec_addi (imm : BitVec 13) (a : BitVec 6) (d : BitVec 6) (s : State) : exec (.addi imm a d) s = execAddi imm a d s := rfl
@[simp] theorem exec_andi (imm : BitVec 13) (a : BitVec 6) (d : BitVec 6) (s : State) : exec (.andi imm a d) s = execAndi imm a d s := rfl
@[simp] theorem exec_ori (imm : BitVec 13) (a : BitVec 6) (d : BitVec 6) (s : State) : exec (.ori imm a d) s = execOri imm a d s := rfl
@[simp] theorem exec_xori (imm : BitVec 13) (a : BitVec 6) (d : BitVec 6) (s : State) : exec (.xori imm a d) s = execXori imm a d s := rfl
@[simp] theorem exec_shli (imm : BitVec 6) (a : BitVec 6) (d : BitVec 6) (s : State) : exec (.shli imm a d) s = execShli imm a d s := rfl
@[simp] theorem exec_shri (imm : BitVec 6) (a : BitVec 6) (d : BitVec 6) (s : State) : exec (.shri imm a d) s = execShri imm a d s := rfl
@[simp] theorem exec_srai (imm : BitVec 6) (a : BitVec 6) (d : BitVec 6) (s : State) : exec (.srai imm a d) s = execSrai imm a d s := rfl
@[simp] theorem exec_slti (imm : BitVec 13) (a : BitVec 6) (d : BitVec 6) (s : State) : exec (.slti imm a d) s = execSlti imm a d s := rfl
@[simp] theorem exec_sltiu (imm : BitVec 13) (a : BitVec 6) (d : BitVec 6) (s : State) : exec (.sltiu imm a d) s = execSltiu imm a d s := rfl
@[simp] theorem exec_lui (imm : BitVec 19) (d : BitVec 6) (s : State) : exec (.lui imm d) s = execLui imm d s := rfl
@[simp] theorem exec_pcadd (imm : BitVec 19) (d : BitVec 6) (s : State) : exec (.pcadd imm d) s = execPcadd imm d s := rfl
@[simp] theorem exec_ldb (imm : BitVec 13) (a : BitVec 6) (d : BitVec 6) (s : State) : exec (.ldb imm a d) s = execLdb imm a d s := rfl
@[simp] theorem exec_ldh (imm : BitVec 13) (a : BitVec 6) (d : BitVec 6) (s : State) : exec (.ldh imm a d) s = execLdh imm a d s := rfl
@[simp] theorem exec_ldw (imm : BitVec 13) (a : BitVec 6) (d : BitVec 6) (s : State) : exec (.ldw imm a d) s = execLdw imm a d s := rfl
@[simp] theorem exec_ldd (imm : BitVec 13) (a : BitVec 6) (d : BitVec 6) (s : State) : exec (.ldd imm a d) s = execLdd imm a d s := rfl
@[simp] theorem exec_ldbu (imm : BitVec 13) (a : BitVec 6) (d : BitVec 6) (s : State) : exec (.ldbu imm a d) s = execLdbu imm a d s := rfl
@[simp] theorem exec_ldhu (imm : BitVec 13) (a : BitVec 6) (d : BitVec 6) (s : State) : exec (.ldhu imm a d) s = execLdhu imm a d s := rfl
@[simp] theorem exec_ldwu (imm : BitVec 13) (a : BitVec 6) (d : BitVec 6) (s : State) : exec (.ldwu imm a d) s = execLdwu imm a d s := rfl
@[simp] theorem exec_stb (imm : BitVec 13) (a : BitVec 6) (b : BitVec 6) (s : State) : exec (.stb imm a b) s = execStb imm a b s := rfl
@[simp] theorem exec_sth (imm : BitVec 13) (a : BitVec 6) (b : BitVec 6) (s : State) : exec (.sth imm a b) s = execSth imm a b s := rfl
@[simp] theorem exec_stw (imm : BitVec 13) (a : BitVec 6) (b : BitVec 6) (s : State) : exec (.stw imm a b) s = execStw imm a b s := rfl
@[simp] theorem exec_std (imm : BitVec 13) (a : BitVec 6) (b : BitVec 6) (s : State) : exec (.std imm a b) s = execStd imm a b s := rfl
@[simp] theorem exec_ldz (o : BitVec 15) (z : BitVec 4) (d : BitVec 6) (s : State) : exec (.ldz o z d) s = execLdz o z d s := rfl
@[simp] theorem exec_stz (o : BitVec 15) (z : BitVec 4) (b : BitVec 6) (s : State) : exec (.stz o z b) s = execStz o z b s := rfl
@[simp] theorem exec_beq (imm : BitVec 13) (b : BitVec 6) (a : BitVec 6) (s : State) : exec (.beq imm b a) s = execBeq imm b a s := rfl
@[simp] theorem exec_bne (imm : BitVec 13) (b : BitVec 6) (a : BitVec 6) (s : State) : exec (.bne imm b a) s = execBne imm b a s := rfl
@[simp] theorem exec_blt (imm : BitVec 13) (b : BitVec 6) (a : BitVec 6) (s : State) : exec (.blt imm b a) s = execBlt imm b a s := rfl
@[simp] theorem exec_bge (imm : BitVec 13) (b : BitVec 6) (a : BitVec 6) (s : State) : exec (.bge imm b a) s = execBge imm b a s := rfl
@[simp] theorem exec_bltu (imm : BitVec 13) (b : BitVec 6) (a : BitVec 6) (s : State) : exec (.bltu imm b a) s = execBltu imm b a s := rfl
@[simp] theorem exec_bgeu (imm : BitVec 13) (b : BitVec 6) (a : BitVec 6) (s : State) : exec (.bgeu imm b a) s = execBgeu imm b a s := rfl
@[simp] theorem exec_jal (imm : BitVec 19) (d : BitVec 6) (s : State) : exec (.jal imm d) s = execJal imm d s := rfl
@[simp] theorem exec_jalr (imm : BitVec 13) (a : BitVec 6) (d : BitVec 6) (s : State) : exec (.jalr imm a d) s = execJalr imm a d s := rfl
@[simp] theorem exec_loop (l : BitVec 13) (c : BitVec 6) (s : State) : exec (.loop l c) s = execLoop l c s := rfl
@[simp] theorem exec_loopi (n : BitVec 19) (l : BitVec 6) (s : State) : exec (.loopi n l) s = execLoopi n l s := rfl
@[simp] theorem exec_lbrk (s : State) : exec (.lbrk) s = execLbrk s := rfl
@[simp] theorem exec_lidx (k : BitVec 3) (d : BitVec 6) (s : State) : exec (.lidx k d) s = execLidx k d s := rfl
@[simp] theorem exec_bset (a : BitVec 6) (s1 : BitVec 3) (s : State) : exec (.bset a s1) s = execBset a s1 s := rfl
@[simp] theorem exec_bfld (a : BitVec 6) (w : BitVec 6) (p : BitVec 6) (s1 : BitVec 3) (s : State) : exec (.bfld a w p s1) s = execBfld a w p s1 s := rfl
@[simp] theorem exec_bldt (o : BitVec 13) (a : BitVec 6) (s1 : BitVec 3) (s : State) : exec (.bldt o a s1) s = execBldt o a s1 s := rfl
@[simp] theorem exec_bhdr (a : BitVec 6) (s : State) : exec (.bhdr a) s = execBhdr a s := rfl
@[simp] theorem exec_emit (c : BitVec 1) (h : BitVec 1) (s1 : BitVec 2) (p : BitVec 1) (r : BitVec 8) (m : BitVec 7) (s : State) : exec (.emit c h s1 p r m) s = execEmit c h s1 p r m s := rfl
@[simp] theorem exec_emitm (o : BitVec 13) (a : BitVec 6) (s : State) : exec (.emitm o a) s = execEmitm o a s := rfl
@[simp] theorem exec_nset (a : BitVec 6) (f : BitVec 5) (n : BitVec 4) (s : State) : exec (.nset a f n) s = execNset a f n s := rfl
@[simp] theorem exec_csrr (c : BitVec 12) (d : BitVec 6) (s : State) : exec (.csrr c d) s = execCsrr c d s := rfl
@[simp] theorem exec_csrw (c : BitVec 12) (a : BitVec 6) (d : BitVec 6) (s : State) : exec (.csrw c a d) s = execCsrw c a d s := rfl
@[simp] theorem exec_phaseg (s1 : BitVec 2) (s : State) : exec (.phaseg s1) s = execPhaseg s1 s := rfl
@[simp] theorem exec_gchk (a : BitVec 6) (s : State) : exec (.gchk a) s = execGchk a s := rfl
@[simp] theorem exec_spin (s : State) : exec (.spin) s = execSpin s := rfl
@[simp] theorem exec_yield (s : State) : exec (.yield) s = execYield s := rfl
@[simp] theorem exec_halt (s : State) : exec (.halt) s = execHalt s := rfl
@[simp] theorem exec_trapc (c : BitVec 13) (s : State) : exec (.trapc c) s = execTrapc c s := rfl
@[simp] theorem exec_xret (s : State) : exec (.xret) s = execXret s := rfl
@[simp] theorem exec_cpost (a : BitVec 6) (d : BitVec 6) (s : State) : exec (.cpost a d) s = execCpost a d s := rfl
@[simp] theorem exec_cqry (a : BitVec 6) (d : BitVec 6) (s : State) : exec (.cqry a d) s = execCqry a d s := rfl
@[simp] theorem exec_drainq (s : State) : exec (.drainq) s = execDrainq s := rfl
@[simp] theorem exec_illegalInstruction (w : BitVec 32) (s : State) : exec (.illegalInstruction w) s = execIllegalInstruction w s := rfl
@[simp] theorem exec_nop (slot : Slot) (s : State) : exec (.nop slot) s = execNop slot s := rfl
@[simp] theorem exec_fmtset (acc : BitVec 1) (b : BitVec 4) (a : BitVec 4) (s : State) : exec (.fmtset acc b a) s = execFmtset acc b a s := rfl
@[simp] theorem exec_qcfgSlack (slack : BitVec 5) (eng : BitVec 3) (s : State) : exec (.qcfgSlack slack eng) s = execQcfgSlack slack eng s := rfl
@[simp] theorem exec_qcfgPort (rv : BitVec 1) (slot : BitVec 2) (bank : BitVec 2) (s : State) : exec (.qcfgPort rv slot bank) s = execQcfgPort rv slot bank s := rfl
@[simp] theorem exec_stepReg (n : BitVec 24) (sel : BitVec 4) (slot : BitVec 3) (s : State) : exec (.stepReg n sel slot) s = execStepReg n sel slot s := rfl
@[simp] theorem exec_waitw (bytes : BitVec 15) (ch : BitVec 2) (s : State) : exec (.waitw bytes ch) s = execWaitw bytes ch s := rfl
@[simp] theorem exec_sadv (beats : BitVec 10) (sb : BitVec 1) (s : State) : exec (.sadv beats sb) s = execSadv beats sb s := rfl
@[simp] theorem exec_mwait (c : BitVec 5) (s : State) : exec (.mwait c) s = execMwait c s := rfl
@[simp] theorem exec_ckpt (s : State) : exec (.ckpt) s = execCkpt s := rfl
@[simp] theorem exec_prog (s : State) : exec (.prog) s = execProg s := rfl
@[simp] theorem exec_sync (s : State) : exec (.sync) s = execSync s := rfl
@[simp] theorem exec_vld (w : MemBuf) (s : State) : exec (.vld w) s = execVld w s := rfl
@[simp] theorem exec_vst (w : MemBuf) (s : State) : exec (.vst w) s = execVst w s := rfl
@[simp] theorem exec_vldg (w : MemGlob) (s : State) : exec (.vldg w) s = execVldg w s := rfl
@[simp] theorem exec_vldgs (w : MemGlob) (s : State) : exec (.vldgs w) s = execVldgs w s := rfl
@[simp] theorem exec_vstg (w : MemGlob) (s : State) : exec (.vstg w) s = execVstg w s := rfl
@[simp] theorem exec_vgth (w : MemGath) (s : State) : exec (.vgth w) s = execVgth w s := rfl
@[simp] theorem exec_vgths (w : MemGath) (s : State) : exec (.vgths w) s = execVgths w s := rfl
@[simp] theorem exec_vsct (w : MemGath) (s : State) : exec (.vsct w) s = execVsct w s := rfl
@[simp] theorem exec_phase (s : State) : exec (.phase) s = execPhase s := rfl
@[simp] theorem exec_pftch (w : MemGlob) (s : State) : exec (.pftch w) s = execPftch w s := rfl
@[simp] theorem exec_fill (w : CpyWord) (s : State) : exec (.fill w) s = execFill w s := rfl
@[simp] theorem exec_fills (w : CpyWord) (s : State) : exec (.fills w) s = execFills w s := rfl
@[simp] theorem exec_feed (w : CpyWord) (s : State) : exec (.feed w) s = execFeed w s := rfl
@[simp] theorem exec_feedt (w : CpyWord) (s : State) : exec (.feedt w) s = execFeedt w s := rfl
@[simp] theorem exec_drain (w : CpyWord) (s : State) : exec (.drain w) s = execDrain w s := rfl
@[simp] theorem exec_addw (w : CpyWord) (s : State) : exec (.addw w) s = execAddw w s := rfl
@[simp] theorem exec_rput (w : CpyWord) (s : State) : exec (.rput w) s = execRput w s := rfl
@[simp] theorem exec_cresm (w : CpyWord) (s : State) : exec (.cresm w) s = execCresm w s := rfl
@[simp] theorem exec_cclr (w : CpyWord) (s : State) : exec (.cclr w) s = execCclr w s := rfl
@[simp] theorem exec_aadd (w : SynWord) (s : State) : exec (.aadd w) s = execAadd w s := rfl
@[simp] theorem exec_amin (w : SynWord) (s : State) : exec (.amin w) s = execAmin w s := rfl
@[simp] theorem exec_amax (w : SynWord) (s : State) : exec (.amax w) s = execAmax w s := rfl
@[simp] theorem exec_aand (w : SynWord) (s : State) : exec (.aand w) s = execAand w s := rfl
@[simp] theorem exec_aor (w : SynWord) (s : State) : exec (.aor w) s = execAor w s := rfl
@[simp] theorem exec_axor (w : SynWord) (s : State) : exec (.axor w) s = execAxor w s := rfl
@[simp] theorem exec_aswp (w : SynWord) (s : State) : exec (.aswp w) s = execAswp w s := rfl
@[simp] theorem exec_acas (w : SynWord) (s : State) : exec (.acas w) s = execAcas w s := rfl
@[simp] theorem exec_red (w : SynWord) (s : State) : exec (.red w) s = execRed w s := rfl
@[simp] theorem exec_arv (w : SynWord) (s : State) : exec (.arv w) s = execArv w s := rfl
@[simp] theorem exec_arvd (w : SynWord) (s : State) : exec (.arvd w) s = execArvd w s := rfl
@[simp] theorem exec_bwait (w : SynWord) (s : State) : exec (.bwait w) s = execBwait w s := rfl
@[simp] theorem exec_btest (w : SynWord) (s : State) : exec (.btest w) s = execBtest w s := rfl
@[simp] theorem exec_sig (w : SynWord) (s : State) : exec (.sig w) s = execSig w s := rfl
@[simp] theorem exec_swait (w : SynWord) (s : State) : exec (.swait w) s = execSwait w s := rfl
@[simp] theorem exec_uli (w : SynWord) (s : State) : exec (.uli w) s = execUli w s := rfl
@[simp] theorem exec_sfence (w : SynWord) (s : State) : exec (.sfence w) s = execSfence w s := rfl
@[simp] theorem exec_brst (w : SynWord) (s : State) : exec (.brst w) s = execBrst w s := rfl
@[simp] theorem exec_mma (w : MtxWord) (s : State) : exec (.mma w) s = execMma w s := rfl
@[simp] theorem exec_mld (w : MtxWord) (s : State) : exec (.mld w) s = execMld w s := rfl
@[simp] theorem exec_mldt (w : MtxWord) (s : State) : exec (.mldt w) s = execMldt w s := rfl
@[simp] theorem exec_mst (w : MtxWord) (s : State) : exec (.mst w) s = execMst w s := rfl
@[simp] theorem exec_mstq (w : MtxWord) (s : State) : exec (.mstq w) s = execMstq w s := rfl
@[simp] theorem exec_mclr (w : MtxWord) (s : State) : exec (.mclr w) s = execMclr w s := rfl
@[simp] theorem exec_macc (w : MtxWord) (s : State) : exec (.macc w) s = execMacc w s := rfl
@[simp] theorem exec_vadd (p : Pipe) (w : VWord) (s : State) : exec (.vadd p w) s = execVadd p w s := rfl
@[simp] theorem exec_vsub (p : Pipe) (w : VWord) (s : State) : exec (.vsub p w) s = execVsub p w s := rfl
@[simp] theorem exec_vmul (p : Pipe) (w : VWord) (s : State) : exec (.vmul p w) s = execVmul p w s := rfl
@[simp] theorem exec_vfma (p : Pipe) (w : VWord) (s : State) : exec (.vfma p w) s = execVfma p w s := rfl
@[simp] theorem exec_vfms (p : Pipe) (w : VWord) (s : State) : exec (.vfms p w) s = execVfms p w s := rfl
@[simp] theorem exec_vmin (p : Pipe) (w : VWord) (s : State) : exec (.vmin p w) s = execVmin p w s := rfl
@[simp] theorem exec_vmax (p : Pipe) (w : VWord) (s : State) : exec (.vmax p w) s = execVmax p w s := rfl
@[simp] theorem exec_vabs (p : Pipe) (w : VWord) (s : State) : exec (.vabs p w) s = execVabs p w s := rfl
@[simp] theorem exec_vneg (p : Pipe) (w : VWord) (s : State) : exec (.vneg p w) s = execVneg p w s := rfl
@[simp] theorem exec_vrcp (p : Pipe) (w : VWord) (s : State) : exec (.vrcp p w) s = execVrcp p w s := rfl
@[simp] theorem exec_vrsq (p : Pipe) (w : VWord) (s : State) : exec (.vrsq p w) s = execVrsq p w s := rfl
@[simp] theorem exec_vexp2 (p : Pipe) (w : VWord) (s : State) : exec (.vexp2 p w) s = execVexp2 p w s := rfl
@[simp] theorem exec_vdiv (p : Pipe) (w : VWord) (s : State) : exec (.vdiv p w) s = execVdiv p w s := rfl
@[simp] theorem exec_vand (p : Pipe) (w : VWord) (s : State) : exec (.vand p w) s = execVand p w s := rfl
@[simp] theorem exec_vor (p : Pipe) (w : VWord) (s : State) : exec (.vor p w) s = execVor p w s := rfl
@[simp] theorem exec_vxor (p : Pipe) (w : VWord) (s : State) : exec (.vxor p w) s = execVxor p w s := rfl
@[simp] theorem exec_vnot (p : Pipe) (w : VWord) (s : State) : exec (.vnot p w) s = execVnot p w s := rfl
@[simp] theorem exec_vshl (p : Pipe) (w : VWord) (s : State) : exec (.vshl p w) s = execVshl p w s := rfl
@[simp] theorem exec_vshr (p : Pipe) (w : VWord) (s : State) : exec (.vshr p w) s = execVshr p w s := rfl
@[simp] theorem exec_vsra (p : Pipe) (w : VWord) (s : State) : exec (.vsra p w) s = execVsra p w s := rfl
@[simp] theorem exec_vshli (p : Pipe) (w : VWord) (s : State) : exec (.vshli p w) s = execVshli p w s := rfl
@[simp] theorem exec_vshri (p : Pipe) (w : VWord) (s : State) : exec (.vshri p w) s = execVshri p w s := rfl
@[simp] theorem exec_vmulh (p : Pipe) (w : VWord) (s : State) : exec (.vmulh p w) s = execVmulh p w s := rfl
@[simp] theorem exec_vclz (p : Pipe) (w : VWord) (s : State) : exec (.vclz p w) s = execVclz p w s := rfl
@[simp] theorem exec_vwadd (p : Pipe) (w : VWord) (s : State) : exec (.vwadd p w) s = execVwadd p w s := rfl
@[simp] theorem exec_vwacc (p : Pipe) (w : VWord) (s : State) : exec (.vwacc p w) s = execVwacc p w s := rfl
@[simp] theorem exec_vwmul (p : Pipe) (w : VWord) (s : State) : exec (.vwmul p w) s = execVwmul p w s := rfl
@[simp] theorem exec_vcmp (p : Pipe) (w : VWord) (s : State) : exec (.vcmp p w) s = execVcmp p w s := rfl
@[simp] theorem exec_vsel (p : Pipe) (w : VWord) (s : State) : exec (.vsel p w) s = execVsel p w s := rfl
@[simp] theorem exec_qop (p : Pipe) (w : VWord) (s : State) : exec (.qop p w) s = execQop p w s := rfl
@[simp] theorem exec_vcvt (p : Pipe) (w : VWord) (s : State) : exec (.vcvt p w) s = execVcvt p w s := rfl
@[simp] theorem exec_vqnt (p : Pipe) (w : VWord) (s : State) : exec (.vqnt p w) s = execVqnt p w s := rfl
@[simp] theorem exec_vdqnt (p : Pipe) (w : VWord) (s : State) : exec (.vdqnt p w) s = execVdqnt p w s := rfl
@[simp] theorem exec_vscan (p : Pipe) (w : VWord) (s : State) : exec (.vscan p w) s = execVscan p w s := rfl
@[simp] theorem exec_vred (p : Pipe) (w : VWord) (s : State) : exec (.vred p w) s = execVred p w s := rfl
@[simp] theorem exec_vperm (p : Pipe) (w : VWord) (s : State) : exec (.vperm p w) s = execVperm p w s := rfl
@[simp] theorem exec_vbcst (p : Pipe) (w : VWord) (s : State) : exec (.vbcst p w) s = execVbcst p w s := rfl
@[simp] theorem exec_vshfl (p : Pipe) (w : VWord) (s : State) : exec (.vshfl p w) s = execVshfl p w s := rfl
@[simp] theorem exec_viota (p : Pipe) (w : VWord) (s : State) : exec (.viota p w) s = execViota p w s := rfl
@[simp] theorem exec_vmov (p : Pipe) (w : VWord) (s : State) : exec (.vmov p w) s = execVmov p w s := rfl
@[simp] theorem exec_vmovi (p : Pipe) (w : VWord) (s : State) : exec (.vmovi p w) s = execVmovi p w s := rfl
@[simp] theorem exec_vldi (p : Pipe) (w : VWord) (s : State) : exec (.vldi p w) s = execVldi p w s := rfl
@[simp] theorem exec_vchk (p : Pipe) (w : VWord) (s : State) : exec (.vchk p w) s = execVchk p w s := rfl
@[simp] theorem exec_vclrp (p : Pipe) (w : VWord) (s : State) : exec (.vclrp p w) s = execVclrp p w s := rfl
@[simp] theorem exec_vstat (p : Pipe) (w : VWord) (s : State) : exec (.vstat p w) s = execVstat p w s := rfl
@[simp] theorem exec_spinLimitReached (ctx : Nat) (s : State) : exec (.spinLimitReached ctx) s = execSpinLimitReached ctx s := rfl
@[simp] theorem exec_reslate (ctx : Nat) (s : State) : exec (.reslate ctx) s = execReslate ctx s := rfl
@[simp] theorem exec_coldcand (ctx : Nat) (s : State) : exec (.coldcand ctx) s = execColdcand ctx s := rfl
@[simp] theorem exec_sliceEnd (ctx : Nat) (s : State) : exec (.sliceEnd ctx) s = execSliceEnd ctx s := rfl
@[simp] theorem exec_slotTableUpdate (core : Nat) (s : State) : exec (.slotTableUpdate core) s = execSlotTableUpdate core s := rfl
@[simp] theorem exec_checkpointLatest (ctx : Nat) (s : State) : exec (.checkpointLatest ctx) s = execCheckpointLatest ctx s := rfl
@[simp] theorem exec_watchdogFire (ctx : Nat) (s : State) : exec (.watchdogFire ctx) s = execWatchdogFire ctx s := rfl
@[simp] theorem exec_intervalCheckpoint (ctx : Nat) (s : State) : exec (.intervalCheckpoint ctx) s = execIntervalCheckpoint ctx s := rfl
@[simp] theorem exec_fatalTrap (ctx : Nat) (s : State) : exec (.fatalTrap ctx) s = execFatalTrap ctx s := rfl
@[simp] theorem exec_contextDead (ctx : Nat) (s : State) : exec (.contextDead ctx) s = execContextDead ctx s := rfl
@[simp] theorem exec_rimeDump (ctx : Nat) (s : State) : exec (.rimeDump ctx) s = execRimeDump ctx s := rfl
@[simp] theorem exec_contextDrain (ctx : Nat) (s : State) : exec (.contextDrain ctx) s = execContextDrain ctx s := rfl
@[simp] theorem exec_rollback (ctx : Nat) (s : State) : exec (.rollback ctx) s = execRollback ctx s := rfl
@[simp] theorem exec_contextRestore (ctx : Nat) (s : State) : exec (.contextRestore ctx) s = execContextRestore ctx s := rfl
@[simp] theorem exec_coreCycle (core : Nat) (env : CycleEnv) (s : State) : exec (.coreCycle core env) s = execCoreCycle core env s := rfl
@[simp] theorem exec_bundleCommit (ctx : Nat) (s : State) : exec (.bundleCommit ctx) s = execBundleCommit ctx s := rfl
@[simp] theorem exec_vectorResultDue (ctx : Nat) (s : State) : exec (.vectorResultDue ctx) s = execVectorResultDue ctx s := rfl
@[simp] theorem exec_fmtTakesEffect (ctx : Nat) (s : State) : exec (.fmtTakesEffect ctx) s = execFmtTakesEffect ctx s := rfl
@[simp] theorem exec_landingDataArrives (ctx : Nat) (entry : Nat) (s : State) : exec (.landingDataArrives ctx entry) s = execLandingDataArrives ctx entry s := rfl
@[simp] theorem exec_timedLanding (ctx : Nat) (s : State) : exec (.timedLanding ctx) s = execTimedLanding ctx s := rfl
@[simp] theorem exec_loadPerform (ctx : Nat) (which : LoadRef) (s : State) : exec (.loadPerform ctx which) s = execLoadPerform ctx which s := rfl
@[simp] theorem exec_transitWriteApply (ctx : Nat) (k : Nat) (s : State) : exec (.transitWriteApply ctx k) s = execTransitWriteApply ctx k s := rfl
@[simp] theorem exec_snapshotLineDrop (ctx : Nat) (line : Nat) (s : State) : exec (.snapshotLineDrop ctx line) s = execSnapshotLineDrop ctx line s := rfl
@[simp] theorem exec_phaseSend (ctx : Nat) (k : Nat) (s : State) : exec (.phaseSend ctx k) s = execPhaseSend ctx k s := rfl
@[simp] theorem exec_phaseComplete (ctx : Nat) (k : Nat) (s : State) : exec (.phaseComplete ctx k) s = execPhaseComplete ctx k s := rfl
@[simp] theorem exec_haltComplete (ctx : Nat) (s : State) : exec (.haltComplete ctx) s = execHaltComplete ctx s := rfl
@[simp] theorem exec_drainqComplete (ctx : Nat) (s : State) : exec (.drainqComplete ctx) s = execDrainqComplete ctx s := rfl
@[simp] theorem exec_spinTimeout (ctx : Nat) (s : State) : exec (.spinTimeout ctx) s = execSpinTimeout ctx s := rfl
@[simp] theorem exec_bundleTrap (ctx : Nat) (s : State) : exec (.bundleTrap ctx) s = execBundleTrap ctx s := rfl
@[simp] theorem exec_uliDelivery (ctx : Nat) (s : State) : exec (.uliDelivery ctx) s = execUliDelivery ctx s := rfl
@[simp] theorem exec_copyOpBegin (ctx : Nat) (ch : Nat) (s : State) : exec (.copyOpBegin ctx ch) s = execCopyOpBegin ctx ch s := rfl
@[simp] theorem exec_copyChunk (ctx : Nat) (ch : Nat) (ahead : Option Nat) (s : State) : exec (.copyChunk ctx ch ahead) s = execCopyChunk ctx ch ahead s := rfl
@[simp] theorem exec_feedBeatLand (ctx : Nat) (ch : Nat) (s : State) : exec (.feedBeatLand ctx ch) s = execFeedBeatLand ctx ch s := rfl
@[simp] theorem exec_addwRowWrite (ctx : Nat) (ch : Nat) (row : Nat) (s : State) : exec (.addwRowWrite ctx ch row) s = execAddwRowWrite ctx ch row s := rfl
@[simp] theorem exec_fragmentArrival (ctx : Nat) (ch : Nat) (s : State) : exec (.fragmentArrival ctx ch) s = execFragmentArrival ctx ch s := rfl
@[simp] theorem exec_fragmentResponse (ctx : Nat) (ch : Nat) (s : State) : exec (.fragmentResponse ctx ch) s = execFragmentResponse ctx ch s := rfl
@[simp] theorem exec_rputBackoffExpiry (ctx : Nat) (ch : Nat) (s : State) : exec (.rputBackoffExpiry ctx ch) s = execRputBackoffExpiry ctx ch s := rfl
@[simp] theorem exec_barrierCredit (k : Nat) (s : State) : exec (.barrierCredit k) s = execBarrierCredit k s := rfl
@[simp] theorem exec_matrixOpBegin (core : Nat) (s : State) : exec (.matrixOpBegin core) s = execMatrixOpBegin core s := rfl
@[simp] theorem exec_mmaGroup (ctx : Nat) (k : Nat) (s : State) : exec (.mmaGroup ctx k) s = execMmaGroup ctx k s := rfl
@[simp] theorem exec_matrixOpComplete (ctx : Nat) (k : Nat) (s : State) : exec (.matrixOpComplete ctx k) s = execMatrixOpComplete ctx k s := rfl
@[simp] theorem exec_syncOpPerform (ctx : Nat) (k : Nat) (s : State) : exec (.syncOpPerform ctx k) s = execSyncOpPerform ctx k s := rfl
@[simp] theorem exec_syncAnswerArrival (ctx : Nat) (k : Nat) (s : State) : exec (.syncAnswerArrival ctx k) s = execSyncAnswerArrival ctx k s := rfl
@[simp] theorem exec_waiterBusyResend (ctx : Nat) (s : State) : exec (.waiterBusyResend ctx) s = execWaiterBusyResend ctx s := rfl
@[simp] theorem exec_asyncLogRecord (ctx : Nat) (k : Nat) (s : State) : exec (.asyncLogRecord ctx k) s = execAsyncLogRecord ctx k s := rfl
@[simp] theorem exec_invalidateAll (die : Nat) (s : State) : exec (.invalidateAll die) s = execInvalidateAll die s := rfl
@[simp] theorem exec_invalidateVaRange (die : Nat) (s : State) : exec (.invalidateVaRange die) s = execInvalidateVaRange die s := rfl
@[simp] theorem exec_invalidateIpaRange (die : Nat) (part : BitVec 4) (s : State) : exec (.invalidateIpaRange die part) s = execInvalidateIpaRange die part s := rfl
@[simp] theorem exec_invalidateRoot (die : Nat) (s : State) : exec (.invalidateRoot die) s = execInvalidateRoot die s := rfl
@[simp] theorem exec_invalidatePartition (die : Nat) (part : BitVec 4) (s : State) : exec (.invalidatePartition die part) s = execInvalidatePartition die part s := rfl
@[simp] theorem exec_invalidationComplete (die : Nat) (s : State) : exec (.invalidationComplete die) s = execInvalidationComplete die s := rfl
@[simp] theorem exec_btStart (die : Nat) (part : Nat) (off : Nat) (size : Nat) (value : Word) (root : Nat) (s : State) : exec (.btStart die part off size value root) s = execBtStart die part off size value root s := rfl
@[simp] theorem exec_btTakeStart (die : Nat) (eng : Nat) (s : State) : exec (.btTakeStart die eng) s = execBtTakeStart die eng s := rfl
@[simp] theorem exec_btChunk (die : Nat) (eng : Nat) (s : State) : exec (.btChunk die eng) s = execBtChunk die eng s := rfl
@[simp] theorem exec_btComplete (die : Nat) (eng : Nat) (s : State) : exec (.btComplete die eng) s = execBtComplete die eng s := rfl
@[simp] theorem exec_queueStart (die : Nat) (h : Nat) (s : State) : exec (.queueStart die h) s = execQueueStart die h s := rfl
@[simp] theorem exec_queueResume (die : Nat) (h : Nat) (s : State) : exec (.queueResume die h) s = execQueueResume die h s := rfl
@[simp] theorem exec_queuePark (die : Nat) (h : Nat) (s : State) : exec (.queuePark die h) s = execQueuePark die h s := rfl
@[simp] theorem exec_queueDisable (die : Nat) (h : Nat) (s : State) : exec (.queueDisable die h) s = execQueueDisable die h s := rfl
@[simp] theorem exec_doorbell (die : Nat) (part : Nat) (off : Nat) (size : Nat) (value : Word) (s : State) : exec (.doorbell die part off size value) s = execDoorbell die part off size value s := rfl
@[simp] theorem exec_packetFetch (die : Nat) (h : Nat) (s : State) : exec (.packetFetch die h) s = execPacketFetch die h s := rfl
@[simp] theorem exec_pktNop (die : Nat) (h : Nat) (s : State) : exec (.pktNop die h) s = execPktNop die h s := rfl
@[simp] theorem exec_invoke (die : Nat) (h : Nat) (s : State) : exec (.invoke die h) s = execInvoke die h s := rfl
@[simp] theorem exec_invokeStart (die : Nat) (h : Nat) (s : State) : exec (.invokeStart die h) s = execInvokeStart die h s := rfl
@[simp] theorem exec_taskGraphEnd (die : Nat) (h : Nat) (s : State) : exec (.taskGraphEnd die h) s = execTaskGraphEnd die h s := rfl
@[simp] theorem exec_ib (die : Nat) (h : Nat) (s : State) : exec (.ib die h) s = execIb die h s := rfl
@[simp] theorem exec_pred (die : Nat) (h : Nat) (s : State) : exec (.pred die h) s = execPred die h s := rfl
@[simp] theorem exec_pktLoop (die : Nat) (h : Nat) (s : State) : exec (.pktLoop die h) s = execPktLoop die h s := rfl
@[simp] theorem exec_pktWait (die : Nat) (h : Nat) (s : State) : exec (.pktWait die h) s = execPktWait die h s := rfl
@[simp] theorem exec_pktSigAdd (die : Nat) (h : Nat) (s : State) : exec (.pktSigAdd die h) s = execPktSigAdd die h s := rfl
@[simp] theorem exec_pktSigSet (die : Nat) (h : Nat) (s : State) : exec (.pktSigSet die h) s = execPktSigSet die h s := rfl
@[simp] theorem exec_ffence (die : Nat) (h : Nat) (s : State) : exec (.ffence die h) s = execFfence die h s := rfl
@[simp] theorem exec_faultServed (port : FaultPort) (seq : BitVec 32) (s : State) : exec (.faultServed port seq) s = execFaultServed port seq s := rfl
@[simp] theorem exec_faultDeclined (port : FaultPort) (seq : BitVec 32) (s : State) : exec (.faultDeclined port seq) s = execFaultDeclined port seq s := rfl
@[simp] theorem exec_faultQueueHeadAdvance (port : FaultPort) (head : BitVec 32) (s : State) : exec (.faultQueueHeadAdvance port head) s = execFaultQueueHeadAdvance port head s := rfl
@[simp] theorem exec_thaw (die : Nat) (value : Word) (s : State) : exec (.thaw die value) s = execThaw die value s := rfl
@[simp] theorem exec_registerWrite (page : DevPage) (off : Nat) (size : Nat) (value : Word) (s : State) : exec (.registerWrite page off size value) s = execRegisterWrite page off size value s := rfl
@[simp] theorem exec_hostWrite (serac : Nat) (pa : Nat) (data : List Byte) (s : State) : exec (.hostWrite serac pa data) s = execHostWrite serac pa data s := rfl
@[simp] theorem exec_hostRead (serac : Nat) (pa : Nat) (n : Nat) (s : State) : exec (.hostRead serac pa n) s = execHostRead serac pa n s := rfl
@[simp] theorem exec_dieCycle (die : Nat) (s : State) : exec (.dieCycle die) s = execDieCycle die s := rfl
@[simp] theorem exec_fairnessWindowStart (die : Nat) (s : State) : exec (.fairnessWindowStart die) s = execFairnessWindowStart die s := rfl
@[simp] theorem exec_boostDecay (die : Nat) (s : State) : exec (.boostDecay die) s = execBoostDecay die s := rfl
@[simp] theorem exec_stealRequest (victim : Nat) (s : State) : exec (.stealRequest victim) s = execStealRequest victim s := rfl
@[simp] theorem exec_landingReplay (ctx : Nat) (s : State) : exec (.landingReplay ctx) s = execLandingReplay ctx s := rfl
@[simp] theorem exec_tileRefetch (ctx : Nat) (s : State) : exec (.tileRefetch ctx) s = execTileRefetch ctx s := rfl
@[simp] theorem exec_retirement (die : Nat) (what : Retire) (s : State) : exec (.retirement die what) s = execRetirement die what s := rfl
@[simp] theorem exec_postAccept (ctx : Nat) (s : State) : exec (.postAccept ctx) s = execPostAccept ctx s := rfl
@[simp] theorem exec_coordinatorNotice (serac : Nat) (k : Nat) (s : State) : exec (.coordinatorNotice serac k) s = execCoordinatorNotice serac k s := rfl
@[simp] theorem exec_ticketRequest (serac : Nat) (s : State) : exec (.ticketRequest serac) s = execTicketRequest serac s := rfl
@[simp] theorem exec_ticketTake (serac : Nat) (k : Nat) (s : State) : exec (.ticketTake serac k) s = execTicketTake serac k s := rfl
@[simp] theorem exec_reservation (serac : Nat) (k : Nat) (s : State) : exec (.reservation serac k) s = execReservation serac k s := rfl
@[simp] theorem exec_confirmation (serac : Nat) (k : Nat) (s : State) : exec (.confirmation serac k) s = execConfirmation serac k s := rfl
@[simp] theorem exec_chunkBoundary (serac : Nat) (res : CollResource) (s : State) : exec (.chunkBoundary serac res) s = execChunkBoundary serac res s := rfl
@[simp] theorem exec_chunkTransfer (serac : Nat) (res : CollResource) (order : List Nat) (s : State) : exec (.chunkTransfer serac res order) s = execChunkTransfer serac res order s := rfl
@[simp] theorem exec_creditReturn (serac : Nat) (link : Nat) (vc : Nat) (s : State) : exec (.creditReturn serac link vc) s = execCreditReturn serac link vc s := rfl
@[simp] theorem exec_instanceComplete (serac : Nat) (k : Nat) (s : State) : exec (.instanceComplete serac k) s = execInstanceComplete serac k s := rfl
@[simp] theorem exec_instanceFault (serac : Nat) (k : Nat) (s : State) : exec (.instanceFault serac k) s = execInstanceFault serac k s := rfl
@[simp] theorem exec_sramEccError (site : EccSite) (s : State) : exec (.sramEccError site) s = execSramEccError site s := rfl
@[simp] theorem exec_resetBoot (boot : Reboot) (s : State) : exec (.resetBoot boot) s = execResetBoot boot s := rfl
@[simp] theorem exec_spdmMeasurement (serac : Nat) (nonce : List Byte) (s : State) : exec (.spdmMeasurement serac nonce) s = execSpdmMeasurement serac nonce s := rfl
@[simp] theorem exec_dumpKeyDelivery (serac : Nat) (tenant : BitVec 16) (key : BitVec 256) (s : State) : exec (.dumpKeyDelivery serac tenant key) s = execDumpKeyDelivery serac tenant key s := rfl
@[simp] theorem exec_stealAnswer (thief : Nat) (s : State) : exec (.stealAnswer thief) s = execStealAnswer thief s := rfl
@[simp] theorem exec_powerLoss (pkg : Nat) (torn : Option FlashTear) (s : State) : exec (.powerLoss pkg torn) s = execPowerLoss pkg torn s := rfl
@[simp] theorem exec_peerUnreachable (serac : Nat) (lost : Nat) (s : State) : exec (.peerUnreachable serac lost) s = execPeerUnreachable serac lost s := rfl
@[simp] theorem exec_redfishRequest (pkg : Nat) (request : List Byte) (s : State) : exec (.redfishRequest pkg request) s = execRedfishRequest pkg request s := rfl

end Sys2Proof.Machine
end

