-- ==== Sys2Proof/Laws/State.lean ====
section
/-! SUPPORT. What each update of the state leaves as it was, field by field, and what it makes of its own field. -/

namespace Sys2Proof.Machine

/-! ### Maps -/

@[simp] theorem SMap.find_nil {α : Type} (k : Nat) : SMap.find ([] : SMap α) k = none := rfl

@[simp] theorem SMap.find_put_self {α : Type} (m : SMap α) (k : Nat) (a : α) : SMap.find (SMap.put m k a) k = some a := by
  induction m with
  | nil => simp [SMap.put, SMap.find]
  | cons p rest ih =>
    obtain ⟨j, b⟩ := p
    by_cases h : k < j
    · simp [SMap.put, SMap.find, h]
    · by_cases e : k = j
      · simp [SMap.put, SMap.find, e]
      · simp [SMap.put, SMap.find, h, e, Ne.symm e, ih]

theorem SMap.find_put_ne {α : Type} (m : SMap α) {k j : Nat} (a : α) (hne : j ≠ k) :
    SMap.find (SMap.put m k a) j = SMap.find m j := by
  induction m with
  | nil => simp [SMap.put, SMap.find, Ne.symm hne]
  | cons p rest ih =>
    obtain ⟨i, b⟩ := p
    by_cases h : k < i
    · simp [SMap.put, SMap.find, h, Ne.symm hne]
    · by_cases e : k = i
      · subst e
        simp [SMap.put, SMap.find, Ne.symm hne]
      · simp [SMap.put, SMap.find, h, e, ih]

@[simp] theorem SMap.getD_put_self {α : Type} (m : SMap α) (k : Nat) (a d : α) : SMap.getD (SMap.put m k a) k d = a := by
  simp [SMap.getD]

theorem SMap.getD_put_ne {α : Type} (m : SMap α) {k j : Nat} (a d : α) (hne : j ≠ k) :
    SMap.getD (SMap.put m k a) j d = SMap.getD m j d := by
  simp [SMap.getD, SMap.find_put_ne m a hne]

theorem SMap.getD_put {α : Type} (m : SMap α) (k j : Nat) (a d : α) :
    SMap.getD (SMap.put m k a) j d = if j = k then a else SMap.getD m j d := by
  by_cases h : j = k
  · simp [h]
  · simp [h, SMap.getD_put_ne]

/-! ### setCore -/

@[simp] theorem State.setCore_mem (s : State) (k : Nat) (x : Core) : (s.setCore k x).mem = s.mem := rfl
@[simp] theorem State.setCore_poison (s : State) (k : Nat) (x : Core) : (s.setCore k x).poison = s.poison := rfl
@[simp] theorem State.setCore_contexts (s : State) (k : Nat) (x : Core) : (s.setCore k x).contexts = s.contexts := rfl
@[simp] theorem State.setCore_dies (s : State) (k : Nat) (x : Core) : (s.setCore k x).dies = s.dies := rfl
@[simp] theorem State.setCore_seracs (s : State) (k : Nat) (x : Core) : (s.setCore k x).seracs = s.seracs := rfl
@[simp] theorem State.setCore_graphs (s : State) (k : Nat) (x : Core) : (s.setCore k x).graphs = s.graphs := rfl
@[simp] theorem State.setCore_nextGraph (s : State) (k : Nat) (x : Core) : (s.setCore k x).nextGraph = s.nextGraph := rfl
@[simp] theorem State.setCore_runs (s : State) (k : Nat) (x : Core) : (s.setCore k x).runs = s.runs := rfl
@[simp] theorem State.setCore_credits (s : State) (k : Nat) (x : Core) : (s.setCore k x).credits = s.credits := rfl
@[simp] theorem State.setCore_ownPast (s : State) (k : Nat) (x : Core) : (s.setCore k x).ownPast = s.ownPast := rfl
@[simp] theorem State.setCore_late (s : State) (k : Nat) (x : Core) : (s.setCore k x).late = s.late := rfl
@[simp] theorem State.setCore_devMap (s : State) (k : Nat) (x : Core) : (s.setCore k x).devMap = s.devMap := rfl
@[simp] theorem State.setCore_cur (s : State) (k : Nat) (x : Core) : (s.setCore k x).cur = s.cur := rfl
@[simp] theorem State.setCore_slotEnv (s : State) (k : Nat) (x : Core) : (s.setCore k x).slotEnv = s.slotEnv := rfl
@[simp] theorem State.setCore_agenda (s : State) (k : Nat) (x : Core) : (s.setCore k x).agenda = s.agenda := rfl
@[simp] theorem State.setCore_moves (s : State) (k : Nat) (x : Core) : (s.setCore k x).moves = s.moves := rfl
@[simp] theorem State.setCore_freeCount (s : State) (k : Nat) (x : Core) : (s.setCore k x).freeCount = s.freeCount := rfl

@[simp] theorem State.setCore_die (s : State) (k j : Nat) (x : Core) : (s.setCore k x).die j = s.die j := rfl
@[simp] theorem State.setCore_serac (s : State) (k j : Nat) (x : Core) : (s.setCore k x).serac j = s.serac j := rfl
@[simp] theorem State.setCore_ctx (s : State) (k j : Nat) (x : Core) : (s.setCore k x).ctx j = s.ctx j := rfl
@[simp] theorem State.core_setCore_self (s : State) (k : Nat) (x : Core) : (s.setCore k x).core k = x := SMap.getD_put_self ..
theorem State.core_setCore_ne (s : State) {k j : Nat} (x : Core) (h : j ≠ k) : (s.setCore k x).core j = s.core j :=
  SMap.getD_put_ne _ _ _ h

/-! ### setDie -/

@[simp] theorem State.setDie_mem (s : State) (k : Nat) (x : Die) : (s.setDie k x).mem = s.mem := rfl
@[simp] theorem State.setDie_poison (s : State) (k : Nat) (x : Die) : (s.setDie k x).poison = s.poison := rfl
@[simp] theorem State.setDie_contexts (s : State) (k : Nat) (x : Die) : (s.setDie k x).contexts = s.contexts := rfl
@[simp] theorem State.setDie_cores (s : State) (k : Nat) (x : Die) : (s.setDie k x).cores = s.cores := rfl
@[simp] theorem State.setDie_seracs (s : State) (k : Nat) (x : Die) : (s.setDie k x).seracs = s.seracs := rfl
@[simp] theorem State.setDie_graphs (s : State) (k : Nat) (x : Die) : (s.setDie k x).graphs = s.graphs := rfl
@[simp] theorem State.setDie_nextGraph (s : State) (k : Nat) (x : Die) : (s.setDie k x).nextGraph = s.nextGraph := rfl
@[simp] theorem State.setDie_runs (s : State) (k : Nat) (x : Die) : (s.setDie k x).runs = s.runs := rfl
@[simp] theorem State.setDie_credits (s : State) (k : Nat) (x : Die) : (s.setDie k x).credits = s.credits := rfl
@[simp] theorem State.setDie_ownPast (s : State) (k : Nat) (x : Die) : (s.setDie k x).ownPast = s.ownPast := rfl
@[simp] theorem State.setDie_late (s : State) (k : Nat) (x : Die) : (s.setDie k x).late = s.late := rfl
@[simp] theorem State.setDie_devMap (s : State) (k : Nat) (x : Die) : (s.setDie k x).devMap = s.devMap := rfl
@[simp] theorem State.setDie_cur (s : State) (k : Nat) (x : Die) : (s.setDie k x).cur = s.cur := rfl
@[simp] theorem State.setDie_slotEnv (s : State) (k : Nat) (x : Die) : (s.setDie k x).slotEnv = s.slotEnv := rfl
@[simp] theorem State.setDie_agenda (s : State) (k : Nat) (x : Die) : (s.setDie k x).agenda = s.agenda := rfl
@[simp] theorem State.setDie_moves (s : State) (k : Nat) (x : Die) : (s.setDie k x).moves = s.moves := rfl
@[simp] theorem State.setDie_freeCount (s : State) (k : Nat) (x : Die) : (s.setDie k x).freeCount = s.freeCount := rfl

@[simp] theorem State.setDie_core (s : State) (k j : Nat) (x : Die) : (s.setDie k x).core j = s.core j := rfl
@[simp] theorem State.setDie_serac (s : State) (k j : Nat) (x : Die) : (s.setDie k x).serac j = s.serac j := rfl
@[simp] theorem State.setDie_ctx (s : State) (k j : Nat) (x : Die) : (s.setDie k x).ctx j = s.ctx j := rfl
@[simp] theorem State.die_setDie_self (s : State) (k : Nat) (x : Die) : (s.setDie k x).die k = x := SMap.getD_put_self ..
theorem State.die_setDie_ne (s : State) {k j : Nat} (x : Die) (h : j ≠ k) : (s.setDie k x).die j = s.die j :=
  SMap.getD_put_ne _ _ _ h

/-! ### setSerac -/

@[simp] theorem State.setSerac_mem (s : State) (k : Nat) (x : Serac) : (s.setSerac k x).mem = s.mem := rfl
@[simp] theorem State.setSerac_poison (s : State) (k : Nat) (x : Serac) : (s.setSerac k x).poison = s.poison := rfl
@[simp] theorem State.setSerac_contexts (s : State) (k : Nat) (x : Serac) : (s.setSerac k x).contexts = s.contexts := rfl
@[simp] theorem State.setSerac_cores (s : State) (k : Nat) (x : Serac) : (s.setSerac k x).cores = s.cores := rfl
@[simp] theorem State.setSerac_dies (s : State) (k : Nat) (x : Serac) : (s.setSerac k x).dies = s.dies := rfl
@[simp] theorem State.setSerac_graphs (s : State) (k : Nat) (x : Serac) : (s.setSerac k x).graphs = s.graphs := rfl
@[simp] theorem State.setSerac_nextGraph (s : State) (k : Nat) (x : Serac) : (s.setSerac k x).nextGraph = s.nextGraph := rfl
@[simp] theorem State.setSerac_runs (s : State) (k : Nat) (x : Serac) : (s.setSerac k x).runs = s.runs := rfl
@[simp] theorem State.setSerac_credits (s : State) (k : Nat) (x : Serac) : (s.setSerac k x).credits = s.credits := rfl
@[simp] theorem State.setSerac_ownPast (s : State) (k : Nat) (x : Serac) : (s.setSerac k x).ownPast = s.ownPast := rfl
@[simp] theorem State.setSerac_late (s : State) (k : Nat) (x : Serac) : (s.setSerac k x).late = s.late := rfl
@[simp] theorem State.setSerac_devMap (s : State) (k : Nat) (x : Serac) : (s.setSerac k x).devMap = s.devMap := rfl
@[simp] theorem State.setSerac_cur (s : State) (k : Nat) (x : Serac) : (s.setSerac k x).cur = s.cur := rfl
@[simp] theorem State.setSerac_slotEnv (s : State) (k : Nat) (x : Serac) : (s.setSerac k x).slotEnv = s.slotEnv := rfl
@[simp] theorem State.setSerac_agenda (s : State) (k : Nat) (x : Serac) : (s.setSerac k x).agenda = s.agenda := rfl
@[simp] theorem State.setSerac_moves (s : State) (k : Nat) (x : Serac) : (s.setSerac k x).moves = s.moves := rfl
@[simp] theorem State.setSerac_freeCount (s : State) (k : Nat) (x : Serac) : (s.setSerac k x).freeCount = s.freeCount := rfl

@[simp] theorem State.setSerac_core (s : State) (k j : Nat) (x : Serac) : (s.setSerac k x).core j = s.core j := rfl
@[simp] theorem State.setSerac_die (s : State) (k j : Nat) (x : Serac) : (s.setSerac k x).die j = s.die j := rfl
@[simp] theorem State.setSerac_ctx (s : State) (k j : Nat) (x : Serac) : (s.setSerac k x).ctx j = s.ctx j := rfl
@[simp] theorem State.serac_setSerac_self (s : State) (k : Nat) (x : Serac) : (s.setSerac k x).serac k = x := SMap.getD_put_self ..
theorem State.serac_setSerac_ne (s : State) {k j : Nat} (x : Serac) (h : j ≠ k) : (s.setSerac k x).serac j = s.serac j :=
  SMap.getD_put_ne _ _ _ h

/-! ### setCtx -/

@[simp] theorem State.setCtx_mem (s : State) (k : Nat) (x : Context) : (s.setCtx k x).mem = s.mem := rfl
@[simp] theorem State.setCtx_poison (s : State) (k : Nat) (x : Context) : (s.setCtx k x).poison = s.poison := rfl
@[simp] theorem State.setCtx_cores (s : State) (k : Nat) (x : Context) : (s.setCtx k x).cores = s.cores := rfl
@[simp] theorem State.setCtx_dies (s : State) (k : Nat) (x : Context) : (s.setCtx k x).dies = s.dies := rfl
@[simp] theorem State.setCtx_seracs (s : State) (k : Nat) (x : Context) : (s.setCtx k x).seracs = s.seracs := rfl
@[simp] theorem State.setCtx_graphs (s : State) (k : Nat) (x : Context) : (s.setCtx k x).graphs = s.graphs := rfl
@[simp] theorem State.setCtx_nextGraph (s : State) (k : Nat) (x : Context) : (s.setCtx k x).nextGraph = s.nextGraph := rfl
@[simp] theorem State.setCtx_runs (s : State) (k : Nat) (x : Context) : (s.setCtx k x).runs = s.runs := rfl
@[simp] theorem State.setCtx_credits (s : State) (k : Nat) (x : Context) : (s.setCtx k x).credits = s.credits := rfl
@[simp] theorem State.setCtx_ownPast (s : State) (k : Nat) (x : Context) : (s.setCtx k x).ownPast = s.ownPast := rfl
@[simp] theorem State.setCtx_late (s : State) (k : Nat) (x : Context) : (s.setCtx k x).late = s.late := rfl
@[simp] theorem State.setCtx_devMap (s : State) (k : Nat) (x : Context) : (s.setCtx k x).devMap = s.devMap := rfl
@[simp] theorem State.setCtx_cur (s : State) (k : Nat) (x : Context) : (s.setCtx k x).cur = s.cur := rfl
@[simp] theorem State.setCtx_slotEnv (s : State) (k : Nat) (x : Context) : (s.setCtx k x).slotEnv = s.slotEnv := rfl
@[simp] theorem State.setCtx_agenda (s : State) (k : Nat) (x : Context) : (s.setCtx k x).agenda = s.agenda := rfl
@[simp] theorem State.setCtx_moves (s : State) (k : Nat) (x : Context) : (s.setCtx k x).moves = s.moves := rfl
@[simp] theorem State.setCtx_freeCount (s : State) (k : Nat) (x : Context) : (s.setCtx k x).freeCount = s.freeCount := rfl

@[simp] theorem State.setCtx_core (s : State) (k j : Nat) (x : Context) : (s.setCtx k x).core j = s.core j := rfl
@[simp] theorem State.setCtx_die (s : State) (k j : Nat) (x : Context) : (s.setCtx k x).die j = s.die j := rfl
@[simp] theorem State.setCtx_serac (s : State) (k j : Nat) (x : Context) : (s.setCtx k x).serac j = s.serac j := rfl
@[simp] theorem State.ctx_setCtx_self (s : State) (k : Nat) (x : Context) : (s.setCtx k x).ctx k = some x := SMap.find_put_self ..
theorem State.ctx_setCtx_ne (s : State) {k j : Nat} (x : Context) (h : j ≠ k) : (s.setCtx k x).ctx j = s.ctx j :=
  SMap.find_put_ne _ _ h

/-! ### updCore -/

@[simp] theorem State.updCore_mem (s : State) (k : Nat) (g : Core → Core) : (s.updCore k g).mem = s.mem := rfl
@[simp] theorem State.updCore_poison (s : State) (k : Nat) (g : Core → Core) : (s.updCore k g).poison = s.poison := rfl
@[simp] theorem State.updCore_contexts (s : State) (k : Nat) (g : Core → Core) : (s.updCore k g).contexts = s.contexts := rfl
@[simp] theorem State.updCore_dies (s : State) (k : Nat) (g : Core → Core) : (s.updCore k g).dies = s.dies := rfl
@[simp] theorem State.updCore_seracs (s : State) (k : Nat) (g : Core → Core) : (s.updCore k g).seracs = s.seracs := rfl
@[simp] theorem State.updCore_graphs (s : State) (k : Nat) (g : Core → Core) : (s.updCore k g).graphs = s.graphs := rfl
@[simp] theorem State.updCore_nextGraph (s : State) (k : Nat) (g : Core → Core) : (s.updCore k g).nextGraph = s.nextGraph := rfl
@[simp] theorem State.updCore_runs (s : State) (k : Nat) (g : Core → Core) : (s.updCore k g).runs = s.runs := rfl
@[simp] theorem State.updCore_credits (s : State) (k : Nat) (g : Core → Core) : (s.updCore k g).credits = s.credits := rfl
@[simp] theorem State.updCore_ownPast (s : State) (k : Nat) (g : Core → Core) : (s.updCore k g).ownPast = s.ownPast := rfl
@[simp] theorem State.updCore_late (s : State) (k : Nat) (g : Core → Core) : (s.updCore k g).late = s.late := rfl
@[simp] theorem State.updCore_devMap (s : State) (k : Nat) (g : Core → Core) : (s.updCore k g).devMap = s.devMap := rfl
@[simp] theorem State.updCore_cur (s : State) (k : Nat) (g : Core → Core) : (s.updCore k g).cur = s.cur := rfl
@[simp] theorem State.updCore_slotEnv (s : State) (k : Nat) (g : Core → Core) : (s.updCore k g).slotEnv = s.slotEnv := rfl
@[simp] theorem State.updCore_agenda (s : State) (k : Nat) (g : Core → Core) : (s.updCore k g).agenda = s.agenda := rfl
@[simp] theorem State.updCore_moves (s : State) (k : Nat) (g : Core → Core) : (s.updCore k g).moves = s.moves := rfl
@[simp] theorem State.updCore_freeCount (s : State) (k : Nat) (g : Core → Core) : (s.updCore k g).freeCount = s.freeCount := rfl
@[simp] theorem State.updCore_die (s : State) (k j : Nat) (g : Core → Core) : (s.updCore k g).die j = s.die j := rfl
@[simp] theorem State.updCore_serac (s : State) (k j : Nat) (g : Core → Core) : (s.updCore k g).serac j = s.serac j := rfl
@[simp] theorem State.updCore_ctx (s : State) (k j : Nat) (g : Core → Core) : (s.updCore k g).ctx j = s.ctx j := rfl
@[simp] theorem State.core_updCore_self (s : State) (k : Nat) (g : Core → Core) : (s.updCore k g).core k = g (s.core k) :=
  SMap.getD_put_self ..
theorem State.core_updCore_ne (s : State) {k j : Nat} (g : Core → Core) (h : j ≠ k) : (s.updCore k g).core j = s.core j :=
  SMap.getD_put_ne _ _ _ h

/-! ### updDie -/

@[simp] theorem State.updDie_mem (s : State) (k : Nat) (g : Die → Die) : (s.updDie k g).mem = s.mem := rfl
@[simp] theorem State.updDie_poison (s : State) (k : Nat) (g : Die → Die) : (s.updDie k g).poison = s.poison := rfl
@[simp] theorem State.updDie_contexts (s : State) (k : Nat) (g : Die → Die) : (s.updDie k g).contexts = s.contexts := rfl
@[simp] theorem State.updDie_cores (s : State) (k : Nat) (g : Die → Die) : (s.updDie k g).cores = s.cores := rfl
@[simp] theorem State.updDie_seracs (s : State) (k : Nat) (g : Die → Die) : (s.updDie k g).seracs = s.seracs := rfl
@[simp] theorem State.updDie_graphs (s : State) (k : Nat) (g : Die → Die) : (s.updDie k g).graphs = s.graphs := rfl
@[simp] theorem State.updDie_nextGraph (s : State) (k : Nat) (g : Die → Die) : (s.updDie k g).nextGraph = s.nextGraph := rfl
@[simp] theorem State.updDie_runs (s : State) (k : Nat) (g : Die → Die) : (s.updDie k g).runs = s.runs := rfl
@[simp] theorem State.updDie_credits (s : State) (k : Nat) (g : Die → Die) : (s.updDie k g).credits = s.credits := rfl
@[simp] theorem State.updDie_ownPast (s : State) (k : Nat) (g : Die → Die) : (s.updDie k g).ownPast = s.ownPast := rfl
@[simp] theorem State.updDie_late (s : State) (k : Nat) (g : Die → Die) : (s.updDie k g).late = s.late := rfl
@[simp] theorem State.updDie_devMap (s : State) (k : Nat) (g : Die → Die) : (s.updDie k g).devMap = s.devMap := rfl
@[simp] theorem State.updDie_cur (s : State) (k : Nat) (g : Die → Die) : (s.updDie k g).cur = s.cur := rfl
@[simp] theorem State.updDie_slotEnv (s : State) (k : Nat) (g : Die → Die) : (s.updDie k g).slotEnv = s.slotEnv := rfl
@[simp] theorem State.updDie_agenda (s : State) (k : Nat) (g : Die → Die) : (s.updDie k g).agenda = s.agenda := rfl
@[simp] theorem State.updDie_moves (s : State) (k : Nat) (g : Die → Die) : (s.updDie k g).moves = s.moves := rfl
@[simp] theorem State.updDie_freeCount (s : State) (k : Nat) (g : Die → Die) : (s.updDie k g).freeCount = s.freeCount := rfl
@[simp] theorem State.updDie_core (s : State) (k j : Nat) (g : Die → Die) : (s.updDie k g).core j = s.core j := rfl
@[simp] theorem State.updDie_serac (s : State) (k j : Nat) (g : Die → Die) : (s.updDie k g).serac j = s.serac j := rfl
@[simp] theorem State.updDie_ctx (s : State) (k j : Nat) (g : Die → Die) : (s.updDie k g).ctx j = s.ctx j := rfl
@[simp] theorem State.die_updDie_self (s : State) (k : Nat) (g : Die → Die) : (s.updDie k g).die k = g (s.die k) :=
  SMap.getD_put_self ..
theorem State.die_updDie_ne (s : State) {k j : Nat} (g : Die → Die) (h : j ≠ k) : (s.updDie k g).die j = s.die j :=
  SMap.getD_put_ne _ _ _ h

/-! ### updSerac -/

@[simp] theorem State.updSerac_mem (s : State) (k : Nat) (g : Serac → Serac) : (s.updSerac k g).mem = s.mem := rfl
@[simp] theorem State.updSerac_poison (s : State) (k : Nat) (g : Serac → Serac) : (s.updSerac k g).poison = s.poison := rfl
@[simp] theorem State.updSerac_contexts (s : State) (k : Nat) (g : Serac → Serac) : (s.updSerac k g).contexts = s.contexts := rfl
@[simp] theorem State.updSerac_cores (s : State) (k : Nat) (g : Serac → Serac) : (s.updSerac k g).cores = s.cores := rfl
@[simp] theorem State.updSerac_dies (s : State) (k : Nat) (g : Serac → Serac) : (s.updSerac k g).dies = s.dies := rfl
@[simp] theorem State.updSerac_graphs (s : State) (k : Nat) (g : Serac → Serac) : (s.updSerac k g).graphs = s.graphs := rfl
@[simp] theorem State.updSerac_nextGraph (s : State) (k : Nat) (g : Serac → Serac) : (s.updSerac k g).nextGraph = s.nextGraph := rfl
@[simp] theorem State.updSerac_runs (s : State) (k : Nat) (g : Serac → Serac) : (s.updSerac k g).runs = s.runs := rfl
@[simp] theorem State.updSerac_credits (s : State) (k : Nat) (g : Serac → Serac) : (s.updSerac k g).credits = s.credits := rfl
@[simp] theorem State.updSerac_ownPast (s : State) (k : Nat) (g : Serac → Serac) : (s.updSerac k g).ownPast = s.ownPast := rfl
@[simp] theorem State.updSerac_late (s : State) (k : Nat) (g : Serac → Serac) : (s.updSerac k g).late = s.late := rfl
@[simp] theorem State.updSerac_devMap (s : State) (k : Nat) (g : Serac → Serac) : (s.updSerac k g).devMap = s.devMap := rfl
@[simp] theorem State.updSerac_cur (s : State) (k : Nat) (g : Serac → Serac) : (s.updSerac k g).cur = s.cur := rfl
@[simp] theorem State.updSerac_slotEnv (s : State) (k : Nat) (g : Serac → Serac) : (s.updSerac k g).slotEnv = s.slotEnv := rfl
@[simp] theorem State.updSerac_agenda (s : State) (k : Nat) (g : Serac → Serac) : (s.updSerac k g).agenda = s.agenda := rfl
@[simp] theorem State.updSerac_moves (s : State) (k : Nat) (g : Serac → Serac) : (s.updSerac k g).moves = s.moves := rfl
@[simp] theorem State.updSerac_freeCount (s : State) (k : Nat) (g : Serac → Serac) : (s.updSerac k g).freeCount = s.freeCount := rfl
@[simp] theorem State.updSerac_core (s : State) (k j : Nat) (g : Serac → Serac) : (s.updSerac k g).core j = s.core j := rfl
@[simp] theorem State.updSerac_die (s : State) (k j : Nat) (g : Serac → Serac) : (s.updSerac k g).die j = s.die j := rfl
@[simp] theorem State.updSerac_ctx (s : State) (k j : Nat) (g : Serac → Serac) : (s.updSerac k g).ctx j = s.ctx j := rfl
@[simp] theorem State.serac_updSerac_self (s : State) (k : Nat) (g : Serac → Serac) : (s.updSerac k g).serac k = g (s.serac k) :=
  SMap.getD_put_self ..
theorem State.serac_updSerac_ne (s : State) {k j : Nat} (g : Serac → Serac) (h : j ≠ k) : (s.updSerac k g).serac j = s.serac j :=
  SMap.getD_put_ne _ _ _ h

/-! ### updCtx and updEnv -/

@[simp] theorem State.updCtx_mem (s : State) (k : Nat) (g : Context → Context) : (s.updCtx k g).mem = s.mem := by
  unfold State.updCtx; split <;> rfl
@[simp] theorem State.updCtx_poison (s : State) (k : Nat) (g : Context → Context) : (s.updCtx k g).poison = s.poison := by
  unfold State.updCtx; split <;> rfl
@[simp] theorem State.updCtx_cores (s : State) (k : Nat) (g : Context → Context) : (s.updCtx k g).cores = s.cores := by
  unfold State.updCtx; split <;> rfl
@[simp] theorem State.updCtx_dies (s : State) (k : Nat) (g : Context → Context) : (s.updCtx k g).dies = s.dies := by
  unfold State.updCtx; split <;> rfl
@[simp] theorem State.updCtx_seracs (s : State) (k : Nat) (g : Context → Context) : (s.updCtx k g).seracs = s.seracs := by
  unfold State.updCtx; split <;> rfl
@[simp] theorem State.updCtx_graphs (s : State) (k : Nat) (g : Context → Context) : (s.updCtx k g).graphs = s.graphs := by
  unfold State.updCtx; split <;> rfl
@[simp] theorem State.updCtx_nextGraph (s : State) (k : Nat) (g : Context → Context) : (s.updCtx k g).nextGraph = s.nextGraph := by
  unfold State.updCtx; split <;> rfl
@[simp] theorem State.updCtx_runs (s : State) (k : Nat) (g : Context → Context) : (s.updCtx k g).runs = s.runs := by
  unfold State.updCtx; split <;> rfl
@[simp] theorem State.updCtx_credits (s : State) (k : Nat) (g : Context → Context) : (s.updCtx k g).credits = s.credits := by
  unfold State.updCtx; split <;> rfl
@[simp] theorem State.updCtx_ownPast (s : State) (k : Nat) (g : Context → Context) : (s.updCtx k g).ownPast = s.ownPast := by
  unfold State.updCtx; split <;> rfl
@[simp] theorem State.updCtx_late (s : State) (k : Nat) (g : Context → Context) : (s.updCtx k g).late = s.late := by
  unfold State.updCtx; split <;> rfl
@[simp] theorem State.updCtx_devMap (s : State) (k : Nat) (g : Context → Context) : (s.updCtx k g).devMap = s.devMap := by
  unfold State.updCtx; split <;> rfl
@[simp] theorem State.updCtx_cur (s : State) (k : Nat) (g : Context → Context) : (s.updCtx k g).cur = s.cur := by
  unfold State.updCtx; split <;> rfl
@[simp] theorem State.updCtx_slotEnv (s : State) (k : Nat) (g : Context → Context) : (s.updCtx k g).slotEnv = s.slotEnv := by
  unfold State.updCtx; split <;> rfl
@[simp] theorem State.updCtx_agenda (s : State) (k : Nat) (g : Context → Context) : (s.updCtx k g).agenda = s.agenda := by
  unfold State.updCtx; split <;> rfl
@[simp] theorem State.updCtx_moves (s : State) (k : Nat) (g : Context → Context) : (s.updCtx k g).moves = s.moves := by
  unfold State.updCtx; split <;> rfl
@[simp] theorem State.updCtx_freeCount (s : State) (k : Nat) (g : Context → Context) : (s.updCtx k g).freeCount = s.freeCount := by
  unfold State.updCtx; split <;> rfl
@[simp] theorem State.updCtx_core (s : State) (k j : Nat) (g : Context → Context) : (s.updCtx k g).core j = s.core j := by
  unfold State.updCtx; split <;> rfl
@[simp] theorem State.updCtx_die (s : State) (k j : Nat) (g : Context → Context) : (s.updCtx k g).die j = s.die j := by
  unfold State.updCtx; split <;> rfl
@[simp] theorem State.updCtx_serac (s : State) (k j : Nat) (g : Context → Context) : (s.updCtx k g).serac j = s.serac j := by
  unfold State.updCtx; split <;> rfl
@[simp] theorem State.ctx_updCtx_self (s : State) (k : Nat) (g : Context → Context) :
    (s.updCtx k g).ctx k = (s.ctx k).map g := by
  unfold State.updCtx
  split
  · rename_i c h
    rw [h, State.ctx_setCtx_self]; rfl
  · rename_i h
    rw [h]; rfl
theorem State.ctx_updCtx_ne (s : State) {k j : Nat} (g : Context → Context) (h : j ≠ k) :
    (s.updCtx k g).ctx j = s.ctx j := by
  unfold State.updCtx
  split
  · exact State.ctx_setCtx_ne _ _ h
  · rfl

/-! ### The bundle being issued -/

@[simp] theorem State.updEnv_mem (s : State) (g : SlotEnv → SlotEnv) : (s.updEnv g).mem = s.mem := rfl
@[simp] theorem State.updEnv_poison (s : State) (g : SlotEnv → SlotEnv) : (s.updEnv g).poison = s.poison := rfl
@[simp] theorem State.updEnv_contexts (s : State) (g : SlotEnv → SlotEnv) : (s.updEnv g).contexts = s.contexts := rfl
@[simp] theorem State.updEnv_cores (s : State) (g : SlotEnv → SlotEnv) : (s.updEnv g).cores = s.cores := rfl
@[simp] theorem State.updEnv_dies (s : State) (g : SlotEnv → SlotEnv) : (s.updEnv g).dies = s.dies := rfl
@[simp] theorem State.updEnv_seracs (s : State) (g : SlotEnv → SlotEnv) : (s.updEnv g).seracs = s.seracs := rfl
@[simp] theorem State.updEnv_graphs (s : State) (g : SlotEnv → SlotEnv) : (s.updEnv g).graphs = s.graphs := rfl
@[simp] theorem State.updEnv_nextGraph (s : State) (g : SlotEnv → SlotEnv) : (s.updEnv g).nextGraph = s.nextGraph := rfl
@[simp] theorem State.updEnv_runs (s : State) (g : SlotEnv → SlotEnv) : (s.updEnv g).runs = s.runs := rfl
@[simp] theorem State.updEnv_credits (s : State) (g : SlotEnv → SlotEnv) : (s.updEnv g).credits = s.credits := rfl
@[simp] theorem State.updEnv_ownPast (s : State) (g : SlotEnv → SlotEnv) : (s.updEnv g).ownPast = s.ownPast := rfl
@[simp] theorem State.updEnv_late (s : State) (g : SlotEnv → SlotEnv) : (s.updEnv g).late = s.late := rfl
@[simp] theorem State.updEnv_devMap (s : State) (g : SlotEnv → SlotEnv) : (s.updEnv g).devMap = s.devMap := rfl
@[simp] theorem State.updEnv_cur (s : State) (g : SlotEnv → SlotEnv) : (s.updEnv g).cur = s.cur := rfl
@[simp] theorem State.updEnv_agenda (s : State) (g : SlotEnv → SlotEnv) : (s.updEnv g).agenda = s.agenda := rfl
@[simp] theorem State.updEnv_moves (s : State) (g : SlotEnv → SlotEnv) : (s.updEnv g).moves = s.moves := rfl
@[simp] theorem State.updEnv_freeCount (s : State) (g : SlotEnv → SlotEnv) : (s.updEnv g).freeCount = s.freeCount := rfl
@[simp] theorem State.updEnv_core (s : State) (j : Nat) (g : SlotEnv → SlotEnv) : (s.updEnv g).core j = s.core j := rfl
@[simp] theorem State.updEnv_die (s : State) (j : Nat) (g : SlotEnv → SlotEnv) : (s.updEnv g).die j = s.die j := rfl
@[simp] theorem State.updEnv_serac (s : State) (j : Nat) (g : SlotEnv → SlotEnv) : (s.updEnv g).serac j = s.serac j := rfl
@[simp] theorem State.updEnv_ctx (s : State) (j : Nat) (g : SlotEnv → SlotEnv) : (s.updEnv g).ctx j = s.ctx j := rfl
@[simp] theorem State.updEnv_slotEnv (s : State) (g : SlotEnv → SlotEnv) : (s.updEnv g).slotEnv = s.slotEnv.map g := rfl

end Sys2Proof.Machine
end

