-- ==== Sys2Proof/Laws/Gen.lean ====
section
/-! SUPPORT. What the generator's shared operations can do: registers, the end check, the frost ring, the result forms. -/

namespace Sys2Proof.Machine

/-! ### Registers (R102) -/

theorem getLsbD_ofNat_two_pow (n i j : Nat) (hi : i < n) :
    (BitVec.ofNat n (2 ^ i)).getLsbD j = decide (j = i) := by
  rw [BitVec.getLsbD_ofNat, Nat.testBit_two_pow]
  by_cases h : i = j
  · subst h; simp [hi]
  · simp [h, Ne.symm h]

theorem setBit64_get (m : BitVec 64) (i j : Nat) (b : Bool) (hi : i < 64) :
    (setBit64 m i b).getLsbD j = if j = i then b else m.getLsbD j := by
  unfold setBit64
  cases b
  · simp only [Bool.false_eq_true, ↓reduceIte, BitVec.getLsbD_and, BitVec.getLsbD_not, getLsbD_ofNat_two_pow _ _ _ hi]
    by_cases h : j = i
    · simp [h]
    · by_cases hj : j < 64
      · simp [h, hj]
      · simp [h, hj, BitVec.getLsbD_of_ge m j (by omega)]
  · simp only [↓reduceIte, BitVec.getLsbD_or, getLsbD_ofNat_two_pow _ _ _ hi]
    by_cases h : j = i <;> simp [h]

theorem Thread.setReg_wrote (t : Thread) (d : BitVec 6) (v : Word) (p : Bool) : t.Wrote (t.setReg d v p) d v p := by
  have hd : d.toNat < 64 := by omega
  by_cases h0 : d = 0
  · subst h0; exact ⟨fun x => by simp [Thread.setReg], fun x => by simp [Thread.setReg]⟩
  · have e : t.setReg d v p = { t with regs := SMap.put t.regs d.toNat v, rpoison := setBit64 t.rpoison d.toNat p } := if_neg h0
    rw [e]
    constructor <;> intro x <;> by_cases hx : x = d
    · subst hx; rw [if_pos ⟨rfl, h0⟩]; exact (if_neg h0).trans (SMap.getD_put_self ..)
    · rw [if_neg (fun h => hx h.1)]
      simp only [Thread.reg, SMap.getD_put_ne _ _ _ (fun e => hx (BitVec.eq_of_toNat_eq e) : x.toNat ≠ d.toNat)]
    · subst hx; rw [if_pos ⟨rfl, h0⟩]; exact (if_neg h0).trans ((setBit64_get _ _ _ _ hd).trans (if_pos rfl))
    · rw [if_neg (fun h => hx h.1)]
      simp only [Thread.regPoison, setBit64_get _ _ _ _ hd, if_neg (fun e => hx (BitVec.eq_of_toNat_eq e) : ¬ x.toNat = d.toNat)]

@[simp] theorem Thread.setReg_loops (t : Thread) (d : BitVec 6) (v : Word) (p : Bool) : (t.setReg d v p).loops = t.loops := by
  unfold Thread.setReg; split <;> rfl
@[simp] theorem Thread.setReg_pc (t : Thread) (d : BitVec 6) (v : Word) (p : Bool) : (t.setReg d v p).pc = t.pc := by
  unfold Thread.setReg; split <;> rfl
@[simp] theorem Thread.setReg_tstate (t : Thread) (d : BitVec 6) (v : Word) (p : Bool) : (t.setReg d v p).tstate = t.tstate := by
  unfold Thread.setReg; split <;> rfl
@[simp] theorem Thread.setReg_floor (t : Thread) (d : BitVec 6) (v : Word) (p : Bool) : (t.setReg d v p).floor = t.floor := by
  unfold Thread.setReg; split <;> rfl
theorem Thread.setReg_onlyFlow (t : Thread) (d : BitVec 6) (v : Word) (p : Bool) : t.OnlyFlow (t.setReg d v p) := by
  unfold Thread.OnlyFlow Thread.setReg; split <;> rfl

/-! ### The end check (R113) -/

@[simp] theorem Thread.finish_pc (t : Thread) (n : Word) : (t.finish n).pc = t.nextPc n := rfl
@[simp] theorem Thread.finish_loops (t : Thread) (n : Word) : (t.finish n).loops = t.nextLoops n := rfl
@[simp] theorem Thread.finish_reg (t : Thread) (n : Word) (x : BitVec 6) : (t.finish n).reg x = t.reg x := rfl
@[simp] theorem Thread.finish_regPoison (t : Thread) (n : Word) (x : BitVec 6) : (t.finish n).regPoison x = t.regPoison x := rfl
theorem Thread.finish_onlyFlow {t t' : Thread} (n : Word) (h : t.OnlyFlow t') : t.OnlyFlow (t'.finish n) := by
  unfold Thread.OnlyFlow at *
  rw [h]; rfl
@[simp] theorem Thread.setReg_nextPc (t : Thread) (d : BitVec 6) (v : Word) (p : Bool) (n : Word) :
    (t.setReg d v p).nextPc n = t.nextPc n := by simp [Thread.nextPc]
@[simp] theorem Thread.setReg_nextLoops (t : Thread) (d : BitVec 6) (v : Word) (p : Bool) (n : Word) :
    (t.setReg d v p).nextLoops n = t.nextLoops n := by simp [Thread.nextLoops]

/-! ### Frames -/

theorem GenFrame.setCtx (s : State) (c : Context) : GenFrame s (s.setCtx s.cur c) where
  mem _ := rfl
  poison := rfl
  others _ h := State.ctx_setCtx_ne s c h
  rest := rfl
  rings _ := rfl

/-- The frost rings are all that a record changes (R334). -/
theorem State.frost_cases (s : State) (k kind : Nat) (p : BitVec 96) :
    ∃ cores, s.frost k kind p = { s with cores := cores } ∧
      ∀ j, ∃ f, SMap.getD cores j Core.reset = { s.core j with frost := f } := by
  unfold State.frost State.frostIn
  split
  · exact ⟨s.cores, rfl, fun j => ⟨(s.core j).frost, rfl⟩⟩
  · rename_i c _
    split
    · exact ⟨s.cores, rfl, fun j => ⟨(s.core j).frost, rfl⟩⟩
    · refine ⟨_, rfl, fun j => ?_⟩
      rw [SMap.getD_put]
      split
      · rename_i h
        subst h
        exact ⟨_, rfl⟩
      · exact ⟨(s.core j).frost, rfl⟩

theorem GenFrame.addFrost {s t : State} (h : GenFrame s t) (k kind : Nat) (p : BitVec 96) : GenFrame s (t.frost k kind p) := by
  obtain ⟨cores, e, hc⟩ := t.frost_cases k kind p
  rw [e]
  refine ⟨h.mem, h.poison, h.others, ?_, fun j => ?_⟩
  · conv_lhs => rw [h.rest]
  · obtain ⟨f, hj⟩ := hc j
    show SMap.getD cores j Core.reset = { s.core j with frost := (SMap.getD cores j Core.reset).frost }
    rw [hj, h.rings j]

@[simp] theorem State.frost_ctx (s : State) (k kind : Nat) (p : BitVec 96) (j : Nat) : (s.frost k kind p).ctx j = s.ctx j := by
  obtain ⟨_, e, _⟩ := s.frost_cases k kind p; rw [e]; rfl
@[simp] theorem State.frost_mem (s : State) (k kind : Nat) (p : BitVec 96) : (s.frost k kind p).mem = s.mem := by
  obtain ⟨_, e, _⟩ := s.frost_cases k kind p; rw [e]
@[simp] theorem State.frost_poison (s : State) (k kind : Nat) (p : BitVec 96) : (s.frost k kind p).poison = s.poison := by
  obtain ⟨_, e, _⟩ := s.frost_cases k kind p; rw [e]
@[simp] theorem State.frost_contexts (s : State) (k kind : Nat) (p : BitVec 96) : (s.frost k kind p).contexts = s.contexts := by
  obtain ⟨_, e, _⟩ := s.frost_cases k kind p; rw [e]
@[simp] theorem State.frost_dies (s : State) (k kind : Nat) (p : BitVec 96) : (s.frost k kind p).dies = s.dies := by
  obtain ⟨_, e, _⟩ := s.frost_cases k kind p; rw [e]
@[simp] theorem State.frost_seracs (s : State) (k kind : Nat) (p : BitVec 96) : (s.frost k kind p).seracs = s.seracs := by
  obtain ⟨_, e, _⟩ := s.frost_cases k kind p; rw [e]
@[simp] theorem State.frost_graphs (s : State) (k kind : Nat) (p : BitVec 96) : (s.frost k kind p).graphs = s.graphs := by
  obtain ⟨_, e, _⟩ := s.frost_cases k kind p; rw [e]
@[simp] theorem State.frost_runs (s : State) (k kind : Nat) (p : BitVec 96) : (s.frost k kind p).runs = s.runs := by
  obtain ⟨_, e, _⟩ := s.frost_cases k kind p; rw [e]
@[simp] theorem State.frost_credits (s : State) (k kind : Nat) (p : BitVec 96) : (s.frost k kind p).credits = s.credits := by
  obtain ⟨_, e, _⟩ := s.frost_cases k kind p; rw [e]
@[simp] theorem State.frost_devMap (s : State) (k kind : Nat) (p : BitVec 96) : (s.frost k kind p).devMap = s.devMap := by
  obtain ⟨_, e, _⟩ := s.frost_cases k kind p; rw [e]
@[simp] theorem State.frost_cur (s : State) (k kind : Nat) (p : BitVec 96) : (s.frost k kind p).cur = s.cur := by
  obtain ⟨_, e, _⟩ := s.frost_cases k kind p; rw [e]
@[simp] theorem State.frost_slotEnv (s : State) (k kind : Nat) (p : BitVec 96) : (s.frost k kind p).slotEnv = s.slotEnv := by
  obtain ⟨_, e, _⟩ := s.frost_cases k kind p; rw [e]
@[simp] theorem State.frost_agenda (s : State) (k kind : Nat) (p : BitVec 96) : (s.frost k kind p).agenda = s.agenda := by
  obtain ⟨_, e, _⟩ := s.frost_cases k kind p; rw [e]
@[simp] theorem State.frost_moves (s : State) (k kind : Nat) (p : BitVec 96) : (s.frost k kind p).moves = s.moves := by
  obtain ⟨_, e, _⟩ := s.frost_cases k kind p; rw [e]
@[simp] theorem State.frost_freeCount (s : State) (k kind : Nat) (p : BitVec 96) : (s.frost k kind p).freeCount = s.freeCount := by
  obtain ⟨_, e, _⟩ := s.frost_cases k kind p; rw [e]

/-! ### The forms of a result -/

theorem withThread_of (s : State) (c : Context) (h : s.Executes c) (f : Context → State) : withThread s f = .next (f c) := by
  unfold withThread; rw [show s.ctx s.cur = some c from h]

/-- What every generator instruction with a result in d does. -/
theorem genWrite_writes (s : State) (c : Context) (h : s.Executes c) (d : BitVec 6) (f : Thread → Word × Bool) :
    Writes s c (genWrite s d f) d (f c.thread).1 (f c.thread).2 (c.thread.pc + 4) := by
  unfold genWrite
  rw [withThread_of s c h]
  have w := c.thread.setReg_wrote d (f c.thread).1 (f c.thread).2
  refine ⟨_, _, rfl, State.ctx_setCtx_self .., ⟨fun x => ?_, fun x => ?_⟩, ?_, ?_, rfl, ?_, GenFrame.setCtx ..⟩
  · exact w.value x
  · exact w.tag x
  · simp
  · simp
  · exact Thread.finish_onlyFlow _ (Thread.setReg_onlyFlow ..)

theorem genAlu_writes (s : State) (c : Context) (h : s.Executes c) (d a b : BitVec 6) (f : Word → Word → Word) :
    Writes s c (genAlu s d a b f) d (f (c.thread.reg a) (c.thread.reg b)) (c.thread.regPoison a || c.thread.regPoison b)
      (c.thread.pc + 4) :=
  genWrite_writes s c h d _

theorem genUnary_writes (s : State) (c : Context) (h : s.Executes c) (d a : BitVec 6) (f : Word → Word) :
    Writes s c (genUnary s d a f) d (f (c.thread.reg a)) (c.thread.regPoison a) (c.thread.pc + 4) :=
  genWrite_writes s c h d _

/-- What an instruction that only moves the thread does. -/
theorem goOn_goesOn (s : State) (c : Context) (next : Word) : GoesOn s c (.next (s.goOn c c.thread next)) next :=
  ⟨_, _, rfl, State.ctx_setCtx_self .., ⟨fun _ => rfl, fun _ => rfl⟩, rfl, rfl, rfl,
    Thread.finish_onlyFlow _ rfl, GenFrame.setCtx ..⟩

theorem goOn_frost_goesOn (s : State) (c : Context) (next : Word) (kind : Nat) (p : BitVec 96) :
    GoesOn s c (.next ((s.goOn c c.thread next).frost s.cur kind p)) next :=
  ⟨_, _, rfl, (State.frost_ctx ..).trans (State.ctx_setCtx_self ..), ⟨fun _ => rfl, fun _ => rfl⟩, rfl, rfl, rfl,
    Thread.finish_onlyFlow _ rfl, (GenFrame.setCtx s _).addFrost _ _ _⟩

/-- What an instruction that makes its thread wait does. -/
theorem setCtx_waits (s : State) (c : Context) (w : GenWait) : Waits s c (.next (s.setCtx s.cur { c with wait := w })) w :=
  ⟨_, rfl, State.ctx_setCtx_self .., GenFrame.setCtx ..⟩

/-- What taking a trap does where its handler exists and does not run (R135). -/
theorem takeTrap_traps (s : State) (c : Context) (h : s.Executes c) (hh : c.Handles) (code sub : Nat) (tpc tval : Word) (f : Bool) :
    Traps s c (.next (s.takeTrap s.cur code sub tpc tval f)) code sub tpc tval f := by
  obtain ⟨h1, h2⟩ := hh
  refine ⟨_, rfl, ?_, ?_⟩ <;> unfold State.takeTrap <;> rw [show s.ctx s.cur = some c from h] <;>
    simp only [h1, Bool.false_or, beq_eq_false_iff_ne.mpr h2, Bool.false_eq_true, ↓reduceIte]
  · exact (GenFrame.setCtx s _).addFrost _ _ _
  · rw [State.frost_ctx]; exact State.ctx_setCtx_self ..

theorem genFault_traps (s : State) (c : Context) (h : s.Executes c) (hh : c.Handles) (code sub : Nat) (tval : Word) :
    Traps s c (.next (s.genFault s.cur code sub tval)) code sub c.thread.pc tval false := by
  unfold State.genFault
  rw [show s.ctx s.cur = some c from h]
  exact takeTrap_traps s c h hh ..

end Sys2Proof.Machine
end

