-- ==== Sys2Proof/Laws/Slot.lean ====
section
/-! SUPPORT. What the slot operations' shared operations can do: the bundle's record, its frame, the results of a vector
operation. -/

namespace Sys2Proof.Machine

theorem withSlot_of (s : State) (env : SlotEnv) (c : Context) (h : s.Issues env c) (f : SlotEnv → Context → State) :
    withSlot s f = .next (f env c) := by
  unfold withSlot; rw [h.1]; simp only; rw [h.2]

/-! ### The record of the bundle -/

theorem State.updEnv_self (s : State) : s.updEnv (fun e => e) = s := by
  unfold State.updEnv; cases h : s.slotEnv <;> simp [← h]

theorem State.holdIf_eq (s : State) (cond : Bool) (cause : Nat) : s.holdIf cond cause = s.updEnv (fun e => e.held cond cause) := by
  cases cond
  · exact (State.updEnv_self s).symm
  · rfl

theorem State.slotFault_eq (s : State) (f : BFault) : s.slotFault f = s.updEnv (fun e => e.faults f) := rfl
theorem State.slotXlate_eq (s : State) (n : Nat) (x : XFault) : s.slotXlate n x = s.updEnv (fun e => e.misses n x) := rfl
theorem State.addActs_eq (s : State) (a : List CommitAct) : s.addActs a = s.updEnv (fun e => e.does a) := rfl

/-! ### Frames -/

theorem SlotFrame.refl (s : State) (k : Nat) : SlotFrame s s k :=
  ⟨fun _ => rfl, rfl, fun _ _ => rfl, rfl, fun _ => rfl, fun _ => rfl⟩

theorem SlotFrame.setCtx {s t : State} {k : Nat} (h : SlotFrame s t k) (c : Context) : SlotFrame s (t.setCtx k c) k where
  mem := h.mem
  poison := h.poison
  others j hj := (State.ctx_setCtx_ne t c hj).trans (h.others j hj)
  rest := by conv_lhs => rw [h.rest]
             rfl
  rings := h.rings
  caches := h.caches

theorem SlotFrame.updEnv {s t : State} {k : Nat} (h : SlotFrame s t k) (g : SlotEnv → SlotEnv) : SlotFrame s (t.updEnv g) k where
  mem := h.mem
  poison := h.poison
  others := h.others
  rest := by conv_lhs => rw [h.rest]
             rfl
  rings := h.rings
  caches := h.caches

theorem SlotFrame.addFrost {s t : State} {k : Nat} (h : SlotFrame s t k) (j kind : Nat) (p : BitVec 96) :
    SlotFrame s (t.frost j kind p) k := by
  obtain ⟨cores, e, hc⟩ := t.frost_cases j kind p
  rw [e]
  refine ⟨h.mem, h.poison, h.others, ?_, fun j => ?_, h.caches⟩
  · conv_lhs => rw [h.rest]
  · obtain ⟨f, hj⟩ := hc j
    show SMap.getD cores j Core.reset = { s.core j with frost := (SMap.getD cores j Core.reset).frost }
    rw [hj, h.rings j]

/-- The cached translations of one die and its cores are all that keeping a translation changes (R51). -/
theorem State.cacheTranslation_cases (s : State) (c : Context) (va : Word) :
    ∃ dies, s.cacheTranslation c va = { s with dies := dies } ∧
      ∀ j, ∃ t b, SMap.getD dies j Die.reset = { s.die j with tcache := t, tlbs := b } := by
  have same : ∃ dies, s = { s with dies := dies } ∧ ∀ j, ∃ t b, SMap.getD dies j Die.reset = { s.die j with tcache := t, tlbs := b } :=
    ⟨s.dies, rfl, fun j => ⟨(s.die j).tcache, (s.die j).tlbs, rfl⟩⟩
  unfold State.cacheTranslation
  split
  · exact same
  · split
    · exact same
    · refine ⟨_, rfl, fun j => ?_⟩
      rw [SMap.getD_put]
      split
      · rename_i hj; subst hj; exact ⟨_, _, rfl⟩
      · exact ⟨(s.die j).tcache, (s.die j).tlbs, rfl⟩

theorem SlotFrame.cache {s t : State} {k : Nat} (h : SlotFrame s t k) (c : Context) (va : Word) :
    SlotFrame s (t.cacheTranslation c va) k := by
  obtain ⟨dies, e, hd⟩ := t.cacheTranslation_cases c va
  rw [e]
  refine ⟨h.mem, h.poison, h.others, ?_, h.rings, fun j => ?_⟩
  · conv_lhs => rw [h.rest]
  · obtain ⟨x, y, hj⟩ := hd j
    show SMap.getD dies j Die.reset = { s.die j with
      tcache := (SMap.getD dies j Die.reset).tcache, tlbs := (SMap.getD dies j Die.reset).tlbs }
    rw [hj, h.caches j]

@[simp] theorem State.cacheTranslation_mem (s : State) (c : Context) (va : Word) : (s.cacheTranslation c va).mem = s.mem := by
  obtain ⟨_, e, _⟩ := s.cacheTranslation_cases c va; rw [e]
@[simp] theorem State.cacheTranslation_poison (s : State) (c : Context) (va : Word) : (s.cacheTranslation c va).poison = s.poison := by
  obtain ⟨_, e, _⟩ := s.cacheTranslation_cases c va; rw [e]
@[simp] theorem State.cacheTranslation_contexts (s : State) (c : Context) (va : Word) : (s.cacheTranslation c va).contexts = s.contexts := by
  obtain ⟨_, e, _⟩ := s.cacheTranslation_cases c va; rw [e]
@[simp] theorem State.cacheTranslation_cores (s : State) (c : Context) (va : Word) : (s.cacheTranslation c va).cores = s.cores := by
  obtain ⟨_, e, _⟩ := s.cacheTranslation_cases c va; rw [e]
@[simp] theorem State.cacheTranslation_seracs (s : State) (c : Context) (va : Word) : (s.cacheTranslation c va).seracs = s.seracs := by
  obtain ⟨_, e, _⟩ := s.cacheTranslation_cases c va; rw [e]
@[simp] theorem State.cacheTranslation_graphs (s : State) (c : Context) (va : Word) : (s.cacheTranslation c va).graphs = s.graphs := by
  obtain ⟨_, e, _⟩ := s.cacheTranslation_cases c va; rw [e]
@[simp] theorem State.cacheTranslation_runs (s : State) (c : Context) (va : Word) : (s.cacheTranslation c va).runs = s.runs := by
  obtain ⟨_, e, _⟩ := s.cacheTranslation_cases c va; rw [e]
@[simp] theorem State.cacheTranslation_credits (s : State) (c : Context) (va : Word) : (s.cacheTranslation c va).credits = s.credits := by
  obtain ⟨_, e, _⟩ := s.cacheTranslation_cases c va; rw [e]
@[simp] theorem State.cacheTranslation_devMap (s : State) (c : Context) (va : Word) : (s.cacheTranslation c va).devMap = s.devMap := by
  obtain ⟨_, e, _⟩ := s.cacheTranslation_cases c va; rw [e]
@[simp] theorem State.cacheTranslation_cur (s : State) (c : Context) (va : Word) : (s.cacheTranslation c va).cur = s.cur := by
  obtain ⟨_, e, _⟩ := s.cacheTranslation_cases c va; rw [e]
@[simp] theorem State.cacheTranslation_slotEnv (s : State) (c : Context) (va : Word) : (s.cacheTranslation c va).slotEnv = s.slotEnv := by
  obtain ⟨_, e, _⟩ := s.cacheTranslation_cases c va; rw [e]
@[simp] theorem State.cacheTranslation_agenda (s : State) (c : Context) (va : Word) : (s.cacheTranslation c va).agenda = s.agenda := by
  obtain ⟨_, e, _⟩ := s.cacheTranslation_cases c va; rw [e]
@[simp] theorem State.cacheTranslation_moves (s : State) (c : Context) (va : Word) : (s.cacheTranslation c va).moves = s.moves := by
  obtain ⟨_, e, _⟩ := s.cacheTranslation_cases c va; rw [e]
@[simp] theorem State.cacheTranslation_freeCount (s : State) (c : Context) (va : Word) : (s.cacheTranslation c va).freeCount = s.freeCount := by
  obtain ⟨_, e, _⟩ := s.cacheTranslation_cases c va; rw [e]
@[simp] theorem State.cacheTranslation_ctx (s : State) (c : Context) (va : Word) (j : Nat) :
    (s.cacheTranslation c va).ctx j = s.ctx j := by
  obtain ⟨_, e, _⟩ := s.cacheTranslation_cases c va; rw [e]; rfl

/-- What a slot operation answers, from the state it makes. -/
theorem SlotDoes.of {s t : State} {env env' : SlotEnv} {c' : Context} (h1 : t.ctx env.ctx = some c') (h2 : t.slotEnv = some env')
    (h3 : SlotFrame s t env.ctx) : SlotDoes s env (.next t) c' env' := ⟨t, rfl, h1, h2, h3⟩

/-- A slot operation that changes its context and its bundle's record. -/
theorem SlotDoes.both {s : State} {env : SlotEnv} {c : Context} (h : s.Issues env c) (c' : Context) (g : SlotEnv → SlotEnv) :
    SlotDoes s env (.next ((s.setCtx env.ctx c').updEnv g)) c' (g env) :=
  .of (State.ctx_setCtx_self ..) (by rw [State.updEnv_slotEnv, State.setCtx_slotEnv, h.1]; rfl)
    (((SlotFrame.refl s env.ctx).setCtx c').updEnv g)

/-- A slot operation that changes its context only. -/
theorem SlotDoes.context {s : State} {env : SlotEnv} {c : Context} (h : s.Issues env c) (c' : Context) :
    SlotDoes s env (.next (s.setCtx env.ctx c')) c' env :=
  .of (State.ctx_setCtx_self ..) h.1 ((SlotFrame.refl s env.ctx).setCtx c')

/-- A slot operation that changes its bundle's record only. -/
theorem SlotDoes.record {s : State} {env : SlotEnv} {c : Context} (h : s.Issues env c) (g : SlotEnv → SlotEnv) :
    SlotDoes s env (.next (s.updEnv g)) c (g env) :=
  .of h.2 (by rw [State.updEnv_slotEnv, h.1]; rfl) ((SlotFrame.refl s env.ctx).updEnv g)

/-- A slot operation that does nothing. -/
theorem SlotDoes.nothing {s : State} {env : SlotEnv} {c : Context} (h : s.Issues env c) : SlotDoes s env (.next s) c env :=
  .of h.2 h.1 (SlotFrame.refl s env.ctx)

end Sys2Proof.Machine
end

