-- ==== Sys2Proof/Laws/Lanes.lean ====
section
/-! SUPPORT. Lanes put into a register and read back, the byte mask of a predicate, and what a lane-wise operation answers. -/

namespace Sys2Proof.Machine

/-- The number a list of lanes makes. -/
def lanesNat (w : Nat) (l : List Nat) : Nat := l.foldr (fun x acc => x % 2 ^ w + 2 ^ w * acc) 0

theorem lanesNat_lt (w : Nat) (l : List Nat) : lanesNat w l < 2 ^ (w * l.length) := by
  induction l with
  | nil => simp [lanesNat]
  | cons x r ih =>
    have h : x % 2 ^ w < 2 ^ w := Nat.mod_lt _ (Nat.two_pow_pos w)
    have e : lanesNat w (x :: r) = x % 2 ^ w + 2 ^ w * lanesNat w r := rfl
    rw [e, List.length_cons, Nat.mul_succ, Nat.add_comm (w * r.length), Nat.pow_add]
    calc x % 2 ^ w + 2 ^ w * lanesNat w r < 2 ^ w * 1 + 2 ^ w * lanesNat w r := by omega
      _ = 2 ^ w * (lanesNat w r + 1) := by ring
      _ ≤ 2 ^ w * 2 ^ (w * r.length) := Nat.mul_le_mul_left _ ih

theorem lanesNat_lane (w : Nat) (l : List Nat) (i : Nat) : lanesNat w l / 2 ^ (w * i) % 2 ^ w = l.getD i 0 % 2 ^ w := by
  induction l generalizing i with
  | nil => simp [lanesNat]
  | cons x r ih =>
    have e : lanesNat w (x :: r) = x % 2 ^ w + 2 ^ w * lanesNat w r := rfl
    cases i with
    | zero => simp [e]
    | succ i =>
      have h : x % 2 ^ w < 2 ^ w := Nat.mod_lt _ (Nat.two_pow_pos w)
      rw [e, Nat.mul_succ, Nat.add_comm (w * i), Nat.pow_add, ← Nat.div_div_eq_div_mul,
        Nat.add_mul_div_left _ _ (Nat.two_pow_pos w), Nat.div_eq_of_lt h, Nat.zero_add, ih]
      rfl

theorem lane_ofLanes (w : Nat) (l : List Nat) (i : Nat) (h : w * l.length ≤ 512) :
    lane (ofLanes w l) w i = l.getD i 0 % 2 ^ w := by
  have e : (ofLanes w l).toNat = lanesNat w l := by
    unfold ofLanes
    rw [BitVec.toNat_ofNat]
    exact Nat.mod_eq_of_lt (lt_of_lt_of_le (lanesNat_lt w l) (Nat.pow_le_pow_right Nat.two_pos h))
  unfold lane
  rw [e, lanesNat_lane]

theorem maskNat_testBit (b : Nat) (f : Nat → Bool) (m q n : Nat) :
    ((List.range m).foldr (fun i acc => (if f i then 2 ^ b - 1 else 0) * 2 ^ (b * i) + acc) (2 ^ (b * m) * q)).testBit n =
      if n < b * m then f (n / b) else q.testBit (n - b * m) := by
  induction m generalizing q with
  | zero => simp
  | succ m ih =>
    rw [List.range_succ, List.foldr_append]
    simp only [List.foldr_cons, List.foldr_nil]
    generalize hd : (if f m then 2 ^ b - 1 else 0) = d
    have hlt : d < 2 ^ b := by
      have := Nat.two_pow_pos b
      subst hd; split <;> omega
    rw [show d * 2 ^ (b * m) + 2 ^ (b * (m + 1)) * q = 2 ^ (b * m) * (2 ^ b * q + d) by
      rw [Nat.mul_succ, Nat.pow_add]; ring, ih]
    by_cases h1 : n < b * m
    · rw [if_pos h1, if_pos (lt_of_lt_of_le h1 (Nat.mul_le_mul_left b (Nat.le_succ m)))]
    · rw [if_neg h1, Nat.testBit_two_pow_mul_add _ hlt]
      have e : b * (m + 1) = b * m + b := Nat.mul_succ b m
      by_cases h2 : n - b * m < b
      · rw [if_pos h2, if_pos (by omega)]
        have hn : n / b = m := by
          apply Nat.div_eq_of_lt_le
          · rw [Nat.mul_comm]; omega
          · rw [Nat.succ_mul, Nat.mul_comm m b]; omega
        rw [hn, ← hd]
        cases f m
        · simp
        · simp [Nat.testBit_two_pow_sub_one, h2]
      · rw [if_neg h2, if_neg (by omega)]
        congr 1; omega

theorem maskOf_get (b : Nat) (hb : b ∣ 64) (f : Nat → Bool) (n : Nat) (hn : n < 64) :
    (maskOf b f).getLsbD n = f (n / b) := by
  unfold maskOf
  rw [BitVec.getLsbD_ofNat]
  have := maskNat_testBit b f (64 / b) 0 n
  rw [Nat.mul_zero] at this
  rw [this, Nat.mul_div_cancel' hb, if_pos hn]
  simp [hn]

theorem typeBytes_dvd (ty : Nat) : typeBytes ty ∣ 64 := by
  unfold typeBytes; split <;> [exact ⟨16, rfl⟩; (split <;> [exact ⟨32, rfl⟩; exact ⟨64, rfl⟩])]

theorem typeLanes_bits (ty : Nat) : 8 * typeBytes ty * typeLanes ty = 512 := by
  unfold typeLanes; rw [Nat.mul_assoc, Nat.mul_div_cancel' (typeBytes_dvd ty)]

theorem addActs_nil (s : State) : s.addActs [] = s.updEnv (fun e => e.does []) := rfl

/-- What a vector operation with a lane-wise result answers (R206). -/
theorem laneWise_writes (s : State) (env : SlotEnv) (c : Context) (h : s.Issues env c) (p : Pipe) (w : VWord) (u : VUse)
    (lat ty : Nat) (f : VIn → Nat → Nat × Flags) :
    VecWrites s env c (issueVec s p w u lat fun _ i => laneWise ty w i (f i)) p w u lat ty f := by
  unfold issueVec
  rw [withSlot_of s env c h]
  refine ⟨maskOf (typeBytes ty) (laneTrue (readVec c env.cc p u w).p (typeBytes ty)),
    ofLanes (8 * typeBytes ty) ((List.range (typeLanes ty)).map (fun j => (f (readVec c env.cc p u w) j).1)),
    fun j hj => ?_, fun n hn => ?_, ?_⟩
  · rw [lane_ofLanes _ _ _ (by simp [typeLanes_bits])]
    simp [List.getD, hj]
  · rw [maskOf_get _ (typeBytes_dvd ty) _ _ hn]; rfl
  · have e : ((List.range (typeLanes ty)).map (fun j => (laneTrue (readVec c env.cc p u w).p (typeBytes ty) j,
        f (readVec c env.cc p u w) j))).map (fun x => if x.1 then x.2.2 else 0) =
        (List.range (typeLanes ty)).map (fun j =>
          if laneTrue (readVec c env.cc p u w).p (typeBytes ty) j then (f (readVec c env.cc p u w) j).2 else 0) := by
      rw [List.map_map]; rfl
    have e2 : ((List.range (typeLanes ty)).map (fun j => (laneTrue (readVec c env.cc p u w).p (typeBytes ty) j,
        f (readVec c env.cc p u w) j))).map (fun x => x.2.1) =
        (List.range (typeLanes ty)).map (fun j => (f (readVec c env.cc p u w) j).1) := by
      rw [List.map_map]; rfl
    simp only [laneWise, e, e2, List.foldl_cons, List.foldl_nil]
    exact SlotDoes.both h _ (fun e => e.does _)
end Sys2Proof.Machine
end

