-- ==== Sys2Proof/Laws/Memory.lean ====
section
/-! SUPPORT. The laws of memory: reading after writing, and that every memory operation keeps the canonical form. -/

namespace Sys2Proof.Machine

namespace Memory

theorem wfFrom_mono {lo lo' : Nat} {m : List Host.Cell} (h : lo' ≤ lo) (hm : wfFrom lo m = true) : wfFrom lo' m = true := by
  cases m with
  | nil => rfl
  | cons p rest =>
    simp only [wfFrom, Bool.and_eq_true, decide_eq_true_eq] at *
    exact ⟨⟨by omega, hm.1.2⟩, hm.2⟩

/-- An address below every listed one reads 0. -/
theorem read_below {lo a : Nat} {m : List Host.Cell} (hm : wfFrom lo m = true) (h : a < lo) : read m a = 0 := by
  cases m with
  | nil => rfl
  | cons p rest =>
    simp only [wfFrom, Bool.and_eq_true, decide_eq_true_eq] at hm
    simp only [read]
    rw [if_neg (by omega), if_pos (by omega)]

theorem write_wfFrom {lo a : Nat} {m : List Host.Cell} (v : Byte) (hm : wfFrom lo m = true) (h : lo ≤ a) :
    wfFrom lo (write m a v) = true := by
  induction m generalizing lo with
  | nil =>
    simp only [write]
    split
    · rfl
    · rename_i hv
      simp only [wfFrom, Bool.and_eq_true, decide_eq_true_eq]
      exact ⟨⟨h, by simpa using hv⟩, trivial⟩
  | cons p rest ih =>
    obtain ⟨j, b⟩ := p
    simp only [wfFrom, Bool.and_eq_true, decide_eq_true_eq] at hm
    obtain ⟨⟨h1, h2⟩, h3⟩ := hm
    simp only [write]
    split
    · split
      · simp only [wfFrom, Bool.and_eq_true, decide_eq_true_eq]
        exact ⟨⟨h1, h2⟩, h3⟩
      · rename_i hj hv
        simp only [wfFrom, Bool.and_eq_true, decide_eq_true_eq]
        exact ⟨⟨h, by simpa using hv⟩, ⟨by omega, h2⟩, h3⟩
    · split
      · split
        · exact wfFrom_mono (by omega) h3
        · rename_i hj hv
          simp only [wfFrom, Bool.and_eq_true, decide_eq_true_eq]
          exact ⟨⟨h1, by simpa using hv⟩, h3⟩
      · simp only [wfFrom, Bool.and_eq_true, decide_eq_true_eq]
        exact ⟨⟨h1, h2⟩, ih h3 (by omega)⟩

/-- A write keeps the canonical form. -/
theorem write_wf {m : List Host.Cell} (a : Nat) (v : Byte) (h : wf m = true) : wf (write m a v) = true :=
  write_wfFrom v h (Nat.zero_le a)

/-- A read after a write at the same address gives the byte written. -/
theorem read_write_self {m : List Host.Cell} (a : Nat) (v : Byte) (h : wf m = true) : read (write m a v) a = v := by
  unfold wf at h
  generalize 0 = lo at h
  induction m generalizing lo with
  | nil =>
    simp only [write]
    split
    · rename_i hv; rw [hv]; rfl
    · simp [read]
  | cons p rest ih =>
    obtain ⟨j, b⟩ := p
    simp only [wfFrom, Bool.and_eq_true, decide_eq_true_eq] at h
    simp only [write]
    split
    · rename_i hj
      split
      · rename_i hv; simp [read, hv, hj, Nat.ne_of_gt hj]
      · simp [read]
    · split
      · rename_i hj
        split
        · rename_i hv; rw [hv]; exact read_below h.2 (by omega)
        · simp [read, hj]
      · rename_i h1 h2
        simp only [read]
        rw [if_neg (by omega), if_neg (by omega)]
        exact ih _ h.2

/-- A write leaves every other address alone. -/
theorem read_write_ne {m : List Host.Cell} {a a' : Nat} (v : Byte) (h : wf m = true) (hne : a' ≠ a) :
    read (write m a v) a' = read m a' := by
  unfold wf at h
  generalize 0 = lo at h
  induction m generalizing lo with
  | nil =>
    simp only [write]
    split
    · rfl
    · simp [read, Ne.symm hne]
  | cons p rest ih =>
    obtain ⟨j, b⟩ := p
    simp only [wfFrom, Bool.and_eq_true, decide_eq_true_eq] at h
    simp only [write]
    split
    · rename_i hj
      split
      · rfl
      · simp only [read]
        rw [if_neg (Ne.symm hne)]
        split
        · rw [if_neg (by omega), if_pos (by omega)]
        · rfl
    · split
      · rename_i hj
        have hja : ¬ j = a' := by omega
        split
        · simp only [read]
          rw [if_neg hja]
          split
          · exact read_below h.2 (by omega)
          · rfl
        · simp only [read, if_neg hja]
      · simp only [read]
        split
        · rfl
        · split
          · rfl
          · exact ih _ h.2

theorem writeBytes_wf {m : List Host.Cell} (a : Nat) (b : List Byte) (h : wf m = true) : wf (writeBytes m a b) = true := by
  induction b generalizing m a with
  | nil => exact h
  | cons x rest ih => exact ih _ (write_wf a x h)

/-- Writing a range leaves every address outside it alone. -/
theorem read_writeBytes_ne {m : List Host.Cell} {a x : Nat} (b : List Byte) (h : wf m = true) (hx : x < a ∨ a + b.length ≤ x) :
    read (writeBytes m a b) x = read m x := by
  induction b generalizing m a with
  | nil => rfl
  | cons v rest ih =>
    simp only [List.length_cons] at hx
    simp only [writeBytes]
    rw [ih (write_wf a v h) (by omega), read_write_ne v h (by omega)]

/-- A read within a range written gives the byte of the range. -/
theorem read_writeBytes {m : List Host.Cell} {a n : Nat} (b : List Byte) (h : wf m = true) (hn : n < b.length) :
    read (writeBytes m a b) (a + n) = b.getD n 0 := by
  induction b generalizing m a n with
  | nil => simp at hn
  | cons v rest ih =>
    simp only [writeBytes]
    cases n with
    | zero =>
      rw [read_writeBytes_ne rest (write_wf a v h) (by omega)]
      simpa using read_write_self a v h
    | succ n =>
      have := ih (m := write m a v) (a := a + 1) (n := n) (write_wf a v h) (by simpa using hn)
      rw [show a + (n + 1) = a + 1 + n by omega, this]
      simp

/-- Taking cells away by address keeps the form. -/
theorem filter_wfFrom {lo : Nat} {m : List Host.Cell} (p : Host.Cell → Bool) (h : wfFrom lo m = true) :
    wfFrom lo (m.filter p) = true := by
  induction m generalizing lo with
  | nil => rfl
  | cons c rest ih =>
    obtain ⟨j, b⟩ := c
    simp only [wfFrom, Bool.and_eq_true, decide_eq_true_eq] at h
    rw [List.filter_cons]
    split
    · simp only [wfFrom, Bool.and_eq_true, decide_eq_true_eq]
      exact ⟨h.1, ih h.2⟩
    · exact wfFrom_mono (by omega) (ih h.2)

theorem filter_wf {m : List Host.Cell} (p : Host.Cell → Bool) (h : wf m = true) : wf (m.filter p) = true := filter_wfFrom p h

end Memory

/-! ### The machine's memory operations -/

theorem writeMasked_wf {m : List Host.Cell} (base : Nat) (mask : BitVec 64) (data : Line) (n : Nat) (h : Memory.wf m = true) :
    Memory.wf (writeMasked m base mask data n) = true := by
  induction n with
  | zero => exact h
  | succ n ih =>
    simp only [writeMasked]
    split
    · exact Memory.write_wf _ _ ih
    · exact ih

/-- What a masked write of the first n bytes of a line leaves at an address: the line's byte where the mask chooses it, else the
byte before. -/
theorem read_writeMasked {m : List Host.Cell} (base : Nat) (mask : BitVec 64) (data : Line) (n a : Nat) (h : Memory.wf m = true) :
    Memory.read (writeMasked m base mask data n) a =
      if base ≤ a ∧ a < base + n ∧ mask.getLsbD (a - base) = true then lineByte data (a - base) else Memory.read m a := by
  induction n with
  | zero => rw [if_neg (by omega)]; rfl
  | succ n ih =>
    have hw := writeMasked_wf base mask data n h
    simp only [writeMasked]
    by_cases ha : a = base + n
    · subst ha
      simp only [Nat.le_add_right, Nat.add_sub_cancel_left, true_and]
      split
      · rename_i hb
        rw [Memory.read_write_self _ _ hw, if_pos ⟨by omega, hb⟩]
      · rename_i hb
        rw [ih, if_neg (by omega), if_neg (fun h => hb h.2)]
    · have hc : (base ≤ a ∧ a < base + (n + 1) ∧ mask.getLsbD (a - base) = true) ↔
          (base ≤ a ∧ a < base + n ∧ mask.getLsbD (a - base) = true) := by
        constructor <;> rintro ⟨h1, h2, h3⟩ <;> exact ⟨h1, by omega, h3⟩
      simp only [hc]
      split
      · rw [Memory.read_write_ne _ hw ha, ih]
      · exact ih

@[simp] theorem State.tagLine_mem (s : State) (pkg line : Nat) (f p : Bool) : (s.tagLine pkg line f p).mem = s.mem := by
  unfold State.tagLine; dsimp only; split <;> split <;> rfl
@[simp] theorem State.answerWaiters_mem (s : State) (pkg line : Nat) (p : Bool) : (s.answerWaiters pkg line p).mem = s.mem := rfl
@[simp] theorem State.answerWaiters_poison (s : State) (pkg line : Nat) (p : Bool) :
    (s.answerWaiters pkg line p).poison = s.poison := rfl

/-- What one write step at a home leaves at each address of memory (R349). -/
theorem State.homeWriteLine_read (s : State) (pkg line : Nat) (mask : BitVec 64) (data : Line) (p g : Bool) (a : Nat)
    (h : s.MemWf) :
    (s.homeWriteLine pkg line mask data p g).memByte a =
      (let base := memKey pkg (line * 64)
       if base ≤ a ∧ a < base + 64 ∧ mask.getLsbD (a - base) = true then lineByte data (a - base) else s.memByte a) := by
  unfold State.homeWriteLine
  split
  · rename_i h0; subst h0; simp [State.memByte]
  · simp only [State.memByte, State.answerWaiters_mem, State.tagLine_mem]
    exact read_writeMasked _ _ _ _ _ h

/-- A write step at a home keeps the form. -/
theorem State.homeWriteLine_memWf {s : State} (pkg line : Nat) (mask : BitVec 64) (data : Line) (p g : Bool) (h : s.MemWf) :
    (s.homeWriteLine pkg line mask data p g).MemWf := by
  unfold State.homeWriteLine
  split
  · exact h
  · simp only [State.MemWf, State.answerWaiters_mem, State.tagLine_mem]
    exact writeMasked_wf _ _ _ _ h

/-- Writes one after another keep the form. -/
theorem foldl_memWf {α : Type} (f : State → α → State) (hf : ∀ t i, t.MemWf → (f t i).MemWf) (l : List α) {s : State}
    (h : s.MemWf) : (l.foldl f s).MemWf := by
  induction l generalizing s with
  | nil => exact h
  | cons i rest ih => exact ih (hf s i h)

/-- Bytes written at their home keep the form. -/
theorem State.homeWriteBytes_memWf {s : State} (pkg pa : Nat) (b : List Byte) (p g : Bool) (h : s.MemWf) :
    (s.homeWriteBytes pkg pa b p g).MemWf := by
  unfold State.homeWriteBytes
  split
  · exact h
  · exact foldl_memWf _ (fun t i ht => State.homeWriteLine_memWf _ _ _ _ _ _ ht) _ h

theorem State.placeWord_memWf {s : State} (pkg pa w : Nat) (h : s.MemWf) : (s.placeWord pkg pa w).MemWf := by
  unfold State.placeWord State.MemWf
  generalize memKey pkg pa = a
  generalize leBytes 4 w = b
  exact Memory.writeBytes_wf a b h

theorem placeTables_wf {m : List Host.Cell} (t : List (Nat × Nat)) (h : Memory.wf m = true) :
    Memory.wf (placeTables m t) = true := by
  induction t generalizing m with
  | nil => exact h
  | cons p rest ih => exact ih (Memory.writeBytes_wf _ _ h)

theorem State.placeContext_mem (s : State) : s.placeContext.mem = placeTables s.mem placedTables := by
  simp only [State.placeContext, State.setCtx_mem, State.setCore_mem, State.updDie_mem]

theorem State.placeContext_memWf {s : State} (h : s.MemWf) : s.placeContext.MemWf := by
  unfold State.MemWf
  rw [State.placeContext_mem]
  exact placeTables_wf _ h

/-- Memory right after reset has the form. -/
theorem State.reset_memWf : State.reset.MemWf := rfl

end Sys2Proof.Machine
end

