-- ==== Sys2Proof/Laws/PerInstr.lean ====
section
/-! SUPPORT. The family Encoding: decoding the word of a well-formed instruction gives the instruction back, one lemma per
constructor. -/

namespace Sys2Proof.Laws.Encoding

/-- The words of a well-formed instruction decode to it, with every operand. -/
def Statement (i : Instr) : Prop :=
  WellFormed i = true → (∀ w, encodeGen i = some w → decodeGen w = some i) ∧
    (∀ slot w, encodeSlot i = some (slot, w) → decodeSlot slot w = .ok i)

/-- The part's own steps have no encoding. -/
theorem of_none {i : Instr} (hg : encodeGen i = none) (hs : encodeSlot i = none) : Statement i := by
  intro _
  constructor
  · intro w h; rw [hg] at h; exact absurd h (by simp)
  · intro sl w h; rw [hs] at h; exact absurd h (by simp)

theorem of_gen {i : Instr} {w : BitVec 32} (hg : encodeGen i = some w) (hs : encodeSlot i = none)
    (h : WellFormed i = true → decodeGen w = some i) : Statement i := by
  intro hw
  constructor
  · intro w' e; rw [hg] at e; cases e; exact h hw
  · intro sl w' e; rw [hs] at e; exact absurd e (by simp)

theorem of_slot {i : Instr} {sl : Slot} {w : Word} (hg : encodeGen i = none) (hs : encodeSlot i = some (sl, w))
    (h : WellFormed i = true → decodeSlot sl w = .ok i) : Statement i := by
  intro hw
  constructor
  · intro w' e; rw [hg] at e; exact absurd e (by simp)
  · intro sl' w' e; rw [hs] at e; cases e; exact h hw

theorem add (b : BitVec 6) (a : BitVec 6) (d : BitVec 6) : Statement (.add b a d) := by
  refine of_gen rfl rfl fun hw => ?_
  show decodeGen (0#7 ++ b ++ a ++ d ++ 0x00#7) = _
  have h0_7 : (0#7 ++ b ++ a ++ d ++ 0x00#7 : BitVec 32).extractLsb' 0 7 = 0x00#7 := by
    rw [ext_low _ _ _ _ (by decide)]; exact ext_all _
  have h7_6 : (0#7 ++ b ++ a ++ d ++ 0x00#7 : BitVec 32).extractLsb' 7 6 = d := by
    rw [ext_high _ _ _ _ (by decide), ext_low _ _ _ _ (by decide)]; exact ext_all _
  have h13_6 : (0#7 ++ b ++ a ++ d ++ 0x00#7 : BitVec 32).extractLsb' 13 6 = a := by
    rw [ext_high _ _ _ _ (by decide), ext_high _ _ _ _ (by decide), ext_low _ _ _ _ (by decide)]; exact ext_all _
  have h19_6 : (0#7 ++ b ++ a ++ d ++ 0x00#7 : BitVec 32).extractLsb' 19 6 = b := by
    rw [ext_high _ _ _ _ (by decide), ext_high _ _ _ _ (by decide), ext_high _ _ _ _ (by decide), ext_low _ _ _ _ (by decide)]; exact ext_all _
  have h25_7 : (0#7 ++ b ++ a ++ d ++ 0x00#7 : BitVec 32).extractLsb' 25 7 = 0#7 := by
    rw [ext_high _ _ _ _ (by decide), ext_high _ _ _ _ (by decide), ext_high _ _ _ _ (by decide), ext_high _ _ _ _ (by decide)]; exact ext_all _
  generalize (0#7 ++ b ++ a ++ d ++ 0x00#7 : BitVec 32) = w at *
  unfold decodeGen
  rw [h0_7, h25_7]
  show some _ = _
  rw [h7_6, h13_6, h19_6]

theorem sub (b : BitVec 6) (a : BitVec 6) (d : BitVec 6) : Statement (.sub b a d) := by
  refine of_gen rfl rfl fun hw => ?_
  show decodeGen (1#7 ++ b ++ a ++ d ++ 0x00#7) = _
  have h0_7 : (1#7 ++ b ++ a ++ d ++ 0x00#7 : BitVec 32).extractLsb' 0 7 = 0x00#7 := by
    rw [ext_low _ _ _ _ (by decide)]; exact ext_all _
  have h7_6 : (1#7 ++ b ++ a ++ d ++ 0x00#7 : BitVec 32).extractLsb' 7 6 = d := by
    rw [ext_high _ _ _ _ (by decide), ext_low _ _ _ _ (by decide)]; exact ext_all _
  have h13_6 : (1#7 ++ b ++ a ++ d ++ 0x00#7 : BitVec 32).extractLsb' 13 6 = a := by
    rw [ext_high _ _ _ _ (by decide), ext_high _ _ _ _ (by decide), ext_low _ _ _ _ (by decide)]; exact ext_all _
  have h19_6 : (1#7 ++ b ++ a ++ d ++ 0x00#7 : BitVec 32).extractLsb' 19 6 = b := by
    rw [ext_high _ _ _ _ (by decide), ext_high _ _ _ _ (by decide), ext_high _ _ _ _ (by decide), ext_low _ _ _ _ (by decide)]; exact ext_all _
  have h25_7 : (1#7 ++ b ++ a ++ d ++ 0x00#7 : BitVec 32).extractLsb' 25 7 = 1#7 := by
    rw [ext_high _ _ _ _ (by decide), ext_high _ _ _ _ (by decide), ext_high _ _ _ _ (by decide), ext_high _ _ _ _ (by decide)]; exact ext_all _
  generalize (1#7 ++ b ++ a ++ d ++ 0x00#7 : BitVec 32) = w at *
  unfold decodeGen
  rw [h0_7, h25_7]
  show some _ = _
  rw [h7_6, h13_6, h19_6]

theorem mul (b : BitVec 6) (a : BitVec 6) (d : BitVec 6) : Statement (.mul b a d) := by
  refine of_gen rfl rfl fun hw => ?_
  show decodeGen (2#7 ++ b ++ a ++ d ++ 0x00#7) = _
  have h0_7 : (2#7 ++ b ++ a ++ d ++ 0x00#7 : BitVec 32).extractLsb' 0 7 = 0x00#7 := by
    rw [ext_low _ _ _ _ (by decide)]; exact ext_all _
  have h7_6 : (2#7 ++ b ++ a ++ d ++ 0x00#7 : BitVec 32).extractLsb' 7 6 = d := by
    rw [ext_high _ _ _ _ (by decide), ext_low _ _ _ _ (by decide)]; exact ext_all _
  have h13_6 : (2#7 ++ b ++ a ++ d ++ 0x00#7 : BitVec 32).extractLsb' 13 6 = a := by
    rw [ext_high _ _ _ _ (by decide), ext_high _ _ _ _ (by decide), ext_low _ _ _ _ (by decide)]; exact ext_all _
  have h19_6 : (2#7 ++ b ++ a ++ d ++ 0x00#7 : BitVec 32).extractLsb' 19 6 = b := by
    rw [ext_high _ _ _ _ (by decide), ext_high _ _ _ _ (by decide), ext_high _ _ _ _ (by decide), ext_low _ _ _ _ (by decide)]; exact ext_all _
  have h25_7 : (2#7 ++ b ++ a ++ d ++ 0x00#7 : BitVec 32).extractLsb' 25 7 = 2#7 := by
    rw [ext_high _ _ _ _ (by decide), ext_high _ _ _ _ (by decide), ext_high _ _ _ _ (by decide), ext_high _ _ _ _ (by decide)]; exact ext_all _
  generalize (2#7 ++ b ++ a ++ d ++ 0x00#7 : BitVec 32) = w at *
  unfold decodeGen
  rw [h0_7, h25_7]
  show some _ = _
  rw [h7_6, h13_6, h19_6]

theorem mulh (b : BitVec 6) (a : BitVec 6) (d : BitVec 6) : Statement (.mulh b a d) := by
  refine of_gen rfl rfl fun hw => ?_
  show decodeGen (3#7 ++ b ++ a ++ d ++ 0x00#7) = _
  have h0_7 : (3#7 ++ b ++ a ++ d ++ 0x00#7 : BitVec 32).extractLsb' 0 7 = 0x00#7 := by
    rw [ext_low _ _ _ _ (by decide)]; exact ext_all _
  have h7_6 : (3#7 ++ b ++ a ++ d ++ 0x00#7 : BitVec 32).extractLsb' 7 6 = d := by
    rw [ext_high _ _ _ _ (by decide), ext_low _ _ _ _ (by decide)]; exact ext_all _
  have h13_6 : (3#7 ++ b ++ a ++ d ++ 0x00#7 : BitVec 32).extractLsb' 13 6 = a := by
    rw [ext_high _ _ _ _ (by decide), ext_high _ _ _ _ (by decide), ext_low _ _ _ _ (by decide)]; exact ext_all _
  have h19_6 : (3#7 ++ b ++ a ++ d ++ 0x00#7 : BitVec 32).extractLsb' 19 6 = b := by
    rw [ext_high _ _ _ _ (by decide), ext_high _ _ _ _ (by decide), ext_high _ _ _ _ (by decide), ext_low _ _ _ _ (by decide)]; exact ext_all _
  have h25_7 : (3#7 ++ b ++ a ++ d ++ 0x00#7 : BitVec 32).extractLsb' 25 7 = 3#7 := by
    rw [ext_high _ _ _ _ (by decide), ext_high _ _ _ _ (by decide), ext_high _ _ _ _ (by decide), ext_high _ _ _ _ (by decide)]; exact ext_all _
  generalize (3#7 ++ b ++ a ++ d ++ 0x00#7 : BitVec 32) = w at *
  unfold decodeGen
  rw [h0_7, h25_7]
  show some _ = _
  rw [h7_6, h13_6, h19_6]

theorem div (b : BitVec 6) (a : BitVec 6) (d : BitVec 6) : Statement (.div b a d) := by
  refine of_gen rfl rfl fun hw => ?_
  show decodeGen (4#7 ++ b ++ a ++ d ++ 0x00#7) = _
  have h0_7 : (4#7 ++ b ++ a ++ d ++ 0x00#7 : BitVec 32).extractLsb' 0 7 = 0x00#7 := by
    rw [ext_low _ _ _ _ (by decide)]; exact ext_all _
  have h7_6 : (4#7 ++ b ++ a ++ d ++ 0x00#7 : BitVec 32).extractLsb' 7 6 = d := by
    rw [ext_high _ _ _ _ (by decide), ext_low _ _ _ _ (by decide)]; exact ext_all _
  have h13_6 : (4#7 ++ b ++ a ++ d ++ 0x00#7 : BitVec 32).extractLsb' 13 6 = a := by
    rw [ext_high _ _ _ _ (by decide), ext_high _ _ _ _ (by decide), ext_low _ _ _ _ (by decide)]; exact ext_all _
  have h19_6 : (4#7 ++ b ++ a ++ d ++ 0x00#7 : BitVec 32).extractLsb' 19 6 = b := by
    rw [ext_high _ _ _ _ (by decide), ext_high _ _ _ _ (by decide), ext_high _ _ _ _ (by decide), ext_low _ _ _ _ (by decide)]; exact ext_all _
  have h25_7 : (4#7 ++ b ++ a ++ d ++ 0x00#7 : BitVec 32).extractLsb' 25 7 = 4#7 := by
    rw [ext_high _ _ _ _ (by decide), ext_high _ _ _ _ (by decide), ext_high _ _ _ _ (by decide), ext_high _ _ _ _ (by decide)]; exact ext_all _
  generalize (4#7 ++ b ++ a ++ d ++ 0x00#7 : BitVec 32) = w at *
  unfold decodeGen
  rw [h0_7, h25_7]
  show some _ = _
  rw [h7_6, h13_6, h19_6]

theorem divu (b : BitVec 6) (a : BitVec 6) (d : BitVec 6) : Statement (.divu b a d) := by
  refine of_gen rfl rfl fun hw => ?_
  show decodeGen (5#7 ++ b ++ a ++ d ++ 0x00#7) = _
  have h0_7 : (5#7 ++ b ++ a ++ d ++ 0x00#7 : BitVec 32).extractLsb' 0 7 = 0x00#7 := by
    rw [ext_low _ _ _ _ (by decide)]; exact ext_all _
  have h7_6 : (5#7 ++ b ++ a ++ d ++ 0x00#7 : BitVec 32).extractLsb' 7 6 = d := by
    rw [ext_high _ _ _ _ (by decide), ext_low _ _ _ _ (by decide)]; exact ext_all _
  have h13_6 : (5#7 ++ b ++ a ++ d ++ 0x00#7 : BitVec 32).extractLsb' 13 6 = a := by
    rw [ext_high _ _ _ _ (by decide), ext_high _ _ _ _ (by decide), ext_low _ _ _ _ (by decide)]; exact ext_all _
  have h19_6 : (5#7 ++ b ++ a ++ d ++ 0x00#7 : BitVec 32).extractLsb' 19 6 = b := by
    rw [ext_high _ _ _ _ (by decide), ext_high _ _ _ _ (by decide), ext_high _ _ _ _ (by decide), ext_low _ _ _ _ (by decide)]; exact ext_all _
  have h25_7 : (5#7 ++ b ++ a ++ d ++ 0x00#7 : BitVec 32).extractLsb' 25 7 = 5#7 := by
    rw [ext_high _ _ _ _ (by decide), ext_high _ _ _ _ (by decide), ext_high _ _ _ _ (by decide), ext_high _ _ _ _ (by decide)]; exact ext_all _
  generalize (5#7 ++ b ++ a ++ d ++ 0x00#7 : BitVec 32) = w at *
  unfold decodeGen
  rw [h0_7, h25_7]
  show some _ = _
  rw [h7_6, h13_6, h19_6]

theorem rem (b : BitVec 6) (a : BitVec 6) (d : BitVec 6) : Statement (.rem b a d) := by
  refine of_gen rfl rfl fun hw => ?_
  show decodeGen (6#7 ++ b ++ a ++ d ++ 0x00#7) = _
  have h0_7 : (6#7 ++ b ++ a ++ d ++ 0x00#7 : BitVec 32).extractLsb' 0 7 = 0x00#7 := by
    rw [ext_low _ _ _ _ (by decide)]; exact ext_all _
  have h7_6 : (6#7 ++ b ++ a ++ d ++ 0x00#7 : BitVec 32).extractLsb' 7 6 = d := by
    rw [ext_high _ _ _ _ (by decide), ext_low _ _ _ _ (by decide)]; exact ext_all _
  have h13_6 : (6#7 ++ b ++ a ++ d ++ 0x00#7 : BitVec 32).extractLsb' 13 6 = a := by
    rw [ext_high _ _ _ _ (by decide), ext_high _ _ _ _ (by decide), ext_low _ _ _ _ (by decide)]; exact ext_all _
  have h19_6 : (6#7 ++ b ++ a ++ d ++ 0x00#7 : BitVec 32).extractLsb' 19 6 = b := by
    rw [ext_high _ _ _ _ (by decide), ext_high _ _ _ _ (by decide), ext_high _ _ _ _ (by decide), ext_low _ _ _ _ (by decide)]; exact ext_all _
  have h25_7 : (6#7 ++ b ++ a ++ d ++ 0x00#7 : BitVec 32).extractLsb' 25 7 = 6#7 := by
    rw [ext_high _ _ _ _ (by decide), ext_high _ _ _ _ (by decide), ext_high _ _ _ _ (by decide), ext_high _ _ _ _ (by decide)]; exact ext_all _
  generalize (6#7 ++ b ++ a ++ d ++ 0x00#7 : BitVec 32) = w at *
  unfold decodeGen
  rw [h0_7, h25_7]
  show some _ = _
  rw [h7_6, h13_6, h19_6]

theorem remu (b : BitVec 6) (a : BitVec 6) (d : BitVec 6) : Statement (.remu b a d) := by
  refine of_gen rfl rfl fun hw => ?_
  show decodeGen (7#7 ++ b ++ a ++ d ++ 0x00#7) = _
  have h0_7 : (7#7 ++ b ++ a ++ d ++ 0x00#7 : BitVec 32).extractLsb' 0 7 = 0x00#7 := by
    rw [ext_low _ _ _ _ (by decide)]; exact ext_all _
  have h7_6 : (7#7 ++ b ++ a ++ d ++ 0x00#7 : BitVec 32).extractLsb' 7 6 = d := by
    rw [ext_high _ _ _ _ (by decide), ext_low _ _ _ _ (by decide)]; exact ext_all _
  have h13_6 : (7#7 ++ b ++ a ++ d ++ 0x00#7 : BitVec 32).extractLsb' 13 6 = a := by
    rw [ext_high _ _ _ _ (by decide), ext_high _ _ _ _ (by decide), ext_low _ _ _ _ (by decide)]; exact ext_all _
  have h19_6 : (7#7 ++ b ++ a ++ d ++ 0x00#7 : BitVec 32).extractLsb' 19 6 = b := by
    rw [ext_high _ _ _ _ (by decide), ext_high _ _ _ _ (by decide), ext_high _ _ _ _ (by decide), ext_low _ _ _ _ (by decide)]; exact ext_all _
  have h25_7 : (7#7 ++ b ++ a ++ d ++ 0x00#7 : BitVec 32).extractLsb' 25 7 = 7#7 := by
    rw [ext_high _ _ _ _ (by decide), ext_high _ _ _ _ (by decide), ext_high _ _ _ _ (by decide), ext_high _ _ _ _ (by decide)]; exact ext_all _
  generalize (7#7 ++ b ++ a ++ d ++ 0x00#7 : BitVec 32) = w at *
  unfold decodeGen
  rw [h0_7, h25_7]
  show some _ = _
  rw [h7_6, h13_6, h19_6]

theorem and (b : BitVec 6) (a : BitVec 6) (d : BitVec 6) : Statement (.and b a d) := by
  refine of_gen rfl rfl fun hw => ?_
  show decodeGen (8#7 ++ b ++ a ++ d ++ 0x00#7) = _
  have h0_7 : (8#7 ++ b ++ a ++ d ++ 0x00#7 : BitVec 32).extractLsb' 0 7 = 0x00#7 := by
    rw [ext_low _ _ _ _ (by decide)]; exact ext_all _
  have h7_6 : (8#7 ++ b ++ a ++ d ++ 0x00#7 : BitVec 32).extractLsb' 7 6 = d := by
    rw [ext_high _ _ _ _ (by decide), ext_low _ _ _ _ (by decide)]; exact ext_all _
  have h13_6 : (8#7 ++ b ++ a ++ d ++ 0x00#7 : BitVec 32).extractLsb' 13 6 = a := by
    rw [ext_high _ _ _ _ (by decide), ext_high _ _ _ _ (by decide), ext_low _ _ _ _ (by decide)]; exact ext_all _
  have h19_6 : (8#7 ++ b ++ a ++ d ++ 0x00#7 : BitVec 32).extractLsb' 19 6 = b := by
    rw [ext_high _ _ _ _ (by decide), ext_high _ _ _ _ (by decide), ext_high _ _ _ _ (by decide), ext_low _ _ _ _ (by decide)]; exact ext_all _
  have h25_7 : (8#7 ++ b ++ a ++ d ++ 0x00#7 : BitVec 32).extractLsb' 25 7 = 8#7 := by
    rw [ext_high _ _ _ _ (by decide), ext_high _ _ _ _ (by decide), ext_high _ _ _ _ (by decide), ext_high _ _ _ _ (by decide)]; exact ext_all _
  generalize (8#7 ++ b ++ a ++ d ++ 0x00#7 : BitVec 32) = w at *
  unfold decodeGen
  rw [h0_7, h25_7]
  show some _ = _
  rw [h7_6, h13_6, h19_6]

theorem or (b : BitVec 6) (a : BitVec 6) (d : BitVec 6) : Statement (.or b a d) := by
  refine of_gen rfl rfl fun hw => ?_
  show decodeGen (9#7 ++ b ++ a ++ d ++ 0x00#7) = _
  have h0_7 : (9#7 ++ b ++ a ++ d ++ 0x00#7 : BitVec 32).extractLsb' 0 7 = 0x00#7 := by
    rw [ext_low _ _ _ _ (by decide)]; exact ext_all _
  have h7_6 : (9#7 ++ b ++ a ++ d ++ 0x00#7 : BitVec 32).extractLsb' 7 6 = d := by
    rw [ext_high _ _ _ _ (by decide), ext_low _ _ _ _ (by decide)]; exact ext_all _
  have h13_6 : (9#7 ++ b ++ a ++ d ++ 0x00#7 : BitVec 32).extractLsb' 13 6 = a := by
    rw [ext_high _ _ _ _ (by decide), ext_high _ _ _ _ (by decide), ext_low _ _ _ _ (by decide)]; exact ext_all _
  have h19_6 : (9#7 ++ b ++ a ++ d ++ 0x00#7 : BitVec 32).extractLsb' 19 6 = b := by
    rw [ext_high _ _ _ _ (by decide), ext_high _ _ _ _ (by decide), ext_high _ _ _ _ (by decide), ext_low _ _ _ _ (by decide)]; exact ext_all _
  have h25_7 : (9#7 ++ b ++ a ++ d ++ 0x00#7 : BitVec 32).extractLsb' 25 7 = 9#7 := by
    rw [ext_high _ _ _ _ (by decide), ext_high _ _ _ _ (by decide), ext_high _ _ _ _ (by decide), ext_high _ _ _ _ (by decide)]; exact ext_all _
  generalize (9#7 ++ b ++ a ++ d ++ 0x00#7 : BitVec 32) = w at *
  unfold decodeGen
  rw [h0_7, h25_7]
  show some _ = _
  rw [h7_6, h13_6, h19_6]

theorem xor (b : BitVec 6) (a : BitVec 6) (d : BitVec 6) : Statement (.xor b a d) := by
  refine of_gen rfl rfl fun hw => ?_
  show decodeGen (10#7 ++ b ++ a ++ d ++ 0x00#7) = _
  have h0_7 : (10#7 ++ b ++ a ++ d ++ 0x00#7 : BitVec 32).extractLsb' 0 7 = 0x00#7 := by
    rw [ext_low _ _ _ _ (by decide)]; exact ext_all _
  have h7_6 : (10#7 ++ b ++ a ++ d ++ 0x00#7 : BitVec 32).extractLsb' 7 6 = d := by
    rw [ext_high _ _ _ _ (by decide), ext_low _ _ _ _ (by decide)]; exact ext_all _
  have h13_6 : (10#7 ++ b ++ a ++ d ++ 0x00#7 : BitVec 32).extractLsb' 13 6 = a := by
    rw [ext_high _ _ _ _ (by decide), ext_high _ _ _ _ (by decide), ext_low _ _ _ _ (by decide)]; exact ext_all _
  have h19_6 : (10#7 ++ b ++ a ++ d ++ 0x00#7 : BitVec 32).extractLsb' 19 6 = b := by
    rw [ext_high _ _ _ _ (by decide), ext_high _ _ _ _ (by decide), ext_high _ _ _ _ (by decide), ext_low _ _ _ _ (by decide)]; exact ext_all _
  have h25_7 : (10#7 ++ b ++ a ++ d ++ 0x00#7 : BitVec 32).extractLsb' 25 7 = 10#7 := by
    rw [ext_high _ _ _ _ (by decide), ext_high _ _ _ _ (by decide), ext_high _ _ _ _ (by decide), ext_high _ _ _ _ (by decide)]; exact ext_all _
  generalize (10#7 ++ b ++ a ++ d ++ 0x00#7 : BitVec 32) = w at *
  unfold decodeGen
  rw [h0_7, h25_7]
  show some _ = _
  rw [h7_6, h13_6, h19_6]

theorem shl (b : BitVec 6) (a : BitVec 6) (d : BitVec 6) : Statement (.shl b a d) := by
  refine of_gen rfl rfl fun hw => ?_
  show decodeGen (11#7 ++ b ++ a ++ d ++ 0x00#7) = _
  have h0_7 : (11#7 ++ b ++ a ++ d ++ 0x00#7 : BitVec 32).extractLsb' 0 7 = 0x00#7 := by
    rw [ext_low _ _ _ _ (by decide)]; exact ext_all _
  have h7_6 : (11#7 ++ b ++ a ++ d ++ 0x00#7 : BitVec 32).extractLsb' 7 6 = d := by
    rw [ext_high _ _ _ _ (by decide), ext_low _ _ _ _ (by decide)]; exact ext_all _
  have h13_6 : (11#7 ++ b ++ a ++ d ++ 0x00#7 : BitVec 32).extractLsb' 13 6 = a := by
    rw [ext_high _ _ _ _ (by decide), ext_high _ _ _ _ (by decide), ext_low _ _ _ _ (by decide)]; exact ext_all _
  have h19_6 : (11#7 ++ b ++ a ++ d ++ 0x00#7 : BitVec 32).extractLsb' 19 6 = b := by
    rw [ext_high _ _ _ _ (by decide), ext_high _ _ _ _ (by decide), ext_high _ _ _ _ (by decide), ext_low _ _ _ _ (by decide)]; exact ext_all _
  have h25_7 : (11#7 ++ b ++ a ++ d ++ 0x00#7 : BitVec 32).extractLsb' 25 7 = 11#7 := by
    rw [ext_high _ _ _ _ (by decide), ext_high _ _ _ _ (by decide), ext_high _ _ _ _ (by decide), ext_high _ _ _ _ (by decide)]; exact ext_all _
  generalize (11#7 ++ b ++ a ++ d ++ 0x00#7 : BitVec 32) = w at *
  unfold decodeGen
  rw [h0_7, h25_7]
  show some _ = _
  rw [h7_6, h13_6, h19_6]

theorem shr (b : BitVec 6) (a : BitVec 6) (d : BitVec 6) : Statement (.shr b a d) := by
  refine of_gen rfl rfl fun hw => ?_
  show decodeGen (12#7 ++ b ++ a ++ d ++ 0x00#7) = _
  have h0_7 : (12#7 ++ b ++ a ++ d ++ 0x00#7 : BitVec 32).extractLsb' 0 7 = 0x00#7 := by
    rw [ext_low _ _ _ _ (by decide)]; exact ext_all _
  have h7_6 : (12#7 ++ b ++ a ++ d ++ 0x00#7 : BitVec 32).extractLsb' 7 6 = d := by
    rw [ext_high _ _ _ _ (by decide), ext_low _ _ _ _ (by decide)]; exact ext_all _
  have h13_6 : (12#7 ++ b ++ a ++ d ++ 0x00#7 : BitVec 32).extractLsb' 13 6 = a := by
    rw [ext_high _ _ _ _ (by decide), ext_high _ _ _ _ (by decide), ext_low _ _ _ _ (by decide)]; exact ext_all _
  have h19_6 : (12#7 ++ b ++ a ++ d ++ 0x00#7 : BitVec 32).extractLsb' 19 6 = b := by
    rw [ext_high _ _ _ _ (by decide), ext_high _ _ _ _ (by decide), ext_high _ _ _ _ (by decide), ext_low _ _ _ _ (by decide)]; exact ext_all _
  have h25_7 : (12#7 ++ b ++ a ++ d ++ 0x00#7 : BitVec 32).extractLsb' 25 7 = 12#7 := by
    rw [ext_high _ _ _ _ (by decide), ext_high _ _ _ _ (by decide), ext_high _ _ _ _ (by decide), ext_high _ _ _ _ (by decide)]; exact ext_all _
  generalize (12#7 ++ b ++ a ++ d ++ 0x00#7 : BitVec 32) = w at *
  unfold decodeGen
  rw [h0_7, h25_7]
  show some _ = _
  rw [h7_6, h13_6, h19_6]

theorem sra (b : BitVec 6) (a : BitVec 6) (d : BitVec 6) : Statement (.sra b a d) := by
  refine of_gen rfl rfl fun hw => ?_
  show decodeGen (13#7 ++ b ++ a ++ d ++ 0x00#7) = _
  have h0_7 : (13#7 ++ b ++ a ++ d ++ 0x00#7 : BitVec 32).extractLsb' 0 7 = 0x00#7 := by
    rw [ext_low _ _ _ _ (by decide)]; exact ext_all _
  have h7_6 : (13#7 ++ b ++ a ++ d ++ 0x00#7 : BitVec 32).extractLsb' 7 6 = d := by
    rw [ext_high _ _ _ _ (by decide), ext_low _ _ _ _ (by decide)]; exact ext_all _
  have h13_6 : (13#7 ++ b ++ a ++ d ++ 0x00#7 : BitVec 32).extractLsb' 13 6 = a := by
    rw [ext_high _ _ _ _ (by decide), ext_high _ _ _ _ (by decide), ext_low _ _ _ _ (by decide)]; exact ext_all _
  have h19_6 : (13#7 ++ b ++ a ++ d ++ 0x00#7 : BitVec 32).extractLsb' 19 6 = b := by
    rw [ext_high _ _ _ _ (by decide), ext_high _ _ _ _ (by decide), ext_high _ _ _ _ (by decide), ext_low _ _ _ _ (by decide)]; exact ext_all _
  have h25_7 : (13#7 ++ b ++ a ++ d ++ 0x00#7 : BitVec 32).extractLsb' 25 7 = 13#7 := by
    rw [ext_high _ _ _ _ (by decide), ext_high _ _ _ _ (by decide), ext_high _ _ _ _ (by decide), ext_high _ _ _ _ (by decide)]; exact ext_all _
  generalize (13#7 ++ b ++ a ++ d ++ 0x00#7 : BitVec 32) = w at *
  unfold decodeGen
  rw [h0_7, h25_7]
  show some _ = _
  rw [h7_6, h13_6, h19_6]

theorem slt (b : BitVec 6) (a : BitVec 6) (d : BitVec 6) : Statement (.slt b a d) := by
  refine of_gen rfl rfl fun hw => ?_
  show decodeGen (14#7 ++ b ++ a ++ d ++ 0x00#7) = _
  have h0_7 : (14#7 ++ b ++ a ++ d ++ 0x00#7 : BitVec 32).extractLsb' 0 7 = 0x00#7 := by
    rw [ext_low _ _ _ _ (by decide)]; exact ext_all _
  have h7_6 : (14#7 ++ b ++ a ++ d ++ 0x00#7 : BitVec 32).extractLsb' 7 6 = d := by
    rw [ext_high _ _ _ _ (by decide), ext_low _ _ _ _ (by decide)]; exact ext_all _
  have h13_6 : (14#7 ++ b ++ a ++ d ++ 0x00#7 : BitVec 32).extractLsb' 13 6 = a := by
    rw [ext_high _ _ _ _ (by decide), ext_high _ _ _ _ (by decide), ext_low _ _ _ _ (by decide)]; exact ext_all _
  have h19_6 : (14#7 ++ b ++ a ++ d ++ 0x00#7 : BitVec 32).extractLsb' 19 6 = b := by
    rw [ext_high _ _ _ _ (by decide), ext_high _ _ _ _ (by decide), ext_high _ _ _ _ (by decide), ext_low _ _ _ _ (by decide)]; exact ext_all _
  have h25_7 : (14#7 ++ b ++ a ++ d ++ 0x00#7 : BitVec 32).extractLsb' 25 7 = 14#7 := by
    rw [ext_high _ _ _ _ (by decide), ext_high _ _ _ _ (by decide), ext_high _ _ _ _ (by decide), ext_high _ _ _ _ (by decide)]; exact ext_all _
  generalize (14#7 ++ b ++ a ++ d ++ 0x00#7 : BitVec 32) = w at *
  unfold decodeGen
  rw [h0_7, h25_7]
  show some _ = _
  rw [h7_6, h13_6, h19_6]

theorem sltu (b : BitVec 6) (a : BitVec 6) (d : BitVec 6) : Statement (.sltu b a d) := by
  refine of_gen rfl rfl fun hw => ?_
  show decodeGen (15#7 ++ b ++ a ++ d ++ 0x00#7) = _
  have h0_7 : (15#7 ++ b ++ a ++ d ++ 0x00#7 : BitVec 32).extractLsb' 0 7 = 0x00#7 := by
    rw [ext_low _ _ _ _ (by decide)]; exact ext_all _
  have h7_6 : (15#7 ++ b ++ a ++ d ++ 0x00#7 : BitVec 32).extractLsb' 7 6 = d := by
    rw [ext_high _ _ _ _ (by decide), ext_low _ _ _ _ (by decide)]; exact ext_all _
  have h13_6 : (15#7 ++ b ++ a ++ d ++ 0x00#7 : BitVec 32).extractLsb' 13 6 = a := by
    rw [ext_high _ _ _ _ (by decide), ext_high _ _ _ _ (by decide), ext_low _ _ _ _ (by decide)]; exact ext_all _
  have h19_6 : (15#7 ++ b ++ a ++ d ++ 0x00#7 : BitVec 32).extractLsb' 19 6 = b := by
    rw [ext_high _ _ _ _ (by decide), ext_high _ _ _ _ (by decide), ext_high _ _ _ _ (by decide), ext_low _ _ _ _ (by decide)]; exact ext_all _
  have h25_7 : (15#7 ++ b ++ a ++ d ++ 0x00#7 : BitVec 32).extractLsb' 25 7 = 15#7 := by
    rw [ext_high _ _ _ _ (by decide), ext_high _ _ _ _ (by decide), ext_high _ _ _ _ (by decide), ext_high _ _ _ _ (by decide)]; exact ext_all _
  generalize (15#7 ++ b ++ a ++ d ++ 0x00#7 : BitVec 32) = w at *
  unfold decodeGen
  rw [h0_7, h25_7]
  show some _ = _
  rw [h7_6, h13_6, h19_6]

theorem min (b : BitVec 6) (a : BitVec 6) (d : BitVec 6) : Statement (.min b a d) := by
  refine of_gen rfl rfl fun hw => ?_
  show decodeGen (16#7 ++ b ++ a ++ d ++ 0x00#7) = _
  have h0_7 : (16#7 ++ b ++ a ++ d ++ 0x00#7 : BitVec 32).extractLsb' 0 7 = 0x00#7 := by
    rw [ext_low _ _ _ _ (by decide)]; exact ext_all _
  have h7_6 : (16#7 ++ b ++ a ++ d ++ 0x00#7 : BitVec 32).extractLsb' 7 6 = d := by
    rw [ext_high _ _ _ _ (by decide), ext_low _ _ _ _ (by decide)]; exact ext_all _
  have h13_6 : (16#7 ++ b ++ a ++ d ++ 0x00#7 : BitVec 32).extractLsb' 13 6 = a := by
    rw [ext_high _ _ _ _ (by decide), ext_high _ _ _ _ (by decide), ext_low _ _ _ _ (by decide)]; exact ext_all _
  have h19_6 : (16#7 ++ b ++ a ++ d ++ 0x00#7 : BitVec 32).extractLsb' 19 6 = b := by
    rw [ext_high _ _ _ _ (by decide), ext_high _ _ _ _ (by decide), ext_high _ _ _ _ (by decide), ext_low _ _ _ _ (by decide)]; exact ext_all _
  have h25_7 : (16#7 ++ b ++ a ++ d ++ 0x00#7 : BitVec 32).extractLsb' 25 7 = 16#7 := by
    rw [ext_high _ _ _ _ (by decide), ext_high _ _ _ _ (by decide), ext_high _ _ _ _ (by decide), ext_high _ _ _ _ (by decide)]; exact ext_all _
  generalize (16#7 ++ b ++ a ++ d ++ 0x00#7 : BitVec 32) = w at *
  unfold decodeGen
  rw [h0_7, h25_7]
  show some _ = _
  rw [h7_6, h13_6, h19_6]

theorem max (b : BitVec 6) (a : BitVec 6) (d : BitVec 6) : Statement (.max b a d) := by
  refine of_gen rfl rfl fun hw => ?_
  show decodeGen (17#7 ++ b ++ a ++ d ++ 0x00#7) = _
  have h0_7 : (17#7 ++ b ++ a ++ d ++ 0x00#7 : BitVec 32).extractLsb' 0 7 = 0x00#7 := by
    rw [ext_low _ _ _ _ (by decide)]; exact ext_all _
  have h7_6 : (17#7 ++ b ++ a ++ d ++ 0x00#7 : BitVec 32).extractLsb' 7 6 = d := by
    rw [ext_high _ _ _ _ (by decide), ext_low _ _ _ _ (by decide)]; exact ext_all _
  have h13_6 : (17#7 ++ b ++ a ++ d ++ 0x00#7 : BitVec 32).extractLsb' 13 6 = a := by
    rw [ext_high _ _ _ _ (by decide), ext_high _ _ _ _ (by decide), ext_low _ _ _ _ (by decide)]; exact ext_all _
  have h19_6 : (17#7 ++ b ++ a ++ d ++ 0x00#7 : BitVec 32).extractLsb' 19 6 = b := by
    rw [ext_high _ _ _ _ (by decide), ext_high _ _ _ _ (by decide), ext_high _ _ _ _ (by decide), ext_low _ _ _ _ (by decide)]; exact ext_all _
  have h25_7 : (17#7 ++ b ++ a ++ d ++ 0x00#7 : BitVec 32).extractLsb' 25 7 = 17#7 := by
    rw [ext_high _ _ _ _ (by decide), ext_high _ _ _ _ (by decide), ext_high _ _ _ _ (by decide), ext_high _ _ _ _ (by decide)]; exact ext_all _
  generalize (17#7 ++ b ++ a ++ d ++ 0x00#7 : BitVec 32) = w at *
  unfold decodeGen
  rw [h0_7, h25_7]
  show some _ = _
  rw [h7_6, h13_6, h19_6]

theorem minu (b : BitVec 6) (a : BitVec 6) (d : BitVec 6) : Statement (.minu b a d) := by
  refine of_gen rfl rfl fun hw => ?_
  show decodeGen (18#7 ++ b ++ a ++ d ++ 0x00#7) = _
  have h0_7 : (18#7 ++ b ++ a ++ d ++ 0x00#7 : BitVec 32).extractLsb' 0 7 = 0x00#7 := by
    rw [ext_low _ _ _ _ (by decide)]; exact ext_all _
  have h7_6 : (18#7 ++ b ++ a ++ d ++ 0x00#7 : BitVec 32).extractLsb' 7 6 = d := by
    rw [ext_high _ _ _ _ (by decide), ext_low _ _ _ _ (by decide)]; exact ext_all _
  have h13_6 : (18#7 ++ b ++ a ++ d ++ 0x00#7 : BitVec 32).extractLsb' 13 6 = a := by
    rw [ext_high _ _ _ _ (by decide), ext_high _ _ _ _ (by decide), ext_low _ _ _ _ (by decide)]; exact ext_all _
  have h19_6 : (18#7 ++ b ++ a ++ d ++ 0x00#7 : BitVec 32).extractLsb' 19 6 = b := by
    rw [ext_high _ _ _ _ (by decide), ext_high _ _ _ _ (by decide), ext_high _ _ _ _ (by decide), ext_low _ _ _ _ (by decide)]; exact ext_all _
  have h25_7 : (18#7 ++ b ++ a ++ d ++ 0x00#7 : BitVec 32).extractLsb' 25 7 = 18#7 := by
    rw [ext_high _ _ _ _ (by decide), ext_high _ _ _ _ (by decide), ext_high _ _ _ _ (by decide), ext_high _ _ _ _ (by decide)]; exact ext_all _
  generalize (18#7 ++ b ++ a ++ d ++ 0x00#7 : BitVec 32) = w at *
  unfold decodeGen
  rw [h0_7, h25_7]
  show some _ = _
  rw [h7_6, h13_6, h19_6]

theorem maxu (b : BitVec 6) (a : BitVec 6) (d : BitVec 6) : Statement (.maxu b a d) := by
  refine of_gen rfl rfl fun hw => ?_
  show decodeGen (19#7 ++ b ++ a ++ d ++ 0x00#7) = _
  have h0_7 : (19#7 ++ b ++ a ++ d ++ 0x00#7 : BitVec 32).extractLsb' 0 7 = 0x00#7 := by
    rw [ext_low _ _ _ _ (by decide)]; exact ext_all _
  have h7_6 : (19#7 ++ b ++ a ++ d ++ 0x00#7 : BitVec 32).extractLsb' 7 6 = d := by
    rw [ext_high _ _ _ _ (by decide), ext_low _ _ _ _ (by decide)]; exact ext_all _
  have h13_6 : (19#7 ++ b ++ a ++ d ++ 0x00#7 : BitVec 32).extractLsb' 13 6 = a := by
    rw [ext_high _ _ _ _ (by decide), ext_high _ _ _ _ (by decide), ext_low _ _ _ _ (by decide)]; exact ext_all _
  have h19_6 : (19#7 ++ b ++ a ++ d ++ 0x00#7 : BitVec 32).extractLsb' 19 6 = b := by
    rw [ext_high _ _ _ _ (by decide), ext_high _ _ _ _ (by decide), ext_high _ _ _ _ (by decide), ext_low _ _ _ _ (by decide)]; exact ext_all _
  have h25_7 : (19#7 ++ b ++ a ++ d ++ 0x00#7 : BitVec 32).extractLsb' 25 7 = 19#7 := by
    rw [ext_high _ _ _ _ (by decide), ext_high _ _ _ _ (by decide), ext_high _ _ _ _ (by decide), ext_high _ _ _ _ (by decide)]; exact ext_all _
  generalize (19#7 ++ b ++ a ++ d ++ 0x00#7 : BitVec 32) = w at *
  unfold decodeGen
  rw [h0_7, h25_7]
  show some _ = _
  rw [h7_6, h13_6, h19_6]

theorem clz (a : BitVec 6) (d : BitVec 6) : Statement (.clz a d) := by
  refine of_gen rfl rfl fun hw => ?_
  show decodeGen (20#7 ++ 0#6 ++ a ++ d ++ 0x00#7) = _
  have h0_7 : (20#7 ++ 0#6 ++ a ++ d ++ 0x00#7 : BitVec 32).extractLsb' 0 7 = 0x00#7 := by
    rw [ext_low _ _ _ _ (by decide)]; exact ext_all _
  have h7_6 : (20#7 ++ 0#6 ++ a ++ d ++ 0x00#7 : BitVec 32).extractLsb' 7 6 = d := by
    rw [ext_high _ _ _ _ (by decide), ext_low _ _ _ _ (by decide)]; exact ext_all _
  have h13_6 : (20#7 ++ 0#6 ++ a ++ d ++ 0x00#7 : BitVec 32).extractLsb' 13 6 = a := by
    rw [ext_high _ _ _ _ (by decide), ext_high _ _ _ _ (by decide), ext_low _ _ _ _ (by decide)]; exact ext_all _
  have h19_6 : (20#7 ++ 0#6 ++ a ++ d ++ 0x00#7 : BitVec 32).extractLsb' 19 6 = 0#6 := by
    rw [ext_high _ _ _ _ (by decide), ext_high _ _ _ _ (by decide), ext_high _ _ _ _ (by decide), ext_low _ _ _ _ (by decide)]; exact ext_all _
  have h25_7 : (20#7 ++ 0#6 ++ a ++ d ++ 0x00#7 : BitVec 32).extractLsb' 25 7 = 20#7 := by
    rw [ext_high _ _ _ _ (by decide), ext_high _ _ _ _ (by decide), ext_high _ _ _ _ (by decide), ext_high _ _ _ _ (by decide)]; exact ext_all _
  generalize (20#7 ++ 0#6 ++ a ++ d ++ 0x00#7 : BitVec 32) = w at *
  unfold decodeGen
  rw [h0_7, h25_7]
  refine (if_pos h19_6).trans ?_
  rw [h7_6, h13_6]

theorem popc (a : BitVec 6) (d : BitVec 6) : Statement (.popc a d) := by
  refine of_gen rfl rfl fun hw => ?_
  show decodeGen (21#7 ++ 0#6 ++ a ++ d ++ 0x00#7) = _
  have h0_7 : (21#7 ++ 0#6 ++ a ++ d ++ 0x00#7 : BitVec 32).extractLsb' 0 7 = 0x00#7 := by
    rw [ext_low _ _ _ _ (by decide)]; exact ext_all _
  have h7_6 : (21#7 ++ 0#6 ++ a ++ d ++ 0x00#7 : BitVec 32).extractLsb' 7 6 = d := by
    rw [ext_high _ _ _ _ (by decide), ext_low _ _ _ _ (by decide)]; exact ext_all _
  have h13_6 : (21#7 ++ 0#6 ++ a ++ d ++ 0x00#7 : BitVec 32).extractLsb' 13 6 = a := by
    rw [ext_high _ _ _ _ (by decide), ext_high _ _ _ _ (by decide), ext_low _ _ _ _ (by decide)]; exact ext_all _
  have h19_6 : (21#7 ++ 0#6 ++ a ++ d ++ 0x00#7 : BitVec 32).extractLsb' 19 6 = 0#6 := by
    rw [ext_high _ _ _ _ (by decide), ext_high _ _ _ _ (by decide), ext_high _ _ _ _ (by decide), ext_low _ _ _ _ (by decide)]; exact ext_all _
  have h25_7 : (21#7 ++ 0#6 ++ a ++ d ++ 0x00#7 : BitVec 32).extractLsb' 25 7 = 21#7 := by
    rw [ext_high _ _ _ _ (by decide), ext_high _ _ _ _ (by decide), ext_high _ _ _ _ (by decide), ext_high _ _ _ _ (by decide)]; exact ext_all _
  generalize (21#7 ++ 0#6 ++ a ++ d ++ 0x00#7 : BitVec 32) = w at *
  unfold decodeGen
  rw [h0_7, h25_7]
  refine (if_pos h19_6).trans ?_
  rw [h7_6, h13_6]

theorem addi (i : BitVec 13) (a : BitVec 6) (d : BitVec 6) : Statement (.addi i a d) := by
  refine of_gen rfl rfl fun hw => ?_
  show decodeGen (i ++ a ++ d ++ 0x01#7) = _
  have h0_7 : (i ++ a ++ d ++ 0x01#7 : BitVec 32).extractLsb' 0 7 = 0x01#7 := by
    rw [ext_low _ _ _ _ (by decide)]; exact ext_all _
  have h7_6 : (i ++ a ++ d ++ 0x01#7 : BitVec 32).extractLsb' 7 6 = d := by
    rw [ext_high _ _ _ _ (by decide), ext_low _ _ _ _ (by decide)]; exact ext_all _
  have h13_6 : (i ++ a ++ d ++ 0x01#7 : BitVec 32).extractLsb' 13 6 = a := by
    rw [ext_high _ _ _ _ (by decide), ext_high _ _ _ _ (by decide), ext_low _ _ _ _ (by decide)]; exact ext_all _
  have h19_13 : (i ++ a ++ d ++ 0x01#7 : BitVec 32).extractLsb' 19 13 = i := by
    rw [ext_high _ _ _ _ (by decide), ext_high _ _ _ _ (by decide), ext_high _ _ _ _ (by decide)]; exact ext_all _
  generalize (i ++ a ++ d ++ 0x01#7 : BitVec 32) = w at *
  unfold decodeGen
  rw [h0_7]
  show some _ = _
  rw [h7_6, h13_6, h19_13]

theorem andi (i : BitVec 13) (a : BitVec 6) (d : BitVec 6) : Statement (.andi i a d) := by
  refine of_gen rfl rfl fun hw => ?_
  show decodeGen (i ++ a ++ d ++ 0x02#7) = _
  have h0_7 : (i ++ a ++ d ++ 0x02#7 : BitVec 32).extractLsb' 0 7 = 0x02#7 := by
    rw [ext_low _ _ _ _ (by decide)]; exact ext_all _
  have h7_6 : (i ++ a ++ d ++ 0x02#7 : BitVec 32).extractLsb' 7 6 = d := by
    rw [ext_high _ _ _ _ (by decide), ext_low _ _ _ _ (by decide)]; exact ext_all _
  have h13_6 : (i ++ a ++ d ++ 0x02#7 : BitVec 32).extractLsb' 13 6 = a := by
    rw [ext_high _ _ _ _ (by decide), ext_high _ _ _ _ (by decide), ext_low _ _ _ _ (by decide)]; exact ext_all _
  have h19_13 : (i ++ a ++ d ++ 0x02#7 : BitVec 32).extractLsb' 19 13 = i := by
    rw [ext_high _ _ _ _ (by decide), ext_high _ _ _ _ (by decide), ext_high _ _ _ _ (by decide)]; exact ext_all _
  generalize (i ++ a ++ d ++ 0x02#7 : BitVec 32) = w at *
  unfold decodeGen
  rw [h0_7]
  show some _ = _
  rw [h7_6, h13_6, h19_13]

theorem ori (i : BitVec 13) (a : BitVec 6) (d : BitVec 6) : Statement (.ori i a d) := by
  refine of_gen rfl rfl fun hw => ?_
  show decodeGen (i ++ a ++ d ++ 0x03#7) = _
  have h0_7 : (i ++ a ++ d ++ 0x03#7 : BitVec 32).extractLsb' 0 7 = 0x03#7 := by
    rw [ext_low _ _ _ _ (by decide)]; exact ext_all _
  have h7_6 : (i ++ a ++ d ++ 0x03#7 : BitVec 32).extractLsb' 7 6 = d := by
    rw [ext_high _ _ _ _ (by decide), ext_low _ _ _ _ (by decide)]; exact ext_all _
  have h13_6 : (i ++ a ++ d ++ 0x03#7 : BitVec 32).extractLsb' 13 6 = a := by
    rw [ext_high _ _ _ _ (by decide), ext_high _ _ _ _ (by decide), ext_low _ _ _ _ (by decide)]; exact ext_all _
  have h19_13 : (i ++ a ++ d ++ 0x03#7 : BitVec 32).extractLsb' 19 13 = i := by
    rw [ext_high _ _ _ _ (by decide), ext_high _ _ _ _ (by decide), ext_high _ _ _ _ (by decide)]; exact ext_all _
  generalize (i ++ a ++ d ++ 0x03#7 : BitVec 32) = w at *
  unfold decodeGen
  rw [h0_7]
  show some _ = _
  rw [h7_6, h13_6, h19_13]

theorem xori (i : BitVec 13) (a : BitVec 6) (d : BitVec 6) : Statement (.xori i a d) := by
  refine of_gen rfl rfl fun hw => ?_
  show decodeGen (i ++ a ++ d ++ 0x04#7) = _
  have h0_7 : (i ++ a ++ d ++ 0x04#7 : BitVec 32).extractLsb' 0 7 = 0x04#7 := by
    rw [ext_low _ _ _ _ (by decide)]; exact ext_all _
  have h7_6 : (i ++ a ++ d ++ 0x04#7 : BitVec 32).extractLsb' 7 6 = d := by
    rw [ext_high _ _ _ _ (by decide), ext_low _ _ _ _ (by decide)]; exact ext_all _
  have h13_6 : (i ++ a ++ d ++ 0x04#7 : BitVec 32).extractLsb' 13 6 = a := by
    rw [ext_high _ _ _ _ (by decide), ext_high _ _ _ _ (by decide), ext_low _ _ _ _ (by decide)]; exact ext_all _
  have h19_13 : (i ++ a ++ d ++ 0x04#7 : BitVec 32).extractLsb' 19 13 = i := by
    rw [ext_high _ _ _ _ (by decide), ext_high _ _ _ _ (by decide), ext_high _ _ _ _ (by decide)]; exact ext_all _
  generalize (i ++ a ++ d ++ 0x04#7 : BitVec 32) = w at *
  unfold decodeGen
  rw [h0_7]
  show some _ = _
  rw [h7_6, h13_6, h19_13]

theorem shli (i : BitVec 6) (a : BitVec 6) (d : BitVec 6) : Statement (.shli i a d) := by
  refine of_gen rfl rfl fun hw => ?_
  show decodeGen (0#7 ++ i ++ a ++ d ++ 0x05#7) = _
  have h0_7 : (0#7 ++ i ++ a ++ d ++ 0x05#7 : BitVec 32).extractLsb' 0 7 = 0x05#7 := by
    rw [ext_low _ _ _ _ (by decide)]; exact ext_all _
  have h7_6 : (0#7 ++ i ++ a ++ d ++ 0x05#7 : BitVec 32).extractLsb' 7 6 = d := by
    rw [ext_high _ _ _ _ (by decide), ext_low _ _ _ _ (by decide)]; exact ext_all _
  have h13_6 : (0#7 ++ i ++ a ++ d ++ 0x05#7 : BitVec 32).extractLsb' 13 6 = a := by
    rw [ext_high _ _ _ _ (by decide), ext_high _ _ _ _ (by decide), ext_low _ _ _ _ (by decide)]; exact ext_all _
  have h19_6 : (0#7 ++ i ++ a ++ d ++ 0x05#7 : BitVec 32).extractLsb' 19 6 = i := by
    rw [ext_high _ _ _ _ (by decide), ext_high _ _ _ _ (by decide), ext_high _ _ _ _ (by decide), ext_low _ _ _ _ (by decide)]; exact ext_all _
  have h25_7 : (0#7 ++ i ++ a ++ d ++ 0x05#7 : BitVec 32).extractLsb' 25 7 = 0#7 := by
    rw [ext_high _ _ _ _ (by decide), ext_high _ _ _ _ (by decide), ext_high _ _ _ _ (by decide), ext_high _ _ _ _ (by decide)]; exact ext_all _
  generalize (0#7 ++ i ++ a ++ d ++ 0x05#7 : BitVec 32) = w at *
  unfold decodeGen
  rw [h0_7]
  refine (if_pos h25_7).trans ?_
  rw [h7_6, h13_6, h19_6]

theorem shri (i : BitVec 6) (a : BitVec 6) (d : BitVec 6) : Statement (.shri i a d) := by
  refine of_gen rfl rfl fun hw => ?_
  show decodeGen (0#7 ++ i ++ a ++ d ++ 0x06#7) = _
  have h0_7 : (0#7 ++ i ++ a ++ d ++ 0x06#7 : BitVec 32).extractLsb' 0 7 = 0x06#7 := by
    rw [ext_low _ _ _ _ (by decide)]; exact ext_all _
  have h7_6 : (0#7 ++ i ++ a ++ d ++ 0x06#7 : BitVec 32).extractLsb' 7 6 = d := by
    rw [ext_high _ _ _ _ (by decide), ext_low _ _ _ _ (by decide)]; exact ext_all _
  have h13_6 : (0#7 ++ i ++ a ++ d ++ 0x06#7 : BitVec 32).extractLsb' 13 6 = a := by
    rw [ext_high _ _ _ _ (by decide), ext_high _ _ _ _ (by decide), ext_low _ _ _ _ (by decide)]; exact ext_all _
  have h19_6 : (0#7 ++ i ++ a ++ d ++ 0x06#7 : BitVec 32).extractLsb' 19 6 = i := by
    rw [ext_high _ _ _ _ (by decide), ext_high _ _ _ _ (by decide), ext_high _ _ _ _ (by decide), ext_low _ _ _ _ (by decide)]; exact ext_all _
  have h25_7 : (0#7 ++ i ++ a ++ d ++ 0x06#7 : BitVec 32).extractLsb' 25 7 = 0#7 := by
    rw [ext_high _ _ _ _ (by decide), ext_high _ _ _ _ (by decide), ext_high _ _ _ _ (by decide), ext_high _ _ _ _ (by decide)]; exact ext_all _
  generalize (0#7 ++ i ++ a ++ d ++ 0x06#7 : BitVec 32) = w at *
  unfold decodeGen
  rw [h0_7]
  refine (if_pos h25_7).trans ?_
  rw [h7_6, h13_6, h19_6]

theorem srai (i : BitVec 6) (a : BitVec 6) (d : BitVec 6) : Statement (.srai i a d) := by
  refine of_gen rfl rfl fun hw => ?_
  show decodeGen (0#7 ++ i ++ a ++ d ++ 0x07#7) = _
  have h0_7 : (0#7 ++ i ++ a ++ d ++ 0x07#7 : BitVec 32).extractLsb' 0 7 = 0x07#7 := by
    rw [ext_low _ _ _ _ (by decide)]; exact ext_all _
  have h7_6 : (0#7 ++ i ++ a ++ d ++ 0x07#7 : BitVec 32).extractLsb' 7 6 = d := by
    rw [ext_high _ _ _ _ (by decide), ext_low _ _ _ _ (by decide)]; exact ext_all _
  have h13_6 : (0#7 ++ i ++ a ++ d ++ 0x07#7 : BitVec 32).extractLsb' 13 6 = a := by
    rw [ext_high _ _ _ _ (by decide), ext_high _ _ _ _ (by decide), ext_low _ _ _ _ (by decide)]; exact ext_all _
  have h19_6 : (0#7 ++ i ++ a ++ d ++ 0x07#7 : BitVec 32).extractLsb' 19 6 = i := by
    rw [ext_high _ _ _ _ (by decide), ext_high _ _ _ _ (by decide), ext_high _ _ _ _ (by decide), ext_low _ _ _ _ (by decide)]; exact ext_all _
  have h25_7 : (0#7 ++ i ++ a ++ d ++ 0x07#7 : BitVec 32).extractLsb' 25 7 = 0#7 := by
    rw [ext_high _ _ _ _ (by decide), ext_high _ _ _ _ (by decide), ext_high _ _ _ _ (by decide), ext_high _ _ _ _ (by decide)]; exact ext_all _
  generalize (0#7 ++ i ++ a ++ d ++ 0x07#7 : BitVec 32) = w at *
  unfold decodeGen
  rw [h0_7]
  refine (if_pos h25_7).trans ?_
  rw [h7_6, h13_6, h19_6]

theorem slti (i : BitVec 13) (a : BitVec 6) (d : BitVec 6) : Statement (.slti i a d) := by
  refine of_gen rfl rfl fun hw => ?_
  show decodeGen (i ++ a ++ d ++ 0x08#7) = _
  have h0_7 : (i ++ a ++ d ++ 0x08#7 : BitVec 32).extractLsb' 0 7 = 0x08#7 := by
    rw [ext_low _ _ _ _ (by decide)]; exact ext_all _
  have h7_6 : (i ++ a ++ d ++ 0x08#7 : BitVec 32).extractLsb' 7 6 = d := by
    rw [ext_high _ _ _ _ (by decide), ext_low _ _ _ _ (by decide)]; exact ext_all _
  have h13_6 : (i ++ a ++ d ++ 0x08#7 : BitVec 32).extractLsb' 13 6 = a := by
    rw [ext_high _ _ _ _ (by decide), ext_high _ _ _ _ (by decide), ext_low _ _ _ _ (by decide)]; exact ext_all _
  have h19_13 : (i ++ a ++ d ++ 0x08#7 : BitVec 32).extractLsb' 19 13 = i := by
    rw [ext_high _ _ _ _ (by decide), ext_high _ _ _ _ (by decide), ext_high _ _ _ _ (by decide)]; exact ext_all _
  generalize (i ++ a ++ d ++ 0x08#7 : BitVec 32) = w at *
  unfold decodeGen
  rw [h0_7]
  show some _ = _
  rw [h7_6, h13_6, h19_13]

theorem sltiu (i : BitVec 13) (a : BitVec 6) (d : BitVec 6) : Statement (.sltiu i a d) := by
  refine of_gen rfl rfl fun hw => ?_
  show decodeGen (i ++ a ++ d ++ 0x09#7) = _
  have h0_7 : (i ++ a ++ d ++ 0x09#7 : BitVec 32).extractLsb' 0 7 = 0x09#7 := by
    rw [ext_low _ _ _ _ (by decide)]; exact ext_all _
  have h7_6 : (i ++ a ++ d ++ 0x09#7 : BitVec 32).extractLsb' 7 6 = d := by
    rw [ext_high _ _ _ _ (by decide), ext_low _ _ _ _ (by decide)]; exact ext_all _
  have h13_6 : (i ++ a ++ d ++ 0x09#7 : BitVec 32).extractLsb' 13 6 = a := by
    rw [ext_high _ _ _ _ (by decide), ext_high _ _ _ _ (by decide), ext_low _ _ _ _ (by decide)]; exact ext_all _
  have h19_13 : (i ++ a ++ d ++ 0x09#7 : BitVec 32).extractLsb' 19 13 = i := by
    rw [ext_high _ _ _ _ (by decide), ext_high _ _ _ _ (by decide), ext_high _ _ _ _ (by decide)]; exact ext_all _
  generalize (i ++ a ++ d ++ 0x09#7 : BitVec 32) = w at *
  unfold decodeGen
  rw [h0_7]
  show some _ = _
  rw [h7_6, h13_6, h19_13]

theorem lui (i : BitVec 19) (d : BitVec 6) : Statement (.lui i d) := by
  refine of_gen rfl rfl fun hw => ?_
  show decodeGen (i ++ d ++ 0x0a#7) = _
  have h0_7 : (i ++ d ++ 0x0a#7 : BitVec 32).extractLsb' 0 7 = 0x0a#7 := by
    rw [ext_low _ _ _ _ (by decide)]; exact ext_all _
  have h7_6 : (i ++ d ++ 0x0a#7 : BitVec 32).extractLsb' 7 6 = d := by
    rw [ext_high _ _ _ _ (by decide), ext_low _ _ _ _ (by decide)]; exact ext_all _
  have h13_19 : (i ++ d ++ 0x0a#7 : BitVec 32).extractLsb' 13 19 = i := by
    rw [ext_high _ _ _ _ (by decide), ext_high _ _ _ _ (by decide)]; exact ext_all _
  generalize (i ++ d ++ 0x0a#7 : BitVec 32) = w at *
  unfold decodeGen
  rw [h0_7]
  show some _ = _
  rw [h7_6, h13_19]

theorem pcadd (i : BitVec 19) (d : BitVec 6) : Statement (.pcadd i d) := by
  refine of_gen rfl rfl fun hw => ?_
  show decodeGen (i ++ d ++ 0x0b#7) = _
  have h0_7 : (i ++ d ++ 0x0b#7 : BitVec 32).extractLsb' 0 7 = 0x0b#7 := by
    rw [ext_low _ _ _ _ (by decide)]; exact ext_all _
  have h7_6 : (i ++ d ++ 0x0b#7 : BitVec 32).extractLsb' 7 6 = d := by
    rw [ext_high _ _ _ _ (by decide), ext_low _ _ _ _ (by decide)]; exact ext_all _
  have h13_19 : (i ++ d ++ 0x0b#7 : BitVec 32).extractLsb' 13 19 = i := by
    rw [ext_high _ _ _ _ (by decide), ext_high _ _ _ _ (by decide)]; exact ext_all _
  generalize (i ++ d ++ 0x0b#7 : BitVec 32) = w at *
  unfold decodeGen
  rw [h0_7]
  show some _ = _
  rw [h7_6, h13_19]

theorem ldb (i : BitVec 13) (a : BitVec 6) (d : BitVec 6) : Statement (.ldb i a d) := by
  refine of_gen rfl rfl fun hw => ?_
  show decodeGen (i ++ a ++ d ++ 0x10#7) = _
  have h0_7 : (i ++ a ++ d ++ 0x10#7 : BitVec 32).extractLsb' 0 7 = 0x10#7 := by
    rw [ext_low _ _ _ _ (by decide)]; exact ext_all _
  have h7_6 : (i ++ a ++ d ++ 0x10#7 : BitVec 32).extractLsb' 7 6 = d := by
    rw [ext_high _ _ _ _ (by decide), ext_low _ _ _ _ (by decide)]; exact ext_all _
  have h13_6 : (i ++ a ++ d ++ 0x10#7 : BitVec 32).extractLsb' 13 6 = a := by
    rw [ext_high _ _ _ _ (by decide), ext_high _ _ _ _ (by decide), ext_low _ _ _ _ (by decide)]; exact ext_all _
  have h19_13 : (i ++ a ++ d ++ 0x10#7 : BitVec 32).extractLsb' 19 13 = i := by
    rw [ext_high _ _ _ _ (by decide), ext_high _ _ _ _ (by decide), ext_high _ _ _ _ (by decide)]; exact ext_all _
  generalize (i ++ a ++ d ++ 0x10#7 : BitVec 32) = w at *
  unfold decodeGen
  rw [h0_7]
  show some _ = _
  rw [h7_6, h13_6, h19_13]

theorem ldh (i : BitVec 13) (a : BitVec 6) (d : BitVec 6) : Statement (.ldh i a d) := by
  refine of_gen rfl rfl fun hw => ?_
  show decodeGen (i ++ a ++ d ++ 0x11#7) = _
  have h0_7 : (i ++ a ++ d ++ 0x11#7 : BitVec 32).extractLsb' 0 7 = 0x11#7 := by
    rw [ext_low _ _ _ _ (by decide)]; exact ext_all _
  have h7_6 : (i ++ a ++ d ++ 0x11#7 : BitVec 32).extractLsb' 7 6 = d := by
    rw [ext_high _ _ _ _ (by decide), ext_low _ _ _ _ (by decide)]; exact ext_all _
  have h13_6 : (i ++ a ++ d ++ 0x11#7 : BitVec 32).extractLsb' 13 6 = a := by
    rw [ext_high _ _ _ _ (by decide), ext_high _ _ _ _ (by decide), ext_low _ _ _ _ (by decide)]; exact ext_all _
  have h19_13 : (i ++ a ++ d ++ 0x11#7 : BitVec 32).extractLsb' 19 13 = i := by
    rw [ext_high _ _ _ _ (by decide), ext_high _ _ _ _ (by decide), ext_high _ _ _ _ (by decide)]; exact ext_all _
  generalize (i ++ a ++ d ++ 0x11#7 : BitVec 32) = w at *
  unfold decodeGen
  rw [h0_7]
  show some _ = _
  rw [h7_6, h13_6, h19_13]

theorem ldw (i : BitVec 13) (a : BitVec 6) (d : BitVec 6) : Statement (.ldw i a d) := by
  refine of_gen rfl rfl fun hw => ?_
  show decodeGen (i ++ a ++ d ++ 0x12#7) = _
  have h0_7 : (i ++ a ++ d ++ 0x12#7 : BitVec 32).extractLsb' 0 7 = 0x12#7 := by
    rw [ext_low _ _ _ _ (by decide)]; exact ext_all _
  have h7_6 : (i ++ a ++ d ++ 0x12#7 : BitVec 32).extractLsb' 7 6 = d := by
    rw [ext_high _ _ _ _ (by decide), ext_low _ _ _ _ (by decide)]; exact ext_all _
  have h13_6 : (i ++ a ++ d ++ 0x12#7 : BitVec 32).extractLsb' 13 6 = a := by
    rw [ext_high _ _ _ _ (by decide), ext_high _ _ _ _ (by decide), ext_low _ _ _ _ (by decide)]; exact ext_all _
  have h19_13 : (i ++ a ++ d ++ 0x12#7 : BitVec 32).extractLsb' 19 13 = i := by
    rw [ext_high _ _ _ _ (by decide), ext_high _ _ _ _ (by decide), ext_high _ _ _ _ (by decide)]; exact ext_all _
  generalize (i ++ a ++ d ++ 0x12#7 : BitVec 32) = w at *
  unfold decodeGen
  rw [h0_7]
  show some _ = _
  rw [h7_6, h13_6, h19_13]

theorem ldd (i : BitVec 13) (a : BitVec 6) (d : BitVec 6) : Statement (.ldd i a d) := by
  refine of_gen rfl rfl fun hw => ?_
  show decodeGen (i ++ a ++ d ++ 0x13#7) = _
  have h0_7 : (i ++ a ++ d ++ 0x13#7 : BitVec 32).extractLsb' 0 7 = 0x13#7 := by
    rw [ext_low _ _ _ _ (by decide)]; exact ext_all _
  have h7_6 : (i ++ a ++ d ++ 0x13#7 : BitVec 32).extractLsb' 7 6 = d := by
    rw [ext_high _ _ _ _ (by decide), ext_low _ _ _ _ (by decide)]; exact ext_all _
  have h13_6 : (i ++ a ++ d ++ 0x13#7 : BitVec 32).extractLsb' 13 6 = a := by
    rw [ext_high _ _ _ _ (by decide), ext_high _ _ _ _ (by decide), ext_low _ _ _ _ (by decide)]; exact ext_all _
  have h19_13 : (i ++ a ++ d ++ 0x13#7 : BitVec 32).extractLsb' 19 13 = i := by
    rw [ext_high _ _ _ _ (by decide), ext_high _ _ _ _ (by decide), ext_high _ _ _ _ (by decide)]; exact ext_all _
  generalize (i ++ a ++ d ++ 0x13#7 : BitVec 32) = w at *
  unfold decodeGen
  rw [h0_7]
  show some _ = _
  rw [h7_6, h13_6, h19_13]

theorem ldbu (i : BitVec 13) (a : BitVec 6) (d : BitVec 6) : Statement (.ldbu i a d) := by
  refine of_gen rfl rfl fun hw => ?_
  show decodeGen (i ++ a ++ d ++ 0x14#7) = _
  have h0_7 : (i ++ a ++ d ++ 0x14#7 : BitVec 32).extractLsb' 0 7 = 0x14#7 := by
    rw [ext_low _ _ _ _ (by decide)]; exact ext_all _
  have h7_6 : (i ++ a ++ d ++ 0x14#7 : BitVec 32).extractLsb' 7 6 = d := by
    rw [ext_high _ _ _ _ (by decide), ext_low _ _ _ _ (by decide)]; exact ext_all _
  have h13_6 : (i ++ a ++ d ++ 0x14#7 : BitVec 32).extractLsb' 13 6 = a := by
    rw [ext_high _ _ _ _ (by decide), ext_high _ _ _ _ (by decide), ext_low _ _ _ _ (by decide)]; exact ext_all _
  have h19_13 : (i ++ a ++ d ++ 0x14#7 : BitVec 32).extractLsb' 19 13 = i := by
    rw [ext_high _ _ _ _ (by decide), ext_high _ _ _ _ (by decide), ext_high _ _ _ _ (by decide)]; exact ext_all _
  generalize (i ++ a ++ d ++ 0x14#7 : BitVec 32) = w at *
  unfold decodeGen
  rw [h0_7]
  show some _ = _
  rw [h7_6, h13_6, h19_13]

theorem ldhu (i : BitVec 13) (a : BitVec 6) (d : BitVec 6) : Statement (.ldhu i a d) := by
  refine of_gen rfl rfl fun hw => ?_
  show decodeGen (i ++ a ++ d ++ 0x15#7) = _
  have h0_7 : (i ++ a ++ d ++ 0x15#7 : BitVec 32).extractLsb' 0 7 = 0x15#7 := by
    rw [ext_low _ _ _ _ (by decide)]; exact ext_all _
  have h7_6 : (i ++ a ++ d ++ 0x15#7 : BitVec 32).extractLsb' 7 6 = d := by
    rw [ext_high _ _ _ _ (by decide), ext_low _ _ _ _ (by decide)]; exact ext_all _
  have h13_6 : (i ++ a ++ d ++ 0x15#7 : BitVec 32).extractLsb' 13 6 = a := by
    rw [ext_high _ _ _ _ (by decide), ext_high _ _ _ _ (by decide), ext_low _ _ _ _ (by decide)]; exact ext_all _
  have h19_13 : (i ++ a ++ d ++ 0x15#7 : BitVec 32).extractLsb' 19 13 = i := by
    rw [ext_high _ _ _ _ (by decide), ext_high _ _ _ _ (by decide), ext_high _ _ _ _ (by decide)]; exact ext_all _
  generalize (i ++ a ++ d ++ 0x15#7 : BitVec 32) = w at *
  unfold decodeGen
  rw [h0_7]
  show some _ = _
  rw [h7_6, h13_6, h19_13]

theorem ldwu (i : BitVec 13) (a : BitVec 6) (d : BitVec 6) : Statement (.ldwu i a d) := by
  refine of_gen rfl rfl fun hw => ?_
  show decodeGen (i ++ a ++ d ++ 0x16#7) = _
  have h0_7 : (i ++ a ++ d ++ 0x16#7 : BitVec 32).extractLsb' 0 7 = 0x16#7 := by
    rw [ext_low _ _ _ _ (by decide)]; exact ext_all _
  have h7_6 : (i ++ a ++ d ++ 0x16#7 : BitVec 32).extractLsb' 7 6 = d := by
    rw [ext_high _ _ _ _ (by decide), ext_low _ _ _ _ (by decide)]; exact ext_all _
  have h13_6 : (i ++ a ++ d ++ 0x16#7 : BitVec 32).extractLsb' 13 6 = a := by
    rw [ext_high _ _ _ _ (by decide), ext_high _ _ _ _ (by decide), ext_low _ _ _ _ (by decide)]; exact ext_all _
  have h19_13 : (i ++ a ++ d ++ 0x16#7 : BitVec 32).extractLsb' 19 13 = i := by
    rw [ext_high _ _ _ _ (by decide), ext_high _ _ _ _ (by decide), ext_high _ _ _ _ (by decide)]; exact ext_all _
  generalize (i ++ a ++ d ++ 0x16#7 : BitVec 32) = w at *
  unfold decodeGen
  rw [h0_7]
  show some _ = _
  rw [h7_6, h13_6, h19_13]

theorem stb (i : BitVec 13) (a : BitVec 6) (b : BitVec 6) : Statement (.stb i a b) := by
  refine of_gen rfl rfl fun hw => ?_
  show decodeGen (i ++ a ++ b ++ 0x18#7) = _
  have h0_7 : (i ++ a ++ b ++ 0x18#7 : BitVec 32).extractLsb' 0 7 = 0x18#7 := by
    rw [ext_low _ _ _ _ (by decide)]; exact ext_all _
  have h7_6 : (i ++ a ++ b ++ 0x18#7 : BitVec 32).extractLsb' 7 6 = b := by
    rw [ext_high _ _ _ _ (by decide), ext_low _ _ _ _ (by decide)]; exact ext_all _
  have h13_6 : (i ++ a ++ b ++ 0x18#7 : BitVec 32).extractLsb' 13 6 = a := by
    rw [ext_high _ _ _ _ (by decide), ext_high _ _ _ _ (by decide), ext_low _ _ _ _ (by decide)]; exact ext_all _
  have h19_13 : (i ++ a ++ b ++ 0x18#7 : BitVec 32).extractLsb' 19 13 = i := by
    rw [ext_high _ _ _ _ (by decide), ext_high _ _ _ _ (by decide), ext_high _ _ _ _ (by decide)]; exact ext_all _
  generalize (i ++ a ++ b ++ 0x18#7 : BitVec 32) = w at *
  unfold decodeGen
  rw [h0_7]
  show some _ = _
  rw [h7_6, h13_6, h19_13]

theorem sth (i : BitVec 13) (a : BitVec 6) (b : BitVec 6) : Statement (.sth i a b) := by
  refine of_gen rfl rfl fun hw => ?_
  show decodeGen (i ++ a ++ b ++ 0x19#7) = _
  have h0_7 : (i ++ a ++ b ++ 0x19#7 : BitVec 32).extractLsb' 0 7 = 0x19#7 := by
    rw [ext_low _ _ _ _ (by decide)]; exact ext_all _
  have h7_6 : (i ++ a ++ b ++ 0x19#7 : BitVec 32).extractLsb' 7 6 = b := by
    rw [ext_high _ _ _ _ (by decide), ext_low _ _ _ _ (by decide)]; exact ext_all _
  have h13_6 : (i ++ a ++ b ++ 0x19#7 : BitVec 32).extractLsb' 13 6 = a := by
    rw [ext_high _ _ _ _ (by decide), ext_high _ _ _ _ (by decide), ext_low _ _ _ _ (by decide)]; exact ext_all _
  have h19_13 : (i ++ a ++ b ++ 0x19#7 : BitVec 32).extractLsb' 19 13 = i := by
    rw [ext_high _ _ _ _ (by decide), ext_high _ _ _ _ (by decide), ext_high _ _ _ _ (by decide)]; exact ext_all _
  generalize (i ++ a ++ b ++ 0x19#7 : BitVec 32) = w at *
  unfold decodeGen
  rw [h0_7]
  show some _ = _
  rw [h7_6, h13_6, h19_13]

theorem stw (i : BitVec 13) (a : BitVec 6) (b : BitVec 6) : Statement (.stw i a b) := by
  refine of_gen rfl rfl fun hw => ?_
  show decodeGen (i ++ a ++ b ++ 0x1a#7) = _
  have h0_7 : (i ++ a ++ b ++ 0x1a#7 : BitVec 32).extractLsb' 0 7 = 0x1a#7 := by
    rw [ext_low _ _ _ _ (by decide)]; exact ext_all _
  have h7_6 : (i ++ a ++ b ++ 0x1a#7 : BitVec 32).extractLsb' 7 6 = b := by
    rw [ext_high _ _ _ _ (by decide), ext_low _ _ _ _ (by decide)]; exact ext_all _
  have h13_6 : (i ++ a ++ b ++ 0x1a#7 : BitVec 32).extractLsb' 13 6 = a := by
    rw [ext_high _ _ _ _ (by decide), ext_high _ _ _ _ (by decide), ext_low _ _ _ _ (by decide)]; exact ext_all _
  have h19_13 : (i ++ a ++ b ++ 0x1a#7 : BitVec 32).extractLsb' 19 13 = i := by
    rw [ext_high _ _ _ _ (by decide), ext_high _ _ _ _ (by decide), ext_high _ _ _ _ (by decide)]; exact ext_all _
  generalize (i ++ a ++ b ++ 0x1a#7 : BitVec 32) = w at *
  unfold decodeGen
  rw [h0_7]
  show some _ = _
  rw [h7_6, h13_6, h19_13]

theorem std (i : BitVec 13) (a : BitVec 6) (b : BitVec 6) : Statement (.std i a b) := by
  refine of_gen rfl rfl fun hw => ?_
  show decodeGen (i ++ a ++ b ++ 0x1b#7) = _
  have h0_7 : (i ++ a ++ b ++ 0x1b#7 : BitVec 32).extractLsb' 0 7 = 0x1b#7 := by
    rw [ext_low _ _ _ _ (by decide)]; exact ext_all _
  have h7_6 : (i ++ a ++ b ++ 0x1b#7 : BitVec 32).extractLsb' 7 6 = b := by
    rw [ext_high _ _ _ _ (by decide), ext_low _ _ _ _ (by decide)]; exact ext_all _
  have h13_6 : (i ++ a ++ b ++ 0x1b#7 : BitVec 32).extractLsb' 13 6 = a := by
    rw [ext_high _ _ _ _ (by decide), ext_high _ _ _ _ (by decide), ext_low _ _ _ _ (by decide)]; exact ext_all _
  have h19_13 : (i ++ a ++ b ++ 0x1b#7 : BitVec 32).extractLsb' 19 13 = i := by
    rw [ext_high _ _ _ _ (by decide), ext_high _ _ _ _ (by decide), ext_high _ _ _ _ (by decide)]; exact ext_all _
  generalize (i ++ a ++ b ++ 0x1b#7 : BitVec 32) = w at *
  unfold decodeGen
  rw [h0_7]
  show some _ = _
  rw [h7_6, h13_6, h19_13]

theorem ldz (o : BitVec 15) (z : BitVec 4) (d : BitVec 6) : Statement (.ldz o z d) := by
  refine of_gen rfl rfl fun hw => ?_
  show decodeGen (o ++ z ++ d ++ 0x1c#7) = _
  have h0_7 : (o ++ z ++ d ++ 0x1c#7 : BitVec 32).extractLsb' 0 7 = 0x1c#7 := by
    rw [ext_low _ _ _ _ (by decide)]; exact ext_all _
  have h7_6 : (o ++ z ++ d ++ 0x1c#7 : BitVec 32).extractLsb' 7 6 = d := by
    rw [ext_high _ _ _ _ (by decide), ext_low _ _ _ _ (by decide)]; exact ext_all _
  have h13_4 : (o ++ z ++ d ++ 0x1c#7 : BitVec 32).extractLsb' 13 4 = z := by
    rw [ext_high _ _ _ _ (by decide), ext_high _ _ _ _ (by decide), ext_low _ _ _ _ (by decide)]; exact ext_all _
  have h17_15 : (o ++ z ++ d ++ 0x1c#7 : BitVec 32).extractLsb' 17 15 = o := by
    rw [ext_high _ _ _ _ (by decide), ext_high _ _ _ _ (by decide), ext_high _ _ _ _ (by decide)]; exact ext_all _
  generalize (o ++ z ++ d ++ 0x1c#7 : BitVec 32) = w at *
  unfold decodeGen
  rw [h0_7]
  show some _ = _
  rw [h7_6, h13_4, h17_15]

theorem stz (o : BitVec 15) (z : BitVec 4) (b : BitVec 6) : Statement (.stz o z b) := by
  refine of_gen rfl rfl fun hw => ?_
  show decodeGen (o ++ z ++ b ++ 0x1d#7) = _
  have h0_7 : (o ++ z ++ b ++ 0x1d#7 : BitVec 32).extractLsb' 0 7 = 0x1d#7 := by
    rw [ext_low _ _ _ _ (by decide)]; exact ext_all _
  have h7_6 : (o ++ z ++ b ++ 0x1d#7 : BitVec 32).extractLsb' 7 6 = b := by
    rw [ext_high _ _ _ _ (by decide), ext_low _ _ _ _ (by decide)]; exact ext_all _
  have h13_4 : (o ++ z ++ b ++ 0x1d#7 : BitVec 32).extractLsb' 13 4 = z := by
    rw [ext_high _ _ _ _ (by decide), ext_high _ _ _ _ (by decide), ext_low _ _ _ _ (by decide)]; exact ext_all _
  have h17_15 : (o ++ z ++ b ++ 0x1d#7 : BitVec 32).extractLsb' 17 15 = o := by
    rw [ext_high _ _ _ _ (by decide), ext_high _ _ _ _ (by decide), ext_high _ _ _ _ (by decide)]; exact ext_all _
  generalize (o ++ z ++ b ++ 0x1d#7 : BitVec 32) = w at *
  unfold decodeGen
  rw [h0_7]
  show some _ = _
  rw [h7_6, h13_4, h17_15]

theorem beq (i : BitVec 13) (b : BitVec 6) (a : BitVec 6) : Statement (.beq i b a) := by
  refine of_gen rfl rfl fun hw => ?_
  show decodeGen (i ++ b ++ a ++ 0x20#7) = _
  have h0_7 : (i ++ b ++ a ++ 0x20#7 : BitVec 32).extractLsb' 0 7 = 0x20#7 := by
    rw [ext_low _ _ _ _ (by decide)]; exact ext_all _
  have h7_6 : (i ++ b ++ a ++ 0x20#7 : BitVec 32).extractLsb' 7 6 = a := by
    rw [ext_high _ _ _ _ (by decide), ext_low _ _ _ _ (by decide)]; exact ext_all _
  have h13_6 : (i ++ b ++ a ++ 0x20#7 : BitVec 32).extractLsb' 13 6 = b := by
    rw [ext_high _ _ _ _ (by decide), ext_high _ _ _ _ (by decide), ext_low _ _ _ _ (by decide)]; exact ext_all _
  have h19_13 : (i ++ b ++ a ++ 0x20#7 : BitVec 32).extractLsb' 19 13 = i := by
    rw [ext_high _ _ _ _ (by decide), ext_high _ _ _ _ (by decide), ext_high _ _ _ _ (by decide)]; exact ext_all _
  generalize (i ++ b ++ a ++ 0x20#7 : BitVec 32) = w at *
  unfold decodeGen
  rw [h0_7]
  show some _ = _
  rw [h7_6, h13_6, h19_13]

theorem bne (i : BitVec 13) (b : BitVec 6) (a : BitVec 6) : Statement (.bne i b a) := by
  refine of_gen rfl rfl fun hw => ?_
  show decodeGen (i ++ b ++ a ++ 0x21#7) = _
  have h0_7 : (i ++ b ++ a ++ 0x21#7 : BitVec 32).extractLsb' 0 7 = 0x21#7 := by
    rw [ext_low _ _ _ _ (by decide)]; exact ext_all _
  have h7_6 : (i ++ b ++ a ++ 0x21#7 : BitVec 32).extractLsb' 7 6 = a := by
    rw [ext_high _ _ _ _ (by decide), ext_low _ _ _ _ (by decide)]; exact ext_all _
  have h13_6 : (i ++ b ++ a ++ 0x21#7 : BitVec 32).extractLsb' 13 6 = b := by
    rw [ext_high _ _ _ _ (by decide), ext_high _ _ _ _ (by decide), ext_low _ _ _ _ (by decide)]; exact ext_all _
  have h19_13 : (i ++ b ++ a ++ 0x21#7 : BitVec 32).extractLsb' 19 13 = i := by
    rw [ext_high _ _ _ _ (by decide), ext_high _ _ _ _ (by decide), ext_high _ _ _ _ (by decide)]; exact ext_all _
  generalize (i ++ b ++ a ++ 0x21#7 : BitVec 32) = w at *
  unfold decodeGen
  rw [h0_7]
  show some _ = _
  rw [h7_6, h13_6, h19_13]

theorem blt (i : BitVec 13) (b : BitVec 6) (a : BitVec 6) : Statement (.blt i b a) := by
  refine of_gen rfl rfl fun hw => ?_
  show decodeGen (i ++ b ++ a ++ 0x22#7) = _
  have h0_7 : (i ++ b ++ a ++ 0x22#7 : BitVec 32).extractLsb' 0 7 = 0x22#7 := by
    rw [ext_low _ _ _ _ (by decide)]; exact ext_all _
  have h7_6 : (i ++ b ++ a ++ 0x22#7 : BitVec 32).extractLsb' 7 6 = a := by
    rw [ext_high _ _ _ _ (by decide), ext_low _ _ _ _ (by decide)]; exact ext_all _
  have h13_6 : (i ++ b ++ a ++ 0x22#7 : BitVec 32).extractLsb' 13 6 = b := by
    rw [ext_high _ _ _ _ (by decide), ext_high _ _ _ _ (by decide), ext_low _ _ _ _ (by decide)]; exact ext_all _
  have h19_13 : (i ++ b ++ a ++ 0x22#7 : BitVec 32).extractLsb' 19 13 = i := by
    rw [ext_high _ _ _ _ (by decide), ext_high _ _ _ _ (by decide), ext_high _ _ _ _ (by decide)]; exact ext_all _
  generalize (i ++ b ++ a ++ 0x22#7 : BitVec 32) = w at *
  unfold decodeGen
  rw [h0_7]
  show some _ = _
  rw [h7_6, h13_6, h19_13]

theorem bge (i : BitVec 13) (b : BitVec 6) (a : BitVec 6) : Statement (.bge i b a) := by
  refine of_gen rfl rfl fun hw => ?_
  show decodeGen (i ++ b ++ a ++ 0x23#7) = _
  have h0_7 : (i ++ b ++ a ++ 0x23#7 : BitVec 32).extractLsb' 0 7 = 0x23#7 := by
    rw [ext_low _ _ _ _ (by decide)]; exact ext_all _
  have h7_6 : (i ++ b ++ a ++ 0x23#7 : BitVec 32).extractLsb' 7 6 = a := by
    rw [ext_high _ _ _ _ (by decide), ext_low _ _ _ _ (by decide)]; exact ext_all _
  have h13_6 : (i ++ b ++ a ++ 0x23#7 : BitVec 32).extractLsb' 13 6 = b := by
    rw [ext_high _ _ _ _ (by decide), ext_high _ _ _ _ (by decide), ext_low _ _ _ _ (by decide)]; exact ext_all _
  have h19_13 : (i ++ b ++ a ++ 0x23#7 : BitVec 32).extractLsb' 19 13 = i := by
    rw [ext_high _ _ _ _ (by decide), ext_high _ _ _ _ (by decide), ext_high _ _ _ _ (by decide)]; exact ext_all _
  generalize (i ++ b ++ a ++ 0x23#7 : BitVec 32) = w at *
  unfold decodeGen
  rw [h0_7]
  show some _ = _
  rw [h7_6, h13_6, h19_13]

theorem bltu (i : BitVec 13) (b : BitVec 6) (a : BitVec 6) : Statement (.bltu i b a) := by
  refine of_gen rfl rfl fun hw => ?_
  show decodeGen (i ++ b ++ a ++ 0x24#7) = _
  have h0_7 : (i ++ b ++ a ++ 0x24#7 : BitVec 32).extractLsb' 0 7 = 0x24#7 := by
    rw [ext_low _ _ _ _ (by decide)]; exact ext_all _
  have h7_6 : (i ++ b ++ a ++ 0x24#7 : BitVec 32).extractLsb' 7 6 = a := by
    rw [ext_high _ _ _ _ (by decide), ext_low _ _ _ _ (by decide)]; exact ext_all _
  have h13_6 : (i ++ b ++ a ++ 0x24#7 : BitVec 32).extractLsb' 13 6 = b := by
    rw [ext_high _ _ _ _ (by decide), ext_high _ _ _ _ (by decide), ext_low _ _ _ _ (by decide)]; exact ext_all _
  have h19_13 : (i ++ b ++ a ++ 0x24#7 : BitVec 32).extractLsb' 19 13 = i := by
    rw [ext_high _ _ _ _ (by decide), ext_high _ _ _ _ (by decide), ext_high _ _ _ _ (by decide)]; exact ext_all _
  generalize (i ++ b ++ a ++ 0x24#7 : BitVec 32) = w at *
  unfold decodeGen
  rw [h0_7]
  show some _ = _
  rw [h7_6, h13_6, h19_13]

theorem bgeu (i : BitVec 13) (b : BitVec 6) (a : BitVec 6) : Statement (.bgeu i b a) := by
  refine of_gen rfl rfl fun hw => ?_
  show decodeGen (i ++ b ++ a ++ 0x25#7) = _
  have h0_7 : (i ++ b ++ a ++ 0x25#7 : BitVec 32).extractLsb' 0 7 = 0x25#7 := by
    rw [ext_low _ _ _ _ (by decide)]; exact ext_all _
  have h7_6 : (i ++ b ++ a ++ 0x25#7 : BitVec 32).extractLsb' 7 6 = a := by
    rw [ext_high _ _ _ _ (by decide), ext_low _ _ _ _ (by decide)]; exact ext_all _
  have h13_6 : (i ++ b ++ a ++ 0x25#7 : BitVec 32).extractLsb' 13 6 = b := by
    rw [ext_high _ _ _ _ (by decide), ext_high _ _ _ _ (by decide), ext_low _ _ _ _ (by decide)]; exact ext_all _
  have h19_13 : (i ++ b ++ a ++ 0x25#7 : BitVec 32).extractLsb' 19 13 = i := by
    rw [ext_high _ _ _ _ (by decide), ext_high _ _ _ _ (by decide), ext_high _ _ _ _ (by decide)]; exact ext_all _
  generalize (i ++ b ++ a ++ 0x25#7 : BitVec 32) = w at *
  unfold decodeGen
  rw [h0_7]
  show some _ = _
  rw [h7_6, h13_6, h19_13]

theorem jal (i : BitVec 19) (d : BitVec 6) : Statement (.jal i d) := by
  refine of_gen rfl rfl fun hw => ?_
  show decodeGen (i ++ d ++ 0x26#7) = _
  have h0_7 : (i ++ d ++ 0x26#7 : BitVec 32).extractLsb' 0 7 = 0x26#7 := by
    rw [ext_low _ _ _ _ (by decide)]; exact ext_all _
  have h7_6 : (i ++ d ++ 0x26#7 : BitVec 32).extractLsb' 7 6 = d := by
    rw [ext_high _ _ _ _ (by decide), ext_low _ _ _ _ (by decide)]; exact ext_all _
  have h13_19 : (i ++ d ++ 0x26#7 : BitVec 32).extractLsb' 13 19 = i := by
    rw [ext_high _ _ _ _ (by decide), ext_high _ _ _ _ (by decide)]; exact ext_all _
  generalize (i ++ d ++ 0x26#7 : BitVec 32) = w at *
  unfold decodeGen
  rw [h0_7]
  show some _ = _
  rw [h7_6, h13_19]

theorem jalr (i : BitVec 13) (a : BitVec 6) (d : BitVec 6) : Statement (.jalr i a d) := by
  refine of_gen rfl rfl fun hw => ?_
  show decodeGen (i ++ a ++ d ++ 0x27#7) = _
  have h0_7 : (i ++ a ++ d ++ 0x27#7 : BitVec 32).extractLsb' 0 7 = 0x27#7 := by
    rw [ext_low _ _ _ _ (by decide)]; exact ext_all _
  have h7_6 : (i ++ a ++ d ++ 0x27#7 : BitVec 32).extractLsb' 7 6 = d := by
    rw [ext_high _ _ _ _ (by decide), ext_low _ _ _ _ (by decide)]; exact ext_all _
  have h13_6 : (i ++ a ++ d ++ 0x27#7 : BitVec 32).extractLsb' 13 6 = a := by
    rw [ext_high _ _ _ _ (by decide), ext_high _ _ _ _ (by decide), ext_low _ _ _ _ (by decide)]; exact ext_all _
  have h19_13 : (i ++ a ++ d ++ 0x27#7 : BitVec 32).extractLsb' 19 13 = i := by
    rw [ext_high _ _ _ _ (by decide), ext_high _ _ _ _ (by decide), ext_high _ _ _ _ (by decide)]; exact ext_all _
  generalize (i ++ a ++ d ++ 0x27#7 : BitVec 32) = w at *
  unfold decodeGen
  rw [h0_7]
  show some _ = _
  rw [h7_6, h13_6, h19_13]

theorem loop (l : BitVec 13) (c : BitVec 6) : Statement (.loop l c) := by
  refine of_gen rfl rfl fun hw => ?_
  show decodeGen (l ++ c ++ 0#6 ++ 0x28#7) = _
  have h0_7 : (l ++ c ++ 0#6 ++ 0x28#7 : BitVec 32).extractLsb' 0 7 = 0x28#7 := by
    rw [ext_low _ _ _ _ (by decide)]; exact ext_all _
  have h7_6 : (l ++ c ++ 0#6 ++ 0x28#7 : BitVec 32).extractLsb' 7 6 = 0#6 := by
    rw [ext_high _ _ _ _ (by decide), ext_low _ _ _ _ (by decide)]; exact ext_all _
  have h13_6 : (l ++ c ++ 0#6 ++ 0x28#7 : BitVec 32).extractLsb' 13 6 = c := by
    rw [ext_high _ _ _ _ (by decide), ext_high _ _ _ _ (by decide), ext_low _ _ _ _ (by decide)]; exact ext_all _
  have h19_13 : (l ++ c ++ 0#6 ++ 0x28#7 : BitVec 32).extractLsb' 19 13 = l := by
    rw [ext_high _ _ _ _ (by decide), ext_high _ _ _ _ (by decide), ext_high _ _ _ _ (by decide)]; exact ext_all _
  generalize (l ++ c ++ 0#6 ++ 0x28#7 : BitVec 32) = w at *
  unfold decodeGen
  rw [h0_7]
  refine (if_pos ⟨h7_6, by rw [h19_13]; intro e; subst e; simp [WellFormed] at hw⟩).trans ?_
  rw [h13_6, h19_13]

theorem loopi (n : BitVec 19) (l : BitVec 6) : Statement (.loopi n l) := by
  refine of_gen rfl rfl fun hw => ?_
  show decodeGen (n ++ l ++ 0x29#7) = _
  have h0_7 : (n ++ l ++ 0x29#7 : BitVec 32).extractLsb' 0 7 = 0x29#7 := by
    rw [ext_low _ _ _ _ (by decide)]; exact ext_all _
  have h7_6 : (n ++ l ++ 0x29#7 : BitVec 32).extractLsb' 7 6 = l := by
    rw [ext_high _ _ _ _ (by decide), ext_low _ _ _ _ (by decide)]; exact ext_all _
  have h13_19 : (n ++ l ++ 0x29#7 : BitVec 32).extractLsb' 13 19 = n := by
    rw [ext_high _ _ _ _ (by decide), ext_high _ _ _ _ (by decide)]; exact ext_all _
  generalize (n ++ l ++ 0x29#7 : BitVec 32) = w at *
  unfold decodeGen
  rw [h0_7]
  show some _ = _
  rw [h7_6, h13_19]

theorem lbrk : Statement .lbrk :=
  of_gen rfl rfl fun _ => by decide

theorem lidx (k : BitVec 3) (d : BitVec 6) : Statement (.lidx k d) := by
  refine of_gen rfl rfl fun hw => ?_
  show decodeGen (0#16 ++ k ++ d ++ 0x2b#7) = _
  have h0_7 : (0#16 ++ k ++ d ++ 0x2b#7 : BitVec 32).extractLsb' 0 7 = 0x2b#7 := by
    rw [ext_low _ _ _ _ (by decide)]; exact ext_all _
  have h7_6 : (0#16 ++ k ++ d ++ 0x2b#7 : BitVec 32).extractLsb' 7 6 = d := by
    rw [ext_high _ _ _ _ (by decide), ext_low _ _ _ _ (by decide)]; exact ext_all _
  have h13_3 : (0#16 ++ k ++ d ++ 0x2b#7 : BitVec 32).extractLsb' 13 3 = k := by
    rw [ext_high _ _ _ _ (by decide), ext_high _ _ _ _ (by decide), ext_low _ _ _ _ (by decide)]; exact ext_all _
  have h16_16 : (0#16 ++ k ++ d ++ 0x2b#7 : BitVec 32).extractLsb' 16 16 = 0#16 := by
    rw [ext_high _ _ _ _ (by decide), ext_high _ _ _ _ (by decide), ext_high _ _ _ _ (by decide)]; exact ext_all _
  generalize (0#16 ++ k ++ d ++ 0x2b#7 : BitVec 32) = w at *
  unfold decodeGen
  rw [h0_7]
  refine (if_pos ⟨h16_16, by rw [h13_3]; exact of_decide_eq_true hw⟩).trans ?_
  rw [h7_6, h13_3]

theorem bset (a : BitVec 6) (s : BitVec 3) : Statement (.bset a s) := by
  refine of_gen rfl rfl fun hw => ?_
  show decodeGen (0#13 ++ a ++ 0#3 ++ s ++ 0x30#7) = _
  have h0_7 : (0#13 ++ a ++ 0#3 ++ s ++ 0x30#7 : BitVec 32).extractLsb' 0 7 = 0x30#7 := by
    rw [ext_low _ _ _ _ (by decide)]; exact ext_all _
  have h7_3 : (0#13 ++ a ++ 0#3 ++ s ++ 0x30#7 : BitVec 32).extractLsb' 7 3 = s := by
    rw [ext_high _ _ _ _ (by decide), ext_low _ _ _ _ (by decide)]; exact ext_all _
  have h10_3 : (0#13 ++ a ++ 0#3 ++ s ++ 0x30#7 : BitVec 32).extractLsb' 10 3 = 0#3 := by
    rw [ext_high _ _ _ _ (by decide), ext_high _ _ _ _ (by decide), ext_low _ _ _ _ (by decide)]; exact ext_all _
  have h13_6 : (0#13 ++ a ++ 0#3 ++ s ++ 0x30#7 : BitVec 32).extractLsb' 13 6 = a := by
    rw [ext_high _ _ _ _ (by decide), ext_high _ _ _ _ (by decide), ext_high _ _ _ _ (by decide), ext_low _ _ _ _ (by decide)]; exact ext_all _
  have h19_13 : (0#13 ++ a ++ 0#3 ++ s ++ 0x30#7 : BitVec 32).extractLsb' 19 13 = 0#13 := by
    rw [ext_high _ _ _ _ (by decide), ext_high _ _ _ _ (by decide), ext_high _ _ _ _ (by decide), ext_high _ _ _ _ (by decide)]; exact ext_all _
  generalize (0#13 ++ a ++ 0#3 ++ s ++ 0x30#7 : BitVec 32) = w at *
  unfold decodeGen
  rw [h0_7]
  refine (if_pos ⟨h10_3, h19_13, by rw [h7_3]; intro e; subst e; simp [WellFormed] at hw⟩).trans ?_
  rw [h7_3, h13_6]

theorem bfld (a : BitVec 6) (w : BitVec 6) (p : BitVec 6) (s : BitVec 3) : Statement (.bfld a w p s) := by
  refine of_gen rfl rfl fun hw => ?_
  show decodeGen (0#4 ++ a ++ w ++ p ++ s ++ 0x31#7) = _
  have h0_7 : (0#4 ++ a ++ w ++ p ++ s ++ 0x31#7 : BitVec 32).extractLsb' 0 7 = 0x31#7 := by
    rw [ext_low _ _ _ _ (by decide)]; exact ext_all _
  have h7_3 : (0#4 ++ a ++ w ++ p ++ s ++ 0x31#7 : BitVec 32).extractLsb' 7 3 = s := by
    rw [ext_high _ _ _ _ (by decide), ext_low _ _ _ _ (by decide)]; exact ext_all _
  have h10_6 : (0#4 ++ a ++ w ++ p ++ s ++ 0x31#7 : BitVec 32).extractLsb' 10 6 = p := by
    rw [ext_high _ _ _ _ (by decide), ext_high _ _ _ _ (by decide), ext_low _ _ _ _ (by decide)]; exact ext_all _
  have h16_6 : (0#4 ++ a ++ w ++ p ++ s ++ 0x31#7 : BitVec 32).extractLsb' 16 6 = w := by
    rw [ext_high _ _ _ _ (by decide), ext_high _ _ _ _ (by decide), ext_high _ _ _ _ (by decide), ext_low _ _ _ _ (by decide)]; exact ext_all _
  have h22_6 : (0#4 ++ a ++ w ++ p ++ s ++ 0x31#7 : BitVec 32).extractLsb' 22 6 = a := by
    rw [ext_high _ _ _ _ (by decide), ext_high _ _ _ _ (by decide), ext_high _ _ _ _ (by decide), ext_high _ _ _ _ (by decide), ext_low _ _ _ _ (by decide)]; exact ext_all _
  have h28_4 : (0#4 ++ a ++ w ++ p ++ s ++ 0x31#7 : BitVec 32).extractLsb' 28 4 = 0#4 := by
    rw [ext_high _ _ _ _ (by decide), ext_high _ _ _ _ (by decide), ext_high _ _ _ _ (by decide), ext_high _ _ _ _ (by decide), ext_high _ _ _ _ (by decide)]; exact ext_all _
  generalize (0#4 ++ a ++ w ++ p ++ s ++ 0x31#7 : BitVec 32) = w at *
  unfold decodeGen
  rw [h0_7]
  refine (if_pos ⟨h28_4, by rw [h7_3]; intro e; subst e; exact absurd hw (by simp [WellFormed]), by rw [h10_6, h16_6]; simp [WellFormed] at hw; omega⟩).trans ?_
  rw [h7_3, h10_6, h16_6, h22_6]

theorem bldt (o : BitVec 13) (a : BitVec 6) (s : BitVec 3) : Statement (.bldt o a s) := by
  refine of_gen rfl rfl fun hw => ?_
  show decodeGen (o ++ a ++ 0#3 ++ s ++ 0x32#7) = _
  have h0_7 : (o ++ a ++ 0#3 ++ s ++ 0x32#7 : BitVec 32).extractLsb' 0 7 = 0x32#7 := by
    rw [ext_low _ _ _ _ (by decide)]; exact ext_all _
  have h7_3 : (o ++ a ++ 0#3 ++ s ++ 0x32#7 : BitVec 32).extractLsb' 7 3 = s := by
    rw [ext_high _ _ _ _ (by decide), ext_low _ _ _ _ (by decide)]; exact ext_all _
  have h10_3 : (o ++ a ++ 0#3 ++ s ++ 0x32#7 : BitVec 32).extractLsb' 10 3 = 0#3 := by
    rw [ext_high _ _ _ _ (by decide), ext_high _ _ _ _ (by decide), ext_low _ _ _ _ (by decide)]; exact ext_all _
  have h13_6 : (o ++ a ++ 0#3 ++ s ++ 0x32#7 : BitVec 32).extractLsb' 13 6 = a := by
    rw [ext_high _ _ _ _ (by decide), ext_high _ _ _ _ (by decide), ext_high _ _ _ _ (by decide), ext_low _ _ _ _ (by decide)]; exact ext_all _
  have h19_13 : (o ++ a ++ 0#3 ++ s ++ 0x32#7 : BitVec 32).extractLsb' 19 13 = o := by
    rw [ext_high _ _ _ _ (by decide), ext_high _ _ _ _ (by decide), ext_high _ _ _ _ (by decide), ext_high _ _ _ _ (by decide)]; exact ext_all _
  generalize (o ++ a ++ 0#3 ++ s ++ 0x32#7 : BitVec 32) = w at *
  unfold decodeGen
  rw [h0_7]
  refine (if_pos ⟨h10_3, by rw [h7_3]; intro e; subst e; simp [WellFormed] at hw⟩).trans ?_
  rw [h7_3, h13_6, h19_13]

theorem bhdr (a : BitVec 6) : Statement (.bhdr a) := by
  refine of_gen rfl rfl fun hw => ?_
  show decodeGen (0#13 ++ a ++ 0#6 ++ 0x33#7) = _
  have h0_7 : (0#13 ++ a ++ 0#6 ++ 0x33#7 : BitVec 32).extractLsb' 0 7 = 0x33#7 := by
    rw [ext_low _ _ _ _ (by decide)]; exact ext_all _
  have h7_6 : (0#13 ++ a ++ 0#6 ++ 0x33#7 : BitVec 32).extractLsb' 7 6 = 0#6 := by
    rw [ext_high _ _ _ _ (by decide), ext_low _ _ _ _ (by decide)]; exact ext_all _
  have h13_6 : (0#13 ++ a ++ 0#6 ++ 0x33#7 : BitVec 32).extractLsb' 13 6 = a := by
    rw [ext_high _ _ _ _ (by decide), ext_high _ _ _ _ (by decide), ext_low _ _ _ _ (by decide)]; exact ext_all _
  have h19_13 : (0#13 ++ a ++ 0#6 ++ 0x33#7 : BitVec 32).extractLsb' 19 13 = 0#13 := by
    rw [ext_high _ _ _ _ (by decide), ext_high _ _ _ _ (by decide), ext_high _ _ _ _ (by decide)]; exact ext_all _
  generalize (0#13 ++ a ++ 0#6 ++ 0x33#7 : BitVec 32) = w at *
  unfold decodeGen
  rw [h0_7]
  refine (if_pos ⟨h7_6, h19_13⟩).trans ?_
  rw [h13_6]

theorem emit (c : BitVec 1) (h : BitVec 1) (s : BitVec 2) (p : BitVec 1) (r : BitVec 8) (m : BitVec 7) : Statement (.emit c h s p r m) := by
  refine of_gen rfl rfl fun hw => ?_
  show decodeGen (0#5 ++ c ++ h ++ s ++ p ++ r ++ m ++ 0x34#7) = _
  have h0_7 : (0#5 ++ c ++ h ++ s ++ p ++ r ++ m ++ 0x34#7 : BitVec 32).extractLsb' 0 7 = 0x34#7 := by
    rw [ext_low _ _ _ _ (by decide)]; exact ext_all _
  have h7_7 : (0#5 ++ c ++ h ++ s ++ p ++ r ++ m ++ 0x34#7 : BitVec 32).extractLsb' 7 7 = m := by
    rw [ext_high _ _ _ _ (by decide), ext_low _ _ _ _ (by decide)]; exact ext_all _
  have h14_8 : (0#5 ++ c ++ h ++ s ++ p ++ r ++ m ++ 0x34#7 : BitVec 32).extractLsb' 14 8 = r := by
    rw [ext_high _ _ _ _ (by decide), ext_high _ _ _ _ (by decide), ext_low _ _ _ _ (by decide)]; exact ext_all _
  have h22_1 : (0#5 ++ c ++ h ++ s ++ p ++ r ++ m ++ 0x34#7 : BitVec 32).extractLsb' 22 1 = p := by
    rw [ext_high _ _ _ _ (by decide), ext_high _ _ _ _ (by decide), ext_high _ _ _ _ (by decide), ext_low _ _ _ _ (by decide)]; exact ext_all _
  have h23_2 : (0#5 ++ c ++ h ++ s ++ p ++ r ++ m ++ 0x34#7 : BitVec 32).extractLsb' 23 2 = s := by
    rw [ext_high _ _ _ _ (by decide), ext_high _ _ _ _ (by decide), ext_high _ _ _ _ (by decide), ext_high _ _ _ _ (by decide), ext_low _ _ _ _ (by decide)]; exact ext_all _
  have h25_1 : (0#5 ++ c ++ h ++ s ++ p ++ r ++ m ++ 0x34#7 : BitVec 32).extractLsb' 25 1 = h := by
    rw [ext_high _ _ _ _ (by decide), ext_high _ _ _ _ (by decide), ext_high _ _ _ _ (by decide), ext_high _ _ _ _ (by decide), ext_high _ _ _ _ (by decide), ext_low _ _ _ _ (by decide)]; exact ext_all _
  have h26_1 : (0#5 ++ c ++ h ++ s ++ p ++ r ++ m ++ 0x34#7 : BitVec 32).extractLsb' 26 1 = c := by
    rw [ext_high _ _ _ _ (by decide), ext_high _ _ _ _ (by decide), ext_high _ _ _ _ (by decide), ext_high _ _ _ _ (by decide), ext_high _ _ _ _ (by decide), ext_high _ _ _ _ (by decide), ext_low _ _ _ _ (by decide)]; exact ext_all _
  have h27_5 : (0#5 ++ c ++ h ++ s ++ p ++ r ++ m ++ 0x34#7 : BitVec 32).extractLsb' 27 5 = 0#5 := by
    rw [ext_high _ _ _ _ (by decide), ext_high _ _ _ _ (by decide), ext_high _ _ _ _ (by decide), ext_high _ _ _ _ (by decide), ext_high _ _ _ _ (by decide), ext_high _ _ _ _ (by decide), ext_high _ _ _ _ (by decide)]; exact ext_all _
  generalize (0#5 ++ c ++ h ++ s ++ p ++ r ++ m ++ 0x34#7 : BitVec 32) = w at *
  unfold decodeGen
  rw [h0_7]
  refine (if_pos h27_5).trans ?_
  rw [h7_7, h14_8, h22_1, h23_2, h25_1, h26_1]

theorem emitm (o : BitVec 13) (a : BitVec 6) : Statement (.emitm o a) := by
  refine of_gen rfl rfl fun hw => ?_
  show decodeGen (o ++ a ++ 0#6 ++ 0x35#7) = _
  have h0_7 : (o ++ a ++ 0#6 ++ 0x35#7 : BitVec 32).extractLsb' 0 7 = 0x35#7 := by
    rw [ext_low _ _ _ _ (by decide)]; exact ext_all _
  have h7_6 : (o ++ a ++ 0#6 ++ 0x35#7 : BitVec 32).extractLsb' 7 6 = 0#6 := by
    rw [ext_high _ _ _ _ (by decide), ext_low _ _ _ _ (by decide)]; exact ext_all _
  have h13_6 : (o ++ a ++ 0#6 ++ 0x35#7 : BitVec 32).extractLsb' 13 6 = a := by
    rw [ext_high _ _ _ _ (by decide), ext_high _ _ _ _ (by decide), ext_low _ _ _ _ (by decide)]; exact ext_all _
  have h19_13 : (o ++ a ++ 0#6 ++ 0x35#7 : BitVec 32).extractLsb' 19 13 = o := by
    rw [ext_high _ _ _ _ (by decide), ext_high _ _ _ _ (by decide), ext_high _ _ _ _ (by decide)]; exact ext_all _
  generalize (o ++ a ++ 0#6 ++ 0x35#7 : BitVec 32) = w at *
  unfold decodeGen
  rw [h0_7]
  refine (if_pos h7_6).trans ?_
  rw [h13_6, h19_13]

theorem nset (a : BitVec 6) (f : BitVec 5) (n : BitVec 4) : Statement (.nset a f n) := by
  refine of_gen rfl rfl fun hw => ?_
  show decodeGen (0#10 ++ a ++ f ++ n ++ 0x38#7) = _
  have h0_7 : (0#10 ++ a ++ f ++ n ++ 0x38#7 : BitVec 32).extractLsb' 0 7 = 0x38#7 := by
    rw [ext_low _ _ _ _ (by decide)]; exact ext_all _
  have h7_4 : (0#10 ++ a ++ f ++ n ++ 0x38#7 : BitVec 32).extractLsb' 7 4 = n := by
    rw [ext_high _ _ _ _ (by decide), ext_low _ _ _ _ (by decide)]; exact ext_all _
  have h11_5 : (0#10 ++ a ++ f ++ n ++ 0x38#7 : BitVec 32).extractLsb' 11 5 = f := by
    rw [ext_high _ _ _ _ (by decide), ext_high _ _ _ _ (by decide), ext_low _ _ _ _ (by decide)]; exact ext_all _
  have h16_6 : (0#10 ++ a ++ f ++ n ++ 0x38#7 : BitVec 32).extractLsb' 16 6 = a := by
    rw [ext_high _ _ _ _ (by decide), ext_high _ _ _ _ (by decide), ext_high _ _ _ _ (by decide), ext_low _ _ _ _ (by decide)]; exact ext_all _
  have h22_10 : (0#10 ++ a ++ f ++ n ++ 0x38#7 : BitVec 32).extractLsb' 22 10 = 0#10 := by
    rw [ext_high _ _ _ _ (by decide), ext_high _ _ _ _ (by decide), ext_high _ _ _ _ (by decide), ext_high _ _ _ _ (by decide)]; exact ext_all _
  generalize (0#10 ++ a ++ f ++ n ++ 0x38#7 : BitVec 32) = w at *
  unfold decodeGen
  rw [h0_7]
  refine (if_pos ⟨h22_10, by rw [h11_5]; exact of_decide_eq_true hw⟩).trans ?_
  rw [h7_4, h11_5, h16_6]

theorem csrr (c : BitVec 12) (d : BitVec 6) : Statement (.csrr c d) := by
  refine of_gen rfl rfl fun hw => ?_
  show decodeGen (0#1 ++ c ++ 0#6 ++ d ++ 0x40#7) = _
  have h0_7 : (0#1 ++ c ++ 0#6 ++ d ++ 0x40#7 : BitVec 32).extractLsb' 0 7 = 0x40#7 := by
    rw [ext_low _ _ _ _ (by decide)]; exact ext_all _
  have h7_6 : (0#1 ++ c ++ 0#6 ++ d ++ 0x40#7 : BitVec 32).extractLsb' 7 6 = d := by
    rw [ext_high _ _ _ _ (by decide), ext_low _ _ _ _ (by decide)]; exact ext_all _
  have h13_6 : (0#1 ++ c ++ 0#6 ++ d ++ 0x40#7 : BitVec 32).extractLsb' 13 6 = 0#6 := by
    rw [ext_high _ _ _ _ (by decide), ext_high _ _ _ _ (by decide), ext_low _ _ _ _ (by decide)]; exact ext_all _
  have h19_12 : (0#1 ++ c ++ 0#6 ++ d ++ 0x40#7 : BitVec 32).extractLsb' 19 12 = c := by
    rw [ext_high _ _ _ _ (by decide), ext_high _ _ _ _ (by decide), ext_high _ _ _ _ (by decide), ext_low _ _ _ _ (by decide)]; exact ext_all _
  have h31_1 : (0#1 ++ c ++ 0#6 ++ d ++ 0x40#7 : BitVec 32).extractLsb' 31 1 = 0#1 := by
    rw [ext_high _ _ _ _ (by decide), ext_high _ _ _ _ (by decide), ext_high _ _ _ _ (by decide), ext_high _ _ _ _ (by decide)]; exact ext_all _
  generalize (0#1 ++ c ++ 0#6 ++ d ++ 0x40#7 : BitVec 32) = w at *
  unfold decodeGen
  rw [h0_7]
  refine (if_pos ⟨h31_1, h13_6⟩).trans ?_
  rw [h7_6, h19_12]

theorem csrw (c : BitVec 12) (a : BitVec 6) (d : BitVec 6) : Statement (.csrw c a d) := by
  refine of_gen rfl rfl fun hw => ?_
  show decodeGen (0#1 ++ c ++ a ++ d ++ 0x41#7) = _
  have h0_7 : (0#1 ++ c ++ a ++ d ++ 0x41#7 : BitVec 32).extractLsb' 0 7 = 0x41#7 := by
    rw [ext_low _ _ _ _ (by decide)]; exact ext_all _
  have h7_6 : (0#1 ++ c ++ a ++ d ++ 0x41#7 : BitVec 32).extractLsb' 7 6 = d := by
    rw [ext_high _ _ _ _ (by decide), ext_low _ _ _ _ (by decide)]; exact ext_all _
  have h13_6 : (0#1 ++ c ++ a ++ d ++ 0x41#7 : BitVec 32).extractLsb' 13 6 = a := by
    rw [ext_high _ _ _ _ (by decide), ext_high _ _ _ _ (by decide), ext_low _ _ _ _ (by decide)]; exact ext_all _
  have h19_12 : (0#1 ++ c ++ a ++ d ++ 0x41#7 : BitVec 32).extractLsb' 19 12 = c := by
    rw [ext_high _ _ _ _ (by decide), ext_high _ _ _ _ (by decide), ext_high _ _ _ _ (by decide), ext_low _ _ _ _ (by decide)]; exact ext_all _
  have h31_1 : (0#1 ++ c ++ a ++ d ++ 0x41#7 : BitVec 32).extractLsb' 31 1 = 0#1 := by
    rw [ext_high _ _ _ _ (by decide), ext_high _ _ _ _ (by decide), ext_high _ _ _ _ (by decide), ext_high _ _ _ _ (by decide)]; exact ext_all _
  generalize (0#1 ++ c ++ a ++ d ++ 0x41#7 : BitVec 32) = w at *
  unfold decodeGen
  rw [h0_7]
  refine (if_pos h31_1).trans ?_
  rw [h7_6, h13_6, h19_12]

theorem phaseg (s : BitVec 2) : Statement (.phaseg s) := by
  refine of_gen rfl rfl fun hw => ?_
  show decodeGen (0#23 ++ s ++ 0x42#7) = _
  have h0_7 : (0#23 ++ s ++ 0x42#7 : BitVec 32).extractLsb' 0 7 = 0x42#7 := by
    rw [ext_low _ _ _ _ (by decide)]; exact ext_all _
  have h7_2 : (0#23 ++ s ++ 0x42#7 : BitVec 32).extractLsb' 7 2 = s := by
    rw [ext_high _ _ _ _ (by decide), ext_low _ _ _ _ (by decide)]; exact ext_all _
  have h9_23 : (0#23 ++ s ++ 0x42#7 : BitVec 32).extractLsb' 9 23 = 0#23 := by
    rw [ext_high _ _ _ _ (by decide), ext_high _ _ _ _ (by decide)]; exact ext_all _
  generalize (0#23 ++ s ++ 0x42#7 : BitVec 32) = w at *
  unfold decodeGen
  rw [h0_7]
  refine (if_pos h9_23).trans ?_
  rw [h7_2]

theorem gchk (a : BitVec 6) : Statement (.gchk a) := by
  refine of_gen rfl rfl fun hw => ?_
  show decodeGen (0#13 ++ a ++ 0#6 ++ 0x43#7) = _
  have h0_7 : (0#13 ++ a ++ 0#6 ++ 0x43#7 : BitVec 32).extractLsb' 0 7 = 0x43#7 := by
    rw [ext_low _ _ _ _ (by decide)]; exact ext_all _
  have h7_6 : (0#13 ++ a ++ 0#6 ++ 0x43#7 : BitVec 32).extractLsb' 7 6 = 0#6 := by
    rw [ext_high _ _ _ _ (by decide), ext_low _ _ _ _ (by decide)]; exact ext_all _
  have h13_6 : (0#13 ++ a ++ 0#6 ++ 0x43#7 : BitVec 32).extractLsb' 13 6 = a := by
    rw [ext_high _ _ _ _ (by decide), ext_high _ _ _ _ (by decide), ext_low _ _ _ _ (by decide)]; exact ext_all _
  have h19_13 : (0#13 ++ a ++ 0#6 ++ 0x43#7 : BitVec 32).extractLsb' 19 13 = 0#13 := by
    rw [ext_high _ _ _ _ (by decide), ext_high _ _ _ _ (by decide), ext_high _ _ _ _ (by decide)]; exact ext_all _
  generalize (0#13 ++ a ++ 0#6 ++ 0x43#7 : BitVec 32) = w at *
  unfold decodeGen
  rw [h0_7]
  refine (if_pos ⟨h7_6, h19_13⟩).trans ?_
  rw [h13_6]

theorem spin : Statement .spin :=
  of_gen rfl rfl fun _ => by decide

theorem yield : Statement .yield :=
  of_gen rfl rfl fun _ => by decide

theorem halt : Statement .halt :=
  of_gen rfl rfl fun _ => by decide

theorem trapc (c : BitVec 13) : Statement (.trapc c) := by
  refine of_gen rfl rfl fun hw => ?_
  show decodeGen (c ++ 0#12 ++ 0x47#7) = _
  have h0_7 : (c ++ 0#12 ++ 0x47#7 : BitVec 32).extractLsb' 0 7 = 0x47#7 := by
    rw [ext_low _ _ _ _ (by decide)]; exact ext_all _
  have h7_6 : (c ++ 0#12 ++ 0x47#7 : BitVec 32).extractLsb' 7 6 = 0#6 := by
    rw [ext_high _ _ _ _ (by decide), ext_low _ _ _ _ (by decide)]; rfl
  have h13_6 : (c ++ 0#12 ++ 0x47#7 : BitVec 32).extractLsb' 13 6 = 0#6 := by
    rw [ext_high _ _ _ _ (by decide), ext_low _ _ _ _ (by decide)]; rfl
  have h19_13 : (c ++ 0#12 ++ 0x47#7 : BitVec 32).extractLsb' 19 13 = c := by
    rw [ext_high _ _ _ _ (by decide), ext_high _ _ _ _ (by decide)]; exact ext_all _
  generalize (c ++ 0#12 ++ 0x47#7 : BitVec 32) = w at *
  unfold decodeGen
  rw [h0_7]
  refine (if_pos ⟨h7_6, h13_6⟩).trans ?_
  rw [h19_13]

theorem xret : Statement .xret :=
  of_gen rfl rfl fun _ => by decide

theorem cpost (a : BitVec 6) (d : BitVec 6) : Statement (.cpost a d) := by
  refine of_gen rfl rfl fun hw => ?_
  show decodeGen (0#13 ++ a ++ d ++ 0x49#7) = _
  have h0_7 : (0#13 ++ a ++ d ++ 0x49#7 : BitVec 32).extractLsb' 0 7 = 0x49#7 := by
    rw [ext_low _ _ _ _ (by decide)]; exact ext_all _
  have h7_6 : (0#13 ++ a ++ d ++ 0x49#7 : BitVec 32).extractLsb' 7 6 = d := by
    rw [ext_high _ _ _ _ (by decide), ext_low _ _ _ _ (by decide)]; exact ext_all _
  have h13_6 : (0#13 ++ a ++ d ++ 0x49#7 : BitVec 32).extractLsb' 13 6 = a := by
    rw [ext_high _ _ _ _ (by decide), ext_high _ _ _ _ (by decide), ext_low _ _ _ _ (by decide)]; exact ext_all _
  have h19_13 : (0#13 ++ a ++ d ++ 0x49#7 : BitVec 32).extractLsb' 19 13 = 0#13 := by
    rw [ext_high _ _ _ _ (by decide), ext_high _ _ _ _ (by decide), ext_high _ _ _ _ (by decide)]; exact ext_all _
  generalize (0#13 ++ a ++ d ++ 0x49#7 : BitVec 32) = w at *
  unfold decodeGen
  rw [h0_7]
  refine (if_pos h19_13).trans ?_
  rw [h7_6, h13_6]

theorem cqry (a : BitVec 6) (d : BitVec 6) : Statement (.cqry a d) := by
  refine of_gen rfl rfl fun hw => ?_
  show decodeGen (0#13 ++ a ++ d ++ 0x4a#7) = _
  have h0_7 : (0#13 ++ a ++ d ++ 0x4a#7 : BitVec 32).extractLsb' 0 7 = 0x4a#7 := by
    rw [ext_low _ _ _ _ (by decide)]; exact ext_all _
  have h7_6 : (0#13 ++ a ++ d ++ 0x4a#7 : BitVec 32).extractLsb' 7 6 = d := by
    rw [ext_high _ _ _ _ (by decide), ext_low _ _ _ _ (by decide)]; exact ext_all _
  have h13_6 : (0#13 ++ a ++ d ++ 0x4a#7 : BitVec 32).extractLsb' 13 6 = a := by
    rw [ext_high _ _ _ _ (by decide), ext_high _ _ _ _ (by decide), ext_low _ _ _ _ (by decide)]; exact ext_all _
  have h19_13 : (0#13 ++ a ++ d ++ 0x4a#7 : BitVec 32).extractLsb' 19 13 = 0#13 := by
    rw [ext_high _ _ _ _ (by decide), ext_high _ _ _ _ (by decide), ext_high _ _ _ _ (by decide)]; exact ext_all _
  generalize (0#13 ++ a ++ d ++ 0x4a#7 : BitVec 32) = w at *
  unfold decodeGen
  rw [h0_7]
  refine (if_pos h19_13).trans ?_
  rw [h7_6, h13_6]

theorem drainq : Statement .drainq :=
  of_gen rfl rfl fun _ => by decide

theorem illegalInstruction (w : BitVec 32) : Statement (.illegalInstruction w) := of_none rfl rfl

theorem nop (slot : Slot) : Statement (.nop slot) := by
  cases slot <;> exact of_slot rfl rfl fun _ => by decide

theorem fmtset (acc : BitVec 1) (b : BitVec 4) (a : BitVec 4) : Statement (.fmtset acc b a) := by
  refine of_slot rfl rfl fun hw => ?_
  show decodeCtl (0#49 ++ acc ++ b ++ a ++ 0x01#6) = _
  have h0_6 : (0#49 ++ acc ++ b ++ a ++ 0x01#6 : BitVec 64).extractLsb' 0 6 = 0x01#6 := by
    rw [ext_low _ _ _ _ (by decide)]; exact ext_all _
  have h6_4 : (0#49 ++ acc ++ b ++ a ++ 0x01#6 : BitVec 64).extractLsb' 6 4 = a := by
    rw [ext_high _ _ _ _ (by decide), ext_low _ _ _ _ (by decide)]; exact ext_all _
  have h10_4 : (0#49 ++ acc ++ b ++ a ++ 0x01#6 : BitVec 64).extractLsb' 10 4 = b := by
    rw [ext_high _ _ _ _ (by decide), ext_high _ _ _ _ (by decide), ext_low _ _ _ _ (by decide)]; exact ext_all _
  have h14_1 : (0#49 ++ acc ++ b ++ a ++ 0x01#6 : BitVec 64).extractLsb' 14 1 = acc := by
    rw [ext_high _ _ _ _ (by decide), ext_high _ _ _ _ (by decide), ext_high _ _ _ _ (by decide), ext_low _ _ _ _ (by decide)]; exact ext_all _
  have h15_49 : (0#49 ++ acc ++ b ++ a ++ 0x01#6 : BitVec 64).extractLsb' 15 49 = 0#49 := by
    rw [ext_high _ _ _ _ (by decide), ext_high _ _ _ _ (by decide), ext_high _ _ _ _ (by decide), ext_high _ _ _ _ (by decide)]; exact ext_all _
  generalize (0#49 ++ acc ++ b ++ a ++ 0x01#6 : BitVec 64) = w at *
  unfold decodeCtl
  simp only [h0_6, h6_4, h10_4, h14_1, h15_49]
  exact checked_ok _ _ hw

theorem qcfgSlack (slack : BitVec 5) (eng : BitVec 3) : Statement (.qcfgSlack slack eng) := by
  refine of_slot rfl rfl fun hw => ?_
  show decodeCtl (0#50 ++ slack ++ eng ++ 0x02#6) = _
  have h0_6 : (0#50 ++ slack ++ eng ++ 0x02#6 : BitVec 64).extractLsb' 0 6 = 0x02#6 := by
    rw [ext_low _ _ _ _ (by decide)]; exact ext_all _
  have h6_3 : (0#50 ++ slack ++ eng ++ 0x02#6 : BitVec 64).extractLsb' 6 3 = eng := by
    rw [ext_high _ _ _ _ (by decide), ext_low _ _ _ _ (by decide)]; exact ext_all _
  have h9_5 : (0#50 ++ slack ++ eng ++ 0x02#6 : BitVec 64).extractLsb' 9 5 = slack := by
    rw [ext_high _ _ _ _ (by decide), ext_high _ _ _ _ (by decide), ext_low _ _ _ _ (by decide)]; exact ext_all _
  have h14_50 : (0#50 ++ slack ++ eng ++ 0x02#6 : BitVec 64).extractLsb' 14 50 = 0#50 := by
    rw [ext_high _ _ _ _ (by decide), ext_high _ _ _ _ (by decide), ext_high _ _ _ _ (by decide)]; exact ext_all _
  generalize (0#50 ++ slack ++ eng ++ 0x02#6 : BitVec 64) = w at *
  unfold decodeCtl
  simp only [h0_6, h6_3, h9_5, h14_50]
  exact (if_neg (by intro e; subst e; simp [WellFormed, ctlCheck, firstBroken] at hw)).trans (checked_ok _ _ hw)

theorem qcfgPort (rv : BitVec 1) (slot : BitVec 2) (bank : BitVec 2) : Statement (.qcfgPort rv slot bank) := by
  refine of_slot rfl rfl fun hw => ?_
  show decodeCtl (0#45 ++ rv ++ slot ++ bank ++ 0#5 ++ 7#3 ++ 0x02#6) = _
  have h0_6 : (0#45 ++ rv ++ slot ++ bank ++ 0#5 ++ 7#3 ++ 0x02#6 : BitVec 64).extractLsb' 0 6 = 0x02#6 := by
    rw [ext_low _ _ _ _ (by decide)]; exact ext_all _
  have h6_3 : (0#45 ++ rv ++ slot ++ bank ++ 0#5 ++ 7#3 ++ 0x02#6 : BitVec 64).extractLsb' 6 3 = 7#3 := by
    rw [ext_high _ _ _ _ (by decide), ext_low _ _ _ _ (by decide)]; exact ext_all _
  have h9_5 : (0#45 ++ rv ++ slot ++ bank ++ 0#5 ++ 7#3 ++ 0x02#6 : BitVec 64).extractLsb' 9 5 = 0#5 := by
    rw [ext_high _ _ _ _ (by decide), ext_high _ _ _ _ (by decide), ext_low _ _ _ _ (by decide)]; exact ext_all _
  have h14_2 : (0#45 ++ rv ++ slot ++ bank ++ 0#5 ++ 7#3 ++ 0x02#6 : BitVec 64).extractLsb' 14 2 = bank := by
    rw [ext_high _ _ _ _ (by decide), ext_high _ _ _ _ (by decide), ext_high _ _ _ _ (by decide), ext_low _ _ _ _ (by decide)]; exact ext_all _
  have h16_2 : (0#45 ++ rv ++ slot ++ bank ++ 0#5 ++ 7#3 ++ 0x02#6 : BitVec 64).extractLsb' 16 2 = slot := by
    rw [ext_high _ _ _ _ (by decide), ext_high _ _ _ _ (by decide), ext_high _ _ _ _ (by decide), ext_high _ _ _ _ (by decide), ext_low _ _ _ _ (by decide)]; exact ext_all _
  have h18_1 : (0#45 ++ rv ++ slot ++ bank ++ 0#5 ++ 7#3 ++ 0x02#6 : BitVec 64).extractLsb' 18 1 = rv := by
    rw [ext_high _ _ _ _ (by decide), ext_high _ _ _ _ (by decide), ext_high _ _ _ _ (by decide), ext_high _ _ _ _ (by decide), ext_high _ _ _ _ (by decide), ext_low _ _ _ _ (by decide)]; exact ext_all _
  have h19_45 : (0#45 ++ rv ++ slot ++ bank ++ 0#5 ++ 7#3 ++ 0x02#6 : BitVec 64).extractLsb' 19 45 = 0#45 := by
    rw [ext_high _ _ _ _ (by decide), ext_high _ _ _ _ (by decide), ext_high _ _ _ _ (by decide), ext_high _ _ _ _ (by decide), ext_high _ _ _ _ (by decide), ext_high _ _ _ _ (by decide)]; exact ext_all _
  generalize (0#45 ++ rv ++ slot ++ bank ++ 0#5 ++ 7#3 ++ 0x02#6 : BitVec 64) = w at *
  unfold decodeCtl
  simp only [h0_6, h6_3, h9_5, h14_2, h16_2, h18_1, h19_45]
  rfl

theorem stepReg (n : BitVec 24) (sel : BitVec 4) (slot : BitVec 3) : Statement (.stepReg n sel slot) := by
  refine of_slot rfl rfl fun hw => ?_
  show decodeCtl (0#24 ++ n ++ 0#3 ++ sel ++ slot ++ 0x03#6) = _
  have h0_6 : (0#24 ++ n ++ 0#3 ++ sel ++ slot ++ 0x03#6 : BitVec 64).extractLsb' 0 6 = 0x03#6 := by
    rw [ext_low _ _ _ _ (by decide)]; exact ext_all _
  have h6_3 : (0#24 ++ n ++ 0#3 ++ sel ++ slot ++ 0x03#6 : BitVec 64).extractLsb' 6 3 = slot := by
    rw [ext_high _ _ _ _ (by decide), ext_low _ _ _ _ (by decide)]; exact ext_all _
  have h9_4 : (0#24 ++ n ++ 0#3 ++ sel ++ slot ++ 0x03#6 : BitVec 64).extractLsb' 9 4 = sel := by
    rw [ext_high _ _ _ _ (by decide), ext_high _ _ _ _ (by decide), ext_low _ _ _ _ (by decide)]; exact ext_all _
  have h13_3 : (0#24 ++ n ++ 0#3 ++ sel ++ slot ++ 0x03#6 : BitVec 64).extractLsb' 13 3 = 0#3 := by
    rw [ext_high _ _ _ _ (by decide), ext_high _ _ _ _ (by decide), ext_high _ _ _ _ (by decide), ext_low _ _ _ _ (by decide)]; exact ext_all _
  have h16_24 : (0#24 ++ n ++ 0#3 ++ sel ++ slot ++ 0x03#6 : BitVec 64).extractLsb' 16 24 = n := by
    rw [ext_high _ _ _ _ (by decide), ext_high _ _ _ _ (by decide), ext_high _ _ _ _ (by decide), ext_high _ _ _ _ (by decide), ext_low _ _ _ _ (by decide)]; exact ext_all _
  have h40_24 : (0#24 ++ n ++ 0#3 ++ sel ++ slot ++ 0x03#6 : BitVec 64).extractLsb' 40 24 = 0#24 := by
    rw [ext_high _ _ _ _ (by decide), ext_high _ _ _ _ (by decide), ext_high _ _ _ _ (by decide), ext_high _ _ _ _ (by decide), ext_high _ _ _ _ (by decide)]; exact ext_all _
  generalize (0#24 ++ n ++ 0#3 ++ sel ++ slot ++ 0x03#6 : BitVec 64) = w at *
  unfold decodeCtl
  simp only [h0_6, h6_3, h9_4, h13_3, h16_24, h40_24]
  exact checked_ok _ _ hw

theorem waitw (bytes : BitVec 15) (ch : BitVec 2) : Statement (.waitw bytes ch) := by
  refine of_slot rfl rfl fun hw => ?_
  show decodeCtl (0#41 ++ bytes ++ ch ++ 0x04#6) = _
  have h0_6 : (0#41 ++ bytes ++ ch ++ 0x04#6 : BitVec 64).extractLsb' 0 6 = 0x04#6 := by
    rw [ext_low _ _ _ _ (by decide)]; exact ext_all _
  have h6_2 : (0#41 ++ bytes ++ ch ++ 0x04#6 : BitVec 64).extractLsb' 6 2 = ch := by
    rw [ext_high _ _ _ _ (by decide), ext_low _ _ _ _ (by decide)]; exact ext_all _
  have h8_15 : (0#41 ++ bytes ++ ch ++ 0x04#6 : BitVec 64).extractLsb' 8 15 = bytes := by
    rw [ext_high _ _ _ _ (by decide), ext_high _ _ _ _ (by decide), ext_low _ _ _ _ (by decide)]; exact ext_all _
  have h23_41 : (0#41 ++ bytes ++ ch ++ 0x04#6 : BitVec 64).extractLsb' 23 41 = 0#41 := by
    rw [ext_high _ _ _ _ (by decide), ext_high _ _ _ _ (by decide), ext_high _ _ _ _ (by decide)]; exact ext_all _
  generalize (0#41 ++ bytes ++ ch ++ 0x04#6 : BitVec 64) = w at *
  unfold decodeCtl
  simp only [h0_6, h6_2, h8_15, h23_41]
  rfl

theorem sadv (beats : BitVec 10) (sb : BitVec 1) : Statement (.sadv beats sb) := by
  refine of_slot rfl rfl fun hw => ?_
  show decodeCtl (0#47 ++ beats ++ sb ++ 0x05#6) = _
  have h0_6 : (0#47 ++ beats ++ sb ++ 0x05#6 : BitVec 64).extractLsb' 0 6 = 0x05#6 := by
    rw [ext_low _ _ _ _ (by decide)]; exact ext_all _
  have h6_1 : (0#47 ++ beats ++ sb ++ 0x05#6 : BitVec 64).extractLsb' 6 1 = sb := by
    rw [ext_high _ _ _ _ (by decide), ext_low _ _ _ _ (by decide)]; exact ext_all _
  have h7_10 : (0#47 ++ beats ++ sb ++ 0x05#6 : BitVec 64).extractLsb' 7 10 = beats := by
    rw [ext_high _ _ _ _ (by decide), ext_high _ _ _ _ (by decide), ext_low _ _ _ _ (by decide)]; exact ext_all _
  have h17_47 : (0#47 ++ beats ++ sb ++ 0x05#6 : BitVec 64).extractLsb' 17 47 = 0#47 := by
    rw [ext_high _ _ _ _ (by decide), ext_high _ _ _ _ (by decide), ext_high _ _ _ _ (by decide)]; exact ext_all _
  generalize (0#47 ++ beats ++ sb ++ 0x05#6 : BitVec 64) = w at *
  unfold decodeCtl
  simp only [h0_6, h6_1, h7_10, h17_47]
  exact checked_ok _ _ hw

theorem mwait (c : BitVec 5) : Statement (.mwait c) := by
  refine of_slot rfl rfl fun hw => ?_
  show decodeCtl (0#53 ++ c ++ 0x06#6) = _
  have h0_6 : (0#53 ++ c ++ 0x06#6 : BitVec 64).extractLsb' 0 6 = 0x06#6 := by
    rw [ext_low _ _ _ _ (by decide)]; exact ext_all _
  have h6_5 : (0#53 ++ c ++ 0x06#6 : BitVec 64).extractLsb' 6 5 = c := by
    rw [ext_high _ _ _ _ (by decide), ext_low _ _ _ _ (by decide)]; exact ext_all _
  have h11_53 : (0#53 ++ c ++ 0x06#6 : BitVec 64).extractLsb' 11 53 = 0#53 := by
    rw [ext_high _ _ _ _ (by decide), ext_high _ _ _ _ (by decide)]; exact ext_all _
  generalize (0#53 ++ c ++ 0x06#6 : BitVec 64) = w at *
  unfold decodeCtl
  simp only [h0_6, h6_5, h11_53]
  rfl

theorem ckpt : Statement .ckpt :=
  of_slot rfl rfl fun _ => by decide

theorem prog : Statement .prog :=
  of_slot rfl rfl fun _ => by decide

theorem sync : Statement .sync :=
  of_slot rfl rfl fun _ => by decide

theorem vld (w : MemBuf) : Statement (.vld w) := by
  refine of_slot rfl rfl fun hw => ?_
  show decodeMem (MemBuf.toWord 0x01#6 w) = _
  simp only [decodeMem, MemBuf_op, MemBuf_ofWord, MemBuf_high]
  exact checked_ok _ _ hw

theorem vst (w : MemBuf) : Statement (.vst w) := by
  refine of_slot rfl rfl fun hw => ?_
  show decodeMem (MemBuf.toWord 0x02#6 w) = _
  simp only [decodeMem, MemBuf_op, MemBuf_ofWord, MemBuf_high]
  exact checked_ok _ _ hw

theorem vldg (w : MemGlob) : Statement (.vldg w) := by
  refine of_slot rfl rfl fun hw => ?_
  show decodeMem (MemGlob.toWord 0x03#6 w) = _
  simp only [decodeMem, MemGlob_op, MemGlob_ofWord, MemGlob_high]
  exact checked_ok _ _ hw

theorem vldgs (w : MemGlob) : Statement (.vldgs w) := by
  refine of_slot rfl rfl fun hw => ?_
  show decodeMem (MemGlob.toWord 0x04#6 w) = _
  simp only [decodeMem, MemGlob_op, MemGlob_ofWord, MemGlob_high]
  exact checked_ok _ _ hw

theorem vstg (w : MemGlob) : Statement (.vstg w) := by
  refine of_slot rfl rfl fun hw => ?_
  show decodeMem (MemGlob.toWord 0x05#6 w) = _
  simp only [decodeMem, MemGlob_op, MemGlob_ofWord, MemGlob_high]
  exact checked_ok _ _ hw

theorem vgth (w : MemGath) : Statement (.vgth w) := by
  refine of_slot rfl rfl fun hw => ?_
  show decodeMem (MemGath.toWord 0x06#6 w) = _
  simp only [decodeMem, MemGath_op, MemGath_ofWord, MemGath_high]
  exact checked_ok _ _ hw

theorem vgths (w : MemGath) : Statement (.vgths w) := by
  refine of_slot rfl rfl fun hw => ?_
  show decodeMem (MemGath.toWord 0x07#6 w) = _
  simp only [decodeMem, MemGath_op, MemGath_ofWord, MemGath_high]
  exact checked_ok _ _ hw

theorem vsct (w : MemGath) : Statement (.vsct w) := by
  refine of_slot rfl rfl fun hw => ?_
  show decodeMem (MemGath.toWord 0x08#6 w) = _
  simp only [decodeMem, MemGath_op, MemGath_ofWord, MemGath_high]
  exact checked_ok _ _ hw

theorem phase : Statement .phase :=
  of_slot rfl rfl fun _ => by decide

theorem pftch (w : MemGlob) : Statement (.pftch w) := by
  refine of_slot rfl rfl fun hw => ?_
  show decodeMem (MemGlob.toWord 0x0a#6 w) = _
  simp only [decodeMem, MemGlob_op, MemGlob_ofWord, MemGlob_high]
  exact checked_ok _ _ hw

theorem fill (w : CpyWord) : Statement (.fill w) :=
  of_slot rfl rfl fun hw => decodeSlot_cpy w 0x01#6 _ (by decide) rfl hw

theorem fills (w : CpyWord) : Statement (.fills w) :=
  of_slot rfl rfl fun hw => decodeSlot_cpy w 0x02#6 _ (by decide) rfl hw

theorem feed (w : CpyWord) : Statement (.feed w) :=
  of_slot rfl rfl fun hw => decodeSlot_cpy w 0x03#6 _ (by decide) rfl hw

theorem feedt (w : CpyWord) : Statement (.feedt w) :=
  of_slot rfl rfl fun hw => decodeSlot_cpy w 0x04#6 _ (by decide) rfl hw

theorem drain (w : CpyWord) : Statement (.drain w) :=
  of_slot rfl rfl fun hw => decodeSlot_cpy w 0x05#6 _ (by decide) rfl hw

theorem addw (w : CpyWord) : Statement (.addw w) :=
  of_slot rfl rfl fun hw => decodeSlot_cpy w 0x06#6 _ (by decide) rfl hw

theorem rput (w : CpyWord) : Statement (.rput w) :=
  of_slot rfl rfl fun hw => decodeSlot_cpy w 0x07#6 _ (by decide) rfl hw

theorem cresm (w : CpyWord) : Statement (.cresm w) :=
  of_slot rfl rfl fun hw => decodeSlot_cpy w 0x08#6 _ (by decide) rfl hw

theorem cclr (w : CpyWord) : Statement (.cclr w) :=
  of_slot rfl rfl fun hw => decodeSlot_cpy w 0x09#6 _ (by decide) rfl hw

theorem aadd (w : SynWord) : Statement (.aadd w) :=
  of_slot rfl rfl fun hw => decodeSlot_syn w 0x01#6 _ (by decide) rfl hw

theorem amin (w : SynWord) : Statement (.amin w) :=
  of_slot rfl rfl fun hw => decodeSlot_syn w 0x02#6 _ (by decide) rfl hw

theorem amax (w : SynWord) : Statement (.amax w) :=
  of_slot rfl rfl fun hw => decodeSlot_syn w 0x03#6 _ (by decide) rfl hw

theorem aand (w : SynWord) : Statement (.aand w) :=
  of_slot rfl rfl fun hw => decodeSlot_syn w 0x04#6 _ (by decide) rfl hw

theorem aor (w : SynWord) : Statement (.aor w) :=
  of_slot rfl rfl fun hw => decodeSlot_syn w 0x05#6 _ (by decide) rfl hw

theorem axor (w : SynWord) : Statement (.axor w) :=
  of_slot rfl rfl fun hw => decodeSlot_syn w 0x06#6 _ (by decide) rfl hw

theorem aswp (w : SynWord) : Statement (.aswp w) :=
  of_slot rfl rfl fun hw => decodeSlot_syn w 0x07#6 _ (by decide) rfl hw

theorem acas (w : SynWord) : Statement (.acas w) :=
  of_slot rfl rfl fun hw => decodeSlot_syn w 0x08#6 _ (by decide) rfl hw

theorem red (w : SynWord) : Statement (.red w) :=
  of_slot rfl rfl fun hw => decodeSlot_syn w 0x09#6 _ (by decide) rfl hw

theorem arv (w : SynWord) : Statement (.arv w) :=
  of_slot rfl rfl fun hw => decodeSlot_syn w 0x0a#6 _ (by decide) rfl hw

theorem arvd (w : SynWord) : Statement (.arvd w) :=
  of_slot rfl rfl fun hw => decodeSlot_syn w 0x0b#6 _ (by decide) rfl hw

theorem bwait (w : SynWord) : Statement (.bwait w) :=
  of_slot rfl rfl fun hw => decodeSlot_syn w 0x0c#6 _ (by decide) rfl hw

theorem btest (w : SynWord) : Statement (.btest w) :=
  of_slot rfl rfl fun hw => decodeSlot_syn w 0x0d#6 _ (by decide) rfl hw

theorem sig (w : SynWord) : Statement (.sig w) :=
  of_slot rfl rfl fun hw => decodeSlot_syn w 0x0e#6 _ (by decide) rfl hw

theorem swait (w : SynWord) : Statement (.swait w) :=
  of_slot rfl rfl fun hw => decodeSlot_syn w 0x0f#6 _ (by decide) rfl hw

theorem uli (w : SynWord) : Statement (.uli w) :=
  of_slot rfl rfl fun hw => decodeSlot_syn w 0x10#6 _ (by decide) rfl hw

theorem sfence (w : SynWord) : Statement (.sfence w) :=
  of_slot rfl rfl fun hw => decodeSlot_syn w 0x11#6 _ (by decide) rfl hw

theorem brst (w : SynWord) : Statement (.brst w) :=
  of_slot rfl rfl fun hw => decodeSlot_syn w 0x12#6 _ (by decide) rfl hw

theorem mma (w : MtxWord) : Statement (.mma w) :=
  of_slot rfl rfl fun hw => decodeSlot_mtx w 0x01#6 _ (by decide) rfl hw

theorem mld (w : MtxWord) : Statement (.mld w) :=
  of_slot rfl rfl fun hw => decodeSlot_mtx w 0x02#6 _ (by decide) rfl hw

theorem mldt (w : MtxWord) : Statement (.mldt w) :=
  of_slot rfl rfl fun hw => decodeSlot_mtx w 0x03#6 _ (by decide) rfl hw

theorem mst (w : MtxWord) : Statement (.mst w) :=
  of_slot rfl rfl fun hw => decodeSlot_mtx w 0x04#6 _ (by decide) rfl hw

theorem mstq (w : MtxWord) : Statement (.mstq w) :=
  of_slot rfl rfl fun hw => decodeSlot_mtx w 0x05#6 _ (by decide) rfl hw

theorem mclr (w : MtxWord) : Statement (.mclr w) :=
  of_slot rfl rfl fun hw => decodeSlot_mtx w 0x06#6 _ (by decide) rfl hw

theorem macc (w : MtxWord) : Statement (.macc w) :=
  of_slot rfl rfl fun hw => decodeSlot_mtx w 0x07#6 _ (by decide) rfl hw

theorem vadd (p : Pipe) (w : VWord) : Statement (.vadd p w) := by
  cases p
  · exact of_slot rfl rfl fun hw => decodeSlot_x w 0x01#8 _ (by decide) rfl hw
  · exact of_slot rfl rfl fun hw => decodeSlot_y w 0x01#8 _ (by decide) rfl hw

theorem vsub (p : Pipe) (w : VWord) : Statement (.vsub p w) := by
  cases p
  · exact of_slot rfl rfl fun hw => decodeSlot_x w 0x02#8 _ (by decide) rfl hw
  · exact of_slot rfl rfl fun hw => decodeSlot_y w 0x02#8 _ (by decide) rfl hw

theorem vmul (p : Pipe) (w : VWord) : Statement (.vmul p w) := by
  cases p
  · exact of_slot rfl rfl fun hw => decodeSlot_x w 0x03#8 _ (by decide) rfl hw
  · exact of_slot rfl rfl fun hw => decodeSlot_y w 0x03#8 _ (by decide) rfl hw

theorem vfma (p : Pipe) (w : VWord) : Statement (.vfma p w) := by
  cases p
  · exact of_slot rfl rfl fun hw => decodeSlot_x w 0x04#8 _ (by decide) rfl hw
  · exact of_slot rfl rfl fun hw => decodeSlot_y w 0x04#8 _ (by decide) rfl hw

theorem vfms (p : Pipe) (w : VWord) : Statement (.vfms p w) := by
  cases p
  · exact of_slot rfl rfl fun hw => decodeSlot_x w 0x05#8 _ (by decide) rfl hw
  · exact of_slot rfl rfl fun hw => decodeSlot_y w 0x05#8 _ (by decide) rfl hw

theorem vmin (p : Pipe) (w : VWord) : Statement (.vmin p w) := by
  cases p
  · exact of_slot rfl rfl fun hw => decodeSlot_x w 0x06#8 _ (by decide) rfl hw
  · exact of_slot rfl rfl fun hw => decodeSlot_y w 0x06#8 _ (by decide) rfl hw

theorem vmax (p : Pipe) (w : VWord) : Statement (.vmax p w) := by
  cases p
  · exact of_slot rfl rfl fun hw => decodeSlot_x w 0x07#8 _ (by decide) rfl hw
  · exact of_slot rfl rfl fun hw => decodeSlot_y w 0x07#8 _ (by decide) rfl hw

theorem vabs (p : Pipe) (w : VWord) : Statement (.vabs p w) := by
  cases p
  · exact of_slot rfl rfl fun hw => decodeSlot_x w 0x08#8 _ (by decide) rfl hw
  · exact of_slot rfl rfl fun hw => decodeSlot_y w 0x08#8 _ (by decide) rfl hw

theorem vneg (p : Pipe) (w : VWord) : Statement (.vneg p w) := by
  cases p
  · exact of_slot rfl rfl fun hw => decodeSlot_x w 0x09#8 _ (by decide) rfl hw
  · exact of_slot rfl rfl fun hw => decodeSlot_y w 0x09#8 _ (by decide) rfl hw

theorem vrcp (p : Pipe) (w : VWord) : Statement (.vrcp p w) := by
  cases p
  · exact of_slot rfl rfl fun hw => decodeSlot_x w 0x0a#8 _ (by decide) rfl hw
  · exact of_slot rfl rfl fun hw => decodeSlot_y w 0x0a#8 _ (by decide) rfl hw

theorem vrsq (p : Pipe) (w : VWord) : Statement (.vrsq p w) := by
  cases p
  · exact of_slot rfl rfl fun hw => decodeSlot_x w 0x0b#8 _ (by decide) rfl hw
  · exact of_slot rfl rfl fun hw => decodeSlot_y w 0x0b#8 _ (by decide) rfl hw

theorem vexp2 (p : Pipe) (w : VWord) : Statement (.vexp2 p w) := by
  cases p
  · exact of_slot rfl rfl fun hw => decodeSlot_x w 0x0c#8 _ (by decide) rfl hw
  · exact of_slot rfl rfl fun hw => decodeSlot_y w 0x0c#8 _ (by decide) rfl hw

theorem vdiv (p : Pipe) (w : VWord) : Statement (.vdiv p w) := by
  cases p
  · exact of_slot rfl rfl fun hw => decodeSlot_x w 0x0d#8 _ (by decide) rfl hw
  · exact of_slot rfl rfl fun hw => decodeSlot_y w 0x0d#8 _ (by decide) rfl hw

theorem vand (p : Pipe) (w : VWord) : Statement (.vand p w) := by
  cases p
  · exact of_slot rfl rfl fun hw => decodeSlot_x w 0x10#8 _ (by decide) rfl hw
  · exact of_slot rfl rfl fun hw => decodeSlot_y w 0x10#8 _ (by decide) rfl hw

theorem vor (p : Pipe) (w : VWord) : Statement (.vor p w) := by
  cases p
  · exact of_slot rfl rfl fun hw => decodeSlot_x w 0x11#8 _ (by decide) rfl hw
  · exact of_slot rfl rfl fun hw => decodeSlot_y w 0x11#8 _ (by decide) rfl hw

theorem vxor (p : Pipe) (w : VWord) : Statement (.vxor p w) := by
  cases p
  · exact of_slot rfl rfl fun hw => decodeSlot_x w 0x12#8 _ (by decide) rfl hw
  · exact of_slot rfl rfl fun hw => decodeSlot_y w 0x12#8 _ (by decide) rfl hw

theorem vnot (p : Pipe) (w : VWord) : Statement (.vnot p w) := by
  cases p
  · exact of_slot rfl rfl fun hw => decodeSlot_x w 0x13#8 _ (by decide) rfl hw
  · exact of_slot rfl rfl fun hw => decodeSlot_y w 0x13#8 _ (by decide) rfl hw

theorem vshl (p : Pipe) (w : VWord) : Statement (.vshl p w) := by
  cases p
  · exact of_slot rfl rfl fun hw => decodeSlot_x w 0x14#8 _ (by decide) rfl hw
  · exact of_slot rfl rfl fun hw => decodeSlot_y w 0x14#8 _ (by decide) rfl hw

theorem vshr (p : Pipe) (w : VWord) : Statement (.vshr p w) := by
  cases p
  · exact of_slot rfl rfl fun hw => decodeSlot_x w 0x15#8 _ (by decide) rfl hw
  · exact of_slot rfl rfl fun hw => decodeSlot_y w 0x15#8 _ (by decide) rfl hw

theorem vsra (p : Pipe) (w : VWord) : Statement (.vsra p w) := by
  cases p
  · exact of_slot rfl rfl fun hw => decodeSlot_x w 0x16#8 _ (by decide) rfl hw
  · exact of_slot rfl rfl fun hw => decodeSlot_y w 0x16#8 _ (by decide) rfl hw

theorem vshli (p : Pipe) (w : VWord) : Statement (.vshli p w) := by
  cases p
  · exact of_slot rfl rfl fun hw => decodeSlot_x w 0x17#8 _ (by decide) rfl hw
  · exact of_slot rfl rfl fun hw => decodeSlot_y w 0x17#8 _ (by decide) rfl hw

theorem vshri (p : Pipe) (w : VWord) : Statement (.vshri p w) := by
  cases p
  · exact of_slot rfl rfl fun hw => decodeSlot_x w 0x18#8 _ (by decide) rfl hw
  · exact of_slot rfl rfl fun hw => decodeSlot_y w 0x18#8 _ (by decide) rfl hw

theorem vmulh (p : Pipe) (w : VWord) : Statement (.vmulh p w) := by
  cases p
  · exact of_slot rfl rfl fun hw => decodeSlot_x w 0x19#8 _ (by decide) rfl hw
  · exact of_slot rfl rfl fun hw => decodeSlot_y w 0x19#8 _ (by decide) rfl hw

theorem vclz (p : Pipe) (w : VWord) : Statement (.vclz p w) := by
  cases p
  · exact of_slot rfl rfl fun hw => decodeSlot_x w 0x1a#8 _ (by decide) rfl hw
  · exact of_slot rfl rfl fun hw => decodeSlot_y w 0x1a#8 _ (by decide) rfl hw

theorem vwadd (p : Pipe) (w : VWord) : Statement (.vwadd p w) := by
  cases p
  · exact of_slot rfl rfl fun hw => decodeSlot_x w 0x1c#8 _ (by decide) rfl hw
  · exact of_slot rfl rfl fun hw => decodeSlot_y w 0x1c#8 _ (by decide) rfl hw

theorem vwacc (p : Pipe) (w : VWord) : Statement (.vwacc p w) := by
  cases p
  · exact of_slot rfl rfl fun hw => decodeSlot_x w 0x1d#8 _ (by decide) rfl hw
  · exact of_slot rfl rfl fun hw => decodeSlot_y w 0x1d#8 _ (by decide) rfl hw

theorem vwmul (p : Pipe) (w : VWord) : Statement (.vwmul p w) := by
  cases p
  · exact of_slot rfl rfl fun hw => decodeSlot_x w 0x1e#8 _ (by decide) rfl hw
  · exact of_slot rfl rfl fun hw => decodeSlot_y w 0x1e#8 _ (by decide) rfl hw

theorem vcmp (p : Pipe) (w : VWord) : Statement (.vcmp p w) := by
  cases p
  · exact of_slot rfl rfl fun hw => decodeSlot_x w 0x20#8 _ (by decide) rfl hw
  · exact of_slot rfl rfl fun hw => decodeSlot_y w 0x20#8 _ (by decide) rfl hw

theorem vsel (p : Pipe) (w : VWord) : Statement (.vsel p w) := by
  cases p
  · exact of_slot rfl rfl fun hw => decodeSlot_x w 0x21#8 _ (by decide) rfl hw
  · exact of_slot rfl rfl fun hw => decodeSlot_y w 0x21#8 _ (by decide) rfl hw

theorem qop (p : Pipe) (w : VWord) : Statement (.qop p w) := by
  cases p
  · exact of_slot rfl rfl fun hw => decodeSlot_x w 0x22#8 _ (by decide) rfl hw
  · exact of_slot rfl rfl fun hw => decodeSlot_y w 0x22#8 _ (by decide) rfl hw

theorem vcvt (p : Pipe) (w : VWord) : Statement (.vcvt p w) := by
  cases p
  · exact of_slot rfl rfl fun hw => decodeSlot_x w 0x28#8 _ (by decide) rfl hw
  · exact of_slot rfl rfl fun hw => decodeSlot_y w 0x28#8 _ (by decide) rfl hw

theorem vqnt (p : Pipe) (w : VWord) : Statement (.vqnt p w) := by
  cases p
  · exact of_slot rfl rfl fun hw => decodeSlot_x w 0x29#8 _ (by decide) rfl hw
  · exact of_slot rfl rfl fun hw => decodeSlot_y w 0x29#8 _ (by decide) rfl hw

theorem vdqnt (p : Pipe) (w : VWord) : Statement (.vdqnt p w) := by
  cases p
  · exact of_slot rfl rfl fun hw => decodeSlot_x w 0x2a#8 _ (by decide) rfl hw
  · exact of_slot rfl rfl fun hw => decodeSlot_y w 0x2a#8 _ (by decide) rfl hw

theorem vscan (p : Pipe) (w : VWord) : Statement (.vscan p w) := by
  cases p
  · exact of_slot rfl rfl fun hw => decodeSlot_x w 0x30#8 _ (by decide) rfl hw
  · exact of_slot rfl rfl fun hw => decodeSlot_y w 0x30#8 _ (by decide) rfl hw

theorem vred (p : Pipe) (w : VWord) : Statement (.vred p w) := by
  cases p
  · exact of_slot rfl rfl fun hw => decodeSlot_x w 0x31#8 _ (by decide) rfl hw
  · exact of_slot rfl rfl fun hw => decodeSlot_y w 0x31#8 _ (by decide) rfl hw

theorem vperm (p : Pipe) (w : VWord) : Statement (.vperm p w) := by
  cases p
  · exact of_slot rfl rfl fun hw => decodeSlot_x w 0x32#8 _ (by decide) rfl hw
  · exact of_slot rfl rfl fun hw => decodeSlot_y w 0x32#8 _ (by decide) rfl hw

theorem vbcst (p : Pipe) (w : VWord) : Statement (.vbcst p w) := by
  cases p
  · exact of_slot rfl rfl fun hw => decodeSlot_x w 0x33#8 _ (by decide) rfl hw
  · exact of_slot rfl rfl fun hw => decodeSlot_y w 0x33#8 _ (by decide) rfl hw

theorem vshfl (p : Pipe) (w : VWord) : Statement (.vshfl p w) := by
  cases p
  · exact of_slot rfl rfl fun hw => decodeSlot_x w 0x34#8 _ (by decide) rfl hw
  · exact of_slot rfl rfl fun hw => decodeSlot_y w 0x34#8 _ (by decide) rfl hw

theorem viota (p : Pipe) (w : VWord) : Statement (.viota p w) := by
  cases p
  · exact of_slot rfl rfl fun hw => decodeSlot_x w 0x35#8 _ (by decide) rfl hw
  · exact of_slot rfl rfl fun hw => decodeSlot_y w 0x35#8 _ (by decide) rfl hw

theorem vmov (p : Pipe) (w : VWord) : Statement (.vmov p w) := by
  cases p
  · exact of_slot rfl rfl fun hw => decodeSlot_x w 0x36#8 _ (by decide) rfl hw
  · exact of_slot rfl rfl fun hw => decodeSlot_y w 0x36#8 _ (by decide) rfl hw

theorem vmovi (p : Pipe) (w : VWord) : Statement (.vmovi p w) := by
  cases p
  · exact of_slot rfl rfl fun hw => decodeSlot_x w 0x37#8 _ (by decide) rfl hw
  · exact of_slot rfl rfl fun hw => decodeSlot_y w 0x37#8 _ (by decide) rfl hw

theorem vldi (p : Pipe) (w : VWord) : Statement (.vldi p w) := by
  cases p
  · exact of_slot rfl rfl fun hw => decodeSlot_x w 0x38#8 _ (by decide) rfl hw
  · exact of_slot rfl rfl fun hw => decodeSlot_y w 0x38#8 _ (by decide) rfl hw

theorem vchk (p : Pipe) (w : VWord) : Statement (.vchk p w) := by
  cases p
  · exact of_slot rfl rfl fun hw => decodeSlot_x w 0x3c#8 _ (by decide) rfl hw
  · exact of_slot rfl rfl fun hw => decodeSlot_y w 0x3c#8 _ (by decide) rfl hw

theorem vclrp (p : Pipe) (w : VWord) : Statement (.vclrp p w) := by
  cases p
  · exact of_slot rfl rfl fun hw => decodeSlot_x w 0x3d#8 _ (by decide) rfl hw
  · exact of_slot rfl rfl fun hw => decodeSlot_y w 0x3d#8 _ (by decide) rfl hw

theorem vstat (p : Pipe) (w : VWord) : Statement (.vstat p w) := by
  cases p
  · exact of_slot rfl rfl fun hw => decodeSlot_x w 0x3e#8 _ (by decide) rfl hw
  · exact of_slot rfl rfl fun hw => decodeSlot_y w 0x3e#8 _ (by decide) rfl hw

theorem spinLimitReached (ctx : Nat) : Statement (.spinLimitReached ctx) := of_none rfl rfl

theorem reslate (ctx : Nat) : Statement (.reslate ctx) := of_none rfl rfl

theorem coldcand (ctx : Nat) : Statement (.coldcand ctx) := of_none rfl rfl

theorem sliceEnd (ctx : Nat) : Statement (.sliceEnd ctx) := of_none rfl rfl

theorem slotTableUpdate (core : Nat) : Statement (.slotTableUpdate core) := of_none rfl rfl

theorem checkpointLatest (ctx : Nat) : Statement (.checkpointLatest ctx) := of_none rfl rfl

theorem watchdogFire (ctx : Nat) : Statement (.watchdogFire ctx) := of_none rfl rfl

theorem intervalCheckpoint (ctx : Nat) : Statement (.intervalCheckpoint ctx) := of_none rfl rfl

theorem fatalTrap (ctx : Nat) : Statement (.fatalTrap ctx) := of_none rfl rfl

theorem contextDead (ctx : Nat) : Statement (.contextDead ctx) := of_none rfl rfl

theorem rimeDump (ctx : Nat) : Statement (.rimeDump ctx) := of_none rfl rfl

theorem contextDrain (ctx : Nat) : Statement (.contextDrain ctx) := of_none rfl rfl

theorem rollback (ctx : Nat) : Statement (.rollback ctx) := of_none rfl rfl

theorem contextRestore (ctx : Nat) : Statement (.contextRestore ctx) := of_none rfl rfl

theorem coreCycle (core : Nat) (env : CycleEnv) : Statement (.coreCycle core env) := of_none rfl rfl

theorem bundleCommit (ctx : Nat) : Statement (.bundleCommit ctx) := of_none rfl rfl

theorem vectorResultDue (ctx : Nat) : Statement (.vectorResultDue ctx) := of_none rfl rfl

theorem fmtTakesEffect (ctx : Nat) : Statement (.fmtTakesEffect ctx) := of_none rfl rfl

theorem landingDataArrives (ctx : Nat) (entry : Nat) : Statement (.landingDataArrives ctx entry) := of_none rfl rfl

theorem timedLanding (ctx : Nat) : Statement (.timedLanding ctx) := of_none rfl rfl

theorem loadPerform (ctx : Nat) (which : LoadRef) : Statement (.loadPerform ctx which) := of_none rfl rfl

theorem transitWriteApply (ctx : Nat) (k : Nat) : Statement (.transitWriteApply ctx k) := of_none rfl rfl

theorem snapshotLineDrop (ctx : Nat) (line : Nat) : Statement (.snapshotLineDrop ctx line) := of_none rfl rfl

theorem phaseSend (ctx : Nat) (k : Nat) : Statement (.phaseSend ctx k) := of_none rfl rfl

theorem phaseComplete (ctx : Nat) (k : Nat) : Statement (.phaseComplete ctx k) := of_none rfl rfl

theorem haltComplete (ctx : Nat) : Statement (.haltComplete ctx) := of_none rfl rfl

theorem drainqComplete (ctx : Nat) : Statement (.drainqComplete ctx) := of_none rfl rfl

theorem spinTimeout (ctx : Nat) : Statement (.spinTimeout ctx) := of_none rfl rfl

theorem bundleTrap (ctx : Nat) : Statement (.bundleTrap ctx) := of_none rfl rfl

theorem uliDelivery (ctx : Nat) : Statement (.uliDelivery ctx) := of_none rfl rfl

theorem copyOpBegin (ctx : Nat) (ch : Nat) : Statement (.copyOpBegin ctx ch) := of_none rfl rfl

theorem copyChunk (ctx : Nat) (ch : Nat) (ahead : Option Nat) : Statement (.copyChunk ctx ch ahead) := of_none rfl rfl

theorem feedBeatLand (ctx : Nat) (ch : Nat) : Statement (.feedBeatLand ctx ch) := of_none rfl rfl

theorem addwRowWrite (ctx : Nat) (ch : Nat) (row : Nat) : Statement (.addwRowWrite ctx ch row) := of_none rfl rfl

theorem fragmentArrival (ctx : Nat) (ch : Nat) : Statement (.fragmentArrival ctx ch) := of_none rfl rfl

theorem fragmentResponse (ctx : Nat) (ch : Nat) : Statement (.fragmentResponse ctx ch) := of_none rfl rfl

theorem rputBackoffExpiry (ctx : Nat) (ch : Nat) : Statement (.rputBackoffExpiry ctx ch) := of_none rfl rfl

theorem barrierCredit (k : Nat) : Statement (.barrierCredit k) := of_none rfl rfl

theorem matrixOpBegin (core : Nat) : Statement (.matrixOpBegin core) := of_none rfl rfl

theorem mmaGroup (ctx : Nat) (k : Nat) : Statement (.mmaGroup ctx k) := of_none rfl rfl

theorem matrixOpComplete (ctx : Nat) (k : Nat) : Statement (.matrixOpComplete ctx k) := of_none rfl rfl

theorem syncOpPerform (ctx : Nat) (k : Nat) : Statement (.syncOpPerform ctx k) := of_none rfl rfl

theorem syncAnswerArrival (ctx : Nat) (k : Nat) : Statement (.syncAnswerArrival ctx k) := of_none rfl rfl

theorem waiterBusyResend (ctx : Nat) : Statement (.waiterBusyResend ctx) := of_none rfl rfl

theorem asyncLogRecord (ctx : Nat) (k : Nat) : Statement (.asyncLogRecord ctx k) := of_none rfl rfl

theorem invalidateAll (die : Nat) : Statement (.invalidateAll die) := of_none rfl rfl

theorem invalidateVaRange (die : Nat) : Statement (.invalidateVaRange die) := of_none rfl rfl

theorem invalidateIpaRange (die : Nat) (part : BitVec 4) : Statement (.invalidateIpaRange die part) := of_none rfl rfl

theorem invalidateRoot (die : Nat) : Statement (.invalidateRoot die) := of_none rfl rfl

theorem invalidatePartition (die : Nat) (part : BitVec 4) : Statement (.invalidatePartition die part) := of_none rfl rfl

theorem invalidationComplete (die : Nat) : Statement (.invalidationComplete die) := of_none rfl rfl

theorem btStart (die : Nat) (part : Nat) (off : Nat) (size : Nat) (value : Word) (root : Nat) : Statement (.btStart die part off size value root) := of_none rfl rfl

theorem btTakeStart (die : Nat) (eng : Nat) : Statement (.btTakeStart die eng) := of_none rfl rfl

theorem btChunk (die : Nat) (eng : Nat) : Statement (.btChunk die eng) := of_none rfl rfl

theorem btComplete (die : Nat) (eng : Nat) : Statement (.btComplete die eng) := of_none rfl rfl

theorem queueStart (die : Nat) (h : Nat) : Statement (.queueStart die h) := of_none rfl rfl

theorem queueResume (die : Nat) (h : Nat) : Statement (.queueResume die h) := of_none rfl rfl

theorem queuePark (die : Nat) (h : Nat) : Statement (.queuePark die h) := of_none rfl rfl

theorem queueDisable (die : Nat) (h : Nat) : Statement (.queueDisable die h) := of_none rfl rfl

theorem doorbell (die : Nat) (part : Nat) (off : Nat) (size : Nat) (value : Word) : Statement (.doorbell die part off size value) := of_none rfl rfl

theorem packetFetch (die : Nat) (h : Nat) : Statement (.packetFetch die h) := of_none rfl rfl

theorem pktNop (die : Nat) (h : Nat) : Statement (.pktNop die h) := of_none rfl rfl

theorem invoke (die : Nat) (h : Nat) : Statement (.invoke die h) := of_none rfl rfl

theorem invokeStart (die : Nat) (h : Nat) : Statement (.invokeStart die h) := of_none rfl rfl

theorem taskGraphEnd (die : Nat) (h : Nat) : Statement (.taskGraphEnd die h) := of_none rfl rfl

theorem ib (die : Nat) (h : Nat) : Statement (.ib die h) := of_none rfl rfl

theorem pred (die : Nat) (h : Nat) : Statement (.pred die h) := of_none rfl rfl

theorem pktLoop (die : Nat) (h : Nat) : Statement (.pktLoop die h) := of_none rfl rfl

theorem pktWait (die : Nat) (h : Nat) : Statement (.pktWait die h) := of_none rfl rfl

theorem pktSigAdd (die : Nat) (h : Nat) : Statement (.pktSigAdd die h) := of_none rfl rfl

theorem pktSigSet (die : Nat) (h : Nat) : Statement (.pktSigSet die h) := of_none rfl rfl

theorem ffence (die : Nat) (h : Nat) : Statement (.ffence die h) := of_none rfl rfl

theorem faultServed (port : FaultPort) (seq : BitVec 32) : Statement (.faultServed port seq) := of_none rfl rfl

theorem faultDeclined (port : FaultPort) (seq : BitVec 32) : Statement (.faultDeclined port seq) := of_none rfl rfl

theorem faultQueueHeadAdvance (port : FaultPort) (head : BitVec 32) : Statement (.faultQueueHeadAdvance port head) := of_none rfl rfl

theorem thaw (die : Nat) (value : Word) : Statement (.thaw die value) := of_none rfl rfl

theorem registerWrite (page : DevPage) (off : Nat) (size : Nat) (value : Word) : Statement (.registerWrite page off size value) := of_none rfl rfl

theorem hostWrite (serac : Nat) (pa : Nat) (data : List Byte) : Statement (.hostWrite serac pa data) := of_none rfl rfl

theorem hostRead (serac : Nat) (pa : Nat) (n : Nat) : Statement (.hostRead serac pa n) := of_none rfl rfl

theorem dieCycle (die : Nat) : Statement (.dieCycle die) := of_none rfl rfl

theorem fairnessWindowStart (die : Nat) : Statement (.fairnessWindowStart die) := of_none rfl rfl

theorem boostDecay (die : Nat) : Statement (.boostDecay die) := of_none rfl rfl

theorem stealRequest (victim : Nat) : Statement (.stealRequest victim) := of_none rfl rfl

theorem landingReplay (ctx : Nat) : Statement (.landingReplay ctx) := of_none rfl rfl

theorem tileRefetch (ctx : Nat) : Statement (.tileRefetch ctx) := of_none rfl rfl

theorem retirement (die : Nat) (what : Retire) : Statement (.retirement die what) := of_none rfl rfl

theorem postAccept (ctx : Nat) : Statement (.postAccept ctx) := of_none rfl rfl

theorem coordinatorNotice (serac : Nat) (k : Nat) : Statement (.coordinatorNotice serac k) := of_none rfl rfl

theorem ticketRequest (serac : Nat) : Statement (.ticketRequest serac) := of_none rfl rfl

theorem ticketTake (serac : Nat) (k : Nat) : Statement (.ticketTake serac k) := of_none rfl rfl

theorem reservation (serac : Nat) (k : Nat) : Statement (.reservation serac k) := of_none rfl rfl

theorem confirmation (serac : Nat) (k : Nat) : Statement (.confirmation serac k) := of_none rfl rfl

theorem chunkBoundary (serac : Nat) (res : CollResource) : Statement (.chunkBoundary serac res) := of_none rfl rfl

theorem chunkTransfer (serac : Nat) (res : CollResource) (order : List Nat) : Statement (.chunkTransfer serac res order) := of_none rfl rfl

theorem creditReturn (serac : Nat) (link : Nat) (vc : Nat) : Statement (.creditReturn serac link vc) := of_none rfl rfl

theorem instanceComplete (serac : Nat) (k : Nat) : Statement (.instanceComplete serac k) := of_none rfl rfl

theorem instanceFault (serac : Nat) (k : Nat) : Statement (.instanceFault serac k) := of_none rfl rfl

theorem sramEccError (site : EccSite) : Statement (.sramEccError site) := of_none rfl rfl

theorem resetBoot (boot : Reboot) : Statement (.resetBoot boot) := of_none rfl rfl

theorem spdmMeasurement (serac : Nat) (nonce : List Byte) : Statement (.spdmMeasurement serac nonce) := of_none rfl rfl

theorem dumpKeyDelivery (serac : Nat) (tenant : BitVec 16) (key : BitVec 256) : Statement (.dumpKeyDelivery serac tenant key) := of_none rfl rfl

theorem stealAnswer (thief : Nat) : Statement (.stealAnswer thief) := of_none rfl rfl

theorem powerLoss (pkg : Nat) (torn : Option FlashTear) : Statement (.powerLoss pkg torn) := of_none rfl rfl

theorem peerUnreachable (serac : Nat) (pkg : Nat) : Statement (.peerUnreachable serac pkg) := of_none rfl rfl

theorem redfishRequest (pkg : Nat) (request : List Byte) : Statement (.redfishRequest pkg request) := of_none rfl rfl

end Sys2Proof.Laws.Encoding
end

