-- ==== Sys2Proof/Laws/Writes.lean ====
section
/-! SUPPORT. What writing bytes at a home does: the bytes written read back, every other byte and every context is as before. -/

namespace Sys2Proof.Machine

/-- Bit i of the number a list of bits spells. -/
theorem bitsNat_testBit (l : List Bool) (i : Nat) :
    (l.foldr (fun (x : Bool) n => (if x then 1 else 0) + 2 * n) 0).testBit i = l.getD i false := by
  induction l generalizing i with
  | nil => simp
  | cons x l ih =>
    simp only [List.foldr_cons]
    cases i with
    | zero => cases x <;> simp [Nat.testBit_zero]
    | succ i =>
      rw [Nat.testBit_succ]
      have : ((if x = true then 1 else 0) + 2 * List.foldr (fun x n => (if x = true then 1 else 0) + 2 * n) 0 l) / 2
          = List.foldr (fun x n => (if x = true then 1 else 0) + 2 * n) 0 l := by split <;> omega
      rw [this, ih]; simp

/-- Byte i of a little-endian number. -/
theorem leNat_byte (l : List Byte) (i : Nat) : leNat l / 256 ^ i % 256 = (l.getD i 0).toNat := by
  induction l generalizing i with
  | nil => simp [leNat]
  | cons b l ih =>
    cases i with
    | zero => simp [leNat]; omega
    | succ i =>
      have : leNat (b :: l) / 256 = leNat l := by simp only [leNat]; omega
      rw [Nat.pow_succ, Nat.mul_comm, ← Nat.div_div_eq_div_mul, this, ih]; simp

/-- A little-endian number is below 256 to the number of its bytes. -/
theorem leNat_lt (l : List Byte) : leNat l < 256 ^ l.length := by
  induction l with
  | nil => simp [leNat]
  | cons b l ih => simp only [leNat, List.length_cons, Nat.pow_succ]; have := b.isLt; omega

/-- A line made of bytes has those bytes. -/
theorem lineByte_lineOfBytes (l : List Byte) (i : Nat) (hi : i < 64) (hl : l.length ≤ 64) : lineByte (lineOfBytes l) i = l.getD i 0 := by
  unfold lineByte lineOfBytes
  rw [List.take_of_length_le hl]
  apply BitVec.eq_of_toNat_eq
  have h : leNat l < 2 ^ 512 := Nat.lt_of_lt_of_le (leNat_lt l)
    (Nat.le_trans (Nat.pow_le_pow_right (by omega) hl) (by rw [show (256:Nat) = 2 ^ 8 from rfl, ← Nat.pow_mul]))
  simp only [BitVec.extractLsb'_toNat, BitVec.toNat_ofNat, Nat.mod_eq_of_lt h, Nat.shiftRight_eq_div_pow]
  rw [← leNat_byte, Nat.pow_mul]

/-- The mask of a byte range in a line. -/
theorem rangeInLine_mask (pa : Nat) (b : List Byte) (line i : Nat) (hi : i < 64) :
    (rangeInLine pa b line).1.getLsbD i = decide (pa ≤ line * 64 + i ∧ line * 64 + i < pa + b.length) := by
  unfold rangeInLine
  simp only [BitVec.getLsbD_ofNat, bitsNat_testBit, hi, decide_true, Bool.true_and]
  simp [List.getD, List.getElem?_map, List.getElem?_range hi]

/-- The bytes of a byte range in a line. -/
theorem rangeInLine_data (pa : Nat) (b : List Byte) (line i : Nat) (hi : i < 64) (h : pa ≤ line * 64 + i) :
    lineByte (rangeInLine pa b line).2 i = b.getD (line * 64 + i - pa) 0 := by
  unfold rangeInLine
  dsimp only
  rw [lineByte_lineOfBytes _ _ hi (by simp)]
  simp [List.getD, List.getElem?_map, List.getElem?_range hi, h]

/-- Bytes written at their home read back, and every other byte is as before. -/
theorem State.homeWriteBytes_read (s : State) (pkg pa : Nat) (b : List Byte) (p g : Bool) (h : s.MemWf) (a : Nat) :
    (s.homeWriteBytes pkg pa b p g).memByte a =
      if memKey pkg pa ≤ a ∧ a < memKey pkg pa + b.length then b.getD (a - memKey pkg pa) 0 else s.memByte a := by
  unfold State.homeWriteBytes
  split
  · rename_i hb
    have : b.length = 0 := by simpa using hb
    rw [if_neg (by omega)]
  · rename_i hb
    have hb : b.length ≠ 0 := by simpa using hb
    have key : ∀ n, n ≤ (pa + b.length - 1) / 64 - pa / 64 + 1 →
        ((List.range n).foldl (fun s i =>
          let line := pa / 64 + i
          let (m, d) := rangeInLine pa b line
          s.homeWriteLine pkg line m d p g) s).MemWf ∧
        ((List.range n).foldl (fun s i =>
          let line := pa / 64 + i
          let (m, d) := rangeInLine pa b line
          s.homeWriteLine pkg line m d p g) s).memByte a =
        if memKey pkg pa ≤ a ∧ a < memKey pkg pa + b.length ∧ a < memKey pkg ((pa / 64 + n) * 64) then b.getD (a - memKey pkg pa) 0
        else s.memByte a := by
      intro n hn
      induction n with
      | zero => refine ⟨h, ?_⟩; rw [if_neg]; rfl; simp only [memKey]; omega
      | succ n ih =>
        obtain ⟨w, ih⟩ := ih (by omega)
        rw [List.range_succ, List.foldl_append]
        constructor
        · simp only [List.foldl_cons, List.foldl_nil]; exact State.homeWriteLine_memWf _ _ _ _ _ _ w
        simp only [List.foldl_cons, List.foldl_nil]
        rw [State.homeWriteLine_read _ _ _ _ _ _ _ _ w]
        dsimp only at ih ⊢
        rw [ih]
        have k1 : memKey pkg ((pa / 64 + n) * 64) = memKey pkg 0 + (pa / 64 + n) * 64 := by simp only [memKey]; omega
        have k2 : memKey pkg ((pa / 64 + (n + 1)) * 64) = memKey pkg 0 + (pa / 64 + (n + 1)) * 64 := by simp only [memKey]; omega
        have k3 : memKey pkg pa = memKey pkg 0 + pa := by simp only [memKey]; omega
        have em := fun i => rangeInLine_mask pa b (pa / 64 + n) i
        by_cases hin : memKey pkg ((pa / 64 + n) * 64) ≤ a ∧ a < memKey pkg ((pa / 64 + n) * 64) + 64
        · have em := em (a - memKey pkg ((pa / 64 + n) * 64)) (by omega)
          by_cases hr : memKey pkg pa ≤ a ∧ a < memKey pkg pa + b.length
          · rw [decide_eq_true (by omega)] at em
            rw [if_pos ⟨hin.1, hin.2, em⟩, if_pos (by omega), rangeInLine_data _ _ _ _ (by omega) (by omega)]
            congr 1; omega
          · rw [decide_eq_false (by omega)] at em
            rw [if_neg (by simp [em]), if_neg (by omega), if_neg (by omega)]
        · rw [if_neg (by tauto)]
          by_cases hr : memKey pkg pa ≤ a ∧ a < memKey pkg pa + b.length ∧ a < memKey pkg ((pa / 64 + n) * 64)
          · rw [if_pos hr, if_pos (by omega)]
          · rw [if_neg hr, if_neg (by omega)]
    rw [(key _ (Nat.le_refl _)).2]
    have k2 : memKey pkg ((pa / 64 + ((pa + b.length - 1) / 64 - pa / 64 + 1)) * 64) =
      memKey pkg 0 + (pa / 64 + ((pa + b.length - 1) / 64 - pa / 64 + 1)) * 64 := by simp only [memKey]; omega
    have k3 : memKey pkg pa = memKey pkg 0 + pa := by simp only [memKey]; omega
    split_ifs <;> first | rfl | omega

/-- A write step changes no context. -/
theorem State.homeWriteLine_contexts (s : State) (pkg line : Nat) (m : BitVec 64) (d : Line) (p g : Bool) :
    (s.homeWriteLine pkg line m d p g).contexts = s.contexts := by
  unfold State.homeWriteLine
  split
  · rfl
  · simp only [State.answerWaiters, State.tagLine]; split <;> split <;> rfl

/-- Bytes written at their home change no context. -/
theorem State.homeWriteBytes_contexts (s : State) (pkg pa : Nat) (b : List Byte) (p g : Bool) :
    (s.homeWriteBytes pkg pa b p g).contexts = s.contexts := by
  unfold State.homeWriteBytes
  split
  · rfl
  · generalize List.range _ = l
    induction l generalizing s with
    | nil => rfl
    | cons i l ih => simp only [List.foldl_cons]; rw [ih]; exact State.homeWriteLine_contexts ..

/-- A range reads as the bytes its places hold. -/
theorem Memory.readBytes_eq (m : List Host.Cell) (a : Nat) (b : List Byte) (h : ∀ i, i < b.length → Memory.read m (a + i) = b.getD i 0) :
    Memory.readBytes m a b.length = b := by
  induction b generalizing a with
  | nil => rfl
  | cons x b ih =>
    simp only [List.length_cons, Memory.readBytes]
    rw [ih (a + 1) (fun i hi => by have := h (i + 1) (by simpa using hi); simpa [Nat.add_assoc, Nat.add_comm 1 i] using this)]
    have := h 0 (by simp)
    simp at this
    rw [this]

/-- A number in n bytes. -/
theorem leBytes_length (n v : Nat) : (leBytes n v).length = n := by induction n generalizing v with
  | zero => rfl
  | succ n ih => simp [leBytes, ih]

/-- A number read back from its bytes. -/
theorem leNat_leBytes (n v : Nat) : leNat (leBytes n v) = v % 256 ^ n := by
  induction n generalizing v with
  | zero => simp [leBytes, leNat, Nat.mod_one]
  | succ n ih =>
    simp only [leBytes, leNat, ih, BitVec.toNat_ofNat, Nat.pow_succ]
    have := Nat.mod_mul_right_div_self v 256 (256 ^ n)
    rw [Nat.mul_comm (256 ^ n) 256]
    have h2 := Nat.mod_mod_of_dvd v (show 256 ∣ 256 * 256 ^ n from ⟨_, rfl⟩)
    have h3 := Nat.div_add_mod (v % (256 * 256 ^ n)) 256
    omega

/-- The range written reads back whole. -/
theorem State.homeBytes_written (s : State) (pkg pa : Nat) (b : List Byte) (p g : Bool) (h : s.MemWf) :
    (s.homeWriteBytes pkg pa b p g).homeBytes pkg pa b.length = b := by
  unfold State.homeBytes
  apply Memory.readBytes_eq
  intro i hi
  have := State.homeWriteBytes_read s pkg pa b p g h (memKey pkg pa + i)
  rw [if_pos (by omega)] at this
  simpa [State.memByte] using this

/-- The word written reads back. -/
theorem State.home64_written (s : State) (pkg pa : Nat) (v : Word) (p g : Bool) (h : s.MemWf) :
    (s.homeWriteBytes pkg pa (leBytes 8 v.toNat) p g).home64 pkg pa = v := by
  have := State.homeBytes_written s pkg pa (leBytes 8 v.toNat) p g h
  rw [leBytes_length] at this
  unfold State.home64
  rw [this, leNat_leBytes]
  apply BitVec.eq_of_toNat_eq
  rw [BitVec.toNat_ofNat]
  have := v.isLt
  omega

/-- A byte outside the range written is as before. -/
theorem State.homeWriteBytes_frame (s : State) (pkg pa : Nat) (b : List Byte) (p g : Bool) (h : s.MemWf) (a : Nat)
    (ha : a < memKey pkg pa ∨ memKey pkg pa + b.length ≤ a) : (s.homeWriteBytes pkg pa b p g).memByte a = s.memByte a := by
  rw [State.homeWriteBytes_read _ _ _ _ _ _ h, if_neg (by omega)]

/-- Memory, poison tags and what the dies hold for their waiters are all that a write step changes. -/
theorem State.homeWriteLine_only (s : State) (pkg line : Nat) (m : BitVec 64) (d : Line) (p g : Bool) :
    ∃ x y z, s.homeWriteLine pkg line m d p g = { s with mem := x, poison := y, dies := z } := by
  unfold State.homeWriteLine
  split
  · exact ⟨_, _, _, rfl⟩
  · simp only [State.answerWaiters, State.tagLine]; split <;> split <;> exact ⟨_, _, _, rfl⟩

/-- Memory, poison tags and what the dies hold for their waiters are all that bytes written at their home change. -/
theorem State.homeWriteBytes_only (s : State) (pkg pa : Nat) (b : List Byte) (p g : Bool) :
    ∃ x y z, s.homeWriteBytes pkg pa b p g = { s with mem := x, poison := y, dies := z } := by
  unfold State.homeWriteBytes
  split
  · exact ⟨_, _, _, rfl⟩
  · generalize List.range _ = l
    induction l generalizing s with
    | nil => exact ⟨_, _, _, rfl⟩
    | cons i l ih =>
      simp only [List.foldl_cons]
      obtain ⟨x, y, z, e⟩ := State.homeWriteLine_only s pkg (pa / 64 + i) (rangeInLine pa b (pa / 64 + i)).1
        (rangeInLine pa b (pa / 64 + i)).2 p g
      rw [e]
      obtain ⟨x', y', z', e'⟩ := ih { s with mem := x, poison := y, dies := z }
      exact ⟨x', y', z', e'⟩

end Sys2Proof.Machine
end

