-- ==== Sys2Proof/Tests/Slice0.lean ====
section
/-! SUPPORT. The tests: ill-formed terms the checks refuse, words written out from the spec's encodings, single steps whose results
the spec gives, and for every statement a state and operands that meet its hypotheses, clause by clause. -/

namespace Sys2Proof.Tests

open Sys2Proof.Machine

set_option maxRecDepth 8000
set_option Elab.async false

/-! ### Helpers -/

/-- A decoder reads a slot word as an instruction. -/
def reads (slot : Slot) (w : Word) (i : Instr) : Bool :=
  match decodeSlot slot w with
  | .ok j => j == i
  | .error _ => false

/-- An answer is a next state with a property. -/
def after (o : Out) (p : State → Bool) : Bool :=
  match o with
  | .next t => p t
  | _ => false

/-- Reset with the placed context in slot 0 of core 0: context 0, its thread at 0x10000, its pages present. -/
def w0 : State := State.reset.placeContext

/-- The placed context. -/
def c0 : Context := { Context.start placedIdent 0x10000 0 with status := .resident, slot := some 0 }

/-- The placed state with its context replaced. -/
def at0 (c : Context) : State := w0.setCtx 0 c

/-- A context with its thread changed. -/
def thr (f : Thread → Thread) : Context := { c0 with thread := f c0.thread }

/-- The placed context with a trap handler at 0x100. -/
def cH : Context := thr fun t => { t with tvec := 0x100 }

/-- What holds of context 0. -/
def ctx0 (t : State) (p : Context → Bool) : Bool :=
  match t.ctx 0 with
  | some c => p c
  | none => false

/-- The placed context executes. -/
theorem executes (c : Context) : (at0 c).Executes c := State.ctx_setCtx_self ..

/-! ### Ill-formed terms -/

/-- Generator fields outside the limits of spec/05: L of 0, K of 6, slot 7, POS + WIDTH past 64, FIELD of 27. -/
theorem test_illformed_gen : ([.loop 0 4, .lidx 6 1, .bset 1 7, .bfld 1 7 7 7, .bfld 1 63 1 5, .bldt 0 1 7, .nset 1 27 0] :
    List Instr).all (fun i => !WellFormed i) = true := by decide

/-- Control words with a reserved code or an operand outside its limits (R70, R71, R73, R75). -/
theorem test_illformed_ctl : ([.fmtset 0 10 0, .fmtset 0 0 15, .qcfgSlack 9 0, .qcfgSlack 17 1, .qcfgSlack 17 2, .qcfgSlack 0 3,
    .stepReg 1 5 1, .stepReg 1 2 2, .stepReg 1 4 3, .stepReg 1 0 6, .sadv 513 0] : List Instr).all (fun i => !WellFormed i) = true := by decide

/-- MEM words: buffer 3, an offset that is no multiple of 64, ARR of a store, v of a PFTCH, a reserved or floating type (R65, R228). -/
theorem test_illformed_mem : ([.vld ⟨0, 0, 0, 3, 0⟩, .vst ⟨0, 0, 0, 3, 0⟩, .vldg ⟨1, 0, 0, 0⟩, .vldgs ⟨32, 0, 0, 0⟩, .vstg ⟨0, 1, 0, 0⟩,
    .vstg ⟨63, 0, 0, 0⟩, .pftch ⟨0, 0, 0, 1⟩, .vgth ⟨1, 0, 0, 0, 0⟩, .vgths ⟨11, 0, 0, 0, 0⟩, .vsct ⟨0, 1, 0, 0, 0⟩, .vsct ⟨2, 0, 0, 0, 0⟩] :
    List Instr).all (fun i => !WellFormed i) = true := by decide

/-- CPY words that break the table "Copy-slot fields by opcode" (R149). -/
theorem test_illformed_cpy : ([.fill ⟨0, 1, 0, 0, 0, 0, 0, 0⟩, .fills ⟨0, 1, 0, 1, 0, 0, 0, 0⟩, .fills ⟨0, 7, 0, 0, 0, 0, 0, 0⟩,
    .feed ⟨1, 0, 0, 0, 0, 0, 0, 0⟩, .feed ⟨0, 10, 0, 0, 0, 0, 0, 0⟩, .feedt ⟨0, 3, 0, 0, 0, 0, 0, 0⟩, .drain ⟨0, 0, 1, 0, 0, 0, 0, 0⟩,
    .addw ⟨0, 1, 0, 0, 0, 0, 0, 0⟩, .addw ⟨0, 0, 0, 0, 32, 0, 0, 0⟩, .rput ⟨0, 0, 0, 1, 0, 0, 0, 0⟩, .cresm ⟨0, 0, 0, 0, 3, 0, 0, 0⟩,
    .cresm ⟨0, 0, 0, 0, 4, 1, 0, 0⟩, .cclr ⟨0, 0, 0, 0, 1, 0, 0, 0⟩, .cclr ⟨0, 0, 0, 0, 8, 0, 0, 0⟩] :
    List Instr).all (fun i => !WellFormed i) = true := by decide

/-- SYN words that break the table "SYN fields by opcode" (R238). -/
theorem test_illformed_syn : ([.aadd ⟨0, 0, 5, 0, 0, 0, 0⟩, .amin ⟨0, 1, 0, 0, 0, 0, 0⟩, .amax ⟨0, 0, 15, 0, 0, 0, 0⟩, .aand ⟨0, 0, 4, 0, 0, 0, 0⟩,
    .aor ⟨0, 0, 4, 0, 0, 0, 0⟩, .axor ⟨0, 0, 4, 0, 0, 0, 0⟩, .aswp ⟨0, 0, 5, 0, 0, 0, 0⟩, .acas ⟨0, 0, 5, 0, 0, 0, 0⟩,
    .red ⟨0, 6, 0, 0, 0, 0, 0⟩, .red ⟨0, 3, 4, 0, 0, 0, 0⟩, .red ⟨0, 0, 0, 0, 0, 0, 1⟩, .arv ⟨0, 0, 0, 0, 0, 1, 0⟩, .arvd ⟨0, 0, 1, 0, 0, 0, 0⟩,
    .bwait ⟨0, 0, 0, 1, 0, 0, 0⟩, .btest ⟨0, 0, 0, 0, 0, 1, 0⟩, .sig ⟨0, 0, 0, 0, 0, 0, 1⟩, .swait ⟨0, 2, 0, 0, 0, 0, 0⟩,
    .uli ⟨1, 0, 0, 0, 0, 0, 0⟩, .sfence ⟨0, 0, 0, 0, 1, 0, 0⟩, .brst ⟨0, 1, 0, 0, 0, 0, 0⟩] :
    List Instr).all (fun i => !WellFormed i) = true := by decide

/-- MTX words: K of 0 and past the stream, an unused field, a type the form does not take (R186, R193, R197). -/
theorem test_illformed_mtx : ([.mma ⟨0, 0, 0, 0, 0, 0, 0, 0, 0, 0, 0⟩, .mma ⟨0, 0, 0, 0, 0, 0, 0, 0, 1, 512, 0⟩, .mma ⟨0, 0, 0, 0, 0, 1, 0, 0, 0, 1, 0⟩,
    .mld ⟨0, 0, 0, 4, 0, 0, 0, 0, 0, 0, 0⟩, .mldt ⟨0, 0, 0, 0, 1, 0, 0, 0, 0, 0, 0⟩, .mst ⟨0, 0, 0, 11, 0, 0, 0, 0, 0, 0, 0⟩,
    .mst ⟨0, 0, 0, 4, 1, 0, 0, 0, 0, 0, 0⟩, .mstq ⟨0, 0, 0, 6, 0, 0, 0, 0, 0, 0, 0⟩, .mclr ⟨1, 0, 0, 0, 0, 0, 0, 0, 0, 0, 0⟩,
    .macc ⟨0, 0, 0, 0, 0, 0, 0, 0, 0, 1, 0⟩] : List Instr).all (fun i => !WellFormed i) = true := by decide

/-- A vector word with only some fields set. -/
def vw (ty vd va vb vc : Nat) (q rm sat : Nat := 0) : VWord :=
  ⟨BitVec.ofNat 1 sat, BitVec.ofNat 2 rm, BitVec.ofNat 4 ty, 0, 0, BitVec.ofNat 3 q, BitVec.ofNat 10 vc, BitVec.ofNat 10 vb, BitVec.ofNat 10 va,
   BitVec.ofNat 10 vd⟩

/-- Vector words: a field the operation does not use, and a type or an operand outside its limits (R65, R208-R225). -/
theorem test_illformed_vec_rsvd : ([.vadd .x (vw 11 0 0 0 0), .vsub .x (vw 0 0 0 0 1), .vmul .x (vw 3 0 0 0 0 0 1), .vmin .x (vw 0 0 0 0 0 0 0 1),
    .vmax .x (vw 0 0 0 0 0 0 1), .vabs .x (vw 0 0 0 1 0), .vneg .x (vw 0 0 0 0 1), .vrcp .x (vw 0 0 0 1 0), .vrsq .x (vw 0 0 0 1 0),
    .vexp2 .x (vw 0 0 0 0 1), .vdiv .x (vw 0 0 0 0 1), .vand .x (vw 0 0 0 0 1), .vor .x (vw 15 0 0 0 0), .vxor .x (vw 0 0 0 0 0 0 1),
    .vnot .x (vw 0 0 0 1 0), .vshl .x (vw 3 0 0 0 1), .vshli .x (vw 3 0 0 1 0), .vclz .x (vw 3 0 0 1 0), .vwadd .x (vw 7 0 0 0 1),
    .vwmul .x (vw 7 0 0 0 0 0 0 1), .vcmp .x (vw 0 8 0 0 0), .vcmp .x (vw 0 1 0 0 8), .vsel .x (vw 0 0 0 0 1), .qop .x (vw 0 8 0 0 0),
    .qop .x (vw 0 1 0 0 16), .vcvt .x (vw 0 0 0 0 11), .vqnt .x (vw 0 0 0 0 7 1), .vdqnt .x (vw 0 0 0 0 10), .vscan .x (vw 0 0 0 0 4),
    .vred .x (vw 0 0 0 1 0), .vperm .x (vw 0 0 0 0 1), .vbcst .x (vw 0 0 0 1 0), .viota .x (vw 3 0 1 0 0), .vmov .x (vw 0 0 0 1 0),
    .vmovi .x (vw 0 0 1 0 0), .vldi .x (vw 11 0 0 0 0), .vchk .x (vw 0 1 0 0 0), .vchk .x (vw 0 0 8 0 1), .vclrp .x (vw 0 0 1 0 0),
    .vclrp .x (vw 0 8 0 0 1), .vstat .x (vw 1 0 0 0 0)] : List Instr).all (fun i => !WellFormed i) = true := by decide

theorem test_illformed_vec_opnd : ([.vadd .x (vw 9 0 0 0 0), .vfma .x (vw 3 0 0 0 0), .vfms .x (vw 8 0 0 0 0), .vrcp .x (vw 3 0 0 0 0),
    .vdiv .x (vw 4 0 0 0 0), .vshr .x (vw 0 0 0 0 0), .vsra .x (vw 2 0 0 0 0), .vmulh .x (vw 9 0 0 0 0), .vshli .x (vw 7 0 0 0 8),
    .vshri .x (vw 3 0 0 0 32), .vclz .x (vw 1 0 0 0 0), .vwadd .x (vw 0 0 0 0 0), .vwacc .x (vw 9 0 0 0 0), .vwmul .x (vw 7 1 0 0 0),
    .vcmp .x (vw 0 0 0 0 0), .vcmp .x (vw 3 1 0 0 6), .qop .x (vw 0 0 0 0 0), .vcvt .x (vw 0 0 0 0 0x10), .vqnt .x (vw 0 0 0 0 6),
    .vqnt .x (vw 0 0 0 0 0x37), .vscan .x (vw 9 0 0 0 0), .vred .x (vw 0 0 0 0 3), .vbcst .x (vw 0 0 0 0 16), .vshfl .x (vw 0 0 0 0 17),
    .viota .x (vw 0 0 0 0 0), .vmovi .x (vw 8 0 0 0 1023), .vmovi .x (vw 1 0 0 0 257), .vldi .x (vw 7 0 256 0 0), .vstat .x (vw 0 0 0 0 35)] :
    List Instr).all (fun i => !WellFormed i) = true := by decide

/-! ### Decoding: words written out from the encodings of the spec -/

/-- The ALU words of R106 (op 0x00): fn [31:25], b [24:19], a [18:13], d [12:7]. -/
theorem test_decode_alu : ([
  (0x0028C380, (.add 5 6 7 : Instr)),
  (0x0228C380, (.sub 5 6 7 : Instr)),
  (0x0428C380, (.mul 5 6 7 : Instr)),
  (0x0628C380, (.mulh 5 6 7 : Instr)),
  (0x0828C380, (.div 5 6 7 : Instr)),
  (0x0A28C380, (.divu 5 6 7 : Instr)),
  (0x0C28C380, (.rem 5 6 7 : Instr)),
  (0x0E28C380, (.remu 5 6 7 : Instr)),
  (0x1028C380, (.and 5 6 7 : Instr)),
  (0x1228C380, (.or 5 6 7 : Instr)),
  (0x1428C380, (.xor 5 6 7 : Instr)),
  (0x1628C380, (.shl 5 6 7 : Instr)),
  (0x1828C380, (.shr 5 6 7 : Instr)),
  (0x1A28C380, (.sra 5 6 7 : Instr)),
  (0x1C28C380, (.slt 5 6 7 : Instr)),
  (0x1E28C380, (.sltu 5 6 7 : Instr)),
  (0x2028C380, (.min 5 6 7 : Instr)),
  (0x2228C380, (.max 5 6 7 : Instr)),
  (0x2428C380, (.minu 5 6 7 : Instr)),
  (0x2628C380, (.maxu 5 6 7 : Instr)),
  (0x2800C380, (.clz 6 7 : Instr)),
  (0x2A00C380, (.popc 6 7 : Instr))] : List (BitVec 32 × Instr)).all (fun p => decodeGen p.1 == some p.2) = true := by decide

/-- GI, GS and GB words (R66): imm13 or off13 [31:19] = −3, a or the base [18:13], d or b [12:7]. -/
theorem test_decode_gen1 : ([
  (0xFFE8C381, (.addi (-3) 6 7 : Instr)),
  (0xFFE8C382, (.andi (-3) 6 7 : Instr)),
  (0xFFE8C383, (.ori (-3) 6 7 : Instr)),
  (0xFFE8C384, (.xori (-3) 6 7 : Instr)),
  (0xFFE8C388, (.slti (-3) 6 7 : Instr)),
  (0xFFE8C389, (.sltiu (-3) 6 7 : Instr)),
  (0xFFE8C390, (.ldb (-3) 6 7 : Instr)),
  (0xFFE8C391, (.ldh (-3) 6 7 : Instr)),
  (0xFFE8C392, (.ldw (-3) 6 7 : Instr)),
  (0xFFE8C393, (.ldd (-3) 6 7 : Instr)),
  (0xFFE8C394, (.ldbu (-3) 6 7 : Instr)),
  (0xFFE8C395, (.ldhu (-3) 6 7 : Instr)),
  (0xFFE8C396, (.ldwu (-3) 6 7 : Instr)),
  (0xFFE8C398, (.stb (-3) 6 7 : Instr)),
  (0xFFE8C399, (.sth (-3) 6 7 : Instr)),
  (0xFFE8C39A, (.stw (-3) 6 7 : Instr)),
  (0xFFE8C39B, (.std (-3) 6 7 : Instr)),
  (0xFFE8C3A0, (.beq (-3) 6 7 : Instr)),
  (0xFFE8C3A1, (.bne (-3) 6 7 : Instr)),
  (0xFFE8C3A2, (.blt (-3) 6 7 : Instr)),
  (0xFFE8C3A3, (.bge (-3) 6 7 : Instr)),
  (0xFFE8C3A4, (.bltu (-3) 6 7 : Instr)),
  (0xFFE8C3A5, (.bgeu (-3) 6 7 : Instr)),
  (0xFFE8C3A7, (.jalr (-3) 6 7 : Instr)),
  (0x01F8C385, (.shli 63 6 7 : Instr)),
  (0x01F8C386, (.shri 63 6 7 : Instr)),
  (0x01F8C387, (.srai 63 6 7 : Instr))] : List (BitVec 32 × Instr)).all (fun p => decodeGen p.1 == some p.2) = true := by decide

/-- The other generator words (R107, R109, R111-R134), with the fields of their own encodings. -/
theorem test_decode_gen2 : ([
  (0xFFFFC38A, (.lui (-2) 7 : Instr)),
  (0xFFFFC38B, (.pcadd (-2) 7 : Instr)),
  (0xFFFFC3A6, (.jal (-2) 7 : Instr)),
  (0x0012839C, (.ldz 9 4 7 : Instr)),
  (0x0012839D, (.stz 9 4 7 : Instr)),
  (0x00588028, (.loop 11 4 : Instr)),
  (0x00009FA9, (.loopi 4 63 : Instr)),
  (0x0000002A, (.lbrk : Instr)),
  (0x0000A3AB, (.lidx 5 7 : Instr)),
  (0x0000C1B0, (.bset 6 3 : Instr)),
  (0x034856B1, (.bfld 13 8 21 5 : Instr)),
  (0xFFF8C0B2, (.bldt (-1) 6 1 : Instr)),
  (0x0000C033, (.bhdr 6 : Instr)),
  (0x0540D234, (.emit 1 0 2 1 3 0x24 : Instr)),
  (0x0028C035, (.emitm 5 6 : Instr)),
  (0x0006D7B8, (.nset 6 26 15 : Instr)),
  (0x022003C0, (.csrr 0x44 7 : Instr)),
  (0x0100C3C1, (.csrw 0x20 6 7 : Instr)),
  (0x000001C2, (.phaseg 3 : Instr)),
  (0x0000C043, (.gchk 6 : Instr)),
  (0x00000044, (.spin : Instr)),
  (0x00000045, (.yield : Instr)),
  (0x00000046, (.halt : Instr)),
  (0x00000048, (.xret : Instr)),
  (0x0000004B, (.drainq : Instr)),
  (0xFFF80047, (.trapc 8191 : Instr)),
  (0x0000C3C9, (.cpost 6 7 : Instr)),
  (0x0000C3CA, (.cqry 6 7 : Instr))] : List (BitVec 32 × Instr)).all (fun p => decodeGen p.1 == some p.2) = true := by decide

/-- CTL words (R69-R77). -/
theorem test_decode_ctl : ([
  (0x0000000000000000, (.nop .ctl : Instr)),
  (0x0000000000006541, (.fmtset 1 9 5 : Instr)),
  (0x0000000000001002, (.qcfgSlack 8 0 : Instr)),
  (0x00000000000781C2, (.qcfgPort 1 3 2 : Instr)),
  (0x000000FFFFFE00C3, (.stepReg (-2) 0 3 : Instr)),
  (0x00000000007FFF84, (.waitw 32767 2 : Instr)),
  (0x0000000000010045, (.sadv 512 1 : Instr)),
  (0x00000000000007C6, (.mwait 31 : Instr)),
  (0x0000000000000007, (.ckpt : Instr)),
  (0x0000000000000008, (.prog : Instr)),
  (0x0000000000000009, (.sync : Instr))] : List (Word × Instr)).all (fun p => reads .ctl p.1 p.2) = true := by decide

/-- MEM words: the buffer, the global and the gather form (R65, R226-R232). -/
theorem test_decode_mem : ([
  (0x0000000000000000, (.nop .mem : Instr)),
  (0x00000000E189AF01, (.vld ⟨3, 33, 34, 1, 700⟩ : Instr)),
  (0x00000000E189AF02, (.vst ⟨3, 33, 34, 1, 700⟩ : Instr)),
  (0x080000040C89AF03, (.vldg ⟨0x80000040, 200, 9, 700⟩ : Instr)),
  (0x080000040C89AF04, (.vldgs ⟨0x80000040, 200, 9, 700⟩ : Instr)),
  (0x080000040009AF05, (.vstg ⟨0x80000040, 0, 9, 700⟩ : Instr)),
  (0x080000041009000A, (.pftch ⟨0x80000041, 0, 9, 0⟩ : Instr)),
  (0x000001F22658AF06, (.vgth ⟨7, 200, 9, 600, 700⟩ : Instr)),
  (0x000001F22658AF07, (.vgths ⟨7, 200, 9, 600, 700⟩ : Instr)),
  (0x000001C02658AF08, (.vsct ⟨7, 0, 9, 600, 700⟩ : Instr)),
  (0x0000000000000009, (.phase : Instr))] : List (Word × Instr)).all (fun p => reads .mem p.1 p.2) = true := by decide

/-- CPY words (R65, R149). -/
theorem test_decode_cpy : ([
  (0x0000000000000000, (.nop .cpy : Instr)),
  (0x000000000034DDC1, (.fill ⟨0, 0, 0, 1, 41, 11, 5, 3⟩ : Instr)),
  (0x0000000003B4DDC2, (.fills ⟨0, 7, 0, 1, 41, 11, 5, 3⟩ : Instr)),
  (0x0000000004F4DDC3, (.feed ⟨0, 9, 1, 1, 41, 11, 5, 3⟩ : Instr)),
  (0x000000000174DDC4, (.feedt ⟨0, 2, 1, 1, 41, 11, 5, 3⟩ : Instr)),
  (0x000000000034DDC5, (.drain ⟨0, 0, 0, 1, 41, 11, 5, 3⟩ : Instr)),
  (0x00000000128FDDC6, (.addw ⟨2, 5, 0, 0, 31, 11, 5, 3⟩ : Instr)),
  (0x000000000014DDC7, (.rput ⟨0, 0, 0, 0, 41, 11, 5, 3⟩ : Instr)),
  (0x00000000000380C8, (.cresm ⟨0, 0, 0, 0, 7, 0, 0, 3⟩ : Instr)),
  (0x00000000000200C9, (.cclr ⟨0, 0, 0, 0, 4, 0, 0, 3⟩ : Instr))] : List (Word × Instr)).all (fun p => reads .cpy p.1 p.2) = true := by decide

/-- SYN words (R65, R238). -/
theorem test_decode_syn : ([
  (0x0000000000000000, (.nop .syn : Instr)),
  (0x8000413FE658AF01, (.aadd ⟨131073, 0, 4, 255, 9, 600, 700⟩ : Instr)),
  (0x8000413FE658AF02, (.amin ⟨131073, 0, 4, 255, 9, 600, 700⟩ : Instr)),
  (0x8000413FE658AF03, (.amax ⟨131073, 0, 4, 255, 9, 600, 700⟩ : Instr)),
  (0x8000413FE658AF07, (.aswp ⟨131073, 0, 4, 255, 9, 600, 700⟩ : Instr)),
  (0x8000413FE658AF08, (.acas ⟨131073, 0, 4, 255, 9, 600, 700⟩ : Instr)),
  (0x800040FFE658AF04, (.aand ⟨131073, 0, 3, 255, 9, 600, 700⟩ : Instr)),
  (0x800040FFE658AF05, (.aor ⟨131073, 0, 3, 255, 9, 600, 700⟩ : Instr)),
  (0x800040FFE658AF06, (.axor ⟨131073, 0, 3, 255, 9, 600, 700⟩ : Instr)),
  (0x800054C026580009, (.red ⟨131073, 5, 3, 0, 9, 600, 0⟩ : Instr)),
  (0x800040002400000A, (.arv ⟨131073, 0, 0, 0, 9, 0, 0⟩ : Instr)),
  (0x800040002400000B, (.arvd ⟨131073, 0, 0, 0, 9, 0, 0⟩ : Instr)),
  (0x800040002658000C, (.bwait ⟨131073, 0, 0, 0, 9, 600, 0⟩ : Instr)),
  (0x800040002658000E, (.sig ⟨131073, 0, 0, 0, 9, 600, 0⟩ : Instr)),
  (0x8000400026580012, (.brst ⟨131073, 0, 0, 0, 9, 600, 0⟩ : Instr)),
  (0x8000403FE400AF0D, (.btest ⟨131073, 0, 0, 255, 9, 0, 700⟩ : Instr)),
  (0x800044002658000F, (.swait ⟨131073, 1, 0, 0, 9, 600, 0⟩ : Instr)),
  (0x00003C0002580010, (.uli ⟨0, 15, 0, 0, 0, 600, 0⟩ : Instr)),
  (0x0000000000000011, (.sfence ⟨0, 0, 0, 0, 0, 0, 0⟩ : Instr))] : List (Word × Instr)).all (fun p => reads .syn p.1 p.2) = true := by decide

/-- MTX words (R65, R186). -/
theorem test_decode_mtx : ([
  (0x0000000000000000, (.nop .mtx : Instr)),
  (0x0000008000100441, (.mma ⟨0, 0, 0, 0, 0, 0, 1, 0, 0, 512, 17⟩ : Instr)),
  (0x0000210000000442, (.mld ⟨0, 0, 0, 0, 0, 33, 0, 0, 0, 0, 17⟩ : Instr)),
  (0x0000210000000443, (.mldt ⟨0, 0, 0, 0, 0, 33, 0, 0, 0, 0, 17⟩ : Instr)),
  (0x0028E10000000444, (.mst ⟨0, 1, 1, 1, 1, 33, 0, 0, 0, 0, 17⟩ : Instr)),
  (0x0003A10000000445, (.mstq ⟨0, 0, 0, 7, 0, 33, 0, 0, 0, 0, 17⟩ : Instr)),
  (0x0000000000000446, (.mclr ⟨0, 0, 0, 0, 0, 0, 0, 0, 0, 0, 17⟩ : Instr)),
  (0x0240000000000447, (.macc ⟨9, 0, 0, 0, 0, 0, 0, 0, 0, 0, 17⟩ : Instr))] : List (Word × Instr)).all (fun p => reads .mtx p.1 p.2) = true := by decide

/-- VX words (R65, R209-R225). -/
theorem test_decode_vx : ([
  (0x0000000000000000, (.nop .vx : Instr)),
  (0x0E5D0025A967E801, (.vadd .x ⟨1, 3, 2, 1, 1, 5, 0, 602, 601, 1000⟩ : Instr)),
  (0x0E5D0025A967E802, (.vsub .x ⟨1, 3, 2, 1, 1, 5, 0, 602, 601, 1000⟩ : Instr)),
  (0x0E5D0025A967E803, (.vmul .x ⟨1, 3, 2, 1, 1, 5, 0, 602, 601, 1000⟩ : Instr)),
  (0x0A3D96E5A967E804, (.vfma .x ⟨1, 1, 1, 1, 1, 5, 603, 602, 601, 1000⟩ : Instr)),
  (0x0A3D96E5A967E805, (.vfms .x ⟨1, 1, 1, 1, 1, 5, 603, 602, 601, 1000⟩ : Instr)),
  (0x011D0025A967E806, (.vmin .x ⟨0, 0, 8, 1, 1, 5, 0, 602, 601, 1000⟩ : Instr)),
  (0x011D0025A967E807, (.vmax .x ⟨0, 0, 8, 1, 1, 5, 0, 602, 601, 1000⟩ : Instr)),
  (0x0C4500000967E80A, (.vrcp .x ⟨1, 2, 2, 0, 0, 5, 0, 0, 601, 1000⟩ : Instr)),
  (0x0C4500000967E80B, (.vrsq .x ⟨1, 2, 2, 0, 0, 5, 0, 0, 601, 1000⟩ : Instr)),
  (0x0C4500000967E80C, (.vexp2 .x ⟨1, 2, 2, 0, 0, 5, 0, 0, 601, 1000⟩ : Instr)),
  (0x0C1D0025A967E80D, (.vdiv .x ⟨1, 2, 0, 1, 1, 5, 0, 602, 601, 1000⟩ : Instr)),
  (0x012500000967E813, (.vnot .x ⟨0, 0, 9, 0, 0, 5, 0, 0, 601, 1000⟩ : Instr)),
  (0x007D0025A967E814, (.vshl .x ⟨0, 0, 3, 1, 1, 5, 0, 602, 601, 1000⟩ : Instr)),
  (0x007D0025A967E815, (.vshr .x ⟨0, 0, 3, 1, 1, 5, 0, 602, 601, 1000⟩ : Instr)),
  (0x007D0025A967E816, (.vsra .x ⟨0, 0, 3, 1, 1, 5, 0, 602, 601, 1000⟩ : Instr)),
  (0x007D0025A967E819, (.vmulh .x ⟨0, 0, 3, 1, 1, 5, 0, 602, 601, 1000⟩ : Instr)),
  (0x008507C00967E817, (.vshli .x ⟨0, 0, 4, 0, 0, 5, 31, 0, 601, 1000⟩ : Instr)),
  (0x008507C00967E818, (.vshri .x ⟨0, 0, 4, 0, 0, 5, 31, 0, 601, 1000⟩ : Instr)),
  (0x00A500000967E81A, (.vclz .x ⟨0, 0, 5, 0, 0, 5, 0, 0, 601, 1000⟩ : Instr)),
  (0x00FD0025A967E81C, (.vwadd .x ⟨0, 0, 7, 1, 1, 5, 0, 602, 601, 1000⟩ : Instr)),
  (0x00FD0025A967E81E, (.vwmul .x ⟨0, 0, 7, 1, 1, 5, 0, 602, 601, 1000⟩ : Instr)),
  (0x08FD96E5A967E81D, (.vwacc .x ⟨1, 0, 7, 1, 1, 5, 603, 602, 601, 1000⟩ : Instr)),
  (0x00650165A9640720, (.vcmp .x ⟨0, 0, 3, 0, 0, 5, 5, 602, 601, 7⟩ : Instr)),
  (0x00DD0025A967E821, (.vsel .x ⟨0, 0, 6, 1, 1, 5, 0, 602, 601, 1000⟩ : Instr)),
  (0x000003C050180722, (.qop .x ⟨0, 0, 0, 0, 0, 0, 15, 5, 6, 7⟩ : Instr)),
  (0x0A050E000967E828, (.vcvt .x ⟨1, 1, 0, 0, 0, 5, 56, 0, 601, 1000⟩ : Instr)),
  (0x000009C00967E829, (.vqnt .x ⟨0, 0, 0, 0, 0, 0, 39, 0, 601, 1000⟩ : Instr)),
  (0x000509C00967E82A, (.vdqnt .x ⟨0, 0, 0, 0, 0, 5, 39, 0, 601, 1000⟩ : Instr)),
  (0x086500A5A967E830, (.vscan .x ⟨1, 0, 3, 0, 0, 5, 2, 602, 601, 1000⟩ : Instr)),
  (0x086500C00967E831, (.vred .x ⟨1, 0, 3, 0, 0, 5, 3, 0, 601, 1000⟩ : Instr)),
  (0x015D0025A967E832, (.vperm .x ⟨0, 0, 10, 1, 1, 5, 0, 602, 601, 1000⟩ : Instr)),
  (0x000503C00967E833, (.vbcst .x ⟨0, 0, 0, 0, 0, 5, 15, 0, 601, 1000⟩ : Instr)),
  (0x00050425A967E834, (.vshfl .x ⟨0, 0, 0, 0, 0, 5, 16, 602, 601, 1000⟩ : Instr)),
  (0x0065FFC00003E835, (.viota .x ⟨0, 0, 3, 0, 0, 5, 1023, 0, 0, 1000⟩ : Instr)),
  (0x014500000967E836, (.vmov .x ⟨0, 0, 10, 0, 0, 5, 0, 0, 601, 1000⟩ : Instr)),
  (0x00E5FFC00003E837, (.vmovi .x ⟨0, 0, 7, 0, 0, 5, 1023, 0, 0, 1000⟩ : Instr)),
  (0x0065FFEAA557E838, (.vldi .x ⟨0, 0, 3, 0, 0, 5, 1023, 682, 341, 1000⟩ : Instr)),
  (0x000000000964003C, (.vchk .x ⟨0, 0, 0, 0, 0, 0, 0, 0, 601, 0⟩ : Instr)),
  (0x000000400000073D, (.vclrp .x ⟨0, 0, 0, 0, 0, 0, 1, 0, 0, 7⟩ : Instr)),
  (0x000008800003E83E, (.vstat .x ⟨0, 0, 0, 0, 0, 0, 34, 0, 0, 1000⟩ : Instr))] : List (Word × Instr)).all (fun p => reads .vx p.1 p.2) = true := by decide

/-- VY words (R65). -/
theorem test_decode_vy : ([
  (0x0000000000000000, (.nop .vy : Instr)),
  (0x08ED00000967E808, (.vabs .y ⟨1, 0, 7, 0, 1, 5, 0, 0, 601, 1000⟩ : Instr)),
  (0x08ED00000967E809, (.vneg .y ⟨1, 0, 7, 0, 1, 5, 0, 0, 601, 1000⟩ : Instr)),
  (0x015D0025A967E810, (.vand .y ⟨0, 0, 10, 1, 1, 5, 0, 602, 601, 1000⟩ : Instr)),
  (0x015D0025A967E811, (.vor .y ⟨0, 0, 10, 1, 1, 5, 0, 602, 601, 1000⟩ : Instr)),
  (0x015D0025A967E812, (.vxor .y ⟨0, 0, 10, 1, 1, 5, 0, 602, 601, 1000⟩ : Instr))] : List (Word × Instr)).all (fun p => reads .vy p.1 p.2) = true := by decide
/-! ### The generator: states that meet the statements' hypotheses, and single steps -/

/-- StepRunsDecoded: the placed thread is the core's next; its word decodes, is illegal, or its pc does not translate; a management
core's thread; a step of the part; a slot word. -/
theorem test_meets_StepRunsDecoded :
    let s := w0.withFetchWord 32 0x00008229
    let u := s.begun.updCore 0 (fun r => r.countInstr 0)
    let t := at0 (thr fun t => { t with pc := 0x40000000 })
    let m := { at0 { c0 with management := true } with agenda := [.mgmt 0 false] }
    s.nextMove = .gen 0 0 false ∧ (s.begun.core 0).frozen = false ∧ (s.begun.core 0).genUsed = false ∧ nextThread s.begun 0 0 = some 0 ∧
    threadKey s.begun 0 0 = some 0 ∧ s.begun.ctx 0 = some c0 ∧ s.begun.boundaryWork 0 = none ∧
    translate u c0 0x10000 .fetch = .ok ⟨0, 0x10000, 0, false, false⟩ ∧
    decodeBytes (u.homeBytes 0 0x10000 4) = .ok (.loopi 4 4, []) ∧
    decodeBytes ((w0.withFetchWord 32 0x7F).begun.homeBytes 0 0x10000 4) = .error (.illegal 0x7F) ∧
    translate t.begun (thr fun t => { t with pc := 0x40000000 }) 0x40000000 .fetch = .error ⟨2, 0x40000000⟩ ∧
    m.nextMove = .mgmt 0 false ∧ m.begun.boundaryWork 0 = none ∧ ({ c0 with management := true } : Context).managementReady = true ∧
    translate m.begun { c0 with management := true } 0x10000 .fetch = .ok ⟨0, 0x10000, 0, false, false⟩ ∧
    ({ w0 with agenda := [.ev (.dieCycle 0)] } : State).nextMove = .ev (.dieCycle 0) ∧ isEvent (.dieCycle 0) = true ∧
    decodeSlot (slotOfIndex 0) 0 = .ok (.nop .ctl) := by decide +kernel

/-- Every well-formed instruction has a word, and a word decodes (DecodeEncode, EncodeDecode). -/
theorem test_meets_DecodeEncode : WellFormed (.add 1 2 3) = true ∧ encodeGen (.add 1 2 3) = some 0x00084180 ∧
    encodeSlot (.nop .mem) = some (.mem, 0) := by decide

/-- The context of most generator statements executes, its handler can take a trap. -/
theorem test_meets_Executes : (at0 cH).Executes cH ∧ cH.Handles := ⟨executes cH, by decide, by decide⟩

/-- R106: a wrapping sum, its poison, and s0 (R102). -/
theorem test_add_wraps : ctx0 (match exec (.add 1 2 3) (at0 (thr fun t => (t.setReg 1 (-1) true).setReg 2 2 false)) with | .next t => t | _ => w0)
    (fun c => c.thread.reg 3 == 1 && c.thread.regPoison 3 && c.thread.pc == 0x10004) = true := by decide
theorem test_write_s0 : after (exec (.addi 5 0 0) w0) (fun t => ctx0 t fun c => c.thread.reg 0 == 0 && c.thread.pc == 0x10004) = true := by decide
/-- R106: the overflowing quotient and the division by zero. -/
theorem test_div_corners : after (exec (.div 1 2 3) (at0 (thr fun t => (t.setReg 1 (-1) false).setReg 2 (BitVec.intMin 64) false)))
      (fun t => ctx0 t fun c => c.thread.reg 3 == BitVec.intMin 64) = true ∧
    after (exec (.rem 0 2 3) (at0 (thr fun t => t.setReg 2 7 false))) (fun t => ctx0 t fun c => c.thread.reg 3 == 7) = true := by decide
/-- R107: spec/05 builds 0x12345678 as LUI 0x91A3, ADDI −2440. -/
theorem test_lui_addi : after (exec (.lui 0x91A3 1) w0) (fun t => after (exec (.addi (-2440) 1 1) t)
    (fun t => ctx0 t fun c => c.thread.reg 1 == 0x12345678)) = true := by decide

/-- LoadResults, StoreResults, AccessTraps: clean and poisoned bases, addresses that translate, are misaligned, do not translate. -/
theorem test_meets_Loads :
    let c := thr fun t => { t.setReg 1 0x20000 false with tvec := 0x100 }
    let p := thr fun t => { t.setReg 1 0x20000 true with tvec := 0x100 }
    let far := thr fun t => { t.setReg 1 (1 <<< 57) false with tvec := 0x100 }
    translate (at0 c) c 0x20000 .genLoad = .ok ⟨0, 0x20000, 0, false, false⟩ ∧ c.thread.regPoison 1 = false ∧
    translate (at0 c) c 0x20000 .genStore = .ok ⟨0, 0x20000, 0, false, false⟩ ∧ p.thread.regPoison 1 = true ∧
    (c.thread.reg 1 + 3).toNat % 2 ≠ 0 ∧ translate (at0 far) far (1 <<< 57) .genLoad = .error ⟨1, 1 <<< 57⟩ ∧ isNotPres 1 = false ∧
    c.zrel 0 + 8 = 8 ∧ translate (at0 c) c 8 .genLoad = .ok ⟨0, 8, 0, false, false⟩ ∧ p.Handles := by
  refine ⟨?_, ?_, ?_, ?_, ?_, ?_, ?_, ?_, ?_, ?_, ?_⟩ <;> decide

/-- R108: a store goes to the phase buffer, and the load of its line finds it there (R36). -/
theorem test_store_then_load : after (exec (.std 0 1 2) (at0 (thr fun t => (t.setReg 1 0x20000 false).setReg 2 0x1122 true)))
    (fun t => t.memByte 0x20000 == 0 && after (exec (.ldb 1 1 3) t) (fun t => ctx0 t fun c => c.thread.reg 3 == 0x11 && c.thread.regPoison 3)) = true := by
  decide +kernel

/-- StoreResults: a full phase buffer (512 lines) has no room for one more, and has for a line it holds (LoadAnswers). -/
theorem test_meets_full :
    let e (n : Nat) : PbEntry := { va := BitVec.ofNat 64 (64 * n), loc := ⟨0, 64 * n, 0, false, false⟩, mask := 1, data := 5, poison := false }
    let l := (List.range 512).map e
    (pbStore l [lineStore 0x20000 ⟨0, 0x20000, 0, false, false⟩ 8 1 false]).isNone = true ∧
    (pbStore l [lineStore 0 ⟨0, 0, 0, false, false⟩ 8 1 false]).isSome = true ∧ findEntry l 0 3 = some (e 3) ∧
    findEntry ([] : List PbEntry) 0 3 = none := by decide +kernel

/-- ControlFlowResults: a JALR target that is a multiple of 4, and one that is not. -/
theorem test_meets_ControlFlow : let c := thr fun t => { t.setReg 1 0x20000 false with tvec := 0x100 }
    c.thread.regPoison 1 = false ∧ (c.thread.reg 1 + (4 : BitVec 13).signExtend 64).toNat % 4 = 0 ∧
    (c.thread.reg 1 + (2 : BitVec 13).signExtend 64).toNat % 4 ≠ 0 ∧ c.Handles := by
  refine ⟨?_, ?_, ?_, ?_, ?_⟩ <;> decide
theorem test_branch_back : after (exec (.bne (-2) 0 1) (at0 (thr fun t => t.setReg 1 1 false)))
    (fun t => ctx0 t fun c => c.thread.pc == 0xFFF8) = true := by decide
theorem test_jalr_misaligned : after (exec (.jalr 2 1 5) (at0 { cH with thread := cH.thread.setReg 1 0x20000 false }))
    (fun t => ctx0 t fun c => c.thread.pc == 0x100 && c.thread.tval == 0x20002 && c.thread.reg 5 == 0 && c.thread.tcause == 2) = true := by decide

/-- A loop level for the tests. -/
def level (index count : Word) : LoopLevel := { index := index, count := count, start := 0x10000, stop := 0x10004 }

/-- LoopResults: no level, one, six; a count of 0, 1 and 2; the floor reached and not. -/
theorem test_meets_Loops : let c := thr fun t => { t with loops := List.replicate 6 (level 0 2), tvec := 0x100 }
    let u := thr fun t => { t with loops := [level 0 2], tvec := 0x100, tstate := mkTstate 1 0 true false }
    c.thread.regPoison 0 = false ∧ c.thread.reg 0 = 0 ∧ c.thread.loops.length = 6 ∧ c0.thread.loops.length ≠ 6 ∧ c.Handles ∧
    c.thread.floor < c.thread.depth ∧ c0.thread.depth ≤ c0.thread.floor ∧ u.thread.depth ≤ u.thread.floor ∧ u.Handles ∧
    (level 0 2).index.toNat + 1 < (level 0 2).count.toNat ∧ (level 1 2).count.toNat ≤ (level 1 2).index.toNat + 1 := by
  refine ⟨?_, ?_, ?_, ?_, ⟨?_, ?_⟩, ?_, ?_, ?_, ⟨?_, ?_⟩, ?_, ?_⟩ <;> decide
/-- R113: the end of an iteration with one left, and of the last. -/
theorem test_endcheck : endCheck 0 0x10004 [level 0 2] = ([level 1 2], 0x10000, true) ∧ endCheck 0 0x10004 [level 1 2] = ([], 0x10004, true) ∧
    endCheck 1 0x10004 [level 0 2] = ([level 0 2], 0x10004, false) := by decide

/-- ComposerResults: fields of width 1 and 64, template offsets inside, misaligned and beyond, H of 255 and 256. -/
theorem test_meets_Composer : (0 : BitVec 6).toNat + (63 : BitVec 6).toNat + 1 ≤ 64 ∧ c0.thread.regPoison 1 = false ∧
    (c0.thread.reg 1 + BitVec.ofInt 64 ((1022 : BitVec 13).toInt * 4)).toNat + 8 ≤ c0.id.templSize ∧
    c0.id.templSize < (c0.thread.reg 1 + BitVec.ofInt 64 ((1023 : BitVec 13).toInt * 4)).toNat + 8 ∧
    (let c := thr fun t => { (t.setReg 1 2 false).setReg 2 256 false with tvec := 0x100 }
     (c.thread.reg 1 + BitVec.ofInt 64 ((0 : BitVec 13).toInt * 4)).toNat % 4 ≠ 0 ∧ (c.thread.reg 1).toNat < 256 ∧ 256 ≤ (c.thread.reg 2).toNat ∧
     c.thread.inTrap = false ∧ c.thread.tvec ≠ 0) := by decide

/-- A queue entry for the tests. -/
def entry : QEntry :=
  { isDesc := false, header := 2, words := [(1, 0)], pc := 0x10000, seq := 0, nest := [], reps := 0, after := c0.thread, marks := false, skip := 0, seen := none }

/-- A context whose issue queue is full (R17). -/
def cFull : Context := { cH with queue := List.replicate 64 (.entry entry) }

/-- EmitResults, EmitTraps, EmitmResults, NsetResults: room and none, headers R58 allows and does not, a poisoned composer slot, a list of
32 writes, values in and out of range. -/
theorem test_meets_Emit : cH.qlevel < 64 ∧ cFull.qlevel = 64 ∧ ¬ ((0x02 : BitVec 7) = 0 ∧ (0 : BitVec 8) = 0) ∧
    ¬ ((0 : BitVec 1) = 0 ∧ (0 : BitVec 2) ≠ 0) ∧ (∀ i, i < 7 → (0x02 : BitVec 7).getLsbD i = true → cH.thread.compPoison i = false) ∧
    (thr fun t => t.setComp 1 0 true).thread.compPoison 1 = true ∧
    badHeader (w0.home32 0 0x20000) = true ∧
    badHeader ((w0.placeWord 0 0x20000 2).home32 0 0x20000) = false ∧ (w0.placeWord 0 0x20000 2).rangePoisoned 0 0x20000 12 = false ∧
    nestInRange 0 (cH.thread.reg 0) = true ∧ nestInRange 1 16 = false ∧
    (List.replicate 32 ({ n := 0, field := 0, value := 0 } : NestWrite)).length = 32 ∧ c0.management = false := by decide
/-- R118 by the words of spec/05's program: a bundle with the composer's MEM word, its pc and EMITSEQ 0. -/
theorem test_emit_pushes : after (exec (.emit 0 0 0 0 0 0x02) (at0 (thr fun t => t.setComp 1 0x80001 false)))
    (fun t => ctx0 t fun c => c.thread.emitSeq == 1 &&
      (match c.queue with
       | [.entry e] => e.header == 2 && e.words == [(1, 0x80001)] && e.pc == 0x10000 && e.seq == 0
       | _ => false)) = true := by decide
theorem test_emit_badhdr : after (exec (.emit 0 0 2 0 0 0x02) (at0 cH)) (fun t => ctx0 t fun c => c.thread.tcause == 6 && c.thread.tval == 0x202) = true := by
  decide

/-- CsrResults, CsrPrivilege: a read-write number, a read-only, a privileged, an unassigned one. -/
theorem test_meets_Csr : csrCheck c0.isFirmware false 0x44 = none ∧ csrCheck c0.isFirmware true 0x20 = none ∧ csrAccess 0x44 = .ro ∧
    csrAccess 0x100 = .privileged ∧ csrAccess 0x002F = .unassigned ∧ cH.firmware = false ∧ cH.management = false := by decide
theorem test_csrw_tvec : after (exec (.csrw 0x20 1 2) (at0 (thr fun t => { t.setReg 1 0x107 false with tvec := 0x200 })))
    (fun t => ctx0 t fun c => c.thread.tvec == 0x104 && c.thread.reg 2 == 0x200) = true := by decide
theorem test_csr_privilege : after (exec (.csrr 0x100 2) (at0 cH)) (fun t => ctx0 t fun c => c.thread.tcause == 5 && c.thread.tval == 0x100) = true := by
  decide

/-- GchkRule, FatalTrap, XretResults: a poisoned and a clean register; no handler, a handler that runs; T set with BUNDLE and with another
cause, U set, neither. -/
theorem test_meets_Traps : (thr fun t => t.setReg 1 0 true).thread.regPoison 1 = true ∧ c0.thread.regPoison 1 = false ∧ c0.thread.tvec = 0 ∧
    c0.sch.freeze = none ∧
    (thr fun t => { t with tstate := mkTstate 0 0 false true, tcause := 11 }).thread.inTrap = true ∧
    (thr fun t => { t with tstate := mkTstate 0 0 false true, tcause := 11 }).thread.tcause.toNat % 256 = 11 ∧
    (thr fun t => { t with tstate := mkTstate 0 0 true false }).thread.inUli = true ∧ cH.thread.inTrap = false ∧ cH.thread.inUli = false := by decide
/-- R130, R135. -/
theorem test_trapc : after (exec (.trapc 77) (at0 cH)) (fun t => ctx0 t fun c => c.thread.tcause == 9 && c.thread.tval == 77 && c.thread.tpc == 0x10004 &&
    c.thread.pc == 0x100 && c.thread.inTrap) = true := by decide
/-- R131. -/
theorem test_xret : after (exec (.trapc 77) (at0 cH)) (fun t => after (exec .xret t)
    (fun t => ctx0 t fun c => c.thread.pc == 0x10004 && !c.thread.inTrap)) = true := by decide

/-- A core with context 0 RESIDENT in slot 0 and context 1 of the same partition waiting for it. -/
def two : State :=
  ((at0 c0).setCtx 1 { c0 with status := .new, slot := none, sch := { c0.sch with wantingSince := some 0 } }).updCore 0
    (fun r => { r with slotPart := 0x10, slotWinF := 0x4000, slotWinW := 0x4000, slotWinC := 0x2000 })

/-- GeneratorWaits, YieldResults: the back end running and frozen, a record's address aligned to 256 and not; another context
of the partition wants the slot, and none does. -/
theorem test_meets_Waits : (1 : BitVec 2) ≠ 0 ∧ c0.intervalElapsed = false ∧ c0.beFrozen = false ∧ { cH with beFrozen := true }.beFrozen = true ∧
    (c0.thread.reg 0).toNat % 256 = 0 ∧ (thr fun t => t.setReg 1 8 false).thread.regPoison 1 = false ∧
    ((thr fun t => t.setReg 1 8 false).thread.reg 1).toNat % 256 ≠ 0 ∧ (at0 c0).yieldWanted 0 0 c0 = false ∧
    (two.yieldWanted 0 0 c0 = true) ∧ c0.slot = some 0 := by decide
/-- R128. -/
theorem test_yield : after (exec .yield two) (fun t => ctx0 t fun c => c.sch.yielding && c.thread.pc == 0x10004) = true := by decide

/-- An entry of the posted-collective table that is taken, of generation 3, with one instance. -/
def inst1 (st : InstState) : Inst where
  number := 0
  counted := true
  state := st
  rank := 9
  prev := 0
  alg := 0
  chunk := 4096
  taken := false
  cause := 0
  sub := 0
  before := none
  page := false
  stage := 0
def posted1 (st : InstState) : Posted := { Posted.free with generation := 3, used := true, insts := [inst1 st] }
/-- CqryResults: R134's handle with its instance in each state. -/
theorem test_meets_Cqry : let h : Word := 0x30005
    h.toNat < 2 ^ 32 ∧ h.toNat % 2 ^ 16 < 1024 ∧ (posted1 .posted).hold = false ∧ (posted1 .posted).generation.toNat = h.toNat / 2 ^ 16 ∧
    (posted1 .posted).tenant = c0.id.tenant ∧ (posted1 .fault).current.isSome = true ∧ (posted1 .done).used = true := by decide
theorem test_cqry : after (exec (.cqry 1 2) ((at0 (thr fun t => t.setReg 1 0x30005 false)).setPosted 0 5 (posted1 .running)))
    (fun t => ctx0 t fun c => c.thread.reg 2 == 0x93) = true ∧
    after (exec (.cqry 1 2) ((at0 (thr fun t => t.setReg 1 0x40005 false)).setPosted 0 5 (posted1 .running)))
    (fun t => ctx0 t fun c => c.thread.reg 2 == 15) = true := by decide

/-! ### The slot operations -/

/-- A bundle being issued by context 0, its fifth, in context cycle 40. -/
def env0 : SlotEnv :=
  { ctx := 0, idx := 5, cc := 40, scope := 0, rep := 1, pc := 0x10000, seq := 0, acts := [], fault := none, now := none, marks := false, cRead := none, holds := [],
    slackMtx := 8, slackCpy := 16, slackSyn := 16, nestAdd := 0 }

/-- The placed state with a context that issues that bundle. -/
def iss (c : Context) : State := { at0 c with slotEnv := some env0 }

/-- The bundle's record and context. -/
theorem issues (c : Context) : (iss c).Issues env0 c := ⟨rfl, State.ctx_setCtx_self ..⟩

/-- What holds of the bundle's record. -/
def record (t : State) (p : SlotEnv → Bool) : Bool :=
  match t.slotEnv with
  | some e => p e
  | none => false

/-- A copy word: FILL of tile 5 of buffer F, descriptor 2, token 3, channel 1. -/
def cpyW : CpyWord := { port := 0, fmt := 0, ss := 0, bf := 0, tile := 5, nest := 2, tok := 3, ch := 1 }

/-- A copy operation of an earlier bundle on channel 1, with all 27 descriptor fields given. -/
def copy1 (op : BitVec 6) (st : CopyState) (nest : List Word) : CopyOp where
  id := 0
  idx := 1
  op := op
  w := cpyW
  nest := nest
  zrel := 0
  pc := 0x10000
  seq := 7
  committed := true
  state := st
  done := 0
  got := []
  put := []
  sent := []
  beats := 0
  retries := 0
  barrier := none
  barrierVa := none
  remote := false

/-- A context with copy operations. -/
def withCopies (l : List CopyOp) : Context := { c0 with fl := { c0.fl with copyOps := l } }

/-- ControlResults: no earlier operation on the channel, and one. -/
theorem test_meets_Control : (∀ o ∈ (withCopies []).fl.copyOps, ¬ (o.idx < env0.idx ∧ o.w.ch = 1)) ∧
    (copy1 1 .running []).idx < env0.idx ∧ (copy1 1 .running []).w.ch = 1 ∧ (3 : BitVec 10) ≠ 0 := by decide
/-- R74: a WAITW below and at the write pointer. -/
theorem test_waitw : after (exec (.waitw 32 1) (iss (withCopies [copy1 1 .running []]))) (fun t => record t fun e => e.holds == [hSTREAM]) = true ∧
    after (exec (.waitw 0 1) (iss (withCopies [copy1 1 .running []]))) (fun t => record t fun e => e.holds == []) = true := by decide

/-- BufferAccess: a window of 2 tiles, its last tile inside, the next outside. -/
def cWin : Context := { c0 with id := { c0.id with winF := 0x200 } }
theorem test_meets_Buffer : (1 : Nat) < winLimit (cWin.window 0) ∧ ¬ ((2 : Nat) < winLimit (cWin.window 0)) ∧ (0 : BitVec 2) ≠ 3 := by decide
/-- R226, R227: a VST and, in the next bundle, a VLD of the same line takes its data; outside the window it reads zero. -/
theorem test_vst_outside : after (exec (.vst ⟨0, 0, 2, 0, 7⟩) (iss cWin)) (fun t => record t fun e => e.acts.length == 2) = true ∧
    after (exec (.vld ⟨0, 0, 2, 0, 7⟩) (iss cWin)) (fun t => ctx0 t fun c => match c.fl.journal with
      | [w] => w.due == 46 && w.target == .vreg 7 (BitVec.allOnes 64) 0
      | _ => false) = true := by decide +kernel

/-- PhaseResults: a tenant's PHASE with a scope and without, the firmware's. -/
theorem test_meets_Phase : c0.isFirmware = false ∧ { c0 with firmware := true }.isFirmware = true ∧ env0.scope = 0 ∧ c0.intervalElapsed = false ∧
    { env0 with scope := 2 }.scope ≠ 0 := by decide
/-- GlobalAccess: the landing entry of a VLDG, with the data of a page that is present (R229). -/
theorem test_vldg : after (exec (.vldg ⟨0x20000, 0, 0, 9⟩) (iss c0)) (fun t => ctx0 t fun c => match c.fl.landings with
    | [l] => l.due == 64 && l.v == 9 && l.todo.length == 1 && !l.arrived
    | _ => false) = true := by decide

/-- CopyIssue, CopyControl: a descriptor of one element keeps FEED's rule and breaks FILL's, one of 128 rows of 32 elements of 4 bytes keeps FILL's;
the firmware's word and a tenant's. -/
theorem test_meets_CopyIssue : let n := env0.nest c0 cpyW
    nestBreaks 3 cpyW n = false ∧ nestBreaks 1 cpyW n = true ∧
    nestBreaks 1 cpyW (((n.set 2 2).set 3 32).set 4 128) = false ∧ c0.tileOwner env0.idx 5 = none ∧
    rputBarrier 0 n = some 0 ∧ c0.firmware = false ∧ { c0 with firmware := true }.firmware = true := by
  refine ⟨?_, ?_, ?_, ?_, ?_, ?_, ?_⟩ <;> decide +kernel

/-- SyncIssue: an operation without an address, an aligned one that translates, and a misaligned one. -/
theorem test_meets_SyncIssue : let c : Context := { c0 with id := { c0.id with zrel := [(1, 0x20002)] } }
    (c0.zrel 0 + BitVec.ofNat 64 (8 * 4)).toNat % 32 = 0 ∧ translate (iss c0) c0 32 .store = .ok ⟨0, 32, 0, false, false⟩ ∧
    (c.zrel 1 + 0).toNat % 4 ≠ 0 ∧ translate (iss c) c 0x20002 .store = .ok ⟨0, 0x20002, 0, false, false⟩ ∧
    translate (iss c0) c0 32 .load = .ok ⟨0, 32, 0, false, false⟩ := by
  refine ⟨?_, ?_, ?_, ?_, ?_⟩ <;> decide

/-- MatrixIssue: formats of one class, of two, and a partition without a matrix engine. -/
theorem test_meets_MatrixIssue : ((iss c0).updDie 0 (fun d => { d with parts := [(0, { PartRegs.reset with eng := 1 })] })).noMatrix c0 = false ∧ fmtClass 0 = fmtClass 0 ∧ fmtClass 1 ≠ fmtClass 5 ∧
    (iss c0).noMatrix c0 = true ∧ (c0.fmtAt env0.cc).acc = 0 ∧
    fmtClass (c0.fmtAt env0.cc).a ≠ 4 := by decide

/-- The vector statements: an integer type, a floating one, the widest code; VCHK of a clean and a poisoned register and predicate. -/
theorem test_meets_Vector : 3 ≤ (vw 3 0 0 0 0).ty.toNat ∧ (vw 8 0 0 0 0).ty.toNat ≤ 8 ∧ (vw 2 0 0 0 0).ty.toNat ≤ 2 ∧ (vw 10 0 0 0 0).ty.toNat ≤ 10 ∧
    1 ≤ (vw 1 0 0 0 0).ty.toNat ∧ ((c0.vview 40).reg 5).2 = false ∧ ((c0.vview 40).pred 5).2 = false ∧
    (let c : Context := { c0 with be := { c0.be with vec := { c0.be.vec with poison := 32, qpoison := 32 } } }
     ((c.vview 40).reg 5).2 = true ∧ ((c.vview 40).pred 5).2 = true) ∧ (vw 0 0 5 0 1).vc = 1 ∧ (vw 0 5 0 0 1).vd ≠ 0 := by decide +kernel
/-- R210, R206: a saturating sum of int8 lanes, two context cycles later, with SATF at the commit. -/
theorem test_vadd_saturates : after (exec (.vadd .x (vw 7 2 1 1 0 0 0 1)) (iss { c0 with be := { c0.be with vec := { c0.be.vec with regs := [(1, 100)] } } }))
    (fun t => record t (fun e => e.acts == [.flags (flSATF.setWidth 64)]) && ctx0 t fun c => match c.fl.journal with
      | [w] => w.due == 42 && (match w.target with | .vreg r _ d => r == 2 && lane d 8 0 == 127 && lane d 8 1 == 0 | _ => false)
      | _ => false) = true := by decide +kernel
/-- R211: 1.5 × 2 + 1 in binary32, four context cycles later. -/
theorem test_vfma : after (exec (.vfma .x (vw 0 4 1 2 3))
      (iss { c0 with be := { c0.be with vec := { c0.be.vec with regs := [(1, 0x3FC00000), (2, 0x40000000), (3, 0x3F800000)] } } }))
    (fun t => ctx0 t fun c => match c.fl.journal with
      | [w] => w.due == 44 && (match w.target with | .vreg _ _ d => lane d 32 0 == 0x40800000 | _ => false)
      | _ => false) = true := by decide +kernel

/-! ### The part's own steps: cycles, the scheduler, checkpoints, traps, ordering -/

/-- A context with its in-flight work changed. -/
def flt (f : InFlight → InFlight) : Context := { c0 with fl := f c0.fl, ctxcyc := 50 }
/-- A context with its scheduling state changed. -/
def sched (f : SchedInfo → SchedInfo) : Context := { c0 with sch := f c0.sch }

/-- CoreCycleResults: the slot table's turn, a result and a format that are due, a spin that is over and one past its limit. -/
theorem test_meets_FollowUps :
    let tab := w0.updCore 0 (fun r => { r with cycle := 63, slotTableNext := some [1, 2, 3, 4] })
    let due := flt fun f => { f with
      journal := [{ due := 49, idx := 0, ord := 0, target := .vreg 3 1 7, poison := false }]
      pendingFmt := [{ due := 50, idx := 0, fmt := ⟨1, 1, 0⟩ }] }
    let spins : Context := { c0 with wait := .spin 0 }
    let past := sched fun x => { x with spinCount := 8193 }
    ((tab.core 0).cycle + 1).toNat % 64 = 0 ∧ after (exec (.slotTableUpdate 0) tab) (fun t => (t.core 0).slotTable == [1, 2, 3, 4]) = true ∧
    0 < due.committedBelow ∧
    after (exec (.vectorResultDue 0) (at0 due)) (fun t => ctx0 t fun c => c.fl.journal == [] && c.be.vec.regs == [(3, 7)]) = true ∧
    after (exec (.fmtTakesEffect 0) (at0 due)) (fun t => ctx0 t fun c => c.be.fmt.a == 1) = true ∧
    spins.runs = true ∧ spins.stopped = false ∧
    after (exec (.spinTimeout 0) ((at0 spins).updCore 0 fun r => { r with cycle := 64 })) (fun t => ctx0 t fun c => c.wait == .none && c.thread.pc == 0x10004) = true ∧
    after (exec (.spinLimitReached 0) (at0 past)) (fun t => ctx0 t fun c => c.sch.spinning) = true := by decide +kernel

/-- CoreCycleResults: a retired core, a freeze cycle (the weights of 63 cycles past PLIM), a cycle after no weight; an owner that spends the
cycle, and the flex candidate where the entry has none. -/
theorem test_meets_CoreCycle :
    let env : CycleEnv := { miss := 0, chans := 0 }
    let heavy := w0.updCore 0 (fun r => { r with weights := [3000] })
    let owner := w0.updCore 0 (fun r => { r with slotTable := [0, 0, 0, 0], slotPart := 0x10 })
    after (exec (.coreCycle 0 env) (w0.updCore 0 (fun r => { r with retired := true }))) (fun t => (t.core 0).cycle == 0) = true ∧
    0 < (((heavy.updCore 0 Core.advance).countCycle 0).core 0).weights.sum ∧
    (∀ n, (((heavy.updCore 0 Core.advance).countCycle 0).core 0).plim.toNat % 2 ^ 20 <
      (((heavy.updCore 0 Core.advance).countCycle 0).core 0).weights.sum + n) ∧
    (((w0.updCore 0 Core.advance).countCycle 0).core 0).weights.sum = 0 ∧ owner.entryOwner 0 = some 0 ∧
    (match attempt owner 0 with | .cycle _ _ => true | _ => false) = true ∧ w0.entryOwner 0 = none := by
  refine ⟨by decide +kernel, by decide +kernel, fun n => Nat.lt_of_lt_of_le ?_ (Nat.le_add_right _ n), by decide +kernel, by decide +kernel,
    by decide +kernel, by decide +kernel⟩
  decide +kernel

/-- SchedulerTimers: a die cycle with a window start due, with a decay due, with neither, after both; slices, RESLATE and COLDCAND. -/
theorem test_meets_Timers :
    let die (f : Die → Die) : State := w0.updDie 0 f
    let win := die fun d => { d with dieCycle := 2 ^ 20 - 1 }
    let dec := die fun d => { d with dieCycle := 1023 }
    let rec1 := die fun d => { d with cycleStep := 1, dieCycle := 2 ^ 20, fair := [(3, { FairRec.empty with valid := true, boost := 9 })] }
    let rec2 := die fun d => { d with cycleStep := 2, fair := [(3, { FairRec.empty with valid := true, level := 4 })] }
    let late := { sched (fun x => { x with wantingSince := some 0 }) with status := .new, slot := none }
    let cold := { sched (fun x => { x with coldSince := 0 }) with status := .nonres, slot := none, wait := .page }
    let now (s : State) : State := (s.updCore 0 (fun r => { r with cycle := 100 })).updDie 0
      (fun d => { d with coldage := 99, parts := [(0, { PartRegs.reset with pdl := 99 })] })
    ({ win.die 0 with dieCycle := 2 ^ 20 } : Die).windowDue = true ∧
    after (exec (.dieCycle 0) win) (fun t => t.agenda.head? == some (.ev (.fairnessWindowStart 0))) = true ∧
    ({ dec.die 0 with dieCycle := 1024 } : Die).windowDue = false ∧ ({ dec.die 0 with dieCycle := 1024 } : Die).decayDue = true ∧
    after (exec (.dieCycle 0) dec) (fun t => t.agenda.head? == some (.ev (.boostDecay 0))) = true ∧
    ({ w0.die 0 with dieCycle := 1 } : Die).windowDue = false ∧ ({ w0.die 0 with dieCycle := 1 } : Die).decayDue = false ∧
    after (exec (.fairnessWindowStart 0) rec1) (fun t => ((t.die 0).fair.map (·.2.boost)) == [0]) = true ∧
    after (exec (.boostDecay 0) rec2) (fun t => ((t.die 0).fair.map (·.2.level)) == [3]) = true ∧
    after (exec (.sliceEnd 0) (at0 (sched fun x => { x with sliceDue := true, sliceStart := 5 }))) (fun t => ctx0 t fun c => c.sch.sliceStart == 0) = true ∧
    after (exec (.sliceEnd 0) (two.setCtx 0 (sched fun x => { x with sliceDue := true }))) (fun t => ctx0 t fun c => c.sch.preempt.isSome) = true ∧
    after (exec (.reslate 0) (now (at0 late))) (fun t => ctx0 t fun c => c.sch.reslated) = true ∧ cold.wanting 100 = false ∧
    after (exec (.coldcand 0) (now (at0 cold))) (fun t => ctx0 t fun c => c.sch.coldReported) = true := by decide +kernel

/-- A checkpoint's marker. -/
def mark : Marker :=
  { idx := 1, thread := c0.thread, shadow := c0.be, lines := [], own := [], items := [], spoiled := false, waits := false, bundle := false }
/-- A context with checkpoints. -/
def chk (f : Checkpoints → Checkpoints) : Context := { c0 with chk := f c0.chk }
/-- A context that is being pre-empted. -/
def pre (p : Preempt) (latest : Option Marker) : Context := { sched (fun x => { x with preempt := some p }) with chk := { c0.chk with latest := latest } }
/-- A landing ring entry is in memory at 0x30000. -/
def ring : LandRing := { head := 0, tail := 1, replaying := true, refusedSince := false }

/-- ResidencyResults: markers, drains, rollbacks of an eligible context and of one that is not, a restore, HALT's two ends, DRAINQ, replays with an
entry and without. -/
theorem test_meets_Residency :
    after (exec (.checkpointLatest 0) (at0 (chk fun k => { k with pendingMarker := some mark }))) (fun t => ctx0 t fun c => c.ckptseq == 1) = true ∧
    after (exec (.intervalCheckpoint 0) (at0 { thr (fun t => { t with ckptint := 5 }) with chk := { c0.chk with since := 6 } }))
      (fun t => ctx0 t fun c => c.queue.length == 1) = true ∧
    (pre .drain none).drained = true ∧
    after (exec (.contextDrain 0) (at0 (pre .drain none))) (fun t => ctx0 t fun c => c.status == .nonres && c.slot == none) = true ∧
    (pre .rollback (some mark)).stopped = true ∧ (pre .rollback (some mark)).eligible = true ∧ (pre .rollback none).eligible = false ∧
    after (exec (.rollback 0) (at0 (pre .rollback (some mark)))) (fun t => ctx0 t fun c => c.status == .nonres && c.slot == none) = true ∧
    after (exec (.rollback 0) (at0 (pre .rollback none))) (fun t => ctx0 t fun c => c.sch.preempt == some .drain) = true ∧
    after (exec (.contextRestore 0) (at0 { c0 with status := .nonres })) (fun t => ctx0 t fun c => c.status == .resident) = true ∧
    { c0 with wait := .halt }.haltReady = true ∧
    after (exec (.haltComplete 0) (at0 { c0 with wait := .halt })) (fun t => ctx0 t fun c => c.wait == .haltPhase && c.ord.phases.length == 1) = true ∧
    { c0 with wait := .haltPhase }.haltReady = true ∧
    after (exec (.haltComplete 0) (at0 { c0 with wait := .haltPhase })) (fun t => ctx0 t fun c => c.status == .halted) = true ∧
    after (exec (.drainqComplete 0) (at0 { c0 with wait := .drainq })) (fun t => ctx0 t fun c => c.wait == .none && c.thread.pc == 0x10004) = true ∧
    after (exec (.landingReplay 0) (at0 { c0 with land := { ring with tail := 0 } })) (fun t => ctx0 t fun c => !c.land.replaying) = true ∧
    after (exec (.landingReplay 0) (at0 { c0 with land := ring })) (fun t => ctx0 t fun c => c.land.head == 1) = true ∧
    (let r : Refetch := { buf := 0, tile := 5, op := 1, w := cpyW, nest := List.replicate 27 0, zrel := 0 }
     let c := sched fun x => { x with refetch := [r], toRefetch := [r] }
     c.isFrozen = false ∧
     after (exec (.tileRefetch 0) (at0 c)) (fun t => ctx0 t fun c => c.fl.nextId == 1) = true) := by decide +kernel

/-- A freeze. -/
def frz (fatal settled : Bool) (dumped : Option (Option Word)) : Context := sched fun x => { x with
  freeze := some { cause := ⟨0, 9, 0, 0⟩, fatal := fatal, settled := settled, dumped := dumped, order := 0, frost := [], cycle := 0 } }

/-- FreezeResults: BUNDLE and interrupts that are due. -/
theorem test_meets_BundleTrap :
    let bt (c : Context) : Context := { c with bundleTrap := true, beFrozen := true }
    let uli := thr fun t => { t with ulivec := 0x300, ulipend := 4, ulimask := 4 }
    (bt cH).bundleTrapDue = true ∧ (bt c0).bundleTrapDue = true ∧
    after (exec (.bundleTrap 0) (at0 (bt cH))) (fun t => ctx0 t fun c => c.thread.pc == 0x100 && c.thread.tcause == 11) = true ∧
    after (exec (.bundleTrap 0) (at0 (bt c0))) (fun t => ctx0 t fun c => c.sch.freeze.isSome) = true ∧
    uli.uliDue = true ∧ after (exec (.uliDelivery 0) (at0 uli)) (fun t => ctx0 t fun c => c.thread.pc == 0x300 && c.thread.ulipc == 0x10000) = true := by
  decide +kernel

/-- FreezeResults: the stages of a freeze with no dump area and with one, the watchdog, THAW. -/
theorem test_meets_Freeze :
    let dog := sched fun x => { x with wdCount := 0x100000000 }
    after (exec (.fatalTrap 0) (at0 (frz true false none))) (fun t => ctx0 t fun c => c.sch.freeze.any (·.settled)) = true ∧
    after (exec (.contextDead 0) (at0 (frz true true (some none)))) (fun t => ctx0 t fun c => c.status == .dead) = true ∧
    (at0 dog).watchdogDue dog = true ∧
    after (exec (.watchdogFire 0) (at0 dog)) (fun t => ctx0 t fun c => c.sch.freeze.any (fun f => !f.fatal)) = true ∧
    after (exec (.watchdogFire 0) (at0 (frz false true (some none)))) (fun t => ctx0 t fun c => c.sch.wdFrozen) = true ∧
    after (exec (.thaw 0 0x80000000) (at0 (sched fun x => { x with wdFrozen := true }))) (fun t => ctx0 t fun c => !c.sch.wdFrozen) = true := by
  decide +kernel

/-- FreezeResults: a dump that is lost for want of an area, and one that is the oldest. -/
theorem test_meets_Dump_lost : after (exec (.rimeDump 0) (at0 (frz true true none)))
      (fun t => ctx0 t fun c => c.sch.freeze.any (·.dumped == some none)) = true ∧
    (frz true true none).sch.freeze.any (fun f => !(at0 (frz true true none)).earlierDump 0 f && f.frost == []) = true := by decide +kernel

/-! A dump that fits (FreezeResults): the lengths of its sections. -/

/-- A dump area of 2 slots of 4 MiB. -/
def area : DumpRegs := { DumpRegs.reset with dgeom := 0x200000400 }

theorem leBytes_length (n v : Nat) : (leBytes n v).length = n := by
  induction n generalizing v with
  | zero => rfl
  | succ n ih => simp [leBytes, ih]
theorem flatMap_length_const {α : Type} (l : List α) (f : α → List Byte) (n : Nat) (h : ∀ x, (f x).length = n) :
    (l.flatMap f).length = l.length * n := by
  induction l with
  | nil => simp
  | cons x l ih => simp [List.flatMap_cons, h, ih, Nat.succ_mul, Nat.add_comm]
theorem vectorSection_length (c : Context) : (vectorSection c).length = 65992 := by
  unfold vectorSection bytesOfLine u64
  simp only [List.length_append, flatMap_length_const _ _ _ (fun _ => leBytes_length _ _), leBytes_length, List.length_range]
theorem stream_length (x : Stream) : x.bytes.length = 131592 := by
  unfold Stream.bytes u8 u32
  simp only [List.length_append, flatMap_length_const _ _ _ (fun _ => leBytes_length _ _), leBytes_length, List.length_range]
theorem copyStat_length (x : CopyStat) : x.bytes.length = 128 := by
  unfold CopyStat.bytes
  simp only [List.length_append, flatMap_length_const _ _ _ (fun _ => leBytes_length _ _), leBytes_length, List.length_range]
theorem pad_length (n : Nat) (b : List Byte) : (pad n b).length = n := by
  unfold pad; simp

theorem dumpLength_twelve (a b c d e g h i j k l m : List Byte) :
    dumpLength [(1, a), (2, b), (3, c), (4, d), (5, e), (7, g), (8, h), (9, i), (10, j), (11, k), (12, l), (13, m)] =
      280 + a.length + b.length + c.length + d.length + e.length + g.length + h.length + i.length + j.length + k.length + l.length + m.length := rfl
theorem dumpSections_bare (s : State) (c : Context) (f : Freeze) : dumpSections s c f false =
    [(1, c.thread.bytes), (2, csrSection s c), (3, queueSection c), (4, replaySection c), (5, vectorSection c), (7, backSection s c),
     (8, copySection c), (9, syncSection s c), (10, phaseSection c), (11, landingSection s c), (12, frostSection c f),
     (13, c.ord.asyncLog.flatMap AsyncRec.bytes)] := by
  unfold dumpSections; simp only [Bool.false_eq_true, if_false, List.append_nil, List.cons_append, List.nil_append]
theorem dumpLength_bare (s : State) (c : Context) (f : Freeze) : dumpLength (dumpSections s c f false) = 280 + c.thread.bytes.length +
    (csrSection s c).length + (queueSection c).length + (replaySection c).length + (vectorSection c).length + (backSection s c).length +
    (copySection c).length + (syncSection s c).length + (phaseSection c).length + (landingSection s c).length + (frostSection c f).length +
    (c.ord.asyncLog.flatMap AsyncRec.bytes).length := by
  rw [dumpSections_bare, dumpLength_twelve]
theorem fitting_bare (s : State) (c : Context) (f : Freeze) (d : DumpRegs) (hs : d.hasSlot = true) (hw : d.dcfg.getLsbD 0 = false)
    (hl : dumpLength (dumpSections s c f false) ≤ d.slotSize) : (fitting s c f d).isSome = true := by
  unfold fitting
  simp only [hw, hs, hl, Bool.not_true, Bool.false_eq_true, if_false, if_true, Option.isSome_some]

/-- The lengths of a dump's sections in a context with no work in flight. -/
theorem test_meets_Dump (s : State) (f : Freeze) : f.frost = [] → (fitting s (frz true true none) f area).isSome = true := by
  intro hf
  have h1 : (frz true true none).thread.bytes.length = 1312 := by
    unfold Thread.bytes u64 u32 u16 u8
    simp only [List.length_append, flatMap_length_const _ _ _ (fun _ => leBytes_length _ _), leBytes_length, List.length_range, pad_length]
  have h2 : (csrSection s (frz true true none)).length = dumpCsrs.length * 8 + 8 := by
    unfold csrSection u64
    simp only [List.length_append, flatMap_length_const _ _ _ (fun _ => leBytes_length _ _), leBytes_length]
  have h2' : dumpCsrs.length ≤ 256 := by
    unfold dumpCsrs; exact Nat.le_trans (List.length_filter_le ..) (by simp)
  have h3 : (queueSection (frz true true none)).length = 8 := by decide
  have h4 : (replaySection (frz true true none)).length = 88 := by decide
  have h7 : (backSection s (frz true true none)).length ≤ 2 * 131592 + 400 := by
    have e : (frz true true none).fmtPending = none := by decide
    unfold backSection; rw [e]; unfold u64 u32 u16 u8
    simp only [List.length_append, flatMap_length_const _ _ _ (fun _ => leBytes_length _ _), leBytes_length, List.length_range, stream_length,
      show dumpSteps.length = 19 from by decide]
    decide
  have h8 : (copySection (frz true true none)).length = 520 := by
    unfold copySection u8
    simp only [List.length_append, flatMap_length_const _ _ _ (fun _ => leBytes_length _ _), flatMap_length_const _ _ _ (fun _ => copyStat_length _),
      List.length_range]
  have h9 : syncSection s (frz true true none) = [] := rfl
  have h10 : (phaseSection (frz true true none)).length = 8 := by decide
  have h11 : (landingSection s (frz true true none)).length = 16 := by
    show (u32 0 ++ u32 0 ++ [] ++ u32 0 ++ u32 0 ++ []).length = 16
    simp [u32, leBytes_length]
  have h12 : frostSection (frz true true none) f = [] := by unfold frostSection; rw [hf]; rfl
  have h13 : (frz true true none).ord.asyncLog.flatMap AsyncRec.bytes = [] := rfl
  have hl : dumpLength (dumpSections s (frz true true none) f false) ≤ area.slotSize := by
    refine Nat.le_trans (Nat.le_of_eq (dumpLength_bare s (frz true true none) f)) (Nat.le_trans ?_ (show 400000 ≤ area.slotSize by decide))
    rw [h1, h2, h3, h4, vectorSection_length, h8, h9, h10, h11, h12, h13]
    simp only [List.length_nil]
    omega
  exact fitting_bare s (frz true true none) f area (by decide) (by decide) hl

/-- An issued bundle with nothing to do. -/
def issued (fault : Option (Nat × XFault)) : Issued :=
  { idx := 1, cc := 41, entry := entry, undo := c0.be.undo, acts := [], fault := fault, marks := false, cRead := none }
/-- A landing entry of register v9. -/
def landing (todo : List LoadPart) (arrived : Bool) : Landing :=
  { idx := 1, due := 50, v := 9, kind := 0, mask := BitVec.allOnes 64, data := 0, poison := false, todo := todo, arrived := arrived, phaseNo := 0 }
/-- A write on its way to line 0x20000. -/
def sentWrite : PbEntry := { va := 0x20000, loc := ⟨0, 0x20000, 0, false, false⟩, mask := 3, data := 0x2211, poison := false }
/-- A context with its ordering state changed. -/
def ordc (f : OrdState → OrdState) : Context := { c0 with ord := f c0.ord }
/-- A PHASE at SYS of the thread's PHASEG. -/
def phase1 (sent : Bool) : Phase := { owner := .phaseg, scope := 3, sent := sent, after := [], phaseNo := 0 }

/-- OrderingResults: bundles that commit and fault, loads, landings, the transit set, PHASEs. -/
theorem test_meets_Ordering :
    let ok := flt fun f => { f with issued := [issued none], issueIdx := 2 }
    let bad := flt fun f => { f with issued := [issued (some (1, ⟨4, 0x999⟩))], issueIdx := 2 }
    let part : LoadPart := ⟨0, 0x20000, some ⟨0, 0x20000, 0, false, false⟩, 64, false⟩
    let load := flt fun f => { f with landings := [landing [part] false], issueIdx := 2 }
    let come := flt fun f => { f with landings := [landing [] false], issueIdx := 2 }
    let due := flt fun f => { f with landings := [landing [] true], issueIdx := 2 }
    let fly := ordc fun o => { o with transit := [sentWrite] }
    let send := { ordc (fun o => { o with pbuf := [sentWrite], phases := [phase1 false] }) with wait := .phaseg }
    let done := { ordc (fun o => { o with phases := [phase1 true] }) with wait := .phaseg }
    after (exec (.bundleCommit 0) (at0 ok)) (fun t => ctx0 t fun c => c.fl.issued == []) = true ∧
    after (exec (.bundleCommit 0) (at0 bad)) (fun t => ctx0 t fun c => c.bundleTrap && c.thread.bfaddr == 0x999 && c.thread.bfslot == 1) = true ∧
    isNotPres 4 = false ∧ load.loadReady (landing [part] false) [part] = true ∧
    after (exec (.loadPerform 0 (.landing 0 0)) ((at0 load).homeWriteBytes 0 0x20000 [7] false false))
      (fun t => ctx0 t fun c => c.fl.landings.all (fun l => l.todo == [] && l.data == 7)) = true ∧
    after (exec (.landingDataArrives 0 0) (at0 come)) (fun t => ctx0 t fun c => c.fl.landings.all (·.arrived)) = true ∧
    after (exec (.timedLanding 0) (at0 due)) (fun t => ctx0 t fun c => c.fl.landings == []) = true ∧
    after (exec (.transitWriteApply 0 0) (at0 fly)) (fun t => t.memByte 0x20000 == 0x11 && t.memByte 0x20001 == 0x22 && t.memByte 0x20002 == 0 &&
      ctx0 t fun c => c.ord.transit == []) = true ∧ (at0 fly).MemWf ∧
    send.phaseMaySend 0 (phase1 false) = true ∧
    after (exec (.phaseSend 0 0) (at0 send)) (fun t => ctx0 t fun c => c.ord.transit == [sentWrite] && c.ord.pbuf == []) = true ∧
    done.phaseApplied (phase1 true) = true ∧
    after (exec (.phaseComplete 0 0) (at0 done)) (fun t => ctx0 t fun c => c.ord.phases == [] && c.wait == .none && c.thread.pc == 0x10004) = true := by
  refine ⟨?_, ?_, ?_, ?_, ?_, ?_, ?_, ?_, ?_, ?_, ?_, ?_, ?_⟩ <;> first | decide +kernel | rfl

/-! ### The part's own steps: the engines -/

/-- What holds of the head of channel 1. -/
def head1 (t : State) (p : CopyOp → Bool) : Bool := ctx0 t fun c => (c.copyHead 1).any p
/-- The placed state with one copy operation. -/
def cp (o : CopyOp) : State := (at0 { withCopies [o] with fl := { (withCopies [o]).fl with issueIdx := 6 }, ctxcyc := 50 }).updCore 0 fun r =>
  { r with chanLines := [(1, 4)], ctxNow := some (0, 48) }
/-- A descriptor: zeros but for the given fields. -/
def nestOf (l : List (Nat × Word)) : List Word := (List.range 27).map (fun f => SMap.getD l f 0)
/-- A tile's worth of 4-byte elements from ZREL + 0x20000: 64 rows of 64. -/
def nestTile : List Word := nestOf [(0, 0x20000), (2, 2), (3, 64), (4, 64), (9, 4), (10, 256)]
/-- Four elements of 4 bytes there: one chunk. -/
def nestFour : List Word := nestOf [(0, 0x20000), (2, 2), (3, 4), (9, 4)]
/-- The tile's first bytes are in memory. -/
def cpMem (o : CopyOp) : State := (cp o).homeWriteBytes 0 0x20000 [1, 2, 3, 4] false false

/-- CopyResults: an operation begins, delivers a chunk in its turn, waits for its lines, is read ahead, faults. -/
theorem test_meets_CopyBegin :
    let o := copy1 1 .queued nestTile
    ((cp o).core 0).frozen = false ∧
    after (exec (.copyOpBegin 0 1) (cp o)) (fun t => head1 t fun o => o.state == .running) = true := by decide +kernel
theorem test_meets_CopyFill : after (exec (.copyChunk 0 1 none) (cpMem (copy1 1 .running nestFour)))
      (fun t => head1 t (fun o => o.done == 1) && ctx0 t fun c => (t.readLine c 0 5 0).data == 0x04030201) = true ∧
    after (exec (.copyChunk 0 1 (some 0)) (cpMem (copy1 1 .running nestTile))) (fun t => head1 t fun o =>
      o.done == 0 && o.got == [(0, [(1, false), (2, false), (3, false), (4, false)])]) = true ∧
    (copy1 1 .running nestTile).readAt 0 = some (0x20000, 4) ∧
    (((cp (copy1 1 .running nestTile)).updCore 0 fun r => { r with chanLines := [] }).core 0).hasMoved 1 256 = false := by
  decide +kernel
theorem test_meets_CopyFault : after (exec (.copyChunk 0 1 none) (cp { copy1 1 .running nestFour with zrel := 0x40000000 }))
      (fun t => head1 t (fun o => o.state == .suspended) && ctx0 t fun c => (c.stat 1).state == 2 && (c.stat 1).addr == 0x40020000) = true := by
  decide +kernel
theorem test_meets_CopyRput : after (exec (.copyChunk 0 1 none) (cp (copy1 7 .running nestTile)))
    (fun t => head1 t fun o => o.state == .sent && o.sent.length == 256) = true := by decide +kernel
theorem test_meets_CopyFeed : after (exec (.feedBeatLand 0 1) (cp (copy1 3 .running (nestOf [(3, 2)]))))
    (fun t => ctx0 t fun c => c.be.sa.produced == 1 && c.be.sb.produced == 0 && c.be.sa.slots.length == 1) = true ∧
    c0.streamRoom false = true := by decide +kernel

/-- A DRAIN of one row of 64 elements into memory (R153). -/
theorem test_meets_CopyDrain : let s := cp (copy1 5 .running nestFour)
    after (exec (.copyChunk 0 1 none) (s.updCore 0 fun r => { r with lines := [(bufKey 0 5 0, { data := 0x66, poison := false })] }))
      (fun t => t.memByte 0x20000 == 0x66 && head1 t fun o => o.done == 1) = true ∧ s.MemWf ∧
    after (exec (.copyChunk 0 1 (some 0)) (s.updCore 0 fun r => { r with lines := [(bufKey 0 5 0, { data := 0x66 * 2 ^ 32, poison := false })] }))
      (fun t => t.memByte 0x20004 == 0x66 && head1 t (fun o => o.done == 0 && o.put == [0x20000]) && (t.core 0).chanAt == [(1, 0x800)]) = true := by
  refine ⟨by decide +kernel, rfl, by decide +kernel⟩

/-- CopyResults: an ADDW's row that is ready, its port's cycle, and a clash with a matrix operation that writes. -/
def addw1 : CopyOp := { copy1 6 .running nestTile with put := [0], got := (List.range 64).map fun n => (n, List.replicate 4 (0, false)) }
def mtx1 (op : BitVec 6) (groups rows : Nat) : MtxOp where
  id := 0
  idx := 1
  op := op
  w := ⟨0, 0, 0, 0, 0, 0, 1, 0, 0, 1, 1⟩
  fmt := ⟨0, 0, 0⟩
  baseA := 0
  baseB := 0
  pc := 0
  seq := 0
  committed := true
  commitCycle := 0xFFFFFFFFFFFFFFFF
  state := .begun
  begunAt := 0
  loaded := 0
  inArray := false
  groups := groups
  plane := List.replicate 4096 0
  mis := false
  bad := false
  flags := 0
  loadPoison := []
  rows := rows
theorem test_meets_Addw :
    let s := cp addw1
    let d := s.updCore 0 fun r => { r with bankWrites := 15 }
    (s.core 0).ctxNow = some (0, 48) ∧ 48 % 4 = addw1.w.port.toNat ∧ addw1.beats ≠ 48 + 1 ∧
    after (exec (.addwRowWrite 0 1 0) s) (fun t => head1 t fun o => o.done == 1 && o.put == []) = true ∧
    after (exec (.copyChunk 0 1 none) (cp { addw1 with put := [] })) (fun t => head1 t fun o => o.done == 0 && o.put == [0]) = true ∧
    after (exec (.addwRowWrite 0 1 0) d) (fun t => ctx0 t fun c => c.bundleTrap) = true := by decide +kernel

/-- CopyResults: a fragment refused, taken, and answered RETRY by a full ring; the answers and the back-off (R157, R158). -/
theorem test_meets_Fragment :
    let o := { copy1 7 .sent (nestOf [(3, 4)]) with sent := [(1, false)] }
    let s := cp o
    let no := cp { o with nest := nestOf [(24, 9)] }
    let ring := (cp { o with nest := nestOf [(24, 1)] }).setCtx 1 { c0 with status := .nonres, slot := none, land := { ring with tail := 8 } }
    after (exec (.fragmentArrival 0 1) s) (fun t => head1 t fun o => o.state == .answered true false) = true ∧ no.reachable 9 0 = some 2 ∧
    after (exec (.fragmentArrival 0 1) no) (fun t => head1 t fun o => o.state == .answered false false) = true ∧
    after (exec (.fragmentArrival 0 1) ring) (fun t => head1 t fun o => o.state == .answered false true) = true ∧
    after (exec (.fragmentResponse 0 1) (cp (copy1 7 (.answered true false) nestTile))) (fun t => head1 t fun o => o.done == 1) = true ∧
    after (exec (.fragmentResponse 0 1) (cp (copy1 7 (.answered false true) nestTile))) (fun t => head1 t fun o => o.state == .backoff 1 512) = true ∧
    after (exec (.rputBackoffExpiry 0 1) (cp (copy1 7 (.backoff 1 0) nestTile))) (fun t => head1 t fun o => o.state == .sent) = true := by
  decide +kernel

/-- A sync operation. -/
def sync1 (op : BitVec 6) (st : SyncState) : SyncOp where
  id := 0
  idx := 1
  phaseNo := 0
  op := op
  w := ⟨0, 0, 0, 0, 0, 0, 0⟩
  scope := 0
  va := 0x20000
  loc := ⟨0, 0x20000, 0, false, false⟩
  operand := 5
  poison := false
  pc := 0x10000
  seq := 0
  state := st
/-- The placed state with one sync operation. -/
def sy (o : SyncOp) : State := at0 (flt fun f => { f with syncOps := [o], issueIdx := 6 })
/-- What holds of context 0's first sync operation. -/
def sync0 (t : State) (p : SyncOp → Bool) : Bool := ctx0 t fun c => c.fl.syncOps.head?.any p

/-- SyncResults: a credit, an atomic, SIG, an interrupt, SFENCE, their answers, BUSY, refusals with room in the log and without. -/
theorem test_meets_Sync :
    let cred : State := { w0 with credits := [{ loc := ⟨0, 0x20000, 0, false, false⟩, bytes := 64, poison := false }] }
    let target := (sy { sync1 16 .ready with operand := 1 }).setCtx 1 { c0 with slot := none }
    let log (n : Nat) : State := at0 { flt (fun f => { f with syncOps := [sync1 14 (.refused 2)] }) with
      ord := { c0.ord with asyncLog := List.replicate n ⟨0, 0, 0, 0, 0, 0, 1, 0⟩ } }
    after (exec (.barrierCredit 0) cred) (fun t => t.credits == [] && t.memByte (0x20000 + 24) == 64) = true ∧
    (flt fun f => { f with syncOps := [sync1 1 .ready] }).syncBlocked (sync1 1 .ready) = false ∧
    remoteRefusal (sy (sync1 1 .ready)) c0 0 (some (sync1 1 .ready).loc) = none ∧
    after (exec (.syncOpPerform 0 0) ((sy (sync1 1 .ready)).homeWriteBytes 0 0x20000 [254, 255, 255, 255] false false))
      (fun t => t.memByte 0x20000 == 3 && t.memByte 0x20003 == 0 && sync0 t fun o => o.state == .answered 0xFFFFFFFE false false) = true ∧
    after (exec (.syncOpPerform 0 0) (sy (sync1 14 .ready))) (fun t => t.memByte 0x20000 == 5) = true ∧
    { sync1 16 .ready with operand := 1 }.target = 1 ∧ target.reachable 1 c0.id.tenant = none ∧
    after (exec (.syncOpPerform 0 0) target) (fun t => (t.ctx 1).any (fun c => c.thread.ulipend == 1)) = true ∧
    after (exec (.syncOpPerform 0 0) (sy (sync1 17 .ready))) (fun t => sync0 t fun o => o.state == .answered 0 false false) = true ∧
    after (exec (.syncAnswerArrival 0 0) (sy (sync1 14 (.answered 0 false false)))) (fun t => ctx0 t fun c => c.fl.syncOps == []) = true ∧
    after (exec (.waiterBusyResend 0) ((sy (sync1 12 (.busy 0))).updCore 0 fun r => { r with cycle := 1024 })) (fun t => sync0 t fun o => o.state == .ready) = true ∧
    after (exec (.asyncLogRecord 0 0) (log 63)) (fun t => ctx0 t fun c => c.ord.asyncLog.length == 64 && c.sch.freeze.isNone) = true ∧
    after (exec (.asyncLogRecord 0 0) (log 64)) (fun t => ctx0 t fun c => c.sch.freeze.isSome) = true := by decide +kernel
theorem test_meets_Sfence :
    let s := at0 { flt (fun f => { f with syncOps := [sync1 17 (.answered 0 false false)] }) with
      ord := { c0.ord with asyncLog := [⟨0, 0, 0, 0, 0, 0, 1, 0⟩] } }
    after (exec (.syncAnswerArrival 0 0) s) (fun t => ctx0 t fun c => c.sch.freeze.any (·.fatal)) = true := by decide +kernel

/-- A state with one matrix operation of context 0. -/
def mx (o : MtxOp) (f : BackEnd → BackEnd) : State :=
  (at0 { flt (fun x => { x with mtxOps := [o], issueIdx := 6 }) with be := f c0.be }).updCore 0 fun r =>
    { r with rowsDue := [(0, 0)], arrayCycles := 4 }
/-- A stream of one beat. -/
def beat1 : Stream := { produced := 1, consumer := 0, slots := [(0, { data := 0x40000000, tag := 0, poison := false })] }
/-- MatrixResults: an operation that begins, a group of an MMA, a row of an MCLR, the last row. -/
theorem test_meets_Matrix :
    let q := { mtx1 6 0 0 with state := .queued }
    let s := mx q id
    (∀ c ∈ s.ctx 0, s.mayBegin c = some q) ∧
    after (exec (.matrixOpBegin 0) s) (fun t => ctx0 t fun c => c.fl.mtxOps.any (fun o => o.state == .begun)) = true ∧
    (mtx1 1 0 0).reading = true ∧ (mtx1 1 0 0).w.offa.toNat + 1 ≤ (beat1.produced - 0).toNat ∧
    { mtx1 1 0 0 with inArray := true }.inArray = true ∧ (mtx1 1 0 0).groupCycles ≤ ((mx (mtx1 1 0 0) id).core 0).arrayCycles ∧
    (mtx1 6 0 0).reading = false ∧ (0, 0) ∈ ((mx (mtx1 6 0 5) id).core 0).rowsDue ∧
    after (exec (.matrixOpComplete 0 0) (mx (mtx1 6 0 5) id)) (fun t => ctx0 t fun c => c.fl.mtxOps.any (fun o => o.rows == 6)) = true ∧
    after (exec (.matrixOpComplete 0 0) (mx (mtx1 6 0 63) id)) (fun t => ctx0 t fun c => c.fl.mtxOps == []) = true := by decide +kernel

theorem test_meets_MmaGroup : after (exec (.mmaGroup 0 0) (mx { mtx1 1 0 0 with inArray := true } fun b => { b with sa := beat1, sb := beat1 }))
    (fun t => ctx0 t fun c => c.fl.mtxOps.any (fun o => o.groups == 1 && o.plane.head? == some 0x40800000)) = true := by decide +kernel


/-! ### Transfers and services -/

/-- Bytes at a physical address of package 0, as memory holds them. -/
def bytesAt (s : State) (pa : Nat) (b : List Byte) : State := s.homeWriteBytes 0 pa b false false
/-- Little-endian words of n bytes each. -/
def fields (l : List (Nat × Nat)) : List Byte := l.flatMap fun x => leBytes x.1 x.2
/-- A template of one element of 8 bytes from 0x20000 to 0x30000, its signal at 0x30040, with its mode. -/
def templ (mode : Nat) : List Byte :=
  fields [(4, 1 + 8 * mode), (4, 3), (8, 0x20000), (8, 0x30000)] ++ List.replicate 72 0 ++ fields [(8, 0x28000), (8, 0x30040), (8, 0), (8, 0)]
def start1 : BtStart := { templ := 0, arg := 0, part := 0, root := 0x3000 }
def run1 (mode done : Nat) : BtRun :=
  { start := start1, templ := templ mode, arg := List.replicate 32 0, done := done, lines := 0, suspended := false, fault := none }
/-- Partition 0 owns engine 2 of die 0; its template table has n entries at 0x40000. -/
def bts (n : Nat) (e : BtEngine) : State :=
  ((bytesAt (bytesAt w0 0x40000 (templ 1)) 0x20000 [1, 2, 3, 4, 5, 6, 7, 8]).updDie 0 fun d =>
    { d with btTabs := [(0, (0x40000, n))], parts := [(0, { PartRegs.reset with eng := 15 })] }).setBt 0 2 e
def engine1 : BtEngine := { BtEngine.reset with owner := some 0 }

/-- TransferResults: the invalidation queue with room and full; an engine owned and not; a template that can be read and a bad
one; a chunk; an end with a signal and without. -/
theorem test_meets_Transfer :
    let q : InvCmd := { kind := 4, part := 1, addr := 0, span := 0, root := 0 }
    let inv (n : Nat) : State := w0.updDie 0 fun d => { d with invQueue := List.replicate n q }
    after (exec (.invalidateIpaRange 0 3) (inv 7)) (fun t => (t.die 0).invQueue.length == 8 && !(t.die 0).invErr) = true ∧
    after (exec (.invalidateAll 0) (inv 8)) (fun t => (t.die 0).invQueue.length == 8 && (t.die 0).invErr) = true ∧
    after (exec (.invalidationComplete 0) (inv 1)) (fun t => (t.die 0).invDone == 1 && (t.die 0).invQueue == []) = true ∧
    (bts 1 engine1).btOwned 0 2 0 = true ∧ (bts 1 engine1).btOwned 0 2 1 = false ∧
    after (exec (.btStart 0 0 16 8 0x50007 0x3000) (bts 1 engine1)) (fun t => (t.bt 0 2).starts == [⟨7, 5, 0, 0x3000⟩]) = true ∧
    after (exec (.btStart 0 1 16 8 0 0x3000) (bts 1 engine1)) (fun t => (t.bt 0 2).report == 1) = true ∧
    btRead (bts 1 engine1) 0 start1 = .ok (some (templ 1, List.replicate 32 0)) ∧ btRead (bts 0 engine1) 0 start1 = .ok none ∧
    after (exec (.btTakeStart 0 2) (bts 1 { engine1 with starts := [start1] })) (fun t => (t.bt 0 2).run == some (run1 1 0)) = true ∧
    after (exec (.btTakeStart 0 2) (bts 0 { engine1 with starts := [start1] })) (fun t => (t.bt 0 2).run == none && (t.bt 0 2).report == 3) = true ∧
    (run1 1 0).chunks = 1 ∧
    (run1 1 0).need = 1 ∧
    after (exec (.btChunk 0 2) (bts 1 { engine1 with run := some (run1 1 0) })) (fun t => (t.bt 0 2).run == some (run1 1 0)) = true ∧
    after (exec (.btChunk 0 2) (bts 1 { engine1 with run := some { run1 1 0 with lines := 1 } })) (fun t =>
      t.memByte 0x30007 == 8 && t.memByte 0x30008 == 0 && (t.bt 0 2).run == some (run1 1 1)) = true ∧
    (run1 0 1).flags / 8 % 4 = 0 ∧ (run1 1 1).flags / 8 % 4 = 1 ∧
    after (exec (.btComplete 0 2) (bts 1 { engine1 with run := some (run1 0 1) })) (fun t => (t.bt 0 2).count == 1 && t.memByte 0x30040 == 0) = true ∧
    after (exec (.btComplete 0 2) (bts 1 { engine1 with run := some (run1 1 1) })) (fun t =>
      (t.bt 0 2).run == none && t.home64 0 0x30040 == 1) = true := by decide +kernel

/-- A page-fault entry of context 0's generator. -/
def pfault : FaultEntry :=
  { seq := 4, source := 0, who := 0, va := 0x50000, pc := 0x10000, emitseq := 0, sub := 1, unit := 1, record := [] }
def faulted (c : Context) : State := (at0 c).updDie 0 fun d => { d with fault := { d.fault with open_ := [pfault] } }
/-- A task graph of 8 tasks on dies 0 and 1. -/
def graph1 : Graph :=
  { queueDie := 0, queueSlot := 5, part := 0, prio := 0, n := 8, overlap := false, persist := false, gang := 0, z := [], record := [],
    root := 0x3000, started := true, shares := [(0, (4, 4)), (1, (4, 8))], halted := 0, steals := [], tried := [] }
def graphs (l : List Steal) (sh : SMap (Nat × Nat)) : State :=
  { w0 with graphs := [(3, { graph1 with steals := l, shares := sh })] }

/-- ServiceResults: a fault of a waiting thread served and declined; a steal asked and answered. -/
theorem test_meets_Service :
    let c := { cH with wait := .page }
    after (exec (.faultServed (.cobalt 0) 4) (faulted c)) (fun t => ctx0 t fun c => c.wait == .none && c.thread.pc == 0x10000) = true ∧
    after (exec (.faultDeclined (.cobalt 0) 4) (faulted c)) (fun t => ctx0 t fun c =>
      c.wait == .none && c.thread.pc == 0x100 && c.thread.tval == 0x50000 && c.thread.tcause == BitVec.ofNat 64 (trapCause 3 1 true).toNat) = true ∧
    ((faulted c).die 0).fault.waiting = [] ∧ c.status = .resident ∧ c.sch.freeze = none ∧
    (let ask : Steal := { thief := 0, victim := 1, seq := 9, answer := none }
     let s := graphs [ask] [(0, (4, 4)), (1, (4, 8))]
     (firstSteal (s.stealRequests 1)).any (fun x => x.1 == 3 && x.2.2 == ask) = true ∧
     after (exec (.stealRequest 1) s) (fun t => match SMap.find t.graphs 3 with
      | some g => g.share 1 == (4, 6) && g.steals == [{ ask with answer := some (6, 8) }]
      | none => false) = true) ∧
    after (exec (.stealAnswer 0) (graphs [{ thief := 0, victim := 1, seq := 9, answer := some (6, 8) }] [(0, (4, 4)), (1, (4, 6))])) (fun t => match SMap.find t.graphs 3 with
      | some g => g.share 0 == (6, 8) && g.steals == []
      | none => false) = true := by decide +kernel

/-! ### Hardware queues -/

/-- A packet header. -/
def pk (type len hi : Nat) : Nat := type + len * 2 ^ 8 + hi * 2 ^ 16
/-- Slot 5 of die 0, RUNNING, its ring of 512 words at 0x20000 holding some words, n of them before WPTR. -/
def queue1 (n : Nat) : Queue where
  qctl := 0x90001
  qbase := 0x20000
  qroot := 0x3000
  wptr := BitVec.ofNat 32 n
  qfault := 0
  done := 0
  pos := { frames := [{ isRing := true, base := 0x20000, len := 512, off := 0, at_ := 0 }], loops := [] }
  skip := []
  copies := []
  phase := .idle
  graphs := []
def qs (ws : List Nat) (f : Queue → Queue) : State :=
  (bytesAt w0 0x20000 (ws.flatMap (leBytes 8))).setQueue 0 5 (f (queue1 ws.length))
/-- What holds of the slot. -/
def queue0 (t : State) (p : Queue → Bool) : Bool := p (t.queue 0 5)

/-- QueueControl: a slot that can start, one to resume, to park idle and waiting, to disable, a doorbell, a packet to fetch. -/
theorem test_meets_QueueControl :
    let off := qs [] fun q => { q with qctl := 0x90000, wptr := 7 }
    let stopped := qs [pk 0 1 0] fun q => { q with qctl := 0x90032, copies := [⟨q.pos, [1]⟩] }
    let wait := (qs [pk 5 3 3, 0x30000, 9] fun q => { q with phase := .waiting ⟨0, 0x30000, 0, false, false⟩ 3 }).updDie 0 fun d =>
      { d with waiters := [⟨.queue 0 5, 0, 0x30000, .signal 9, false, false⟩] }
    off.queueTaken 0 5 (off.queue 0 5) = false ∧ (stopped.queue 0 5).state = 2 ∧ (stopped.queue 0 5).overrun = false ∧
    after (exec (.queueStart 0 5) off) (fun t => queue0 t fun q => q.state == 1 && q.wptr == 0 && q.pos.va == 0x20000) = true ∧
    after (exec (.queueResume 0 5) stopped) (fun t => queue0 t fun q => q.state == 1 && q.cause == 0 && q.copies == []) = true ∧
    after (exec (.queuePark 0 5) (qs [] id)) (fun t => queue0 t fun q => q.state == 3) = true ∧
    after (exec (.queuePark 0 5) wait) (fun t => (queue0 t fun q => q.state == 3 && q.phase == .idle) && (t.die 0).waiters == []) = true ∧
    after (exec (.queueDisable 0 5) (qs [] id)) (fun t => queue0 t fun q => q.state == 0) = true ∧
    (qs [] id).doorbellSlot 0 0 0 = some 5 ∧
    after (exec (.doorbell 0 0 0 8 6) (qs [] id)) (fun t => queue0 t fun q => q.wptr == 6) = true ∧
    after (exec (.packetFetch 0 5) (qs [pk 0 1 0] id)) (fun t => queue0 t fun q => q.copies == [⟨q.pos, [BitVec.ofNat 64 (pk 0 1 0)]⟩]) = true := by
  decide +kernel

/-- The slot's packet begins. -/
def begins (s : State) : Bool := (s.prepared 0 5).2.begins && s.turnOf 0 5
/-- A position in five buffers. -/
def deep (n : Nat) (q : Queue) : Queue :=
  { q with pos := { q.pos with frames := q.pos.frames ++ List.replicate (n - 1) { isRing := true, base := 0, len := 512, off := 0, at_ := 0 } } }
def loop1 : PktLoop := { depth := 9, start := 0, left := 1, body := 1, passes := 1, at_ := 0, va := 0 }

/-- PacketResults: the packets that change the position, and their stops. -/
theorem test_meets_Position :
    let ib := [pk 2 3 0, 0x30000, 8]
    let loop (k : Nat) := [pk 4 2 1 + k * 2 ^ 32, 0, pk 0 1 0]
    begins (qs [pk 0 1 0] id) = true ∧ begins (qs [pk 7 1 0] id) = true ∧ begins (qs ib id) = true ∧ begins (qs (loop 2) id) = true ∧
    begins (qs (loop 0) id) = true ∧ begins (qs ib (deep 5)) = true ∧
    begins (qs (loop 2) fun q => { q with pos := { q.pos with loops := [loop1, loop1] } }) = true ∧
    after (exec (.pktNop 0 5) (qs [pk 0 1 0] id)) (fun t => queue0 t fun q => q.done == 1 && q.pos.va == 0x20008) = true ∧
    after (exec (.ffence 0 5) (qs [pk 7 1 0] fun q => { q with copies := [⟨q.pos, [BitVec.ofNat 64 (pk 7 1 0)]⟩] }))
      (fun t => queue0 t fun q => q.done == 1 && q.copies == []) = true ∧
    after (exec (.ib 0 5) (qs ib id)) (fun t => queue0 t fun q => q.done == 0 && q.pos.va == 0x30000) = true ∧
    after (exec (.ib 0 5) (qs ib (deep 5))) (fun t => queue0 t fun q => q.state == 2 && q.cause == 5 && q.sub == 1) = true ∧
    after (exec (.pktLoop 0 5) (qs (loop 2) id)) (fun t => queue0 t fun q => q.done == 0 && q.pos.va == 0x20010 && q.pos.loops.length == 1) = true ∧
    after (exec (.pktLoop 0 5) (qs (loop 0) id)) (fun t => queue0 t fun q => q.done == 1 && q.skip == [1, 1]) = true ∧
    after (exec (.pktLoop 0 5) (qs (loop 2) fun q => { q with pos := { q.pos with loops := [loop1, loop1] } }))
      (fun t => queue0 t fun q => q.state == 2 && q.cause == 5 && q.sub == 2) = true := by decide +kernel

/-- A model-slot record of partition 0: flags, template size, windows. -/
def model1 (flags : Nat) : List Byte := fields [(4, flags), (4, 4096), (8, 0x10000), (8, 0), (8, 0x20000), (8, 0), (4, 0), (4, 0), (16, 0)]
/-- The slot with an INVOKE of one task, the record of model slot 0 and cores that hold a slot of the partition, or none. -/
def invokes (flags : Nat) (cores : Bool) : State :=
  let s := bytesAt (qs [pk 1 2 0 + 2 ^ 32, 0] id) 0x40000 (model1 flags)
  let s1 := s.updDie 0 fun d => { d with modelTabs := [(0, 0x40000)] }
  if cores then s1.updCore 0 fun r => { r with slotPart := 0x10, slotWinF := 0x4000, slotWinW := 0x4000, slotWinC := 0x2000 } else s1

/-- PacketResults: INVOKE, its stops NOTRES and NOENG, its start, its end. -/
theorem test_meets_Invoke :
    let waits := { (invokes 7 true) with graphs := [(0, { graph1 with started := false, n := 1, record := model1 7, shares := [] })], nextGraph := 1 }
    let s := waits.setQueue 0 5 { queue1 2 with phase := .invoking 0 2 }
    let ended := ({ w0 with graphs := [(0, { graph1 with n := 1, halted := 1 })], nextGraph := 1 } : State).setQueue 0 5
      { queue1 2 with phase := .invoking 0 2 }
    begins (invokes 7 true) = true ∧
    invokeStop (model1 6) ((invokes 6 true).coreCounts 0 0 (model1 6)) 1 false = some 2 ∧
    invokeStop (model1 7) ((invokes 7 true).coreCounts 0 0 (model1 7)) 1 false = none ∧
    after (exec (.invoke 0 5) (invokes 6 true)) (fun t => queue0 t fun q => q.state == 2 && q.cause == 2) = true ∧
    after (exec (.invoke 0 5) (invokes 7 false)) (fun t => queue0 t fun q => q.state == 2 && q.cause == 3) = true ∧
    after (exec (.invoke 0 5) (invokes 7 true)) (fun t => (queue0 t fun q => q.state == 1 && q.phase == .invoking 0 2) && t.graphs.length == 1) = true ∧
    after (exec (.invokeStart 0 5) s) (fun t => (SMap.find t.graphs 0).any fun g => g.started && g.share 0 == (0, 1)) = true ∧
    ended.graphOver 0 = true ∧
    after (exec (.taskGraphEnd 0 5) ended) (fun t => t.graphs == [] && queue0 t fun q => q.done == 1 && q.phase == .idle) = true := by
  decide +kernel

/-- PacketResults: PRED, WAIT and SIG sent, and performed: a condition that holds and one that fails, a signal reached and not,
SIG's two operations; a WAIT whose answer has come. -/
theorem test_meets_SyncPackets :
    let loc : Loc := ⟨0, 0x30000, 0, false, false⟩
    let sent (ws : List Nat) : State := (bytesAt (qs ws id) 0x30000 [5]).setQueue 0 5
      { queue1 ws.length with phase := .sent loc (ws.map (BitVec.ofNat 64)) }
    let pred (v : Nat) := [pk 3 4 0x100, 0x30000, v, 0]
    let wait (v : Nat) := [pk 5 3 3, 0x30000, v]
    let sig (op : Nat) := [pk 6 3 op, 0x30000, 2]
    let answered := ((sent (wait 9)).setQueue 0 5 { queue1 3 with phase := .waiting loc 3 }).updDie 0 fun d =>
      { d with waiters := [⟨.queue 0 5, 0, 0x30000, .signal 9, true, false⟩] }
    begins (qs (pred 5) id) = true ∧ begins (qs (wait 5) id) = true ∧
    after (exec (.pred 0 5) (qs (pred 5) id)) (fun t => queue0 t fun q => q.phase == .sent loc ((pred 5).map (BitVec.ofNat 64))) = true ∧
    remoteRefusal (sent (wait 9)) (((sent (wait 9)).queue 0 5).ctx 0) 0 (some loc) = none ∧
    after (exec (.pred 0 5) (sent (pred 5))) (fun t => queue0 t fun q => q.done == 1 && q.skip == []) = true ∧
    after (exec (.pred 0 5) (sent (pred 6))) (fun t => queue0 t fun q => q.done == 1 && q.skip == [1]) = true ∧
    after (exec (.pktWait 0 5) (sent (wait 5))) (fun t => queue0 t fun q => q.done == 1) = true ∧
    after (exec (.pktWait 0 5) (sent (wait 9))) (fun t => (queue0 t fun q => q.done == 0 && q.phase == .waiting loc 3) && (t.die 0).waiters.length == 1) = true ∧
    after (exec (.pktSigAdd 0 5) (sent (sig 0))) (fun t => t.home64 0 0x30000 == 7 && queue0 t fun q => q.done == 1) = true ∧
    after (exec (.pktSigSet 0 5) (sent (sig 1))) (fun t => t.home64 0 0x30000 == 2 && queue0 t fun q => q.done == 1) = true ∧
    after (exec (.pktWait 0 5) answered) (fun t => (t.die 0).waiters == [] && queue0 t fun q => q.done == 1) = true := by decide +kernel

/-- ResidencyResults: a rollback puts a logged buffer line and a logged OWN line back; a drain saves the window's lines, a restore puts them
in its windows; a landing entry that carries a credit; a refetch that delivers its chunk. -/
theorem test_meets_Rollback :
    let m : Marker := { mark with lines := [(0, 3, 7, true)], own := [(0x800, 0x55, false)] }
    let s := (at0 (pre .rollback (some m))).updCore 0 fun r => { r with lines := [(bufKey 0 0 3, { data := 9, poison := false })] }
    let held := s.setCtx 0 (pre .drain none)
    let saved := { c0 with status := .nonres, sch := { c0.sch with savedLines := [(0, 3, { data := 7, poison := false })] } }
    after (exec (.rollback 0) s) (fun t => (t.core 0).line (bufKey 0 0 3) == { data := 7, poison := true } && t.memByte 0x20000 == 0x55) = true ∧
    after (exec (.contextDrain 0) held) (fun t => ctx0 t fun c => c.sch.savedLines == [(0, 3, { data := 9, poison := false })]) = true ∧
    after (exec (.contextRestore 0) (at0 saved)) (fun t => (t.core 0).line (bufKey 0 0 3) == { data := 7, poison := false }) = true := by
  refine ⟨?_, ?_, ?_⟩ <;> decide +kernel
theorem test_meets_Replay :
    let entry := fields [(4, 0), (4, 2 ^ 21), (4, 0), (2, 4), (2, 0), (8, 0x20040), (4, 1), (4, 0), (32, 0), (4, 9)]
    let s := (bytesAt (at0 { c0 with land := ring }) 0x30000 entry).updDie 0 fun d => { d with landDescs := [(0, 0x30023)] }
    let r : Refetch := { buf := 0, tile := 5, op := 1, w := cpyW, nest := nestFour, zrel := 0 }
    let go (o : CopyOp) : State := (cpMem { o with idx := 0 }).updCore 0 fun r => { r with chanLines := [(1, 4)] }
    after (exec (.landingReplay 0) s) (fun t => ctx0 t (fun c => c.land.head == 1 && (t.readLine c 0 0 0).data == 9) && t.credits.length == 1) = true ∧
    after (exec (.tileRefetch 0) (go { r.copyOp 0 with state := .running })) (fun t => ctx0 t fun c =>
      (t.readLine c 0 5 0).data == 0x04030201 && c.fl.copyOps.any (fun o => o.done == 1)) = true := by
  refine ⟨?_, ?_⟩ <;> decide +kernel

/-- FreezeResults: BUNDLE with a posting's entry, a settled freeze with a copy's fault entry and a waiting operation, work that is not
over, a lost dump, events with a queue that is full and without one. -/
theorem test_meets_Settle :
    let post := ((at0 { cH with bundleTrap := true, beFrozen := true, wait := .cpostSent 4 0x20000 (some 5) }).setPosted 0 5 { posted1 .posted with hold := true })
    let e : FaultEntry := { seq := 4, source := 2, who := 0, va := 0x50000, pc := 0x10000, emitseq := 0, sub := 1, unit := 1, record := [] }
    let s := (at0 (frz true false none)).updDie 0 fun d => { d with fault := { d.fault with open_ := [e] } }
    let busy := at0 { withCopies [copy1 1 .running nestTile] with sch := (frz true false none).sch }
    let full : State := w0.updDie 0 fun d => { d with fault := { d.fault with eqbase := 0x40004, eqTail := 16 } }
    after (exec (.bundleTrap 0) post) (fun t => (t.posted 0 5).used == false && ctx0 t fun c => c.thread.tcause == 11) = true ∧
    after (exec (.fatalTrap 0) s) (fun t => (t.die 0).fault.open_ == [] && ctx0 t fun c => c.thread.ulipend == 0x8000) = true ∧
    after (exec (.fatalTrap 0) busy) (fun t => ctx0 t fun c => c.sch.freeze.any (fun f => !f.settled)) = true ∧
    after (exec (.contextDead 0) (at0 (frz true true (some none)))) (fun t => (t.die 0).fault.dropped == 1) = true ∧
    queueConfigured (full.faultPage (.cobalt 0)).eqbase = true ∧
    ((full.post (.cobalt 0) 1 0 0 0).faultPage (.cobalt 0)).overwritten = 1 := by
  refine ⟨?_, ?_, ?_, ?_, ?_, ?_⟩ <;> decide +kernel

/-- Context 0 with an operation of each kind that has not committed. -/
def uncommitted : Context :=
  flt fun f => { f with
    copyOps := [{ copy1 1 .queued nestTile with committed := false }]
    mtxOps := [{ mtx1 6 0 0 with committed := false, plane := [] }], syncOps := [{ sync1 1 .issued with scope := 1 }] }
/-- One effect of its bundle 1. -/
def act1 (a : CommitAct) : State := State.act 0 1 (at0 uncommitted) a
/-- Its channel 1 suspended. -/
def stopped1 : State := cp { copy1 1 .running nestTile with state := .suspended }
/-- OrderingResults: what a bundle's effects do at its commit. -/
theorem test_meets_Acts :
    ((act1 (.bufStore 0 0 2 6 true)).core 0 |>.line (bufKey 0 0 2)).poison = true ∧
    (c0.ord.slotStore [⟨0x20000, ⟨0, 0x20000, 0, false, false⟩, 3, 0x2211, false⟩]).isSome = true ∧
    ctx0 (act1 (.copy 0)) (fun c => c.fl.copyOps.all (·.committed)) = true ∧ ctx0 (act1 (.matrix 0)) (fun c => c.fl.mtxOps.all (·.committed)) = true ∧
    ctx0 (act1 (.sync 0)) (fun c => c.fl.syncOps.all (·.state == .committed) && c.ord.phases.length == 1) = true ∧
    ctx0 (State.act 0 9 stopped1 (.resume 1 0)) (fun c => c.fl.copyOps.all (·.state == .running)) = true ∧
    SMap.find (stopped1.core 0).slots 0 = some 0 ∧ (stopped1.ctx 0).isSome = true := by decide +kernel
/-- OrderingResults: stores that find no entry; a fault that waits for its page; a write behind an earlier one of its bytes; a landing
that is due; a generator's load; a PHASE with records in the log. -/
theorem test_meets_Commit :
    let full := { flt (fun f => { f with issued := [{ issued none with acts := [.memStore [⟨0x20000, ⟨0, 0x20000, 0, false, false⟩, 3, 0x2211, false⟩]] }], issueIdx := 2 }) with
      ord := { c0.ord with pbuf := (List.range 512).map fun i => { sentWrite with loc := ⟨0, 0x40000 + 64 * i, 0, false, false⟩ } } }
    let page := flt fun f => { f with issued := [issued (some (1, ⟨2, 0x50000⟩))], issueIdx := 2 }
    let behind := ordc fun o => { o with transit := [sentWrite, { sentWrite with mask := 1 }] }
    let due := { flt (fun f => { f with landings := [{ landing [] true with idx := 0, due := 49 }] }) with ctxcyc := 60 }
    let load := thr fun t => { t with loads := [{ d := 4, loc := ⟨0, 0x20000, 0, false, false⟩, size := 1, signed := true, emit := 0, before := none, age := 0 }] }
    let young := thr fun t => { t with loads := load.thread.loads ++ load.thread.loads.map fun l => { l with age := 1, d := 5 } }
    let log := ordc fun o => { o with phases := [phase1 true], asyncLog := [⟨0, 0, 0, 0, 0, 0, 1, 0⟩] }
    after (exec (.bundleCommit 0) (at0 full)) (fun t => ctx0 t fun c => c.thread.bfcause.toNat % 256 == bPHASEFULL && c.bundleTrap) = true ∧
    isNotPres 2 = true ∧ after (exec (.bundleCommit 0) (at0 page)) (fun t => (t.die 0).fault.waiting.length == 1) = true ∧
    after (exec (.transitWriteApply 0 1) (at0 behind)) (fun t => ctx0 t fun c => c.ord.transit.length == 2) = true ∧
    after (exec (.timedLanding 0) (at0 due)) (fun t => ctx0 t fun c => c.be.vec.regs == [(9, 0)] || c.fl.journal == []) = true ∧
    after (exec (.loadPerform 0 (.gen 0)) (bytesAt (at0 load) 0x20000 [0x80])) (fun t => ctx0 t fun c => c.thread.reg 4 == 0xFFFFFFFFFFFFFF80) = true ∧
    after (exec (.loadPerform 0 (.gen 0)) (at0 young)) (fun t => ctx0 t fun c => c.thread.loads.length == 2) = true ∧
    after (exec (.loadPerform 0 (.gen 1)) (at0 young)) (fun t => ctx0 t fun c => c.thread.loads.length == 1) = true ∧
    after (exec (.phaseComplete 0 0) (at0 log)) (fun t => ctx0 t fun c => c.sch.freeze.any (·.fatal)) = true := by
  refine ⟨?_, ?_, ?_, ?_, ?_, ?_, ?_, ?_, ?_⟩ <;> decide +kernel

/-- CopyResults: an early read of a fault, a chunk of an ADDW, a fragment for a full ring and for one with room. -/
theorem test_meets_Landing :
    let o := { copy1 7 .sent (nestOf [(24, 1), (3, 4)]) with sent := [(1, false)] }
    let r (land : LandRing) : State := ((cp o).setCtx 1 { c0 with status := .nonres, slot := none, land := land }).updDie 0 fun d =>
      { d with landDescs := [(1, 0x30023)] }
    let empty : LandRing := { head := 0, tail := 0, replaying := false, refusedSince := false }
    after (exec (.fragmentArrival 0 1) (r { empty with tail := 8 })) (fun t => head1 t (fun o => o.state == .answered false true) &&
      (t.ctx 1).any (·.land.refusedSince)) = true ∧
    after (exec (.fragmentArrival 0 1) (r empty)) (fun t => head1 t (fun o => o.state == .answered true false) &&
      (t.ctx 1).any (·.land.tail == 1) && t.memByte 0x30000 == 1 && t.memByte 0x30040 == 1 && (t.die 0).landSeq == 1) = true := by
  refine ⟨?_, ?_⟩ <;> decide +kernel

/-- SyncResults: an operation for another package is sent; a wait that is answered at once, that enters the table, and that an empty table
keeps waiting; an arrival; a reset; a read; an answer of a table entry, in a saved context too; a way that is lost. -/
theorem test_meets_SyncHome :
    let there := { sync1 14 .ready with loc := ⟨1, 0x20000, 0, false, false⟩ }
    let hold (st : CtxStatus) (x : SyncState) : State :=
      let c := { flt (fun f => { f with syncOps := [sync1 15 x], syncHold := some 0, issueIdx := 6 }) with status := st }
      (at0 c).updDie 0 fun d => { d with waiters := [⟨.context 0 0, 0, 0x20000, .signal 5, true, true⟩] }
    after (exec (.syncOpPerform 0 0) (sy there)) (fun t => sync0 t fun o => o.state == .sent) = true ∧
    after (exec (.syncOpPerform 0 0) (sy (sync1 15 .ready))) (fun t => sync0 t (fun o => o.state == .waiting) && (t.die 0).waiters.length == 1) = true ∧
    after (exec (.syncOpPerform 0 0) (bytesAt (sy (sync1 15 .ready)) 0x20000 [5])) (fun t => sync0 t fun o => o.state == .answered 0 false false) = true ∧
    after (exec (.syncOpPerform 0 0) (sy (sync1 13 .ready))) (fun t => sync0 t fun o => o.state == .answered 0 false false) = true ∧
    after (exec (.syncOpPerform 0 0) (sy { sync1 18 .ready with operand := 3 })) (fun t => (t.barrier ⟨0, 0x20000, 0, false, false⟩).expected == 3) = true ∧
    after (exec (.syncAnswerArrival 0 0) (hold .resident .waiting)) (fun t => (t.die 0).waiters == [] && ctx0 t fun c => c.fl.syncOps == []) = true ∧
    after (exec (.syncAnswerArrival 0 0) (hold .nonres .waiting)) (fun t => (t.die 0).waiters == [] && ctx0 t fun c => c.sch.parkedAnswered) = true ∧
    after (exec (.syncAnswerArrival 0 0) (hold .nonres (.answered 0 false true))) (fun t => ctx0 t fun c => c.sch.parkedAnswered) = true ∧
    after (exec (.syncOpPerform 0 0) (((sy { there with state := .sent }).updSerac 0 fun d => { d with unreachable := [2, 3] })))
      (fun t => sync0 t fun o => o.state == .refused 4) = true ∧
    after (exec (.syncOpPerform 0 0) (sy { sync1 16 .ready with operand := 9 })) (fun t => sync0 t fun o => o.state == .refused 1) = true := by
  refine ⟨?_, ?_, ?_, ?_, ?_, ?_, ?_, ?_, ?_, ?_⟩ <;> decide +kernel

/-- MatrixResults: rows of MLD, MST, MSTQ and MACC that are due. -/
theorem test_meets_Rows :
    let s (op : BitVec 6) (typ : BitVec 4) (lines : SMap BufLine) : State := (mx { mtx1 op 0 5 with w := { (mtx1 op 0 5).w with typ := typ, f := 2, c := 1, cs := 0 } } id).updCore 0
      fun r => { r with lines := lines }
    after (exec (.matrixOpComplete 0 0) (s 2 3 [(bufKey 0 2 20, { data := 6, poison := false })])) (fun t => ctx0 t fun c =>
      (t.readLine c 2 1 20).data == 6) = true ∧
    after (exec (.matrixOpComplete 0 0) (s 4 0 [(bufKey 2 1 20, { data := 6, poison := false })])) (fun t => ctx0 t fun c =>
      (t.readLine c 0 2 20).data != 0) = true ∧
    after (exec (.matrixOpComplete 0 0) (s 7 0 [(bufKey 2 1 20, { data := 6, poison := true })])) (fun t => ctx0 t fun c =>
      (t.readLine c 2 1 20).poison) = true := by
  refine ⟨?_, ?_, ?_⟩ <;> decide +kernel

/-- TransferResults: a range that meets a large page, an access that breaks several checks, a chunk that faults, Deresk's choice. -/
theorem test_meets_Invalidation :
    let e : TEntry := { size := 21, isize := 16, part := 0, s1root := 0x3000, vpage := 1, ipage := 2, loc := ⟨0, 0, 0, false, false⟩, ro1 := false, ro2 := false, x := true }
    let q : InvCmd := { kind := 1, part := 0, addr := 0x210000, span := 1, root := 0x3000 }
    let bad (done : Nat) : State := bts 1 { engine1 with run := some { run1 1 done with lines := 1, templ := fields [(4, 9), (4, 3), (8, 0x40000000), (8, 0x40000000)] ++ List.replicate 104 0 } }
    q.removes e = true ∧ ({ q with addr := 0x400000 } : InvCmd).removes e = false ∧
    after (exec (.btChunk 0 2) (bad 0)) (fun t => (t.die 0).fault.waiting.length == 1 && (t.bt 0 2).run.any fun r => r.suspended) = true := by
  refine ⟨?_, ?_, ?_⟩ <;> decide +kernel

/-- ServiceResults: a bundle, a copy and an engine whose page is served or not; a queue with a waiting fault and room for it; a table
entry's registers. -/
theorem test_meets_Sources :
    let e (src unit : Nat) : FaultEntry := { pfault with source := src, who := if src = 4 then 2 else 0, unit := unit }
    let s (c : Context) (src : Nat) : State := (at0 c).updDie 0 fun d => { d with fault := { d.fault with open_ := [e src 1] } }
    let page : Context := { cH with beFrozen := true, fl := { c0.fl with replay := some { entry := entry, paging := true } } }
    let copy := withCopies [copy1 1 .suspended nestTile]
    let bt := (bts 1 { engine1 with run := some { run1 1 0 with suspended := true, fault := some ⟨2, 0x50000⟩ } }).updDie 0 fun d =>
      { d with fault := { d.fault with open_ := [e 4 1] } }
    let room : State := w0.updDie 0 fun d => { d with fault := { d.fault with fqbase := 0x40004, fqTail := 16, waiting := [pfault] } }
    after (exec (.faultServed (.cobalt 0) 4) (s page 1)) (fun t => ctx0 t fun c => !c.beFrozen && c.queue.length == 1) = true ∧
    after (exec (.faultDeclined (.cobalt 0) 4) (s page 1)) (fun t => ctx0 t fun c => c.bundleTrap && c.thread.bfaddr == 0x50000) = true ∧
    copy.copySuspended 1 = true ∧
    after (exec (.faultDeclined (.cobalt 0) 4) (s copy 2)) (fun t => ctx0 t fun c => c.thread.ulipend == 0x8000) = true ∧
    after (exec (.faultServed (.cobalt 0) 4) bt) (fun t => (t.bt 0 2).run.any fun r => !r.suspended) = true ∧
    after (exec (.faultDeclined (.cobalt 0) 4) bt) (fun t => (t.bt 0 2).report == 6) = true ∧
    after (exec (.faultQueueHeadAdvance (.cobalt 0) 1) room) (fun t => (t.die 0).fault.open_.length == 1 && (t.die 0).fault.waiting == []) = true ∧
    after (exec (.registerWrite (.tableEntry 0) 0 8 0x30023) w0) (fun t => t.landDesc 0 == 0x30023) = true ∧
    after (exec (.registerWrite (.tableEntry 0) 0 8 0x30023) (at0 { c0 with land := ring })) (fun t => t.landDesc 0 == 3) = true := by
  refine ⟨?_, ?_, ?_, ?_, ?_, ?_, ?_, ?_, ?_⟩ <;> decide +kernel

/-- QueueControl, PacketResults: pointers too far apart, a packet that is on its way or waits for its page, one whose words are absent or not
mapped, a refusal, a table that is full of waits, PERSIST with and without entries, OVERLAP's end, a stop with skips made. -/
theorem test_meets_QueueStops :
    let loc : Loc := ⟨0, 0x30000, 0, false, false⟩
    let far := qs [] fun q => { q with wptr := 600 }
    let sent (ph : PktPhase) : State := qs [pk 5 3 3, 0x30000, 9] fun q => { q with phase := ph }
    let ws : List Word := [BitVec.ofNat 64 (pk 6 3 0), 0x30000, 2]
    let absent (va : Nat) : State := qs [pk 6 3 0, va, 2] id
    let lost := (((sent (.sent ⟨1, 0x30000, 0, false, false⟩ ws))).updSerac 0 fun d => { d with unreachable := [2, 3] })
    let overlap := ({ w0 with graphs := [(0, { graph1 with n := 1, halted := 1 })], nextGraph := 1 } : State).setQueue 0 5
      { queue1 2 with graphs := [{ graph := 0, at_ := none, frames := 1, loops := 0, begun := 0 }] }
    after (exec (.queueResume 0 5) (far.setQueue 0 5 ((far.queue 0 5).put 2 7 0))) (fun t => queue0 t fun q => q.state == 2 && q.cause == 7 && q.qfault == 0x20000) = true ∧
    after (exec (.doorbell 0 0 0 8 600) (qs [] id)) (fun t => queue0 t fun q => q.state == 2 && q.cause == 7) = true ∧
    after (exec (.queuePark 0 5) (sent (.sent loc ws))) (fun t => queue0 t fun q => q.state == 3 && q.phase == .idle) = true ∧
    after (exec (.queuePark 0 5) (sent (.page (some ws)))) (fun t => queue0 t fun q => q.state == 3 && q.phase == .idle) = true ∧
    after (exec (.packetFetch 0 5) ((qs [] fun q => { q with qbase := 0x40000000, wptr := 1, pos := { q.pos with frames := [{ isRing := true, base := 0x40000000, len := 512, off := 0, at_ := 0 }] } })))
      (fun t => queue0 t fun q => q.phase == .page none) = true ∧
    after (exec (.pktSigAdd 0 5) (absent 0x40000000)) (fun t => (t.die 0).fault.waiting.length == 1 && queue0 t fun q => q.phase != .idle) = true ∧
    after (exec (.pktSigAdd 0 5) (absent (2 ^ 60))) (fun t => queue0 t fun q => q.state == 2 && q.cause == 4) = true ∧
    after (exec (.pktSigAdd 0 5) lost) (fun t => queue0 t fun q => q.state == 2 && q.cause == 8) = true ∧
    after (exec (.taskGraphEnd 0 5) overlap) (fun t => t.graphs == [] && queue0 t fun q => q.done == 1 && q.graphs == []) = true := by
  refine ⟨?_, ?_, ?_, ?_, ?_, ?_, ?_, ?_, ?_⟩ <;> decide +kernel

/-- A core whose four slots may hold windows of partition 0. -/
def slots4 (r : Core) : Core :=
  { r with slotPart := 0x100000000, slotWinF := 0x4000400040004000, slotWinW := 0x4000400040004000, slotWinC := 0x2000200020002000 }
/-- Contexts 0 and 1 with a bundle each, of priority 1 and another. -/
def flexW (second : Int) : State :=
  let ctx (p : Int) (i : Nat) : Context := { sched (fun x => { x with prio := p }) with queue := [.entry entry], slot := some i }
  ((at0 (ctx 1 0)).setCtx 1 (ctx second 1)).updCore 0 fun r => { r with slots := [(0, 0), (1, 1)] }
/-- CoreCycleResults: the flex cycle goes to the higher priority, among equals to the first after the last winner. -/
theorem test_meets_Flex : (flexW 5).entryOwner 0 = none ∧ (flexW 5).flexCandidates 0 = [(0, 0, 1), (1, 1, 5)] ∧
    (issueStage (flexW 5) 0).2.2 = some 1 ∧ (issueStage (flexW 0) 0).2.2 = some 0 := by decide +kernel

/-- Context 1 waits for a slot. -/
def waits1 (st : CtxStatus) (base : Nat) (land : LandRing) : Context :=
  { c0 with status := st, slot := none, land := land, id := { c0.id with basePrio := base }, sch := { c0.sch with wantingSince := some 0 } }
/-- It waits, its landing ring not empty, for the one slot of the core, which context 0 has. -/
def boosts (base : Nat) (f : Context → Context) : State :=
  (((at0 (f c0)).setCtx 1 (waits1 .nonres base { head := 0, tail := 1, replaying := true, refusedSince := false })).updCore 0
    fun r => { r with slotPart := 0x100000000, slotWinF := 0x4000, slotWinW := 0x4000, slotWinC := 0x2000 }).updDie 0 fun d => { d with schcfg := 0x200000 }
/-- SchedulerTimers: a task to place, a thief and one that stops, a fill of a NEW and of a saved context, a pre-emption for boost, a slice
that is over, a yielding context, arrivals, a boosted priority. -/
theorem test_meets_Scheduler :
    let g : Graph := { graph1 with shares := [(0, (4, 8))], record := model1 7 }
    let placing : State := { (w0.updCore 0 slots4) with graphs := [(3, g)] }
    let fills (st : CtxStatus) : State := (w0.updCore 0 slots4).setCtx 1 (waits1 st 0 c0.land)
    let yields := boosts 0 fun c => { c with sch := { c.sch with yielding := true } }
    let d : Die := { (w0.die 0) with
      schcfg := 0x0FF014, arrivals := [(0, 3, true), (0, 3, false), (0, 0, true)]
      fair := [(2, { FairRec.empty with valid := true, gang := 3 })] }
    placing.roomCores 0 g = [0] ∧ placing.freeEntries 0 ≠ [] ∧
    ({ graph1 with shares := [(0, (4, 4)), (1, (4, 8))] } : Graph).victim 0 = some 1 ∧
    (({ graph1 with shares := [(0, (4, 4)), (1, (7, 8))] } : Graph).thief 0 7).tried = [(0, 8)] ∧
    ((fills .new).fillChoice 0).any (fun x => x.1 == 1 && x.2.2 == 1) = true ∧
    ((fills .nonres).fillChoice 0).any (fun x => x.1 == 1 && x.2.2 == 1) = true ∧
    ((boosts 4 id).fillChoice 0).isNone = true ∧ ((boosts 4 id).boostChoice 0).map (·.1) = some 0 ∧
    ((boosts 0 id).boostChoice 0).isNone = true ∧
    after (.next ((((boosts 0 id).updCore 0 fun r => { r with cycle := 100 }).updDie 0 fun d => { d with slice := 50 }).decideCore 0))
      (fun t => t.agenda.head? == some (.ev (.sliceEnd 0))) = true ∧
    after (.next (yields.decideCore 0)) (fun t => ctx0 t fun c => c.sch.preempt == some .drain) = true ∧
    d.countArrivals.fair.map (fun p => (p.2.level, p.2.accepted, p.2.refused)) = [(1, 1, 1)] ∧
    d.countArrivals.priority { c0 with id := { c0.id with gang := 3, basePrio := 2 } } = 3 := by decide +kernel

/-! ### Collectives -/

/-- A record of a barrier (operation 7) on communicator 0, its signal at 0x30040. -/
def record1 : List Byte :=
  fields [(4, 0), (4, 7), (4, 0), (4, 0), (40, 0), (8, 0x30040), (4, 2 ^ 32 - 1), (4, 0)] ++ List.replicate 184 0
/-- A communicator of one member, die 0 of package 0, coordinator Serac die 0, virtual channel 2; its table at 0x60000. -/
def comm1 (s : State) : State :=
  (bytesAt (bytesAt s 0x60000 (fields [(4, 1), (2, 1), (1, 2), (1, 1), (2, 0), (2, 0), (1, 1), (3, 0), (8, 0x70000), (40, 0)])) 0x70000 [0, 0, 0, 0]).updSerac 0
    fun d => { d with commbase := 0x60000, grants := [(0, 0x10001)] }
/-- An entry of that communicator with its instance. -/
def entry1 (x : Inst) : Posted := { posted1 .posted with record := record1, insts := [x] }
/-- Its run: one member, rank 0, with a record. -/
def run1c (r : List Byte) : CollRun :=
  { coord := 0, comm := 0, inst := 0, chunk := 4096, vc := 2, prio := 1, weight := 1
    members := [{ serac := 0, entry := 5, record := r, die := 0, part := 0, s1root := some 0x3000, tenant := 0, gang := 0, lost := false }]
    pages := [], chunks := [], writtenTo := [] }
/-- Entry 5 of Serac die 0 is that entry, and its instance runs. -/
def coll (x : Inst) : State :=
  { (comm1 w0).setPosted 0 5 (entry1 x) with runs := [run1c record1] }
/-- What holds of the entry's instance. -/
def inst0 (t : State) (p : Inst → Bool) : Bool := (t.posted 0 5).insts.head?.any p
def ticket1 : Ticket := { coord := 0, comm := 0, inst := 0, rank := 1, prev := 0, alg := 3, chunk := 65536, die := 0 }

/-- CollectiveResults: a post that is accepted. -/
theorem test_meets_Post :
    let s := (bytesAt (comm1 w0) 0x20000 record1).setCtx 0 { c0 with wait := .cpostSent 4 0x20000 none }
    (s.takeEntry 0).isSome = true ∧ (readRange s c0 0x20000 256).fault = none ∧ (readRange s c0 0x20000 256).bytes.map (·.1) = record1 ∧
    recPersist record1 = false := by decide +kernel

/-- CollectiveResults: a notice of two that is held, a request for a rank, a ticket that comes and is taken. -/
theorem test_meets_Tickets :
    let note : Notice := { comm := 0, inst := 1, rank := 0, fields := [], chunk := 0, faulted := false }
    let ready (x : Inst) : State := (coll x).updSerac 0 fun d => { d with tickets := [(0, ticket1)] }
    ((coll (inst1 .posted)).commOf 0 0).any (fun m => m.size == 1 && m.vc == 2) = true ∧
    after (exec (.coordinatorNotice 0 0) ((comm1 w0).updSerac 0 fun d => { d with notices := [note] })) (fun t =>
      (t.serac 0).heldNotices == [note] && (t.serac 0).notices == []) = true ∧
    after (exec (.ticketRequest 0) ((comm1 w0).updSerac 0 fun d => { d with tseq := 0x10000, seqQueue := [⟨ticket1, [0]⟩] })) (fun t =>
      (t.serac 0).seqRank == 1 && (t.serac 0).tickets == [(0, ticket1)]) = true ∧
    ((ready (inst1 .posted)).memberInst 0 0 0 0 0).isSome = true ∧
    after (exec (.ticketTake 0 0) (ready (inst1 .posted))) (fun t => inst0 t fun x => x.state == .ticketed && x.rank == 1) = true ∧
    (ready (inst1 .ticketed)).chainReady 0 0 ticket1 = true ∧
    after (exec (.ticketTake 0 0) (ready (inst1 .ticketed))) (fun t => (t.serac 0).tickets == [] && inst0 t fun x => x.taken) = true := by decide +kernel

/-- CollectiveResults: a reservation with room, its confirmation. -/
theorem test_meets_Reservation :
    let s := coll { inst1 .ticketed with taken := true }
    (s.waitingClaim 0 5).any (fun c => !(s.serac 0).tooBig c && (s.reserveWith 0 c).any (·.isEmpty)) = true ∧
    after (exec (.reservation 0 5) s) (fun t => inst0 t fun x => x.state == .reserved) = true ∧
    after (exec (.confirmation 0 5) (coll (inst1 .reserved))) (fun t => t.runs.length == 2 && inst0 t fun x => x.state == .running) = true := by
  decide +kernel

/-- A record of an allreduce of two int32, source 0x20000, destination 0x20100. -/
def record2 : List Byte :=
  fields [(4, 0), (4, 1), (4, 0), (4, 0), (8, 0x20000), (8, 0x20100), (8, 8), (4, 3), (4, 0), (4, 0), (4, 0), (8, 0), (4, 2 ^ 32 - 1), (4, 0)] ++
    List.replicate 184 0
/-- That collective runs at entry 5 of Serac die 0, of one member, or of a second one on package 1; its source holds 3 and 4. -/
def reduces (f : CollRun → CollRun) : State :=
  { bytesAt ((comm1 w0).setPosted 0 5 { entry1 (inst1 .running) with record := record2 }) 0x20000 [3, 0, 0, 0, 4] with runs := [f (run1c record2)] }
def far (r : CollRun) : CollRun := { r with members := r.members ++ r.members.map fun m => { m with serac := 2, die := 8 } }
def pick1 (left : Option (Nat × Nat × Nat)) : Pick := { coord := 0, comm := 0, inst := 0, rank := 0, left := left }

/-- CollectiveResults: chunk boundaries of the ALUs and of a link; a link's chunk with credits and with none, one within the die, one
whose page is absent, a reduction; a credit that comes back, a lost Serac die. -/
theorem test_meets_Chunks :
    let bytes (b : List Byte) : List (Byte × Bool) := b.map fun x => (x, false)
    let src := bytes [3, 0, 0, 0, 4, 0, 0, 0]
    let picked (s : State) (k n : Nat) : State := s.updSerac 0 fun d => { d with picks := [(k, pick1 none)], spent := [(2, n)] }
    let held (r : CollRun) : CollRun := { r with chunks := [(0, 0, 0, src)] }
    let lost (r : CollRun) : CollRun := { r with members := r.members.map fun m => { m with record := fields [(16, 1 * 2 ^ 32), (8, 0x40000000), (8, 0x20100), (8, 8), (24, 3)] } }
    ((reduces held).chunkCands 0 .alu).length = 1 ∧ ((reduces far).chunkCands 0 (.link 0)).length = 1 ∧
    ((reduces id).serac 0).picks = [] ∧ ((reduces far).serac 0).picks = [] ∧
    after (exec (.chunkTransfer 0 (.link 0) [0, 1]) (picked (reduces far) 1 126)) (fun t => (t.serac 0).credits 0 2 == 1 && (t.serac 0).picks == [] &&
      t.runs.map (·.chunks) == [[(0, 1, 0, src)]]) = true ∧
    after (exec (.chunkTransfer 0 (.link 0) [0, 1]) (picked (reduces far) 1 128)) (fun t =>
      (SMap.find (t.serac 0).picks 1).any fun p => p.left == some (0, 1, 1)) = true ∧
    after (exec (.chunkTransfer 0 .within [0, 0, 0, 0, 0, 0]) (reduces id)) (fun t => t.runs.map (·.chunks) == [[(0, 0, 0, src)]]) = true ∧
    after (exec (.chunkTransfer 0 .within [0, 0, 0, 0, 0, 0]) (reduces lost)) (fun t => t.runs.map (·.pages) == [[0]]) = true ∧
    after (exec (.chunkTransfer 0 .alu [0, 0]) (picked (reduces held) 0 0)) (fun t => (t.serac 0).picks == [] && t.memByte 0x20100 == 3 &&
      t.memByte 0x20104 == 4 && t.runs.map (·.writtenTo) == [[(0, 0)]]) = true ∧
    after (exec (.creditReturn 0 0 2) (picked (reduces id) 1 126)) (fun t => (t.serac 0).credits 0 2 == 3) = true ∧
    after (exec (.peerUnreachable 0 7) (reduces id)) (fun t => (t.serac 0).unreachable == [7]) = true := by decide +kernel

/-- CollectiveResults: an instance that becomes DONE, gives its signal, ends, faults. -/
theorem test_meets_Completion :
    let f : FaultMsg := { coord := 0, comm := 0, inst := 0, rank := 0, cause := 4, sub := 0 }
    let s := (coll (inst1 .running)).updSerac 0 fun d => { d with faultMsgs := [f] }
    after (exec (.instanceComplete 0 5) (coll (inst1 .running))) (fun t => inst0 t fun x => x.state == .done && x.stage == 1) = true ∧
    after (exec (.instanceComplete 0 5) ((coll (inst1 .running)).setPosted 0 5 { entry1 { inst1 .done with stage := 1 } with s1root := some 0x3000 }))
      (fun t => t.home64 0 0x30040 == 1 && inst0 t fun x => x.stage == 2) = true ∧
    recTarget record1 = 2 ^ 32 - 1 ∧
    after (exec (.instanceComplete 0 5) (coll { inst1 .done with stage := 2 })) (fun t => inst0 t fun x => x.stage == 3) = true ∧
    after (exec (.instanceFault 0 5) s) (fun t => (t.serac 0).faultMsgs == [] && inst0 t fun x => x.state == .fault && x.cause == 4) = true := by
  decide +kernel

/-! ### The host port, boot, power -/

/-- PackageResults: the host port booted and in recovery, soft errors, a boot of an empty flash, a loss of power. -/
theorem test_meets_Package :
    let b (st : BootState) : State := w0.updSerac 0 fun d => { d with boot := st }
    after (exec (.hostWrite 0 0x30000 [7, 8]) (b (.booted 0))) (fun t => t.memByte 0x30000 == 7 && t.memByte 0x30001 == 8) = true ∧
    (b (.booted 0)).deviceAt { pkg := 0, pa := 0x30000, home := 8, dev := false, own := false } = none ∧
    after (exec (.hostWrite 0 0x10002 [7]) (b .recovery)) (fun t => (t.serac 0).flash.slotA == [0, 0, 7]) = true ∧
    after (exec (.hostRead 0 0x1000 2) (b (.booted 0))) (fun t => (t.serac 0).hostRead == [1, 0x20]) = true ∧
    after (exec (.sramEccError (.memLine 0 5)) w0) (fun t => t.linePoisoned 0 5) = true ∧
    after (exec (.sramEccError (.vreg 0 3)) w0) (fun t => ctx0 t fun c => c.be.vec.poison.getLsbD 3) = true ∧
    after (exec (.sramEccError (.sreg 0 3)) w0) (fun t => ctx0 t fun c => c.thread.regPoison 3) = true ∧
    c0.status = .resident ∧ c0.sch.freeze = none ∧
    after (exec (.sramEccError (.context 0)) w0) (fun t => ctx0 t fun c => c.sch.freeze.any fun f => f.fatal && f.cause.cls == 2) = true ∧
    after (exec (.powerLoss 0 none) w0) (fun t => t.memByte 0x1000 == 0 && t.contexts == []) = true ∧
    after (exec (.retirement 0 ⟨.core 3, false⟩) w0) (fun t => (t.core 3).retired && (t.serac 0).flash.retireList.length == 1) = true ∧
    after (exec (.retirement 0 ⟨.core 3, true⟩) (w0.updCore 3 fun r => { r with retired := true })) (fun t => !(t.core 3).retired) = true := by
  decide +kernel
theorem test_boot_count : Flash.blank.countBoot.1 = 1 ∧ Flash.blank.countBoot.2.boot0.valid countMagic = true ∧
    crc32 [0x31, 0x32, 0x33, 0x34, 0x35, 0x36, 0x37, 0x38, 0x39] = 0xCBF43926 := by decide +kernel

/-- CollectiveResults: a post of a record that is no good, a persistent one and its re-post; notices that complete an instance, agree, and
differ; a ticket out of turn and one whose instance is gone; a need beyond the die; a claim that takes another's slots. -/
theorem test_meets_Posts :
    let ask (r : List Byte) : State := ((bytesAt (comm1 w0) 0x20000 r).setCtx 0 { c0 with wait := .cpostSent 4 0x20000 none }).updDie 0 fun d =>
      { d with parts := [(0, { PartRegs.reset with eng := 15 })] }
    let bad := fields [(4, 5)] ++ record1.drop 4
    let lasting := record1.take 12 ++ fields [(4, 1)] ++ record1.drop 16
    let again := lasting.take 72 ++ fields [(8, 0x30005)] ++ lasting.drop 80
    let old := (ask again).setPosted 0 5 { entry1 (inst1 .done) with record := lasting, persistent := true }
    let note (f : List Byte) (x : Bool) : Notice := { comm := 0, inst := 0, rank := 0, fields := f, chunk := 65536, faulted := x }
    let said (n : Notice) : State := (comm1 w0).updSerac 0 fun d => { d with notices := [n] }
    let late := (coll (inst1 .ticketed)).updSerac 0 fun d => { d with tickets := [(0, { ticket1 with prev := 7 })] }
    let gone := (comm1 w0).updSerac 0 fun d => { d with tickets := [(0, ticket1)] }
    recordOk bad = false ∧ recPersist lasting = true ∧ recHandle again ≠ 0 ∧
    ((ask record1).posterRank c0 0 0).isSome = true ∧ (old.handleEntry c0 0 0x30005).isSome = true ∧
    after (exec (.coordinatorNotice 0 0) (said (note [] false))) (fun t => (t.serac 0).seqQueue.length == 1) = true ∧
    after (exec (.coordinatorNotice 0 0) (said (note [] true))) (fun t => (t.serac 0).faultMsgs.length == 1) = true ∧
    after (exec (.ticketTake 0 0) late) (fun t => (t.serac 0).tickets.length == 1) = true ∧
    after (exec (.ticketTake 0 0) gone) (fun t => (t.serac 0).tickets == [] && SMap.find (t.serac 0).takenRank 0 == some 1) = true := by
  refine ⟨?_, ?_, ?_, ?_, ?_, ?_, ?_, ?_, ?_⟩ <;> decide +kernel
theorem test_meets_Claims :
    let tight (n : Nat) : State := (coll { inst1 .ticketed with taken := true, rank := 1 }).updSerac 0 fun d =>
      { d with grants := [(0, n)], entries := d.entries ++ [(6, entry1 { inst1 .reserved with rank := 2, number := 1 })] }
    after (exec (.reservation 0 5) (tight 0)) (fun t => (t.serac 0).faultMsgs.length == 1) = true ∧
    (((tight 0x10001).waitingClaim 0 5).bind fun c => (tight 0x10001).reserveWith 0 c).map (·.map (·.entry)) = some [6] ∧
    after (exec (.instanceFault 0 5) (coll { inst1 .fault with cause := 4 })) (fun t => (t.serac 0).fault.dropped == 1 && inst0 t fun x => x.stage == 3) = true ∧
    ((coll (inst1 .running)).commOf 0 0).any (fun m => m.words.any fun w => memberSerac w == 0) = true ∧
    after (exec (.instanceComplete 0 5) ((coll { inst1 .done with stage := 2 }).setPosted 0 5
      { entry1 { inst1 .done with stage := 2 } with record := record1.take 64 ++ fields [(4, 0), (4, 3)] ++ record1.drop 72 }))
      (fun t => (t.ctx 0).any fun c => c.thread.ulipend == 8) = true := by
  refine ⟨?_, ?_, ?_, ?_, ?_⟩ <;> decide +kernel

/-- PackageResults: a boot of the slot its marker names, an update of the other; flashes with a lost count and a lost marker; recovery's
writes; a control page; a threshold that is passed, reported to the host too; sites of soft errors; requests of a die that is not booted. -/
theorem test_meets_Boot :
    let copy (magic : BitVec 32) (v slot : BitVec 32) : FlashCopy := FlashCopy.make magic v slot
    let f : Flash := { Flash.blank with marker0 := copy markerMagic 3 1, boot0 := copy countMagic 4 0, boot1 := copy countMagic 5 0 }
    let b (st : BootState) : State := w0.updSerac 0 fun d => { d with boot := st, flash := f }
    let near (eq fw : Word) (n : Nat) : State := (w0.updDie 0 fun d => { d with errors := [(7, (n, 3, false))], fault := { d.fault with eqbase := eq } }).updSerac 0
      fun d => { d with fwmode := fw }
    let held := reduces fun r => { r with chunks := [(0, 0, 0, List.replicate 130 (0, false))] }
    f.kept = some f.marker0 ∧ f.countsFirst = true ∧ f.countBoot.1 = 6 ∧ (f.setBoot f.countsFirst FlashCopy.blank).boot1.valid countMagic = true ∧
    f.bootSlot = none ∧ ({ Flash.blank with slotA := [] } : Flash).kept = none ∧
    after (exec (.resetBoot ⟨0, none⟩) (b .inReset)) (fun t => (t.serac 0).boot == .recovery && (t.serac 0).bootCount == 6) = true ∧
    after (exec (.powerLoss 0 (some (.bootCount 0))) (b .inReset)) (fun t => (t.serac 0).flash.boot1 == f.boot1) = true ∧
    after (exec (.powerLoss 0 (some (.marker 0 [1]))) (b (.booted 1))) (fun t => (t.serac 0).flash.marker0 == f.marker0 && (t.serac 0).flash.slotA == [1]) = true ∧
    after (exec (.sramEccError (.corrected (.cobalt 0) 7)) (near 0 0 2)) (fun t => (t.die 0).errors == [(7, (3, 3, false))]) = true ∧
    after (exec (.sramEccError (.corrected (.cobalt 0) 7)) (near 0x40004 0x20 3)) (fun t => (t.die 0).errors == [(7, (4, 3, true))] &&
      (t.serac 0).hostInbox.length == 1) = true ∧
    after (exec (.sramEccError (.chunk 0 0 0 0 1)) held) (fun t => (t.runs.head?.bind (·.chunks.head?)).any fun x =>
      !(x.2.2.2.getD 63 (0, true)).2 && (x.2.2.2.getD 64 (0, false)).2) = true ∧
    after (exec (.dumpKeyDelivery 0 3 9) (b .recovery)) (fun t => (t.serac 0).dumpKeys == []) = true := by
  refine ⟨?_, ?_, ?_, ?_, ?_, ?_, ?_, ?_, ?_, ?_, ?_, ?_, ?_⟩ <;> decide +kernel
theorem test_meets_HostPage :
    let s : State := { w0.updSerac 0 (fun d => { d with boot := .booted 0 }) with devMap := [(0x70, (.invalidation 0, 0))] }
    s.deviceAt { pkg := 0, pa := 0x70000, home := 8, dev := false, own := false } = some (.invalidation 0, 0) ∧ isControl (.invalidation 0) = true ∧
    s.holdsEntry (.invalidation 0) true = false ∧
    after (exec (.hostWrite 0 0x70000 [0, 0, 1, 0, 0, 0, 0, 0]) s) (fun t => (t.die 0).invaddr == 0) = true ∧
    after (exec (.hostWrite 0 0x70000 [0, 0, 1, 0, 0, 0, 0, 0]) (s.updSerac 0 fun d => { d with fwmode := 0x3F })) (fun t => (t.die 0).invaddr == 0x10000) = true := by
  refine ⟨?_, ?_, ?_, ?_, ?_⟩ <;> decide +kernel

/-! ### Further clauses of the statements -/

/-- A load of the byte at 0x20000 into s4 that waits, `age` PHASEs at CORE scope old. -/
def late1 (age : Nat) : GenLoad :=
  { d := 4, loc := ⟨0, 0x20000, 0, false, false⟩, size := 1, signed := true, emit := 0, before := none, age := age }
/-- A context of physical addresses: page 0x70 is a register page, the die's invalidation registers. -/
def cDev : Context := { c0 with id := { c0.id with s1root := none }, thread := (c0.thread.setReg 1 0x70000 false).setReg 2 0x123456 false }
def dev1 : State := { at0 cDev with devMap := [(0x70, (.invalidation 0, 0))] }

/-- LoadResults, GeneratorWaits, ZeroRegister: a load that is performed later, one of an earlier phase that the next load performs, PHASEG at
CORE scope with a load that waits. -/
theorem test_meets_LateLoads :
    let base := thr fun t => t.setReg 1 0x20000 false
    let old := thr fun t => { t.setReg 1 0x20000 false with loads := [late1 1] }
    (∀ x ∈ base.thread.loads, x.age = 0) ∧
    after (exec (.ldb 0 1 3) { at0 base with late := true }) (fun t => ctx0 t fun c => c.thread.loads.length == 1 && c.thread.pc == 0x10004) = true ∧
    after (exec (.ldb 0 1 3) (bytesAt (at0 old) 0x20000 [0x80])) (fun t => ctx0 t fun c =>
      c.thread.loads == [] && c.thread.reg 3 == c.thread.reg 4 && c.thread.reg 4 == 0xFFFFFFFFFFFFFF80) = true ∧
    after (exec (.phaseg 0) (at0 (thr fun t => { t with loads := [late1 0] }))) (fun t => ctx0 t fun c => c.thread.loads == [late1 1]) = true := by
  refine ⟨?_, ?_, ?_, ?_⟩ <;> decide +kernel

/-- LoadResults, StoreResults: R46: a store to a register page reaches the register, a load reads it. -/
theorem test_meets_DeviceSpace :
    translate dev1 cDev 0x70000 .genStore = .ok ⟨0, 0x70000, 0, true, false⟩ ∧
    translate dev1 cDev 0x70000 .genLoad = .ok ⟨0, 0x70000, 0, true, false⟩ ∧
    dev1.deviceAt ⟨0, 0x70000, 0, true, false⟩ = some (.invalidation 0, 0) ∧
    after (exec (.std 0 1 2) dev1) (fun t => (t.die 0).invaddr == 0x120000 && ctx0 t fun c => c.ord.pbuf == []) = true ∧
    after (exec (.ldd 0 1 3) (dev1.updDie 0 fun d => { d with invaddr := 0x50000 })) (fun t => ctx0 t fun c => c.thread.reg 3 == 0x50000) = true := by
  refine ⟨?_, ?_, ?_, ?_, ?_⟩ <;> decide +kernel

/-- AccessTraps: LDZ and STZ at an address that is no multiple of 8 and at one beyond 2^57; uses of a poisoned register; CSRW of a CSR the
thread may write. -/
theorem test_meets_AccessTraps :
    let z (v : Word) : Context := { cH with id := { cH.id with zrel := [(1, v)] } }
    let p : Context := { cH with thread := cH.thread.setReg 1 0x20000 true }
    ((z 4).zrel 1 + 0).toNat % 8 ≠ 0 ∧ translate (at0 (z (1 <<< 57))) (z (1 <<< 57)) (1 <<< 57) .genLoad = .error ⟨1, 1 <<< 57⟩ ∧
    after (exec (.ldz 0 1 3) (at0 (z 4))) (fun t => ctx0 t fun c => c.thread.tcause == 2 && c.thread.tval == 4) = true ∧
    after (exec (.stz 0 1 3) (at0 (z (1 <<< 57)))) (fun t => ctx0 t fun c => c.thread.tcause == 0x103 && c.thread.tval == 1 <<< 57) = true ∧
    p.thread.regPoison 1 = true ∧ p.Handles ∧ csrCheck p.isFirmware true 0x20 = none ∧
    after (exec (.beq 4 1 2) (at0 p)) (fun t => ctx0 t fun c => c.thread.tcause == 4 && c.thread.pc == 0x100) = true ∧
    after (exec (.csrw 0x20 1 2) (at0 p)) (fun t => ctx0 t fun c => c.thread.tcause == 4 && c.thread.tvec == 0x100) = true := by
  refine ⟨?_, ?_, ?_, ?_, ?_, ⟨?_, ?_⟩, ?_, ?_, ?_⟩ <;> decide +kernel

/-- EmitTraps: EMITM at an offset that is no multiple of 4, with its header beyond the template section, with its image beyond it, of a
header R58 forbids, of a poisoned image. -/
theorem test_meets_EmitmTraps :
    let c (a : Word) : Context := { cH with thread := cH.thread.setReg 1 a false }
    let code (s : State) (a : Word) : Word := match exec (.emitm 0 1) (s.setCtx 0 (c a)) with
      | .next t => if ctx0 t (fun c => c.thread.pc == 0x100 && c.thread.inTrap) then ((t.ctx 0).map (fun c => c.thread.tcause)).getD 0 else 0
      | _ => 0
    let img := w0.placeWord 0 (c0.id.templPa + 0) 2
    let edge := w0.placeWord 0 (c0.id.templPa + (c0.id.templSize - 4)) 2
    code w0 2 = 2 ∧ code w0 (BitVec.ofNat 64 c0.id.templSize) = 0x103 ∧ code edge (BitVec.ofNat 64 (c0.id.templSize - 4)) = 0x103 ∧
    code w0 0 = 6 ∧ code { img with poison := [c0.id.templPa / 64] } 0 = 4 := by
  refine ⟨?_, ?_, ?_, ?_, ?_⟩ <;> decide +kernel

/-- MatrixIssue: an MMA of integer formats whose accumulator is a floating one raises FMTACC; FatalTrap: a trap of every code is taken at
the handler. -/
theorem test_meets_FmtAcc :
    let s := (iss { c0 with be := { c0.be with fmt := ⟨5, 5, 0⟩ } }).updDie 0 (fun d => { d with parts := [(0, { PartRegs.reset with eng := 1 })] })
    fmtClass 5 = fmtClass 6 ∧ ¬ ((0 : BitVec 1) = 1 ↔ fmtClass 5 = 4) ∧
    after (exec (.mma ⟨0, 0, 0, 0, 0, 0, 0, 0, 0, 1, 0⟩) s) (fun t => record t fun e => e.now.any (fun f => f.cause == bFMTACC)) = true ∧
    ((at0 cH).takeTrap 0 11 2 0x40 0x99 false).ctx 0 = some { cH with thread := { cH.thread with
      pc := 0x100, tpc := 0x40, tval := 0x99, tcause := trapCause 11 2 false, tstate := mkTstate 0 0 false true, boundary := true } } := by
  refine ⟨?_, ?_, ?_, ?_⟩ <;> decide +kernel

/-- LoadAnswers: a byte of a poisoned buffer entry beside a byte of a clean write on its way poisons the answer. -/
theorem test_meets_MixedAnswer :
    let o : OrdState := { c0.ord with pbuf := [{ sentWrite with mask := 1, poison := true }], transit := [{ sentWrite with mask := 2 }] }
    (answerLine (at0 c0) none o 0 0x800 3).2.1 = true ∧ (answerLine (at0 c0) none o 0 0x800 2).2.1 = false := by
  refine ⟨?_, ?_⟩ <;> decide +kernel

/-- RoundingResults: fields within their bounds, values that are numbers. -/
theorem test_meets_Rounding : (0x7FFFFF : Nat) < 2 ^ fmtF32.tbits ∧ (254 : Nat) < 2 ^ fmtF32.ebits ∧ 254 + 1 < 2 ^ fmtF32.ebits ∧
    fmtE4M3.noInf = true ∧ 15 * 2 ^ fmtE4M3.tbits + 6 < 0x7F ∧ (FVal.fin false 1 0).Is 1 ∧ (FVal.fin true 0 0).Is 0 := by
  refine ⟨by decide, by decide, by decide, rfl, by decide, ⟨false, 1, 0, rfl, by simp⟩, ⟨true, 0, 0, rfl, by simp⟩⟩
/-- R178 and the table "Overflow results": 1/3 to nearest, the largest binary32 doubled under two modes. -/
theorem test_rounding : fmtF32.divide (.fin false 1 0) (.fin false 3 0) 0 false = (0x3EAAAAAB, flINX) ∧
    fmtF32.encode (.fin false 0xFFFFFF 105) 0 false = (0x7F800000, flOVF ||| flINX) ∧
    fmtF32.encode (.fin false 0xFFFFFF 105) 1 false = (0x7F7FFFFF, flOVF ||| flINX) := by
  refine ⟨?_, ?_, ?_⟩ <;> decide +kernel

/-- ResidencyResults: a context RESIDENT on a retired core (R282). -/
theorem test_meets_Retired :
    let s := (at0 (pre .drain none)).updCore 0 fun r => { r with retired := true }
    (s.core (pre .drain none).coreKey).retired = true ∧ s.onRetired (pre .drain none) = true ∧ (at0 c0).onRetired c0 = false ∧
    after (exec (.contextDrain 0) s) (fun t => ctx0 t fun c => c.status == .resident) = true := by
  refine ⟨?_, ?_, ?_, ?_⟩ <;> decide +kernel

/-- CopyResults: a read ahead with no line moved, and one of the line the channel moved last; a fragment for a context frozen with its core
(log entry 68). -/
theorem test_meets_Ahead :
    let o := copy1 1 .running nestTile
    let none_ := (cp o).updCore 0 fun r => { r with chanLines := [], chanAt := [] }
    let same := (cp o).updCore 0 fun r => { r with chanLines := [], chanAt := [(1, 0x800)] }
    let frag := (cp { copy1 7 .sent (nestOf [(3, 4)]) with sent := [(1, false)] }).updCore 0 fun r => { r with retired := true }
    CopyOp.readLines (cp o) c0 o 0 = [0x800] ∧ o.readAt 0 = some (0x20000, 4) ∧ c0.loadsBefore 1 = false ∧
    after (exec (.copyChunk 0 1 (some 0)) none_) (fun t => head1 t fun o => o.got == []) = true ∧
    after (exec (.copyChunk 0 1 (some 0)) same) (fun t => head1 t fun o => o.got.length == 1) = true ∧
    after (exec (.fragmentArrival 0 1) frag) (fun t => head1 t fun o => o.state == .answered false true) = true := by
  refine ⟨?_, ?_, ?_, ?_, ?_, ?_⟩ <;> decide +kernel

/-- TransferResults: an engine whose template is not yet read reads it. ServiceResults: a second retirement of a unit lists nothing.
QueueControl, PacketResults: a fetched copy, and a RUNNING queue whose pointers lie too far apart. -/
theorem test_meets_Again :
    let again : BtEngine := { engine1 with run := some { run1 1 0 with templ := [], arg := [] } }
    let q := qs [pk 0 1 0] fun q => { q with copies := [⟨q.pos, [1]⟩] }
    let back := qs [] fun q => { q with wptr := 600 }
    after (exec (.btTakeStart 0 2) (bts 1 again)) (fun t => (t.bt 0 2).run == some (run1 1 0)) = true ∧
    after (exec (.retirement 0 ⟨.core 3, false⟩) (w0.updCore 3 fun r => { r with retired := true })) (fun t =>
      (t.serac 0).flash.retireList == []) = true ∧
    after (exec (.packetFetch 0 5) q) (fun t => queue0 t fun q => q.copies == [⟨q.pos, [BitVec.ofNat 64 (pk 0 1 0)]⟩]) = true ∧
    (back.queue 0 5).overrun = true ∧ queue0 (back.checkPtr 0 5) (fun q => q.state == 2 && q.cause == 7) = true := by
  refine ⟨?_, ?_, ?_, ?_, ?_⟩ <;> decide +kernel

/-- CollectiveResults: lost Serac dies (R319, R341, R348): a coordinator whose sequencer is lost, a ticket whose member is; a post in
recovery; a link that is retired, a transfer named that cannot go, a last link that goes. -/
theorem test_meets_Lost :
    let note : Notice := { comm := 0, inst := 0, rank := 0, fields := [], chunk := 65536, faulted := false }
    let post := ((bytesAt (comm1 w0) 0x20000 record1).setCtx 0 { c0 with wait := .cpostSent 4 0x20000 none }).updSerac 0 fun d =>
      { d with boot := .recovery }
    let picked := (reduces far).updSerac 0 fun d => { d with picks := [(1, pick1 none)] }
    let causes (t : State) : List Nat := (t.serac 0).faultMsgs.map (·.cause)
    after (exec (.coordinatorNotice 0 0) ((comm1 w0).updSerac 0 fun d => { d with notices := [note], tseq := 1, unreachable := [2] }))
      (fun t => causes t == [7]) = true ∧
    after (exec (.ticketRequest 0) ((comm1 w0).updSerac 0 fun d => { d with tseq := 0x10000, seqQueue := [⟨ticket1, [0, 1]⟩], unreachable := [2] }))
      (fun t => causes t == [7] && (t.serac 0).seqRank == 0) = true ∧
    after (exec (.postAccept 0) post) (fun t => ctx0 t fun c => c.wait == .cpostSent 4 0x20000 none) = true ∧
    after (exec (.chunkTransfer 0 (.link 0) [0, 1]) (picked.updSerac 0 fun d => { d with retiredLinks := [0] }))
      (fun t => (t.serac 0).picks == []) = true ∧
    after (exec (.chunkTransfer 0 (.link 0) [0, 0]) picked) (fun t => (t.serac 0).picks == [(1, pick1 none)]) = true ∧
    ({ Serac.reset with retiredLinks := List.range 24 } : Serac).routed = false ∧ Serac.reset.routed = true := by
  refine ⟨?_, ?_, ?_, ?_, ?_, ?_, ?_⟩ <;> decide +kernel

/-- PackageResults: soft errors of a composer slot, a phase-buffer entry, a landing entry; an update that is complete when the power goes; a
dump key. -/
theorem test_meets_Sites :
    let b := w0.updSerac 0 fun d => { d with boot := .booted 1 }
    after (exec (.sramEccError (.composer 0 3)) w0) (fun t => ctx0 t fun c => c.thread.cpoison.getLsbD 3) = true ∧
    after (exec (.sramEccError (.phaseEntry 0 0)) (at0 (ordc fun o => { o with pbuf := [sentWrite] }))) (fun t => ctx0 t fun c =>
      c.ord.pbuf == [{ sentWrite with poison := true }]) = true ∧
    after (exec (.sramEccError (.landing 0 0)) (at0 (flt fun f => { f with landings := [landing [] false] }))) (fun t => ctx0 t fun c =>
      c.fl.landings == [{ landing [] false with poison := true }]) = true ∧
    after (exec (.powerLoss 0 (some (.updated 0 [1]))) b) (fun t => (t.serac 0).flash.slotA == [1] && t.contexts == []) = true ∧
    after (exec (.dumpKeyDelivery 0 3 9) b) (fun t => (t.serac 0).dumpKeys == [(3, 9)] && (t.serac 0).mgmtInbox.length == 1) = true := by
  refine ⟨?_, ?_, ?_, ?_, ?_⟩ <;> decide +kernel

/-- PackageResults: a management request meets one of the two cases, whatever the free choice is. -/
theorem test_meets_Redfish (n : Nat) (request : List Byte) :
    (w0.updSerac 0 fun d => { d with boot := .booted 0 }).serac 0 = { w0.serac 0 with boot := .booted 0 } ∧
    (Config.redfishUpdate n request = none ∨ ∃ u, Config.redfishUpdate n request = some u) := by
  refine ⟨by decide, ?_⟩
  cases Config.redfishUpdate n request with
  | none => exact .inl rfl
  | some u => exact .inr ⟨u, rfl⟩

/-- R333: AES-256-GCM of 16 zero bytes under key 0, nonce 0 (test case 14 of the algorithm's specification): ciphertext, then tag. -/
theorem test_aes : aesGcm 0 (List.replicate 12 0) [] (List.replicate 16 0) =
    [0xCE, 0xA7, 0x40, 0x3D, 0x4D, 0x60, 0x6B, 0x6E, 0x07, 0x4E, 0xC5, 0xD3, 0xBA, 0xF3, 0x9D, 0x18,
     0xD0, 0xD1, 0xC8, 0xA7, 0x99, 0x99, 0x6B, 0xF0, 0x26, 0x5B, 0x98, 0xB5, 0xD4, 0x8A, 0xB9, 0x19] := by decide +kernel

end Sys2Proof.Tests
end

section
/-! PROOFS. The generator's checks, its trap instruction and the return from a handler (R126, R130, R131). -/

namespace Sys2Proof.Machine

/-! ### The faults that instructions share -/

/-- ILLINS carries the instruction's word. -/
theorem illins_traps (s : State) (c : Context) (h : s.Executes c) (hh : c.Handles) (i : Instr) (sub : Nat) :
    Traps s c (.next (s.illins i sub)) 1 sub c.thread.pc (((encodeGen i).getD 0).setWidth 64) false :=
  genFault_traps s c h hh gILLINS sub _

theorem poisonUse_traps (s : State) (c : Context) (h : s.Executes c) (hh : c.Handles) :
    Traps s c (.next s.poisonUse) 4 0 c.thread.pc 0 false :=
  genFault_traps s c h hh gPOISON 0 0

/-! ### What may follow an instruction that goes on -/

/-- An update of the executing context stays inside the frame. -/
theorem GenFrame.updCtx {s t : State} (h : GenFrame s t) (g : Context → Context) : GenFrame s (t.updCtx s.cur g) where
  mem a := by rw [← h.mem a]; simp [State.memByte]
  poison := by simp [h.poison]
  others k hk := (State.ctx_updCtx_ne t g hk).trans (h.others k hk)
  rest := by
    obtain ⟨contexts, hctx⟩ : ∃ contexts, t.updCtx s.cur g = { t with contexts := contexts } := by
      unfold State.updCtx; split <;> exact ⟨_, rfl⟩
    rw [hctx]
    conv_lhs => rw [h.rest]
  rings k := by rw [State.updCtx_core]; exact h.rings k

/-- A record in the frost ring leaves what an instruction answers as it is. -/
theorem GoesOn.addFrost {s t : State} {c : Context} {next : Word} (h : GoesOn s c (.next t) next)
    (k kind : Nat) (p : BitVec 96) : GoesOn s c (.next (t.frost k kind p)) next := by
  obtain ⟨_, c', ht, hctx, hregs, hpc, hloops, hctxFrame, hthread, hframe⟩ := h
  cases ht
  exact ⟨_, c', rfl, (State.frost_ctx ..).trans hctx, hregs, hpc, hloops, hctxFrame, hthread, hframe.addFrost k kind p⟩

/-- The point after an instruction may be made a boundary of the thread (R136). -/
theorem GoesOn.markBoundary {s t : State} {c : Context} {next : Word} (h : GoesOn s c (.next t) next) :
    GoesOn s c (.next (t.updCtx s.cur fun c => { c with thread := { c.thread with boundary := true } })) next := by
  obtain ⟨_, c', ht, hctx, hregs, hpc, hloops, hctxFrame, hthread, hframe⟩ := h
  cases ht
  refine ⟨_, { c' with thread := { c'.thread with boundary := true } }, rfl, ?_, ⟨hregs.value, hregs.tag⟩, hpc, hloops,
    ?_, ?_, hframe.updCtx _⟩
  · rw [State.ctx_updCtx_self, hctx]; rfl
  · unfold Context.OnlyThread at *
    conv_lhs => rw [hctxFrame]
  · unfold Thread.OnlyFlow at *
    conv_lhs => rw [hthread]

/-! ### The return from a handler (R131) -/

theorem Thread.xret_of_inTrap (t : Thread) (h : t.inTrap = true) :
    t.xret = some ({ t with tstate := mkTstate t.udep t.tdep t.inUli false }, t.tpc, decide (t.tcause.toNat % 256 = 11)) :=
  if_pos h

theorem Thread.xret_of_inUli (t : Thread) (ht : t.inTrap = false) (hu : t.inUli = true) :
    t.xret = some ({ t with tstate := mkTstate t.udep t.tdep false false }, t.ulipc, false) := by
  simp [Thread.xret, ht, hu]

theorem Thread.xret_outside (t : Thread) (ht : t.inTrap = false) (hu : t.inUli = false) : t.xret = none := by
  simp [Thread.xret, ht, hu]

/-- Whatever return the thread's handlers give, XRET makes it, with the back end released where it says so. -/
theorem execXret_goesOn (s : State) (c : Context) (h : s.Executes c) {t : Thread} {next : Word} {release : Bool}
    (hx : c.thread.xret = some (t, next, release)) :
    GoesOn s { (if release then c.release else c) with thread := t } (execXret s) next := by
  have hgo : GoesOn s { (if release then c.release else c) with thread := t }
      (.next (s.goOn (if release then c.release else c) t next)) next :=
    goOn_goesOn s { (if release then c.release else c) with thread := t } next
  unfold execXret
  rw [withThread_of s c h, hx]
  refine GoesOn.addFrost ?_ ..
  by_cases hb : (c.thread.inTrap && c.bundleTrap) = true
  · rw [if_pos hb]; exact hgo.markBoundary
  · rw [if_neg hb]; exact hgo

/-- XRET outside both handlers is an illegal instruction. -/
theorem execXret_traps (s : State) (c : Context) (h : s.Executes c) (hh : c.Handles) (hx : c.thread.xret = none) :
    Traps s c (execXret s) 1 2 c.thread.pc 0x48 false := by
  unfold execXret
  rw [withThread_of s c h, hx]
  exact illins_traps s c h hh .xret 2

/-! ### The obligations -/

/-- Settles O24: the two branches of GCHK are a poisoned use and a move to the next word. -/
theorem gchkRule : Obligations.GchkRule := by
  intro s c a h
  rw [exec_gchk, execGchk, withThread_of s c h]
  constructor
  · intro hp hh
    rw [if_pos hp]
    exact poisonUse_traps s c h hh
  · intro hp
    rw [hp, if_neg Bool.false_ne_true]
    exact goOn_goesOn s c _

/-- Settles O25: TRAPC takes its trap with the next word's address, where the handler may return to. -/
theorem trapcRule : Obligations.TrapcRule := by
  intro s c code h hh
  rw [exec_trapc, execTrapc, withThread_of s c h]
  exact takeTrap_traps s c h hh gTRAPC 0 _ _ false

/-- Settles O28: each clause is one of the returns that the thread's handlers give. -/
theorem xretResults : Obligations.XretResults := by
  intro s c h
  rw [exec_xret]
  refine ⟨fun ht hcause => ?_, fun ht hcause => ?_, fun ht hu => ?_, fun ht hu hh => ?_⟩
  · have hx := c.thread.xret_of_inTrap ht
    rw [decide_eq_false hcause] at hx
    exact execXret_goesOn s c h hx
  · have hx := c.thread.xret_of_inTrap ht
    rw [decide_eq_true hcause] at hx
    exact execXret_goesOn s c h hx
  · exact execXret_goesOn s c h (c.thread.xret_of_inUli ht hu)
  · exact execXret_traps s c h hh (c.thread.xret_outside ht hu)

end Sys2Proof.Machine
end

section
/-! PROOFS. Every well-formed instruction is what its own word decodes to (R65, R66). -/

namespace Sys2Proof.Machine

open Sys2Proof.Laws

/-- Settles O3: one lemma of the encoding family for each constructor. -/
theorem decodeEncode : Obligations.DecodeEncode := by
  intro i
  cases i with
  | add b a d => exact Encoding.add b a d
  | sub b a d => exact Encoding.sub b a d
  | mul b a d => exact Encoding.mul b a d
  | mulh b a d => exact Encoding.mulh b a d
  | div b a d => exact Encoding.div b a d
  | divu b a d => exact Encoding.divu b a d
  | rem b a d => exact Encoding.rem b a d
  | remu b a d => exact Encoding.remu b a d
  | and b a d => exact Encoding.and b a d
  | or b a d => exact Encoding.or b a d
  | xor b a d => exact Encoding.xor b a d
  | shl b a d => exact Encoding.shl b a d
  | shr b a d => exact Encoding.shr b a d
  | sra b a d => exact Encoding.sra b a d
  | slt b a d => exact Encoding.slt b a d
  | sltu b a d => exact Encoding.sltu b a d
  | min b a d => exact Encoding.min b a d
  | max b a d => exact Encoding.max b a d
  | minu b a d => exact Encoding.minu b a d
  | maxu b a d => exact Encoding.maxu b a d
  | clz a d => exact Encoding.clz a d
  | popc a d => exact Encoding.popc a d
  | addi i a d => exact Encoding.addi i a d
  | andi i a d => exact Encoding.andi i a d
  | ori i a d => exact Encoding.ori i a d
  | xori i a d => exact Encoding.xori i a d
  | shli i a d => exact Encoding.shli i a d
  | shri i a d => exact Encoding.shri i a d
  | srai i a d => exact Encoding.srai i a d
  | slti i a d => exact Encoding.slti i a d
  | sltiu i a d => exact Encoding.sltiu i a d
  | lui i d => exact Encoding.lui i d
  | pcadd i d => exact Encoding.pcadd i d
  | ldb i a d => exact Encoding.ldb i a d
  | ldh i a d => exact Encoding.ldh i a d
  | ldw i a d => exact Encoding.ldw i a d
  | ldd i a d => exact Encoding.ldd i a d
  | ldbu i a d => exact Encoding.ldbu i a d
  | ldhu i a d => exact Encoding.ldhu i a d
  | ldwu i a d => exact Encoding.ldwu i a d
  | stb i a b => exact Encoding.stb i a b
  | sth i a b => exact Encoding.sth i a b
  | stw i a b => exact Encoding.stw i a b
  | std i a b => exact Encoding.std i a b
  | ldz o z d => exact Encoding.ldz o z d
  | stz o z b => exact Encoding.stz o z b
  | beq i b a => exact Encoding.beq i b a
  | bne i b a => exact Encoding.bne i b a
  | blt i b a => exact Encoding.blt i b a
  | bge i b a => exact Encoding.bge i b a
  | bltu i b a => exact Encoding.bltu i b a
  | bgeu i b a => exact Encoding.bgeu i b a
  | jal i d => exact Encoding.jal i d
  | jalr i a d => exact Encoding.jalr i a d
  | loop l c => exact Encoding.loop l c
  | loopi n l => exact Encoding.loopi n l
  | lbrk => exact Encoding.lbrk
  | lidx k d => exact Encoding.lidx k d
  | bset a s => exact Encoding.bset a s
  | bfld a w p s => exact Encoding.bfld a w p s
  | bldt o a s => exact Encoding.bldt o a s
  | bhdr a => exact Encoding.bhdr a
  | emit c h s p r m => exact Encoding.emit c h s p r m
  | emitm o a => exact Encoding.emitm o a
  | nset a f n => exact Encoding.nset a f n
  | csrr c d => exact Encoding.csrr c d
  | csrw c a d => exact Encoding.csrw c a d
  | phaseg s => exact Encoding.phaseg s
  | gchk a => exact Encoding.gchk a
  | spin => exact Encoding.spin
  | yield => exact Encoding.yield
  | halt => exact Encoding.halt
  | trapc c => exact Encoding.trapc c
  | xret => exact Encoding.xret
  | cpost a d => exact Encoding.cpost a d
  | cqry a d => exact Encoding.cqry a d
  | drainq => exact Encoding.drainq
  | illegalInstruction w => exact Encoding.illegalInstruction w
  | nop slot => exact Encoding.nop slot
  | fmtset acc b a => exact Encoding.fmtset acc b a
  | qcfgSlack slack eng => exact Encoding.qcfgSlack slack eng
  | qcfgPort rv slot bank => exact Encoding.qcfgPort rv slot bank
  | stepReg n sel slot => exact Encoding.stepReg n sel slot
  | waitw bytes ch => exact Encoding.waitw bytes ch
  | sadv beats sb => exact Encoding.sadv beats sb
  | mwait c => exact Encoding.mwait c
  | ckpt => exact Encoding.ckpt
  | prog => exact Encoding.prog
  | sync => exact Encoding.sync
  | vld w => exact Encoding.vld w
  | vst w => exact Encoding.vst w
  | vldg w => exact Encoding.vldg w
  | vldgs w => exact Encoding.vldgs w
  | vstg w => exact Encoding.vstg w
  | vgth w => exact Encoding.vgth w
  | vgths w => exact Encoding.vgths w
  | vsct w => exact Encoding.vsct w
  | phase => exact Encoding.phase
  | pftch w => exact Encoding.pftch w
  | fill w => exact Encoding.fill w
  | fills w => exact Encoding.fills w
  | feed w => exact Encoding.feed w
  | feedt w => exact Encoding.feedt w
  | drain w => exact Encoding.drain w
  | addw w => exact Encoding.addw w
  | rput w => exact Encoding.rput w
  | cresm w => exact Encoding.cresm w
  | cclr w => exact Encoding.cclr w
  | aadd w => exact Encoding.aadd w
  | amin w => exact Encoding.amin w
  | amax w => exact Encoding.amax w
  | aand w => exact Encoding.aand w
  | aor w => exact Encoding.aor w
  | axor w => exact Encoding.axor w
  | aswp w => exact Encoding.aswp w
  | acas w => exact Encoding.acas w
  | red w => exact Encoding.red w
  | arv w => exact Encoding.arv w
  | arvd w => exact Encoding.arvd w
  | bwait w => exact Encoding.bwait w
  | btest w => exact Encoding.btest w
  | sig w => exact Encoding.sig w
  | swait w => exact Encoding.swait w
  | uli w => exact Encoding.uli w
  | sfence w => exact Encoding.sfence w
  | brst w => exact Encoding.brst w
  | mma w => exact Encoding.mma w
  | mld w => exact Encoding.mld w
  | mldt w => exact Encoding.mldt w
  | mst w => exact Encoding.mst w
  | mstq w => exact Encoding.mstq w
  | mclr w => exact Encoding.mclr w
  | macc w => exact Encoding.macc w
  | vadd p w => exact Encoding.vadd p w
  | vsub p w => exact Encoding.vsub p w
  | vmul p w => exact Encoding.vmul p w
  | vfma p w => exact Encoding.vfma p w
  | vfms p w => exact Encoding.vfms p w
  | vmin p w => exact Encoding.vmin p w
  | vmax p w => exact Encoding.vmax p w
  | vabs p w => exact Encoding.vabs p w
  | vneg p w => exact Encoding.vneg p w
  | vrcp p w => exact Encoding.vrcp p w
  | vrsq p w => exact Encoding.vrsq p w
  | vexp2 p w => exact Encoding.vexp2 p w
  | vdiv p w => exact Encoding.vdiv p w
  | vand p w => exact Encoding.vand p w
  | vor p w => exact Encoding.vor p w
  | vxor p w => exact Encoding.vxor p w
  | vnot p w => exact Encoding.vnot p w
  | vshl p w => exact Encoding.vshl p w
  | vshr p w => exact Encoding.vshr p w
  | vsra p w => exact Encoding.vsra p w
  | vshli p w => exact Encoding.vshli p w
  | vshri p w => exact Encoding.vshri p w
  | vmulh p w => exact Encoding.vmulh p w
  | vclz p w => exact Encoding.vclz p w
  | vwadd p w => exact Encoding.vwadd p w
  | vwacc p w => exact Encoding.vwacc p w
  | vwmul p w => exact Encoding.vwmul p w
  | vcmp p w => exact Encoding.vcmp p w
  | vsel p w => exact Encoding.vsel p w
  | qop p w => exact Encoding.qop p w
  | vcvt p w => exact Encoding.vcvt p w
  | vqnt p w => exact Encoding.vqnt p w
  | vdqnt p w => exact Encoding.vdqnt p w
  | vscan p w => exact Encoding.vscan p w
  | vred p w => exact Encoding.vred p w
  | vperm p w => exact Encoding.vperm p w
  | vbcst p w => exact Encoding.vbcst p w
  | vshfl p w => exact Encoding.vshfl p w
  | viota p w => exact Encoding.viota p w
  | vmov p w => exact Encoding.vmov p w
  | vmovi p w => exact Encoding.vmovi p w
  | vldi p w => exact Encoding.vldi p w
  | vchk p w => exact Encoding.vchk p w
  | vclrp p w => exact Encoding.vclrp p w
  | vstat p w => exact Encoding.vstat p w
  | spinLimitReached ctx => exact Encoding.spinLimitReached ctx
  | reslate ctx => exact Encoding.reslate ctx
  | coldcand ctx => exact Encoding.coldcand ctx
  | sliceEnd ctx => exact Encoding.sliceEnd ctx
  | slotTableUpdate core => exact Encoding.slotTableUpdate core
  | checkpointLatest ctx => exact Encoding.checkpointLatest ctx
  | watchdogFire ctx => exact Encoding.watchdogFire ctx
  | intervalCheckpoint ctx => exact Encoding.intervalCheckpoint ctx
  | fatalTrap ctx => exact Encoding.fatalTrap ctx
  | contextDead ctx => exact Encoding.contextDead ctx
  | rimeDump ctx => exact Encoding.rimeDump ctx
  | contextDrain ctx => exact Encoding.contextDrain ctx
  | rollback ctx => exact Encoding.rollback ctx
  | contextRestore ctx => exact Encoding.contextRestore ctx
  | coreCycle core env => exact Encoding.coreCycle core env
  | bundleCommit ctx => exact Encoding.bundleCommit ctx
  | vectorResultDue ctx => exact Encoding.vectorResultDue ctx
  | fmtTakesEffect ctx => exact Encoding.fmtTakesEffect ctx
  | landingDataArrives ctx entry => exact Encoding.landingDataArrives ctx entry
  | timedLanding ctx => exact Encoding.timedLanding ctx
  | loadPerform ctx which => exact Encoding.loadPerform ctx which
  | transitWriteApply ctx k => exact Encoding.transitWriteApply ctx k
  | snapshotLineDrop ctx line => exact Encoding.snapshotLineDrop ctx line
  | phaseSend ctx k => exact Encoding.phaseSend ctx k
  | phaseComplete ctx k => exact Encoding.phaseComplete ctx k
  | haltComplete ctx => exact Encoding.haltComplete ctx
  | drainqComplete ctx => exact Encoding.drainqComplete ctx
  | spinTimeout ctx => exact Encoding.spinTimeout ctx
  | bundleTrap ctx => exact Encoding.bundleTrap ctx
  | uliDelivery ctx => exact Encoding.uliDelivery ctx
  | copyOpBegin ctx ch => exact Encoding.copyOpBegin ctx ch
  | copyChunk ctx ch ahead => exact Encoding.copyChunk ctx ch ahead
  | feedBeatLand ctx ch => exact Encoding.feedBeatLand ctx ch
  | addwRowWrite ctx ch row => exact Encoding.addwRowWrite ctx ch row
  | fragmentArrival ctx ch => exact Encoding.fragmentArrival ctx ch
  | fragmentResponse ctx ch => exact Encoding.fragmentResponse ctx ch
  | rputBackoffExpiry ctx ch => exact Encoding.rputBackoffExpiry ctx ch
  | barrierCredit k => exact Encoding.barrierCredit k
  | matrixOpBegin core => exact Encoding.matrixOpBegin core
  | mmaGroup ctx k => exact Encoding.mmaGroup ctx k
  | matrixOpComplete ctx k => exact Encoding.matrixOpComplete ctx k
  | syncOpPerform ctx k => exact Encoding.syncOpPerform ctx k
  | syncAnswerArrival ctx k => exact Encoding.syncAnswerArrival ctx k
  | waiterBusyResend ctx => exact Encoding.waiterBusyResend ctx
  | asyncLogRecord ctx k => exact Encoding.asyncLogRecord ctx k
  | invalidateAll die => exact Encoding.invalidateAll die
  | invalidateVaRange die => exact Encoding.invalidateVaRange die
  | invalidateIpaRange die part => exact Encoding.invalidateIpaRange die part
  | invalidateRoot die => exact Encoding.invalidateRoot die
  | invalidatePartition die part => exact Encoding.invalidatePartition die part
  | invalidationComplete die => exact Encoding.invalidationComplete die
  | btStart die part off size value root => exact Encoding.btStart die part off size value root
  | btTakeStart die eng => exact Encoding.btTakeStart die eng
  | btChunk die eng => exact Encoding.btChunk die eng
  | btComplete die eng => exact Encoding.btComplete die eng
  | queueStart die h => exact Encoding.queueStart die h
  | queueResume die h => exact Encoding.queueResume die h
  | queuePark die h => exact Encoding.queuePark die h
  | queueDisable die h => exact Encoding.queueDisable die h
  | doorbell die part off size value => exact Encoding.doorbell die part off size value
  | packetFetch die h => exact Encoding.packetFetch die h
  | pktNop die h => exact Encoding.pktNop die h
  | invoke die h => exact Encoding.invoke die h
  | invokeStart die h => exact Encoding.invokeStart die h
  | taskGraphEnd die h => exact Encoding.taskGraphEnd die h
  | ib die h => exact Encoding.ib die h
  | pred die h => exact Encoding.pred die h
  | pktLoop die h => exact Encoding.pktLoop die h
  | pktWait die h => exact Encoding.pktWait die h
  | pktSigAdd die h => exact Encoding.pktSigAdd die h
  | pktSigSet die h => exact Encoding.pktSigSet die h
  | ffence die h => exact Encoding.ffence die h
  | faultServed port seq => exact Encoding.faultServed port seq
  | faultDeclined port seq => exact Encoding.faultDeclined port seq
  | faultQueueHeadAdvance port head => exact Encoding.faultQueueHeadAdvance port head
  | thaw die value => exact Encoding.thaw die value
  | registerWrite page off size value => exact Encoding.registerWrite page off size value
  | hostWrite serac pa data => exact Encoding.hostWrite serac pa data
  | hostRead serac pa n => exact Encoding.hostRead serac pa n
  | dieCycle die => exact Encoding.dieCycle die
  | fairnessWindowStart die => exact Encoding.fairnessWindowStart die
  | boostDecay die => exact Encoding.boostDecay die
  | stealRequest victim => exact Encoding.stealRequest victim
  | landingReplay ctx => exact Encoding.landingReplay ctx
  | tileRefetch ctx => exact Encoding.tileRefetch ctx
  | retirement die what => exact Encoding.retirement die what
  | postAccept ctx => exact Encoding.postAccept ctx
  | coordinatorNotice serac k => exact Encoding.coordinatorNotice serac k
  | ticketRequest serac => exact Encoding.ticketRequest serac
  | ticketTake serac k => exact Encoding.ticketTake serac k
  | reservation serac k => exact Encoding.reservation serac k
  | confirmation serac k => exact Encoding.confirmation serac k
  | chunkBoundary serac res => exact Encoding.chunkBoundary serac res
  | chunkTransfer serac res order => exact Encoding.chunkTransfer serac res order
  | creditReturn serac link vc => exact Encoding.creditReturn serac link vc
  | instanceComplete serac k => exact Encoding.instanceComplete serac k
  | instanceFault serac k => exact Encoding.instanceFault serac k
  | sramEccError site => exact Encoding.sramEccError site
  | resetBoot boot => exact Encoding.resetBoot boot
  | spdmMeasurement serac nonce => exact Encoding.spdmMeasurement serac nonce
  | dumpKeyDelivery serac tenant key => exact Encoding.dumpKeyDelivery serac tenant key
  | stealAnswer thief => exact Encoding.stealAnswer thief
  | powerLoss pkg torn => exact Encoding.powerLoss pkg torn
  | peerUnreachable serac pkg => exact Encoding.peerUnreachable serac pkg
  | redfishRequest pkg request => exact Encoding.redfishRequest pkg request

end Sys2Proof.Machine
end

section
/-! PROOFS. A word that decodes is the very word of a well-formed instruction (R65, R66): the fields of a word put together
give the word back. -/

namespace Sys2Proof.Machine

open Sys2Proof.Laws

/-! ### The fields of a word -/

/-- Bits s and up of w are x. -/
def HasField {n a : Nat} (w : BitVec n) (s : Nat) (x : BitVec a) : Prop := w.extractLsb' s a = x

theorem HasField.self {n : Nat} (w : BitVec n) (s a : Nat) : HasField w s (w.extractLsb' s a) := rfl

theorem HasField.of_toNat {n a s m : Nat} {w : BitVec n} (h : (w.extractLsb' s a).toNat = m) :
    HasField w s (BitVec.ofNat a m) := by
  unfold HasField; rw [← h, BitVec.ofNat_toNat, BitVec.setWidth_eq]

/-- Two fields that lie side by side make one. -/
theorem HasField.append {n a k s t : Nat} {w : BitVec n} {x : BitVec a} {y : BitVec k}
    (hx : HasField w t x) (hy : HasField w s y) (ht : t = s + k) : HasField w s (x ++ y) := by
  subst hx hy ht
  apply BitVec.eq_of_getLsbD_eq
  intro i hi
  simp only [BitVec.getLsbD_extractLsb', BitVec.getLsbD_append, hi, decide_true, Bool.true_and]
  by_cases hik : i < k
  · simp [hik]
  · have : i - k < a := by omega
    simp [hik, this, show s + k + (i - k) = s + i by omega]

/-- The next field of a word, as it stands there. -/
theorem HasField.next {n a t : Nat} {w : BitVec n} {x : BitVec a} (hx : HasField w t x) (s k : Nat) (ht : t = s + k) :
    HasField w s (x ++ w.extractLsb' s k) := hx.append rfl ht

/-- The field of all bits is the word. -/
theorem HasField.whole {n : Nat} {w x : BitVec n} (h : HasField w 0 x) : x = w := h.symm.trans (ext_all w)

/-! ### Generator words -/

/-- What `decodeGen` answers is well-formed and has the word that was decoded. -/
def IsWordOf (w : BitVec 32) (i : Instr) : Prop := WellFormed i = true ∧ encodeGen i = some w

section
variable {w : BitVec 32}

/-- A word of two register operands and a function code (R106). -/
theorem word_register {f op : BitVec 7} (hf : HasField w 25 f) (h0 : HasField w 0 op) :
    f ++ w.extractLsb' 19 6 ++ w.extractLsb' 13 6 ++ w.extractLsb' 7 6 ++ op = w :=
  ((((hf.next 19 6 rfl).next 13 6 rfl).next 7 6 rfl).append h0 rfl).whole

/-- A word of an immediate and two registers (R107). -/
theorem word_immediate {op : BitVec 7} (h0 : HasField w 0 op) :
    w.extractLsb' 19 13 ++ w.extractLsb' 13 6 ++ w.extractLsb' 7 6 ++ op = w :=
  ((((HasField.self w 19 13).next 13 6 rfl).next 7 6 rfl).append h0 rfl).whole

/-- A word of a long immediate and a register (R107). -/
theorem word_upper {op : BitVec 7} (h0 : HasField w 0 op) :
    w.extractLsb' 13 19 ++ w.extractLsb' 7 6 ++ op = w :=
  (((HasField.self w 13 19).next 7 6 rfl).append h0 rfl).whole

/-- A word of an offset, a relocation register and a register (R109). -/
theorem word_relocated {op : BitVec 7} (h0 : HasField w 0 op) :
    w.extractLsb' 17 15 ++ w.extractLsb' 13 4 ++ w.extractLsb' 7 6 ++ op = w :=
  ((((HasField.self w 17 15).next 13 4 rfl).next 7 6 rfl).append h0 rfl).whole

/-- A word of an opcode alone. -/
theorem word_opcode {op : BitVec 7} (hz : HasField w 7 0#25) (h0 : HasField w 0 op) : 0#25 ++ op = w := (hz.append h0 rfl).whole

theorem word_clzPopc {f op : BitVec 7} (hf : HasField w 25 f) (hb : HasField w 19 0#6) (h0 : HasField w 0 op) :
    f ++ 0#6 ++ w.extractLsb' 13 6 ++ w.extractLsb' 7 6 ++ op = w :=
  (((((hf.append hb rfl).next 13 6 rfl).next 7 6 rfl).append h0 rfl)).whole

end

theorem isWordOf_decodeGen (w : BitVec 32) (i : Instr) (h : decodeGen w = some i) : IsWordOf w i := by
  unfold decodeGen at h
  dsimp only at h
  split at h
  case h_1 h0 =>
    replace h0 := HasField.of_toNat h0
    split at h
    case h_1 hf => cases h; exact ⟨rfl, congrArg some (word_register (.of_toNat hf) h0)⟩
    case h_2 hf => cases h; exact ⟨rfl, congrArg some (word_register (.of_toNat hf) h0)⟩
    case h_3 hf => cases h; exact ⟨rfl, congrArg some (word_register (.of_toNat hf) h0)⟩
    case h_4 hf => cases h; exact ⟨rfl, congrArg some (word_register (.of_toNat hf) h0)⟩
    case h_5 hf => cases h; exact ⟨rfl, congrArg some (word_register (.of_toNat hf) h0)⟩
    case h_6 hf => cases h; exact ⟨rfl, congrArg some (word_register (.of_toNat hf) h0)⟩
    case h_7 hf => cases h; exact ⟨rfl, congrArg some (word_register (.of_toNat hf) h0)⟩
    case h_8 hf => cases h; exact ⟨rfl, congrArg some (word_register (.of_toNat hf) h0)⟩
    case h_9 hf => cases h; exact ⟨rfl, congrArg some (word_register (.of_toNat hf) h0)⟩
    case h_10 hf => cases h; exact ⟨rfl, congrArg some (word_register (.of_toNat hf) h0)⟩
    case h_11 hf => cases h; exact ⟨rfl, congrArg some (word_register (.of_toNat hf) h0)⟩
    case h_12 hf => cases h; exact ⟨rfl, congrArg some (word_register (.of_toNat hf) h0)⟩
    case h_13 hf => cases h; exact ⟨rfl, congrArg some (word_register (.of_toNat hf) h0)⟩
    case h_14 hf => cases h; exact ⟨rfl, congrArg some (word_register (.of_toNat hf) h0)⟩
    case h_15 hf => cases h; exact ⟨rfl, congrArg some (word_register (.of_toNat hf) h0)⟩
    case h_16 hf => cases h; exact ⟨rfl, congrArg some (word_register (.of_toNat hf) h0)⟩
    case h_17 hf => cases h; exact ⟨rfl, congrArg some (word_register (.of_toNat hf) h0)⟩
    case h_18 hf => cases h; exact ⟨rfl, congrArg some (word_register (.of_toNat hf) h0)⟩
    case h_19 hf => cases h; exact ⟨rfl, congrArg some (word_register (.of_toNat hf) h0)⟩
    case h_20 hf => cases h; exact ⟨rfl, congrArg some (word_register (.of_toNat hf) h0)⟩
    case h_21 hf =>
      obtain ⟨hb, h⟩ := Option.ite_none_right_eq_some.mp h
      cases h; exact ⟨rfl, congrArg some (word_clzPopc (.of_toNat hf) hb h0)⟩
    case h_22 hf =>
      obtain ⟨hb, h⟩ := Option.ite_none_right_eq_some.mp h
      cases h; exact ⟨rfl, congrArg some (word_clzPopc (.of_toNat hf) hb h0)⟩
    case h_23 => cases h
  case h_2 h0 => cases h; exact ⟨rfl, congrArg some (word_immediate (.of_toNat h0))⟩
  case h_3 h0 => cases h; exact ⟨rfl, congrArg some (word_immediate (.of_toNat h0))⟩
  case h_4 h0 => cases h; exact ⟨rfl, congrArg some (word_immediate (.of_toNat h0))⟩
  case h_5 h0 => cases h; exact ⟨rfl, congrArg some (word_immediate (.of_toNat h0))⟩
  case h_6 h0 => 
    obtain ⟨hz, h⟩ := Option.ite_none_right_eq_some.mp h
    cases h; exact ⟨rfl, congrArg some (word_register hz (.of_toNat h0))⟩
  case h_7 h0 => 
    obtain ⟨hz, h⟩ := Option.ite_none_right_eq_some.mp h
    cases h; exact ⟨rfl, congrArg some (word_register hz (.of_toNat h0))⟩
  case h_8 h0 => 
    obtain ⟨hz, h⟩ := Option.ite_none_right_eq_some.mp h
    cases h; exact ⟨rfl, congrArg some (word_register hz (.of_toNat h0))⟩
  case h_9 h0 => cases h; exact ⟨rfl, congrArg some (word_immediate (.of_toNat h0))⟩
  case h_10 h0 => cases h; exact ⟨rfl, congrArg some (word_immediate (.of_toNat h0))⟩
  case h_11 h0 => cases h; exact ⟨rfl, congrArg some (word_upper (.of_toNat h0))⟩
  case h_12 h0 => cases h; exact ⟨rfl, congrArg some (word_upper (.of_toNat h0))⟩
  case h_13 h0 => cases h; exact ⟨rfl, congrArg some (word_immediate (.of_toNat h0))⟩
  case h_14 h0 => cases h; exact ⟨rfl, congrArg some (word_immediate (.of_toNat h0))⟩
  case h_15 h0 => cases h; exact ⟨rfl, congrArg some (word_immediate (.of_toNat h0))⟩
  case h_16 h0 => cases h; exact ⟨rfl, congrArg some (word_immediate (.of_toNat h0))⟩
  case h_17 h0 => cases h; exact ⟨rfl, congrArg some (word_immediate (.of_toNat h0))⟩
  case h_18 h0 => cases h; exact ⟨rfl, congrArg some (word_immediate (.of_toNat h0))⟩
  case h_19 h0 => cases h; exact ⟨rfl, congrArg some (word_immediate (.of_toNat h0))⟩
  case h_20 h0 => cases h; exact ⟨rfl, congrArg some (word_immediate (.of_toNat h0))⟩
  case h_21 h0 => cases h; exact ⟨rfl, congrArg some (word_immediate (.of_toNat h0))⟩
  case h_22 h0 => cases h; exact ⟨rfl, congrArg some (word_immediate (.of_toNat h0))⟩
  case h_23 h0 => cases h; exact ⟨rfl, congrArg some (word_immediate (.of_toNat h0))⟩
  case h_24 h0 => cases h; exact ⟨rfl, congrArg some (word_relocated (.of_toNat h0))⟩
  case h_25 h0 => cases h; exact ⟨rfl, congrArg some (word_relocated (.of_toNat h0))⟩
  case h_26 h0 => cases h; exact ⟨rfl, congrArg some (word_immediate (.of_toNat h0))⟩
  case h_27 h0 => cases h; exact ⟨rfl, congrArg some (word_immediate (.of_toNat h0))⟩
  case h_28 h0 => cases h; exact ⟨rfl, congrArg some (word_immediate (.of_toNat h0))⟩
  case h_29 h0 => cases h; exact ⟨rfl, congrArg some (word_immediate (.of_toNat h0))⟩
  case h_30 h0 => cases h; exact ⟨rfl, congrArg some (word_immediate (.of_toNat h0))⟩
  case h_31 h0 => cases h; exact ⟨rfl, congrArg some (word_immediate (.of_toNat h0))⟩
  case h_32 h0 => cases h; exact ⟨rfl, congrArg some (word_upper (.of_toNat h0))⟩
  case h_33 h0 => cases h; exact ⟨rfl, congrArg some (word_immediate (.of_toNat h0))⟩
  case h_34 h0 => 
    obtain ⟨⟨hd, hi⟩, h⟩ := Option.ite_none_right_eq_some.mp h
    cases h; exact ⟨by simpa [WellFormed] using hi, congrArg some (((((HasField.self w 19 13).next 13 6 rfl).append hd rfl).append (.of_toNat h0) rfl).whole)⟩
  case h_35 h0 => cases h; exact ⟨rfl, congrArg some (word_upper (.of_toNat h0))⟩
  case h_36 h0 => 
    obtain ⟨hz, h⟩ := Option.ite_none_right_eq_some.mp h
    cases h; exact ⟨rfl, congrArg some (word_opcode hz (.of_toNat h0))⟩
  case h_37 h0 => 
    obtain ⟨⟨hz, hk⟩, h⟩ := Option.ite_none_right_eq_some.mp h
    cases h; exact ⟨by simpa [WellFormed] using hk, congrArg some ((((HasField.append hz (.self w 13 3) rfl).next 7 6 rfl).append (.of_toNat h0) rfl).whole)⟩
  case h_38 h0 => 
    obtain ⟨⟨hz, hi, hs⟩, h⟩ := Option.ite_none_right_eq_some.mp h
    cases h; exact ⟨by simpa [WellFormed] using hs, congrArg some ((((((HasField.next (t := 19) hi 13 6 rfl).append hz rfl).next 7 3 rfl).append (.of_toNat h0) rfl)).whole)⟩
  case h_39 h0 => 
    obtain ⟨⟨hz, hs, hp⟩, h⟩ := Option.ite_none_right_eq_some.mp h
    cases h; exact ⟨by simpa [WellFormed] using And.intro hs hp, congrArg some ((((((HasField.next (t := 28) hz 22 6 rfl).next 16 6 rfl).next 10 6 rfl).next 7 3 rfl).append (.of_toNat h0) rfl).whole)⟩
  case h_40 h0 => 
    obtain ⟨⟨hz, hs⟩, h⟩ := Option.ite_none_right_eq_some.mp h
    cases h; exact ⟨by simpa [WellFormed] using hs, congrArg some ((((((HasField.self w 19 13).next 13 6 rfl).append hz rfl).next 7 3 rfl).append (.of_toNat h0) rfl).whole)⟩
  case h_41 h0 => 
    obtain ⟨⟨hd, hi⟩, h⟩ := Option.ite_none_right_eq_some.mp h
    cases h; exact ⟨rfl, congrArg some ((((HasField.next (t := 19) hi 13 6 rfl).append hd rfl).append (.of_toNat h0) rfl).whole)⟩
  case h_42 h0 => 
    obtain ⟨hz, h⟩ := Option.ite_none_right_eq_some.mp h
    cases h; exact ⟨rfl, congrArg some ((((((((HasField.next (t := 27) hz 26 1 rfl).next 25 1 rfl).next 23 2 rfl).next 22 1 rfl).next 14 8 rfl).next 7 7 rfl).append (.of_toNat h0) rfl).whole)⟩
  case h_43 h0 => 
    obtain ⟨hd, h⟩ := Option.ite_none_right_eq_some.mp h
    cases h; exact ⟨rfl, congrArg some (((((HasField.self w 19 13).next 13 6 rfl).append hd rfl).append (.of_toNat h0) rfl).whole)⟩
  case h_44 h0 => 
    obtain ⟨⟨hz, hf⟩, h⟩ := Option.ite_none_right_eq_some.mp h
    cases h; exact ⟨by simpa [WellFormed] using hf, congrArg some (((((HasField.next (t := 22) hz 16 6 rfl).next 11 5 rfl).next 7 4 rfl).append (.of_toNat h0) rfl).whole)⟩
  case h_45 h0 => 
    obtain ⟨⟨hz, ha⟩, h⟩ := Option.ite_none_right_eq_some.mp h
    cases h; exact ⟨rfl, congrArg some (((((HasField.next (t := 31) hz 19 12 rfl).append ha rfl).next 7 6 rfl).append (.of_toNat h0) rfl).whole)⟩
  case h_46 h0 => 
    obtain ⟨hz, h⟩ := Option.ite_none_right_eq_some.mp h
    cases h; exact ⟨rfl, congrArg some (((((HasField.next (t := 31) hz 19 12 rfl).next 13 6 rfl).next 7 6 rfl).append (.of_toNat h0) rfl).whole)⟩
  case h_47 h0 => 
    obtain ⟨hz, h⟩ := Option.ite_none_right_eq_some.mp h
    cases h; exact ⟨rfl, congrArg some (((HasField.next (t := 9) hz 7 2 rfl).append (.of_toNat h0) rfl).whole)⟩
  case h_48 h0 => 
    obtain ⟨⟨hd, hi⟩, h⟩ := Option.ite_none_right_eq_some.mp h
    cases h; exact ⟨rfl, congrArg some ((((HasField.next (t := 19) hi 13 6 rfl).append hd rfl).append (.of_toNat h0) rfl).whole)⟩
  case h_49 h0 => 
    obtain ⟨hz, h⟩ := Option.ite_none_right_eq_some.mp h
    cases h; exact ⟨rfl, congrArg some (word_opcode hz (.of_toNat h0))⟩
  case h_50 h0 => 
    obtain ⟨hz, h⟩ := Option.ite_none_right_eq_some.mp h
    cases h; exact ⟨rfl, congrArg some (word_opcode hz (.of_toNat h0))⟩
  case h_51 h0 => 
    obtain ⟨hz, h⟩ := Option.ite_none_right_eq_some.mp h
    cases h; exact ⟨rfl, congrArg some (word_opcode hz (.of_toNat h0))⟩
  case h_52 h0 => 
    obtain ⟨⟨hd, ha⟩, h⟩ := Option.ite_none_right_eq_some.mp h
    cases h; exact ⟨rfl, congrArg some ((((HasField.self w 19 13).append (HasField.append ha hd rfl) rfl).append (.of_toNat h0) rfl).whole)⟩
  case h_53 h0 => 
    obtain ⟨hz, h⟩ := Option.ite_none_right_eq_some.mp h
    cases h; exact ⟨rfl, congrArg some (word_opcode hz (.of_toNat h0))⟩
  case h_54 h0 => 
    obtain ⟨hi, h⟩ := Option.ite_none_right_eq_some.mp h
    cases h; exact ⟨rfl, congrArg some ((((HasField.next (t := 19) hi 13 6 rfl).next 7 6 rfl).append (.of_toNat h0) rfl).whole)⟩
  case h_55 h0 => 
    obtain ⟨hi, h⟩ := Option.ite_none_right_eq_some.mp h
    cases h; exact ⟨rfl, congrArg some ((((HasField.next (t := 19) hi 13 6 rfl).next 7 6 rfl).append (.of_toNat h0) rfl).whole)⟩
  case h_56 h0 => 
    obtain ⟨hz, h⟩ := Option.ite_none_right_eq_some.mp h
    cases h; exact ⟨rfl, congrArg some (word_opcode hz (.of_toNat h0))⟩
  case h_57 => cases h

/-! ### Slot words -/

theorem VWord.toWord_ofWord {w : Word} {op : BitVec 8} (hz : HasField w 60 0#4) (h0 : HasField w 0 op) :
    VWord.toWord op (VWord.ofWord w) = w :=
  (((((((((((HasField.next (t := 60) hz 59 1 rfl).next 57 2 rfl).next 53 4 rfl).next 52 1 rfl).next 51 1 rfl).next 48 3 rfl).next 38 10 rfl).next 28 10 rfl).next 18 10 rfl).next 8 10 rfl).append h0 rfl).whole

theorem MemBuf.toWord_ofWord {w : Word} {op : BitVec 6} (hz : HasField w 32 0#32) (h0 : HasField w 0 op) :
    MemBuf.toWord op (MemBuf.ofWord w) = w :=
  ((((((HasField.next (t := 32) hz 30 2 rfl).next 24 6 rfl).next 18 6 rfl).next 16 2 rfl).next 6 10 rfl).append h0 rfl).whole

theorem MemGlob.toWord_ofWord {w : Word} {op : BitVec 6} (hz : HasField w 60 0#4) (h0 : HasField w 0 op) :
    MemGlob.toWord op (MemGlob.ofWord w) = w :=
  (((((HasField.next (t := 60) hz 28 32 rfl).next 20 8 rfl).next 16 4 rfl).next 6 10 rfl).append h0 rfl).whole

theorem MemGath.toWord_ofWord {w : Word} {op : BitVec 6} (hz : HasField w 42 0#22) (h0 : HasField w 0 op) :
    MemGath.toWord op (MemGath.ofWord w) = w :=
  ((((((HasField.next (t := 42) hz 38 4 rfl).next 30 8 rfl).next 26 4 rfl).next 16 10 rfl).next 6 10 rfl).append h0 rfl).whole

theorem CpyWord.toWord_ofWord {w : Word} {op : BitVec 6} (hz : HasField w 29 0#35) (h0 : HasField w 0 op) :
    CpyWord.toWord op (CpyWord.ofWord w) = w :=
  (((((((((HasField.next (t := 29) hz 27 2 rfl).next 23 4 rfl).next 22 1 rfl).next 21 1 rfl).next 15 6 rfl).next 11 4 rfl).next 8 3 rfl).next 6 2 rfl).append h0 rfl).whole

theorem SynWord.toWord_ofWord {w : Word} {op : BitVec 6} (h0 : HasField w 0 op) :
    SynWord.toWord op (SynWord.ofWord w) = w :=
  ((((((((HasField.self w 46 18).next 42 4 rfl).next 38 4 rfl).next 30 8 rfl).next 26 4 rfl).next 16 10 rfl).next 6 10 rfl).append h0 rfl).whole

theorem MtxWord.toWord_ofWord {w : Word} {op : BitVec 6} (hz : HasField w 59 0#5) (h0 : HasField w 0 op) :
    MtxWord.toWord op (MtxWord.ofWord w) = w :=
  ((((((((((((HasField.next (t := 59) hz 54 5 rfl).next 53 1 rfl).next 51 2 rfl).next 47 4 rfl).next 46 1 rfl).next 40 6 rfl).next 39 1 rfl).next 30 9 rfl).next 21 9 rfl).next 11 10 rfl).next 6 5 rfl).append h0 rfl).whole

/-- What decodes in a slot is well-formed and has the word that was decoded. -/
def IsSlotWordOf (slot : Slot) (w : Word) (i : Instr) : Prop := WellFormed i = true ∧ encodeSlot i = some (slot, w)

/-- A decoded word has no check broken and no unused bit set. -/
theorem checked_eq_ok {hi : Bool} {c : Option SlotErr} {i j : Instr} : checked hi c i = .ok j ↔ hi = false ∧ c = none ∧ i = j := by
  unfold checked
  cases hi <;> cases c <;> simp

theorem bne_zero_eq_false {n : Nat} {x : BitVec n} : (x != 0) = false ↔ x = 0 := by simp

/-- The empty word of a slot is its NOP. -/
theorem isSlotWordOf_nop {slot : Slot} {w : Word} {i : Instr}
    (h : (if w = 0 then Except.ok (.nop slot) else Except.error SlotErr.rsvd) = Except.ok i) : IsSlotWordOf slot w i := by
  split at h
  · rename_i hw; cases h; subst hw; exact ⟨rfl, rfl⟩
  · cases h

/-- An operation of one row of a slot: its check is the row's, its word the fields under the row's opcode. -/
def IsRowOf (slot : Slot) (w : Word) (check : Option SlotErr) (i : Instr) : Prop :=
  WellFormed i = check.isNone ∧ encodeSlot i = some (slot, w)

theorem IsRowOf.isSlotWordOf {slot : Slot} {w w' : Word} {check : Option SlotErr} {i : Instr} (h : IsRowOf slot w' check i)
    (hc : check = none) (hw : w' = w) : IsSlotWordOf slot w i := by
  subst hc hw; exact h

def slotOfPipe : Pipe → Slot
  | .x => .vx
  | .y => .vy

theorem vInstr_row {p : Pipe} {x : VWord} {n : Nat} {i : Instr} (h : vInstr p x n = some i) :
    IsRowOf (slotOfPipe p) (VWord.toWord (BitVec.ofNat 8 n) x) (vCheck n x) i := by
  unfold vInstr at h
  cases p <;> split at h <;> cases h <;> exact ⟨rfl, rfl⟩

theorem cpyInstr_row {x : CpyWord} {n : Nat} {i : Instr} (h : cpyInstr x n = some i) :
    IsRowOf .cpy (CpyWord.toWord (BitVec.ofNat 6 n) x) (cpyCheck n x) i := by
  unfold cpyInstr at h
  split at h <;> cases h <;> exact ⟨rfl, rfl⟩

theorem synInstr_row {x : SynWord} {n : Nat} {i : Instr} (h : synInstr x n = some i) :
    IsRowOf .syn (SynWord.toWord (BitVec.ofNat 6 n) x) (synCheck n x) i := by
  unfold synInstr at h
  split at h <;> cases h <;> exact ⟨rfl, rfl⟩

theorem mtxInstr_row {x : MtxWord} {n : Nat} {i : Instr} (h : mtxInstr x n = some i) :
    IsRowOf .mtx (MtxWord.toWord (BitVec.ofNat 6 n) x) (mtxCheck n x) i := by
  unfold mtxInstr at h
  split at h <;> cases h <;> exact ⟨rfl, rfl⟩

theorem isSlotWordOf_decodeV {p : Pipe} {w : Word} {i : Instr} (h : decodeV p w = .ok i) : IsSlotWordOf (slotOfPipe p) w i := by
  unfold decodeV at h
  dsimp only at h
  split at h
  · cases h
  · rename_i j hj
    by_cases hz : w.extractLsb' 60 4 = 0
    · rw [if_neg (not_not_intro hz)] at h
      split at h
      · cases h
      · rename_i hc
        cases h
        exact (vInstr_row hj).isSlotWordOf hc (VWord.toWord_ofWord hz (.of_toNat rfl))
    · rw [if_pos hz] at h; cases h

theorem isSlotWordOf_decodeCpy {w : Word} {i : Instr} (h : decodeCpy w = .ok i) : IsSlotWordOf .cpy w i := by
  unfold decodeCpy at h
  dsimp only at h
  split at h
  · exact isSlotWordOf_nop h
  · split at h
    · cases h
    · rename_i j hj
      obtain ⟨hz, hc, rfl⟩ := checked_eq_ok.mp h
      exact (cpyInstr_row hj).isSlotWordOf hc (CpyWord.toWord_ofWord (bne_zero_eq_false.mp hz) (.of_toNat rfl))

theorem isSlotWordOf_decodeSyn {w : Word} {i : Instr} (h : decodeSyn w = .ok i) : IsSlotWordOf .syn w i := by
  unfold decodeSyn at h
  dsimp only at h
  split at h
  · exact isSlotWordOf_nop h
  · split at h
    · cases h
    · rename_i j hj
      obtain ⟨-, hc, rfl⟩ := checked_eq_ok.mp h
      exact (synInstr_row hj).isSlotWordOf hc (SynWord.toWord_ofWord (.of_toNat rfl))

theorem isSlotWordOf_decodeMtx {w : Word} {i : Instr} (h : decodeMtx w = .ok i) : IsSlotWordOf .mtx w i := by
  unfold decodeMtx at h
  dsimp only at h
  split at h
  · exact isSlotWordOf_nop h
  · split at h
    · cases h
    · rename_i j hj
      obtain ⟨hz, hc, rfl⟩ := checked_eq_ok.mp h
      exact (mtxInstr_row hj).isSlotWordOf hc (MtxWord.toWord_ofWord (bne_zero_eq_false.mp hz) (.of_toNat rfl))

section
variable {w : Word} {check : Option SlotErr} {op : BitVec 6} {i j : Instr}

/-- A MEM word of the buffer form. -/
theorem isSlotWordOf_memBuf (h : checked (w.extractLsb' 32 32 != 0) check j = .ok i) (h0 : HasField w 0 op)
    (hj : IsRowOf .mem (MemBuf.toWord op (MemBuf.ofWord w)) check j) : IsSlotWordOf .mem w i := by
  obtain ⟨hz, hc, rfl⟩ := checked_eq_ok.mp h
  exact hj.isSlotWordOf hc (MemBuf.toWord_ofWord (bne_zero_eq_false.mp hz) h0)

/-- A MEM word of the global form. -/
theorem isSlotWordOf_memGlob (h : checked (w.extractLsb' 60 4 != 0) check j = .ok i) (h0 : HasField w 0 op)
    (hj : IsRowOf .mem (MemGlob.toWord op (MemGlob.ofWord w)) check j) : IsSlotWordOf .mem w i := by
  obtain ⟨hz, hc, rfl⟩ := checked_eq_ok.mp h
  exact hj.isSlotWordOf hc (MemGlob.toWord_ofWord (bne_zero_eq_false.mp hz) h0)

/-- A MEM word of the gather form. -/
theorem isSlotWordOf_memGath (h : checked (w.extractLsb' 42 22 != 0) check j = .ok i) (h0 : HasField w 0 op)
    (hj : IsRowOf .mem (MemGath.toWord op (MemGath.ofWord w)) check j) : IsSlotWordOf .mem w i := by
  obtain ⟨hz, hc, rfl⟩ := checked_eq_ok.mp h
  exact hj.isSlotWordOf hc (MemGath.toWord_ofWord (bne_zero_eq_false.mp hz) h0)

/-- A word of an opcode alone. -/
theorem word_slotOpcode (hz : HasField w 6 0#58) (h0 : HasField w 0 op) : 0#58 ++ op = w := (hz.append h0 rfl).whole

/-- A CTL word of an opcode alone. -/
theorem isSlotWordOf_ctlOpcode (h : checked (w.extractLsb' 6 58 != 0) none j = .ok i) (h0 : HasField w 0 op)
    (hj : IsSlotWordOf .ctl (0#58 ++ op) j) : IsSlotWordOf .ctl w i := by
  obtain ⟨hz, -, rfl⟩ := checked_eq_ok.mp h
  rwa [word_slotOpcode (bne_zero_eq_false.mp hz) h0] at hj

end

theorem isSlotWordOf_decodeMem {w : Word} {i : Instr} (h : decodeMem w = .ok i) : IsSlotWordOf .mem w i := by
  unfold decodeMem at h
  dsimp only at h
  split at h
  case h_1 => exact isSlotWordOf_nop h
  case h_2 h0 => exact isSlotWordOf_memBuf h (.of_toNat h0) ⟨rfl, rfl⟩
  case h_3 h0 => exact isSlotWordOf_memBuf h (.of_toNat h0) ⟨rfl, rfl⟩
  case h_4 h0 => exact isSlotWordOf_memGlob h (.of_toNat h0) ⟨rfl, rfl⟩
  case h_5 h0 => exact isSlotWordOf_memGlob h (.of_toNat h0) ⟨rfl, rfl⟩
  case h_6 h0 => exact isSlotWordOf_memGlob h (.of_toNat h0) ⟨rfl, rfl⟩
  case h_7 h0 => exact isSlotWordOf_memGath h (.of_toNat h0) ⟨rfl, rfl⟩
  case h_8 h0 => exact isSlotWordOf_memGath h (.of_toNat h0) ⟨rfl, rfl⟩
  case h_9 h0 => exact isSlotWordOf_memGath h (.of_toNat h0) ⟨rfl, rfl⟩
  case h_10 h0 =>
    split at h
    · rename_i hz
      cases h
      exact ⟨rfl, congrArg (fun w => some (Slot.mem, w)) (word_slotOpcode hz (.of_toNat h0))⟩
    · cases h
  case h_11 h0 => exact isSlotWordOf_memGlob h (.of_toNat h0) ⟨rfl, rfl⟩
  case h_12 => cases h

theorem isSlotWordOf_decodeCtl {w : Word} {i : Instr} (h : decodeCtl w = .ok i) : IsSlotWordOf .ctl w i := by
  have word {x : Word} (hx : HasField w 0 x) : some (Slot.ctl, x) = some (Slot.ctl, w) := by rw [hx.whole]
  unfold decodeCtl at h
  dsimp only at h
  split at h
  case h_1 => exact isSlotWordOf_nop h
  case h_2 h0 =>
    obtain ⟨hz, hc, rfl⟩ := checked_eq_ok.mp h
    exact ⟨Option.isNone_iff_eq_none.mpr hc, word ((((HasField.next (t := 15) (bne_zero_eq_false.mp hz) 14 1 rfl).next 10 4 rfl).next 6 4
      rfl).append (.of_toNat h0) rfl)⟩
  case h_3 h0 =>
    split at h
    · rename_i h7
      obtain ⟨hz, -, rfl⟩ := checked_eq_ok.mp h
      obtain ⟨hz, hu⟩ := Bool.or_eq_false_iff.mp hz
      exact ⟨rfl, word ((((((HasField.next (t := 19) (bne_zero_eq_false.mp hz) 18 1 rfl).next 16 2 rfl).next 14 2 rfl).append
        (bne_zero_eq_false.mp hu) rfl).append h7 rfl).append (.of_toNat h0) rfl)⟩
    · obtain ⟨hz, hc, rfl⟩ := checked_eq_ok.mp h
      exact ⟨Option.isNone_iff_eq_none.mpr hc, word (((HasField.next (t := 14) (bne_zero_eq_false.mp hz) 9 5 rfl).next 6 3
        rfl).append (.of_toNat h0) rfl)⟩
  case h_4 h0 =>
    obtain ⟨hz, hc, rfl⟩ := checked_eq_ok.mp h
    obtain ⟨hz, hu⟩ := Bool.or_eq_false_iff.mp hz
    exact ⟨Option.isNone_iff_eq_none.mpr hc, word (((((HasField.next (t := 40) (bne_zero_eq_false.mp hz) 16 24 rfl).append
      (bne_zero_eq_false.mp hu) rfl).next 9 4 rfl).next 6 3 rfl).append (.of_toNat h0) rfl)⟩
  case h_5 h0 =>
    obtain ⟨hz, -, rfl⟩ := checked_eq_ok.mp h
    exact ⟨rfl, word (((HasField.next (t := 23) (bne_zero_eq_false.mp hz) 8 15 rfl).next 6 2 rfl).append (.of_toNat h0) rfl)⟩
  case h_6 h0 =>
    obtain ⟨hz, hc, rfl⟩ := checked_eq_ok.mp h
    exact ⟨Option.isNone_iff_eq_none.mpr hc, word (((HasField.next (t := 17) (bne_zero_eq_false.mp hz) 7 10 rfl).next 6 1
      rfl).append (.of_toNat h0) rfl)⟩
  case h_7 h0 =>
    obtain ⟨hz, -, rfl⟩ := checked_eq_ok.mp h
    exact ⟨rfl, word ((HasField.next (t := 11) (bne_zero_eq_false.mp hz) 6 5 rfl).append (.of_toNat h0) rfl)⟩
  case h_8 h0 => exact isSlotWordOf_ctlOpcode h (.of_toNat h0) ⟨rfl, rfl⟩
  case h_9 h0 => exact isSlotWordOf_ctlOpcode h (.of_toNat h0) ⟨rfl, rfl⟩
  case h_10 h0 => exact isSlotWordOf_ctlOpcode h (.of_toNat h0) ⟨rfl, rfl⟩
  case h_11 => cases h

theorem isSlotWordOf_decodeSlot {slot : Slot} {w : Word} {i : Instr} (h : decodeSlot slot w = .ok i) : IsSlotWordOf slot w i := by
  cases slot with
  | ctl => exact isSlotWordOf_decodeCtl h
  | mem => exact isSlotWordOf_decodeMem h
  | cpy => exact isSlotWordOf_decodeCpy h
  | mtx => exact isSlotWordOf_decodeMtx h
  | syn => exact isSlotWordOf_decodeSyn h
  | vx =>
    simp only [decodeSlot] at h
    split at h
    · exact isSlotWordOf_nop h
    · exact isSlotWordOf_decodeV h
  | vy =>
    simp only [decodeSlot] at h
    split at h
    · exact isSlotWordOf_nop h
    · exact isSlotWordOf_decodeV h

/-- Settles O4: the decoder's cases, each with its fields put together again. -/
theorem encodeDecode : Obligations.EncodeDecode :=
  ⟨isWordOf_decodeGen, fun _ _ _ => isSlotWordOf_decodeSlot⟩

end Sys2Proof.Machine
end

section
/-! PROOFS. Register and immediate operations, divisions, branches, jumps and loops (R102, R103, R106, R107, R110-R115). -/

namespace Sys2Proof.Machine

/-! ### The values of the table "ALU functions" (R106, R107) -/

theorem mulHigh_eq (x y : Word) :
    (BitVec.ofInt 128 (x.toInt * y.toInt)).extractLsb' 64 64 = BitVec.ofInt 64 (x.toInt * y.toInt / 2 ^ 64) := by
  apply BitVec.eq_of_toNat_eq
  rw [BitVec.extractLsb'_toNat, Nat.shiftRight_eq_div_pow, BitVec.toNat_ofInt, BitVec.toNat_ofInt]
  generalize x.toInt * y.toInt = p
  omega

theorem sshiftRight_eq_ofInt (x : Word) (n : Nat) : x.sshiftRight n = BitVec.ofInt 64 (x.toInt / 2 ^ n) := by
  rw [BitVec.sshiftRight, Int.shiftRight_eq_div_pow]; push_cast; rfl

theorem boolWord_decide (p : Prop) [Decidable p] : boolWord (decide p) = if p then 1 else 0 := by
  unfold boolWord; by_cases h : p <;> simp [h]

theorem boolWord_slt (x y : Word) : boolWord (x.slt y) = if x.toInt < y.toInt then 1 else 0 := boolWord_decide _

theorem boolWord_ult (x y : Word) : boolWord (x.ult y) = if x.toNat < y.toNat then 1 else 0 := boolWord_decide _

/-- The choice of the signed minimum and maximum. -/
theorem ite_slt {α : Type} (x y : Word) (u v : α) : (if y.slt x then u else v) = if x.toInt ≤ y.toInt then v else u := by
  by_cases h : x.toInt ≤ y.toInt <;> simp [BitVec.slt, h]

/-- The choice of the unsigned minimum and maximum. -/
theorem ite_ult {α : Type} (x y : Word) (u v : α) : (if y.ult x then u else v) = if x.toNat ≤ y.toNat then v else u := by
  by_cases h : x.toNat ≤ y.toNat <;> simp [BitVec.ult, h]

/-- At equal signed values either operand is the minimum. -/
theorem ite_slt_max (x y : Word) : (if x.slt y then y else x) = if x.toInt ≤ y.toInt then y else x := by
  rcases lt_trichotomy x.toInt y.toInt with h | h | h
  · simp [BitVec.slt, h, le_of_lt h]
  · simp [BitVec.eq_of_toInt_eq h]
  · simp [BitVec.slt, not_lt_of_gt h, not_le_of_gt h]

theorem ite_ult_max (x y : Word) : (if x.ult y then y else x) = if x.toNat ≤ y.toNat then y else x := by
  rcases lt_trichotomy x.toNat y.toNat with h | h | h
  · simp [BitVec.ult, h, le_of_lt h]
  · simp [BitVec.eq_of_toNat_eq h]
  · simp [BitVec.ult, not_lt_of_gt h, not_le_of_gt h]

theorem sext13_toInt (i : BitVec 13) : (sext13 i).toInt = i.toInt := BitVec.toInt_signExtend_of_le (by decide)

theorem sext13_eq (i : BitVec 13) : sext13 i = BitVec.ofInt 64 i.toInt := rfl

theorem sext19_eq (u : BitVec 19) : sext19 u = BitVec.ofInt 64 u.toInt := rfl

theorem sext19_shift (u : BitVec 19) : sext19 u <<< 13 = BitVec.ofInt 64 (u.toInt * 2 ^ 13) := by
  rw [BitVec.shiftLeft_eq_mul_twoPow, BitVec.ofInt_mul, sext19_eq]; rfl

theorem sext13_words (i : BitVec 13) : sext13 i * 4 = BitVec.ofInt 64 (i.toInt * 4) := by
  rw [BitVec.ofInt_mul, sext13_eq]; rfl

theorem sext19_words (u : BitVec 19) : sext19 u * 4 = BitVec.ofInt 64 (u.toInt * 4) := by
  rw [BitVec.ofInt_mul, sext19_eq]; rfl

theorem bitLength_eq_size (f n : Nat) (h : n < 2 ^ f) : bitLength f n = n.size := by
  induction f generalizing n with
  | zero => obtain rfl : n = 0 := by simpa using h
            rfl
  | succ f ih =>
    by_cases h0 : n = 0
    · subst h0; rfl
    · rw [bitLength, if_neg h0, ih (n / 2) (by omega)]
      have hs : n.size = (n / 2).size + 1 := by
        conv_lhs => rw [← Nat.bit_bodd_div2 n]
        rw [Nat.size_bit (by rwa [Nat.bit_bodd_div2]), Nat.div2_val]
      omega

/-- The number of leading zeros (R106). -/
theorem clz64_spec (x : Word) : ∃ n : Nat, n ≤ 64 ∧ (∀ i, 64 - n ≤ i → i < 64 → x.getLsbD i = false) ∧
    (n < 64 → x.getLsbD (63 - n) = true) ∧ clz64 x = BitVec.ofNat 64 n := by
  have hsize : x.toNat.size ≤ 64 := Nat.size_le.mpr x.isLt
  refine ⟨64 - x.toNat.size, by omega, fun i hi _ => ?_, fun hn => ?_, by rw [clz64, bitLength_eq_size _ _ x.isLt]⟩
  · rw [← BitVec.testBit_toNat]
    exact Nat.testBit_lt_two_pow (lt_of_lt_of_le (Nat.lt_size_self _) (Nat.pow_le_pow_right two_pos (by omega)))
  · rw [← BitVec.testBit_toNat, show 63 - (64 - x.toNat.size) = x.toNat.size - 1 by omega]
    obtain ⟨k, hk⟩ : ∃ k, x.toNat.size = k + 1 := ⟨x.toNat.size - 1, by omega⟩
    rw [hk, Nat.add_sub_cancel, Nat.testBit_eq_decide_div_mod_eq]
    have h1 : 2 ^ k ≤ x.toNat := Nat.lt_size.mp (by omega)
    have h2 : x.toNat < 2 ^ (k + 1) := hk ▸ Nat.lt_size_self _
    have : x.toNat / 2 ^ k = 1 := Nat.div_eq_of_lt_le (by omega) (by omega)
    simp [this]

theorem popc64_eq (x : Word) : popc64 x = BitVec.ofNat 64 ((List.range 64).countP fun i => x.getLsbD i) := by
  rw [popc64, List.countP_eq_length_filter]

theorem divSigned_eq (x y : Word) : divSigned x y =
    if y = 0 then BitVec.allOnes 64 else if x.toInt = -(2 ^ 63) ∧ y.toInt = -1 then x else BitVec.ofInt 64 (x.toInt.tdiv y.toInt) := by
  unfold divSigned
  split_ifs with h0 hover
  · rfl
  · obtain ⟨hx, hy⟩ := hover
    apply BitVec.eq_of_toInt_eq
    rw [hx, hy]; rfl
  · rfl

theorem divUnsigned_eq (x y : Word) : divUnsigned x y =
    if y = 0 then BitVec.allOnes 64 else BitVec.ofNat 64 (x.toNat / y.toNat) := by
  unfold divUnsigned; congr 1; rw [BitVec.udiv_def]

theorem remUnsigned_eq (x y : Word) : remUnsigned x y = if y = 0 then x else BitVec.ofNat 64 (x.toNat % y.toNat) := by
  unfold remUnsigned; congr 1; rw [BitVec.umod_def]

theorem natAbs_toInt_lt (x : Word) : x.toInt.natAbs < 2 ^ 64 := by
  have := BitVec.toInt_lt (x := x)
  have := BitVec.le_toInt x
  omega

/-! ### The forms of a result -/

theorem Writes.of_eq {s : State} {c : Context} {o : Out} {d : BitVec 6} {v v' next next' : Word} {p : Bool}
    (h : Writes s c o d v p next) (hv : v = v') (hn : next = next' := by rfl) : Writes s c o d v' p next' := hv ▸ hn ▸ h

theorem GoesOn.of_eq {s : State} {c : Context} {o : Out} {next next' : Word}
    (h : GoesOn s c o next) (hn : next = next') : GoesOn s c o next' := hn ▸ h

/-- An instruction that writes a register of the executing context, which it may have changed besides. -/
theorem setReg_goOn_writes (s : State) (c : Context) (d : BitVec 6) (v : Word) (p : Bool) (next : Word) :
    Writes s c (.next (s.goOn c (c.thread.setReg d v p) next)) d v p next := by
  have w := c.thread.setReg_wrote d v p
  refine ⟨_, _, rfl, State.ctx_setCtx_self .., ⟨w.value, w.tag⟩, ?_, ?_, rfl, ?_, GenFrame.setCtx ..⟩
  · simp
  · simp
  · exact Thread.finish_onlyFlow _ (Thread.setReg_onlyFlow ..)

/-- A record in the frost ring leaves what an instruction answers as it is. -/
theorem Writes.addFrost {s t : State} {c : Context} {d : BitVec 6} {v next : Word} {p : Bool}
    (h : Writes s c (.next t) d v p next) (k kind : Nat) (pay : BitVec 96) : Writes s c (.next (t.frost k kind pay)) d v p next := by
  obtain ⟨_, c', ht, hctx, hregs, hpc, hloops, hctxFrame, hthread, hframe⟩ := h
  cases ht
  exact ⟨_, c', rfl, (State.frost_ctx ..).trans hctx, hregs, hpc, hloops, hctxFrame, hthread, hframe.addFrost k kind pay⟩

/-- What every division does: its result, and the cycles its thread is not ready. -/
theorem genDiv_writes (s : State) (c : Context) (h : s.Executes c) (d a b : BitVec 6) (f : Word → Word → Word)
    (magnitude : Word → Nat) (hm : magnitude (c.thread.reg a) < 2 ^ 64) :
    Writes s { c with busyUntil := (s.core c.coreKey).cycle.toNat + 1 + 2 + ((magnitude (c.thread.reg a)).size + 1) / 2 }
      (genDiv s d a b f magnitude) d (f (c.thread.reg a) (c.thread.reg b)) (c.thread.regPoison a || c.thread.regPoison b)
      (c.thread.pc + 4) := by
  unfold genDiv
  rw [withThread_of s c h]
  simp only [divCycles, bitLength_eq_size _ _ hm, ← Nat.add_assoc]
  exact setReg_goOn_writes s
    { c with busyUntil := (s.core c.coreKey).cycle.toNat + 1 + 2 + ((magnitude (c.thread.reg a)).size + 1) / 2 } d _ _ _

/-- Settles O7: every register operation is `genAlu` or `genUnary` with the table's function. -/
theorem aluResults : Obligations.AluResults := by
  constructor
  · intro s c b a d h
    have r := genAlu_writes s c h d a b
    simp only [exec_add, exec_sub, exec_mul, exec_mulh, exec_and, exec_or, exec_xor, exec_shl, exec_shr, exec_sra, exec_slt, exec_sltu,
      exec_min, exec_max, exec_minu, exec_maxu, execAdd, execSub, execMul, execMulh, execAnd, execOr, execXor, execShl, execShr, execSra,
      execSlt, execSltu, execMin, execMax, execMinu, execMaxu]
    exact ⟨r _, r _, r _, (r _).of_eq (mulHigh_eq _ _), r _, r _, r _, r _, r _, (r _).of_eq (sshiftRight_eq_ofInt _ _),
      (r _).of_eq (boolWord_slt _ _), (r _).of_eq (boolWord_ult _ _), (r _).of_eq (ite_slt _ _ _ _), (r _).of_eq (ite_slt_max _ _),
      (r _).of_eq (ite_ult _ _ _ _), (r _).of_eq (ite_ult_max _ _)⟩
  · intro s c a d h
    have r := genUnary_writes s c h d a
    simp only [exec_clz, exec_popc, execClz, execPopc]
    obtain ⟨n, hn, hzero, hone, hclz⟩ := clz64_spec (c.thread.reg a)
    exact ⟨⟨n, hn, hzero, hone, (r clz64).of_eq hclz⟩, (r popc64).of_eq (popc64_eq _)⟩

/-- Settles O8: every division is `genDiv`, with the special results of its function. -/
theorem divisionResults : Obligations.DivisionResults := by
  intro s c b a d h
  have hs := natAbs_toInt_lt (c.thread.reg a)
  have hu := (c.thread.reg a).isLt
  simp only [exec_div, exec_divu, exec_rem, exec_remu, execDiv, execDivu, execRem, execRemu]
  exact ⟨(genDiv_writes s c h d a b divSigned _ hs).of_eq (divSigned_eq _ _),
    (genDiv_writes s c h d a b divUnsigned BitVec.toNat hu).of_eq (divUnsigned_eq _ _),
    genDiv_writes s c h d a b remSigned _ hs,
    (genDiv_writes s c h d a b remUnsigned BitVec.toNat hu).of_eq (remUnsigned_eq _ _)⟩

/-- Settles O9: every immediate operation is `genUnary` or `genWrite` with the table's function. -/
theorem immediateResults : Obligations.ImmediateResults := by
  intro s c i n u a d h
  have r := genUnary_writes s c h d a
  have slti : boolWord ((c.thread.reg a).slt (sext13 i)) = if (c.thread.reg a).toInt < i.toInt then 1 else 0 := by
    rw [boolWord_slt, sext13_toInt]
  simp only [exec_addi, exec_andi, exec_ori, exec_xori, exec_shli, exec_shri, exec_srai, exec_slti, exec_sltiu, exec_lui, exec_pcadd,
    execAddi, execAndi, execOri, execXori, execShli, execShri, execSrai, execSlti, execSltiu, execLui, execPcadd]
  exact ⟨r _, r _, r _, r _, r _, r _, (r _).of_eq (sshiftRight_eq_ofInt _ _), (r _).of_eq slti, (r _).of_eq (boolWord_ult _ _),
    (genWrite_writes s c h d _).of_eq (sext19_shift u), (genWrite_writes s c h d _).of_eq (congrArg (c.thread.pc + ·) (sext19_shift u))⟩

/-! ### Branches and jumps (R110, R111) -/

/-- A branch goes to its target where its condition holds, else to the next word. -/
theorem genBranch_goesOn (s : State) (c : Context) (h : s.Executes c) (a b : BitVec 6) (i : BitVec 13) (cond : Word → Word → Bool)
    (ha : c.thread.regPoison a = false) (hb : c.thread.regPoison b = false) :
    GoesOn s c (genBranch s a b i cond) (if cond (c.thread.reg a) (c.thread.reg b) then c.thread.pc + BitVec.ofInt 64 (i.toInt * 4)
      else c.thread.pc + 4) := by
  unfold genBranch
  rw [withThread_of s c h]
  simp only [ha, hb, Bool.or_self, Bool.false_eq_true, if_false]
  split
  · exact (goOn_frost_goesOn s c _ _ _).of_eq (by rw [sext13_words])
  · exact goOn_goesOn s c _

theorem genBranch_decides (s : State) (c : Context) (h : s.Executes c) (a b : BitVec 6) (i : BitVec 13) (cond : Word → Word → Bool)
    (ha : c.thread.regPoison a = false) (hb : c.thread.regPoison b = false) {p : Prop}
    (hp : cond (c.thread.reg a) (c.thread.reg b) = true ↔ p) :
    (p → GoesOn s c (genBranch s a b i cond) (c.thread.pc + BitVec.ofInt 64 (i.toInt * 4))) ∧
    (¬ p → GoesOn s c (genBranch s a b i cond) (c.thread.pc + 4)) := by
  have hgo := genBranch_goesOn s c h a b i cond ha hb
  exact ⟨fun y => hgo.of_eq (if_pos (hp.mpr y)), fun y => hgo.of_eq (if_neg (fun e => y (hp.mp e)))⟩

theorem genBranch_traps (s : State) (c : Context) (h : s.Executes c) (hh : c.Handles) (a b : BitVec 6) (i : BitVec 13)
    (cond : Word → Word → Bool) (hp : c.thread.regPoison a = true ∨ c.thread.regPoison b = true) :
    Traps s c (genBranch s a b i cond) 4 0 c.thread.pc 0 false := by
  unfold genBranch
  rw [withThread_of s c h]
  simp only [Bool.or_eq_true, hp, if_true]
  exact poisonUse_traps s c h hh

/-- Settles O15: branches by `genBranch_decides`; JAL and JALR write the return address and record the branch. -/
theorem controlFlowResults : Obligations.ControlFlowResults := by
  constructor
  · intro s c i b a h ha hb
    have r (cond : Word → Word → Bool) {p : Prop} := genBranch_decides s c h a b i cond ha hb (p := p)
    simp only [exec_beq, exec_bne, exec_blt, exec_bge, exec_bltu, exec_bgeu, execBeq, execBne, execBlt, execBge, execBltu, execBgeu]
    exact ⟨r (fun x y => x == y) beq_iff_eq, r (fun x y => x != y) bne_iff_ne, r (fun x y => x.slt y) decide_eq_true_iff,
      r (fun x y => !x.slt y) (by simp [BitVec.slt]), r (fun x y => x.ult y) decide_eq_true_iff,
      r (fun x y => !x.ult y) (by simp [BitVec.ult])⟩
  · intro s c u i a d h
    refine ⟨?_, fun ha htarget => ?_, fun ha htarget hh => ?_⟩
    · rw [exec_jal, execJal, withThread_of s c h]
      exact ((setReg_goOn_writes s c d (c.thread.pc + 4) false _).addFrost _ _ _).of_eq rfl (by rw [sext19_words])
    · replace htarget : (c.thread.reg a + sext13 i).toNat % 4 = 0 := htarget
      rw [exec_jalr, execJalr, withThread_of s c h]
      simp only [ha, Bool.false_eq_true, if_false]
      rw [if_neg (not_not_intro htarget)]
      exact (setReg_goOn_writes s c d (c.thread.pc + 4) false _).addFrost _ _ _
    · replace htarget : (c.thread.reg a + sext13 i).toNat % 4 ≠ 0 := htarget
      rw [exec_jalr, execJalr, withThread_of s c h]
      simp only [ha, Bool.false_eq_true, if_false]
      rw [if_pos htarget]
      exact genFault_traps s c h hh gMISALIGN 0 _

/-! ### Loops (R112-R115) -/

/-- A loop is skipped, pushed, or one too many. -/
theorem pushLoop_spec (s : State) (c : Context) (h : s.Executes c) (n : Word) (len : Nat) :
    let past := c.thread.pc + 4 + BitVec.ofNat 64 (4 * len)
    let pushed : Context := { c with thread := { c.thread with
      loops := { index := 0, count := n, start := c.thread.pc + 4, stop := past } :: c.thread.loops } }
    (n = 0 → GoesOn s c (.next (s.pushLoop c n len)) past) ∧
    (n ≠ 0 → c.thread.loops.length ≠ 6 → GoesOn s pushed (.next (s.pushLoop c n len)) (c.thread.pc + 4)) ∧
    (n ≠ 0 → c.thread.loops.length = 6 → c.Handles → Traps s c (.next (s.pushLoop c n len)) 7 0 c.thread.pc 0 false) := by
  intro past pushed
  unfold State.pushLoop
  refine ⟨fun h0 => ?_, fun h0 h6 => ?_, fun h0 h6 hh => ?_⟩
  · rw [if_pos h0]; exact goOn_goesOn s c _
  · rw [if_neg h0, if_neg h6]
    exact goOn_goesOn s pushed _
  · rw [if_neg h0, if_pos h6]; exact genFault_traps s c h hh gLOOPOVF 0 0

/-- LBRK outside every loop of its handler is an illegal instruction. -/
theorem execLbrk_traps (s : State) (c : Context) (h : s.Executes c) (hh : c.Handles) (hf : c.thread.depth ≤ c.thread.floor) :
    Traps s c (execLbrk s) 1 2 c.thread.pc 0x2A false := by
  unfold execLbrk
  rw [withThread_of s c h]
  dsimp only
  split
  · exact illins_traps s c h hh .lbrk 2
  · rw [if_pos hf]; exact illins_traps s c h hh .lbrk 2

/-- The end check at the innermost level (R113). -/
theorem endCheck_cons (floor : Nat) (next : Word) (l : LoopLevel) (rest : List LoopLevel) :
    let r := endCheck floor next (l :: rest)
    (rest.length + 1 ≤ floor ∨ next ≠ l.stop → r = (l :: rest, next, false)) ∧
    (floor < rest.length + 1 → next = l.stop → l.index.toNat + 1 < l.count.toNat →
      r = ({ l with index := l.index + 1 } :: rest, l.start, true)) ∧
    (floor < rest.length + 1 → next = l.stop → l.count.toNat ≤ l.index.toNat + 1 →
      r.1 = (endCheck floor next rest).1 ∧ r.2.1 = (endCheck floor next rest).2.1 ∧ r.2.2 = true) := by
  rw [endCheck]
  refine ⟨fun h => if_pos h, fun hf hn hc => ?_, fun hf hn hc => ?_⟩
  · rw [if_neg (by rintro (h | h) <;> [omega; exact h hn]), if_pos hc]
  · rw [if_neg (by rintro (h | h) <;> [omega; exact h hn]), if_neg (by omega)]
    exact ⟨rfl, rfl, rfl⟩

/-- LOOP with a clean count pushes its loop (R112). -/
theorem execLoop_of_clean (s : State) (c : Context) (h : s.Executes c) (l : BitVec 13) (cnt : BitVec 6)
    (hp : c.thread.regPoison cnt = false) : execLoop l cnt s = .next (s.pushLoop c (c.thread.reg cnt) l.toNat) := by
  rw [execLoop, withThread_of s c h, hp]; rfl

/-- Settles O16: the pushes, LBRK, LIDX, and the end check at the innermost level. -/
theorem loopResults : Obligations.LoopResults := by
  refine ⟨fun s c l cnt n m h => ⟨fun hp => ?_, ?_⟩, fun s c k d h => ⟨fun l rest hl hf => ?_, fun hf hh => ?_, ?_⟩, endCheck_cons⟩
  · simp only [exec_loop, execLoop_of_clean s c h l cnt hp]
    exact pushLoop_spec s c h _ _
  · simp only [exec_loopi, execLoopi, withThread_of s c h]
    exact pushLoop_spec s c h _ _
  · rw [exec_lbrk, execLbrk, withThread_of s c h]
    simp only [hl, if_neg (Nat.not_le_of_lt hf)]
    exact goOn_goesOn s { c with thread := { c.thread with loops := { l with count := l.index + 1 } :: rest } } _
  · exact execLbrk_traps s c h hh hf
  · rw [exec_lidx, execLidx]
    refine (genWrite_writes s c h d _).of_eq ?_
    dsimp only
    split_ifs with h1 h2 h2
    · omega
    · rfl
    · rw [List.getElem?_eq_getElem]
    · omega

end Sys2Proof.Machine
end

section
/-! PROOFS. Bytes of lines, and what a load is answered (R36, R37, R56). -/

namespace Sys2Proof.Machine

/-! ### Bits and bytes of lines -/

theorem leNat_testBit (l : List Byte) (j : Nat) : (leNat l).testBit j = (l.getD (j / 8) 0).getLsbD (j % 8) := by
  have hbyte : (leNat l / 256 ^ (j / 8) % 2 ^ 8).testBit (j % 8) = (l.getD (j / 8) 0).toNat.testBit (j % 8) := by
    rw [show (2 : Nat) ^ 8 = 256 from rfl, leNat_byte]
  rw [← BitVec.testBit_toNat, ← hbyte, Nat.testBit_mod_two_pow, show (256 : Nat) ^ (j / 8) = 2 ^ (8 * (j / 8)) by
    rw [Nat.pow_mul], Nat.testBit_div_two_pow, Nat.mod_add_div]
  simp [Nat.mod_lt j (show 0 < 8 by decide)]

theorem expandMask_getLsbD (m : BitVec 64) (j : Nat) (hj : j < 512) : (expandMask m).getLsbD j = m.getLsbD (j / 8) := by
  have hbyte : j / 8 < 64 := by omega
  unfold expandMask
  rw [BitVec.getLsbD_ofNat, leNat_testBit]
  simp only [hj, decide_true, Bool.true_and, List.getD_eq_getElem?_getD, List.getElem?_map, List.getElem?_range hbyte,
    Option.map_some, Option.getD_some]
  have hall : ∀ k, k < 8 → (255 : Byte).getLsbD k = true := by decide
  cases m.getLsbD (j / 8)
  · simp
  · exact hall _ (Nat.mod_lt j (by decide))

/-- A byte of a merged line is the new line's where the mask chooses it. -/
theorem lineByte_mergeLine (old new : Line) (m : BitVec 64) (i : Nat) (hi : i < 64) :
    lineByte (mergeLine old new m) i = if m.getLsbD i then lineByte new i else lineByte old i := by
  unfold lineByte mergeLine
  apply BitVec.eq_of_getLsbD_eq
  intro k hk
  have hbit : (8 * i + k) / 8 = i := by omega
  have hmask := expandMask_getLsbD m (8 * i + k) (by omega)
  rw [hbit] at hmask
  have hlt : 8 * i + k < 512 := by omega
  simp only [BitVec.getLsbD_extractLsb', hk, decide_true, Bool.true_and, BitVec.getLsbD_or, BitVec.getLsbD_and, BitVec.getLsbD_not, hlt,
    hmask]
  cases m.getLsbD i <;> simp [hk]

theorem byteMask_getLsbD (i n j : Nat) (hj : j < 64) : (byteMask i n).getLsbD j = decide (i ≤ j ∧ j < i + n) := by
  unfold byteMask
  rw [BitVec.getLsbD_ofNat, Nat.testBit_mul_two_pow, Nat.testBit_two_pow_sub_one]
  by_cases hij : i ≤ j
  · have : j - i < n ↔ j < i + n := by omega
    simp [hj, hij, this]
  · simp [hij]

theorem eq_zero_iff_forall_getLsbD {w : Nat} (m : BitVec w) : m = 0 ↔ ∀ i, i < w → m.getLsbD i = false := by
  constructor
  · rintro rfl i _; simp
  · intro h; exact BitVec.eq_of_getLsbD_eq (fun i hi => by simp [h i hi])

theorem ne_zero_iff_exists_getLsbD {w : Nat} (m : BitVec w) : m ≠ 0 ↔ ∃ i, i < w ∧ m.getLsbD i = true := by
  rw [Ne, eq_zero_iff_forall_getLsbD]
  push Not
  simp

/-! ### One source of an answer -/

theorem Answer.from_want (a : Answer) (m : BitVec 64) (d : Line) (p : Bool) (i : Nat) (hi : i < 64) :
    (a.from_ m d p).want.getLsbD i = (a.want.getLsbD i && !m.getLsbD i) := by
  unfold Answer.from_
  split
  · rename_i h
    have := (eq_zero_iff_forall_getLsbD _).mp h i hi
    rw [BitVec.getLsbD_and] at this
    cases ha : a.want.getLsbD i <;> cases hm : m.getLsbD i <;> simp_all
  · simp [hi]

theorem Answer.from_byte (a : Answer) (m : BitVec 64) (d : Line) (p : Bool) (i : Nat) (hi : i < 64) :
    lineByte (a.from_ m d p).data i = if a.want.getLsbD i && m.getLsbD i then lineByte d i else lineByte a.data i := by
  unfold Answer.from_
  split
  · rename_i h
    have := (eq_zero_iff_forall_getLsbD _).mp h i hi
    rw [BitVec.getLsbD_and] at this
    rw [this]; rfl
  · rw [lineByte_mergeLine _ _ _ _ hi, BitVec.getLsbD_and]

theorem Answer.from_poison (a : Answer) (m : BitVec 64) (d : Line) (p : Bool) :
    (a.from_ m d p).poison = true ↔
      a.poison = true ∨ ∃ i, i < 64 ∧ a.want.getLsbD i = true ∧ m.getLsbD i = true ∧ p = true := by
  have hz := ne_zero_iff_exists_getLsbD (a.want &&& m)
  simp only [BitVec.getLsbD_and, Bool.and_eq_true] at hz
  unfold Answer.from_
  split
  · rename_i h
    have hno : ¬ ∃ i, i < 64 ∧ a.want.getLsbD i = true ∧ m.getLsbD i = true := fun e => hz.mpr e h
    constructor
    · exact Or.inl
    · rintro (e | ⟨i, h1, h2, h3, -⟩)
      · exact e
      · exact absurd ⟨i, h1, h2, h3⟩ hno
  · rename_i h
    obtain ⟨i, h1, h2, h3⟩ := hz.mp h
    rw [Bool.or_eq_true]
    constructor
    · exact Or.imp_right fun e => ⟨i, h1, h2, h3, e⟩
    · exact Or.imp_right fun ⟨_, _, _, _, e⟩ => e

/-! ### A list of sources -/

/-- The entry holds byte i of the line. -/
def PbEntry.gives (pkg line i : Nat) (e : PbEntry) : Bool :=
  decide (e.loc.pkg = pkg ∧ e.loc.pa / 64 = line ∧ e.mask.getLsbD i = true)

theorem Answer.entries_cons (pkg line : Nat) (a : Answer) (e : PbEntry) (l : List PbEntry) :
    a.entries pkg line (e :: l) = (if e.loc.pkg = pkg ∧ e.loc.pa / 64 = line then a.from_ e.mask e.data e.poison else a).entries pkg line l :=
  rfl

theorem Answer.entries_append (pkg line : Nat) (a : Answer) (l m : List PbEntry) :
    a.entries pkg line (l ++ m) = (a.entries pkg line l).entries pkg line m := by
  induction l generalizing a with
  | nil => rfl
  | cons e l ih => rw [List.cons_append, entries_cons, ih, entries_cons]

/-- One entry takes the bytes it gives from those wanted. -/
theorem Answer.entry_spec (pkg line : Nat) (a : Answer) (e : PbEntry) (i : Nat) (hi : i < 64) :
    let b := if e.loc.pkg = pkg ∧ e.loc.pa / 64 = line then a.from_ e.mask e.data e.poison else a
    b.want.getLsbD i = (a.want.getLsbD i && !e.gives pkg line i) ∧
    lineByte b.data i = (if a.want.getLsbD i && e.gives pkg line i then lineByte e.data i else lineByte a.data i) := by
  by_cases h : e.loc.pkg = pkg ∧ e.loc.pa / 64 = line
  · have hg : e.gives pkg line i = e.mask.getLsbD i := by simp [PbEntry.gives, h]
    simp only [h, and_self, if_true, hg]
    exact ⟨from_want _ _ _ _ _ hi, from_byte _ _ _ _ _ hi⟩
  · have hg : e.gives pkg line i = false := by
      rw [PbEntry.gives, decide_eq_false_iff_not]; exact fun ⟨h1, h2, _⟩ => h ⟨h1, h2⟩
    simp only [if_neg h, hg]
    simp

theorem Answer.entry_poison (pkg line : Nat) (a : Answer) (e : PbEntry) :
    (if e.loc.pkg = pkg ∧ e.loc.pa / 64 = line then a.from_ e.mask e.data e.poison else a).poison = true ↔
      a.poison = true ∨ ∃ i, i < 64 ∧ a.want.getLsbD i = true ∧ e.gives pkg line i = true ∧ e.poison = true := by
  by_cases h : e.loc.pkg = pkg ∧ e.loc.pa / 64 = line
  · rw [if_pos h, from_poison]
    simp [PbEntry.gives, h]
  · have hg (i : Nat) : e.gives pkg line i = false := by
      rw [PbEntry.gives, decide_eq_false_iff_not]; exact fun ⟨h1, h2, _⟩ => h ⟨h1, h2⟩
    rw [if_neg h]
    simp [hg]

theorem Answer.entries_want (pkg line : Nat) (a : Answer) (l : List PbEntry) (i : Nat) (hi : i < 64) :
    (a.entries pkg line l).want.getLsbD i = (a.want.getLsbD i && (l.find? (PbEntry.gives pkg line i)).isNone) := by
  induction l generalizing a with
  | nil => simp [Answer.entries]
  | cons e l ih =>
    rw [entries_cons, ih, (entry_spec pkg line a e i hi).1, List.find?_cons]
    cases e.gives pkg line i <;> simp

/-- A wanted byte comes from the first entry that gives it. -/
theorem Answer.entries_byte (pkg line : Nat) (a : Answer) (l : List PbEntry) (i : Nat) (hi : i < 64) :
    lineByte (a.entries pkg line l).data i =
      if a.want.getLsbD i then ((l.find? (PbEntry.gives pkg line i)).map (fun e => lineByte e.data i)).getD (lineByte a.data i)
      else lineByte a.data i := by
  induction l generalizing a with
  | nil => simp [Answer.entries]
  | cons e l ih =>
    obtain ⟨hw, hb⟩ := entry_spec pkg line a e i hi
    rw [entries_cons, ih, hw, hb, List.find?_cons]
    cases a.want.getLsbD i <;> cases e.gives pkg line i <;> simp

/-- The poison met is that of the first givers of the wanted bytes. -/
theorem Answer.entries_poison (pkg line : Nat) (a : Answer) (l : List PbEntry) :
    (a.entries pkg line l).poison = true ↔ a.poison = true ∨
      ∃ i, i < 64 ∧ a.want.getLsbD i = true ∧ ∃ e, l.find? (PbEntry.gives pkg line i) = some e ∧ e.poison = true := by
  induction l generalizing a with
  | nil => simp [Answer.entries]
  | cons e l ih =>
    rw [entries_cons, ih, entry_poison, or_assoc]
    refine or_congr_right ?_
    rw [← exists_or]
    refine exists_congr fun i => ?_
    by_cases hi : i < 64
    · rw [(entry_spec pkg line a e i hi).1, List.find?_cons]
      cases a.want.getLsbD i <;> cases e.gives pkg line i <;> simp [hi]
    · simp [hi]

/-! ### The answer of a load (R36) -/

/-- What answers before snapshot and home, the newest first. -/
def OrdState.sources (o : OrdState) : List PbEntry := o.buffers.flatten ++ o.transit.reverse

/-- The first source of a byte that is on its way to its home. -/
def OrdState.giver (o : OrdState) (pkg line i : Nat) : Option PbEntry := o.sources.find? (PbEntry.gives pkg line i)

/-- What answers after them: the snapshot's line, else the home's. -/
def OrdState.settled (s : State) (me : Option Nat) (o : OrdState) (pkg line : Nat) : Line × Bool :=
  (o.snapLine pkg line).getD (s.readHome me pkg line)

theorem OrdState.answer_eq (o : OrdState) (pkg line : Nat) (want : BitVec 64) :
    o.answer pkg line want = Answer.entries pkg line ⟨0, want, false⟩ o.sources := (Answer.entries_append ..).symm

theorem OrdState.answer_want (o : OrdState) (pkg line : Nat) (want : BitVec 64) (i : Nat) (hi : i < 64) :
    (o.answer pkg line want).want.getLsbD i = (want.getLsbD i && (o.giver pkg line i).isNone) := by
  rw [answer_eq]; exact Answer.entries_want _ _ _ _ _ hi

section
variable (s : State) (me : Option Nat) (o : OrdState) (pkg line : Nat) (want : BitVec 64)

theorem answerLine_byte (i : Nat) (hi : i < 64) (hw : want.getLsbD i = true) :
    lineByte (answerLine s me o pkg line want).1 i =
      ((o.giver pkg line i).map (fun e => lineByte e.data i)).getD (lineByte (o.settled s me pkg line).1 i) := by
  have hwant := o.answer_want pkg line want i hi
  have hbyte : lineByte (o.answer pkg line want).data i =
      if want.getLsbD i then ((o.giver pkg line i).map (fun e => lineByte e.data i)).getD (lineByte 0 i) else lineByte 0 i := by
    rw [o.answer_eq]; exact Answer.entries_byte pkg line ⟨0, want, false⟩ o.sources i hi
  rw [hw, if_pos rfl] at hbyte
  rw [hw, Bool.true_and] at hwant
  unfold answerLine
  dsimp only
  split
  · rename_i hz
    rw [hz] at hwant
    change lineByte (o.answer pkg line want).data i = _
    rw [hbyte]
    cases hg : o.giver pkg line i with
    | none => rw [hg] at hwant; simp at hwant
    | some e => simp only [Option.map_some, Option.getD_some]
  · change lineByte (Answer.from_ (o.answer pkg line want) (BitVec.allOnes 64) _ _).data i = _
    rw [Answer.from_byte _ _ _ _ _ hi, hwant, hbyte, BitVec.getLsbD_allOnes, decide_eq_true hi]
    cases o.giver pkg line i with
    | none => simp only [Option.isNone_none, Bool.and_self, if_true, Option.map_none, Option.getD_none, OrdState.settled]
    | some e => simp only [Option.isNone_some, Bool.false_and, Bool.false_eq_true, if_false, Option.map_some, Option.getD_some]

theorem answerLine_fresh :
    (answerLine s me o pkg line want).2.2 = true ↔
      (∃ i, i < 64 ∧ want.getLsbD i = true ∧ o.giver pkg line i = none) ∧ (o.snapLine pkg line).isNone = true := by
  have hz := ne_zero_iff_exists_getLsbD (o.answer pkg line want).want
  have hex : (∃ i, i < 64 ∧ (o.answer pkg line want).want.getLsbD i = true) ↔
      ∃ i, i < 64 ∧ want.getLsbD i = true ∧ o.giver pkg line i = none := by
    refine exists_congr fun i => and_congr_right fun hi => ?_
    rw [o.answer_want pkg line want i hi]; simp
  rw [hex] at hz
  unfold answerLine
  dsimp only
  split
  · rename_i h
    have : ¬ ∃ i, i < 64 ∧ want.getLsbD i = true ∧ o.giver pkg line i = none := fun e => hz.mpr e h
    simp [this]
  · rename_i h
    simp [hz.mp h]

/-- The poison of an answer is that of what gives its bytes. -/
theorem answerLine_poison :
    (answerLine s me o pkg line want).2.1 = true ↔ ∃ i, i < 64 ∧ want.getLsbD i = true ∧
      ((o.giver pkg line i).map PbEntry.poison).getD (o.settled s me pkg line).2 = true := by
  have hpoison := Answer.entries_poison pkg line ⟨0, want, false⟩ o.sources
  rw [← o.answer_eq pkg line want] at hpoison
  simp only [Bool.false_eq_true, false_or] at hpoison
  have hsplit : (∃ i, i < 64 ∧ want.getLsbD i = true ∧
      ((o.giver pkg line i).map PbEntry.poison).getD (o.settled s me pkg line).2 = true) ↔
      (o.answer pkg line want).poison = true ∨
        ∃ i, i < 64 ∧ (o.answer pkg line want).want.getLsbD i = true ∧ (o.settled s me pkg line).2 = true := by
    rw [hpoison, ← exists_or]
    refine exists_congr fun i => ?_
    by_cases hi : i < 64
    · rw [o.answer_want pkg line want i hi]
      change _ ↔ (_ ∧ _ ∧ ∃ e, o.giver pkg line i = some e ∧ _) ∨ _
      cases o.giver pkg line i <;> simp [hi]
    · simp [hi]
  rw [hsplit]
  unfold answerLine
  dsimp only
  split
  · rename_i hz
    simp [hz]
  · change (Answer.from_ (o.answer pkg line want) (BitVec.allOnes 64) (o.settled s me pkg line).1 (o.settled s me pkg line).2).poison = true ↔ _
    rw [Answer.from_poison]
    refine or_congr_right (exists_congr fun i => and_congr_right fun hi => ?_)
    rw [BitVec.getLsbD_allOnes, decide_eq_true hi]
    simp

end

/-- The first element of a list that satisfies a condition stands after none that does. -/
theorem OrdState.giver_of_buffered {o : OrdState} {pkg line i : Nat} {e : PbEntry} {pre post : List PbEntry}
    (h : o.buffers.flatten = pre ++ e :: post) (he : e.gives pkg line i = true) (hpre : ∀ x ∈ pre, x.gives pkg line i = false) :
    o.giver pkg line i = some e := by
  rw [giver, sources, List.find?_eq_some_iff_append]
  exact ⟨he, pre, post ++ o.transit.reverse, by rw [h]; simp, fun a ha => by simp [hpre a ha]⟩

theorem OrdState.giver_of_transit {o : OrdState} {pkg line i : Nat} {e : PbEntry} {pre post : List PbEntry}
    (hb : ∀ x ∈ o.buffers.flatten, x.gives pkg line i = false)
    (h : o.transit = pre ++ e :: post) (he : e.gives pkg line i = true) (hpost : ∀ x ∈ post, x.gives pkg line i = false) :
    o.giver pkg line i = some e := by
  rw [giver, sources, List.find?_eq_some_iff_append]
  refine ⟨he, o.buffers.flatten ++ post.reverse, pre.reverse, by rw [h]; simp, fun a ha => ?_⟩
  rcases List.mem_append.mp ha with ha | ha
  · simp [hb a ha]
  · simp [hpost a (List.mem_reverse.mp ha)]

theorem OrdState.giver_eq_none {o : OrdState} {pkg line i : Nat} :
    o.giver pkg line i = none ↔ ∀ x ∈ o.buffers.flatten ++ o.transit, x.gives pkg line i = false := by
  simp only [giver, sources, List.find?_eq_none, List.mem_append, List.mem_reverse, Bool.not_eq_true]

/-- Where a byte's giver stands: in the buffers, or in the transit set where no buffer gives the byte. -/
theorem OrdState.giver_eq_some {o : OrdState} {pkg line i : Nat} {e : PbEntry} (h : o.giver pkg line i = some e) :
    (∃ pre post, o.buffers.flatten = pre ++ e :: post ∧ e.gives pkg line i = true ∧ ∀ x ∈ pre, x.gives pkg line i = false) ∨
    ((∀ x ∈ o.buffers.flatten, x.gives pkg line i = false) ∧
      ∃ pre post, o.transit = pre ++ e :: post ∧ e.gives pkg line i = true ∧ ∀ x ∈ post, x.gives pkg line i = false) := by
  rw [giver, sources, List.find?_append] at h
  cases hb : o.buffers.flatten.find? (PbEntry.gives pkg line i) with
  | some x =>
    rw [hb] at h
    cases h
    obtain ⟨he, pre, post, hl, hpre⟩ := List.find?_eq_some_iff_append.mp hb
    exact .inl ⟨pre, post, hl, he, fun x hx => by simpa using hpre x hx⟩
  | none =>
    rw [hb] at h
    obtain ⟨he, pre, post, hl, hpre⟩ := List.find?_eq_some_iff_append.mp h
    refine .inr ⟨fun x hx => by simpa using List.find?_eq_none.mp hb x hx, post.reverse, pre.reverse, ?_, he,
      fun x hx => by simpa using hpre x (List.mem_reverse.mp hx)⟩
    rw [← List.reverse_reverse o.transit, hl]; simp

theorem readHome_of_unwritten (s : State) (me : Option Nat) (pkg line : Nat) (h : ∀ p ∈ s.ownPast, p.key ≠ lineKey pkg line) :
    s.readHome me pkg line = (s.homeLine pkg line, s.linePoisoned pkg line) := by
  unfold State.readHome
  rw [List.filter_eq_nil_iff.mpr (fun p hp => by simp [h p hp])]

/-- Settles O12: every wanted byte comes from its giver, else from snapshot or home. -/
theorem loadAnswers : Obligations.LoadAnswers := by
  intro s me o pkg line want r gives buffered rest
  have gives_iff (i : Nat) (e : PbEntry) : gives i e ↔ e.gives pkg line i = true := decide_eq_true_iff.symm
  have not_gives (i : Nat) (e : PbEntry) : ¬ gives i e ↔ e.gives pkg line i = false := by rw [gives_iff, Bool.not_eq_true]
  have hbyte := answerLine_byte s me o pkg line want
  have hfresh := answerLine_fresh s me o pkg line want
  have hpoison := answerLine_poison s me o pkg line want
  refine ⟨fun i hi hw => ⟨fun e pre post hl he hpre => ?_, fun hb => ⟨fun e pre post hl he hpost => ?_, fun ht => ?_⟩⟩,
    fun e pre post hl hw hall => ?_, fun hw hall => ?_, ?_, readHome_of_unwritten s me pkg line⟩
  · simp only [gives_iff, Bool.not_eq_true] at he hpre
    rw [show lineByte r.1 i = _ from hbyte i hi hw, OrdState.giver_of_buffered hl he hpre]; rfl
  · simp only [gives_iff, Bool.not_eq_true] at he hpost hb
    rw [show lineByte r.1 i = _ from hbyte i hi hw, OrdState.giver_of_transit hb hl he hpost]; rfl
  · have hnone : o.giver pkg line i = none := by
      rw [OrdState.giver_eq_none]
      intro x hx
      rcases List.mem_append.mp hx with hx | hx
      · exact (not_gives i x).mp (hb x hx)
      · exact (not_gives i x).mp (ht x hx)
    constructor
    · rw [show lineByte r.1 i = _ from hbyte i hi hw, hnone]; rfl
    · rw [Bool.eq_iff_iff]
      exact hfresh.trans ⟨And.right, fun h => ⟨⟨i, hi, hw, hnone⟩, h⟩⟩
  · have hgiver (i : Nat) (hi : i < 64) (hwi : want.getLsbD i = true) : o.giver pkg line i = some e := by
      obtain ⟨he, hpre⟩ := hall i hi hwi
      exact OrdState.giver_of_buffered hl ((gives_iff i e).mp he) (fun x hx => (not_gives i x).mp (hpre x hx))
    obtain ⟨i, hi, hwi⟩ := (ne_zero_iff_exists_getLsbD want).mp hw
    constructor
    · rw [Bool.eq_iff_iff]
      refine hpoison.trans ⟨fun ⟨j, hj, hwj, hp⟩ => ?_, fun hp => ⟨i, hi, hwi, ?_⟩⟩
      · rw [hgiver j hj hwj] at hp; exact hp
      · rw [hgiver i hi hwi]; exact hp
    · rw [Bool.eq_false_iff]
      intro hf
      obtain ⟨⟨j, hj, hwj, hnone⟩, -⟩ := hfresh.mp hf
      rw [hgiver j hj hwj] at hnone; cases hnone
  · have hnone (i : Nat) (hi : i < 64) (hwi : want.getLsbD i = true) : o.giver pkg line i = none :=
      OrdState.giver_eq_none.mpr fun x hx => (not_gives i x).mp (hall i hi hwi x hx)
    obtain ⟨i, hi, hwi⟩ := (ne_zero_iff_exists_getLsbD want).mp hw
    rw [Bool.eq_iff_iff]
    refine hpoison.trans ⟨fun ⟨j, hj, hwj, hp⟩ => ?_, fun hp => ⟨i, hi, hwi, ?_⟩⟩
    · rw [hnone j hj hwj] at hp; exact hp
    · rw [hnone i hi hwi]; exact hp
  · refine hpoison.trans (exists_congr fun i => and_congr_right fun hi => and_congr_right fun hwi => ?_)
    simp only [gives_iff, Bool.not_eq_true]
    constructor
    · intro hp
      cases hg : o.giver pkg line i with
      | none => rw [hg] at hp; exact .inr (.inr ⟨OrdState.giver_eq_none.mp hg, hp⟩)
      | some e =>
        rw [hg] at hp
        rcases OrdState.giver_eq_some hg with ⟨pre, post, hl, he, hpre⟩ | ⟨hb, pre, post, hl, he, hpost⟩
        · exact .inl ⟨e, pre, post, hl, he, hpre, hp⟩
        · exact .inr (.inl ⟨hb, e, pre, post, hl, he, hpost, hp⟩)
    · rintro (⟨e, pre, post, hl, he, hpre, hp⟩ | ⟨hb, e, pre, post, hl, he, hpost, hp⟩ | ⟨hnone, hp⟩)
      · rw [OrdState.giver_of_buffered hl he hpre]; exact hp
      · rw [OrdState.giver_of_transit hb hl he hpost]; exact hp
      · rw [OrdState.giver_eq_none.mpr hnone]; exact hp

end Sys2Proof.Machine
end

section
/-! PROOFS. The generator's loads and stores (R36, R37, R46, R102, R108, R109). -/

namespace Sys2Proof.Machine

/-! ### Values -/

/-- The extension of a loaded value (R108). -/
theorem extendLoad_eq (n : Nat) (hn : 0 < n) (signed : Bool) (v : Nat) :
    extendLoad n signed v = if signed then (BitVec.ofNat (8 * n) v).signExtend 64 else BitVec.ofNat 64 v := by
  unfold extendLoad
  cases signed
  · rfl
  · rw [if_pos rfl, if_pos rfl, BitVec.signExtend, BitVec.toInt_eq_toNat_cond, BitVec.toNat_ofNat, intOf]
    congr 1
    obtain ⟨k, hk⟩ : ∃ k, 8 * n = k + 1 := ⟨8 * n - 1, by omega⟩
    rw [hk, Nat.add_sub_cancel, Bool.true_and, pow_succ]
    by_cases h : 2 ^ k ≤ v % (2 ^ k * 2)
    · rw [if_pos (decide_eq_true h), if_neg (by omega)]; push_cast; ring
    · rw [if_neg (by simpa using h), if_pos (by omega)]

/-! ### Waiting loads (R36, log entry 8) -/

@[simp] theorem Context.performLoad_reader (s : State) (c : Context) (l : GenLoad) : (c.performLoad s l).reader = c.reader := rfl

theorem Context.foldl_performLoad_reader (s : State) (l : List GenLoad) (c : Context) :
    (l.foldl (Context.performLoad s) c).reader = c.reader := by
  induction l generalizing c with
  | nil => rfl
  | cons x l ih => rw [List.foldl_cons, ih, performLoad_reader]

@[simp] theorem Context.performWhere_reader (s : State) (c : Context) (p : GenLoad → Bool) : (c.performWhere s p).reader = c.reader :=
  foldl_performLoad_reader ..

/-- Without a load that is due, performing the due ones does nothing. -/
theorem Context.performWhere_of_none (s : State) (c : Context) (p : GenLoad → Bool) (h : ∀ x ∈ c.thread.loads, p x = false) :
    c.performWhere s p = c := by
  have hdue (l : GenLoad) (hl : l ∈ c.thread.loads) : c.thread.loadDue p l = false := by
    rw [Thread.loadDue, h l hl, Bool.false_or, List.any_eq_false]
    intro x hx; simp [h x hx]
  have hnone : c.thread.loads.filter (c.thread.loadDue p) = [] := List.filter_eq_nil_iff.mpr fun l hl => by simp [hdue l hl]
  have hall : c.thread.loads.filter (fun l => !c.thread.loadDue p l) = c.thread.loads :=
    List.filter_eq_self.mpr fun l hl => by simp [hdue l hl]
  rw [performWhere, hnone, hall]; rfl

theorem performWhere_age (s : State) (c : Context) (h : ∀ x ∈ c.thread.loads, x.age = 0) :
    c.performWhere s (fun x => decide (0 < x.age)) = c :=
  c.performWhere_of_none s _ fun x hx => by simp [h x hx]

/-! ### Loads at an address -/

/-- What a load notes where it is not yet performed. -/
def noteLoad (c : Context) (d : BitVec 6) (loc : Loc) (n : Nat) (signed : Bool) : Context :=
  { c with thread := { c.thread with loads := c.thread.loads ++
    [{ d := d, loc := loc, size := n, signed := signed, emit := c.thread.emitSeq, before := none, age := 0 }] } }

theorem executes_cacheTranslation {s : State} {c : Context} (h : s.Executes c) (va : Word) : (s.cacheTranslation c va).Executes c := by
  unfold State.Executes at *; simpa using h

section
variable (s : State) (c : Context) (op : BitVec 6) (va : Word) (n : Nat) (signed : Bool) (d : BitVec 6) {loc : Loc}

theorem genLoadAt_of_ok (hva : va.toNat % n = 0) (ht : translate s c va .genLoad = .ok loc) :
    s.genLoadAt c op va n signed d =
      (let s1 := s.cacheTranslation c va
       if loc.dev then s1.goOn c (c.thread.setReg d (extendLoad n signed (s1.deviceLoad loc n).toNat) false) (c.thread.pc + 4)
       else
        let c1 := if s.late then noteLoad c d loc n signed
          else (c.performWhere s1 (fun x => decide (0 < x.age))).performLoad s1
            { d := d, loc := loc, size := n, signed := signed, emit := c.thread.emitSeq, before := none, age := 0 }
        s1.goOn c1 c1.thread (c.thread.pc + 4)).frost s.cur 3 (frostMem op 0 0 va) := by
  unfold State.genLoadAt
  rw [if_neg (not_not_intro hva), ht]
  rfl

/-- A load that translates: performed at once, noted, or answered by a device. -/
theorem genLoadAt_spec (hn : 0 < n) (hva : va.toNat % n = 0) (ht : translate s c va .genLoad = .ok loc) :
    let s1 := s.cacheTranslation c va
    let c0 := c.performWhere s1 (fun x => decide (0 < x.age))
    let m := ordLoad s1 c.reader c0.ord loc n
    let value (v : Nat) : Word := if signed then (BitVec.ofNat (8 * n) v).signExtend 64 else BitVec.ofNat 64 v
    let o : Out := .next (s.genLoadAt c op va n signed d)
    (loc.dev = false → s.late = false → Writes s1 { c0 with ord := m.2.2 } o d (value m.1) m.2.1 (c.thread.pc + 4)) ∧
    (loc.dev = false → s.late = true → GoesOn s1 (noteLoad c d loc n signed) o (c.thread.pc + 4)) ∧
    (loc.dev = true → Writes s1 c o d (value (s1.deviceLoad loc n).toNat) false (c.thread.pc + 4)) ∧
    ((∀ x ∈ c.thread.loads, x.age = 0) → c0 = c) := by
  intro s1 c0 m value o
  have hvalue (v : Nat) : extendLoad n signed v = value v := extendLoad_eq n hn signed v
  have ho : o = _ := congrArg Host.Outcome.next (genLoadAt_of_ok s c op va n signed d hva ht)
  refine ⟨fun hdev hlate => ?_, fun hdev hlate => ?_, fun hdev => ?_, performWhere_age s1 c⟩
  · rw [ho]
    simp only [hdev, hlate, Bool.false_eq_true, if_false]
    have hw := setReg_goOn_writes s1 { c0 with ord := m.2.2 } d (extendLoad n signed m.1) m.2.1 (c.thread.pc + 4)
    have hp : c0.performLoad s1
        { d := d, loc := loc, size := n, signed := signed, emit := c.thread.emitSeq, before := none, age := 0 } =
        { c0 with ord := m.2.2, thread := c0.thread.setReg d (extendLoad n signed m.1) m.2.1 } := by
      unfold Context.performLoad
      rw [show c0.reader = c.reader from Context.performWhere_reader ..]
    change Writes s1 _ (.next (State.frost (s1.goOn (c0.performLoad s1 _) (c0.performLoad s1 _).thread _) _ _ _)) _ _ _ _
    rw [hp]
    exact (hw.addFrost _ _ _).of_eq (hvalue _)
  · rw [ho]
    simp only [hdev, hlate, Bool.false_eq_true, if_false, if_true]
    exact (goOn_goesOn s1 (noteLoad c d loc n signed) _).addFrost _ _ _
  · rw [ho]
    simp only [hdev, if_true]
    exact ((setReg_goOn_writes s1 c d _ false _).addFrost _ _ _).of_eq (hvalue _)

theorem genLoad_of_clean (h : s.Executes c) (i : BitVec 13) (a : BitVec 6) (ha : c.thread.regPoison a = false) :
    genLoad s op n signed i a d = .next (s.genLoadAt c op (c.thread.reg a + sext13 i) n signed d) := by
  rw [genLoad, withThread_of s c h, ha]; rfl

theorem execLdz_eq (h : s.Executes c) (o : BitVec 15) (z : BitVec 4) :
    execLdz o z d s = .next (s.genLoadAt c 0x1C (zrelAddr c z o) 8 false d) := withThread_of s c h _

end

/-- Settles O11: every load of the generator is `genLoadAt` at its address, with its size and extension. -/
theorem loadResults : Obligations.LoadResults := by
  intro s c i o z a d loc h
  simp only [exec_ldb, exec_ldbu, exec_ldh, exec_ldhu, exec_ldw, exec_ldwu, exec_ldd, exec_ldz, execLdb, execLdbu, execLdh, execLdhu,
    execLdw, execLdwu, execLdd]
  refine ⟨fun ha ht => ?_, fun ht hva => ?_⟩
  · simp only [fun op n signed => genLoad_of_clean s c op n signed d h i a ha]
    have r (op : BitVec 6) (n : Nat) (signed : Bool) (hn : 0 < n) (hva : _) :=
      genLoadAt_spec s c op (c.thread.reg a + sext13 i) n signed d hn hva ht
    exact ⟨r _ 1 true (by decide) (Nat.mod_one _), r _ 1 false (by decide) (Nat.mod_one _),
      fun hva => ⟨r _ 2 true (by decide) hva, r _ 2 false (by decide) hva⟩,
      fun hva => ⟨r _ 4 true (by decide) hva, r _ 4 false (by decide) hva⟩, fun hva => r _ 8 false (by decide) hva⟩
  · simp only [execLdz_eq s c d h o z]
    exact genLoadAt_spec s c _ (zrelAddr c z o) 8 false d (by decide) hva ht

/-! ### Stores at an address -/

section
variable (s : State) (c : Context) (op : BitVec 6) (va : Word) (n : Nat) (v : Word) (p : Bool) {loc : Loc}

/-- A store that translates: into its buffer, or PHASEFULL where the buffer has no room. -/
theorem genStoreAt_buffer (h : s.Executes c) (hva : va.toNat % n = 0) (ht : translate s c va .genStore = .ok loc) (hdev : loc.dev = false) :
    match c.ord.genStore (lineStore va loc n v p) with
    | some o => GoesOn (s.cacheTranslation c va) { c with ord := o } (.next (s.genStoreAt c op va n v p)) (c.thread.pc + 4)
    | none => c.Handles → Traps s c (.next (s.genStoreAt c op va n v p)) 10 0 c.thread.pc va false := by
  unfold State.genStoreAt
  rw [if_neg (not_not_intro hva), ht]
  simp only [hdev, Bool.false_eq_true, if_false]
  cases c.ord.genStore (lineStore va loc n v p) with
  | none => exact fun hh => genFault_traps s c h hh gPHASEFULL 0 va
  | some o => exact (goOn_goesOn (s.cacheTranslation c va) { c with ord := o } _).addFrost _ _ _

/-- A store to device space goes to the device after its thread has gone on. -/
theorem genStoreAt_device (hva : va.toNat % n = 0) (ht : translate s c va .genStore = .ok loc) (hdev : loc.dev = true) :
    ∃ t, Host.Outcome.next (s.genStoreAt c op va n v p) = (.next (t.deviceStore loc n v (c.id.s1root.getD 0)) : Out) ∧
      GoesOn (s.cacheTranslation c va) { c with thread := { c.thread with sideOps := c.thread.sideOps + 1 } } (.next t) (c.thread.pc + 4) := by
  unfold State.genStoreAt
  rw [if_neg (not_not_intro hva), ht]
  simp only [hdev, if_true]
  exact ⟨_, rfl, (goOn_goesOn (s.cacheTranslation c va) { c with thread := { c.thread with sideOps := c.thread.sideOps + 1 } } _).addFrost _ _ _⟩

theorem genStore_of_clean (h : s.Executes c) (i : BitVec 13) (a b : BitVec 6) (ha : c.thread.regPoison a = false) :
    genStore s op n i a b =
      .next (s.genStoreAt c op (c.thread.reg a + sext13 i) n (c.thread.reg b) (c.thread.regPoison b)) := by
  rw [genStore, withThread_of s c h, ha]; rfl

theorem execStz_eq (h : s.Executes c) (o : BitVec 15) (z : BitVec 4) (b : BitVec 6) :
    execStz o z b s = .next (s.genStoreAt c 0x1D (zrelAddr c z o) 8 (c.thread.reg b) (c.thread.regPoison b)) := withThread_of s c h _

end

/-! ### The line's entry after a store (R37) -/

theorem findEntry_cons (e : PbEntry) (l : List PbEntry) (pkg line : Nat) :
    findEntry (e :: l) pkg line = if e.loc.pkg = pkg ∧ e.loc.pa / 64 = line then some e else findEntry l pkg line := by
  unfold findEntry
  rw [List.find?_cons]
  by_cases h : e.loc.pkg = pkg ∧ e.loc.pa / 64 = line
  · rw [if_pos h, decide_eq_true h]
  · rw [if_neg h, decide_eq_false h]

/-- The entry of a line that a store has entered: its bytes there, the others kept. -/
theorem findEntry_pbInsert (l : List PbEntry) (st : LineStore) :
    ∃ e, findEntry (pbInsert l st) st.loc.pkg (st.loc.pa / 64) = some e ∧ ∀ i, i < 64 →
      (st.mask.getLsbD i = true → e.mask.getLsbD i = true ∧ lineByte e.data i = lineByte st.data i) ∧
      (∀ x, findEntry l st.loc.pkg (st.loc.pa / 64) = some x → st.mask.getLsbD i = false →
        e.mask.getLsbD i = x.mask.getLsbD i ∧ lineByte e.data i = lineByte x.data i) := by
  induction l with
  | nil =>
    refine ⟨{ va := st.va, loc := st.loc, mask := st.mask, data := st.data, poison := st.poison }, ?_, fun i hi => ⟨fun hm => ⟨hm, rfl⟩, ?_⟩⟩
    · rw [pbInsert, findEntry_cons, if_pos ⟨rfl, rfl⟩]
    · intro x hx; cases hx
  | cons e l ih =>
    by_cases h : e.loc.pkg = st.loc.pkg ∧ e.loc.pa / 64 = st.loc.pa / 64
    · rw [pbInsert, if_pos h]
      simp only [findEntry_cons, h, and_self, if_true]
      refine ⟨_, rfl, fun i hi => ⟨fun hm => ?_, fun x hx hm => ?_⟩⟩
      · simp [lineByte_mergeLine _ _ _ _ hi, hm]
      · cases hx; simp [lineByte_mergeLine _ _ _ _ hi, hm]
    · rw [pbInsert, if_neg h]
      simp only [findEntry_cons, if_neg h]
      exact ih

theorem pbInsert_length (l : List PbEntry) (st : LineStore) :
    (pbInsert l st).length = l.length + if findEntry l st.loc.pkg (st.loc.pa / 64) = none then 1 else 0 := by
  induction l with
  | nil => rfl
  | cons e l ih =>
    by_cases h : e.loc.pkg = st.loc.pkg ∧ e.loc.pa / 64 = st.loc.pa / 64
    · rw [pbInsert, if_pos h, findEntry_cons, if_pos h]; simp
    · rw [pbInsert, if_neg h, findEntry_cons, if_neg h, List.length_cons, ih, List.length_cons]; omega

/-- Where no buffer behind an unsent PHASE holds the line, the phase buffer takes the store. -/
theorem genStore_of_phaseBuffer (o : OrdState) (st : LineStore) (h : ∀ p ∈ o.phases, findEntry p.after st.loc.pkg (st.loc.pa / 64) = none) :
    o.genStore st = (pbStore o.pbuf [st]).map (fun b => { o with pbuf := b }) := by
  unfold OrdState.genStore
  dsimp only
  rw [List.filter_eq_nil_iff.mpr fun p hp => by simp [h p hp]]
  rfl

theorem pbStore_one (l : List PbEntry) (st : LineStore) :
    pbStore l [st] = if (pbInsert l st).length ≤ 512 ∨ (pbInsert l st).length ≤ l.length then some (pbInsert l st) else none := rfl

theorem genStore_room (o : OrdState) (st : LineStore) (h : ∀ p ∈ o.phases, findEntry p.after st.loc.pkg (st.loc.pa / 64) = none) :
    (o.pbuf.length < 512 → o.genStore st = some { o with pbuf := pbInsert o.pbuf st }) ∧
    (o.pbuf.length = 512 → findEntry o.pbuf st.loc.pkg (st.loc.pa / 64) = none → o.genStore st = none) := by
  have hlen := pbInsert_length o.pbuf st
  rw [genStore_of_phaseBuffer o st h, pbStore_one]
  constructor
  · intro hl
    rw [if_pos (.inl (by split at hlen <;> omega))]; rfl
  · intro hl hnone
    rw [if_pos hnone] at hlen
    rw [if_neg (by omega)]; rfl

theorem lineStore_bytes (va : Word) (loc : Loc) (n : Nat) (v : Word) (p : Bool) (hfit : loc.pa % 64 + n ≤ 64) (hn : n ≤ 8) (i : Nat)
    (h1 : loc.pa % 64 ≤ i) (h2 : i < loc.pa % 64 + n) :
    lineByte (lineStore va loc n v p).data i = v.extractLsb' (8 * (i - loc.pa % 64)) 8 := by
  unfold lineByte lineStore
  apply BitVec.eq_of_getLsbD_eq
  intro k hk
  have hbit : 8 * i + k < 512 := by omega
  have hlow : 8 * (loc.pa % 64) ≤ 8 * i + k := by omega
  have hoff : 8 * i + k - 8 * (loc.pa % 64) = 8 * (i - loc.pa % 64) + k := by omega
  simp only [BitVec.getLsbD_extractLsb', hk, decide_true, Bool.true_and, BitVec.getLsbD_ofNat, hbit, Nat.testBit_mul_two_pow, hlow,
    Nat.testBit_mod_two_pow, hoff, show 8 * (i - loc.pa % 64) + k < 8 * n by omega, BitVec.testBit_toNat]

/-- Settles O13: every store of the generator is `genStoreAt` at its address. -/
theorem storeResults : Obligations.StoreResults := by
  refine ⟨fun s c i o z a b loc h => ⟨fun hdev => ⟨fun ha ht => ?_, fun ht hva => ?_⟩, fun hdev => ⟨fun ha ht => ?_, fun ht hva => ?_⟩⟩,
    fun l n v root s p o hdev => ?_, fun o st hphases => ?_, fun va loc n v p hfit hn => ?_⟩
  · simp only [exec_stb, exec_sth, exec_stw, exec_std, execStb, execSth, execStw, execStd,
      fun op n => genStore_of_clean s c op n h i a b ha]
    have r (op : BitVec 6) (n : Nat) (hva : _) :=
      genStoreAt_device s c op (c.thread.reg a + sext13 i) n (c.thread.reg b) (c.thread.regPoison b) hva ht hdev
    exact ⟨r _ 1 (Nat.mod_one _), r _ 2, r _ 4, r _ 8⟩
  · simp only [exec_stz, execStz_eq s c h o z b]
    exact genStoreAt_device s c _ (zrelAddr c z o) 8 _ _ hva ht hdev
  · simp only [exec_stb, exec_sth, exec_stw, exec_std, execStb, execSth, execStw, execStd,
      fun op n => genStore_of_clean s c op n h i a b ha]
    have r (op : BitVec 6) (n : Nat) (hva : _) :=
      genStoreAt_buffer s c op (c.thread.reg a + sext13 i) n (c.thread.reg b) (c.thread.regPoison b) h hva ht hdev
    exact ⟨r _ 1 (Nat.mod_one _), r _ 2, r _ 4, r _ 8⟩
  · simp only [exec_stz, execStz_eq s c h o z b]
    exact genStoreAt_buffer s c _ (zrelAddr c z o) 8 _ _ h hva ht hdev
  · unfold State.deviceLoad State.deviceStore
    rw [hdev]
    exact ⟨rfl, rfl⟩
  · obtain ⟨hroom, hfull⟩ := genStore_room o st hphases
    exact ⟨fun hl => ⟨_, hroom hl, findEntry_pbInsert o.pbuf st⟩, hfull⟩
  · exact ⟨rfl, fun i hi => ⟨byteMask_getLsbD _ _ _ hi, lineStore_bytes va loc n v p hfit hn i⟩⟩

end Sys2Proof.Machine
end

section
/-! PROOFS. The composer, EMIT, EMITM and NSET (R57, R58, R116-R123). -/

namespace Sys2Proof.Machine

open Sys2Proof.Laws

/-! ### Fields of a composer word (R116) -/

theorem insertField_getLsbD (old v : Word) (p n i : Nat) (hi : i < 64) :
    (insertField old v p n).getLsbD i = if p ≤ i ∧ i < p + n then v.getLsbD (i - p) else old.getLsbD i := by
  have hmask : (BitVec.ofNat 64 ((2 ^ n - 1) * 2 ^ p)).getLsbD i = decide (p ≤ i ∧ i < p + n) := byteMask_getLsbD p n i hi
  unfold insertField
  simp only [BitVec.getLsbD_or, BitVec.getLsbD_and, BitVec.getLsbD_not, BitVec.getLsbD_shiftLeft, hi, decide_true, Bool.true_and, hmask]
  by_cases h : p ≤ i ∧ i < p + n
  · simp [h]
  · simp [h]

theorem shiftRight_eight_eq_zero (x : Word) : x >>> 8 = 0 ↔ x.toNat < 256 := by
  rw [← BitVec.toNat_inj, BitVec.toNat_ushiftRight, Nat.shiftRight_eq_div_pow]
  simp only [BitVec.ofNat_eq_ofNat, BitVec.toNat_ofNat]
  omega

/-! ### Template memory (R117) -/

section
variable (s : State) (c : Context) (off : Word) (n : Nat)

theorem readTemplate_misaligned (h : off.toNat % 4 ≠ 0) : readTemplate s c off n = .misaligned := if_pos h

theorem readTemplate_beyond (h : off.toNat % 4 = 0) (hb : c.id.templSize < off.toNat + n) : readTemplate s c off n = .beyond := by
  rw [readTemplate, if_neg (not_not_intro h), if_pos hb]

theorem readTemplate_ok (h : off.toNat % 4 = 0) (hb : off.toNat + n ≤ c.id.templSize) : readTemplate s c off n =
    .ok (s.homeBytes c.pkg (c.id.templPa + off.toNat) n) (s.rangePoisoned c.pkg (c.id.templPa + off.toNat) n) := by
  rw [readTemplate, if_neg (not_not_intro h), if_neg (by omega)]

theorem templateFault_misaligned (h : s.Executes c) (hh : c.Handles) :
    Traps s c (.next (s.templateFault true off)) 2 0 c.thread.pc off false :=
  genFault_traps s c h hh gMISALIGN 0 off

theorem templateFault_beyond (h : s.Executes c) (hh : c.Handles) :
    Traps s c (.next (s.templateFault false off)) 3 1 c.thread.pc off false :=
  genFault_traps s c h hh gXLATE 1 off

end

/-! ### The composer's instructions -/

/-- BLDT with a clean base reads its template (R117). -/
theorem execBldt_of_clean (s : State) (c : Context) (h : s.Executes c) (o : BitVec 13) (a : BitVec 6) (slot : BitVec 3)
    (ha : c.thread.regPoison a = false) :
    execBldt o a slot s = .next (match readTemplate s c (c.thread.reg a + BitVec.ofInt 64 (o.toInt * 4)) 8 with
      | .misaligned => s.templateFault true (c.thread.reg a + BitVec.ofInt 64 (o.toInt * 4))
      | .beyond => s.templateFault false (c.thread.reg a + BitVec.ofInt 64 (o.toInt * 4))
      | .ok b p => s.goOn c (c.thread.setComp slot.toNat (BitVec.ofNat 64 (leNat b)) p) (c.thread.pc + 4)) := by
  rw [execBldt, withThread_of s c h, ← sext13_words]
  simp only [ha, Bool.false_eq_true, if_false] <;> rfl

/-- Settles O17: each instruction of the composer, its poison rule and its range. -/
theorem composerResults : Obligations.ComposerResults := by
  intro s c a n p slot o h
  rw [exec_bset, exec_bfld, exec_bldt, exec_bhdr]
  refine ⟨?_, fun _ => ?_, fun ha hal hin => ?_, fun ha hal hh => ?_, fun ha hal hin hh => ?_, fun ha hv => ?_, fun ha hv hh => ?_⟩
  · rw [execBset, withThread_of s c h]
    exact goOn_goesOn s { c with thread := c.thread.setComp slot.toNat (c.thread.reg a) (c.thread.regPoison a) } _
  · refine ⟨insertField (c.thread.comp slot.toNat) (c.thread.reg a) p.toNat (n.toNat + 1),
      fun i hi => insertField_getLsbD _ _ _ _ i hi, ?_⟩
    rw [execBfld, withThread_of s c h]
    exact goOn_goesOn s { c with thread := c.thread.setComp slot.toNat _ (c.thread.compPoison slot.toNat || c.thread.regPoison a) } _
  · rw [execBldt_of_clean s c h o a slot ha, readTemplate_ok s c _ 8 hal hin]
    exact goOn_goesOn s { c with thread := c.thread.setComp slot.toNat _ _ } _
  · rw [execBldt_of_clean s c h o a slot ha, readTemplate_misaligned s c _ 8 hal]
    exact templateFault_misaligned s c _ h hh
  · rw [execBldt_of_clean s c h o a slot ha, readTemplate_beyond s c _ 8 hal hin]
    exact templateFault_beyond s c _ h hh
  · rw [execBhdr, withThread_of s c h]
    simp only [ha, Bool.false_eq_true, if_false]
    rw [if_neg (not_not_intro ((shiftRight_eight_eq_zero _).mpr hv))]
    exact goOn_goesOn s { c with thread := { c.thread with hreg := BitVec.ofNat 8 (c.thread.reg a).toNat } } _
  · rw [execBhdr, withThread_of s c h]
    simp only [ha, Bool.false_eq_true, if_false]
    rw [if_pos (fun e => absurd ((shiftRight_eight_eq_zero _).mp e) (by omega))]
    exact illins_traps s c h hh (.bhdr a) 1

/-! ### Headers (R57, R58) -/

theorem badHeader_eq_true (h : BitVec 32) : badHeader h = true ↔
    h.extractLsb' 27 5 ≠ 0 ∨ (h.extractLsb' 0 7 = 0 ∧ h.extractLsb' 10 8 = 0) ∨ (h.getLsbD 7 = false ∧ h.extractLsb' 8 2 ≠ 0) := by
  simp only [badHeader, hdrPresent, hdrScopePresent, hdrScope, Bool.or_eq_true, Bool.and_eq_true, bne_iff_ne, beq_iff_eq,
    Bool.not_eq_true', or_assoc]

section
variable (cs hw : BitVec 1) (sc : BitVec 2) (sp : BitVec 1) (r : BitVec 8) (m : BitVec 7) (h : BitVec 8)

/-- The header of an EMIT word, field by field. -/
theorem emitHeader_fields : (emitHeader cs hw sc sp r m h).extractLsb' 0 7 = m ∧ (emitHeader cs hw sc sp r m h).extractLsb' 7 1 = sp ∧
    (emitHeader cs hw sc sp r m h).extractLsb' 8 2 = sc ∧ (emitHeader cs hw sc sp r m h).extractLsb' 10 8 = r ∧
    (emitHeader cs hw sc sp r m h).extractLsb' 18 8 = (if hw = 1 then h else 0) ∧
    (emitHeader cs hw sc sp r m h).extractLsb' 26 1 = cs ∧ (emitHeader cs hw sc sp r m h).extractLsb' 27 5 = 0 := by
  unfold emitHeader
  generalize (if hw = 1 then h else 0) = wait
  refine ⟨?_, ?_, ?_, ?_, ?_, ?_, ?_⟩
  · rw [ext_low _ _ _ _ (by decide)]; exact ext_all _
  · rw [ext_high _ _ _ _ (by decide), ext_low _ _ _ _ (by decide)]; exact ext_all _
  · rw [ext_high _ _ _ _ (by decide), ext_high _ _ _ _ (by decide), ext_low _ _ _ _ (by decide)]; exact ext_all _
  · rw [ext_high _ _ _ _ (by decide), ext_high _ _ _ _ (by decide), ext_high _ _ _ _ (by decide), ext_low _ _ _ _ (by decide)]
    exact ext_all _
  · rw [ext_high _ _ _ _ (by decide), ext_high _ _ _ _ (by decide), ext_high _ _ _ _ (by decide), ext_high _ _ _ _ (by decide),
      ext_low _ _ _ _ (by decide)]
    exact ext_all _
  · rw [ext_high _ _ _ _ (by decide), ext_high _ _ _ _ (by decide), ext_high _ _ _ _ (by decide), ext_high _ _ _ _ (by decide),
      ext_high _ _ _ _ (by decide), ext_low _ _ _ _ (by decide)]
    exact ext_all _
  · rw [ext_high _ _ _ _ (by decide), ext_high _ _ _ _ (by decide), ext_high _ _ _ _ (by decide), ext_high _ _ _ _ (by decide),
      ext_high _ _ _ _ (by decide), ext_high _ _ _ _ (by decide)]
    exact ext_all _

theorem getLsbD_of_extract {n a s : Nat} {w : BitVec n} {x : BitVec a} (hx : w.extractLsb' s a = x) (i : Nat) (hi : i < a) :
    w.getLsbD (s + i) = x.getLsbD i := by
  rw [← hx, BitVec.getLsbD_extractLsb']; simp [hi]

theorem emitHeader_getLsbD (i : Nat) (hi : i < 7) : (emitHeader cs hw sc sp r m h).getLsbD i = m.getLsbD i := by
  have := getLsbD_of_extract (emitHeader_fields cs hw sc sp r m h).1 i hi
  rwa [Nat.zero_add] at this

theorem presentSlots_emitHeader : presentSlots (emitHeader cs hw sc sp r m h) = (List.range 7).filter (fun i => m.getLsbD i) :=
  List.filter_congr fun i hi => emitHeader_getLsbD cs hw sc sp r m h i (List.mem_range.mp hi)

theorem bit1_getLsbD_eq_false (x : BitVec 1) : x.getLsbD 0 = false ↔ x = 0 := by
  revert x; decide

theorem badHeader_emitHeader : badHeader (emitHeader cs hw sc sp r m h) = true ↔ (m = 0 ∧ r = 0) ∨ (sp = 0 ∧ sc ≠ 0) := by
  obtain ⟨hm, hsp, hsc, hr, -, -, hz⟩ := emitHeader_fields cs hw sc sp r m h
  have h7 := getLsbD_of_extract hsp 0 (by decide)
  rw [badHeader_eq_true, hm, hsc, hr, hz, h7, bit1_getLsbD_eq_false]
  simp

/-- Two fields side by side as a sum of shifted fields. -/
theorem setWidth_append {n k : Nat} (x : BitVec n) (y : BitVec k) (N : Nat) :
    (x ++ y).setWidth N = x.setWidth N <<< k ||| y.setWidth N := by
  apply BitVec.eq_of_getLsbD_eq
  intro i hi
  simp only [BitVec.getLsbD_setWidth, BitVec.getLsbD_append, BitVec.getLsbD_or, BitVec.getLsbD_shiftLeft, hi, decide_true, Bool.true_and]
  by_cases hk : i < k
  · simp [hk]
  · simp [hk, show i - k < N by omega, BitVec.getLsbD_of_ge y i (by omega)]

theorem or_reverse {n : Nat} (a b c d e f : BitVec n) : a ||| b ||| c ||| d ||| e ||| f = f ||| e ||| d ||| c ||| b ||| a := by
  ac_rfl

/-- The header as the sum of its fields at their places (R57). -/
theorem emitHeader_eq_or : emitHeader cs hw sc sp r m h = m.setWidth 32 ||| sp.setWidth 32 <<< 7 ||| sc.setWidth 32 <<< 8 |||
    r.setWidth 32 <<< 10 ||| (if hw = 1 then h.setWidth 32 <<< 18 else 0) ||| cs.setWidth 32 <<< 26 := by
  have hwait : (if hw = 1 then h.setWidth 32 <<< 18 else 0) = (if hw = 1 then h else 0).setWidth 32 <<< 18 := by split <;> rfl
  unfold emitHeader
  rw [hwait]
  generalize (if hw = 1 then h else 0) = wait
  refine (BitVec.setWidth_eq _).symm.trans ((setWidth_append (0#5 ++ cs ++ wait ++ r ++ sc ++ sp) m 32).trans ?_)
  rw [setWidth_append, setWidth_append, setWidth_append, setWidth_append, setWidth_append]
  simp only [BitVec.shiftLeft_or_distrib, ← BitVec.shiftLeft_add, Nat.reduceAdd, BitVec.setWidth_zero,
    BitVec.zero_shiftLeft, BitVec.zero_or]
  exact or_reverse ..

end

/-! ### Pushes (R118, R120) -/

theorem noQueue_of (s : State) (c : Context) (i : Instr) (k : State) (h : c.management = false) : noQueue s c i k = k := by
  rw [noQueue, h]; rfl

theorem push_goesOn (s : State) (c : Context) (hdr : BitVec 32) (words : SMap Word) :
    ∃ e : QEntry, e.isDesc = false ∧ e.header = hdr ∧ e.words = words ∧ e.pc = c.thread.pc ∧ e.seq = c.thread.emitSeq ∧
      e.nest = c.thread.pending ∧ e.reps = 0 ∧
      GoesOn s { c with queue := c.queue ++ [.entry e], thread := { c.thread with pending := [], emitSeq := c.thread.emitSeq + 1 } }
        (.next (s.push c hdr words)) (c.thread.pc + 4) :=
  ⟨{ isDesc := false, header := hdr, words := words, pc := c.thread.pc, seq := c.thread.emitSeq, nest := c.thread.pending, reps := 0,
     after := { c.thread with pending := [], emitSeq := c.thread.emitSeq + 1 }.finish (c.thread.pc + 4), marks := false, skip := 0,
     seen := none }, rfl, rfl, rfl, rfl, rfl, rfl, rfl,
    (goOn_goesOn s { c with queue := c.queue ++ [_], thread := { c.thread with pending := [], emitSeq := c.thread.emitSeq + 1 } } _).addFrost
      _ _ _⟩

/-- A push into a full queue waits, any other pushes. -/
theorem pushOrStall_spec (s : State) (c : Context) (hdr : BitVec 32) (words : SMap Word) :
    (c.qlevel = 64 → Waits s c (.next (s.pushOrStall c hdr words)) .queueFull) ∧
    (c.qlevel < 64 → s.pushOrStall c hdr words = s.push c hdr words) := by
  unfold State.pushOrStall
  constructor
  · intro hq
    rw [if_pos (by omega)]; exact setCtx_waits s c .queueFull
  · intro hq
    rw [if_neg (by omega)]

/-! ### EMIT (R118) -/

section
variable (s : State) (c : Context) (h : s.Executes c) (hm : c.management = false)
variable (cs hw : BitVec 1) (sc : BitVec 2) (sp : BitVec 1) (r : BitVec 8) (m : BitVec 7)
include h hm

theorem execEmit_eq : execEmit cs hw sc sp r m s = .next
    (if badHeader (emitHeader cs hw sc sp r m c.thread.hreg) then
      s.genFault s.cur gBADHDR 0 ((emitHeader cs hw sc sp r m c.thread.hreg).setWidth 64)
    else if ((List.range 7).filter (fun i => m.getLsbD i)).any c.thread.compPoison then s.poisonUse
    else s.pushOrStall c (emitHeader cs hw sc sp r m c.thread.hreg)
      (((List.range 7).filter (fun i => m.getLsbD i)).map (fun i => (i, c.thread.comp i)))) := by
  rw [execEmit, withThread_of s c h]
  dsimp only
  rw [noQueue_of _ _ _ _ hm, presentSlots_emitHeader]

theorem execEmit_pushes (hgood : ¬ ((m = 0 ∧ r = 0) ∨ (sp = 0 ∧ sc ≠ 0)))
    (hclean : ∀ i, i < 7 → m.getLsbD i = true → c.thread.compPoison i = false) : execEmit cs hw sc sp r m s = .next
      (s.pushOrStall c (emitHeader cs hw sc sp r m c.thread.hreg)
        (((List.range 7).filter (fun i => m.getLsbD i)).map (fun i => (i, c.thread.comp i)))) := by
  have hany : ((List.range 7).filter (fun i => m.getLsbD i)).any c.thread.compPoison = false := by
    rw [List.any_eq_false]
    intro i hi
    obtain ⟨hi, hmi⟩ := List.mem_filter.mp hi
    simp [hclean i (List.mem_range.mp hi) hmi]
  rw [execEmit_eq s c h hm, if_neg (fun e => hgood ((badHeader_emitHeader ..).mp e)), hany]
  rfl

theorem execEmit_traps (hh : c.Handles) :
    ((m = 0 ∧ r = 0) ∨ (sp = 0 ∧ sc ≠ 0) → Traps s c (execEmit cs hw sc sp r m s) 6 0 c.thread.pc
      ((emitHeader cs hw sc sp r m c.thread.hreg).setWidth 64) false) ∧
    (¬ ((m = 0 ∧ r = 0) ∨ (sp = 0 ∧ sc ≠ 0)) → (∃ i, i < 7 ∧ m.getLsbD i = true ∧ c.thread.compPoison i = true) →
      Traps s c (execEmit cs hw sc sp r m s) 4 0 c.thread.pc 0 false) := by
  constructor
  · intro hbad
    rw [execEmit_eq s c h hm, if_pos ((badHeader_emitHeader ..).mpr hbad)]
    exact genFault_traps s c h hh gBADHDR 0 _
  · rintro hgood ⟨i, hi, hmi, hp⟩
    have hany : ((List.range 7).filter (fun i => m.getLsbD i)).any c.thread.compPoison = true :=
      List.any_eq_true.mpr ⟨i, List.mem_filter.mpr ⟨List.mem_range.mpr hi, hmi⟩, hp⟩
    rw [execEmit_eq s c h hm, if_neg (fun e => hgood ((badHeader_emitHeader ..).mp e)), if_pos hany]
    exact poisonUse_traps s c h hh

end

/-- Settles O18: EMIT without a fault is a push, with the header of its fields. -/
theorem emitResults : Obligations.EmitResults := by
  intro s c cs hw sc sp r m h hm hempty hscope hclean
  obtain ⟨hfull, hroom⟩ := pushOrStall_spec s c (emitHeader cs hw sc sp r m c.thread.hreg)
    (((List.range 7).filter (fun i => m.getLsbD i)).map (fun i => (i, c.thread.comp i)))
  rw [exec_emit, execEmit_pushes s c h hm cs hw sc sp r m (not_or.mpr ⟨hempty, hscope⟩) hclean]
  refine ⟨hfull, fun hq => ?_⟩
  rw [hroom hq]
  obtain ⟨e, hdesc, hhdr, hrest⟩ := push_goesOn s c (emitHeader cs hw sc sp r m c.thread.hreg)
    (((List.range 7).filter (fun i => m.getLsbD i)).map (fun i => (i, c.thread.comp i)))
  exact ⟨e, hdesc, hhdr.trans (emitHeader_eq_or ..), hrest⟩

/-! ### EMITM (R119) -/

/-- A part of a range of bytes is the range there. -/
theorem Memory.readBytes_part (mem : List Host.Cell) (a n i k : Nat) (h : i + k ≤ n) :
    ((Memory.readBytes mem a n).drop i).take k = Memory.readBytes mem (a + i) k := by
  induction n generalizing a i k with
  | zero => obtain ⟨rfl, rfl⟩ : i = 0 ∧ k = 0 := by omega
            rfl
  | succ n ih =>
    cases i with
    | succ i =>
      rw [Memory.readBytes, List.drop_succ_cons, ih (a + 1) i k (by omega)]
      congr 1; omega
    | zero =>
      cases k with
      | zero => rfl
      | succ k =>
        have := ih (a + 1) 0 k (by omega)
        rw [List.drop_zero, Nat.add_zero] at this
        rw [Memory.readBytes, List.drop_zero, List.take_succ_cons, this]; rfl

theorem imageWords_eq (s : State) (pkg pa : Nat) (hdr : BitVec 32) :
    imageWords hdr (s.homeBytes pkg pa (4 + 8 * (presentSlots hdr).length)) =
      (List.range (presentSlots hdr).length).map (fun i => ((presentSlots hdr).getD i 0, s.home64 pkg (pa + 4 + 8 * i))) := by
  have hlen : (presentSlots hdr).length ≤ 7 := (List.length_filter_le ..).trans (by simp)
  apply List.ext_getElem
  · simp [imageWords, hlen]
  · intro i h1 h2
    have hi : i < (presentSlots hdr).length := by simpa using h2
    simp only [imageWords, List.getElem_map, List.getElem_zip, List.getElem_range, List.getD_eq_getElem _ _ hi, Prod.mk.injEq, true_and]
    unfold State.home64 State.homeBytes
    rw [Memory.readBytes_part _ _ _ _ _ (by omega)]
    simp only [memKey, Nat.add_assoc]

section
variable (s : State) (c : Context) (h : s.Executes c) (hm : c.management = false) (o : BitVec 13) (a : BitVec 6)
include h hm

theorem execEmitm_poisoned (ha : c.thread.regPoison a = true) : execEmitm o a s = .next s.poisonUse := by
  rw [execEmitm, withThread_of s c h]
  dsimp only
  rw [noQueue_of _ _ _ _ hm, if_pos ha]

/-- EMITM with a clean base reads a header and then its image. -/
theorem execEmitm_of_clean (ha : c.thread.regPoison a = false) :
    execEmitm o a s = .next
      (let off := c.thread.reg a + BitVec.ofInt 64 (o.toInt * 4)
       match readTemplate s c off 4 with
        | .misaligned => s.templateFault true off
        | .beyond => s.templateFault false off
        | .ok hb _ =>
          let hdr := BitVec.ofNat 32 (leNat hb)
          if badHeader hdr then s.genFault s.cur gBADHDR 0 (hdr.setWidth 64)
          else match readTemplate s c off (4 + 8 * (presentSlots hdr).length) with
            | .misaligned => s.templateFault true off
            | .beyond => s.templateFault false off
            | .ok b p => if p then s.poisonUse else s.pushOrStall c hdr (imageWords hdr b)) := by
  rw [execEmitm, withThread_of s c h, ← sext13_words]
  dsimp only
  rw [noQueue_of _ _ _ _ hm, if_neg (by rw [ha]; exact Bool.false_ne_true)] <;> rfl

variable (ha : c.thread.regPoison a = false) {off : Word} (hoff : off = c.thread.reg a + BitVec.ofInt 64 (o.toInt * 4))
include ha hoff

theorem execEmitm_header (hal : off.toNat % 4 = 0) (hin : off.toNat + 4 ≤ c.id.templSize) :
    execEmitm o a s = .next
      (let hdr := s.home32 c.pkg (c.id.templPa + off.toNat)
       if badHeader hdr then s.genFault s.cur gBADHDR 0 (hdr.setWidth 64)
       else match readTemplate s c off (4 + 8 * (presentSlots hdr).length) with
        | .misaligned => s.templateFault true off
        | .beyond => s.templateFault false off
        | .ok b p => if p then s.poisonUse else s.pushOrStall c hdr (imageWords hdr b)) := by
  rw [execEmitm_of_clean s c h hm o a ha, ← hoff]
  dsimp only
  rw [readTemplate_ok s c off 4 hal hin]
  rfl

/-- EMITM whose header and image are in the template section and the header good pushes, where the image is clean. -/
theorem execEmitm_image (hal : off.toNat % 4 = 0) {hdr : BitVec 32} (hhdr : hdr = s.home32 c.pkg (c.id.templPa + off.toNat))
    (hgood : badHeader hdr = false) (hin : off.toNat + (4 + 8 * (presentSlots hdr).length) ≤ c.id.templSize) :
    execEmitm o a s = .next
      (if s.rangePoisoned c.pkg (c.id.templPa + off.toNat) (4 + 8 * (presentSlots hdr).length) then s.poisonUse
       else s.pushOrStall c hdr (imageWords hdr (s.homeBytes c.pkg (c.id.templPa + off.toNat) (4 + 8 * (presentSlots hdr).length)))) := by
  rw [execEmitm_header s c h hm o a ha hoff hal (by omega), ← hhdr]
  dsimp only
  rw [hgood, readTemplate_ok s c off _ hal hin]
  rfl

end

/-- Settles O19: the faults of EMITM in the order of its reads, and those of EMIT. -/
theorem emitTraps : Obligations.EmitTraps := by
  refine ⟨fun s c o a h hm hh => ⟨fun ha => ?_, fun ha => ⟨fun hal => ?_, fun hal hbeyond => ?_, fun hal hin =>
    ⟨fun hbad => ?_, fun hgood hbeyond => ?_, fun hgood hin' hp => ?_⟩⟩⟩,
    fun s c cs hw sc sp r m h hm hh => execEmit_traps s c h hm cs hw sc sp r m hh⟩
  all_goals rw [exec_emitm]
  · rw [execEmitm_poisoned s c h hm o a ha]
    exact poisonUse_traps s c h hh
  · rw [execEmitm_of_clean s c h hm o a ha]
    dsimp only
    rw [readTemplate_misaligned s c _ 4 hal]
    exact templateFault_misaligned s c _ h hh
  · rw [execEmitm_of_clean s c h hm o a ha]
    dsimp only
    rw [readTemplate_beyond s c _ 4 hal hbeyond]
    exact templateFault_beyond s c _ h hh
  · rw [execEmitm_header s c h hm o a ha rfl hal hin]
    dsimp only
    rw [if_pos ((badHeader_eq_true _).mpr hbad)]
    exact genFault_traps s c h hh gBADHDR 0 _
  · rw [execEmitm_header s c h hm o a ha rfl hal hin]
    dsimp only
    rw [if_neg (fun e => hgood ((badHeader_eq_true _).mp e)),
      readTemplate_beyond s c _ (4 + 8 * (presentSlots (s.home32 c.pkg _)).length) hal hbeyond]
    exact templateFault_beyond s c _ h hh
  · rw [execEmitm_image s c h hm o a ha rfl hal rfl
      (Bool.eq_false_iff.mpr fun e => hgood ((badHeader_eq_true _).mp e)) hin']
    change Traps s c (.next (if s.rangePoisoned _ _ (4 + 8 * (presentSlots _).length) then _ else _)) _ _ _ _ _
    rw [show s.rangePoisoned _ _ (4 + 8 * (presentSlots _).length) = true from hp, if_pos rfl]
    exact poisonUse_traps s c h hh

/-- Settles O20: EMITM without a fault is a push of its image. -/
theorem emitmResults : Obligations.EmitmResults := by
  intro s c o a h hm ha t off pa hdr slots hal hin hgood hclean
  have hend : off.toNat + (4 + 8 * (presentSlots hdr).length) ≤ c.id.templSize := by rw [← Nat.add_assoc]; exact hin
  have himage := execEmitm_image s c h hm o a ha (off := off) rfl hal (hdr := hdr) rfl hgood hend
  rw [show s.rangePoisoned c.pkg (c.id.templPa + off.toNat) (4 + 8 * (presentSlots hdr).length) = false from hclean,
    imageWords_eq] at himage
  obtain ⟨hfull, hroom⟩ := pushOrStall_spec s c hdr
    ((List.range slots.length).map (fun i => (slots.getD i 0, s.home64 c.pkg (pa + 4 + 8 * i))))
  rw [exec_emitm, himage]
  refine ⟨hfull, fun hq => ?_⟩
  obtain ⟨e, hdesc, hhdr, hwords, hpc, hseq, hnest, hreps, hgo⟩ := push_goesOn s c hdr
    ((List.range slots.length).map (fun i => (slots.getD i 0, s.home64 c.pkg (pa + 4 + 8 * i))))
  rw [← hroom hq] at hgo
  exact ⟨e, hdesc, hhdr, hpc, hseq, hnest, hreps, hwords, hgo⟩

/-! ### NSET (R122, R123) -/

/-- Settles O21: the branches of NSET. -/
theorem nsetResults : Obligations.NsetResults := by
  intro s c a f n h ha t w
  rw [exec_nset, execNset, withThread_of s c h]
  simp only [ha, Bool.false_eq_true, if_false]
  refine ⟨fun hr hl => ?_, fun hr hl hm hq => ?_, fun hr hh => ?_⟩
  · rw [hr, if_neg (by decide), if_pos hl]
    exact goOn_goesOn s { c with thread := { t with pending := t.pending ++ [w] } } _
  · refine ⟨{ isDesc := true, header := 0, words := [], pc := 0, seq := 0, nest := t.pending, reps := 0, after := t, marks := false,
              skip := 0, seen := none }, rfl, rfl, ?_⟩
    rw [hr, if_neg (by decide), if_neg (show ¬ c.thread.pending.length < 32 from by rw [show c.thread.pending.length = 32 from hl]; decide), noQueue_of _ _ _ _ hm, if_neg (by omega)]
    exact goOn_goesOn s { c with queue := c.queue ++ [_], thread := { t with pending := [w] } } _
  · rw [hr, if_pos (by decide)]
    exact illins_traps s c h hh (.nset a f n) 1

end Sys2Proof.Machine
end

section
/-! PROOFS. CSRs and their privilege (R104, R105, R124). -/

namespace Sys2Proof.Machine

/-! ### The CSRs as a table (R105) -/

/-- The CSRs that are one register each, with their values. -/
def csrTable (s : State) (c : Context) : List (Nat × Word) :=
  let t := c.thread
  let r := s.core c.coreKey
  [(0x000, c.id.ctxid.setWidth 64), (0x001, c.id.tenant.setWidth 64), (0x002, c.id.gang.setWidth 64), (0x003, c.id.taskidx.setWidth 64),
   (0x004, c.id.taskcnt.setWidth 64), (0x020, t.tvec), (0x021, t.tcause), (0x022, t.tpc), (0x023, t.tval), (0x024, t.tstate),
   (0x028, t.bfpc), (0x029, t.bfseq), (0x02A, t.bfslot), (0x02B, t.bfcause), (0x02C, t.bfaddr), (0x02D, t.bfperf.setWidth 64),
   (0x030, t.ulivec), (0x031, t.ulipend), (0x032, t.ulimask), (0x033, t.ulipc), (0x040, t.emitSeq.setWidth 64),
   (0x041, BitVec.ofNat 64 (min 64 c.qlevel)), (0x042, c.qstall.setWidth 64), (0x043, r.frzcnt.setWidth 64), (0x044, r.cycle),
   (0x045, BitVec.ofNat 64 c.ctxcyc), (0x046, BitVec.ofNat 64 c.ord.entries.length), (0x060, c.id.winF), (0x061, c.id.winW),
   (0x062, c.id.winC), (0x063, c.be.oorflag), (0x064, c.be.ooraddr), (0x068, c.be.vflags), (0x070, t.ckptint),
   (0x071, c.ckptseq.setWidth 64), (0x100, r.fwshare), (0x101, r.slotmap), (0x102, r.plimNext.getD r.plim), (0x103, r.spinlim),
   (0x104, r.wdwin)]

/-- A CSR's value: a relocation register, a hold counter, or what the table has. -/
theorem csrValue_eq (s : State) (c : Context) (m : Nat) : csrValue s c m =
    if 0x010 ≤ m ∧ m ≤ 0x01F then SMap.getD c.id.zrel (m - 0x010) 0
    else if 0x050 ≤ m ∧ m ≤ 0x059 then BitVec.ofNat 64 (SMap.getD c.holdcnt (m - 0x050) 0)
    else ((csrTable s c).lookup m).getD 0 := by
  unfold csrValue
  dsimp only
  split_ifs with hz hh
  · rfl
  · rfl
  · split
    case h_38 =>
      change _ = (s.core c.coreKey).plimNext.getD (s.core c.coreKey).plim
      cases (s.core c.coreKey).plimNext <;> rfl
    case h_41 =>
      have hnone : (csrTable s c).lookup m = none := by
        rw [List.lookup_eq_none_iff]
        simp only [csrTable, List.forall_mem_cons, bne_iff_ne, List.not_mem_nil, false_imp_iff, implies_true, and_true]
        refine ⟨?_, ?_, ?_, ?_, ?_, ?_, ?_, ?_, ?_, ?_, ?_, ?_, ?_, ?_, ?_, ?_, ?_, ?_, ?_, ?_, ?_, ?_, ?_, ?_, ?_, ?_, ?_, ?_, ?_, ?_, ?_, ?_, ?_,
          ?_, ?_, ?_, ?_, ?_, ?_, ?_⟩ <;> assumption
      rw [hnone]; rfl
    all_goals rfl

theorem List.lookup_eq_of_eraseIdx {α : Type} {l l' : List (Nat × α)} {k n m : Nat} {x y : α} (h : l.eraseIdx k = l'.eraseIdx k)
    (hl : l[k]? = some (n, x)) (hl' : l'[k]? = some (n, y)) (hm : m ≠ n) : l.lookup m = l'.lookup m := by
  have key {r : List (Nat × α)} {z : α} (hr : r[k]? = some (n, z)) : r.lookup m = (r.eraseIdx k).lookup m := by
    clear hl hl' h
    induction r generalizing k with
    | nil => cases hr
    | cons e r ih =>
      cases k with
      | zero =>
        cases hr
        rw [List.lookup_cons, beq_eq_false_iff_ne.mpr hm]; rfl
      | succ k => rw [List.eraseIdx_cons_succ, List.lookup_cons, List.lookup_cons, ih hr]
  rw [key hl, key hl', h]

/-- Contexts whose CSRs agree but for entry k of the table, which is number n. -/
theorem csrValue_congr (s : State) {c c' : Context} (k : Nat) {n m : Nat} {x y : Word} (hz : c'.id.zrel = c.id.zrel)
    (hh : c'.holdcnt = c.holdcnt) (ht : (csrTable s c').eraseIdx k = (csrTable s c).eraseIdx k) (hl : (csrTable s c')[k]? = some (n, x))
    (hl' : (csrTable s c)[k]? = some (n, y)) (hm : m ≠ n) : csrValue s c' m = csrValue s c m := by
  rw [csrValue_eq, csrValue_eq, hz, hh, List.lookup_eq_of_eraseIdx ht hl hl' hm]

/-- A write to a CSR leaves every other CSR as before (R124). -/
theorem csrValue_writeCsr_ne (s : State) (c : Context) (v : Word) (n m : Nat) (hm : m ≠ n) :
    csrValue s (c.writeCsr n v) m = csrValue s c m := by
  unfold Context.writeCsr
  dsimp only
  by_cases hz : 0x010 ≤ n ∧ n ≤ 0x01F
  · rw [if_pos hz, csrValue_eq, csrValue_eq]
    split_ifs with h1
    · exact SMap.getD_put_ne _ _ _ (by omega)
    · rfl
    · rfl
  rw [if_neg hz]
  by_cases hh : 0x050 ≤ n ∧ n ≤ 0x059
  · rw [if_pos hh, csrValue_eq, csrValue_eq]
    split_ifs with h1 h2
    · rfl
    · dsimp only; rw [SMap.getD_put_ne _ _ _ (show m - 0x050 ≠ n - 0x050 by omega)]
    · rfl
  rw [if_neg hh]
  split
  case h_1 => exact csrValue_congr s 0 rfl rfl rfl rfl rfl hm
  case h_2 => exact csrValue_congr s 1 rfl rfl rfl rfl rfl hm
  case h_3 => exact csrValue_congr s 2 rfl rfl rfl rfl rfl hm
  case h_4 => exact csrValue_congr s 3 rfl rfl rfl rfl rfl hm
  case h_5 => exact csrValue_congr s 4 rfl rfl rfl rfl rfl hm
  case h_6 => exact csrValue_congr s 5 rfl rfl rfl rfl rfl hm
  case h_7 => exact csrValue_congr s 6 rfl rfl rfl rfl rfl hm
  case h_8 => exact csrValue_congr s 7 rfl rfl rfl rfl rfl hm
  case h_9 => exact csrValue_congr s 8 rfl rfl rfl rfl rfl hm
  case h_10 => exact csrValue_congr s 9 rfl rfl rfl rfl rfl hm
  case h_11 => exact csrValue_congr s 10 rfl rfl rfl rfl rfl hm
  case h_12 => exact csrValue_congr s 11 rfl rfl rfl rfl rfl hm
  case h_13 => exact csrValue_congr s 12 rfl rfl rfl rfl rfl hm
  case h_14 => exact csrValue_congr s 13 rfl rfl rfl rfl rfl hm
  case h_15 => exact csrValue_congr s 14 rfl rfl rfl rfl rfl hm
  case h_16 =>
    split
    · exact csrValue_congr s 15 rfl rfl rfl rfl rfl hm
    · rfl
  case h_17 => exact csrValue_congr s 16 rfl rfl rfl rfl rfl hm
  case h_18 => exact csrValue_congr s 17 rfl rfl rfl rfl rfl hm
  case h_19 => exact csrValue_congr s 18 rfl rfl rfl rfl rfl hm
  case h_20 => exact csrValue_congr s 19 rfl rfl rfl rfl rfl hm
  case h_21 => exact csrValue_congr s 20 rfl rfl rfl rfl rfl hm
  case h_22 => exact csrValue_congr s 22 rfl rfl rfl rfl rfl hm
  case h_23 => exact csrValue_congr s 25 rfl rfl rfl rfl rfl hm
  case h_24 => exact csrValue_congr s 27 rfl rfl rfl rfl rfl hm
  case h_25 => exact csrValue_congr s 28 rfl rfl rfl rfl rfl hm
  case h_26 => exact csrValue_congr s 29 rfl rfl rfl rfl rfl hm
  case h_27 => exact csrValue_congr s 30 rfl rfl rfl rfl rfl hm
  case h_28 => exact csrValue_congr s 31 rfl rfl rfl rfl rfl hm
  case h_29 => exact csrValue_congr s 32 rfl rfl rfl rfl rfl hm
  case h_30 => exact csrValue_congr s 33 rfl rfl rfl rfl rfl hm
  case h_31 => exact csrValue_congr s 34 rfl rfl rfl rfl rfl hm
  case h_32 => rfl

/-! ### Fields (R124) -/

theorem low_eq_and (k : Nat) (v : Word) : low k v = v &&& BitVec.ofNat 64 (2 ^ k - 1) := by
  apply BitVec.eq_of_getLsbD_eq
  intro i hi
  rw [low, BitVec.getLsbD_ofNat, BitVec.getLsbD_and, BitVec.getLsbD_ofNat, Nat.testBit_mod_two_pow, Nat.testBit_two_pow_sub_one,
    BitVec.testBit_toNat]
  cases v.getLsbD i <;> simp [hi]

theorem setWidth_extractLsb'_zero (k : Nat) (v : Word) : (v.extractLsb' 0 k).setWidth 64 = BitVec.ofNat 64 (v.toNat % 2 ^ k) := by
  apply BitVec.eq_of_toNat_eq
  rw [BitVec.toNat_setWidth, BitVec.extractLsb'_toNat, Nat.shiftRight_zero, BitVec.toNat_ofNat]

/-- What a CSR reads that was written: the written bits that its fields have. -/
theorem csrValue_writeCsr_self (s : State) (c : Context) (v : Word) :
    let r (n : Nat) : Word := csrValue s (c.writeCsr n v) n
    (∀ n ∈ [0x020, 0x022, 0x030, 0x033], r n = v &&& ~~~3#64) ∧ r 0x032 = v &&& 0xFFFF#64 ∧
    r 0x070 = v &&& 0xFFFFFFFF#64 ∧ r 0x031 = c.thread.ulipend &&& ~~~(v &&& 0xFFFF#64) ∧
    r 0x063 = c.be.oorflag &&& ~~~(v &&& 1#64) ∧ r 0x068 = c.be.vflags &&& ~~~(v &&& 0xFF#64) ∧
    (∀ n, 0x010 ≤ n → n ≤ 0x01F → r n = v) ∧ (∀ n ∈ [0x023, 0x028, 0x029, 0x02A, 0x02C, 0x045], r n = v) ∧
    (∀ n, 0x050 ≤ n → n ≤ 0x059 → r n = v &&& 0xFFFFFFFFFFFF#64) ∧
    (∀ x ∈ [(0x000, 25), (0x001, 16), (0x002, 20), (0x003, 24), (0x004, 25), (0x021, 17), (0x024, 8), (0x02B, 24), (0x040, 32),
            (0x042, 48), (0x064, 22), (0x071, 32)], r x.1 = BitVec.ofNat 64 (v.toNat % 2 ^ x.2)) ∧
    (∀ n ∈ [0x060, 0x061, 0x062], r n = v &&& 0x7F7F#64) ∧
    (c.thread.inTrap = true ∧ c.thread.tcause.toNat % 256 = 11 → r 0x02D = v &&& 0x7F#64) ∧
    (¬ (c.thread.inTrap = true ∧ c.thread.tcause.toNat % 256 = 11) → r 0x02D = c.thread.bfperf.setWidth 64) := by
  intro r
  have hbf (x : Context) (e : c.writeCsr 0x02D v = x) : r 0x02D = x.thread.bfperf.setWidth 64 := by subst e; rfl
  refine ⟨?_, low_eq_and 16 v, low_eq_and 32 v, congrArg (c.thread.ulipend &&& ~~~·) (low_eq_and 16 v),
    congrArg (c.be.oorflag &&& ~~~·) (low_eq_and 1 v), congrArg (c.be.vflags &&& ~~~·) (low_eq_and 8 v),
    fun n h1 h2 => ?_, ?_, fun n h1 h2 => ?_, ?_, ?_, fun h => ?_, fun h => ?_⟩
  · simp only [List.forall_mem_cons, List.not_mem_nil, false_imp_iff, implies_true, and_true]
    exact ⟨rfl, rfl, rfl, rfl⟩
  · simp only [r, csrValue_eq, Context.writeCsr]
    rw [if_pos ⟨h1, h2⟩, if_pos ⟨h1, h2⟩]; exact SMap.getD_put_self ..
  · simp only [List.forall_mem_cons, List.not_mem_nil, false_imp_iff, implies_true, and_true]
    exact ⟨rfl, rfl, rfl, rfl, rfl, BitVec.ofNat_toNat 64 v |>.trans (BitVec.setWidth_eq v)⟩
  · have hz : ¬ (0x010 ≤ n ∧ n ≤ 0x01F) := by omega
    simp only [r, csrValue_eq, Context.writeCsr]
    rw [if_neg hz, if_neg hz, if_pos ⟨h1, h2⟩, if_pos ⟨h1, h2⟩]
    dsimp only
    rw [SMap.getD_put_self]
    exact low_eq_and 48 v
  · have e (k : Nat) := setWidth_extractLsb'_zero k v
    simp only [List.forall_mem_cons, List.not_mem_nil, false_imp_iff, implies_true, and_true]
    exact ⟨e 25, e 16, e 20, e 24, e 25, rfl, rfl, rfl, e 32,
      e 48, rfl, e 32⟩
  · simp only [List.forall_mem_cons, List.not_mem_nil, false_imp_iff, implies_true, and_true]
    exact ⟨rfl, rfl, rfl⟩
  · have hw : c.thread.bfperfWritable = true := by simpa [Thread.bfperfWritable] using h
    rw [hbf { c with thread := { c.thread with bfperf := v.extractLsb' 0 7 } } (if_pos hw)]
    exact (setWidth_extractLsb'_zero 7 v).trans (low_eq_and 7 v)
  · have hw : ¬ c.thread.bfperfWritable = true := by simpa [Thread.bfperfWritable] using h
    exact hbf c (if_neg hw)

/-! ### The core's CSRs (R28, R29) -/

/-- A core's CSR is none of a context's. -/
theorem writeCsr_coreCsr (c : Context) (v : Word) :
    ∀ n ∈ [0x043, 0x044, 0x100, 0x101, 0x102, 0x103, 0x104], c.writeCsr n v = c := by
  simp only [List.forall_mem_cons, List.not_mem_nil, false_imp_iff, implies_true, and_true]
  exact ⟨rfl, rfl, rfl, rfl, rfl, rfl, rfl⟩

/-- A context's CSR is none of a core's. -/
theorem writeCoreCsr_of_context (s : State) (core n : Nat) (v : Word) (h : n < 0x100 ∧ n ≠ 0x43 ∧ n ≠ 0x44) :
    s.writeCoreCsr core n v = s := by
  obtain ⟨h1, h2, h3⟩ := h
  unfold State.writeCoreCsr
  split
  case h_8 => rfl
  all_goals omega

theorem tenantResident_iff (s : State) (core : Nat) : s.tenantResident core = true ↔
    ∃ p ∈ (s.core core).slots, ∃ x, s.ctx p.2 = some x ∧ x.status = .resident ∧ x.firmware = false := by
  unfold State.tenantResident
  rw [List.any_eq_true]
  refine exists_congr fun p => and_congr_right fun _ => ?_
  cases s.ctx p.2 <;> simp

/-- Whether a tenant is RESIDENT on a core is read from the contexts' status alone. -/
theorem tenantResident_setCtx (s : State) (k core : Nat) {c c' : Context} (h : s.ctx k = some c) (hs : c'.status = c.status)
    (hf : c'.firmware = c.firmware) : (s.setCtx k c').tenantResident core = s.tenantResident core := by
  unfold State.tenantResident
  rw [State.setCtx_core]
  congr 1
  funext p
  by_cases hp : p.2 = k
  · rw [hp, State.ctx_setCtx_self, h]
    simp only [hs, hf]
  · rw [State.ctx_setCtx_ne s c' hp]

theorem takeTable_plim (r : Core) : r.takeTable.plim = r.plim ∧ r.takeTable.plimNext = r.plimNext := by
  unfold Core.takeTable; split <;> exact ⟨rfl, rfl⟩

theorem advance_plim (r : Core) (p : Word) (h : r.plimNext = some p) : r.advance.plim = p ∧ r.advance.plimNext = none := by
  unfold Core.advance
  dsimp only
  split
  · rw [(takeTable_plim _).1, (takeTable_plim _).2, h]; exact ⟨rfl, rfl⟩
  · rw [h]; exact ⟨rfl, rfl⟩

/-! ### CSRR and CSRW (R124) -/

section
variable (s : State) (c : Context) (h : s.Executes c) (n : BitVec 12) (a d : BitVec 6)
include h

theorem execCsrr_of_ok (hc : csrCheck c.isFirmware false n.toNat = none) :
    execCsrr n d s = .next (s.goOn c (c.thread.setReg d (csrValue s c n.toNat) false) (c.thread.pc + 4)) := by
  rw [execCsrr, withThread_of s c h, hc]

theorem execCsrr_of_fault {f : Nat × Nat} (hc : csrCheck c.isFirmware false n.toNat = some f) :
    execCsrr n d s = .next (s.csrFault (.csrr n d) n.toNat f) := by
  rw [execCsrr, withThread_of s c h, hc]

theorem execCsrw_of_fault {f : Nat × Nat} (hc : csrCheck c.isFirmware true n.toNat = some f) :
    execCsrw n a d s = .next (s.csrFault (.csrw n a d) n.toNat f) := by
  rw [execCsrw, withThread_of s c h, hc]

theorem execCsrw_of_poisoned (hc : csrCheck c.isFirmware true n.toNat = none) (ha : c.thread.regPoison a = true) :
    execCsrw n a d s = .next s.poisonUse := by
  rw [execCsrw, withThread_of s c h, hc]
  simp only [ha, if_true]

theorem execCsrw_of_ok (hc : csrCheck c.isFirmware true n.toNat = none) (ha : c.thread.regPoison a = false) :
    execCsrw n a d s = .next ((s.goOn (c.writeCsr n.toNat (c.thread.reg a))
      ((c.writeCsr n.toNat (c.thread.reg a)).thread.setReg d (csrValue s c n.toNat) false) (c.thread.pc + 4)).writeCoreCsr c.coreKey n.toNat
        (c.thread.reg a)) := by
  rw [execCsrw, withThread_of s c h, hc]
  simp only [ha, Bool.false_eq_true, if_false]

/-- CSRW of a core's CSR m: the old value to d, and a change of that core alone. -/
theorem execCsrw_core {m : Nat} (hm : m ∈ [0x043, 0x044, 0x100, 0x101, 0x102, 0x103, 0x104]) (r' : Core)
    (hw : ∀ u : State, u.core c.coreKey = s.core c.coreKey → u.tenantResident c.coreKey = s.tenantResident c.coreKey →
      u.writeCoreCsr c.coreKey m (c.thread.reg a) = u ∧ r' = s.core c.coreKey ∨
      u.writeCoreCsr c.coreKey m (c.thread.reg a) = u.setCore c.coreKey r')
    (hn : n.toNat = m) (hc : csrCheck c.isFirmware true m = none) (ha : c.thread.regPoison a = false) :
    ∃ t c', exec (.csrw n a d) s = .next t ∧ t.ctx s.cur = some c' ∧ c.thread.Wrote c'.thread d (csrValue s c m) false ∧
      c'.thread.pc = c.thread.nextPc (c.thread.pc + 4) ∧ c'.thread.loops = c.thread.nextLoops (c.thread.pc + 4) ∧
      c.OnlyThread c' ∧ c.thread.OnlyFlow c'.thread ∧ t.core c.coreKey = r' ∧ (∀ k, k ≠ c.coreKey → t.core k = s.core k) ∧
      (∀ k, k ≠ s.cur → t.ctx k = s.ctx k) ∧ t = { s with contexts := t.contexts, cores := t.cores } := by
  subst hn
  obtain ⟨_, c', ht, hctx, hregs, hpc, hloops, hctxFrame, hthread, -⟩ :=
    setReg_goOn_writes s c d (csrValue s c n.toNat) false (c.thread.pc + 4)
  cases ht
  rw [exec_csrw, execCsrw_of_ok s c h n a d hc ha, writeCsr_coreCsr c _ _ hm]
  rcases hw (s.goOn c (c.thread.setReg d (csrValue s c n.toNat) false) (c.thread.pc + 4)) rfl
    (tenantResident_setCtx s s.cur c.coreKey h rfl rfl) with ⟨hsame, rfl⟩ | hset
  · rw [hsame]
    exact ⟨_, c', rfl, hctx, hregs, hpc, hloops, hctxFrame, hthread, rfl, fun _ _ => rfl,
      fun k hk => State.ctx_setCtx_ne s _ hk, rfl⟩
  · rw [hset]
    exact ⟨_, c', rfl, hctx, hregs, hpc, hloops, hctxFrame, hthread, State.core_setCore_self .., fun k hk => State.core_setCore_ne _ _ hk,
      fun k hk => State.ctx_setCtx_ne s _ hk, rfl⟩

end

/-- A write to a core's CSR, SLOTMAP aside. -/
theorem writeCoreCsr_eq (s : State) (core : Nat) (v : Word) (r : Core) (hr : s.core core = r) :
    s.writeCoreCsr core 0x043 v = s.setCore core { r with frzcnt := v.extractLsb' 0 48 } ∧
    s.writeCoreCsr core 0x044 v = s.setCore core { r with cycle := v } ∧
    s.writeCoreCsr core 0x100 v = s.setCore core { r with fwshare := v &&& 0x7F#64 } ∧
    s.writeCoreCsr core 0x103 v = s.setCore core { r with spinlim := v &&& 0xFFFFFFFF#64 } ∧
    s.writeCoreCsr core 0x104 v = s.setCore core { r with wdwin := v &&& 0xFFFFFFFFFFFF#64 } ∧
    s.writeCoreCsr core 0x102 v = s.setCore core { r with plimNext := some (v &&& 0xFFFFF#64) } := by
  subst hr
  rw [show v &&& 0x7F#64 = low 7 v from (low_eq_and 7 v).symm, show v &&& 0xFFFFFFFF#64 = low 32 v from (low_eq_and 32 v).symm,
    show v &&& 0xFFFFFFFFFFFF#64 = low 48 v from (low_eq_and 48 v).symm, show v &&& 0xFFFFF#64 = low 20 v from (low_eq_and 20 v).symm]
  exact ⟨rfl, rfl, rfl, rfl, rfl, rfl⟩

theorem writeCoreCsr_slotmap (s : State) (core : Nat) (v : Word) (r : Core) (hr : s.core core = r) :
    (s.tenantResident core = false → s.writeCoreCsr core 0x101 v = s.setCore core { r with slotmap := v &&& 7#64 }) ∧
    (s.tenantResident core = true → s.writeCoreCsr core 0x101 v = s) := by
  subst hr
  rw [show v &&& 7#64 = low 3 v from (low_eq_and 3 v).symm]
  exact ⟨fun h => if_neg (Bool.eq_false_iff.mp h), fun h => if_pos h⟩

/-- Settles O22: the register written, the CSR written, and what every CSR then reads. -/
theorem csrResults : Obligations.CsrResults := by
  refine ⟨fun s c n a d h => ⟨fun hc => ?_, fun hc ha hn => ?_, ?_⟩, tenantResident_iff, advance_plim, fun s c v => ?_⟩
  · rw [exec_csrr, execCsrr_of_ok s c h n d hc]
    exact setReg_goOn_writes s c d _ false _
  · rw [exec_csrw, execCsrw_of_ok s c h n a d hc ha, writeCoreCsr_of_context _ _ _ _ hn]
    exact setReg_goOn_writes s (c.writeCsr n.toNat (c.thread.reg a)) d _ false _
  · have sets {m : Nat} (hm : m ∈ [0x043, 0x044, 0x100, 0x101, 0x102, 0x103, 0x104]) := execCsrw_core s c h n a d hm
    have hw (u : State) (hu : u.core c.coreKey = s.core c.coreKey) := writeCoreCsr_eq u c.coreKey (c.thread.reg a) _ hu
    have hmap (u : State) (hu : u.core c.coreKey = s.core c.coreKey) := writeCoreCsr_slotmap u c.coreKey (c.thread.reg a) _ hu
    exact ⟨sets (by simp) _ fun u hu _ => .inr (hw u hu).1, sets (by simp) _ fun u hu _ => .inr (hw u hu).2.1,
      sets (by simp) _ fun u hu _ => .inr (hw u hu).2.2.1, sets (by simp) _ fun u hu _ => .inr (hw u hu).2.2.2.1,
      sets (by simp) _ fun u hu _ => .inr (hw u hu).2.2.2.2.1, sets (by simp) _ fun u hu _ => .inr (hw u hu).2.2.2.2.2,
      fun hres => sets (by simp) _ fun u hu hut => .inr ((hmap u hu).1 (hut.trans hres)),
      fun hres => sets (by simp) _ fun u hu hut => .inl ⟨(hmap u hu).2 (hut.trans hres), rfl⟩⟩
  · obtain ⟨h1, h2, h3, h4, h5, h6, h7, h8, h9, h10, h11, h12, h13⟩ := csrValue_writeCsr_self s c v
    exact ⟨h1, h2, h3, h4, h5, h6, h7, h8, h9, h10, h11, h12, h13, csrValue_writeCsr_ne s c v⟩

/-! ### Privilege (R104) -/

theorem csrFault_csrpriv (s : State) (c : Context) (h : s.Executes c) (hh : c.Handles) (i : Instr) (n : BitVec 12) :
    Traps s c (.next (s.csrFault i n.toNat (gCSRPRIV, 0))) 5 0 c.thread.pc (n.setWidth 64) false := by
  have hn : BitVec.ofNat 64 n.toNat = n.setWidth 64 := BitVec.ofNat_toNat 64 n
  rw [← hn]
  exact genFault_traps s c h hh gCSRPRIV 0 _

/-- Settles O23: the check of an access decides before anything else. -/
theorem csrPrivilege : Obligations.CsrPrivilege := by
  intro s c n a d h hh hfw hm
  have hfirm : c.isFirmware = false := by rw [Context.isFirmware, hfw, hm]; rfl
  rw [exec_csrr, exec_csrw]
  refine ⟨fun hp => ?_, fun hp _ => ?_, fun hu => ⟨?_, fun _ => ?_⟩⟩
  · rw [execCsrr_of_fault s c h n d (f := (gCSRPRIV, 0)) (by rw [csrCheck, hp, hfirm]; rfl)]
    exact csrFault_csrpriv s c h hh _ n
  · rw [execCsrw_of_fault s c h n a d (f := (gCSRPRIV, 0)) (by rcases hp with hp | hp <;> rw [csrCheck, hp, hfirm] <;> rfl)]
    exact csrFault_csrpriv s c h hh _ n
  · rw [execCsrr_of_fault s c h n d (f := (gILLINS, 1)) (by rw [csrCheck, hu])]
    exact illins_traps s c h hh _ 1
  · rw [execCsrw_of_fault s c h n a d (f := (gILLINS, 1)) (by rw [csrCheck, hu])]
    exact illins_traps s c h hh _ 1

end Sys2Proof.Machine
end

section
/-! PROOFS. Traps of accesses and of poisoned uses, taken or fatal (R53, R66, R102, R108, R109, R135, R328, R329). -/

namespace Sys2Proof.Machine

/-! ### Faults of an access (R53, R108) -/

section
variable (s : State) (c : Context) (h : s.Executes c)
include h

theorem genXlateFault_of_notNotPres (f : XFault) (hn : isNotPres f.sub = false) :
    s.genXlateFault s.cur f false = s.takeTrap s.cur 3 f.sub.toNat c.thread.pc f.va false := by
  unfold State.genXlateFault
  rw [show s.ctx s.cur = some c from h]
  simp only [hn, Bool.false_eq_true, if_false]

/-- A load whose address is misaligned or does not translate. -/
theorem genLoadAt_traps (hh : c.Handles) (op : BitVec 6) (va : Word) (n : Nat) (signed : Bool) (d : BitVec 6) :
    (va.toNat % n ≠ 0 → Traps s c (.next (s.genLoadAt c op va n signed d)) 2 0 c.thread.pc va false) ∧
    (∀ f, va.toNat % n = 0 → translate s c va .genLoad = .error f → isNotPres f.sub = false →
      Traps s c (.next (s.genLoadAt c op va n signed d)) 3 f.sub.toNat c.thread.pc f.va false) := by
  unfold State.genLoadAt
  refine ⟨fun hva => ?_, fun f hva ht hn => ?_⟩
  · rw [if_pos hva]; exact genFault_traps s c h hh gMISALIGN 0 va
  · rw [if_neg (not_not_intro hva), ht]
    dsimp only
    rw [genXlateFault_of_notNotPres s c h f hn]
    exact takeTrap_traps s c h hh ..

/-- A store whose address is misaligned or does not translate. -/
theorem genStoreAt_traps (hh : c.Handles) (op : BitVec 6) (va : Word) (n : Nat) (v : Word) (p : Bool) :
    (va.toNat % n ≠ 0 → Traps s c (.next (s.genStoreAt c op va n v p)) 2 0 c.thread.pc va false) ∧
    (∀ f, va.toNat % n = 0 → translate s c va .genStore = .error f → isNotPres f.sub = false →
      Traps s c (.next (s.genStoreAt c op va n v p)) 3 f.sub.toNat c.thread.pc f.va false) := by
  unfold State.genStoreAt
  refine ⟨fun hva => ?_, fun f hva ht hn => ?_⟩
  · rw [if_pos hva]; exact genFault_traps s c h hh gMISALIGN 0 va
  · rw [if_neg (not_not_intro hva), ht]
    dsimp only
    rw [genXlateFault_of_notNotPres s c h f hn]
    exact takeTrap_traps s c h hh ..

/-- Where a load through a register traps. -/
theorem genLoad_traps (hh : c.Handles) (op : BitVec 6) (n : Nat) (signed : Bool) (i : BitVec 13) (a d : BitVec 6) :
    let va := c.thread.reg a + i.signExtend 64
    let o := genLoad s op n signed i a d
    (c.thread.regPoison a = true → Traps s c o 4 0 c.thread.pc 0 false) ∧
    (c.thread.regPoison a = false → va.toNat % n ≠ 0 → Traps s c o 2 0 c.thread.pc va false) ∧
    (∀ f, c.thread.regPoison a = false → va.toNat % n = 0 → translate s c va .genLoad = .error f → isNotPres f.sub = false →
      Traps s c o 3 f.sub.toNat c.thread.pc f.va false) := by
  intro va o
  obtain ⟨hmis, hxlate⟩ := genLoadAt_traps s c h hh op va n signed d
  refine ⟨fun ha => ?_, fun ha => ?_, fun f ha => ?_⟩
  · unfold o genLoad
    rw [withThread_of s c h]
    simp only [ha, if_true]
    exact poisonUse_traps s c h hh
  · rw [show o = _ from genLoad_of_clean s c op n signed d h i a ha]; exact hmis
  · rw [show o = _ from genLoad_of_clean s c op n signed d h i a ha]; exact hxlate f

/-- Where a store through a register traps. -/
theorem genStore_traps (hh : c.Handles) (op : BitVec 6) (n : Nat) (i : BitVec 13) (a b : BitVec 6) :
    let va := c.thread.reg a + i.signExtend 64
    let o := genStore s op n i a b
    (c.thread.regPoison a = true → Traps s c o 4 0 c.thread.pc 0 false) ∧
    (c.thread.regPoison a = false → va.toNat % n ≠ 0 → Traps s c o 2 0 c.thread.pc va false) ∧
    (∀ f, c.thread.regPoison a = false → va.toNat % n = 0 → translate s c va .genStore = .error f → isNotPres f.sub = false →
      Traps s c o 3 f.sub.toNat c.thread.pc f.va false) := by
  intro va o
  obtain ⟨hmis, hxlate⟩ := genStoreAt_traps s c h hh op va n (c.thread.reg b) (c.thread.regPoison b)
  refine ⟨fun ha => ?_, fun ha => ?_, fun f ha => ?_⟩
  · unfold o genStore
    rw [withThread_of s c h]
    simp only [ha, if_true]
    exact poisonUse_traps s c h hh
  · rw [show o = _ from genStore_of_clean s c op n h i a b ha]; exact hmis
  · rw [show o = _ from genStore_of_clean s c op n h i a b ha]; exact hxlate f

/-- An instruction that finds a poisoned use before anything else. -/
theorem withThread_poisonUse (hh : c.Handles) {f : Context → State} (hf : f c = s.poisonUse) :
    Traps s c (withThread s f) 4 0 c.thread.pc 0 false := by
  rw [withThread_of s c h, hf]
  exact poisonUse_traps s c h hh

end

/-- Settles O14: a load or store traps as its address does, and every other use of a poisoned register before anything else. -/
theorem accessTraps : Obligations.AccessTraps := by
  refine ⟨fun s c o z d h hh => ?_, fun s c i b a d slot f k n h hh => ?_, fun s c i a d h hh => ?_⟩
  · simp only [List.forall_mem_cons, List.not_mem_nil, false_imp_iff, implies_true, and_true, exec_ldz, exec_stz,
      execLdz_eq s c d h o z, execStz_eq s c h o z d]
    exact ⟨genLoadAt_traps s c h hh _ (zrelAddr c z o) 8 false d, genStoreAt_traps s c h hh _ (zrelAddr c z o) 8 _ _⟩
  · simp only [exec_beq, exec_bne, exec_blt, exec_bge, exec_bltu, exec_bgeu, execBeq, execBne, execBlt, execBge, execBltu, execBgeu]
    refine ⟨fun hp => ?_, fun ha => ?_⟩
    · have uses (cond : Word → Word → Bool) := genBranch_traps s c h hh a b i cond hp
      exact ⟨uses _, uses _, uses _, uses _, uses _, uses _⟩
    · simp only [exec_jalr, exec_loop, exec_bldt, exec_bhdr, exec_nset, exec_emitm, exec_cpost, exec_csrw]
      have first {f : Context → State} (hf : f c = s.poisonUse) := withThread_poisonUse s c h hh hf
      refine ⟨first (if_pos ha), first (if_pos ha), first (if_pos ha), first (if_pos ha), first (if_pos ha),
        fun hm => ⟨?_, first ((if_neg (Bool.eq_false_iff.mp hm)).trans (if_pos ha))⟩, fun hc => ?_⟩
      · rw [execEmitm_poisoned s c h hm i a ha]; exact poisonUse_traps s c h hh
      · rw [execCsrw_of_poisoned s c h n a d hc ha]; exact poisonUse_traps s c h hh
  · simp only [List.forall_mem_cons, List.not_mem_nil, false_imp_iff, implies_true, and_true, exec_ldb, exec_ldbu, exec_ldh, exec_ldhu,
      exec_ldw, exec_ldwu, exec_ldd, exec_stb, exec_sth, exec_stw, exec_std, execLdb, execLdbu, execLdh, execLdhu, execLdw, execLdwu,
      execLdd, execStb, execSth, execStw, execStd]
    have ld (op : BitVec 6) (n : Nat) (signed : Bool) := genLoad_traps s c h hh op n signed i a d
    have st (op : BitVec 6) (n : Nat) := genStore_traps s c h hh op n i a d
    exact ⟨ld _ 1 _, ld _ 2 _, ld _ 4 _, ld _ 8 _, ld _ 1 _, ld _ 2 _, ld _ 4 _, st _ 1, st _ 2, st _ 4, st _ 8⟩

/-- Settles O26. -/
theorem illegalWord : Obligations.IllegalWord := by
  intro s c w h hh
  rw [exec_illegalInstruction, execIllegalInstruction, withThread_of s c h]
  exact genFault_traps s c h hh gILLINS 0 _

/-! ### Traps that are taken, and fatal ones (R135, R328, R329) -/

section
variable (s : State) (k : Nat) (c : Context) (hk : s.ctx k = some c) (code sub : Nat) (tpc tval : Word) (fetch : Bool)
include hk

theorem takeTrap_of_handles (hh : c.Handles) :
    s.takeTrap k code sub tpc tval fetch =
      (s.setCtx k { c.unwait with thread := { c.thread with
        tpc := tpc, tval := tval, tcause := trapCause code sub fetch
        tstate := mkTstate c.thread.udep c.thread.depth c.thread.inUli true, pc := c.thread.tvec, boundary := true } }).frost k 4
      (frostTrap (BitVec.ofNat 8 (c.thread.cause code sub tval).code) (BitVec.ofNat 8 (c.thread.cause code sub tval).sub)
        (BitVec.ofNat 2 (c.thread.cause code sub tval).cls) 0 tpc) := by
  obtain ⟨hin, hvec⟩ := hh
  unfold State.takeTrap
  rw [hk]
  simp only [hin, Bool.false_or, beq_eq_false_iff_ne.mpr hvec, Bool.false_eq_true, ↓reduceIte]
  rfl

theorem takeTrap_of_fatal (hfree : c.sch.freeze = none) (hh : c.thread.inTrap = true ∨ c.thread.tvec = 0) :
    s.takeTrap k code sub tpc tval fetch = s.freezeAnew k c (c.thread.cause code sub tval) true := by
  have hfatal : (c.thread.inTrap || c.thread.tvec == 0) = true := by simpa using hh
  unfold State.takeTrap State.beginFreeze
  rw [hk]
  simp only [hfatal, if_true, hfree]

end

/-- The fields of TSTATE (R104). -/
theorem mkTstate_fields (th : Thread) (udep tdep : Nat) (u t : Bool) (h : th.tstate = mkTstate udep tdep u t) :
    th.inTrap = t ∧ th.inUli = u ∧ th.tdep = tdep % 8 ∧ th.udep = udep % 8 := by
  have hn : th.tstate.toNat = udep % 8 * 32 + tdep % 8 * 4 + (if u then 2 else 0) + (if t then 1 else 0) := by
    rw [h, mkTstate, BitVec.toNat_ofNat]
    split <;> split <;> omega
  have hbit (i : Nat) : th.tstate.getLsbD i = decide (th.tstate.toNat / 2 ^ i % 2 = 1) := by
    rw [← BitVec.testBit_toNat, Nat.testBit_eq_decide_div_mod_eq]
  refine ⟨?_, ?_, ?_, ?_⟩
  · rw [Thread.inTrap, hbit, hn]
    cases u <;> cases t <;> simp <;> omega
  · rw [Thread.inUli, hbit, hn]
    cases u <;> cases t <;> simp <;> omega
  · rw [Thread.tdep, BitVec.extractLsb'_toNat, Nat.shiftRight_eq_div_pow, hn]
    split <;> split <;> omega
  · rw [Thread.udep, BitVec.extractLsb'_toNat, Nat.shiftRight_eq_div_pow, hn]
    split <;> split <;> omega

theorem Thread.udep_lt (t : Thread) : t.udep < 8 := BitVec.isLt _

/-- What a freeze changes: its context's schedule record and its core's frost ring. -/
theorem freezeAnew_spec (s : State) (k : Nat) (c : Context) (cause : TrapCause) (fatal : Bool) :
    let t := s.freezeAnew k c cause fatal
    let f : Freeze := { cause := cause, fatal := fatal, settled := false, dumped := none, order := s.moves,
                        frost := (s.core c.coreKey).frost.copy.getD (s.core c.coreKey).frost.list, cycle := (s.core c.coreKey).cycle }
    t.ctx k = some { c with sch := { c.sch with preempt := none, freeze := some f } } ∧ (∀ j, j ≠ k → t.ctx j = s.ctx j) ∧
    (∀ j, t.core j = { s.core j with frost := (t.core j).frost }) ∧ t = { s with contexts := t.contexts, cores := t.cores } := by
  refine ⟨State.ctx_setCtx_self .., fun j hj => State.ctx_setCtx_ne s _ hj, fun j => ?_, rfl⟩
  by_cases hj : j = c.coreKey
  · subst hj
    unfold State.freezeAnew
    dsimp only
    rw [State.core_setCore_self]
  · unfold State.freezeAnew
    dsimp only
    rw [State.core_setCore_ne _ _ hj]
    rfl

/-- The answer of an instruction whose fault is fatal: the context freezes with the fault as its cause, its thread as before. -/
def FreezesFatally (s : State) (c : Context) (o : Out) (code sub : Nat) (tval : Word) : Prop :=
  ∃ t c' f, o = .next t ∧ t.ctx s.cur = some c' ∧ c'.thread = c.thread ∧ c'.sch.freeze = some f ∧ f.fatal = true ∧
    f.cause = { cls := 0, code := code, sub := sub, tval := tval } ∧ GenFrame s t

/-- A fatal trap of the executing thread stays inside its frame. -/
theorem takeTrap_fatal (s : State) (c : Context) (h : s.Executes c) (hfree : c.sch.freeze = none)
    (hh : c.thread.inTrap = true ∨ c.thread.tvec = 0) (code sub : Nat) (hcode : code ≠ 11) (tpc tval : Word) :
    FreezesFatally s c (.next (s.takeTrap s.cur code sub tpc tval false)) code sub tval := by
  rw [takeTrap_of_fatal s s.cur c h code sub tpc tval false hfree hh]
  obtain ⟨hctx, hothers, hrings, hrest⟩ := freezeAnew_spec s s.cur c (c.thread.cause code sub tval) true
  exact ⟨_, _, _, rfl, hctx, rfl, rfl, rfl, if_neg hcode, fun _ => rfl, rfl, hothers, hrest, hrings⟩

theorem genFault_fatal (s : State) (c : Context) (h : s.Executes c) (hfree : c.sch.freeze = none)
    (hh : c.thread.inTrap = true ∨ c.thread.tvec = 0) (code sub : Nat) (hcode : code ≠ 11) (tval : Word) :
    FreezesFatally s c (.next (s.genFault s.cur code sub tval)) code sub tval := by
  unfold State.genFault
  rw [show s.ctx s.cur = some c from h]
  exact takeTrap_fatal s c h hfree hh code sub hcode _ tval

/-- Settles O27: taken at the handler by `takeTrap_of_handles`, else a freeze by `takeTrap_of_fatal`. -/
theorem fatalTrap : Obligations.FatalTrap := by
  refine ⟨fun s k c code sub tpc tval fetch hk hh => ?_, fun s k c code sub tpc tval fetch hk hfree hh => ?_,
    fun s c h hfree hh => ⟨fun code => ?_, fun w => ?_, fun a ha => ?_, fun i a d ha hva => ?_⟩⟩
  · rw [takeTrap_of_handles s k c hk code sub tpc tval fetch hh]
    obtain ⟨cores, e, hc⟩ := State.frost_cases _ _ _ _
    rw [e]
    obtain ⟨hin, huli, htdep, hudep⟩ := mkTstate_fields
      { c.thread with tpc := tpc, tval := tval, tcause := trapCause code sub fetch,
                      tstate := mkTstate c.thread.udep c.thread.depth c.thread.inUli true, pc := c.thread.tvec, boundary := true } _ _ _ _ rfl
    refine ⟨⟨_, State.ctx_setCtx_self .., rfl, rfl, rfl, rfl, hin, huli, htdep, hudep.trans (Nat.mod_eq_of_lt c.thread.udep_lt), rfl⟩,
      fun j hj => State.ctx_setCtx_ne s _ hj, fun j => ?_, rfl⟩
    obtain ⟨f, hf⟩ := hc j
    change SMap.getD cores j Core.reset = { s.core j with frost := (SMap.getD cores j Core.reset).frost }
    rw [hf]
    rfl
  · rw [takeTrap_of_fatal s k c hk code sub tpc tval fetch hfree hh]
    exact freezeAnew_spec s k c _ true
  · change FreezesFatally s c _ _ _ _
    rw [exec_trapc, execTrapc, withThread_of s c h]
    exact takeTrap_fatal s c h hfree hh gTRAPC 0 (by decide) _ _
  · change FreezesFatally s c _ _ _ _
    rw [exec_illegalInstruction, execIllegalInstruction, withThread_of s c h]
    exact genFault_fatal s c h hfree hh gILLINS 0 (by decide) _
  · change FreezesFatally s c _ _ _ _
    rw [exec_gchk, execGchk, withThread_of s c h]
    simp only [ha, if_true]
    exact genFault_fatal s c h hfree hh gPOISON 0 (by decide) _
  · replace hva : (c.thread.reg a + sext13 i).toNat % 8 ≠ 0 := hva
    change FreezesFatally s c _ _ _ _
    rw [exec_ldd, execLdd, genLoad_of_clean s c _ _ _ d h i a ha, State.genLoadAt, if_pos hva]
    exact genFault_fatal s c h hfree hh gMISALIGN 0 (by decide) _

end Sys2Proof.Machine
end

section
/-! PROOFS. Waits of the generator, YIELD, CQRY, and s0 (R102, R125-R134). -/

namespace Sys2Proof.Machine

/-! ### Instructions that wait (R125-R133) -/

/-- A record in the frost ring leaves a wait as it is. -/
theorem Waits.addFrost {s t : State} {c : Context} {w : GenWait} (h : Waits s c (.next t) w) (k kind : Nat) (p : BitVec 96) :
    Waits s c (.next (t.frost k kind p)) w := by
  obtain ⟨_, ht, hctx, hframe⟩ := h
  cases ht
  exact ⟨_, rfl, (State.frost_ctx ..).trans hctx, hframe.addFrost k kind p⟩

section
variable (s : State) (c : Context) (h : s.Executes c)
include h

theorem execPhaseg_waits (sc : BitVec 2) (hsc : sc ≠ 0) :
    Waits s ((c.addMarker c.thread.afterPhaseg true).beginGenPhase .phaseg sc) (execPhaseg sc s) .phaseg := by
  rw [execPhaseg, withThread_of s c h]
  simp only [if_neg hsc]
  exact (setCtx_waits s _ .phaseg).addFrost _ _ _

theorem execPhaseg_core (hi : c.intervalElapsed = false) :
    GoesOn s { c with thread := c.thread.endPhase } (execPhaseg 0 s) (c.thread.pc + 4) := by
  rw [execPhaseg, withThread_of s c h]
  simp only [if_true, hi, Bool.false_eq_true, if_false]
  exact (goOn_goesOn s { c with thread := c.thread.endPhase } _).addFrost _ _ _

theorem execSpin_waits :
    Waits s { c with sch := { c.sch with spinWait := true } } (execSpin s) (.spin (s.core c.coreKey).cycle.toNat) := by
  rw [execSpin, withThread_of s c h]
  exact setCtx_waits s { c with sch := { c.sch with spinWait := true } } _

theorem execHalt_eq : execHalt s = .next (if c.beFrozen then s.illins .halt 2 else s.setCtx s.cur { c with wait := .halt }) :=
  withThread_of s c h _

theorem execDrainq_eq :
    execDrainq s = .next (if c.beFrozen || c.management then s.illins .drainq 2 else s.setCtx s.cur { c with wait := .drainq }) :=
  withThread_of s c h _

theorem execCpost_of_clean (a d : BitVec 6) (hm : c.management = false) (ha : c.thread.regPoison a = false) :
    execCpost a d s = .next (if (c.thread.reg a).toNat % 256 ≠ 0 then s.genFault s.cur gMISALIGN 0 (c.thread.reg a)
      else (s.setCtx s.cur { c.beginGenPhase .cpost 3 with wait := .cpostPhase d.toNat (c.thread.reg a) }).frost s.cur 3
        (frostMem 9 3 0 (c.thread.reg a))) := by
  rw [execCpost, withThread_of s c h]
  simp only [hm, ha, Bool.false_eq_true, if_false]

end

/-- Settles O29: each instruction's wait, with the PHASE it begins. -/
theorem generatorWaits : Obligations.GeneratorWaits := by
  intro s c sc a d h
  rw [exec_phaseg, exec_phaseg, exec_spin, exec_halt, exec_drainq, exec_cpost]
  refine ⟨execPhaseg_waits s c h sc, execPhaseg_core s c h, execSpin_waits s c h, fun hf => ?_, fun hf hm => ?_,
    fun hf hh => ⟨?_, ?_⟩, fun hm ha hal => ?_, fun hm ha hal hh => ?_⟩
  · rw [execHalt_eq s c h, if_neg (Bool.eq_false_iff.mp hf)]
    exact setCtx_waits s c _
  · rw [execDrainq_eq s c h, if_neg (by simp [hf, hm])]
    exact setCtx_waits s c _
  · rw [execHalt_eq s c h, if_pos hf]
    exact illins_traps s c h hh .halt 2
  · rw [execDrainq_eq s c h, if_pos (by simp [hf])]
    exact illins_traps s c h hh .drainq 2
  · rw [execCpost_of_clean s c h a d hm ha, if_neg (not_not_intro hal)]
    exact (setCtx_waits s (c.beginGenPhase .cpost 3) _).addFrost _ _ _
  · rw [execCpost_of_clean s c h a d hm ha, if_pos hal]
    exact genFault_traps s c h hh gMISALIGN 0 _

/-! ### YIELD (R128) -/

/-- Settles O30: YIELD goes on, marked as yielding where its slot is wanted. -/
theorem yieldResults : Obligations.YieldResults := by
  intro s c h
  have hgo := goOn_goesOn s c (c.thread.pc + 4)
  refine ⟨fun slot hslot hw => ?_, fun hno => ?_⟩
  · have hexec : exec .yield s = .next ((s.goOn c c.thread (c.thread.pc + 4)).updCtx s.cur
        (fun c => { c with sch := { c.sch with yielding := true } })) := by
      rw [exec_yield, execYield, withThread_of s c h, hslot]
      simp only [hw, if_true]
    rw [hexec]
    obtain ⟨_, c', ht, hctx, hregs, hpc, hloops, honly, hthread, hframe⟩ := hgo
    cases ht
    refine ⟨_, { c' with sch := { c'.sch with yielding := true } }, rfl, ?_, hregs, hpc, hloops, ?_, hthread, hframe.updCtx _⟩
    · rw [State.ctx_updCtx_self, hctx]; rfl
    · rw [honly]; rfl
  · rw [exec_yield, execYield, withThread_of s c h]
    dsimp only
    split
    · rename_i slot hslot
      rw [hno slot hslot]
      exact hgo
    · exact hgo

/-! ### CQRY (R134) -/

/-- The word CQRY gives of a live handle: the state's code, and from bit 4 on the ticket's rank. -/
theorem rankWord (rank : Word) (n : Nat) (hn : n < 16) :
    BitVec.ofNat 64 (n + rank.toNat % 2 ^ 60 * 16) = rank <<< 4 ||| BitVec.ofNat 64 n := by
  apply BitVec.eq_of_toNat_eq
  rw [BitVec.toNat_or, BitVec.toNat_shiftLeft, BitVec.toNat_ofNat, BitVec.toNat_ofNat]
  have hr : rank.toNat <<< 4 % 2 ^ 64 = (rank.toNat % 2 ^ 60) <<< 4 := by
    rw [Nat.shiftLeft_eq, Nat.shiftLeft_eq]; omega
  rw [hr, Nat.mod_eq_of_lt (show n < 2 ^ 64 by omega), ← Nat.shiftLeft_add_eq_or_of_lt hn, Nat.shiftLeft_eq]
  omega

section
variable (s : State) (serac : Nat) (tenant : BitVec 16) (h : Word)

/-- The handle names a collective of its tenant. -/
def State.liveHandle (s : State) (serac : Nat) (tenant : BitVec 16) (h : Word) : Prop :=
  let p := s.posted serac (h.toNat % 2 ^ 16)
  h.toNat < 2 ^ 32 ∧ h.toNat % 2 ^ 16 < 1024 ∧ p.used = true ∧ p.hold = false ∧
    p.generation.toNat = h.toNat / 2 ^ 16 ∧ p.tenant = tenant

theorem extract_high_eq_zero : h.extractLsb' 32 32 = 0 ↔ h.toNat < 2 ^ 32 := by
  rw [← BitVec.toNat_inj, BitVec.extractLsb'_toNat, Nat.shiftRight_eq_div_pow]
  have hlt := h.isLt
  simp only [BitVec.ofNat_eq_ofNat, BitVec.toNat_ofNat]
  omega

theorem instCode_lt (x : InstState) : instCode x < 16 := by cases x <;> decide

/-- A query's first test is whether the handle is live. -/
theorem queryPost_stale_iff : (h.extractLsb' 32 32 ≠ 0 ∨ 1024 ≤ h.toNat % 2 ^ 16 ∨ (s.posted serac (h.toNat % 2 ^ 16)).used = false ∨
      (s.posted serac (h.toNat % 2 ^ 16)).hold = true ∨ (s.posted serac (h.toNat % 2 ^ 16)).generation ≠ h.extractLsb' 16 16 ∨
      (s.posted serac (h.toNat % 2 ^ 16)).tenant ≠ tenant) ↔ ¬ s.liveHandle serac tenant h := by
  have hgen (hlt : h.toNat < 2 ^ 32) (g : BitVec 16) : g ≠ h.extractLsb' 16 16 ↔ ¬ g.toNat = h.toNat / 2 ^ 16 := by
    rw [ne_eq, ← BitVec.toNat_inj, BitVec.extractLsb'_toNat, Nat.shiftRight_eq_div_pow, Nat.mod_eq_of_lt (by omega)]
  unfold State.liveHandle
  rw [ne_eq, extract_high_eq_zero]
  by_cases hlt : h.toNat < 2 ^ 32
  · rw [hgen hlt]
    simp only [hlt, not_true, false_or, true_and, not_and_or, Nat.not_lt, Bool.not_eq_true, Bool.not_eq_false, ne_eq]
  · simp only [hlt, not_false_eq_true, true_or, false_and]

theorem queryPost_of_stale (hl : ¬ s.liveHandle serac tenant h) : s.queryPost serac tenant h = 15 :=
  if_pos ((queryPost_stale_iff s serac tenant h).mpr hl)

theorem queryPost_of_live (hl : s.liveHandle serac tenant h) {x : Inst} (hx : (s.posted serac (h.toNat % 2 ^ 16)).current = some x) :
    s.queryPost serac tenant h = if instCode x.state = 0 then (0 : Word) else x.rank <<< 4 ||| BitVec.ofNat 64 (instCode x.state) := by
  unfold State.queryPost
  dsimp only
  rw [if_neg (fun hno => (queryPost_stale_iff s serac tenant h).mp hno hl), hx]
  dsimp only
  split_ifs with h0
  · rw [h0]; rfl
  · exact rankWord x.rank _ (instCode_lt x.state)

end

/-- Settles O31: a stale handle by `queryPost_of_stale`, a live one by its collective's state. -/
theorem cqryResults : Obligations.CqryResults := by
  intro s c a d h hm x p live r
  have hr {v : Word} (hv : s.queryPost (seracOfDie c.die) c.id.tenant x = v) : r v := by
    unfold r
    rw [exec_cqry, execCqry, withThread_of s c h]
    simp only [hm, Bool.false_eq_true, if_false]
    exact (setReg_goOn_writes s c d _ _ _).of_eq hv
  refine ⟨fun hl => hr (queryPost_of_stale s _ _ x hl), fun y hl hy => ?_⟩
  have hv := queryPost_of_live s _ _ x hl hy
  refine ⟨fun e => hr ?_, fun e => hr ?_, fun e => hr ?_, fun e => hr ?_, fun e => hr ?_, fun e => hr ?_⟩ <;> rw [hv, e] <;> rfl

/-! ### s0 (R102) -/

/-- A write to s0 is discarded. -/
theorem writes_zero_iff (s : State) (c : Context) (o : Out) (v next : Word) (p : Bool) : Writes s c o 0 v p next ↔ GoesOn s c o next := by
  have hregs (t t' : Thread) : t.Wrote t' 0 v p ↔ t.SameRegs t' :=
    ⟨fun h => ⟨fun x => (h.value x).trans (if_neg (by simp)), fun x => (h.tag x).trans (if_neg (by simp))⟩,
      fun h => ⟨fun x => (h.value x).trans (if_neg (by simp)).symm, fun x => (h.tag x).trans (if_neg (by simp)).symm⟩⟩
  unfold Writes GoesOn
  simp only [hregs]

theorem Writes.goesOn {s : State} {c : Context} {o : Out} {v next : Word} {p : Bool} (h : Writes s c o 0 v p next) : GoesOn s c o next :=
  (writes_zero_iff s c o v next p).mp h

/-- A load into s0 that is performed at once: only what the home's answer leaves in the context. -/
theorem genLoadAt_zero (s : State) (c : Context) (op : BitVec 6) (va : Word) (n : Nat) (signed : Bool) {loc : Loc} (hn : 0 < n)
    (hva : va.toNat % n = 0) (ht : translate s c va .genLoad = .ok loc) (hdev : loc.dev = false) (hlate : s.late = false)
    (hage : ∀ x ∈ c.thread.loads, x.age = 0) :
    GoesOn (s.cacheTranslation c va) { c with ord := (ordLoad (s.cacheTranslation c va) c.reader c.ord loc n).2.2 }
      (.next (s.genLoadAt c op va n signed 0)) (c.thread.pc + 4) := by
  obtain ⟨hnow, -, -, hc⟩ := genLoadAt_spec s c op va n signed 0 hn hva ht
  have hw := (hnow hdev hlate).goesOn
  rwa [hc hage] at hw

/-- Settles O10: the results of O7, O8, O9, O11, O15, O16 and O22 with s0 as the result register. -/
theorem zeroRegister : Obligations.ZeroRegister := by
  refine ⟨fun t => ⟨rfl, rfl⟩, writes_zero_iff, fun s c i u n b a k h => ⟨?_, ?_, ?_, fun ha hal => ?_⟩,
    fun s c i o z a loc h hlate hdev hage => ⟨fun ha ht => ?_, fun ht hal => ?_⟩, fun s c n a h => ⟨fun hc => ?_, fun hc ha h1 h2 h3 => ?_, fun hm => ?_⟩⟩
  · obtain ⟨add, sub, mul, mulh, and, or, xor, shl, shr, sra, slt, sltu, min, max, minu, maxu⟩ := aluResults.1 s c b a 0 h
    obtain ⟨⟨_, -, -, -, clz⟩, popc⟩ := aluResults.2 s c a 0 h
    obtain ⟨addi, andi, ori, xori, shli, shri, srai, slti, sltiu, lui, pcadd⟩ := immediateResults s c i n u a 0 h
    obtain ⟨-, -, lidx⟩ := loopResults.2.1 s c k 0 h
    simp only [List.forall_mem_cons, List.not_mem_nil, false_imp_iff, implies_true, and_true]
    exact ⟨add.goesOn, sub.goesOn, mul.goesOn, mulh.goesOn, and.goesOn, or.goesOn, xor.goesOn, shl.goesOn, shr.goesOn, sra.goesOn,
      slt.goesOn, sltu.goesOn, min.goesOn, max.goesOn, minu.goesOn, maxu.goesOn, clz.goesOn, popc.goesOn, addi.goesOn, andi.goesOn,
      ori.goesOn, xori.goesOn, shli.goesOn, shri.goesOn, srai.goesOn, slti.goesOn, sltiu.goesOn, lui.goesOn, pcadd.goesOn, lidx.goesOn⟩
  · obtain ⟨div, divu, rem, remu⟩ := divisionResults s c b a 0 h
    exact ⟨div.goesOn, rem.goesOn, divu.goesOn, remu.goesOn⟩
  · obtain ⟨jal, -⟩ := controlFlowResults.2 s c u i a 0 h
    exact jal.goesOn
  · obtain ⟨-, jalr, -⟩ := controlFlowResults.2 s c u i a 0 h
    exact (jalr ha hal).goesOn
  · simp only [exec_ldb, exec_ldbu, exec_ldh, exec_ldhu, exec_ldw, exec_ldwu, exec_ldd, execLdb, execLdbu, execLdh, execLdhu, execLdw,
      execLdwu, execLdd, fun op n signed => genLoad_of_clean s c op n signed 0 h i a ha]
    have r (op : BitVec 6) (n : Nat) (signed : Bool) (hn : 0 < n) (hva : _) :=
      genLoadAt_zero s c op (c.thread.reg a + sext13 i) n signed hn hva ht hdev hlate hage
    exact ⟨r _ 1 true (by decide) (Nat.mod_one _), r _ 1 false (by decide) (Nat.mod_one _),
      fun hva => ⟨r _ 2 true (by decide) hva, r _ 2 false (by decide) hva⟩,
      fun hva => ⟨r _ 4 true (by decide) hva, r _ 4 false (by decide) hva⟩, fun hva => r _ 8 false (by decide) hva⟩
  · simp only [exec_ldz, execLdz_eq s c 0 h o z]
    exact genLoadAt_zero s c _ (zrelAddr c z o) 8 false (by decide) hal ht hdev hlate hage
  · exact ((csrResults.1 s c n a 0 h).1 hc).goesOn
  · exact ((csrResults.1 s c n a 0 h).2.1 hc ha ⟨h1, h2, h3⟩).goesOn
  · rw [exec_cqry, execCqry, withThread_of s c h]
    simp only [hm, Bool.false_eq_true, if_false]
    exact (setReg_goOn_writes s c 0 _ _ _).goesOn

end Sys2Proof.Machine
end

section
/-! PROOFS. The step runs what its bytes decode to; the programs' words; reset (R1, R16, R66, R104, R259). -/

namespace Sys2Proof.Machine

/-! ### Fetching (R66, R111) -/

/-- The bytes of a 32-bit number read from memory are the bytes read. -/
theorem extract_ofNat_leNat (l : List Byte) (i : Nat) (hi : i < 4) :
    (BitVec.ofNat 32 (leNat l)).extractLsb' (8 * i) 8 = l.getD i 0 := by
  apply BitVec.eq_of_getLsbD_eq
  intro j hj
  rw [BitVec.getLsbD_extractLsb', BitVec.getLsbD_ofNat, leNat_testBit, show (8 * i + j) / 8 = i by omega,
    show (8 * i + j) % 8 = j by omega]
  simp [hj, show 8 * i + j < 32 by omega]

/-- Code is decoded from the four bytes at its place. -/
theorem instrOf_codeWord (s : State) (loc : Loc) :
    (∀ j rest, decodeBytes (s.homeBytes loc.pkg loc.pa 4) = .ok (j, rest) → instrOf (s.codeWord loc) = j) ∧
    (∀ e, decodeBytes (s.homeBytes loc.pkg loc.pa 4) = .error e →
      instrOf (s.codeWord loc) = .illegalInstruction (s.home32 loc.pkg loc.pa)) := by
  have hbyte (i : Nat) (hi : i < 4) := extract_ofNat_leNat (s.homeBytes loc.pkg loc.pa 4) i hi
  have hbytes : [(s.codeWord loc).extractLsb' 0 8, (s.codeWord loc).extractLsb' 8 8, (s.codeWord loc).extractLsb' 16 8,
      (s.codeWord loc).extractLsb' 24 8] = s.homeBytes loc.pkg loc.pa 4 := by
    unfold State.codeWord State.home32
    rw [hbyte 0 (by decide), hbyte 1 (by decide), hbyte 2 (by decide), hbyte 3 (by decide)]
    rfl
  unfold instrOf
  rw [hbytes]
  exact ⟨fun j rest h => by rw [h], fun e h => by rw [h]; rfl⟩

theorem fetchThread_of_fault (s : State) (k : Nat) (c : Context) (hk : s.ctx k = some c) {x : XFault}
    (ht : translate s c c.thread.pc .fetch = .error x) : fetchThread s k = .settled (s.genXlateFault k x true) := by
  unfold fetchThread
  rw [hk]
  dsimp only
  rw [ht]

theorem fetchThread_of_ok (s : State) (k : Nat) (c : Context) (hk : s.ctx k = some c) {loc : Loc}
    (ht : translate s c c.thread.pc .fetch = .ok loc) : fetchThread s k =
      .run (instrOf (s.codeWord loc)) { (s.loadsFor k (instrOf (s.codeWord loc))).cacheTranslation c c.thread.pc with cur := k } := by
  unfold fetchThread
  rw [hk]
  dsimp only
  rw [ht]

/-- A core's generator turn is a fetch of its next thread. -/
theorem generatorTurn_of_next (s : State) (core i k : Nat) (miss : BitVec 5) (hf : (s.core core).frozen = false)
    (hu : (s.core core).genUsed = false) (hi : nextThread s core miss = some i) (hk : threadKey s core i = some k)
    (hb : s.boundaryWork k = none) : generatorTurn s core miss = fetchThread (s.updCore core (fun r => r.countInstr i)) k := by
  unfold generatorTurn
  simp only [hf, hu, Bool.or_self, Bool.false_eq_true, if_false, hi, hk, hb]

theorem managementTurn_of_ready (s : State) (k : Nat) (c : Context) (hk : s.ctx k = some c) (hb : s.boundaryWork k = none)
    (hr : c.managementReady = true) : managementTurn s k =
      fetchThread (s.updCore c.coreKey (fun r => { r with cycle := r.cycle + (Config.seracCycles s.freeCount).setWidth 64 })) k := by
  unfold managementTurn
  simp only [hk, hb, hr, if_true]

theorem step_of_run {s t : State} {i : Instr} (h : s.turn = .run i t) : step s = exec i t := by
  rw [step, h]

theorem step_of_settled {s t : State} (h : s.turn = .settled t) : step s = .next t := by
  rw [step, h]

/-! ### Slot words (R65) -/

/-- Every instruction with a slot encoding runs as the slot operation of its name. -/
theorem exec_eq_slotOp (s : State) (i : Instr) (h : (encodeSlot i).isSome = true) : exec i s = slotOp i s := by
  cases i with
  | nop | fmtset | qcfgSlack | qcfgPort | stepReg | waitw | sadv | mwait | ckpt | prog | sync | vld | vst | vldg | vldgs | vstg | vgth
  | vgths | vsct | phase | pftch | fill | fills | feed | feedt | drain | addw | rput | cresm | cclr | aadd | amin | amax | aand | aor
  | axor | aswp | acas | red | arv | arvd | bwait | btest | sig | swait | uli | sfence | brst | mma | mld | mldt | mst | mstq | mclr
  | macc | vadd | vsub | vmul | vfma | vfms | vmin | vmax | vabs | vneg | vrcp | vrsq | vexp2 | vdiv | vand | vor | vxor | vnot | vshl
  | vshr | vsra | vshli | vshri | vmulh | vclz | vwadd | vwacc | vwmul | vcmp | vsel | qop | vcvt | vqnt | vdqnt | vscan | vred | vperm
  | vbcst | vshfl | viota | vmov | vmovi | vldi | vchk | vclrp | vstat => rfl
  | _ => exact absurd h Bool.false_ne_true

theorem issueWord_of_decode (s t : State) (n : Nat) (w : Word) (i : Instr) (hd : decodeSlot (slotOfIndex n) w = .ok i)
    (he : exec i s = .next t) : s.issueWord (n, w) = t := by
  have hslot := exec_eq_slotOp s i (by rw [(encodeDecode.2 _ w i hd).2]; rfl)
  unfold State.issueWord State.runSlot
  rw [hd]
  dsimp only
  rw [← hslot, he]

/-- Settles O1: a turn that fetches runs what the four bytes decode to; an event runs itself. -/
theorem stepRunsDecoded : Obligations.StepRunsDecoded := by
  refine ⟨?_, ?_, fun s i hm he hd => ?_, fun s i hm hd => ?_, issueWord_of_decode⟩
  · intro s core i k miss late c hm b hf hu hi hk hc hb u
    have hturn : s.turn = fetchThread u k := by
      unfold State.turn
      rw [hm]
      exact generatorTurn_of_next b core i k miss hf hu hi hk hb
    refine ⟨fun x hx => step_of_settled (hturn.trans (fetchThread_of_fault u k c hc hx)), ?_⟩
    · intro loc ht t
      have hrun := step_of_run (hturn.trans (fetchThread_of_ok u k c hc ht))
      obtain ⟨hok, hillegal⟩ := instrOf_codeWord u loc
      exact ⟨fun j rest hd => by rw [hok j rest hd] at hrun; exact hrun, fun e hd => by rw [hillegal e hd] at hrun; exact hrun⟩
  · intro s k late c loc hm b u hc hb hr ht j rest hd
    have hturn : s.turn = fetchThread u k := by
      unfold State.turn
      rw [hm]
      exact managementTurn_of_ready b k c hc hb hr
    have hrun := step_of_run (hturn.trans (fetchThread_of_ok u k c hc ht))
    rw [(instrOf_codeWord u loc).1 j rest hd] at hrun
    exact hrun
  · refine step_of_run ?_
    unfold State.turn
    rw [hm]
    dsimp only
    rw [he, hd]
    rfl
  · refine step_of_settled ?_
    unfold State.turn
    rw [hm]
    dsimp only
    rw [hd, Bool.and_false]
    rfl

/-- Settles O2: by decoding each word. -/
theorem decodeWords : Obligations.DecodeWords :=
  ⟨rfl, rfl, rfl, rfl, rfl, rfl, rfl, rfl, rfl, rfl, rfl⟩

/-- Settles O5: by reading the reset state, whose maps are empty. -/
theorem resetState : Obligations.ResetState := by
  refine ⟨fun k => ?_, fun k => ?_, fun k => ?_, rfl⟩
  · have hcore : State.reset.core k = Core.reset := rfl
    rw [hcore]
    exact ⟨rfl, rfl, rfl, rfl, rfl, rfl, rfl, rfl, rfl, rfl, rfl, rfl, rfl, rfl, rfl⟩
  · exact ⟨rfl, rfl, rfl, rfl, rfl, rfl, rfl, rfl, rfl, rfl, rfl, rfl, fun p => ⟨rfl, rfl, rfl, rfl⟩, fun n => ⟨rfl, rfl, rfl, rfl, rfl, rfl⟩⟩
  · exact ⟨rfl, rfl, rfl, fun p => ⟨rfl, rfl, rfl, rfl, rfl⟩⟩

end Sys2Proof.Machine
end

section
/-! PROOFS. Every step keeps the memory's canonical form: a lemma per function of the model, in the order of its files. -/

namespace Sys2Proof.Machine

/-- An answer whose next state keeps the canonical form. -/
def OutWf (o : Out) : Prop := ∀ t, o = .next t → Memory.wf t.mem = true

@[simp] theorem outWf_next (t : State) : OutWf (.next t) ↔ Memory.wf t.mem = true :=
  ⟨fun h => h t rfl, fun h _ e => by cases e; exact h⟩

theorem outWf_ite (p : Prop) [Decidable p] {a b : Out} (ha : OutWf a) (hb : OutWf b) : OutWf (if p then a else b) := by
  split <;> assumption

@[simp] theorem ite_wf (p : Prop) [Decidable p] (a b : List Host.Cell) (ha : Memory.wf a = true) (hb : Memory.wf b = true) :
    Memory.wf (if p then a else b) = true := by split <;> assumption

@[simp] theorem foldl_wf {α : Type} (f : State → α → State) (hf : ∀ t i, Memory.wf t.mem = true → Memory.wf (f t i).mem = true) (l : List α)
    {s : State} (h : Memory.wf s.mem = true) : Memory.wf (l.foldl f s).mem = true := foldl_memWf f hf l h

theorem withThread_wf {s : State} (f : Context → State) (hf : ∀ c, Memory.wf (f c).mem = true) : OutWf (withThread s f) := by
  unfold withThread
  split
  · intro t e; cases e
  · intro t e; cases e; exact hf _

theorem withSlot_wf {s : State} (f : SlotEnv → Context → State) (hf : ∀ env c, Memory.wf (f env c).mem = true) : OutWf (withSlot s f) := by
  unfold withSlot
  repeat' split
  · intro t e; cases e
  · intro t e; cases e
  · intro t e; cases e; exact hf _ _

theorem atCtx_wf {s : State} (k : Nat) (f : Context → State) (h : Memory.wf s.mem = true) (hf : ∀ c, s.ctx k = some c → Memory.wf (f c).mem = true) :
    OutWf (atCtx s k f) := by
  unfold atCtx
  split
  · exact (outWf_next s).mpr h
  · exact (outWf_next _).mpr (hf _ ‹_›)

theorem atCore_wf {s : State} (k : Nat) (f : Context → State) (h : Memory.wf s.mem = true) (hf : ∀ c, Memory.wf (f c).mem = true) :
    OutWf (atCore s k f) :=
  atCtx_wf k _ h fun c _ => by split <;> [exact h; exact hf c]

theorem atChannel_wf {s : State} (k ch : Nat) (f : Context → CopyOp → State) (h : Memory.wf s.mem = true) (hf : ∀ c o, Memory.wf (f c o).mem = true) :
    OutWf (atChannel s k ch f) := by
  unfold atChannel
  repeat' split
  all_goals simp [h, hf]

theorem atMatrix_wf {s : State} (k n : Nat) (f : Context → MtxOp → State) (h : Memory.wf s.mem = true) (hf : ∀ c o, Memory.wf (f c o).mem = true) :
    OutWf (atMatrix s k n f) := by
  unfold atMatrix
  split
  · exact (outWf_next s).mpr h
  split
  · exact (outWf_next s).mpr h
  · refine (outWf_next _).mpr ?_
    split
    · exact h
    · exact hf ..

@[simp] theorem ite_mem (p : Prop) [Decidable p] (a b : State) : (if p then a else b).mem = if p then a.mem else b.mem := by split <;> rfl

theorem foldl_mem {α : Type} (f : State → α → State) (hf : ∀ t i, (f t i).mem = t.mem) (l : List α) (s : State) :
    (l.foldl f s).mem = s.mem := by
  induction l generalizing s with
  | nil => rfl
  | cons i l ih => exact (ih _).trans (hf s i)

@[simp] theorem State.homeWriteLine_wf {s : State} (pkg line : Nat) (mask : BitVec 64) (data : Line) (p g : Bool) (h : Memory.wf s.mem = true) :
    Memory.wf (s.homeWriteLine pkg line mask data p g).mem = true := State.homeWriteLine_memWf pkg line mask data p g h

@[simp] theorem State.homeWriteBytes_wf {s : State} (pkg pa : Nat) (b : List Byte) (p g : Bool) (h : Memory.wf s.mem = true) :
    Memory.wf (s.homeWriteBytes pkg pa b p g).mem = true := State.homeWriteBytes_memWf pkg pa b p g h

/-! ### Ops -/

@[simp] theorem State.performLoads_mem (s : State) (k : Nat) : (s.performLoads k).mem = s.mem := by
  unfold State.performLoads
  simp

@[simp] theorem State.frostIn_mem (s : State) (k kind : Nat) (payload : BitVec 96) (rank : Nat) :
    (s.frostIn k kind payload rank).mem = s.mem := by
  unfold State.frostIn
  (repeat' split) <;> simp

@[simp] theorem State.setFaultPage_mem (s : State) (p : FaultPort) (f : FaultPage) : (s.setFaultPage p f).mem = s.mem := by
  unfold State.setFaultPage
  (repeat' split) <;> simp

@[simp] theorem State.updFaultPage_mem (s : State) (p : FaultPort) (f : FaultPage → FaultPage) : (s.updFaultPage p f).mem = s.mem := by
  unfold State.updFaultPage
  simp

@[simp] theorem State.passCycles_mem (s : State) (x_ : FaultPort) : (s.passCycles x_).mem = s.mem := by
  unfold State.passCycles
  (repeat' split) <;> simp

@[simp] theorem State.report_mem (s : State) (serac fn : Nat) (b : List Byte) : (s.report serac fn b).mem = s.mem := rfl

@[simp] theorem State.forward_mem (s : State) (p : FaultPort) (event : Nat) (b : List Byte) : (s.forward p event b).mem = s.mem := by
  unfold State.forward
  (repeat' split) <;> simp

@[simp] theorem State.post_wf (s : State) (p : FaultPort) (event who : Nat) (d1 d2 : Word) (hs : Memory.wf s.mem = true) :
    Memory.wf (s.post p event who d1 d2).mem = true := by
  unfold State.post
  simp [hs]

@[simp] theorem State.writeFaultEntry_wf (s : State) (p : FaultPort) (e : FaultEntry) (hs : Memory.wf s.mem = true) :
    Memory.wf (s.writeFaultEntry p e).mem = true := by
  unfold State.writeFaultEntry
  simp [hs]

@[simp] theorem State.queueFault_wf (s : State) (p : FaultPort) (e : FaultEntry) (hs : Memory.wf s.mem = true) :
    Memory.wf (s.queueFault p e).mem = true := by
  unfold State.queueFault
  simp [hs]

@[simp] theorem State.dumpEvent_wf (s : State) (k : Nat) (c : Context) (f : Freeze) (code : Nat) (seq : Option Word) (hs : Memory.wf s.mem
    = true) :
    Memory.wf (s.dumpEvent k c f code seq).mem = true := by
  unfold State.dumpEvent
  dsimp only
  split <;> simp [hs]

@[simp] theorem State.freezeAnew_mem (s : State) (k : Nat) (c : Context) (cause : TrapCause) (fatal : Bool) :
    (s.freezeAnew k c cause fatal).mem = s.mem := rfl

@[simp] theorem State.beginFreeze_wf (s : State) (k : Nat) (cause : TrapCause) (fatal : Bool) (hs : Memory.wf s.mem = true) :
    Memory.wf (s.beginFreeze k cause fatal).mem = true := by
  unfold State.beginFreeze
  (repeat' split) <;> simp [hs]

@[simp] theorem State.takeTrap_wf (s : State) (k : Nat) (code sub : Nat) (tpc tval : Word) (fetch : Bool) (hs : Memory.wf s.mem = true) :
    Memory.wf (s.takeTrap k code sub tpc tval fetch).mem = true := by
  unfold State.takeTrap
  dsimp only
  split <;> simp [hs]

@[simp] theorem State.genFault_wf (s : State) (k : Nat) (code sub : Nat) (tval : Word) (hs : Memory.wf s.mem = true) :
    Memory.wf (s.genFault k code sub tval).mem = true := by
  unfold State.genFault
  (repeat' split) <;> simp [hs]

@[simp] theorem State.genXlateFault_wf (s : State) (k : Nat) (x : XFault) (fetch : Bool) (hs : Memory.wf s.mem = true) :
    Memory.wf (s.genXlateFault k x fetch).mem = true := by
  unfold State.genXlateFault
  (repeat' split) <;> simp [hs]

@[simp] theorem State.setUlipend_mem (s : State) (k v : Nat) : (s.setUlipend k v).mem = s.mem := by
  unfold State.setUlipend
  simp

/-! ### Traps -/

@[simp] theorem State.releasePost_mem (s : State) (c : Context) : (s.releasePost c).mem = s.mem := by
  unfold State.releasePost
  dsimp only
  split <;> simp

@[simp] theorem State.bundleTrap_wf (s : State) (k : Nat) (hs : Memory.wf s.mem = true) : Memory.wf (s.bundleTrap k).mem = true := by
  unfold State.bundleTrap
  (repeat' split) <;> simp [hs]

@[simp] theorem State.deliverUli_mem (s : State) (k : Nat) : (s.deliverUli k).mem = s.mem := by
  unfold State.deliverUli
  dsimp only
  split <;> simp

@[simp] theorem State.boundaryWork_wf (s : State) (k : Nat) (hs : Memory.wf s.mem = true) :
    ∀ t, s.boundaryWork k = some t → Memory.wf t.mem = true := by
  unfold State.boundaryWork
  (repeat' split) <;> simp [hs]

/-! ### Gen -/

@[simp] theorem State.goOn_mem (s : State) (c : Context) (t : Thread) (next : Word) : (s.goOn c t next).mem = s.mem := rfl

@[simp] theorem genWrite_wf (s : State) (d : BitVec 6) (f : Thread → Word × Bool) (hs : Memory.wf s.mem = true) :
    OutWf (genWrite s d f) := by
  unfold genWrite
  refine withThread_wf _ fun c => ?_
  simp [hs]

@[simp] theorem genAlu_wf (s : State) (d a b : BitVec 6) (f : Word → Word → Word) (hs : Memory.wf s.mem = true) :
    OutWf (genAlu s d a b f) := by
  unfold genAlu
  simp [hs]

@[simp] theorem genUnary_wf (s : State) (d a : BitVec 6) (f : Word → Word) (hs : Memory.wf s.mem = true) : OutWf (genUnary s d a f) := by
  unfold genUnary
  simp [hs]

@[simp] theorem genDiv_wf (s : State) (d a b : BitVec 6) (f : Word → Word → Word) (magnitude : Word → Nat) (hs : Memory.wf s.mem = true) :
    OutWf (genDiv s d a b f magnitude) := by
  unfold genDiv
  refine withThread_wf _ fun c => ?_
  simp [hs]

@[simp] theorem State.illins_wf (s : State) (i : Instr) (sub : Nat) (hs : Memory.wf s.mem = true) :
    Memory.wf (s.illins i sub).mem = true := by
  unfold State.illins
  simp [hs]

@[simp] theorem State.poisonUse_wf (s : State) (hs : Memory.wf s.mem = true) : Memory.wf (s.poisonUse).mem = true := by
  unfold State.poisonUse
  simp [hs]

@[simp] theorem genBranch_wf (s : State) (a b : BitVec 6) (i : BitVec 13) (cond : Word → Word → Bool) (hs : Memory.wf s.mem = true) :
    OutWf (genBranch s a b i cond) := by
  unfold genBranch
  refine withThread_wf _ fun c => ?_
  simp [hs]

@[simp] theorem State.pushLoop_wf (s : State) (c : Context) (n : Word) (l : Nat) (hs : Memory.wf s.mem = true) :
    Memory.wf (s.pushLoop c n l).mem = true := by
  unfold State.pushLoop
  dsimp only
  split <;> simp [hs]

/-! ### Alu -/

@[simp] theorem execAdd_wf (b a d : BitVec 6) (s : State) (hs : Memory.wf s.mem = true) : OutWf (execAdd b a d s) := genAlu_wf _ _ _ _ _ hs

@[simp] theorem execSub_wf (b a d : BitVec 6) (s : State) (hs : Memory.wf s.mem = true) : OutWf (execSub b a d s) := genAlu_wf _ _ _ _ _ hs

@[simp] theorem execMul_wf (b a d : BitVec 6) (s : State) (hs : Memory.wf s.mem = true) : OutWf (execMul b a d s) := genAlu_wf _ _ _ _ _ hs

@[simp] theorem execMulh_wf (b a d : BitVec 6) (s : State) (hs : Memory.wf s.mem = true) :
    OutWf (execMulh b a d s) := genAlu_wf _ _ _ _ _ hs

@[simp] theorem execDiv_wf (b a d : BitVec 6) (s : State) (hs : Memory.wf s.mem = true) :
    OutWf (execDiv b a d s) := genDiv_wf _ _ _ _ _ _ hs

@[simp] theorem execDivu_wf (b a d : BitVec 6) (s : State) (hs : Memory.wf s.mem = true) :
    OutWf (execDivu b a d s) := genDiv_wf _ _ _ _ _ _ hs

@[simp] theorem execRem_wf (b a d : BitVec 6) (s : State) (hs : Memory.wf s.mem = true) :
    OutWf (execRem b a d s) := genDiv_wf _ _ _ _ _ _ hs

@[simp] theorem execRemu_wf (b a d : BitVec 6) (s : State) (hs : Memory.wf s.mem = true) :
    OutWf (execRemu b a d s) := genDiv_wf _ _ _ _ _ _ hs

@[simp] theorem execAnd_wf (b a d : BitVec 6) (s : State) (hs : Memory.wf s.mem = true) : OutWf (execAnd b a d s) := genAlu_wf _ _ _ _ _ hs

@[simp] theorem execOr_wf (b a d : BitVec 6) (s : State) (hs : Memory.wf s.mem = true) : OutWf (execOr b a d s) := genAlu_wf _ _ _ _ _ hs

@[simp] theorem execXor_wf (b a d : BitVec 6) (s : State) (hs : Memory.wf s.mem = true) : OutWf (execXor b a d s) := genAlu_wf _ _ _ _ _ hs

@[simp] theorem execShl_wf (b a d : BitVec 6) (s : State) (hs : Memory.wf s.mem = true) : OutWf (execShl b a d s) := genAlu_wf _ _ _ _ _ hs

@[simp] theorem execShr_wf (b a d : BitVec 6) (s : State) (hs : Memory.wf s.mem = true) : OutWf (execShr b a d s) := genAlu_wf _ _ _ _ _ hs

@[simp] theorem execSra_wf (b a d : BitVec 6) (s : State) (hs : Memory.wf s.mem = true) : OutWf (execSra b a d s) := genAlu_wf _ _ _ _ _ hs

@[simp] theorem execSlt_wf (b a d : BitVec 6) (s : State) (hs : Memory.wf s.mem = true) : OutWf (execSlt b a d s) := genAlu_wf _ _ _ _ _ hs

@[simp] theorem execSltu_wf (b a d : BitVec 6) (s : State) (hs : Memory.wf s.mem = true) :
    OutWf (execSltu b a d s) := genAlu_wf _ _ _ _ _ hs

@[simp] theorem execMin_wf (b a d : BitVec 6) (s : State) (hs : Memory.wf s.mem = true) : OutWf (execMin b a d s) := genAlu_wf _ _ _ _ _ hs

@[simp] theorem execMax_wf (b a d : BitVec 6) (s : State) (hs : Memory.wf s.mem = true) : OutWf (execMax b a d s) := genAlu_wf _ _ _ _ _ hs

@[simp] theorem execMinu_wf (b a d : BitVec 6) (s : State) (hs : Memory.wf s.mem = true) :
    OutWf (execMinu b a d s) := genAlu_wf _ _ _ _ _ hs

@[simp] theorem execMaxu_wf (b a d : BitVec 6) (s : State) (hs : Memory.wf s.mem = true) :
    OutWf (execMaxu b a d s) := genAlu_wf _ _ _ _ _ hs

@[simp] theorem execClz_wf (a d : BitVec 6) (s : State) (hs : Memory.wf s.mem = true) : OutWf (execClz a d s) := genUnary_wf _ _ _ _ hs

@[simp] theorem execPopc_wf (a d : BitVec 6) (s : State) (hs : Memory.wf s.mem = true) : OutWf (execPopc a d s) := genUnary_wf _ _ _ _ hs

@[simp] theorem execAddi_wf (i : BitVec 13) (a d : BitVec 6) (s : State) (hs : Memory.wf s.mem = true) :
    OutWf (execAddi i a d s) := genUnary_wf _ _ _ _ hs

@[simp] theorem execAndi_wf (i : BitVec 13) (a d : BitVec 6) (s : State) (hs : Memory.wf s.mem = true) :
    OutWf (execAndi i a d s) := genUnary_wf _ _ _ _ hs

@[simp] theorem execOri_wf (i : BitVec 13) (a d : BitVec 6) (s : State) (hs : Memory.wf s.mem = true) :
    OutWf (execOri i a d s) := genUnary_wf _ _ _ _ hs

@[simp] theorem execXori_wf (i : BitVec 13) (a d : BitVec 6) (s : State) (hs : Memory.wf s.mem = true) :
    OutWf (execXori i a d s) := genUnary_wf _ _ _ _ hs

@[simp] theorem execShli_wf (i a d : BitVec 6) (s : State) (hs : Memory.wf s.mem = true) :
    OutWf (execShli i a d s) := genUnary_wf _ _ _ _ hs

@[simp] theorem execShri_wf (i a d : BitVec 6) (s : State) (hs : Memory.wf s.mem = true) :
    OutWf (execShri i a d s) := genUnary_wf _ _ _ _ hs

@[simp] theorem execSrai_wf (i a d : BitVec 6) (s : State) (hs : Memory.wf s.mem = true) :
    OutWf (execSrai i a d s) := genUnary_wf _ _ _ _ hs

@[simp] theorem execSlti_wf (i : BitVec 13) (a d : BitVec 6) (s : State) (hs : Memory.wf s.mem = true) :
    OutWf (execSlti i a d s) := genUnary_wf _ _ _ _ hs

@[simp] theorem execSltiu_wf (i : BitVec 13) (a d : BitVec 6) (s : State) (hs : Memory.wf s.mem = true) :
    OutWf (execSltiu i a d s) := genUnary_wf _ _ _ _ hs

@[simp] theorem execLui_wf (i : BitVec 19) (d : BitVec 6) (s : State) (hs : Memory.wf s.mem = true) :
    OutWf (execLui i d s) := genWrite_wf _ _ _ hs

@[simp] theorem execPcadd_wf (i : BitVec 19) (d : BitVec 6) (s : State) (hs : Memory.wf s.mem = true) :
    OutWf (execPcadd i d s) := genWrite_wf _ _ _ hs

/-! ### Branch -/

@[simp] theorem execBeq_wf (i : BitVec 13) (b a : BitVec 6) (s : State) (hs : Memory.wf s.mem = true) :
    OutWf (execBeq i b a s) := genBranch_wf _ _ _ _ _ hs

@[simp] theorem execBne_wf (i : BitVec 13) (b a : BitVec 6) (s : State) (hs : Memory.wf s.mem = true) :
    OutWf (execBne i b a s) := genBranch_wf _ _ _ _ _ hs

@[simp] theorem execBlt_wf (i : BitVec 13) (b a : BitVec 6) (s : State) (hs : Memory.wf s.mem = true) :
    OutWf (execBlt i b a s) := genBranch_wf _ _ _ _ _ hs

@[simp] theorem execBge_wf (i : BitVec 13) (b a : BitVec 6) (s : State) (hs : Memory.wf s.mem = true) :
    OutWf (execBge i b a s) := genBranch_wf _ _ _ _ _ hs

@[simp] theorem execBltu_wf (i : BitVec 13) (b a : BitVec 6) (s : State) (hs : Memory.wf s.mem = true) :
    OutWf (execBltu i b a s) := genBranch_wf _ _ _ _ _ hs

@[simp] theorem execBgeu_wf (i : BitVec 13) (b a : BitVec 6) (s : State) (hs : Memory.wf s.mem = true) :
    OutWf (execBgeu i b a s) := genBranch_wf _ _ _ _ _ hs

@[simp] theorem execJal_wf (i : BitVec 19) (d : BitVec 6) (s : State) (hs : Memory.wf s.mem = true) : OutWf (execJal i d s) := by
  unfold execJal
  refine withThread_wf _ fun c => ?_
  simp [hs]

@[simp] theorem execJalr_wf (i : BitVec 13) (a d : BitVec 6) (s : State) (hs : Memory.wf s.mem = true) : OutWf (execJalr i a d s) := by
  unfold execJalr
  refine withThread_wf _ fun c => ?_
  dsimp only
  split <;> simp [hs]

@[simp] theorem execLoop_wf (l : BitVec 13) (cnt : BitVec 6) (s : State) (hs : Memory.wf s.mem = true) : OutWf (execLoop l cnt s) := by
  unfold execLoop
  refine withThread_wf _ fun c => ?_
  simp [hs]

@[simp] theorem execLoopi_wf (n : BitVec 19) (l : BitVec 6) (s : State) (hs : Memory.wf s.mem = true) : OutWf (execLoopi n l s) := by
  unfold execLoopi
  refine withThread_wf _ fun c => ?_
  simp [hs]

@[simp] theorem execLbrk_wf (s : State) (hs : Memory.wf s.mem = true) : OutWf (execLbrk s) := by
  unfold execLbrk
  refine withThread_wf _ fun c => ?_
  dsimp only
  split <;> simp [hs]

@[simp] theorem execLidx_wf (k : BitVec 3) (d : BitVec 6) (s : State) (hs : Memory.wf s.mem = true) :
    OutWf (execLidx k d s) := genWrite_wf _ _ _ hs

/-! ### Operands -/

@[simp] theorem State.addActs_mem (s : State) (a : List CommitAct) : (s.addActs a).mem = s.mem := rfl

@[simp] theorem State.holdSlot_mem (s : State) (cause : Nat) : (s.holdSlot cause).mem = s.mem := rfl

@[simp] theorem State.slotFault_mem (s : State) (f : BFault) : (s.slotFault f).mem = s.mem := rfl

@[simp] theorem State.slotXlate_mem (s : State) (slot : Nat) (x : XFault) : (s.slotXlate slot x).mem = s.mem := rfl

/-! ### Engines -/

@[simp] theorem State.holdIf_mem (s : State) (cond : Bool) (cause : Nat) : (s.holdIf cond cause).mem = s.mem := by
  unfold State.holdIf
  simp

/-! ### Lines -/

@[simp] theorem State.writeLog_wf (s : State) (k : Nat) (c : Context) (hs : Memory.wf s.mem = true) : Memory.wf (s.writeLog k c).mem = true := by
  unfold State.writeLog
  dsimp only
  split
  · exact hs
  · exact foldl_wf _ (fun t x ht => State.homeWriteBytes_wf _ _ _ _ _ ht) _ hs

@[simp] theorem State.ownWritten_mem (s : State) (c : Context) (l : Loc) : (s.ownWritten c l).mem = s.mem := by
  unfold State.ownWritten
  simp

@[simp] theorem State.writeLine_mem (s : State) (k idx buf tile line : Nat) (f : BufLine → BufLine) :
    (s.writeLine k idx buf tile line f).mem = s.mem := by
  unfold State.writeLine
  dsimp only
  split <;> simp

@[simp] theorem State.writeTile_mem (s : State) (k idx buf tile off : Nat) (b : List Byte) (poison : Nat → Bool)  : (s.writeTile k idx buf tile off b poison).mem = s.mem := by
  unfold State.writeTile
  split
  · rfl
  · exact foldl_mem _ (fun t i => by simp) _ s

@[simp] theorem State.tileOor_mem (s : State) (k idx buf tile row byte : Nat) : (s.tileOor k idx buf tile row byte).mem = s.mem := by
  unfold State.tileOor
  simp

@[simp] theorem State.setStatus_mem (s : State) (k idx tile : Nat) (f : Nat → Nat) : (s.setStatus k idx tile f).mem = s.mem := by
  unfold State.setStatus
  simp

/-! ### Mem -/

@[simp] theorem State.checkCTile_mem (s : State) (env : SlotEnv) (c : Context) (tile : Nat) : (s.checkCTile env c tile).mem = s.mem := by
  unfold State.checkCTile
  dsimp only
  split <;> simp

@[simp] theorem execVld_wf (w : MemBuf) (s : State) (hs : Memory.wf s.mem = true) : OutWf (execVld w s) := by
  unfold execVld
  refine withSlot_wf _ fun env c => ?_
  simp [hs]

@[simp] theorem execVst_wf (w : MemBuf) (s : State) (hs : Memory.wf s.mem = true) : OutWf (execVst w s) := by
  unfold execVst
  refine withSlot_wf _ fun env c => ?_
  simp [hs]

@[simp] theorem State.globLine_mem (s : State) (c : Context) (w : MemGlob) : (s.globLine c w).1.mem = s.mem := by
  unfold State.globLine
  simp

@[simp] theorem State.takeLanding_mem (s : State) (env : SlotEnv) (kind v arr : Nat) (mask : BitVec 64) (todo : List LoadPart) (phaseNo :
    Nat) :
    (s.takeLanding env kind v arr mask todo phaseNo).mem = s.mem := by
  unfold State.takeLanding
  dsimp only
  split <;> simp

@[simp] theorem State.cacheElements_mem (s : State) (c : Context) (l : List Element)  : (s.cacheElements c l).mem = s.mem := by
  unfold State.cacheElements
  rw [foldl_mem]
  intro t e
  rw [foldl_mem]
  intro u p
  exact State.cacheTranslation_mem u c p.1

@[simp] theorem frostMemSlot_mem (s : State) (env : SlotEnv) (op : BitVec 6) (va : Word) : (frostMemSlot s env op va).mem = s.mem := by
  unfold frostMemSlot
  simp

@[simp] theorem globalLoad_wf (s : State) (w : MemGlob) (spec : Bool) (hs : Memory.wf s.mem = true) : OutWf (globalLoad s w spec) := by
  unfold globalLoad
  refine withSlot_wf _ fun env c => ?_
  dsimp only
  split <;> simp [hs]

@[simp] theorem gather_wf (s : State) (w : MemGath) (spec : Bool) (hs : Memory.wf s.mem = true) : OutWf (gather s w spec) := by
  unfold gather
  refine withSlot_wf _ fun env c => ?_
  dsimp only
  split <;> simp [hs]

@[simp] theorem execVldg_wf (w : MemGlob) (s : State) (hs : Memory.wf s.mem = true) : OutWf (execVldg w s) := globalLoad_wf _ _ _ hs

@[simp] theorem execVldgs_wf (w : MemGlob) (s : State) (hs : Memory.wf s.mem = true) : OutWf (execVldgs w s) := globalLoad_wf _ _ _ hs

@[simp] theorem execVgth_wf (w : MemGath) (s : State) (hs : Memory.wf s.mem = true) : OutWf (execVgth w s) := gather_wf _ _ _ hs

@[simp] theorem execVgths_wf (w : MemGath) (s : State) (hs : Memory.wf s.mem = true) : OutWf (execVgths w s) := gather_wf _ _ _ hs

@[simp] theorem execVstg_wf (w : MemGlob) (s : State) (hs : Memory.wf s.mem = true) : OutWf (execVstg w s) := by
  unfold execVstg
  refine withSlot_wf _ fun env c => ?_
  dsimp only
  split <;> simp [hs]

@[simp] theorem execVsct_wf (w : MemGath) (s : State) (hs : Memory.wf s.mem = true) : OutWf (execVsct w s) := by
  unfold execVsct
  refine withSlot_wf _ fun env c => ?_
  dsimp only
  split <;> simp [hs]

@[simp] theorem execPhase_wf (s : State) (hs : Memory.wf s.mem = true) : OutWf (execPhase s) := by
  unfold execPhase
  refine withSlot_wf _ fun env c => ?_
  simp [hs]

@[simp] theorem execPftch_wf (w : MemGlob) (s : State) (hs : Memory.wf s.mem = true) : OutWf (execPftch w s) := by
  unfold execPftch
  refine withSlot_wf _ fun env c => ?_
  simp [hs]

/-! ### Composer -/

@[simp] theorem execBset_wf (a : BitVec 6) (slot : BitVec 3) (s : State) (hs : Memory.wf s.mem = true) : OutWf (execBset a slot s) := by
  unfold execBset
  refine withThread_wf _ fun c => ?_
  simp [hs]

@[simp] theorem execBfld_wf (a n p : BitVec 6) (slot : BitVec 3) (s : State) (hs : Memory.wf s.mem = true) :
    OutWf (execBfld a n p slot s) := by
  unfold execBfld
  refine withThread_wf _ fun c => ?_
  simp [hs]

@[simp] theorem State.templateFault_wf (s : State) (misaligned : Bool) (off : Word) (hs : Memory.wf s.mem = true) :
    Memory.wf (s.templateFault misaligned off).mem = true := by
  unfold State.templateFault
  simp [hs]

@[simp] theorem execBldt_wf (o : BitVec 13) (a : BitVec 6) (slot : BitVec 3) (s : State) (hs : Memory.wf s.mem = true) :
    OutWf (execBldt o a slot s) := by
  unfold execBldt
  refine withThread_wf _ fun c => ?_
  dsimp only
  (repeat' split) <;> simp [hs]

@[simp] theorem execBhdr_wf (a : BitVec 6) (s : State) (hs : Memory.wf s.mem = true) : OutWf (execBhdr a s) := by
  unfold execBhdr
  refine withThread_wf _ fun c => ?_
  dsimp only
  split <;> simp [hs]

@[simp] theorem State.stallQueue_mem (s : State) (c : Context) : (s.stallQueue c).mem = s.mem := rfl

@[simp] theorem noQueue_wf (s : State) (c : Context) (i : Instr) (k : State) (hs : Memory.wf s.mem = true) (hk : Memory.wf k.mem = true) :
    Memory.wf (noQueue s c i k).mem = true := by
  unfold noQueue
  split
  · simp [hs]
  · exact hk

@[simp] theorem State.push_mem (s : State) (c : Context) (hdr : BitVec 32) (words : SMap Word) : (s.push c hdr words).mem = s.mem := by
  unfold State.push
  simp

@[simp] theorem State.pushOrStall_mem (s : State) (c : Context) (hdr : BitVec 32) (words : SMap Word) :
    (s.pushOrStall c hdr words).mem = s.mem := by
  unfold State.pushOrStall
  simp

@[simp] theorem execEmit_wf (c : BitVec 1) (h : BitVec 1) (sc : BitVec 2) (p : BitVec 1) (r : BitVec 8) (m : BitVec 7) (s : State) (hs :
    Memory.wf s.mem = true) :
    OutWf (execEmit c h sc p r m s) := by
  unfold execEmit
  refine withThread_wf _ fun c => ?_
  dsimp only
  (repeat' split) <;> simp [hs]

@[simp] theorem execEmitm_wf (o : BitVec 13) (a : BitVec 6) (s : State) (hs : Memory.wf s.mem = true) : OutWf (execEmitm o a s) := by
  unfold execEmitm
  refine withThread_wf _ fun c => ?_
  dsimp only
  (repeat' split) <;> simp [hs]

@[simp] theorem execNset_wf (a : BitVec 6) (f : BitVec 5) (n : BitVec 4) (s : State) (hs : Memory.wf s.mem = true) :
    OutWf (execNset a f n s) := by
  unfold execNset
  refine withThread_wf _ fun c => ?_
  dsimp only
  (repeat' split) <;> simp [hs]

/-! ### Copy -/

@[simp] theorem State.copyDeclined_wf (s : State) (k ch : Nat) (hs : Memory.wf s.mem = true) :
    Memory.wf (s.copyDeclined k ch).mem = true := by
  unfold State.copyDeclined
  (repeat' split) <;> simp [hs]

@[simp] theorem State.suspendCopy_wf (s : State) (k : Nat) (o : CopyOp) (cause : BitVec 8) (x : XFault) (hs : Memory.wf s.mem = true) :
    Memory.wf (s.suspendCopy k o cause x).mem = true := by
  unfold State.suspendCopy
  (repeat' split) <;> simp [hs]

@[simp] theorem State.completeCopy_mem (s : State) (k : Nat) (o : CopyOp) : (s.completeCopy k o).mem = s.mem := by
  unfold State.completeCopy
  dsimp only
  split <;> simp

@[simp] theorem State.chunkDone_mem (s : State) (k : Nat) (o : CopyOp) : (s.chunkDone k o).mem = s.mem := by
  unfold State.chunkDone
  dsimp only
  split <;> simp

/-- Line i of a chunk as it enters its tile (R150). -/
def fillTileLine (k : Nat) (o : CopyOp) (ch : Nat) (d : List (Byte × Bool)) (keep : Nat → Bool) (s : State) (i : Nat) : State :=
  let l := (d.drop (64 * i)).take 64
  let mask := maskOf 1 (fun j => keep (64 * i + j))
  if mask = 0 then s
  else s.writeLine k o.idx o.buf o.w.tile.toNat (4 * ch + i) (fun old => old.merge mask (lineOfBytes (l.map (·.1))) (l.any (·.2)))

theorem State.fillTile_eq (s : State) (k : Nat) (o : CopyOp) (ch : Nat) (d : List (Byte × Bool)) (keep : Nat → Bool) :
    s.fillTile k o ch d keep = (List.range 4).foldl (fillTileLine k o ch d keep) s := rfl

theorem fillTileLine_mem (k : Nat) (o : CopyOp) (ch : Nat) (d : List (Byte × Bool)) (keep : Nat → Bool) (s : State) (i : Nat) :
    (fillTileLine k o ch d keep s i).mem = s.mem := by
  unfold fillTileLine
  extract_lets l mask
  split
  · rfl
  · exact State.writeLine_mem ..

@[simp] theorem State.fillTile_mem (s : State) (k : Nat) (o : CopyOp) (ch : Nat) (d : List (Byte × Bool)) (keep : Nat → Bool) :
    (s.fillTile k o ch d keep).mem = s.mem := by
  rw [State.fillTile_eq, foldl_mem _ (fillTileLine_mem k o ch d keep)]

@[simp] theorem State.drainLine_wf (s : State) (k idx : Nat) (st : PbEntry) (hs : Memory.wf s.mem = true) :
    Memory.wf (s.drainLine k idx st).mem = true := by
  unfold State.drainLine
  dsimp only
  split <;> simp [hs]

@[simp] theorem State.chunkOor_mem (s : State) (k : Nat) (o : CopyOp) (off : Nat) : (s.chunkOor k o off).mem = s.mem := by
  unfold State.chunkOor
  simp

@[simp] theorem State.deliverFill_mem (s : State) (k : Nat) (c : Context) (o : CopyOp) : (s.deliverFill k c o).mem = s.mem := by
  unfold State.deliverFill
  simp

@[simp] theorem State.deliverDrain_wf (s : State) (k : Nat) (c : Context) (o : CopyOp) (hs : Memory.wf s.mem = true) : Memory.wf (s.deliverDrain k c o).mem = true := by
  unfold State.deliverDrain
  dsimp only
  split
  · simp [hs]
  · rw [State.chunkDone_mem, State.updCtx_mem, State.chunkOor_mem]
    exact foldl_wf _ (fun t l ht => State.drainLine_wf _ _ _ _ ht) _ hs

@[simp] theorem State.moveLine_mem (s : State) (core ch key : Nat) : ∀ t, s.moveLine core ch key = some t → t.mem = s.mem := by
  unfold State.moveLine
  dsimp only
  split <;> simp

@[simp] theorem State.readAhead_mem (s : State) (k ch : Nat) (c : Context) (o : CopyOp) (n : Nat)  : (s.readAhead k ch c o n).mem = s.mem := by
  have hmove (l : List Nat) (a : Option State) (ha : ∀ t, a = some t → t.mem = s.mem) :
      ∀ t, l.foldl (fun a key => a.bind (fun s => s.moveLine c.coreKey ch key)) a = some t → t.mem = s.mem := by
    induction l generalizing a with
    | nil => exact ha
    | cons key l ih =>
      refine ih _ fun t ht => ?_
      obtain ⟨u, hu, hut⟩ := Option.bind_eq_some_iff.mp ht
      exact (State.moveLine_mem u c.coreKey ch key t hut).trans (ha u hu)
  unfold State.readAhead
  split
  · rfl
  · rename_i t ht
    exact hmove _ (some s) (fun u hu => by cases hu; rfl) t ht

@[simp] theorem State.writeAhead_wf (s : State) (k ch : Nat) (c : Context) (o : CopyOp) (chunk j : Nat) (hs : Memory.wf s.mem = true) : Memory.wf (s.writeAhead k ch c o chunk j).mem = true := by
  unfold State.writeAhead
  split
  · exact hs
  split
  · exact hs
  split
  · exact hs
  · rename_i t ht
    exact State.drainLine_wf _ _ _ _ (by rw [State.setCtx_mem, State.moveLine_mem s _ _ _ t ht]; exact hs)

@[simp] theorem State.sendFragment_wf (s : State) (k : Nat) (c : Context) (o : CopyOp) (hs : Memory.wf s.mem = true) :
    Memory.wf (s.sendFragment k c o).mem = true := by
  unfold State.sendFragment
  (repeat' split) <;> simp [hs]

@[simp] theorem State.serveList_mem (s : State) (c : Context) (ch : Nat) : (s.serveList c ch).mem = s.mem := rfl

@[simp] theorem execCopyOpBegin_wf (k ch : Nat) (s : State) (hs : Memory.wf s.mem = true) : OutWf (execCopyOpBegin k ch s) := by
  unfold execCopyOpBegin
  refine atChannel_wf _ _ _ hs fun c o => ?_
  simp [hs]

@[simp] theorem execCopyChunk_wf (k ch : Nat) (ahead : Option Nat) (s : State) (hs : Memory.wf s.mem = true) :
    OutWf (execCopyChunk k ch ahead s) := by
  unfold execCopyChunk
  refine atChannel_wf _ _ _ hs fun c o => ?_
  (repeat' split) <;> simp [hs]

@[simp] theorem execFeedBeatLand_wf (k ch : Nat) (s : State) (hs : Memory.wf s.mem = true) : OutWf (execFeedBeatLand k ch s) := by
  unfold execFeedBeatLand
  refine atChannel_wf _ _ _ hs fun c o => ?_
  simp [hs]

@[simp] theorem State.addRow_mem (s : State) (k : Nat) (c : Context) (o : CopyOp) (row : Nat) (d : List (Byte × Bool))  : (s.addRow k c o row d).mem = s.mem := by
  have hrow : ((List.range 4).foldl (fun s i =>
      s.writeLine k o.idx 2 o.w.tile.toNat (4 * row + i) (fun old => (addwLine o row i old d).1)) s).mem = s.mem :=
    foldl_mem _ (fun t i => by simp) _ s
  unfold State.addRow
  simp [hrow]

@[simp] theorem State.schedv_wf (s : State) (k : Nat) (o : CopyOp) (hs : Memory.wf s.mem = true) : Memory.wf (s.schedv k o).mem = true := by
  unfold State.schedv
  simp [hs]

@[simp] theorem execAddwRowWrite_wf (k ch row : Nat) (s : State) (hs : Memory.wf s.mem = true) : OutWf (execAddwRowWrite k ch row s) := by
  unfold execAddwRowWrite
  refine atChannel_wf _ _ _ hs fun c o => ?_
  dsimp only
  (repeat' split) <;> simp [hs]

@[simp] theorem State.writeWindow_mem (s : State) (k off : Nat) (b : List Byte) (poisonBits : Nat) :
    (s.writeWindow k off b poisonBits).mem = s.mem := by
  unfold State.writeWindow
  refine foldl_mem _ (fun t i => ?_) _ _
  simp

@[simp] theorem State.appendLanding_wf (s : State) (k : Nat) (c : Context) (f : Fragment) (hs : Memory.wf s.mem = true) :
    Memory.wf (s.appendLanding k c f).mem = true := by
  unfold State.appendLanding
  (repeat' split) <;> simp +contextual [*]

@[simp] theorem State.arrival_mem (s : State) (die : Nat) (tenant : BitVec 16) (gang : BitVec 20) (accepted : Bool) :
    (s.arrival die tenant gang accepted).mem = s.mem := rfl

@[simp] theorem State.receive_wf (s : State) (tenant : BitVec 16) (f : Fragment) (hs : Memory.wf s.mem = true) :
    Memory.wf (s.receive tenant f).1.mem = true := by
  unfold State.receive
  (repeat' split) <;> simp [hs]

@[simp] theorem execFragmentArrival_wf (k ch : Nat) (s : State) (hs : Memory.wf s.mem = true) : OutWf (execFragmentArrival k ch s) := by
  unfold execFragmentArrival
  dsimp only
  (repeat' split) <;> simp [hs]

@[simp] theorem execFragmentResponse_wf (k ch : Nat) (s : State) (hs : Memory.wf s.mem = true) : OutWf (execFragmentResponse k ch s) := by
  unfold execFragmentResponse
  refine atChannel_wf _ _ _ hs fun c o => ?_
  dsimp only
  split <;> simp [hs]

@[simp] theorem execRputBackoffExpiry_wf (k ch : Nat) (s : State) (hs : Memory.wf s.mem = true) : OutWf (execRputBackoffExpiry k ch s) := by
  unfold execRputBackoffExpiry
  refine atChannel_wf _ _ _ hs fun c o => ?_
  (repeat' split) <;> simp [hs]

@[simp] theorem State.abortLeftovers_wf (s : State) (k : Nat) (o : CopyOp) (hs : Memory.wf s.mem = true) : Memory.wf (s.abortLeftovers k o).mem = true := by
  unfold State.abortLeftovers
  split
  · exact hs
  refine foldl_wf _ (fun t j ht => ?_) _ hs
  dsimp only
  split
  · exact ht
  split
  · exact ht
  split
  · simp [ht]
  split
  · refine foldl_wf _ (fun u l hu => ?_) _ ht
    split <;> simp [hu]
  split
  · simp [ht]
  · exact ht

@[simp] theorem State.lastFragment_wf (s : State) (k : Nat) (c : Context) (o : CopyOp) (hs : Memory.wf s.mem = true) :
    Memory.wf (s.lastFragment k c o).mem = true := by
  unfold State.lastFragment
  simp [hs]

@[simp] theorem State.abortCopy_wf (s : State) (k : Nat) (o : CopyOp) (hs : Memory.wf s.mem = true) :
    Memory.wf (s.abortCopy k o).mem = true := by
  unfold State.abortCopy
  dsimp only
  split <;> simp [hs]

@[simp] theorem State.clearChannel_wf (s : State) (k ch : Nat) (hs : Memory.wf s.mem = true) :
    Memory.wf (s.clearChannel k ch).mem = true := by
  unfold State.clearChannel
  (repeat' split) <;> simp +contextual [*]

/-! ### Place -/

@[simp] theorem State.placeTask_mem (s : State) (die gid : Nat) (g : Graph) (index core : Nat)  : (s.placeTask die gid g index core).mem = s.mem := by
  unfold State.placeTask
  split
  · rfl
  · rfl

@[simp] theorem State.setGraph_mem (s : State) (gid : Nat) (g : Graph) : (s.setGraph gid g).mem = s.mem := rfl

@[simp] theorem State.placeNext_mem (s : State) (die : Nat)  : (s.placeNext die).mem = s.mem := by
  unfold State.placeNext
  dsimp only
  split
  · rfl
  split
  · rfl
  split
  · rfl
  · simp

@[simp] theorem State.placeShare_mem (s : State) (die gid : Nat) (g : Graph) : (s.placeShare die gid g).mem = s.mem := by
  unfold State.placeShare
  refine foldl_mem _ (fun t i => ?_) _ _
  (repeat' split) <;> simp

@[simp] theorem State.sendSteals_mem (s : State) (die : Nat) : (s.sendSteals die).mem = s.mem := rfl

@[simp] theorem execStealRequest_wf (die : Nat) (s : State) (hs : Memory.wf s.mem = true) : OutWf (execStealRequest die s) := by
  unfold execStealRequest
  (repeat' split) <;> simp [hs]

@[simp] theorem execStealAnswer_wf (die : Nat) (s : State) (hs : Memory.wf s.mem = true) : OutWf (execStealAnswer die s) := by
  unfold execStealAnswer
  simp [hs]

/-! ### Agents -/

@[simp] theorem State.agentUli_wf (s : State) (port : FaultPort) (target vector : Nat) (tenant : BitVec 16) (progress : Bool) (hs :
    Memory.wf s.mem = true) :
    Memory.wf (s.agentUli port target vector tenant progress).mem = true := by
  unfold State.agentUli
  dsimp only
  split <;> simp [hs]

@[simp] theorem State.agentSignal_wf (s : State) (l : Loc) (n : Word) (poison progress : Bool) (hs : Memory.wf s.mem = true) :
    Memory.wf (s.agentSignal l n poison progress).mem = true := by
  unfold State.agentSignal
  simp [hs]

/-! ### CopyIssue -/

@[simp] theorem issueCopy_wf (op : Nat) (w : CpyWord) (s : State) (hs : Memory.wf s.mem = true) : OutWf (issueCopy op w s) := by
  unfold issueCopy
  refine withSlot_wf _ fun env c => ?_
  dsimp only
  (repeat' split) <;> simp [hs]

@[simp] theorem execFill_wf (w : CpyWord) (s : State) (hs : Memory.wf s.mem = true) : OutWf (execFill w s) := issueCopy_wf _ _ _ hs

@[simp] theorem execFills_wf (w : CpyWord) (s : State) (hs : Memory.wf s.mem = true) : OutWf (execFills w s) := issueCopy_wf _ _ _ hs

@[simp] theorem execFeed_wf (w : CpyWord) (s : State) (hs : Memory.wf s.mem = true) : OutWf (execFeed w s) := issueCopy_wf _ _ _ hs

@[simp] theorem execFeedt_wf (w : CpyWord) (s : State) (hs : Memory.wf s.mem = true) : OutWf (execFeedt w s) := issueCopy_wf _ _ _ hs

@[simp] theorem execDrain_wf (w : CpyWord) (s : State) (hs : Memory.wf s.mem = true) : OutWf (execDrain w s) := issueCopy_wf _ _ _ hs

@[simp] theorem execAddw_wf (w : CpyWord) (s : State) (hs : Memory.wf s.mem = true) : OutWf (execAddw w s) := issueCopy_wf _ _ _ hs

@[simp] theorem execRput_wf (w : CpyWord) (s : State) (hs : Memory.wf s.mem = true) : OutWf (execRput w s) := issueCopy_wf _ _ _ hs

@[simp] theorem State.privFault_mem (s : State) : (s.privFault).mem = s.mem := rfl

@[simp] theorem execCresm_wf (w : CpyWord) (s : State) (hs : Memory.wf s.mem = true) : OutWf (execCresm w s) := by
  unfold execCresm
  refine withSlot_wf _ fun env c => ?_
  simp [hs]

@[simp] theorem execCclr_wf (w : CpyWord) (s : State) (hs : Memory.wf s.mem = true) : OutWf (execCclr w s) := by
  unfold execCclr
  refine withSlot_wf _ fun env c => ?_
  simp [hs]

/-! ### SyncIssue -/

@[simp] theorem issueSync_wf (op : Nat) (w : SynWord) (s : State) (hs : Memory.wf s.mem = true) : OutWf (issueSync op w s) := by
  unfold issueSync
  refine withSlot_wf _ fun env c => ?_
  dsimp only
  (repeat' split) <;> simp [hs]

@[simp] theorem execAadd_wf (w : SynWord) (s : State) (hs : Memory.wf s.mem = true) : OutWf (execAadd w s) := issueSync_wf _ _ _ hs

@[simp] theorem execAmin_wf (w : SynWord) (s : State) (hs : Memory.wf s.mem = true) : OutWf (execAmin w s) := issueSync_wf _ _ _ hs

@[simp] theorem execAmax_wf (w : SynWord) (s : State) (hs : Memory.wf s.mem = true) : OutWf (execAmax w s) := issueSync_wf _ _ _ hs

@[simp] theorem execAand_wf (w : SynWord) (s : State) (hs : Memory.wf s.mem = true) : OutWf (execAand w s) := issueSync_wf _ _ _ hs

@[simp] theorem execAor_wf (w : SynWord) (s : State) (hs : Memory.wf s.mem = true) : OutWf (execAor w s) := issueSync_wf _ _ _ hs

@[simp] theorem execAxor_wf (w : SynWord) (s : State) (hs : Memory.wf s.mem = true) : OutWf (execAxor w s) := issueSync_wf _ _ _ hs

@[simp] theorem execAswp_wf (w : SynWord) (s : State) (hs : Memory.wf s.mem = true) : OutWf (execAswp w s) := issueSync_wf _ _ _ hs

@[simp] theorem execAcas_wf (w : SynWord) (s : State) (hs : Memory.wf s.mem = true) : OutWf (execAcas w s) := issueSync_wf _ _ _ hs

@[simp] theorem execRed_wf (w : SynWord) (s : State) (hs : Memory.wf s.mem = true) : OutWf (execRed w s) := issueSync_wf _ _ _ hs

@[simp] theorem execArv_wf (w : SynWord) (s : State) (hs : Memory.wf s.mem = true) : OutWf (execArv w s) := issueSync_wf _ _ _ hs

@[simp] theorem execArvd_wf (w : SynWord) (s : State) (hs : Memory.wf s.mem = true) : OutWf (execArvd w s) := issueSync_wf _ _ _ hs

@[simp] theorem execBwait_wf (w : SynWord) (s : State) (hs : Memory.wf s.mem = true) : OutWf (execBwait w s) := issueSync_wf _ _ _ hs

@[simp] theorem execBtest_wf (w : SynWord) (s : State) (hs : Memory.wf s.mem = true) : OutWf (execBtest w s) := issueSync_wf _ _ _ hs

@[simp] theorem execSig_wf (w : SynWord) (s : State) (hs : Memory.wf s.mem = true) : OutWf (execSig w s) := issueSync_wf _ _ _ hs

@[simp] theorem execSwait_wf (w : SynWord) (s : State) (hs : Memory.wf s.mem = true) : OutWf (execSwait w s) := issueSync_wf _ _ _ hs

@[simp] theorem execUli_wf (w : SynWord) (s : State) (hs : Memory.wf s.mem = true) : OutWf (execUli w s) := issueSync_wf _ _ _ hs

@[simp] theorem execSfence_wf (w : SynWord) (s : State) (hs : Memory.wf s.mem = true) : OutWf (execSfence w s) := issueSync_wf _ _ _ hs

@[simp] theorem execBrst_wf (w : SynWord) (s : State) (hs : Memory.wf s.mem = true) : OutWf (execBrst w s) := issueSync_wf _ _ _ hs

/-! ### Csr -/

@[simp] theorem State.writeCoreCsr_mem (s : State) (core n : Nat) (v : Word) : (s.writeCoreCsr core n v).mem = s.mem := by
  unfold State.writeCoreCsr
  (repeat' split) <;> simp

@[simp] theorem State.csrFault_wf (s : State) (i : Instr) (n : Nat) (f : Nat × Nat) (hs : Memory.wf s.mem = true) :
    Memory.wf (s.csrFault i n f).mem = true := by
  unfold State.csrFault
  simp [hs]

@[simp] theorem execCsrr_wf (n : BitVec 12) (d : BitVec 6) (s : State) (hs : Memory.wf s.mem = true) : OutWf (execCsrr n d s) := by
  unfold execCsrr
  refine withThread_wf _ fun c => ?_
  (repeat' split) <;> simp [hs]

@[simp] theorem execCsrw_wf (n : BitVec 12) (a d : BitVec 6) (s : State) (hs : Memory.wf s.mem = true) : OutWf (execCsrw n a d s) := by
  unfold execCsrw
  refine withThread_wf _ fun c => ?_
  dsimp only
  split <;> simp [hs]

/-! ### System -/

@[simp] theorem execPhaseg_wf (sc : BitVec 2) (s : State) (hs : Memory.wf s.mem = true) : OutWf (execPhaseg sc s) := by
  unfold execPhaseg
  refine withThread_wf _ fun c => ?_
  simp [hs]

@[simp] theorem execGchk_wf (a : BitVec 6) (s : State) (hs : Memory.wf s.mem = true) : OutWf (execGchk a s) := by
  unfold execGchk
  refine withThread_wf _ fun c => ?_
  simp [hs]

@[simp] theorem execSpin_wf (s : State) (hs : Memory.wf s.mem = true) : OutWf (execSpin s) := by
  unfold execSpin
  refine withThread_wf _ fun c => ?_
  simp [hs]

@[simp] theorem execHalt_wf (s : State) (hs : Memory.wf s.mem = true) : OutWf (execHalt s) := by
  unfold execHalt
  refine withThread_wf _ fun c => ?_
  simp [hs]

@[simp] theorem execDrainq_wf (s : State) (hs : Memory.wf s.mem = true) : OutWf (execDrainq s) := by
  unfold execDrainq
  refine withThread_wf _ fun c => ?_
  simp [hs]

@[simp] theorem execTrapc_wf (code : BitVec 13) (s : State) (hs : Memory.wf s.mem = true) : OutWf (execTrapc code s) := by
  unfold execTrapc
  refine withThread_wf _ fun c => ?_
  simp [hs]

@[simp] theorem execIllegalInstruction_wf (w : BitVec 32) (s : State) (hs : Memory.wf s.mem = true) :
    OutWf (execIllegalInstruction w s) := by
  unfold execIllegalInstruction
  refine withThread_wf _ fun c => ?_
  simp [hs]

@[simp] theorem execXret_wf (s : State) (hs : Memory.wf s.mem = true) : OutWf (execXret s) := by
  unfold execXret
  refine withThread_wf _ fun c => ?_
  dsimp only
  split <;> simp [hs]

@[simp] theorem execCpost_wf (a d : BitVec 6) (s : State) (hs : Memory.wf s.mem = true) : OutWf (execCpost a d s) := by
  unfold execCpost
  refine withThread_wf _ fun c => ?_
  (repeat' split) <;> simp [hs]

@[simp] theorem State.endWait_mem (s : State) (k : Nat) (c : Context) : (s.endWait k c).mem = s.mem := rfl

@[simp] theorem execDrainqComplete_wf (k : Nat) (s : State) (hs : Memory.wf s.mem = true) : OutWf (execDrainqComplete k s) := by
  unfold execDrainqComplete
  refine atCore_wf _ _ hs fun c => ?_
  simp [hs]

@[simp] theorem execSpinTimeout_wf (k : Nat) (s : State) (hs : Memory.wf s.mem = true) : OutWf (execSpinTimeout k s) := by
  unfold execSpinTimeout
  refine atCore_wf _ _ hs fun c => ?_
  simp [hs]

@[simp] theorem execBundleTrap_wf (k : Nat) (s : State) (hs : Memory.wf s.mem = true) : OutWf (execBundleTrap k s) := by
  unfold execBundleTrap
  refine atCore_wf _ _ hs fun c => ?_
  simp [hs]

@[simp] theorem execUliDelivery_wf (k : Nat) (s : State) (hs : Memory.wf s.mem = true) : OutWf (execUliDelivery k s) := by
  unfold execUliDelivery
  refine atCore_wf _ _ hs fun c => ?_
  simp [hs]

/-! ### Commit -/

@[simp] theorem State.act_wf (k idx : Nat) (s : State) (a : CommitAct) (hs : Memory.wf s.mem = true) :
    Memory.wf (State.act k idx s a).mem = true := by
  unfold State.act
  (repeat' split) <;> simp [hs]

@[simp] theorem State.commitXlate_wf (s : State) (k : Nat) (c : Context) (i : Issued) (slot : Nat) (x : XFault) (hs : Memory.wf s.mem =
    true) :
    Memory.wf (s.commitXlate k c i slot x).mem = true := by
  unfold State.commitXlate
  simp [hs]

@[simp] theorem State.commitOldest_wf (s : State) (k : Nat) (c : Context) (i : Issued) (hs : Memory.wf s.mem = true) : Memory.wf (s.commitOldest k c i).mem = true := by
  unfold State.commitOldest
  split
  · simp [hs]
  dsimp only
  split
  · simp [hs]
  · rw [State.updCtx_mem]
    exact foldl_wf _ (fun t a ht => State.act_wf _ _ _ _ ht) _ (by simp [hs])

@[simp] theorem execBundleCommit_wf (k : Nat) (s : State) (hs : Memory.wf s.mem = true) : OutWf (execBundleCommit k s) := by
  unfold execBundleCommit
  refine atCore_wf _ _ hs fun c => ?_
  dsimp only
  (repeat' split) <;> simp [hs]

@[simp] theorem execLandingDataArrives_wf (k entry : Nat) (s : State) (hs : Memory.wf s.mem = true) :
    OutWf (execLandingDataArrives k entry s) := by
  unfold execLandingDataArrives
  refine atCore_wf _ _ hs fun c => ?_
  dsimp only
  split <;> simp [hs]

@[simp] theorem execTimedLanding_wf (k : Nat) (s : State) (hs : Memory.wf s.mem = true) : OutWf (execTimedLanding k s) := by
  unfold execTimedLanding
  refine atCore_wf _ _ hs fun c => ?_
  simp [hs]

/-! ### Ordering -/

@[simp] theorem execLoadPerform_wf (k : Nat) (which : LoadRef) (s : State) (hs : Memory.wf s.mem = true) :
    OutWf (execLoadPerform k which s) := by
  unfold execLoadPerform
  refine atCore_wf _ _ hs fun c => ?_
  (repeat' split) <;> simp [hs]

@[simp] theorem execTransitWriteApply_wf (k n : Nat) (s : State) (hs : Memory.wf s.mem = true) : OutWf (execTransitWriteApply k n s) := by
  unfold execTransitWriteApply
  refine atCtx_wf _ _ hs fun c hc => ?_
  dsimp only
  split <;> simp [hs]

@[simp] theorem execSnapshotLineDrop_wf (k line : Nat) (s : State) (hs : Memory.wf s.mem = true) :
    OutWf (execSnapshotLineDrop k line s) := by
  unfold execSnapshotLineDrop
  simp [hs]

@[simp] theorem execPhaseSend_wf (k n : Nat) (s : State) (hs : Memory.wf s.mem = true) : OutWf (execPhaseSend k n s) := by
  unfold execPhaseSend
  refine atCore_wf _ _ hs fun c => ?_
  (repeat' split) <;> simp [hs]

@[simp] theorem State.asyncHalt_wf (s : State) (k : Nat) (hs : Memory.wf s.mem = true) : Memory.wf (s.asyncHalt k).mem = true := by
  unfold State.asyncHalt
  simp [hs]

@[simp] theorem execPhaseComplete_wf (k n : Nat) (s : State) (hs : Memory.wf s.mem = true) : OutWf (execPhaseComplete k n s) := by
  unfold execPhaseComplete
  refine atCore_wf _ _ hs fun c => ?_
  (repeat' split) <;> simp [hs]

/-! ### VecCore -/

@[simp] theorem issueVec_wf (s : State) (p : Pipe) (w : VWord) (u : VUse) (lat : Nat) (f : Context → VIn → VOut) (hs : Memory.wf s.mem =
    true) :
    OutWf (issueVec s p w u lat f) := by
  unfold issueVec
  refine withSlot_wf _ fun env c => ?_
  simp [hs]

@[simp] theorem lanes1_wf (s : State) (p : Pipe) (w : VWord) (lat : Nat) (f : Nat → Nat × Flags) (hs : Memory.wf s.mem = true) :
    OutWf (lanes1 s p w lat f) := by
  unfold lanes1
  simp [hs]

@[simp] theorem lanes2_wf (s : State) (p : Pipe) (w : VWord) (lat : Nat) (f : Nat → Nat → Nat × Flags) (hs : Memory.wf s.mem = true) :
    OutWf (lanes2 s p w lat f) := by
  unfold lanes2
  simp [hs]

@[simp] theorem lanes3_wf (s : State) (p : Pipe) (w : VWord) (lat : Nat) (f : Nat → Nat → Nat → Nat × Flags) (hs : Memory.wf s.mem = true)
    :
    OutWf (lanes3 s p w lat f) := by
  unfold lanes3
  simp [hs]

/-! ### Sync -/

@[simp] theorem State.holdLine_mem (s : State) (l : Loc) (part : Nat) : (s.holdLine l part).mem = s.mem := by
  unfold State.holdLine
  simp

@[simp] theorem State.atomic_wf (s : State) (l : Loc) (op : Nat) (ty : BitVec 4) (operand : Nat) (poison : Bool) (hs : Memory.wf s.mem =
    true) :
    Memory.wf (s.atomic l op ty operand poison).1.mem = true := by
  unfold State.atomic
  simp [hs]

@[simp] theorem State.putBarrier_wf (s : State) (l : Loc) (b : Barrier) (poison : Bool) (hs : Memory.wf s.mem = true) :
    Memory.wf (s.putBarrier l b poison).mem = true := by
  unfold State.putBarrier
  simp [hs]

@[simp] theorem State.performWait_mem (s : State) (k : Nat) (c : Context) (o : SyncOp) : (s.performWait k c o).1.mem = s.mem := by
  unfold State.performWait
  dsimp only
  (repeat' split) <;> rfl

@[simp] theorem State.performSync_wf (s : State) (k : Nat) (c : Context) (o : SyncOp) (hs : Memory.wf s.mem = true) :
    Memory.wf (s.performSync k c o).1.mem = true := by
  unfold State.performSync
  dsimp only
  (repeat' split) <;> simp [hs]

@[simp] theorem execSyncOpPerform_wf (k n : Nat) (s : State) (hs : Memory.wf s.mem = true) : OutWf (execSyncOpPerform k n s) := by
  unfold execSyncOpPerform
  refine atCtx_wf _ _ hs fun c hc => ?_
  dsimp only
  (repeat' split) <;> simp [hs]

@[simp] theorem State.dropWaiter_mem (s : State) (die : Nat) (who : Waiter) : (s.dropWaiter die who).mem = s.mem := rfl

@[simp] theorem State.withdrawWaiters_mem (s : State) (k : Nat)  : (s.withdrawWaiters k).mem = s.mem := by
  unfold State.withdrawWaiters
  split
  · rfl
  · exact (State.updCtx_mem _ _ _).trans (foldl_mem _ (fun t o => State.dropWaiter_mem t _ _) _ s)

@[simp] theorem execSyncAnswerArrival_wf (k n : Nat) (s : State) (hs : Memory.wf s.mem = true) : OutWf (execSyncAnswerArrival k n s) := by
  unfold execSyncAnswerArrival
  refine atCore_wf _ _ hs fun c => ?_
  cases c.fl.syncOps[n]? with
  | none => exact hs
  | some o =>
    dsimp only
    cases o.state with
    | answered data p progress =>
      dsimp only
      split
      · simp [hs]
      split <;> exact hs
    | waiting =>
      dsimp only
      split
      · exact hs
      split <;> exact hs
    | _ => exact hs

@[simp] theorem execWaiterBusyResend_wf (k : Nat) (s : State) (hs : Memory.wf s.mem = true) : OutWf (execWaiterBusyResend k s) := by
  unfold execWaiterBusyResend
  refine atCore_wf _ _ hs fun c => ?_
  simp [hs]

@[simp] theorem execAsyncLogRecord_wf (k n : Nat) (s : State) (hs : Memory.wf s.mem = true) : OutWf (execAsyncLogRecord k n s) := by
  unfold execAsyncLogRecord
  refine atCtx_wf _ _ hs fun c hc => ?_
  (repeat' split) <;> simp [hs]

@[simp] theorem execBarrierCredit_wf (n : Nat) (s : State) (hs : Memory.wf s.mem = true) : OutWf (execBarrierCredit n s) := by
  unfold execBarrierCredit
  (repeat' split) <;> simp [hs]

/-! ### Transfer -/

@[simp] theorem State.setBt_mem (s : State) (die c : Nat) (e : BtEngine) : (s.setBt die c e).mem = s.mem := rfl

@[simp] theorem State.btReport_wf (s : State) (die c code : Nat) (hs : Memory.wf s.mem = true) :
    Memory.wf (s.btReport die c code).mem = true := by
  unfold State.btReport
  simp [hs]

@[simp] theorem State.btStore_wf (s : State) (die part off size : Nat) (v : Word) (root : Nat) (hs : Memory.wf s.mem = true) :
    Memory.wf (s.btStore die part off size v root).mem = true := by
  unfold State.btStore
  dsimp only
  (repeat' split) <;> simp [hs]

@[simp] theorem execBtStart_wf (die part off size : Nat) (value : Word) (root : Nat) (s : State) (hs : Memory.wf s.mem = true) :
    OutWf (execBtStart die part off size value root s) := by
  unfold execBtStart
  simp [hs]

@[simp] theorem State.btAbort_wf (s : State) (die c : Nat) (hs : Memory.wf s.mem = true) : Memory.wf (s.btAbort die c).mem = true := by
  unfold State.btAbort
  simp [hs]

@[simp] theorem State.btFault_wf (s : State) (die c : Nat) (r : BtRun) (x : XFault) (hs : Memory.wf s.mem = true) :
    Memory.wf (s.btFault die c r x).mem = true := by
  unfold State.btFault
  simp [hs]

@[simp] theorem State.btServed_mem (s : State) (die c : Nat) : (s.btServed die c).mem = s.mem := by
  unfold State.btServed
  dsimp only
  split <;> simp

@[simp] theorem State.btDecide_wf (s : State) (die c : Nat) (hs : Memory.wf s.mem = true) : Memory.wf (s.btDecide die c).mem = true := by
  unfold State.btDecide
  simp [hs]

@[simp] theorem State.btBegin_wf (s : State) (die c : Nat) (st : BtStart) (hs : Memory.wf s.mem = true) :
    Memory.wf (s.btBegin die c st).mem = true := by
  unfold State.btBegin
  dsimp only
  split <;> simp [hs]

@[simp] theorem execBtTakeStart_wf (die c : Nat) (s : State) (hs : Memory.wf s.mem = true) : OutWf (execBtTakeStart die c s) := by
  unfold execBtTakeStart
  dsimp only
  split <;> simp [hs]

@[simp] theorem execBtChunk_wf (die c : Nat) (s : State) (hs : Memory.wf s.mem = true) : OutWf (execBtChunk die c s) := by
  unfold execBtChunk
  (repeat' split) <;> simp +contextual [*]

@[simp] theorem execBtComplete_wf (die c : Nat) (s : State) (hs : Memory.wf s.mem = true) : OutWf (execBtComplete die c s) := by
  unfold execBtComplete
  dsimp only
  (repeat' split) <;> simp [hs]

/-! ### Sched -/

@[simp] theorem execCheckpointLatest_wf (k : Nat) (s : State) (hs : Memory.wf s.mem = true) : OutWf (execCheckpointLatest k s) := by
  unfold execCheckpointLatest
  refine atCore_wf _ _ hs fun c => ?_
  dsimp only
  split <;> simp [hs]

@[simp] theorem execIntervalCheckpoint_wf (k : Nat) (s : State) (hs : Memory.wf s.mem = true) : OutWf (execIntervalCheckpoint k s) := by
  unfold execIntervalCheckpoint
  refine atCore_wf _ _ hs fun c => ?_
  simp [hs]

@[simp] theorem State.leaveSlot_mem (s : State) (k : Nat) (c : Context) : (s.leaveSlot k c).mem = s.mem := rfl

@[simp] theorem State.saveContext_mem (s : State) (k : Nat) (status : CtxStatus) : (s.saveContext k status).mem = s.mem := by
  unfold State.saveContext
  dsimp only
  split <;> simp

@[simp] theorem execContextDrain_wf (k : Nat) (s : State) (hs : Memory.wf s.mem = true) : OutWf (execContextDrain k s) := by
  unfold execContextDrain
  refine atCore_wf _ _ hs fun c => ?_
  simp [hs]

@[simp] theorem State.undoLines_mem (s : State) (c : Context) (m : Marker) : (s.undoLines c m).mem = s.mem := rfl

@[simp] theorem State.undoOwn_wf (s : State) (c : Context) (m : Marker) (hs : Memory.wf s.mem = true) :
    Memory.wf (s.undoOwn c m).mem = true := by
  unfold State.undoOwn
  refine foldl_wf _ (fun t i ht => ?_) _ hs
  simp [ht]

@[simp] theorem execRollback_wf (k : Nat) (s : State) (hs : Memory.wf s.mem = true) : OutWf (execRollback k s) := by
  unfold execRollback
  refine atCore_wf _ _ hs fun c => ?_
  (repeat' split) <;> simp [hs]

@[simp] theorem State.makeResident_mem (s : State) (k : Nat) : (s.makeResident k).mem = s.mem := by
  unfold State.makeResident
  (repeat' split) <;> simp

@[simp] theorem State.giveSlot_mem (s : State) (k : Nat) (c : Context) (slot : Nat) : (s.giveSlot k c slot).mem = s.mem := by
  unfold State.giveSlot
  simp

@[simp] theorem execContextRestore_wf (k : Nat) (s : State) (hs : Memory.wf s.mem = true) : OutWf (execContextRestore k s) := by
  unfold execContextRestore
  refine atCtx_wf _ _ hs fun c hc => ?_
  simp [hs]

@[simp] theorem State.yieldDecision_mem (s : State) (core : Nat)  : (s.yieldDecision core).mem = s.mem := by
  have hidle (l : List (Nat × Nat × Context)) : (l.foldl (fun s v => s.updCtx v.2.1 (fun c => { c with sch := { c.sch with yielding := false } })) s).mem =
      s.mem := foldl_mem _ (fun t v => State.updCtx_mem t _ _) l s
  unfold State.yieldDecision
  dsimp only
  split
  · exact (State.updCtx_mem _ _ _).trans (hidle _)
  · exact hidle _

@[simp] theorem State.decideCore_mem (s : State) (core : Nat)  : (s.decideCore core).mem = s.mem := by
  unfold State.decideCore
  have hends (l : List Nat) : (l.foldl (fun s k => s.updCtx k (fun c => { c with sch := { c.sch with sliceDue := true } })) s).mem = s.mem :=
    foldl_mem _ (fun t k => State.updCtx_mem t _ _) l s
  split
  · rfl
  split
  · simp
  split
  · simp
  dsimp only
  split
  · exact hends _
  · exact (State.yieldDecision_mem _ _).trans (hends _)

@[simp] theorem execSliceEnd_wf (k : Nat) (s : State) (hs : Memory.wf s.mem = true) : OutWf (execSliceEnd k s) := by
  unfold execSliceEnd
  refine atCore_wf _ _ hs fun c => ?_
  (repeat' split) <;> simp [hs]

@[simp] theorem State.setPriorities_mem (s : State) (die : Nat) : (s.setPriorities die).mem = s.mem := rfl

@[simp] theorem State.reportPaged_mem (s : State) (k : Nat) (c : Context) : (s.reportPaged k c).mem = s.mem := by
  unfold State.reportPaged
  simp

@[simp] theorem State.reportAllPaged_mem (s : State) (die : Nat) : (s.reportAllPaged die).mem = s.mem := by
  unfold State.reportAllPaged
  refine foldl_mem _ (fun t i => ?_) _ _
  simp

@[simp] theorem State.decisions_mem (s : State) (die : Nat)  : (s.decisions die).mem = s.mem := by
  unfold State.decisions
  have hdecide (t : State) : ((t.liveCores die).foldl State.decideCore t).mem = t.mem := foldl_mem State.decideCore State.decideCore_mem _ t
  simp [hdecide]

@[simp] theorem execDieCycle_wf (die : Nat) (s : State) (hs : Memory.wf s.mem = true) : OutWf (execDieCycle die s) := by
  unfold execDieCycle
  dsimp only
  (repeat' split) <;> simp [hs]

@[simp] theorem execFairnessWindowStart_wf (die : Nat) (s : State) (hs : Memory.wf s.mem = true) :
    OutWf (execFairnessWindowStart die s) := by
  unfold execFairnessWindowStart
  dsimp only
  (repeat' split) <;> simp [hs]

@[simp] theorem execBoostDecay_wf (die : Nat) (s : State) (hs : Memory.wf s.mem = true) : OutWf (execBoostDecay die s) := by
  unfold execBoostDecay
  dsimp only
  split <;> simp [hs]

@[simp] theorem execYield_wf (s : State) (hs : Memory.wf s.mem = true) : OutWf (execYield s) := by
  unfold execYield
  refine withThread_wf _ fun c => ?_
  dsimp only
  split <;> simp [hs]

@[simp] theorem execReslate_wf (k : Nat) (s : State) (hs : Memory.wf s.mem = true) : OutWf (execReslate k s) := by
  unfold execReslate
  refine atCtx_wf _ _ hs fun c hc => ?_
  simp [hs]

@[simp] theorem execColdcand_wf (k : Nat) (s : State) (hs : Memory.wf s.mem = true) : OutWf (execColdcand k s) := by
  unfold execColdcand
  refine atCtx_wf _ _ hs fun c hc => ?_
  simp [hs]

@[simp] theorem State.replayEntry_mem (s : State) (k : Nat) (c : Context) : (s.replayEntry k c).mem = s.mem := by
  unfold State.replayEntry
  simp

@[simp] theorem execLandingReplay_wf (k : Nat) (s : State) (hs : Memory.wf s.mem = true) : OutWf (execLandingReplay k s) := by
  unfold execLandingReplay
  refine atCore_wf _ _ hs fun c => ?_
  simp [hs]

@[simp] theorem State.refetchChunk_wf (s : State) (k : Nat) (c : Context) (o : CopyOp) (hs : Memory.wf s.mem = true) :
    Memory.wf (s.refetchChunk k c o).mem = true := by
  unfold State.refetchChunk
  (repeat' split) <;> simp [hs]

@[simp] theorem execTileRefetch_wf (k : Nat) (s : State) (hs : Memory.wf s.mem = true) : OutWf (execTileRefetch k s) := by
  unfold execTileRefetch
  refine atCtx_wf _ _ hs fun c hc => ?_
  (repeat' split) <;> simp [hs]

@[simp] theorem State.freePersistent_mem (s : State) (k : Nat) : (s.freePersistent k).mem = s.mem := rfl

@[simp] theorem State.endOwn_mem (s : State) (gid : Nat) : (s.endOwn gid).mem = s.mem := rfl

@[simp] theorem State.countHalted_mem (s : State) (gid : Nat) : (s.countHalted gid).mem = s.mem := by
  unfold State.countHalted
  dsimp only
  split <;> simp

@[simp] theorem State.endContext_mem (s : State) (k : Nat) (status : CtxStatus) : (s.endContext k status).mem = s.mem := by
  unfold State.endContext
  (repeat' split) <;> simp

@[simp] theorem execHaltComplete_wf (k : Nat) (s : State) (hs : Memory.wf s.mem = true) : OutWf (execHaltComplete k s) := by
  unfold execHaltComplete
  refine atCore_wf _ _ hs fun c => ?_
  simp [hs]

/-! ### CollCore -/

@[simp] theorem State.setPosted_mem (s : State) (serac i : Nat) (p : Posted) : (s.setPosted serac i p).mem = s.mem := rfl

@[simp] theorem State.renameEntry_mem (s : State) (serac i j : Nat) : (s.renameEntry serac i j).mem = s.mem := rfl

@[simp] theorem State.setAside_mem (s : State) (serac i : Nat) : (s.setAside serac i).mem = s.mem := by
  unfold State.setAside
  simp

@[simp] theorem State.acceptPost_mem (s : State) (k : Nat) (c : Context) (d i : Nat) (serac : Nat) :
    (s.acceptPost k c d i serac).mem = s.mem := rfl

@[simp] theorem State.postInstance_mem (s : State) (serac i : Nat) (p : Posted) (m : Comm) (q : Nat) (bad : Option Nat) :
    (s.postInstance serac i p m q bad).mem = s.mem := by
  unfold State.postInstance
  simp

@[simp] theorem State.postNew_mem (s : State) (c : Context) (k serac i : Nat) (r : List Byte) (stale : Bool) :
    (s.postNew c k serac i r stale).mem = s.mem := by
  unfold State.postNew
  dsimp only
  split <;> simp

@[simp] theorem State.postXlate_mem (s : State) (c : Context) (k serac i : Nat) (sub : BitVec 8) :
    (s.postXlate c k serac i sub).mem = s.mem := by
  unfold State.postXlate
  simp

@[simp] theorem State.postRecord_wf (s : State) (k : Nat) (c : Context) (d : Nat) (va : Word) (serac i : Nat) (held : Bool) (r : List
    Byte) (hs : Memory.wf s.mem = true) :
    Memory.wf (s.postRecord k c d va serac i held r).mem = true := by
  unfold State.postRecord
  (repeat' split) <;> simp [hs]

@[simp] theorem execPostAccept_wf (k : Nat) (s : State) (hs : Memory.wf s.mem = true) : OutWf (execPostAccept k s) := by
  unfold execPostAccept
  refine atCore_wf _ _ hs fun c => ?_
  dsimp only
  (repeat' split) <;> simp [hs]

@[simp] theorem execCqry_wf (a d : BitVec 6) (s : State) (hs : Memory.wf s.mem = true) : OutWf (execCqry a d s) := by
  unfold execCqry
  refine withThread_wf _ fun c => ?_
  simp [hs]

/-! ### Tickets -/

@[simp] theorem State.faultMembers_mem (s : State) (from_ : Nat) (words : List Nat) (coord comm inst cause : Nat) (sub : BitVec 8) :
    (s.faultMembers from_ words coord comm inst cause sub).mem = s.mem := by
  unfold State.faultMembers
  refine foldl_mem _ (fun t i => ?_) _ _
  simp

@[simp] theorem State.faultAll_mem (s : State) (from_ : Nat) (m : Comm) (coord comm inst cause : Nat) (sub : BitVec 8) :
    (s.faultAll from_ m coord comm inst cause sub).mem = s.mem := by
  unfold State.faultAll
  simp

@[simp] theorem State.settleInstance_mem (s : State) (coord comm inst : Nat) (m : Comm) (ns : List Notice) :
    (s.settleInstance coord comm inst m ns).mem = s.mem := by
  unfold State.settleInstance
  dsimp only
  split <;> simp

@[simp] theorem State.settleComm_mem (s : State) (coord comm : Nat) (x_ : Nat)  : (s.settleComm coord comm x_).mem = s.mem := by
  induction x_ generalizing s with
  | zero => rfl
  | succ fuel ih =>
    unfold State.settleComm
    dsimp only
    split
    · rfl
    split
    · exact (ih _).trans (by simp)
    · rfl

@[simp] theorem execCoordinatorNotice_wf (serac k : Nat) (s : State) (hs : Memory.wf s.mem = true) :
    OutWf (execCoordinatorNotice serac k s) := by
  unfold execCoordinatorNotice
  dsimp only
  split <;> simp [hs]

@[simp] theorem execTicketRequest_wf (serac : Nat) (s : State) (hs : Memory.wf s.mem = true) : OutWf (execTicketRequest serac s) := by
  unfold execTicketRequest
  dsimp only
  split
  · simp [hs]
  split
  · simp [hs]
  split
  · simp [hs]
  · refine (outWf_next _).mpr ?_
    rw [foldl_mem _ (fun t w => State.updSerac_mem t _ _)]
    exact hs

@[simp] theorem State.dropTicket_mem (s : State) (serac k die : Nat) (t : Ticket) : (s.dropTicket serac k die t).mem = s.mem := rfl

@[simp] theorem execTicketTake_wf (serac k : Nat) (s : State) (hs : Memory.wf s.mem = true) : OutWf (execTicketTake serac k s) := by
  unfold execTicketTake
  (repeat' split) <;> simp [hs]

@[simp] theorem State.setInst_mem (s : State) (serac i : Nat) (x : Inst) : (s.setInst serac i x).mem = s.mem := rfl

@[simp] theorem execReservation_wf (serac k : Nat) (s : State) (hs : Memory.wf s.mem = true) : OutWf (execReservation serac k s) := by
  unfold execReservation
  split
  · exact (outWf_next s).mpr hs
  dsimp only
  split
  · refine (outWf_next _).mpr ?_
    split <;> simp [hs]
  split
  · exact (outWf_next s).mpr hs
  split
  · exact (outWf_next s).mpr hs
  · refine (outWf_next _).mpr ?_
    rw [State.setInst_mem, foldl_mem _ (fun t w => State.setInst_mem ..)]
    exact hs

@[simp] theorem execConfirmation_wf (serac k : Nat) (s : State) (hs : Memory.wf s.mem = true) : OutWf (execConfirmation serac k s) := by
  unfold execConfirmation
  dsimp only
  split
  · split
    · simp [hs]
    · refine (outWf_next _).mpr ?_
      dsimp only
      rw [foldl_mem _ (fun t o => by split <;> simp)]
      exact hs
  · simp [hs]

@[simp] theorem State.freeIfEnded_mem (s : State) (serac i : Nat) : (s.freeIfEnded serac i).mem = s.mem := by
  unfold State.freeIfEnded
  simp

@[simp] theorem State.reportColl_wf (s : State) (serac i cause : Nat) (inst : Nat) (hs : Memory.wf s.mem = true) :
    Memory.wf (s.reportColl serac i cause inst).mem = true := by
  unfold State.reportColl
  simp [hs]

@[simp] theorem State.collUli_wf (s : State) (serac : Nat) (p : Posted) (progress : Bool) (hs : Memory.wf s.mem = true) :
    Memory.wf (s.collUli serac p progress).mem = true := by
  unfold State.collUli
  simp [hs]

@[simp] theorem State.applyFault_mem (s : State) (serac : Nat) (f : FaultMsg) : (s.applyFault serac f).mem = s.mem := by
  unfold State.applyFault
  (repeat' split) <;> simp

@[simp] theorem execInstanceFault_wf (serac k : Nat) (s : State) (hs : Memory.wf s.mem = true) : OutWf (execInstanceFault serac k s) := by
  unfold execInstanceFault
  dsimp only
  (repeat' split) <;> simp [hs]

@[simp] theorem State.faultUnreached_mem (s : State) (serac : Nat) (lost : Nat → Bool)  : (s.faultUnreached serac lost).mem = s.mem := by
  have hinsts (m : Comm) (e : Posted) (t : State) : (e.insts.foldl (fun s x =>
      if x.ended then s else s.faultAll serac m e.coord e.comm x.number cUNREACH 0) t).mem = t.mem :=
    foldl_mem _ (fun u x => by split <;> simp) e.insts t
  unfold State.faultUnreached
  refine foldl_mem _ (fun t e => ?_) _ s
  split
  · rfl
  split
  · exact hinsts ..
  · rfl

@[simp] theorem execPeerUnreachable_wf (serac lost : Nat) (s : State) (hs : Memory.wf s.mem = true) :
    OutWf (execPeerUnreachable serac lost s) := by
  unfold execPeerUnreachable
  simp [hs]

@[simp] theorem State.faultSevered_mem (s : State) (serac : Nat)  : (s.faultSevered serac).mem = s.mem := by
  unfold State.faultSevered
  split
  · rfl
  · exact foldl_mem _ (fun t k => State.faultUnreached_mem ..) _ s

/-! ### CollData -/

@[simp] theorem State.setRun_mem (s : State) (r : CollRun) : (s.setRun r).mem = s.mem := rfl

@[simp] theorem State.loseRuns_mem (s : State) (gone : Nat → Bool) : (s.loseRuns gone).mem = s.mem := rfl

@[simp] theorem execChunkBoundary_wf (serac : Nat) (res : CollResource) (s : State) (hs : Memory.wf s.mem = true) :
    OutWf (execChunkBoundary serac res s) := by
  unfold execChunkBoundary
  dsimp only
  (repeat' split) <;> simp [hs]

@[simp] theorem execCreditReturn_wf (serac link vc : Nat) (s : State) (hs : Memory.wf s.mem = true) :
    OutWf (execCreditReturn serac link vc s) := by
  unfold execCreditReturn
  simp [hs]

@[simp] theorem State.failRun_mem (s : State) (serac : Nat) (r : CollRun) (cause : Nat) (sub : BitVec 8) :
    (s.failRun serac r cause sub).mem = s.mem := by
  unfold State.failRun
  (repeat' split) <;> simp

@[simp] theorem State.chunkFault_wf (s : State) (r : CollRun) (m : RunMember) (q : Nat) (f : XFault) (hs : Memory.wf s.mem = true) :
    Memory.wf (s.chunkFault r m q f).mem = true := by
  unfold State.chunkFault
  simp [hs]

@[simp] theorem State.readChunk_wf (s : State) (r : CollRun) (m : RunMember) (q u d len : Nat) (va : Word) (hs : Memory.wf s.mem = true) :
    Memory.wf (s.readChunk r m q u d len va).mem = true := by
  unfold State.readChunk
  dsimp only
  split <;> simp [hs]

@[simp] theorem State.writeChunk_wf (s : State) (r : CollRun) (m : RunMember) (u d : Nat) (va : Word) (data : List (Byte × Bool)) (hs : Memory.wf s.mem = true) : Memory.wf (s.writeChunk r m u d va data).mem = true := by
  have hbytes (l : List (Loc × Nat)) (a : State × List (Byte × Bool)) (ha : Memory.wf a.1.mem = true) :
      Memory.wf (l.foldl (fun (a : State × List (Byte × Bool)) y =>
        (a.1.homeWriteBytes y.1.pkg y.1.pa ((a.2.take y.2).map (·.1)) ((a.2.take y.2).any (·.2)) false, a.2.drop y.2)) a).1.mem = true := by
    induction l generalizing a with
    | nil => exact ha
    | cons y l ih => exact ih _ (State.homeWriteBytes_wf _ _ _ _ _ ha)
  unfold State.writeChunk
  split
  · simp [hs]
  split
  · simp [hs]
  · rw [State.arrival_mem, State.setRun_mem]
    exact hbytes _ (s, data) hs

@[simp] theorem State.applyChunk_wf (s : State) (r : CollRun) (m : RunMember) (u d : Nat) (order : List Nat) (hs : Memory.wf s.mem = true)
    :
    Memory.wf (s.applyChunk r m u d order).mem = true := by
  unfold State.applyChunk
  (repeat' split) <;> simp [hs]

@[simp] theorem State.moveWithin_wf (s : State) (serac : Nat) (r : CollRun) (q u d : Nat) (hs : Memory.wf s.mem = true) :
    Memory.wf (s.moveWithin serac r q u d).mem = true := by
  unfold State.moveWithin
  (repeat' split) <;> simp [hs]

@[simp] theorem State.spendCredits_mem (s : State) (serac n : Nat) (k : Pick) (r : CollRun) (u d need : Nat) :
    (s.spendCredits serac n k r u d need).1.mem = s.mem := by
  unfold State.spendCredits
  dsimp only
  split <;> simp

@[simp] theorem State.moveLink_wf (s : State) (serac n : Nat) (k : Pick) (r : CollRun) (u d : Nat) (hs : Memory.wf s.mem = true) :
    Memory.wf (s.moveLink serac n k r u d).mem = true := by
  unfold State.moveLink
  dsimp only
  (repeat' split) <;> simp [hs]

@[simp] theorem State.moveAlu_wf (s : State) (serac : Nat) (k : Pick) (r : CollRun) (u : Nat) (order : List Nat) (hs : Memory.wf s.mem =
    true) :
    Memory.wf (s.moveAlu serac k r u order).mem = true := by
  unfold State.moveAlu
  (repeat' split) <;> simp [hs]

@[simp] theorem execChunkTransfer_wf (serac : Nat) (res : CollResource) (order : List Nat) (s : State) (hs : Memory.wf s.mem = true) :
    OutWf (execChunkTransfer serac res order s) := by
  unfold execChunkTransfer
  dsimp only
  (repeat' split) <;> simp [hs]

@[simp] theorem State.noteComplete_mem (s : State) (m : Comm) (p : Posted) (inst : Nat)  : (s.noteComplete m p inst).mem = s.mem := by
  unfold State.noteComplete
  dsimp only
  split
  · simp
  · exact (foldl_mem _ (fun t w => State.updSerac_mem t _ _) _ _).trans (by simp)

@[simp] theorem State.dropRun_mem (s : State) (m : Comm) (p : Posted) (inst : Nat) : (s.dropRun m p inst).mem = s.mem := by
  unfold State.dropRun
  simp

@[simp] theorem State.collSignal_wf (s : State) (serac i : Nat) (p : Posted) (x : Inst) (hs : Memory.wf s.mem = true) :
    Memory.wf (s.collSignal serac i p x).mem = true := by
  unfold State.collSignal
  (repeat' split) <;> simp [hs]

@[simp] theorem execInstanceComplete_wf (serac k : Nat) (s : State) (hs : Memory.wf s.mem = true) :
    OutWf (execInstanceComplete serac k s) := by
  unfold execInstanceComplete
  dsimp only
  (repeat' split) <;> simp [hs]

@[simp] theorem State.pageOver_mem (s : State) (serac i : Nat) : (s.pageOver serac i).mem = s.mem := rfl

@[simp] theorem State.collServed_mem (s : State) (serac i : Nat) : (s.collServed serac i).mem = s.mem := by
  unfold State.collServed
  dsimp only
  split <;> simp

@[simp] theorem State.collDeclined_wf (s : State) (serac i : Nat) (sub : BitVec 8) (hs : Memory.wf s.mem = true) :
    Memory.wf (s.collDeclined serac i sub).mem = true := by
  unfold State.collDeclined
  dsimp only
  (repeat' split) <;> simp [hs]

/-! ### Ctl -/

@[simp] theorem execNop_wf (slot : Slot) (s : State) (hs : Memory.wf s.mem = true) : OutWf (execNop slot s) := by
  unfold execNop
  refine withSlot_wf _ fun env c => ?_
  dsimp only
  split <;> simp [hs]

@[simp] theorem execFmtset_wf (acc : BitVec 1) (b a : BitVec 4) (s : State) (hs : Memory.wf s.mem = true) :
    OutWf (execFmtset acc b a s) := by
  unfold execFmtset
  refine withSlot_wf _ fun env c => ?_
  simp [hs]

@[simp] theorem execQcfgSlack_wf (slack : BitVec 5) (eng : BitVec 3) (s : State) (hs : Memory.wf s.mem = true) :
    OutWf (execQcfgSlack slack eng s) := by
  unfold execQcfgSlack
  refine withSlot_wf _ fun env c => ?_
  simp [hs]

@[simp] theorem execQcfgPort_wf (rv : BitVec 1) (slot bank : BitVec 2) (s : State) (hs : Memory.wf s.mem = true) :
    OutWf (execQcfgPort rv slot bank s) := by
  unfold execQcfgPort
  refine withSlot_wf _ fun env c => ?_
  simp [hs]

@[simp] theorem execStepReg_wf (n : BitVec 24) (sel : BitVec 4) (slot : BitVec 3) (s : State) (hs : Memory.wf s.mem = true) :
    OutWf (execStepReg n sel slot s) := by
  unfold execStepReg
  refine withSlot_wf _ fun env c => ?_
  simp [hs]

@[simp] theorem execWaitw_wf (bytes : BitVec 15) (ch : BitVec 2) (s : State) (hs : Memory.wf s.mem = true) :
    OutWf (execWaitw bytes ch s) := by
  unfold execWaitw
  refine withSlot_wf _ fun env c => ?_
  (repeat' split) <;> simp [hs]

@[simp] theorem execSadv_wf (beats : BitVec 10) (sb : BitVec 1) (s : State) (hs : Memory.wf s.mem = true) :
    OutWf (execSadv beats sb s) := by
  unfold execSadv
  refine withSlot_wf _ fun env c => ?_
  simp [hs]

@[simp] theorem execMwait_wf (tile : BitVec 5) (s : State) (hs : Memory.wf s.mem = true) : OutWf (execMwait tile s) := by
  unfold execMwait
  refine withSlot_wf _ fun env c => ?_
  simp [hs]

@[simp] theorem execCkpt_wf (s : State) (hs : Memory.wf s.mem = true) : OutWf (execCkpt s) := by
  unfold execCkpt
  refine withSlot_wf _ fun env c => ?_
  simp [hs]

@[simp] theorem execProg_wf (s : State) (hs : Memory.wf s.mem = true) : OutWf (execProg s) := by
  unfold execProg
  refine withSlot_wf _ fun env c => ?_
  simp [hs]

@[simp] theorem execSync_wf (s : State) (hs : Memory.wf s.mem = true) : OutWf (execSync s) := by
  unfold execSync
  refine withSlot_wf _ fun env c => ?_
  simp [hs]

/-! ### Fetch -/

@[simp] theorem State.loadsFor_mem (s : State) (k : Nat) (i : Instr) : (s.loadsFor k i).mem = s.mem := by
  unfold State.loadsFor
  simp

@[simp] theorem State.begun_mem (s : State) : (s.begun).mem = s.mem := rfl

/-! ### MtxIssue -/

@[simp] theorem issueMtx_wf (op : Nat) (w : MtxWord) (s : State) (hs : Memory.wf s.mem = true) : OutWf (issueMtx op w s) := by
  unfold issueMtx
  refine withSlot_wf _ fun env c => ?_
  simp [hs]

@[simp] theorem execMma_wf (w : MtxWord) (s : State) (hs : Memory.wf s.mem = true) : OutWf (execMma w s) := issueMtx_wf _ _ _ hs

@[simp] theorem execMld_wf (w : MtxWord) (s : State) (hs : Memory.wf s.mem = true) : OutWf (execMld w s) := issueMtx_wf _ _ _ hs

@[simp] theorem execMldt_wf (w : MtxWord) (s : State) (hs : Memory.wf s.mem = true) : OutWf (execMldt w s) := issueMtx_wf _ _ _ hs

@[simp] theorem execMst_wf (w : MtxWord) (s : State) (hs : Memory.wf s.mem = true) : OutWf (execMst w s) := issueMtx_wf _ _ _ hs

@[simp] theorem execMstq_wf (w : MtxWord) (s : State) (hs : Memory.wf s.mem = true) : OutWf (execMstq w s) := issueMtx_wf _ _ _ hs

@[simp] theorem execMclr_wf (w : MtxWord) (s : State) (hs : Memory.wf s.mem = true) : OutWf (execMclr w s) := issueMtx_wf _ _ _ hs

@[simp] theorem execMacc_wf (w : MtxWord) (s : State) (hs : Memory.wf s.mem = true) : OutWf (execMacc w s) := issueMtx_wf _ _ _ hs

/-! ### VecArith -/

@[simp] theorem execVadd_wf (p : Pipe) (w : VWord) (s : State) (hs : Memory.wf s.mem = true) :
    OutWf (execVadd p w s) := lanes2_wf _ _ _ _ _ hs

@[simp] theorem execVsub_wf (p : Pipe) (w : VWord) (s : State) (hs : Memory.wf s.mem = true) :
    OutWf (execVsub p w s) := lanes2_wf _ _ _ _ _ hs

@[simp] theorem execVmul_wf (p : Pipe) (w : VWord) (s : State) (hs : Memory.wf s.mem = true) :
    OutWf (execVmul p w s) := lanes2_wf _ _ _ _ _ hs

@[simp] theorem execVfma_wf (p : Pipe) (w : VWord) (s : State) (hs : Memory.wf s.mem = true) :
    OutWf (execVfma p w s) := lanes3_wf _ _ _ _ _ hs

@[simp] theorem execVfms_wf (p : Pipe) (w : VWord) (s : State) (hs : Memory.wf s.mem = true) :
    OutWf (execVfms p w s) := lanes3_wf _ _ _ _ _ hs

@[simp] theorem execVmin_wf (p : Pipe) (w : VWord) (s : State) (hs : Memory.wf s.mem = true) :
    OutWf (execVmin p w s) := lanes2_wf _ _ _ _ _ hs

@[simp] theorem execVmax_wf (p : Pipe) (w : VWord) (s : State) (hs : Memory.wf s.mem = true) :
    OutWf (execVmax p w s) := lanes2_wf _ _ _ _ _ hs

@[simp] theorem execVabs_wf (p : Pipe) (w : VWord) (s : State) (hs : Memory.wf s.mem = true) :
    OutWf (execVabs p w s) := lanes1_wf _ _ _ _ _ hs

@[simp] theorem execVneg_wf (p : Pipe) (w : VWord) (s : State) (hs : Memory.wf s.mem = true) :
    OutWf (execVneg p w s) := lanes1_wf _ _ _ _ _ hs

@[simp] theorem execVrcp_wf (p : Pipe) (w : VWord) (s : State) (hs : Memory.wf s.mem = true) :
    OutWf (execVrcp p w s) := lanes1_wf _ _ _ _ _ hs

@[simp] theorem execVrsq_wf (p : Pipe) (w : VWord) (s : State) (hs : Memory.wf s.mem = true) :
    OutWf (execVrsq p w s) := lanes1_wf _ _ _ _ _ hs

@[simp] theorem execVexp2_wf (p : Pipe) (w : VWord) (s : State) (hs : Memory.wf s.mem = true) :
    OutWf (execVexp2 p w s) := lanes1_wf _ _ _ _ _ hs

@[simp] theorem execVdiv_wf (p : Pipe) (w : VWord) (s : State) (hs : Memory.wf s.mem = true) :
    OutWf (execVdiv p w s) := lanes2_wf _ _ _ _ _ hs

@[simp] theorem execVand_wf (p : Pipe) (w : VWord) (s : State) (hs : Memory.wf s.mem = true) :
    OutWf (execVand p w s) := lanes2_wf _ _ _ _ _ hs

@[simp] theorem execVor_wf (p : Pipe) (w : VWord) (s : State) (hs : Memory.wf s.mem = true) :
    OutWf (execVor p w s) := lanes2_wf _ _ _ _ _ hs

@[simp] theorem execVxor_wf (p : Pipe) (w : VWord) (s : State) (hs : Memory.wf s.mem = true) :
    OutWf (execVxor p w s) := lanes2_wf _ _ _ _ _ hs

@[simp] theorem execVnot_wf (p : Pipe) (w : VWord) (s : State) (hs : Memory.wf s.mem = true) :
    OutWf (execVnot p w s) := lanes1_wf _ _ _ _ _ hs

@[simp] theorem execVshl_wf (p : Pipe) (w : VWord) (s : State) (hs : Memory.wf s.mem = true) :
    OutWf (execVshl p w s) := lanes2_wf _ _ _ _ _ hs

@[simp] theorem execVshr_wf (p : Pipe) (w : VWord) (s : State) (hs : Memory.wf s.mem = true) :
    OutWf (execVshr p w s) := lanes2_wf _ _ _ _ _ hs

@[simp] theorem execVsra_wf (p : Pipe) (w : VWord) (s : State) (hs : Memory.wf s.mem = true) :
    OutWf (execVsra p w s) := lanes2_wf _ _ _ _ _ hs

@[simp] theorem execVshli_wf (p : Pipe) (w : VWord) (s : State) (hs : Memory.wf s.mem = true) :
    OutWf (execVshli p w s) := lanes1_wf _ _ _ _ _ hs

@[simp] theorem execVshri_wf (p : Pipe) (w : VWord) (s : State) (hs : Memory.wf s.mem = true) :
    OutWf (execVshri p w s) := lanes1_wf _ _ _ _ _ hs

@[simp] theorem execVmulh_wf (p : Pipe) (w : VWord) (s : State) (hs : Memory.wf s.mem = true) :
    OutWf (execVmulh p w s) := lanes2_wf _ _ _ _ _ hs

@[simp] theorem execVclz_wf (p : Pipe) (w : VWord) (s : State) (hs : Memory.wf s.mem = true) :
    OutWf (execVclz p w s) := lanes1_wf _ _ _ _ _ hs

@[simp] theorem execVwadd_wf (p : Pipe) (w : VWord) (s : State) (hs : Memory.wf s.mem = true) :
    OutWf (execVwadd p w s) := issueVec_wf _ _ _ _ _ _ hs

@[simp] theorem execVwacc_wf (p : Pipe) (w : VWord) (s : State) (hs : Memory.wf s.mem = true) :
    OutWf (execVwacc p w s) := issueVec_wf _ _ _ _ _ _ hs

@[simp] theorem execVwmul_wf (p : Pipe) (w : VWord) (s : State) (hs : Memory.wf s.mem = true) :
    OutWf (execVwmul p w s) := issueVec_wf _ _ _ _ _ _ hs

/-! ### VecMove -/

@[simp] theorem execVcmp_wf (p : Pipe) (w : VWord) (s : State) (hs : Memory.wf s.mem = true) :
    OutWf (execVcmp p w s) := issueVec_wf _ _ _ _ _ _ hs

@[simp] theorem execVsel_wf (p : Pipe) (w : VWord) (s : State) (hs : Memory.wf s.mem = true) :
    OutWf (execVsel p w s) := issueVec_wf _ _ _ _ _ _ hs

@[simp] theorem execQop_wf (p : Pipe) (w : VWord) (s : State) (hs : Memory.wf s.mem = true) : OutWf (execQop p w s) := by
  unfold execQop
  refine withSlot_wf _ fun env c => ?_
  simp [hs]

@[simp] theorem execVcvt_wf (p : Pipe) (w : VWord) (s : State) (hs : Memory.wf s.mem = true) :
    OutWf (execVcvt p w s) := issueVec_wf _ _ _ _ _ _ hs

@[simp] theorem execVqnt_wf (p : Pipe) (w : VWord) (s : State) (hs : Memory.wf s.mem = true) :
    OutWf (execVqnt p w s) := issueVec_wf _ _ _ _ _ _ hs

@[simp] theorem execVdqnt_wf (p : Pipe) (w : VWord) (s : State) (hs : Memory.wf s.mem = true) :
    OutWf (execVdqnt p w s) := issueVec_wf _ _ _ _ _ _ hs

@[simp] theorem execVscan_wf (p : Pipe) (w : VWord) (s : State) (hs : Memory.wf s.mem = true) :
    OutWf (execVscan p w s) := issueVec_wf _ _ _ _ _ _ hs

@[simp] theorem execVred_wf (p : Pipe) (w : VWord) (s : State) (hs : Memory.wf s.mem = true) :
    OutWf (execVred p w s) := issueVec_wf _ _ _ _ _ _ hs

@[simp] theorem execVperm_wf (p : Pipe) (w : VWord) (s : State) (hs : Memory.wf s.mem = true) :
    OutWf (execVperm p w s) := issueVec_wf _ _ _ _ _ _ hs

@[simp] theorem execVbcst_wf (p : Pipe) (w : VWord) (s : State) (hs : Memory.wf s.mem = true) :
    OutWf (execVbcst p w s) := issueVec_wf _ _ _ _ _ _ hs

@[simp] theorem execVshfl_wf (p : Pipe) (w : VWord) (s : State) (hs : Memory.wf s.mem = true) :
    OutWf (execVshfl p w s) := issueVec_wf _ _ _ _ _ _ hs

@[simp] theorem execViota_wf (p : Pipe) (w : VWord) (s : State) (hs : Memory.wf s.mem = true) :
    OutWf (execViota p w s) := issueVec_wf _ _ _ _ _ _ hs

@[simp] theorem execVmov_wf (p : Pipe) (w : VWord) (s : State) (hs : Memory.wf s.mem = true) :
    OutWf (execVmov p w s) := lanes1_wf _ _ _ _ _ hs

@[simp] theorem execVmovi_wf (p : Pipe) (w : VWord) (s : State) (hs : Memory.wf s.mem = true) :
    OutWf (execVmovi p w s) := issueVec_wf _ _ _ _ _ _ hs

@[simp] theorem execVldi_wf (p : Pipe) (w : VWord) (s : State) (hs : Memory.wf s.mem = true) :
    OutWf (execVldi p w s) := issueVec_wf _ _ _ _ _ _ hs

@[simp] theorem execVchk_wf (p : Pipe) (w : VWord) (s : State) (hs : Memory.wf s.mem = true) : OutWf (execVchk p w s) := by
  unfold execVchk
  refine withSlot_wf _ fun env c => ?_
  simp [hs]

@[simp] theorem execVclrp_wf (p : Pipe) (w : VWord) (s : State) (hs : Memory.wf s.mem = true) : OutWf (execVclrp p w s) := by
  unfold execVclrp
  refine withSlot_wf _ fun env c => ?_
  simp [hs]

@[simp] theorem execVstat_wf (p : Pipe) (w : VWord) (s : State) (hs : Memory.wf s.mem = true) : OutWf (execVstat p w s) := by
  unfold execVstat
  refine withSlot_wf _ fun env c => ?_
  simp [hs]

/-! ### SlotRun -/

theorem slotOp_wf (i : Instr) (s : State) (hs : Memory.wf s.mem = true) : OutWf (slotOp i s) := by
  cases i with
  | nop => exact execNop_wf _ _ hs
  | fmtset => exact execFmtset_wf _ _ _ _ hs
  | qcfgSlack => exact execQcfgSlack_wf _ _ _ hs
  | qcfgPort => exact execQcfgPort_wf _ _ _ _ hs
  | stepReg => exact execStepReg_wf _ _ _ _ hs
  | waitw => exact execWaitw_wf _ _ _ hs
  | sadv => exact execSadv_wf _ _ _ hs
  | mwait => exact execMwait_wf _ _ hs
  | ckpt => exact execCkpt_wf _ hs
  | prog => exact execProg_wf _ hs
  | sync => exact execSync_wf _ hs
  | vld => exact execVld_wf _ _ hs
  | vst => exact execVst_wf _ _ hs
  | vldg => exact execVldg_wf _ _ hs
  | vldgs => exact execVldgs_wf _ _ hs
  | vstg => exact execVstg_wf _ _ hs
  | vgth => exact execVgth_wf _ _ hs
  | vgths => exact execVgths_wf _ _ hs
  | vsct => exact execVsct_wf _ _ hs
  | phase => exact execPhase_wf _ hs
  | pftch => exact execPftch_wf _ _ hs
  | fill => exact execFill_wf _ _ hs
  | fills => exact execFills_wf _ _ hs
  | feed => exact execFeed_wf _ _ hs
  | feedt => exact execFeedt_wf _ _ hs
  | drain => exact execDrain_wf _ _ hs
  | addw => exact execAddw_wf _ _ hs
  | rput => exact execRput_wf _ _ hs
  | cresm => exact execCresm_wf _ _ hs
  | cclr => exact execCclr_wf _ _ hs
  | aadd => exact execAadd_wf _ _ hs
  | amin => exact execAmin_wf _ _ hs
  | amax => exact execAmax_wf _ _ hs
  | aand => exact execAand_wf _ _ hs
  | aor => exact execAor_wf _ _ hs
  | axor => exact execAxor_wf _ _ hs
  | aswp => exact execAswp_wf _ _ hs
  | acas => exact execAcas_wf _ _ hs
  | red => exact execRed_wf _ _ hs
  | arv => exact execArv_wf _ _ hs
  | arvd => exact execArvd_wf _ _ hs
  | bwait => exact execBwait_wf _ _ hs
  | btest => exact execBtest_wf _ _ hs
  | sig => exact execSig_wf _ _ hs
  | swait => exact execSwait_wf _ _ hs
  | uli => exact execUli_wf _ _ hs
  | sfence => exact execSfence_wf _ _ hs
  | brst => exact execBrst_wf _ _ hs
  | mma => exact execMma_wf _ _ hs
  | mld => exact execMld_wf _ _ hs
  | mldt => exact execMldt_wf _ _ hs
  | mst => exact execMst_wf _ _ hs
  | mstq => exact execMstq_wf _ _ hs
  | mclr => exact execMclr_wf _ _ hs
  | macc => exact execMacc_wf _ _ hs
  | vadd => exact execVadd_wf _ _ _ hs
  | vsub => exact execVsub_wf _ _ _ hs
  | vmul => exact execVmul_wf _ _ _ hs
  | vfma => exact execVfma_wf _ _ _ hs
  | vfms => exact execVfms_wf _ _ _ hs
  | vmin => exact execVmin_wf _ _ _ hs
  | vmax => exact execVmax_wf _ _ _ hs
  | vabs => exact execVabs_wf _ _ _ hs
  | vneg => exact execVneg_wf _ _ _ hs
  | vrcp => exact execVrcp_wf _ _ _ hs
  | vrsq => exact execVrsq_wf _ _ _ hs
  | vexp2 => exact execVexp2_wf _ _ _ hs
  | vdiv => exact execVdiv_wf _ _ _ hs
  | vand => exact execVand_wf _ _ _ hs
  | vor => exact execVor_wf _ _ _ hs
  | vxor => exact execVxor_wf _ _ _ hs
  | vnot => exact execVnot_wf _ _ _ hs
  | vshl => exact execVshl_wf _ _ _ hs
  | vshr => exact execVshr_wf _ _ _ hs
  | vsra => exact execVsra_wf _ _ _ hs
  | vshli => exact execVshli_wf _ _ _ hs
  | vshri => exact execVshri_wf _ _ _ hs
  | vmulh => exact execVmulh_wf _ _ _ hs
  | vclz => exact execVclz_wf _ _ _ hs
  | vwadd => exact execVwadd_wf _ _ _ hs
  | vwacc => exact execVwacc_wf _ _ _ hs
  | vwmul => exact execVwmul_wf _ _ _ hs
  | vcmp => exact execVcmp_wf _ _ _ hs
  | vsel => exact execVsel_wf _ _ _ hs
  | qop => exact execQop_wf _ _ _ hs
  | vcvt => exact execVcvt_wf _ _ _ hs
  | vqnt => exact execVqnt_wf _ _ _ hs
  | vdqnt => exact execVdqnt_wf _ _ _ hs
  | vscan => exact execVscan_wf _ _ _ hs
  | vred => exact execVred_wf _ _ _ hs
  | vperm => exact execVperm_wf _ _ _ hs
  | vbcst => exact execVbcst_wf _ _ _ hs
  | vshfl => exact execVshfl_wf _ _ _ hs
  | viota => exact execViota_wf _ _ _ hs
  | vmov => exact execVmov_wf _ _ _ hs
  | vmovi => exact execVmovi_wf _ _ _ hs
  | vldi => exact execVldi_wf _ _ _ hs
  | vchk => exact execVchk_wf _ _ _ hs
  | vclrp => exact execVclrp_wf _ _ _ hs
  | vstat => exact execVstat_wf _ _ _ hs
  | _ => exact (outWf_next s).mpr hs

@[simp] theorem State.runSlot_wf (s : State) (i : Instr) (hs : Memory.wf s.mem = true) : Memory.wf (s.runSlot i).mem = true := by
  have h := slotOp_wf i s hs
  unfold State.runSlot
  generalize slotOp i s = o at h ⊢
  cases o with
  | next t => exact h t rfl
  | _ => exact hs

/-! ### Issue -/

@[simp] theorem State.issueWord_wf (s : State) (w : Nat × Word) (hs : Memory.wf s.mem = true) : Memory.wf (s.issueWord w).mem = true := by
  unfold State.issueWord
  split <;> simp [hs]

theorem tryBundle_wf (s : State) (k : Nat) (c : Context) (e : QEntry) (hs : Memory.wf s.mem = true) :
    Memory.wf (tryBundle s k c e).1.mem = true :=
  foldl_wf _ (fun t w ht => State.issueWord_wf t w ht) _ (by simp [hs])

@[simp] theorem finishIssue_mem (t : State) (k : Nat) (c : Context) (e : QEntry) (env : SlotEnv) (split : Option Nat) :
    (finishIssue t k c e env split).mem = t.mem := State.updCtx_mem t k _

/-! ### Matrix -/

@[simp] theorem execMatrixOpBegin_wf (core : Nat) (s : State) (hs : Memory.wf s.mem = true) : OutWf (execMatrixOpBegin core s) := by
  unfold execMatrixOpBegin
  extract_lets r order cand
  split <;> simp [hs]

@[simp] theorem execMmaGroup_wf (k n : Nat) (s : State) (hs : Memory.wf s.mem = true) : OutWf (execMmaGroup k n s) := by
  unfold execMmaGroup
  refine atMatrix_wf _ _ _ hs fun c o => ?_
  simp [hs]

@[simp] theorem State.writeCRow_mem (s : State) (k idx tile row : Nat) (els : List (Nat × Bool)) :
    (s.writeCRow k idx tile row els).mem = s.mem := by
  unfold State.writeCRow
  refine foldl_mem _ (fun t i => ?_) _ _
  simp

@[simp] theorem State.writeMst_mem (s : State) (k idx tile off : Nat) (b : List Byte) (poison : Nat → Bool) :
    (s.writeMst k idx tile off b poison).mem = s.mem := by
  unfold State.writeMst
  refine foldl_mem _ (fun t i => ?_) _ _
  simp

@[simp] theorem State.matrixRow_mem (s : State) (k : Nat) (c : Context) (o : MtxOp) (m : Nat) : (s.matrixRow k c o m).1.mem = s.mem := by
  unfold State.matrixRow
  (repeat' split) <;> simp

@[simp] theorem State.matrixDone_mem (s : State) (k : Nat) (c : Context) (o : MtxOp) : (s.matrixDone k c o).mem = s.mem := by
  unfold State.matrixDone
  simp

theorem execMatrixOpComplete_wf (k n : Nat) (s : State) (hs : Memory.wf s.mem = true) : OutWf (execMatrixOpComplete k n s) := by
  unfold execMatrixOpComplete
  refine atMatrix_wf _ _ _ hs fun c o => ?_
  dsimp only
  split
  · exact hs
  split
  · simp [hs]
  split <;> simp [hs]

@[simp] theorem State.mtxCycle_mem (s : State) (core : Nat) (l : List (Nat × Context × MtxOp)) (p : MtxPlan)  : (s.mtxCycle core l p).mem = s.mem := by
  have hload (l : List (Nat × Nat)) : (l.foldl (fun s x => s.updCtx x.1 (fun c => c.updMtx x.2 (fun o => { o with loaded := o.loaded + 1 }))) s).mem =
      s.mem := foldl_mem _ (fun t x => State.updCtx_mem t _ _) l s
  unfold State.mtxCycle
  dsimp only
  split
  · exact hload _
  · rw [State.updCore_mem, State.updCtx_mem, State.updCore_mem]; exact hload _

/-! ### Cycle -/

@[simp] theorem State.assertHold_mem (s : State) (k cause : Nat) (twait : Bool) : (s.assertHold k cause twait).mem = s.mem := by
  unfold State.assertHold
  simp

@[simp] theorem State.retestHold_mem (s : State) (k : Nat) : (s.retestHold k).mem = s.mem := by
  unfold State.retestHold
  split
  · rfl
  split
  · rfl
  split
  · simp
  · simp

@[simp] theorem State.countCycle_mem (s : State) (core : Nat) : (s.countCycle core).mem = s.mem := rfl

@[simp] theorem State.countHolds_mem (s : State) (core : Nat) : (s.countHolds core).mem = s.mem := by
  unfold State.countHolds
  refine foldl_mem _ (fun t i => ?_) _ _
  simp

@[simp] theorem State.writeLogs_wf (s : State) (core : Nat) (hs : Memory.wf s.mem = true) : Memory.wf (s.writeLogs core).mem = true := by
  unfold State.writeLogs
  refine foldl_wf _ (fun t i ht => ?_) _ hs
  (repeat' split) <;> simp [ht]

theorem headAttempt_wf (s : State) (k : Nat) (c c1 : Context) (e : QEntry) (hs : Memory.wf s.mem = true) {t : State} {w : Nat}
    (h : headAttempt s k c c1 e = .cycle t w) : Memory.wf t.mem = true := by
  have htry := tryBundle_wf s k c1 e hs
  unfold headAttempt emptyBundle at h
  dsimp only at h
  repeat' split at h
  all_goals cases h <;> simp [hs, htry]

/-- An attempt that spends the cycle keeps the form. -/
theorem attempt_wf (s : State) (k : Nat) (hs : Memory.wf s.mem = true) {t : State} {w : Nat} (h : attempt s k = .cycle t w) :
    Memory.wf t.mem = true := by
  have hempty {c : Context} (h : emptyBundle s k c = .cycle t w) : Memory.wf t.mem = true := by cases h; exact hs
  unfold attempt at h
  split at h
  · cases h
  dsimp only at h
  split at h
  · cases h; exact hs
  split at h
  · cases h
  split at h
  · split at h
    · exact hempty h
    · cases h
  split at h
  · cases h
  split at h
  · split at h
    · cases h
    · exact hempty h
  split at h
  · exact hempty h
  · exact headAttempt_wf s k _ _ _ hs h

theorem flexGrant_wf (core : Nat) (l : List (Nat × Nat × Int)) (s : State) (hs : Memory.wf s.mem = true) :
    Memory.wf (flexGrant core s l).1.mem = true := by
  induction l generalizing s with
  | nil => exact hs
  | cons x l ih =>
    have hwon (t : State) (ht : Memory.wf t.mem = true) : Memory.wf (match s.ctx x.2.1 with
      | some c => (t.updCore core (fun r => { r with flexLast := x.1 })).updDie (dieOfCore core) (fun d => d.boostCycle c.id.tenant c.id.gang)
      | none => t : State).mem = true := by split <;> simp [ht]
    unfold flexGrant
    dsimp only
    split
    · exact hwon s hs
    · exact ih _ (by simp [hs])
    · exact hwon _ (attempt_wf s _ hs (by assumption))

theorem issueStage_wf (s : State) (core : Nat) (hs : Memory.wf s.mem = true) : Memory.wf (issueStage s core).1.mem = true := by
  unfold issueStage
  dsimp only
  split
  · exact flexGrant_wf _ _ _ hs
  split
  · exact hs
  · exact flexGrant_wf _ _ _ (by simp [hs])
  · have ht := attempt_wf s _ hs (by assumption)
    dsimp only
    split <;> simp [ht]

theorem execCoreCycle_wf (core : Nat) (env : CycleEnv) (s : State) (hs : Memory.wf s.mem = true) : OutWf (execCoreCycle core env s) := by
  unfold execCoreCycle
  split
  · exact (outWf_next s).mpr hs
  extract_lets s0 s1 running movers gen
  have hs1 : Memory.wf s1.mem = true := by
    have hmem : s1.mem = s.mem := foldl_mem State.retestHold State.retestHold_mem _ s0
    rw [hmem]; exact hs
  have hissue := issueStage_wf s1 core hs1
  rcases hr : issueStage s1 core with ⟨t, w, spent⟩
  rw [hr] at hissue
  refine outWf_ite _ ((outWf_next _).mpr ?_) ((outWf_next _).mpr ?_)
  · exact hs
  · refine State.writeLogs_wf _ _ ?_
    rw [State.mtxCycle_mem, State.updCore_mem, State.countHolds_mem]
    exact hissue

@[simp] theorem execSlotTableUpdate_wf (core : Nat) (s : State) (hs : Memory.wf s.mem = true) : OutWf (execSlotTableUpdate core s) := by
  unfold execSlotTableUpdate
  simp [hs]

@[simp] theorem execVectorResultDue_wf (k : Nat) (s : State) (hs : Memory.wf s.mem = true) : OutWf (execVectorResultDue k s) := by
  unfold execVectorResultDue
  simp [hs]

@[simp] theorem execFmtTakesEffect_wf (k : Nat) (s : State) (hs : Memory.wf s.mem = true) : OutWf (execFmtTakesEffect k s) := by
  unfold execFmtTakesEffect
  simp [hs]

@[simp] theorem execSpinLimitReached_wf (k : Nat) (s : State) (hs : Memory.wf s.mem = true) : OutWf (execSpinLimitReached k s) := by
  unfold execSpinLimitReached
  simp [hs]

/-! ### Inval -/

@[simp] theorem execInvalidateAll_wf (die : Nat) (s : State) (hs : Memory.wf s.mem = true) : OutWf (execInvalidateAll die s) := by
  unfold execInvalidateAll
  simp [hs]

@[simp] theorem execInvalidateVaRange_wf (die : Nat) (s : State) (hs : Memory.wf s.mem = true) : OutWf (execInvalidateVaRange die s) := by
  unfold execInvalidateVaRange
  simp [hs]

@[simp] theorem execInvalidateIpaRange_wf (die : Nat) (part : BitVec 4) (s : State) (hs : Memory.wf s.mem = true) :
    OutWf (execInvalidateIpaRange die part s) := by
  unfold execInvalidateIpaRange
  simp [hs]

@[simp] theorem execInvalidateRoot_wf (die : Nat) (s : State) (hs : Memory.wf s.mem = true) : OutWf (execInvalidateRoot die s) := by
  unfold execInvalidateRoot
  simp [hs]

@[simp] theorem execInvalidatePartition_wf (die : Nat) (part : BitVec 4) (s : State) (hs : Memory.wf s.mem = true) :
    OutWf (execInvalidatePartition die part s) := by
  unfold execInvalidatePartition
  simp [hs]

@[simp] theorem execInvalidationComplete_wf (die : Nat) (s : State) (hs : Memory.wf s.mem = true) :
    OutWf (execInvalidationComplete die s) := by
  unfold execInvalidationComplete
  simp [hs]

/-! ### Dump -/

@[simp] theorem State.writeDump_wf (s : State) (c : Context) (f : Freeze) (hs : Memory.wf s.mem = true) :
    Memory.wf (s.writeDump c f).1.mem = true := by
  unfold State.writeDump
  dsimp only
  split <;> simp [hs]

/-! ### Fatal -/

@[simp] theorem State.dropCopyFaults_mem (s : State) (k : Nat) (c : Context) : (s.dropCopyFaults k c).mem = s.mem := by
  unfold State.dropCopyFaults
  simp

@[simp] theorem State.settleFreeze_mem (s : State) (k : Nat) (c : Context) (f : Freeze) : (s.settleFreeze k c f).mem = s.mem := by
  unfold State.settleFreeze
  simp

@[simp] theorem execFatalTrap_wf (k : Nat) (s : State) (hs : Memory.wf s.mem = true) : OutWf (execFatalTrap k s) := by
  unfold execFatalTrap
  refine atCtx_wf _ _ hs fun c hc => ?_
  (repeat' split) <;> simp [hs]

@[simp] theorem execRimeDump_wf (k : Nat) (s : State) (hs : Memory.wf s.mem = true) : OutWf (execRimeDump k s) := by
  unfold execRimeDump
  refine atCtx_wf _ _ hs fun c hc => ?_
  dsimp only
  split <;> simp [hs]

@[simp] theorem execContextDead_wf (k : Nat) (s : State) (hs : Memory.wf s.mem = true) : OutWf (execContextDead k s) := by
  unfold execContextDead
  refine atCtx_wf _ _ hs fun c hc => ?_
  (repeat' split) <;> simp [hs]

@[simp] theorem execWatchdogFire_wf (k : Nat) (s : State) (hs : Memory.wf s.mem = true) : OutWf (execWatchdogFire k s) := by
  unfold execWatchdogFire
  refine atCore_wf _ _ hs fun c => ?_
  (repeat' split) <;> simp [hs]

@[simp] theorem State.thaw_mem (s : State) (die : Nat) (v : Word) : (s.thaw die v).mem = s.mem := by
  unfold State.thaw
  simp

@[simp] theorem execThaw_wf (die : Nat) (v : Word) (s : State) (hs : Memory.wf s.mem = true) : OutWf (execThaw die v s) := by
  unfold execThaw
  simp [hs]

/-! ### Queue -/

@[simp] theorem State.setQueue_mem (s : State) (die h : Nat) (q : Queue) : (s.setQueue die h q).mem = s.mem := rfl

@[simp] theorem State.stopQueue_wf (s : State) (die h : Nat) (cause sub : Nat) (va : Word) (hs : Memory.wf s.mem = true) :
    Memory.wf (s.stopQueue die h cause sub va).mem = true := by
  unfold State.stopQueue
  simp [hs]

@[simp] theorem State.stopBegun_wf (s : State) (die h : Nat) (cause sub : Nat) (va : Word) (hs : Memory.wf s.mem = true) :
    Memory.wf (s.stopBegun die h cause sub va).mem = true := by
  unfold State.stopBegun
  simp [hs]

@[simp] theorem State.queueXlate_wf (s : State) (die h : Nat) (words : Option (List Word)) (x : XFault) (hs : Memory.wf s.mem = true) :
    Memory.wf (s.queueXlate die h words x).mem = true := by
  unfold State.queueXlate
  dsimp only
  split <;> simp [hs]

@[simp] theorem State.beginPacket_mem (s : State) (die h : Nat) (q : Queue) : (s.beginPacket die h q).mem = s.mem := rfl

theorem atPacket_wf {s : State} (die h : Nat) (kind : List Word → Bool) (f : State → Queue → List Word → State) (hs : Memory.wf s.mem = true)
    (hf : ∀ t q ws, Memory.wf t.mem = true → Memory.wf (f t q ws).mem = true) : OutWf (atPacket s die h kind f) := by
  unfold atPacket
  dsimp only
  split
  · simp [hs]
  · simp [hs]
  · simp [hs]
  · refine (outWf_next _).mpr ?_
    split
    · exact hf _ _ _ (by simp [hs])
    · exact hs

@[simp] theorem State.withdrawWait_mem (s : State) (die h : Nat) : (s.withdrawWait die h).mem = s.mem := by
  unfold State.withdrawWait
  dsimp only
  split <;> simp

@[simp] theorem State.checkPtr_wf (s : State) (die h : Nat) (hs : Memory.wf s.mem = true) : Memory.wf (s.checkPtr die h).mem = true := by
  unfold State.checkPtr
  simp [hs]

@[simp] theorem State.passQueue_wf (s : State) (die h : Nat) (q : Queue) (hs : Memory.wf s.mem = true) :
    Memory.wf (s.passQueue die h q).mem = true := by
  unfold State.passQueue
  simp [hs]

@[simp] theorem State.queueStart_mem (s : State) (die h : Nat) : (s.queueStart die h).mem = s.mem := by
  unfold State.queueStart
  simp

@[simp] theorem State.queueResume_wf (s : State) (die h : Nat) (hs : Memory.wf s.mem = true) :
    Memory.wf (s.queueResume die h).mem = true := by
  unfold State.queueResume
  simp [hs]

@[simp] theorem State.queuePark_mem (s : State) (die h : Nat) : (s.queuePark die h).mem = s.mem := by
  unfold State.queuePark
  simp

@[simp] theorem State.queueDisable_mem (s : State) (die h : Nat) : (s.queueDisable die h).mem = s.mem := by
  unfold State.queueDisable
  simp

@[simp] theorem State.queueState_wf (s : State) (die h v : Nat) (hs : Memory.wf s.mem = true) :
    Memory.wf (s.queueState die h v).mem = true := by
  unfold State.queueState
  (repeat' split) <;> simp [hs]

@[simp] theorem execQueueStart_wf (die h : Nat) (s : State) (hs : Memory.wf s.mem = true) : OutWf (execQueueStart die h s) := by
  unfold execQueueStart
  simp [hs]

@[simp] theorem execQueueResume_wf (die h : Nat) (s : State) (hs : Memory.wf s.mem = true) : OutWf (execQueueResume die h s) := by
  unfold execQueueResume
  simp [hs]

@[simp] theorem execQueuePark_wf (die h : Nat) (s : State) (hs : Memory.wf s.mem = true) : OutWf (execQueuePark die h s) := by
  unfold execQueuePark
  simp [hs]

@[simp] theorem execQueueDisable_wf (die h : Nat) (s : State) (hs : Memory.wf s.mem = true) : OutWf (execQueueDisable die h s) := by
  unfold execQueueDisable
  simp [hs]

@[simp] theorem State.doorbellStore_wf (s : State) (die part off size : Nat) (v : Word) (hs : Memory.wf s.mem = true) :
    Memory.wf (s.doorbellStore die part off size v).mem = true := by
  unfold State.doorbellStore
  dsimp only
  split <;> simp [hs]

@[simp] theorem execDoorbell_wf (die part off size : Nat) (value : Word) (s : State) (hs : Memory.wf s.mem = true) :
    OutWf (execDoorbell die part off size value s) := by
  unfold execDoorbell
  simp [hs]

@[simp] theorem execPacketFetch_wf (die h : Nat) (s : State) (hs : Memory.wf s.mem = true) : OutWf (execPacketFetch die h s) := by
  unfold execPacketFetch
  dsimp only
  (repeat' split) <;> simp [hs]

@[simp] theorem execPktNop_wf (die h : Nat) (s : State) (hs : Memory.wf s.mem = true) : OutWf (execPktNop die h s) := by
  unfold execPktNop
  refine atPacket_wf _ _ _ _ hs fun t q ws ht => ?_
  simp [ht]

@[simp] theorem execIb_wf (die h : Nat) (s : State) (hs : Memory.wf s.mem = true) : OutWf (execIb die h s) := by
  unfold execIb
  refine atPacket_wf _ _ _ _ hs fun t q ws ht => ?_
  simp [ht]

@[simp] theorem execPktLoop_wf (die h : Nat) (s : State) (hs : Memory.wf s.mem = true) : OutWf (execPktLoop die h s) := by
  unfold execPktLoop
  refine atPacket_wf _ _ _ _ hs fun t q ws ht => ?_
  (repeat' split) <;> simp [ht]

@[simp] theorem execFfence_wf (die h : Nat) (s : State) (hs : Memory.wf s.mem = true) : OutWf (execFfence die h s) := by
  unfold execFfence
  refine atPacket_wf _ _ _ _ hs fun t q ws ht => ?_
  simp [ht]

@[simp] theorem State.sendSync_wf (s : State) (die h : Nat) (q : Queue) (ws : List Word) (acc : Access) (hs : Memory.wf s.mem = true) :
    Memory.wf (s.sendSync die h q ws acc).mem = true := by
  unfold State.sendSync
  (repeat' split) <;> simp [hs]

theorem syncPacket_wf {s : State} (die h : Nat) (kind : List Word → Bool) (acc : Access) (perform : State → Queue → Loc → List Word → State)
    (hs : Memory.wf s.mem = true) (hf : ∀ t q loc ws, Memory.wf t.mem = true → Memory.wf (perform t q loc ws).mem = true) :
    OutWf (syncPacket s die h kind acc perform) := by
  unfold syncPacket
  dsimp only
  split
  · split
    · simp [hs]
    · refine (outWf_next _).mpr ?_
      split
      · split_ifs <;> simp [hs]
      · exact hf _ _ _ _ (by simp [hs])
  · exact atPacket_wf _ _ _ _ hs fun t q ws ht => by simp [ht]

@[simp] theorem execPred_wf (die h : Nat) (s : State) (hs : Memory.wf s.mem = true) : OutWf (execPred die h s) := by
  unfold execPred
  refine syncPacket_wf _ _ _ _ _ hs fun t q loc ws ht => ?_
  simp [ht]

@[simp] theorem execPktWait_wf (die h : Nat) (s : State) (hs : Memory.wf s.mem = true) : OutWf (execPktWait die h s) := by
  unfold execPktWait
  dsimp only
  split
  · refine (outWf_next _).mpr ?_
    split <;> simp [hs]
  · refine syncPacket_wf _ _ _ _ _ hs fun t q loc ws ht => ?_
    split
    · simp [ht]
    split <;> simp [ht]

@[simp] theorem execPktSigAdd_wf (die h : Nat) (s : State) (hs : Memory.wf s.mem = true) : OutWf (execPktSigAdd die h s) := by
  unfold execPktSigAdd
  refine syncPacket_wf _ _ _ _ _ hs fun t q loc ws ht => ?_
  simp [ht]

@[simp] theorem execPktSigSet_wf (die h : Nat) (s : State) (hs : Memory.wf s.mem = true) : OutWf (execPktSigSet die h s) := by
  unfold execPktSigSet
  refine syncPacket_wf _ _ _ _ _ hs fun t q loc ws ht => ?_
  simp [ht]

@[simp] theorem execInvoke_wf (die h : Nat) (s : State) (hs : Memory.wf s.mem = true) : OutWf (execInvoke die h s) := by
  unfold execInvoke
  refine atPacket_wf _ _ _ _ hs fun t q ws ht => ?_
  dsimp only
  split <;> simp [ht]

@[simp] theorem execInvokeStart_wf (die h : Nat) (s : State) (hs : Memory.wf s.mem = true) : OutWf (execInvokeStart die h s) := by
  unfold execInvokeStart
  dsimp only
  (repeat' split) <;> simp [hs]

@[simp] theorem State.dropGraph_mem (s : State) (gid : Nat) : (s.dropGraph gid).mem = s.mem := rfl

@[simp] theorem execTaskGraphEnd_wf (die h : Nat) (s : State) (hs : Memory.wf s.mem = true) : OutWf (execTaskGraphEnd die h s) := by
  unfold execTaskGraphEnd
  dsimp only
  (repeat' split) <;> simp [hs]

@[simp] theorem State.queueServed_wf (s : State) (die h : Nat) (hs : Memory.wf s.mem = true) :
    Memory.wf (s.queueServed die h).mem = true := by
  unfold State.queueServed
  dsimp only
  split <;> simp [hs]

@[simp] theorem State.queueDeclined_wf (s : State) (die h : Nat) (sub : BitVec 8) (hs : Memory.wf s.mem = true) :
    Memory.wf (s.queueDeclined die h sub).mem = true := by
  unfold State.queueDeclined
  dsimp only
  split <;> simp [hs]

/-! ### Service -/

@[simp] theorem State.genServed_mem (s : State) (k : Nat) : (s.genServed k).mem = s.mem := by
  unfold State.genServed
  simp

@[simp] theorem State.genDeclined_wf (s : State) (k : Nat) (e : FaultEntry) (hs : Memory.wf s.mem = true) :
    Memory.wf (s.genDeclined k e).mem = true := by
  unfold State.genDeclined
  (repeat' split) <;> simp [hs]

@[simp] theorem State.serve_wf (s : State) (p : FaultPort) (e : FaultEntry) (hs : Memory.wf s.mem = true) :
    Memory.wf (s.serve p e).mem = true := by
  unfold State.serve
  (repeat' split) <;> simp [hs]

@[simp] theorem State.decline_wf (s : State) (p : FaultPort) (e : FaultEntry) (hs : Memory.wf s.mem = true) :
    Memory.wf (s.decline p e).mem = true := by
  unfold State.decline
  (repeat' split) <;> simp [hs]

@[simp] theorem State.closeFault_wf (s : State) (p : FaultPort) (seq : BitVec 32) (served : Bool) (hs : Memory.wf s.mem = true) :
    Memory.wf (s.closeFault p seq served).mem = true := by
  unfold State.closeFault
  dsimp only
  split <;> simp [hs]

@[simp] theorem State.drainFaults_wf (s : State) (p : FaultPort) (x_ : Nat) (hs : Memory.wf s.mem = true) : Memory.wf (s.drainFaults p x_).mem = true := by
  induction x_ generalizing s with
  | zero => exact hs
  | succ n ih =>
    unfold State.drainFaults
    dsimp only
    split
    · exact hs
    split
    · exact ih _ (by simp [hs])
    · exact hs

@[simp] theorem State.moveFaultHead_wf (s : State) (p : FaultPort) (head : BitVec 32) (hs : Memory.wf s.mem = true) :
    Memory.wf (s.moveFaultHead p head).mem = true := by
  unfold State.moveFaultHead
  simp [hs]

@[simp] theorem execFaultServed_wf (p : FaultPort) (seq : BitVec 32) (s : State) (hs : Memory.wf s.mem = true) :
    OutWf (execFaultServed p seq s) := by
  unfold execFaultServed
  simp [hs]

@[simp] theorem execFaultDeclined_wf (p : FaultPort) (seq : BitVec 32) (s : State) (hs : Memory.wf s.mem = true) :
    OutWf (execFaultDeclined p seq s) := by
  unfold execFaultDeclined
  simp [hs]

@[simp] theorem execFaultQueueHeadAdvance_wf (p : FaultPort) (head : BitVec 32) (s : State) (hs : Memory.wf s.mem = true) :
    OutWf (execFaultQueueHeadAdvance p head s) := by
  unfold execFaultQueueHeadAdvance
  simp [hs]

/-! ### Device -/

@[simp] theorem State.rescale_mem (s : State) (die : Nat) : (s.rescale die).mem = s.mem := rfl

@[simp] theorem State.overcommit_wf (s : State) (die : Nat) (hs : Memory.wf s.mem = true) : Memory.wf (s.overcommit die).mem = true := by
  exact foldl_wf _ (fun t kind ht => by dsimp only; split <;> simp [ht]) _ hs

@[simp] theorem State.setPart_mem (s : State) (die p : Nat) (r : PartRegs) : (s.setPart die p r).mem = s.mem := rfl

@[simp] theorem State.storePart_wf (s : State) (die p i : Nat) (v : Word) (hs : Memory.wf s.mem = true) :
    Memory.wf (s.storePart die p i v).mem = true := by
  unfold State.storePart
  dsimp only
  split <;> simp [hs]

@[simp] theorem State.storeSlots_mem (s : State) (core i : Nat) (v : Word) : (s.storeSlots core i v).mem = s.mem := by
  unfold State.storeSlots
  (repeat' split) <;> simp

@[simp] theorem State.storeSched_wf (s : State) (die o : Nat) (v : Word) (hs : Memory.wf s.mem = true) :
    Memory.wf (s.storeSched die o v).mem = true := by
  unfold State.storeSched
  (repeat' split) <;> simp [hs]

@[simp] theorem State.storeQueue_wf (s : State) (die h i : Nat) (v : Word) (hs : Memory.wf s.mem = true) :
    Memory.wf (s.storeQueue die h i v).mem = true := by
  unfold State.storeQueue
  dsimp only
  split <;> simp [hs]

@[simp] theorem State.storeCommand_wf (s : State) (die o : Nat) (v : Word) (hs : Memory.wf s.mem = true) :
    Memory.wf (s.storeCommand die o v).mem = true := by
  unfold State.storeCommand
  simp [hs]

@[simp] theorem State.storeFault_wf (s : State) (p : FaultPort) (o : Nat) (v : Word) (hs : Memory.wf s.mem = true) :
    Memory.wf (s.storeFault p o v).mem = true := by
  unfold State.storeFault
  dsimp only
  split <;> simp [hs]

@[simp] theorem State.storeEntry_mem (s : State) (k o : Nat) (v : Word) : (s.storeEntry k o v).mem = s.mem := by
  unfold State.storeEntry
  (repeat' split) <;> simp

@[simp] theorem State.measurePart_mem (s : State) (die o : Nat) (v : Word) : (s.measurePart die o v).mem = s.mem := by
  unfold State.measurePart
  simp

@[simp] theorem State.pageStore_wf (s : State) (p : DevPage) (o : Nat) (v : Word) (hs : Memory.wf s.mem = true) :
    Memory.wf (s.pageStore p o v).mem = true := by
  unfold State.pageStore
  (repeat' split) <;> simp [hs]

@[simp] theorem State.regStore_wf (s : State) (p : DevPage) (off size : Nat) (v : Word) (root : Nat) (who : Actor) (hs : Memory.wf s.mem =
    true) :
    Memory.wf (s.regStore p off size v root who).mem = true := by
  unfold State.regStore
  dsimp only
  (repeat' split) <;> simp [hs]

@[simp] theorem execRegisterWrite_wf (p : DevPage) (off size : Nat) (value : Word) (s : State) (hs : Memory.wf s.mem = true) :
    OutWf (execRegisterWrite p off size value s) := by
  unfold execRegisterWrite
  simp [hs]

@[simp] theorem State.deviceStore_wf (s : State) (l : Loc) (size : Nat) (v : Word) (root : Nat) (hs : Memory.wf s.mem = true) :
    Memory.wf (s.deviceStore l size v root).mem = true := by
  unfold State.deviceStore
  (repeat' split) <;> simp [hs]

@[simp] theorem State.setRetired_mem (s : State) (die : Nat) (u : RetireUnit) (out : Bool) : (s.setRetired die u out).mem = s.mem := by
  unfold State.setRetired
  (repeat' split) <;> simp

@[simp] theorem State.afterRetirement_wf (s : State) (pkg : Nat) (report : Bool) (hs : Memory.wf s.mem = true) :
    Memory.wf (s.afterRetirement pkg report).mem = true := by
  unfold State.afterRetirement
  refine foldl_wf _ (fun t i ht => ?_) _ hs
  (repeat' split) <;> simp [ht]

@[simp] theorem State.listRetired_mem (s : State) (die : Nat) (u : RetireUnit) (out : Bool) : (s.listRetired die u out).mem = s.mem := by
  unfold State.listRetired
  simp

@[simp] theorem execRetirement_wf (die : Nat) (x : Retire) (s : State) (hs : Memory.wf s.mem = true) : OutWf (execRetirement die x s) := by
  unfold execRetirement
  dsimp only
  split <;> simp [hs]

/-! ### GenMem -/

@[simp] theorem State.genLoadAt_wf (s : State) (c : Context) (op : BitVec 6) (va : Word) (n : Nat) (signed : Bool) (d : BitVec 6) (hs :
    Memory.wf s.mem = true) :
    Memory.wf (s.genLoadAt c op va n signed d).mem = true := by
  unfold State.genLoadAt
  (repeat' split) <;> simp [hs]

@[simp] theorem State.genStoreAt_wf (s : State) (c : Context) (op : BitVec 6) (va : Word) (n : Nat) (v : Word) (poison : Bool) (hs :
    Memory.wf s.mem = true) :
    Memory.wf (s.genStoreAt c op va n v poison).mem = true := by
  unfold State.genStoreAt
  (repeat' split) <;> simp [hs]

@[simp] theorem genLoad_wf (s : State) (op : BitVec 6) (n : Nat) (signed : Bool) (i : BitVec 13) (a d : BitVec 6) (hs : Memory.wf s.mem =
    true) :
    OutWf (genLoad s op n signed i a d) := by
  unfold genLoad
  refine withThread_wf _ fun c => ?_
  simp [hs]

@[simp] theorem genStore_wf (s : State) (op : BitVec 6) (n : Nat) (i : BitVec 13) (a b : BitVec 6) (hs : Memory.wf s.mem = true) :
    OutWf (genStore s op n i a b) := by
  unfold genStore
  refine withThread_wf _ fun c => ?_
  simp [hs]

@[simp] theorem execLdb_wf (i : BitVec 13) (a d : BitVec 6) (s : State) (hs : Memory.wf s.mem = true) :
    OutWf (execLdb i a d s) := genLoad_wf _ _ _ _ _ _ _ hs

@[simp] theorem execLdh_wf (i : BitVec 13) (a d : BitVec 6) (s : State) (hs : Memory.wf s.mem = true) :
    OutWf (execLdh i a d s) := genLoad_wf _ _ _ _ _ _ _ hs

@[simp] theorem execLdw_wf (i : BitVec 13) (a d : BitVec 6) (s : State) (hs : Memory.wf s.mem = true) :
    OutWf (execLdw i a d s) := genLoad_wf _ _ _ _ _ _ _ hs

@[simp] theorem execLdd_wf (i : BitVec 13) (a d : BitVec 6) (s : State) (hs : Memory.wf s.mem = true) :
    OutWf (execLdd i a d s) := genLoad_wf _ _ _ _ _ _ _ hs

@[simp] theorem execLdbu_wf (i : BitVec 13) (a d : BitVec 6) (s : State) (hs : Memory.wf s.mem = true) :
    OutWf (execLdbu i a d s) := genLoad_wf _ _ _ _ _ _ _ hs

@[simp] theorem execLdhu_wf (i : BitVec 13) (a d : BitVec 6) (s : State) (hs : Memory.wf s.mem = true) :
    OutWf (execLdhu i a d s) := genLoad_wf _ _ _ _ _ _ _ hs

@[simp] theorem execLdwu_wf (i : BitVec 13) (a d : BitVec 6) (s : State) (hs : Memory.wf s.mem = true) :
    OutWf (execLdwu i a d s) := genLoad_wf _ _ _ _ _ _ _ hs

@[simp] theorem execStb_wf (i : BitVec 13) (a b : BitVec 6) (s : State) (hs : Memory.wf s.mem = true) :
    OutWf (execStb i a b s) := genStore_wf _ _ _ _ _ _ hs

@[simp] theorem execSth_wf (i : BitVec 13) (a b : BitVec 6) (s : State) (hs : Memory.wf s.mem = true) :
    OutWf (execSth i a b s) := genStore_wf _ _ _ _ _ _ hs

@[simp] theorem execStw_wf (i : BitVec 13) (a b : BitVec 6) (s : State) (hs : Memory.wf s.mem = true) :
    OutWf (execStw i a b s) := genStore_wf _ _ _ _ _ _ hs

@[simp] theorem execStd_wf (i : BitVec 13) (a b : BitVec 6) (s : State) (hs : Memory.wf s.mem = true) :
    OutWf (execStd i a b s) := genStore_wf _ _ _ _ _ _ hs

@[simp] theorem execLdz_wf (o : BitVec 15) (z : BitVec 4) (d : BitVec 6) (s : State) (hs : Memory.wf s.mem = true) :
    OutWf (execLdz o z d s) := by
  unfold execLdz
  refine withThread_wf _ fun c => ?_
  simp [hs]

@[simp] theorem execStz_wf (o : BitVec 15) (z : BitVec 4) (b : BitVec 6) (s : State) (hs : Memory.wf s.mem = true) :
    OutWf (execStz o z b s) := by
  unfold execStz
  refine withThread_wf _ fun c => ?_
  simp [hs]

/-! ### Manage -/

@[simp] theorem execHostWrite_wf (serac pa : Nat) (data : List Byte) (s : State) (hs : Memory.wf s.mem = true) :
    OutWf (execHostWrite serac pa data s) := by
  unfold execHostWrite
  dsimp only
  (repeat' split) <;> simp [hs]

@[simp] theorem execHostRead_wf (serac pa n : Nat) (s : State) (hs : Memory.wf s.mem = true) : OutWf (execHostRead serac pa n s) := by
  unfold execHostRead
  dsimp only
  split <;> simp [hs]

@[simp] theorem State.setErrors_mem (s : State) (p : FaultPort) (m : SMap (Nat × Nat × Bool)) : (s.setErrors p m).mem = s.mem := by
  unfold State.setErrors
  (repeat' split) <;> simp

@[simp] theorem State.correctedError_wf (s : State) (p : FaultPort) (unit : Nat) (hs : Memory.wf s.mem = true) :
    Memory.wf (s.correctedError p unit).mem = true := by
  unfold State.correctedError
  simp [hs]

@[simp] theorem State.poisonChunk_mem (s : State) (coord comm inst index line : Nat) :
    (s.poisonChunk coord comm inst index line).mem = s.mem := rfl

@[simp] theorem execSramEccError_wf (site : EccSite) (s : State) (hs : Memory.wf s.mem = true) : OutWf (execSramEccError site s) := by
  unfold execSramEccError
  (repeat' split) <;> simp [hs]

@[simp] theorem State.spareIn_mem (s : State) (core : Nat) : (s.spareIn core).mem = s.mem := by
  unfold State.spareIn
  refine foldl_mem _ (fun t i => ?_) _ _
  simp

@[simp] theorem State.applyBootMap_mem (s : State) (serac : Nat) (f : Flash)  : (s.applyBootMap serac f).mem = s.mem := by
  refine foldl_mem _ (fun t die => (State.updDie_mem _ _ _).trans (foldl_mem _ (fun u k => ?_) _ t)) _ s
  split_ifs <;> simp

@[simp] theorem State.startManagement_mem (s : State) (serac : Nat) (run : Bool) : (s.startManagement serac run).mem = s.mem := by
  unfold State.startManagement
  refine foldl_mem _ (fun t i => ?_) _ _
  (repeat' split) <;> simp

theorem execResetBoot_wf (b : Reboot) (s : State) (hs : Memory.wf s.mem = true) : OutWf (execResetBoot b s) := by
  unfold execResetBoot
  dsimp only
  refine (outWf_next _).mpr ?_
  split <;> simp [hs]

@[simp] theorem execSpdmMeasurement_wf (serac : Nat) (nonce : List Byte) (s : State) (hs : Memory.wf s.mem = true) :
    OutWf (execSpdmMeasurement serac nonce s) := by
  unfold execSpdmMeasurement
  simp [hs]

@[simp] theorem execDumpKeyDelivery_wf (serac : Nat) (tenant : BitVec 16) (key : BitVec 256) (s : State) (hs : Memory.wf s.mem = true) :
    OutWf (execDumpKeyDelivery serac tenant key s) := by
  unfold execDumpKeyDelivery
  simp [hs]

@[simp] theorem execPowerLoss_wf (pkg : Nat) (torn : Option FlashTear) (s : State) (hs : Memory.wf s.mem = true) : OutWf (execPowerLoss pkg torn s) := by
  exact (outWf_next _).mpr (Memory.filter_wf _ hs)

@[simp] theorem execRedfishRequest_wf (pkg : Nat) (request : List Byte) (s : State) (hs : Memory.wf s.mem = true) :
    OutWf (execRedfishRequest pkg request s) := by
  unfold execRedfishRequest
  (repeat' split) <;> simp [hs]

end Sys2Proof.Machine
end

section
/-! PROOFS. The memory's canonical form over a whole step: instruction fetch, the next move, and the settled statement. -/

namespace Sys2Proof.Machine

/-- Every instruction and every event keeps the form. -/
theorem exec_wf (i : Instr) (s : State) (hs : Memory.wf s.mem = true) : OutWf (exec i s) := by
  cases i with
  | add => exact execAdd_wf _ _ _ _ hs
  | sub => exact execSub_wf _ _ _ _ hs
  | mul => exact execMul_wf _ _ _ _ hs
  | mulh => exact execMulh_wf _ _ _ _ hs
  | div => exact execDiv_wf _ _ _ _ hs
  | divu => exact execDivu_wf _ _ _ _ hs
  | rem => exact execRem_wf _ _ _ _ hs
  | remu => exact execRemu_wf _ _ _ _ hs
  | and => exact execAnd_wf _ _ _ _ hs
  | or => exact execOr_wf _ _ _ _ hs
  | xor => exact execXor_wf _ _ _ _ hs
  | shl => exact execShl_wf _ _ _ _ hs
  | shr => exact execShr_wf _ _ _ _ hs
  | sra => exact execSra_wf _ _ _ _ hs
  | slt => exact execSlt_wf _ _ _ _ hs
  | sltu => exact execSltu_wf _ _ _ _ hs
  | min => exact execMin_wf _ _ _ _ hs
  | max => exact execMax_wf _ _ _ _ hs
  | minu => exact execMinu_wf _ _ _ _ hs
  | maxu => exact execMaxu_wf _ _ _ _ hs
  | clz => exact execClz_wf _ _ _ hs
  | popc => exact execPopc_wf _ _ _ hs
  | addi => exact execAddi_wf _ _ _ _ hs
  | andi => exact execAndi_wf _ _ _ _ hs
  | ori => exact execOri_wf _ _ _ _ hs
  | xori => exact execXori_wf _ _ _ _ hs
  | shli => exact execShli_wf _ _ _ _ hs
  | shri => exact execShri_wf _ _ _ _ hs
  | srai => exact execSrai_wf _ _ _ _ hs
  | slti => exact execSlti_wf _ _ _ _ hs
  | sltiu => exact execSltiu_wf _ _ _ _ hs
  | lui => exact execLui_wf _ _ _ hs
  | pcadd => exact execPcadd_wf _ _ _ hs
  | ldb => exact execLdb_wf _ _ _ _ hs
  | ldh => exact execLdh_wf _ _ _ _ hs
  | ldw => exact execLdw_wf _ _ _ _ hs
  | ldd => exact execLdd_wf _ _ _ _ hs
  | ldbu => exact execLdbu_wf _ _ _ _ hs
  | ldhu => exact execLdhu_wf _ _ _ _ hs
  | ldwu => exact execLdwu_wf _ _ _ _ hs
  | stb => exact execStb_wf _ _ _ _ hs
  | sth => exact execSth_wf _ _ _ _ hs
  | stw => exact execStw_wf _ _ _ _ hs
  | std => exact execStd_wf _ _ _ _ hs
  | ldz => exact execLdz_wf _ _ _ _ hs
  | stz => exact execStz_wf _ _ _ _ hs
  | beq => exact execBeq_wf _ _ _ _ hs
  | bne => exact execBne_wf _ _ _ _ hs
  | blt => exact execBlt_wf _ _ _ _ hs
  | bge => exact execBge_wf _ _ _ _ hs
  | bltu => exact execBltu_wf _ _ _ _ hs
  | bgeu => exact execBgeu_wf _ _ _ _ hs
  | jal => exact execJal_wf _ _ _ hs
  | jalr => exact execJalr_wf _ _ _ _ hs
  | loop => exact execLoop_wf _ _ _ hs
  | loopi => exact execLoopi_wf _ _ _ hs
  | lbrk => exact execLbrk_wf _ hs
  | lidx => exact execLidx_wf _ _ _ hs
  | bset => exact execBset_wf _ _ _ hs
  | bfld => exact execBfld_wf _ _ _ _ _ hs
  | bldt => exact execBldt_wf _ _ _ _ hs
  | bhdr => exact execBhdr_wf _ _ hs
  | emit => exact execEmit_wf _ _ _ _ _ _ _ hs
  | emitm => exact execEmitm_wf _ _ _ hs
  | nset => exact execNset_wf _ _ _ _ hs
  | csrr => exact execCsrr_wf _ _ _ hs
  | csrw => exact execCsrw_wf _ _ _ _ hs
  | phaseg => exact execPhaseg_wf _ _ hs
  | gchk => exact execGchk_wf _ _ hs
  | spin => exact execSpin_wf _ hs
  | yield => exact execYield_wf _ hs
  | halt => exact execHalt_wf _ hs
  | trapc => exact execTrapc_wf _ _ hs
  | xret => exact execXret_wf _ hs
  | cpost => exact execCpost_wf _ _ _ hs
  | cqry => exact execCqry_wf _ _ _ hs
  | drainq => exact execDrainq_wf _ hs
  | illegalInstruction => exact execIllegalInstruction_wf _ _ hs
  | nop => exact execNop_wf _ _ hs
  | fmtset => exact execFmtset_wf _ _ _ _ hs
  | qcfgSlack => exact execQcfgSlack_wf _ _ _ hs
  | qcfgPort => exact execQcfgPort_wf _ _ _ _ hs
  | stepReg => exact execStepReg_wf _ _ _ _ hs
  | waitw => exact execWaitw_wf _ _ _ hs
  | sadv => exact execSadv_wf _ _ _ hs
  | mwait => exact execMwait_wf _ _ hs
  | ckpt => exact execCkpt_wf _ hs
  | prog => exact execProg_wf _ hs
  | sync => exact execSync_wf _ hs
  | vld => exact execVld_wf _ _ hs
  | vst => exact execVst_wf _ _ hs
  | vldg => exact execVldg_wf _ _ hs
  | vldgs => exact execVldgs_wf _ _ hs
  | vstg => exact execVstg_wf _ _ hs
  | vgth => exact execVgth_wf _ _ hs
  | vgths => exact execVgths_wf _ _ hs
  | vsct => exact execVsct_wf _ _ hs
  | phase => exact execPhase_wf _ hs
  | pftch => exact execPftch_wf _ _ hs
  | fill => exact execFill_wf _ _ hs
  | fills => exact execFills_wf _ _ hs
  | feed => exact execFeed_wf _ _ hs
  | feedt => exact execFeedt_wf _ _ hs
  | drain => exact execDrain_wf _ _ hs
  | addw => exact execAddw_wf _ _ hs
  | rput => exact execRput_wf _ _ hs
  | cresm => exact execCresm_wf _ _ hs
  | cclr => exact execCclr_wf _ _ hs
  | aadd => exact execAadd_wf _ _ hs
  | amin => exact execAmin_wf _ _ hs
  | amax => exact execAmax_wf _ _ hs
  | aand => exact execAand_wf _ _ hs
  | aor => exact execAor_wf _ _ hs
  | axor => exact execAxor_wf _ _ hs
  | aswp => exact execAswp_wf _ _ hs
  | acas => exact execAcas_wf _ _ hs
  | red => exact execRed_wf _ _ hs
  | arv => exact execArv_wf _ _ hs
  | arvd => exact execArvd_wf _ _ hs
  | bwait => exact execBwait_wf _ _ hs
  | btest => exact execBtest_wf _ _ hs
  | sig => exact execSig_wf _ _ hs
  | swait => exact execSwait_wf _ _ hs
  | uli => exact execUli_wf _ _ hs
  | sfence => exact execSfence_wf _ _ hs
  | brst => exact execBrst_wf _ _ hs
  | mma => exact execMma_wf _ _ hs
  | mld => exact execMld_wf _ _ hs
  | mldt => exact execMldt_wf _ _ hs
  | mst => exact execMst_wf _ _ hs
  | mstq => exact execMstq_wf _ _ hs
  | mclr => exact execMclr_wf _ _ hs
  | macc => exact execMacc_wf _ _ hs
  | vadd => exact execVadd_wf _ _ _ hs
  | vsub => exact execVsub_wf _ _ _ hs
  | vmul => exact execVmul_wf _ _ _ hs
  | vfma => exact execVfma_wf _ _ _ hs
  | vfms => exact execVfms_wf _ _ _ hs
  | vmin => exact execVmin_wf _ _ _ hs
  | vmax => exact execVmax_wf _ _ _ hs
  | vabs => exact execVabs_wf _ _ _ hs
  | vneg => exact execVneg_wf _ _ _ hs
  | vrcp => exact execVrcp_wf _ _ _ hs
  | vrsq => exact execVrsq_wf _ _ _ hs
  | vexp2 => exact execVexp2_wf _ _ _ hs
  | vdiv => exact execVdiv_wf _ _ _ hs
  | vand => exact execVand_wf _ _ _ hs
  | vor => exact execVor_wf _ _ _ hs
  | vxor => exact execVxor_wf _ _ _ hs
  | vnot => exact execVnot_wf _ _ _ hs
  | vshl => exact execVshl_wf _ _ _ hs
  | vshr => exact execVshr_wf _ _ _ hs
  | vsra => exact execVsra_wf _ _ _ hs
  | vshli => exact execVshli_wf _ _ _ hs
  | vshri => exact execVshri_wf _ _ _ hs
  | vmulh => exact execVmulh_wf _ _ _ hs
  | vclz => exact execVclz_wf _ _ _ hs
  | vwadd => exact execVwadd_wf _ _ _ hs
  | vwacc => exact execVwacc_wf _ _ _ hs
  | vwmul => exact execVwmul_wf _ _ _ hs
  | vcmp => exact execVcmp_wf _ _ _ hs
  | vsel => exact execVsel_wf _ _ _ hs
  | qop => exact execQop_wf _ _ _ hs
  | vcvt => exact execVcvt_wf _ _ _ hs
  | vqnt => exact execVqnt_wf _ _ _ hs
  | vdqnt => exact execVdqnt_wf _ _ _ hs
  | vscan => exact execVscan_wf _ _ _ hs
  | vred => exact execVred_wf _ _ _ hs
  | vperm => exact execVperm_wf _ _ _ hs
  | vbcst => exact execVbcst_wf _ _ _ hs
  | vshfl => exact execVshfl_wf _ _ _ hs
  | viota => exact execViota_wf _ _ _ hs
  | vmov => exact execVmov_wf _ _ _ hs
  | vmovi => exact execVmovi_wf _ _ _ hs
  | vldi => exact execVldi_wf _ _ _ hs
  | vchk => exact execVchk_wf _ _ _ hs
  | vclrp => exact execVclrp_wf _ _ _ hs
  | vstat => exact execVstat_wf _ _ _ hs
  | spinLimitReached => exact execSpinLimitReached_wf _ _ hs
  | reslate => exact execReslate_wf _ _ hs
  | coldcand => exact execColdcand_wf _ _ hs
  | sliceEnd => exact execSliceEnd_wf _ _ hs
  | slotTableUpdate => exact execSlotTableUpdate_wf _ _ hs
  | checkpointLatest => exact execCheckpointLatest_wf _ _ hs
  | watchdogFire => exact execWatchdogFire_wf _ _ hs
  | intervalCheckpoint => exact execIntervalCheckpoint_wf _ _ hs
  | fatalTrap => exact execFatalTrap_wf _ _ hs
  | contextDead => exact execContextDead_wf _ _ hs
  | rimeDump => exact execRimeDump_wf _ _ hs
  | contextDrain => exact execContextDrain_wf _ _ hs
  | rollback => exact execRollback_wf _ _ hs
  | contextRestore => exact execContextRestore_wf _ _ hs
  | coreCycle => exact execCoreCycle_wf _ _ _ hs
  | bundleCommit => exact execBundleCommit_wf _ _ hs
  | vectorResultDue => exact execVectorResultDue_wf _ _ hs
  | fmtTakesEffect => exact execFmtTakesEffect_wf _ _ hs
  | landingDataArrives => exact execLandingDataArrives_wf _ _ _ hs
  | timedLanding => exact execTimedLanding_wf _ _ hs
  | loadPerform => exact execLoadPerform_wf _ _ _ hs
  | transitWriteApply => exact execTransitWriteApply_wf _ _ _ hs
  | snapshotLineDrop => exact execSnapshotLineDrop_wf _ _ _ hs
  | phaseSend => exact execPhaseSend_wf _ _ _ hs
  | phaseComplete => exact execPhaseComplete_wf _ _ _ hs
  | haltComplete => exact execHaltComplete_wf _ _ hs
  | drainqComplete => exact execDrainqComplete_wf _ _ hs
  | spinTimeout => exact execSpinTimeout_wf _ _ hs
  | bundleTrap => exact execBundleTrap_wf _ _ hs
  | uliDelivery => exact execUliDelivery_wf _ _ hs
  | copyOpBegin => exact execCopyOpBegin_wf _ _ _ hs
  | copyChunk => exact execCopyChunk_wf _ _ _ _ hs
  | feedBeatLand => exact execFeedBeatLand_wf _ _ _ hs
  | addwRowWrite => exact execAddwRowWrite_wf _ _ _ _ hs
  | fragmentArrival => exact execFragmentArrival_wf _ _ _ hs
  | fragmentResponse => exact execFragmentResponse_wf _ _ _ hs
  | rputBackoffExpiry => exact execRputBackoffExpiry_wf _ _ _ hs
  | barrierCredit => exact execBarrierCredit_wf _ _ hs
  | matrixOpBegin => exact execMatrixOpBegin_wf _ _ hs
  | mmaGroup => exact execMmaGroup_wf _ _ _ hs
  | matrixOpComplete => exact execMatrixOpComplete_wf _ _ _ hs
  | syncOpPerform => exact execSyncOpPerform_wf _ _ _ hs
  | syncAnswerArrival => exact execSyncAnswerArrival_wf _ _ _ hs
  | waiterBusyResend => exact execWaiterBusyResend_wf _ _ hs
  | asyncLogRecord => exact execAsyncLogRecord_wf _ _ _ hs
  | invalidateAll => exact execInvalidateAll_wf _ _ hs
  | invalidateVaRange => exact execInvalidateVaRange_wf _ _ hs
  | invalidateIpaRange => exact execInvalidateIpaRange_wf _ _ _ hs
  | invalidateRoot => exact execInvalidateRoot_wf _ _ hs
  | invalidatePartition => exact execInvalidatePartition_wf _ _ _ hs
  | invalidationComplete => exact execInvalidationComplete_wf _ _ hs
  | btStart => exact execBtStart_wf _ _ _ _ _ _ _ hs
  | btTakeStart => exact execBtTakeStart_wf _ _ _ hs
  | btChunk => exact execBtChunk_wf _ _ _ hs
  | btComplete => exact execBtComplete_wf _ _ _ hs
  | queueStart => exact execQueueStart_wf _ _ _ hs
  | queueResume => exact execQueueResume_wf _ _ _ hs
  | queuePark => exact execQueuePark_wf _ _ _ hs
  | queueDisable => exact execQueueDisable_wf _ _ _ hs
  | doorbell => exact execDoorbell_wf _ _ _ _ _ _ hs
  | packetFetch => exact execPacketFetch_wf _ _ _ hs
  | pktNop => exact execPktNop_wf _ _ _ hs
  | invoke => exact execInvoke_wf _ _ _ hs
  | invokeStart => exact execInvokeStart_wf _ _ _ hs
  | taskGraphEnd => exact execTaskGraphEnd_wf _ _ _ hs
  | ib => exact execIb_wf _ _ _ hs
  | pred => exact execPred_wf _ _ _ hs
  | pktLoop => exact execPktLoop_wf _ _ _ hs
  | pktWait => exact execPktWait_wf _ _ _ hs
  | pktSigAdd => exact execPktSigAdd_wf _ _ _ hs
  | pktSigSet => exact execPktSigSet_wf _ _ _ hs
  | ffence => exact execFfence_wf _ _ _ hs
  | faultServed => exact execFaultServed_wf _ _ _ hs
  | faultDeclined => exact execFaultDeclined_wf _ _ _ hs
  | faultQueueHeadAdvance => exact execFaultQueueHeadAdvance_wf _ _ _ hs
  | thaw => exact execThaw_wf _ _ _ hs
  | registerWrite => exact execRegisterWrite_wf _ _ _ _ _ hs
  | hostWrite => exact execHostWrite_wf _ _ _ _ hs
  | hostRead => exact execHostRead_wf _ _ _ _ hs
  | dieCycle => exact execDieCycle_wf _ _ hs
  | fairnessWindowStart => exact execFairnessWindowStart_wf _ _ hs
  | boostDecay => exact execBoostDecay_wf _ _ hs
  | stealRequest => exact execStealRequest_wf _ _ hs
  | landingReplay => exact execLandingReplay_wf _ _ hs
  | tileRefetch => exact execTileRefetch_wf _ _ hs
  | retirement => exact execRetirement_wf _ _ _ hs
  | postAccept => exact execPostAccept_wf _ _ hs
  | coordinatorNotice => exact execCoordinatorNotice_wf _ _ _ hs
  | ticketRequest => exact execTicketRequest_wf _ _ hs
  | ticketTake => exact execTicketTake_wf _ _ _ hs
  | reservation => exact execReservation_wf _ _ _ hs
  | confirmation => exact execConfirmation_wf _ _ _ hs
  | chunkBoundary => exact execChunkBoundary_wf _ _ _ hs
  | chunkTransfer => exact execChunkTransfer_wf _ _ _ _ hs
  | creditReturn => exact execCreditReturn_wf _ _ _ _ hs
  | instanceComplete => exact execInstanceComplete_wf _ _ _ hs
  | instanceFault => exact execInstanceFault_wf _ _ _ hs
  | sramEccError => exact execSramEccError_wf _ _ hs
  | resetBoot => exact execResetBoot_wf _ _ hs
  | spdmMeasurement => exact execSpdmMeasurement_wf _ _ _ hs
  | dumpKeyDelivery => exact execDumpKeyDelivery_wf _ _ _ _ hs
  | stealAnswer => exact execStealAnswer_wf _ _ hs
  | powerLoss => exact execPowerLoss_wf _ _ _ hs
  | peerUnreachable => exact execPeerUnreachable_wf _ _ _ hs
  | redfishRequest => exact execRedfishRequest_wf _ _ _ hs

/-- A turn keeps the form: the state it settles, or the state that its instruction runs in. -/
def Turn.MemWf : Turn → Prop
  | .settled t => Memory.wf t.mem = true
  | .run _ t => Memory.wf t.mem = true

theorem fetchThread_memWf (s : State) (k : Nat) (hs : Memory.wf s.mem = true) : (fetchThread s k).MemWf := by
  cases hk : s.ctx k with
  | none =>
    have h : fetchThread s k = .settled s := by unfold fetchThread; rw [hk]
    rw [h]; exact hs
  | some c =>
    cases ht : translate s c c.thread.pc .fetch with
    | error x =>
      rw [fetchThread_of_fault s k c hk ht]
      exact State.genXlateFault_wf _ _ _ _ hs
    | ok loc =>
      rw [fetchThread_of_ok s k c hk ht]
      change Memory.wf (((s.loadsFor k _).cacheTranslation c c.thread.pc)).mem = true
      simp [State.loadsFor, hs]

theorem generatorTurn_memWf (s : State) (core : Nat) (miss : BitVec 5) (hs : Memory.wf s.mem = true) : (generatorTurn s core miss).MemWf := by
  unfold generatorTurn
  dsimp only
  split
  · exact hs
  split
  · exact hs
  split
  · exact hs
  split
  · next t ht => exact State.boundaryWork_wf s _ hs t ht
  · exact fetchThread_memWf _ _ (by simp [hs])

theorem managementTurn_memWf (s : State) (k : Nat) (hs : Memory.wf s.mem = true) : (managementTurn s k).MemWf := by
  unfold managementTurn
  split
  · exact hs
  split
  · exact State.boundaryWork_wf s _ hs _ (by assumption)
  split
  · exact fetchThread_memWf _ _ (by simp [hs])
  · exact hs

theorem State.turn_memWf (s : State) (hs : Memory.wf s.mem = true) : s.turn.MemWf := by
  unfold State.turn
  split
  · exact generatorTurn_memWf _ _ _ hs
  · exact managementTurn_memWf _ _ hs
  · split <;> exact hs

/-- Settles O6: the turn keeps the form, and so does the instruction or the event that it runs. -/
theorem memoryFormKept : Obligations.MemoryFormKept := by
  intro s t hs ht
  have hturn := State.turn_memWf s hs
  cases h : s.turn with
  | settled u =>
    rw [h] at hturn
    rw [step_of_settled h] at ht
    cases ht
    exact hturn
  | run i u =>
    rw [h] at hturn
    rw [step_of_run h] at ht
    exact exec_wf i u hturn t ht

end Sys2Proof.Machine
end

section
/-! PROOFS. One reasoning rule for each way a slot operation changes the state, and the operations of the CTL slot and of the buffers,
global memory and phases (R69-R77, R226-R232). -/

namespace Sys2Proof.Machine

/-! ### The rules of a slot operation -/

/-- What a slot operation has made of the state so far: the issuing context is `c'`, the bundle's record `env'`, nothing else changed. -/
structure SlotAt (s : State) (env : SlotEnv) (t : State) (c' : Context) (env' : SlotEnv) : Prop where
  ctx : t.ctx env.ctx = some c'
  record : t.slotEnv = some env'
  frame : SlotFrame s t env.ctx

theorem SlotAt.start {s : State} {env : SlotEnv} {c : Context} (h : s.Issues env c) : SlotAt s env s c env :=
  ⟨h.2, h.1, SlotFrame.refl ..⟩

section
variable {s t : State} {env env' : SlotEnv} {c' : Context}

theorem SlotAt.done (h : SlotAt s env t c' env') : SlotDoes s env (.next t) c' env' := .of h.ctx h.record h.frame

theorem SlotAt.setCtx (h : SlotAt s env t c' env') (d : Context) : SlotAt s env (t.setCtx env.ctx d) d env' :=
  ⟨State.ctx_setCtx_self .., h.record, h.frame.setCtx d⟩

theorem SlotAt.updCtx (h : SlotAt s env t c' env') (f : Context → Context) : SlotAt s env (t.updCtx env.ctx f) (f c') env' := by
  have e : t.updCtx env.ctx f = t.setCtx env.ctx (f c') := by unfold State.updCtx; rw [h.ctx]
  rw [e]
  exact h.setCtx _

theorem SlotAt.updEnv (h : SlotAt s env t c' env') (g : SlotEnv → SlotEnv) : SlotAt s env (t.updEnv g) c' (g env') :=
  ⟨h.ctx, by rw [State.updEnv_slotEnv, h.record]; rfl, h.frame.updEnv g⟩

theorem SlotAt.addActs (h : SlotAt s env t c' env') (a : List CommitAct) : SlotAt s env (t.addActs a) c' (env'.does a) := h.updEnv _

theorem SlotAt.holdIf (h : SlotAt s env t c' env') (cond : Bool) (cause : Nat) :
    SlotAt s env (t.holdIf cond cause) c' (env'.held cond cause) := by
  rw [State.holdIf_eq]
  exact h.updEnv _

theorem SlotAt.slotFault (h : SlotAt s env t c' env') (f : BFault) : SlotAt s env (t.slotFault f) c' (env'.faults f) := h.updEnv _

theorem SlotAt.slotXlate (h : SlotAt s env t c' env') (n : Nat) (x : XFault) : SlotAt s env (t.slotXlate n x) c' (env'.misses n x) := h.updEnv _

theorem SlotAt.addFrost (h : SlotAt s env t c' env') (k kind : Nat) (p : BitVec 96) : SlotAt s env (t.frost k kind p) c' env' := by
  obtain ⟨cores, e, _⟩ := t.frost_cases k kind p
  have hctx : (t.frost k kind p).ctx env.ctx = t.ctx env.ctx := by rw [e]; rfl
  have hrec : (t.frost k kind p).slotEnv = t.slotEnv := by rw [e]
  exact ⟨hctx.trans h.ctx, hrec.trans h.record, h.frame.addFrost k kind p⟩

theorem SlotAt.cacheTranslation (h : SlotAt s env t c' env') (c : Context) (va : Word) :
    SlotAt s env (t.cacheTranslation c va) c' env' :=
  ⟨(State.cacheTranslation_ctx ..).trans h.ctx, (State.cacheTranslation_slotEnv ..).trans h.record, h.frame.cache c va⟩

theorem SlotAt.foldl {α : Type} (f : State → α → State) (hf : ∀ t a, SlotAt s env t c' env' → SlotAt s env (f t a) c' env') (l : List α)
    (h : SlotAt s env t c' env') : SlotAt s env (l.foldl f t) c' env' := by
  induction l generalizing t with
  | nil => exact h
  | cons a l ih => exact ih (hf t a h)

theorem SlotAt.cacheElements (h : SlotAt s env t c' env') (c : Context) (l : List Element) :
    SlotAt s env (t.cacheElements c l) c' env' :=
  .foldl _ (fun _ e ht => .foldl _ (fun _ p hu => hu.cacheTranslation c p.1) e.parts ht) l h

theorem SlotAt.takeLanding (h : SlotAt s env t c' env') (kind v arr : Nat) (mask : BitVec 64) (todo : List LoadPart) (phaseNo : Nat) :
    SlotAt s env (t.takeLanding env kind v arr mask todo phaseNo)
      { c' with fl := { c'.fl with landings := c'.fl.landings ++
        [{ idx := env.idx, due := env.cc + arr + 24, v := v, kind := kind, mask := mask, data := 0, poison := false, todo := todo,
           arrived := false, phaseNo := phaseNo }] } }
      (env'.held (decide (32 ≤ c'.fl.landings.length)) hLANDFULL) := by
  unfold State.takeLanding
  rw [h.ctx]
  exact (h.setCtx _).holdIf _ _

end

/-! ### The CTL slot (R69-R77) -/

theorem getLsbD_setBitAt {n : Nat} (m : BitVec n) (i j : Nat) (b : Bool) (hj : j < n) :
    (setBitAt m i b).getLsbD j = if j = i then b else m.getLsbD j := by
  have hbit : (BitVec.ofNat n (2 ^ i)).getLsbD j = decide (j = i) := by
    rw [BitVec.getLsbD_ofNat, Nat.testBit_two_pow]
    simp [hj, eq_comm]
  unfold setBitAt
  split
  · next hb =>
    rw [BitVec.getLsbD_or, hbit]
    by_cases h : j = i <;> simp [h, hb]
  · next hb =>
    rw [BitVec.getLsbD_and, BitVec.getLsbD_not, hbit]
    by_cases h : j = i <;> simp [h, hj, hb]

/-- Settles O32: each control operation is one write of the context, one hold, or nothing. -/
theorem controlResults : Obligations.ControlResults := by
  intro s env c h be
  have start : SlotAt s env s c env := .start h
  refine ⟨fun x hx => ?_, ?_, ?_, fun acc b a => ?_, fun n => ⟨?_, ?_, ?_⟩, fun rv slot bank => ?_, fun n sel slot => ?_, fun bytes ch hnone => ?_,
    fun bytes ch pre o post hops hpre ho hch => ?_, ?_, ?_, fun tile => ?_, ?_, ?_, ?_⟩
  · simp only [List.mem_cons, List.not_mem_nil, or_false] at hx
    simp only [exec_nop, execNop, withSlot_of s env c h]
    obtain rfl | rfl | rfl | rfl | rfl := hx <;> exact (start.setCtx _).done
  · rw [exec_nop, execNop, withSlot_of s env c h]
    exact start.done
  · rw [exec_nop, execNop, withSlot_of s env c h]
    exact start.done
  · rw [exec_fmtset, execFmtset, withSlot_of s env c h]
    exact (start.setCtx _).done
  · rw [exec_qcfgSlack, execQcfgSlack, withSlot_of s env c h]
    exact (start.setCtx _).done
  · rw [exec_qcfgSlack, execQcfgSlack, withSlot_of s env c h]
    exact (start.setCtx _).done
  · rw [exec_qcfgSlack, execQcfgSlack, withSlot_of s env c h]
    exact (start.setCtx _).done
  · refine ⟨setBitAt c.be.ports (4 * bank.toNat + slot.toNat) (rv == 1), fun i hi => getLsbD_setBitAt _ _ _ _ hi, ?_⟩
    rw [exec_qcfgPort, execQcfgPort, withSlot_of s env c h]
    exact (start.setCtx _).done
  · rw [exec_stepReg, execStepReg, withSlot_of s env c h]
    exact (start.setCtx _).done
  · have hfind : c.fl.copyOps.find? (fun o => decide (o.idx < env.idx) && o.w.ch == ch) = none := by
      rw [List.find?_eq_none]
      intro o ho
      simpa using hnone o ho
    rw [exec_waitw, execWaitw, withSlot_of s env c h, hfind]
    exact start.done
  · have hfind : c.fl.copyOps.find? (fun o => decide (o.idx < env.idx) && o.w.ch == ch) = some o := by
      rw [List.find?_eq_some_iff_append]
      refine ⟨by simp [ho, hch], pre, post, hops, fun q hq => ?_⟩
      simpa [imp_iff_not_or] using hpre q hq
    rw [exec_waitw, execWaitw, withSlot_of s env c h, hfind]
    exact (start.holdIf _ _).done
  · rw [exec_sadv, execSadv, withSlot_of s env c h]
    exact start.done
  · intro beats hb waits
    constructor
    · rw [exec_sadv, execSadv, withSlot_of s env c h, if_neg hb]
      exact ((start.setCtx _).holdIf _ _).done
    · rw [exec_sadv, execSadv, withSlot_of s env c h, if_neg hb]
      exact ((start.setCtx _).holdIf _ _).done
  · rw [exec_mwait, execMwait, withSlot_of s env c h]
    exact (start.holdIf _ _).done
  · rw [exec_ckpt, execCkpt, withSlot_of s env c h]
    split
    · exact start.done
    · exact (start.updEnv _).done
  · rw [exec_prog, execProg, withSlot_of s env c h]
    exact (start.setCtx _).done
  · rw [exec_sync, execSync, withSlot_of s env c h]
    exact (start.holdIf _ _).done

/-! ### The buffer form (R226, R227) -/

/-- What an access of the MEM slot to a tile meets: of a C tile ACCBUSY (R190) or a hold for its ADDW (R154), of another the hold given. -/
def SlotEnv.meetsTile (e : SlotEnv) (c : Context) (idx buf tile : Nat) (busy : Bool) : SlotEnv :=
  if buf = 2 then match c.tileOwner idx tile with
    | some o => (e.held (c.addwOn idx tile) hTILE).faults
      { slot := 1, cause := bACCBUSY, sub := 0, addr := BitVec.ofNat 64 (tile * 2 ^ 32 + o.seq.toNat) }
    | none => e.held (c.addwOn idx tile) hTILE
  else e.held busy hTILE

/-- A read of a C bank on the bundle's record (R188). -/
def SlotEnv.readsTile (e : SlotEnv) (buf tile : Nat) : SlotEnv := if buf = 2 then { e with cRead := some tile } else e

theorem SlotAt.checkCTile {s t : State} {env env' : SlotEnv} {c' : Context} (h : SlotAt s env t c' env') (c : Context) (tile : Nat)
    (busy : Bool) : SlotAt s env (t.checkCTile env c tile) c' (env'.meetsTile c env.idx 2 tile busy) := by
  unfold State.checkCTile SlotEnv.meetsTile
  dsimp only
  rw [if_pos rfl]
  cases c.tileOwner env.idx tile with
  | none => exact h.holdIf _ _
  | some o => exact (h.holdIf _ _).slotFault _

theorem SlotAt.meetsTile {s t : State} {env env' : SlotEnv} {c' : Context} (h : SlotAt s env t c' env') (c : Context) (buf tile : Nat)
    (busy : Bool) : SlotAt s env (if buf = 2 then t.checkCTile env c tile else t.holdIf busy hTILE) c'
      (env'.meetsTile c env.idx buf tile busy) := by
  by_cases hb : buf = 2
  · rw [if_pos hb, hb]
    exact h.checkCTile c tile busy
  · have e : env'.meetsTile c env.idx buf tile busy = env'.held busy hTILE := if_neg hb
    rw [if_neg hb, e]
    exact h.holdIf _ _

theorem SlotAt.readsTile {s t : State} {env env' : SlotEnv} {c' : Context} (h : SlotAt s env t c' env') (c : Context) (buf tile : Nat)
    (busy : Bool) : SlotAt s env (if buf = 2 then (t.updEnv fun e => { e with cRead := some tile }).checkCTile env c tile
      else t.holdIf busy hTILE) c' ((env'.readsTile buf tile).meetsTile c env.idx buf tile busy) := by
  by_cases hb : buf = 2
  · have e : env'.readsTile buf tile = { env' with cRead := some tile } := if_pos hb
    rw [if_pos hb, e, hb]
    exact (h.updEnv _).checkCTile c tile busy
  · have e : env'.readsTile buf tile = env' := if_neg hb
    have e2 : env'.meetsTile c env.idx buf tile busy = env'.held busy hTILE := if_neg hb
    rw [if_neg hb, e, e2]
    exact h.holdIf _ _

theorem loadBufLine_inside (s : State) (c : Context) (buf tile line : Nat) (h : tile < winLimit (c.window buf)) :
    loadBufLine s c buf tile line =
      (c.pendingStore buf tile line).getD ((s.readLine c buf tile line).data, (s.readLine c buf tile line).poison) := by
  have hkey : c.lineKey buf tile line = some (bufKey buf (winBase (c.window buf) + tile) line) := if_pos h
  unfold loadBufLine State.readLine
  rw [hkey]
  cases c.pendingStore buf tile line <;> rfl

theorem loadBufLine_outside (s : State) (c : Context) (buf tile line : Nat) (h : ¬ tile < winLimit (c.window buf)) :
    loadBufLine s c buf tile line = (0, false) := by
  have hkey : c.lineKey buf tile line = none := if_neg h
  unfold loadBufLine
  rw [hkey]

/-- What a VLD does, of the line it reads and of the flag of an access outside the window. -/
theorem execVld_does (s : State) (env : SlotEnv) (c : Context) (h : s.Issues env c) (w : MemBuf) (x : Line × Bool)
    (acts : List CommitAct) (hx : loadBufLine s c w.buf.toNat w.tile.toNat (MemBuf.line w) = x)
    (ha : oorAct c w.buf.toNat w.tile.toNat w.row.toNat (64 * w.part.toNat) = acts) :
    SlotDoes s env (execVld w s)
      (c.addWrite { due := env.cc + 6, idx := env.idx, ord := ordMem, target := .vreg w.v.toNat (BitVec.allOnes 64) x.1, poison := x.2 })
      (((env.does acts).readsTile w.buf.toNat w.tile.toNat).meetsTile c env.idx w.buf.toNat w.tile.toNat
        (c.readHeld env.idx w.buf.toNat w.tile.toNat (256 * w.row.toNat + 64 * w.part.toNat + 64))) := by
  rw [execVld, withSlot_of s env c h]
  dsimp only
  rw [hx, ha]
  exact ((((SlotAt.start h).setCtx _).addActs acts).readsTile c _ _ _).done

/-- What a VST does, of the flag of an access outside the window. -/
theorem execVst_does (s : State) (env : SlotEnv) (c : Context) (h : s.Issues env c) (w : MemBuf) (acts : List CommitAct)
    (ha : oorAct c w.buf.toNat w.tile.toNat w.row.toNat (64 * w.part.toNat) = acts) :
    let x := (c.vview env.cc).reg w.v.toNat
    SlotDoes s env (execVst w s) c
      ((env.does (.bufStore w.buf.toNat w.tile.toNat (MemBuf.line w) x.1 x.2 :: acts)).meetsTile c env.idx w.buf.toNat w.tile.toNat
        (c.writeHeld env.idx w.buf.toNat w.tile.toNat)) := by
  rw [execVst, withSlot_of s env c h]
  dsimp only
  rw [ha]
  exact (((SlotAt.start h).addActs _).meetsTile c _ _ _).done

/-- Settles O33: VLD and VST of a tile inside the window and outside it. -/
theorem bufferAccess : Obligations.BufferAccess := by
  intro s env c w h hbuf buf tile line inside stored oor lands meets reads reading writing
  have hin (hi : inside) : oorAct c w.buf.toNat w.tile.toNat w.row.toNat (64 * w.part.toNat) = [] := if_pos hi
  have hout (hi : ¬ inside) : oorAct c w.buf.toNat w.tile.toNat w.row.toNat (64 * w.part.toNat) = oor := if_neg hi
  rw [exec_vld, exec_vst]
  refine ⟨fun hi => ?_, fun hi => ?_, fun hi => ?_, fun hi => ?_⟩
  · exact execVld_does s env c h w _ _ (loadBufLine_inside s c _ _ _ hi) (hin hi)
  · exact execVld_does s env c h w _ _ (loadBufLine_outside s c _ _ _ hi) (hout hi)
  · exact execVst_does s env c h w _ (hin hi)
  · exact execVst_does s env c h w _ (hout hi)

/-! ### The global and gather forms (R228-R231) -/

theorem State.globLine_fst (s : State) (c : Context) (w : MemGlob) : (s.globLine c w).1 =
    if (c.zrel w.z).toNat % 64 = 0 then s else s.slotFault { slot := 1, cause := bILLSLOT, sub := 4, addr := 0 } := rfl

theorem SlotAt.globLine {s t : State} {env env' : SlotEnv} {c' : Context} (h : SlotAt s env t c' env') (c : Context) (w : MemGlob) :
    SlotAt s env (t.globLine c w).1 c' (if (c.zrel w.z).toNat % 64 = 0 then env'
      else env'.faults { slot := 1, cause := bILLSLOT, sub := 4, addr := 0 }) := by
  rw [State.globLine_fst]
  split
  · exact h
  · exact h.slotFault _

/-- A translation fault found at issue waits for the commit point (R230). -/
theorem SlotAt.fault {s t : State} {env env' : SlotEnv} {c' : Context} (h : SlotAt s env t c' env') (f : Option XFault) :
    SlotAt s env (match f with | some x => t.slotXlate 1 x | none => t) c' (match f with | some x => env'.misses 1 x | none => env') := by
  cases f with
  | none => exact h
  | some x => exact h.slotXlate 1 x

/-- Settles O34: each form is the rules of its parts, in the order of the operation. -/
theorem globalAccess : Obligations.GlobalAccess := by
  intro s env c g t h full takes miss va index lanesOf loads gtodo env0 ld st vg vt line lanes16
  have hg : SlotAt s env (s.globLine c g).1 c env0 := (SlotAt.start h).globLine c g
  have hline : SlotAt s env (((s.globLine c g).1.cacheElements c [ld]).takeLanding env 0 g.v.toNat g.arr.toNat (BitVec.allOnes 64)
      (ld.parts.map (loadPart 0 false)) c.fl.phaseNo) line (env0.held full hLANDFULL) :=
    (hg.cacheElements c [ld]).takeLanding ..
  have hlanes : SlotAt s env ((s.cacheElements c loads).takeLanding env 1 t.v.toNat t.arr.toNat (BitVec.allOnes 64) gtodo c.fl.phaseNo)
      lanes16 (env.held full hLANDFULL) :=
    ((SlotAt.start h).cacheElements c loads).takeLanding ..
  refine ⟨?_, ?_, ?_, ?_, ?_, ?_, ?_⟩
  · rw [exec_vldg, execVldg, globalLoad, withSlot_of s env c h]
    exact ((hline.addFrost _ _ _).fault ld.fault).done
  · rw [exec_vldgs, execVldgs, globalLoad, withSlot_of s env c h]
    dsimp only
    split <;> exact (hline.addFrost _ _ _).done
  · rw [exec_vstg, execVstg, withSlot_of s env c h]
    exact ((((hg.cacheElements c [st]).addActs _).addFrost _ _ _).fault st.fault).done
  · rw [exec_vgth, execVgth, gather, withSlot_of s env c h]
    exact ((hlanes.addFrost _ _ _).fault (lowestFault loads)).done
  · rw [exec_vgths, execVgths, gather, withSlot_of s env c h]
    dsimp only
    split <;> exact (hlanes.addFrost _ _ _).done
  · rw [exec_vsct, execVsct, withSlot_of s env c h]
    exact (((((SlotAt.start h).cacheElements c (lanesOf .store)).addActs _).addFrost _ _ _).fault (lowestFault (lanesOf .store))).done
  · rw [exec_pftch, execPftch, withSlot_of s env c h]
    exact ((SlotAt.start h).addFrost _ _ _).done

/-! ### PHASE (R232) -/

/-- Settles O35: by the scope and the marker that PHASE asks for. -/
theorem phaseResults : Obligations.PhaseResults := by
  intro s env c h c' env'
  have hplace : SlotAt s env ((s.setCtx env.ctx c.nextPhase).addActs [.phase env.scope c.fl.phaseNo]) c' env' :=
    ((SlotAt.start h).setCtx _).addActs _
  rw [exec_phase, execPhase, withSlot_of s env c h]
  refine ⟨fun hscope hfw => ?_, fun hfw => ?_, fun hscope hint => ?_⟩
  · have hs : (env.scope == 0) = false := by simpa using hscope
    have hm : (!c.isFirmware && (env.scope != 0 || c.intervalElapsed)) = true := by
      have hne : (env.scope != 0) = true := by simpa using hscope
      rw [hfw, hne]
      rfl
    dsimp only
    rw [hm, hs]
    exact ((hplace.updEnv _).addFrost _ _ _).done
  · have hm : (!c.isFirmware && (env.scope != 0 || c.intervalElapsed)) = false := by simp [hfw]
    dsimp only
    rw [hm, Bool.and_false]
    exact (hplace.addFrost _ _ _).done
  · have hm : (!c.isFirmware && (env.scope != 0 || c.intervalElapsed)) = false := by simp [hscope, hint]
    dsimp only
    rw [hm, Bool.and_false]
    exact (hplace.addFrost _ _ _).done

end Sys2Proof.Machine
end

section
/-! PROOFS. The queues of the CPY, SYN and MTX slots at issue (R141-R162, R186-R193, R238-R242). -/

namespace Sys2Proof.Machine

/-! ### Copy operations -/

/-- The operation that a copy word makes. -/
def copyOpOf (c : Context) (env : SlotEnv) (op : Nat) (w : CpyWord) : CopyOp :=
  let n := env.nest c w
  let z := SMap.getD c.id.zrel ((nestField n 1).toNat % 16) 0
  { id := c.fl.nextId, idx := env.idx, op := BitVec.ofNat 6 op, w := w, nest := n, zrel := z, pc := env.pc, seq := env.seq,
    committed := false, state := .queued, done := 0, got := [], put := [], sent := [], beats := 0, retries := 0, barrier := none,
    barrierVa := if op = 7 then rputBarrier z n else none, remote := false }

/-- The context once the operation stands in its queue. -/
def Context.queuesCopy (c : Context) (env : SlotEnv) (op : Nat) (w : CpyWord) : Context :=
  { c with
    be := { c.be with tokens := SMap.put c.be.tokens w.tok.toNat (SMap.getD c.be.tokens w.tok.toNat 0 + 1) }
    fl := { c.fl with copyOps := c.fl.copyOps ++ [copyOpOf c env op w], nextId := c.fl.nextId + 1 } }

/-- The tile of the operation is busy (R147). -/
def Context.copyBusy (c : Context) (env : SlotEnv) (op : Nat) (w : CpyWord) : Bool :=
  if op = 1 ∨ op = 2 then c.writeHeld env.idx w.bf.toNat w.tile.toNat else if op = 6 then false
  else c.readHeld env.idx w.bf.toNat w.tile.toNat (copyReadEnd op w (env.nest c w))

/-- The bundle's record with the operation and its holds. -/
def SlotEnv.queuesCopy (env : SlotEnv) (c : Context) (op : Nat) (w : CpyWord) : SlotEnv :=
  (((env.does [.copy c.fl.nextId]).held (slackHolds (c.copyOccupancy env.idx) env.slackCpy 16) hSLACK).held
    (decide (15 ≤ SMap.getD c.be.tokens w.tok.toNat 0)) hTOKCAP).held (c.copyBusy env op w) hTILE

/-- The state in which a copy operation stands in its queue, before the checks of its word. -/
def queueCopy (s : State) (env : SlotEnv) (c : Context) (op : Nat) (w : CpyWord) : State :=
  ((((s.setCtx env.ctx (c.queuesCopy env op w)).addActs [.copy c.fl.nextId]).holdIf
    (slackHolds (c.copyOccupancy env.idx) env.slackCpy 16) hSLACK).holdIf
      (decide (15 ≤ SMap.getD c.be.tokens w.tok.toNat 0)) hTOKCAP).holdIf (c.copyBusy env op w) hTILE

theorem queueCopy_at {s : State} {env : SlotEnv} {c : Context} (h : s.Issues env c) (op : Nat) (w : CpyWord) :
    SlotAt s env (queueCopy s env c op w) (c.queuesCopy env op w) (env.queuesCopy c op w) :=
  (((((SlotAt.start h).setCtx _).addActs _).holdIf _ _).holdIf _ _).holdIf _ _

theorem copyBusy_eq (c : Context) (env : SlotEnv) (op : Nat) (w : CpyWord) :
    (if op = 1 ∨ op = 2 then c.writeHeld env.idx (if op = 6 then 2 else w.bf.toNat) w.tile.toNat else if op = 6 then false
      else c.readHeld env.idx (if op = 6 then 2 else w.bf.toNat) w.tile.toNat (copyReadEnd op w (env.nest c w))) = c.copyBusy env op w := by
  unfold Context.copyBusy
  by_cases h6 : op = 6
  · simp [h6]
  · simp [h6]

/-- A copy operation issues: the queue, then NESTSZ, the barrier's alignment and ACCBUSY. -/
theorem issueCopy_eq (s : State) (env : SlotEnv) (c : Context) (h : s.Issues env c) (op : Nat) (w : CpyWord) :
    issueCopy op w s = .next (
      if nestBreaks op w (env.nest c w) then (queueCopy s env c op w).slotFault { slot := 2, cause := bNESTSZ, sub := 0, addr := 0 }
      else match (copyOpOf c env op w).barrierVa with
        | some a => if a.toNat % 32 = 0 then queueCopy s env c op w
          else (queueCopy s env c op w).slotFault { slot := 2, cause := bILLSLOT, sub := SlotErr.opnd.code, addr := 0 }
        | none => match (if op = 6 then c.tileOwner env.idx w.tile.toNat else none) with
          | some m => (queueCopy s env c op w).slotFault
            { slot := 2, cause := bACCBUSY, sub := 0, addr := BitVec.ofNat 64 (w.tile.toNat * 2 ^ 32 + m.seq.toNat) }
          | none => queueCopy s env c op w) := by
  rw [issueCopy, withSlot_of s env c h]
  dsimp only
  rw [copyBusy_eq]
  rfl

theorem issueCopy_does (s : State) (env : SlotEnv) (c : Context) (h : s.Issues env c) (op : Nat) (w : CpyWord)
    (hn : nestBreaks op w (env.nest c w) = false) (hb : ∀ a, (copyOpOf c env op w).barrierVa = some a → a.toNat % 32 = 0)
    (ho : op = 6 → c.tileOwner env.idx w.tile.toNat = none) :
    SlotDoes s env (issueCopy op w s) (c.queuesCopy env op w) (env.queuesCopy c op w) := by
  have howner : (if op = 6 then c.tileOwner env.idx w.tile.toNat else none) = none := by
    by_cases h6 : op = 6
    · rw [if_pos h6, ho h6]
    · rw [if_neg h6]
  rw [issueCopy_eq s env c h, hn, howner]
  cases hbar : (copyOpOf c env op w).barrierVa with
  | none => exact (queueCopy_at h op w).done
  | some a =>
    dsimp only
    rw [if_pos (hb a hbar)]
    exact (queueCopy_at h op w).done

theorem issueCopy_nestsz (s : State) (env : SlotEnv) (c : Context) (h : s.Issues env c) (op : Nat) (w : CpyWord)
    (hn : nestBreaks op w (env.nest c w) = true) : SlotDoes s env (issueCopy op w s) (c.queuesCopy env op w)
      ((env.queuesCopy c op w).faults { slot := 2, cause := bNESTSZ, sub := 0, addr := 0 }) := by
  rw [issueCopy_eq s env c h, hn]
  exact ((queueCopy_at h op w).slotFault _).done

/-- Settles O36: the seven operations issue alike. -/
theorem copyIssue : Obligations.CopyIssue := by
  intro s env c w h n z tile tok occ x hx busy o c' env'
  have hexec : exec x.1 s = issueCopy x.2 w s := by
    fin_cases hx <;> rfl
  rw [hexec]
  refine ⟨fun hn hb ho => issueCopy_does s env c h x.2 w hn (fun a ha => ?_) ho, fun hn => issueCopy_nestsz s env c h x.2 w hn⟩
  by_cases h7 : x.2 = 7
  · have e : (copyOpOf c env x.2 w).barrierVa = rputBarrier z n := if_pos h7
    exact hb h7 a (e.symm.trans ha)
  · have e : (copyOpOf c env x.2 w).barrierVa = none := if_neg h7
    rw [e] at ha
    cases ha

/-- Settles O37: by the context that issues and the slot that the word names. -/
theorem copyControl : Obligations.CopyControl := by
  intro s env c w h priv
  have start : SlotAt s env s c env := .start h
  rw [exec_cresm, execCresm, exec_cclr, execCclr, withSlot_of s env c h, withSlot_of s env c h]
  refine ⟨fun hf => ?_, fun hf => ?_, fun ht => ?_, fun ht hf => ?_, fun ht hf => ?_⟩
  · rw [hf]
    exact (start.addActs _).done
  · rw [hf]
    exact (start.slotFault _).done
  · rw [if_pos ht]
    exact (start.addActs _).done
  · rw [if_neg ht, hf]
    exact (start.addActs _).done
  · rw [if_neg ht, hf]
    exact (start.slotFault _).done

/-! ### Sync operations -/

/-- The row of an opcode, as the model's functions of the opcode give it (R239-R242). -/
def synRow (op : Nat) (w : SynWord) : SynRow :=
  ⟨op, synWidth op w.ty, synWrites op, if synReturns op then synResultBytes op w.ty else 0, synScoped op, synHolds op, synReadsVs op⟩

/-- The address of a sync operation. -/
def Context.synVa (c : Context) (w : SynWord) : Word := c.zrel w.z + BitVec.ofNat 64 (8 * w.off.toNat)

/-- The operation that a sync word makes, at the location of its address. -/
def syncOpOf (c : Context) (env : SlotEnv) (r : SynRow) (w : SynWord) (loc : Loc) : SyncOp :=
  let v := if r.reads then (c.vview env.cc).reg w.vs.toNat else (0, false)
  { id := c.fl.nextId, idx := env.idx, phaseNo := c.fl.phaseNo, op := BitVec.ofNat 6 r.op, w := w, scope := env.scope,
    va := if r.width = 0 then 0 else c.synVa w, loc := loc, operand := v.1.extractLsb' 0 128, poison := v.2, pc := env.pc,
    seq := env.seq, state := .issued }

/-- The context once the operation stands in its queue, with its landing entry where it returns a result. -/
def Context.queuesSync (c : Context) (env : SlotEnv) (r : SynRow) (w : SynWord) (loc : Loc) : Context :=
  { c with fl := { c.fl with
    syncOps := c.fl.syncOps ++ [syncOpOf c env r w loc], nextId := c.fl.nextId + 1
    phaseNo := if r.bounds && env.scope != 0 then c.fl.phaseNo + 1 else c.fl.phaseNo
    syncHold := if r.holds then some c.fl.nextId else c.fl.syncHold
    landings := if r.result = 0 then c.fl.landings else c.fl.landings ++
      [{ idx := env.idx, due := env.cc + w.arr.toNat + 24, v := w.vd.toNat, kind := 2, mask := byteMask 0 r.result, data := 0,
         poison := false, todo := [], arrived := false, phaseNo := c.fl.phaseNo }] } }

/-- The bundle's record with the operation and its holds. -/
def SlotEnv.queuesSync (env : SlotEnv) (c : Context) (r : SynRow) : SlotEnv :=
  ((env.does [.sync c.fl.nextId]).held (slackHolds (c.synOccupancy env.idx) env.slackSyn 16) hSLACK).held
    (r.result != 0 && decide (32 ≤ c.fl.landings.length)) hLANDFULL

theorem synResultBytes_ne_zero (op : Nat) (ty : BitVec 4) : synResultBytes op ty ≠ 0 := by
  unfold synResultBytes synTypeBytes
  split_ifs <;> decide

theorem SlotAt.ite {s t u : State} {env e : SlotEnv} {d : Context} (p : Prop) [Decidable p] (ht : SlotAt s env t d e)
    (hu : SlotAt s env u d e) : SlotAt s env (if p then t else u) d e := by
  split <;> assumption

/-- What the landing entry of a sync operation adds. -/
theorem SlotAt.syncLanding {s t : State} {env e : SlotEnv} {c d : Context} (h : SlotAt s env t d e) (op : Nat) (w : SynWord)
    (hd : d.fl.landings = c.fl.landings) :
    SlotAt s env (if synReturns op then
        t.takeLanding env 2 w.vd.toNat w.arr.toNat (byteMask 0 (synResultBytes op w.ty)) [] c.fl.phaseNo else t)
      { d with fl := { d.fl with landings := if (synRow op w).result = 0 then c.fl.landings else c.fl.landings ++
        [{ idx := env.idx, due := env.cc + w.arr.toNat + 24, v := w.vd.toNat, kind := 2, mask := byteMask 0 (synRow op w).result, data := 0,
           poison := false, todo := [], arrived := false, phaseNo := c.fl.phaseNo }] } }
      (e.held ((synRow op w).result != 0 && decide (32 ≤ c.fl.landings.length)) hLANDFULL) := by
  cases hr : synReturns op with
  | false =>
    have hres : (synRow op w).result = 0 := by unfold synRow; rw [hr]; rfl
    rw [hres, if_pos rfl, ← hd]
    exact h
  | true =>
    have hres : (synRow op w).result = synResultBytes op w.ty := by unfold synRow; rw [hr]; rfl
    have hne := synResultBytes_ne_zero op w.ty
    rw [hres, if_neg hne, ← hd]
    have hb : (synResultBytes op w.ty != 0) = true := by simpa using hne
    rw [hb, Bool.true_and]
    exact h.takeLanding ..

/-- A sync operation issues at its location; a misaligned address is SYNCF. -/
theorem issueSync_does (s : State) (env : SlotEnv) (c : Context) (h : s.Issues env c) (op : Nat) (w : SynWord) (loc : Loc)
    (hloc : (if synWidth op w.ty = 0 then .ok noLoc else translate s c (c.synVa w) (if synWrites op then .store else .load)) = .ok loc) :
    SlotDoes s env (issueSync op w s) (c.queuesSync env (synRow op w) w loc)
      (if synWidth op w.ty ≠ 0 ∧ (c.synVa w).toNat % synWidth op w.ty ≠ 0
        then (env.queuesSync c (synRow op w)).faults { slot := 6, cause := bSYNCF, sub := 0, addr := c.synVa w }
        else env.queuesSync c (synRow op w)) := by
  rw [issueSync, withSlot_of s env c h]
  unfold Context.synVa at *
  dsimp only
  rw [hloc]
  dsimp only
  have queued := (((SlotAt.start h).setCtx { c with fl := { c.fl with
      syncOps := c.fl.syncOps ++ [syncOpOf c env (synRow op w) w loc], nextId := c.fl.nextId + 1
      phaseNo := if synScoped op && env.scope != 0 then c.fl.phaseNo + 1 else c.fl.phaseNo
      syncHold := if synHolds op then some c.fl.nextId else c.fl.syncHold } }).addActs [.sync c.fl.nextId]).addFrost env.ctx 3
    (frostMem (BitVec.ofNat 6 op) env.scope 2 (if synWidth op w.ty = 0 then 0 else c.zrel w.z + BitVec.ofNat 64 (8 * w.off.toNat)))
  have cached : SlotAt s env _ _ _ := SlotAt.ite (synWidth op w.ty = 0) queued
    (queued.cacheTranslation c (c.zrel w.z + BitVec.ofNat 64 (8 * w.off.toNat)))
  have landed := ((cached.holdIf (slackHolds (c.synOccupancy env.idx) env.slackSyn 16) hSLACK).syncLanding (c := c) op w rfl)
  split
  · exact (landed.slotFault _).done
  · exact landed.done

/-- Settles O38: the eighteen operations issue alike, each by its row. -/
theorem syncIssue : Obligations.SyncIssue := by
  intro s env c w h width a occ x hx
  obtain ⟨k, he, hr⟩ : ∃ k, exec x.1 s = issueSync k w s ∧ x.2 = synRow k w := by
    fin_cases hx <;> exact ⟨_, rfl, rfl⟩
  obtain ⟨i, r⟩ := x
  dsimp only at he hr
  subst hr
  intro r bounds v op c' env'
  rw [he]
  have hwidth : r.width = synWidth k w.ty := rfl
  refine ⟨fun h0 => ?_, fun loc h0 ha ht => ?_, fun loc h0 ha ht => ?_⟩
  · have := issueSync_does s env c h k w noLoc (if_pos h0)
    rwa [if_neg (fun hc => hc.1 h0)] at this
  · have := issueSync_does s env c h k w loc ((if_neg h0).trans ht)
    rwa [if_neg (fun hc => hc.2 ha)] at this
  · have := issueSync_does s env c h k w loc ((if_neg h0).trans ht)
    rwa [if_pos ⟨h0, ha⟩] at this

/-! ### Matrix operations -/

/-- The operation that a matrix word makes. -/
def mtxOpOf (c : Context) (env : SlotEnv) (op : Nat) (w : MtxWord) : MtxOp :=
  { id := c.fl.nextId, idx := env.idx, op := BitVec.ofNat 6 op, w := w, fmt := c.fmtAt env.cc, baseA := c.be.sa.consumer,
    baseB := c.be.sb.consumer, pc := env.pc, seq := env.seq, committed := false, commitCycle := 0, state := .queued, begunAt := 0,
    loaded := 0, inArray := false, groups := 0,
    plane := [], mis := false, bad := false, flags := 0, loadPoison := [], rows := 0 }

def Context.queuesMtx (c : Context) (env : SlotEnv) (op : Nat) (w : MtxWord) : Context :=
  { c with fl := { c.fl with mtxOps := c.fl.mtxOps ++ [mtxOpOf c env op w], nextId := c.fl.nextId + 1 } }

/-- The F tile of the operation is busy (R189). -/
def Context.mtxBusy (c : Context) (env : SlotEnv) (op : Nat) (w : MtxWord) : Bool :=
  if op = 2 ∨ op = 3 then c.readHeld env.idx 0 w.f.toNat 16384
  else if op = 4 ∨ op = 5 then c.writeHeld env.idx 0 w.f.toNat
  else false

def SlotEnv.queuesMtx (env : SlotEnv) (c : Context) (op : Nat) (w : MtxWord) : SlotEnv :=
  ((env.does [.matrix c.fl.nextId]).held (slackHolds (c.mtxOccupancy env.idx) env.slackMtx 8) hSLACK).held (c.mtxBusy env op w) hTILE

/-- The state in which a matrix operation stands in its queue, before the checks of its formats. -/
def queueMtx (s : State) (env : SlotEnv) (c : Context) (op : Nat) (w : MtxWord) : State :=
  (((s.setCtx env.ctx (c.queuesMtx env op w)).addActs [.matrix c.fl.nextId]).holdIf
    (slackHolds (c.mtxOccupancy env.idx) env.slackMtx 8) hSLACK).holdIf (c.mtxBusy env op w) hTILE

theorem queueMtx_at {s : State} {env : SlotEnv} {c : Context} (h : s.Issues env c) (op : Nat) (w : MtxWord) :
    SlotAt s env (queueMtx s env c op w) (c.queuesMtx env op w) (env.queuesMtx c op w) :=
  ((((SlotAt.start h).setCtx _).addActs _).holdIf _ _).holdIf _ _

/-- A matrix operation issues: the queue, then NOENG, FMTPAIR and FMTACC. -/
theorem issueMtx_eq (s : State) (env : SlotEnv) (c : Context) (h : s.Issues env c) (op : Nat) (w : MtxWord) :
    issueMtx op w s = .next (
      if s.noMatrix c then (queueMtx s env c op w).slotFault { slot := 5, cause := bNOENG, sub := 0, addr := 0 }
      else if op = 1 ∧ fmtClass (c.fmtAt env.cc).a ≠ fmtClass (c.fmtAt env.cc).b then
        (queueMtx s env c op w).slotFault { slot := 5, cause := bFMTPAIR, sub := 0, addr := 0 }
      else if op = 1 ∧ ((c.fmtAt env.cc).acc == 1) ≠ decide (fmtClass (c.fmtAt env.cc).a = 4) then
        (queueMtx s env c op w).slotFault { slot := 5, cause := bFMTACC, sub := 0, addr := 0 }
      else queueMtx s env c op w) := by
  rw [issueMtx, withSlot_of s env c h]
  rfl

/-- Settles O39: the seven operations issue alike; the checks in their order. -/
theorem matrixIssue : Obligations.MatrixIssue := by
  intro s env c w h fmt occ x hx o c' busy env' fault
  have hexec : exec x.1 s = issueMtx x.2 w s := by
    fin_cases hx <;> rfl
  have hacc : ((fmt.acc == 1) ≠ decide (fmtClass fmt.a = 4)) ↔ ¬ (fmt.acc = 1 ↔ fmtClass fmt.a = 4) := by
    rw [ne_eq, Bool.eq_iff_iff, beq_iff_eq, decide_eq_true_eq]
  have queued := queueMtx_at h x.2 w
  rw [hexec, issueMtx_eq s env c h]
  refine ⟨fun hm hf => ?_, fun hm => ?_, fun hm h1 hp => ?_, fun hm h1 hp ha => ?_⟩
  · rw [hm, if_neg Bool.false_ne_true, if_neg (fun hc => hc.2 (hf hc.1).1), if_neg (fun hc => hacc.mp hc.2 (hf hc.1).2)]
    exact queued.done
  · rw [hm, if_pos rfl]
    exact (queued.slotFault _).done
  · rw [hm, if_neg Bool.false_ne_true, if_pos ⟨h1, hp⟩]
    exact (queued.slotFault _).done
  · rw [hm, if_neg Bool.false_ne_true, if_neg (fun hc => hc.2 hp), if_pos ⟨h1, hacc.mpr ha⟩]
    exact (queued.slotFault _).done

end Sys2Proof.Machine
end

section
/-! PROOFS. Lane-wise vector operations: integer, bitwise and floating lanes, and the operations that move lanes (R206-R222). -/

namespace Sys2Proof.Machine

/-! ### Lanes of a type -/

theorem laneBits_eq (ty : Nat) (h : ty ≤ 10) : laneBits ty = 8 * typeBytes ty := by
  interval_cases ty <;> rfl

theorem lane_lt (x : Line) (b j : Nat) : lane x b j < 2 ^ b := Nat.mod_lt _ (Nat.two_pow_pos b)

/-- A lane-wise answer depends on its lanes only up to the width of the type. -/
theorem VecWrites.congr {s : State} {env : SlotEnv} {c : Context} {o : Out} {p : Pipe} {w : VWord} {u : VUse} {lat ty : Nat}
    {f g : VIn → Nat → Nat × Flags} (h : VecWrites s env c o p w u lat ty f)
    (hfg : ∀ x j, (f x j).1 % 2 ^ (8 * typeBytes ty) = (g x j).1 % 2 ^ (8 * typeBytes ty) ∧ (f x j).2 = (g x j).2) :
    VecWrites s env c o p w u lat ty g := by
  obtain ⟨mask, data, hdata, hmask, hdoes⟩ := h
  refine ⟨mask, data, fun j hj => (hdata j hj).trans (hfg _ j).1, hmask, ?_⟩
  simp only [(hfg _ _).2] at hdoes
  exact hdoes

section
variable {s : State} {env : SlotEnv} {c : Context} (h : s.Issues env c) (p : Pipe) (w : VWord) (hty : w.ty.toNat ≤ 10) (lat : Nat)
include h hty

/-- An operation of one operand, by the lanes it gives of lanes of the type's width. -/
theorem lanes1_writes (f g : Nat → Nat × Flags)
    (hfg : ∀ x < 2 ^ laneBits w.ty.toNat, (f x).1 % 2 ^ laneBits w.ty.toNat = (g x).1 % 2 ^ laneBits w.ty.toNat ∧ (f x).2 = (g x).2) :
    VecWrites s env c (lanes1 s p w lat f) p w { vb := false } lat w.ty.toNat fun x j => g (lane x.a (8 * typeBytes w.ty.toNat) j) := by
  rw [laneBits_eq _ hty] at hfg
  refine (laneWise_writes s env c h p w { vb := false } lat w.ty.toNat
    (fun i j => f (lane i.a (laneBits w.ty.toNat) j))).congr fun x j => ?_
  rw [laneBits_eq _ hty]
  exact hfg _ (lane_lt ..)

/-- An operation of two operands, likewise. -/
theorem lanes2_writes (f g : Nat → Nat → Nat × Flags)
    (hfg : ∀ x < 2 ^ laneBits w.ty.toNat, ∀ y < 2 ^ laneBits w.ty.toNat,
      (f x y).1 % 2 ^ laneBits w.ty.toNat = (g x y).1 % 2 ^ laneBits w.ty.toNat ∧ (f x y).2 = (g x y).2) :
    VecWrites s env c (lanes2 s p w lat f) p w {} lat w.ty.toNat
      fun x j => g (lane x.a (8 * typeBytes w.ty.toNat) j) (lane x.b (8 * typeBytes w.ty.toNat) j) := by
  rw [laneBits_eq _ hty] at hfg
  refine (laneWise_writes s env c h p w {} lat w.ty.toNat
    (fun i j => f (lane i.a (laneBits w.ty.toNat) j) (lane i.b (laneBits w.ty.toNat) j))).congr fun x j => ?_
  rw [laneBits_eq _ hty]
  exact hfg _ (lane_lt ..) _ (lane_lt ..)

/-- An operation of three operands. -/
theorem lanes3_writes (f : Nat → Nat → Nat → Nat × Flags) :
    VecWrites s env c (lanes3 s p w lat f) p w { vc := true } lat w.ty.toNat fun x j =>
      f (lane x.a (8 * typeBytes w.ty.toNat) j) (lane x.b (8 * typeBytes w.ty.toNat) j) (lane x.c (8 * typeBytes w.ty.toNat) j) := by
  rw [← laneBits_eq _ hty]
  exact laneWise_writes s env c h p w { vc := true } lat w.ty.toNat
    (fun i j => f (lane i.a (laneBits w.ty.toNat) j) (lane i.b (laneBits w.ty.toNat) j) (lane i.c (laneBits w.ty.toNat) j))

end

/-! ### Integer lanes (R206, R210, R211, R212) -/

theorem intOf_of_lt (signed : Bool) (b x : Nat) (h : x < 2 ^ b) :
    intOf signed b x = if signed = true ∧ 2 ^ (b - 1) ≤ x then (x : Int) - 2 ^ b else x := by
  unfold intOf
  rw [Nat.mod_eq_of_lt h]
  simp only [Bool.and_eq_true, decide_eq_true_eq]

theorem two_pow_half (b : Nat) (h : 0 < b) : 2 ^ b = 2 * 2 ^ (b - 1) := by
  obtain ⟨k, rfl⟩ : ∃ k, b = k + 1 := ⟨b - 1, by omega⟩
  rw [Nat.add_sub_cancel, Nat.pow_succ, Nat.mul_comm]

/-- Two patterns of a width are the same if their values are. -/
theorem intOf_inj (signed : Bool) (b x y : Nat) (hx : x < 2 ^ b) (hy : y < 2 ^ b) (h : intOf signed b x = intOf signed b y) : x = y := by
  rw [intOf_of_lt signed b x hx, intOf_of_lt signed b y hy] at h
  have hx' : (x : Int) < 2 ^ b := by exact_mod_cast hx
  have hy' : (y : Int) < 2 ^ b := by exact_mod_cast hy
  split at h <;> split at h <;> omega

/-- An integer result is the exact value wrapped, or clamped with SATF. -/
theorem intResult_eq (signed : Bool) (b : Nat) (sat : Bool) (v : Int) :
    intResult signed b sat v = if sat = false then (wrapTo b v, 0)
      else if v < intMin signed b then (wrapTo b (intMin signed b), flSATF)
      else if intMax signed b < v then (wrapTo b (intMax signed b), flSATF) else (wrapTo b v, 0) := by
  unfold intResult clampTo
  cases sat
  · rfl
  · split_ifs <;> simp_all

theorem natLength_eq_size (n : Nat) : natLength n = n.size := by
  unfold natLength
  split
  · next h => rw [h]; rfl
  · next h =>
    exact le_antisymm (Nat.lt_size.mpr (Nat.log2_self_le h)) (Nat.size_le.mpr Nat.lt_log2_self)

/-- A shift by the width or more gives what a shift by the width gives (R212). -/
theorem shift_right_min (b x n : Nat) (h : x < 2 ^ b) : intOf true b x / 2 ^ (min n b) = intOf true b x / 2 ^ n := by
  rcases Nat.le_total n b with hn | hn
  · rw [Nat.min_eq_left hn]
  · rw [Nat.min_eq_right hn, intOf_of_lt true b x h]
    have hp : (2 : Int) ^ b ≤ 2 ^ n := pow_le_pow_right₀ (by norm_num) hn
    have hx : (x : Int) < 2 ^ b := by exact_mod_cast h
    have h0 : (0 : Int) < 2 ^ b := by positivity
    have hn0 : (0 : Int) < 2 ^ n := by positivity
    split
    · next hs =>
      have hx0 : (0 : Int) < x := by
        have := Nat.two_pow_pos (b - 1)
        omega
      rw [Int.ediv_eq_neg_one_of_neg_of_le (by omega) (by omega), Int.ediv_eq_neg_one_of_neg_of_le (by omega) (by omega)]
    · rw [Int.ediv_eq_zero_of_lt (by omega) hx, Int.ediv_eq_zero_of_lt (by omega) (by omega)]

/-- The exponent of a shift left by the width or more (R212). -/
theorem shift_left_mod (b x n : Nat) : (if b ≤ n then 0 else x * 2 ^ n % 2 ^ b) % 2 ^ b = x * 2 ^ n % 2 ^ b := by
  split
  · next h =>
    obtain ⟨d, rfl⟩ := Nat.exists_eq_add_of_le h
    rw [Nat.pow_add, ← Nat.mul_assoc, Nat.mul_right_comm, Nat.mul_mod_left, Nat.zero_mod]
  · rw [Nat.mod_mod]

theorem shift_right_zero (b x n : Nat) (h : x < 2 ^ b) : (if b ≤ n then 0 else x / 2 ^ n) = x / 2 ^ n := by
  split
  · next hn => exact (Nat.div_eq_of_lt (lt_of_lt_of_le h (Nat.pow_le_pow_right two_pos hn))).symm
  · rfl

section
variable {w : VWord} (hf : isFloat w.ty.toNat = false)
include hf

theorem VWord.latency_int : w.latency = 2 := by
  unfold VWord.latency VWord.float VWord.t
  rw [hf]
  rfl

theorem arith2_int (ff : FVal → FVal → FVal × Bool) (fi : Int → Int → Int) (x y : Nat) :
    arith2 w ff fi x y = intResult (isSigned w.t) w.bits w.saturates (fi (w.int x) (w.int y)) := by
  unfold arith2 VWord.float VWord.t
  rw [hf]
  rfl

theorem absLane_int (x : Nat) : absLane w x = intResult (isSigned w.t) w.bits w.saturates |w.int x| := by
  unfold absLane VWord.float VWord.t
  rw [hf, if_neg Bool.false_ne_true, Int.natCast_natAbs]

theorem negLane_int (x : Nat) : negLane w x = intResult (isSigned w.t) w.bits w.saturates (-w.int x) := by
  unfold negLane VWord.float VWord.t
  rw [hf]
  rfl

theorem minMax_min_int (x y : Nat) : minMax w.t false x y = if w.int x ≤ w.int y then x else y := by
  unfold minMax VWord.int VWord.bits VWord.t
  rw [hf]
  simp only [Bool.false_eq_true, if_false]
  split_ifs with h1 h2 h2
  · omega
  · rfl
  · rfl
  · omega

theorem minMax_max_int (x y : Nat) (hx : x < 2 ^ w.bits) (hy : y < 2 ^ w.bits) :
    minMax w.t true x y = if w.int x ≤ w.int y then y else x := by
  have hxy := intOf_inj (isSigned w.t) w.bits x y hx hy
  unfold VWord.bits VWord.t at hxy
  unfold minMax VWord.int VWord.bits VWord.t
  rw [hf]
  simp only [Bool.false_eq_true, if_false, if_true]
  split_ifs with h1 h2 h2
  · rfl
  · omega
  · exact hxy (by omega)
  · rfl

end

/-- Settles O40: each lane is the operation's integer result. -/
theorem vectorIntegerResults : Obligations.VectorIntegerResults := by
  refine ⟨fun s env c p w h h3 h8 => ?_, fun s env c p w h hty => ?_⟩
  · intro ty bits signed lo hi val wrap fit two one
    have hty : w.ty.toNat ≤ 10 := by omega
    have hbits : w.bits = bits := laneBits_eq _ hty
    have hf : isFloat w.ty.toNat = false := decide_eq_false (by omega)
    have hval (x : Nat) (hx : x < 2 ^ w.bits) : val x = w.int x := by
      rw [VWord.int, intOf_of_lt _ _ _ hx, hbits]
      rfl
    have hfit (v : Int) : fit v = intResult (isSigned w.t) w.bits w.saturates v := by
      rw [intResult_eq, hbits]
      have hsat : w.saturates = false ↔ w.sat = 0 := by unfold VWord.saturates; rw [beq_eq_false_iff_ne]; bv_omega
      by_cases hs : w.sat = 0
      · rw [if_pos (hsat.mpr hs)]
        exact if_pos hs
      · rw [if_neg (fun hc => hs (hsat.mp hc))]
        exact if_neg hs
    have hmod {a b : Nat × Flags} (e : a = b) : a.1 % 2 ^ w.bits = b.1 % 2 ^ w.bits ∧ a.2 = b.2 := by rw [e]; exact ⟨rfl, rfl⟩
    have htwo {i : Instr} {f g : Nat → Nat → Nat × Flags} (he : exec i s = lanes2 s p w 2 f)
        (hfg : ∀ x < 2 ^ w.bits, ∀ y < 2 ^ w.bits, (f x y).1 % 2 ^ w.bits = (g x y).1 % 2 ^ w.bits ∧ (f x y).2 = (g x y).2) :
        two i g := by
      change VecWrites s env c (exec i s) p w {} 2 ty _
      rw [he]
      exact lanes2_writes h p w hty 2 f g hfg
    have hone {i : Instr} {f g : Nat → Nat × Flags} (he : exec i s = lanes1 s p w 2 f)
        (hfg : ∀ x < 2 ^ w.bits, (f x).1 % 2 ^ w.bits = (g x).1 % 2 ^ w.bits ∧ (f x).2 = (g x).2) : one i g := by
      change VecWrites s env c (exec i s) p w { vb := false } 2 ty _
      rw [he]
      exact lanes1_writes h p w hty 2 f g hfg
    have hlat := VWord.latency_int hf
    clear_value two one
    refine ⟨htwo (by rw [exec_vadd, execVadd, hlat]) fun x hx y hy => hmod ?_, htwo (by rw [exec_vsub, execVsub, hlat]) fun x hx y hy => hmod ?_,
      htwo (by rw [exec_vmul, execVmul, hlat]) fun x hx y hy => hmod ?_, htwo (by rw [exec_vmin, execVmin, hlat]) fun x hx y hy => hmod ?_,
      htwo (by rw [exec_vmax, execVmax, hlat]) fun x hx y hy => hmod ?_, hone (by rw [exec_vabs, execVabs, hlat]) fun x hx => hmod ?_,
      hone (by rw [exec_vneg, execVneg, hlat]) fun x hx => hmod ?_, htwo (exec_vshl ..) fun x hx n _ => ?_,
      htwo (exec_vshr ..) fun x hx n _ => hmod ?_, htwo (exec_vsra ..) fun x hx n _ => hmod ?_,
      hone (exec_vshli ..) fun x hx => ?_, hone (exec_vshri ..) fun x hx => hmod rfl,
      htwo (exec_vmulh ..) fun x hx y hy => hmod ?_, hone (exec_vclz ..) fun x hx => ?_⟩
    · rw [arith2_int hf, hfit, hval x hx, hval y hy]
    · rw [arith2_int hf, hfit, hval x hx, hval y hy]
    · rw [arith2_int hf, hfit, hval x hx, hval y hy]
    · rw [minMax_min_int hf, hval x hx, hval y hy]
    · rw [minMax_max_int hf x y hx hy, hval x hx, hval y hy]
    · rw [absLane_int hf, hfit, hval x hx]
    · rw [negLane_int hf, hfit, hval x hx]
    · exact ⟨shift_left_mod w.bits x n, rfl⟩
    · rw [shift_right_zero w.bits x n hx]
    · rw [shift_right_min w.bits x n hx, intOf_of_lt true _ _ hx, hbits]
      simp only [true_and]
      rfl
    · exact ⟨Nat.mod_mod _ _, rfl⟩
    · rw [hval x hx, hval y hy, hbits]
      rfl
    · refine hmod ?_
      rw [natLength_eq_size, hbits]
  · intro bits two
    have htwo {i : Instr} {f : Nat → Nat → Nat} (he : exec i s = lanes2 s p w 2 fun x y => (f x y, 0)) : two i f := by
      change VecWrites s env c (exec i s) p w {} 2 w.ty.toNat _
      rw [he]
      exact lanes2_writes h p w hty 2 _ _ fun x _ y _ => ⟨rfl, rfl⟩
    refine ⟨htwo (exec_vand ..), htwo (exec_vor ..), htwo (exec_vxor ..), ?_, ?_⟩
    · rw [exec_vnot, execVnot]
      refine lanes1_writes h p w hty 2 _ (fun x => (2 ^ bits - 1 - x, 0)) fun x _ => ?_
      rw [VWord.bits, VWord.t, laneBits_eq _ hty]
      exact ⟨rfl, rfl⟩
    · rw [exec_vmov, execVmov]
      exact lanes1_writes h p w hty 2 _ (fun x => (x, 0)) fun x _ => ⟨rfl, rfl⟩

end Sys2Proof.Machine
end

section
/-! PROOFS. Bit patterns of floating formats, the floating vector operations, and the operations that move lanes (R171, R206-R222). -/

namespace Sys2Proof.Machine

/-! ### Fields of a bit pattern (R171) -/

theorem FpFmt.signBit_lt (f : FpFmt) (s : Bool) : f.signBit s = (if s then 1 else 0) * 2 ^ (f.ebits + f.tbits) := by
  cases s <;> simp [FpFmt.signBit]

/-- The fields of a pattern that is put together from them. -/
theorem FpFmt.fields_of (f : FpFmt) (s : Bool) (E T : Nat) (hE : E < 2 ^ f.ebits) (hT : T < 2 ^ f.tbits) :
    let x := f.signBit s + E * 2 ^ f.tbits + T
    x % 2 ^ f.tbits = T ∧ x / 2 ^ f.tbits % 2 ^ f.ebits = E ∧ x / 2 ^ (f.ebits + f.tbits) = if s then 1 else 0 := by
  intro x
  have hx : x = 2 ^ f.tbits * (2 ^ f.ebits * (if s then 1 else 0) + E) + T := by
    change f.signBit s + E * 2 ^ f.tbits + T = _
    rw [f.signBit_lt, Nat.pow_add]
    ring
  have hdiv : x / 2 ^ f.tbits = 2 ^ f.ebits * (if s then 1 else 0) + E := by
    rw [hx, Nat.mul_add_div (Nat.two_pow_pos _), Nat.div_eq_of_lt hT, Nat.add_zero]
  refine ⟨?_, ?_, ?_⟩
  · rw [hx, Nat.mul_add_mod, Nat.mod_eq_of_lt hT]
  · rw [hdiv, Nat.mul_add_mod, Nat.mod_eq_of_lt hE]
  · rw [Nat.add_comm, Nat.pow_add, ← Nat.div_div_eq_div_mul, hdiv, Nat.mul_add_div (Nat.two_pow_pos _), Nat.div_eq_of_lt hE, Nat.add_zero]

/-- Every pattern of the format's width is put together from fields. -/
theorem FpFmt.exists_fields (f : FpFmt) (x : Nat) (h : x < 2 ^ (f.ebits + f.tbits + 1)) : ∃ s E T, E < 2 ^ f.ebits ∧ T < 2 ^ f.tbits ∧
    x = f.signBit s + E * 2 ^ f.tbits + T := by
  have hs : x / 2 ^ (f.ebits + f.tbits) < 2 := Nat.div_lt_of_lt_mul (by rw [← Nat.pow_succ]; exact h)
  refine ⟨decide (x / 2 ^ (f.ebits + f.tbits) = 1), x / 2 ^ f.tbits % 2 ^ f.ebits, x % 2 ^ f.tbits, Nat.mod_lt _ (Nat.two_pow_pos _),
    Nat.mod_lt _ (Nat.two_pow_pos _), ?_⟩
  have h1 : x / 2 ^ f.tbits / 2 ^ f.ebits = x / 2 ^ (f.ebits + f.tbits) := by rw [Nat.div_div_eq_div_mul, ← Nat.pow_add, Nat.add_comm]
  have h2 := Nat.div_add_mod (x / 2 ^ f.tbits) (2 ^ f.ebits)
  have h3 := Nat.div_add_mod x (2 ^ f.tbits)
  have hbit : (if decide (x / 2 ^ (f.ebits + f.tbits) = 1) then 1 else 0) = x / 2 ^ (f.ebits + f.tbits) := by
    rcases Nat.lt_succ_iff_lt_or_eq.mp hs with h0 | h0
    · rw [Nat.lt_one_iff.mp h0]; rfl
    · rw [h0]; rfl
  rw [f.signBit_lt, hbit, ← h1, Nat.pow_add]
  calc x = 2 ^ f.tbits * (x / 2 ^ f.tbits) + x % 2 ^ f.tbits := h3.symm
    _ = 2 ^ f.tbits * (2 ^ f.ebits * (x / 2 ^ f.tbits / 2 ^ f.ebits) + x / 2 ^ f.tbits % 2 ^ f.ebits) + x % 2 ^ f.tbits := by rw [h2]
    _ = _ := by ring

/-- The value of a pattern, by its fields. -/
theorem FpFmt.decode_of (f : FpFmt) (s : Bool) (E T : Nat) (hE : E < 2 ^ f.ebits) (hT : T < 2 ^ f.tbits) :
    f.decode (f.signBit s + E * 2 ^ f.tbits + T) =
      if f.noInf && decide (E = 2 ^ f.ebits - 1 ∧ T = 2 ^ f.tbits - 1) then .nan
      else if !f.noInf && decide (E = 2 ^ f.ebits - 1) then (if T = 0 then .inf s else .nan)
      else if E = 0 then .fin s T (f.emin - f.tbits)
      else .fin s (T + 2 ^ f.tbits) ((E : Int) - f.bias - f.tbits) := by
  obtain ⟨ht, he, hs⟩ := f.fields_of s E T hE hT
  have hsign : decide ((f.signBit s + E * 2 ^ f.tbits + T) / 2 ^ (f.ebits + f.tbits) % 2 = 1) = s := by
    rw [hs]
    cases s <;> rfl
  unfold FpFmt.decode
  rw [ht, he, hsign]

/-- The significand of a finite pattern's fields. -/
def FpFmt.mant (f : FpFmt) (E T : Nat) : Nat := if E = 0 then T else T + 2 ^ f.tbits

/-- The exponent of its last bit. -/
def FpFmt.expOf (f : FpFmt) (E : Nat) : Int := if E = 0 then f.emin - f.tbits else (E : Int) - f.bias - f.tbits

/-- The fields are those of a finite value. -/
def FpFmt.FiniteFields (f : FpFmt) (E T : Nat) : Prop :=
  if f.noInf then ¬ (E = 2 ^ f.ebits - 1 ∧ T = 2 ^ f.tbits - 1) else E ≠ 2 ^ f.ebits - 1

theorem FpFmt.decode_finite (f : FpFmt) (s : Bool) (E T : Nat) (hE : E < 2 ^ f.ebits) (hT : T < 2 ^ f.tbits) (h : f.FiniteFields E T) :
    f.decode (f.signBit s + E * 2 ^ f.tbits + T) = .fin s (f.mant E T) (f.expOf E) := by
  unfold FpFmt.FiniteFields at h
  rw [f.decode_of s E T hE hT]
  unfold FpFmt.mant FpFmt.expOf
  cases hn : f.noInf with
  | true =>
    rw [hn, if_pos rfl] at h
    rw [decide_eq_false h]
    by_cases h0 : E = 0 <;> simp [h0]
  | false =>
    rw [hn, if_neg Bool.false_ne_true] at h
    rw [decide_eq_false h]
    by_cases h0 : E = 0 <;> simp [h0]

theorem FpFmt.mant_lt (f : FpFmt) (E T : Nat) (hT : T < 2 ^ f.tbits) : f.mant E T < 2 ^ (f.tbits + 1) := by
  unfold FpFmt.mant
  rw [Nat.pow_succ]
  split <;> omega

theorem FpFmt.emin_le_expOf (f : FpFmt) (E : Nat) : f.emin - f.tbits ≤ f.expOf E := by
  unfold FpFmt.expOf FpFmt.emin
  split <;> omega

theorem FpFmt.mant_normal (f : FpFmt) (E T : Nat) : 2 ^ f.tbits ≤ f.mant E T ∨ f.expOf E = f.emin - f.tbits := by
  unfold FpFmt.mant FpFmt.expOf
  split
  · exact .inr rfl
  · exact .inl (Nat.le_add_left _ _)

theorem FpFmt.fields_inj (f : FpFmt) {E T F S : Nat} (hT : T < 2 ^ f.tbits) (hS : S < 2 ^ f.tbits) (hm : f.mant E T = f.mant F S)
    (he : f.expOf E = f.expOf F) : E = F ∧ T = S := by
  unfold FpFmt.mant at hm
  unfold FpFmt.expOf FpFmt.emin at he
  by_cases hE : E = 0 <;> by_cases hF : F = 0
  · rw [if_pos hE, if_pos hF] at hm
    exact ⟨hE.trans hF.symm, hm⟩
  · rw [if_pos hE, if_neg hF] at hm he
    omega
  · rw [if_neg hE, if_pos hF] at hm he
    omega
  · rw [if_neg hE, if_neg hF] at hm he
    omega

/-- Magnitudes in the form of the format, with t fraction bits and exponents from L on, are the same only where their parts are. -/
theorem normal_unique {t : Nat} {L : Int} {m n : Nat} {e g : Int} (hm : m < 2 ^ (t + 1)) (hn : n < 2 ^ (t + 1)) (he : L ≤ e) (hg : L ≤ g)
    (hm' : 2 ^ t ≤ m ∨ e = L) (hn' : 2 ^ t ≤ n ∨ g = L)
    (h : m * 2 ^ (e - min e g).toNat = n * 2 ^ (g - min e g).toNat) : m = n ∧ e = g := by
  have below {m n : Nat} {e g : Int} (hm : m < 2 ^ (t + 1)) (he : L ≤ e) (hn' : 2 ^ t ≤ n ∨ g = L) (hlt : e < g)
      (h : m * 2 ^ (e - min e g).toNat = n * 2 ^ (g - min e g).toNat) : False := by
    obtain ⟨k, hk⟩ : ∃ k, (g - min e g).toNat = k + 1 := ⟨(g - e).toNat - 1, by omega⟩
    have h0 : (e - min e g).toNat = 0 := by omega
    rw [h0, hk, Nat.pow_zero, Nat.mul_one] at h
    have hn : 2 ^ t ≤ n := hn'.resolve_right (by omega)
    have : 2 ^ t * 2 ^ 1 ≤ n * 2 ^ (k + 1) := Nat.mul_le_mul hn (Nat.pow_le_pow_right two_pos (by omega))
    rw [← Nat.pow_add] at this
    omega
  rcases lt_trichotomy e g with hlt | rfl | hlt
  · exact (below hm he hn' hlt h).elim
  · simpa using h
  · rw [min_comm] at h
    exact (below hn hg hm' hlt h.symm).elim

/-- Two patterns of one sign that compare equal are one pattern. -/
theorem FpFmt.eq_of_fcmp_eq (f : FpFmt) (hf : f.noInf = false) (x y : Nat) (hx : x < 2 ^ (f.ebits + f.tbits + 1))
    (hy : y < 2 ^ (f.ebits + f.tbits + 1)) (hs : (f.decode x).isNegative = (f.decode y).isNegative)
    (h : fcmp (f.decode x) (f.decode y) = some .eq) : x = y := by
  obtain ⟨s, E, T, hE, hT, rfl⟩ := f.exists_fields x hx
  obtain ⟨u, F, S, hF, hS, rfl⟩ := f.exists_fields y hy
  have hfin (E T : Nat) (h : E ≠ 2 ^ f.ebits - 1) : f.FiniteFields E T := by
    unfold FpFmt.FiniteFields
    rw [hf]
    exact h
  have hmax (s : Bool) (T : Nat) (hE : 2 ^ f.ebits - 1 < 2 ^ f.ebits) (hT : T < 2 ^ f.tbits) :
      f.decode (f.signBit s + (2 ^ f.ebits - 1) * 2 ^ f.tbits + T) = if T = 0 then .inf s else .nan := by
    rw [f.decode_of s _ T hE hT, hf, decide_eq_true rfl]
    rfl
  by_cases h1 : E = 2 ^ f.ebits - 1 <;> by_cases h2 : F = 2 ^ f.ebits - 1
  · subst h1 h2
    rw [hmax s T hE hT, hmax u S hF hS] at h hs
    by_cases hT0 : T = 0
    · by_cases hS0 : S = 0
      · rw [if_pos hT0, if_pos hS0] at hs
        have : s = u := hs
        rw [this, hT0, hS0]
      · rw [if_pos hT0, if_neg hS0] at h
        cases h
    · rw [if_neg hT0] at h
      cases h
  · subst h1
    rw [hmax s T hE hT, f.decode_finite u F S hF hS (hfin F S h2)] at h
    by_cases hT0 : T = 0
    · rw [if_pos hT0] at h
      cases s <;> cases h
    · rw [if_neg hT0] at h
      cases h
  · subst h2
    rw [hmax u S hF hS, f.decode_finite s E T hE hT (hfin E T h1)] at h
    by_cases hS0 : S = 0
    · rw [if_pos hS0] at h
      cases u <;> cases h
    · rw [if_neg hS0] at h
      cases h
  · rw [f.decode_finite s E T hE hT (hfin E T h1), f.decode_finite u F S hF hS (hfin F S h2)] at h hs
    obtain rfl : s = u := hs
    have hval := Int.compare_eq_eq.mp (Option.some.inj h)
    have hmag : f.mant E T * 2 ^ (f.expOf E - min (f.expOf E) (f.expOf F)).toNat =
        f.mant F S * 2 ^ (f.expOf F - min (f.expOf E) (f.expOf F)).toNat := by
      cases s <;> simp only [signedMant, Bool.false_eq_true, if_false, if_true] at hval <;> omega
    obtain ⟨hm, he⟩ := normal_unique (f.mant_lt E T hT) (f.mant_lt F S hS) (f.emin_le_expOf E) (f.emin_le_expOf F) (f.mant_normal E T)
      (f.mant_normal F S) hmag
    obtain ⟨rfl, rfl⟩ := f.fields_inj hT hS hm he
    rfl

/-- The sign of a value is the top bit of its pattern. -/
theorem FpFmt.isNegative_decode (f : FpFmt) (x : Nat) (hx : x < 2 ^ (f.ebits + f.tbits + 1)) (hn : (f.decode x).isNan = false) :
    (f.decode x).isNegative = !decide (x < 2 ^ (f.ebits + f.tbits)) := by
  obtain ⟨s, E, T, hE, hT, rfl⟩ := f.exists_fields x hx
  have hsign : (!decide (f.signBit s + E * 2 ^ f.tbits + T < 2 ^ (f.ebits + f.tbits))) = s := by
    obtain ⟨_, _, hs⟩ := f.fields_of s E T hE hT
    have hlt := Nat.div_eq_zero_iff_lt (x := f.signBit s + E * 2 ^ f.tbits + T) (Nat.two_pow_pos (f.ebits + f.tbits))
    rw [hs] at hlt
    cases s with
    | false => rw [decide_eq_true (hlt.mp rfl)]; rfl
    | true => rw [decide_eq_false (fun hc => one_ne_zero (hlt.mpr hc))]; rfl
  rw [hsign]
  rw [f.decode_of s E T hE hT] at hn ⊢
  split_ifs at hn ⊢
  · cases hn
  · rfl
  · cases hn
  · rfl
  · rfl

/-! ### Order of values (R211) -/

theorem fcmp_swap (a b : FVal) : fcmp b a = (fcmp a b).map Ordering.swap := by
  cases a with
  | nan => cases b <;> rfl
  | inf s => cases b with
    | nan => rfl
    | inf t => cases s <;> cases t <;> rfl
    | fin t n g => cases s <;> rfl
  | fin s m e => cases b with
    | nan => rfl
    | inf t => cases t <;> rfl
    | fin t n g =>
      unfold fcmp
      dsimp only
      rw [min_comm g e, Option.map_some, Std.OrientedCmp.eq_swap (cmp := compare)]

theorem fcmp_isSome (a b : FVal) (ha : a.isNan = false) (hb : b.isNan = false) : (fcmp a b).isSome = true := by
  cases a with
  | nan => cases ha
  | inf s => cases b with
    | nan => cases hb
    | inf t => rfl
    | fin t n g => rfl
  | fin s m e => cases b with
    | nan => cases hb
    | inf t => rfl
    | fin t n g => rfl

/-- The lane that a floating minimum or maximum takes: by the order of the values, of equal ones by the sign (R211). -/
def pickLane (f : FpFmt) (half : Nat) (max : Bool) (x y : Nat) : Nat :=
  match fcmp (f.decode x) (f.decode y) with
  | some .lt => if max then y else x
  | some .gt => if max then x else y
  | _ => if max then (if x < half then x else y) else (if x < half then y else x)

theorem minMax_float (ty : Nat) (hfl : isFloat ty = true) (hf : (fpOfType ty).noInf = false) (max : Bool) (x y : Nat)
    (hx : x < 2 ^ ((fpOfType ty).ebits + (fpOfType ty).tbits + 1)) (hy : y < 2 ^ ((fpOfType ty).ebits + (fpOfType ty).tbits + 1)) :
    minMax ty max x y = if ((fpOfType ty).decode x).isNan || ((fpOfType ty).decode y).isNan then (fpOfType ty).nanBits
      else pickLane (fpOfType ty) (2 ^ ((fpOfType ty).ebits + (fpOfType ty).tbits)) max x y := by
  generalize hF : fpOfType ty = f at *
  unfold minMax
  rw [hfl, if_pos rfl, hF]
  dsimp only
  by_cases hn : ((f.decode x).isNan || (f.decode y).isNan) = true
  · rw [if_pos hn, if_pos hn]
  · rw [if_neg hn, if_neg hn]
    obtain ⟨hnx, hny⟩ : (f.decode x).isNan = false ∧ (f.decode y).isNan = false := by simpa using hn
    have hsx := f.isNegative_decode x hx hnx
    have hsy := f.isNegative_decode y hy hny
    have heq := f.eq_of_fcmp_eq hf x y hx hy
    have hswap := fcmp_swap (f.decode x) (f.decode y)
    obtain ⟨o, ho⟩ := Option.isSome_iff_exists.mp (fcmp_isSome _ _ hnx hny)
    unfold pickLane flessOrdered
    rw [hswap, ho]
    cases o with
    | lt => cases max <;> rfl
    | gt => cases max <;> rfl
    | eq =>
      rw [hsx, hsy] at heq
      simp only [Option.map_some, Ordering.swap_eq, hsx, hsy]
      by_cases h1 : x < 2 ^ (f.ebits + f.tbits) <;> by_cases h2 : y < 2 ^ (f.ebits + f.tbits)
      · obtain rfl := heq (by rw [decide_eq_true h1, decide_eq_true h2]) ho
        simp
      · simp [h1, h2]
      · simp [h1, h2]
      · obtain rfl := heq (by rw [decide_eq_false h1, decide_eq_false h2]) ho
        simp

/-! ### Floating lanes (R210, R211) -/

/-- The formats of the types F32, BF16 and F16. -/
theorem fpOfType_spec (ty : Nat) (h : ty ≤ 2) : isFloat ty = true ∧ (fpOfType ty).noInf = false ∧
    8 * typeBytes ty = (fpOfType ty).ebits + (fpOfType ty).tbits + 1 := by
  interval_cases ty <;> exact ⟨rfl, rfl, rfl⟩

theorem absLane_float {w : VWord} (hfl : isFloat w.ty.toNat = true) (x : Nat) : absLane w x = (signLane w.fmt x (fun _ => 0), 0) := by
  unfold absLane VWord.float VWord.t
  rw [hfl, if_pos rfl]

theorem negLane_float {w : VWord} (hfl : isFloat w.ty.toNat = true) (x : Nat) : negLane w x = (signLane w.fmt x (fun s => 1 - s), 0) := by
  unfold negLane VWord.float VWord.t
  rw [hfl, if_pos rfl]

theorem flip_top_bit (k x : Nat) (hx : x < 2 ^ (k + 1)) :
    (1 - x / 2 ^ k % 2) * 2 ^ k + x % 2 ^ k = if x < 2 ^ k then x + 2 ^ k else x - 2 ^ k := by
  by_cases h : x < 2 ^ k
  · rw [if_pos h, Nat.div_eq_of_lt h, Nat.mod_eq_of_lt h, Nat.zero_mod, Nat.sub_zero, Nat.one_mul, Nat.add_comm]
  · have h1 : x / 2 ^ k = 1 := Nat.div_eq_of_lt_le (by omega) (by rw [Nat.pow_succ] at hx; omega)
    have hmod := Nat.div_add_mod x (2 ^ k)
    rw [h1, Nat.mul_one] at hmod
    rw [if_neg h, h1, Nat.sub_self, Nat.zero_mul, Nat.zero_add]
    omega

/-- Settles O41: each lane is the operation's rounded result; minimum and maximum by the order of the values, VABS and VNEG by the sign bit. -/
theorem vectorFloatResults : Obligations.VectorFloatResults := by
  refine ⟨fun s env c p w h h2 => ?_, fun s env c p w h h2 => ?_⟩
  · intro f bits rm sat v one two three
    have hty : w.ty.toNat ≤ 10 := by omega
    obtain ⟨hfl, hinf, hbits⟩ := fpOfType_spec _ h2
    have hlat : w.latency = 4 := by unfold VWord.latency VWord.float VWord.t; rw [hfl]; rfl
    have harith (ff : FVal → FVal → FVal × Bool) (fi : Int → Int → Int) :
        arith2 w ff fi = fun x y => f.finish (ff (f.decode x) (f.decode y)) rm sat := by
      funext x y
      unfold arith2 VWord.float VWord.t
      rw [hfl]
      rfl
    have htwo {i : Instr} {lat : Nat} {g : FVal → FVal → Nat × Flags}
        (he : exec i s = lanes2 s p w lat fun x y => g (f.decode x) (f.decode y)) : two i lat g := by
      change VecWrites s env c (exec i s) p w {} lat w.ty.toNat _
      rw [he]
      exact lanes2_writes h p w hty lat _ _ fun x _ y _ => ⟨rfl, rfl⟩
    have hone {i : Instr} {lat : Nat} {g : FVal → Nat × Flags} (he : exec i s = lanes1 s p w lat fun x => g (f.decode x)) : one i lat g := by
      change VecWrites s env c (exec i s) p w { vb := false } lat w.ty.toNat _
      rw [he]
      exact lanes1_writes h p w hty lat _ _ fun x _ => ⟨rfl, rfl⟩
    have hthree {i : Instr} {g : FVal → FVal → FVal → Nat × Flags}
        (he : exec i s = lanes3 s p w 4 fun x y z => g (f.decode x) (f.decode y) (f.decode z)) : three i g := by
      change VecWrites s env c (exec i s) p w { vc := true } 4 w.ty.toNat _
      rw [he]
      exact lanes3_writes h p w hty 4 _
    clear_value one two three
    refine ⟨htwo ?_, htwo ?_, htwo ?_, hthree (exec_vfma ..), hthree (exec_vfms ..), hone (exec_vrcp ..), hone (exec_vrsq ..),
      hone (exec_vexp2 ..), htwo (exec_vdiv ..)⟩
    · rw [exec_vadd, execVadd, hlat, harith]
      rfl
    · rw [exec_vsub, execVsub, hlat, harith]
      rfl
    · rw [exec_vmul, execVmul, hlat, harith]
  · intro f bits nan pick two one
    have hty : w.ty.toNat ≤ 10 := by omega
    obtain ⟨hfl, hinf, hbits⟩ := fpOfType_spec _ h2
    have hwb : laneBits w.ty.toNat = f.ebits + f.tbits + 1 := (laneBits_eq _ hty).trans hbits
    have hhalf : bits - 1 = f.ebits + f.tbits := by
      change 8 * typeBytes w.ty.toNat - 1 = _
      rw [hbits]
      rfl
    have hlat : w.latency = 4 := by unfold VWord.latency VWord.float VWord.t; rw [hfl]; rfl
    have hnan (x : Nat) : nan x = (f.decode x).isNan := by
      change (f.decode x == .nan) = _
      cases f.decode x <;> rfl
    have hpick (max : Bool) (x y : Nat) : pick max x y = if (f.decode x).isNan || (f.decode y).isNan then f.nanBits
        else pickLane f (2 ^ (f.ebits + f.tbits)) max x y := by
      rw [← hnan, ← hnan, ← hhalf]
      rfl
    have htwo {i : Instr} {max : Bool} (he : exec i s = lanes2 s p w w.latency fun x y => (minMax w.t max x y, 0)) : two i max := by
      change VecWrites s env c (exec i s) p w {} 4 w.ty.toNat fun x j => (pick max (lane x.a bits j) (lane x.b bits j), 0)
      rw [he, hlat]
      refine lanes2_writes h p w hty 4 _ (fun x y => (pick max x y, 0)) fun x hx y hy => ?_
      rw [hwb] at hx hy
      rw [hpick, VWord.t, minMax_float _ hfl hinf max x y hx hy]
      exact ⟨rfl, rfl⟩
    have hone {i : Instr} {g0 : Nat → Nat × Flags} {u g : Nat → Nat} (he : exec i s = lanes1 s p w w.latency g0)
        (hg0 : ∀ x, g0 x = (signLane f x u, 0)) (hg : ∀ x < 2 ^ (f.ebits + f.tbits + 1),
          u (x / 2 ^ (f.ebits + f.tbits) % 2) * 2 ^ (f.ebits + f.tbits) + x % 2 ^ (f.ebits + f.tbits) = g x) : one i g := by
      change VecWrites s env c (exec i s) p w { vb := false } 4 w.ty.toNat fun x j =>
        (if nan (lane x.a bits j) then f.nanBits else g (lane x.a bits j), 0)
      rw [he, hlat]
      refine lanes1_writes h p w hty 4 _ (fun x => (if nan x then f.nanBits else g x, 0)) fun x hx => ?_
      rw [hwb] at hx
      rw [hg0, hnan, ← hg x hx]
      exact ⟨rfl, rfl⟩
    clear_value two one
    refine ⟨htwo (exec_vmin ..), htwo (exec_vmax ..), hone (exec_vabs ..) (absLane_float hfl) fun x _ => ?_,
      hone (exec_vneg ..) (negLane_float hfl) fun x hx => ?_⟩
    · rw [hhalf, Nat.zero_mul, Nat.zero_add]
    · rw [hhalf]
      exact flip_top_bit _ x hx

/-! ### Lanes that move (R219, R222) -/

/-- Settles O43: each result lane, from the lanes of the operands. -/
theorem vectorMoveResults : Obligations.VectorMoveResults := by
  intro s env c p w h hty ty bits n r
  have hbits : w.bits = bits := laneBits_eq _ hty
  have hmove {i : Instr} {u : VUse} {lat : Nat} {f : VIn → Nat → Nat}
      (he : exec i s = issueVec s p w u lat fun _ x => laneWise w.t w x fun j => (f x j, 0)) : r i u lat f := by
    change VecWrites s env c (exec i s) p w u lat ty _
    rw [he]
    exact laneWise_writes s env c h p w u lat ty fun x j => (f x j, 0)
  clear_value r
  refine ⟨hmove ?_, hmove ?_, hmove ?_, hmove ?_, hmove ?_, hmove ?_, ?_⟩
  · rw [exec_vperm, execVperm, hbits]
    rfl
  · rw [exec_vbcst, execVbcst, hbits]
  · rw [exec_vshfl, execVshfl, hbits]
    rfl
  · rw [exec_viota, execViota, hbits]
    rfl
  · rw [exec_vmovi, execVmovi, VWord.t, moviLane, laneBits_eq _ hty]
    rfl
  · exact exec_vldi ..
  · intro code z
    exact laneWise_writes s env c h p w { vb := false } 4 0 fun x k =>
      ((fmtF32.encode ((blockDecode (blockM code) (x.a.toNat / 2 ^ (8 * (w.vc.toNat / 16 % 4) * z) % 2 ^ (8 * z))).getD k .nan) 0 false).1, 0)

end Sys2Proof.Machine
end

section
/-! PROOFS. Compares, predicate logic, checks and status; the vector operations whose result takes its own lanes; the widening ones
(R213-R225). -/

namespace Sys2Proof.Machine

/-! ### Results with their own lanes -/

/-- What a vector operation with one result answers. -/
theorem issueVec_one {s : State} {env : SlotEnv} {c : Context} (h : s.Issues env c) (p : Pipe) (w : VWord) (u : VUse) (lat : Nat)
    (t : Context → VIn → WriteTarget × Bool) (flags : Context → VIn → Flags) :
    let x := readVec c env.cc p u w
    SlotDoes s env (issueVec s p w u lat fun c i => { writes := [t c i], flags := flags c i })
      (Context.addWrite { c with be := x.be } { due := env.cc + lat, idx := env.idx, ord := ordV p, target := (t c x).1, poison := (t c x).2 })
      (env.does (if flags c x = 0 then [] else [.flags ((flags c x).setWidth 64)])) := by
  intro x
  rw [issueVec, withSlot_of s env c h]
  exact (((SlotAt.start h).setCtx _).addActs _).done

theorem laneTrue_maskOf (ty : Nat) (q : Word) (n : Nat) (hn : n < 64) :
    (maskOf (typeBytes ty) (laneTrue q (typeBytes ty))).getLsbD n = q.getLsbD (n / typeBytes ty * typeBytes ty) := by
  rw [maskOf_get _ (typeBytes_dvd ty) _ _ hn]
  rfl

/-- A lane of a register that is put together from lanes of its type. -/
theorem lane_ofLanes_map (ty : Nat) (h : ty ≤ 10) (f : Nat → Nat) (j : Nat) (hj : j < typeLanes ty) :
    lane (ofLanes (laneBits ty) ((List.range (typeLanes ty)).map f)) (laneBits ty) j = f j % 2 ^ laneBits ty := by
  rw [laneBits_eq ty h, lane_ofLanes _ _ _ (by simp [typeLanes_bits])]
  simp [List.getD, hj]

/-! ### Compares, predicate logic, checks and status (R214, R216, R223-R225) -/

theorem foldl_setBitAt (f : Nat → Bool) (l : List Nat) (m : Word) (n : Nat) (hn : n < 64) :
    (l.foldl (fun acc j => setBitAt acc j (f j)) m).getLsbD n = if n ∈ l then f n else m.getLsbD n := by
  induction l generalizing m with
  | nil => simp
  | cons j l ih =>
    rw [List.foldl_cons, ih, getLsbD_setBitAt _ _ _ _ hn]
    by_cases h1 : n ∈ l
    · simp [h1]
    · by_cases h2 : n = j <;> simp [h1, h2]

theorem qopBits_getLsbD (tt : Nat) (a b : Word) (n : Nat) (hn : n < 64) : (qopBits tt a b).getLsbD n =
    decide (tt / 2 ^ ((if a.getLsbD n then 2 else 0) + (if b.getLsbD n then 1 else 0)) % 2 = 1) := by
  unfold qopBits
  rw [foldl_setBitAt (fun j => decide (tt / 2 ^ ((if a.getLsbD j then 2 else 0) + (if b.getLsbD j then 1 else 0)) % 2 = 1)) _ _ n hn,
    if_pos (List.mem_range.mpr hn)]

section
variable {s : State} {env : SlotEnv} {c : Context} (h : s.Issues env c) (p : Pipe) (w : VWord)
include h

/-- VCHK of a vector register. -/
theorem execVchk_of_vector (h0 : w.vc = 0) : execVchk p w s = .next (if ((c.vview env.cc).reg w.va.toNat).2 then
    s.slotFault { slot := pipeSlot p, cause := bVCHK, sub := 0, addr := BitVec.ofNat 64 w.va.toNat } else s) := by
  have hpred : (w.vc == 1) = false := by rw [h0]; rfl
  rw [execVchk, withSlot_of s env c h]
  dsimp only
  rw [hpred]
  rfl

/-- VCHK of a predicate register. -/
theorem execVchk_of_predicate (h1 : w.vc = 1) : execVchk p w s = .next (if ((c.vview env.cc).pred (w.va.toNat % 8)).2 then
    s.slotFault { slot := pipeSlot p, cause := bVCHK, sub := 0, addr := BitVec.ofNat 64 (w.va.toNat + 1024) } else s) := by
  have hpred : (w.vc == 1) = true := by rw [h1]; rfl
  rw [execVchk, withSlot_of s env c h]
  dsimp only
  rw [hpred]
  rfl

end

/-- Settles O44: each operation by what it writes. -/
theorem predicateResults : Obligations.PredicateResults := by
  intro s env c p w h view due
  have start : SlotAt s env s c env := .start h
  refine ⟨?_, ?_, fun h0 hp => ?_, fun h0 hp => ?_, fun h1 hp => ?_, fun h1 hp => ?_, fun h0 => ?_, fun h1 hd => ?_, ?_⟩
  · intro i b bits
    refine ⟨maskOf b (laneTrue i.p b), maskOf b (fun j => condHolds w.vc.toNat (compareLanes w.ty.toNat (lane i.a bits j) (lane i.b bits j))),
      fun n hn => laneTrue_maskOf _ _ n hn, fun n hn => maskOf_get _ (typeBytes_dvd _) _ _ hn, ?_⟩
    rw [exec_vcmp]
    exact issueVec_one h p w {} w.latency (fun _ i => (.pred w.vd.toNat (maskOf b (laneTrue i.p b))
      (maskOf b (fun j => condHolds w.vc.toNat (compareLanes w.ty.toNat (lane i.a bits j) (lane i.b bits j)))), i.psn)) (fun _ _ => 0)
  · intro a b
    refine ⟨qopBits w.vc.toNat a.1 b.1, fun n hn => qopBits_getLsbD _ _ _ n hn, ?_⟩
    rw [exec_qop, execQop, withSlot_of s env c h]
    exact (start.setCtx _).done
  · rw [exec_vchk, execVchk_of_vector h p w h0, if_neg (by rw [hp]; exact Bool.false_ne_true)]
    exact start.done
  · rw [exec_vchk, execVchk_of_vector h p w h0, if_pos hp]
    exact (start.slotFault _).done
  · rw [exec_vchk, execVchk_of_predicate h p w h1, if_neg (by rw [hp]; exact Bool.false_ne_true)]
    exact start.done
  · rw [exec_vchk, execVchk_of_predicate h p w h1, if_pos hp]
    exact (start.slotFault _).done
  · have hpred : (w.vc == 1) = false := by rw [h0]; rfl
    rw [exec_vclrp, execVclrp, withSlot_of s env c h]
    dsimp only
    rw [hpred]
    exact (start.setCtx _).done
  · have hpred : (w.vc == 1) = true := by rw [h1]; rfl
    have hq0 : (w.vd == 0) = false := by simpa using hd
    rw [exec_vclrp, execVclrp, withSlot_of s env c h]
    dsimp only
    rw [hpred, hq0]
    exact (start.setCtx _).done
  · rw [exec_vstat, execVstat, withSlot_of s env c h]
    exact (start.setCtx _).done

/-! ### Select, conversion, block quantization, scan and reduction (R215-R221) -/

theorem lanes_eq (x : Line) (ty : Nat) (h : ty ≤ 10) : lanes x (laneBits ty) = (List.range (typeLanes ty)).map (lane x (laneBits ty)) := by
  have hn : 512 / laneBits ty = typeLanes ty := by interval_cases ty <;> rfl
  unfold lanes
  rw [hn]

theorem typeLanes_pos (ty : Nat) (h : ty ≤ 10) : 0 < typeLanes ty := by
  interval_cases ty <;> decide

/-- Lane j of a conversion is reached by part h of the source (R217). -/
def cvtReached (ls ld h j : Nat) : Bool := decide (ls < ld → h * ls ≤ j ∧ j < h * ls + ls)

/-- The source lane of a lane that is reached. -/
def cvtPart (ls ld h j : Nat) : Nat := if ls < ld then j - h * ls else if ld < ls then h * ld + j else j

theorem cvt_source (ls ld h j : Nat) : (if ls = ld then some j else if ls < ld then (if h * ls ≤ j ∧ j < h * ls + ls then some (j - h * ls) else none)
    else some (h * ld + j)) = if cvtReached ls ld h j then some (cvtPart ls ld h j) else none := by
  unfold cvtReached cvtPart
  rcases lt_trichotomy ls ld with hlt | heq | hgt
  · by_cases hr : h * ls ≤ j ∧ j < h * ls + ls <;> simp [hlt, hr, hlt.ne]
  · simp [heq]
  · simp [hgt, hgt.ne', hgt.not_gt]

/-- A conversion, by the lanes that are reached. -/
theorem execVcvt_eq (p : Pipe) (w : VWord) (s : State) :
    let src := w.vc.toNat % 16
    let n := typeLanes w.t
    let b := typeBytes w.t
    let reached := cvtReached (typeLanes src) n (w.vc.toNat / 16 % 4)
    let got (x : VIn) (j : Nat) : Nat × Flags :=
      convert src w.t (lane x.a (laneBits src) (cvtPart (typeLanes src) n (w.vc.toNat / 16 % 4) j)) w.mode w.saturates
    execVcvt p w s = issueVec s p w { vb := false } 4 fun _ x =>
      { writes := [(.vreg w.vd.toNat (maskOf b (fun j => laneTrue x.p b j && reached j))
          (ofLanes w.bits ((List.range n).map (fun j => if reached j then (got x j).1 else 0))), x.psn)]
        flags := orFlags ((List.range n).map (fun j => if laneTrue x.p b j && reached j then (got x j).2 else 0)) } := by
  dsimp only
  unfold execVcvt
  simp only [cvt_source]
  refine congrArg (issueVec s p w { vb := false } 4) (funext fun _ => funext fun x => ?_)
  rw [List.map_map, List.map_map]
  congr 1
  · congr 3
    · refine congrArg (maskOf _) (funext fun j => ?_)
      cases cvtReached (typeLanes (w.vc.toNat % 16)) (typeLanes w.t) (w.vc.toNat / 16 % 4) j <;> rfl
    · refine congrArg (ofLanes _) (List.map_congr_left fun j _ => ?_)
      dsimp only [Function.comp]
      cases cvtReached (typeLanes (w.vc.toNat % 16)) (typeLanes w.t) (w.vc.toNat / 16 % 4) j <;> rfl
  · refine congrArg orFlags (List.map_congr_left fun j _ => ?_)
    cases hr : cvtReached (typeLanes (w.vc.toNat % 16)) (typeLanes w.t) (w.vc.toNat / 16 % 4) j <;> simp [hr]

/-- The running combination as a fold of each beginning. -/
theorem scanPrefix_eq (comb : Nat → Nat → Nat × Flags) (pre : Nat) (fl : Flags) (l : List Nat) :
    (pre, fl) :: scanPrefix comb pre l = (List.range (l.length + 1)).map (fun j => (l.take j).foldl (fun acc y => comb acc.1 y) (pre, fl)) := by
  induction l generalizing pre fl with
  | nil => rfl
  | cons y l ih =>
    rw [List.length_cons, List.range_succ_eq_map, List.map_cons, List.map_map, scanPrefix]
    congr 1
    exact ih (comb pre y).1 (comb pre y).2

/-- Each beginning of a scan, by the number of its steps (R220). -/
def scanPre (comb : Nat → Nat → Nat × Flags) (f : Nat → Nat) (j : Nat) : Nat × Flags :=
  (List.range j).foldl (fun acc k => comb acc.1 (f (k + 1))) (f 0, 0)

theorem scanLanes_eq (comb : Nat → Nat → Nat × Flags) (carry n : Nat) (f : Nat → Nat) (true_ : Nat → Bool) (hn : 0 < n) :
    scanLanes comb carry ((List.range n).map f) true_ =
      ((List.range n).map (fun j => (comb carry (scanPre comb f j).1).1),
       orFlags ((List.range n).map (fun j => (if (List.range n).any (fun k => decide (j ≤ k) && true_ k) then (scanPre comb f j).2 else 0) |||
         (if true_ j then (comb carry (scanPre comb f j).1).2 else 0)))) := by
  obtain ⟨m, rfl⟩ : ∃ m, n = m + 1 := ⟨n - 1, by omega⟩
  have hpre : (f 0, (0 : Flags)) :: scanPrefix comb (f 0) ((List.range m).map (fun k => f (k + 1))) =
      (List.range (m + 1)).map (scanPre comb f) := by
    rw [scanPrefix_eq, List.length_map, List.length_range]
    refine List.map_congr_left fun j hj => ?_
    have hj' : j ≤ m := by rw [List.mem_range] at hj; omega
    rw [← List.map_take, List.foldl_map, List.take_range, Nat.min_eq_left hj']
    rfl
  have hzip : (((List.range (m + 1)).map (scanPre comb f)).zip (List.range (m + 1))) =
      (List.range (m + 1)).map (fun j => (scanPre comb f j, j)) :=
    List.ext_getElem (by simp) fun _ _ _ => by simp
  have hlist : (List.range (m + 1)).map f = f 0 :: (List.range m).map (fun k => f (k + 1)) := by
    rw [List.range_succ_eq_map, List.map_cons, List.map_map]
    rfl
  rw [hlist]
  unfold scanLanes
  dsimp only
  rw [hpre, List.length_map, List.length_range, hzip, List.map_map, List.map_map, List.map_map, List.map_map]
  rfl

/-- Settles O45: each operation by its bytes, its data and its flags. -/
theorem vectorShapedResults : Obligations.VectorShapedResults := by
  intro s env c p w h hty ty b bits n governs r comb
  have hone {i : Instr} {u : VUse} {lat : Nat} {flags : VIn → Flags} {f : VIn → BitVec 64 → Line → Prop} (mask : VIn → BitVec 64)
      (data : VIn → Line) (fl : VIn → Flags)
      (he : exec i s = issueVec s p w u lat fun _ x => { writes := [(.vreg w.vd.toNat (mask x) (data x), x.psn)], flags := fl x })
      (hfl : ∀ x, fl x = flags x) (hf : ∀ x, f x (mask x) (data x)) : r i u lat flags f := by
    refine ⟨mask (readVec c env.cc p u w), data (readVec c env.cc p u w), hf _, ?_⟩
    rw [he, ← hfl]
    exact issueVec_one h p w u lat (fun _ x => (.vreg w.vd.toNat (mask x) (data x), x.psn)) (fun _ x => fl x)
  clear_value r
  refine ⟨hone _ _ _ (exec_vsel ..) (fun _ => rfl) fun x => ⟨rfl, fun j hj => ?_⟩, ?_, ?_, ?_, ?_⟩
  · refine (lane_ofLanes_map ty hty _ j hj).trans (Nat.mod_eq_of_lt ?_)
    split <;> exact lane_lt ..
  · intro src h' part reached got
    exact hone _ _ _ ((exec_vcvt ..).trans (execVcvt_eq ..)) (fun _ => rfl) fun x => ⟨fun k hk => maskOf_get _ (typeBytes_dvd _) _ _ hk,
      fun j hj hr => (lane_ofLanes_map ty hty _ j hj).trans (congrArg (· % 2 ^ bits) (if_pos hr))⟩
  · intro code j z got
    exact hone _ _ _ (exec_vqnt ..) (fun _ => rfl) fun x => ⟨rfl, rfl⟩
  · intro prefixes carried
    have hscan (x : VIn) : scanLanes comb (lane x.b bits (n - 1)) (lanes x.a bits) (laneTrue x.p b) =
        ((List.range n).map (fun j => (carried x j).1), orFlags ((List.range n).map (fun j =>
          (if (List.range n).any (fun k => decide (j ≤ k) && laneTrue x.p b k) then (prefixes x j).2 else 0) |||
            (if laneTrue x.p b j then (carried x j).2 else 0)))) := by
      rw [lanes_eq x.a ty hty]
      exact scanLanes_eq comb _ n (lane x.a bits) _ (typeLanes_pos ty hty)
    refine hone _ _ _ (exec_vscan ..) (fun x => congrArg Prod.snd (hscan x)) fun x => ⟨fun k hk => laneTrue_maskOf ty x.p k hk, fun j hj => ?_⟩
    change lane (ofLanes bits (scanLanes comb (lane x.b bits (n - 1)) (lanes x.a bits) (laneTrue x.p b)).1) bits j = _
    rw [hscan x]
    exact lane_ofLanes_map ty hty _ j hj
  · intro got
    have hred (x : VIn) : redLanes comb (canonLane ty) (redIdentity ty w.vc.toNat)
        (((List.range n).filter (laneTrue x.p b)).map (lane x.a bits)) = got x := by
      change _ = match ((List.range n).filter (laneTrue x.p b)).map (lane x.a bits) with | [] => _ | y :: rest => _
      cases ((List.range n).filter (laneTrue x.p b)).map (lane x.a bits) <;> rfl
    have hbits : bits ≤ 512 := by
      change laneBits ty ≤ 512
      unfold laneBits
      split_ifs <;> omega
    refine hone _ _ _ (exec_vred ..) (fun x => congrArg Prod.snd (hred x)) fun x => ⟨rfl, ?_⟩
    have hmod := Nat.mod_lt (got x).1 (Nat.two_pow_pos bits)
    rw [BitVec.toNat_ofNat, ← hred x]
    exact Nat.mod_eq_of_lt (lt_of_lt_of_le (hred x ▸ hmod) (Nat.pow_le_pow_right two_pos hbits))

/-! ### Widening (R213) -/

/-- The type's sizes, as the widening operations use them. -/
theorem wide_sizes (ty : Nat) (h : ty ≤ 10) : 2 * typeBytes ty ∣ 64 ∧ 2 * laneBits ty = 16 * typeBytes ty ∧
    typeLanes ty / 2 + typeLanes ty / 2 = typeLanes ty ∧ 16 * typeBytes ty * (typeLanes ty / 2) ≤ 512 := by
  interval_cases ty <;> decide

/-- The bytes of one register of the pair. -/
def widenMask (ty : Nat) (q : Word) (part : Nat) : BitVec 64 :=
  maskOf (2 * typeBytes ty) (fun j => laneTrue q (typeBytes ty) (part * (typeLanes ty / 2) + j))

/-- The data of one register of the pair. -/
def widenData (ty : Nat) (q : Word) (g : Nat → Nat × Flags) (part : Nat) : Line :=
  ofLanes (16 * typeBytes ty) (((((List.range (typeLanes ty)).map (fun j => (laneTrue q (typeBytes ty) j, g j))).drop
    (part * (typeLanes ty / 2))).take (typeLanes ty / 2)).map (fun x => x.2.1))

theorem widenData_lane (ty : Nat) (h : ty ≤ 10) (q : Word) (g : Nat → Nat × Flags) (part : Nat) (hp : part < 2) (j : Nat)
    (hj : j < typeLanes ty / 2) : lane (widenData ty q g part) (2 * laneBits ty) j =
      (g (part * (typeLanes ty / 2) + j)).1 % 2 ^ (2 * laneBits ty) := by
  obtain ⟨_, hbits, hhalf, hfits⟩ := wide_sizes ty h
  have hin : part * (typeLanes ty / 2) + j < typeLanes ty := by
    have : part * (typeLanes ty / 2) ≤ 1 * (typeLanes ty / 2) := Nat.mul_le_mul_right _ (by omega)
    omega
  rw [hbits, widenData, lane_ofLanes _ _ _ (le_trans (Nat.mul_le_mul_left _ (by simp)) hfits)]
  congr 1
  simp [List.getD, hj, hin]

/-- What a widening operation answers. -/
theorem widen_writes {s : State} {env : SlotEnv} {c : Context} (h : s.Issues env c) (p : Pipe) (w : VWord) (u : VUse) (lat : Nat)
    (f : VIn → Nat → Nat × Flags) :
    let x := readVec c env.cc p u w
    let flags := orFlags ((List.range (typeLanes w.t)).map (fun j => if laneTrue x.p (typeBytes w.t) j then (f x j).2 else 0))
    SlotDoes s env (issueVec s p w u lat fun _ i => widen w i (f i))
      ((Context.addWrite { c with be := x.be }
        { due := env.cc + lat, idx := env.idx, ord := ordV p
          target := .vreg w.vd.toNat (widenMask w.t x.p 0) (widenData w.t x.p (f x) 0), poison := x.psn }).addWrite
        { due := env.cc + lat, idx := env.idx, ord := ordV p
          target := .vreg (w.vd.toNat + 1) (widenMask w.t x.p 1) (widenData w.t x.p (f x) 1), poison := x.psn })
      (env.does (if flags = 0 then [] else [.flags (flags.setWidth 64)])) := by
  dsimp only
  have hflags : (((List.range (typeLanes w.t)).map (fun j => (laneTrue (readVec c env.cc p u w).p (typeBytes w.t) j,
      f (readVec c env.cc p u w) j))).map (fun x => if x.1 then x.2.2 else 0)) = (List.range (typeLanes w.t)).map (fun j =>
        if laneTrue (readVec c env.cc p u w).p (typeBytes w.t) j then (f (readVec c env.cc p u w) j).2 else 0) := List.map_map ..
  rw [issueVec, withSlot_of s env c h, ← hflags]
  exact (((SlotAt.start h).setCtx _).addActs _).done

theorem wideResult_ite (w : VWord) (a : FVal × Bool) (v : Int) : wideResult w (if w.float then .inl a else .inr v) =
    if isFloat w.t then fmtF32.finish a w.mode w.saturates else intResult (isSigned w.t) (2 * w.bits) w.saturates v := by
  unfold VWord.float
  cases isFloat w.t <;> rfl

/-- Settles O46: the two registers of the pair, lane by lane. -/
theorem vectorWideningResults : Obligations.VectorWideningResults := by
  intro s env c p w h h1 h8 ty b bits half fl int f rm sat r
  have hty : w.ty.toNat ≤ 10 := by omega
  obtain ⟨hdvd, _, _, _⟩ := wide_sizes _ hty
  have hr {i : Instr} {u : VUse} {g : VIn → Nat → Nat × Flags}
      (he : exec i s = issueVec s p w u w.latency fun _ x => widen w x (g x)) : r i u g := by
    have hgood (part : Nat) (hp : part < 2) := widenData_lane ty hty (readVec c env.cc p u w).p (g (readVec c env.cc p u w)) part hp
    refine ⟨widenMask ty (readVec c env.cc p u w).p 0, _, widenMask ty (readVec c env.cc p u w).p 1, _,
      ⟨fun k hk => maskOf_get _ hdvd _ _ hk, hgood 0 (by omega)⟩, ⟨fun k hk => maskOf_get _ hdvd _ _ hk, hgood 1 (by omega)⟩, ?_⟩
    rw [he]
    exact widen_writes h p w u w.latency g
  clear_value r
  refine ⟨hr ?_, hr ?_, hr ?_⟩
  · rw [exec_vwadd, execVwadd]
    simp only [wideResult_ite]
    rfl
  · rw [exec_vwmul, execVwmul]
    simp only [wideResult_ite]
    rfl
  · rw [exec_vwacc, execVwacc]
    simp only [wideResult_ite]
    rfl

end Sys2Proof.Machine
end

section
/-! PROOFS. Rounding: a bit pattern's value, an exact value rounded once into a format, quotients, reciprocal square roots, and exact sums
and products (R171-R173, R178-R180, R210, R211). -/

namespace Sys2Proof.Machine

/-! ### Powers of two of the reals -/

theorem two_zpow_pos (e : Int) : (0 : ℝ) < (2 : ℝ) ^ e := by positivity

theorem two_zpow_add_nat (e : Int) (k : Nat) : (2 : ℝ) ^ (e + k) = (2 : ℝ) ^ e * 2 ^ k := by
  rw [zpow_add₀ two_ne_zero, zpow_natCast]

theorem two_zpow_le {e g : Int} (h : e ≤ g) : (2 : ℝ) ^ e ≤ (2 : ℝ) ^ g := zpow_le_zpow_right₀ one_le_two h

/-- A multiple of a power of two at a lower exponent. -/
theorem mul_two_zpow_lower {e q : Int} (h : q ≤ e) (m : Nat) : (m : ℝ) * (2 : ℝ) ^ e = ((m * 2 ^ (e - q).toNat : Nat) : ℝ) * (2 : ℝ) ^ q := by
  have he : e = q + ((e - q).toNat : Int) := by omega
  conv_lhs => rw [he, two_zpow_add_nat]
  push_cast
  ring

/-! ### The grid of a format and its neighbours (R178) -/

/-- The grid around a value x: D multiples of 2^q below it, where q is the exponent of x's last place. -/
structure Bracket (t : Nat) (lo : Option Int) (x : ℝ) (D : Nat) (q : Int) : Prop where
  lower : (D : ℝ) * (2 : ℝ) ^ q ≤ x
  upper : x < ((D : ℝ) + 1) * (2 : ℝ) ^ q
  lt : D < 2 ^ (t + 1)
  above : ∀ l ∈ lo, l ≤ q
  full : 2 ^ t ≤ D ∨ lo = some q

section
variable {t : Nat} {lo : Option Int} {x : ℝ} {D : Nat} {q : Int}

/-- No magnitude of the grid lies between two neighbours. -/
theorem Bracket.neighbours (h : Bracket t lo x D q) {z : ℝ} (hz : OnGrid t lo z) :
    z ≤ (D : ℝ) * (2 : ℝ) ^ q ∨ ((D : ℝ) + 1) * (2 : ℝ) ^ q ≤ z := by
  obtain ⟨m, p, hm, hp, rfl⟩ := hz
  have hq := two_zpow_pos q
  rcases le_or_gt q p with hqp | hpq
  · rw [mul_two_zpow_lower hqp]
    rcases Nat.lt_or_ge D (m * 2 ^ (p - q).toNat) with hlt | hge
    · right
      exact mul_le_mul_of_nonneg_right (by exact_mod_cast hlt) hq.le
    · left
      exact mul_le_mul_of_nonneg_right (by exact_mod_cast hge) hq.le
  · left
    have hD : 2 ^ t ≤ D := h.full.resolve_right fun hlo => absurd (hp q (by rw [hlo]; rfl)) (by omega)
    have h1 : (m : ℝ) * (2 : ℝ) ^ p ≤ 2 ^ (t + 1) * (2 : ℝ) ^ p :=
      mul_le_mul_of_nonneg_right (by exact_mod_cast hm.le) (two_zpow_pos p).le
    have h2 : (2 : ℝ) ^ (t + 1) * (2 : ℝ) ^ p = 2 ^ t * (2 : ℝ) ^ (p + 1) := by
      rw [zpow_add₀ two_ne_zero, zpow_one]
      ring
    have h3 : (2 : ℝ) ^ t * (2 : ℝ) ^ (p + 1) ≤ 2 ^ t * (2 : ℝ) ^ q := mul_le_mul_of_nonneg_left (two_zpow_le (by omega)) (by positivity)
    have h4 : (2 : ℝ) ^ t * (2 : ℝ) ^ q ≤ D * (2 : ℝ) ^ q := mul_le_mul_of_nonneg_right (by exact_mod_cast hD) hq.le
    linarith

theorem Bracket.onGrid (h : Bracket t lo x D q) (up : Bool) : OnGrid t lo (((if up then D + 1 else D : Nat) : ℝ) * (2 : ℝ) ^ q) := by
  have hlt := h.lt
  rcases Nat.lt_or_ge (if up then D + 1 else D) (2 ^ (t + 1)) with hd | hd
  · exact ⟨_, q, hd, h.above, rfl⟩
  · have hd' : (if up then D + 1 else D) = 2 ^ t * 2 := by
      rw [← Nat.pow_succ]
      cases up <;> simp only [if_true, Bool.false_eq_true, if_false] at hd ⊢ <;> omega
    refine ⟨2 ^ t, q + 1, Nat.pow_lt_pow_right (by omega) (by omega), fun l hl => (h.above l hl).trans (by omega), ?_⟩
    rw [hd', zpow_add₀ two_ne_zero, zpow_one]
    push_cast
    ring

/-- An even neighbour is an even magnitude of the grid. -/
theorem Bracket.evenOnGrid (h : Bracket t lo x D q) (ht : 1 ≤ t) (up : Bool) (he : (if up then D + 1 else D) % 2 = 0) :
    EvenOnGrid t lo (((if up then D + 1 else D : Nat) : ℝ) * (2 : ℝ) ^ q) := by
  have hlt := h.lt
  rcases Nat.lt_or_ge (if up then D + 1 else D) (2 ^ (t + 1)) with hd | hd
  · exact ⟨_, q, hd, h.above, he, h.full.imp_left fun hf => hf.trans (by split <;> omega), rfl⟩
  · have hd' : (if up then D + 1 else D) = 2 ^ t * 2 := by
      rw [← Nat.pow_succ]
      cases up <;> simp only [if_true, Bool.false_eq_true, if_false] at hd ⊢ <;> omega
    obtain ⟨k, rfl⟩ : ∃ k, t = k + 1 := ⟨t - 1, by omega⟩
    refine ⟨2 ^ (k + 1), q + 1, Nat.pow_lt_pow_right (by omega) (by omega), fun l hl => (h.above l hl).trans (by omega),
      by rw [Nat.pow_succ, Nat.mul_mod_left], .inl le_rfl, ?_⟩
    rw [hd', zpow_add₀ two_ne_zero, zpow_one]
    push_cast
    ring

/-- The direction of a rounding, of the neighbours around a value (R178). -/
structure Directed (neg : Bool) (rm : Nat) (x : ℝ) (D : Nat) (q : Int) (up : Bool) : Prop where
  nearest : rm = 0 → ((up = true → ((D : ℝ) + 1 / 2) * (2 : ℝ) ^ q ≤ x) ∧ (up = false → x ≤ ((D : ℝ) + 1 / 2) * (2 : ℝ) ^ q)) ∧
    (x = ((D : ℝ) + 1 / 2) * (2 : ℝ) ^ q → (if up then D + 1 else D) % 2 = 0)
  inward : rm = 1 ∨ rm = 2 ∧ neg = false ∨ rm = 3 ∧ neg = true → up = false
  outward : rm = 2 ∧ neg = true ∨ rm = 3 ∧ neg = false → (up = true ↔ x ≠ (D : ℝ) * (2 : ℝ) ^ q)

/-- The nearer neighbour is at least as near as what lies on either side of the two, and as near only at the middle. -/
theorem near_of_side {up : Bool} {z : ℝ} (h1 : up = true → ((D : ℝ) + 1 / 2) * (2 : ℝ) ^ q ≤ x)
    (h0 : up = false → x ≤ ((D : ℝ) + 1 / 2) * (2 : ℝ) ^ q) (hlow : (D : ℝ) * (2 : ℝ) ^ q ≤ x) (hup : x < ((D : ℝ) + 1) * (2 : ℝ) ^ q)
    (hside : z ≤ (D : ℝ) * (2 : ℝ) ^ q ∨ ((D : ℝ) + 1) * (2 : ℝ) ^ q ≤ z) :
    let y := ((if up then D + 1 else D : Nat) : ℝ) * (2 : ℝ) ^ q
    |x - y| ≤ |x - z| ∧ (z ≠ y → |x - z| = |x - y| → x = ((D : ℝ) + 1 / 2) * (2 : ℝ) ^ q) := by
  have hq := two_zpow_pos q
  rw [add_mul, one_mul] at hup hside
  rw [add_mul] at h0 h1 ⊢
  cases up with
  | true =>
    have hx := h1 rfl
    simp only [if_true, Nat.cast_add, Nat.cast_one, add_mul, one_mul]
    rw [abs_of_nonpos (a := x - _) (by linarith)]
    rcases hside with hz | hz
    · rw [abs_of_nonneg (a := x - z) (by linarith)]
      exact ⟨by linarith, fun _ he => by linarith⟩
    · rw [abs_of_nonpos (a := x - z) (by linarith)]
      exact ⟨by linarith, fun hne he => absurd (by linarith) hne⟩
  | false =>
    have hx := h0 rfl
    simp only [Bool.false_eq_true, if_false]
    rw [abs_of_nonneg (a := x - _) (by linarith)]
    rcases hside with hz | hz
    · rw [abs_of_nonneg (a := x - z) (by linarith)]
      exact ⟨by linarith, fun hne he => absurd (by linarith) hne⟩
    · rw [abs_of_nonpos (a := x - z) (by linarith)]
      exact ⟨by linarith, fun _ he => by linarith⟩

/-- A neighbour in the direction of the mode is the rounding. -/
theorem Bracket.roundsTo (h : Bracket t lo x D q) (ht : 1 ≤ t) {neg : Bool} {rm : Nat} {up : Bool} (hd : Directed neg rm x D q up) :
    RoundsTo t lo neg rm x (((if up then D + 1 else D : Nat) : ℝ) * (2 : ℝ) ^ q) := by
  have hq := two_zpow_pos q
  have hlow := h.lower
  have hup := h.upper
  refine ⟨h.onGrid up, fun hrm z hz => ?_, fun hrm => ?_, fun hrm => ?_⟩
  · obtain ⟨⟨h1, h0⟩, htie⟩ := hd.nearest hrm
    have hnear := near_of_side (h1 := h1) (h0 := h0) hlow hup (h.neighbours hz)
    refine ⟨hnear.1, fun hne heq => h.evenOnGrid ht up (htie (hnear.2 hne heq))⟩
  · rw [hd.inward hrm]
    refine ⟨hlow, fun z hz hzx => ?_⟩
    rcases h.neighbours hz with hz | hz
    · exact hz
    · linarith
  · have hiff := hd.outward hrm
    by_cases hx : x = (D : ℝ) * (2 : ℝ) ^ q
    · have hf : up = false := by simpa using mt hiff.mp (not_not.mpr hx)
      rw [hf]
      exact ⟨hx.le, fun z _ hz => hx ▸ hz⟩
    · rw [hiff.mpr hx]
      refine ⟨by push_cast; exact hup.le, fun z hz hxz => ?_⟩
      rcases h.neighbours hz with hz | hz
      · exact absurd (le_antisymm (hxz.trans hz) hlow) hx
      · push_cast
        exact hz

end

/-! ### Rounding at an exponent (R178) -/

/-- The number M × 2^e stands for the value x: it is x, or it is the odd number between two even ones around x and has digits to spare. -/
def StandsFor (t : Nat) (x : ℝ) (M : Nat) (e : Int) : Prop :=
  x = (M : ℝ) * (2 : ℝ) ^ e ∨
    (M % 2 = 1 ∧ 2 ^ (t + 2) ≤ M ∧ ((M : ℝ) - 1) * (2 : ℝ) ^ e < x ∧ x < ((M : ℝ) + 1) * (2 : ℝ) ^ e)

theorem natLength_pos {M : Nat} (h : M ≠ 0) : 0 < natLength M := by
  rw [natLength_eq_size]
  exact Nat.size_pos.mpr (Nat.pos_of_ne_zero h)

theorem lt_two_pow_natLength (M : Nat) : M < 2 ^ natLength M := by
  rw [natLength_eq_size]
  exact Nat.lt_size_self M

theorem two_pow_natLength_le {M : Nat} (h : M ≠ 0) : 2 ^ (natLength M - 1) ≤ M := by
  have := natLength_pos h
  rw [natLength_eq_size] at *
  exact Nat.lt_size.mp (by omega)

theorem le_natLength {k M : Nat} (h : 2 ^ k ≤ M) : k + 1 ≤ natLength M := by
  rw [natLength_eq_size]
  exact Nat.lt_size.mpr h

/-- Where the remainder of M stands, x stands: at the lower neighbour, below, at or above the middle. -/
structure Remainder (x : ℝ) (D r half : Nat) (q : Int) : Prop where
  zero : r = 0 → x = (D : ℝ) * (2 : ℝ) ^ q
  pos : r ≠ 0 → (D : ℝ) * (2 : ℝ) ^ q < x
  below : r < half → x < ((D : ℝ) + 1 / 2) * (2 : ℝ) ^ q
  mid : r = half → x = ((D : ℝ) + 1 / 2) * (2 : ℝ) ^ q
  above : half < r → ((D : ℝ) + 1 / 2) * (2 : ℝ) ^ q < x
  upper : x < ((D : ℝ) + 1) * (2 : ℝ) ^ q

theorem StandsFor.remainder {t : Nat} {x : ℝ} {M : Nat} {e : Int} (h : StandsFor t x M e) (k : Nat) (hk : 1 ≤ k)
    (hk2 : 2 ^ (t + 2) ≤ M → 2 ≤ k) : Remainder x (M / 2 ^ k) (M % 2 ^ k) (2 ^ (k - 1)) (e + k) := by
  obtain ⟨j, rfl⟩ : ∃ j, k = j + 1 := ⟨k - 1, by omega⟩
  have hS := two_zpow_pos e
  have hM := Nat.div_add_mod M (2 ^ (j + 1))
  have hr := Nat.mod_lt M (Nat.two_pow_pos (j + 1))
  generalize M / 2 ^ (j + 1) = D at *
  generalize M % 2 ^ (j + 1) = r at *
  rw [Nat.add_sub_cancel]
  have hunit : (2 : ℝ) ^ (e + ((j + 1 : Nat) : Int)) = 2 ^ (j + 1) * (2 : ℝ) ^ e := by rw [two_zpow_add_nat, mul_comm]
  have hlow : (D : ℝ) * (2 : ℝ) ^ (e + ((j + 1 : Nat) : Int)) = ((M : ℝ) - r) * (2 : ℝ) ^ e := by
    rw [hunit, ← hM]
    push_cast
    ring
  have hmid : ((D : ℝ) + 1 / 2) * (2 : ℝ) ^ (e + ((j + 1 : Nat) : Int)) = ((M : ℝ) - r + 2 ^ j) * (2 : ℝ) ^ e := by
    rw [add_mul, hlow, hunit]
    ring
  have hup : ((D : ℝ) + 1) * (2 : ℝ) ^ (e + ((j + 1 : Nat) : Int)) = ((M : ℝ) - r + 2 ^ (j + 1)) * (2 : ℝ) ^ e := by
    rw [add_mul, hlow, hunit]
    ring
  have hlt {a b : ℝ} (hab : a < b) : a * (2 : ℝ) ^ e < b * (2 : ℝ) ^ e := mul_lt_mul_of_pos_right hab hS
  have hle {a b : ℝ} (hab : a ≤ b) : a * (2 : ℝ) ^ e ≤ b * (2 : ℝ) ^ e := mul_le_mul_of_nonneg_right hab hS.le
  rcases h with hx | ⟨hodd, hbig, hgt, hlt'⟩
  · rw [hx]
    refine ⟨fun h0 => ?_, fun h0 => ?_, fun h0 => ?_, fun h0 => ?_, fun h0 => ?_, ?_⟩
    · rw [hlow, h0, Nat.cast_zero, sub_zero]
    · rw [hlow]
      have : (0 : ℝ) < r := by exact_mod_cast Nat.pos_of_ne_zero h0
      exact hlt (by linarith)
    · rw [hmid]
      have : (r : ℝ) < 2 ^ j := by exact_mod_cast h0
      exact hlt (by linarith)
    · rw [hmid, h0]
      push_cast
      ring
    · rw [hmid]
      have : (2 : ℝ) ^ j < r := by exact_mod_cast h0
      exact hlt (by linarith)
    · rw [hup]
      have : (r : ℝ) < 2 ^ (j + 1) := by exact_mod_cast hr
      exact hlt (by linarith)
  · obtain ⟨i, rfl⟩ : ∃ i, j = i + 1 := ⟨j - 1, by have := hk2 hbig; omega⟩
    have hrodd : r % 2 = 1 := by
      have : 2 ^ (i + 1 + 1) * D = 2 * (2 ^ (i + 1) * D) := by rw [Nat.pow_succ 2 (i + 1)]; ring
      omega
    have heven : 2 ^ (i + 1) % 2 = 0 := by rw [Nat.pow_succ, Nat.mul_mod_left]
    have heven2 : 2 ^ (i + 1 + 1) % 2 = 0 := by rw [Nat.pow_succ, Nat.mul_mod_left]
    refine ⟨fun h0 => by omega, fun h0 => ?_, fun h0 => ?_, fun h0 => by omega, fun h0 => ?_, ?_⟩
    · rw [hlow]
      have : (1 : ℝ) ≤ r := by exact_mod_cast Nat.pos_of_ne_zero h0
      exact (hle (by linarith)).trans_lt hgt
    · rw [hmid]
      have : (r : ℝ) + 1 ≤ 2 ^ (i + 1) := by exact_mod_cast h0
      exact hlt'.trans_le (hle (by linarith))
    · rw [hmid]
      have : (2 : ℝ) ^ (i + 1) + 1 ≤ r := by exact_mod_cast h0
      exact (hle (by linarith)).trans_lt hgt
    · rw [hup]
      have : (r : ℝ) + 1 ≤ 2 ^ (i + 1 + 1) := by exact_mod_cast hr
      exact hlt'.trans_le (hle (by linarith))

/-- The direction in which a remainder rounds (R178). -/
def roundsUp (neg : Bool) (rm D r half : Nat) : Bool :=
  match rm with
  | 0 => decide (half < r) || (decide (r = half) && decide (D % 2 = 1))
  | 1 => false
  | 2 => neg && decide (r ≠ 0)
  | _ => !neg && decide (r ≠ 0)

theorem Remainder.directed {x : ℝ} {D r half : Nat} {q : Int} (h : Remainder x D r half q) (neg : Bool) (rm : Nat) :
    Directed neg rm x D q (roundsUp neg rm D r half) := by
  have hne : r ≠ 0 ↔ x ≠ (D : ℝ) * (2 : ℝ) ^ q := ⟨fun h0 => (h.pos h0).ne', fun hx h0 => hx (h.zero h0)⟩
  refine ⟨fun hrm => ?_, fun hrm => ?_, fun hrm => ?_⟩
  · subst hrm
    have hup : roundsUp neg 0 D r half = true ↔ half < r ∨ r = half ∧ D % 2 = 1 := by simp [roundsUp]
    refine ⟨⟨fun hu => ?_, fun hu => ?_⟩, fun hx => ?_⟩
    · rcases hup.mp hu with hr | ⟨hr, _⟩
      · exact (h.above hr).le
      · exact (h.mid hr).ge
    · have hn : ¬ (half < r ∨ r = half ∧ D % 2 = 1) := by rw [← hup, hu]; exact Bool.false_ne_true
      rcases lt_trichotomy r half with hr | hr | hr
      · exact (h.below hr).le
      · exact (h.mid hr).le
      · exact absurd (.inl hr) hn
    · have hr : r = half := by
        rcases lt_trichotomy r half with hr | hr | hr
        · exact absurd hx (h.below hr).ne
        · exact hr
        · exact absurd hx (h.above hr).ne'
      by_cases hD : D % 2 = 1
      · rw [if_pos (hup.mpr (.inr ⟨hr, hD⟩))]
        omega
      · rw [if_neg (fun hu => by rcases hup.mp hu with h' | ⟨_, h'⟩ <;> omega)]
        omega
  · rcases hrm with rfl | ⟨rfl, rfl⟩ | ⟨rfl, rfl⟩ <;> rfl
  · rcases hrm with ⟨rfl, rfl⟩ | ⟨rfl, rfl⟩ <;> simpa [roundsUp] using hne

theorem roundsUp_zero (neg : Bool) (rm D half : Nat) (h : 0 < half) : roundsUp neg rm D 0 half = false := by
  unfold roundsUp
  split <;> simp [h.ne]

theorem roundAt_above {M : Nat} {e q : Int} (h : ¬ q ≤ e) (neg : Bool) (rm : Nat) : roundAt M e q neg rm =
    (if roundsUp neg rm (M / 2 ^ (q - e).toNat) (M % 2 ^ (q - e).toNat) (2 ^ ((q - e).toNat - 1)) then M / 2 ^ (q - e).toNat + 1
      else M / 2 ^ (q - e).toNat, decide (M % 2 ^ (q - e).toNat ≠ 0)) := by
  unfold roundAt
  rw [if_neg h]
  rfl

/-- What rounding at an exponent gives: a neighbour of x in the direction of the mode, exact where x is the lower one. -/
structure RoundedAt (t : Nat) (x : ℝ) (lead q : Int) (neg : Bool) (rm : Nat) (r : Nat × Bool) (D : Nat) (up : Bool) : Prop where
  result : r.1 = if up then D + 1 else D
  lower : (D : ℝ) * (2 : ℝ) ^ q ≤ x
  upper : x < ((D : ℝ) + 1) * (2 : ℝ) ^ q
  lt : D < 2 ^ (t + 1)
  full : q = lead - t → 2 ^ t ≤ D
  directed : Directed neg rm x D q up
  exact : r.2 = false ↔ x = (r.1 : ℝ) * (2 : ℝ) ^ q

theorem roundAt_spec {t : Nat} {x : ℝ} {M : Nat} {e q : Int} (hM : M ≠ 0) (h : StandsFor t x M e)
    (hq : (natLength M : Int) - 1 + e - t ≤ q) (neg : Bool) (rm : Nat) :
    ∃ D up, RoundedAt t x ((natLength M : Int) - 1 + e) q neg rm (roundAt M e q neg rm) D up := by
  have hlen := natLength_pos hM
  have hlow := two_pow_natLength_le hM
  have hhigh := lt_two_pow_natLength M
  have hS := two_zpow_pos q
  by_cases hqe : q ≤ e
  · have hx : x = ((M * 2 ^ (e - q).toNat : Nat) : ℝ) * (2 : ℝ) ^ q := by
      rw [← mul_two_zpow_lower hqe]
      refine h.resolve_right fun ⟨_, hbig, _, _⟩ => ?_
      have := le_natLength hbig
      omega
    have hr : roundAt M e q neg rm = (M * 2 ^ (e - q).toNat, false) := if_pos hqe
    rw [hr]
    refine ⟨M * 2 ^ (e - q).toNat, false, rfl, hx.ge, ?_, ?_, fun hqt => ?_, ⟨fun _ => ⟨⟨fun hu => absurd hu Bool.false_ne_true, fun _ => ?_⟩, fun hmid => ?_⟩,
      fun _ => rfl, fun _ => ?_⟩, ?_⟩
    · rw [hx]
      exact mul_lt_mul_of_pos_right (by linarith) hS
    · calc M * 2 ^ (e - q).toNat < 2 ^ natLength M * 2 ^ (e - q).toNat := Nat.mul_lt_mul_of_pos_right hhigh (Nat.two_pow_pos _)
        _ = 2 ^ (natLength M + (e - q).toNat) := (Nat.pow_add ..).symm
        _ ≤ 2 ^ (t + 1) := Nat.pow_le_pow_right two_pos (by omega)
    · calc 2 ^ t = 2 ^ (natLength M - 1 + (e - q).toNat) := by congr 1; omega
        _ = 2 ^ (natLength M - 1) * 2 ^ (e - q).toNat := Nat.pow_add ..
        _ ≤ M * 2 ^ (e - q).toNat := Nat.mul_le_mul_right _ hlow
    · rw [hx, add_mul]
      linarith
    · rw [hx, add_mul] at hmid
      linarith
    · simp [hx]
    · simp [hx]
  · have hkq : e + ((q - e).toNat : Int) = q := by omega
    have hrem := h.remainder (q - e).toNat (by omega) (fun hbig => by have := le_natLength hbig; omega)
    rw [hkq] at hrem
    have hM' := Nat.div_add_mod M (2 ^ (q - e).toNat)
    have hmlt := Nat.mod_lt M (Nat.two_pow_pos (q - e).toNat)
    rw [roundAt_above hqe]
    generalize hk : (q - e).toNat = k at *
    have hhalf : 0 < 2 ^ (k - 1) := Nat.two_pow_pos _
    refine ⟨M / 2 ^ k, roundsUp neg rm (M / 2 ^ k) (M % 2 ^ k) (2 ^ (k - 1)), rfl, ?_, hrem.upper, ?_, fun hqt => ?_, hrem.directed neg rm, ?_⟩
    · by_cases h0 : M % 2 ^ k = 0
      · exact (hrem.zero h0).ge
      · exact (hrem.pos h0).le
    · rw [Nat.div_lt_iff_lt_mul (Nat.two_pow_pos _), ← Nat.pow_add]
      exact lt_of_lt_of_le hhigh (Nat.pow_le_pow_right two_pos (by omega))
    · rw [Nat.le_div_iff_mul_le (Nat.two_pow_pos _), ← Nat.pow_add]
      exact le_trans (Nat.pow_le_pow_right two_pos (by omega)) hlow
    · by_cases h0 : M % 2 ^ k = 0
      · rw [h0, roundsUp_zero _ _ _ _ hhalf]
        simpa using hrem.zero h0
      · have hne : x ≠ (((if roundsUp neg rm (M / 2 ^ k) (M % 2 ^ k) (2 ^ (k - 1)) then M / 2 ^ k + 1 else M / 2 ^ k) : Nat) : ℝ) *
            (2 : ℝ) ^ q := by
          split
          · push_cast
            exact hrem.upper.ne
          · exact (hrem.pos h0).ne'
        simpa [h0] using hne

/-! ### The largest finite value and the bits of a rounded one (R171, R179) -/

/-- The field widths leave room for a normal value and a fraction. -/
structure FpFmt.Sound (f : FpFmt) : Prop where
  ebits : 2 ≤ f.ebits
  tbits : 2 ≤ f.tbits

/-- The fraction field of the largest finite value. -/
def FpFmt.topFrac (f : FpFmt) : Nat := if f.noInf then 2 ^ f.tbits - 2 else 2 ^ f.tbits - 1

/-- The largest finite value. -/
noncomputable def FpFmt.top (f : FpFmt) : ℝ := ((f.topFrac + 2 ^ f.tbits : Nat) : ℝ) * (2 : ℝ) ^ ((f.emax : Int) - f.bias - f.tbits)

theorem FpFmt.maxBits_eq (f : FpFmt) : f.maxBits = f.signBit false + f.emax * 2 ^ f.tbits + f.topFrac := by
  unfold FpFmt.maxBits FpFmt.emax FpFmt.topFrac FpFmt.signBit
  cases f.noInf <;> simp

theorem FpFmt.Sound.emax_bounds {f : FpFmt} (hf : f.Sound) : 1 ≤ f.emax ∧ f.emax < 2 ^ f.ebits ∧
    f.topFrac < 2 ^ f.tbits ∧ f.FiniteFields f.emax f.topFrac := by
  have he : 2 ^ 2 ≤ 2 ^ f.ebits := Nat.pow_le_pow_right two_pos hf.ebits
  have ht : 2 ^ 2 ≤ 2 ^ f.tbits := Nat.pow_le_pow_right two_pos hf.tbits
  unfold FpFmt.emax FpFmt.topFrac FpFmt.FiniteFields
  cases f.noInf <;> simp only [if_true, Bool.false_eq_true, if_false] <;> omega

theorem FpFmt.decode_maxBits {f : FpFmt} (hf : f.Sound) : (f.decode f.maxBits).Is f.top := by
  obtain ⟨hpos, hlt, htop, hfin⟩ := hf.emax_bounds
  rw [f.maxBits_eq, f.decode_finite false _ _ hlt htop hfin]
  have h0 : f.emax ≠ 0 := by omega
  refine ⟨false, _, _, rfl, ?_⟩
  unfold FpFmt.mant FpFmt.expOf
  rw [if_neg h0, if_neg h0]
  simp [FpFmt.top]

/-- A magnitude of the format's grid in normal form. -/
structure FpFmt.Normal (f : FpFmt) (d : Nat) (q : Int) : Prop where
  lt : d < 2 ^ (f.tbits + 1)
  above : f.emin - f.tbits ≤ q
  full : 2 ^ f.tbits ≤ d ∨ q = f.emin - f.tbits

/-- The test of R179 for a magnitude past the largest finite value. -/
def FpFmt.tooBig (f : FpFmt) (d : Nat) (q : Int) : Bool :=
  decide (2 ^ f.tbits ≤ d) && (decide ((f.emax : Int) < q + f.tbits + f.bias) ||
    (f.noInf && decide (q + f.tbits + f.bias = f.emax) && decide (d = 2 ^ (f.tbits + 1) - 1)))

/-- Significands of full width compare by their exponents first. -/
theorem mul_two_zpow_lt {t m n : Nat} {p q : Int} (hm : m < 2 ^ (t + 1)) (hn : 2 ^ t ≤ n) (hpq : p < q) :
    (m : ℝ) * (2 : ℝ) ^ p < (n : ℝ) * (2 : ℝ) ^ q := by
  calc (m : ℝ) * (2 : ℝ) ^ p < 2 ^ (t + 1) * (2 : ℝ) ^ p := mul_lt_mul_of_pos_right (by exact_mod_cast hm) (two_zpow_pos p)
    _ = 2 ^ t * (2 : ℝ) ^ (p + 1) := by rw [zpow_add₀ two_ne_zero, zpow_one]; ring
    _ ≤ 2 ^ t * (2 : ℝ) ^ q := mul_le_mul_of_nonneg_left (two_zpow_le (by omega)) (by positivity)
    _ ≤ n * (2 : ℝ) ^ q := mul_le_mul_of_nonneg_right (by exact_mod_cast hn) (two_zpow_pos q).le

theorem FpFmt.Normal.tooBig_iff {f : FpFmt} (hf : f.Sound) {d : Nat} {q : Int} (h : f.Normal d q) :
    f.tooBig d q = true ↔ f.top < (d : ℝ) * (2 : ℝ) ^ q := by
  obtain ⟨hpos, _, htop, _⟩ := hf.emax_bounds
  have hfull : 2 ^ f.tbits ≤ f.topFrac + 2 ^ f.tbits := Nat.le_add_left _ _
  have htopM : f.topFrac + 2 ^ f.tbits < 2 ^ (f.tbits + 1) := by rw [Nat.pow_succ]; omega
  have hlt := h.lt
  have habove := h.above
  unfold FpFmt.emin at habove
  unfold FpFmt.tooBig FpFmt.top
  simp only [Bool.and_eq_true, Bool.or_eq_true, decide_eq_true_eq]
  rcases lt_trichotomy q ((f.emax : Int) - f.bias - f.tbits) with hq | hq | hq
  · have hsmall := mul_two_zpow_lt hlt hfull hq
    constructor
    · rintro ⟨_, hc | ⟨⟨_, hc⟩, _⟩⟩ <;> omega
    · intro hc
      linarith
  · subst hq
    rw [mul_lt_mul_iff_left₀ (two_zpow_pos _), Nat.cast_lt]
    have ht4 : 2 ^ 2 ≤ 2 ^ f.tbits := Nat.pow_le_pow_right two_pos hf.tbits
    have hpow : 2 ^ (f.tbits + 1) = 2 * 2 ^ f.tbits := by rw [Nat.pow_succ, Nat.mul_comm]
    unfold FpFmt.topFrac
    cases hn : f.noInf with
    | true =>
      simp only [if_true]
      constructor
      · rintro ⟨_, hc | ⟨_, hc⟩⟩ <;> omega
      · intro hc
        exact ⟨by omega, .inr ⟨⟨trivial, by omega⟩, by omega⟩⟩
    | false =>
      simp only [Bool.false_eq_true, if_false, false_and, or_false]
      omega
  · have hd : 2 ^ f.tbits ≤ d := h.full.resolve_right fun hc => by unfold FpFmt.emin at hc; omega
    have hbig := mul_two_zpow_lt htopM hd hq
    exact ⟨fun _ => hbig, fun _ => ⟨hd, .inl (by omega)⟩⟩

/-- The exponent and fraction fields of a magnitude. -/
def FpFmt.packBits (f : FpFmt) (d : Nat) (q : Int) : Nat :=
  if 2 ^ f.tbits ≤ d then (q + f.tbits + f.bias).toNat * 2 ^ f.tbits + (d - 2 ^ f.tbits) else d

theorem FpFmt.Normal.packBits_spec {f : FpFmt} (hf : f.Sound) {d : Nat} {q : Int} (h : f.Normal d q) (hbig : f.tooBig d q = false) (neg : Bool) :
    f.signBit neg + f.packBits d q < 2 ^ (1 + f.ebits + f.tbits) ∧ f.decode (f.signBit neg + f.packBits d q) = .fin neg d q := by
  obtain ⟨E, T, hE, hT, hfin, hpack, hm, he⟩ : ∃ E T, E < 2 ^ f.ebits ∧ T < 2 ^ f.tbits ∧ f.FiniteFields E T ∧
      f.packBits d q = E * 2 ^ f.tbits + T ∧ f.mant E T = d ∧ f.expOf E = q := by
    obtain ⟨hpos, hemax, _, _⟩ := hf.emax_bounds
    have hlt := h.lt
    have habove := h.above
    have hpow : 2 ^ (f.tbits + 1) = 2 * 2 ^ f.tbits := by rw [Nat.pow_succ, Nat.mul_comm]
    by_cases hd : 2 ^ f.tbits ≤ d
    · unfold FpFmt.emin at habove
      have hE1 : 1 ≤ (q + f.tbits + f.bias).toNat := by omega
      unfold FpFmt.tooBig at hbig
      simp only [hd, decide_true, Bool.true_and, Bool.or_eq_false_iff, decide_eq_false_iff_not, not_lt] at hbig
      obtain ⟨hle, hnan⟩ := hbig
      refine ⟨(q + f.tbits + f.bias).toNat, d - 2 ^ f.tbits, by omega, by omega, ?_, if_pos hd, ?_, ?_⟩
      · unfold FpFmt.FiniteFields
        unfold FpFmt.emax at hle hnan
        cases hn : f.noInf with
        | true =>
          rw [hn] at hle hnan
          simp only [if_true, Bool.true_and, Bool.and_eq_false_iff, decide_eq_false_iff_not] at hle hnan ⊢
          omega
        | false =>
          rw [hn] at hle
          have he : 2 ^ 2 ≤ 2 ^ f.ebits := Nat.pow_le_pow_right two_pos hf.ebits
          simp only [Bool.false_eq_true, if_false] at hle ⊢
          omega
      · unfold FpFmt.mant
        rw [if_neg (by omega)]
        omega
      · unfold FpFmt.expOf
        rw [if_neg (by omega)]
        omega
    · have hq := h.full.resolve_left hd
      have he : 2 ^ 2 ≤ 2 ^ f.ebits := Nat.pow_le_pow_right two_pos hf.ebits
      have ht : 2 ^ 2 ≤ 2 ^ f.tbits := Nat.pow_le_pow_right two_pos hf.tbits
      refine ⟨0, d, by omega, by omega, ?_, ?_, if_pos rfl, ?_⟩
      · unfold FpFmt.FiniteFields
        cases f.noInf <;> simp only [if_true, Bool.false_eq_true, if_false] <;> omega
      · unfold FpFmt.packBits
        rw [if_neg hd, Nat.zero_mul, Nat.zero_add]
      · unfold FpFmt.expOf
        rw [if_pos rfl, hq]
  rw [hpack, ← Nat.add_assoc, f.decode_finite neg E T hE hT hfin, hm, he]
  obtain ⟨_, _, hs⟩ := f.fields_of neg E T hE hT
  refine ⟨?_, rfl⟩
  rw [show 1 + f.ebits + f.tbits = f.ebits + f.tbits + 1 by omega, Nat.pow_succ, Nat.mul_comm (2 ^ (f.ebits + f.tbits)) 2, ← Nat.div_lt_iff_lt_mul (Nat.two_pow_pos _), hs]
  split <;> omega

/-! ### An exact value rounded once (R178-R180) -/

/-- A rounded significand brought into normal form. -/
def FpFmt.carry (f : FpFmt) (d : Nat) (q : Int) : Nat × Int := if 2 ^ (f.tbits + 1) ≤ d then (d / 2, q + 1) else (d, q)

theorem FpFmt.carry_spec (f : FpFmt) {d : Nat} {q : Int} (hd : d ≤ 2 ^ (f.tbits + 1)) (hq : f.emin - f.tbits ≤ q)
    (hfull : 2 ^ f.tbits ≤ d ∨ q = f.emin - f.tbits) :
    f.Normal (f.carry d q).1 (f.carry d q).2 ∧ ((f.carry d q).1 : ℝ) * (2 : ℝ) ^ (f.carry d q).2 = (d : ℝ) * (2 : ℝ) ^ q := by
  have hpow : 2 ^ (f.tbits + 1) = 2 * 2 ^ f.tbits := by rw [Nat.pow_succ, Nat.mul_comm]
  have hpos := Nat.two_pow_pos f.tbits
  by_cases h : 2 ^ (f.tbits + 1) ≤ d
  · have hc : f.carry d q = (d / 2, q + 1) := if_pos h
    have hd2 : d = 2 * 2 ^ f.tbits := by omega
    rw [hc]
    refine ⟨⟨by omega, by omega, .inl (by omega)⟩, ?_⟩
    rw [hd2, Nat.mul_div_cancel_left _ two_pos, zpow_add₀ two_ne_zero, zpow_one]
    push_cast
    ring
  · have hc : f.carry d q = (d, q) := if_neg h
    rw [hc]
    exact ⟨⟨by omega, hq, hfull⟩, rfl⟩

/-- The exponent of the last place of a value in the format. -/
def FpFmt.lastPlace (f : FpFmt) (lead : Int) : Int := (if lead < f.emin then f.emin else lead) - f.tbits

theorem FpFmt.round_eq (f : FpFmt) (neg : Bool) (m : Nat) (e : Int) (rm : Nat) (sat : Bool) :
    let lead := (natLength m : Int) - 1 + e
    let u := (roundAt m e (lead - f.tbits) neg rm).1
    let r := roundAt m e (f.lastPlace lead) neg rm
    let n := f.carry r.1 (f.lastPlace lead)
    f.round neg m e rm sat = if f.tooBig n.1 n.2 then (f.overflow neg rm sat, flOVF ||| flINX)
      else (f.signBit neg + f.packBits n.1 n.2, (if r.2 then flINX else 0) |||
        (if decide ((natLength u : Int) - 1 + (lead - f.tbits) < f.emin) && r.2 then flUNF else 0)) := rfl

/-- A magnitude of full width is below a power of two as its leading bit is. -/
theorem lead_lt_iff {U : Nat} (hU : U ≠ 0) (p q : Int) : (natLength U : Int) - 1 + p < q ↔ (U : ℝ) * (2 : ℝ) ^ p < (2 : ℝ) ^ q := by
  have hlen := natLength_pos hU
  have hlow : (2 : ℝ) ^ (natLength U - 1) ≤ U := by exact_mod_cast two_pow_natLength_le hU
  have hhigh : (U : ℝ) < 2 ^ natLength U := by exact_mod_cast lt_two_pow_natLength U
  have hp := two_zpow_pos p
  constructor
  · intro h
    calc (U : ℝ) * (2 : ℝ) ^ p < 2 ^ natLength U * (2 : ℝ) ^ p := mul_lt_mul_of_pos_right hhigh hp
      _ = (2 : ℝ) ^ (p + natLength U) := by rw [two_zpow_add_nat, mul_comm]
      _ ≤ (2 : ℝ) ^ q := two_zpow_le (by omega)
  · intro h
    by_contra hc
    have : (2 : ℝ) ^ q ≤ U * (2 : ℝ) ^ p := calc
      (2 : ℝ) ^ q ≤ (2 : ℝ) ^ (p + ((natLength U - 1 : Nat) : Int)) := two_zpow_le (by omega)
      _ = 2 ^ (natLength U - 1) * (2 : ℝ) ^ p := by rw [two_zpow_add_nat, mul_comm]
      _ ≤ U * (2 : ℝ) ^ p := mul_le_mul_of_nonneg_right hlow hp.le
    linarith

theorem FpFmt.overflow_spec (f : FpFmt) (neg : Bool) (rm : Nat) (sat : Bool) (hrm : rm < 4) :
    let sign := if neg then 2 ^ (f.ebits + f.tbits) else 0
    let stops : Prop := sat = true ∨ rm = 1 ∨ rm = 2 ∧ neg = false ∨ rm = 3 ∧ neg = true
    (stops → f.overflow neg rm sat = sign + f.maxBits) ∧
      (¬ stops → f.overflow neg rm sat = if f.noInf then f.nanBits else sign + f.infBits) := by
  unfold FpFmt.overflow FpFmt.signBit
  interval_cases rm <;> cases neg <;> cases sat <;> simp

/-- The value x that M × 2^e stands for, rounded once. -/
theorem FpFmt.round_rounded {f : FpFmt} (hf : f.Sound) (neg : Bool) (rm : Nat) (hrm : rm < 4) (sat : Bool) {x : ℝ} {M : Nat} {e : Int}
    (hM : M ≠ 0) (h : StandsFor f.tbits x M e) : f.Rounded neg rm sat x (f.round neg M e rm sat) := by
  have ht1 : 1 ≤ f.tbits := le_trans one_le_two hf.tbits
  have hplace : (natLength M : Int) - 1 + e - f.tbits ≤ f.lastPlace ((natLength M : Int) - 1 + e) := by
    unfold FpFmt.lastPlace
    split <;> omega
  have hmin : f.emin - f.tbits ≤ f.lastPlace ((natLength M : Int) - 1 + e) := by
    unfold FpFmt.lastPlace
    split <;> omega
  have hwhich : f.lastPlace ((natLength M : Int) - 1 + e) = f.emin - f.tbits ∨
      f.lastPlace ((natLength M : Int) - 1 + e) = (natLength M : Int) - 1 + e - f.tbits := by
    unfold FpFmt.lastPlace
    split
    · exact .inl rfl
    · exact .inr rfl
  obtain ⟨D, up, hr⟩ := roundAt_spec hM h hplace neg rm
  obtain ⟨V, vp, hu⟩ := roundAt_spec hM h le_rfl neg rm
  rw [f.round_eq]
  generalize f.lastPlace ((natLength M : Int) - 1 + e) = q at *
  generalize (natLength M : Int) - 1 + e = lead at *
  generalize roundAt M e q neg rm = r at *
  generalize roundAt M e (lead - f.tbits) neg rm = w at *
  have hb : Bracket f.tbits (some (f.emin - f.tbits)) x D q :=
    ⟨hr.lower, hr.upper, hr.lt, fun l hl => by cases hl; exact hmin, hwhich.symm.imp hr.full fun hq => by rw [hq]⟩
  have hbu : Bracket f.tbits none x V (lead - f.tbits) := ⟨hu.lower, hu.upper, hu.lt, fun l hl => (nomatch hl), .inl (hu.full rfl)⟩
  have hround := hb.roundsTo ht1 hr.directed
  have hroundu := hbu.roundsTo ht1 hu.directed
  rw [← hr.result] at hround
  rw [← hu.result] at hroundu
  have hU : w.1 ≠ 0 := by
    have := hu.full rfl
    have := Nat.two_pow_pos f.tbits
    rw [hu.result]
    split <;> omega
  have hd : r.1 ≤ 2 ^ (f.tbits + 1) := by
    have := hr.lt
    rw [hr.result]
    split <;> omega
  have hdfull : 2 ^ f.tbits ≤ r.1 ∨ q = f.emin - f.tbits := by
    refine hwhich.symm.imp_left fun hq => (hr.full hq).trans ?_
    rw [hr.result]
    split <;> omega
  obtain ⟨hnormal, hvalue⟩ := f.carry_spec hd hmin hdfull
  generalize f.carry r.1 q = n at *
  refine ⟨(r.1 : ℝ) * (2 : ℝ) ^ q, f.top, hround, f.decode_maxBits hf, fun hbig => ?_, fun hsmall => ?_⟩
  · rw [if_pos ((hnormal.tooBig_iff hf).mpr (hvalue ▸ hbig))]
    exact ⟨rfl, f.overflow_spec neg rm sat hrm⟩
  · have hnot : f.tooBig n.1 n.2 = false := by
      rw [Bool.eq_false_iff]
      intro hc
      have := (hnormal.tooBig_iff hf).mp hc
      rw [hvalue] at this
      linarith
    obtain ⟨hlt, hdec⟩ := hnormal.packBits_spec hf hnot neg
    rw [hnot, if_neg Bool.false_ne_true]
    refine ⟨hlt, ⟨neg, n.1, n.2, hdec, ?_⟩, by rw [hdec]; rfl, fun hy => ?_, fun hy => ⟨(w.1 : ℝ) * (2 : ℝ) ^ (lead - f.tbits), hroundu, ?_, ?_⟩⟩
    · rw [mul_assoc, hvalue]
      cases neg <;> simp
    · have : r.2 = false := hr.exact.mpr hy.symm
      rw [this]
      simp
    · intro hsmallu
      have hinx : r.2 = true := by
        rw [← Bool.not_eq_false]
        exact fun hc => hy (hr.exact.mp hc).symm
      rw [hinx, decide_eq_true ((lead_lt_iff hU _ _).mpr hsmallu)]
      rfl
    · intro hlarge
      have hinx : r.2 = true := by
        rw [← Bool.not_eq_false]
        exact fun hc => hy (hr.exact.mp hc).symm
      rw [hinx, decide_eq_false (fun hc => absurd ((lead_lt_iff hU _ _).mp hc) (not_lt.mpr hlarge))]
      rfl

theorem FpFmt.encode_rounded {f : FpFmt} (hf : f.Sound) (neg : Bool) (rm : Nat) (hrm : rm < 4) (sat : Bool) {x : ℝ} {M : Nat} {e : Int}
    (hM : M ≠ 0) (h : StandsFor f.tbits x M e) : f.Rounded neg rm sat x (f.encode (.fin neg M e) rm sat) := by
  have he : f.encode (.fin neg M e) rm sat = f.round neg M e rm sat := if_neg hM
  rw [he]
  exact f.round_rounded hf neg rm hrm sat hM h

/-! ### Quotients and reciprocal square roots (R210, R211) -/

/-- A number with a sticky bit stands for the real number v × 2^e whose floor it is made of. -/
theorem standsFor_sticky {t q : Nat} {v : ℝ} (e : Int) (exact : Bool) (hq : 2 ^ (t + 2) ≤ q) (hex : exact = true → v = q)
    (hlow : exact = false → (q : ℝ) < v) (hup : v < q + 1) :
    StandsFor t (v * (2 : ℝ) ^ e) (2 * q + if exact then 0 else 1) (e - 1) := by
  have hhalf : (2 : ℝ) ^ e = 2 * (2 : ℝ) ^ (e - 1) := by
    rw [zpow_sub_one₀ two_ne_zero]
    ring
  have hp := two_zpow_pos (e - 1)
  rw [hhalf]
  cases exact with
  | true =>
    left
    rw [hex rfl, if_pos rfl]
    push_cast
    ring
  | false =>
    right
    rw [if_neg Bool.false_ne_true]
    refine ⟨by omega, by omega, ?_, ?_⟩
    · calc (((2 * q + 1 : Nat) : ℝ) - 1) * (2 : ℝ) ^ (e - 1) = q * (2 * (2 : ℝ) ^ (e - 1)) := by push_cast; ring
        _ < v * (2 * (2 : ℝ) ^ (e - 1)) := mul_lt_mul_of_pos_right (hlow rfl) (by linarith)
    · calc v * (2 * (2 : ℝ) ^ (e - 1)) < (q + 1) * (2 * (2 : ℝ) ^ (e - 1)) := mul_lt_mul_of_pos_right hup (by linarith)
        _ = (((2 * q + 1 : Nat) : ℝ) + 1) * (2 : ℝ) ^ (e - 1) := by push_cast; ring

theorem FpFmt.divide_eq (f : FpFmt) (s t : Bool) (m n : Nat) (e g : Int) (rm : Nat) (sat : Bool) (hm : m ≠ 0) (hn : n ≠ 0) :
    let k := f.tbits + 4 + natLength n
    f.divide (.fin s m e) (.fin t n g) rm sat = f.encode (.fin (s != t) (2 * (m * 2 ^ k / n) +
      if decide (m * 2 ^ k % n = 0) then 0 else 1) (e - g - (k : Int) - 1)) rm sat := by
  intro k
  simp only [decide_eq_true_eq]
  unfold FpFmt.divide
  dsimp only
  rw [if_neg hn, if_neg hm]

theorem FpFmt.divide_rounded {f : FpFmt} (hf : f.Sound) (s t : Bool) (m n : Nat) (e g : Int) (rm : Nat) (hrm : rm < 4) (sat : Bool)
    (hm : m ≠ 0) (hn : n ≠ 0) :
    f.Rounded (s != t) rm sat ((m : ℝ) * (2 : ℝ) ^ e / ((n : ℝ) * (2 : ℝ) ^ g)) (f.divide (.fin s m e) (.fin t n g) rm sat) := by
  have hlen := lt_two_pow_natLength n
  have hnpos : (0 : ℝ) < n := by exact_mod_cast Nat.pos_of_ne_zero hn
  rw [f.divide_eq s t m n e g rm sat hm hn]
  generalize hk : f.tbits + 4 + natLength n = k
  have hdiv := Nat.div_add_mod (m * 2 ^ k) n
  have hmod := Nat.mod_lt (m * 2 ^ k) (Nat.pos_of_ne_zero hn)
  have hdigits : 2 ^ (f.tbits + 2) ≤ m * 2 ^ k / n := by
    rw [Nat.le_div_iff_mul_le (Nat.pos_of_ne_zero hn)]
    calc 2 ^ (f.tbits + 2) * n ≤ 2 ^ (f.tbits + 2) * 2 ^ natLength n := Nat.mul_le_mul_left _ hlen.le
      _ = 2 ^ (f.tbits + 2 + natLength n) := (Nat.pow_add ..).symm
      _ ≤ 2 ^ k := Nat.pow_le_pow_right two_pos (by omega)
      _ ≤ m * 2 ^ k := Nat.le_mul_of_pos_left _ (Nat.pos_of_ne_zero hm)
  have hreal : (n : ℝ) * ((m * 2 ^ k / n : Nat) : ℝ) + ((m * 2 ^ k % n : Nat) : ℝ) = m * 2 ^ k := by exact_mod_cast hdiv
  have hvalue : (m : ℝ) * (2 : ℝ) ^ e / ((n : ℝ) * (2 : ℝ) ^ g) = m * 2 ^ k / n * (2 : ℝ) ^ (e - g - (k : Int)) := by
    rw [zpow_sub₀ two_ne_zero, zpow_sub₀ two_ne_zero, zpow_natCast]
    have := two_zpow_pos g
    field_simp
  have hpos := Nat.two_pow_pos (f.tbits + 2)
  rw [hvalue]
  refine f.encode_rounded hf _ rm hrm sat (by omega) (standsFor_sticky _ _ hdigits (fun h0 => ?_) (fun h0 => ?_) ?_)
  · rw [decide_eq_true_eq] at h0
    rw [h0, Nat.cast_zero, add_zero] at hreal
    rw [div_eq_iff hnpos.ne', ← hreal, mul_comm]
  · rw [decide_eq_false_iff_not] at h0
    have : (0 : ℝ) < ((m * 2 ^ k % n : Nat) : ℝ) := by exact_mod_cast Nat.pos_of_ne_zero h0
    rw [lt_div_iff₀ hnpos]
    linarith
  · have : ((m * 2 ^ k % n : Nat) : ℝ) < n := by exact_mod_cast hmod
    rw [div_lt_iff₀ hnpos]
    linarith

/-- Newton's step from above the root never goes below it, and halves the distance. -/
theorem newton_step {n x : Nat} (hx : n.sqrt ≤ x) (hpos : 0 < x) :
    n.sqrt ≤ (x + n / x) / 2 ∧ (n.sqrt < x → (x + n / x) / 2 - n.sqrt ≤ (x - n.sqrt) / 2 ∧ (x + n / x) / 2 < x) := by
  have hlow : n.sqrt * n.sqrt ≤ n := Nat.sqrt_le n
  have hhigh : n < (n.sqrt + 1) * (n.sqrt + 1) := Nat.lt_succ_sqrt n
  generalize n.sqrt = s at *
  obtain ⟨d, rfl⟩ := Nat.exists_eq_add_of_le hx
  constructor
  · have hge : s - d ≤ n / (s + d) := by
      rw [Nat.le_div_iff_mul_le hpos]
      rcases Nat.le_total s d with h | h
      · rw [Nat.sub_eq_zero_of_le h, Nat.zero_mul]
        exact Nat.zero_le n
      · obtain ⟨c, rfl⟩ := Nat.exists_eq_add_of_le h
        rw [Nat.add_sub_cancel_left]
        nlinarith
    omega
  · intro hlt
    have hle : n / (s + d) ≤ s := by
      rw [← Nat.lt_succ_iff, Nat.div_lt_iff_lt_mul hpos]
      exact lt_of_lt_of_le hhigh (Nat.mul_le_mul_left _ (by omega))
    omega

theorem isqrtFrom_eq_sqrt (fuel n x : Nat) (hn : 0 < n.sqrt) (hx : n.sqrt ≤ x) (hfuel : x - n.sqrt < 2 ^ fuel) :
    isqrtFrom fuel n x = n.sqrt := by
  induction fuel generalizing x with
  | zero =>
    rw [Nat.pow_zero] at hfuel
    rw [isqrtFrom]
    omega
  | succ fuel ih =>
    obtain ⟨hge, hstep⟩ := newton_step hx (by omega)
    rw [isqrtFrom]
    rcases Nat.eq_or_lt_of_le hx with heq | hlt
    · rw [if_pos (heq ▸ hge), heq]
    · obtain ⟨hhalf, hless⟩ := hstep hlt
      rw [if_neg (by omega)]
      refine ih _ hge ?_
      rw [Nat.pow_succ] at hfuel
      omega

theorem isqrt_eq_sqrt (n : Nat) : isqrt n = n.sqrt := by
  unfold isqrt
  split
  · next h => rw [h]; rfl
  · next h =>
    have hlt : n.sqrt < 2 ^ ((natLength n + 1) / 2) := by
      rw [Nat.sqrt_lt]
      calc n < 2 ^ natLength n := lt_two_pow_natLength n
        _ ≤ 2 ^ ((natLength n + 1) / 2 + (natLength n + 1) / 2) := Nat.pow_le_pow_right two_pos (by omega)
        _ = _ := Nat.pow_add ..
    have hstart : 2 ^ ((natLength n + 1) / 2) ≤ 2 ^ ((natLength n + 1) / 2 + 1) := Nat.pow_le_pow_right two_pos (by omega)
    refine isqrtFrom_eq_sqrt _ _ _ (Nat.sqrt_pos.mpr (Nat.pos_of_ne_zero h)) (by omega) ?_
    exact lt_of_le_of_lt (Nat.sub_le _ _) (Nat.pow_lt_pow_right (by omega) (by omega))

/-- A value with an even exponent: the exponent halves under the root. -/
theorem sqrt_even (m : Nat) (h : Int) : Real.sqrt ((m : ℝ) * (2 : ℝ) ^ (2 * h)) = Real.sqrt m * (2 : ℝ) ^ h := by
  rw [Real.sqrt_mul (Nat.cast_nonneg m), show (2 : ℝ) ^ (2 * h) = ((2 : ℝ) ^ h) ^ 2 by rw [← zpow_natCast, ← zpow_mul, mul_comm]; rfl,
    Real.sqrt_sq (two_zpow_pos h).le]

/-- The digits of a reciprocal root, with the sticky bit that tells whether they are all of it. -/
theorem sqrt_digits {k m r : Nat} (hm : m ≠ 0) (hr : r = (2 ^ (2 * k) / m).sqrt) :
    let exact := decide (2 ^ (2 * k) % m = 0) && decide (r * r = 2 ^ (2 * k) / m)
    (exact = true → (2 : ℝ) ^ k / Real.sqrt m = r) ∧ (exact = false → (r : ℝ) < 2 ^ k / Real.sqrt m) ∧ (2 : ℝ) ^ k / Real.sqrt m < r + 1 := by
  intro exact
  have hmpos : (0 : ℝ) < m := by exact_mod_cast Nat.pos_of_ne_zero hm
  have hroot : 0 < Real.sqrt m := Real.sqrt_pos.mpr hmpos
  have hv : 0 ≤ (2 : ℝ) ^ k / Real.sqrt m := by positivity
  have hsq : ((2 : ℝ) ^ k / Real.sqrt m) ^ 2 = 2 ^ (2 * k) / m := by rw [div_pow, Real.sq_sqrt hmpos.le, ← pow_mul, mul_comm k]
  have hdiv := Nat.div_add_mod (2 ^ (2 * k)) m
  have hmod := Nat.mod_lt (2 ^ (2 * k)) (Nat.pos_of_ne_zero hm)
  have hlow : r * r ≤ 2 ^ (2 * k) / m := hr ▸ Nat.sqrt_le _
  have hhigh : 2 ^ (2 * k) / m < (r + 1) * (r + 1) := hr ▸ Nat.lt_succ_sqrt _
  generalize hX : 2 ^ (2 * k) / m = X at *
  have hreal : (m : ℝ) * X + ((2 ^ (2 * k) % m : Nat) : ℝ) = 2 ^ (2 * k) := by exact_mod_cast hdiv
  have hlowR : (r : ℝ) * r ≤ X := by exact_mod_cast hlow
  refine ⟨fun he => ?_, fun he => ?_, ?_⟩
  · obtain ⟨h0, h1⟩ : 2 ^ (2 * k) % m = 0 ∧ r * r = X := by simpa [exact, hX] using he
    have h1R : (r : ℝ) * r = X := by exact_mod_cast h1
    rw [h0, Nat.cast_zero, add_zero] at hreal
    refine (sq_eq_sq₀ hv (Nat.cast_nonneg r)).mp ?_
    rw [hsq, div_eq_iff hmpos.ne', ← hreal, sq, h1R, mul_comm]
  · refine lt_of_pow_lt_pow_left₀ 2 hv ?_
    rw [hsq, lt_div_iff₀ hmpos, sq, ← hreal]
    by_cases h0 : 2 ^ (2 * k) % m = 0
    · have h1 : r * r ≠ X := by
        intro h1
        simp [exact, hX, h0, h1] at he
      have : (r : ℝ) * r < X := by exact_mod_cast lt_of_le_of_ne hlow h1
      rw [h0, Nat.cast_zero, add_zero, mul_comm (m : ℝ)]
      exact mul_lt_mul_of_pos_right this hmpos
    · have : (0 : ℝ) < ((2 ^ (2 * k) % m : Nat) : ℝ) := by exact_mod_cast Nat.pos_of_ne_zero h0
      have := mul_le_mul_of_nonneg_right hlowR hmpos.le
      linarith
  · refine lt_of_pow_lt_pow_left₀ 2 (by positivity) ?_
    have hmodR : ((2 ^ (2 * k) % m : Nat) : ℝ) < m := by exact_mod_cast hmod
    have hhighR : (X : ℝ) + 1 ≤ (r + 1) * (r + 1) := by exact_mod_cast hhigh
    have := mul_le_mul_of_nonneg_right hhighR hmpos.le
    rw [hsq, div_lt_iff₀ hmpos, sq, ← hreal]
    linarith

theorem FpFmt.rsqrt_eq (f : FpFmt) (m : Nat) (e : Int) (rm : Nat) (sat : Bool) (hm : m ≠ 0) :
    let m' := if decide (e % 2 = 1) then 2 * m else m
    let e' := if decide (e % 2 = 1) then e - 1 else e
    let k := f.tbits + 8 + natLength m'
    let r := isqrt (2 ^ (2 * k) / m')
    f.rsqrt (.fin false m e) rm sat = f.encode (.fin false (2 * r + if decide (2 ^ (2 * k) % m' = 0) && decide (r * r = 2 ^ (2 * k) / m')
      then 0 else 1) (-(k : Int) - e' / 2 - 1)) rm sat := by
  unfold FpFmt.rsqrt
  dsimp only
  rw [if_neg hm]
  rfl

theorem FpFmt.rsqrt_rounded {f : FpFmt} (hf : f.Sound) (m : Nat) (e : Int) (rm : Nat) (hrm : rm < 4) (sat : Bool) (hm : m ≠ 0) :
    f.Rounded false rm sat (1 / Real.sqrt ((m : ℝ) * (2 : ℝ) ^ e)) (f.rsqrt (.fin false m e) rm sat) := by
  rw [f.rsqrt_eq m e rm sat hm]
  obtain ⟨n, h, hn, hpair, hvalue⟩ : ∃ n h, n ≠ 0 ∧ ((if decide (e % 2 = 1) then 2 * m else m) = n ∧
      (if decide (e % 2 = 1) then e - 1 else e) / 2 = h) ∧ (m : ℝ) * (2 : ℝ) ^ e = n * (2 : ℝ) ^ (2 * h) := by
    by_cases ho : e % 2 = 1
    · refine ⟨2 * m, (e - 1) / 2, by omega, ⟨by simp [ho], by simp [ho]⟩, ?_⟩
      have he : e = 2 * ((e - 1) / 2) + 1 := by omega
      conv_lhs => rw [he, zpow_add₀ two_ne_zero, zpow_one]
      push_cast
      ring
    · refine ⟨m, e / 2, hm, ⟨by simp [ho], by simp [ho]⟩, ?_⟩
      rw [show 2 * (e / 2) = e by omega]
  obtain ⟨hn', he'⟩ := hpair
  rw [hn', he', isqrt_eq_sqrt]
  generalize hk : f.tbits + 8 + natLength n = k
  obtain ⟨hex, hlow, hup⟩ := sqrt_digits (k := k) hn rfl
  have hlen := lt_two_pow_natLength n
  have hdigits : 2 ^ (f.tbits + 2) ≤ (2 ^ (2 * k) / n).sqrt := by
    rw [Nat.le_sqrt, Nat.le_div_iff_mul_le (Nat.pos_of_ne_zero hn), ← Nat.pow_add]
    calc 2 ^ (f.tbits + 2 + (f.tbits + 2)) * n ≤ 2 ^ (f.tbits + 2 + (f.tbits + 2)) * 2 ^ natLength n := Nat.mul_le_mul_left _ hlen.le
      _ = 2 ^ (f.tbits + 2 + (f.tbits + 2) + natLength n) := (Nat.pow_add ..).symm
      _ ≤ 2 ^ (2 * k) := Nat.pow_le_pow_right two_pos (by omega)
  have hroot : 0 < Real.sqrt n := Real.sqrt_pos.mpr (by exact_mod_cast Nat.pos_of_ne_zero hn)
  have hx : 1 / Real.sqrt ((m : ℝ) * (2 : ℝ) ^ e) = 2 ^ k / Real.sqrt n * (2 : ℝ) ^ (-(k : Int) - h) := by
    rw [hvalue, sqrt_even, zpow_sub₀ two_ne_zero, zpow_neg, zpow_natCast]
    have := two_zpow_pos h
    field_simp
  have hpos := Nat.two_pow_pos (f.tbits + 2)
  rw [hx]
  exact f.encode_rounded hf _ rm hrm sat (by omega) (standsFor_sticky _ _ hdigits hex hlow hup)

/-! ### Exact sums and products (R172, R173) -/

theorem signedMant_cast (s : Bool) (m : Nat) : ((signedMant s m : Int) : ℝ) = (if s then -1 else 1) * (m : ℝ) := by
  cases s <;> simp [signedMant]

/-- A finite value's real number, at a lower exponent. -/
theorem fin_value_lower (s : Bool) (m : Nat) {e q : Int} (h : q ≤ e) :
    (if s then -1 else 1) * (m : ℝ) * (2 : ℝ) ^ e = ((signedMant s (m * 2 ^ (e - q).toNat) : Int) : ℝ) * (2 : ℝ) ^ q := by
  rw [signedMant_cast, mul_assoc, mul_two_zpow_lower h, mul_assoc]

/-- The sum of two finite values is exact; a zero one has the sign of R172. -/
theorem fadd_exact (rm : Nat) {a b : FVal} {x y : ℝ} (ha : a.Is x) (hb : b.Is y) :
    ∃ v, fadd rm a b = (v, false) ∧ v.Is (x + y) ∧ (x + y = 0 → v.isNegative = (decide (rm = 2) || (a.isNegative && b.isNegative))) := by
  obtain ⟨s, m, e, rfl, rfl⟩ := ha
  obtain ⟨t, n, g, rfl, rfl⟩ := hb
  have hsum : (if s then -1 else 1) * (m : ℝ) * (2 : ℝ) ^ e + (if t then -1 else 1) * (n : ℝ) * (2 : ℝ) ^ g =
      ((signedMant s (m * 2 ^ (e - min e g).toNat) + signedMant t (n * 2 ^ (g - min e g).toNat) : Int) : ℝ) * (2 : ℝ) ^ (min e g) := by
    rw [fin_value_lower s m (min_le_left e g), fin_value_lower t n (min_le_right e g)]
    push_cast
    ring
  have hq := two_zpow_pos (min e g)
  have hdef : fadd rm (.fin s m e) (.fin t n g) =
      if signedMant s (m * 2 ^ (e - min e g).toNat) + signedMant t (n * 2 ^ (g - min e g).toNat) = 0
      then (.fin (decide (rm = 2) || (s && t && decide (m = 0) && decide (n = 0))) 0 0, false)
      else (.fin (decide (signedMant s (m * 2 ^ (e - min e g).toNat) + signedMant t (n * 2 ^ (g - min e g).toNat) < 0))
        (signedMant s (m * 2 ^ (e - min e g).toNat) + signedMant t (n * 2 ^ (g - min e g).toNat)).natAbs (min e g), false) := rfl
  rw [hdef, hsum]
  have hzero : signedMant s (m * 2 ^ (e - min e g).toNat) + signedMant t (n * 2 ^ (g - min e g).toNat) = 0 → (s && t) = true →
      m = 0 ∧ n = 0 := by
    intro h0 hst
    obtain ⟨rfl, rfl⟩ : s = true ∧ t = true := by simpa using hst
    simp only [signedMant, if_true] at h0
    have hm : m * 2 ^ (e - min e g).toNat = 0 := by omega
    have hn : n * 2 ^ (g - min e g).toNat = 0 := by omega
    exact ⟨(Nat.mul_eq_zero.mp hm).resolve_right (Nat.two_pow_pos _).ne', (Nat.mul_eq_zero.mp hn).resolve_right (Nat.two_pow_pos _).ne'⟩
  generalize signedMant s (m * 2 ^ (e - min e g).toNat) + signedMant t (n * 2 ^ (g - min e g).toNat) = X at *
  by_cases h0 : X = 0
  · rw [if_pos h0]
    refine ⟨_, rfl, ⟨_, _, _, rfl, by simp [h0]⟩, fun _ => ?_⟩
    change (decide (rm = 2) || (s && t && decide (m = 0) && decide (n = 0))) = (decide (rm = 2) || (s && t))
    cases hst : s && t with
    | false => simp
    | true =>
      obtain ⟨rfl, rfl⟩ := hzero h0 hst
      simp
  · rw [if_neg h0]
    refine ⟨_, rfl, ⟨_, _, _, rfl, ?_⟩, fun hz => ?_⟩
    · congr 1
      rcases lt_or_gt_of_ne h0 with hneg | hpos
      · have habs : ((X.natAbs : Int) : ℝ) = -(X : ℝ) := by rw [Int.ofNat_natAbs_of_nonpos hneg.le]; push_cast; rfl
        rw [decide_eq_true hneg, if_pos rfl, ← Int.cast_natCast, habs]
        ring
      · have habs : ((X.natAbs : Int) : ℝ) = (X : ℝ) := by rw [Int.natAbs_of_nonneg hpos.le]
        rw [decide_eq_false (not_lt.mpr hpos.le), if_neg Bool.false_ne_true, ← Int.cast_natCast, habs, one_mul]
    · rcases mul_eq_zero.mp hz with hX | hp
      · exact absurd (by exact_mod_cast hX) h0
      · exact absurd hp hq.ne'

theorem fmul_exact {a b : FVal} {x y : ℝ} (ha : a.Is x) (hb : b.Is y) :
    ∃ v, fmul a b = (v, false) ∧ v.Is (x * y) ∧ v.isNegative = (a.isNegative != b.isNegative) := by
  obtain ⟨s, m, e, rfl, rfl⟩ := ha
  obtain ⟨t, n, g, rfl, rfl⟩ := hb
  refine ⟨_, rfl, ⟨_, _, _, rfl, ?_⟩, rfl⟩
  rw [zpow_add₀ two_ne_zero]
  push_cast
  cases s <;> cases t <;> simp <;> ring

theorem ffma_exact (rm : Nat) {a b c : FVal} {x y z : ℝ} (ha : a.Is x) (hb : b.Is y) (hc : c.Is z) :
    ∃ v, ffma rm a b c = (v, false) ∧ v.Is (x * y + z) := by
  obtain ⟨p, hp, hpv, _⟩ := fmul_exact ha hb
  obtain ⟨v, hv, hvv, _⟩ := fadd_exact rm hpv hc
  refine ⟨v, ?_, hvv⟩
  simp only [ffma, hp, hv, Bool.or_false]

/-- The value of a finite operand is zero where its significand is. -/
theorem fin_value_eq_zero (t : Bool) (n : Nat) (g : Int) : (if t then -1 else 1) * (n : ℝ) * (2 : ℝ) ^ g = 0 ↔ n = 0 := by
  have hg := (two_zpow_pos g).ne'
  cases t <;> simp [hg]

/-! ### The settled statement -/

theorem sound_of_mem : ∀ f ∈ [fmtF32, fmtBF16, fmtF16, fmtE4M3, fmtE5M2], f.Sound := by
  intro f hf
  fin_cases hf <;> exact ⟨by decide, by decide⟩

/-- The finite fields, as the statement says them of the five formats. -/
theorem finiteFields_of_mem : ∀ f ∈ [fmtF32, fmtBF16, fmtF16, fmtE4M3, fmtE5M2], ∀ E T : Nat, T < 2 ^ f.tbits →
    (if f.noInf then E * 2 ^ f.tbits + T < 0x7F else E + 1 < 2 ^ f.ebits) → f.FiniteFields E T := by
  intro f hf E T hT h
  unfold FpFmt.FiniteFields
  fin_cases hf <;> simp only [fmtF32, fmtBF16, fmtF16, fmtE4M3, fmtE5M2] at * <;> simp at * <;> omega

/-- The pattern of finite fields decodes to the value of the table "Floating-point formats". -/
theorem decode_value (f : FpFmt) (neg : Bool) (E T : Nat) (hE : E < 2 ^ f.ebits) (hT : T < 2 ^ f.tbits) (h : f.FiniteFields E T) :
    let v := f.decode ((if neg then 2 ^ (f.ebits + f.tbits) else 0) + E * 2 ^ f.tbits + T)
    v.isNegative = neg ∧ v.Is ((if neg then -1 else 1) * (if E = 0 then (T : ℝ) * (2 : ℝ) ^ (1 - (f.bias : Int) - f.tbits)
      else (2 ^ f.tbits + T : ℝ) * (2 : ℝ) ^ ((E : Int) - f.bias - f.tbits))) := by
  intro v
  have hv : v = .fin neg (f.mant E T) (f.expOf E) := f.decode_finite neg E T hE hT h
  rw [hv]
  refine ⟨rfl, neg, f.mant E T, f.expOf E, rfl, ?_⟩
  rw [mul_assoc]
  congr 1
  unfold FpFmt.mant FpFmt.expOf FpFmt.emin
  split
  · rfl
  · push_cast
    ring

theorem arithmetic_nan (rm : Nat) {a b : FVal} (h : a = .nan ∨ b = .nan) : fadd rm a b = (.nan, false) ∧ fmul a b = (.nan, false) := by
  rcases h with rfl | rfl
  · exact ⟨rfl, rfl⟩
  · cases a <;> exact ⟨rfl, rfl⟩

/-- An infinity with a finite operand: the sum keeps it, the product keeps it but for a zero, which is invalid. -/
theorem arithmetic_inf_finite (rm : Nat) (s : Bool) {b : FVal} {x : ℝ} (hb : b.Is x) :
    fadd rm (.inf s) b = (.inf s, false) ∧ fadd rm b (.inf s) = (.inf s, false) ∧
    (x = 0 → fmul (.inf s) b = (.nan, true) ∧ fmul b (.inf s) = (.nan, true)) ∧
    (x ≠ 0 → fmul (.inf s) b = (.inf (s != b.isNegative), false) ∧ fmul b (.inf s) = (.inf (s != b.isNegative), false)) := by
  obtain ⟨t, n, g, rfl, rfl⟩ := hb
  have hl : fmul (.inf s) (.fin t n g) = if n = 0 then (.nan, true) else (.inf (s != t), false) := rfl
  have hr : fmul (.fin t n g) (.inf s) = if n = 0 then (.nan, true) else (.inf (t != s), false) := rfl
  rw [fin_value_eq_zero, ne_eq, fin_value_eq_zero, hl, hr, bne_comm (a := t)]
  refine ⟨rfl, rfl, fun h => ?_, fun h => ?_⟩
  · exact ⟨if_pos h, if_pos h⟩
  · exact ⟨if_neg h, if_neg h⟩

/-- Settles O42: the rounding by the neighbours of a value on the format's grid; quotients and roots by enough digits and a sticky bit. -/
theorem roundingResults : Obligations.RoundingResults := by
  refine ⟨fun f hf rm sat hrm => ⟨fun neg E T hT hE hfin => ?_, fun neg m e hm => ?_, fun neg e => ?_, rfl, fun neg => rfl, fun v bad => rfl,
    fun s m e t n g hm hn => ?_, fun m e hm => ?_⟩, rfl, fun rm a b c => ⟨fun x y ha hb => ⟨fadd_exact rm ha hb, fmul_exact ha hb,
      fun z hc => ffma_exact rm ha hb hc⟩, arithmetic_nan rm, fun s t => ⟨rfl, rfl⟩, fun s x hb => arithmetic_inf_finite rm s hb⟩⟩
  · exact decode_value f neg E T hE hT (finiteFields_of_mem f hf E T hT hfin)
  · exact f.encode_rounded (sound_of_mem f hf) neg rm hrm sat hm (.inl rfl)
  · rfl
  · exact f.divide_rounded (sound_of_mem f hf) s t m n e g rm hrm sat hm hn
  · exact f.rsqrt_rounded (sound_of_mem f hf) m e rm hrm sat hm

end Sys2Proof.Machine
end

section
/-! PROOFS. The core cycle: register writes that fall due, the cycle itself, the choice of its owner (O47). -/

namespace Sys2Proof.Machine

/-! ### What falls due in a core cycle (R263, R206, R70, R127, R269) -/

theorem execSlotTableUpdate_takes (s : State) (core : Nat) (h : ((s.core core).cycle + 1).toNat % 64 = 0) (tab : List (BitVec 64))
    (ht : (s.core core).slotTableNext = some tab) :
    execSlotTableUpdate core s = .next (s.setCore core { s.core core with slotTable := tab, slotTableNext := none }) := by
  unfold execSlotTableUpdate
  rw [if_pos h, State.updCore, Core.takeTable, ht]

/-- A write to v<r> leaves the governed bytes of the data, the tag of the result, and every other register (R206). -/
theorem VState.write_vreg (v : VState) (mask : BitVec 64) (p : Bool) (r : Nat) (data : Line) (hr : r < 1024) :
    (∀ i, i < 64 → lineByte ((v.write (.vreg r mask data) p).reg r).1 i = if mask.getLsbD i then lineByte data i else lineByte (v.reg r).1 i) ∧
    ((v.write (.vreg r mask data) p).reg r).2 = (p || (mask != BitVec.allOnes 64 && (v.reg r).2)) ∧
    (∀ x, x < 1024 → x ≠ r → (v.write (.vreg r mask data) p).reg x = v.reg x) ∧
    ∀ x, (v.write (.vreg r mask data) p).pred x = v.pred x := by
  refine ⟨fun i hi => ?_, ?_, fun x hx hne => ?_, fun x => rfl⟩
  · change lineByte (SMap.getD (SMap.put v.regs r _) r 0) i = _
    rw [SMap.getD_put_self, lineByte_mergeLine _ _ _ _ hi]
    rfl
  · exact (getLsbD_setBitAt _ _ _ _ hr).trans (if_pos rfl)
  · change (SMap.getD (SMap.put v.regs r _) x 0, (setBitAt v.poison r _).getLsbD x) = _
    rw [SMap.getD_put_ne _ _ _ hne, getLsbD_setBitAt _ _ _ _ hx, if_neg hne]
    rfl

theorem VState.write_pred (v : VState) (mask : BitVec 64) (p : Bool) (r : Nat) (data : Word) (h0 : 0 < r) (hr : r < 8) :
    (∀ i, i < 64 → ((v.write (.pred r mask data) p).pred r).1.getLsbD i = if mask.getLsbD i then data.getLsbD i else (v.pred r).1.getLsbD i) ∧
    ((v.write (.pred r mask data) p).pred r).2 = (p || (mask != BitVec.allOnes 64 && (v.pred r).2)) ∧
    (∀ x, x < 8 → x ≠ r → (v.write (.pred r mask data) p).pred x = v.pred x) ∧
    ∀ x, (v.write (.pred r mask data) p).reg x = v.reg x := by
  have hold : v.pred r = (SMap.getD v.preds r (BitVec.allOnes 64), v.qpoison.getLsbD r) := if_neg h0.ne'
  refine ⟨fun i hi => ?_, ?_, fun x hx hne => ?_, fun x => rfl⟩
  · rw [hold, VState.pred, if_neg h0.ne']
    change ((SMap.getD (SMap.put v.preds r _) r (BitVec.allOnes 64)).getLsbD i) = _
    rw [SMap.getD_put_self]
    rw [BitVec.getLsbD_or, BitVec.getLsbD_and, BitVec.getLsbD_and, BitVec.getLsbD_not]
    cases mask.getLsbD i <;> simp [hi]
  · rw [hold, VState.pred, if_neg h0.ne']
    exact (getLsbD_setBitAt _ _ _ _ hr).trans (if_pos rfl)
  · unfold VState.pred
    split
    · rfl
    · change (SMap.getD (SMap.put v.preds r _) x _, (setBitAt v.qpoison r _).getLsbD x) = _
      rw [SMap.getD_put_ne _ _ _ hne, getLsbD_setBitAt _ _ _ _ hx, if_neg hne]

theorem VState.write_clearV (v : VState) (p : Bool) (r : Nat) (hr : r < 1024) :
    (v.write (.clearV r) p).reg r = ((v.reg r).1, false) ∧ (∀ x, x < 1024 → x ≠ r → (v.write (.clearV r) p).reg x = v.reg x) ∧
    ∀ x, (v.write (.clearV r) p).pred x = v.pred x := by
  have tag : ∀ x, x < 1024 → (v.write (.clearV r) p).reg x = ((v.reg x).1, if x = r then false else (v.reg x).2) := fun x hx =>
    congrArg (Prod.mk _) (getLsbD_setBitAt _ _ _ _ hx)
  exact ⟨by rw [tag r hr, if_pos rfl], fun x hx hne => by rw [tag x hx, if_neg hne], fun x => rfl⟩

theorem VState.write_clearQ (v : VState) (p : Bool) (r : Nat) (h0 : 0 < r) (hr : r < 8) :
    (v.write (.clearQ r) p).pred r = ((v.pred r).1, false) ∧ (∀ x, x < 8 → x ≠ r → (v.write (.clearQ r) p).pred x = v.pred x) ∧
    ∀ x, (v.write (.clearQ r) p).reg x = v.reg x := by
  have tag : ∀ x, x < 8 → x ≠ 0 → (v.write (.clearQ r) p).pred x = ((v.pred x).1, if x = r then false else (v.pred x).2) := fun x hx hx0 => by
    unfold VState.pred
    rw [if_neg hx0, if_neg hx0]
    exact congrArg (Prod.mk _) (getLsbD_setBitAt _ _ _ _ hx)
  refine ⟨by rw [tag r hr h0.ne', if_pos rfl], fun x hx hne => ?_, fun x => rfl⟩
  by_cases hx0 : x = 0
  · subst hx0
    rfl
  · rw [tag x hx hx0, if_neg hne]

/-- Takes a due result out of the list into the register file. -/
def Context.settleOne (c : Context) (w : RegWrite) : Context := c.applyBe w.idx (fun b => { b with vec := b.vec.write w.target w.poison })

/-- The context with the results on their way that are given. -/
def Context.withJournal (c : Context) (l : List RegWrite) : Context := { c with fl := { c.fl with journal := l } }

/-- A result is due and its bundle committed. -/
def Context.fallsDue (c : Context) (w : RegWrite) : Bool := decide (w.due < c.ctxcyc ∧ w.idx < c.committedBelow)

theorem Context.settleRegs_eq (c : Context) : c.settleRegs = ((c.fl.journal.takeWhile c.fallsDue).foldl Context.settleOne c).withJournal
    (((c.fl.journal.takeWhile c.fallsDue).foldl Context.settleOne c).fl.journal.drop (c.fl.journal.takeWhile c.fallsDue).length) := rfl

theorem Context.foldl_settleOne_withJournal (ws : List RegWrite) : ∀ (c : Context) (l : List RegWrite),
    ws.foldl Context.settleOne (c.withJournal l) = (ws.foldl Context.settleOne c).withJournal l := by
  induction ws with
  | nil => exact fun c l => rfl
  | cons w ws ih => exact fun c l => ih (c.settleOne w) l

theorem Context.foldl_settleOne_journal (ws : List RegWrite) : ∀ c : Context, (ws.foldl Context.settleOne c).fl.journal = c.fl.journal := by
  induction ws with
  | nil => exact fun c => rfl
  | cons w ws ih => exact fun c => ih (c.settleOne w)

theorem Context.settleRegs_cons (c : Context) {w : RegWrite} {rest : List RegWrite} (hj : c.fl.journal = w :: rest) (hw : c.fallsDue w = true) :
    c.settleRegs = ((c.settleOne w).withJournal rest).settleRegs := by
  have hl : c.fl.journal.takeWhile c.fallsDue = w :: rest.takeWhile c.fallsDue := by rw [hj, List.takeWhile_cons_of_pos hw]
  have hr : ((c.settleOne w).withJournal rest).fl.journal.takeWhile ((c.settleOne w).withJournal rest).fallsDue = rest.takeWhile c.fallsDue := rfl
  rw [c.settleRegs_eq, Context.settleRegs_eq ((c.settleOne w).withJournal rest), hl, hr, List.foldl_cons,
    Context.foldl_settleOne_withJournal, Context.foldl_settleOne_journal]
  change _ = (List.foldl Context.settleOne (c.settleOne w) _).withJournal (rest.drop _)
  rw [show (c.settleOne w).fl.journal = w :: rest from hj]
  rfl

theorem Context.settleRegs_of_none (c : Context) (h : c.fl.journal.takeWhile c.fallsDue = []) : c.settleRegs = c := by
  rw [c.settleRegs_eq, h]
  rfl

theorem Context.settleFmt_of_none (c : Context) {p : PendingFmt} {rest : List PendingFmt} (hp : c.fl.pendingFmt = p :: rest)
    (h : ¬ (p.due ≤ c.ctxcyc ∧ p.idx < c.committedBelow)) : c.settleFmt = c := by
  unfold Context.settleFmt
  rw [hp, List.takeWhile_cons_of_neg (by simpa using h)]
  change { c with fl := { c.fl with pendingFmt := c.fl.pendingFmt } } = c
  rfl

theorem Context.settleFmt_one (c : Context) {p : PendingFmt} (hp : c.fl.pendingFmt = [p])
    (h : p.due ≤ c.ctxcyc ∧ p.idx < c.committedBelow) : c.settleFmt.be = { c.be with fmt := p.fmt } ∧
    c.settleFmt.fl = { c.fl with pendingFmt := [] } ∧ c.settleFmt.thread = c.thread := by
  unfold Context.settleFmt
  rw [hp, List.takeWhile_cons_of_pos (by simpa using h)]
  refine ⟨rfl, ?_, rfl⟩
  change { c.fl with pendingFmt := c.fl.pendingFmt.drop 1 } = _
  rw [hp]
  rfl

theorem State.updCtx_of {s : State} {k : Nat} {c : Context} (h : s.ctx k = some c) (g : Context → Context) :
    s.updCtx k g = s.setCtx k (g c) := by
  rw [State.updCtx, h]

theorem atCtx_of {s : State} {k : Nat} {c : Context} (h : s.ctx k = some c) (f : Context → State) : atCtx s k f = .next (f c) := by
  rw [atCtx, h]

theorem atCore_of {s : State} {k : Nat} {c : Context} (h : s.ctx k = some c) (hr : s.onRetired c = false) (f : Context → State) :
    atCore s k f = .next (f c) := by
  rw [atCore, atCtx_of h, hr]
  rfl

/-! ### The cycle (R264, R27) -/

theorem Core.takeTable_cycle (r : Core) : r.takeTable.cycle = r.cycle := by
  unfold Core.takeTable
  split <;> rfl

theorem Core.advance_cycle (r : Core) : r.advance.cycle = r.cycle + 1 := by
  unfold Core.advance
  dsimp only
  split
  · rw [Core.takeTable_cycle]
  · rfl

theorem Core.takeTable_frzcnt (r : Core) : r.takeTable.frzcnt = r.frzcnt := by
  unfold Core.takeTable
  split <;> rfl

theorem Core.advance_frzcnt (r : Core) : r.advance.frzcnt = r.frzcnt := by
  unfold Core.advance
  dsimp only
  split
  · rw [Core.takeTable_frzcnt]
  · rfl

/-- The limiter's comparison (R27). -/
theorem Core.freezes_iff (r : Core) (w : Nat) : r.freezes w = true ↔ 0 < r.weights.sum ∧ r.plim.toNat % 2 ^ 20 < r.weights.sum + w := by
  unfold Core.freezes
  rw [← List.sum_eq_foldl, decide_eq_true_eq]

theorem endCycle_freeze_frzcnt (r : Core) (w : Nat) (gen : Bool) :
    (r.endCycle w true gen).frzcnt.toNat = min (r.frzcnt.toNat + 1) (2 ^ 48 - 1) := by
  change (BitVec.ofNat 48 (sat48 (r.frzcnt.toNat + 1))).toNat = _
  unfold sat48
  rw [BitVec.toNat_ofNat]
  omega

/-! ### Whose cycle it is (R264, R18, R353) -/

theorem Context.not_isHeld (c : Context) : (!c.isHeld) = true ↔ c.hold.wait = none := by
  unfold Context.isHeld
  cases c.hold.wait <;> simp

theorem Context.busyIssue_iff (c : Context) : c.busyIssue = true ↔ ¬ (c.queue = [] ∧ c.fl.issued = []) := by
  unfold Context.busyIssue
  rcases c.queue with _ | ⟨q, qs⟩
  · rcases c.fl.issued with _ | ⟨i, is⟩ <;> simp
  · simp

theorem State.entryOwner_of_bound {s : State} {core k : Nat} {c : Context} (he : (s.core core).entry ((s.core core).cycle.toNat % 64) < 4)
    (hb : (s.core core).bound ((s.core core).entry ((s.core core).cycle.toNat % 64)) = true)
    (hk : s.inSlot core ((s.core core).entry ((s.core core).cycle.toNat % 64)) = some k) (hc : s.ctx k = some c)
    (hm : c.mayIssue = true) (hh : c.hold.wait = none) : s.entryOwner core = some k := by
  unfold State.entryOwner
  dsimp only
  rw [if_pos he, if_pos hb, hk]
  dsimp only
  rw [hc]
  dsimp only
  rw [hm, c.not_isHeld.mpr hh]
  rfl

theorem State.entryOwner_cases {s : State} {core k : Nat} (h : s.entryOwner core = some k) :
    ((s.core core).entry ((s.core core).cycle.toNat % 64) < 4 ∧
        (s.core core).bound ((s.core core).entry ((s.core core).cycle.toNat % 64)) = true ∧
        s.inSlot core ((s.core core).entry ((s.core core).cycle.toNat % 64)) = some k ∨
      (s.core core).entry ((s.core core).cycle.toNat % 64) = 4 ∧ k = firmwareKey core) ∧
    ∃ c, s.ctx k = some c ∧ c.mayIssue = true ∧ c.hold.wait = none := by
  unfold State.entryOwner at h
  dsimp only at h
  split at h
  next he =>
    split at h
    next hb =>
      split at h
      next k' hk =>
        split at h
        next c hc =>
          split at h
          next hm =>
            obtain rfl := Option.some.inj h
            rw [Bool.and_eq_true, c.not_isHeld] at hm
            exact ⟨.inl ⟨he, hb, hk⟩, c, hc, hm⟩
          next => cases h
        next => cases h
      next => cases h
    next => cases h
  next =>
    split at h
    next he =>
      split at h
      next c hc =>
        split at h
        next hm =>
          obtain rfl := Option.some.inj h
          rw [Bool.and_eq_true, Bool.and_eq_true, c.not_isHeld] at hm
          exact ⟨.inr ⟨he, rfl⟩, c, hc, hm.1⟩
        next => cases h
      next => cases h
    next => cases h

/-- The slots in the order in which the flex cycle asks them (R353). -/
def flexOrder (last : Nat) : List Nat := (List.range 4).map (fun j => (last + 1 + j) % 4)

theorem flexOrder_mod (last : Nat) : flexOrder last = flexOrder (last % 4) :=
  List.map_congr_left fun j _ => by omega

theorem mem_flexOrder (last slot : Nat) : slot ∈ flexOrder last ↔ slot < 4 := by
  simp only [flexOrder, List.mem_map, List.mem_range]
  constructor
  · rintro ⟨j, hj, rfl⟩
    exact Nat.mod_lt _ (by omega)
  · intro h
    exact ⟨(slot + 3 - last % 4) % 4, Nat.mod_lt _ (by omega), by omega⟩

theorem flexOrder_pairwise (last : Nat) : (flexOrder last).Pairwise (fun a b => (a + 3 - last % 4) % 4 < (b + 3 - last % 4) % 4) := by
  rw [flexOrder_mod]
  have h : last % 4 < 4 := Nat.mod_lt _ (by omega)
  generalize last % 4 = l at h
  interval_cases l <;> decide

/-- The candidate of a slot. -/
def State.flexCandidate (s : State) (core slot : Nat) : Option (Nat × Nat × Int) :=
  match s.inSlot core slot with
  | none => none
  | some k => match s.ctx k with
    | none => none
    | some c => if c.mayIssue && !c.isHeld && c.busyIssue then some (slot, k, c.sch.prio) else none

theorem State.flexCandidates_eq (s : State) (core : Nat) :
    s.flexCandidates core = (flexOrder (s.core core).flexLast).filterMap (s.flexCandidate core) := rfl

theorem State.flexCandidate_iff (s : State) (core slot : Nat) (x : Nat × Nat × Int) : s.flexCandidate core slot = some x ↔
    x.1 = slot ∧ s.inSlot core slot = some x.2.1 ∧ ∃ c, s.ctx x.2.1 = some c ∧ c.mayIssue = true ∧
      c.hold.wait = none ∧ ¬ (c.queue = [] ∧ c.fl.issued = []) ∧ x.2.2 = c.sch.prio := by
  obtain ⟨y, k, p⟩ := x
  unfold State.flexCandidate
  cases hk : s.inSlot core slot with
  | none => simp
  | some j =>
    dsimp only
    cases hc : s.ctx j with
    | none =>
      refine ⟨(fun h => nomatch h), ?_⟩
      rintro ⟨-, hj, c, hc', -⟩
      cases Option.some.inj hj
      exact nomatch hc.symm.trans hc'
    | some c =>
      dsimp only
      constructor
      · intro h
        split at h
        next hm =>
          cases h
          rw [Bool.and_eq_true, Bool.and_eq_true, c.not_isHeld, c.busyIssue_iff] at hm
          exact ⟨rfl, rfl, c, hc, hm.1.1, hm.1.2, hm.2, rfl⟩
        next => cases h
      · rintro ⟨rfl, hj, d, hd, hm, hh, hq, rfl⟩
        cases Option.some.inj hj
        cases hc.symm.trans hd
        rw [hm, c.not_isHeld.mpr hh, c.busyIssue_iff.mpr hq]
        rfl

theorem State.mem_flexCandidates (s : State) (core : Nat) (x : Nat × Nat × Int) : x ∈ s.flexCandidates core ↔
    x.1 < 4 ∧ s.inSlot core x.1 = some x.2.1 ∧ ∃ c, s.ctx x.2.1 = some c ∧ c.mayIssue = true ∧
      c.hold.wait = none ∧ ¬ (c.queue = [] ∧ c.fl.issued = []) ∧ x.2.2 = c.sch.prio := by
  rw [s.flexCandidates_eq, List.mem_filterMap]
  constructor
  · rintro ⟨slot, hslot, hx⟩
    obtain ⟨rfl, hrest⟩ := (s.flexCandidate_iff core slot x).mp hx
    exact ⟨(mem_flexOrder _ _).mp hslot, hrest⟩
  · rintro ⟨hlt, hrest⟩
    exact ⟨x.1, (mem_flexOrder _ _).mpr hlt, (s.flexCandidate_iff core x.1 x).mpr ⟨rfl, hrest⟩⟩

theorem State.flexCandidates_pairwise (s : State) (core : Nat) : (s.flexCandidates core).Pairwise
    (fun a b => (a.1 + 3 - (s.core core).flexLast % 4) % 4 < (b.1 + 3 - (s.core core).flexLast % 4) % 4) := by
  rw [s.flexCandidates_eq]
  refine (flexOrder_pairwise _).filterMap _ fun a a' h b hb b' hb' => ?_
  obtain ⟨rfl, -⟩ := (s.flexCandidate_iff core a b).mp hb
  obtain ⟨rfl, -⟩ := (s.flexCandidate_iff core a' b').mp hb'
  exact h

/-! The order by priority is stable. -/

theorem insertByPrio_perm (x : Nat × Nat × Int) (l : List (Nat × Nat × Int)) : (insertByPrio x l).Perm (x :: l) := by
  induction l with
  | nil => exact .refl _
  | cons y rest ih =>
    unfold insertByPrio
    split
    · exact .refl _
    · exact (ih.cons y).trans (.swap ..)

theorem insertByPrio_pairwise (x : Nat × Nat × Int) {l : List (Nat × Nat × Int)} (h : l.Pairwise (fun a b => b.2.2 ≤ a.2.2)) :
    (insertByPrio x l).Pairwise (fun a b => b.2.2 ≤ a.2.2) := by
  induction l with
  | nil => exact List.pairwise_singleton _ _
  | cons y rest ih =>
    obtain ⟨hy, hrest⟩ := List.pairwise_cons.mp h
    unfold insertByPrio
    split
    next hlt =>
      refine List.pairwise_cons.mpr ⟨fun z hz => ?_, h⟩
      rcases List.mem_cons.mp hz with rfl | hz
      · exact hlt.le
      · exact (hy z hz).trans hlt.le
    next hge =>
      refine List.pairwise_cons.mpr ⟨fun z hz => ?_, ih hrest⟩
      rcases List.mem_cons.mp ((insertByPrio_perm x rest).mem_iff.mp hz) with rfl | hz
      · exact not_lt.mp hge
      · exact hy z hz

/-- The new element stands after those of its own priority. -/
theorem insertByPrio_filter (x : Nat × Nat × Int) (p : Int) {l : List (Nat × Nat × Int)} (h : l.Pairwise (fun a b => b.2.2 ≤ a.2.2)) :
    (insertByPrio x l).filter (fun y => decide (y.2.2 = p)) = (l ++ [x]).filter (fun y => decide (y.2.2 = p)) := by
  induction l with
  | nil => rfl
  | cons y rest ih =>
    obtain ⟨hy, hrest⟩ := List.pairwise_cons.mp h
    unfold insertByPrio
    split
    next hlt =>
      by_cases hp : x.2.2 = p
      · have hnone : (y :: rest).filter (fun z => decide (z.2.2 = p)) = [] := List.filter_eq_nil_iff.mpr fun z hz => by
          have hz' : z.2.2 ≤ y.2.2 := by
            rcases List.mem_cons.mp hz with rfl | hz
            · exact le_rfl
            · exact hy z hz
          simpa using (hz'.trans_lt (hp ▸ hlt)).ne
        rw [List.filter_append, hnone, List.filter_cons, hnone]
        simp [hp]
      · simp [List.filter_append, List.filter_cons, hp]
    next =>
      rw [List.cons_append, List.filter_cons, List.filter_cons, ih hrest]

theorem foldl_insertByPrio (l : List (Nat × Nat × Int)) : ∀ acc : List (Nat × Nat × Int), acc.Pairwise (fun a b => b.2.2 ≤ a.2.2) →
    let r := l.foldl (fun acc x => insertByPrio x acc) acc
    r.Perm (acc ++ l) ∧ r.Pairwise (fun a b => b.2.2 ≤ a.2.2) ∧
      ∀ p, r.filter (fun x => decide (x.2.2 = p)) = (acc ++ l).filter (fun x => decide (x.2.2 = p)) := by
  induction l with
  | nil =>
    intro acc h
    rw [List.append_nil]
    exact ⟨.refl _, h, fun p => rfl⟩
  | cons x l ih =>
    intro acc h
    obtain ⟨hperm, hsorted, hfilter⟩ := ih (insertByPrio x acc) (insertByPrio_pairwise x h)
    refine ⟨?_, hsorted, fun p => ?_⟩
    · exact (hperm.trans ((insertByPrio_perm x acc).append_right l)).trans List.perm_middle.symm
    · rw [List.foldl_cons, hfilter p, List.filter_append, insertByPrio_filter x p h, ← List.filter_append, List.append_assoc]
      rfl

theorem sortByPrio_spec (l : List (Nat × Nat × Int)) : (sortByPrio l).Perm l ∧ (sortByPrio l).Pairwise (fun a b => b.2.2 ≤ a.2.2) ∧
    ∀ p, (sortByPrio l).filter (fun x => decide (x.2.2 = p)) = l.filter (fun x => decide (x.2.2 = p)) :=
  foldl_insertByPrio l [] .nil

/-- The state after the flex cycle has gone to a context. -/
def State.flexWon (s : State) (core slot k : Nat) (t : State) : State :=
  match s.ctx k with
  | some c => (t.updCore core (fun r => { r with flexLast := slot })).updDie (dieOfCore core) (fun d => d.boostCycle c.id.tenant c.id.gang)
  | none => t

theorem flexGrant_cons (core : Nat) (s : State) (slot k : Nat) (p : Int) (rest : List (Nat × Nat × Int)) :
    flexGrant core s ((slot, k, p) :: rest) = match attempt s k with
      | .idle => (s.flexWon core slot k s, 0, none)
      | .held cause tw => flexGrant core (s.assertHold k cause tw) rest
      | .cycle t w => (s.flexWon core slot k t, w, some k) := rfl

theorem State.flexWon_contexts (s : State) (core slot k : Nat) (t : State) : (s.flexWon core slot k t).contexts = t.contexts := by
  unfold State.flexWon
  split <;> rfl

theorem State.flexWon_mem' (s : State) (core slot k : Nat) (t : State) : (s.flexWon core slot k t).mem = t.mem := by
  unfold State.flexWon
  split <;> rfl

theorem State.flexWon_flexLast {s : State} (core slot : Nat) {k : Nat} {c : Context} (t : State) (h : s.ctx k = some c) :
    ((s.flexWon core slot k t).core core).flexLast = slot := by
  unfold State.flexWon
  rw [h]
  simp

/-! ### The settled statement -/

theorem Context.spinOver_of {c : Context} {since now : Nat} (hw : c.wait = .spin since) (h : since + 64 ≤ now ∨ c.thread.uliAsked ≠ 0) :
    c.spinOver now = true := by
  unfold Context.spinOver
  rw [hw]
  dsimp only
  rcases h with h | h
  · rw [decide_eq_true h, Bool.or_true, Bool.true_or]
  · rw [bne_iff_ne.mpr h, Bool.or_true]

/-- The clauses of a result, a format, a spin and a spin wait at a context. -/
theorem dueAtContext (s : State) (k : Nat) (c : Context) (hc : s.ctx k = some c) :
    let now := (s.core c.coreKey).cycle.toNat
    let falls (w : RegWrite) : Prop := w.due < c.ctxcyc ∧ w.idx < c.committedBelow
    (∀ w rest, c.fl.journal = w :: rest → falls w → ∃ d : Context, d.fl.journal = rest ∧
      d.be = { c.be with vec := c.be.vec.write w.target w.poison } ∧ d.thread = c.thread ∧ d.ctxcyc = c.ctxcyc ∧ d.fl.issued = c.fl.issued ∧
      exec (.vectorResultDue k) s = .next (s.setCtx k d.settleRegs) ∧ (rest = [] → d.settleRegs = d)) ∧
    (∀ w rest, c.fl.journal = w :: rest → ¬ falls w → exec (.vectorResultDue k) s = .next (s.setCtx k c)) ∧
    (∀ p, c.fl.pendingFmt = [p] → p.due ≤ c.ctxcyc → p.idx < c.committedBelow → ∃ c' t, exec (.fmtTakesEffect k) s = .next t ∧
      t.ctx k = some c' ∧ c'.be = { c.be with fmt := p.fmt } ∧ c'.fl = { c.fl with pendingFmt := [] } ∧ c'.thread = c.thread) ∧
    (∀ p rest, c.fl.pendingFmt = p :: rest → ¬ (p.due ≤ c.ctxcyc ∧ p.idx < c.committedBelow) →
      exec (.fmtTakesEffect k) s = .next (s.setCtx k c)) ∧
    (∀ since, c.wait = .spin since → since + 64 ≤ now ∨ c.thread.uliAsked ≠ 0 → c.runs = true → c.stopped = false → s.onRetired c = false →
      exec (.spinTimeout k) s = .next (s.setCtx k { c with wait := .none, thread := { c.thread with
        loops := c.thread.nextLoops (c.thread.pc + 4), pc := c.thread.nextPc (c.thread.pc + 4)
        boundary := (c.thread.finish (c.thread.pc + 4)).boundary } })) ∧
    ((s.core c.coreKey).spinlim.toNat < max c.sch.spinCount c.sch.genSpin →
      exec (.spinLimitReached k) s = .next (s.setCtx k { c with sch := { c.sch with spinning := true } })) ∧
    (max c.sch.spinCount c.sch.genSpin ≤ (s.core c.coreKey).spinlim.toNat → exec (.spinLimitReached k) s = .next (s.setCtx k c)) := by
  intro now falls
  have hres : exec (.vectorResultDue k) s = .next (s.setCtx k c.settleRegs) := by
    rw [exec_vectorResultDue, execVectorResultDue, State.updCtx_of hc]
  have hfmt : exec (.fmtTakesEffect k) s = .next (s.setCtx k c.settleFmt) := by
    rw [exec_fmtTakesEffect, execFmtTakesEffect, State.updCtx_of hc]
  have hlim : exec (.spinLimitReached k) s = .next (s.setCtx k (if (s.core c.coreKey).spinlim.toNat < max c.sch.spinCount c.sch.genSpin
      then { c with sch := { c.sch with spinning := true } } else c)) := by
    rw [exec_spinLimitReached, execSpinLimitReached, State.updCtx_of hc]
  refine ⟨fun w rest hj hw => ?_, fun w rest hj hw => ?_, fun p hp hdue hidx => ?_, fun p rest hp hdue => ?_,
    fun since hspin hover hruns hstop hret => ?_, fun h => ?_, fun h => ?_⟩
  · refine ⟨(c.settleOne w).withJournal rest, rfl, rfl, rfl, rfl, rfl, ?_, fun hrest => ?_⟩
    · rw [hres, c.settleRegs_cons hj (decide_eq_true hw)]
    · subst hrest
      exact Context.settleRegs_of_none _ rfl
  · rw [hres, c.settleRegs_of_none (by
      have hnot : ¬ c.fallsDue w = true := fun h => hw (of_decide_eq_true h)
      rw [hj, List.takeWhile_cons_of_neg hnot])]
  · obtain ⟨hbe, hfl, hthread⟩ := c.settleFmt_one hp ⟨hdue, hidx⟩
    exact ⟨c.settleFmt, _, hfmt, State.ctx_setCtx_self _ _ _, hbe, hfl, hthread⟩
  · rw [hfmt, c.settleFmt_of_none hp hdue]
  · have hend := Context.spinOver_of hspin hover
    rw [exec_spinTimeout, execSpinTimeout, atCore_of hc hret, hruns, hstop, hend]
    rfl
  · rw [hlim, if_pos h]
  · rw [hlim, if_neg (not_lt.mpr h)]

/-- What falls due in a context's cycle, where one had it. -/
def State.spentMoves (v : State) (spent : Option Nat) : List Move :=
  match spent with
  | some k => dueMoves v k
  | none => []

/-- What follows a core cycle that is no freeze cycle. -/
def cycleMoves (v : State) (core : Nat) (miss : BitVec 5) (late gen : Bool) (spent : Option Nat) (now : Option (Nat × Nat)) : List Move :=
  (if gen then [.gen core miss late] else []) ++ v.spentMoves spent ++ v.mtxMoves core ++ v.addwMoves now ++ counterMoves v core

theorem cycleMoves_spent (v : State) (core : Nat) (miss : BitVec 5) (late gen : Bool) (spent : Option Nat) (now : Option (Nat × Nat)) {m : Move}
    (h : m ∈ v.spentMoves spent) : m ∈ cycleMoves v core miss late gen spent now :=
  List.mem_append_left _ (List.mem_append_left _ (List.mem_append_left _ (List.mem_append_right _ h)))

theorem cycleMoves_engines (v : State) (core : Nat) (miss : BitVec 5) (late gen : Bool) (spent : Option Nat) (now : Option (Nat × Nat)) {m : Move}
    (h : m ∈ v.mtxMoves core ++ v.addwMoves now) : m ∈ cycleMoves v core miss late gen spent now := by
  rw [cycleMoves, List.append_assoc _ (v.mtxMoves core)]
  exact List.mem_append_left _ (List.mem_append_right _ h)

theorem cycleMoves_counters (v : State) (core : Nat) (miss : BitVec 5) (late gen : Bool) (spent : Option Nat) (now : Option (Nat × Nat)) {m : Move}
    (h : m ∈ counterMoves v core) : m ∈ cycleMoves v core miss late gen spent now :=
  List.mem_append_right _ h

theorem cycleMoves_gen (v : State) (core : Nat) (miss : BitVec 5) (late : Bool) (spent : Option Nat) (now : Option (Nat × Nat)) {gen : Bool}
    (h : gen = true) : ∃ late', (cycleMoves v core miss late gen spent now).head? = some (.gen core miss late') := by
  subst h
  exact ⟨late, rfl⟩

/-- The state with other moves to follow. -/
def State.withAgenda (s : State) (moves : List Move) : State := { s with agenda := moves }

section
variable (s : State) (core : Nat) (env : CycleEnv)

/-- The state in which the issue stage of a core cycle begins. -/
def State.cycleStart : State := (s.updCore core Core.advance).countCycle core

/-- The same with the holds tested again. -/
def State.cycleIssue : State := ((s.cycleStart core).coreKeys core).foldl State.retestHold (s.cycleStart core)

/-- The weight of a core cycle (R26, R27). -/
def State.cycleWeight : Nat :=
  let s1 := s.cycleIssue core
  let issue := issueStage s1 core
  issue.2.1 + (if (nextThread (s.cycleStart core) core env.miss).isSome then 1 else 0) + arrayWork (s1.mtxRunning core) +
    (if (s1.mtxPlan issue.1 core (contextCycle s1 issue.1 issue.2.2)).conv then 10 else 0) + 2 * (s1.movers core env).length

/-- The state after a core cycle that is no freeze cycle. -/
def State.cycleEnd : State :=
  let s1 := s.cycleIssue core
  let issue := issueStage s1 core
  let now := contextCycle s1 issue.1 issue.2.2
  let gen := (nextThread (s.cycleStart core) core env.miss).isSome
  let u := (issue.1.countHolds core).updCore core
    (fun r => { (r.endCycle (s.cycleWeight core env) false gen).moveLines (s1.movers core env) with ctxNow := now })
  (u.mtxCycle core (s1.mtxRunning core) (s1.mtxPlan issue.1 core now)).writeLogs core

variable {s core env} (hcore : core < cobaltCores) (hret : (s.core core).retired = false)
include hcore hret

theorem execCoreCycle_freezes (h : ((s.cycleStart core).core core).freezes (s.cycleWeight core env) = true) :
    execCoreCycle core env s = .next (((s.cycleStart core).updCore core (fun r => r.endCycle 0 true false)).withAgenda
      (counterMoves ((s.cycleStart core).updCore core (fun r => r.endCycle 0 true false)) core ++ s.agenda)) := by
  have hc : ((s.core core).retired || decide (cobaltCores ≤ core)) = false := by simp [hret, hcore]
  unfold execCoreCycle
  rw [hc]
  exact (if_neg Bool.false_ne_true).trans (if_pos h)

theorem execCoreCycle_runs (h : ((s.cycleStart core).core core).freezes (s.cycleWeight core env) ≠ true) :
    let issue := issueStage (s.cycleIssue core) core
    execCoreCycle core env s = .next ((s.cycleEnd core env).withAgenda (cycleMoves (s.cycleEnd core env) core env.miss
      (Config.freeBool (s.cycleStart core).freeCount (core + 2 ^ 20)) (nextThread (s.cycleStart core) core env.miss).isSome issue.2.2
      (contextCycle (s.cycleIssue core) issue.1 issue.2.2) ++ s.agenda)) := by
  have hc : ((s.core core).retired || decide (cobaltCores ≤ core)) = false := by simp [hret, hcore]
  unfold execCoreCycle
  rw [hc]
  exact (if_neg Bool.false_ne_true).trans (if_neg h)

end

theorem issueStage_of_none {s : State} {core : Nat} (h : s.entryOwner core = none) :
    issueStage s core = flexGrant core s (sortByPrio (s.flexCandidates core)) := by
  unfold issueStage
  rw [h]

theorem issueStage_of_idle {s : State} {core k : Nat} (h : s.entryOwner core = some k) (ha : attempt s k = .idle) :
    issueStage s core = (s, 0, none) := by
  unfold issueStage
  simp only [h, ha]

theorem issueStage_of_held {s : State} {core k cause : Nat} {tw : Bool} (h : s.entryOwner core = some k) (ha : attempt s k = .held cause tw) :
    issueStage s core = flexGrant core (s.assertHold k cause tw) (sortByPrio ((s.assertHold k cause tw).flexCandidates core)) := by
  unfold issueStage
  simp only [h, ha]

theorem issueStage_of_cycle {s t : State} {core k w : Nat} (h : s.entryOwner core = some k) (ha : attempt s k = .cycle t w)
    (hk : k ≠ firmwareKey core) : issueStage s core = (t, w, some k) := by
  unfold issueStage
  simp only [h, ha, if_neg hk]

/-- A flex cycle's attempts, one by one (R264). -/
theorem flexGrant_spec (core : Nat) (s : State) (slot k : Nat) (p : Int) (rest : List (Nat × Nat × Int)) :
    (∀ cause tw, attempt s k = .held cause tw → flexGrant core s ((slot, k, p) :: rest) = flexGrant core (s.assertHold k cause tw) rest) ∧
    (∀ t w, attempt s k = .cycle t w → ∃ u, flexGrant core s ((slot, k, p) :: rest) = (u, w, some k) ∧ u.contexts = t.contexts ∧
      u.mem = t.mem) ∧
    (attempt s k = .idle → ∃ u, flexGrant core s ((slot, k, p) :: rest) = (u, 0, none) ∧ u.contexts = s.contexts ∧ u.mem = s.mem) ∧
    (∀ c, s.ctx k = some c → (∀ cause tw, attempt s k ≠ .held cause tw) →
      ((flexGrant core s ((slot, k, p) :: rest)).1.core core).flexLast = slot) := by
  rw [flexGrant_cons]
  cases ha : attempt s k with
  | idle =>
    exact ⟨(fun _ _ h => nomatch h), (fun _ _ h => nomatch h), fun _ => ⟨_, rfl, s.flexWon_contexts .., s.flexWon_mem' ..⟩,
      fun c hc _ => State.flexWon_flexLast core slot s hc⟩
  | held cause tw =>
    refine ⟨fun _ _ h => ?_, (fun _ _ h => nomatch h), (fun h => nomatch h), fun c _ h => absurd rfl (h cause tw)⟩
    cases h
    rfl
  | cycle t w =>
    refine ⟨(fun _ _ h => nomatch h), fun t' w' h => ?_, (fun h => nomatch h), fun c hc _ => State.flexWon_flexLast core slot t hc⟩
    cases h
    exact ⟨_, rfl, s.flexWon_contexts .., s.flexWon_mem' ..⟩

/-- The retired, the freezing and the running core cycle. -/
theorem coreCycle_cases (s : State) (core : Nat) (env : CycleEnv) :
    let s0 := s.cycleStart core
    let s1 := s.cycleIssue core
    let r := s0.core core
    let issue := issueStage s1 core
    let passes : Prop := 0 < r.weights.sum ∧ r.plim.toNat % 2 ^ 20 < r.weights.sum + s.cycleWeight core env
    ((s.core core).retired = true ∨ 2 ^ 21 ≤ core → exec (.coreCycle core env) s = .next s) ∧
    (core < 2 ^ 21 → (s.core core).retired = false → passes → ∃ t, exec (.coreCycle core env) s = .next t ∧
      (t.core core).cycle = (s.core core).cycle + 1 ∧ (t.core core).frozen = true ∧ (t.core core).genUsed = true ∧
      (t.core core).frzcnt.toNat = min ((s.core core).frzcnt.toNat + 1) (2 ^ 48 - 1) ∧
      (t.core core).weights = (0 :: r.weights).take 63 ∧ t.contexts = s0.contexts ∧ t.mem = s.mem ∧
      t.agenda = counterMoves (s0.updCore core (fun r => r.endCycle 0 true false)) core ++ s.agenda) ∧
    (core < 2 ^ 21 → (s.core core).retired = false → ¬ passes → ∃ t moves,
      exec (.coreCycle core env) s = .next t ∧ t = { s.cycleEnd core env with agenda := moves ++ s.agenda } ∧
      ((nextThread s0 core env.miss).isSome = true → ∃ late, moves.head? = some (.gen core env.miss late)) ∧
      (∀ k, issue.2.2 = some k → ∀ m ∈ dueMoves (s.cycleEnd core env) k, m ∈ moves) ∧
      (∀ m ∈ (s.cycleEnd core env).mtxMoves core ++ (s.cycleEnd core env).addwMoves (contextCycle s1 issue.1 issue.2.2), m ∈ moves) ∧
      ∀ m ∈ counterMoves (s.cycleEnd core env) core, m ∈ moves) := by
  intro s0 s1 r issue passes
  have hr : r = (s.core core).advance := State.core_updCore_self ..
  refine ⟨fun h => ?_, fun hcore hret hpass => ?_, fun hcore hret hpass => ?_⟩
  · have hskip : ((s.core core).retired || decide (cobaltCores ≤ core)) = true := by
      rw [Bool.or_eq_true, decide_eq_true_eq]
      exact h
    rw [exec_coreCycle, execCoreCycle, if_pos hskip]
  · refine ⟨_, execCoreCycle_freezes hcore hret ((Core.freezes_iff _ _).mpr hpass), ?_⟩
    have ht : (s0.updCore core (fun r => r.endCycle 0 true false)).core core = r.endCycle 0 true false := State.core_updCore_self ..
    have hcycle : (r.endCycle 0 true false).cycle = (s.core core).cycle + 1 := (congrArg Core.cycle hr).trans (Core.advance_cycle _)
    have hfrz : (r.endCycle 0 true false).frzcnt.toNat = min ((s.core core).frzcnt.toNat + 1) (2 ^ 48 - 1) := by
      rw [endCycle_freeze_frzcnt, hr, Core.advance_frzcnt]
    refine ⟨(congrArg Core.cycle ht).trans hcycle, congrArg Core.frozen ht, congrArg Core.genUsed ht,
      (congrArg (fun r => r.frzcnt.toNat) ht).trans hfrz, congrArg Core.weights ht, rfl, rfl, rfl⟩
  · refine ⟨_, _, execCoreCycle_runs hcore hret (fun h => hpass ((Core.freezes_iff _ _).mp h)), rfl, fun hgen => ?_, fun k hk m hm => ?_,
      fun m hm => ?_, fun m hm => ?_⟩
    · exact cycleMoves_gen _ _ _ _ _ _ hgen
    · refine cycleMoves_spent _ _ _ _ _ _ _ ?_
      rw [hk]
      exact hm
    · exact cycleMoves_engines _ _ _ _ _ _ _ hm
    · exact cycleMoves_counters _ _ _ _ _ _ _ hm

/-- Settles O47: each clause by the equation of its function; the issue stage by whether its owner's attempt holds. -/
theorem coreCycleResults : Obligations.CoreCycleResults := by
  refine ⟨fun s core => ⟨fun h tab ht => execSlotTableUpdate_takes s core h tab ht, fun h => ?_⟩,
    fun v mask p => ⟨fun r data hr => v.write_vreg mask p r data hr, fun r data h0 hr => v.write_pred mask p r data h0 hr,
      fun r hr => v.write_clearV p r hr, fun r h0 hr => v.write_clearQ p r h0 hr⟩, dueAtContext, coreCycle_cases, fun s core =>
    ⟨fun k c he hb hk hc hm hh => State.entryOwner_of_bound he hb hk hc hm hh, fun k h => State.entryOwner_cases h, issueStage_of_none,
      fun k h => ⟨fun t w ha hk => issueStage_of_cycle h ha hk, fun cause tw ha => issueStage_of_held h ha, issueStage_of_idle h⟩,
      s.mem_flexCandidates core, s.flexCandidates_pairwise core, sortByPrio_spec, flexGrant_spec core s⟩⟩
  rw [exec_slotTableUpdate, execSlotTableUpdate, if_neg h]

end Sys2Proof.Machine
end

section
/-! PROOFS. The die's cycle and the scheduler's decisions (O48). -/

namespace Sys2Proof.Machine

/-- A key's value after every entry is changed in its place. -/
theorem SMap.find_map_values {α β : Type} (g : α → β) (m : SMap α) (k : Nat) :
    SMap.find (m.map (fun p => (p.1, g p.2))) k = (SMap.find m k).map g := by
  induction m with
  | nil => rfl
  | cons p rest ih =>
    obtain ⟨j, a⟩ := p
    rw [List.map_cons]
    unfold SMap.find
    split
    · rfl
    · exact ih

theorem SMap.find_of_mem {α : Type} {m : SMap α} {k : Nat} {a : α} (h : SMap.find m k = some a) : (k, a) ∈ m := by
  induction m with
  | nil => cases h
  | cons p rest ih =>
    obtain ⟨j, b⟩ := p
    unfold SMap.find at h
    split at h
    next hj =>
      cases h
      exact hj ▸ List.mem_cons_self
    next => exact List.mem_cons_of_mem _ (ih h)

/-! ### The records of a die (R267, R268) -/

theorem Die.find_mapRecords (d : Die) (f : FairRec → FairRec) {i : Nat} {r : FairRec} (hr : SMap.find d.fair i = some r) (hv : r.valid = true) :
    SMap.find (d.mapRecords f).fair i = some (f r) := by
  have hmap : (d.mapRecords f).fair = d.fair.map (fun p => (p.1, if p.2.valid then f p.2 else p.2)) :=
    List.map_congr_left fun p _ => by cases p.2.valid <;> rfl
  have hfind := SMap.find_map_values (fun r => if r.valid then f r else r) d.fair i
  rw [hr, Option.map_some, if_pos hv] at hfind
  rw [hmap]
  exact hfind

/-- One arrival, counted (R267). -/
def Die.countArrival (d : Die) (a : BitVec 16 × BitVec 20 × Bool) : Die :=
  if a.2.1 = 0 then d
  else match d.recordOf a.1 a.2.1 with
    | none => d
    | some i => { d with fair := SMap.put d.fair i ((SMap.getD d.fair i FairRec.empty).arrival a.2.2) }

/-- The die with other arrivals to count. -/
def Die.withArrivals (d : Die) (l : List (BitVec 16 × BitVec 20 × Bool)) : Die := { d with arrivals := l }

theorem Die.countArrivals_eq (d : Die) : d.countArrivals = (d.arrivals.foldl Die.countArrival d).withArrivals [] := rfl

theorem Die.countArrival_withArrivals (d : Die) (a : BitVec 16 × BitVec 20 × Bool) (l : List (BitVec 16 × BitVec 20 × Bool)) :
    (d.withArrivals l).countArrival a = (d.countArrival a).withArrivals l := by
  have hrec : (d.withArrivals l).recordOf a.1 a.2.1 = d.recordOf a.1 a.2.1 := rfl
  unfold Die.countArrival
  rw [hrec]
  split
  · rfl
  · split <;> rfl

theorem Die.foldl_withArrivals (l : List (BitVec 16 × BitVec 20 × Bool)) : ∀ (d : Die) (x : List (BitVec 16 × BitVec 20 × Bool)),
    l.foldl Die.countArrival (d.withArrivals x) = (l.foldl Die.countArrival d).withArrivals x := by
  induction l with
  | nil => exact fun d x => rfl
  | cons a l ih =>
    intro d x
    rw [List.foldl_cons, List.foldl_cons, d.countArrival_withArrivals a x]
    exact ih _ x

theorem Die.countArrivals_cons (d : Die) {a : BitVec 16 × BitVec 20 × Bool} {rest : List (BitVec 16 × BitVec 20 × Bool)}
    (h : d.arrivals = a :: rest) : d.countArrivals = ((d.countArrival a).withArrivals rest).countArrivals := by
  rw [d.countArrivals_eq, h, List.foldl_cons, Die.countArrivals_eq]
  change _ = (rest.foldl Die.countArrival ((d.countArrival a).withArrivals rest)).withArrivals []
  rw [Die.foldl_withArrivals]
  rfl

theorem Die.countArrivals_of_nil (d : Die) (h : d.arrivals = []) : d.countArrivals.fair = d.fair := by
  rw [d.countArrivals_eq, h]
  rfl

theorem Die.countArrival_of_zero (d : Die) (ten : BitVec 16) (ok : Bool) : d.countArrival (ten, 0, ok) = d := if_pos rfl

theorem Die.countArrival_of_record (d : Die) {ten : BitVec 16} {gang : BitVec 20} {i : Nat} (ok : Bool) (hg : gang ≠ 0)
    (hr : d.recordOf ten gang = some i) :
    d.countArrival (ten, gang, ok) = { d with fair := SMap.put d.fair i ((SMap.getD d.fair i FairRec.empty).arrival ok) } := by
  unfold Die.countArrival
  rw [if_neg hg, hr]

/-! ### Placements (R14) -/

theorem pickFree_mem {α : Type} (s : State) (tag : Nat) {l : List α} (h : l ≠ []) : ∃ x ∈ l, pickFree s tag l = some x := by
  match l with
  | [x] => exact ⟨x, List.mem_cons_self, rfl⟩
  | x :: y :: l =>
    refine ⟨_, ?_, rfl⟩
    cases hi : (x :: y :: l)[Config.freeNat s.freeCount tag % ((y :: l).length + 1)]? with
    | none => exact List.mem_cons_self
    | some z => exact List.mem_of_getElem? hi

/-- The graphs a die may place a task of. -/
def State.graphsToPlace (s : State) (die : Nat) : List (Nat × Graph) :=
  s.graphs.filter (fun p => decide (pkgOfDie p.2.queueDie = pkgOfDie die) && p.2.started &&
    decide (0 < p.2.left (die % 8)) && !(s.roomCores die p.2).isEmpty)

theorem State.mem_graphsToPlace (s : State) (die : Nat) (p : Nat × Graph) : p ∈ s.graphsToPlace die ↔
    p ∈ s.graphs ∧ pkgOfDie p.2.queueDie = pkgOfDie die ∧ p.2.started = true ∧
      (p.2.share (die % 8)).1 < (p.2.share (die % 8)).2 ∧ s.roomCores die p.2 ≠ [] := by
  unfold State.graphsToPlace Graph.left
  rw [List.mem_filter, Bool.and_eq_true, Bool.and_eq_true, Bool.and_eq_true, decide_eq_true_eq, decide_eq_true_eq, Nat.sub_pos_iff_lt,
    Bool.not_eq_true', List.isEmpty_eq_false_iff]
  tauto

theorem State.placeNext_of_none (s : State) (die : Nat) (h : s.freeEntries die = [] ∨ s.graphsToPlace die = []) : s.placeNext die = s := by
  unfold State.placeNext
  dsimp only
  split
  · rfl
  · rcases h with h | h
    · rename_i hf
      rw [h] at hf
      exact absurd rfl hf
    · change (match pickFree s 2 (s.graphsToPlace die) with | none => s | some (gid, g) => _) = s
      rw [h]
      rfl

/-- The state with the task's context and its gang's record. -/
def State.taskPlaced (s : State) (die gid : Nat) (g : Graph) (index core key : Nat) : State :=
  let c := Context.start (s.identOf key g gid index) (modelPc g.record) core
  let now := (s.core core).cycle.toNat
  let c1 := { c with be := { c.be with nests := s.nestInit (pkgOfDie die) g.record }
                     sch := { c.sch with wantingSince := some now, coldSince := now } }
  (s.setCtx key c1).updDie die (fun d => d.joinGang s ((s.die g.queueDie).part g.part).tenant g.gang)

/-- The state of a placement: the task placed, its index taken from the share. -/
def State.placed (s : State) (die gid : Nat) (g : Graph) (core key : Nat) : State :=
  (s.taskPlaced die gid g (g.share (die % 8)).1 core key).setGraph gid
    { g with shares := SMap.put g.shares (die % 8) ((g.share (die % 8)).1 + 1, (g.share (die % 8)).2) }

theorem State.placeNext_of_some (s : State) (die : Nat) (hf : s.freeEntries die ≠ []) (hp : s.graphsToPlace die ≠ []) :
    ∃ gid g core key, (gid, g) ∈ s.graphsToPlace die ∧ core ∈ s.roomCores die g ∧ key ∈ s.freeEntries die ∧
      s.placeNext die = s.placed die gid g core key := by
  obtain ⟨⟨gid, g⟩, hg, hpick⟩ := pickFree_mem s 2 hp
  obtain ⟨core, hcore, hpickCore⟩ := pickFree_mem s 3 ((s.mem_graphsToPlace die (gid, g)).mp hg).2.2.2.2
  obtain ⟨key, hkey, hpickKey⟩ := pickFree_mem s (4 * (g.share (die % 8)).1 + 1) hf
  refine ⟨gid, g, core, key, hg, hcore, hkey, ?_⟩
  have hplace : s.placeTask die gid g (g.share (die % 8)).1 core = s.taskPlaced die gid g (g.share (die % 8)).1 core key := by
    unfold State.placeTask
    rw [hpickKey]
    rfl
  have hempty : ¬ (s.freeEntries die).isEmpty = true := by simpa using hf
  unfold State.placeNext
  dsimp only
  rw [if_neg hempty]
  change (match pickFree s 2 (s.graphsToPlace die) with | none => s | some (gid, g) => _) = _
  rw [hpick]
  dsimp only
  rw [hpickCore]
  dsimp only
  rw [hplace]
  rfl

/-! ### Steal requests (R14) -/

/-- What the search for the fullest share holds: it is one of those seen, and none seen is fuller. -/
def FullestOf (seen : List (Nat × Nat × Nat)) (b : Option (Nat × Nat)) : Prop :=
  match b with
  | none => seen = []
  | some (v, m) => (∃ r, (v, r) ∈ seen ∧ m = r.2 - r.1) ∧ ∀ p ∈ seen, p.2.2 - p.2.1 ≤ m

/-- One share, compared with the fullest before it. -/
def fuller (b : Option (Nat × Nat)) (p : Nat × Nat × Nat) : Option (Nat × Nat) :=
  match b with
  | some (_, m) => if m < p.2.2 - p.2.1 then some (p.1, p.2.2 - p.2.1) else b
  | none => some (p.1, p.2.2 - p.2.1)

theorem FullestOf.step {seen : List (Nat × Nat × Nat)} {b : Option (Nat × Nat)} (h : FullestOf seen b) (p : Nat × Nat × Nat) :
    FullestOf (seen ++ [p]) (fuller b p) := by
  have hp : (p.1, p.2) ∈ seen ++ [p] := List.mem_append_right _ List.mem_cons_self
  match b with
  | none =>
    have hnil : seen = [] := h
    subst hnil
    refine ⟨⟨p.2, hp, rfl⟩, fun q hq => ?_⟩
    obtain rfl := List.mem_singleton.mp hq
    exact le_rfl
  | some (v, m) =>
    obtain ⟨⟨r, hr, hm⟩, hmax⟩ := h
    unfold fuller
    dsimp only
    split
    next hlt =>
      refine ⟨⟨p.2, hp, rfl⟩, fun q hq => ?_⟩
      rcases List.mem_append.mp hq with hq | hq
      · exact (hmax q hq).trans hlt.le
      · obtain rfl := List.mem_singleton.mp hq
        exact le_rfl
    next hge =>
      refine ⟨⟨r, List.mem_append_left _ hr, hm⟩, fun q hq => ?_⟩
      rcases List.mem_append.mp hq with hq | hq
      · exact hmax q hq
      · obtain rfl := List.mem_singleton.mp hq
        exact not_lt.mp hge

theorem FullestOf.foldl (l : List (Nat × Nat × Nat)) : ∀ {seen : List (Nat × Nat × Nat)} {b : Option (Nat × Nat)}, FullestOf seen b →
    FullestOf (seen ++ l) (l.foldl fuller b) := by
  induction l with
  | nil =>
    intro seen b h
    rwa [List.append_nil]
  | cons p l ih =>
    intro seen b h
    rw [← List.singleton_append, ← List.append_assoc]
    exact ih (h.step p)

theorem Graph.victim_spec {g : Graph} {me v : Nat} (h : g.victim me = some v) : v ≠ me ∧ (me, v) ∉ g.tried ∧
    ∃ r, (v, r) ∈ g.shares ∧ ∀ p ∈ g.shares, p.1 ≠ me → (me, p.1) ∉ g.tried → p.2.2 - p.2.1 ≤ r.2 - r.1 := by
  have hmem : ∀ p : Nat × Nat × Nat, p ∈ g.shares.filter (fun p => decide (p.1 ≠ me) && !g.tried.contains (me, p.1)) ↔
      p ∈ g.shares ∧ p.1 ≠ me ∧ (me, p.1) ∉ g.tried := fun p => by
    simp [List.mem_filter]
  have hfold : g.victim me = ((g.shares.filter (fun p => decide (p.1 ≠ me) && !g.tried.contains (me, p.1))).foldl fuller none).map (·.1) := rfl
  have hspec : FullestOf ([] ++ _) _ :=
    FullestOf.foldl (g.shares.filter (fun p => decide (p.1 ≠ me) && !g.tried.contains (me, p.1))) (b := none) rfl
  rw [hfold] at h
  cases hb : List.foldl fuller none (g.shares.filter (fun p => decide (p.1 ≠ me) && !g.tried.contains (me, p.1))) with
  | none =>
    rw [hb] at h
    cases h
  | some b =>
    rw [hb] at h hspec
    obtain ⟨w, m⟩ := b
    obtain rfl : w = v := Option.some.inj h
    obtain ⟨⟨r, hr, rfl⟩, hmax⟩ := hspec
    rw [List.nil_append] at hr hmax
    obtain ⟨hr, hne, hnot⟩ := (hmem _).mp hr
    exact ⟨hne, hnot, r, hr, fun p hp hpne hpnot => hmax p ((hmem p).mpr ⟨hp, hpne, hpnot⟩)⟩

theorem Graph.thief_cases (g : Graph) (me seq v : Nat) (hpersist : g.persist = false) (hstarted : g.started = true)
    (hshare : (SMap.find g.shares me).isSome = true) (hleft : g.left me = 0) (htried : (me, 8) ∉ g.tried) (hsteals : ∀ x ∈ g.steals, x.thief ≠ me) :
    ((∀ p ∈ g.shares, p.2.2 - p.2.1 < 2) → g.thief me seq = { g with tried := g.tried ++ [(me, 8)] }) ∧
    ((∃ p ∈ g.shares, 2 ≤ p.2.2 - p.2.1) → g.victim me = some v →
      g.thief me seq = { g with steals := g.steals ++ [{ thief := me, victim := v, seq := seq, answer := none }] } ∧
      v ≠ me ∧ (me, v) ∉ g.tried ∧ ∃ r, (v, r) ∈ g.shares ∧
        ∀ p ∈ g.shares, p.1 ≠ me → (me, p.1) ∉ g.tried → p.2.2 - p.2.1 ≤ r.2 - r.1) := by
  have hasks : (g.persist || !g.started || !(SMap.find g.shares me).isSome || decide (0 < g.left me) || g.tried.contains (me, stoppedMark) ||
      g.steals.any (fun x => decide (x.thief = me))) = false := by
    have h1 : g.tried.contains (me, stoppedMark) = false := by
      rw [← Bool.not_eq_true, List.contains_iff_mem]
      exact htried
    have h2 : g.steals.any (fun x => decide (x.thief = me)) = false := by simpa using hsteals
    rw [hpersist, hstarted, hshare, hleft, h1, h2]
    rfl
  have hall : (g.shares.all (fun p => decide (p.2.2 - p.2.1 < 2)) = true) ↔ ∀ p ∈ g.shares, p.2.2 - p.2.1 < 2 := by
    simp only [List.all_eq_true, decide_eq_true_eq]
  unfold Graph.thief
  rw [hasks, if_neg Bool.false_ne_true]
  constructor
  · intro h
    exact if_pos (hall.mpr h)
  · rintro ⟨p, hp, hlarge⟩ hv
    rw [if_neg (fun h => (hall.mp h p hp).not_ge hlarge), hv]
    exact ⟨rfl, Graph.victim_spec hv⟩

/-! ### Residency decisions (R271) -/

/-- The choice of the best is one of the list that none comes before. -/
theorem bestBy_spec {α : Type} {before : α → α → Bool} (hasymm : ∀ a b, before a b = true → before b a = false)
    (htrans : ∀ a b c, before a b = false → before b c = false → before a c = false) {l : List α} {y : α} (h : bestBy before l = some y) :
    y ∈ l ∧ ∀ x ∈ l, before x y = false := by
  have hirrefl : ∀ a, before a a = false := fun a => by
    cases ha : before a a with
    | false => rfl
    | true => exact ha.symm.trans (hasymm a a ha)
  induction l generalizing y with
  | nil => cases h
  | cons x rest ih =>
    unfold bestBy at h
    split at h
    next hrest =>
      cases h
      have hnil : rest = [] := by
        cases rest with
        | nil => rfl
        | cons z zs =>
          unfold bestBy at hrest
          split at hrest
          · cases hrest
          · split at hrest <;> cases hrest
      subst hnil
      refine ⟨List.mem_cons_self, fun z hz => ?_⟩
      obtain rfl := List.mem_singleton.mp hz
      exact hirrefl z
    next z hrest =>
      obtain ⟨hz, hmax⟩ := ih hrest
      split at h
      next hb =>
        cases h
        refine ⟨List.mem_cons_of_mem _ hz, fun w hw => ?_⟩
        rcases List.mem_cons.mp hw with rfl | hw
        · exact hasymm _ _ hb
        · exact hmax w hw
      next hb =>
        cases h
        refine ⟨List.mem_cons_self, fun w hw => ?_⟩
        rcases List.mem_cons.mp hw with rfl | hw
        · exact hirrefl w
        · exact htrans w z x (hmax w hw) (Bool.eq_false_iff.mpr hb)

theorem fillsBefore_iff (d : Die) (now : Nat) (a b : Nat × Context) : fillsBefore d now a b = true ↔
    d.priority b.2 < d.priority a.2 ∨ d.priority a.2 = d.priority b.2 ∧ (b.2.age now < a.2.age now ∨ a.2.age now = b.2.age now ∧ a.1 < b.1) := by
  simp [fillsBefore]

theorem Core.slotFor_spec {r : Core} {c : Context} {slot : Nat} (h : r.slotFor c = some slot) :
    slot < 4 ∧ SMap.find r.slots slot = none ∧ r.usable c slot = true ∧
    ∀ j, j < 4 → SMap.find r.slots j = none → r.usable c j = true →
      (r.bound slot = true ∨ r.bound j = false) ∧ (r.bound slot = r.bound j → slot ≤ j) := by
  have hmem : ∀ i, i ∈ (List.range 4).filter (fun i => r.slotFree i && r.usable c i) ↔ i < 4 ∧ SMap.find r.slots i = none ∧ r.usable c i = true :=
    fun i => by simp [Core.slotFree]
  have hsorted : ((List.range 4).filter (fun i => r.slotFree i && r.usable c i)).Pairwise (· < ·) := List.pairwise_lt_range.filter _
  unfold Core.slotFor at h
  dsimp only at h
  generalize (List.range 4).filter (fun i => r.slotFree i && r.usable c i) = fs at h hmem hsorted
  split at h
  next i hi =>
    cases h
    obtain ⟨hb, as, bs, rfl, hbefore⟩ := List.find?_eq_some_iff_append.mp hi
    obtain ⟨hlt, hfree, huse⟩ := (hmem slot).mp (List.mem_append_right _ List.mem_cons_self)
    refine ⟨hlt, hfree, huse, fun j hj hjfree hjuse => ⟨.inl hb, fun hbj => ?_⟩⟩
    rcases List.mem_append.mp ((hmem j).mpr ⟨hj, hjfree, hjuse⟩) with hin | hin
    · have := hbefore j hin
      rw [← hbj, hb] at this
      cases this
    · rcases List.mem_cons.mp hin with rfl | hin
      · exact le_rfl
      · exact ((List.pairwise_cons.mp (List.pairwise_append.mp hsorted).2.1).1 j hin).le
  next hnone =>
    cases fs with
    | nil => cases h
    | cons i rest =>
      cases h
      obtain ⟨hlt, hfree, huse⟩ := (hmem slot).mp List.mem_cons_self
      refine ⟨hlt, hfree, huse, fun j hj hjfree hjuse => ?_⟩
      have hin := (hmem j).mpr ⟨hj, hjfree, hjuse⟩
      refine ⟨.inr (Bool.eq_false_iff.mpr (List.find?_eq_none.mp hnone j hin)), fun _ => ?_⟩
      rcases List.mem_cons.mp hin with rfl | hin
      · exact le_rfl
      · exact ((List.pairwise_cons.mp hsorted).1 j hin).le

theorem State.fillChoice_spec {s : State} {core k slot : Nat} {c : Context} (h : s.fillChoice core = some (k, c, slot)) :
    (k, c) ∈ s.wantingOf core ∧ c.sch.pagedOut = false ∧ (s.core core).slotFor c = some slot ∧
    ∀ p ∈ s.wantingOf core, p.2.sch.pagedOut = false → ((s.core core).slotFor p.2).isSome = true →
      let d := s.die (dieOfCore core)
      let now := (s.core core).cycle.toNat
      d.priority p.2 < d.priority c ∨ d.priority p.2 = d.priority c ∧ (p.2.age now < c.age now ∨ p.2.age now = c.age now ∧ k ≤ p.1) := by
  have hmem : ∀ p : Nat × Context, p ∈ (s.wantingOf core).filter (fun p => ((s.core core).slotFor p.2).isSome && !p.2.sch.pagedOut) ↔
      p ∈ s.wantingOf core ∧ ((s.core core).slotFor p.2).isSome = true ∧ p.2.sch.pagedOut = false := fun p => by simp [List.mem_filter]
  unfold State.fillChoice at h
  dsimp only at h
  split at h
  next => cases h
  next j b hbest =>
    obtain ⟨i, hi, heq⟩ := Option.map_eq_some_iff.mp h
    cases heq
    have hspec := bestBy_spec (fun x y hxy => ?_) (fun x y z hxy hyz => ?_) hbest
    · obtain ⟨hin, hmax⟩ := hspec
      obtain ⟨hwant, -, hpaged⟩ := (hmem _).mp hin
      refine ⟨hwant, hpaged, hi, fun p hp hpp hps => ?_⟩
      have hnot := Bool.eq_false_iff.mp (hmax p ((hmem p).mpr ⟨hp, hps, hpp⟩))
      rw [Ne, fillsBefore_iff] at hnot
      dsimp only at hnot ⊢
      omega
    · rw [fillsBefore_iff] at hxy
      rw [Bool.eq_false_iff, Ne, fillsBefore_iff]
      omega
    · rw [Bool.eq_false_iff, Ne, fillsBefore_iff] at hxy hyz ⊢
      omega

theorem Context.takeParked_frame (c : Context) : c.takeParked.thread = c.thread ∧ c.takeParked.status = c.status ∧ c.takeParked.slot = c.slot := by
  unfold Context.takeParked
  split
  · split
    · unfold Context.syncDone
      dsimp only
      rw [if_neg Bool.false_ne_true]
      split <;> exact ⟨rfl, rfl, rfl⟩
    · exact ⟨rfl, rfl, rfl⟩
  · exact ⟨rfl, rfl, rfl⟩

theorem State.giveSlot_new (s : State) (k slot : Nat) {c : Context} (h : c.status = .new) :
    ∃ c', (s.giveSlot k c slot).ctx k = some c' ∧ c'.status = .resident ∧ c'.slot = some slot ∧ c'.thread = c.thread ∧
      SMap.find ((s.giveSlot k c slot).core c.coreKey).slots slot = some k := by
  unfold State.giveSlot
  dsimp only
  have hnew : (c.status == .new) = true := by rw [h]; rfl
  rw [if_pos hnew, State.makeResident, State.ctx_setCtx_self]
  dsimp only
  rw [if_pos hnew]
  obtain hframe := fun c : Context => c.takeParked_frame
  refine ⟨_, State.ctx_setCtx_self _ _ _, (hframe _).2.1, (hframe _).2.2, (hframe _).1, ?_⟩
  rw [State.setCtx_core, State.setCtx_core, State.core_updCore_self]
  exact SMap.find_put_self ..

theorem State.giveSlot_saved (s : State) (k slot : Nat) {c : Context} (h : c.status ≠ .new) :
    (s.giveSlot k c slot).ctx k = some { c with slot := some slot } ∧ (s.giveSlot k c slot).agenda = s.agenda ∧
    SMap.find ((s.giveSlot k c slot).core c.coreKey).slots slot = some k := by
  have hold : ¬ (c.status == .new) = true := by simpa using h
  unfold State.giveSlot
  dsimp only
  rw [if_neg hold]
  refine ⟨State.ctx_setCtx_self _ _ _, rfl, ?_⟩
  rw [State.setCtx_core, State.core_updCore_self]
  exact SMap.find_put_self ..

section
variable {s : State} {core : Nat}

theorem State.decideCore_of_retired (h : (s.core core).retired = true) : s.decideCore core = s := if_pos h

theorem State.decideCore_of_fill {k slot : Nat} {c : Context} (hr : (s.core core).retired = false) (h : s.fillChoice core = some (k, c, slot)) :
    s.decideCore core = s.giveSlot k c slot := by
  unfold State.decideCore
  rw [hr, if_neg Bool.false_ne_true, h]

theorem State.decideCore_of_boost {k : Nat} {c : Context} (hr : (s.core core).retired = false) (hf : s.fillChoice core = none)
    (h : s.boostChoice core = some (k, c)) : s.decideCore core = s.setCtx k c.beginPreempt := by
  unfold State.decideCore
  rw [hr, if_neg Bool.false_ne_true, hf]
  dsimp only
  rw [h]

theorem State.decideCore_of_slice {ends : List Nat} {taken : Bool} (hr : (s.core core).retired = false) (hf : s.fillChoice core = none)
    (hb : s.boostChoice core = none) (h : s.sliceChoice core (s.residents core) = (ends, taken)) : s.decideCore core =
    let s1 := ends.foldl (fun s k => s.updCtx k (fun c => { c with sch := { c.sch with sliceDue := true } })) s
    let s2 := s1.withAgenda (ends.map (fun k => .ev (.sliceEnd k)) ++ s1.agenda)
    if taken then s2 else s2.yieldDecision core := by
  unfold State.decideCore
  rw [hr, if_neg Bool.false_ne_true, hf]
  dsimp only
  rw [hb]
  dsimp only
  rw [h]
  rfl

theorem State.boostChoice_spec {k : Nat} {c : Context} (h : s.boostChoice core = some (k, c)) :
    let r := s.core core
    let d := s.die (dieOfCore core)
    ∃ i, (i, k, c) ∈ s.residents core ∧ c.preemptable = true ∧ r.guaranteed i = false ∧
      (∃ w ∈ s.wantingOf core, w.2.landing = true ∧ r.usable w.2 i = true ∧ d.priority c + (d.hyst : Int) ≤ d.priority w.2) ∧
      ∀ v ∈ s.residents core, v.2.2.preemptable = true → r.guaranteed v.1 = false →
        (∃ w ∈ s.wantingOf core, w.2.landing = true ∧ r.usable w.2 v.1 = true ∧ d.priority v.2.2 + (d.hyst : Int) ≤ d.priority w.2) →
        d.priority c ≤ d.priority v.2.2 := by
  intro r d
  have hmem : ∀ v : Nat × Nat × Context, v ∈ (s.residents core).filter (fun v => v.2.2.preemptable && !r.guaranteed v.1 &&
      ((s.wantingOf core).filter (fun p => p.2.landing)).any (fun w => r.usable w.2 v.1 &&
        decide (d.priority v.2.2 + (d.hyst : Int) ≤ d.priority w.2))) ↔
      v ∈ s.residents core ∧ v.2.2.preemptable = true ∧ r.guaranteed v.1 = false ∧
        ∃ w ∈ s.wantingOf core, w.2.landing = true ∧ r.usable w.2 v.1 = true ∧ d.priority v.2.2 + (d.hyst : Int) ≤ d.priority w.2 := fun v => by
    simp only [List.mem_filter, Bool.and_eq_true, Bool.not_eq_true', List.any_eq_true, decide_eq_true_eq, and_assoc]
  obtain ⟨⟨i, p⟩, hbest, heq⟩ := Option.map_eq_some_iff.mp h
  obtain rfl : p = (k, c) := heq
  have hbefore : ∀ a b : Nat × Nat × Context, ((decide (d.priority a.2.2 < d.priority b.2.2) ||
      (decide (d.priority a.2.2 = d.priority b.2.2) && decide (b.1 < a.1))) = true) ↔
      d.priority a.2.2 < d.priority b.2.2 ∨ d.priority a.2.2 = d.priority b.2.2 ∧ b.1 < a.1 := fun a b => by simp
  have hspec := bestBy_spec (fun x y hxy => ?_) (fun x y z hxy hyz => ?_) hbest
  · obtain ⟨hin, hmax⟩ := hspec
    obtain ⟨hres, hpre, hgua, hw⟩ := (hmem _).mp hin
    refine ⟨i, hres, hpre, hgua, hw, fun v hv hvp hvg hvw => ?_⟩
    have hnot := Bool.eq_false_iff.mp (hmax v ((hmem v).mpr ⟨hv, hvp, hvg, hvw⟩))
    rw [Ne, hbefore] at hnot
    dsimp only at hnot
    omega
  · rw [hbefore] at hxy
    rw [Bool.eq_false_iff, Ne, hbefore]
    omega
  · rw [Bool.eq_false_iff, Ne, hbefore] at hxy hyz ⊢
    omega

theorem Context.preemptable_iff (c : Context) : c.preemptable = true ↔
    c.status = .resident ∧ c.sch.preempt = none ∧ c.isFrozen = false ∧ c.hasSuspended = false := by
  simp [Context.preemptable, and_assoc]

theorem State.sliceChoice_of_taken {k slot : Nat} {c : Context} (rest : List (Nat × Nat × Context)) (ho : s.sliceOver core c = true)
    (hp : c.preemptable = true) (hw : s.wantedSlot core slot = true) : s.sliceChoice core ((slot, k, c) :: rest) = ([k], true) := by
  obtain ⟨-, hpre, hfrozen, -⟩ := c.preemptable_iff.mp hp
  unfold State.sliceChoice
  rw [ho, hpre, hfrozen, hp, hw]
  rfl

theorem State.sliceChoice_of_none {l : List (Nat × Nat × Context)} (h : ∀ v ∈ l, s.sliceOver core v.2.2 = false) :
    s.sliceChoice core l = ([], false) := by
  induction l with
  | nil => rfl
  | cons v rest ih =>
    unfold State.sliceChoice
    rw [h v List.mem_cons_self]
    exact ih fun w hw => h w (List.mem_cons_of_mem _ hw)

theorem State.yieldDecision_of_one {k slot : Nat} {c : Context}
    (h : (s.residents core).filter (fun v => v.2.2.sch.yielding && v.2.2.sch.preempt.isNone) = [(slot, k, c)])
    (hp : c.preemptable = true) (hw : s.yieldWanted core slot c = true) :
    s.yieldDecision core = s.updCtx k (fun c => { c with sch := { c.sch with preempt := some .drain } }) := by
  unfold State.yieldDecision
  dsimp only
  rw [h]
  simp [hp, hw]

end

/-! ### The settled statement -/

theorem dieCycle_cases (s : State) (die : Nat) :
    let d := s.die die
    let d1 : Die := { d with dieCycle := d.dieCycle + 1 }.passBt
    (d.cycleStep = 0 → d1.windowDue = true → ∃ t, exec (.dieCycle die) s = .next t ∧ (t.die die).dieCycle = d.dieCycle + 1 ∧
      t.agenda = .ev (.fairnessWindowStart die) :: .ev (.dieCycle die) :: s.agenda ∧ t.contexts = s.contexts ∧ t.mem = s.mem) ∧
    (d.cycleStep = 0 → d1.windowDue = false → d1.decayDue = true → ∃ t, exec (.dieCycle die) s = .next t ∧
      (t.die die).dieCycle = d.dieCycle + 1 ∧ t.agenda = .ev (.boostDecay die) :: .ev (.dieCycle die) :: s.agenda ∧
      t.contexts = s.contexts ∧ t.mem = s.mem) ∧
    (d.cycleStep = 0 → d1.windowDue = false → d1.decayDue = false →
      exec (.dieCycle die) s = .next ((s.setDie die d1.countArrivals).decisions die)) ∧
    (d.cycleStep = 3 → exec (.dieCycle die) s = .next (s.decisions die)) := by
  intro d d1
  rw [exec_dieCycle, execDieCycle]
  have cycle : ∀ x : Die, x.dieCycle = d.dieCycle + 1 → ((s.setDie die x).die die).dieCycle = d.dieCycle + 1 := fun x hx => by
    rw [State.die_setDie_self, hx]
  have step0 : d.cycleStep = 0 → ¬ d.cycleStep = 3 ∧ ¬ d.cycleStep ≠ 0 := fun h => by omega
  refine ⟨fun h hw => ?_, fun h hw hd => ?_, fun h hw hd => ?_, fun h => if_pos h⟩
  · exact ⟨_, ((if_neg (step0 h).1).trans (if_neg (step0 h).2)).trans (if_pos hw), cycle _ rfl, rfl, rfl, rfl⟩
  · exact ⟨_, (((if_neg (step0 h).1).trans (if_neg (step0 h).2)).trans (if_neg (Bool.eq_false_iff.mp hw))).trans (if_pos hd),
      cycle _ rfl, rfl, rfl, rfl⟩
  · exact (((if_neg (step0 h).1).trans (if_neg (step0 h).2)).trans (if_neg (Bool.eq_false_iff.mp hw))).trans (if_neg (Bool.eq_false_iff.mp hd))

theorem windowStart_cases (s : State) (die : Nat) :
    let d := s.die die
    d.cycleStep = 1 → ∃ t, exec (.fairnessWindowStart die) s = .next t ∧ t.mem = s.mem ∧ t.contexts = s.contexts ∧
      (d.decayDue = true → t.agenda = .ev (.boostDecay die) :: s.agenda) ∧
      (d.arrivals = [] → ∀ i r, SMap.find d.fair i = some r → r.valid = true →
        SMap.find (t.die die).fair i = some { r with boost := 0, wstart := d.dieCycle }) := by
  intro d h
  rw [exec_fairnessWindowStart, execFairnessWindowStart]
  rw [if_neg (not_not_intro h)]
  cases hd : (s.die die).decayDue with
  | true =>
    refine ⟨_, if_pos rfl, rfl, rfl, fun _ => rfl, fun _ i r hr hv => ?_⟩
    change SMap.find ((s.setDie die { d.window with cycleStep := 2 }).die die).fair i = _
    rw [State.die_setDie_self]
    exact d.find_mapRecords (fun r => { r with boost := 0, wstart := d.dieCycle }) hr hv
  | false =>
    refine ⟨_, if_neg Bool.false_ne_true, rfl, rfl, (fun hd' => nomatch hd'), fun ha i r hr hv => ?_⟩
    rw [State.die_setDie_self]
    change SMap.find d.window.countArrivals.fair i = _
    rw [d.window.countArrivals_of_nil ha]
    exact d.find_mapRecords _ hr hv

theorem boostDecay_cases (s : State) (die : Nat) :
    let d := s.die die
    d.cycleStep = 2 → ∃ t, exec (.boostDecay die) s = .next t ∧ t.mem = s.mem ∧ t.contexts = s.contexts ∧
      (d.arrivals = [] → ∀ i r, SMap.find d.fair i = some r → r.valid = true →
        SMap.find (t.die die).fair i = some { r with level := r.level - 1 }) := by
  intro d h
  rw [exec_boostDecay, execBoostDecay]
  refine ⟨_, if_neg (not_not_intro h), rfl, rfl, fun ha i r hr hv => ?_⟩
  rw [State.die_setDie_self]
  change SMap.find d.decay.countArrivals.fair i = _
  rw [d.decay.countArrivals_of_nil ha]
  exact d.find_mapRecords _ hr hv

theorem arrivals_cases (d : Die) (ten : BitVec 16) (gang : BitVec 20) (ok : Bool) (rest : List (BitVec 16 × BitVec 20 × Bool)) (i : Nat)
    (h : d.arrivals = (ten, gang, ok) :: rest) :
    (gang = 0 → d.countArrivals = { d with arrivals := rest }.countArrivals) ∧
    (gang ≠ 0 → d.recordOf ten gang = some i →
      let r := SMap.getD d.fair i FairRec.empty
      let r' : FairRec := if ok then { r with level := min (r.level + 1) 15, accepted := satInc32 r.accepted }
        else { r with refused := satInc32 r.refused }
      d.countArrivals = { d with arrivals := rest, fair := SMap.put d.fair i r' }.countArrivals) := by
  rw [d.countArrivals_cons h]
  refine ⟨fun hg => ?_, fun hg hr => ?_⟩
  · subst hg
    rw [d.countArrival_of_zero]
    rfl
  · rw [d.countArrival_of_record ok hg hr]
    rfl

theorem placement_cases (s : State) (die : Nat) :
    let ready (p : Nat × Graph) : Prop := p ∈ s.graphs ∧ pkgOfDie p.2.queueDie = pkgOfDie die ∧ p.2.started = true ∧
       (p.2.share (die % 8)).1 < (p.2.share (die % 8)).2 ∧ s.roomCores die p.2 ≠ []
    (s.freeEntries die = [] ∨ (∀ p, ¬ ready p) → s.placeNext die = s) ∧
    (s.freeEntries die ≠ [] → (∃ p, ready p) → ∃ gid g core key c', ready (gid, g) ∧ core ∈ s.roomCores die g ∧ key ∈ s.freeEntries die ∧
       (s.placeNext die).ctx key = some c' ∧ c'.status = .new ∧ c'.coreKey = core ∧ c'.id.taskidx = BitVec.ofNat 24 (g.share (die % 8)).1 ∧
       c'.id.taskcnt = BitVec.ofNat 25 g.n ∧ c'.id.graph = gid ∧ c'.id.gang = g.gang ∧ c'.id.basePrio = g.prio ∧
       c'.thread = Thread.start (modelPc g.record) ∧ (∀ j, j ≠ key → (s.placeNext die).ctx j = s.ctx j) ∧
       SMap.find (s.placeNext die).graphs gid = some { g with
         shares := SMap.put g.shares (die % 8) ((g.share (die % 8)).1 + 1, (g.share (die % 8)).2) } ∧ (s.placeNext die).mem = s.mem) := by
  intro ready
  refine ⟨fun h => s.placeNext_of_none die (h.imp_right fun h => List.eq_nil_iff_forall_not_mem.mpr fun p hp => h p ((s.mem_graphsToPlace die p).mp hp)),
    fun hf ⟨p, hp⟩ => ?_⟩
  obtain ⟨gid, g, core, key, hg, hcore, hkey, heq⟩ := s.placeNext_of_some die hf (List.ne_nil_of_mem ((s.mem_graphsToPlace die p).mpr hp))
  refine ⟨gid, g, core, key, ?_⟩
  rw [heq]
  exact ⟨_, (s.mem_graphsToPlace die _).mp hg, hcore, hkey, State.ctx_setCtx_self _ _ _, rfl, rfl, rfl, rfl, rfl, rfl, rfl, rfl,
    fun j hj => State.ctx_setCtx_ne _ _ hj, SMap.find_put_self .., rfl⟩

theorem setPriorities_prio (s : State) (die : Nat) :
    ∀ p ∈ (s.setPriorities die).contexts, p.2.die = die → p.2.sch.prio = (s.die die).priority p.2 := by
  intro p hp hdie
  obtain ⟨q, -, rfl⟩ := List.mem_map.mp hp
  by_cases hq : q.2.die = die
  · rw [if_pos hq]
    rfl
  · rw [if_neg hq] at hdie
    exact absurd hdie hq

theorem mem_roomCores (s : State) (die core : Nat) (g : Graph) :
    core ∈ s.roomCores die g ↔ core ∈ s.coresOf die g.part g.record ∧ s.hasRoom core g = true := List.mem_filter

/-- A core's decision, rule by rule. -/
theorem decideCore_cases (s : State) (core k slot : Nat) (c : Context) (hr : (s.core core).retired = false) :
    let r := s.core core
    let d := s.die (dieOfCore core)
    let now := r.cycle.toNat
    (s.fillChoice core = some (k, c, slot) → s.decideCore core = s.giveSlot k c slot ∧ (k, c) ∈ s.wantingOf core ∧
      c.sch.pagedOut = false ∧ slot < 4 ∧ SMap.find r.slots slot = none ∧ r.usable c slot = true ∧
      (∀ j, j < 4 → SMap.find r.slots j = none → r.usable c j = true →
        (r.bound slot = true ∨ r.bound j = false) ∧ (r.bound slot = r.bound j → slot ≤ j)) ∧
      ∀ p ∈ s.wantingOf core, p.2.sch.pagedOut = false → (r.slotFor p.2).isSome = true →
        d.priority p.2 < d.priority c ∨ d.priority p.2 = d.priority c ∧
          (p.2.age now < c.age now ∨ p.2.age now = c.age now ∧ k ≤ p.1)) ∧
    (s.fillChoice core = none → s.boostChoice core = some (k, c) →
      s.decideCore core = s.setCtx k { c with sch := { c.sch with preempt := some (if c.eligible then .rollback else .drain) } }) ∧
    (∀ rest, s.fillChoice core = none → s.boostChoice core = none → s.residents core = (slot, k, c) :: rest → s.sliceOver core c = true →
      c.preemptable = true → s.wantedSlot core slot = true → s.decideCore core =
        (s.updCtx k (fun c => { c with sch := { c.sch with sliceDue := true } })).withAgenda (.ev (.sliceEnd k) :: s.agenda)) ∧
    (s.fillChoice core = none → s.boostChoice core = none → (∀ v ∈ s.residents core, s.sliceOver core v.2.2 = false) →
      (s.residents core).filter (fun v => v.2.2.sch.yielding && v.2.2.sch.preempt.isNone) = [(slot, k, c)] →
      c.preemptable = true → s.yieldWanted core slot c = true →
      s.decideCore core = s.updCtx k (fun c => { c with sch := { c.sch with preempt := some .drain } })) := by
  intro r d now
  refine ⟨fun h => ?_, fun hf hb => State.decideCore_of_boost hr hf hb, fun rest hf hb hres ho hp hw => ?_, fun hf hb hno hone hp hw => ?_⟩
  · obtain ⟨hwant, hpaged, hslot, hbest⟩ := State.fillChoice_spec h
    obtain ⟨hlt, hfree, huse, hfirst⟩ := Core.slotFor_spec hslot
    exact ⟨State.decideCore_of_fill hr h, hwant, hpaged, hlt, hfree, huse, hfirst, hbest⟩
  · have hs : s.sliceChoice core (s.residents core) = ([k], true) := by
      rw [hres, State.sliceChoice_of_taken rest ho hp hw]
    rw [State.decideCore_of_slice hr hf hb hs]
    dsimp only [List.foldl]
    rw [State.updCtx_agenda]
    rfl
  · rw [State.decideCore_of_slice hr hf hb (State.sliceChoice_of_none hno)]
    exact State.yieldDecision_of_one hone hp hw

theorem die_boost_of_record (d : Die) {c : Context} {i : Nat} {r : FairRec} (hg : c.id.gang ≠ 0)
    (hrec : d.recordOf c.id.tenant c.id.gang = some i) (hr : SMap.find d.fair i = some r) :
    d.boost c.id.tenant c.id.gang = if r.boost.toNat < 2 ^ (d.schcfg.toNat % 32) * (d.schcfg.toNat / 2 ^ 12 % 256) / 256 then r.level else 0 := by
  unfold Die.boost
  rw [if_neg hg, hrec]
  dsimp only
  rw [SMap.getD, hr]
  rfl

/-- The events of one context: the end of its slice, its late and its cold report. -/
theorem schedulerReports (s : State) (k : Nat) (c : Context) (hc : s.ctx k = some c) :
    let now := (s.core c.coreKey).cycle.toNat
    (∀ slot, c.sch.sliceDue = true → c.slot = some slot → s.onRetired c = false →
      exec (.sliceEnd k) s = .next (s.setCtx k (if c.preemptable = true ∧ s.wantedSlot c.coreKey slot = true then
          { c with sch := { c.sch with sliceDue := false, preempt := some (if c.eligible then .rollback else .drain) } }
        else { c with sch := { c.sch with sliceDue := false, sliceStart := now } }))) ∧
    (∀ since, c.sch.wantingSince = some since → c.sch.reslated = false →
      0 < ((s.die c.die).part c.id.part).pdl.toNat % 2 ^ 48 → ((s.die c.die).part c.id.part).pdl.toNat % 2 ^ 48 < now - since →
      exec (.reslate k) s = .next ((s.setCtx k { c with sch := { c.sch with reslated := true } }).post (.cobalt c.die) 7
        (k % 2 ^ 25) (BitVec.ofNat 64 (now - since)) 0)) ∧
    (c.status = .nonres → c.wanting now = false → c.sch.coldReported = false → 0 < (s.die c.die).coldage.toNat % 2 ^ 48 →
      (s.die c.die).coldage.toNat % 2 ^ 48 < now - c.sch.coldSince →
      exec (.coldcand k) s = .next ((s.setCtx k { c with sch := { c.sch with coldReported := true } }).post (.cobalt c.die) 8
        (k % 2 ^ 25) (BitVec.ofNat 64 (now - c.sch.coldSince)) 0)) := by
  intro now
  refine ⟨fun slot hdue hslot hret => ?_, fun since hw hres h0 hlt => ?_, fun hst hw hcold h0 hlt => ?_⟩
  · rw [exec_sliceEnd, execSliceEnd, atCore_of hc hret, hdue]
    dsimp only
    rw [if_neg (by decide), hslot]
    dsimp only
    by_cases h : c.preemptable = true ∧ s.wantedSlot c.coreKey slot = true
    · rw [if_pos h, h.1, h.2]
      rfl
    · rw [if_neg h, ← Bool.and_eq_true] at *
      rw [if_neg h]
  · have hage : c.age now = now - since := by
      unfold Context.age
      rw [hw]
    rw [exec_reslate, execReslate, atCtx_of hc]
    dsimp only
    rw [hw, hres, show c.age (s.core c.coreKey).cycle.toNat = now - since from hage, decide_eq_true ⟨h0, hlt⟩]
    rfl
  · rw [exec_coldcand, execColdcand, atCtx_of hc]
    dsimp only
    rw [hst, show c.wanting (s.core c.coreKey).cycle.toNat = false from hw, hcold, decide_eq_true ⟨h0, hlt⟩]
    rfl

/-- Settles O48: the die's cycle by its step number, the placement by the free entries and graphs, each core's decision rule by rule. -/
theorem schedulerTimers : Obligations.SchedulerTimers := by
  refine ⟨fun s die => ?_, fun s die => ⟨rfl, setPriorities_prio s die, placement_cases s die, fun core g => mem_roomCores s die core g⟩,
    fun g me seq v hp hs hsh hl ht hst => g.thief_cases me seq v hp hs hsh hl ht hst, fun s core k slot c => ?_, fun d c => ?_, schedulerReports⟩
  · obtain ⟨hwindow, hdecay, hplain, hrest⟩ := dieCycle_cases s die
    exact ⟨hwindow, hdecay, hplain, hrest, windowStart_cases s die, boostDecay_cases s die,
      fun ten gang ok rest i h => arrivals_cases (s.die die) ten gang ok rest i h⟩
  · refine ⟨State.decideCore_of_retired, fun hr => ?_⟩
    obtain ⟨hfill, hboost, hslice, hyield⟩ := decideCore_cases s core k slot c hr
    exact ⟨hfill, fun h => s.giveSlot_new k slot h, fun h => s.giveSlot_saved k slot h,
      fun hf hb => ⟨hboost hf hb, State.boostChoice_spec hb⟩, hslice, hyield⟩
  · refine ⟨rfl, fun h => if_pos h, fun i r hg hrec hr => ?_⟩
    rw [die_boost_of_record d hg hrec hr]

end Sys2Proof.Machine
end

section
/-! PROOFS. Checkpoints, drains, rollbacks, restores, HALT, replays and refetches (O49). -/

namespace Sys2Proof.Machine

/-! ### What waiting loads that are performed change (R36, log entry 8) -/

/-- The loads still noted, the registers and the snapshot are all that differs. -/
def Context.LoadsPerformed (c d : Context) : Prop :=
  ∃ regs rpoison loads snapshot, d = { c with
    thread := { c.thread with regs := regs, rpoison := rpoison, loads := loads }, ord := { c.ord with snapshot := snapshot } }

theorem ordLoad_snapshot (s : State) (me : Option Nat) (o : OrdState) (loc : Loc) (n : Nat) :
    ∃ x, (ordLoad s me o loc n).2.2 = { o with snapshot := x } := by
  unfold ordLoad
  dsimp only
  split
  · exact ⟨_, rfl⟩
  · exact ⟨_, rfl⟩

theorem Thread.setReg_registers (t : Thread) (x : BitVec 6) (v : Word) (p : Bool) :
    ∃ regs rpoison, t.setReg x v p = { t with regs := regs, rpoison := rpoison } := by
  unfold Thread.setReg
  split
  · exact ⟨_, _, rfl⟩
  · exact ⟨_, _, rfl⟩

theorem Context.performLoad_performed (s : State) {c d : Context} (l : GenLoad) (h : c.LoadsPerformed d) :
    c.LoadsPerformed (d.performLoad s l) := by
  obtain ⟨regs, rpoison, loads, snapshot, rfl⟩ := h
  unfold Context.performLoad
  dsimp only
  obtain ⟨x, hx⟩ := ordLoad_snapshot s (Context.reader { c with
    thread := { c.thread with regs := regs, rpoison := rpoison, loads := loads }, ord := { c.ord with snapshot := snapshot } })
    { c.ord with snapshot := snapshot } l.loc l.size
  rw [hx]
  obtain ⟨regs', rpoison', hreg⟩ := Thread.setReg_registers { c.thread with regs := regs, rpoison := rpoison, loads := loads } l.d
    (extendLoad l.size l.signed (ordLoad s (Context.reader { c with
      thread := { c.thread with regs := regs, rpoison := rpoison, loads := loads }, ord := { c.ord with snapshot := snapshot } })
      { c.ord with snapshot := snapshot } l.loc l.size).1) (ordLoad s (Context.reader { c with
      thread := { c.thread with regs := regs, rpoison := rpoison, loads := loads }, ord := { c.ord with snapshot := snapshot } })
      { c.ord with snapshot := snapshot } l.loc l.size).2.1
  rw [hreg]
  exact ⟨regs', rpoison', loads, x, rfl⟩

theorem Context.foldl_performLoad_performed (s : State) (l : List GenLoad) : ∀ {c d : Context}, c.LoadsPerformed d →
    c.LoadsPerformed (l.foldl (Context.performLoad s) d) := by
  induction l with
  | nil => exact fun h => h
  | cons x l ih => exact fun h => ih (Context.performLoad_performed s x h)

theorem Context.foldl_performLoad_loads (s : State) (l : List GenLoad) : ∀ c : Context,
    (l.foldl (Context.performLoad s) c).thread.loads = c.thread.loads := by
  induction l with
  | nil => exact fun c => rfl
  | cons x l ih =>
    intro c
    rw [List.foldl_cons, ih]
    unfold Context.performLoad
    dsimp only
    obtain ⟨regs, rpoison, h⟩ := c.thread.setReg_registers x.d (extendLoad x.size x.signed (ordLoad s c.reader c.ord x.loc x.size).1)
      (ordLoad s c.reader c.ord x.loc x.size).2.1
    rw [h]

theorem Context.foldl_performLoad_reg (s : State) (x : BitVec 6) (l : List GenLoad) : ∀ c : Context, (∀ y ∈ l, y.d ≠ x) →
    (l.foldl (Context.performLoad s) c).thread.reg x = c.thread.reg x ∧
    (l.foldl (Context.performLoad s) c).thread.regPoison x = c.thread.regPoison x := by
  induction l with
  | nil => exact fun c _ => ⟨rfl, rfl⟩
  | cons y l ih =>
    intro c h
    obtain ⟨hreg, htag⟩ := ih (c.performLoad s y) fun z hz => h z (List.mem_cons_of_mem _ hz)
    have hw := c.thread.setReg_wrote y.d (extendLoad y.size y.signed (ordLoad s c.reader c.ord y.loc y.size).1)
      (ordLoad s c.reader c.ord y.loc y.size).2.1
    have hne : ¬ (x = y.d ∧ y.d ≠ 0) := fun e => h y List.mem_cons_self e.1.symm
    refine ⟨hreg.trans ((hw.value x).trans (if_neg hne)), htag.trans ((hw.tag x).trans (if_neg hne))⟩

theorem Context.performLoads_performed (s : State) (c : Context) : c.LoadsPerformed (c.performLoads s) :=
  Context.foldl_performLoad_performed s _ ⟨_, _, _, _, rfl⟩

theorem Context.performLoads_loads (s : State) (c : Context) : (c.performLoads s).thread.loads = [] := by
  refine (Context.foldl_performLoad_loads s _ _).trans ?_
  refine List.filter_eq_nil_iff.mpr fun l _ => ?_
  simp [Thread.loadDue]

theorem Context.performLoads_of_nil (s : State) (c : Context) (h : c.thread.loads = []) : c.performLoads s = c :=
  c.performWhere_of_none s _ fun x hx => by rw [h] at hx; cases hx

theorem Context.performLoads_reg (s : State) (c : Context) (x : BitVec 6) (h : ∀ l ∈ c.thread.loads, l.d ≠ x) :
    (c.performLoads s).thread.reg x = c.thread.reg x ∧ (c.performLoads s).thread.regPoison x = c.thread.regPoison x :=
  Context.foldl_performLoad_reg s x _ _ fun y hy => h y (List.mem_filter.mp hy).1

/-! ### A saved context (R279 step 6) -/

/-- What saving a context leaves: the context itself, and its slot free. -/
theorem State.saveContext_spec {s : State} {k : Nat} {c : Context} (h : s.ctx k = some c) (status : CtxStatus) :
    ∃ c', (s.saveContext k status).ctx k = some c' ∧ c'.status = status ∧ c'.slot = none ∧ c'.thread = (c.performLoads s).thread ∧
      c'.wait = c.wait ∧ c'.be = c.be ∧ c'.fl = c.fl ∧ c'.queue = c.queue ∧ c'.id = c.id ∧ c'.coreKey = c.coreKey ∧
      (∃ x, c'.ord = { c.ord with snapshot := x } ∧ x = []) ∧
      c'.sch.savedLines = (if c.status == .resident then c.windowLines (s.core c.coreKey) else c.sch.savedLines) ∧ c'.sch.preempt = none ∧
      s.saveContext k status = (s.leaveSlot k c).setCtx k c' := by
  obtain ⟨regs, rpoison, loads, snapshot, hp⟩ := c.performLoads_performed s
  unfold State.saveContext
  rw [h]
  refine ⟨_, State.ctx_setCtx_self _ _ _, rfl, rfl, rfl, ?_, ?_, ?_, ?_, ?_, ?_, ⟨_, ?_, rfl⟩, rfl, rfl, rfl⟩
  all_goals rw [hp]

theorem State.leaveSlot_core (s : State) (k : Nat) (c : Context) :
    (s.leaveSlot k c).core c.coreKey = { s.core c.coreKey with slots := (s.core c.coreKey).slots.filter (fun p => decide (p.2 ≠ k)) } :=
  State.core_updCore_self ..

theorem State.leaveSlot_free (s : State) (k : Nat) (c : Context) (slot : Nat) : (slot, k) ∉ ((s.leaveSlot k c).core c.coreKey).slots := by
  rw [State.leaveSlot_core]
  intro h
  exact of_decide_eq_true (List.mem_filter.mp h).2 rfl

/-! ### The undo log put back (R278) -/

theorem mem_insertKey (k j : Nat) (l : List Nat) : j ∈ insertKey k l ↔ j = k ∨ j ∈ l := by
  induction l with
  | nil => simp [insertKey]
  | cons i rest ih =>
    unfold insertKey
    split
    · rw [List.mem_cons]
    · split
      next h =>
        rw [List.mem_cons]
        constructor
        · exact .inr
        · rintro (rfl | h')
          · exact .inl h
          · exact h'
      next =>
        rw [List.mem_cons, List.mem_cons, ih]
        tauto

/-- The tags of the lines after a whole line is written. -/
theorem State.tagLine_full_contains (s : State) (pkg line : Nat) (p : Bool) (j : Nat) :
    (s.tagLine pkg line true p).poison.contains j = if j = lineKey pkg line then p else s.poison.contains j := by
  rw [Bool.eq_iff_iff, List.contains_iff_mem]
  unfold State.tagLine
  dsimp only
  cases p with
  | false =>
    rw [if_neg Bool.false_ne_true, if_pos rfl]
    by_cases hj : j = lineKey pkg line <;> simp [hj]
  | true =>
    rw [if_pos rfl]
    by_cases hc : s.poison.contains (lineKey pkg line) = true
    · rw [if_pos hc]
      by_cases hj : j = lineKey pkg line
      · rw [if_pos hj, hj]
        exact ⟨fun _ => rfl, fun _ => List.contains_iff_mem.mp hc⟩
      · rw [if_neg hj, List.contains_iff_mem]
    · rw [if_neg hc]
      change j ∈ insertKey (lineKey pkg line) s.poison ↔ _
      rw [mem_insertKey]
      by_cases hj : j = lineKey pkg line <;> simp [hj]

theorem State.homeWriteLine_full_poison (s : State) (pkg line : Nat) (data : Line) (p g : Bool) (j : Nat) :
    (s.homeWriteLine pkg line (BitVec.allOnes 64) data p g).poison.contains j = if j = lineKey pkg line then p else s.poison.contains j := by
  have hmask : ¬ BitVec.allOnes 64 = 0 := by decide
  unfold State.homeWriteLine
  rw [if_neg hmask]
  exact State.tagLine_full_contains _ pkg line p j

/-- One logged line of an OWN page put back. -/
def State.undoOwnLine (c : Context) (s : State) (e : Nat × Line × Bool) : State :=
  (s.ownWritten c { pkg := e.1 / 2 ^ 46, pa := e.1 % 2 ^ 46 * 64, home := 0, dev := false, own := true }).homeWriteLine (e.1 / 2 ^ 46)
    (e.1 % 2 ^ 46) (BitVec.allOnes 64) e.2.1 e.2.2 false

theorem State.undoOwn_eq (s : State) (c : Context) (m : Marker) : s.undoOwn c m = m.own.foldl (State.undoOwnLine c) s := rfl

theorem State.undoOwnLine_memWf (c : Context) (s : State) (e : Nat × Line × Bool) (h : s.MemWf) : (s.undoOwnLine c e).MemWf :=
  State.homeWriteLine_memWf _ _ _ _ _ _ h

theorem State.undoOwnLine_read (c : Context) (s : State) (e : Nat × Line × Bool) (h : s.MemWf) (a : Nat) :
    (s.undoOwnLine c e).memByte a = if a / 64 = e.1 then lineByte e.2.1 (a % 64) else s.memByte a := by
  have hbase : memKey (e.1 / 2 ^ 46) (e.1 % 2 ^ 46 * 64) = 64 * e.1 := by unfold memKey; omega
  unfold State.undoOwnLine
  rw [State.homeWriteLine_read]
  swap
  · exact h
  dsimp only
  rw [hbase]
  by_cases ha : a / 64 = e.1
  · have hoff : a - 64 * e.1 = a % 64 := by omega
    have hin : 64 * e.1 ≤ a ∧ a < 64 * e.1 + 64 ∧ (BitVec.allOnes 64).getLsbD (a % 64) = true := by
      refine ⟨by omega, by omega, ?_⟩
      rw [BitVec.getLsbD_allOnes, decide_eq_true_eq]
      exact Nat.mod_lt _ (by omega)
    rw [hoff, if_pos hin, if_pos ha]
  · have hout : ¬ (64 * e.1 ≤ a ∧ a < 64 * e.1 + 64 ∧ (BitVec.allOnes 64).getLsbD (a - 64 * e.1) = true) := by omega
    rw [if_neg hout, if_neg ha]
    rfl

theorem State.undoOwnLine_poison (c : Context) (s : State) (e : Nat × Line × Bool) (j : Nat) :
    (s.undoOwnLine c e).poison.contains j = if j = e.1 then e.2.2 else s.poison.contains j := by
  have hkey : lineKey (e.1 / 2 ^ 46) (e.1 % 2 ^ 46) = e.1 := by unfold lineKey; omega
  unfold State.undoOwnLine
  rw [State.homeWriteLine_full_poison, hkey]
  rfl

theorem State.undoOwnLine_core (c : Context) (s : State) (e : Nat × Line × Bool) : (s.undoOwnLine c e).cores = s.cores := by
  unfold State.undoOwnLine
  obtain ⟨x, y, z, h⟩ := State.homeWriteLine_only (s.ownWritten c { pkg := e.1 / 2 ^ 46, pa := e.1 % 2 ^ 46 * 64, home := 0, dev := false, own := true })
    (e.1 / 2 ^ 46) (e.1 % 2 ^ 46) (BitVec.allOnes 64) e.2.1 e.2.2 false
  rw [h]
  rfl

theorem foldl_undoOwn_cores (c : Context) (l : List (Nat × Line × Bool)) : ∀ s : State, (l.foldl (State.undoOwnLine c) s).cores = s.cores := by
  induction l with
  | nil => exact fun s => rfl
  | cons e l ih => exact fun s => (ih _).trans (s.undoOwnLine_core c e)

theorem foldl_undoOwn_memWf (c : Context) (l : List (Nat × Line × Bool)) {s : State} (h : s.MemWf) :
    (l.foldl (State.undoOwnLine c) s).MemWf := foldl_memWf _ (State.undoOwnLine_memWf c) l h

/-- Lines that are not among those put back are as before. -/
theorem foldl_undoOwn_frame (c : Context) (l : List (Nat × Line × Bool)) : ∀ s : State, s.MemWf →
    (∀ a, (∀ e ∈ l, a / 64 ≠ e.1) → (l.foldl (State.undoOwnLine c) s).memByte a = s.memByte a) ∧
    ∀ j, (∀ e ∈ l, j ≠ e.1) → (l.foldl (State.undoOwnLine c) s).poison.contains j = s.poison.contains j := by
  induction l with
  | nil => exact fun s _ => ⟨fun _ _ => rfl, fun _ _ => rfl⟩
  | cons e l ih =>
    intro s h
    obtain ⟨hmem, htag⟩ := ih (s.undoOwnLine c e) (s.undoOwnLine_memWf c e h)
    refine ⟨fun a ha => ?_, fun j hj => ?_⟩
    · rw [List.foldl_cons, hmem a fun x hx => ha x (List.mem_cons_of_mem _ hx), s.undoOwnLine_read c e h, if_neg (ha e List.mem_cons_self)]
    · rw [List.foldl_cons, htag j fun x hx => hj x (List.mem_cons_of_mem _ hx), s.undoOwnLine_poison c e, if_neg (hj e List.mem_cons_self)]

/-- The last entry of a line is what the line holds. -/
theorem foldl_undoOwn_last (c : Context) {s : State} (h : s.MemWf) (pre post : List (Nat × Line × Bool)) (e : Nat × Line × Bool)
    (hlast : ∀ x ∈ post, x.1 ≠ e.1) : let t := (pre ++ e :: post).foldl (State.undoOwnLine c) s
    (∀ j, j < 64 → t.memByte (64 * e.1 + j) = lineByte e.2.1 j) ∧ t.poison.contains e.1 = e.2.2 := by
  have hpre := foldl_undoOwn_memWf c pre h
  obtain ⟨hmem, htag⟩ := foldl_undoOwn_frame c post _ (State.undoOwnLine_memWf c _ e hpre)
  rw [List.foldl_append, List.foldl_cons]
  refine ⟨fun j hj => ?_, ?_⟩
  · have hline : (64 * e.1 + j) / 64 = e.1 := by omega
    have hoff : (64 * e.1 + j) % 64 = j := by omega
    rw [hmem _ fun x hx => by rw [hline]; exact (hlast x hx).symm, State.undoOwnLine_read c _ e hpre, if_pos hline, hoff]
  · rw [htag _ fun x hx => (hlast x hx).symm, State.undoOwnLine_poison, if_pos rfl]

/-! ### Lines put into a core's buffers one after another -/

/-- The buffer lines after the entries of a list are put, each under its key. -/
def putLines {α : Type} (key : α → Nat) (val : α → BufLine) (l : List α) (m : SMap BufLine) : SMap BufLine :=
  l.foldl (fun m e => SMap.put m (key e) (val e)) m

theorem getD_putLines_frame {α : Type} (key : α → Nat) (val : α → BufLine) (x : Nat) (d : BufLine) (l : List α) : ∀ m : SMap BufLine,
    (∀ e ∈ l, key e ≠ x) → SMap.getD (putLines key val l m) x d = SMap.getD m x d := by
  induction l with
  | nil => exact fun m _ => rfl
  | cons e l ih =>
    intro m h
    rw [putLines, List.foldl_cons]
    exact (ih _ fun y hy => h y (List.mem_cons_of_mem _ hy)).trans (SMap.getD_put_ne _ _ _ (h e List.mem_cons_self).symm)

theorem getD_putLines_last {α : Type} (key : α → Nat) (val : α → BufLine) (d : BufLine) (m : SMap BufLine) (pre post : List α) (e : α)
    (hlast : ∀ x ∈ post, key x ≠ key e) : SMap.getD (putLines key val (pre ++ e :: post) m) (key e) d = val e := by
  rw [putLines, List.foldl_append, List.foldl_cons]
  exact (getD_putLines_frame key val (key e) d post _ hlast).trans (SMap.getD_put_self ..)

/-- The key of a window line of a context in its core's buffers. -/
def Context.lineKeyOf (c : Context) (buf wl : Nat) : Nat := bufKey buf (winBase (c.window (if buf = 3 then 2 else buf)) + wl / 256) (wl % 256)

theorem State.undoLines_core (s : State) (c : Context) (m : Marker) : (s.undoLines c m).core c.coreKey = { s.core c.coreKey with
    lines := putLines (fun e => c.lineKeyOf e.1 e.2.1) (fun e => { data := e.2.2.1, poison := e.2.2.2 }) m.lines (s.core c.coreKey).lines } :=
  State.core_updCore_self ..

/-! ### A rollback (R278) -/

theorem State.dropWaiter_cores (s : State) (die : Nat) (who : Waiter) : (s.dropWaiter die who).cores = s.cores := rfl

theorem State.withdrawWaiters_frame (s : State) (k : Nat) : (s.withdrawWaiters k).cores = s.cores ∧ (s.withdrawWaiters k).mem = s.mem ∧
    (s.withdrawWaiters k).poison = s.poison := by
  unfold State.withdrawWaiters
  split
  · exact ⟨rfl, rfl, rfl⟩
  next c _ =>
    have hfold : ∀ (l : List SyncOp) (s : State), (l.foldl (fun s o => s.dropWaiter o.loc.engine (.context k o.id)) s).cores = s.cores ∧
        (l.foldl (fun s o => s.dropWaiter o.loc.engine (.context k o.id)) s).mem = s.mem ∧
        (l.foldl (fun s o => s.dropWaiter o.loc.engine (.context k o.id)) s).poison = s.poison := by
      intro l
      induction l with
      | nil => exact fun s => ⟨rfl, rfl, rfl⟩
      | cons o l ih => exact fun s => ih (s.dropWaiter o.loc.engine (.context k o.id))
    obtain ⟨hcores, hmem, hpoison⟩ := hfold (c.fl.syncOps.filter (fun o => o.state == .waiting)) s
    dsimp only
    rw [State.updCtx_cores, State.updCtx_mem, State.updCtx_poison]
    exact ⟨hcores, hmem, hpoison⟩

/-- The state in which a rolled back context is saved. -/
def State.undone (s : State) (k : Nat) (c : Context) (m : Marker) : State := ((s.withdrawWaiters k).undoLines c m).undoOwn c m

theorem execRollback_of_eligible {s : State} {k : Nat} {c : Context} {m : Marker} (h : s.ctx k = some c) (hr : s.onRetired c = false)
    (hp : c.sch.preempt = some .rollback) (hs : c.status = .resident) (hf : c.isFrozen = false) (hstop : c.stopped = true)
    (he : c.eligible = true) (hm : c.chk.latest = some m) :
    execRollback k s = .next (((s.undone k c m).setCtx k (c.rolledBack m)).saveContext k .nonres) := by
  rw [execRollback, atCore_of h hr, hp, hs, hf, hstop, he, hm]
  rfl

theorem execRollback_of_lost {s : State} {k : Nat} {c : Context} (h : s.ctx k = some c) (hr : s.onRetired c = false)
    (hp : c.sch.preempt = some .rollback) (hs : c.status = .resident) (hf : c.isFrozen = false) (hstop : c.stopped = true)
    (he : c.eligible = false) : execRollback k s = .next (s.setCtx k { c with sch := { c.sch with preempt := some .drain } }) := by
  rw [execRollback, atCore_of h hr, hp, hs, hf, hstop, he]
  rfl

theorem State.undone_core (s : State) (k : Nat) (c : Context) (m : Marker) : (s.undone k c m).core c.coreKey = { s.core c.coreKey with
    lines := putLines (fun e => c.lineKeyOf e.1 e.2.1) (fun e => { data := e.2.2.1, poison := e.2.2.2 }) m.lines (s.core c.coreKey).lines } := by
  have hown : (s.undone k c m).core c.coreKey = ((s.withdrawWaiters k).undoLines c m).core c.coreKey := by
    unfold State.undone State.core
    rw [State.undoOwn_eq, foldl_undoOwn_cores]
  have hcore : (s.withdrawWaiters k).core c.coreKey = s.core c.coreKey := by
    unfold State.core
    rw [(s.withdrawWaiters_frame k).1]
  rw [hown, State.undoLines_core, hcore]

/-- The state whose OWN lines are put back has the memory and the tags of the old one. -/
theorem State.undoLines_frame (s : State) (k : Nat) (c : Context) (m : Marker) (a : Nat) :
    ((s.withdrawWaiters k).undoLines c m).memByte a = s.memByte a := by
  unfold State.memByte
  exact congrArg (Memory.read · a) (s.withdrawWaiters_frame k).2.1

theorem State.undoLines_memWf {s : State} (k : Nat) (c : Context) (m : Marker) (h : s.MemWf) : ((s.withdrawWaiters k).undoLines c m).MemWf := by
  unfold State.MemWf
  exact (congrArg Memory.wf (s.withdrawWaiters_frame k).2.1).trans h

theorem foldl_cstat (l : List CopyOp) : ∀ b : BackEnd, ∃ x, l.foldl (fun (b : BackEnd) o =>
    { b with cstat := SMap.put b.cstat o.w.ch.toNat { SMap.getD b.cstat o.w.ch.toNat CopyStat.start with state := 0 } }) b = { b with cstat := x } := by
  induction l with
  | nil => exact fun b => ⟨_, rfl⟩
  | cons o l ih => exact fun b => ih _

theorem Context.rolledBack_be (c : Context) (m : Marker) : (c.rolledBack m).be = { c.atMarker m with cstat := (c.rolledBack m).be.cstat } := by
  obtain ⟨x, hx⟩ := foldl_cstat (c.fl.copyOps.filter (fun o => o.state.begun)) (c.atMarker m)
  have hbe : (c.rolledBack m).be = { c.atMarker m with cstat := x } := hx
  rw [hbe]

theorem Context.atMarker_of_later (c : Context) (m : Marker) (hj : ∀ w ∈ c.fl.journal, m.idx ≤ w.idx)
    (hp : ∀ p ∈ c.fl.pendingFmt, m.idx ≤ p.idx) : c.atMarker m = { m.shadow with cstat := c.be.cstat } := by
  have hjnil : c.fl.journal.filter (fun w => decide (w.idx < m.idx)) = [] :=
    List.filter_eq_nil_iff.mpr fun w hw => by simpa using hj w hw
  have hpnil : c.fl.pendingFmt.filter (fun p => decide (p.idx < m.idx)) = [] :=
    List.filter_eq_nil_iff.mpr fun p hp' => by simpa using hp p hp'
  unfold Context.atMarker
  rw [hjnil, hpnil]
  rfl

/-! ### Becoming RESIDENT (R262, R279) -/

theorem winBase_withBase (w : Word) (base : Nat) (h : base < 128) : winBase (withBase w base) = base := by
  unfold winBase withBase winLimit
  rw [BitVec.toNat_ofNat]
  omega

theorem regionBase_lt (w : Word) (slot : Nat) : regionBase w slot < 128 := Nat.mod_lt _ (by omega)

theorem SMap.find_filter_key {α : Type} (p : Nat → Bool) (m : SMap α) (k : Nat) :
    SMap.find (m.filter (fun e => p e.1)) k = if p k then SMap.find m k else none := by
  induction m with
  | nil => cases p k <;> rfl
  | cons e rest ih =>
    obtain ⟨j, a⟩ := e
    by_cases hj : j = k
    · subst hj
      cases hp : p j with
      | true =>
        rw [List.filter_cons_of_pos (by exact hp)]
        simp [SMap.find]
      | false =>
        rw [List.filter_cons_of_neg (by rw [hp]; exact Bool.false_ne_true), ih, hp]
        rfl
    · have hskip : SMap.find ((j, a) :: rest) k = SMap.find rest k := if_neg hj
      rw [hskip, ← ih, List.filter_cons]
      split
      · exact if_neg hj
      · rfl

/-- A context as it becomes RESIDENT in a slot. -/
def Context.inSlot (c : Context) (r : Core) (slot : Nat) : Context :=
  { c with
    id := c.id.inSlot r slot
    status := .resident
    land := { c.land with replaying := c.land.head != c.land.tail, refusedSince := false }
    sch := { c.sch with residentSince := r.cycle.toNat, sliceStart := r.cycle.toNat, wantingSince := none, reslated := false,
                        toRefetch := c.sch.refetch } }

/-- The same with its parked wait answered and its lines loaded. -/
def Context.restored (c : Context) (r : Core) (slot : Nat) : Context :=
  { (c.inSlot r slot).unwait.takeParked with sch.savedLines := [] }

theorem State.makeResident_saved {s : State} {k slot : Nat} {c : Context} (h : s.ctx k = some c) (hst : c.status = .nonres)
    (hslot : c.slot = some slot) : s.makeResident k =
    (s.setCore c.coreKey ((s.core c.coreKey).loadLines (c.inSlot (s.core c.coreKey) slot))).setCtx k (c.restored (s.core c.coreKey) slot) := by
  have hold : ¬ (c.status == .new) = true := by rw [hst]; decide
  unfold State.makeResident
  rw [h]
  dsimp only
  split
  next hnone => cases hnone.symm.trans hslot
  next x hx =>
    cases hx.symm.trans hslot
    rw [if_neg hold]
    rfl

theorem Context.takeParked_keeps (c : Context) : c.takeParked.id = c.id ∧ c.takeParked.land = c.land ∧
    c.takeParked.sch.toRefetch = c.sch.toRefetch := by
  unfold Context.takeParked
  split
  · split
    · unfold Context.syncDone
      dsimp only
      rw [if_neg Bool.false_ne_true]
      split <;> exact ⟨rfl, rfl, rfl⟩
    · exact ⟨rfl, rfl, rfl⟩
  · exact ⟨rfl, rfl, rfl⟩

theorem Context.restored_frame (c : Context) (r : Core) (slot : Nat) : (c.restored r slot).thread = c.thread ∧
    (c.restored r slot).status = .resident ∧ (c.restored r slot).slot = c.slot ∧ (c.restored r slot).id = c.id.inSlot r slot ∧
    (c.restored r slot).land = { c.land with replaying := c.land.head != c.land.tail, refusedSince := false } ∧
    (c.restored r slot).sch.toRefetch = c.sch.refetch ∧ (c.restored r slot).sch.savedLines = [] := by
  obtain ⟨hthread, hstatus, hslot⟩ := (c.inSlot r slot).unwait.takeParked_frame
  obtain ⟨hid, hland, href⟩ := (c.inSlot r slot).unwait.takeParked_keeps
  exact ⟨hthread, hstatus, hslot, hid, hland, href, rfl⟩

theorem Core.loadLines_line (r : Core) (c : Context) (x : Nat) : (r.loadLines c).line x =
    SMap.getD (putLines (fun e : Nat × Nat × BufLine => c.lineKeyOf e.1 e.2.1) (fun e => e.2.2) c.sch.savedLines
      (r.lines.filter (fun p => !c.ownsLine p.1))) x { data := 0, poison := false } := rfl

theorem Core.kept_line (r : Core) (c : Context) (x : Nat) : SMap.getD (r.lines.filter (fun p => !c.ownsLine p.1)) x { data := 0, poison := false } =
    if c.ownsLine x then { data := 0, poison := false } else r.line x := by
  have hfind := SMap.find_filter_key (fun k => !c.ownsLine k) r.lines x
  unfold SMap.getD
  rw [hfind]
  cases c.ownsLine x <;> rfl

/-! ### Bytes into a window (R274) -/

/-- What a write into a window leaves of a context and the rest. -/
def WindowFrame (k : Nat) (c : Context) (s t : State) : Prop :=
  (∃ d, t.ctx k = some d ∧ d.thread = c.thread ∧ d.land = c.land) ∧ t.credits = s.credits ∧ t.mem = s.mem

theorem WindowFrame.writeLine {k : Nat} {c : Context} {s t : State} (h : WindowFrame k c s t) (idx buf tile line : Nat) (f : BufLine → BufLine) :
    WindowFrame k c s (t.writeLine k idx buf tile line f) := by
  obtain ⟨⟨d, hd, hthread, hland⟩, hcred, hmem⟩ := h
  unfold State.writeLine
  rw [hd]
  dsimp only
  by_cases hw : winLimit (d.window (if buf = 3 then 2 else buf)) ≤ tile
  · rw [if_pos hw]
    exact ⟨⟨d, hd, hthread, hland⟩, hcred, hmem⟩
  · rw [if_neg hw]
    exact ⟨⟨_, State.ctx_setCtx_self _ _ _, hthread, hland⟩, hcred, hmem⟩

theorem WindowFrame.tileOor {k : Nat} {c : Context} {s t : State} (h : WindowFrame k c s t) (idx buf tile row byte : Nat) :
    WindowFrame k c s (t.tileOor k idx buf tile row byte) := by
  obtain ⟨⟨d, hd, hthread, hland⟩, hcred, hmem⟩ := h
  unfold State.tileOor
  rw [State.updCtx_of hd]
  refine ⟨⟨_, State.ctx_setCtx_self _ _ _, ?_, ?_⟩, hcred, hmem⟩
  · split
    · exact hthread
    · exact hthread
  · split
    · exact hland
    · exact hland

theorem State.writeWindow_frame {s : State} {k : Nat} {c : Context} (h : s.ctx k = some c) (off : Nat) (b : List Byte) (bits : Nat) :
    WindowFrame k c s (s.writeWindow k off b bits) := by
  have hfold : ∀ (l : List Nat) (t : State), WindowFrame k c s t → WindowFrame k c s (l.foldl (fun s i =>
      (s.writeLine k 0 0 ((off + 64 * i) / 16384) ((off + 64 * i) % 16384 / 64)
        (fun old => old.merge (byteMask 0 ((b.drop (64 * i)).take 64).length) (lineOfBytes ((b.drop (64 * i)).take 64)) (bits.testBit i))).tileOor
          k 0 0 ((off + 64 * i) / 16384) ((off + 64 * i) % 16384 / 256) ((off + 64 * i) % 256)) t) := by
    intro l
    induction l with
    | nil => exact fun t ht => ht
    | cons i l ih => exact fun t ht => ih _ ((ht.writeLine ..).tileOor ..)
  exact hfold _ s ⟨⟨c, h, rfl, rfl⟩, rfl, rfl⟩

/-- The state with more credits on their way. -/
def State.addCredits (s : State) (l : List Credit) : State := { s with credits := s.credits ++ l }

theorem State.addCredits_if (s : State) (b : Bool) (l : List Credit) : (if b then s.addCredits l else s) = s.addCredits (if b then l else []) := by
  cases b with
  | true => rfl
  | false =>
    unfold State.addCredits
    rw [if_neg Bool.false_ne_true, if_neg Bool.false_ne_true, List.append_nil]

/-- The landing ring's oldest entry goes into the window, its credit on its way (R274). -/
theorem State.replayEntry_eq (s : State) (k : Nat) (c : Context) :
    let h := s.ringBytes k c c.land.head 0 32
    let n := recField h 12 2
    s.replayEntry k c = ((s.writeWindow k (recField h 8 4)
      (if (recField h 4 4).testBit 20 then List.replicate n 0 else s.ringBytes k c c.land.head 64 n) (recField h 14 2)).addCredits
        (if (recField h 4 4).testBit 21 then
          [{ loc := { pkg := recField h 28 4 % 4096, pa := recField h 16 8 % 2 ^ 52, home := recField h 16 8 / 2 ^ 52 % 16,
                      dev := false, own := false }, bytes := n, poison := decide (recField h 14 2 % 16 ≠ 0) }] else [])).updCtx k
        (fun c => { c with land := { c.land with head := c.land.head + 1 } }) := by
  intro h n
  rw [← State.addCredits_if]
  rfl

/-! ### Refetches (R280) -/

/-- Reading a chunk of a copy operation fills only what it has read. -/
def CopyOp.SameShape (o o1 : CopyOp) : Prop := ∃ got remote, o1 = { o with got := got, remote := remote }

theorem CopyOp.perform_sameShape (s : State) (c : Context) (o : CopyOp) (x : CopyOp × Option XFault) (n : Nat) (h : o.SameShape x.1) :
    o.SameShape (CopyOp.perform s c x n).1 := by
  obtain ⟨o1, f⟩ := x
  obtain ⟨got, remote, rfl⟩ := h
  unfold CopyOp.perform
  split
  · exact ⟨got, remote, rfl⟩
  · split
    · exact ⟨got, remote, rfl⟩
    · dsimp only
      split
      · exact ⟨got, remote, rfl⟩
      · exact ⟨_, _, rfl⟩

theorem CopyOp.gather_sameShape (s : State) (c : Context) (o : CopyOp) (ch : Nat) : o.SameShape (CopyOp.gather s c o ch).1 := by
  have hfold : ∀ (l : List Nat) (x : CopyOp × Option XFault), o.SameShape x.1 → o.SameShape (l.foldl (CopyOp.perform s c) x).1 := by
    intro l
    induction l with
    | nil => exact fun x hx => hx
    | cons n l ih => exact fun x hx => ih _ (CopyOp.perform_sameShape s c o x n hx)
  exact hfold _ _ ⟨_, _, rfl⟩

theorem bufKey_line_inj {buf tile l l' : Nat} (h : bufKey buf tile l = bufKey buf tile l') : l = l' := by
  unfold bufKey at h
  omega

theorem Core.fillChunk_line (r : Core) (buf tile ch : Nat) (d : List (Byte × Bool)) {i : Nat} (hi : i < 4) :
    (r.fillChunk buf tile ch d).line (bufKey buf tile (4 * ch + i)) =
      { data := lineOfBytes (((d.drop (64 * i)).take 64).map (·.1)), poison := ((d.drop (64 * i)).take 64).any (·.2) } := by
  have hsplit : ∃ pre post, List.range 4 = pre ++ i :: post ∧ ∀ x ∈ post, x ≠ i := by
    interval_cases i
    · exact ⟨[], [1, 2, 3], rfl, by decide⟩
    · exact ⟨[0], [2, 3], rfl, by decide⟩
    · exact ⟨[0, 1], [3], rfl, by decide⟩
    · exact ⟨[0, 1, 2], [], rfl, by decide⟩
  obtain ⟨pre, post, hrange, hpost⟩ := hsplit
  change SMap.getD (putLines (fun i => bufKey buf tile (4 * ch + i))
    (fun i => { data := lineOfBytes (((d.drop (64 * i)).take 64).map (·.1)), poison := ((d.drop (64 * i)).take 64).any (·.2) })
    (List.range 4) r.lines) _ _ = _
  rw [hrange]
  refine getD_putLines_last _ _ _ _ pre post i fun x hx h => hpost x hx ?_
  have := bufKey_line_inj h
  omega

theorem execTileRefetch_begins {s : State} {k : Nat} {c : Context} {x : Refetch} {rest : List Refetch} (h : s.ctx k = some c)
    (hs : c.status = .resident) (hf : c.isFrozen = false) (hz : (s.core c.coreKey).frozen = false) (hr : (s.core c.coreKey).retired = false)
    (hops : ∀ o ∈ c.fl.copyOps, o.idx ≠ 0) (hx : c.sch.toRefetch = x :: rest) :
    execTileRefetch k s = .next (s.setCtx k { c with
      sch := { c.sch with toRefetch := rest }
      fl := { c.fl with nextId := c.fl.nextId + 1, copyOps := x.copyOp c.fl.nextId :: c.fl.copyOps } }) := by
  have hfind : c.fl.copyOps.find? (fun o => decide (o.idx = 0)) = none := List.find?_eq_none.mpr fun o ho => by simpa using hops o ho
  rw [execTileRefetch, atCtx_of h]
  simp only [hs, hf, hz, hr, hfind, hx]
  rfl

theorem execTileRefetch_chunk {s : State} {k : Nat} {c : Context} {o : CopyOp} (h : s.ctx k = some c)
    (hs : c.status = .resident) (hf : c.isFrozen = false) (hz : (s.core c.coreKey).frozen = false) (hr : (s.core c.coreKey).retired = false)
    (ho : c.fl.copyOps.find? (fun o => decide (o.idx = 0)) = some o) (hst : o.state = .running) :
    execTileRefetch k s = .next (s.refetchChunk k c o) := by
  rw [execTileRefetch, atCtx_of h]
  simp only [hs, hf, hz, hr, ho, hst]
  rfl

theorem State.refetchChunk_of_read {s : State} (k : Nat) {c : Context} {o : CopyOp} (ht : s.chanTurn c o.w.ch.toNat = true)
    (hm : (s.core c.coreKey).hasMoved o.w.ch.toNat 256 = true) (hg : (CopyOp.gather s c o o.done).2 = none) :
    s.refetchChunk k c o =
      let o1 := (CopyOp.gather s c o o.done).1
      ((s.serveList c o.w.ch.toNat).updCore c.coreKey
        (fun r => r.fillChunk o.buf (winBase (c.window o.buf) + o.w.tile.toNat) o.done (chunkOf s c o1 o.done).data)).setCtx k
          (if o1.nextChunk.chunks ≤ o1.nextChunk.done then c.endRefetch s o1.nextChunk else c.setOp o1.nextChunk) := by
  unfold State.refetchChunk
  dsimp only
  rw [ht, hm]
  generalize hgo : CopyOp.gather s c o o.done = g at *
  obtain ⟨o1, f⟩ := g
  obtain rfl : f = none := hg
  rfl

/-! ### HALT (R48, R266, R292, R309) -/

theorem SMap.getD_map_values {α : Type} (g : α → α) (m : SMap α) (k : Nat) (d : α) :
    SMap.getD (m.map (fun p => (p.1, g p.2))) k (g d) = g (SMap.getD m k d) := by
  unfold SMap.getD
  rw [SMap.find_map_values]
  cases SMap.find m k <;> rfl

/-- A Serac die's persistent entries of an ended context are freed (R309). -/
def Serac.endPosts (k : Nat) (x : Serac) : Serac := { x with entries := x.entries.map (fun e => (e.1, e.2.endedWith k)) }

theorem State.freePersistent_serac (s : State) (k x : Nat) : (s.freePersistent k).serac x = (s.serac x).endPosts k :=
  SMap.getD_map_values (Serac.endPosts k) s.seracs x Serac.reset

theorem State.freePersistent_entries (s : State) (k x i : Nat) :
    SMap.find ((s.freePersistent k).serac x).entries i = (SMap.find (s.serac x).entries i).map (Posted.endedWith k) := by
  rw [State.freePersistent_serac]
  exact SMap.find_map_values (Posted.endedWith k) _ i

theorem State.countHalted_frame (s : State) (gid : Nat) : (s.countHalted gid).contexts = s.contexts ∧ (s.countHalted gid).mem = s.mem ∧
    (s.countHalted gid).dies = s.dies ∧ (s.countHalted gid).seracs = s.seracs := by
  unfold State.countHalted
  split
  · dsimp only
    split <;> exact ⟨rfl, rfl, rfl, rfl⟩
  · exact ⟨rfl, rfl, rfl, rfl⟩

theorem State.countHalted_graph {s : State} {gid : Nat} {g : Graph} (h : SMap.find s.graphs gid = some g) :
    SMap.find (s.countHalted gid).graphs gid = some { g with halted := g.halted + 1 } := by
  unfold State.countHalted
  rw [h]
  dsimp only
  split <;> exact SMap.find_put_self ..

theorem Die.leaveGang_record (d : Die) {tenant : BitVec 16} {gang : BitVec 20} {i : Nat} (h : d.recordOf tenant gang = some i) :
    let f := SMap.getD d.fair i FairRec.empty
    SMap.getD (d.leaveGang tenant gang).fair i FairRec.empty =
      { f with valid := decide (1 < f.contexts.toNat), contexts := f.contexts - 1 } := by
  unfold Die.leaveGang
  rw [h]
  exact SMap.getD_put_self ..

theorem State.endContext_of {s : State} {k : Nat} {c : Context} (h : s.ctx k = some c) (status : CtxStatus) : s.endContext k status =
    ((s.saveContext k status).updDie c.die (fun d => d.leaveGang c.id.tenant c.id.gang)).freePersistent k := by
  rw [State.endContext, h]

/-- What the end of a halting context leaves. -/
theorem State.haltEnd_spec {s : State} {k : Nat} {c : Context} (h : s.ctx k = some c) :
    let t := (s.endContext k .halted).countHalted c.id.graph
    (∃ c', t.ctx k = some c' ∧ c'.status = .halted ∧ c'.slot = none ∧ c'.wait = c.wait) ∧ (∀ a, t.memByte a = s.memByte a) ∧
      (∀ g, SMap.find s.graphs c.id.graph = some g → SMap.find t.graphs c.id.graph = some { g with halted := g.halted + 1 }) ∧
      (∀ i, (s.die c.die).recordOf c.id.tenant c.id.gang = some i →
        let f := SMap.getD (s.die c.die).fair i FairRec.empty
        SMap.getD (t.die c.die).fair i FairRec.empty = { f with valid := decide (1 < f.contexts.toNat), contexts := f.contexts - 1 }) ∧
      ∀ x i, SMap.find (t.serac x).entries i = (SMap.find (s.serac x).entries i).map (Posted.endedWith k) := by
  intro t
  obtain ⟨c', hc', hstatus, hslot, -, hwait, -, -, -, -, -, -, -, -, hsave⟩ := State.saveContext_spec h .halted
  obtain ⟨hctx, hmem, hdies, hseracs⟩ := (s.endContext k .halted).countHalted_frame c.id.graph
  have hend := State.endContext_of h .halted
  refine ⟨⟨c', ?_, hstatus, hslot, hwait⟩, fun a => ?_, fun g hg => ?_, fun i hi => ?_, fun x i => ?_⟩
  · unfold State.ctx
    rw [hctx, hend]
    exact hc'
  · unfold State.memByte
    rw [hmem, hend, hsave]
    rfl
  · refine State.countHalted_graph ?_
    rw [hend, hsave]
    exact hg
  · have hdie : t.die c.die = (s.die c.die).leaveGang c.id.tenant c.id.gang := by
      unfold State.die
      rw [hdies, hend, hsave]
      exact State.die_updDie_self ((s.leaveSlot k c).setCtx k c') c.die (fun d => d.leaveGang c.id.tenant c.id.gang)
    rw [hdie]
    exact (s.die c.die).leaveGang_record hi
  · have hserac : t.serac x = ((s.endContext k .halted).serac x) := by
      unfold State.serac
      rw [hseracs]
    rw [hserac, hend, State.freePersistent_entries, hsave]
    rfl

/-! ### The settled statement -/

theorem atCore_of_retired {s : State} {k : Nat} {c : Context} (h : s.ctx k = some c) (hr : s.onRetired c = true) (f : Context → State) :
    atCore s k f = .next s := by
  rw [atCore, atCtx_of h, hr]
  rfl

/-- A context that is RESIDENT on a retired core is frozen in its state (R282). -/
theorem retired_still (s : State) (k n : Nat) (l : LoadRef) (c : Context) (h : s.ctx k = some c) (hm : c.management = false)
    (hs : c.status = .resident) (hret : (s.core c.coreKey).retired = true) :
    ∀ i ∈ [Instr.checkpointLatest k, .intervalCheckpoint k, .contextDrain k, .rollback k, .contextRestore k, .sliceEnd k, .haltComplete k,
        .drainqComplete k, .spinTimeout k, .landingReplay k, .tileRefetch k, .bundleTrap k, .uliDelivery k, .watchdogFire k, .bundleCommit k,
        .landingDataArrives k n, .timedLanding k, .loadPerform k l, .phaseSend k n, .phaseComplete k n, .syncAnswerArrival k n,
        .waiterBusyResend k, .postAccept k],
      exec i s = .next s := by
  have hr : s.onRetired c = true := by
    rw [State.onRetired, hm, hs, hret]
    rfl
  have still := atCore_of_retired h hr
  have hrestore : exec (.contextRestore k) s = .next s := by
    rw [exec_contextRestore, execContextRestore, atCtx_of h, hs]
    rfl
  have hrefetch : exec (.tileRefetch k) s = .next s := by
    rw [exec_tileRefetch, execTileRefetch, atCtx_of h]
    dsimp only
    rw [hret, Bool.or_true]
    rfl
  simp only [List.forall_mem_cons]
  exact ⟨still _, still _, still _, still _, hrestore, still _, still _, still _, still _, still _, hrefetch, still _, still _, still _,
    still _, still _, still _, still _, still _, still _, still _, still _, still _, fun _ h => nomatch h⟩

section
variable {s : State} {k : Nat} {c : Context} (h : s.ctx k = some c) (hr : s.onRetired c = false)
include h hr

theorem execContextDrain_spec (hp : c.sch.preempt = some .drain) (hs : c.status = .resident) (hf : c.isFrozen = false) (hd : c.drained = true) :
    ∃ t c', exec (.contextDrain k) s = .next t ∧ t.ctx k = some c' ∧ c'.status = .nonres ∧ c'.slot = none ∧
      c'.thread = (c.performLoads s).thread ∧ c'.be = c.be ∧ c'.fl = c.fl ∧ c'.queue = c.queue ∧ c'.ord.pbuf = c.ord.pbuf ∧ c'.ord.snapshot = [] ∧
      c'.thread.loads = [] ∧ c'.sch.savedLines = c.windowLines (s.core c.coreKey) ∧
      c'.sch.preempt = none ∧ (∀ slot, (slot, k) ∉ (t.core c.coreKey).slots) ∧ (∀ a, t.memByte a = s.memByte a) := by
  obtain ⟨c', hc', hstatus, hslot, hthread, -, hbe, hfl, hqueue, -, -, ⟨x, hord, hx⟩, hlines, hpre, hsave⟩ := State.saveContext_spec h .nonres
  have he : exec (.contextDrain k) s = .next (s.saveContext k .nonres) := by
    rw [exec_contextDrain, execContextDrain, atCore_of h hr, hp, hs, hf, hd]
    rfl
  have hwin : (c.status == .resident) = true := by rw [hs]; rfl
  refine ⟨_, c', he, hc', hstatus, hslot, hthread, hbe, hfl, hqueue, by rw [hord], by rw [hord, hx], ?_, ?_, hpre, fun slot => ?_, fun a => ?_⟩
  · rw [hthread]
    exact c.performLoads_loads s
  · rw [hlines, if_pos hwin]
  · rw [hsave, State.setCtx_core]
    exact s.leaveSlot_free k c slot
  · rw [hsave]
    rfl

theorem execRollback_spec (hp : c.sch.preempt = some .rollback) (hs : c.status = .resident) (hf : c.isFrozen = false) (hstop : c.stopped = true)
    (m : Marker) (he : c.eligible = true) (hm : c.chk.latest = some m) :
    let key (w : Context) (buf wl : Nat) : Nat := bufKey buf (winBase (w.window (if buf = 3 then 2 else buf)) + wl / 256) (wl % 256)
    ∃ t c', exec (.rollback k) s = .next t ∧ t.ctx k = some c' ∧
        c'.status = .nonres ∧ c'.slot = none ∧ (m.thread.loads = [] → c'.thread = m.thread) ∧
        c'.thread = { m.thread with regs := c'.thread.regs, rpoison := c'.thread.rpoison, loads := [] } ∧
        (∀ x, (∀ l ∈ m.thread.loads, l.d ≠ x) → c'.thread.reg x = m.thread.reg x ∧ c'.thread.regPoison x = m.thread.regPoison x) ∧ c'.wait = .none ∧ c'.queue = [] ∧ c'.fl.issued = [] ∧
        c'.fl.landings = [] ∧ c'.fl.copyOps = [] ∧ c'.fl.mtxOps = [] ∧ c'.fl.syncOps = [] ∧ c'.ord.pbuf = [] ∧ c'.ord.phases = [] ∧
        c'.be = { c.atMarker m with cstat := c'.be.cstat } ∧
        ((∀ w ∈ c.fl.journal, m.idx ≤ w.idx) → (∀ p ∈ c.fl.pendingFmt, m.idx ≤ p.idx) → c'.be = { m.shadow with cstat := c'.be.cstat }) ∧
        (∀ pre e post, m.lines = pre ++ e :: post → (∀ x ∈ post, key c x.1 x.2.1 ≠ key c e.1 e.2.1) →
          (t.core c.coreKey).line (key c e.1 e.2.1) = { data := e.2.2.1, poison := e.2.2.2 }) ∧
        (∀ x, (∀ e ∈ m.lines, key c e.1 e.2.1 ≠ x) → (t.core c.coreKey).line x = (s.core c.coreKey).line x) ∧
        (s.MemWf → (∀ pre e post, m.own = pre ++ e :: post → (∀ x ∈ post, x.1 ≠ e.1) →
            (∀ j, j < 64 → t.memByte (64 * e.1 + j) = lineByte e.2.1 j) ∧ t.poison.contains e.1 = e.2.2) ∧
          ∀ a, (∀ e ∈ m.own, a / 64 ≠ e.1) → t.memByte a = s.memByte a) := by
  intro key
  have hctx : ((s.undone k c m).setCtx k (c.rolledBack m)).ctx k = some (c.rolledBack m) := State.ctx_setCtx_self _ _ _
  obtain ⟨c', hc', hstatus, hslot, hthread, hwait, hbe, hfl, hqueue, -, -, ⟨x, hord, -⟩, -, -, hsave⟩ := State.saveContext_spec hctx .nonres
  obtain ⟨regs, rpoison, loads, snapshot, hload⟩ :=
    (c.rolledBack m).performLoads_performed ((s.undone k c m).setCtx k (c.rolledBack m))
  have hnil : c'.thread.loads = [] := by
    rw [hthread]
    exact (c.rolledBack m).performLoads_loads _
  have hline : ∀ x, ((((s.undone k c m).setCtx k (c.rolledBack m)).saveContext k .nonres).core c.coreKey).line x =
      SMap.getD (putLines (fun e => c.lineKeyOf e.1 e.2.1) (fun e => { data := e.2.2.1, poison := e.2.2.2 }) m.lines (s.core c.coreKey).lines) x
        { data := 0, poison := false } := fun x => by
    have hcore : (((s.undone k c m).setCtx k (c.rolledBack m)).saveContext k .nonres).core c.coreKey =
        { (s.undone k c m).core c.coreKey with slots := ((s.undone k c m).core c.coreKey).slots.filter (fun p => decide (p.2 ≠ k)) } := by
      rw [hsave]
      exact State.leaveSlot_core _ k (c.rolledBack m)
    rw [hcore, State.undone_core]
    rfl
  have hmem : ∀ a, (((s.undone k c m).setCtx k (c.rolledBack m)).saveContext k .nonres).memByte a =
      (m.own.foldl (State.undoOwnLine c) ((s.withdrawWaiters k).undoLines c m)).memByte a := fun a => by
    rw [hsave]
    rfl
  have htag : (((s.undone k c m).setCtx k (c.rolledBack m)).saveContext k .nonres).poison =
      (m.own.foldl (State.undoOwnLine c) ((s.withdrawWaiters k).undoLines c m)).poison := by
    rw [hsave]
    rfl
  have hbe' : c'.be = { c.atMarker m with cstat := c'.be.cstat } := by
    rw [hbe]
    exact c.rolledBack_be m
  refine ⟨_, c', execRollback_of_eligible h hr hp hs hf hstop he hm, hc', hstatus, hslot, fun hl => ?_, ?_, fun x hx => ?_, hwait, hqueue,
    by rw [hfl]; rfl, by rw [hfl]; rfl, by rw [hfl]; rfl, by rw [hfl]; rfl, by rw [hfl]; rfl, by rw [hord]; rfl, by rw [hord]; rfl, hbe',
    fun hj hpf => ?_, fun pre e post hpre hpost => ?_, fun x hx => ?_, fun hwf => ⟨fun pre e post hpre hpost => ?_, fun a ha => ?_⟩⟩
  · rw [hthread, Context.performLoads_of_nil]
    · rfl
    · exact hl
  · have hshape : c'.thread = { m.thread with regs := regs, rpoison := rpoison, loads := loads } := by
      rw [hthread, hload]
      rfl
    rw [hshape] at hnil ⊢
    obtain rfl : loads = [] := hnil
    rfl
  · rw [hthread]
    exact (c.rolledBack m).performLoads_reg _ x hx
  · rw [hbe', c.atMarker_of_later m hj hpf]
  · rw [hline, hpre]
    exact getD_putLines_last _ _ _ _ pre post e hpost
  · rw [hline]
    exact getD_putLines_frame _ _ x _ m.lines _ hx
  · obtain ⟨hbytes, hpoison⟩ := foldl_undoOwn_last c (State.undoLines_memWf k c m hwf) pre post e hpost
    refine ⟨fun j hj => ?_, ?_⟩
    · rw [hmem, hpre]
      exact hbytes j hj
    · rw [htag, hpre]
      exact hpoison
  · rw [hmem, (foldl_undoOwn_frame c m.own _ (State.undoLines_memWf k c m hwf)).1 a ha, State.undoLines_frame]

theorem execHaltComplete_phase (hw : c.wait = .halt) (hready : c.haltReady = true) :
    exec (.haltComplete k) s = .next (s.setCtx k { c with wait := .haltPhase, ord := { c.ord with
      phases := c.ord.phases ++ [{ owner := .halt, scope := 3, sent := false, after := [], phaseNo := c.fl.nextId }] } }) := by
  rw [exec_haltComplete, execHaltComplete, atCore_of h hr, hw, hready]
  rfl

theorem execHaltComplete_ends (hw : c.wait = .haltPhase) (hready : c.haltReady = true) (hp : ∀ p ∈ c.ord.phases, p.owner ≠ .halt) :
    exec (.haltComplete k) s = .next (if c.isFirmware then s.setCtx k { c with status := .halted, wait := .none, slot := none }
      else ((s.setCtx k { c.progress with wait := .none }).endContext k .halted).countHalted c.id.graph) := by
  have hnone : c.ord.phases.any (fun p => p.owner == .halt) = false := by
    rw [List.any_eq_false]
    exact fun p hpm => by simpa using hp p hpm
  rw [exec_haltComplete, execHaltComplete, atCore_of h hr, hw, hready, hnone]
  rfl

theorem execLandingReplay_entry (hs : c.status = .resident) (hrep : c.land.replaying = true) (hf : c.isFrozen = false)
    (href : c.refetched = true) (hne : c.land.head ≠ c.land.tail) : exec (.landingReplay k) s = .next ((s.replayEntry k c).updCtx k
      (fun c => { c with land := { c.land with replaying := c.land.head != c.land.tail } })) := by
  rw [exec_landingReplay, execLandingReplay, atCore_of h hr, hs, hrep, hf, href]
  exact congrArg Host.Outcome.next (if_neg hne)

omit hr in
theorem execContextRestore_spec (slot : Nat) (hs : c.status = .nonres) (hslot : c.slot = some slot) (hf : c.isFrozen = false)
    (hret : (s.core c.coreKey).retired = false) :
    let r := s.core c.coreKey
    let key (w : Context) (buf wl : Nat) : Nat := bufKey buf (winBase (w.window (if buf = 3 then 2 else buf)) + wl / 256) (wl % 256)
    ∃ t c', exec (.contextRestore k) s = .next t ∧ t.ctx k = some c' ∧ c'.status = .resident ∧ c'.slot = some slot ∧
        c'.thread = c.thread ∧ c'.land.head = c.land.head ∧ c'.land.replaying = (c.land.head != c.land.tail) ∧
        c'.sch.toRefetch = c.sch.refetch ∧ c'.sch.savedLines = [] ∧
        winBase c'.id.winF = regionBase r.slotWinF slot ∧ winBase c'.id.winW = regionBase r.slotWinW slot ∧
        winBase c'.id.winC = regionBase r.slotWinC slot ∧
        (∀ pre e post, c.sch.savedLines = pre ++ e :: post → (∀ x ∈ post, key c' x.1 x.2.1 ≠ key c' e.1 e.2.1) →
          (t.core c.coreKey).line (key c' e.1 e.2.1) = e.2.2) ∧
        (∀ x, (∀ e ∈ c.sch.savedLines, key c' e.1 e.2.1 ≠ x) →
          (t.core c.coreKey).line x = if c'.ownsLine x then { data := 0, poison := false } else r.line x) ∧
        (∀ a, t.memByte a = s.memByte a) := by
  intro r key
  have he : exec (.contextRestore k) s = .next ((s.setCore c.coreKey (r.loadLines (c.inSlot r slot))).setCtx k (c.restored r slot)) := by
    rw [exec_contextRestore, execContextRestore, atCtx_of h, hs, hslot, hf, hret, State.makeResident_saved h hs hslot]
    rfl
  obtain ⟨hthread, hstatus, hsl, hid, hland, href, hsaved⟩ := c.restored_frame r slot
  have hkey : ∀ buf wl, key (c.restored r slot) buf wl = (c.inSlot r slot).lineKeyOf buf wl := fun buf wl => by
    unfold key Context.lineKeyOf Context.window
    rw [hid]
    rfl
  have howns : ∀ x, (c.restored r slot).ownsLine x = (c.inSlot r slot).ownsLine x := fun x => by
    unfold Context.ownsLine Context.window
    rw [hid]
    rfl
  have hline : ∀ x, (((s.setCore c.coreKey (r.loadLines (c.inSlot r slot))).setCtx k (c.restored r slot)).core c.coreKey).line x =
      (r.loadLines (c.inSlot r slot)).line x := fun x => by
    rw [State.setCtx_core, State.core_setCore_self]
  refine ⟨_, c.restored r slot, he, State.ctx_setCtx_self _ _ _, hstatus, hsl.trans hslot, hthread, by rw [hland], by rw [hland], href, hsaved,
    ?_, ?_, ?_, fun pre e post hpre hpost => ?_, fun x hx => ?_, fun a => rfl⟩
  · rw [hid]
    exact winBase_withBase _ _ (regionBase_lt _ _)
  · rw [hid]
    exact winBase_withBase _ _ (regionBase_lt _ _)
  · rw [hid]
    exact winBase_withBase _ _ (regionBase_lt _ _)
  · simp only [hkey] at hpost ⊢
    rw [hline, Core.loadLines_line, show (c.inSlot r slot).sch.savedLines = pre ++ e :: post from hpre]
    exact getD_putLines_last _ _ _ _ pre post e hpost
  · simp only [hkey] at hx
    have hx' : ∀ e ∈ (c.inSlot r slot).sch.savedLines, (c.inSlot r slot).lineKeyOf e.1 e.2.1 ≠ x := hx
    rw [hline, Core.loadLines_line, getD_putLines_frame _ _ x _ _ _ hx', howns]
    exact r.kept_line (c.inSlot r slot) x

theorem execLandingReplay_spec (hs : c.status = .resident) (hrep : c.land.replaying = true) (hf : c.isFrozen = false)
    (href : c.refetched = true) (hne : c.land.head ≠ c.land.tail) :
    let h := s.ringBytes k c c.land.head 0 32
    let n := recField h 12 2
    let w := s.writeWindow k (recField h 8 4)
      (if (recField h 4 4).testBit 20 then List.replicate n 0 else s.ringBytes k c c.land.head 64 n) (recField h 14 2)
    ∃ t c' c1, exec (.landingReplay k) s = .next t ∧ t.ctx k = some c' ∧ w.ctx k = some c1 ∧
      c' = { c1 with land := { c.land with head := c.land.head + 1, replaying := (c.land.head + 1 != c.land.tail) } } ∧
      t.cores = w.cores ∧ c'.thread = c.thread ∧ (∀ a, t.memByte a = s.memByte a) ∧
      t.credits = s.credits ++ (if (recField h 4 4).testBit 21 then
        [{ loc := { pkg := recField h 28 4 % 4096, pa := recField h 16 8 % 2 ^ 52, home := recField h 16 8 / 2 ^ 52 % 16,
                    dev := false, own := false }, bytes := n, poison := decide (recField h 14 2 % 16 ≠ 0) }] else []) := by
  intro hd n w
  obtain ⟨⟨c1, hc1, hthread, hland⟩, hcred, hmem⟩ := State.writeWindow_frame h (recField hd 8 4)
    (if (recField hd 4 4).testBit 20 then List.replicate n 0 else s.ringBytes k c c.land.head 64 n) (recField hd 14 2)
  have he := execLandingReplay_entry h hr hs hrep hf href hne
  have hc2 : (w.addCredits (if (recField hd 4 4).testBit 21 then
      [{ loc := { pkg := recField hd 28 4 % 4096, pa := recField hd 16 8 % 2 ^ 52, home := recField hd 16 8 / 2 ^ 52 % 16,
                  dev := false, own := false }, bytes := n, poison := decide (recField hd 14 2 % 16 ≠ 0) }] else [])).ctx k = some c1 := hc1
  rw [s.replayEntry_eq, State.updCtx_of hc2, State.updCtx_of (State.ctx_setCtx_self _ _ _)] at he
  refine ⟨_, _, c1, he, State.ctx_setCtx_self _ _ _, hc1, ?_, rfl, hthread, fun a => ?_, ?_⟩
  · rw [hland]
  · exact congrArg (Memory.read · a) hmem
  · exact congrArg (· ++ _) hcred

omit hr in
theorem execTileRefetch_spec (hs : c.status = .resident) (hf : c.isFrozen = false) (hz : (s.core c.coreKey).frozen = false)
    (hret : (s.core c.coreKey).retired = false) (o : CopyOp) (ho : c.fl.copyOps.find? (fun o => decide (o.idx = 0)) = some o)
    (hst : o.state = .running) (ht : s.chanTurn c o.w.ch.toNat = true) (hm : (s.core c.coreKey).hasMoved o.w.ch.toNat 256 = true)
    (hg : (CopyOp.gather s c o o.done).2 = none) :
    let o1 := (CopyOp.gather s c o o.done).1
    let x := (chunkOf s c o1 o.done).data
    ∃ t c', exec (.tileRefetch k) s = .next t ∧ t.ctx k = some c' ∧
      (∀ i, i < 4 → (t.core c.coreKey).line (bufKey o.buf (winBase (c.window o.buf) + o.w.tile.toNat) (4 * o.done + i)) =
        { data := lineOfBytes (((x.drop (64 * i)).take 64).map (·.1)), poison := ((x.drop (64 * i)).take 64).any (·.2) }) ∧
      (o.done + 1 < o.chunks → c' = c.setOp o1.nextChunk) ∧
      (o.chunks ≤ o.done + 1 → c'.fl.copyOps = c.fl.copyOps.filter (fun y => y.id ≠ o.id) ∧
        (readsOnlyRo s c o1.nextChunk = true → c'.sch.refetch = c.sch.refetch)) ∧ t.mem = s.mem := by
  intro o1 x
  have he := execTileRefetch_chunk h hs hf hz hret ho hst
  rw [State.refetchChunk_of_read k ht hm hg] at he
  obtain ⟨got, remote, hshape⟩ : o.SameShape o1 := CopyOp.gather_sameShape s c o o.done
  have hchunks : o1.nextChunk.chunks = o.chunks := by rw [hshape]; rfl
  have hdone : o1.nextChunk.done = o.done + 1 := by rw [hshape]; rfl
  have hid : o1.nextChunk.id = o.id := by rw [hshape]; rfl
  refine ⟨_, _, he, State.ctx_setCtx_self _ _ _, fun i hi => ?_, fun hlt => ?_, fun hle => ?_, rfl⟩
  · rw [State.setCtx_core, State.core_updCore_self]
    exact Core.fillChunk_line _ _ _ _ _ hi
  · exact if_neg (by rw [hchunks, hdone]; omega)
  · have hlast : o1.nextChunk.chunks ≤ o1.nextChunk.done := by rw [hchunks, hdone]; exact hle
    rw [if_pos hlast]
    refine ⟨?_, fun hro => if_pos hro⟩
    rw [← hid]
    rfl

end

/-- Settles O49: each step by the equation of its event; lines and bytes put one after another hold the last value put. -/
theorem residencyResults : Obligations.ResidencyResults := by
  refine ⟨retired_still, fun s k c h hr => ⟨fun m hm hw hset => ?_, fun hdue => ?_, fun hp hs hf hd => execContextDrain_spec h hr hp hs hf hd,
    fun hp hs hf hstop => ⟨fun m he hm => execRollback_spec h hr hp hs hf hstop m he hm, fun he => execRollback_of_lost h hr hp hs hf hstop he⟩,
    fun slot hs hslot hf hret => execContextRestore_spec h slot hs hslot hf hret, fun hw hready => execHaltComplete_phase h hr hw hready,
    fun hw hready hp => ⟨fun hfw => ?_, fun hfw => ?_⟩, fun hw hruns hstop hidle hsync hdone => ?_,
    fun hs hrep hf href => ⟨fun hempty => ?_, fun hne => execLandingReplay_spec h hr hs hrep hf href hne⟩,
    fun hs hf hz hret => ⟨fun x rest hops hx => execTileRefetch_begins h hs hf hz hret hops hx,
      fun o ho hst ht hm hg => execTileRefetch_spec h hs hf hz hret o ho hst ht hm hg⟩⟩⟩
  · rw [exec_checkpointLatest, execCheckpointLatest, atCore_of h hr, hm]
    dsimp only
    rw [hw, hset]
    rfl
  · rw [exec_intervalCheckpoint, execIntervalCheckpoint, atCore_of h hr, if_pos hdue]
    rfl
  · rw [execHaltComplete_ends h hr hw hready hp, if_pos hfw]
  · have he := execHaltComplete_ends h hr hw hready hp
    rw [hfw, if_neg Bool.false_ne_true] at he
    have hc : (s.setCtx k { c.progress with wait := .none }).ctx k = some { c.progress with wait := .none } := State.ctx_setCtx_self _ _ _
    obtain ⟨⟨c', hc', hstatus, hslot, hwait⟩, hmem, hgraph, hrec, hposts⟩ := State.haltEnd_spec hc
    exact ⟨_, c', he, hc', hstatus, hslot, hwait, hmem, hgraph, hrec, hposts⟩
  · rw [exec_drainqComplete, execDrainqComplete, atCore_of h hr, hw, hruns, hstop, hidle, hsync, hdone]
    rfl
  · rw [exec_landingReplay, execLandingReplay, atCore_of h hr, hs, hrep, hf, href]
    exact congrArg Host.Outcome.next (if_pos hempty)

end Sys2Proof.Machine
end

section
/-! PROOFS. BUNDLE traps, interrupts, freezes, dumps, events (O50). -/

namespace Sys2Proof.Machine

/-! ### Write steps at a home and the dies -/

/-- A key's value after every entry is changed in its place, by its key. -/
theorem SMap.find_map_keyed {α β : Type} (g : Nat → α → β) (m : SMap α) (k : Nat) :
    SMap.find (m.map (fun p => (p.1, g p.1 p.2))) k = (SMap.find m k).map (g k) := by
  induction m with
  | nil => rfl
  | cons p rest ih =>
    obtain ⟨j, a⟩ := p
    by_cases hj : j = k
    · subst hj
      simp [SMap.find]
    · have hskip : SMap.find ((j, a) :: rest) k = SMap.find rest k := if_neg hj
      rw [hskip, ← ih]
      exact if_neg hj

/-- A die's waiters re-tested. -/
def Die.answered (s : State) (pkg line : Nat) (progress : Bool) (k : Nat) (d : Die) : Die :=
  if k / 8 = pkg then { d with waiters := answerTable s pkg line progress d.waiters } else d

theorem State.answerWaiters_dies (s : State) (pkg line : Nat) (g : Bool) :
    (s.answerWaiters pkg line g).dies = s.dies.map (fun p => (p.1, p.2.answered s pkg line g p.1)) := by
  refine List.map_congr_left fun p _ => ?_
  obtain ⟨k, d⟩ := p
  unfold Die.answered
  dsimp only
  split <;> rfl

theorem State.answerWaiters_die (s : State) (pkg line : Nat) (g : Bool) (k : Nat) :
    ∃ w, (s.answerWaiters pkg line g).die k = { s.die k with waiters := w } := by
  unfold State.die SMap.getD
  rw [State.answerWaiters_dies, SMap.find_map_keyed (fun k d => Die.answered s pkg line g k d)]
  cases SMap.find s.dies k with
  | none => exact ⟨_, rfl⟩
  | some d =>
    dsimp only [Option.map_some]
    unfold Die.answered
    split
    · exact ⟨_, rfl⟩
    · exact ⟨d.waiters, rfl⟩

theorem State.tagLine_dies (s : State) (pkg line : Nat) (full p : Bool) : (s.tagLine pkg line full p).dies = s.dies := by
  unfold State.tagLine
  dsimp only
  split <;> split <;> rfl

/-- What a write step changes of a die is its table of waiters. -/
theorem State.homeWriteLine_die (s : State) (pkg line : Nat) (mask : BitVec 64) (data : Line) (p g : Bool) (k : Nat) :
    ∃ w, (s.homeWriteLine pkg line mask data p g).die k = { s.die k with waiters := w } := by
  unfold State.homeWriteLine
  split
  · exact ⟨_, rfl⟩
  · obtain ⟨w, hw⟩ := State.answerWaiters_die (State.tagLine { s with mem := writeMasked s.mem (memKey pkg (line * 64)) mask data 64 } pkg line
      (mask == BitVec.allOnes 64) p) pkg line g k
    refine ⟨w, hw.trans ?_⟩
    unfold State.die
    rw [State.tagLine_dies]

theorem State.homeWriteBytes_die (s : State) (pkg pa : Nat) (b : List Byte) (p g : Bool) (k : Nat) :
    ∃ w, (s.homeWriteBytes pkg pa b p g).die k = { s.die k with waiters := w } := by
  unfold State.homeWriteBytes
  split
  · exact ⟨_, rfl⟩
  · generalize List.range _ = l
    induction l generalizing s with
    | nil => exact ⟨_, rfl⟩
    | cons i l ih =>
      obtain ⟨w, h⟩ := s.homeWriteLine_die pkg (pa / 64 + i) (rangeInLine pa b (pa / 64 + i)).1 (rangeInLine pa b (pa / 64 + i)).2 p g k
      obtain ⟨w', h'⟩ := ih (s.homeWriteLine pkg (pa / 64 + i) (rangeInLine pa b (pa / 64 + i)).1 (rangeInLine pa b (pa / 64 + i)).2 p g)
      simp only [List.foldl_cons]
      refine ⟨w', ?_⟩
      rw [h', h]

theorem State.homeWriteBytes_serac (s : State) (pkg pa : Nat) (b : List Byte) (p g : Bool) (k : Nat) :
    (s.homeWriteBytes pkg pa b p g).serac k = s.serac k := by
  obtain ⟨x, y, z, h⟩ := State.homeWriteBytes_only s pkg pa b p g
  rw [h]
  rfl

theorem State.homeWriteBytes_ctx (s : State) (pkg pa : Nat) (b : List Byte) (p g : Bool) (k : Nat) :
    (s.homeWriteBytes pkg pa b p g).ctx k = s.ctx k := by
  obtain ⟨x, y, z, h⟩ := State.homeWriteBytes_only s pkg pa b p g
  rw [h]
  rfl

/-! ### Records of the event queue (R338) -/

theorem State.passCycles_frame (s : State) (p : FaultPort) : (s.passCycles p).faultPage p = s.faultPage p ∧
    (s.passCycles p).contexts = s.contexts ∧ (s.passCycles p).mem = s.mem := by
  cases p with
  | cobalt d => exact ⟨rfl, rfl, rfl⟩
  | serac k => exact ⟨(congrArg Serac.fault (s.serac_updSerac_self k _)).trans rfl, rfl, rfl⟩

theorem State.forward_frame (s : State) (p : FaultPort) (event : Nat) (b : List Byte) : (s.forward p event b).faultPage p = s.faultPage p ∧
    (s.forward p event b).contexts = s.contexts ∧ (s.forward p event b).mem = s.mem := by
  unfold State.forward
  split
  · split
    · cases p with
      | cobalt d => exact ⟨rfl, rfl, rfl⟩
      | serac k => exact ⟨(congrArg Serac.fault (s.serac_updSerac_self k _)).trans rfl, rfl, rfl⟩
    · exact ⟨rfl, rfl, rfl⟩
  · exact ⟨rfl, rfl, rfl⟩

theorem State.faultPage_setFaultPage (s : State) (p : FaultPort) (f : FaultPage) : (s.setFaultPage p f).faultPage p = f := by
  cases p with
  | cobalt d => exact congrArg Die.fault (s.die_updDie_self d _)
  | serac k => exact (congrArg Serac.fault (s.serac_updSerac_self k _)).trans rfl

theorem State.setFaultPage_frame (s : State) (p : FaultPort) (f : FaultPage) : (s.setFaultPage p f).contexts = s.contexts ∧
    (s.setFaultPage p f).mem = s.mem := by
  cases p <;> exact ⟨rfl, rfl⟩

theorem State.homeWriteBytes_faultPage (s : State) (pkg pa : Nat) (b : List Byte) (x g : Bool) (p : FaultPort) :
    (s.homeWriteBytes pkg pa b x g).faultPage p = s.faultPage p := by
  cases p with
  | cobalt d =>
    obtain ⟨w, h⟩ := s.homeWriteBytes_die pkg pa b x g d
    exact (congrArg Die.fault h).trans rfl
  | serac k => exact congrArg Serac.fault (s.homeWriteBytes_serac pkg pa b x g k)

/-- The 32 bytes of an event record. -/
def State.eventRecord (s : State) (p : FaultPort) (event who : Nat) (d1 d2 : Word) : List Byte :=
  let full := decide (((s.faultPage p).eqTail - (s.faultPage p).eqHead).toNat = queueSize (s.faultPage p).eqbase)
  leBytes 2 (event + (if full then 2 ^ 15 else 0)) ++ leBytes 2 (portNumber p) ++ leBytes 4 who ++ leBytes 8 d1.toNat ++
    leBytes 8 (s.portCycle p).toNat ++ leBytes 8 d2.toNat

theorem State.eventRecord_length (s : State) (p : FaultPort) (event who : Nat) (d1 d2 : Word) :
    (s.eventRecord p event who d1 d2).length = 32 := by
  simp [State.eventRecord, leBytes_length]

/-- The fault page after a record is posted. -/
def FaultPage.posted (f : FaultPage) (full : Bool) : FaultPage :=
  { f with eqTail := f.eqTail + 1, eqHead := if full then f.eqHead + 1 else f.eqHead,
           overwritten := if full then satInc32 f.overwritten else f.overwritten }

/-- The event queue of a port is full. -/
def FaultPage.eventsFull (f : FaultPage) : Bool := decide ((f.eqTail - f.eqHead).toNat = queueSize f.eqbase)

/-- The state in which a record is written into its queue. -/
def State.postStart (s : State) (p : FaultPort) (event : Nat) (b : List Byte) : State :=
  ((s.passCycles p).forward p event b).updFaultPage p (fun f => f.posted (s.faultPage p).eventsFull)

theorem State.postStart_frame (s : State) (p : FaultPort) (event : Nat) (b : List Byte) :
    (s.postStart p event b).faultPage p = (s.faultPage p).posted (s.faultPage p).eventsFull ∧
    (s.postStart p event b).contexts = s.contexts ∧ (s.postStart p event b).mem = s.mem := by
  obtain ⟨hp1, hp2, hp3⟩ := s.passCycles_frame p
  obtain ⟨hf1, hf2, hf3⟩ := (s.passCycles p).forward_frame p event b
  unfold State.postStart State.updFaultPage
  obtain ⟨hs1, hs2⟩ := ((s.passCycles p).forward p event b).setFaultPage_frame p
    ((((s.passCycles p).forward p event b).faultPage p).posted (s.faultPage p).eventsFull)
  exact ⟨by rw [State.faultPage_setFaultPage, hf1, hp1], hs1.trans (hf2.trans hp2), hs2.trans (hf3.trans hp3)⟩

theorem State.post_of_none (s : State) (p : FaultPort) (event who : Nat) (d1 d2 : Word) (h : queueConfigured (s.faultPage p).eqbase = false) :
    s.post p event who d1 d2 = s.setFaultPage p { s.faultPage p with dropped := satInc32 (s.faultPage p).dropped } := by
  unfold State.post
  dsimp only
  rw [h]
  rfl

theorem State.post_of_queue (s : State) (p : FaultPort) (event who : Nat) (d1 d2 : Word) (h : queueConfigured (s.faultPage p).eqbase = true) :
    s.post p event who d1 d2 = (s.postStart p event (s.eventRecord p event who d1 d2)).homeWriteBytes (portPkg p)
      (queuePa (s.faultPage p).eqbase + 32 * ((s.faultPage p).eqTail.toNat % queueSize (s.faultPage p).eqbase))
      (s.eventRecord p event who d1 d2) false false := by
  unfold State.post
  dsimp only
  rw [h]
  rfl

theorem State.post_frame (s : State) (p : FaultPort) (event who : Nat) (d1 d2 : Word) : (s.post p event who d1 d2).contexts = s.contexts := by
  cases h : queueConfigured (s.faultPage p).eqbase with
  | false =>
    rw [s.post_of_none p event who d1 d2 h]
    exact (s.setFaultPage_frame p _).1
  | true =>
    rw [s.post_of_queue p event who d1 d2 h]
    obtain ⟨x, y, z, hw⟩ := State.homeWriteBytes_only (s.postStart p event (s.eventRecord p event who d1 d2)) (portPkg p)
      (queuePa (s.faultPage p).eqbase + 32 * ((s.faultPage p).eqTail.toNat % queueSize (s.faultPage p).eqbase))
      (s.eventRecord p event who d1 d2) false false
    rw [hw]
    exact (s.postStart_frame p event _).2.1

theorem State.post_ctx (s : State) (p : FaultPort) (event who : Nat) (d1 d2 : Word) (k : Nat) :
    (s.post p event who d1 d2).ctx k = s.ctx k := by
  unfold State.ctx
  rw [State.post_frame]

/-! ### BUNDLE traps and interrupts (R135-R137) -/

/-- What giving a posting's entry back leaves as it is. -/
theorem State.releasePost_frame (s : State) (c : Context) : (s.releasePost c).contexts = s.contexts ∧ (s.releasePost c).cores = s.cores ∧
    (s.releasePost c).mem = s.mem ∧ (s.releasePost c).moves = s.moves := by
  unfold State.releasePost
  split <;> exact ⟨rfl, rfl, rfl, rfl⟩

theorem State.releasePost_entry (s : State) {c : Context} {a : Nat} {b : Word} {i : Nat} (h : c.wait = .cpostSent a b (some i)) :
    SMap.find ((s.releasePost c).serac (seracOfDie c.die)).entries i =
      some { Posted.free with generation := (SMap.getD (s.serac (seracOfDie c.die)).entries i Posted.free).generation } := by
  unfold State.releasePost
  rw [h]
  dsimp only
  rw [State.serac_updSerac_self]
  exact SMap.find_put_self ..

/-- The frost entry of a trap, in the ring of its context's core (R334). -/
theorem State.frost_trap_core {s : State} {k core : Nat} {tenant : BitVec 16} {d : Context} (h : s.ctx k = some d) (hf : d.isFirmware = false)
    (hcore : d.coreKey = core) (hten : d.id.tenant = tenant) (p : BitVec 96) : ((s.frost k 4 p).core core).frost =
      (s.core core).frost.push (frostEntry 4 (k % 1024) (s.core core).cycle p) tenant 0 := by
  subst hcore hten
  have hfw : ¬ (d.firmware || d.management) = true := Bool.eq_false_iff.mp hf
  unfold State.frost State.frostIn
  rw [h]
  dsimp only
  rw [if_neg hfw, State.core_updCore_self]
  rfl

theorem State.frost_frame (s : State) (k kind : Nat) (p : BitVec 96) : (s.frost k kind p).contexts = s.contexts ∧
    (s.frost k kind p).mem = s.mem ∧ (s.frost k kind p).seracs = s.seracs := by
  obtain ⟨cores, h, -⟩ := s.frost_cases k kind p
  rw [h]
  exact ⟨rfl, rfl, rfl⟩

theorem Context.bundleTrapDue_iff (c : Context) (h : c.bundleTrapDue = true) : c.bundleTrap = true ∧ c.runs = true ∧ c.thread.inTrap = false := by
  unfold Context.bundleTrapDue at h
  simp only [Bool.and_eq_true, Bool.not_eq_true'] at h
  exact ⟨h.1.1.1, h.1.1.2, h.1.2⟩

theorem Context.freeze_of_runs (c : Context) (h : c.runs = true) : c.sch.freeze = none := by
  unfold Context.runs Context.isFrozen at h
  simp only [Bool.and_eq_true, Bool.not_eq_true', Bool.or_eq_false_iff] at h
  exact Option.not_isSome_iff_eq_none.mp (Bool.eq_false_iff.mp h.1.1)

section
variable {s : State} {k : Nat} {c : Context} (h : s.ctx k = some c) (hr : s.onRetired c = false)
include h hr

theorem execBundleTrap_of_due (hd : c.bundleTrapDue = true) : exec (.bundleTrap k) s =
    .next (((s.releasePost c).setCtx k { c with bundleTrap := false }).takeTrap k 11 0 c.thread.pc 0 false) := by
  rw [exec_bundleTrap, execBundleTrap, atCore_of h hr, if_pos hd, State.bundleTrap, h]

theorem bundleTrap_handled (hd : c.bundleTrapDue = true) (hv : c.thread.tvec ≠ 0) :
    let r := s.core c.coreKey
    let u := s.serac (seracOfDie c.die)
    let cause : TrapCause := { cls := 1, code := c.thread.bfcause.toNat % 256, sub := c.thread.bfcause.toNat / 256 % 256, tval := 0 }
    ∃ t c', exec (.bundleTrap k) s = .next t ∧ t.ctx k = some c' ∧
      c'.thread = { c.thread with tpc := c.thread.pc, tval := 0, tcause := 11, pc := c.thread.tvec, boundary := true
                                  tstate := mkTstate c.thread.udep c.thread.depth c.thread.inUli true } ∧
      c'.bundleTrap = false ∧ c'.wait = .none ∧ c'.be = c.be ∧ c'.fl = c.fl ∧
      (c.isFirmware = false → (t.core c.coreKey).frost = r.frost.push (frostEntry 4 (k % 1024) r.cycle
        (frostTrap (BitVec.ofNat 8 cause.code) (BitVec.ofNat 8 cause.sub) 1 0 c.thread.pc)) c.id.tenant 0) ∧
      (∀ a b i, c.wait = .cpostSent a b (some i) → SMap.find (t.serac (seracOfDie c.die)).entries i =
        some { Posted.free with generation := (SMap.getD u.entries i Posted.free).generation }) ∧
      (∀ a, t.memByte a = s.memByte a) := by
  intro r u cause
  obtain ⟨-, -, hin⟩ := c.bundleTrapDue_iff hd
  have he := execBundleTrap_of_due h hr hd
  have hc : ((s.releasePost c).setCtx k { c with bundleTrap := false }).ctx k = some { c with bundleTrap := false } := State.ctx_setCtx_self _ _ _
  rw [takeTrap_of_handles _ k _ hc 11 0 c.thread.pc 0 false ⟨hin, hv⟩] at he
  obtain ⟨-, hcores, hmem, -⟩ := s.releasePost_frame c
  have hcore : (s.releasePost c).core c.coreKey = r := by
    unfold r State.core
    rw [hcores]
  refine ⟨_, _, he, (State.frost_ctx ..).trans (State.ctx_setCtx_self _ _ _), rfl, rfl, rfl, rfl, rfl, fun hf => ?_, fun a b i hw => ?_,
    fun a => ?_⟩
  · rw [State.frost_trap_core (core := c.coreKey) (tenant := c.id.tenant) (State.ctx_setCtx_self _ _ _)]
    · rw [State.setCtx_core, State.setCtx_core, hcore]
      rfl
    · exact hf
    · rfl
    · rfl
  · unfold State.serac
    rw [(State.frost_frame _ _ _ _).2.2]
    exact s.releasePost_entry hw
  · unfold State.memByte
    rw [(State.frost_frame _ _ _ _).2.1]
    exact congrArg (Memory.read · a) hmem

theorem bundleTrap_fatal (hd : c.bundleTrapDue = true) (hv : c.thread.tvec = 0) :
    let r := s.core c.coreKey
    let cause : TrapCause := { cls := 1, code := c.thread.bfcause.toNat % 256, sub := c.thread.bfcause.toNat / 256 % 256, tval := 0 }
    ∃ t, exec (.bundleTrap k) s = .next t ∧
      t.ctx k = some { c with bundleTrap := false, sch := { c.sch with
        freeze := some ⟨cause, true, false, none, s.moves, r.frost.copy.getD r.frost.list, r.cycle⟩, preempt := none } } ∧
      (t.core c.coreKey).frost.copy = some (r.frost.copy.getD r.frost.list) ∧ (∀ a, t.memByte a = s.memByte a) := by
  intro r cause
  obtain ⟨-, hruns, -⟩ := c.bundleTrapDue_iff hd
  have he := execBundleTrap_of_due h hr hd
  have hc : ((s.releasePost c).setCtx k { c with bundleTrap := false }).ctx k = some { c with bundleTrap := false } := State.ctx_setCtx_self _ _ _
  rw [takeTrap_of_fatal _ k _ hc 11 0 c.thread.pc 0 false (c.freeze_of_runs hruns) (.inr hv)] at he
  obtain ⟨-, hcores, hmem, hmoves⟩ := s.releasePost_frame c
  have hcore : (s.releasePost c).core c.coreKey = r := by
    unfold r State.core
    rw [hcores]
  refine ⟨_, he, ?_, ?_, fun a => ?_⟩
  · rw [(freezeAnew_spec _ k _ _ true).1]
    change some { c with bundleTrap := false, sch := { c.sch with preempt := none, freeze := some ⟨cause, true, false, none,
      (s.releasePost c).moves, ((s.releasePost c).core c.coreKey).frost.copy.getD ((s.releasePost c).core c.coreKey).frost.list,
      ((s.releasePost c).core c.coreKey).cycle⟩ } } = _
    rw [hcore, hmoves]
  · unfold State.freezeAnew
    rw [State.core_setCore_self]
    exact congrArg (fun x : Core => some (x.frost.copy.getD x.frost.list)) hcore
  · exact congrArg (Memory.read · a) hmem

theorem execUliDelivery_spec (hd : c.uliDue = true) : ∃ t c', exec (.uliDelivery k) s = .next t ∧ t.ctx k = some c' ∧
    c'.thread = { c.thread with ulipc := c.thread.pc, pc := c.thread.ulivec, boundary := true
                                tstate := mkTstate c.thread.depth c.thread.tdep true c.thread.inTrap } ∧ c'.wait = .none ∧
    c'.be = c.be ∧ (∀ a, t.memByte a = s.memByte a) := by
  have he : exec (.uliDelivery k) s = .next (s.deliverUli k) := by
    rw [exec_uliDelivery, execUliDelivery, atCore_of h hr, if_pos hd]
  rw [State.deliverUli, h] at he
  refine ⟨_, _, he, (State.frost_ctx ..).trans (State.ctx_setCtx_self _ _ _), rfl, rfl, rfl, fun a => ?_⟩
  unfold State.memByte
  rw [(State.frost_frame _ _ _ _).2.1]
  rfl

end

/-! ### A freeze settles (R329) -/

/-- A fault queue entry of the context's copy operations. -/
def FaultEntry.copyOf (k : Nat) (e : FaultEntry) : Bool := decide (e.source = 2 ∧ e.who = k)

theorem Context.cancelFrom_frame (c : Context) (i : Nat) : (c.cancelFrom i).coreKey = c.coreKey ∧ (c.cancelFrom i).management = c.management := by
  unfold Context.cancelFrom
  split <;> exact ⟨rfl, rfl⟩

theorem Context.performLoads_die (s : State) (c : Context) : (c.performLoads s).die = c.die := by
  obtain ⟨regs, rpoison, loads, snapshot, h⟩ := c.performLoads_performed s
  rw [h]
  rfl

theorem Context.cancelFrom_die (c : Context) (i : Nat) : (c.cancelFrom i).die = c.die := by
  obtain ⟨hcore, hman⟩ := c.cancelFrom_frame i
  unfold Context.die
  rw [hcore, hman]

/-- What closing a context's copy faults leaves of it, and of the queue. -/
theorem State.dropCopyFaults_spec {s : State} {k : Nat} {c : Context} (h : s.ctx k = some c) :
    ∃ d, (s.dropCopyFaults k c).ctx k = some d ∧ d.sch = c.sch ∧ d.be = c.be ∧ d.fl.syncOps = c.fl.syncOps ∧
      d.fl.issued.map (·.idx) = c.fl.issued.map (·.idx) ∧
      (∀ e, e ∈ ((s.dropCopyFaults k c).die c.die).fault.open_ ↔ e ∈ (s.die c.die).fault.open_ ∧ ¬ (e.source = 2 ∧ e.who = k)) ∧
      ((∀ e ∈ (s.die c.die).fault.open_ ++ (s.die c.die).fault.waiting, ¬ (e.source = 2 ∧ e.who = k)) → d.thread = c.thread) ∧
      ((∃ e ∈ (s.die c.die).fault.open_ ++ (s.die c.die).fault.waiting, e.source = 2 ∧ e.who = k) → d.thread = c.thread.pend 15) ∧
      (s.dropCopyFaults k c).mem = s.mem := by
  have hall : ((s.die c.die).fault.open_.all (fun e => !decide (e.source = 2 ∧ e.who = k)) &&
      (s.die c.die).fault.waiting.all (fun e => !decide (e.source = 2 ∧ e.who = k))) = true ↔
      ∀ e ∈ (s.die c.die).fault.open_ ++ (s.die c.die).fault.waiting, ¬ (e.source = 2 ∧ e.who = k) := by
    simp only [Bool.and_eq_true, List.all_eq_true, Bool.not_eq_true', decide_eq_false_iff_not, List.mem_append]
    constructor
    · rintro ⟨ho, hw⟩ e (he | he)
      · exact ho e he
      · exact hw e he
    · exact fun h => ⟨fun e he => h e (.inl he), fun e he => h e (.inr he)⟩
  unfold State.dropCopyFaults
  dsimp only
  by_cases hmine : ∀ e ∈ (s.die c.die).fault.open_ ++ (s.die c.die).fault.waiting, ¬ (e.source = 2 ∧ e.who = k)
  · rw [if_pos (hall.mpr hmine)]
    exact ⟨c, h, rfl, rfl, rfl, rfl, fun e => ⟨fun he => ⟨he, hmine e (List.mem_append_left _ he)⟩, And.left⟩, fun _ => rfl,
      fun ⟨e, he, hm⟩ => absurd hm (hmine e he), rfl⟩
  · rw [if_neg fun h => hmine (hall.mp h), State.setUlipend, State.updCtx_of (c := c) (by exact h)]
    refine ⟨_, State.ctx_setCtx_self _ _ _, rfl, rfl, rfl, ?_, fun e => ?_, fun h => absurd h hmine, fun _ => rfl, rfl⟩
    · exact (List.map_map ..).trans rfl
    · rw [State.setCtx_die, State.die_updDie_self]
      change e ∈ (s.die c.die).fault.open_.filter (fun e => !decide (e.source = 2 ∧ e.who = k)) ↔ _
      rw [List.mem_filter, Bool.not_eq_true', decide_eq_false_iff_not]

theorem State.dropWaiter_die (s : State) (x : Nat) (who : Waiter) (j : Nat) : ((s.dropWaiter x who).die j).fault = (s.die j).fault ∧
    ((s.dropWaiter x who).die j).waiters ⊆ (s.die j).waiters ∧ (j = x → ∀ w ∈ ((s.dropWaiter x who).die j).waiters, w.who ≠ who) := by
  unfold State.dropWaiter
  by_cases hj : j = x
  · subst hj
    rw [State.die_updDie_self]
    refine ⟨rfl, List.filter_subset_self _, fun _ w hw => ?_⟩
    exact bne_iff_ne.mp (List.mem_filter.mp hw).2
  · rw [State.die_updDie_ne _ _ hj]
    exact ⟨rfl, List.Subset.refl _, fun h => absurd h hj⟩

theorem State.foldl_dropWaiter (k : Nat) (l : List SyncOp) : ∀ s : State,
    let t := l.foldl (fun s o => s.dropWaiter o.loc.engine (.context k o.id)) s
    (∀ j, (t.die j).fault = (s.die j).fault ∧ (t.die j).waiters ⊆ (s.die j).waiters) ∧
    (∀ o ∈ l, ∀ w ∈ (t.die o.loc.engine).waiters, w.who ≠ .context k o.id) ∧ t.contexts = s.contexts ∧ t.mem = s.mem := by
  induction l with
  | nil => exact fun s => ⟨fun j => ⟨rfl, List.Subset.refl _⟩, fun o ho => absurd ho List.not_mem_nil, rfl, rfl⟩
  | cons o l ih =>
    intro s
    obtain ⟨hdie, hgone, hctx, hmem⟩ := ih (s.dropWaiter o.loc.engine (.context k o.id))
    refine ⟨fun j => ?_, fun x hx w hw => ?_, hctx, hmem⟩
    · obtain ⟨hf, hs, -⟩ := s.dropWaiter_die o.loc.engine (.context k o.id) j
      exact ⟨(hdie j).1.trans hf, List.Subset.trans (hdie j).2 hs⟩
    · rcases List.mem_cons.mp hx with rfl | hx
      · exact (s.dropWaiter_die x.loc.engine (.context k x.id) x.loc.engine).2.2 rfl w ((hdie _).2 hw)
      · exact hgone x hx w hw

/-- What withdrawing a context's waits leaves. -/
theorem State.withdrawWaiters_spec {s : State} {k : Nat} {c : Context} (h : s.ctx k = some c) :
    (s.withdrawWaiters k).ctx k = some { c with fl := { c.fl with syncOps := c.fl.syncOps.map (fun o =>
      if o.state == .waiting then { o with state := .ready } else o) } } ∧
    (∀ j, ((s.withdrawWaiters k).die j).fault = (s.die j).fault) ∧
    (∀ o ∈ c.fl.syncOps, o.state = .waiting → ∀ w ∈ ((s.withdrawWaiters k).die o.loc.engine).waiters, w.who ≠ .context k o.id) ∧
    (s.withdrawWaiters k).mem = s.mem := by
  obtain ⟨hdie, hgone, hctx, hmem⟩ := State.foldl_dropWaiter k (c.fl.syncOps.filter (fun o => o.state == .waiting)) s
  unfold State.withdrawWaiters
  rw [h]
  dsimp only
  rw [State.updCtx_of (c := c) (by unfold State.ctx; rw [hctx]; exact h)]
  refine ⟨State.ctx_setCtx_self _ _ _, fun j => (hdie j).1, fun o ho hw => hgone o (List.mem_filter.mpr ⟨ho, ?_⟩), hmem⟩
  rw [hw]
  rfl

theorem settleFreeze_cases {s : State} {k : Nat} {c : Context} (f : Freeze) : let c1 := (c.cancelFrom c.committedBelow).performLoads s
    let mine (e : FaultEntry) : Prop := e.source = 2 ∧ e.who = k
    (c1.workOver = false → s.settleFreeze k c f = s.setCtx k c1) ∧
    (c1.workOver = true → ∃ c', (s.settleFreeze k c f).ctx k = some c' ∧ c'.sch.freeze = some { f with settled := true } ∧
      c'.sch.preempt = none ∧ c'.fl.issued.map (·.idx) = c1.fl.issued.map (·.idx) ∧ c'.be = c1.be ∧ (∀ o ∈ c'.fl.syncOps, o.state ≠ .waiting) ∧
      (∀ o ∈ c1.fl.syncOps, o.state = .waiting → ∀ w ∈ ((s.settleFreeze k c f).die o.loc.engine).waiters, w.who ≠ .context k o.id) ∧
      (∀ e, e ∈ ((s.settleFreeze k c f).die c.die).fault.open_ ↔ e ∈ (s.die c.die).fault.open_ ∧ ¬ mine e) ∧
      ((∀ e ∈ (s.die c.die).fault.open_ ++ (s.die c.die).fault.waiting, ¬ mine e) → c'.thread = c1.thread) ∧
      ((∃ e ∈ (s.die c.die).fault.open_ ++ (s.die c.die).fault.waiting, mine e) → c'.thread = c1.thread.pend 15) ∧
      (s.settleFreeze k c f).mem = s.mem) := by
  intro c1 mine
  refine ⟨fun hw => ?_, fun hw => ?_⟩
  · unfold State.settleFreeze
    dsimp only
    rw [show ((c.cancelFrom c.committedBelow).performLoads s).workOver = false from hw]
    rfl
  · have he : s.settleFreeze k c f = ((s.setCtx k { c1 with sch := { c1.sch with
        freeze := some { f with settled := true }, preempt := none, yielding := false } }).dropCopyFaults k { c1 with sch := { c1.sch with
        freeze := some { f with settled := true }, preempt := none, yielding := false } }).withdrawWaiters k := by
      unfold State.settleFreeze
      dsimp only
      rw [show ((c.cancelFrom c.committedBelow).performLoads s).workOver = true from hw]
      rfl
    have hdie : c1.die = c.die := ((c.cancelFrom _).performLoads_die s).trans (c.cancelFrom_die _)
    obtain ⟨d, hd, hsch, hbe, hsync, hissued, hopen, hnone, hmine, hmem⟩ := State.dropCopyFaults_spec (State.ctx_setCtx_self s k { c1 with
      sch := { c1.sch with freeze := some { f with settled := true }, preempt := none, yielding := false } })
    obtain ⟨hctx, hfault, hgone, hmem'⟩ := State.withdrawWaiters_spec hd
    rw [← he] at hctx hfault hgone hmem'
    rw [hsync] at hgone
    change ∀ e, e ∈ (State.die _ c1.die).fault.open_ ↔ e ∈ (s.die c1.die).fault.open_ ∧ _ at hopen
    change (∀ e ∈ (s.die c1.die).fault.open_ ++ (s.die c1.die).fault.waiting, _) → _ at hnone
    change (∃ e ∈ (s.die c1.die).fault.open_ ++ (s.die c1.die).fault.waiting, _) → _ at hmine
    rw [hdie] at hopen hnone hmine
    refine ⟨_, hctx, (congrArg SchedInfo.freeze hsch).trans rfl, (congrArg SchedInfo.preempt hsch).trans rfl, hissued, hbe, fun o ho => ?_, hgone,
      fun e => ?_, hnone, hmine, hmem'.trans hmem⟩
    · obtain ⟨x, -, rfl⟩ := List.mem_map.mp ho
      split
      · exact fun h => nomatch h
      next hx => exact fun h => hx (by rw [h]; rfl)
    · rw [hfault]
      exact hopen e

/-! ### Dumps (R332) -/

theorem dumpHeader_eq (c : Context) (f : Freeze) (serac : Nat) (seq : Word) (l : List (Nat × List Byte)) : dumpHeader c f serac seq l =
    leBytes 4 0x454D4952 ++ leBytes 2 1 ++ leBytes 2 l.length ++ leBytes 4 (72 + 16 * l.length) ++
    leBytes 4 ((if f.fatal then 1 else 0) + 2 * (if f.cause.cls = 2 ∧ f.cause.code = 2 then 1 else 0) +
      4 * (if l.any (fun x => decide (x.1 = 6)) then 1 else 0)) ++
    leBytes 2 c.id.tenant.toNat ++ leBytes 2 (c.id.part % 16) ++ leBytes 4 c.id.ctxid.toNat ++
    leBytes 4 (f.cause.code % 256 + f.cause.sub % 256 * 2 ^ 8 + f.cause.cls % 4 * 2 ^ 16) ++ leBytes 4 c.id.gang.toNat ++
    leBytes 8 f.cycle.toNat ++ leBytes 8 seq.toNat ++ leBytes 8 (dumpLength l) ++ leBytes 2 (pkgOfSerac serac) ++
    leBytes 2 (serac % 2) ++ leBytes 8 seq.toNat ++ leBytes 4 0 ++ sectionTable (72 + 16 * l.length) l := by
  have hboth : one (f.cause.cls == 2 && f.cause.code == 2) = if f.cause.cls = 2 ∧ f.cause.code = 2 then 1 else 0 := by
    unfold one
    by_cases h : f.cause.cls = 2 ∧ f.cause.code = 2
    · rw [if_pos h, h.1, h.2]
      rfl
    · rw [if_neg h, if_neg]
      rw [Bool.and_eq_true, beq_iff_eq, beq_iff_eq]
      exact h
  unfold dumpHeader dumpNonce headerLength u16 u32 u64
  rw [hboth]
  simp only [one, List.append_assoc]

theorem dumpBytes_take (c : Context) (f : Freeze) (serac : Nat) (seq : Word) (key : BitVec 256) (l : List (Nat × List Byte)) :
    (dumpBytes c f serac seq key l).take (dumpHeader c f serac seq l).length = dumpHeader c f serac seq l :=
  List.take_left

/-- A dump has its sequence and its slot. -/
def Serac.dumpTaken (part : Nat) (g : DumpRegs) (r : Serac) : Serac :=
  { r with dumpSeq := r.dumpSeq + 1, dump := SMap.put r.dump part { g with tail := g.tail + 1 } }

section
variable {s : State} {k : Nat} {c : Context} (h : s.ctx k = some c) {f : Freeze} (hf : c.sch.freeze = some f) (hset : f.settled = true)
  (hnew : f.dumped = none) (hfirst : s.earlierDump (seracOfDie c.die) f = false)
include h hf hset hnew hfirst

theorem execRimeDump_eq : exec (.rimeDump k) s = .next ((s.writeDump c f).1.updCtx k
    (fun x => { x with sch := { x.sch with freeze := some { f with dumped := some (s.writeDump c f).2 } } })) := by
  have hgo : (!f.settled || f.dumped.isSome || s.earlierDump (seracOfDie c.die) f) = false := by
    rw [hset, hnew, hfirst]
    rfl
  rw [exec_rimeDump, execRimeDump, atCtx_of h]
  simp only [hf, hgo, Bool.false_eq_true, if_false]

theorem execRimeDump_lost (hno : fitting s c f (SMap.getD (s.serac (seracOfDie c.die)).dump c.id.part DumpRegs.reset) = none) :
    exec (.rimeDump k) s = .next (s.setCtx k { c with sch := { c.sch with freeze := some { f with dumped := some none } } }) := by
  have hw : s.writeDump c f = (s, none) := by
    unfold State.writeDump
    dsimp only
    rw [hno]
  rw [execRimeDump_eq h hf hset hnew hfirst, hw, State.updCtx_of h]

theorem execRimeDump_written (l : List (Nat × List Byte))
    (hl : fitting s c f (SMap.getD (s.serac (seracOfDie c.die)).dump c.id.part DumpRegs.reset) = some l) :
    let u := s.serac (seracOfDie c.die)
    let g := SMap.getD u.dump c.id.part DumpRegs.reset
    let seq : Word := BitVec.ofNat 64 (u.bootCount.toNat * 2 ^ 32 + u.dumpSeq.toNat)
    let b := dumpBytes c f (seracOfDie c.die) seq (SMap.getD u.dumpKeys c.id.tenant.toNat 0) l
    let pa := g.dbase.toNat % 2 ^ 52 / 4096 * 4096 + g.tail.toNat % g.slots * g.slotSize
    ∃ t, exec (.rimeDump k) s = .next t ∧ (t.serac (seracOfDie c.die)).dumpSeq = u.dumpSeq + 1 ∧
      SMap.getD (t.serac (seracOfDie c.die)).dump c.id.part DumpRegs.reset = { g with tail := g.tail + 1 } ∧
      t.ctx k = some { c with sch := { c.sch with freeze := some { f with dumped := some (some seq) } } } ∧
      (s.MemWf → ∀ a, t.memByte a = let i := a - memKey (pkgOfSerac (seracOfDie c.die)) pa
        if memKey (pkgOfSerac (seracOfDie c.die)) pa ≤ a ∧ i < b.length then b.getD i 0 else s.memByte a) := by
  intro u g seq b pa
  have hw : s.writeDump c f = ((s.updSerac (seracOfDie c.die) (Serac.dumpTaken c.id.part g)).homeWriteBytes (pkgOfSerac (seracOfDie c.die)) pa b false false, some seq) := by
    unfold State.writeDump
    dsimp only
    rw [hl]
    rfl
  have hctx := State.homeWriteBytes_ctx (s.updSerac (seracOfDie c.die) (Serac.dumpTaken c.id.part g)) (pkgOfSerac (seracOfDie c.die)) pa b false false k
  have he := execRimeDump_eq h hf hset hnew hfirst
  rw [hw, State.updCtx_of (hctx.trans h)] at he
  clear hw hctx
  clear_value b pa seq
  refine ⟨_, he, ?_, ?_, State.ctx_setCtx_self _ _ _, fun hwf a => ?_⟩
  · rw [State.setCtx_serac, State.homeWriteBytes_serac, State.serac_updSerac_self]
    rfl
  · rw [State.setCtx_serac, State.homeWriteBytes_serac, State.serac_updSerac_self]
    exact SMap.getD_put_self ..
  · refine (State.homeWriteBytes_read (s.updSerac (seracOfDie c.die) (Serac.dumpTaken c.id.part g)) (pkgOfSerac (seracOfDie c.die)) pa b
      false false hwf a).trans ?_
    dsimp only
    congr 1
    rw [eq_iff_iff]
    omega

end

/-! ### After the dump (R331, R332, R336) -/

/-- The event of a dump, or that it was lost. -/
theorem State.dumpEvent_eq (s : State) (k : Nat) (c : Context) (f : Freeze) (code : Nat) (seq : Option Word) : s.dumpEvent k c f code seq =
    s.post (.cobalt c.die) (if seq.isSome then code else 11) (k % 2 ^ 25) (seq.getD 0) (if f.cause.cls = 1 then c.thread.bfpc else 0) := by
  cases seq <;> rfl

theorem State.saveContext_freeze {s : State} {k : Nat} {c c' : Context} {status : CtxStatus} (h : s.ctx k = some c)
    (h' : (s.saveContext k status).ctx k = some c') : c'.sch.freeze = c.sch.freeze ∧ c'.sch.wdFrozen = c.sch.wdFrozen := by
  unfold State.saveContext at h'
  rw [h] at h'
  dsimp only at h'
  rw [State.ctx_setCtx_self] at h'
  cases h'
  exact ⟨rfl, rfl⟩

/-- The context with another schedule record. -/
def Context.withSch (x : SchedInfo) (c : Context) : Context := { c with sch := x }

theorem Context.foldl_performLoad_withSch (s : State) (x : SchedInfo) (l : List GenLoad) : ∀ c : Context,
    l.foldl (Context.performLoad s) (c.withSch x) = (l.foldl (Context.performLoad s) c).withSch x := by
  induction l with
  | nil => exact fun c => rfl
  | cons y l ih => exact fun c => ih (c.performLoad s y)

/-- What is scheduled of a context has no part in its loads. -/
theorem Context.performLoads_withSch (s : State) (x : SchedInfo) (c : Context) :
    (c.withSch x).performLoads s = (c.performLoads s).withSch x :=
  Context.foldl_performLoad_withSch s x (c.thread.loads.filter (c.thread.loadDue fun _ => true))
    { c with thread := { c.thread with loads := c.thread.loads.filter (fun l => !c.thread.loadDue (fun _ => true) l) } }

theorem Context.performLoads_setCtx (s : State) (k : Nat) (x c : Context) : c.performLoads (s.setCtx k x) = c.performLoads s := rfl

section
variable {s : State} {k : Nat} {c : Context} (h : s.ctx k = some c)
include h

theorem execContextDead_spec {f : Freeze} {seq : Option Word} (hf : c.sch.freeze = some f) (hd : f.dumped = some seq) (hfatal : f.fatal = true) :
    let event (v : State) (code : Nat) : State := v.post (.cobalt c.die) (if seq.isSome then code else 11) (k % 2 ^ 25) (seq.getD 0)
      (if f.cause.cls = 1 then c.thread.bfpc else 0)
    ∃ v c', exec (.contextDead k) s = .next (event v 1) ∧ v.ctx k = some c' ∧ (event v 1).ctx k = some c' ∧
      c'.status = .dead ∧ c'.slot = none ∧ c'.sch.freeze = none ∧ c'.sch.wdFrozen = false ∧ c'.thread = (c.performLoads s).thread ∧
      v.mem = s.mem := by
  intro event
  have he : exec (.contextDead k) s = .next (((s.setCtx k { c with sch := { c.sch with freeze := none, wdFrozen := false } }).endContext k .dead).dumpEvent
      k c f 1 seq) := by
    rw [exec_contextDead, execContextDead, atCtx_of h, hf]
    dsimp only
    rw [hd]
    dsimp only
    rw [hfatal]
    rfl
  have hc : (s.setCtx k { c with sch := { c.sch with freeze := none, wdFrozen := false } }).ctx k =
      some { c with sch := { c.sch with freeze := none, wdFrozen := false } } := State.ctx_setCtx_self _ _ _
  obtain ⟨c', hc', hstatus, hslot, hthread, -, -, -, -, -, -, -, -, -, hsave⟩ := State.saveContext_spec hc .dead
  obtain ⟨hfree, hwd⟩ := State.saveContext_freeze hc hc'
  have hend := State.endContext_of hc .dead
  have hctx : ((s.setCtx k { c with sch := { c.sch with freeze := none, wdFrozen := false } }).endContext k .dead).ctx k = some c' := by
    rw [hend]
    exact hc'
  rw [State.dumpEvent_eq] at he
  refine ⟨_, c', he, hctx, (State.post_ctx ..).trans hctx, hstatus, hslot, hfree, hwd, ?_, ?_⟩
  · rw [hthread, Context.performLoads_setCtx]
    exact (congrArg Context.thread (Context.performLoads_withSch s { c.sch with freeze := none, wdFrozen := false } c)).trans rfl
  · rw [hend, hsave]
    rfl

theorem execWatchdogFire_event (hr : s.onRetired c = false) {f : Freeze} {seq : Option Word} (hf : c.sch.freeze = some f)
    (hd : f.dumped = some seq) (hfatal : f.fatal = false) : exec (.watchdogFire k) s =
      .next ((s.setCtx k { c with sch := { c.sch with freeze := none, wdFrozen := true } }).post (.cobalt c.die) (if seq.isSome then 2 else 11)
        (k % 2 ^ 25) (seq.getD 0) (if f.cause.cls = 1 then c.thread.bfpc else 0)) := by
  rw [exec_watchdogFire, execWatchdogFire, atCore_of h hr, hf]
  dsimp only
  rw [hfatal, hd]
  exact congrArg Host.Outcome.next (State.dumpEvent_eq ..)

theorem execWatchdogFire_freezes (hr : s.onRetired c = false) (hf : c.sch.freeze = none) (hdue : s.watchdogDue c = true) :
    let r := s.core c.coreKey
    ∃ t, exec (.watchdogFire k) s = .next t ∧ t.ctx k = some { c with
      sch := { c.sch with freeze := some ⟨{ cls := 2, code := 2, sub := 0, tval := 0 }, false, false, none, s.moves,
        r.frost.copy.getD r.frost.list, r.cycle⟩, preempt := none } } ∧ (∀ a, t.memByte a = s.memByte a) := by
  intro r
  have he : exec (.watchdogFire k) s = .next (s.freezeAnew k c { cls := 2, code := 2, sub := 0, tval := 0 } false) := by
    rw [exec_watchdogFire, execWatchdogFire, atCore_of h hr, hf]
    dsimp only
    rw [if_pos hdue, State.beginFreeze, h]
    dsimp only
    rw [hf]
  exact ⟨_, he, (freezeAnew_spec s k c _ false).1, fun a => rfl⟩

theorem execWatchdogFire_settles (hr : s.onRetired c = false) {f : Freeze} (hf : c.sch.freeze = some f) (hset : f.settled = false)
    (hfatal : f.fatal = false) (hd : f.dumped = none) : exec (.watchdogFire k) s = .next (s.settleFreeze k c f) := by
  rw [exec_watchdogFire, execWatchdogFire, atCore_of h hr, hf]
  dsimp only
  rw [if_neg (Bool.eq_false_iff.mp hfatal), hd]
  dsimp only
  rw [if_neg (Bool.eq_false_iff.mp hset)]

theorem execFatalTrap_settles {f : Freeze} (hf : c.sch.freeze = some f) (hset : f.settled = false) (hfatal : f.fatal = true) :
    exec (.fatalTrap k) s = .next (s.settleFreeze k c f) := by
  have hgo : (f.fatal && !f.settled) = true := by
    rw [hset, hfatal]
    rfl
  rw [exec_fatalTrap, execFatalTrap, atCtx_of h, hf]
  dsimp only
  rw [if_pos hgo]

theorem execThaw_frozen {die : Nat} {v : Word} (hk : k = die * 1024 + (v.extractLsb' 0 10).toNat) (hv : v.getLsbD 31 = true)
    (hz : v.extractLsb' 10 21 = 0) (hw : c.sch.wdFrozen = true) :
    exec (.thaw die v) s = .next (s.setCtx k { c with sch := { c.sch with wdFrozen := false, wdCount := 0 } }) := by
  rw [exec_thaw, execThaw, State.thaw, hv, hz, ← hk, State.updCtx_of h, if_pos hw]
  rfl

end

theorem execThaw_nothing (s : State) (die : Nat) (v : Word) (h : v.getLsbD 31 = false ∨ v.extractLsb' 10 21 ≠ 0) :
    exec (.thaw die v) s = .next s := by
  have hskip : (!v.getLsbD 31 || v.extractLsb' 10 21 != 0) = true := by
    rcases h with h | h
    · rw [h]
      rfl
    · rw [bne_iff_ne.mpr h, Bool.or_true]
  rw [exec_thaw, execThaw, State.thaw, if_pos hskip]

/-! ### The settled statement -/

theorem post_written (s : State) (p : FaultPort) (event who : Nat) (d1 d2 : Word) (h : queueConfigured (s.faultPage p).eqbase = true) :
    let f := s.faultPage p
    let full := (f.eqTail - f.eqHead).toNat = queueSize f.eqbase
    let rec_ := leBytes 2 (event + (if full then 2 ^ 15 else 0)) ++ leBytes 2 (portNumber p) ++ leBytes 4 who ++ leBytes 8 d1.toNat ++
      leBytes 8 (s.portCycle p).toNat ++ leBytes 8 d2.toNat
    let at_ := memKey (portPkg p) (queuePa f.eqbase + 32 * (f.eqTail.toNat % queueSize f.eqbase))
    (s.post p event who d1 d2).faultPage p = { f with
      eqTail := f.eqTail + 1, eqHead := if full then f.eqHead + 1 else f.eqHead
      overwritten := if full then satInc32 f.overwritten else f.overwritten } ∧
    (s.post p event who d1 d2).contexts = s.contexts ∧ (s.MemWf → ∀ a, (s.post p event who d1 d2).memByte a =
      if at_ ≤ a ∧ a < at_ + 32 then rec_.getD (a - at_) 0 else s.memByte a) := by
  intro f full rec_ at_
  have hrec : s.eventRecord p event who d1 d2 = rec_ := by
    simp only [State.eventRecord, decide_eq_true_eq]
    rfl
  have hpage : (s.faultPage p).posted (s.faultPage p).eventsFull = { f with
      eqTail := f.eqTail + 1, eqHead := if full then f.eqHead + 1 else f.eqHead
      overwritten := if full then satInc32 f.overwritten else f.overwritten } := by
    simp only [FaultPage.posted, FaultPage.eventsFull, decide_eq_true_eq]
    rfl
  obtain ⟨hstart, -, hmem⟩ := s.postStart_frame p event (s.eventRecord p event who d1 d2)
  refine ⟨?_, s.post_frame p event who d1 d2, fun hwf a => ?_⟩
  · rw [s.post_of_queue p event who d1 d2 h, State.homeWriteBytes_faultPage, hstart, hpage]
  · have hwf' : (s.postStart p event (s.eventRecord p event who d1 d2)).MemWf := by
      unfold State.MemWf
      rw [hmem]
      exact hwf
    rw [s.post_of_queue p event who d1 d2 h, State.homeWriteBytes_read _ _ _ _ _ _ hwf', s.eventRecord_length p event who d1 d2, hrec]
    unfold State.memByte
    rw [← hrec, hmem]

/-- Settles O50: traps through `takeTrap`, freezes through `freezeAnew`, records and dumps as byte ranges written at their homes. -/
theorem freezeResults : Obligations.FreezeResults := by
  refine ⟨fun s k c h => ⟨fun hr hd hv => bundleTrap_handled h hr hd hv, fun hr hd hv => bundleTrap_fatal h hr hd hv,
    fun hr hd => execUliDelivery_spec h hr hd, fun f hf hset => ⟨fun hfatal => execFatalTrap_settles h hf hset hfatal,
      fun hr hfatal hd => execWatchdogFire_settles h hr hf hset hfatal hd⟩, settleFreeze_cases, fun f hf hset hnew hfirst =>
    ⟨fun hno => execRimeDump_lost h hf hset hnew hfirst hno, fun l hl => execRimeDump_written h hf hset hnew hfirst l hl,
      fun l serac seq key => ⟨dumpBytes_take c f serac seq key l, dumpHeader_eq c f serac seq l⟩⟩,
    fun f seq hf hd => ⟨fun hfatal => execContextDead_spec h hf hd hfatal, fun hr hfatal => execWatchdogFire_event h hr hf hd hfatal⟩,
    fun hr hf hdue => execWatchdogFire_freezes h hr hf hdue, fun die v hk hv hz hw => execThaw_frozen h hk hv hz hw⟩, execThaw_nothing,
    fun s p event who d1 d2 => ⟨s.post_of_none p event who d1 d2, post_written s p event who d1 d2⟩⟩

end Sys2Proof.Machine
end

section
/-! PROOFS. Commit and its effects, landings, loads, the transit set, snapshot and phases (O51; R23, R24, R34-R39, R229). -/

namespace Sys2Proof.Machine

/-! ### Marker updates and the state they leave -/

theorem Context.spoil_latest (c : Context) (idx : Nat) (m : Marker) (h : c.chk.latest = some m) (hi : m.idx ≤ idx) :
    (c.spoil idx).chk.latest = some { m with spoiled := true } := by
  show c.chk.latest.map _ = _
  rw [h, Option.map_some, if_pos hi]

/-! ### Effects of a bundle at its commit (R23) -/

section acts
variable {s : State} {k idx : Nat} {c : Context} (h : s.ctx k = some c)
include h

theorem act_bufStore (buf tile line : Nat) (d : Line) (p : Bool) (htile : tile < winLimit (c.window (if buf = 3 then 2 else buf))) :
    ((State.act k idx s (.bufStore buf tile line d p)).core c.coreKey).line
        (bufKey buf (winBase (c.window (if buf = 3 then 2 else buf)) + tile) line) = { data := d, poison := p } ∧
      (∀ x, x ≠ bufKey buf (winBase (c.window (if buf = 3 then 2 else buf)) + tile) line →
        ((State.act k idx s (.bufStore buf tile line d p)).core c.coreKey).line x = (s.core c.coreKey).line x) ∧
      (State.act k idx s (.bufStore buf tile line d p)).mem = s.mem := by
  unfold State.act State.writeLine
  rw [h]
  dsimp only
  rw [if_neg (Nat.not_le.mpr htile)]
  refine ⟨?_, fun x hx => ?_, rfl⟩
  · rw [State.core_updCore_self, Core.line, SMap.getD_put_self]
  · rw [State.core_updCore_self, Core.line, SMap.getD_put_ne _ _ _ hx]
    rfl

theorem act_memStore (sts : List LineStore) (o : OrdState) (ho : c.ord.slotStore sts = some o) :
    State.act k idx s (.memStore sts) = s.setCtx k { c with ord := o } := by
  unfold State.act
  dsimp only
  rw [State.updCtx_of h, ho]

theorem act_flags (f : Word) : ∃ c', (State.act k idx s (.flags f)).ctx k = some c' ∧
    c'.be = { c.be with vflags := c.be.vflags ||| f } ∧ c'.thread = c.thread := by
  unfold State.act
  dsimp only
  rw [State.updCtx_of h]
  exact ⟨_, State.ctx_setCtx_self _ _ _, rfl, rfl⟩

theorem act_outOfRange (buf tile row byte : Nat) : ∃ c', (State.act k idx s (.outOfRange buf tile row byte)).ctx k = some c' ∧
    c'.thread = c.thread ∧ c'.be = c.be.outOfRange buf tile row byte := by
  unfold State.act
  dsimp only
  rw [State.updCtx_of h]
  exact ⟨_, State.ctx_setCtx_self _ _ _, rfl, rfl⟩

theorem act_copy (id : Nat) (o : CopyOp) (ho : c.fl.copyOps.find? (fun o => decide (o.id = id)) = some o) :
    ∃ c', (State.act k idx s (.copy id)).ctx k = some c' ∧
      c'.fl = { c.fl with copyOps := c.fl.copyOps.map (fun x => if x.id = id then { o with committed := true } else x) } ∧
      (o.op = 7 → ∀ m, c.chk.latest = some m → m.idx ≤ o.idx → c'.chk.latest = some { m with spoiled := true }) := by
  have hid : o.id = id := by simpa using List.find?_some ho
  unfold State.act
  dsimp only
  rw [State.updCtx_of h]
  refine ⟨_, State.ctx_setCtx_self _ _ _, ?_⟩
  unfold Context.commitCopy
  rw [ho, ← hid]
  dsimp only
  split
  · exact ⟨rfl, fun _ m hm hi => Context.spoil_latest _ _ m hm hi⟩
  · next hop => exact ⟨rfl, fun h7 => absurd h7 hop⟩

theorem act_sync (id : Nat) (o : SyncOp) (ho : c.fl.syncOps.find? (fun o => decide (o.id = id)) = some o) :
    let phased := synScoped o.op.toNat && o.scope != 0
    ∃ c', (State.act k idx s (.sync id)).ctx k = some c' ∧
      c'.fl = { c.fl with syncOps := c.fl.syncOps.map (fun x => if x.id = id then
        { o with state := if phased then .committed else .ready } else x) } ∧
      c'.ord.phases = c.ord.phases ++ (if phased then
        [{ owner := .sync id, scope := o.scope, sent := false, after := [], phaseNo := o.phaseNo }] else []) := by
  intro phased
  unfold State.act
  dsimp only
  rw [State.updCtx_of h]
  refine ⟨_, State.ctx_setCtx_self _ _ _, ?_⟩
  unfold Context.commitSync
  rw [ho]
  dsimp only
  by_cases hp : (synScoped o.op.toNat && o.scope != 0) = true
  · simp only [phased, hp, if_true]
    split
    · exact ⟨rfl, rfl⟩
    · exact ⟨rfl, rfl⟩
  · simp only [phased, hp, Bool.false_eq_true, if_false, List.append_nil]
    split
    · exact ⟨rfl, rfl⟩
    · exact ⟨rfl, rfl⟩

end acts

/-! ### The head of a channel's list replaced (R141) -/

theorem find?_setOp {l : List CopyOp} {ch : Nat} {o o' : CopyOp} (h : l.find? (fun x => decide (x.w.ch.toNat = ch)) = some o)
    (hid : o'.id = o.id) (hch : o'.w = o.w) :
    (l.map (fun x => if x.id = o'.id then o' else x)).find? (fun x => decide (x.w.ch.toNat = ch)) = some o' := by
  have hin : o'.w.ch.toNat = ch := by
    rw [hch]
    simpa using List.find?_some h
  induction l with
  | nil => exact nomatch h
  | cons x l ih =>
    rw [List.map_cons]
    by_cases hx : x.id = o'.id
    · rw [if_pos hx, List.find?_cons_of_pos (by simpa using hin)]
    · have hne : ¬ x.w.ch.toNat = ch := fun hc => by
        rw [List.find?_cons_of_pos (by simpa using hc)] at h
        cases h
        exact hx hid.symm
      rw [List.find?_cons_of_neg (by simpa using hne)] at h
      rw [if_neg hx, List.find?_cons_of_neg (by simpa using hne)]
      exact ih h

theorem Context.copyHead_setOp {c : Context} {ch : Nat} {o o' : CopyOp} (h : c.copyHead ch = some o) (hid : o'.id = o.id) (hch : o'.w = o.w) :
    (c.setOp o').copyHead ch = some o' := find?_setOp h hid hch

theorem Context.stat_updStat (c : Context) (ch : Nat) (f : CopyStat → CopyStat) : (c.updStat ch f).stat ch = f (c.stat ch) :=
  SMap.getD_put_self ..

theorem act_resume {s : State} {k idx ch slot j : Nat} {c d : Context} {o : CopyOp} (h : s.ctx k = some c)
    (hj : SMap.find (s.core c.coreKey).slots slot = some j) (hd : s.ctx j = some d) (ho : d.copyHead ch = some o) (hs : o.state = .suspended) :
    ∃ d', (State.act k idx s (.resume ch slot)).ctx j = some d' ∧ d'.copyHead ch = some { o with state := .running } ∧
      (d'.stat ch).state = 1 ∧ d'.thread = d.thread := by
  have hres : d.resumeCopy ch = (d.setOp { o with state := .running }).updStat ch (fun r => { r with state := 1 }) := by
    rw [Context.resumeCopy, ho]
    dsimp only
    rw [hs]
    rfl
  unfold State.act
  rw [h]
  dsimp only
  rw [hj]
  dsimp only
  rw [State.updCtx_of hd, hres]
  exact ⟨_, State.ctx_setCtx_self _ _ _, Context.copyHead_setOp ho rfl rfl, congrArg CopyStat.state (Context.stat_updStat _ _ _), rfl⟩

/-! ### The operations a context still has, through what an abort leaves behind (R162) -/

/-- The work in flight of a context, where there is one. -/
def State.flightOf (s : State) (k : Nat) : Option InFlight := (s.ctx k).map (·.fl)

theorem State.flightOf_of {s : State} {k : Nat} {c : Context} (h : s.ctx k = some c) : s.flightOf k = some c.fl := by
  rw [flightOf, h]; rfl

theorem State.flightOf_setCtx {s : State} {j : Nat} {c d : Context} (h : s.ctx j = some c) (hd : d.fl = c.fl) (k : Nat) :
    (s.setCtx j d).flightOf k = s.flightOf k := by
  by_cases hk : k = j
  · subst hk
    rw [flightOf_of (State.ctx_setCtx_self _ _ _), flightOf_of h, hd]
  · rw [flightOf, State.ctx_setCtx_ne _ _ hk]
    rfl

theorem State.flightOf_updCtx (s : State) (j : Nat) (f : Context → Context) (hf : ∀ c, (f c).fl = c.fl) (k : Nat) :
    (s.updCtx j f).flightOf k = s.flightOf k := by
  cases h : s.ctx j with
  | none => rw [State.updCtx, h]
  | some c =>
    rw [State.updCtx_of h]
    exact flightOf_setCtx h (hf c) k

theorem State.flightOf_writeLine (s : State) (j idx buf tile line : Nat) (f : BufLine → BufLine) (k : Nat) :
    (s.writeLine j idx buf tile line f).flightOf k = s.flightOf k := by
  cases h : s.ctx j with
  | none => rw [State.writeLine, h]
  | some c =>
    unfold State.writeLine
    rw [h]
    dsimp only
    by_cases hw : winLimit (c.window (if buf = 3 then 2 else buf)) ≤ tile
    · rw [if_pos hw]
    · rw [if_neg hw]
      exact flightOf_setCtx h (by rfl) k

theorem State.flightOf_tileOor (s : State) (j idx buf tile row byte : Nat) (k : Nat) :
    (s.tileOor j idx buf tile row byte).flightOf k = s.flightOf k :=
  flightOf_updCtx s j _ (fun c => by split <;> rfl) k

theorem State.flightOf_homeWriteLine (s : State) (pkg line : Nat) (m : BitVec 64) (d : Line) (p g : Bool) (k : Nat) :
    (s.homeWriteLine pkg line m d p g).flightOf k = s.flightOf k := by
  unfold flightOf State.ctx
  rw [State.homeWriteLine_contexts]

theorem State.flightOf_homeWriteBytes (s : State) (pkg pa : Nat) (b : List Byte) (p g : Bool) (k : Nat) :
    (s.homeWriteBytes pkg pa b p g).flightOf k = s.flightOf k := by
  unfold flightOf State.ctx
  rw [State.homeWriteBytes_contexts]

theorem foldl_flightOf {α : Type} (f : State → α → State) (k : Nat) (hf : ∀ s a, (f s a).flightOf k = s.flightOf k) (l : List α) (s : State) :
    (l.foldl f s).flightOf k = s.flightOf k := by
  induction l generalizing s with
  | nil => rfl
  | cons a l ih => exact (ih _).trans (hf s a)

theorem State.flightOf_writeWindow (s : State) (j off : Nat) (b : List Byte) (bits k : Nat) :
    (s.writeWindow j off b bits).flightOf k = s.flightOf k :=
  foldl_flightOf _ k (fun s i => (flightOf_tileOor ..).trans (flightOf_writeLine ..)) _ s

theorem State.flightOf_appendLanding (s : State) (j : Nat) (c : Context) (f : Fragment) (k : Nat) :
    (s.appendLanding j c f).flightOf k = s.flightOf k := by
  unfold State.appendLanding
  refine (flightOf_updCtx _ j _ (fun _ => by rfl) k).trans ?_
  show State.flightOf (ite _ _ _) k = _
  split
  · exact flightOf_homeWriteBytes ..
  · exact (foldl_flightOf _ k (fun s i => flightOf_homeWriteBytes ..) _ _).trans (flightOf_homeWriteBytes ..)

theorem State.flightOf_receive (s : State) (tenant : BitVec 16) (f : Fragment) (k : Nat) : (s.receive tenant f).1.flightOf k = s.flightOf k := by
  unfold State.receive
  split
  · rfl
  · rfl
  · next c _ hc =>
    dsimp only
    split
    · have hw := flightOf_writeWindow s f.dest f.off (if f.countOnly then List.replicate f.data.length 0 else f.data.map (·.1)) f.poisonBits k
      cases f.barrier with
      | none => exact hw
      | some l => exact hw
    · split
      · exact flightOf_setCtx hc (by rfl) k
      · exact flightOf_appendLanding ..

theorem State.flightOf_fillTile (s : State) (j : Nat) (o : CopyOp) (ch : Nat) (d : List (Byte × Bool)) (keep : Nat → Bool) (k : Nat) :
    (s.fillTile j o ch d keep).flightOf k = s.flightOf k := by
  refine foldl_flightOf _ k (fun s i => ?_) _ s
  dsimp only
  split
  · rfl
  · exact flightOf_writeLine ..

theorem State.flightOf_drainLine (s : State) (j idx : Nat) (e : PbEntry) (k : Nat) : (s.drainLine j idx e).flightOf k = s.flightOf k := by
  have hlog : (s.updCtx j fun c => if e.loc.own then c.ownLogged s idx e else c.spoil idx).flightOf k = s.flightOf k := by
    refine flightOf_updCtx s j _ (fun c => ?_) k
    unfold Context.ownLogged
    split <;> rfl
  unfold State.drainLine
  refine (flightOf_homeWriteLine ..).trans (.trans ?_ hlog)
  split
  · unfold State.ownWritten
    split <;> rfl
  · rfl

theorem State.flightOf_updCtx_if (s : State) (j : Nat) (b : Bool) (f : Context → Context) (hf : ∀ c, (f c).fl = c.fl) (k : Nat) :
    (if b then s.updCtx j f else s).flightOf k = s.flightOf k := by
  split
  · exact flightOf_updCtx s j f hf k
  · rfl

theorem State.flightOf_addRow (s : State) (j : Nat) (c : Context) (o : CopyOp) (row : Nat) (d : List (Byte × Bool)) (k : Nat) :
    (s.addRow j c o row d).flightOf k = s.flightOf k := by
  unfold State.addRow
  refine (flightOf_tileOor ..).trans ((flightOf_updCtx_if _ j _ _ (fun _ => by rfl) k).trans ((flightOf_writeLine ..).trans ?_))
  exact foldl_flightOf _ k (fun s i => flightOf_writeLine ..) _ s

theorem State.flightOf_lastFragment (s : State) (j : Nat) (c : Context) (o : CopyOp) (k : Nat) :
    (s.lastFragment j c o).flightOf k = s.flightOf k := by
  unfold State.lastFragment
  split
  · exact flightOf_receive ..
  · rfl

/-- What is left of the undelivered chunks changes tiles and memory, and no list of operations. -/
theorem State.flightOf_abortLeftovers (s : State) (j : Nat) (o : CopyOp) (k : Nat) : (s.abortLeftovers j o).flightOf k = s.flightOf k := by
  unfold State.abortLeftovers
  split
  · rfl
  · refine foldl_flightOf _ k (fun s i => ?_) _ s
    dsimp only
    split
    · rfl
    · split
      · rfl
      · split
        · exact flightOf_fillTile ..
        · split
          · refine foldl_flightOf _ k (fun s l => ?_) _ s
            split
            · exact flightOf_drainLine ..
            · rfl
          · split
            · split
              · exact flightOf_addRow ..
              · rfl
            · rfl

/-- Loads performed on the way change nothing of the work in flight. -/
theorem Context.performWhere_performed (s : State) (c : Context) (p : GenLoad → Bool) : c.LoadsPerformed (c.performWhere s p) :=
  Context.foldl_performLoad_performed s _ ⟨_, _, _, _, rfl⟩

theorem Context.performBefore_performed (s : State) (c : Context) (idx : Nat) : c.LoadsPerformed (c.performBefore s idx) :=
  performWhere_performed ..

theorem Context.endCopy_ops (c : Context) (o : CopyOp) : (c.endCopy o).fl.copyOps = c.fl.copyOps.filter (fun x => x.id ≠ o.id) := by
  unfold Context.endCopy
  dsimp only
  split
  · rfl
  · split
    · rfl
    · rfl

/-- An aborted operation leaves its list; every other stays. -/
theorem State.abortCopy_ops {s : State} {k : Nat} {c : Context} (h : s.ctx k = some c) (o : CopyOp) :
    ∃ d, (s.abortCopy k o).ctx k = some d ∧ d.fl.copyOps = c.fl.copyOps.filter (fun x => x.id ≠ o.id) := by
  have hkept : (((s.setCtx k (c.performBefore s o.idx)).lastFragment k (c.performBefore s o.idx) o).abortLeftovers k o).flightOf k = some c.fl := by
    rw [flightOf_abortLeftovers, flightOf_lastFragment, flightOf_of (State.ctx_setCtx_self _ _ _)]
    obtain ⟨_, _, _, _, hc⟩ := Context.performBefore_performed s c o.idx
    rw [hc]
  obtain ⟨d, hd, hfl⟩ := Option.map_eq_some_iff.mp hkept
  unfold State.abortCopy
  rw [h]
  dsimp only
  rw [State.updCtx_of hd]
  refine ⟨_, State.ctx_setCtx_self _ _ _, ?_⟩
  rw [← hfl]
  split
  · exact Context.endCopy_ops d o
  · exact Context.endCopy_ops d o

theorem foldl_abortCopy_ops (k : Nat) (l : List CopyOp) : ∀ (s : State) (c : Context), s.ctx k = some c →
    ∃ d, (l.foldl (fun s o => s.abortCopy k o) s).ctx k = some d ∧ ∀ x ∈ d.fl.copyOps, x ∈ c.fl.copyOps ∧ ∀ a ∈ l, x.id ≠ a.id := by
  induction l with
  | nil => exact fun s c h => ⟨c, h, fun x hx => ⟨hx, fun a ha => nomatch ha⟩⟩
  | cons o l ih =>
    intro s c h
    obtain ⟨d, hd, hops⟩ := State.abortCopy_ops h o
    obtain ⟨e, he, hrest⟩ := ih _ d hd
    refine ⟨e, he, fun x hx => ?_⟩
    obtain ⟨hxd, hnot⟩ := hrest x hx
    rw [hops, List.mem_filter] at hxd
    exact ⟨hxd.1, List.forall_mem_cons.mpr ⟨by simpa using hxd.2, hnot⟩⟩

/-- The operations that a clear names are gone (R162). -/
theorem State.clearChannel_ops {s : State} {k : Nat} {c : Context} (h : s.ctx k = some c) (ch : Nat) :
    ∃ d, (s.clearChannel k ch).ctx k = some d ∧ ∀ o ∈ d.fl.copyOps, o.committed = true → o.w.ch.toNat ≠ ch := by
  unfold State.clearChannel
  rw [h]
  dsimp only
  obtain ⟨d, hd, hrest⟩ := foldl_abortCopy_ops k (c.fl.copyOps.filter (fun o => o.committed && decide (o.w.ch.toNat = ch))) s c h
  refine ⟨d, hd, fun o ho hcom hch => ?_⟩
  obtain ⟨hin, hnot⟩ := hrest o ho
  exact hnot o (List.mem_filter.mpr ⟨hin, by simp [hcom, hch]⟩) rfl

/-! ### The commit point (R23, R24, R37, R230) -/

/-- The context as its oldest bundle commits: the generator loads that precede its stores are performed (R35). -/
def Context.beforeCommit (s : State) (c : Context) (i : Issued) : Context :=
  if bundleStores i.acts = [] then c else c.performBefore s i.idx

theorem Context.beforeCommit_performed (s : State) (c : Context) (i : Issued) : c.LoadsPerformed (c.beforeCommit s i) := by
  unfold Context.beforeCommit
  split
  · exact ⟨_, _, _, _, rfl⟩
  · exact c.performBefore_performed s i.idx

theorem Context.beforeCommit_of_noLoads (s : State) (c : Context) (i : Issued) (h : c.thread.loads = []) : c.beforeCommit s i = c := by
  unfold Context.beforeCommit
  split
  · rfl
  · exact c.performWhere_of_none s _ fun x hx => by rw [h] at hx; cases hx

theorem bundleCommit_goes {s : State} {k : Nat} {c : Context} {i : Issued} {rest : List Issued} (h : s.ctx k = some c)
    (hr : s.onRetired c = false) (hi : c.fl.issued = i :: rest) (hdue : i.cc + 8 < c.ctxcyc) :
    ∃ t, exec (.bundleCommit k) s = .next t ∧ t = { s.commitOldest k c i with agenda := t.agenda } := by
  have hcommit : c.commitDue = true := by
    rw [Context.commitDue, hi]
    exact decide_eq_true hdue
  show ∃ t, execBundleCommit k s = .next t ∧ _
  rw [execBundleCommit, atCore_of h hr]
  dsimp only
  rw [hi]
  dsimp only
  rw [hcommit]
  simp only [Bool.not_true, Bool.false_eq_true, if_false]
  split
  · split
    · exact ⟨_, rfl, rfl⟩
    · exact ⟨_, rfl, rfl⟩
  · exact ⟨_, rfl, rfl⟩

theorem State.commitOldest_of_noFault (s : State) (k : Nat) (c : Context) (i : Issued) (hf : i.fault = none) :
    s.commitOldest k c i = match (c.beforeCommit s i).ord.slotStore (bundleStores i.acts) with
      | none => s.setCtx k ((c.beforeCommit s i).faultAtCommit i { slot := 1, cause := bPHASEFULL, sub := 0, addr :=
          (firstOver (c.beforeCommit s i).ord.slotBuffer (bundleStores i.acts)).getD 0 })
      | some _ => (i.acts.foldl (State.act k i.idx) (s.setCtx k { c.beforeCommit s i with
          fl := { (c.beforeCommit s i).fl with issued := (c.beforeCommit s i).fl.issued.tail } })).updCtx k Context.settle := by
  have hb : (if (bundleStores i.acts).isEmpty then c else c.performBefore s i.idx) = c.beforeCommit s i := by
    unfold Context.beforeCommit
    cases bundleStores i.acts with
    | nil => rfl
    | cons x l => rfl
  unfold State.commitOldest
  rw [hf]
  dsimp only
  rw [hb] <;> rfl

theorem commitOldest_fits {s : State} {k : Nat} {c : Context} {i : Issued} {rest : List Issued} (hi : c.fl.issued = i :: rest)
    (hf : i.fault = none) (hroom : (c.beforeCommit s i).ord.slotStore (bundleStores i.acts) ≠ none) :
    s.commitOldest k c i = (i.acts.foldl (State.act k i.idx) (s.setCtx k { c.beforeCommit s i with
      fl := { (c.beforeCommit s i).fl with issued := rest } })).updCtx k Context.settle := by
  obtain ⟨o, ho⟩ := Option.ne_none_iff_exists'.mp hroom
  obtain ⟨_, _, _, _, hc⟩ := c.beforeCommit_performed s i
  have htail : (c.beforeCommit s i).fl.issued.tail = rest := by rw [hc]; exact congrArg List.tail hi
  rw [State.commitOldest_of_noFault s k c i hf, ho, htail]

theorem commitOldest_full {s : State} {k : Nat} {c : Context} {i : Issued} (hf : i.fault = none)
    (hroom : (c.beforeCommit s i).ord.slotStore (bundleStores i.acts) = none) :
    s.commitOldest k c i = s.setCtx k ((c.beforeCommit s i).faultAtCommit i { slot := 1, cause := bPHASEFULL, sub := 0, addr :=
      (firstOver (c.beforeCommit s i).ord.slotBuffer (bundleStores i.acts)).getD 0 }) := by
  rw [State.commitOldest_of_noFault s k c i hf, hroom]

theorem commitOldest_fault {s : State} {k : Nat} {c : Context} {i : Issued} {slot : Nat} {x : XFault} (hf : i.fault = some (slot, x)) :
    (isNotPres x.sub = false → s.commitOldest k c i = s.setCtx k (c.faultAtCommit i
      { slot := slot, cause := bXLATE, sub := x.sub.toNat, addr := x.va })) ∧
    (isNotPres x.sub = true → s.commitOldest k c i = (s.setCtx k ((c.cancelFrom i.idx).pageWait i.entry)).queueFault (.cobalt c.die)
      { seq := 0, source := 1, who := k, va := x.va, pc := i.entry.pc, emitseq := i.entry.seq, sub := x.sub, unit := slot, record := [] }) := by
  unfold State.commitOldest
  rw [hf]
  dsimp only
  unfold State.commitXlate
  exact ⟨fun h => if_neg (by rw [h]; exact Bool.false_ne_true), fun h => if_pos h⟩

/-- A bundle fault cancels the bundle and every younger one, and notes what it was (R24). -/
theorem Context.faultAtCommit_head {c : Context} {i : Issued} {rest : List Issued} (hi : c.fl.issued = i :: rest) (f : BFault) :
    (c.faultAtCommit i f).bundleTrap = true ∧ (c.faultAtCommit i f).beFrozen = true ∧
    (c.faultAtCommit i f).fl.replay = some { entry := i.entry, paging := false } ∧
    (c.faultAtCommit i f).fl.issued = c.fl.issued.filter (fun x => decide (x.idx < i.idx)) ∧
    (c.faultAtCommit i f).thread = { c.thread with
      bfpc := i.entry.pc, bfseq := i.entry.seq.setWidth 64, bfslot := BitVec.ofNat 64 f.slot, bfaddr := f.addr
      bfperf := 0, bfcause := BitVec.ofNat 64 (f.cause + f.sub * 256 + i.entry.reps % 256 * 65536) } := by
  have hhead : c.fl.issued.filter (fun x => decide (i.idx ≤ x.idx)) = i :: rest.filter (fun x => decide (i.idx ≤ x.idx)) := by
    rw [hi, List.filter_cons_of_pos (by simp)]
  unfold Context.faultAtCommit Context.cancelFrom
  rw [hhead]
  exact ⟨rfl, rfl, rfl, rfl, rfl⟩

/-! ### Landings (R229, R240) -/

theorem updateNth_getElem? {α : Type} (l : List α) (i : Nat) (f : α → α) (j : Nat) :
    (updateNth l i f)[j]? = if j = i then l[j]?.map f else l[j]? := by
  induction l generalizing i j with
  | nil => simp [updateNth]
  | cons x l ih =>
    cases i with
    | zero => cases j <;> simp [updateNth]
    | succ i => cases j with
      | zero => simp [updateNth]
      | succ j => simpa [updateNth] using ih i j

theorem landingDataArrives_spec {s : State} {k : Nat} {c : Context} (h : s.ctx k = some c) (hr : s.onRetired c = false) (e : Nat) (l : Landing)
    (hl : c.fl.landings[e]? = some l) (harr : l.arrived = false) (htodo : l.todo = []) (hsync : l.kind ≠ 2 ∨ ∀ o ∈ c.fl.syncOps, o.idx ≠ l.idx) :
    ∃ t c', exec (.landingDataArrives k e) s = .next t ∧ t.ctx k = some c' ∧ c'.fl.landings[e]? = some { l with arrived := true } ∧
      (∀ j, j ≠ e → c'.fl.landings[j]? = c.fl.landings[j]?) ∧ c'.thread = c.thread ∧ c'.be = c.be ∧ (∀ a, t.memByte a = s.memByte a) := by
  have hopen : (l.arrived || !l.todo.isEmpty || (l.kind == 2 && c.fl.syncOps.any (fun o => decide (o.idx = l.idx)))) = false := by
    rw [harr, htodo]
    rcases hsync with hk | hnone
    · simp [hk]
    · simp only [List.isEmpty_nil, Bool.not_true, Bool.or_self, Bool.false_or, Bool.and_eq_false_iff]
      exact .inr (List.any_eq_false.mpr fun o ho => by simpa using hnone o ho)
  have hself : (updateNth c.fl.landings e (fun l => { l with arrived := true }))[e]? = some { l with arrived := true } := by
    rw [updateNth_getElem?, if_pos rfl, hl]
    rfl
  have hother (j : Nat) (hj : j ≠ e) : (updateNth c.fl.landings e (fun l => { l with arrived := true }))[j]? = c.fl.landings[j]? := by
    rw [updateNth_getElem?, if_neg hj]
  show ∃ t c', execLandingDataArrives k e s = .next t ∧ _
  rw [execLandingDataArrives, atCore_of h hr]
  dsimp only
  rw [hl]
  dsimp only
  rw [hopen, if_neg Bool.false_ne_true]
  split
  · exact ⟨_, _, rfl, State.ctx_setCtx_self _ _ _, hself, hother, rfl, rfl, fun a => rfl⟩
  · exact ⟨_, _, rfl, State.ctx_setCtx_self _ _ _, hself, hother, rfl, rfl, fun a => rfl⟩

theorem mem_journalInsert (w : RegWrite) (j : List RegWrite) (x : RegWrite) : x ∈ journalInsert w j ↔ x = w ∨ x ∈ j := by
  induction j with
  | nil => simp [journalInsert]
  | cons y j ih =>
    unfold journalInsert
    split
    · rw [List.mem_cons, ih, List.mem_cons]
      exact or_left_comm
    · rw [List.mem_cons]

theorem mem_foldl_journalInsert (l : List Landing) (j : List RegWrite) (x : RegWrite) :
    x ∈ l.foldl (fun j l => journalInsert l.write j) j ↔ x ∈ j ∨ ∃ y ∈ l, x = y.write := by
  induction l generalizing j with
  | nil => simp
  | cons y l ih =>
    rw [List.foldl_cons, ih, mem_journalInsert]
    simp only [List.mem_cons, exists_eq_or_imp]
    tauto

/-- Data due and arrived (R229). -/
def Context.landed (c : Context) (l : Landing) : Bool := decide (l.due ≤ c.ctxcyc) && l.arrived

/-- The context with its landed data among the results on their way. -/
def Context.takeLanded (c : Context) : Context := { c with fl := { c.fl with
  landings := c.fl.landings.filter (fun l => !c.landed l)
  journal := (c.fl.landings.filter c.landed).foldl (fun j l => journalInsert l.write j) c.fl.journal } }

theorem Context.settleFmt_of_nil (c : Context) (h : c.fl.pendingFmt = []) : c.settleFmt.be = c.be := by
  unfold Context.settleFmt
  rw [h]
  rfl

theorem Context.takeLanded_mem {c : Context} {l : Landing} (hl : l ∈ c.fl.landings) (hready : c.landed l = true) :
    ∃ w ∈ c.takeLanded.fl.journal, w.target = .vreg l.v l.mask l.data ∧ w.poison = l.poison ∧ w.due = l.due ∧ w.idx = l.idx :=
  ⟨l.write, (mem_foldl_journalInsert _ _ _).mpr (.inr ⟨l, List.mem_filter.mpr ⟨hl, hready⟩, rfl⟩), rfl, rfl, rfl, rfl⟩

theorem Context.takeLanded_settle {c : Context} {l : Landing} (hone : c.fl.landings.filter c.landed = [l]) (hj : c.fl.journal = [])
    (hfmt : c.fl.pendingFmt = []) (hdue : l.due < c.ctxcyc) (hidx : l.idx < c.committedBelow) :
    c.takeLanded.settle.be = { c.be with vec := c.be.vec.write (.vreg l.v l.mask l.data) l.poison } := by
  have hjournal : c.takeLanded.fl.journal = [l.write] := by
    show (c.fl.landings.filter c.landed).foldl _ c.fl.journal = _
    rw [hone, hj]
    rfl
  have hfalls : c.takeLanded.fallsDue l.write = true := decide_eq_true ⟨hdue, hidx⟩
  have hregs : c.takeLanded.settleRegs = (c.takeLanded.settleOne l.write).withJournal [] := by
    rw [c.takeLanded.settleRegs_cons hjournal hfalls]
    exact Context.settleRegs_of_none _ rfl
  rw [Context.settle, hregs, ((c.takeLanded.settleOne l.write).withJournal []).settleFmt_of_nil hfmt]
  rfl

/-! ### Loads performed (R36) -/

theorem Landing.put_lane (l : Landing) (ln n v : Nat) (sg : Bool) :
    (l.kind ≠ 1 → l.put ln n v sg = BitVec.ofNat 512 v) ∧
    (l.kind = 1 → l.put ln n v sg = l.data ||| BitVec.ofNat 512 ((BitVec.ofInt 32 (intOf sg (8 * n) v)).toNat * 2 ^ (32 * ln))) := by
  unfold Landing.put
  refine ⟨fun h => if_neg h, fun h => ?_⟩
  rw [if_pos h]
  congr 3

theorem loadPerform_landing {s : State} {k : Nat} {c : Context} (h : s.ctx k = some c) (hr : s.onRetired c = false) (e ln : Nat) (l : Landing)
    (va : Word) (loc : Loc) (n : Nat) (sg : Bool) (hl : c.fl.landings[e]? = some l) (htodo : l.todo = [⟨ln, va, some loc, n, sg⟩])
    (hready : c.loadReady l l.todo = true) :
    (s.apart c loc.engine = true → exec (.loadPerform k (.landing e ln)) s = .next s) ∧ (s.apart c loc.engine = false →
      let x := ordLoad s c.reader c.ord loc n
      ∃ t c' l', exec (.loadPerform k (.landing e ln)) s = .next t ∧ t.ctx k = some c' ∧
        c'.fl.landings[e]? = some l' ∧ l'.poison = (l.poison || x.2.1) ∧ l'.todo = [] ∧ c'.ord = x.2.2 ∧ c'.thread = c.thread ∧
        (l.kind ≠ 1 → l'.data = BitVec.ofNat 512 x.1) ∧
        (l.kind = 1 → n ≤ 4 → l'.data = l.data ||| BitVec.ofNat 512 ((BitVec.ofInt 32 (intOf sg (8 * n) x.1)).toNat * 2 ^ (32 * ln))) ∧
        (∀ a, t.memByte a = s.memByte a)) := by
  have hparts : l.todo.filter (fun p => decide (p.lane = ln)) = l.todo := by rw [htodo]; simp
  have hgone : l.todo.filter (fun p => decide (p.lane ≠ ln)) = [] := by rw [htodo]; simp
  have hapart : (l.todo.any (fun p => p.loc.any (fun x => s.apart c x.engine))) = s.apart c loc.engine := by rw [htodo]; simp
  have hone : performParts s c.reader c.ord l.todo =
      ((ordLoad s c.reader c.ord loc n).1, (ordLoad s c.reader c.ord loc n).2.1, (ordLoad s c.reader c.ord loc n).2.2) := by
    rw [htodo]
    simp [performParts]
  have hbytes : ((l.todo.map (·.size)).foldl (· + ·) 0) = n := by rw [htodo]; simp
  have hsg : l.todo.any (·.signed) = sg := by rw [htodo]; simp
  have hexec : exec (.loadPerform k (.landing e ln)) s = .next (if s.apart c loc.engine then s else
      s.setCtx k { c with ord := (ordLoad s c.reader c.ord loc n).2.2, fl := { c.fl with landings := updateNth c.fl.landings e (fun _ =>
        { l with data := l.put ln n (ordLoad s c.reader c.ord loc n).1 sg
                 poison := l.poison || (ordLoad s c.reader c.ord loc n).2.1, todo := [] }) } }) := by
    show execLoadPerform k (.landing e ln) s = _
    rw [execLoadPerform, atCore_of h hr]
    dsimp only
    rw [hl]
    dsimp only
    rw [hparts, hgone, hready, hapart, hone, hbytes, hsg]
    rfl
  refine ⟨fun ha => by rw [hexec, if_pos ha], ?_⟩
  intro ha x
  rw [hexec, if_neg (by rw [ha]; exact Bool.false_ne_true)]
  obtain ⟨hput, hgather⟩ := l.put_lane ln n x.1 sg
  refine ⟨_, _, { l with data := l.put ln n x.1 sg, poison := l.poison || x.2.1, todo := [] }, rfl, State.ctx_setCtx_self _ _ _, ?_, rfl, rfl,
    rfl, rfl, hput, fun hk _ => hgather hk, fun a => rfl⟩
  show (updateNth c.fl.landings e _)[e]? = _
  rw [updateNth_getElem?, if_pos rfl, hl]
  rfl

theorem loadPerform_gen {s : State} {k : Nat} {c : Context} (h : s.ctx k = some c) (hr : s.onRetired c = false) (n : Nat) (l : GenLoad)
    (hl : c.thread.loads[n]? = some l) :
    let x := ordLoad s c.reader c.ord l.loc l.size
    ((∃ y ∈ c.thread.loads, l.age < y.age) ∨ s.apart c l.loc.engine = true → exec (.loadPerform k (.gen n)) s = .next s) ∧
    ((∀ y ∈ c.thread.loads, y.age ≤ l.age) → s.apart c l.loc.engine = false →
      exec (.loadPerform k (.gen n)) s = .next (s.setCtx k { c with
        ord := x.2.2
        thread := { c.thread with loads := c.thread.loads.eraseIdx n }.setReg l.d (extendLoad l.size l.signed x.1) x.2.1 })) := by
  intro x
  have hexec : exec (.loadPerform k (.gen n)) s = .next (if c.thread.loads.any (fun x => decide (l.age < x.age)) || s.apart c l.loc.engine then s
      else s.setCtx k (({ c with thread := { c.thread with loads := c.thread.loads.eraseIdx n } } : Context).performLoad s l)) := by
    show execLoadPerform k (.gen n) s = _
    rw [execLoadPerform, atCore_of h hr]
    dsimp only
    rw [hl]
  rw [hexec]
  refine ⟨fun hwait => congrArg Host.Outcome.next (if_pos ?_), fun hage ha => congrArg Host.Outcome.next (if_neg ?_)⟩
  · rcases hwait with ⟨y, hy, hlt⟩ | ha
    · rw [List.any_eq_true.mpr ⟨y, hy, decide_eq_true hlt⟩]
      rfl
    · rw [ha, Bool.or_true]
  · rw [ha, Bool.or_false, Bool.not_eq_true, List.any_eq_false]
    exact fun y hy => by simpa using hage y hy

/-! ### Writes of the transit set, lines of the snapshot (R34, R37) -/

theorem State.tagLine_contains (s : State) (pkg line : Nat) (full p : Bool) (j : Nat) :
    (s.tagLine pkg line full p).poison.contains j =
      if j = lineKey pkg line then p || (!full && s.poison.contains j) else s.poison.contains j := by
  cases full with
  | true => simpa using s.tagLine_full_contains pkg line p j
  | false =>
    cases p with
    | true =>
      rw [show s.tagLine pkg line false true = s.tagLine pkg line true true from rfl, s.tagLine_full_contains]
      rfl
    | false =>
      show s.poison.contains j = _
      simp

theorem State.homeWriteLine_poison (s : State) (pkg line : Nat) (mask : BitVec 64) (data : Line) (p g : Bool) (hm : mask ≠ 0) (j : Nat) :
    (s.homeWriteLine pkg line mask data p g).poison.contains j =
      if j = lineKey pkg line then p || (mask != BitVec.allOnes 64 && s.poison.contains j) else s.poison.contains j := by
  unfold State.homeWriteLine
  rw [if_neg hm]
  refine (State.tagLine_contains _ pkg line (mask == BitVec.allOnes 64) p j).trans ?_
  rfl

theorem Context.ownLogged_kept (c : Context) (s : State) (idx : Nat) (e : PbEntry) : ∃ chk, c.ownLogged s idx e = { c with chk := chk } := by
  unfold Context.ownLogged
  dsimp only
  split
  · exact ⟨_, rfl⟩
  · exact ⟨_, rfl⟩

theorem State.ownWritten_kept (s : State) (c : Context) (l : Loc) : ∃ past, s.ownWritten c l = { s with ownPast := past } := by
  unfold State.ownWritten
  split
  · exact ⟨_, rfl⟩
  · exact ⟨_, rfl⟩

theorem transitWriteApply_spec {s : State} {k : Nat} {c : Context} (h : s.ctx k = some c) (n : Nat) (e : PbEntry)
    (he : c.ord.transit[n]? = some e) :
    ((c.ord.transit.take n).any e.meets = true ∨ s.apart c e.loc.engine = true → exec (.transitWriteApply k n) s = .next s) ∧
    ((c.ord.transit.take n).any e.meets = false → s.apart c e.loc.engine = false → s.MemWf →
      let base := memKey e.loc.pkg (e.loc.pa / 64 * 64)
      let key := lineKey e.loc.pkg (e.loc.pa / 64)
      ∃ t c', exec (.transitWriteApply k n) s = .next t ∧ t.ctx k = some c' ∧ c'.ord = { c.ord with transit := c.ord.transit.eraseIdx n } ∧
        c'.thread = c.thread ∧ c'.be = c.be ∧
        (∀ j, j < 64 → t.memByte (base + j) = if e.mask.getLsbD j then lineByte e.data j else s.memByte (base + j)) ∧
        (∀ a, a < base ∨ base + 64 ≤ a → t.memByte a = s.memByte a) ∧
        (e.mask ≠ 0 → t.poison.contains key = (e.poison || (e.mask != BitVec.allOnes 64 && s.poison.contains key))) ∧
        (∀ j, j ≠ key → t.poison.contains j = s.poison.contains j)) := by
  obtain ⟨chk, hlog⟩ := ({ c with ord := { c.ord with transit := c.ord.transit.eraseIdx n } } : Context).ownLogged_kept s 0 e
  obtain ⟨past, hpast⟩ := (s.setCtx k { c with ord := { c.ord with transit := c.ord.transit.eraseIdx n }, chk := chk }).ownWritten_kept c e.loc
  have hexec : exec (.transitWriteApply k n) s = .next (if (c.ord.transit.take n).any e.meets || s.apart c e.loc.engine then s
      else (((s.setCtx k { c with ord := { c.ord with transit := c.ord.transit.eraseIdx n }, chk := chk }).ownWritten c e.loc).homeWriteLine
        e.loc.pkg (e.loc.pa / 64) e.mask e.data e.poison false)) := by
    show execTransitWriteApply k n s = _
    rw [execTransitWriteApply, atCtx_of h]
    dsimp only
    rw [he]
    dsimp only
    rw [hlog]
  rw [hexec]
  refine ⟨fun hno => by rw [if_pos (by rcases hno with hno | hno <;> rw [hno]; exacts [rfl, Bool.or_true _])], ?_⟩
  intro hmeet ha hw base key
  rw [hmeet, ha, Bool.or_false, if_neg Bool.false_ne_true, hpast]
  generalize hu : ({ s.setCtx k { c with ord := { c.ord with transit := c.ord.transit.eraseIdx n }, chk := chk } with ownPast := past } : State) = u
  have hctx : u.ctx k = some { c with ord := { c.ord with transit := c.ord.transit.eraseIdx n }, chk := chk } := by
    rw [← hu]
    exact State.ctx_setCtx_self _ _ _
  have hread (a : Nat) := u.homeWriteLine_read e.loc.pkg (e.loc.pa / 64) e.mask e.data e.poison false a (by rw [← hu]; exact hw)
  have hmem (a : Nat) : u.memByte a = s.memByte a := by rw [← hu]; rfl
  have hpoison : u.poison = s.poison := by rw [← hu]; rfl
  refine ⟨_, { c with ord := { c.ord with transit := c.ord.transit.eraseIdx n }, chk := chk }, rfl, ?_, rfl, rfl, rfl, fun j hj => ?_,
    fun a hout => ?_, fun hm => ?_, fun j hj => ?_⟩
  · unfold State.ctx
    rw [State.homeWriteLine_contexts]
    exact hctx
  · rw [hread, hmem]
    change (if base ≤ base + j ∧ base + j < base + 64 ∧ e.mask.getLsbD (base + j - base) = true then lineByte e.data (base + j - base)
      else s.memByte (base + j)) = _
    rw [Nat.add_sub_cancel_left]
    simp only [Nat.le_add_right, Nat.add_lt_add_iff_left, hj, true_and]
  · rw [hread, hmem]
    refine if_neg fun hin => ?_
    obtain ⟨hlo, hhi, -⟩ := hin
    rcases hout with hout | hout
    · exact Nat.not_le.mpr hout hlo
    · exact Nat.not_lt.mpr hout hhi
  · rw [u.homeWriteLine_poison _ _ _ _ _ _ hm, if_pos rfl, hpoison]
  · by_cases hm : e.mask = 0
    · rw [State.homeWriteLine, if_pos hm, hpoison]
    · rw [u.homeWriteLine_poison _ _ _ _ _ _ hm, if_neg hj, hpoison]

/-! ### PHASE (R38, R39, R45) -/

/-- The context with a phase boundary sent (R38 step 2). -/
theorem phaseSend_of {s : State} {k : Nat} {c : Context} (h : s.ctx k = some c) (hr : s.onRetired c = false) (n : Nat) (p : Phase)
    (hp : c.ord.phases[n]? = some p) (hsent : p.sent = false) (hruns : c.runs = true) (hmay : c.phaseMaySend n p = true) :
    exec (.phaseSend k n) s = .next (s.setCtx k ((({ c with ord := c.ord.send n p } : Context).phaseSpoils p).markSent p)) := by
  show execPhaseSend k n s = _
  rw [execPhaseSend, atCore_of h hr, hp]
  dsimp only
  rw [hsent, Context.mayPhase, hruns, hmay]
  rfl

theorem Context.phaseSpoils_kept (c : Context) (p : Phase) :
    (c.phaseSpoils p).ord = c.ord ∧ (c.phaseSpoils p).thread.regs = c.thread.regs ∧ (c.phaseSpoils p).thread.pc = c.thread.pc := by
  unfold Context.phaseSpoils
  split
  · exact ⟨rfl, rfl, rfl⟩
  · exact ⟨rfl, rfl, rfl⟩
  · exact ⟨rfl, rfl, rfl⟩

theorem Context.markSent_kept (c : Context) (p : Phase) : (c.markSent p).ord = c.ord ∧ (c.markSent p).thread = c.thread := by
  unfold Context.markSent
  split
  · exact ⟨rfl, rfl⟩
  · exact ⟨rfl, rfl⟩

/-- What is sent goes behind the writes on their way, and the boundary is noted as sent (R38 step 2, R39). -/
theorem OrdState.send_spec {o : OrdState} {n : Nat} {p : Phase} (hp : o.phases[n]? = some p) :
    (p.owner.ofBundle = true → (o.send n p).transit = o.transit ++ o.pbuf ∧ (o.send n p).pbuf = p.after ∧
      ∀ j, j ≠ n → (o.send n p).phases[j]? = o.phases[j]?) ∧
    (p.owner.ofBundle = false → (o.send n p).transit = o.transit ++ o.entries ∧ (o.send n p).entries = []) ∧
    (o.send n p).phases[n]? = some { p with sent := true, after := [] } := by
  unfold OrdState.send
  cases hb : p.owner.ofBundle with
  | true =>
    rw [if_pos rfl]
    refine ⟨fun _ => ⟨rfl, rfl, fun j hj => ?_⟩, (fun h => nomatch h), ?_⟩
    · show (updateNth _ _ _)[j]? = _
      rw [updateNth_getElem?, if_neg hj]
    · show (updateNth _ _ _)[n]? = _
      rw [updateNth_getElem?, if_pos rfl, hp]
      rfl
  | false =>
    rw [if_neg Bool.false_ne_true]
    refine ⟨(fun h => nomatch h), fun _ => ⟨rfl, ?_⟩, ?_⟩
    · show [] ++ (updateNth _ _ _).flatMap _ = []
      rw [List.nil_append, List.flatMap_eq_nil_iff]
      intro q hq
      obtain ⟨j, hj, hjq⟩ := List.mem_iff_getElem.mp hq
      have hget := updateNth_getElem? (o.phases.map (fun q => { q with after := [] })) n (fun p => { p with sent := true }) j
      rw [List.getElem?_eq_getElem hj, hjq, List.getElem?_map] at hget
      cases hopt : o.phases[j]? with
      | none => rw [hopt] at hget; split at hget <;> cases hget
      | some r =>
        rw [hopt] at hget
        split at hget
        · cases hget; rfl
        · cases hget; rfl
    · show (updateNth _ _ _)[n]? = _
      rw [updateNth_getElem?, if_pos rfl, List.getElem?_map, hp]
      rfl

theorem phaseComplete_of {s : State} {k : Nat} {c : Context} (h : s.ctx k = some c) (hr : s.onRetired c = false) (n : Nat) (p : Phase)
    (hp : c.ord.phases[n]? = some p) (hsent : p.sent = true) (hruns : c.runs = true) (happ : c.phaseApplied p = true) :
    exec (.phaseComplete k n) s = .next (if !c.ord.asyncLog.isEmpty then (s.setCtx k (c.dropInScope p.scope)).asyncHalt k
      else s.setCtx k (({ c.dropInScope p.scope with ord := { (c.dropInScope p.scope).ord with phases := c.ord.phases.eraseIdx n } } :
        Context).phaseOwnerDone p)) := by
  show execPhaseComplete k n s = _
  rw [execPhaseComplete, atCore_of h hr]
  dsimp only
  rw [hp]
  dsimp only
  rw [hsent, Context.mayPhase, hruns, happ]
  rfl

theorem Context.phaseOwnerDone_spec (c : Context) (p : Phase) : (c.phaseOwnerDone p).ord = c.ord ∧
    (p.owner = .phaseg → (c.phaseOwnerDone p).wait = .none ∧ (c.phaseOwnerDone p).thread.pc = c.thread.nextPc (c.thread.pc + 4)) ∧
    (∀ id, p.owner = .sync id → (c.phaseOwnerDone p).fl.syncOps =
      c.fl.syncOps.map (fun o => if o.id = id then { o with state := .ready } else o)) := by
  unfold Context.phaseOwnerDone
  cases p.owner with
  | phaseg => exact ⟨rfl, fun _ => ⟨rfl, rfl⟩, fun id h => nomatch h⟩
  | mem i => exact ⟨rfl, (fun h => nomatch h), fun id h => nomatch h⟩
  | sync i => exact ⟨rfl, (fun h => nomatch h), fun id h => by cases h; rfl⟩
  | halt => exact ⟨rfl, (fun h => nomatch h), fun id h => nomatch h⟩
  | cpost =>
    refine ⟨?_, (fun h => nomatch h), fun id h => nomatch h⟩
    dsimp only
    split <;> rfl

/-- Settles O51: each step runs by its one equation; the commit point's cases, what an abort leaves of a context's lists, and the
writes of the transit set at their homes each have their lemma. -/
theorem orderingResults : Obligations.OrderingResults := by
  unfold Obligations.OrderingResults
  refine ⟨fun s k c h => ?_, fun s k idx c h => ?_⟩
  · intro goes live
    refine ⟨fun i rest hr hi hdue => ?_, fun e l hr hl harr htodo hsync => landingDataArrives_spec h hr e l hl harr htodo hsync,
      fun hr => ?_, fun e ln l va loc n sg hr hl htodo hready => loadPerform_landing h hr e ln l va loc n sg hl htodo hready,
      fun n l hr hl => loadPerform_gen h hr n l hl, fun n e he => transitWriteApply_spec h n e he, fun line => ?_,
      fun n p hr hp hsent hruns hmay => ?_, fun n p hr hp hsent hruns happ => ?_⟩
    · intro b
      have hgo {t : State} (ht : s.commitOldest k c i = t) : goes (.bundleCommit k) t := ht ▸ bundleCommit_goes h hr hi hdue
      refine ⟨c.beforeCommit_of_noLoads s i, fun hf hroom => hgo (commitOldest_fits hi hf hroom), fun hf hroom => hgo (commitOldest_full hf hroom),
        fun slot x hf => ⟨fun hx => hgo ((commitOldest_fault hf).1 hx), fun hx => hgo ((commitOldest_fault hf).2 hx)⟩, fun f => ?_⟩
      exact c.faultAtCommit_head hi f
    · intro ready d
      refine ⟨?_, fun l hl hready => c.takeLanded_mem hl hready, fun l hone hj hfmt hdue hidx => c.takeLanded_settle hone hj hfmt hdue hidx⟩
      show execTimedLanding k s = _
      rw [execTimedLanding, atCore_of h hr]
    · show Host.Outcome.next _ = _
      rw [State.updCtx_of h]
    · obtain ⟨hbundle, hgen, hthis⟩ := OrdState.send_spec hp
      obtain ⟨hord, hthread⟩ := (({ c with ord := c.ord.send n p } : Context).phaseSpoils p).markSent_kept p
      obtain ⟨hord', hregs, hpc⟩ := ({ c with ord := c.ord.send n p } : Context).phaseSpoils_kept p
      have hfin := hord.trans hord'
      refine ⟨_, _, phaseSend_of h hr n p hp hsent hruns hmay, State.ctx_setCtx_self _ _ _, ?_, ?_, ?_, ?_, ?_, fun a => rfl⟩
      · rw [hfin]; exact hbundle
      · rw [hfin]; exact hgen
      · rw [hfin]; exact hthis
      · rw [hthread]; exact hregs
      · rw [hthread]; exact hpc
    · intro gone
      rw [phaseComplete_of h hr n p hp hsent hruns happ]
      refine ⟨fun hlog => ?_, fun hlog => ?_⟩
      · rw [if_neg (by simp [hlog])]
        obtain ⟨hord, hphaseg, hsync⟩ :=
          ({ c.dropInScope p.scope with ord := { (c.dropInScope p.scope).ord with phases := c.ord.phases.eraseIdx n } } : Context).phaseOwnerDone_spec p
        exact ⟨_, _, rfl, State.ctx_setCtx_self _ _ _, hord, hphaseg, hsync, fun a => rfl⟩
      · rw [if_pos (by simpa using hlog)]
        rfl
  · refine ⟨fun buf tile line d p _ _ htile => act_bufStore h buf tile line d p htile, fun sts o ho => act_memStore h sts o ho, act_flags h,
      fun buf tile row byte => ?_, fun n => rfl, fun sc n hsc => ?_, act_copy h, fun id => ?_, act_sync h,
      fun ch slot j d o hj hd ho hs => act_resume h hj hd ho hs, fun ch => State.clearChannel_ops h ch, fun ch slot j d hj hd => ?_⟩
    · obtain ⟨c', hc', hthread, hbe⟩ := act_outOfRange (idx := idx) h buf tile row byte
      exact ⟨c', hc', hthread, hbe.trans rfl⟩
    · unfold State.act
      dsimp only
      rw [if_neg hsc, State.updCtx_of h]
      rfl
    · unfold State.act
      dsimp only
      rw [State.updCtx_of h]
      rfl
    · unfold State.act
      rw [h]
      dsimp only
      rw [hj]
      exact State.clearChannel_ops hd ch

end Sys2Proof.Machine
end

section
/-! PROOFS. The copy unit step by step (O52; R40-R42, R141-R160, R273, R349). -/

namespace Sys2Proof.Machine

/-! ### Buffer lines as a context sees them (R148, R226) -/

/-- The context stands in its table with its windows and its core. -/
def Stands (k : Nat) (c : Context) (s : State) : Prop := ∃ d, s.ctx k = some d ∧ d.id = c.id ∧ d.coreKey = c.coreKey

/-- The context but for its undo logs and its refetch records. -/
def Context.Logged (c d : Context) : Prop := ∃ chk refetch, d = { c with chk := chk, sch := { c.sch with refetch := refetch } }

theorem Context.Logged.refl (c : Context) : c.Logged c := ⟨_, _, rfl⟩

theorem Context.Logged.trans {c d e : Context} (h : c.Logged d) (h' : d.Logged e) : c.Logged e := by
  obtain ⟨_, _, rfl⟩ := h
  obtain ⟨chk, refetch, rfl⟩ := h'
  exact ⟨chk, refetch, rfl⟩

theorem Stands.of_ctx {k : Nat} {c : Context} {s : State} (h : s.ctx k = some c) : Stands k c s := ⟨c, h, rfl, rfl⟩

/-- The window whose lines a buffer number names: the status bytes are the C window's. -/
def winOf (buf : Nat) : Nat := if buf = 3 then 2 else buf

theorem Context.window_winOf (c : Context) (buf : Nat) : c.window (winOf buf) = c.window buf := by
  unfold winOf
  split
  · next h => rw [h]; rfl
  · rfl

theorem Context.window_of_id {c d : Context} (h : d.id = c.id) (buf : Nat) : d.window buf = c.window buf := by
  unfold Context.window
  rw [h]

section writeLine
variable {s : State} {k : Nat} {c : Context} (idx buf tile line : Nat) (f : BufLine → BufLine)

theorem State.writeLine_out (h : Stands k c s) (hout : winLimit (c.window buf) ≤ tile) : s.writeLine k idx buf tile line f = s := by
  obtain ⟨d, hd, hid, -⟩ := h
  unfold State.writeLine
  rw [hd]
  exact if_pos (by rw [show (if buf = 3 then 2 else buf) = winOf buf from rfl, d.window_winOf, Context.window_of_id hid]; exact hout)

theorem State.writeLine_logged (h : s.ctx k = some c) : ∃ d, (s.writeLine k idx buf tile line f).ctx k = some d ∧ c.Logged d := by
  unfold State.writeLine
  rw [h]
  dsimp only
  by_cases hw : winLimit (c.window (if buf = 3 then 2 else buf)) ≤ tile
  · rw [if_pos hw]
    exact ⟨c, h, .refl c⟩
  · rw [if_neg hw]
    exact ⟨_, State.ctx_setCtx_self _ _ _, _, _, rfl⟩

theorem Stands.writeLine (h : Stands k c s) : Stands k c (s.writeLine k idx buf tile line f) := by
  obtain ⟨d, hd, hid, hcore⟩ := h
  obtain ⟨e, he, _, _, hlog⟩ := State.writeLine_logged idx buf tile line f hd
  exact ⟨e, he, by rw [hlog]; exact hid, by rw [hlog]; exact hcore⟩

/-- A write into a tile changes contexts and cores alone. -/
theorem State.writeLine_only (s : State) (k : Nat) : ∃ x y, s.writeLine k idx buf tile line f = { s with contexts := x, cores := y } := by
  unfold State.writeLine
  cases s.ctx k with
  | none => exact ⟨_, _, rfl⟩
  | some c =>
    dsimp only
    by_cases hw : winLimit (c.window (if buf = 3 then 2 else buf)) ≤ tile
    · rw [if_pos hw]; exact ⟨_, _, rfl⟩
    · rw [if_neg hw]; exact ⟨_, _, rfl⟩

/-- A line written inside the window, and every other line of the core. -/
theorem State.writeLine_line (h : Stands k c s) (hin : tile < winLimit (c.window buf)) (x : Nat) :
    ((s.writeLine k idx buf tile line f).core c.coreKey).line x =
      if x = bufKey buf (winBase (c.window buf) + tile) line then f ((s.core c.coreKey).line x) else (s.core c.coreKey).line x := by
  obtain ⟨d, hd, hid, hcore⟩ := h
  have hwin : d.window (if buf = 3 then 2 else buf) = c.window buf := (d.window_winOf buf).trans (Context.window_of_id hid buf)
  unfold State.writeLine
  rw [hd]
  dsimp only
  rw [hwin, if_neg (Nat.not_le.mpr hin), hcore, State.core_updCore_self, Core.line]
  split
  · next hx =>
    rw [hx]
    exact SMap.getD_put_self ..
  · next hx => exact SMap.getD_put_ne _ _ _ hx

end writeLine

theorem State.readLine_of_in {s : State} {c : Context} {buf tile : Nat} (hin : tile < winLimit (c.window buf)) (line : Nat) :
    s.readLine c buf tile line = (s.core c.coreKey).line (bufKey buf (winBase (c.window buf) + tile) line) := by
  unfold State.readLine Context.lineKey
  rw [if_pos hin]

theorem State.readLine_of_out {s : State} {c : Context} {buf tile : Nat} (hout : winLimit (c.window buf) ≤ tile) (line : Nat) :
    s.readLine c buf tile line = { data := 0, poison := false } := by
  unfold State.readLine Context.lineKey
  rw [if_neg (Nat.not_lt.mpr hout)]

theorem bufKey_inj {buf t l t' l' : Nat} (hl : l < 256) (hl' : l' < 256) (h : bufKey buf t l = bufKey buf t' l') : t = t' ∧ l = l' := by
  unfold bufKey at h
  omega

/-- A write as any line of its buffer shows it. -/
theorem State.writeLine_readLine {s : State} {k : Nat} {c : Context} (h : Stands k c s) (idx buf : Nat) {tile line : Nat} (f : BufLine → BufLine)
    (hin : tile < winLimit (c.window buf)) (hl : line < 256) (t' : Nat) {l' : Nat} (hl' : l' < 256) :
    (s.writeLine k idx buf tile line f).readLine c buf t' l' =
      if t' = tile ∧ l' = line then f (s.readLine c buf tile line) else s.readLine c buf t' l' := by
  by_cases hin' : t' < winLimit (c.window buf)
  · rw [State.readLine_of_in hin', State.readLine_of_in hin', State.readLine_of_in hin, State.writeLine_line idx buf tile line f h hin]
    by_cases hsame : t' = tile ∧ l' = line
    · obtain ⟨rfl, rfl⟩ := hsame
      rw [if_pos rfl, if_pos ⟨rfl, rfl⟩]
    · rw [if_neg hsame, if_neg]
      intro he
      obtain ⟨ht, hl⟩ := bufKey_inj hl' hl he
      exact hsame ⟨Nat.add_left_cancel ht, hl⟩
  · rw [State.readLine_of_out (Nat.not_lt.mp hin'), State.readLine_of_out (Nat.not_lt.mp hin'), if_neg]
    rintro ⟨rfl, -⟩
    exact hin' hin

theorem Stands.updCtx {k : Nat} {c : Context} {s : State} (h : Stands k c s) (f : Context → Context)
    (hf : ∀ d, (f d).id = d.id ∧ (f d).coreKey = d.coreKey) : Stands k c (s.updCtx k f) := by
  obtain ⟨d, hd, hid, hcore⟩ := h
  rw [State.updCtx_of hd]
  exact ⟨f d, State.ctx_setCtx_self _ _ _, (hf d).1.trans hid, (hf d).2.trans hcore⟩

theorem State.readLine_updCtx (s : State) (k : Nat) (f : Context → Context) : (s.updCtx k f).readLine = s.readLine := by
  unfold State.updCtx
  split <;> rfl

theorem Stands.tileOor {k : Nat} {c : Context} {s : State} (h : Stands k c s) (idx buf tile row byte : Nat) :
    Stands k c (s.tileOor k idx buf tile row byte) :=
  h.updCtx _ fun d => by split <;> exact ⟨rfl, rfl⟩

theorem mergeLine_allOnes (old new : Line) : mergeLine old new (BitVec.allOnes 64) = new := by
  have hmask : expandMask (BitVec.allOnes 64) = BitVec.allOnes 512 := by
    refine BitVec.eq_of_getLsbD_eq fun j hj => ?_
    rw [expandMask_getLsbD _ _ hj, BitVec.getLsbD_allOnes, BitVec.getLsbD_allOnes, decide_eq_true hj, decide_eq_true (show j / 8 < 64 by omega)]
  unfold mergeLine
  rw [hmask, BitVec.not_allOnes, BitVec.and_zero, BitVec.zero_or, BitVec.and_allOnes]

/-- A write of a whole line replaces it. -/
theorem BufLine.merge_allOnes (old : BufLine) (data : Line) (p : Bool) : old.merge (BitVec.allOnes 64) data p = { data := data, poison := p } := by
  unfold BufLine.merge
  rw [mergeLine_allOnes, if_pos rfl]
  cases p <;> rfl

/-! ### What an element's read brings (R40) -/

theorem translateElement_inLine {s : State} {c : Context} {va : Word} {n : Nat} {l : Loc} (acc : Access) (h : translate s c va acc = .ok l)
    (hn : va.toNat % 64 + n ≤ 64) : translateElement s c va n acc = { va := va, fault := none, parts := [(va, n, some l)] } := by
  have hmin : min n (bytesInLine va) = n := by
    unfold bytesInLine
    omega
  unfold translateElement
  simp only [hmin, if_true, List.map_cons, List.map_nil, h, List.findSome?_cons, List.findSome?_nil]

theorem State.readHome_of_fresh (s : State) (me : Option Nat) (pkg line : Nat) (h : s.ownPast = []) :
    s.readHome me pkg line = (s.homeLine pkg line, s.linePoisoned pkg line) := by
  unfold State.readHome
  rw [h]
  rfl

theorem leBytes_leNat (l : List Byte) : leBytes l.length (leNat l) = l := by
  induction l with
  | nil => rfl
  | cons b l ih =>
    have hb := b.isLt
    have hdiv : (b.toNat + 256 * leNat l) / 256 = leNat l := by omega
    have hmod : BitVec.ofNat 8 (b.toNat + 256 * leNat l) = b := by
      apply BitVec.eq_of_toNat_eq
      rw [BitVec.toNat_ofNat]
      omega
    rw [List.length_cons, leNat, leBytes, hdiv, hmod, ih]

/-- A line written as bytes, and read as them. -/
theorem bytesOfLine_lineOfBytes (l : List Byte) (h : l.length = 64) : bytesOfLine (lineOfBytes l) = l := by
  have hlt : leNat l < 2 ^ 512 := by
    have := leNat_lt l
    rwa [h, show (256 : Nat) = 2 ^ 8 from rfl, ← pow_mul] at this
  unfold bytesOfLine lineOfBytes
  rw [List.take_of_length_le h.le, BitVec.toNat_ofNat, Nat.mod_eq_of_lt hlt, ← h, leBytes_leNat]

theorem Memory.readBytes_length (m : List Host.Cell) (a n : Nat) : (Memory.readBytes m a n).length = n := by
  induction n generalizing a with
  | zero => rfl
  | succ n ih => simp [Memory.readBytes, ih]

theorem fillRead_inLine {s : State} {c : Context} {va : Word} {n : Nat} {l : Loc} (h : translate s c va .load = .ok l)
    (hva : va.toNat % 64 + n ≤ 64) (hpa : l.pa % 64 + n ≤ 64) (hpast : s.ownPast = []) :
    (fillRead s c va n).fault = none ∧ (fillRead s c va n).remote = decide (l.pkg ≠ c.pkg) ∧
    (fillRead s c va n).bytes = (s.homeBytes l.pkg l.pa n).map (fun b => (b, s.linePoisoned l.pkg (l.pa / 64))) := by
  have hread : ((bytesOfLine (s.homeLine l.pkg (l.pa / 64))).drop (l.pa % 64)).take n = s.homeBytes l.pkg l.pa n := by
    have hbase : memKey l.pkg (l.pa / 64 * 64) + l.pa % 64 = memKey l.pkg l.pa := by
      unfold memKey
      omega
    unfold State.homeLine
    rw [bytesOfLine_lineOfBytes _ (Memory.readBytes_length ..), Memory.readBytes_part _ _ _ _ _ hpa, hbase]
    rfl
  unfold fillRead
  rw [translateElement_inLine .load h hva]
  refine ⟨rfl, ?_, ?_⟩
  · simp
  · simp only [List.flatMap_cons, List.flatMap_nil, List.append_nil, s.readHome_of_fresh _ _ _ hpast, hread]

/-! ### The lanes of an ADDW (R154) -/

theorem clampTo_32 (x : Int) : (clampTo true 32 x).1 = max (-2 ^ 31) (min (2 ^ 31 - 1) x) := by
  unfold clampTo
  simp only [show intMin true 32 = -2 ^ 31 from rfl, show intMax true 32 = 2 ^ 31 - 1 from rfl]
  split
  · dsimp only; omega
  · split <;> dsimp only <;> omega

theorem wrapTo_lt (w : Nat) (x : Int) : wrapTo w x < 2 ^ w := by
  have hpos : (0 : Int) < 2 ^ w := by positivity
  have h0 := Int.emod_nonneg x hpos.ne'
  have h1 := Int.emod_lt_of_pos x hpos
  have hcast : ((2 ^ w : Nat) : Int) = 2 ^ w := by push_cast; rfl
  unfold wrapTo
  omega

theorem addwLine_lane (o : CopyOp) (row part : Nat) (old : BufLine) (d : List (Byte × Bool)) (j : Nat) (hj : j < 16) :
    let src := leNat (((d.drop (64 * part + 4 * j)).take 4).map (·.1))
    lane (addwLine o row part old d).1.data 32 j =
      if nestClipped o.nest (nestIdx o.nest (64 * row + 16 * part + j)) then lane old.data 32 j
      else if o.w.fmt = 5 then wrapTo 32 (max (-2 ^ 31) (min (2 ^ 31 - 1) (intOf true 32 (lane old.data 32 j) + intOf true 32 src)))
      else (fmtF32.finish (fadd 0 (fmtF32.decode (lane old.data 32 j)) (fmtF32.decode src)) 0 false).1 % 2 ^ 32 := by
  intro src
  unfold addwLine
  dsimp only
  rw [lane_ofLanes _ _ _ (by simp)]
  simp only [List.map_map, List.getD, List.getElem?_map, List.getElem?_range hj, Option.map_some, Option.getD_some, Function.comp_apply]
  split
  · exact Nat.mod_eq_of_lt (lane_lt _ _ _)
  · unfold addwSum
    by_cases hf : o.w.fmt = 5
    · rw [if_pos hf, if_pos (by simpa using hf)]
      dsimp only
      rw [clampTo_32, Nat.mod_eq_of_lt (wrapTo_lt 32 _)]
    · rw [if_neg hf, if_neg (by simpa using hf)]

/-! ### Writes into a tile one after another -/

section foldl
variable {k : Nat} {c : Context} (idx buf : Nat) (T L : Nat → Nat) (F : Nat → BufLine → BufLine) (g : Nat → State → State)

/-- One line written, then a step that leaves the lines. -/
def lineThen (k : Nat) (s : State) (i : Nat) : State := g i (s.writeLine k idx buf (T i) (L i) (F i))

variable {idx buf T L F g}
variable (hg : ∀ i s, Stands k c s → Stands k c (g i s) ∧ (g i s).readLine c = s.readLine c)

include hg in
/-- Every line is written once; the others stay. -/
theorem foldl_lineThen (n : Nat) (hL : ∀ i, i < n → L i < 256) (hinj : ∀ i j, i < n → j < n → T i = T j → L i = L j → i = j) (s : State)
    (h : Stands k c s) :
    Stands k c ((List.range n).foldl (lineThen idx buf T L F g k) s) ∧
    (∀ i, i < n → T i < winLimit (c.window buf) →
      ((List.range n).foldl (lineThen idx buf T L F g k) s).readLine c buf (T i) (L i) = F i (s.readLine c buf (T i) (L i))) ∧
    ∀ tile line, line < 256 → (∀ i, i < n → ¬ (T i = tile ∧ L i = line)) →
      ((List.range n).foldl (lineThen idx buf T L F g k) s).readLine c buf tile line = s.readLine c buf tile line := by
  induction n with
  | zero => exact ⟨h, fun i hi => absurd hi (Nat.not_lt_zero i), fun _ _ _ _ => rfl⟩
  | succ n ih =>
    obtain ⟨hst, hwr, hkeep⟩ := ih (fun i hi => hL i (hi.trans n.lt_succ_self))
      (fun i j hi hj => hinj i j (hi.trans n.lt_succ_self) (hj.trans n.lt_succ_self))
    rw [List.range_succ, List.foldl_append]
    generalize (List.range n).foldl (lineThen idx buf T L F g k) s = u at hst hwr hkeep
    obtain ⟨hst', hread⟩ := hg n _ (Stands.writeLine idx buf (T n) (L n) (F n) hst)
    have hstep (tile line : Nat) (hl : line < 256) : (lineThen idx buf T L F g k u n).readLine c buf tile line =
        if T n < winLimit (c.window buf) ∧ tile = T n ∧ line = L n then F n (u.readLine c buf (T n) (L n)) else u.readLine c buf tile line := by
      show (g n _).readLine c buf tile line = _
      rw [hread]
      by_cases hin : T n < winLimit (c.window buf)
      · rw [State.writeLine_readLine hst idx buf (F n) hin (hL n n.lt_succ_self) tile hl]
        simp only [hin, true_and]
      · rw [State.writeLine_out idx buf (T n) (L n) (F n) hst (Nat.not_lt.mp hin), if_neg fun hc => hin hc.1]
    refine ⟨hst', fun i hi hin => ?_, fun tile line hl hne => ?_⟩
    · rw [List.foldl_cons, List.foldl_nil, hstep _ _ (hL i hi)]
      by_cases hin' : i = n
      · subst hin'
        rw [if_pos ⟨hin, rfl, rfl⟩, hkeep _ _ (hL i hi) fun j hj hc => absurd (hinj j i (hj.trans i.lt_succ_self) hi hc.1 hc.2) hj.ne]
      · rw [if_neg fun hc => hin' (hinj i n hi n.lt_succ_self hc.2.1 hc.2.2), hwr i (by omega) hin]
    · rw [List.foldl_cons, List.foldl_nil, hstep tile line hl, if_neg fun hc => hne n n.lt_succ_self ⟨hc.2.1.symm, hc.2.2.symm⟩,
        hkeep tile line hl fun i hi => hne i (hi.trans n.lt_succ_self)]

end foldl

/-! ### A fragment's bytes in the F window (R158) -/

section writeWindow
variable (off : Nat) (b : List Byte) (bits : Nat)

def windowTile (i : Nat) : Nat := (off + 64 * i) / 16384
def windowRow (i : Nat) : Nat := (off + 64 * i) % 16384 / 64
/-- The bytes of the fragment's line number `i`. -/
def windowBytes (i : Nat) : List Byte := (b.drop (64 * i)).take 64
def windowMerge (i : Nat) (old : BufLine) : BufLine :=
  old.merge (byteMask 0 (windowBytes b i).length) (lineOfBytes (windowBytes b i)) (bits.testBit i)
def windowOor (k : Nat) (i : Nat) (s : State) : State :=
  s.tileOor k 0 0 (windowTile off i) ((off + 64 * i) % 16384 / 256) ((off + 64 * i) % 256)

theorem State.writeWindow_eq (s : State) (k : Nat) : s.writeWindow k off b bits =
    (List.range ((b.length + 63) / 64)).foldl (lineThen 0 0 (windowTile off) (windowRow off) (windowMerge b bits) (windowOor off k) k) s := rfl

variable {off b bits}

theorem lineByte_windowMerge (i : Nat) (old : BufLine) (j : Nat) (hj : j < 64) :
    lineByte (windowMerge b bits i old).data j = if 64 * i + j < b.length then b.getD (64 * i + j) 0 else lineByte old.data j := by
  have hlen : (windowBytes b i).length ≤ 64 := by simp [windowBytes]
  show lineByte (mergeLine _ _ _) j = _
  rw [lineByte_mergeLine _ _ _ _ hj, byteMask_getLsbD _ _ _ hj, lineByte_lineOfBytes _ _ hj hlen]
  have hget : (windowBytes b i).getD j 0 = b.getD (64 * i + j) 0 := by
    simp [windowBytes, List.getD, hj]
  have hiff : (0 ≤ j ∧ j < 0 + (windowBytes b i).length) ↔ 64 * i + j < b.length := by
    simp only [windowBytes, List.length_take, List.length_drop]
    omega
  simp only [hiff, hget, decide_eq_true_eq]

theorem writeWindow_lines {s : State} {k : Nat} {c : Context} (h : s.ctx k = some c) (hoff : off % 64 = 0) :
    (∀ i, i < (b.length + 63) / 64 → windowTile off i < winLimit c.id.winF →
      (s.writeWindow k off b bits).readLine c 0 (windowTile off i) (windowRow off i) =
        windowMerge b bits i (s.readLine c 0 (windowTile off i) (windowRow off i))) ∧
    ∀ tile line, line < 256 → (∀ i, i < (b.length + 63) / 64 → ¬ (windowTile off i = tile ∧ windowRow off i = line)) →
      (s.writeWindow k off b bits).readLine c 0 tile line = s.readLine c 0 tile line := by
  rw [State.writeWindow_eq]
  obtain ⟨-, hwr, hkeep⟩ := foldl_lineThen (k := k) (c := c) (idx := 0) (buf := 0) (T := windowTile off) (L := windowRow off) (F := windowMerge b bits)
    (g := windowOor off k) (fun i s hs => ⟨hs.tileOor .., by rw [windowOor, State.tileOor, State.readLine_updCtx]⟩) ((b.length + 63) / 64)
    (fun i _ => by unfold windowRow; omega) (fun i j _ _ ht hl => by unfold windowTile at ht; unfold windowRow at hl; omega) s (.of_ctx h)
  exact ⟨hwr, hkeep⟩

theorem writeWindow_spec {s : State} {k : Nat} {c : Context} (h : s.ctx k = some c) (hoff : off % 64 = 0) :
    let t := s.writeWindow k off b bits
    t.mem = s.mem ∧
    (∀ i, i < b.length → (off + i) / 16384 < winLimit c.id.winF →
      lineByte (t.readLine c 0 ((off + i) / 16384) ((off + i) % 16384 / 64)).data ((off + i) % 64) = b.getD i 0) ∧
    (∀ tile line j, line < 256 → j < 64 → tile * 16384 + line * 64 + j < off ∨ off + b.length ≤ tile * 16384 + line * 64 + j →
      lineByte (t.readLine c 0 tile line).data j = lineByte (s.readLine c 0 tile line).data j) ∧
    (∀ i, 64 * i + 64 ≤ b.length → (off + 64 * i) / 16384 < winLimit c.id.winF →
      (t.readLine c 0 ((off + 64 * i) / 16384) ((off + 64 * i) % 16384 / 64)).poison = bits.testBit i) := by
  intro t
  obtain ⟨hwr, hkeep⟩ := writeWindow_lines (b := b) (bits := bits) h hoff
  refine ⟨(State.writeWindow_frame h off b bits).2.2, fun i hi hin => ?_, fun tile line j hl hj hout => ?_, fun i hi hin => ?_⟩
  · have htile : (off + i) / 16384 = windowTile off (i / 64) := by unfold windowTile; omega
    have hrow : (off + i) % 16384 / 64 = windowRow off (i / 64) := by unfold windowRow; omega
    have hbyte : 64 * (i / 64) + (off + i) % 64 = i := by omega
    rw [htile, hrow, hwr (i / 64) (by omega) (htile ▸ hin), lineByte_windowMerge _ _ _ (by omega), hbyte, if_pos hi]
  · by_cases hsome : ∃ i, i < (b.length + 63) / 64 ∧ windowTile off i = tile ∧ windowRow off i = line
    · obtain ⟨i, hi, rfl, rfl⟩ := hsome
      by_cases hin : windowTile off i < winLimit c.id.winF
      · rw [hwr i hi hin, lineByte_windowMerge _ _ _ hj, if_neg]
        have hbase : windowTile off i * 16384 + windowRow off i * 64 = off + 64 * i := by unfold windowTile windowRow; omega
        omega
      · have hwin : winLimit (c.window 0) ≤ windowTile off i := Nat.not_lt.mp hin
        rw [State.readLine_of_out hwin, State.readLine_of_out hwin]
    · rw [hkeep tile line hl fun i hi hc => hsome ⟨i, hi, hc⟩]
  · have hfull : (windowBytes b i).length = 64 := by
      simp only [windowBytes, List.length_take, List.length_drop]
      omega
    have hmask : byteMask 0 64 = BitVec.allOnes 64 := by decide
    show (t.readLine c 0 (windowTile off i) (windowRow off i)).poison = _
    rw [hwr i (by omega) hin, windowMerge, hfull, hmask, BufLine.merge_allOnes]

end writeWindow

/-! ### A chunk delivered, the operation complete (R42, R143, R146) -/

/-- An operation of a bundle leaves its list and gives its token back. -/
theorem Context.endCopy_of (d : Context) (o : CopyOp) (h : o.idx ≠ 0) : ∃ sch chk, d.endCopy o = { d with
    fl := { d.fl with copyOps := d.fl.copyOps.filter (fun x => x.id ≠ o.id) }, be := d.be.freeToken o.w.tok.toNat, sch := sch, chk := chk } := by
  unfold Context.endCopy
  rw [if_neg h]
  dsimp only
  split
  · exact ⟨_, _, rfl⟩
  · exact ⟨_, _, rfl⟩

/-- The context of a completed operation. -/
structure CopyEnded (d : Context) (o : CopyOp) (e : Context) : Prop where
  thread : e.thread = d.thread
  fl : e.fl = { d.fl with copyOps := d.fl.copyOps.filter (fun x => x.id ≠ o.id) }
  be : e.be = { d.be.freeToken o.w.tok.toNat with
    cstat := SMap.put d.be.cstat o.w.ch.toNat { d.stat o.w.ch.toNat with state := 0, wp := BitVec.ofNat 32 o.total } }

theorem State.completeCopy_of {s : State} {k : Nat} {d : Context} (hd : s.ctx k = some d) (o : CopyOp) (h : o.idx ≠ 0) :
    ∃ e, s.completeCopy k o = s.setCtx k e ∧ CopyEnded d o e := by
  obtain ⟨sch, chk, he⟩ := d.endCopy_of o h
  unfold State.completeCopy
  rw [hd]
  dsimp only
  rw [he]
  split
  · exact ⟨_, rfl, rfl, rfl, rfl⟩
  · exact ⟨_, rfl, rfl, rfl, rfl⟩

theorem filter_setOp (l : List CopyOp) (o : CopyOp) :
    (l.map (fun x => if x.id = o.id then o else x)).filter (fun x => decide (x.id ≠ o.id)) = l.filter (fun x => decide (x.id ≠ o.id)) := by
  induction l with
  | nil => rfl
  | cons x l ih =>
    rw [List.map_cons]
    by_cases hx : x.id = o.id
    · rw [if_pos hx, List.filter_cons_of_neg (by simp), List.filter_cons_of_neg (by simp [hx]), ih]
    · rw [if_neg hx, List.filter_cons_of_pos (by simp [hx]), List.filter_cons_of_pos (by simp [hx]), ih]

/-- The state after a chunk: the write pointer moves, or the operation is complete. -/
structure ChunkEnd (ch : Nat) (d : Context) (o : CopyOp) (e : Context) : Prop where
  thread : e.thread = d.thread
  vec : e.be.vec = d.be.vec
  vflags : e.be.vflags = d.be.vflags
  oorflag : e.be.oorflag = d.be.oorflag
  clipped : (e.stat ch).clipped = (d.stat ch).clipped
  poisonLines : (e.stat ch).poisonLines = (d.stat ch).poisonLines
  goes : o.done + 1 < o.chunks → (e.stat ch).state = 1 ∧ e.copyHead ch = some o.nextChunk
  ends : o.chunks ≤ o.done + 1 → (e.stat ch).state = 0 ∧ e.fl.copyOps = d.fl.copyOps.filter (fun y => y.id ≠ o.id) ∧
    SMap.getD e.be.tokens o.w.tok.toNat 0 = SMap.getD d.be.tokens o.w.tok.toNat 0 - 1

theorem State.chunkDone_spec {s : State} {k ch : Nat} {d : Context} {y o : CopyOp} (hd : s.ctx k = some d) (hhead : d.copyHead ch = some y)
    (hid : o.id = y.id) (hw : o.w = y.w) (hidx : o.idx ≠ 0) :
    ∃ e x, (s.chunkDone k o).ctx k = some e ∧ s.chunkDone k o = { s with contexts := x } ∧ ChunkEnd ch d o e := by
  have hch : o.w.ch.toNat = ch := by
    rw [hw]
    simpa using List.find?_some hhead
  have hset : (d.setOp o.nextChunk).copyHead ch = some o.nextChunk := Context.copyHead_setOp hhead hid hw
  have hstat := (d.setOp o.nextChunk).stat_updStat ch (fun r => { r with state := 1, retries := 0, wp := BitVec.ofNat 32 o.nextChunk.wp })
  unfold State.chunkDone
  rw [hd]
  dsimp only
  rw [hch]
  by_cases hlast : o.chunks ≤ o.done + 1
  · rw [if_pos (show o.nextChunk.chunks ≤ o.nextChunk.done from hlast)]
    obtain ⟨e, hend, hthread, hfl, hbe⟩ := State.completeCopy_of (State.ctx_setCtx_self s k ((d.setOp o.nextChunk).updStat ch
      fun r => { r with state := 1, retries := 0, wp := BitVec.ofNat 32 o.nextChunk.wp })) o.nextChunk hidx
    have hlaststat : e.stat ch = { ((d.setOp o.nextChunk).updStat ch fun r => { r with
        state := 1, retries := 0, wp := BitVec.ofNat 32 o.nextChunk.wp }).stat ch with state := 0, wp := BitVec.ofNat 32 o.nextChunk.total } := by
      rw [Context.stat, hbe, show o.nextChunk.w.ch.toNat = ch from hch]
      exact SMap.getD_put_self ..
    rw [hstat] at hlaststat
    refine ⟨e, _, by rw [hend]; exact State.ctx_setCtx_self _ _ _, hend.trans rfl, hthread, by rw [hbe]; rfl, by rw [hbe]; rfl, by rw [hbe]; rfl,
      by rw [hlaststat]; rfl, by rw [hlaststat]; rfl, fun hlt => absurd hlast (Nat.not_le.mpr hlt), fun _ => ⟨by rw [hlaststat], ?_, ?_⟩⟩
    · rw [hfl]
      exact filter_setOp ..
    · rw [hbe]
      exact SMap.getD_put_self ..
  · rw [if_neg (show ¬ o.nextChunk.chunks ≤ o.nextChunk.done from hlast)]
    exact ⟨_, _, State.ctx_setCtx_self _ _ _, rfl, rfl, rfl, rfl, rfl, by rw [hstat]; rfl, by rw [hstat]; rfl,
      fun _ => ⟨by rw [hstat], hset⟩, fun hle => absurd hle hlast⟩

/-! ### The steps of a channel (R27, R142, R278) -/

/-- The channel's step comes to the head of the list. -/
structure ChannelLive (s : State) (c : Context) (o : CopyOp) : Prop where
  frozen : (s.core c.coreKey).frozen = false
  retired : (s.core c.coreKey).retired = false
  preempt : c.sch.preempt ≠ some .rollback
  idx : o.idx ≠ 0

theorem atChannel_of {s : State} {k ch : Nat} {c : Context} {o : CopyOp} (h : s.ctx k = some c) (ho : c.copyHead ch = some o)
    (hl : ChannelLive s c o) (f : Context → CopyOp → State) : atChannel s k ch f = .next (f c o) := by
  have hgo : ((s.core c.coreKey).frozen || (s.core c.coreKey).retired || c.sch.preempt == some .rollback || decide (o.idx = 0)) = false := by
    simp [hl.frozen, hl.retired, hl.preempt, hl.idx]
  unfold atChannel
  rw [h]
  dsimp only
  rw [ho]
  dsimp only
  rw [hgo]
  rfl

/-- The channel in a list's turn: what it holds of its lines and of its turns is all that differs. -/
theorem State.serveList_readLine (s : State) (d : Context) (ch : Nat) : (s.serveList d ch).readLine = s.readLine := by
  funext c buf tile line
  unfold State.readLine
  cases c.lineKey buf tile line with
  | none => rfl
  | some key =>
    dsimp only
    by_cases hc : c.coreKey = d.coreKey
    · rw [hc]
      unfold State.serveList
      rw [State.core_updCore_self]
      rfl
    · unfold State.serveList
      rw [State.core_updCore_ne _ _ hc]

theorem State.serveList_lines (s : State) (c : Context) (ch : Nat) : ((s.serveList c ch).core c.coreKey).lines = (s.core c.coreKey).lines := by
  unfold State.serveList
  rw [State.core_updCore_self]

theorem chunkOf_serveList (s : State) (c d : Context) (ch : Nat) (o : CopyOp) (n : Nat) : chunkOf (s.serveList d ch) c o n = chunkOf s c o n := by
  unfold chunkOf rputChunk tileData State.readTile
  rw [State.serveList_readLine]

theorem drainWrites_serveList (s : State) (c d : Context) (ch : Nat) (o : CopyOp) (x : List (Byte × Bool)) (n : Nat) :
    drainWrites (s.serveList d ch) c o x n = drainWrites s c o x n := rfl

theorem State.frostIn_only (s : State) (k kind : Nat) (x : BitVec 96) (rank : Nat) : ∃ cores, s.frostIn k kind x rank = { s with cores := cores } := by
  unfold State.frostIn
  split
  · exact ⟨_, rfl⟩
  · split
    · exact ⟨_, rfl⟩
    · exact ⟨_, rfl⟩

section steps
variable {s : State} {k ch : Nat} {c : Context} {o : CopyOp} (h : s.ctx k = some c) (ho : c.copyHead ch = some o) (hl : ChannelLive s c o)
include h ho hl

theorem copyOpBegin_begins (hcom : o.committed = true) (hq : o.state = .queued) (hph : c.phaseBefore o.idx = false) (hf : c.isFrozen = false) :
    ∃ t c', exec (.copyOpBegin k ch) s = .next t ∧ t.ctx k = some c' ∧ c'.copyHead ch = some { o with state := .running } ∧
      c'.stat ch = { c.stat ch with state := 1, retries := 0, pc := o.pc, seq := o.seq, wp := 0, token := o.w.tok, op := o.op } ∧
      c'.thread = c.thread ∧ ∀ a, t.memByte a = s.memByte a := by
  let c' := (c.setOp { o with state := .running }).updStat ch fun r => { r with
    state := 1, retries := 0, pc := o.pc, seq := o.seq, wp := 0, token := o.w.tok, op := o.op }
  obtain ⟨cores, hfrost⟩ := (s.setCtx k c').frostIn_only k 3 (frostMem o.op 0 3 o.frostVa) (3 + ch)
  refine ⟨{ s.setCtx k c' with cores := cores }, c', ?_, State.ctx_setCtx_self s k c', Context.copyHead_setOp ho rfl rfl,
    Context.stat_updStat _ _ _, rfl, fun a => rfl⟩
  show execCopyOpBegin k ch s = _
  have hgo : (o.committed && o.state == .queued && !c.phaseBefore o.idx && !c.isFrozen) = true := by rw [hcom, hq, hph, hf]; rfl
  rw [execCopyOpBegin, atChannel_of h ho hl, if_pos hgo, ← hfrost]

/-- A chunk's step with the list's turn or without. -/
theorem copyChunk_of (hrun : o.state = .running) (hloads : c.loadsBefore o.idx = false) (h3 : o.op ≠ 3) (h4 : o.op ≠ 4) :
    exec (.copyChunk k ch none) s = .next (if !s.chanTurn c ch || !(s.core c.coreKey).hasMoved ch o.chunkBytes then s
      else match (CopyOp.gather s c o o.done).2 with
        | some f => (s.serveList c ch).suspendCopy k (CopyOp.gather s c o o.done).1 suspXlate f
        | none =>
          if o.op = 1 ∨ o.op = 2 then (s.serveList c ch).deliverFill k c (CopyOp.gather s c o o.done).1
          else if o.op = 5 then (s.serveList c ch).deliverDrain k c (CopyOp.gather s c o o.done).1
          else if o.op = 6 then (s.serveList c ch).setCtx k (c.setOp { (CopyOp.gather s c o o.done).1 with put := [o.done] })
          else (s.serveList c ch).sendFragment k c (CopyOp.gather s c o o.done).1) := by
  have hgo : (o.state != .running || decide (o.op = 3 ∨ o.op = 4) || c.loadsBefore o.idx) = false := by
    rw [hrun, hloads, decide_eq_false (not_or.mpr ⟨h3, h4⟩)]
    rfl
  show execCopyChunk k ch none s = _
  rw [execCopyChunk, atChannel_of h ho hl]
  dsimp only
  rw [hgo]
  rfl

end steps

/-! ### A delivered chunk in the record and the list (R146, R160) -/

/-- What a delivered chunk leaves of the context: the record's counts, and the operation at its next chunk or complete. -/
def ChunkMoved (ch : Nat) (c : Context) (o : CopyOp) (clipped poisoned : Nat) (c' : Context) : Prop :=
  c'.thread = c.thread ∧ c'.be.vec = c.be.vec ∧
  (c'.stat ch).clipped = (c.stat ch).clipped + BitVec.ofNat 64 clipped ∧
  (c'.stat ch).poisonLines = (c.stat ch).poisonLines + BitVec.ofNat 64 poisoned ∧
  (o.done + 1 < o.chunks → (c'.stat ch).state = 1 ∧ ∃ o', c'.copyHead ch = some o' ∧ o'.id = o.id ∧ o'.done = o.done + 1 ∧
    o'.state = .running ∧ o'.retries = 0) ∧
  (o.chunks ≤ o.done + 1 → (c'.stat ch).state = 0 ∧ c'.fl.copyOps = c.fl.copyOps.filter (fun y => y.id ≠ o.id) ∧
    SMap.getD c'.be.tokens o.w.tok.toNat 0 = SMap.getD c.be.tokens o.w.tok.toNat 0 - 1)

/-- The context before its chunk is counted: the record, the tokens and the list are as they were, but for the operation itself. -/
structure ChunkReady (ch : Nat) (c : Context) (o : CopyOp) (d : Context) : Prop where
  thread : d.thread = c.thread
  vec : d.be.vec = c.be.vec
  cstat : d.be.cstat = c.be.cstat
  tokens : d.be.tokens = c.be.tokens
  head : ∃ y, d.copyHead ch = some y ∧ y.id = o.id ∧ y.w = o.w
  others : d.fl.copyOps.filter (fun y => decide (y.id ≠ o.id)) = c.fl.copyOps.filter (fun y => decide (y.id ≠ o.id))

/-- The operation with the same chunks to deliver. -/
structure SameChunks (o o1 : CopyOp) : Prop where
  id : o1.id = o.id
  idx : o1.idx = o.idx
  w : o1.w = o.w
  done : o1.done = o.done
  chunks : o1.chunks = o.chunks

theorem CopyOp.SameShape.chunks {o o1 : CopyOp} (h : o.SameShape o1) : SameChunks o o1 := by
  obtain ⟨_, _, rfl⟩ := h
  exact ⟨rfl, rfl, rfl, rfl, rfl⟩

theorem Context.copyHead_ch {c : Context} {ch : Nat} {o : CopyOp} (h : c.copyHead ch = some o) : o.w.ch.toNat = ch := by
  simpa using List.find?_some h

/-- Counted and delivered. -/
theorem chunkDone_moved (u : State) {k ch : Nat} {c d : Context} {o o1 : CopyOp} (hr : ChunkReady ch c o d)
    (ho : c.copyHead ch = some o) (hs : SameChunks o o1) (hidx : o.idx ≠ 0) (clipped poisoned : Nat) (bad : Bool) :
    ∃ e x, ((u.setCtx k (d.countChunk ch clipped poisoned bad)).chunkDone k o1).ctx k = some e ∧
      (u.setCtx k (d.countChunk ch clipped poisoned bad)).chunkDone k o1 = { u with contexts := x } ∧
      ChunkMoved ch c o clipped poisoned e ∧ e.be.vflags = d.be.vflags ∧ e.be.oorflag = d.be.oorflag := by
  obtain ⟨y, hy, hid, hw⟩ := hr.head
  have hstat : (d.countChunk ch clipped poisoned bad).stat ch = { c.stat ch with
      clipped := (c.stat ch).clipped + BitVec.ofNat 64 clipped, poisonLines := (c.stat ch).poisonLines + BitVec.ofNat 64 poisoned
      poisoned := (c.stat ch).poisoned || decide (0 < poisoned), badmeta := (c.stat ch).badmeta || bad } := by
    have hold : d.stat ch = c.stat ch := by rw [Context.stat, hr.cstat]; rfl
    rw [Context.countChunk, Context.stat_updStat, hold]
  obtain ⟨e, x, he, honly, hend⟩ := State.chunkDone_spec (s := u.setCtx k (d.countChunk ch clipped poisoned bad)) (State.ctx_setCtx_self _ _ _)
    (show (d.countChunk ch clipped poisoned bad).copyHead ch = some y from hy) (hs.id.trans hid.symm) (hs.w.trans hw.symm) (hs.idx ▸ hidx)
  refine ⟨e, x, he, honly.trans rfl, ⟨hend.thread.trans hr.thread, hend.vec.trans hr.vec, ?_, ?_, fun hlt => ?_, fun hle => ?_⟩,
    hend.vflags, hend.oorflag⟩
  · rw [hend.clipped, hstat]
  · rw [hend.poisonLines, hstat]
  · obtain ⟨hstate, hhead⟩ := hend.goes (by rw [hs.done, hs.chunks]; exact hlt)
    exact ⟨hstate, o1.nextChunk, hhead, hs.id, congrArg (· + 1) hs.done, rfl, rfl⟩
  · obtain ⟨hstate, hops, htok⟩ := hend.ends (by rw [hs.done, hs.chunks]; exact hle)
    refine ⟨hstate, ?_, ?_⟩
    · rw [hops, hs.id]
      exact hr.others
    · rw [← hs.w, htok]
      exact congrArg (fun m => SMap.getD m o1.w.tok.toNat 0 - 1) hr.tokens

/-- The context but for its logs, its refetch records, the flags of an access beyond the window and VFLAGS. -/
def Context.Touched (c d : Context) : Prop := ∃ chk refetch flag addr vflags, d = { c with
  chk := chk, sch := { c.sch with refetch := refetch }, be := { c.be with oorflag := flag, ooraddr := addr, vflags := vflags } }

theorem Context.Logged.touched {c d : Context} (h : c.Logged d) : c.Touched d := by
  obtain ⟨_, _, rfl⟩ := h
  exact ⟨_, _, _, _, _, rfl⟩

theorem Context.Touched.ready {ch : Nat} {c d : Context} {o : CopyOp} (h : c.Touched d) (ho : c.copyHead ch = some o) : ChunkReady ch c o d := by
  obtain ⟨_, _, _, _, _, rfl⟩ := h
  exact ⟨rfl, rfl, rfl, rfl, ⟨o, ho, rfl, rfl⟩, rfl⟩

theorem BackEnd.outOfRange_flags (b : BackEnd) (buf tile row byte : Nat) : ∃ flag addr,
    b.outOfRange buf tile row byte = { b with oorflag := flag, ooraddr := addr } ∧ flag.getLsbD 0 = true := by
  unfold BackEnd.outOfRange
  split
  · next h => exact ⟨_, _, rfl, h⟩
  · exact ⟨_, _, rfl, rfl⟩

theorem Context.applyBe_chk (c : Context) (idx : Nat) (f : BackEnd → BackEnd) : ∃ chk, c.applyBe idx f = { c with chk := chk, be := f c.be } :=
  ⟨_, rfl⟩

theorem Context.Touched.outOfRange {c d : Context} (h : c.Touched d) (idx buf tile row byte : Nat) :
    c.Touched (d.applyBe idx (fun b => b.outOfRange buf tile row byte)) := by
  obtain ⟨chk, refetch, flag, addr, vflags, rfl⟩ := h
  obtain ⟨flag', addr', hb, -⟩ := BackEnd.outOfRange_flags { c.be with oorflag := flag, ooraddr := addr, vflags := vflags } buf tile row byte
  obtain ⟨chk', happly⟩ := ({ c with
    chk := chk, sch := { c.sch with refetch := refetch }, be := { c.be with oorflag := flag, ooraddr := addr, vflags := vflags } } :
      Context).applyBe_chk idx (fun b => b.outOfRange buf tile row byte)
  refine ⟨chk', refetch, flag', addr', vflags, happly.trans ?_⟩
  dsimp only
  rw [hb]

/-- An access beyond the window is noted, one inside changes nothing (R148). -/
theorem State.tileOor_touched {s : State} {k : Nat} {c d : Context} (h : s.ctx k = some d) (hd : c.Touched d) (idx buf tile row byte : Nat) :
    ∃ e, (s.tileOor k idx buf tile row byte).ctx k = some e ∧ c.Touched e ∧ e.be.vflags = d.be.vflags ∧
      (winLimit (c.window buf) ≤ tile → e.be.oorflag.getLsbD 0 = true) := by
  have hwin : d.window buf = c.window buf := Context.window_of_id (by obtain ⟨_, _, _, _, _, rfl⟩ := hd; rfl) buf
  have hctx : (s.tileOor k idx buf tile row byte).ctx k =
      some (if tile < winLimit (c.window buf) then d else d.applyBe idx (fun b => b.outOfRange buf tile row byte)) := by
    unfold State.tileOor
    rw [State.updCtx_of h, State.ctx_setCtx_self, hwin]
  by_cases hin : tile < winLimit (c.window buf)
  · rw [if_pos hin] at hctx
    exact ⟨d, hctx, hd, rfl, fun hle => absurd hin (Nat.not_lt.mpr hle)⟩
  · rw [if_neg hin] at hctx
    obtain ⟨flag, addr, hb, hflag⟩ := d.be.outOfRange_flags buf tile row byte
    refine ⟨_, hctx, hd.outOfRange .., ?_, fun _ => ?_⟩
    · show (d.be.outOfRange buf tile row byte).vflags = _
      rw [hb]
    · show (d.be.outOfRange buf tile row byte).oorflag.getLsbD 0 = true
      rw [hb]
      exact hflag


/-! ### A chunk of a FILL or FILLS (R150) -/

/-- Contexts and cores are all that differs. -/
def OnlyTiles (s t : State) : Prop := ∃ x y, t = { s with contexts := x, cores := y }

theorem OnlyTiles.refl (s : State) : OnlyTiles s s := ⟨_, _, rfl⟩

theorem OnlyTiles.trans {s t u : State} (h : OnlyTiles s t) (h' : OnlyTiles t u) : OnlyTiles s u := by
  obtain ⟨_, _, rfl⟩ := h
  obtain ⟨x, y, rfl⟩ := h'
  exact ⟨x, y, rfl⟩

theorem OnlyTiles.keeps {s t : State} (h : OnlyTiles s t) (a : Nat) : t.memByte a = s.memByte a := by
  obtain ⟨_, _, rfl⟩ := h
  rfl

theorem OnlyTiles.setCtx (s : State) (k : Nat) (c : Context) : OnlyTiles s (s.setCtx k c) := ⟨_, _, rfl⟩

theorem OnlyTiles.updCtx (s : State) (k : Nat) (f : Context → Context) : OnlyTiles s (s.updCtx k f) := by
  unfold State.updCtx
  split
  · exact .setCtx ..
  · exact .refl s

theorem OnlyTiles.serveList (s : State) (c : Context) (ch : Nat) : OnlyTiles s (s.serveList c ch) := ⟨_, _, rfl⟩

theorem foldl_lineThen_logged {k : Nat} {c : Context} (idx buf : Nat) (T L : Nat → Nat) (F : Nat → BufLine → BufLine) (l : List Nat) :
    ∀ (s : State) (d : Context), s.ctx k = some d → c.Logged d →
    (∃ e, (l.foldl (lineThen idx buf T L F (fun _ u => u) k) s).ctx k = some e ∧ c.Logged e) ∧
      OnlyTiles s (l.foldl (lineThen idx buf T L F (fun _ u => u) k) s) := by
  induction l with
  | nil => exact fun s d hd hlog => ⟨⟨d, hd, hlog⟩, .refl s⟩
  | cons i l ih =>
    intro s d hd hlog
    obtain ⟨e, he, hlog'⟩ := State.writeLine_logged idx buf (T i) (L i) (F i) hd
    obtain ⟨hctx, honly⟩ := ih _ e he (hlog.trans hlog')
    exact ⟨hctx, .trans (State.writeLine_only idx buf (T i) (L i) (F i) s k) honly⟩

/-- A line of a chunk as a FILL writes it. -/
def fillLine (d : List (Byte × Bool)) (i : Nat) : BufLine :=
  { data := lineOfBytes (((d.drop (64 * i)).take 64).map (·.1)), poison := ((d.drop (64 * i)).take 64).any (·.2) }

theorem State.fillTile_all (s : State) (k : Nat) (o : CopyOp) (ch : Nat) (d : List (Byte × Bool)) :
    s.fillTile k o ch d (fun _ => true) =
      (List.range 4).foldl (lineThen o.idx o.buf (fun _ => o.w.tile.toNat) (fun i => 4 * ch + i) (fun i _ => fillLine d i) (fun _ u => u) k) s := by
  have hmask : maskOf 1 (fun _ => true) = BitVec.allOnes 64 := by decide
  have hne : ¬ (BitVec.allOnes 64 = 0) := by decide
  unfold State.fillTile
  dsimp only
  simp only [hmask, if_neg hne, BufLine.merge_allOnes]
  rfl

theorem copyChunk_fill {s : State} {k ch : Nat} {c : Context} {o : CopyOp} (h : s.ctx k = some c) (ho : c.copyHead ch = some o)
    (hl : ChannelLive s c o) (hrun : o.state = .running) (hloads : c.loadsBefore o.idx = false) (h3 : o.op ≠ 3) (h4 : o.op ≠ 4)
    (hserved : s.chanTurn c ch = true ∧ (s.core c.coreKey).hasMoved ch o.chunkBytes = true) (hop : o.op = 1 ∨ o.op = 2)
    (hg : (CopyOp.gather s c o o.done).2 = none) :
    let x := chunkOf s c (CopyOp.gather s c o o.done).1 o.done
    let tile := o.w.tile.toNat
    ∃ t c', exec (.copyChunk k ch none) s = .next t ∧ (∀ a, t.memByte a = s.memByte a) ∧ t.ctx k = some c' ∧
      ChunkMoved ch c o x.clipped (poisonedLines x.data) c' ∧
      (tile < winLimit (c.window o.buf) → o.done < 64 → ∀ i, i < 4 → t.readLine c o.buf tile (4 * o.done + i) = fillLine x.data i) ∧
      (winLimit (c.window o.buf) ≤ tile → (t.core c.coreKey).lines = (s.core c.coreKey).lines ∧ c'.be.oorflag.getLsbD 0 = true) := by
  have hexec := copyChunk_of h ho hl hrun hloads h3 h4
  rw [hserved.1, hserved.2, hg] at hexec
  simp only [Bool.not_true, Bool.or_self, Bool.false_eq_true, if_false, if_pos hop] at hexec
  have hshape := CopyOp.gather_sameShape s c o o.done
  generalize (CopyOp.gather s c o o.done).1 = o1 at hexec hshape
  have hchunks := hshape.chunks
  obtain ⟨got, remote, rfl⟩ := hshape
  intro x tile
  have hch := Context.copyHead_ch ho
  generalize ho1 : ({ o with got := got, remote := remote } : CopyOp) = o1 at hexec hchunks
  have hbuf : o1.buf = o.buf := by rw [← ho1]; rfl
  have hx : chunkOf (s.serveList c ch) c o1 o1.done = x := by rw [chunkOf_serveList, hchunks.done, ← ho1]
  obtain ⟨⟨d1, hd1, hlog⟩, honly1⟩ := foldl_lineThen_logged (k := k) (c := c) o.idx o.buf (fun _ => tile) (fun i => 4 * o.done + i)
    (fun i _ => fillLine x.data i) (List.range 4) (s.serveList c ch) c h (.refl c)
  generalize hu1 : (List.range 4).foldl (lineThen o.idx o.buf (fun _ => tile) (fun i => 4 * o.done + i) (fun i _ => fillLine x.data i) (fun _ u => u) k)
    (s.serveList c ch) = u1 at hd1 honly1
  obtain ⟨d2, hd2, htouched, -, hoor⟩ := State.tileOor_touched hd1 hlog.touched o.idx o.buf tile (256 * o.done / 256) (256 * o.done % 256)
  have hfill : (s.serveList c ch).fillTile k o1 o1.done x.data (fun _ => true) = u1 := by
    rw [State.fillTile_all, hbuf, hchunks.idx, hchunks.w, hchunks.done, ← hu1]
  have horr : u1.chunkOor k o1 (256 * o1.done) = u1.tileOor k o.idx o.buf tile (256 * o.done / 256) (256 * o.done % 256) := by
    rw [State.chunkOor, hbuf, hchunks.idx, hchunks.w, hchunks.done]
  generalize hu2 : u1.tileOor k o.idx o.buf tile (256 * o.done / 256) (256 * o.done % 256) = u2 at hd2 horr
  obtain ⟨e, y, he, hdone, hmoved, -, hflag⟩ := chunkDone_moved (k := k) u2 (htouched.ready ho) ho hchunks hl.idx x.clipped (poisonedLines x.data) x.bad
  have hdeliver : (s.serveList c ch).deliverFill k c o1 = { u2 with contexts := y } := by
    unfold State.deliverFill
    dsimp only
    rw [hx, hfill, horr, State.updCtx_of hd2, hchunks.w, hch, hdone]
  have honly2 : OnlyTiles u1 u2 := by rw [← hu2]; exact .updCtx ..
  have hread : u2.readLine = u1.readLine := by rw [← hu2, State.tileOor, State.readLine_updCtx]
  have hcore : u2.cores = u1.cores := by
    rw [← hu2, State.tileOor, State.updCtx_of hd1]
    rfl
  refine ⟨_, e, hexec.trans (congrArg _ hdeliver), fun a => ?_, by rw [hdone] at he; exact he, hmoved, fun hin hlt i hi => ?_, fun hout => ⟨?_, ?_⟩⟩
  · exact ((OnlyTiles.serveList s c ch).trans (honly1.trans honly2)).keeps a
  · show u2.readLine c o.buf tile (4 * o.done + i) = _
    rw [hread, ← hu1]
    exact (foldl_lineThen (k := k) (c := c) (T := fun _ => tile) (L := fun i => 4 * o.done + i) (fun i u hu => ⟨hu, rfl⟩) 4
      (fun i hi => by omega) (fun i j _ _ _ hij => by omega) (s.serveList c ch) (.of_ctx h)).2.1 i hi hin
  · show (SMap.getD u2.cores c.coreKey Core.reset).lines = _
    rw [hcore, ← hu1]
    have hsame : ∀ l : List Nat, l.foldl (lineThen o.idx o.buf (fun _ => tile) (fun i => 4 * o.done + i) (fun i _ => fillLine x.data i) (fun _ u => u) k)
        (s.serveList c ch) = s.serveList c ch := by
      intro l
      induction l with
      | nil => rfl
      | cons i l ih =>
        rw [List.foldl_cons, lineThen, State.writeLine_out _ _ _ _ _ (⟨c, h, rfl, rfl⟩ : Stands k c (s.serveList c ch)) hout]
        exact ih
    rw [hsame]
    exact s.serveList_lines c ch
  · rw [hflag]
    exact hoor hout


/-! ### Lines written at their homes (R153, R349) -/

/-- The line of memory that an entry writes. -/
def PbEntry.lineAt (e : PbEntry) : Nat × Nat := (e.loc.pkg, e.loc.pa / 64)
/-- The address of a byte of that line. -/
def PbEntry.base (e : PbEntry) : Nat := memKey e.loc.pkg (e.loc.pa / 64 * 64)
def PbEntry.byteAt (e : PbEntry) (j : Nat) : Nat := e.base + j

theorem PbEntry.byteAt_inj {e x : PbEntry} (he : e.loc.pa < 2 ^ 52) (hx : x.loc.pa < 2 ^ 52) {i j : Nat} (hi : i < 64) (hj : j < 64)
    (h : e.byteAt i = x.byteAt j) : e.lineAt = x.lineAt := by
  unfold byteAt base memKey at h
  unfold lineAt
  rw [Prod.mk.injEq]
  omega

theorem pbInsert_lineAt (l : List PbEntry) (st : LineStore) : (pbInsert l st).map PbEntry.lineAt = l.map PbEntry.lineAt ∨
    (st.loc.pkg, st.loc.pa / 64) ∉ l.map PbEntry.lineAt ∧ (pbInsert l st).map PbEntry.lineAt = l.map PbEntry.lineAt ++ [(st.loc.pkg, st.loc.pa / 64)] := by
  induction l with
  | nil => exact .inr ⟨List.not_mem_nil, rfl⟩
  | cons e l ih =>
    unfold pbInsert
    split
    · exact .inl rfl
    · next hne =>
      rcases ih with hsame | ⟨hnot, hnew⟩
      · exact .inl (congrArg (e.lineAt :: ·) hsame)
      · refine .inr ⟨?_, congrArg (e.lineAt :: ·) hnew⟩
        rw [List.map_cons, List.mem_cons, not_or]
        refine ⟨fun heq => hne ?_, hnot⟩
        obtain ⟨hpkg, hline⟩ := Prod.mk.inj heq
        exact ⟨hpkg.symm, hline.symm⟩

/-- Stores merged into a list of lines name each line once. -/
theorem pbInsert_nodup (l : List PbEntry) (st : LineStore) (h : (l.map PbEntry.lineAt).Nodup) : ((pbInsert l st).map PbEntry.lineAt).Nodup := by
  rcases pbInsert_lineAt l st with hsame | ⟨hnot, hnew⟩
  · rw [hsame]
    exact h
  · rw [hnew, List.nodup_append]
    exact ⟨h, List.nodup_singleton _, fun a ha b hb hab => hnot (by rw [← List.mem_singleton.mp hb, ← hab]; exact ha)⟩

theorem foldl_pbInsert_nodup (sts : List LineStore) (l : List PbEntry) (h : (l.map PbEntry.lineAt).Nodup) :
    ((sts.foldl pbInsert l).map PbEntry.lineAt).Nodup := by
  induction sts generalizing l with
  | nil => exact h
  | cons st sts ih => exact ih _ (pbInsert_nodup l st h)

theorem drainWrites_nodup (s : State) (c : Context) (o : CopyOp) (d : List (Byte × Bool)) (ch : Nat) :
    ((drainWrites s c o d ch).2.map PbEntry.lineAt).Nodup := by
  unfold drainWrites
  suffices hfold : ∀ (l : List Nat) (acc : Option XFault × List PbEntry), (acc.2.map PbEntry.lineAt).Nodup →
      ((l.foldl (fun acc i => match drainStores s c o d ch i with
        | .error f => (lowerFault acc.1 (some f), acc.2)
        | .ok sts => (acc.1, sts.foldl pbInsert acc.2)) acc).2.map PbEntry.lineAt).Nodup from hfold _ _ List.nodup_nil
  intro l
  induction l with
  | nil => exact fun acc h => h
  | cons i l ih =>
    intro acc h
    refine ih _ ?_
    dsimp only
    split
    · exact h
    · exact foldl_pbInsert_nodup _ _ h

/-- What comes before the write itself leaves memory. -/
theorem State.drainLine_of (s : State) (k idx : Nat) (e : PbEntry) : ∃ u : State, s.drainLine k idx e =
    u.homeWriteLine e.loc.pkg (e.loc.pa / 64) e.mask e.data e.poison false ∧ u.mem = s.mem := by
  unfold State.drainLine
  cases h : s.ctx k with
  | none => exact ⟨_, rfl, State.updCtx_mem ..⟩
  | some c =>
    obtain ⟨past, hp⟩ := State.ownWritten_kept (s.updCtx k fun c => if e.loc.own then c.ownLogged s idx e else c.spoil idx) c e.loc
    refine ⟨_, rfl, ?_⟩
    dsimp only
    rw [hp]
    exact State.updCtx_mem ..

section drainLine
variable {s : State} {k : Nat} {d : Context} (idx : Nat) (e : PbEntry)

theorem State.drainLine_memByte (hw : s.MemWf) (a : Nat) : (s.drainLine k idx e).memByte a =
    if e.base ≤ a ∧ a < e.base + 64 ∧ e.mask.getLsbD (a - e.base) = true then lineByte e.data (a - e.base) else s.memByte a := by
  obtain ⟨u, hu, hmem⟩ := State.drainLine_of s k idx e
  have hkeep : u.memByte a = s.memByte a := congrArg (fun m => Memory.read m a) hmem
  rw [hu, u.homeWriteLine_read _ _ _ _ _ _ _ (show Memory.wf u.mem = true by rw [hmem]; exact hw), hkeep]
  rfl

/-- A DRAIN's write notes what the undo log needs and changes nothing else of its context. -/
theorem State.drainLine_logged (h : s.ctx k = some d) : ∃ d', (s.drainLine k idx e).ctx k = some d' ∧ d.Logged d' := by
  have hlog : ∃ chk, (if e.loc.own then d.ownLogged s idx e else d.spoil idx) = { d with chk := chk } := by
    split
    · exact d.ownLogged_kept s idx e
    · exact ⟨_, rfl⟩
  obtain ⟨chk, hchk⟩ := hlog
  obtain ⟨past, hp⟩ := State.ownWritten_kept (s.setCtx k { d with chk := chk }) d e.loc
  refine ⟨{ d with chk := chk }, ?_, chk, _, rfl⟩
  unfold State.drainLine
  dsimp only
  rw [State.updCtx_of h, h]
  dsimp only
  rw [hchk, hp]
  unfold State.ctx
  rw [State.homeWriteLine_contexts]
  exact State.ctx_setCtx_self s k _

end drainLine

/-- Writes of lines that differ: each stands at its home, no other byte changes. -/
def LinesWritten (s t : State) (lines : List PbEntry) : Prop :=
  (∀ e ∈ lines, ∀ j, j < 64 → e.mask.getLsbD j = true → t.memByte (e.byteAt j) = lineByte e.data j) ∧
  ∀ a, (∀ e ∈ lines, ∀ j, j < 64 → e.mask.getLsbD j = true → a ≠ e.byteAt j) → t.memByte a = s.memByte a

theorem foldl_drainLine_written (k idx : Nat) (lines : List PbEntry) (hpa : ∀ e ∈ lines, e.loc.pa < 2 ^ 52) (hnd : (lines.map PbEntry.lineAt).Nodup) :
    ∀ s : State, s.MemWf → LinesWritten s (lines.foldl (fun s l => s.drainLine k idx l) s) lines := by
  induction lines with
  | nil => exact fun s hw => ⟨(fun e he => nomatch he), fun a _ => rfl⟩
  | cons e l ih =>
    intro s hw
    obtain ⟨hnot, hnd'⟩ := List.nodup_cons.mp (show (e.lineAt :: l.map PbEntry.lineAt).Nodup from hnd)
    obtain ⟨hwritten, hkeep⟩ := ih (fun x hx => hpa x (List.mem_cons_of_mem _ hx)) hnd' (s.drainLine k idx e) (State.drainLine_wf s k idx e hw)
    have hmine (j : Nat) (hj : j < 64) (hm : e.mask.getLsbD j = true) : (s.drainLine k idx e).memByte (e.byteAt j) = lineByte e.data j := by
      have hsub : e.byteAt j - e.base = j := by unfold PbEntry.byteAt; omega
      rw [State.drainLine_memByte idx e hw, hsub, if_pos ⟨by unfold PbEntry.byteAt; omega, by unfold PbEntry.byteAt; omega, hm⟩]
    refine ⟨fun x hx j hj hm => ?_, fun a ha => ?_⟩
    · rcases List.mem_cons.mp hx with rfl | hx
      · rw [List.foldl_cons, hkeep _ fun y hy i hi _ heq => hnot ?_]
        · exact hmine j hj hm
        · rw [PbEntry.byteAt_inj (hpa x List.mem_cons_self) (hpa y (List.mem_cons_of_mem _ hy)) hj hi heq]
          exact List.mem_map_of_mem hy
      · exact hwritten x hx j hj hm
    · rw [List.foldl_cons, hkeep a fun y hy => ha y (List.mem_cons_of_mem _ hy), State.drainLine_memByte idx e hw, if_neg]
      rintro ⟨hlo, hhi, hm⟩
      refine ha e List.mem_cons_self (a - e.base) (by omega) hm ?_
      unfold PbEntry.byteAt
      omega

theorem foldl_drainLine_logged {k : Nat} {c : Context} (idx : Nat) (l : List PbEntry) : ∀ (s : State) (d : Context), s.ctx k = some d → c.Logged d →
    ∃ e, (l.foldl (fun s l => s.drainLine k idx l) s).ctx k = some e ∧ c.Logged e := by
  induction l with
  | nil => exact fun s d hd hlog => ⟨d, hd, hlog⟩
  | cons x l ih =>
    intro s d hd hlog
    obtain ⟨e, he, hlog'⟩ := State.drainLine_logged idx x hd
    exact ih _ e he (hlog.trans hlog')

/-! ### A chunk of a DRAIN (R153) -/

/-- A DRAIN, an RPUT and a FEED read nothing of memory. -/
theorem CopyOp.gather_of_noReads (s : State) (c : Context) (o : CopyOp) (ch : Nat) (h : o.op = 5 ∨ o.op = 7) : CopyOp.gather s c o ch = (o, none) := by
  have hnone : o.chunkReads ch = [] := by
    unfold CopyOp.chunkReads
    rcases h with h | h <;> simp [h]
  unfold CopyOp.gather
  rw [hnone]
  rfl

theorem copyChunk_drain {s : State} {k ch : Nat} {c : Context} {o : CopyOp} (h : s.ctx k = some c) (ho : c.copyHead ch = some o)
    (hl : ChannelLive s c o) (hrun : o.state = .running) (hloads : c.loadsBefore o.idx = false) (hop : o.op = 5)
    (hserved : s.chanTurn c ch = true ∧ (s.core c.coreKey).hasMoved ch o.chunkBytes = true) (hw : s.MemWf) {lines : List PbEntry}
    (hlines : drainWrites s c o (chunkOf s c o o.done).data o.done = (none, lines)) (hpa : ∀ e ∈ lines, e.loc.pa < 2 ^ 52) :
    ∃ t c', exec (.copyChunk k ch none) s = .next t ∧ t.ctx k = some c' ∧
      ChunkMoved ch c o (chunkOf s c o o.done).clipped (poisonedLines (chunkOf s c o o.done).data) c' ∧
      LinesWritten s t (lines.filter (fun e => !o.put.contains (drainNo o.done e))) := by
  have hexec := copyChunk_of h ho hl hrun hloads (by rw [hop]; decide) (by rw [hop]; decide)
  rw [hserved.1, hserved.2, CopyOp.gather_of_noReads s c o o.done (.inl hop)] at hexec
  simp only [Bool.not_true, Bool.or_self, Bool.false_eq_true, if_false] at hexec
  rw [if_neg (by rw [hop]; decide), if_pos hop] at hexec
  have hch := Context.copyHead_ch ho
  have hnd : (lines.map PbEntry.lineAt).Nodup := by
    have := drainWrites_nodup s c o (chunkOf s c o o.done).data o.done
    rwa [hlines] at this
  let todo := lines.filter (fun e => !o.put.contains (drainNo o.done e))
  obtain ⟨d1, hd1, hlog⟩ := foldl_drainLine_logged (k := k) (c := c) o.idx todo (s.serveList c ch) c h (.refl c)
  have hwritten := foldl_drainLine_written k o.idx todo (fun e he => hpa e (List.mem_filter.mp he).1)
    ((List.Sublist.map _ List.filter_sublist).nodup hnd) (s.serveList c ch) hw
  obtain ⟨d2, hd2, htouched, -, -⟩ := State.tileOor_touched hd1 hlog.touched o.idx o.buf o.w.tile.toNat (256 * o.done / 256) (256 * o.done % 256)
  let o1 := o.meet (lines.any (fun l => decide (l.loc.pkg ≠ c.pkg)))
  obtain ⟨e, y, he, hdone, hmoved, -, -⟩ := chunkDone_moved (k := k) (o1 := o1) (State.tileOor _ k o.idx o.buf o.w.tile.toNat (256 * o.done / 256) (256 * o.done % 256)) (htouched.ready ho) ho ⟨rfl, rfl, rfl, rfl, rfl⟩ hl.idx
    (chunkOf s c o o.done).clipped (poisonedLines (chunkOf s c o o.done).data) false
  refine ⟨_, e, hexec.trans (congrArg Host.Outcome.next ?_), he, hmoved, ?_⟩
  · unfold State.deliverDrain
    dsimp only
    rw [chunkOf_serveList, drainWrites_serveList, hlines]
    dsimp only
    rw [show State.chunkOor _ k o (256 * o.done) = State.tileOor _ k o.idx o.buf o.w.tile.toNat (256 * o.done / 256) (256 * o.done % 256) from rfl,
      State.updCtx_of hd2, hch]
  · rw [hdone]
    have hsame (a : Nat) : State.memByte { (List.foldl (fun s l => s.drainLine k o.idx l) (s.serveList c ch) todo).tileOor k o.idx o.buf o.w.tile.toNat
        (256 * o.done / 256) (256 * o.done % 256) with contexts := y } a =
        (List.foldl (fun s l => s.drainLine k o.idx l) (s.serveList c ch) todo).memByte a :=
      congrArg (fun m => Memory.read m a) (State.tileOor_mem ..)
    exact ⟨fun x hx j hj hm => (hsame _).trans (hwritten.1 x hx j hj hm), fun a ha => (hsame a).trans (hwritten.2 a ha)⟩

/-! ### Accesses before their chunk is delivered (R40, R142, R349) -/

/-- The channel has one line fewer to move, or moves the line that it moved last again. -/
def LineSpent (s : State) (c : Context) (ch : Nat) (t : State) (key : Nat) : Prop :=
  if SMap.find (s.core c.coreKey).chanAt ch = some key then t.cores = s.cores
  else t.cores = (s.updCore c.coreKey (fun r => { r with
    chanLines := SMap.put r.chanLines ch (SMap.getD (s.core c.coreKey).chanLines ch 0 - 1), chanAt := SMap.put r.chanAt ch key })).cores

theorem State.moveLine_none {s : State} {core ch key : Nat} (hleft : SMap.getD (s.core core).chanLines ch 0 = 0)
    (hkey : SMap.find (s.core core).chanAt ch ≠ some key) : s.moveLine core ch key = none := by
  unfold State.moveLine
  dsimp only
  rw [if_neg hkey, if_pos hleft]

theorem State.moveLine_some {s : State} {c : Context} {ch key : Nat}
    (h : 0 < SMap.getD (s.core c.coreKey).chanLines ch 0 ∨ SMap.find (s.core c.coreKey).chanAt ch = some key) :
    ∃ y, s.moveLine c.coreKey ch key = some { s with cores := y } ∧ LineSpent s c ch { s with cores := y } key := by
  unfold State.moveLine LineSpent
  dsimp only
  by_cases hkey : SMap.find (s.core c.coreKey).chanAt ch = some key
  · rw [if_pos hkey]
    exact ⟨s.cores, rfl, by rw [if_pos hkey]⟩
  · have hleft : SMap.getD (s.core c.coreKey).chanLines ch 0 ≠ 0 := by
      rcases h with h | h
      · exact Nat.pos_iff_ne_zero.mp h
      · exact absurd h hkey
    rw [if_neg hkey, if_neg hleft]
    exact ⟨_, rfl, by rw [if_neg hkey]; rfl⟩

theorem State.drainLine_cores (s : State) (k idx : Nat) (e : PbEntry) : (s.drainLine k idx e).cores = s.cores := by
  have hcores (c : Context) : ((s.updCtx k fun c => if e.loc.own then c.ownLogged s idx e else c.spoil idx).ownWritten c e.loc).cores = s.cores := by
    obtain ⟨past, hp⟩ := State.ownWritten_kept (s.updCtx k fun c => if e.loc.own then c.ownLogged s idx e else c.spoil idx) c e.loc
    rw [hp]
    unfold State.updCtx
    split <;> rfl
  unfold State.drainLine
  dsimp only
  obtain ⟨x, y, z, hw⟩ := State.homeWriteLine_only (match s.ctx k with
    | some c => (s.updCtx k fun c => if e.loc.own then c.ownLogged s idx e else c.spoil idx).ownWritten c e.loc
    | none => s.updCtx k fun c => if e.loc.own then c.ownLogged s idx e else c.spoil idx) e.loc.pkg (e.loc.pa / 64) e.mask e.data e.poison false
  refine (congrArg State.cores hw).trans ?_
  cases h : s.ctx k with
  | none =>
    show (s.updCtx k _).cores = _
    unfold State.updCtx
    rw [h]
  | some c => exact hcores c

section ahead
variable {s : State} {k ch : Nat} {c : Context} {o : CopyOp} (h : s.ctx k = some c) (ho : c.copyHead ch = some o) (hl : ChannelLive s c o)
  (hrun : o.state = .running) (hloads : c.loadsBefore o.idx = false)
include h ho hl hrun hloads

theorem copyChunk_readAhead (n : Nat) (va : Word) (len key : Nat) (hop : o.op = 1 ∨ o.op = 2 ∨ o.op = 6) (hat : o.readAt n = some (va, len))
    (hkey : CopyOp.readLines s c o n = [key]) (hnew : ∀ d, d < o.done → n ∉ o.chunkReads d) (hgot : ∀ y ∈ o.got, y.1 ≠ n)
    (hf : (fillRead s c va len).fault = none) :
    (SMap.getD (s.core c.coreKey).chanLines ch 0 = 0 → SMap.find (s.core c.coreKey).chanAt ch ≠ some key →
      exec (.copyChunk k ch (some n)) s = .next s) ∧
    (0 < SMap.getD (s.core c.coreKey).chanLines ch 0 ∨ SMap.find (s.core c.coreKey).chanAt ch = some key →
      ∃ t, exec (.copyChunk k ch (some n)) s = .next t ∧ LineSpent s c ch t key ∧ t = { s.setCtx k (c.setOp { o with
        got := (n, (fillRead s c va len).bytes) :: o.got, remote := o.remote || (fillRead s c va len).remote }) with cores := t.cores }) := by
  have hnot5 : o.op ≠ 5 ∧ ¬ (o.op = 3 ∨ o.op = 4) := by rcases hop with h | h | h <;> rw [h] <;> decide
  have hgo : (o.state != .running || decide (o.op = 3 ∨ o.op = 4) || c.loadsBefore o.idx) = false := by
    rw [hrun, hloads, decide_eq_false hnot5.2]
    rfl
  have hfresh : (List.range o.done).any (fun d => (o.chunkReads d).contains n) = false := by
    rw [List.any_eq_false]
    intro d hd
    simpa using hnew d (List.mem_range.mp hd)
  have hexec : exec (.copyChunk k ch (some n)) s = .next (s.readAhead k ch c o n) := by
    show execCopyChunk k ch (some n) s = _
    rw [execCopyChunk, atChannel_of h ho hl]
    dsimp only
    rw [hgo, if_neg hnot5.1, hfresh]
    rfl
  have hperform : (CopyOp.perform s c (o, none) n).1 = { o with
      got := (n, (fillRead s c va len).bytes) :: o.got, remote := o.remote || (fillRead s c va len).remote } := by
    have hany : o.got.any (fun g => decide (g.1 = n)) = false := by
      rw [List.any_eq_false]
      intro g hg
      simpa using hgot g hg
    unfold CopyOp.perform
    dsimp only
    rw [hany, hat]
    dsimp only
    rw [hf]
    rfl
  have hahead : s.readAhead k ch c o n = match s.moveLine c.coreKey ch key with
      | none => s
      | some s1 => s1.setCtx k (c.setOp (CopyOp.perform s c (o, none) n).1) := by
    unfold State.readAhead
    rw [hkey]
    rfl
  rw [hexec, hahead]
  refine ⟨fun hleft hk => by rw [State.moveLine_none hleft hk], fun hmay => ?_⟩
  obtain ⟨y, hmove, hspent⟩ := State.moveLine_some hmay
  rw [hmove, hperform]
  exact ⟨_, rfl, hspent, rfl⟩

theorem copyChunk_writeAhead (m j : Nat) (e : PbEntry) (hop : o.op = 5) (hw : s.MemWf) (hdone : o.done ≤ m) (hm : m < o.chunks) (hj : j < 1024)
    (he : (drainWrites s c o (chunkOf s c o m).data m).2[j]? = some e) (hpa : e.loc.pa < 2 ^ 52) (hput : o.put.contains (drainNo m e) = false) :
    (SMap.getD (s.core c.coreKey).chanLines ch 0 = 0 → SMap.find (s.core c.coreKey).chanAt ch ≠ some (lineKey e.loc.pkg (e.loc.pa / 64)) →
      exec (.copyChunk k ch (some (1024 * m + j))) s = .next s) ∧
    (0 < SMap.getD (s.core c.coreKey).chanLines ch 0 ∨ SMap.find (s.core c.coreKey).chanAt ch = some (lineKey e.loc.pkg (e.loc.pa / 64)) →
      ∃ t c' o', exec (.copyChunk k ch (some (1024 * m + j))) s = .next t ∧ LineSpent s c ch t (lineKey e.loc.pkg (e.loc.pa / 64)) ∧
        t.ctx k = some c' ∧ c'.copyHead ch = some o' ∧ o'.put = drainNo m e :: o.put ∧ o'.done = o.done ∧ c'.be = c.be ∧ c'.thread = c.thread ∧
        LinesWritten s t [e]) := by
  have hgo : (o.state != .running || decide (o.op = 3 ∨ o.op = 4) || c.loadsBefore o.idx) = false := by
    rw [hrun, hloads, hop]
    rfl
  have hchunk : (1024 * m + j) / 1024 = m ∧ (1024 * m + j) % 1024 = j := by omega
  have hexec : exec (.copyChunk k ch (some (1024 * m + j))) s = .next (s.writeAhead k ch c o m j) := by
    show execCopyChunk k ch (some (1024 * m + j)) s = _
    rw [execCopyChunk, atChannel_of h ho hl]
    dsimp only
    rw [hgo, if_neg Bool.false_ne_true, if_pos hop, hchunk.1, hchunk.2, if_pos ⟨hdone, hm⟩]
  have hahead : s.writeAhead k ch c o m j = match s.moveLine c.coreKey ch (lineKey e.loc.pkg (e.loc.pa / 64)) with
      | none => s
      | some s1 => (s1.setCtx k (c.setOp { o.meet (decide (e.loc.pkg ≠ c.pkg)) with put := drainNo m e :: o.put })).drainLine k o.idx e := by
    unfold State.writeAhead
    rw [he]
    dsimp only
    rw [hput]
    rfl
  rw [hexec, hahead]
  refine ⟨fun hleft hk => by rw [State.moveLine_none hleft hk], fun hmay => ?_⟩
  obtain ⟨y, hmove, hspent⟩ := State.moveLine_some hmay
  rw [hmove]
  dsimp only
  let o1 : CopyOp := { o.meet (decide (e.loc.pkg ≠ c.pkg)) with put := drainNo m e :: o.put }
  obtain ⟨c', hc', chk, refetch, hlog⟩ := State.drainLine_logged o.idx e (State.ctx_setCtx_self { s with cores := y } k (c.setOp o1))
  have hwritten := foldl_drainLine_written k o.idx [e] (fun x hx => by rw [List.mem_singleton.mp hx]; exact hpa) (List.nodup_singleton _)
    (({ s with cores := y } : State).setCtx k (c.setOp o1)) hw
  refine ⟨_, c', o1, rfl, ?_, hc', by rw [hlog]; exact Context.copyHead_setOp ho rfl rfl, rfl, rfl, by rw [hlog]; rfl, by rw [hlog]; rfl, hwritten⟩
  unfold LineSpent at hspent ⊢
  rw [State.drainLine_cores]
  exact hspent

end ahead

/-! ### An ADDW's row made ready, an RPUT's fragment sent (R154, R156, R157) -/

theorem sendFragment_go (s : State) (k : Nat) {ch : Nat} {c : Context} {o : CopyOp} (ho : c.copyHead ch = some o) (b : Option Loc) :
    ∃ t c', ((s.serveList c ch).setCtx k (c.setOp { o with barrier := b, state := .sent, remote := true, sent := (chunkOf s c o o.done).data })).chunkOor
        k { o with barrier := b, state := .sent, remote := true, sent := (chunkOf s c o o.done).data } (o.rputOff + 256 * o.done) = t ∧
      t.ctx k = some c' ∧ c'.copyHead ch = some { o with barrier := b, state := .sent, remote := true, sent := (chunkOf s c o o.done).data } ∧
      c'.thread = c.thread ∧ ∀ a, t.memByte a = s.memByte a := by
  let o1 : CopyOp := { o with barrier := b, state := .sent, remote := true, sent := (chunkOf s c o o.done).data }
  obtain ⟨e, he, ⟨_, _, _, _, _, htouched⟩, -, -⟩ := State.tileOor_touched (State.ctx_setCtx_self (s.serveList c ch) k (c.setOp o1))
    (Context.Logged.refl (c.setOp o1)).touched o.idx o.buf o.w.tile.toNat ((o.rputOff + 256 * o.done) / 256) ((o.rputOff + 256 * o.done) % 256)
  refine ⟨_, e, rfl, he, ?_, by rw [htouched]; rfl, fun a => congrArg (fun m => Memory.read m a) (State.tileOor_mem ..)⟩
  rw [htouched]
  exact Context.copyHead_setOp (o' := o1) ho rfl rfl

section served
variable {s : State} {k ch : Nat} {c : Context} {o : CopyOp} (h : s.ctx k = some c) (ho : c.copyHead ch = some o) (hl : ChannelLive s c o)
  (hrun : o.state = .running) (hloads : c.loadsBefore o.idx = false) (h3 : o.op ≠ 3) (h4 : o.op ≠ 4)
  (hserved : s.chanTurn c ch = true ∧ (s.core c.coreKey).hasMoved ch o.chunkBytes = true)
include h ho hl hrun hloads h3 h4 hserved

theorem copyChunk_addw (hop : o.op = 6) (hg : (CopyOp.gather s c o o.done).2 = none) :
    ∃ t c', exec (.copyChunk k ch none) s = .next t ∧ t.ctx k = some c' ∧
      c'.copyHead ch = some { (CopyOp.gather s c o o.done).1 with put := [o.done] } ∧ c'.be = c.be ∧ c'.thread = c.thread ∧
      ∀ a, t.memByte a = s.memByte a := by
  have hexec := copyChunk_of h ho hl hrun hloads h3 h4
  rw [hserved.1, hserved.2, hg] at hexec
  have h12 : ¬ (o.op = 1 ∨ o.op = 2) ∧ o.op ≠ 5 := by rw [hop]; decide
  simp only [Bool.not_true, Bool.or_self, Bool.false_eq_true, if_false, if_neg h12.1, if_neg h12.2, if_pos hop] at hexec
  have hs := (CopyOp.gather_sameShape s c o o.done).chunks
  exact ⟨_, _, hexec, State.ctx_setCtx_self _ _ _, Context.copyHead_setOp ho hs.id hs.w, rfl, rfl, fun a => rfl⟩

theorem copyChunk_rput (hop : o.op = 7) (b : Option Loc) (hb : (o.barrierVa = none ∨ o.barrier ≠ none) ∧ b = o.barrier ∨
      (∃ va l, o.barrierVa = some va ∧ o.barrier = none ∧ translate s c va .store = .ok l ∧ b = some l)) :
    ∃ t c', exec (.copyChunk k ch none) s = .next t ∧ t.ctx k = some c' ∧
      c'.copyHead ch = some { o with barrier := b, state := .sent, remote := true, sent := (chunkOf s c o o.done).data } ∧ c'.thread = c.thread ∧
      ∀ a, t.memByte a = s.memByte a := by
  have hexec := copyChunk_of h ho hl hrun hloads h3 h4
  have hnot : ¬ (o.op = 1 ∨ o.op = 2) ∧ o.op ≠ 5 ∧ o.op ≠ 6 := by rw [hop]; decide
  rw [hserved.1, hserved.2, CopyOp.gather_of_noReads s c o o.done (.inr hop)] at hexec
  simp only [Bool.not_true, Bool.or_self, Bool.false_eq_true, if_false, if_neg hnot.1, if_neg hnot.2.1, if_neg hnot.2.2] at hexec
  obtain ⟨t, c', ht, hrest⟩ := sendFragment_go s k ho b
  refine ⟨t, c', hexec.trans (congrArg Host.Outcome.next ?_), hrest⟩
  unfold State.sendFragment
  dsimp only
  rw [chunkOf_serveList, ← ht]
  rcases hb with ⟨hno, rfl⟩ | ⟨va, l, hva, hbar, htr, rfl⟩
  · cases hva : o.barrierVa with
    | none => rfl
    | some va =>
      cases hbar : o.barrier with
      | none => exact absurd hbar (hno.resolve_left (by rw [hva]; exact Option.some_ne_none va))
      | some l => rfl
  · split
    · next va' hva' _ =>
      obtain rfl : va = va' := Option.some.inj (hva.symm.trans hva')
      rw [show translate (s.serveList c ch) c va .store = translate s c va .store from rfl, htr]
      rfl
    · next hno => exact absurd hbar (hno va hva)

end served

/-! ### A suspended operation (R159, R325) -/

theorem State.queueFault_ctx (s : State) (p : FaultPort) (e : FaultEntry) (k : Nat) : (s.queueFault p e).ctx k = s.ctx k := by
  unfold State.queueFault
  dsimp only
  split
  · unfold State.writeFaultEntry
    dsimp only
    rw [State.homeWriteBytes_ctx]
    unfold State.ctx State.updFaultPage
    rw [(State.setFaultPage_frame _ _ _).1]
    split <;> rfl
  · unfold State.ctx
    rw [(State.setFaultPage_frame _ _ _).1]

/-- The context of a suspended operation. -/
structure Suspended (ch : Nat) (c : Context) (o : CopyOp) (cause sub : BitVec 8) (va : Word) (c' : Context) : Prop where
  head : c'.copyHead ch = some { o with state := .suspended, got := [], put := [], sent := [] }
  preempt : c'.sch.preempt = none
  state : (c'.stat ch).state = 2
  cause : (c'.stat ch).cause = cause
  sub : (c'.stat ch).sub = sub
  addr : (c'.stat ch).addr = va
  pc : c'.thread.pc = c.thread.pc

/-- The context as its channel suspends the operation. -/
def Context.suspended (c : Context) (o : CopyOp) (cause : BitVec 8) (x : XFault) : Context :=
  (({ c with sch := { c.sch with preempt := none } } : Context).setOp { o with state := .suspended, got := [], put := [], sent := [] }).updStat
    o.w.ch.toNat fun r => { r with
      state := 2, cause := cause, sub := x.sub, addr := if cause = suspXlate then x.va else r.addr
      cursor := o.cursor, wp := BitVec.ofNat 32 o.wp }

theorem Context.suspended_spec {ch : Nat} {c : Context} {y o : CopyOp} (hy : c.copyHead ch = some y) (hid : o.id = y.id) (hw : o.w = y.w)
    (cause : BitVec 8) (x : XFault) :
    Suspended ch c o cause x.sub (if cause = suspXlate then x.va else (c.stat ch).addr) (c.suspended o cause x) := by
  have hch : o.w.ch.toNat = ch := by rw [hw]; exact Context.copyHead_ch hy
  have hstat : (c.suspended o cause x).stat ch = { c.stat ch with
      state := 2, cause := cause, sub := x.sub, addr := if cause = suspXlate then x.va else (c.stat ch).addr
      cursor := o.cursor, wp := BitVec.ofNat 32 o.wp } := by
    unfold Context.suspended
    rw [hch, Context.stat_updStat]
    rfl
  exact ⟨Context.copyHead_setOp hy hid hw, rfl, by rw [hstat], by rw [hstat], by rw [hstat], by rw [hstat], rfl⟩

theorem State.suspendCopy_eq {s : State} {k : Nat} {c : Context} (h : s.ctx k = some c) (o : CopyOp) (cause : BitVec 8) (x : XFault) :
    s.suspendCopy k o cause x =
      if cause = suspSchedv then s.setCtx k (c.suspended o cause x)
      else if cause = suspXlate && isNotPres x.sub then
        (s.setCtx k (c.suspended o cause x)).queueFault (.cobalt c.die)
          { seq := 0, source := 2, who := k, va := x.va, pc := o.pc, emitseq := o.seq, sub := x.sub, unit := o.w.ch.toNat
            record := ((c.suspended o cause x).stat o.w.ch.toNat).bytes }
      else (s.setCtx k (c.suspended o cause x)).copyDeclined k o.w.ch.toNat := by
  unfold State.suspendCopy
  rw [h]
  rfl

theorem State.copyDeclined_ctx {s : State} {k ch : Nat} {c : Context} (h : s.ctx k = some c) :
    (s.copyDeclined k ch).ctx k = some { c.updSnapshots (Thread.pend 15) with thread := c.thread.pend 15 } := by
  unfold State.copyDeclined
  rw [h]
  dsimp only
  rw [State.post_ctx, State.setUlipend, State.updCtx_of h, State.ctx_setCtx_self]

/-- A fault other than an absent page, or a refused fragment: the operation suspends and ULIPEND bit 15 is set. -/
theorem suspendCopy_declined {s : State} {k ch : Nat} {c : Context} {y o : CopyOp} (h : s.ctx k = some c) (hy : c.copyHead ch = some y)
    (hid : o.id = y.id) (hw : o.w = y.w) {cause : BitVec 8} {x : XFault} (hc : cause ≠ suspSchedv)
    (hx : ¬ (cause = suspXlate ∧ isNotPres x.sub = true)) :
    ∃ c', (s.suspendCopy k o cause x).ctx k = some c' ∧
      Suspended ch c o cause x.sub (if cause = suspXlate then x.va else (c.stat ch).addr) c' ∧ c'.thread = c.thread.pend 15 := by
  obtain ⟨hhead, hpre, hst, hca, hsu, had, hpc⟩ := Context.suspended_spec hy hid hw cause x
  rw [State.suspendCopy_eq h, if_neg hc, if_neg (by simpa using hx)]
  exact ⟨_, State.copyDeclined_ctx (State.ctx_setCtx_self _ _ _), ⟨hhead, hpre, hst, hca, hsu, had, hpc⟩, rfl⟩

theorem suspendCopy_notPres {s : State} {k ch : Nat} {c : Context} {y o : CopyOp} (h : s.ctx k = some c) (hy : c.copyHead ch = some y)
    (hid : o.id = y.id) (hw : o.w = y.w) {x : XFault} (hx : isNotPres x.sub = true) :
    (∃ c', (s.suspendCopy k o suspXlate x).ctx k = some c' ∧ Suspended ch c o suspXlate x.sub x.va c') ∧
    ∃ (u : State) (b : List Byte), s.suspendCopy k o suspXlate x = u.queueFault (.cobalt c.die)
      { seq := 0, source := 2, who := k, va := x.va, pc := o.pc, emitseq := o.seq, sub := x.sub, unit := ch, record := b } := by
  have hch : o.w.ch.toNat = ch := by rw [hw]; exact Context.copyHead_ch hy
  rw [State.suspendCopy_eq h, if_neg (by decide), if_pos (by rw [hx]; rfl), hch]
  refine ⟨⟨_, by rw [State.queueFault_ctx]; exact State.ctx_setCtx_self _ _ _, ?_⟩, _, _, rfl⟩
  exact Context.suspended_spec hy hid hw suspXlate x

/-- The faults of a chunk: of its reads, of its writes, of the barrier's address. -/
def ChunkFaults (s : State) (c : Context) (o : CopyOp) (f : XFault) : Prop :=
  (o.op = 1 ∨ o.op = 2 ∨ o.op = 6) ∧ (CopyOp.gather s c o o.done).2 = some f ∨
  o.op = 5 ∧ (∃ l, drainWrites s c o (chunkOf s c (CopyOp.gather s c o o.done).1 o.done).data o.done = (some f, l)) ∨
  o.op = 7 ∧ o.barrier = none ∧ (∃ va, o.barrierVa = some va ∧ translate s c va .store = .error f)

theorem copyChunk_fault {s : State} {k ch : Nat} {c : Context} {o : CopyOp} (h : s.ctx k = some c) (ho : c.copyHead ch = some o)
    (hl : ChannelLive s c o) (hrun : o.state = .running) (hloads : c.loadsBefore o.idx = false) (h3 : o.op ≠ 3) (h4 : o.op ≠ 4)
    (hserved : s.chanTurn c ch = true ∧ (s.core c.coreKey).hasMoved ch o.chunkBytes = true) {f : XFault} (hf : ChunkFaults s c o f) :
    ∃ got remote, exec (.copyChunk k ch none) s =
      .next ((s.serveList c ch).suspendCopy k { o with got := got, remote := remote } suspXlate f) := by
  have hexec := copyChunk_of h ho hl hrun hloads h3 h4
  rw [hserved.1, hserved.2] at hexec
  simp only [Bool.not_true, Bool.or_self, Bool.false_eq_true, if_false] at hexec
  rcases hf with ⟨-, hg⟩ | ⟨hop, l, hw⟩ | ⟨hop, hbar, va, hva, htr⟩
  · rw [hg] at hexec
    obtain ⟨got, remote, hshape⟩ := CopyOp.gather_sameShape s c o o.done
    rw [hshape] at hexec
    exact ⟨got, remote, hexec⟩
  · rw [CopyOp.gather_of_noReads s c o o.done (.inl hop)] at hexec hw
    have hnot : ¬ (o.op = 1 ∨ o.op = 2) := by rw [hop]; decide
    simp only [if_neg hnot, if_pos hop] at hexec
    refine ⟨o.got, o.remote || l.any (fun l => decide (l.loc.pkg ≠ c.pkg)), hexec.trans (congrArg Host.Outcome.next ?_)⟩
    unfold State.deliverDrain
    dsimp only
    rw [chunkOf_serveList, drainWrites_serveList, hw]
    rfl
  · rw [CopyOp.gather_of_noReads s c o o.done (.inr hop)] at hexec
    have hnot : ¬ (o.op = 1 ∨ o.op = 2) ∧ o.op ≠ 5 ∧ o.op ≠ 6 := by rw [hop]; decide
    simp only [if_neg hnot.1, if_neg hnot.2.1, if_neg hnot.2.2] at hexec
    refine ⟨o.got, o.remote, hexec.trans (congrArg Host.Outcome.next ?_)⟩
    unfold State.sendFragment
    dsimp only
    split
    · next va' hva' _ =>
      obtain rfl : va = va' := Option.some.inj (hva.symm.trans hva')
      rw [show translate (s.serveList c ch) c va .store = translate s c va .store from rfl, htr]
    · next hno => exact absurd hbar (hno va hva)

/-! ### A FEED's beat (R152) -/

/-- A beat at the producer's place of a stream. -/
def Stream.land (st : Stream) (beat : Beat) : Stream :=
  { st with slots := SMap.put st.slots (st.produced.toNat % 512) beat, produced := st.produced + 1 }

/-- The stream that the word names takes the beat. -/
def BackEnd.landBeat (b : BackEnd) (ss : BitVec 1) (beat : Beat) : BackEnd :=
  if ss = 1 then { b with sb := b.sb.land beat } else { b with sa := b.sa.land beat }

theorem BackEnd.landBeat_spec {b b' : BackEnd} {ss : BitVec 1} {beat : Beat} (hsa : b'.sa = (b.landBeat ss beat).sa)
    (hsb : b'.sb = (b.landBeat ss beat).sb) :
    let old := if ss = 1 then b.sb else b.sa
    let new := if ss = 1 then b'.sb else b'.sa
    new.produced = old.produced + 1 ∧ new.consumer = old.consumer ∧ (if ss = 1 then b'.sa = b.sa else b'.sb = b.sb) ∧
    SMap.find new.slots (old.produced.toNat % 512) = some beat := by
  intro old new
  unfold BackEnd.landBeat at hsa hsb
  by_cases h : ss = 1
  · rw [if_pos h] at hsa hsb
    simp only [new, old, if_pos h, hsa, hsb]
    exact ⟨rfl, rfl, trivial, SMap.find_put_self ..⟩
  · rw [if_neg h] at hsa hsb
    simp only [new, old, if_neg h, hsa, hsb]
    exact ⟨rfl, rfl, trivial, SMap.find_put_self ..⟩

/-- The beat that is next. -/
def CopyOp.nextBeat (s : State) (c : Context) (o : CopyOp) : Beat :=
  { data := BitVec.ofNat 2048 (leNat ((feedBeat s c o).map (·.1))), tag := o.w.fmt, poison := (feedBeat s c o).any (·.2) }

/-- The context with the beat in its stream, counted in the record. -/
def Context.fedBeat (s : State) (ch : Nat) (c : Context) (o : CopyOp) : Context :=
  (((c.applyBe o.idx fun b => b.landBeat o.w.ss (o.nextBeat s c)).setOp { o with beats := o.beats + 1 }).countChunk ch 0
    (if (feedBeat s c o).any (·.2) then 1 else 0) false).updStat ch fun r => { r with wp := BitVec.ofNat 32 ({ o with beats := o.beats + 1 } : CopyOp).wp }

theorem Context.fedBeat_spec (s : State) (ch : Nat) (c : Context) (o : CopyOp) :
    (c.fedBeat s ch o).be.sa = (c.be.landBeat o.w.ss (o.nextBeat s c)).sa ∧ (c.fedBeat s ch o).be.sb = (c.be.landBeat o.w.ss (o.nextBeat s c)).sb ∧
    (c.fedBeat s ch o).fl = (c.setOp { o with beats := o.beats + 1 }).fl ∧ (c.fedBeat s ch o).thread = c.thread := by
  unfold Context.fedBeat
  generalize o.nextBeat s c = beat
  generalize (if (feedBeat s c o).any (·.2) then 1 else 0) = n
  obtain ⟨chk, happly⟩ := c.applyBe_chk o.idx fun b => b.landBeat o.w.ss beat
  rw [happly]
  exact ⟨rfl, rfl, rfl, rfl⟩

def feedOff (o : CopyOp) : Nat :=
  if o.op = 3 then ((nestField o.nest 0).toNat + o.beats) * beatBytes o.w.fmt.toNat
  else ((nestField o.nest 0).toNat + o.beats) * (beatBytes o.w.fmt.toNat / 64)

def State.beatMoved (s : State) (ch : Nat) (c : Context) : State :=
  (s.serveList c ch).updCore c.coreKey (fun r => { r with beatLanded := r.beatLanded ||| BitVec.ofNat 4 (2 ^ ch) })

theorem feedBeatLand_of {s : State} {k ch : Nat} {c : Context} {o : CopyOp} (h : s.ctx k = some c) (ho : c.copyHead ch = some o)
    (hl : ChannelLive s c o) (hrun : o.state = .running) (hop : o.op = 3 ∨ o.op = 4) (hroom : c.streamRoom (o.w.ss == 1) = true)
    (hturn : s.chanTurn c ch = true) (hmoved : (s.core c.coreKey).hasMoved ch (beatBytes o.w.fmt.toNat) = true)
    (hlanded : (s.core c.coreKey).beatLanded.getLsbD ch = false) :
    ∃ t c', exec (.feedBeatLand k ch) s = .next t ∧ t.ctx k = some c' ∧ c'.thread = c.thread ∧ (∀ a, t.memByte a = s.memByte a) ∧
      let old := if o.w.ss = 1 then c.be.sb else c.be.sa
      let new := if o.w.ss = 1 then c'.be.sb else c'.be.sa
      let d := feedBeat s c o
      new.produced = old.produced + 1 ∧ new.consumer = old.consumer ∧
      (if o.w.ss = 1 then c'.be.sa = c.be.sa else c'.be.sb = c.be.sb) ∧
      SMap.find new.slots (old.produced.toNat % 512) =
        some { data := BitVec.ofNat 2048 (leNat (d.map (·.1))), tag := o.w.fmt, poison := d.any (·.2) } ∧
      (o.beats + 1 < nestBound o.nest 0 → c'.copyHead ch = some { o with beats := o.beats + 1 }) ∧
      (nestBound o.nest 0 ≤ o.beats + 1 → c'.fl.copyOps = c.fl.copyOps.filter (fun y => y.id ≠ o.id)) := by
  have hgo : (o.state != .running || !decide (o.op = 3 ∨ o.op = 4) || !c.streamRoom (o.w.ss == 1) || !s.chanTurn c ch ||
      !(s.core c.coreKey).hasMoved ch (beatBytes o.w.fmt.toNat) || (s.core c.coreKey).beatLanded.getLsbD ch) = false := by
    rw [hrun, decide_eq_true hop, hroom, hturn, hmoved, hlanded]
    rfl
  let o1 : CopyOp := { o with beats := o.beats + 1 }
  have hexec : exec (.feedBeatLand k ch) s = .next (if nestBound o.nest 0 ≤ o1.beats
      then (((s.beatMoved ch c).setCtx k (c.fedBeat s ch o)).chunkOor k o (feedOff o)).completeCopy k o1
      else ((s.beatMoved ch c).setCtx k (c.fedBeat s ch o)).chunkOor k o (feedOff o)) := by
    show execFeedBeatLand k ch s = _
    rw [execFeedBeatLand, atChannel_of h ho hl]
    dsimp only
    rw [hgo]
    rfl
  obtain ⟨hsa, hsb, hops, hthr⟩ := c.fedBeat_spec s ch o
  generalize c.fedBeat s ch o = d0 at hexec hsa hsb hops hthr
  obtain ⟨d, hd, ⟨_, _, _, _, _, htouched⟩, -, -⟩ := State.tileOor_touched (State.ctx_setCtx_self (s.beatMoved ch c) k d0)
    (Context.Logged.refl d0).touched o.idx o.buf o.w.tile.toNat (feedOff o / 256) (feedOff o % 256)
  have hmem : (((s.beatMoved ch c).setCtx k d0).chunkOor k o (feedOff o)).mem = s.mem := State.tileOor_mem ..
  have hdsa : d.be.sa = (c.be.landBeat o.w.ss (o.nextBeat s c)).sa := by rw [htouched]; exact hsa
  have hdsb : d.be.sb = (c.be.landBeat o.w.ss (o.nextBeat s c)).sb := by rw [htouched]; exact hsb
  have hdops : d.fl = (c.setOp o1).fl := by rw [htouched]; exact hops
  have hdthr : d.thread = c.thread := by rw [htouched]; exact hthr
  change (((s.beatMoved ch c).setCtx k d0).chunkOor k o (feedOff o)).ctx k = some d at hd
  generalize ((s.beatMoved ch c).setCtx k d0).chunkOor k o (feedOff o) = u at hexec hd hmem
  rw [hexec]
  by_cases hlast : nestBound o.nest 0 ≤ o.beats + 1
  · rw [if_pos hlast]
    obtain ⟨e, hend, hthread, hfl, hbe⟩ := State.completeCopy_of hd o1 hl.idx
    obtain ⟨hprod, hcons, hother, hslot⟩ := BackEnd.landBeat_spec (b' := e.be) (by rw [hbe]; exact hdsa) (by rw [hbe]; exact hdsb)
    refine ⟨_, e, rfl, by rw [hend]; exact State.ctx_setCtx_self _ _ _, hthread.trans hdthr, fun a => ?_, hprod, hcons, hother, hslot,
      fun hlt => absurd hlast (Nat.not_le.mpr hlt), fun _ => ?_⟩
    · rw [hend]
      exact congrArg (fun m => Memory.read m a) hmem
    · rw [hfl, hdops]
      exact filter_setOp c.fl.copyOps o1
  · rw [if_neg hlast]
    obtain ⟨hprod, hcons, hother, hslot⟩ := BackEnd.landBeat_spec hdsa hdsb
    refine ⟨u, d, rfl, hd, hdthr, fun a => congrArg (fun m => Memory.read m a) hmem, hprod, hcons, hother, hslot, fun _ => ?_,
      fun hle => absurd hle hlast⟩
    unfold Context.copyHead
    rw [hdops]
    exact Context.copyHead_setOp (o' := o1) ho rfl rfl

/-! ### An ADDW's row (R154, R155, R191) -/

theorem foldl_lineThen_other {k : Nat} {c : Context} (idx buf : Nat) (T L : Nat → Nat) (F : Nat → BufLine → BufLine) (x : Nat) (l : List Nat)
    (hx : ∀ i ∈ l, x ≠ bufKey buf (winBase (c.window buf) + T i) (L i)) : ∀ s : State, Stands k c s →
    ((l.foldl (lineThen idx buf T L F (fun _ u => u) k) s).core c.coreKey).line x = (s.core c.coreKey).line x := by
  induction l with
  | nil => exact fun s _ => rfl
  | cons i l ih =>
    intro s hs
    refine (ih (fun j hj => hx j (List.mem_cons_of_mem _ hj)) _ (Stands.writeLine idx buf (T i) (L i) (F i) hs)).trans ?_
    by_cases hin : T i < winLimit (c.window buf)
    · rw [State.writeLine_line idx buf (T i) (L i) (F i) hs hin, if_neg (hx i List.mem_cons_self)]
    · rw [State.writeLine_out idx buf (T i) (L i) (F i) hs (Nat.not_lt.mp hin)]

section addRow
variable (s : State) (k : Nat) (c : Context) (o : CopyOp) (d : List (Byte × Bool))

/-- A line of the operation's row with its sums. -/
def addwRow (i : Nat) : BufLine × Bool := addwLine o o.done i (s.readLine c 2 o.w.tile.toNat (4 * o.done + i)) d
def addwSat : Bool := (List.range 4).any (fun i => (addwRow s c o d i).2)
/-- The status byte of the tile after the row (R191). -/
def addwStatus (sat : Bool) (b : Nat) : Nat := b / 2 * 2 % 256 + (if o.w.fmt = 5 then 1 else 0) ||| (if sat then 2 else 0)

/-- The row's lines written, and the status byte. -/
def addwLines : State := (List.range 4).foldl (lineThen o.idx 2 (fun _ => o.w.tile.toNat) (fun i => 4 * o.done + i)
  (fun i old => (addwLine o o.done i old d).1) (fun _ u => u) k) s
def addwTile : State := (addwLines s k o d).setStatus k o.idx o.w.tile.toNat (addwStatus o (addwSat s c o d))

theorem State.addRow_eq : s.addRow k c o o.done d = State.chunkOor (if addwSat s c o d
    then (addwTile s k c o d).updCtx k (fun c => c.applyBe o.idx (fun b => b.orVflags flSATF)) else addwTile s k c o d) k o (256 * o.done) := rfl

variable {s k c o d}

theorem addwTile_lines (h : s.ctx k = some c) (hdone : o.done < 64) (hin : o.w.tile.toNat < winLimit c.id.winC) :
    (∀ i, i < 4 → (addwTile s k c o d).readLine c 2 o.w.tile.toNat (4 * o.done + i) = (addwRow s c o d i).1) ∧
    (addwTile s k c o d).status c o.w.tile.toNat = (s.status c o.w.tile.toNat / 2 * 2 + (if o.w.fmt = 5 then 1 else 0)) |||
      (if addwSat s c o d then 2 else 0) := by
  obtain ⟨hst, hrows, -⟩ := foldl_lineThen (k := k) (c := c) (idx := o.idx) (buf := 2) (T := fun _ => o.w.tile.toNat)
    (L := fun i => 4 * o.done + i) (F := fun i old => (addwLine o o.done i old d).1) (fun i u hu => ⟨hu, rfl⟩) 4
    (fun i hi => by omega) (fun i j _ _ _ hij => by omega) s (.of_ctx h)
  have hstatus := foldl_lineThen_other (k := k) (c := c) o.idx 2 (fun _ => o.w.tile.toNat) (fun i => 4 * o.done + i)
    (fun i old => (addwLine o o.done i old d).1) (statusKey (winBase c.id.winC + o.w.tile.toNat)) (List.range 4) (fun i hi hk => by
      have := List.mem_range.mp hi
      unfold statusKey bufKey at hk
      simp only [Context.window] at hk
      norm_num at hk
      omega) s (.of_ctx h)
  change Stands k c (addwLines s k o d) at hst
  change ∀ i, i < 4 → _ → (addwLines s k o d).readLine c 2 o.w.tile.toNat (4 * o.done + i) = _ at hrows
  change ((addwLines s k o d).core c.coreKey).line _ = _ at hstatus
  have hwrite := State.writeLine_line o.idx 3 o.w.tile.toNat 0
    (fun x => { data := BitVec.ofNat 512 (addwStatus o (addwSat s c o d) (x.data.toNat % 256)), poison := x.poison }) hst hin
  refine ⟨fun i hi => ?_, ?_⟩
  · refine .trans ?_ (hrows i hi hin)
    rw [State.readLine_of_in (c := c) (buf := 2) hin, State.readLine_of_in (c := c) (buf := 2) hin]
    refine (hwrite _).trans (if_neg fun hk => ?_)
    unfold bufKey at hk
    simp only [Context.window] at hk
    norm_num at hk
    omega
  · unfold State.status
    rw [if_pos hin, if_pos hin]
    have hread := hwrite (statusKey (winBase c.id.winC + o.w.tile.toNat))
    rw [if_pos (show statusKey (winBase c.id.winC + o.w.tile.toNat) = bufKey 3 (winBase (c.window 3) + o.w.tile.toNat) 0 from rfl), hstatus] at hread
    rw [show (addwTile s k c o d).core c.coreKey = (State.writeLine _ k o.idx 3 o.w.tile.toNat 0 _).core c.coreKey from rfl, hread]
    generalize hb : ((s.core c.coreKey).line (statusKey (winBase c.id.winC + o.w.tile.toNat))).data.toNat % 256 = b
    have hlt : b < 256 := by omega
    have hval : addwStatus o (addwSat s c o d) b = (b / 2 * 2 + (if o.w.fmt = 5 then 1 else 0)) ||| (if addwSat s c o d then 2 else 0) := by
      unfold addwStatus
      rw [Nat.mod_eq_of_lt (by omega)]
    have hsmall : addwStatus o (addwSat s c o d) b < 2 ^ 8 := by
      rw [hval]
      refine Nat.or_lt_two_pow ?_ ?_
      · split <;> omega
      · split <;> omega
    rw [BitVec.toNat_ofNat, Nat.mod_eq_of_lt (show addwStatus o (addwSat s c o d) b < 2 ^ 512 from
      hsmall.trans (Nat.pow_lt_pow_right (by decide) (by decide))), Nat.mod_eq_of_lt (show addwStatus o (addwSat s c o d) b < 256 from hsmall), hval]

theorem addwTile_logged (h : s.ctx k = some c) : (∃ e, (addwTile s k c o d).ctx k = some e ∧ c.Logged e) ∧ OnlyTiles s (addwTile s k c o d) := by
  obtain ⟨⟨e, he, hlog⟩, honly⟩ := foldl_lineThen_logged (k := k) (c := c) o.idx 2 (fun _ => o.w.tile.toNat) (fun i => 4 * o.done + i)
    (fun i old => (addwLine o o.done i old d).1) (List.range 4) s c h (.refl c)
  obtain ⟨e', he', hlog'⟩ := State.writeLine_logged o.idx 3 o.w.tile.toNat 0
    (fun x => { data := BitVec.ofNat 512 (addwStatus o (addwSat s c o d) (x.data.toNat % 256)), poison := x.poison }) he
  exact ⟨⟨e', he', hlog.trans hlog'⟩, honly.trans (State.writeLine_only o.idx 3 o.w.tile.toNat 0 _ _ k)⟩

theorem BackEnd.orVflags_be (b : BackEnd) (f : Flags) : b.orVflags f = { b with vflags := b.vflags ||| f.setWidth 64 } := rfl

theorem addRow_spec (h : s.ctx k = some c) : ∃ e, (s.addRow k c o o.done d).ctx k = some e ∧ c.Touched e ∧
    e.be.vflags = (if addwSat s c o d then c.be.vflags ||| flSATF.setWidth 64 else c.be.vflags) ∧
    OnlyTiles s (s.addRow k c o o.done d) ∧ (s.addRow k c o o.done d).cores = (addwTile s k c o d).cores := by
  obtain ⟨⟨e, he, hlog⟩, honly⟩ := addwTile_logged (o := o) (d := d) h
  rw [State.addRow_eq]
  generalize addwTile s k c o d = u at he honly
  obtain ⟨chk, refetch, rfl⟩ := hlog
  obtain ⟨e', he', htouched, hvf, hcores⟩ : ∃ e', (if addwSat s c o d then u.updCtx k (fun c => c.applyBe o.idx (fun b => b.orVflags flSATF))
      else u).ctx k = some e' ∧ c.Touched e' ∧
      e'.be.vflags = (if addwSat s c o d then c.be.vflags ||| flSATF.setWidth 64 else c.be.vflags) ∧
      (if addwSat s c o d then u.updCtx k (fun c => c.applyBe o.idx (fun b => b.orVflags flSATF)) else u).cores = u.cores := by
    split
    · rw [State.updCtx_of he]
      obtain ⟨chk', happly⟩ := ({ c with chk := chk, sch := { c.sch with refetch := refetch } } : Context).applyBe_chk o.idx
        (fun b => b.orVflags flSATF)
      refine ⟨_, State.ctx_setCtx_self _ _ _, ?_, rfl, rfl⟩
      rw [happly]
      exact ⟨_, _, _, _, _, rfl⟩
    · exact ⟨_, he, ⟨_, _, _, _, _, rfl⟩, rfl, rfl⟩
  have honly' : OnlyTiles u (if addwSat s c o d then u.updCtx k (fun c => c.applyBe o.idx (fun b => b.orVflags flSATF)) else u) := by
    split
    · exact .updCtx ..
    · exact .refl u
  generalize (if addwSat s c o d then u.updCtx k (fun c => c.applyBe o.idx (fun b => b.orVflags flSATF)) else u) = v at he' hcores honly'
  obtain ⟨e'', he'', htouched', hvf', -⟩ := State.tileOor_touched he' htouched o.idx o.buf o.w.tile.toNat (256 * o.done / 256) (256 * o.done % 256)
  refine ⟨e'', he'', htouched', hvf'.trans hvf, honly.trans (honly'.trans (.updCtx ..)), .trans ?_ hcores⟩
  rw [State.chunkOor, State.tileOor, State.updCtx_of he']
  rfl

end addRow

theorem State.readLine_of_cores {s t : State} (h : t.cores = s.cores) : t.readLine = s.readLine := by
  unfold State.readLine State.core
  rw [h]

theorem State.status_of_cores {s t : State} (h : t.cores = s.cores) : t.status = s.status := by
  unfold State.status State.core
  rw [h]

theorem foldl_freeToken_cstat (l : List CopyOp) : ∀ b : BackEnd, (l.foldl (fun b o => b.freeToken o.w.tok.toNat) b).cstat = b.cstat := by
  induction l with
  | nil => exact fun b => rfl
  | cons o l ih => exact fun b => ih _

/-- Cancelled bundles take nothing of the channels' records back (R24). -/
theorem Context.cancelFrom_cstat (c : Context) (i : Nat) : (c.cancelFrom i).be.cstat = c.be.cstat := by
  unfold Context.cancelFrom
  split
  · rfl
  · exact foldl_freeToken_cstat _ _

section addwRow
variable {s : State} {k ch : Nat} {c : Context} {o : CopyOp} (h : s.ctx k = some c) (ho : c.copyHead ch = some o) (hl : ChannelLive s c o)
include h ho hl

/-- The port slot of the row's bank in this cycle is not the operation's, and the matrix engine writes the bank (R155). -/
def addwClash (s : State) (c : Context) (o : CopyOp) : Bool :=
  !c.be.ports.getLsbD (4 * ((winBase c.id.winC + o.w.tile.toNat) % 4) + o.w.port.toNat) && decide (o.w.tile.toNat < winLimit c.id.winC) &&
    (s.core c.coreKey).bankWrites.getLsbD ((winBase c.id.winC + o.w.tile.toNat) % 4)

theorem addwRowWrite_of (n : Nat) (hop : o.op = 6) (hrun : o.state = .running) (hput : o.done ∈ o.put)
    (hnow : (s.core c.coreKey).ctxNow = some (k, n)) (hport : n % 4 = o.w.port.toNat) (hbeats : o.beats ≠ n + 1) :
    exec (.addwRowWrite k ch o.done) s = .next (if addwClash s c o then s.schedv k o
      else ((s.addRow k c o o.done (chunkOf s c o o.done).data).updCtx k (fun d =>
        (d.setOp { o with beats := n + 1, put := [] }).countChunk ch (chunkOf s c o o.done).clipped (poisonedLines (chunkOf s c o o.done).data) false)).chunkDone
          k { o with beats := n + 1, put := [] }) := by
  have hgo : ¬ (k ≠ k ∨ o.op ≠ 6 ∨ o.state ≠ .running ∨ o.done ≠ o.done ∨ (!o.put.contains o.done) = true ∨ n % 4 ≠ o.w.port.toNat ∨ o.beats = n + 1) := by
    simp [hop, hrun, hput, hport, hbeats]
  show execAddwRowWrite k ch o.done s = _
  rw [execAddwRowWrite, atChannel_of h ho hl]
  dsimp only
  rw [hnow]
  dsimp only
  rw [if_neg hgo]
  rfl

theorem addwRowWrite_row (n : Nat) (hop : o.op = 6) (hrun : o.state = .running) (hdone : o.done < 64) (hput : o.done ∈ o.put)
    (hnow : (s.core c.coreKey).ctxNow = some (k, n)) (hport : n % 4 = o.w.port.toNat) (hbeats : o.beats ≠ n + 1)
    (hclash : addwClash s c o = false) :
    ∃ t c', exec (.addwRowWrite k ch o.done) s = .next t ∧ (∀ a, t.memByte a = s.memByte a) ∧ t.ctx k = some c' ∧
      ChunkMoved ch c o (chunkOf s c o o.done).clipped (poisonedLines (chunkOf s c o o.done).data) c' ∧
      (c'.be.vflags = if addwSat s c o (chunkOf s c o o.done).data then c.be.vflags ||| flSATF.setWidth 64 else c.be.vflags) ∧
      (o.w.tile.toNat < winLimit c.id.winC →
        (∀ i, i < 4 → t.readLine c 2 o.w.tile.toNat (4 * o.done + i) = (addwRow s c o (chunkOf s c o o.done).data i).1) ∧
        t.status c o.w.tile.toNat = (s.status c o.w.tile.toNat / 2 * 2 + (if o.w.fmt = 5 then 1 else 0)) |||
          (if addwSat s c o (chunkOf s c o o.done).data then 2 else 0)) := by
  let o1 : CopyOp := { o with beats := n + 1, put := [] }
  have hexec := addwRowWrite_of h ho hl n hop hrun hput hnow hport hbeats
  rw [hclash, if_neg Bool.false_ne_true] at hexec
  obtain ⟨e, he, htouched, hvf, honly, hcores⟩ := addRow_spec (o := o) (d := (chunkOf s c o o.done).data) h
  have hready : ChunkReady ch c o (e.setOp o1) := by
    obtain ⟨_, _, _, _, _, rfl⟩ := htouched
    exact ⟨rfl, rfl, rfl, rfl, ⟨o1, Context.copyHead_setOp (o' := o1) ho rfl rfl, rfl, rfl⟩, filter_setOp c.fl.copyOps o1⟩
  obtain ⟨e', y, he', hend, hmoved, hvf', -⟩ := chunkDone_moved (k := k) (o1 := o1) (s.addRow k c o o.done (chunkOf s c o o.done).data) hready ho ⟨rfl, rfl, rfl, rfl, rfl⟩ hl.idx
    (chunkOf s c o o.done).clipped (poisonedLines (chunkOf s c o o.done).data) false
  rw [State.updCtx_of he] at hexec
  refine ⟨_, e', hexec, fun a => ?_, he', hmoved, hvf'.trans hvf, fun hin => ?_⟩
  · rw [hend]
    exact honly.keeps a
  · rw [hend]
    obtain ⟨hrows, hstatus⟩ := addwTile_lines (d := (chunkOf s c o o.done).data) h hdone hin
    refine ⟨fun i hi => .trans ?_ (hrows i hi), .trans ?_ hstatus⟩
    · exact congrFun (congrFun (congrFun (congrFun (State.readLine_of_cores hcores) c) 2) o.w.tile.toNat) (4 * o.done + i)
    · exact congrFun (congrFun (State.status_of_cores hcores) c) o.w.tile.toNat

/-- SCHEDV (R155): the operation suspends, the bundles that have not committed are cancelled, the fault is the operation's own. -/
theorem addwRowWrite_clash (n : Nat) (hop : o.op = 6) (hrun : o.state = .running) (hput : o.done ∈ o.put)
    (hnow : (s.core c.coreKey).ctxNow = some (k, n)) (hport : n % 4 = o.w.port.toNat) (hbeats : o.beats ≠ n + 1)
    (hclash : addwClash s c o = true) :
    ∃ t c', exec (.addwRowWrite k ch o.done) s = .next t ∧ t.ctx k = some c' ∧ c'.bundleTrap = true ∧ c'.beFrozen = true ∧
      c'.thread.bfcause = BitVec.ofNat 64 bSCHEDV ∧ c'.thread.bfpc = o.pc ∧ c'.thread.bfseq = o.seq.setWidth 64 ∧
      (c'.stat ch).state = 2 ∧ (c'.stat ch).cause = 2 ∧ (∀ a, t.memByte a = s.memByte a) := by
  have hexec := addwRowWrite_of h ho hl n hop hrun hput hnow hport hbeats
  rw [hclash, if_pos rfl] at hexec
  obtain ⟨-, -, hstate, hcause, -, -, -⟩ := Context.suspended_spec ho rfl rfl suspSchedv ⟨0, 0⟩
  have hsusp : s.suspendCopy k o suspSchedv ⟨0, 0⟩ = s.setCtx k (c.suspended o suspSchedv ⟨0, 0⟩) := by
    rw [State.suspendCopy_eq h, if_pos rfl]
  have hctx : (s.suspendCopy k o suspSchedv ⟨0, 0⟩).ctx k = some (c.suspended o suspSchedv ⟨0, 0⟩) := by
    rw [hsusp]
    exact State.ctx_setCtx_self _ _ _
  generalize c.suspended o suspSchedv ⟨0, 0⟩ = d at hstate hcause hsusp hctx
  have hcst : (d.cancelFrom d.committedBelow).be.cstat = d.be.cstat := Context.cancelFrom_cstat ..
  unfold State.schedv at hexec
  rw [State.updCtx_of hctx, hsusp] at hexec
  refine ⟨_, _, hexec, State.ctx_setCtx_self _ _ _, rfl, rfl, ?_, rfl, rfl, ?_, ?_, fun a => rfl⟩
  · exact congrArg (BitVec.ofNat 64) (by norm_num : bSCHEDV + 0 * 256 + 0 % 256 * 65536 = bSCHEDV)
  · show (SMap.getD (d.cancelFrom d.committedBelow).be.cstat ch CopyStat.start).state = 2
    rw [hcst]
    exact hstate
  · show (SMap.getD (d.cancelFrom d.committedBelow).be.cstat ch CopyStat.start).cause = 2
    rw [hcst]
    exact hcause

end addwRow

/-! ### A fragment at the receiver's die (R157, R158, R273) -/

theorem State.updCtx_land {u : State} {j : Nat} {d : Context} (h : u.ctx j = some d) (k : Nat) (f : Context → Context)
    (hf : ∀ c, (f c).land = c.land) : ∃ d', (u.updCtx k f).ctx j = some d' ∧ d'.land = d.land := by
  by_cases hj : j = k
  · subst hj
    rw [State.updCtx_of h]
    exact ⟨f d, State.ctx_setCtx_self _ _ _, hf d⟩
  · rw [State.ctx_updCtx_ne _ _ hj]
    exact ⟨d, h, rfl⟩

theorem State.updCtx_rest (s : State) (k : Nat) (f : Context → Context) : ∃ x, s.updCtx k f = { s with contexts := x } := by
  unfold State.updCtx
  split
  · exact ⟨_, rfl⟩
  · exact ⟨_, rfl⟩

theorem State.writeWindow_only (s : State) (k off : Nat) (b : List Byte) (bits : Nat) : OnlyTiles s (s.writeWindow k off b bits) := by
  rw [State.writeWindow_eq]
  generalize List.range ((b.length + 63) / 64) = l
  induction l generalizing s with
  | nil => exact .refl s
  | cons i l ih => exact .trans (.trans (State.writeLine_only 0 0 _ _ _ s k) (.updCtx ..)) (ih _)

section arrival
variable {s : State} {k ch : Nat} {c : Context} {o : CopyOp} (h : s.ctx k = some c) (ho : c.copyHead ch = some o) (hs : o.state = .sent)
include h ho hs

theorem fragmentArrival_apart (ha : s.apart c (dieOfCtx (o.fragment k c).dest) = true) : exec (.fragmentArrival k ch) s = .next s := by
  show execFragmentArrival k ch s = _
  unfold execFragmentArrival
  rw [h]
  dsimp only
  rw [ho]
  dsimp only
  rw [ha, Bool.or_true, if_pos rfl]

/-- The receiver's die answers, and the operation has its answer. -/
theorem fragmentArrival_of (ha : s.apart c (dieOfCtx (o.fragment k c).dest) = false) :
    exec (.fragmentArrival k ch) s = .next ((s.receive c.id.tenant (o.fragment k c)).1.updCtx k (fun d => d.setOp { o with
      state := .answered (s.receive c.id.tenant (o.fragment k c)).2.1 (s.receive c.id.tenant (o.fragment k c)).2.2 })) ∧
    ∃ c', ((s.receive c.id.tenant (o.fragment k c)).1.updCtx k (fun d => d.setOp { o with
      state := .answered (s.receive c.id.tenant (o.fragment k c)).2.1 (s.receive c.id.tenant (o.fragment k c)).2.2 })).ctx k = some c' ∧
      c'.copyHead ch = some { o with
        state := .answered (s.receive c.id.tenant (o.fragment k c)).2.1 (s.receive c.id.tenant (o.fragment k c)).2.2 } := by
  have hgo : (o.state != .sent || s.apart c (dieOfCtx (o.fragment k c).dest)) = false := by
    rw [hs, ha]
    rfl
  constructor
  · show execFragmentArrival k ch s = _
    unfold execFragmentArrival
    rw [h]
    dsimp only
    rw [ho]
    dsimp only
    rw [hgo]
    rfl
  · have hfl : (s.receive c.id.tenant (o.fragment k c)).1.flightOf k = some c.fl := by
      rw [State.flightOf_receive, State.flightOf_of h]
    obtain ⟨d, hd, hops⟩ := Option.map_eq_some_iff.mp hfl
    rw [State.updCtx_of hd]
    refine ⟨_, State.ctx_setCtx_self _ _ _, Context.copyHead_setOp (o := o) ?_ rfl rfl⟩
    unfold Context.copyHead
    rw [hops]
    exact ho

end arrival

/-- The operation with the receiver's answer. -/
def State.answerFragment (u : State) (k : Nat) (o : CopyOp) (acc retry : Bool) : State :=
  u.updCtx k (fun d => d.setOp { o with state := .answered acc retry })

theorem fragmentArrival_received {s : State} {k ch : Nat} {c : Context} {o : CopyOp} (h : s.ctx k = some c) (ho : c.copyHead ch = some o)
    (hs : o.state = .sent) (ha : s.apart c (dieOfCtx (o.fragment k c).dest) = false) {u : State} {acc retry : Bool}
    (hrec : s.receive c.id.tenant (o.fragment k c) = (u, acc, retry)) :
    exec (.fragmentArrival k ch) s = .next (u.answerFragment k o acc retry) ∧
    (∃ c', (u.answerFragment k o acc retry).ctx k = some c' ∧ c'.copyHead ch = some { o with state := .answered acc retry }) ∧
    ∃ y, u.answerFragment k o acc retry = { u with contexts := y } := by
  obtain ⟨hexec, hhead⟩ := fragmentArrival_of h ho hs ha
  rw [hrec] at hexec hhead
  exact ⟨hexec, hhead, u.updCtx_rest k _⟩

section receive
variable {s : State} {tenant : BitVec 16} {f : Fragment}

theorem State.receive_unreachable {why : Nat} (h : s.reachable f.dest tenant = some why) : s.receive tenant f = (s, false, false) := by
  unfold State.receive
  rw [h]

variable {d : Context} (hreach : s.reachable f.dest tenant = none) (hd : s.ctx f.dest = some d)
include hreach hd

/-- The credit that a fragment with a barrier brings. -/
def Fragment.credit (f : Fragment) : List Credit :=
  match f.barrier with
  | some l => [{ loc := l, bytes := f.data.length, poison := decide (f.poisonBits ≠ 0) }]
  | none => []

/-- The bytes that a fragment brings into the window. -/
def Fragment.bytes (f : Fragment) : List Byte := if f.countOnly then List.replicate f.data.length 0 else f.data.map (·.1)

theorem State.receive_direct (hdir : (d.takesDirectly && !s.onRetired d) = true) :
    s.receive tenant f = (((s.writeWindow f.dest f.off f.bytes f.poisonBits).addCredits f.credit).arrival d.die tenant f.gang true, true, false) := by
  have hcred (u : State) : (match f.barrier with
      | some l => u.addCredits [({ loc := l, bytes := f.data.length, poison := decide (f.poisonBits ≠ 0) } : Credit)]
      | none => u) = u.addCredits f.credit := by
    unfold Fragment.credit
    cases f.barrier with
    | none => exact congrArg (fun x => ({ u with credits := x } : State)) (List.append_nil _).symm
    | some l => rfl
  unfold State.receive
  rw [hreach, hd]
  dsimp only
  rw [if_pos hdir]
  exact congrArg (fun u => (State.arrival u d.die tenant f.gang true, true, false)) (hcred _)

theorem State.receive_full (hdir : (d.takesDirectly && !s.onRetired d) = false) (hfull : d.land.isFull (s.landDesc f.dest) = true) :
    s.receive tenant f = ((s.setCtx f.dest { d with land := { d.land with refusedSince := d.land.refusedSince || d.status != .resident } }).arrival
      d.die tenant f.gang false, false, true) := by
  unfold State.receive
  rw [hreach, hd]
  dsimp only
  rw [hdir, if_neg Bool.false_ne_true, if_pos hfull]

theorem State.receive_append (hdir : (d.takesDirectly && !s.onRetired d) = false) (hfull : d.land.isFull (s.landDesc f.dest) = false) :
    s.receive tenant f = ((s.appendLanding f.dest d f).arrival d.die tenant f.gang true, true, false) := by
  unfold State.receive
  rw [hreach, hd]
  dsimp only
  rw [hdir, if_neg Bool.false_ne_true, hfull, if_neg Bool.false_ne_true]

end receive

/-- Bytes written in pieces of 64, one after another. -/
theorem foldl_writePieces (pkg at_ : Nat) (b : List Byte) (p : Nat → Bool) (n : Nat) (s : State) (hw : s.MemWf) :
    ((List.range n).foldl (fun s i => s.homeWriteBytes pkg (at_ + 64 * i) ((b.drop (64 * i)).take 64) (p i) false) s).MemWf ∧
    ∀ a, ((List.range n).foldl (fun s i => s.homeWriteBytes pkg (at_ + 64 * i) ((b.drop (64 * i)).take 64) (p i) false) s).memByte a =
      if memKey pkg at_ ≤ a ∧ a < memKey pkg at_ + min b.length (64 * n) then b.getD (a - memKey pkg at_) 0 else s.memByte a := by
  induction n with
  | zero => exact ⟨hw, fun a => (if_neg (by omega)).symm⟩
  | succ n ih =>
    obtain ⟨hwf, hread⟩ := ih
    rw [List.range_succ, List.foldl_append]
    generalize (List.range n).foldl (fun s i => s.homeWriteBytes pkg (at_ + 64 * i) ((b.drop (64 * i)).take 64) (p i) false) s = u at hwf hread
    refine ⟨State.homeWriteBytes_memWf _ _ _ _ _ hwf, fun a => ?_⟩
    rw [List.foldl_cons, List.foldl_nil, State.homeWriteBytes_read _ _ _ _ _ _ hwf, hread]
    have hkey : memKey pkg (at_ + 64 * n) = memKey pkg at_ + 64 * n := by unfold memKey; omega
    rw [hkey]
    generalize memKey pkg at_ = base
    have hlen : ((b.drop (64 * n)).take 64).length = min 64 (b.length - 64 * n) := by simp
    rw [hlen]
    by_cases hin : base + 64 * n ≤ a ∧ a < base + 64 * n + min 64 (b.length - 64 * n)
    · rw [if_pos hin, if_pos (by omega)]
      obtain ⟨hlo, hhi⟩ := hin
      have hlt : a - (base + 64 * n) < 64 := by omega
      have hidx : 64 * n + (a - (base + 64 * n)) = a - base := by omega
      rw [List.getD, List.getElem?_take, if_pos hlt, List.getElem?_drop, hidx]
      rfl
    · rw [if_neg hin]
      by_cases hold : base ≤ a ∧ a < base + min b.length (64 * n)
      · rw [if_pos hold, if_pos (by omega)]
      · rw [if_neg hold, if_neg (by omega)]

theorem foldl_homeWriteBytes_rest {α : Type} (pkg : Nat) (pa : α → Nat) (b : α → List Byte) (p : α → Bool) (l : List α) : ∀ s : State,
    (∀ j, (l.foldl (fun s i => s.homeWriteBytes pkg (pa i) (b i) (p i) false) s).ctx j = s.ctx j) ∧
    (l.foldl (fun s i => s.homeWriteBytes pkg (pa i) (b i) (p i) false) s).credits = s.credits ∧
    ∀ j, ∃ w, (l.foldl (fun s i => s.homeWriteBytes pkg (pa i) (b i) (p i) false) s).die j = { s.die j with waiters := w } := by
  induction l with
  | nil => exact fun s => ⟨fun j => rfl, rfl, fun j => ⟨_, rfl⟩⟩
  | cons i l ih =>
    intro s
    obtain ⟨hctx, hcred, hdie⟩ := ih (s.homeWriteBytes pkg (pa i) (b i) (p i) false)
    refine ⟨fun j => (hctx j).trans (s.homeWriteBytes_ctx ..), hcred.trans ?_, fun j => ?_⟩
    · obtain ⟨x, y, z, hw⟩ := s.homeWriteBytes_only pkg (pa i) (b i) (p i) false
      rw [hw]
    · obtain ⟨w, hw⟩ := hdie j
      obtain ⟨w', hw'⟩ := s.homeWriteBytes_die pkg (pa i) (b i) (p i) false j
      exact ⟨w, hw.trans (by rw [hw'])⟩

/-- Two pieces of memory, one behind the other, read as one. -/
theorem read_append (base a : Nat) (x y : List Byte) (v : Byte) :
    (if base + x.length ≤ a ∧ a < base + x.length + y.length then y.getD (a - (base + x.length)) 0
      else if base ≤ a ∧ a < base + x.length then x.getD (a - base) 0 else v) =
    if base ≤ a ∧ a < base + (x ++ y).length then (x ++ y).getD (a - base) 0 else v := by
  rw [List.length_append]
  by_cases hhigh : base + x.length ≤ a ∧ a < base + x.length + y.length
  · rw [if_pos hhigh, if_pos (by omega), List.getD, List.getD, List.getElem?_append_right (by omega), Nat.sub_sub]
  · rw [if_neg hhigh]
    by_cases hlow : base ≤ a ∧ a < base + x.length
    · rw [if_pos hlow, if_pos (by omega), List.getD, List.getD, List.getElem?_append_left (by omega)]
    · rw [if_neg hlow, if_neg (by omega)]

/-- The header of a ring entry, then the fragment's bytes (R273). -/
def ringHead (s : State) (d : Context) (f : Fragment) : List Byte :=
  f.header ++ leBytes 8 (s.die d.die).landSeq.toNat ++ leBytes 4 ((s.die d.die).dieCycle.toNat % 2 ^ 32) ++ leBytes 20 0

theorem ringHead_length (s : State) (d : Context) (f : Fragment) : (ringHead s d f).length = 64 := by
  simp only [ringHead, Fragment.header, List.length_append, leBytes_length]

/-- The pieces of the fragment behind the header. -/
def State.ringPieces (s : State) (d : Context) (f : Fragment) (at_ : Nat) : State :=
  if f.countOnly then s else (List.range ((f.data.length + 63) / 64)).foldl (fun s i =>
    s.homeWriteBytes d.pkg (at_ + 64 + 64 * i) (((f.data.map (·.1)).drop (64 * i)).take 64) (((f.data.drop (64 * i)).take 64).any (·.2)) false) s

theorem State.appendLanding_eq (s : State) (k : Nat) (d : Context) (f : Fragment) :
    s.appendLanding k d f = ((((s.homeWriteBytes d.pkg (ringEntryPa (s.landDesc k) d.land.tail) (ringHead s d f) false false).ringPieces d f
      (ringEntryPa (s.landDesc k) d.land.tail)).updDie d.die (fun x => { x with landSeq := x.landSeq + 1 })).updCtx k
        (fun c => { c with land := { c.land with tail := c.land.tail + 1 } })) := by
  unfold State.appendLanding State.ringPieces
  simp only [List.map_drop, List.map_take]
  rfl

theorem State.appendLanding_spec {s : State} {k : Nat} {d : Context} (h : s.ctx k = some d) (hw : s.MemWf) (f : Fragment) :
    (∃ d', (s.appendLanding k d f).ctx k = some d' ∧ d'.land = { d.land with tail := d.land.tail + 1 }) ∧
    (s.appendLanding k d f).credits = s.credits ∧
    (∃ w, (s.appendLanding k d f).die d.die = { s.die d.die with waiters := w, landSeq := (s.die d.die).landSeq + 1 }) ∧
    let at_ := memKey d.pkg (ringEntryPa (s.landDesc k) d.land.tail)
    let b := ringHead s d f ++ (if f.countOnly then [] else f.data.map (·.1))
    ∀ a, (s.appendLanding k d f).memByte a = if at_ ≤ a ∧ a < at_ + b.length then b.getD (a - at_) 0 else s.memByte a := by
  rw [State.appendLanding_eq]
  generalize ringEntryPa (s.landDesc k) d.land.tail = pa
  have hhead := s.homeWriteBytes_read d.pkg pa (ringHead s d f) false false hw
  have hwf := State.homeWriteBytes_memWf d.pkg pa (ringHead s d f) false false hw
  obtain ⟨w, hdie⟩ := s.homeWriteBytes_die d.pkg pa (ringHead s d f) false false d.die
  have hctx := s.homeWriteBytes_ctx d.pkg pa (ringHead s d f) false false k
  have hcred : (s.homeWriteBytes d.pkg pa (ringHead s d f) false false).credits = s.credits := by
    obtain ⟨x, y, z, hw⟩ := s.homeWriteBytes_only d.pkg pa (ringHead s d f) false false
    rw [hw]
  generalize s.homeWriteBytes d.pkg pa (ringHead s d f) false false = u at hhead hwf hdie hctx hcred
  obtain ⟨hctx', hcred', hdie'⟩ : (u.ringPieces d f pa).ctx k = u.ctx k ∧ (u.ringPieces d f pa).credits = u.credits ∧
      ∃ w, (u.ringPieces d f pa).die d.die = { u.die d.die with waiters := w } := by
    unfold State.ringPieces
    split
    · exact ⟨rfl, rfl, _, rfl⟩
    · obtain ⟨hc, hcr, hd⟩ := foldl_homeWriteBytes_rest d.pkg (fun i => pa + 64 + 64 * i) (fun i => ((f.data.map (·.1)).drop (64 * i)).take 64)
        (fun i => ((f.data.drop (64 * i)).take 64).any (·.2)) (List.range ((f.data.length + 63) / 64)) u
      exact ⟨hc k, hcr, hd d.die⟩
  have hbytes (a : Nat) : (u.ringPieces d f pa).memByte a = if memKey d.pkg pa + 64 ≤ a ∧ a < memKey d.pkg pa + 64 +
      (if f.countOnly then ([] : List Byte) else f.data.map (·.1)).length then
        (if f.countOnly then ([] : List Byte) else f.data.map (·.1)).getD (a - (memKey d.pkg pa + 64)) 0 else u.memByte a := by
    have hkey : memKey d.pkg (pa + 64) = memKey d.pkg pa + 64 := by unfold memKey; omega
    unfold State.ringPieces
    split
    · exact (if_neg (by simp)).symm
    · have hread := (foldl_writePieces d.pkg (pa + 64) (f.data.map (·.1)) (fun i => ((f.data.drop (64 * i)).take 64).any (·.2))
        ((f.data.length + 63) / 64) u hwf).2 a
      rw [hkey, List.length_map, Nat.min_eq_left (by omega)] at hread
      rw [List.length_map]
      exact hread
  have hmem (a : Nat) : (((u.ringPieces d f pa).updDie d.die (fun x => { x with landSeq := x.landSeq + 1 })).updCtx k
      (fun c => { c with land := { c.land with tail := c.land.tail + 1 } })).memByte a = (u.ringPieces d f pa).memByte a :=
    congrArg (fun m => Memory.read m a) (State.updCtx_mem ..)
  obtain ⟨x, hx⟩ := ((u.ringPieces d f pa).updDie d.die (fun x => { x with landSeq := x.landSeq + 1 })).updCtx_rest k
    (fun c => { c with land := { c.land with tail := c.land.tail + 1 } })
  refine ⟨⟨{ d with land := { d.land with tail := d.land.tail + 1 } }, ?_, rfl⟩, ?_, ?_, ?_⟩
  · have hk : ((u.ringPieces d f pa).updDie d.die (fun x => { x with landSeq := x.landSeq + 1 })).ctx k = some d :=
      (show _ = (u.ringPieces d f pa).ctx k from rfl).trans (hctx'.trans (hctx.trans h))
    rw [State.updCtx_of hk, State.ctx_setCtx_self]
  · rw [hx]
    exact hcred'.trans hcred
  · obtain ⟨w', hd⟩ := hdie'
    refine ⟨w', ?_⟩
    rw [hx]
    have hself := State.die_updDie_self (u.ringPieces d f pa) d.die (fun x => { x with landSeq := x.landSeq + 1 })
    rw [hd, hdie] at hself
    exact hself
  · intro at_ b a
    have happ := read_append (memKey d.pkg pa) a (ringHead s d f) (if f.countOnly then [] else f.data.map (·.1)) (s.memByte a)
    rw [ringHead_length] at happ
    rw [hmem, hbytes, hhead, ringHead_length]
    exact happ

/-! ### The answer to a fragment (R158) -/

section response
variable {s : State} {k ch : Nat} {c : Context} {o : CopyOp} (h : s.ctx k = some c) (ho : c.copyHead ch = some o) (hl : ChannelLive s c o)
include h ho hl

theorem fragmentResponse_accepted (b : Bool) (hs : o.state = .answered true b) :
    ∃ t c', exec (.fragmentResponse k ch) s = .next t ∧ (∀ a, t.memByte a = s.memByte a) ∧ t.ctx k = some c' ∧
      ChunkMoved ch c o ((List.range o.sent.length).filter (fun i => decide (i % nestElemSize o.nest = 0) && o.rputClip o.done i)).length
        (poisonedLines o.sent) c' := by
  have hready : ChunkReady ch c o c := ⟨rfl, rfl, rfl, rfl, ⟨o, ho, rfl, rfl⟩, rfl⟩
  obtain ⟨e, y, he, hend, hmoved, -, -⟩ := chunkDone_moved (k := k) s hready ho ⟨rfl, rfl, rfl, rfl, rfl⟩ hl.idx
    ((List.range o.sent.length).filter (fun i => decide (i % nestElemSize o.nest = 0) && o.rputClip o.done i)).length (poisonedLines o.sent) false
  refine ⟨_, e, ?_, fun a => ?_, he, hmoved⟩
  · show execFragmentResponse k ch s = _
    rw [execFragmentResponse, atChannel_of h ho hl]
    dsimp only
    rw [hs]
  · rw [hend]
    rfl

theorem fragmentResponse_retry (hs : o.state = .answered false true) : ∃ t c', exec (.fragmentResponse k ch) s = .next t ∧ t.ctx k = some c' ∧
    c'.copyHead ch = some { o with
      retries := o.retries + 1
      state := .backoff (o.retries + 1) ((s.core c.coreKey).cycle.toNat + 256 * 2 ^ min (o.retries + 1) 8) } ∧ (c'.stat ch).state = 3 ∧
    (c'.stat ch).retryTotal = satAdd64 (c.stat ch).retryTotal 1 ∧ c'.thread = c.thread ∧ ∀ a, t.memByte a = s.memByte a := by
  let o1 : CopyOp := { o with
    retries := o.retries + 1
    state := .backoff (o.retries + 1) ((s.core c.coreKey).cycle.toNat + 256 * 2 ^ min (o.retries + 1) 8) }
  have hstat := (c.setOp o1).stat_updStat ch (fun r => { r with
    state := 3, retries := BitVec.ofNat 32 (o.retries + 1), retryTotal := satAdd64 r.retryTotal 1 })
  refine ⟨_, (c.setOp o1).updStat ch fun r => { r with state := 3, retries := BitVec.ofNat 32 (o.retries + 1), retryTotal := satAdd64 r.retryTotal 1 },
    ?_, State.ctx_setCtx_self s k _, Context.copyHead_setOp (o' := o1) ho rfl rfl, by rw [hstat], by rw [hstat]; rfl, rfl, fun a => rfl⟩
  show execFragmentResponse k ch s = _
  rw [execFragmentResponse, atChannel_of h ho hl]
  dsimp only
  rw [hs]

theorem fragmentResponse_rejected (hs : o.state = .answered false false) :
    ∃ t c', exec (.fragmentResponse k ch) s = .next t ∧ t.ctx k = some c' ∧ Suspended ch c o 3 0 (c.stat ch).addr c' ∧
      c'.thread = c.thread.pend 15 := by
  obtain ⟨c', hc', hsusp, hthread⟩ := suspendCopy_declined (cause := suspRputdst) (x := ⟨0, 0⟩) h ho rfl rfl (by decide) (by decide)
  refine ⟨_, c', ?_, hc', hsusp, hthread⟩
  show execFragmentResponse k ch s = _
  rw [execFragmentResponse, atChannel_of h ho hl]
  dsimp only
  rw [hs]

theorem rputBackoffExpiry_of (n u : Nat) (hs : o.state = .backoff n u) (hu : u ≤ (s.core c.coreKey).cycle.toNat) :
    ∃ t c', exec (.rputBackoffExpiry k ch) s = .next t ∧ t.ctx k = some c' ∧ c'.copyHead ch = some { o with state := .sent } ∧
      (c'.stat ch).state = 1 ∧ c'.thread = c.thread ∧ ∀ a, t.memByte a = s.memByte a := by
  have hstat := (c.setOp { o with state := .sent }).stat_updStat ch (fun r => { r with state := 1 })
  refine ⟨_, (c.setOp { o with state := .sent }).updStat ch fun r => { r with state := 1 }, ?_, State.ctx_setCtx_self s k _,
    Context.copyHead_setOp ho rfl rfl, by rw [hstat], rfl, fun a => rfl⟩
  show execRputBackoffExpiry k ch s = _
  rw [execRputBackoffExpiry, atChannel_of h ho hl]
  split
  · next hs' =>
    cases hs.symm.trans hs'
    rw [if_pos hu]
  · next hno => exact absurd hs (hno n u)

end response

/-- Settles O52: each step of a channel is one equation for the head of its list; a tile's lines, the lines at their homes, the record's
counts, the suspended operation and the receiver's answer each have their lemma. -/
theorem copyResults : Obligations.CopyResults := by
  unfold Obligations.CopyResults
  refine ⟨fun s k ch c o h ho => ?_, addwLine_lane, fun s k c off bits b h hoff => writeWindow_spec h hoff,
    fun s c va n l h hva hpa hpast => fillRead_inLine h hva hpa hpast⟩
  intro r live early runs served g x tile keeps moved suspended written
  have hlive : live → ChannelLive s c o := fun ⟨hf, hr, hp, hi⟩ => ⟨hf, hr, hp, hi⟩
  refine ⟨fun hl hcom hq hph hf => copyOpBegin_begins h ho (hlive hl) hcom hq hph hf, ?_, ?_, ?_, ⟨?_, ?_⟩, ?_, ?_, ?_, ?_, ?_, ?_, ?_, ?_, ?_, ?_⟩
  · rintro ⟨⟨hl, hrun, hloads⟩, h3, h4⟩ hserved
    rw [copyChunk_of h ho (hlive hl) hrun hloads h3 h4, if_pos]
    by_contra hno
    refine hserved ?_
    simpa using hno
  · rintro ⟨⟨hl, hrun, hloads⟩, h3, h4⟩ hserved hop hg
    obtain ⟨t, c', hexec, hkeep, hctx, hm, hlines, hout⟩ := copyChunk_fill h ho (hlive hl) hrun hloads h3 h4 hserved hop hg
    exact ⟨t, c', hexec, hkeep, ⟨hctx, hm⟩, hlines, hout⟩
  · rintro lines ⟨⟨hl, hrun, hloads⟩, h3, h4⟩ hserved hop hw hlines hpa
    have hx : x = chunkOf s c o o.done := by
      show chunkOf s c (CopyOp.gather s c o o.done).1 o.done = _
      rw [CopyOp.gather_of_noReads s c o o.done (.inl hop)]
    rw [hx] at hlines ⊢
    obtain ⟨t, c', hexec, hctx, hm, hwritten⟩ := copyChunk_drain h ho (hlive hl) hrun hloads hop hserved hw hlines hpa
    exact ⟨t, c', hexec, ⟨hctx, hm⟩, hwritten⟩
  · intro n va len key he hop hat hkey hnew hgot hf
    exact copyChunk_readAhead h ho (hlive he.1) he.2.1 he.2.2 n va len key hop hat hkey hnew hgot hf
  · intro m j e he hop hw hdone hm hj hget hpa hput
    exact copyChunk_writeAhead h ho (hlive he.1) he.2.1 he.2.2 m j e hop hw hdone hm hj hget hpa hput
  · rintro ⟨⟨hl, hrun, hloads⟩, h3, h4⟩ hserved hop hg
    exact copyChunk_addw h ho (hlive hl) hrun hloads h3 h4 hserved hop hg
  · rintro b ⟨⟨hl, hrun, hloads⟩, h3, h4⟩ hserved hop hb
    have hx : x = chunkOf s c o o.done := by
      show chunkOf s c (CopyOp.gather s c o o.done).1 o.done = _
      rw [CopyOp.gather_of_noReads s c o o.done (.inr hop)]
    rw [hx]
    exact copyChunk_rput h ho (hlive hl) hrun hloads h3 h4 hserved hop b hb
  · rintro f ⟨⟨hl, hrun, hloads⟩, h3, h4⟩ hserved hf
    obtain ⟨got, remote, hexec⟩ := copyChunk_fault h ho (hlive hl) hrun hloads h3 h4 hserved hf
    have hctx : (s.serveList c ch).ctx k = some c := h
    refine ⟨_, hexec, ?_, fun hnp => ?_, fun hnp => ?_⟩
    · cases hnp : isNotPres f.sub with
      | true =>
        obtain ⟨⟨c', hc', hsus⟩, -⟩ := suspendCopy_notPres (o := { o with got := got, remote := remote }) hctx ho rfl rfl hnp
        exact ⟨c', _, hc', hsus.head, rfl, rfl, rfl, rfl, rfl, hsus.preempt, hsus.state, hsus.cause, hsus.sub, hsus.addr, hsus.pc⟩
      | false =>
        obtain ⟨c', hc', hsus, -⟩ := suspendCopy_declined (o := { o with got := got, remote := remote }) (cause := suspXlate) hctx ho rfl rfl
          (by decide) (fun hx => by rw [hnp] at hx; exact Bool.false_ne_true hx.2)
        exact ⟨c', _, hc', hsus.head, rfl, rfl, rfl, rfl, rfl, hsus.preempt, hsus.state, hsus.cause, hsus.sub, hsus.addr, hsus.pc⟩
    · exact (suspendCopy_notPres (o := { o with got := got, remote := remote }) hctx ho rfl rfl hnp).2
    · obtain ⟨c', hc', -, hthread⟩ := suspendCopy_declined (o := { o with got := got, remote := remote }) (cause := suspXlate) hctx ho rfl rfl
        (by decide) (fun hx => by rw [hnp] at hx; exact Bool.false_ne_true hx.2)
      exact ⟨c', hc', hthread⟩
  · intro hl hrun hop hroom hturn hmoved hlanded
    exact feedBeatLand_of h ho (hlive hl) hrun hop hroom hturn hmoved hlanded
  · intro n hl hop hrun hdone hput hnow hport hbeats bank row line clash sat
    refine ⟨fun hclash => ?_, fun hclash => addwRowWrite_clash h ho (hlive hl) n hop hrun hput hnow hport hbeats hclash⟩
    obtain ⟨t, c', hexec, hkeep, hctx, hm, hvf, hin⟩ := addwRowWrite_row h ho (hlive hl) n hop hrun hdone hput hnow hport hbeats hclash
    exact ⟨t, c', hexec, hkeep, ⟨hctx, hm⟩, hvf, hin⟩
  · intro hs f answer
    refine ⟨fun ha => fragmentArrival_apart h ho hs ha, fun ha => ?_⟩
    constructor
    · intro why hwhy
      obtain ⟨hexec, hhead, y, hy⟩ := fragmentArrival_received h ho hs ha (State.receive_unreachable hwhy)
      exact ⟨_, ⟨hexec, hhead⟩, fun a => by rw [hy]; rfl, by rw [hy]⟩
    intro d hreach hd w direct
    refine ⟨fun hdir => ?_, fun hdir hfull => ?_, fun hdir hfull hw => ?_⟩
    · obtain ⟨hexec, hhead, y, hy⟩ := fragmentArrival_received h ho hs ha (State.receive_direct hreach hd hdir)
      obtain ⟨x, z, honly⟩ := s.writeWindow_only f.dest f.off f.bytes f.poisonBits
      have harr := State.die_updDie_self ((s.writeWindow f.dest f.off f.bytes f.poisonBits).addCredits f.credit) d.die
        (fun x => { x with arrivals := x.arrivals ++ [(c.id.tenant, f.gang, true)] })
      refine ⟨_, ⟨hexec, hhead⟩, fun a => ?_, ?_, ?_, ?_⟩
      · rw [hy]
        exact (OnlyTiles.keeps ⟨x, z, honly⟩ a)
      · rw [hy]
        rfl
      · rw [hy]
        refine (congrArg Die.arrivals harr).trans ?_
        rw [honly]
        rfl
      · rw [hy]
        show (s.writeWindow f.dest f.off f.bytes f.poisonBits).credits ++ f.credit = _
        rw [honly]
        rfl
    · obtain ⟨hexec, hhead, y, hy⟩ := fragmentArrival_received h ho hs ha (State.receive_full hreach hd hdir hfull)
      obtain ⟨d', hd', hland⟩ := State.updCtx_land (u := (s.setCtx f.dest { d with land := { d.land with
        refusedSince := d.land.refusedSince || d.status != .resident } }).arrival d.die c.id.tenant f.gang false)
        (State.ctx_setCtx_self s f.dest _) k (fun d => d.setOp { o with state := .answered false true }) (fun _ => rfl)
      have harr := State.die_updDie_self (s.setCtx f.dest { d with land := { d.land with
        refusedSince := d.land.refusedSince || d.status != .resident } }) d.die
        (fun x => { x with arrivals := x.arrivals ++ [(c.id.tenant, f.gang, false)] })
      exact ⟨_, d', ⟨hexec, hhead⟩, fun a => by rw [hy]; rfl, by rw [hy]; rfl, by rw [hy]; exact congrArg Die.arrivals harr, hd', by rw [hland]⟩
    · obtain ⟨hexec, hhead, y, hy⟩ := fragmentArrival_received h ho hs ha (State.receive_append hreach hd hdir hfull)
      obtain ⟨⟨e, he, hring⟩, hcred, ⟨ws, hdie⟩, hbytes⟩ := State.appendLanding_spec hd hw f
      obtain ⟨d', hd', hland⟩ := State.updCtx_land (u := (s.appendLanding f.dest d f).arrival d.die c.id.tenant f.gang true) he k
        (fun d => d.setOp { o with state := .answered true false }) (fun _ => rfl)
      have harr := State.die_updDie_self (s.appendLanding f.dest d f) d.die
        (fun x => { x with arrivals := x.arrivals ++ [(c.id.tenant, f.gang, true)] })
      rw [hdie] at harr
      refine ⟨_, d', ⟨hexec, hhead⟩, by rw [hy]; exact hcred, by rw [hy]; exact congrArg Die.arrivals harr, hd', by rw [hland, hring],
        by rw [hland, hring], by rw [hy]; exact congrArg Die.landSeq harr, ?_⟩
      intro at_ b a
      rw [hy]
      exact hbytes a
  · intro b hl hs
    obtain ⟨t, c', hexec, hkeep, hctx, hm⟩ := fragmentResponse_accepted h ho (hlive hl) b hs
    exact ⟨t, c', hexec, hkeep, hctx, hm⟩
  · exact fun hl hs => fragmentResponse_retry h ho (hlive hl) hs
  · intro hl hs
    obtain ⟨t, c', hexec, hctx, hsus, hthread⟩ := fragmentResponse_rejected h ho (hlive hl) hs
    exact ⟨t, c', hexec, ⟨c', _, hctx, hsus.head, rfl, rfl, rfl, rfl, rfl, hsus.preempt, hsus.state, hsus.cause, hsus.sub, hsus.addr, hsus.pc⟩,
      hctx, hthread⟩
  · exact fun n u hl hs hu => rputBackoffExpiry_of h ho (hlive hl) n u hs hu

end Sys2Proof.Machine
end

section
/-! PROOFS. The sync engines (O53; R41, R43-R45, R235-R258). -/

namespace Sys2Proof.Machine

/-! ### Bytes written at their home and read there -/

theorem State.homeWriteBytes_homeBytes {s : State} (pkg pa : Nat) (b : List Byte) (p g : Bool) (hw : s.MemWf) (off n : Nat) (hn : off + n ≤ b.length) :
    (s.homeWriteBytes pkg pa b p g).homeBytes pkg (pa + off) n = (b.drop off).take n := by
  have hlen : ((b.drop off).take n).length = n := by
    rw [List.length_take, List.length_drop]
    omega
  have hkey : memKey pkg (pa + off) = memKey pkg pa + off := by unfold memKey; omega
  have hread := Memory.readBytes_eq (s.homeWriteBytes pkg pa b p g).mem (memKey pkg (pa + off)) ((b.drop off).take n) fun i hi => by
    rw [hlen] at hi
    have hsub : memKey pkg pa + off + i - memKey pkg pa = off + i := by omega
    refine (s.homeWriteBytes_read pkg pa b p g hw (memKey pkg (pa + off) + i)).trans ?_
    rw [hkey, if_pos (by omega), hsub, List.getD, List.getD, List.getElem?_take, if_pos hi, List.getElem?_drop]
  rw [hlen] at hread
  exact hread

/-! ### Barriers (R245-R249) -/

/-- Every field of a barrier has the width that its record gives it. -/
structure Barrier.Fits (b : Barrier) : Prop where
  expected : b.expected < 2 ^ 32
  arrived : b.arrived < 2 ^ 32
  phase : b.phase < 2 ^ 32
  flags : b.flags < 2 ^ 16
  drops : b.drops < 2 ^ 16
  target : b.target < 2 ^ 64
  bytes : b.bytes < 2 ^ 64

theorem State.leNat_homeBytes_lt (s : State) (pkg pa n : Nat) : leNat (s.homeBytes pkg pa n) < 256 ^ n := by
  have h := leNat_lt (s.homeBytes pkg pa n)
  rwa [show (s.homeBytes pkg pa n).length = n from Memory.readBytes_length ..] at h

theorem State.barrier_fits (s : State) (l : Loc) : (s.barrier l).Fits := by
  constructor
  · exact s.leNat_homeBytes_lt _ _ 4
  · exact s.leNat_homeBytes_lt _ _ 4
  · exact s.leNat_homeBytes_lt _ _ 4
  · exact s.leNat_homeBytes_lt _ _ 2
  · exact s.leNat_homeBytes_lt _ _ 2
  · exact s.leNat_homeBytes_lt _ _ 8
  · exact s.leNat_homeBytes_lt _ _ 8

theorem Barrier.record_length (b : Barrier) : b.record.length = 32 := by
  simp only [Barrier.record, List.length_append, leBytes_length]

theorem leNat_leBytes_of_lt {n v : Nat} (h : v < 256 ^ n) : leNat (leBytes n v) = v := by
  rw [leNat_leBytes, Nat.mod_eq_of_lt h]

/-- A barrier written at its home is read there. -/
theorem State.putBarrier_barrier {s : State} (l : Loc) (b : Barrier) (p : Bool) (hw : s.MemWf) (hb : b.Fits) : (s.putBarrier l b p).barrier l = b := by
  have hread (off n : Nat) (hn : off + n ≤ 32) : (s.putBarrier l b p).homeBytes l.pkg (l.pa + off) n = (b.record.drop off).take n :=
    State.homeWriteBytes_homeBytes l.pkg l.pa b.record p false hw off n (by rw [b.record_length]; exact hn)
  obtain ⟨he, ha, hp, hf, hd, ht, hby⟩ := hb
  unfold State.barrier
  dsimp only
  rw [hread 0 4 (by omega), hread 4 4 (by omega), hread 8 4 (by omega), hread 12 2 (by omega), hread 14 2 (by omega), hread 16 8 (by omega),
    hread 24 8 (by omega)]
  show Barrier.mk (leNat (leBytes 4 b.expected)) (leNat (leBytes 4 b.arrived)) (leNat (leBytes 4 b.phase)) (leNat (leBytes 2 b.flags))
    (leNat (leBytes 2 b.drops)) (leNat (leBytes 8 b.target)) (leNat (leBytes 8 b.bytes)) = b
  rw [leNat_leBytes_of_lt he, leNat_leBytes_of_lt ha, leNat_leBytes_of_lt hp, leNat_leBytes_of_lt hf, leNat_leBytes_of_lt hd,
    leNat_leBytes_of_lt ht, leNat_leBytes_of_lt hby]

theorem Barrier.Fits.tryComplete {b : Barrier} (h : b.Fits) : b.tryComplete.Fits := by
  obtain ⟨he, ha, hp, hf, hd, ht, hby⟩ := h
  unfold Barrier.tryComplete
  split
  · constructor
    · dsimp only; omega
    · exact Nat.two_pow_pos 32
    · exact Nat.mod_lt _ (by decide)
    · dsimp only; split <;> omega
    · exact Nat.two_pow_pos 16
    · exact ht
    · dsimp only; omega
  · exact ⟨he, ha, hp, hf, hd, ht, hby⟩

theorem Barrier.Fits.arrive {b : Barrier} (h : b.Fits) (drop : Bool) : (b.arrive drop).Fits := by
  obtain ⟨he, ha, hp, hf, hd, ht, hby⟩ := h
  refine Barrier.Fits.tryComplete ⟨he, ?_, hp, hf, ?_, ht, hby⟩
  · dsimp only; omega
  · dsimp only; split <;> omega

theorem Barrier.Fits.credit {b : Barrier} (h : b.Fits) (n : Nat) (p : Bool) : (b.credit n p).Fits := by
  obtain ⟨he, ha, hp, hf, hd, ht, hby⟩ := h
  refine Barrier.Fits.tryComplete ⟨he, ha, hp, ?_, hd, ht, ?_⟩
  · dsimp only
    split
    · exact Nat.or_lt_two_pow hf (by decide)
    · exact hf
  · dsimp only; omega

theorem Barrier.Fits.reset {b : Barrier} (h : b.Fits) (x : Nat) : (b.reset x).Fits := by
  obtain ⟨he, ha, hp, hf, hd, ht, hby⟩ := h
  refine ⟨Nat.mod_lt _ (by decide), Nat.two_pow_pos 32, hp, ?_, Nat.two_pow_pos 16, Nat.mod_lt _ (by decide), Nat.two_pow_pos 64⟩
  unfold Barrier.reset
  dsimp only
  split <;> omega

theorem barrierCredit_spec {s : State} (n : Nat) (cr : Credit) (hw : s.MemWf) (hcr : s.credits[n]? = some cr) :
    ∃ t, exec (.barrierCredit n) s = .next t ∧ t.credits = s.credits.eraseIdx n ∧ t.contexts = s.contexts ∧
      t.barrier cr.loc = (s.barrier cr.loc).credit cr.bytes cr.poison ∧
      (∀ a, a < memKey cr.loc.pkg cr.loc.pa ∨ memKey cr.loc.pkg cr.loc.pa + 32 ≤ a → t.memByte a = s.memByte a) := by
  let u : State := { s with credits := s.credits.eraseIdx n }
  obtain ⟨x, y, z, honly⟩ := u.homeWriteBytes_only cr.loc.pkg cr.loc.pa ((s.barrier cr.loc).credit cr.bytes cr.poison).record false false
  refine ⟨u.putBarrier cr.loc ((s.barrier cr.loc).credit cr.bytes cr.poison) false, ?_, ?_, ?_, ?_, fun a ha => ?_⟩
  · show execBarrierCredit n s = _
    unfold execBarrierCredit
    rw [hcr]
  · rw [State.putBarrier, honly]
  · rw [State.putBarrier, honly]
  · exact State.putBarrier_barrier (s := u) cr.loc _ false hw ((s.barrier_fits cr.loc).credit ..)
  · exact u.homeWriteBytes_frame cr.loc.pkg cr.loc.pa _ false false hw a (by rw [Barrier.record_length]; exact ha)

/-! ### Atomics (R243, R244) -/

theorem atomicNew_table (ty : BitVec 4) (old x cmp : Nat) :
    let w := 8 * synTypeBytes ty
    let int (v : Nat) : Int := intOf (ty == 0 || ty == 2) w v
    (ty ≠ 4 → atomicNew 1 ty old x cmp = (old + x) % 2 ^ w ∧
      atomicNew 2 ty old x cmp = (if int x < int old then x else old) ∧ atomicNew 3 ty old x cmp = (if int x < int old then old else x)) ∧
    (ty = 4 → atomicNew 1 ty old x cmp = (fmtF32.encode (fadd 0 (fmtF32.decode old) (fmtF32.decode x)).1 0 false).1 ∧
      atomicNew 2 ty old x cmp = minMax 0 false old x ∧ atomicNew 3 ty old x cmp = minMax 0 true old x) ∧
    atomicNew 4 ty old x cmp = old &&& x ∧ atomicNew 5 ty old x cmp = old ||| x ∧ atomicNew 6 ty old x cmp = old ^^^ x ∧
    atomicNew 7 ty old x cmp = x ∧ atomicNew 8 ty old x cmp = if old = cmp then x else old := by
  intro w int
  refine ⟨fun hty => ?_, fun hty => ?_, rfl, rfl, rfl, rfl, rfl⟩
  · have hf : (ty == 4) = false := by simpa using hty
    refine ⟨?_, ?_, ?_⟩
    · unfold atomicNew
      rw [hf]
      rfl
    · show (if (ty == 4) = true then _ else if (decide (int x < int old) == true) = true then x else old) = _
      rw [hf]
      simp
    · show (if (ty == 4) = true then _ else if (decide (int x < int old) == false) = true then x else old) = _
      rw [hf]
      by_cases hlt : int x < int old
      · simp [hlt]
      · simp [hlt]
  · subst hty
    exact ⟨rfl, rfl, rfl⟩

/-! ### Waiters (R354) -/

theorem watchHolds_of_mem {s t : State} (h : t.mem = s.mem) (pkg pa : Nat) (kind : WatchKind) : watchHolds t pkg pa kind = watchHolds s pkg pa kind := by
  cases kind with
  | barrier p =>
    unfold watchHolds State.home32 State.homeBytes
    rw [h]
  | signal v =>
    unfold watchHolds State.home64 State.homeBytes
    rw [h]

theorem homeWriteLine_wakes (s : State) (pkg line die : Nat) (mask : BitVec 64) (data : Line) (p g : Bool) (e : WaitEntry)
    (hm : mask ≠ 0) (hdie : die / 8 = pkg) (he : e ∈ (s.die die).waiters) (hpkg : e.pkg = pkg) (hlo : e.pa / 64 ≤ line)
    (hhi : line ≤ (e.pa + watchBytes e.kind - 1) / 64) (hw : watchHolds (s.homeWriteLine pkg line mask data p g) pkg e.pa e.kind = true) :
    ∃ e' ∈ ((s.homeWriteLine pkg line mask data p g).die die).waiters, e'.who = e.who ∧ e'.pa = e.pa ∧ e'.answered = true := by
  unfold State.homeWriteLine at hw ⊢
  rw [if_neg hm] at hw ⊢
  have hdies := State.tagLine_dies { s with mem := writeMasked s.mem (memKey pkg (line * 64)) mask data 64 } pkg line (mask == BitVec.allOnes 64) p
  dsimp only at hdies hw ⊢
  generalize State.tagLine { s with mem := writeMasked s.mem (memKey pkg (line * 64)) mask data 64 } pkg line (mask == BitVec.allOnes 64) p = u at hdies hw ⊢
  have hhold : watchHolds u pkg e.pa e.kind = true := (watchHolds_of_mem (s := u) rfl pkg e.pa e.kind).symm.trans hw
  obtain ⟨d, hfind, hd⟩ : ∃ d, SMap.find u.dies die = some d ∧ e ∈ d.waiters := by
    rw [hdies]
    unfold State.die SMap.getD at he
    cases hf : SMap.find s.dies die with
    | none =>
      rw [hf] at he
      exact nomatch he
    | some d =>
      rw [hf] at he
      exact ⟨d, rfl, he⟩
  have hwaiters : ((u.answerWaiters pkg line g).die die).waiters = answerTable u pkg line g d.waiters := by
    unfold State.die SMap.getD
    rw [State.answerWaiters_dies, SMap.find_map_keyed (fun k d => Die.answered u pkg line g k d), hfind]
    show (Die.answered u pkg line g die d).waiters = _
    unfold Die.answered
    rw [if_pos hdie]
  rw [hwaiters]
  refine ⟨_, List.mem_map_of_mem hd, ?_⟩
  cases ha : e.answered with
  | true =>
    rw [if_neg (by simp)]
    exact ⟨rfl, rfl, ha⟩
  | false =>
    rw [if_pos (by simp [hpkg, hlo, hhi, hhold])]
    exact ⟨rfl, rfl, rfl⟩

/-! ### Answers (R240-R242, R257) -/

theorem Context.syncDone_spec (c : Context) (o : SyncOp) (data : Word) (p g : Bool) :
    (c.syncDone o data p g).fl.syncOps = c.fl.syncOps.filter (fun x => decide (x.id ≠ o.id)) ∧ (c.syncDone o data p g).thread = c.thread ∧
    (c.syncDone o data p g).be = c.be ∧
    (c.syncDone o data p g).fl.landings = c.fl.landings.map (fun l =>
      if l.kind = 2 ∧ l.idx = o.idx then { l with data := data.setWidth 512, poison := p } else l) ∧
    (c.fl.syncHold = some o.id → (c.syncDone o data p g).fl.syncHold = none) ∧
    (c.fl.syncHold ≠ some o.id → (c.syncDone o data p g).fl.syncHold = c.fl.syncHold) ∧
    (g = true → (c.syncDone o data p g).sch.wdCount = 0) ∧ (g = false → (c.syncDone o data p g).sch.wdCount = c.sch.wdCount) ∧
    (c.syncDone o data p g).ord.asyncLog = c.ord.asyncLog ∧ (c.syncDone o data p g).sch.freeze = c.sch.freeze ∧
    (c.syncDone o data p g).coreKey = c.coreKey := by
  have hhold : c.fl.syncHold = some o.id → (if c.fl.syncHold = some o.id then none else c.fl.syncHold) = none := fun h => if_pos h
  have hkeep : c.fl.syncHold ≠ some o.id → (if c.fl.syncHold = some o.id then none else c.fl.syncHold) = c.fl.syncHold := fun h => if_neg h
  unfold Context.syncDone
  dsimp only
  cases g with
  | true =>
    rw [if_pos rfl]
    split
    · exact ⟨rfl, rfl, rfl, rfl, hhold, hkeep, fun _ => rfl, (fun h => nomatch h), rfl, rfl, rfl⟩
    · exact ⟨rfl, rfl, rfl, rfl, hhold, hkeep, fun _ => rfl, (fun h => nomatch h), rfl, rfl, rfl⟩
  | false =>
    rw [if_neg Bool.false_ne_true]
    split
    · exact ⟨rfl, rfl, rfl, rfl, hhold, hkeep, (fun h => nomatch h), fun _ => rfl, rfl, rfl, rfl⟩
    · exact ⟨rfl, rfl, rfl, rfl, hhold, hkeep, (fun h => nomatch h), fun _ => rfl, rfl, rfl, rfl⟩

theorem Context.setSync_get {c : Context} {n : Nat} {o o' : SyncOp} (h : c.fl.syncOps[n]? = some o) (hid : o'.id = o.id) :
    (c.setSync o').fl.syncOps[n]? = some o' := by
  show (c.fl.syncOps.map _)[n]? = _
  rw [List.getElem?_map, h, Option.map_some, if_pos hid.symm]

/-- A freeze changes of its context what the scheduler notes. -/
theorem State.beginFreeze_kept {s : State} {k : Nat} {c : Context} (h : s.ctx k = some c) (cause : TrapCause) (fatal : Bool) :
    ∃ sch, (s.beginFreeze k cause fatal).ctx k = some { c with sch := sch } ∧ (c.sch.freeze = none → sch.freeze.isSome = true) := by
  unfold State.beginFreeze
  rw [h]
  dsimp only
  split
  · next f hf =>
    have hnot : ∀ sch : SchedInfo, c.sch.freeze = none → sch.freeze.isSome = true := fun sch hnone => nomatch hf.symm.trans hnone
    split
    · exact ⟨c.sch, h, hnot _⟩
    · split
      · exact ⟨_, State.ctx_setCtx_self _ _ _, hnot _⟩
      · exact ⟨_, (freezeAnew_spec _ _ _ _ _).1, hnot _⟩
  · exact ⟨_, (freezeAnew_spec _ _ _ _ _).1, fun _ => rfl⟩

section answers
variable {s : State} {k n : Nat} {c : Context} {o : SyncOp} (h : s.ctx k = some c) (ho : c.fl.syncOps[n]? = some o)
include h ho

theorem syncAnswerArrival_answered (hr : s.onRetired c = false) {data : Word} {p g : Bool} (hs : o.state = .answered data p g) :
    exec (.syncAnswerArrival k n) s = .next (if o.op = 17 ∧ (!c.ord.asyncLog.isEmpty) = true then s.asyncHalt k
      else if c.status == .nonres && decide (c.fl.syncHold = some o.id) then s.setCtx k { c with sch := { c.sch with parkedAnswered := true } }
      else s.setCtx k (c.syncDone o data p g)) := by
  show execSyncAnswerArrival k n s = _
  rw [execSyncAnswerArrival, atCore_of h hr]
  dsimp only
  rw [ho]
  dsimp only
  rw [hs]

theorem syncAnswerArrival_waiting (hr : s.onRetired c = false) (hs : o.state = .waiting) :
    (s.answeredEntry k o = none → exec (.syncAnswerArrival k n) s = .next s) ∧
    (∀ e, s.answeredEntry k o = some e → ∃ t c', exec (.syncAnswerArrival k n) s = .next t ∧ t.ctx k = some c' ∧ t.mem = s.mem ∧
      (∀ x ∈ (t.die o.loc.engine).waiters, x.who ≠ .context k o.id) ∧ c'.thread = c.thread ∧
      (c.status ≠ .nonres → c' = c.syncDone o 0 false e.progress) ∧
      (c.status = .nonres → c'.sch.parkedAnswered = true ∧ c'.fl.syncOps[n]? = some { o with state := .answered 0 false false })) := by
  have hexec : execSyncAnswerArrival k n s = .next (match s.answeredEntry k o with
      | none => s
      | some w => if c.status == .nonres then
          (s.dropWaiter o.loc.engine (.context k o.id)).setCtx k (({ (if w.progress then c.progress else c) with
            sch := { (if w.progress then c.progress else c).sch with parkedAnswered := true } } : Context).setSync { o with state := .answered 0 false false })
        else (s.dropWaiter o.loc.engine (.context k o.id)).setCtx k (c.syncDone o 0 false w.progress)) := by
    rw [execSyncAnswerArrival, atCore_of h hr]
    dsimp only
    rw [ho]
    dsimp only
    rw [hs] <;> rfl
  have hgone : ∀ x ∈ ((s.dropWaiter o.loc.engine (.context k o.id)).die o.loc.engine).waiters, x.who ≠ .context k o.id := by
    intro x hx
    unfold State.dropWaiter at hx
    rw [State.die_updDie_self] at hx
    simpa using (List.mem_filter.mp hx).2
  rw [exec_syncAnswerArrival, hexec]
  refine ⟨fun hnone => by rw [hnone], fun e he => ?_⟩
  rw [he]
  dsimp only
  by_cases hst : c.status = .nonres
  · rw [if_pos (by rw [hst]; rfl)]
    refine ⟨_, _, rfl, State.ctx_setCtx_self _ _ _, rfl, hgone, ?_, fun hne => absurd hst hne, fun _ => ⟨rfl, ?_⟩⟩
    · split <;> rfl
    · refine Context.setSync_get (o := o) ?_ rfl
      split
      · exact ho
      · exact ho
  · rw [if_neg (by simpa using hst)]
    exact ⟨_, _, rfl, State.ctx_setCtx_self _ _ _, rfl, hgone, (c.syncDone_spec ..).2.1, fun _ => rfl, fun hst' => absurd hst' hst⟩

theorem asyncLogRecord_spec {cause : Nat} (hs : o.state = .refused cause) : ∃ t c', exec (.asyncLogRecord k n) s = .next t ∧ t.ctx k = some c' ∧
    c'.ord.asyncLog = c.ord.asyncLog ++ [{ va := o.va, operand := o.operand.extractLsb' 0 64, seq := o.seq, op := o.op, ty := o.w.ty
                                           sub := o.w.sub, cause := cause, pc := o.pc }] ∧
    c'.fl = (c.syncDone o 0 true false).fl ∧ c'.thread = c.thread ∧
    (c.sch.freeze = none → (c'.sch.freeze.isSome ↔ 64 ≤ c.ord.asyncLog.length)) := by
  let r : AsyncRec := { va := o.va, operand := o.operand.extractLsb' 0 64, seq := o.seq, op := o.op, ty := o.w.ty, sub := o.w.sub, cause := cause, pc := o.pc }
  let c1 : Context := { c.syncDone o 0 true false with ord := { (c.syncDone o 0 true false).ord with asyncLog := (c.syncDone o 0 true false).ord.asyncLog ++ [r] } }
  obtain ⟨-, hthread, -, -, -, -, -, -, hlog, hfreeze, -⟩ := c.syncDone_spec o 0 true false
  have hexec : exec (.asyncLogRecord k n) s = .next (if 64 ≤ c.ord.asyncLog.length then (s.setCtx k c1).asyncHalt k else s.setCtx k c1) := by
    show execAsyncLogRecord k n s = _
    rw [execAsyncLogRecord, atCtx_of h]
    dsimp only
    rw [ho]
    dsimp only
    split
    · next hs' => cases hs.symm.trans hs'; rfl
    · next hno => exact absurd hs (hno _)
  have hrec : c1.ord.asyncLog = c.ord.asyncLog ++ [r] := congrArg (· ++ [r]) hlog
  rw [hexec]
  by_cases hfull : 64 ≤ c.ord.asyncLog.length
  · rw [if_pos hfull]
    obtain ⟨sch, hctx, hfrozen⟩ := State.beginFreeze_kept (State.ctx_setCtx_self s k c1) { cls := 2, code := 1, sub := 0, tval := 0 } true
    exact ⟨_, _, rfl, hctx, hrec, rfl, hthread, fun hnone => ⟨fun _ => hfull, fun _ => hfrozen (hfreeze.trans hnone)⟩⟩
  · rw [if_neg hfull]
    refine ⟨_, c1, rfl, State.ctx_setCtx_self _ _ _, hrec, rfl, hthread, fun hnone => ⟨fun hsome => ?_, fun hle => absurd hle hfull⟩⟩
    rw [show c1.sch.freeze = none from hfreeze.trans hnone] at hsome
    exact nomatch hsome

end answers

theorem waiterBusyResend_spec {s : State} {k : Nat} {c : Context} (h : s.ctx k = some c) (hr : s.onRetired c = false) :
    let now := (s.core c.coreKey).cycle.toNat
    ∃ t c', exec (.waiterBusyResend k) s = .next t ∧ t.ctx k = some c' ∧ (∀ a, t.memByte a = s.memByte a) ∧ c'.thread = c.thread ∧
      (∀ (i at_ : Nat) o, c.fl.syncOps[i]? = some o → o.state = .busy at_ → at_ + 1024 ≤ now →
        c'.fl.syncOps[i]? = some { o with state := .ready }) ∧
      (∀ (i : Nat) o, c.fl.syncOps[i]? = some o → (∀ at_, o.state = .busy at_ → now < at_ + 1024) → c'.fl.syncOps[i]? = some o) := by
  intro now
  refine ⟨_, _, atCore_of h hr _, State.ctx_setCtx_self _ _ _, fun a => rfl, rfl, fun i at_ o ho hb hdue => ?_, fun i o ho hnot => ?_⟩
  · show (c.fl.syncOps.map _)[i]? = _
    rw [List.getElem?_map, ho, Option.map_some]
    split
    · next hb' =>
      cases hb.symm.trans hb'
      rw [if_pos hdue]
    · next hno => exact absurd hb (hno at_)
  · show (c.fl.syncOps.map _)[i]? = _
    rw [List.getElem?_map, ho, Option.map_some]
    split
    · next at_ hb => rw [if_neg (Nat.not_le.mpr (hnot at_ hb))]
    · rfl

/-! ### The one step at the home (R43, R236, R243-R258) -/

/-- The context with the operation at its new state: the address noted, the lines of its scope dropped. -/
def Context.syncStands (c : Context) (o : SyncOp) (st : SyncState) : Context :=
  if synScoped o.op.toNat then ((c.noteSent o).setSync { o with state := st }).dropInScope o.scope
  else (c.noteSent o).setSync { o with state := st }

/-- The line is the engine's most recently used one. -/
def State.forSync (s : State) (c : Context) (o : SyncOp) : State := if synWidth o.op.toNat o.w.ty = 0 then s else s.holdLine o.loc c.id.part

def SyncOp.at_ (o : SyncOp) : Option Loc := if o.op = 16 ∨ o.op = 17 then none else some o.loc
def SyncOp.homeDie (o : SyncOp) (c : Context) : Nat := o.homeOf.getD c.die

/-- What the step makes of the state and of the operation. -/
def State.syncStep (s : State) (k : Nat) (c : Context) (o : SyncOp) : State × SyncState :=
  match remoteRefusal s c (o.homeDie c) o.at_ with
  | some cause => (s, .refused cause)
  | none => (s.forSync c o).performSync k c o

theorem State.holdLine_spec (s : State) (l : Loc) (part : Nat) : (∃ dies, s.holdLine l part = { s with dies := dies }) ∧
    (∀ j, ((s.holdLine l part).die j).waiters = (s.die j).waiters) ∧
    (l.isDevice = true → ((s.holdLine l part).die l.engine).syncLines.head? = some (lineKey l.pkg (l.pa / 64), part)) := by
  unfold State.holdLine
  cases hd : l.isDevice with
  | false => exact ⟨⟨_, rfl⟩, fun j => rfl, (fun h => nomatch h)⟩
  | true =>
    rw [if_pos rfl]
    refine ⟨⟨_, rfl⟩, fun j => ?_, fun _ => ?_⟩
    · by_cases hj : j = l.engine
      · rw [hj, State.die_updDie_self]
        rfl
      · rw [State.die_updDie_ne _ _ hj]
    · rw [State.die_updDie_self]
      rfl

theorem State.forSync_spec (s : State) (c : Context) (o : SyncOp) : (∃ dies, s.forSync c o = { s with dies := dies }) ∧
    (∀ j, ((s.forSync c o).die j).waiters = (s.die j).waiters) ∧
    (synWidth o.op.toNat o.w.ty ≠ 0 → o.loc.isDevice = true →
      ((s.forSync c o).die o.loc.engine).syncLines.head? = some (lineKey o.loc.pkg (o.loc.pa / 64), c.id.part)) := by
  obtain ⟨honly, hwait, hhead⟩ := s.holdLine_spec o.loc c.id.part
  unfold State.forSync
  by_cases hw : synWidth o.op.toNat o.w.ty = 0
  · rw [if_pos hw]
    exact ⟨⟨_, rfl⟩, fun j => rfl, fun hne => absurd hw hne⟩
  · rw [if_neg hw]
    exact ⟨honly, hwait, fun _ => hhead⟩

/-- The context of the operation after what the step did to the rest. -/
def SyncKeeps (k : Nat) (c : Context) (u : State) : Prop :=
  ∃ d, u.ctx k = some d ∧ d.fl.syncOps = c.fl.syncOps ∧ d.be = c.be ∧ d.ord = c.ord ∧ d.die = c.die

/-- The operation stands at its new state. -/
def SyncStands (s : State) (k n : Nat) (c : Context) (o : SyncOp) (t : State) (st : SyncState) : Prop :=
  exec (.syncOpPerform k n) s = .next t ∧ ∃ c', t.ctx k = some c' ∧ c'.fl.syncOps[n]? = some { o with state := st } ∧ c'.be = c.be ∧
    c'.ord.snapshot = (if synScoped o.op.toNat then
      c.ord.snapshot.filter (fun e => !inScope o.scope c.die (e.2.2.2 / 16) (e.2.2.2 % 16)) else c.ord.snapshot)

theorem Context.noteSent_kept (c : Context) (o : SyncOp) : ∃ addrs, c.noteSent o = { c with ord := { c.ord with syncAddrs := addrs } } := by
  unfold Context.noteSent
  split
  · exact ⟨_, rfl⟩
  · exact ⟨_, rfl⟩

theorem Context.syncStands_spec {c d : Context} {n : Nat} {o : SyncOp} (ho : c.fl.syncOps[n]? = some o) (hops : d.fl.syncOps = c.fl.syncOps)
    (hbe : d.be = c.be) (hord : d.ord = c.ord) (hdie : d.die = c.die) (st : SyncState) :
    (d.syncStands o st).fl.syncOps[n]? = some { o with state := st } ∧ (d.syncStands o st).be = c.be ∧
    (d.syncStands o st).ord.snapshot = (if synScoped o.op.toNat then
      c.ord.snapshot.filter (fun e => !inScope o.scope c.die (e.2.2.2 / 16) (e.2.2.2 % 16)) else c.ord.snapshot) := by
  obtain ⟨addrs, hnote⟩ := d.noteSent_kept o
  have hget : ((d.noteSent o).setSync { o with state := st }).fl.syncOps[n]? = some { o with state := st } := by
    refine Context.setSync_get (o := o) ?_ rfl
    rw [hnote]
    exact hops ▸ ho
  unfold Context.syncStands
  rw [← hord, ← hdie, ← hbe]
  rw [hnote] at hget ⊢
  split
  · exact ⟨hget, rfl, rfl⟩
  · exact ⟨hget, rfl, rfl⟩

section perform
variable {s : State} {k n : Nat} {c : Context} {o : SyncOp} (h : s.ctx k = some c) (ho : c.fl.syncOps[n]? = some o)
include h ho

theorem syncOpPerform_retired (hr : ¬ s.onRetired c = false) (hs : o.state ≠ .sent) : exec (.syncOpPerform k n) s = .next s := by
  rw [exec_syncOpPerform, execSyncOpPerform, atCtx_of h]
  dsimp only
  rw [ho]
  exact congrArg Host.Outcome.next (if_pos (by simp [Bool.not_eq_false _ ▸ hr, hs]))

theorem syncOpPerform_send (hr : s.onRetired c = false) (hsend : c.toSend o = true) (hw : c.syncWaits o = false) (hf : (s.core c.coreKey).frozen = false)
    (hrun : o.op = 12 ∨ o.op = 15 → c.runs = true) : exec (.syncOpPerform k n) s = .next (s.setCtx k (c.setSync { o with state := .sent })) := by
  have hgo : (c.syncWaits o || (s.core c.coreKey).frozen || (!c.runs && decide (o.op = 12 ∨ o.op = 15))) = false := by
    rw [hw, hf]
    by_cases hwait : o.op = 12 ∨ o.op = 15
    · rw [hrun hwait]; rfl
    · rw [decide_eq_false hwait, Bool.and_false]; rfl
  rw [exec_syncOpPerform, execSyncOpPerform, atCtx_of h]
  dsimp only
  rw [ho]
  dsimp only
  rw [hr, hsend, hgo]
  rfl

theorem syncOpPerform_blocked (hb : c.syncBlocked o = true ∨ (s.core c.coreKey).frozen = true) (hsend : c.toSend o = false) :
    exec (.syncOpPerform k n) s = .next s := by
  have hstop : ((o.state != .ready && o.state != .sent) || c.syncBlocked o || (s.core c.coreKey).frozen || (!c.runs && decide (o.op = 12 ∨ o.op = 15))) = true := by
    rcases hb with hb | hb
    · rw [hb]; simp
    · rw [hb]; simp
  rw [exec_syncOpPerform, execSyncOpPerform, atCtx_of h]
  dsimp only
  rw [ho]
  dsimp only
  rw [hsend, hstop]
  exact congrArg Host.Outcome.next (ite_self _)

variable (hl : s.onRetired c = false ∨ o.state = .sent) (hsend : c.toSend o = false) (hst : o.state = .ready ∨ o.state = .sent)
  (hb : c.syncBlocked o = false) (hf : (s.core c.coreKey).frozen = false) (hrun : o.op = 12 ∨ o.op = 15 → c.runs = true)
include hl hsend hst hb hf hrun

theorem syncOpPerform_of : exec (.syncOpPerform k n) s =
    .next ((s.syncStep k c o).1.updCtx k (fun d => d.syncStands o (s.syncStep k c o).2)) := by
  have hnot : (s.onRetired c && o.state != .sent) = false := by
    rcases hl with hl | hl
    · rw [hl]; rfl
    · rw [hl]; simp
  have hgo : ((o.state != .ready && o.state != .sent) || c.syncBlocked o || (s.core c.coreKey).frozen || (!c.runs && decide (o.op = 12 ∨ o.op = 15))) = false := by
    rw [hb, hf]
    have hstate : (o.state != .ready && o.state != .sent) = false := by
      rcases hst with hst | hst
      · rw [hst]; rfl
      · rw [hst]; rfl
    rw [hstate]
    by_cases hwait : o.op = 12 ∨ o.op = 15
    · rw [hrun hwait]; rfl
    · rw [decide_eq_false hwait, Bool.and_false]; rfl
  rw [exec_syncOpPerform, execSyncOpPerform, atCtx_of h]
  dsimp only
  rw [ho]
  dsimp only
  rw [hnot, hsend, hgo]
  rfl

/-- The step stands where the rest of its context is kept. -/
theorem syncStands_of {u : State} {st : SyncState} (hstep : s.syncStep k c o = (u, st)) (hkeep : SyncKeeps k c u) :
    ∃ t x, SyncStands s k n c o t st ∧ t = { u with contexts := x } ∧ ∀ j, j ≠ k → t.ctx j = u.ctx j := by
  obtain ⟨d, hd, hops, hbe, hord, hdie⟩ := hkeep
  have hexec := syncOpPerform_of h ho hl hsend hst hb hf hrun
  rw [hstep, State.updCtx_of hd] at hexec
  exact ⟨_, _, ⟨hexec, _, State.ctx_setCtx_self _ _ _, Context.syncStands_spec ho hops hbe hord hdie st⟩, rfl,
    fun j hj => State.ctx_setCtx_ne _ _ hj⟩

end perform

/-- What is at a doubleword's or a barrier's home after the step, and what it leaves (R243-R249). -/
structure HomeStep (s u : State) (l : Loc) (n : Nat) : Prop where
  contexts : u.contexts = s.contexts
  keeps : ∀ a, a < memKey l.pkg l.pa ∨ memKey l.pkg l.pa + n ≤ a → u.memByte a = s.memByte a
  lines : ∀ j, (u.die j).syncLines = (s.die j).syncLines

theorem HomeStep.refl (s : State) (l : Loc) (n : Nat) : HomeStep s s l n := ⟨rfl, fun _ _ => rfl, fun _ => rfl⟩

theorem HomeStep.homeWriteBytes {s : State} (l : Loc) (b : List Byte) (p : Bool) (hw : s.MemWf) :
    HomeStep s (s.homeWriteBytes l.pkg l.pa b p false) l b.length := by
  refine ⟨State.homeWriteBytes_contexts .., fun a ha => s.homeWriteBytes_frame l.pkg l.pa b p false hw a ha, fun j => ?_⟩
  obtain ⟨w, hdie⟩ := s.homeWriteBytes_die l.pkg l.pa b p false j
  rw [hdie]

theorem State.atomic_spec {s : State} (l : Loc) (op : Nat) (ty : BitVec 4) (operand : Nat) (p : Bool) (hw : s.MemWf) :
    let w := synTypeBytes ty
    let old := leNat (s.homeBytes l.pkg l.pa w)
    HomeStep s (s.atomic l op ty operand p).1 l w ∧
    leNat ((s.atomic l op ty operand p).1.homeBytes l.pkg l.pa w) =
      atomicNew op ty old (operand % 2 ^ (8 * w)) (operand / 2 ^ (8 * w) % 2 ^ (8 * w)) % 2 ^ (8 * w) ∧
    (s.atomic l op ty operand p).2 = (old, s.linePoisoned l.pkg (l.pa / 64) || p) := by
  intro w old
  have hpow : 256 ^ w = 2 ^ (8 * w) := (pow_mul 2 8 w).symm
  have hold : old < 2 ^ (8 * w) := hpow ▸ s.leNat_homeBytes_lt l.pkg l.pa w
  unfold State.atomic
  dsimp only
  by_cases hcas : op = 8 ∧ old ≠ operand / 2 ^ (8 * w) % 2 ^ (8 * w)
  · rw [if_pos hcas]
    refine ⟨.refl s l w, ?_, rfl⟩
    have hnew : atomicNew op ty old (operand % 2 ^ (8 * w)) (operand / 2 ^ (8 * w) % 2 ^ (8 * w)) = old := by
      rw [hcas.1]
      exact if_neg hcas.2
    rw [hnew, Nat.mod_eq_of_lt hold]
  · rw [if_neg hcas]
    generalize atomicNew op ty old (operand % 2 ^ (8 * w)) (operand / 2 ^ (8 * w) % 2 ^ (8 * w)) = v
    have hlen : (leBytes w v).length = w := leBytes_length ..
    refine ⟨?_, ?_, rfl⟩
    · have hstep := HomeStep.homeWriteBytes l (leBytes w v) p hw
      rwa [hlen] at hstep
    · have hread := State.homeBytes_written s l.pkg l.pa (leBytes w v) p false hw
      rw [hlen] at hread
      rw [hread, leNat_leBytes, hpow]

theorem State.putBarrier_step {s : State} (l : Loc) (b : Barrier) (p : Bool) (hw : s.MemWf) (hb : b.Fits) :
    HomeStep s (s.putBarrier l b p) l 32 ∧ (s.putBarrier l b p).barrier l = b := by
  refine ⟨?_, State.putBarrier_barrier l b p hw hb⟩
  have hstep := HomeStep.homeWriteBytes l b.record p hw
  rwa [Barrier.record_length] at hstep

theorem State.barrier_of_mem {s t : State} (h : t.mem = s.mem) : t.barrier = s.barrier := by
  unfold State.barrier State.homeBytes
  rw [h]

/-- The address that is read and written is the operation's own, in the state with its line held. -/
theorem State.forSync_mem (s : State) (c : Context) (o : SyncOp) : (s.forSync c o).mem = s.mem ∧ (s.forSync c o).poison = s.poison ∧
    (s.forSync c o).contexts = s.contexts ∧ (s.forSync c o).cores = s.cores := by
  obtain ⟨⟨dies, hd⟩, -, -⟩ := s.forSync_spec c o
  rw [hd]
  exact ⟨rfl, rfl, rfl, rfl⟩

section ops
variable (s : State) (k : Nat) (c : Context) (o : SyncOp)

theorem performSync_atomic (hop : o.op.toNat ≤ 8) : s.performSync k c o = ((s.atomic o.loc o.op.toNat o.w.ty o.operand.toNat o.poison).1,
    .answered (BitVec.ofNat 64 (s.atomic o.loc o.op.toNat o.w.ty o.operand.toNat o.poison).2.1)
      (s.atomic o.loc o.op.toNat o.w.ty o.operand.toNat o.poison).2.2 false) := by
  unfold State.performSync
  dsimp only
  rw [if_pos hop]

theorem performSync_red (hop : o.op.toNat = 9) : s.performSync k c o =
    ((s.atomic o.loc (o.w.sub.toNat + 1) o.w.ty o.operand.toNat o.poison).1, .answered 0 false false) := by
  unfold State.performSync
  rw [hop]
  rfl

theorem performSync_arrive (hop : o.op.toNat = 10 ∨ o.op.toNat = 11) : s.performSync k c o =
    (s.putBarrier o.loc ((s.barrier o.loc).arrive (o.op == 11)) false, .answered 0 false false) := by
  have heq : (o.op.toNat == 11) = (o.op == 11) := by
    rw [Bool.eq_iff_iff, beq_iff_eq, beq_iff_eq, ← BitVec.toNat_inj]
    rfl
  unfold State.performSync
  dsimp only
  rw [if_neg (by omega), if_neg (by omega), if_pos hop, heq]

theorem performSync_reset (hop : o.op.toNat = 18) : s.performSync k c o =
    (s.putBarrier o.loc ((s.barrier o.loc).reset o.operand.toNat) o.poison, .answered 0 false false) := by
  unfold State.performSync
  rw [hop]
  rfl

theorem performSync_test (hop : o.op.toNat = 13) : s.performSync k c o =
    (s, .answered (BitVec.ofNat 64 ((s.barrier o.loc).phase + (s.barrier o.loc).flags * 2 ^ 32)) (s.linePoisoned o.loc.pkg (o.loc.pa / 64)) false) := by
  unfold State.performSync
  rw [hop]
  rfl

theorem performSync_signal (hop : o.op.toNat = 14) : s.performSync k c o =
    (s.homeWriteBytes o.loc.pkg o.loc.pa (leBytes 8 (s.home64 o.loc.pkg o.loc.pa + o.operand.extractLsb' 0 64).toNat) o.poison false,
      .answered 0 false false) := by
  unfold State.performSync
  rw [hop]
  rfl

theorem performSync_wait (hop : o.op = 12 ∨ o.op = 15) : s.performSync k c o = s.performWait k c o := by
  unfold State.performSync
  rcases hop with hop | hop
  · rw [hop]
    rfl
  · rw [hop]
    rfl

theorem performSync_uli (hop : o.op.toNat = 16) : s.performSync k c o =
    (if 2 ^ 25 ≤ o.target ∨ s.reachable o.target c.id.tenant ≠ none then (s, .refused causeULIDST)
      else (s.setUlipend o.target o.w.sub.toNat, .answered 0 false false)) := by
  have hmatch : s.performSync k c o = match (if 2 ^ 25 ≤ o.target then some 1 else s.reachable o.target c.id.tenant) with
      | some _ => (s, .refused causeULIDST)
      | none => (s.setUlipend o.target o.w.sub.toNat, .answered 0 false false) := by
    unfold State.performSync
    rw [hop]
    rfl
  rw [hmatch]
  by_cases hbig : 2 ^ 25 ≤ o.target
  · rw [if_pos hbig, if_pos (.inl hbig)]
  · rw [if_neg hbig]
    cases hr : s.reachable o.target c.id.tenant with
    | none => rw [if_neg (fun hc => hc.elim hbig (fun hne => hne rfl))]
    | some x => rw [if_pos (.inr (Option.some_ne_none x))]

theorem performSync_fence (hop : o.op.toNat = 17) : s.performSync k c o = (s, .answered 0 false false) := by
  unfold State.performSync
  rw [hop]
  rfl

end ops

theorem State.forSync_memWf (s : State) (c : Context) (o : SyncOp) (hw : s.MemWf) : (s.forSync c o).MemWf := by
  unfold State.MemWf
  rw [(s.forSync_mem c o).1]
  exact hw

theorem SyncKeeps.of_contexts {s u : State} {k : Nat} {c : Context} (h : s.ctx k = some c) (hu : u.contexts = s.contexts) : SyncKeeps k c u := by
  refine ⟨c, ?_, rfl, rfl, rfl, rfl⟩
  unfold State.ctx at h ⊢
  rw [hu]
  exact h

theorem remoteRefusal_some {s : State} {c : Context} {die cause : Nat} {l : Option Loc} (h : remoteRefusal s c die l = some cause) :
    pkgOfDie die ≠ c.pkg ∧ (s.apart c die = true → cause = causeUNREACH) ∧
      (s.apart c die = false → l.any s.homeRetired = true → cause = causeRETIRED) := by
  unfold remoteRefusal at h
  split at h
  · exact nomatch h
  · next hfar =>
    refine ⟨hfar, fun ha => ?_, fun ha hl => ?_⟩
    · rw [if_pos ha] at h
      exact (Option.some.inj h).symm
    · rw [if_neg (by rw [ha]; exact Bool.false_ne_true), if_pos hl] at h
      exact (Option.some.inj h).symm

theorem remoteRefusal_none {s : State} {c : Context} {die : Nat} {l : Option Loc} (h : remoteRefusal s c die l = none) (hfar : pkgOfDie die ≠ c.pkg) :
    s.apart c die = false ∧ l.any s.homeRetired = false := by
  unfold remoteRefusal at h
  rw [if_neg hfar] at h
  split at h
  · exact nomatch h
  · next ha =>
    split at h
    · exact nomatch h
    · next hl => exact ⟨Bool.eq_false_iff.mpr ha, Bool.eq_false_iff.mpr hl⟩

theorem State.syncStep_refused {s : State} {k cause : Nat} {c : Context} {o : SyncOp} (h : remoteRefusal s c (o.homeDie c) o.at_ = some cause) :
    s.syncStep k c o = (s, .refused cause) := by
  unfold State.syncStep
  rw [h]

theorem State.syncStep_performed {s : State} {k : Nat} {c : Context} {o : SyncOp} (h : remoteRefusal s c (o.homeDie c) o.at_ = none) :
    s.syncStep k c o = (s.forSync c o).performSync k c o := by
  unfold State.syncStep
  rw [h]

/-- What a waiting operation waits for (R248, R253). -/
def SyncOp.watched (o : SyncOp) : WatchKind := if o.op = 12 then .barrier (o.operand.extractLsb' 0 32) else .signal (o.operand.extractLsb' 0 64)

theorem watchHolds_watched (s : State) (o : SyncOp) : watchHolds s o.loc.pkg o.loc.pa o.watched = true ↔
    (if o.op = 12 then (s.home32 o.loc.pkg (o.loc.pa + 8) - o.operand.extractLsb' 0 32).getLsbD 31 = false
      else (o.operand.extractLsb' 0 64).toNat ≤ (s.home64 o.loc.pkg o.loc.pa).toNat) := by
  unfold SyncOp.watched
  split
  · exact beq_iff_eq
  · exact decide_eq_true_iff

theorem State.performWait_met {s : State} {k : Nat} {c : Context} {o : SyncOp} (h : watchHolds s o.loc.pkg o.loc.pa o.watched = true) :
    s.performWait k c o = (s, .answered 0 false (o.op == 12)) :=
  if_pos h

theorem State.performWait_full {s : State} {k : Nat} {c : Context} {o : SyncOp} (h : ¬ watchHolds s o.loc.pkg o.loc.pa o.watched = true)
    (hfull : 8192 ≤ ((s.die o.loc.engine).waiters.filter (fun w => !w.answered)).length) :
    s.performWait k c o = (s, .busy (s.core c.coreKey).cycle.toNat) :=
  (if_neg h).trans (if_pos hfull)

theorem State.performWait_enters {s : State} {k : Nat} {c : Context} {o : SyncOp} (h : ¬ watchHolds s o.loc.pkg o.loc.pa o.watched = true)
    (hfull : ¬ 8192 ≤ ((s.die o.loc.engine).waiters.filter (fun w => !w.answered)).length) :
    s.performWait k c o = (s.updDie o.loc.engine (fun d => { d with waiters := d.waiters ++
      [{ who := .context k o.id, pkg := o.loc.pkg, pa := o.loc.pa, kind := o.watched, answered := false, progress := false }] }), .waiting) :=
  (if_neg h).trans (if_neg hfull)

section performed
variable {s : State} {k n : Nat} {c : Context} {o : SyncOp} (h : s.ctx k = some c) (ho : c.fl.syncOps[n]? = some o)
  (hl : s.onRetired c = false ∨ o.state = .sent) (hsend : c.toSend o = false) (hst : o.state = .ready ∨ o.state = .sent)
  (hb : c.syncBlocked o = false) (hf : (s.core c.coreKey).frozen = false) (hrun : o.op = 12 ∨ o.op = 15 → c.runs = true)
include h ho hl hsend hst hb hf hrun

theorem syncStands_refused {cause : Nat} (hc : remoteRefusal s c (o.homeDie c) o.at_ = some cause) :
    ∃ t, SyncStands s k n c o t (.refused cause) ∧ t.mem = s.mem := by
  obtain ⟨t, x, hstands, rfl, -⟩ := syncStands_of h ho hl hsend hst hb hf hrun (State.syncStep_refused hc) (.of_contexts h rfl)
  exact ⟨_, hstands, rfl⟩

variable (hnone : remoteRefusal s c (o.homeDie c) o.at_ = none)
include hnone

/-- What the step at the home makes of the state stands, where it leaves the contexts. -/
theorem syncStands_performed {u : State} {st : SyncState} (hstep : (s.forSync c o).performSync k c o = (u, st))
    (hu : u.contexts = (s.forSync c o).contexts) : ∃ x, SyncStands s k n c o { u with contexts := x } st := by
  obtain ⟨t, x, hstands, rfl, -⟩ := syncStands_of h ho hl hsend hst hb hf hrun ((State.syncStep_performed hnone).trans hstep)
    (.of_contexts h (hu.trans (s.forSync_mem c o).2.2.1))
  exact ⟨x, hstands⟩

/-- A step that changes nothing but the operation. -/
theorem syncStands_quiet {st : SyncState} (hstep : (s.forSync c o).performSync k c o = (s.forSync c o, st)) :
    ∃ t, SyncStands s k n c o t st ∧ t.mem = s.mem := by
  obtain ⟨x, hstands⟩ := syncStands_performed h ho hl hsend hst hb hf hrun hnone hstep rfl
  exact ⟨_, hstands, (s.forSync_mem c o).1⟩

/-- A step that writes at the operation's location. -/
theorem syncStands_written {u : State} {st : SyncState} {w : Nat} (hstep : (s.forSync c o).performSync k c o = (u, st))
    (hu : HomeStep (s.forSync c o) u o.loc w) : ∃ t, SyncStands s k n c o t st ∧
      (∀ a, a < memKey o.loc.pkg o.loc.pa ∨ memKey o.loc.pkg o.loc.pa + w ≤ a → t.memByte a = s.memByte a) ∧ t.mem = u.mem ∧
      (synWidth o.op.toNat o.w.ty ≠ 0 → o.loc.isDevice = true →
        (t.die o.loc.engine).syncLines.head? = some (lineKey o.loc.pkg (o.loc.pa / 64), c.id.part)) := by
  obtain ⟨x, hstands⟩ := syncStands_performed h ho hl hsend hst hb hf hrun hnone hstep hu.contexts
  refine ⟨_, hstands, fun a ha => (hu.keeps a ha).trans ?_, rfl, fun hw hd => ?_⟩
  · unfold State.memByte
    rw [(s.forSync_mem c o).1]
  · exact (congrArg List.head? (hu.lines o.loc.engine)).trans ((s.forSync_spec c o).2.2 hw hd)

theorem sync_atomic (hw : s.MemWf) (hop : o.op.toNat ≤ 8) :
    let w := synTypeBytes o.w.ty
    let old := leNat (s.homeBytes o.loc.pkg o.loc.pa w)
    ∃ t, SyncStands s k n c o t (.answered (BitVec.ofNat 64 old) (s.linePoisoned o.loc.pkg (o.loc.pa / 64) || o.poison) false) ∧
      (∀ a, a < memKey o.loc.pkg o.loc.pa ∨ memKey o.loc.pkg o.loc.pa + w ≤ a → t.memByte a = s.memByte a) ∧
      leNat (t.homeBytes o.loc.pkg o.loc.pa w) = atomicNew o.op.toNat o.w.ty old (o.operand.toNat % 2 ^ (8 * w))
        (o.operand.toNat / 2 ^ (8 * w) % 2 ^ (8 * w)) % 2 ^ (8 * w) ∧
      (synWidth o.op.toNat o.w.ty ≠ 0 → o.loc.isDevice = true →
        (t.die o.loc.engine).syncLines.head? = some (lineKey o.loc.pkg (o.loc.pa / 64), c.id.part)) := by
  intro w old
  obtain ⟨hmem, hpoison, -, -⟩ := s.forSync_mem c o
  have hbytes : (s.forSync c o).homeBytes o.loc.pkg o.loc.pa w = s.homeBytes o.loc.pkg o.loc.pa w := by
    unfold State.homeBytes
    rw [hmem]
  have hline : (s.forSync c o).linePoisoned o.loc.pkg (o.loc.pa / 64) = s.linePoisoned o.loc.pkg (o.loc.pa / 64) := by
    unfold State.linePoisoned
    rw [hpoison]
  obtain ⟨hstep, hval, hans⟩ := State.atomic_spec (s := s.forSync c o) o.loc o.op.toNat o.w.ty o.operand.toNat o.poison (s.forSync_memWf c o hw)
  have hdo := performSync_atomic (s.forSync c o) k c o hop
  rw [hans, hbytes, hline] at hdo
  rw [hbytes] at hval
  obtain ⟨t, hstands, hkeeps, hm, hholds⟩ := syncStands_written h ho hl hsend hst hb hf hrun hnone hdo hstep
  refine ⟨t, hstands, hkeeps, ?_, hholds⟩
  unfold State.homeBytes at hval ⊢
  rw [hm]
  exact hval

theorem sync_red (hw : s.MemWf) (hop : o.op.toNat = 9) :
    let w := synTypeBytes o.w.ty
    ∃ t, SyncStands s k n c o t (.answered 0 false false) ∧
      (∀ a, a < memKey o.loc.pkg o.loc.pa ∨ memKey o.loc.pkg o.loc.pa + w ≤ a → t.memByte a = s.memByte a) ∧
      leNat (t.homeBytes o.loc.pkg o.loc.pa w) = atomicNew (o.w.sub.toNat + 1) o.w.ty (leNat (s.homeBytes o.loc.pkg o.loc.pa w))
        (o.operand.toNat % 2 ^ (8 * w)) (o.operand.toNat / 2 ^ (8 * w) % 2 ^ (8 * w)) % 2 ^ (8 * w) := by
  intro w
  obtain ⟨hmem, -, -, -⟩ := s.forSync_mem c o
  have hbytes : (s.forSync c o).homeBytes o.loc.pkg o.loc.pa w = s.homeBytes o.loc.pkg o.loc.pa w := by
    unfold State.homeBytes
    rw [hmem]
  obtain ⟨hstep, hval, -⟩ := State.atomic_spec (s := s.forSync c o) o.loc (o.w.sub.toNat + 1) o.w.ty o.operand.toNat o.poison (s.forSync_memWf c o hw)
  rw [hbytes] at hval
  obtain ⟨t, hstands, hkeeps, hm, -⟩ := syncStands_written h ho hl hsend hst hb hf hrun hnone (performSync_red (s.forSync c o) k c o hop) hstep
  refine ⟨t, hstands, hkeeps, ?_⟩
  unfold State.homeBytes at hval ⊢
  rw [hm]
  exact hval

/-- A barrier's new record stands at its home. -/
theorem sync_barrier (hw : s.MemWf) {b : Barrier} {p : Bool} (hfits : b.Fits)
    (hdo : (s.forSync c o).performSync k c o = ((s.forSync c o).putBarrier o.loc b p, .answered 0 false false)) :
    ∃ t, SyncStands s k n c o t (.answered 0 false false) ∧
      (∀ a, a < memKey o.loc.pkg o.loc.pa ∨ memKey o.loc.pkg o.loc.pa + 32 ≤ a → t.memByte a = s.memByte a) ∧ t.barrier o.loc = b := by
  obtain ⟨hstep, hread⟩ := State.putBarrier_step (s := s.forSync c o) o.loc b p (s.forSync_memWf c o hw) hfits
  obtain ⟨t, hstands, hkeeps, hm, -⟩ := syncStands_written h ho hl hsend hst hb hf hrun hnone hdo hstep
  exact ⟨t, hstands, hkeeps, (congrFun (State.barrier_of_mem hm) o.loc).trans hread⟩

theorem sync_signal (hw : s.MemWf) (hop : o.op.toNat = 14) : ∃ t, SyncStands s k n c o t (.answered 0 false false) ∧
    (∀ a, a < memKey o.loc.pkg o.loc.pa ∨ memKey o.loc.pkg o.loc.pa + 8 ≤ a → t.memByte a = s.memByte a) ∧
    t.home64 o.loc.pkg o.loc.pa = s.home64 o.loc.pkg o.loc.pa + o.operand.extractLsb' 0 64 := by
  obtain ⟨hmem, -, -, -⟩ := s.forSync_mem c o
  have hold : (s.forSync c o).home64 o.loc.pkg o.loc.pa = s.home64 o.loc.pkg o.loc.pa := by
    unfold State.home64 State.homeBytes
    rw [hmem]
  have hdo := performSync_signal (s.forSync c o) k c o hop
  rw [hold] at hdo
  generalize s.home64 o.loc.pkg o.loc.pa + o.operand.extractLsb' 0 64 = v at hdo ⊢
  have hstep := HomeStep.homeWriteBytes (s := s.forSync c o) o.loc (leBytes 8 v.toNat) o.poison (s.forSync_memWf c o hw)
  rw [leBytes_length] at hstep
  obtain ⟨t, hstands, hkeeps, hm, -⟩ := syncStands_written h ho hl hsend hst hb hf hrun hnone hdo hstep
  refine ⟨t, hstands, hkeeps, ?_⟩
  have hread := State.home64_written (s.forSync c o) o.loc.pkg o.loc.pa v o.poison false (s.forSync_memWf c o hw)
  unfold State.home64 State.homeBytes at hread ⊢
  rw [hm]
  exact hread

theorem sync_test (hop : o.op.toNat = 13) : ∃ t, SyncStands s k n c o t (.answered
    (BitVec.ofNat 64 ((s.barrier o.loc).phase + (s.barrier o.loc).flags * 2 ^ 32)) (s.linePoisoned o.loc.pkg (o.loc.pa / 64)) false) ∧ t.mem = s.mem := by
  obtain ⟨hmem, hpoison, -, -⟩ := s.forSync_mem c o
  have hdo := performSync_test (s.forSync c o) k c o hop
  have hline : (s.forSync c o).linePoisoned o.loc.pkg (o.loc.pa / 64) = s.linePoisoned o.loc.pkg (o.loc.pa / 64) := by
    unfold State.linePoisoned
    rw [hpoison]
  rw [State.barrier_of_mem hmem, hline] at hdo
  exact syncStands_quiet h ho hl hsend hst hb hf hrun hnone hdo

theorem sync_wait (hop : o.op = 12 ∨ o.op = 15) :
    let met : Prop := if o.op = 12 then (s.home32 o.loc.pkg (o.loc.pa + 8) - o.operand.extractLsb' 0 32).getLsbD 31 = false
      else (o.operand.extractLsb' 0 64).toNat ≤ (s.home64 o.loc.pkg o.loc.pa).toNat
    let table := (s.die o.loc.engine).waiters
    let full : Prop := 8192 ≤ (table.filter (fun w => !w.answered)).length
    (met → ∃ t, SyncStands s k n c o t (.answered 0 false (o.op == 12)) ∧ t.mem = s.mem) ∧
    (¬ met → full → ∃ t, SyncStands s k n c o t (.busy (s.core c.coreKey).cycle.toNat) ∧ t.mem = s.mem) ∧
    (¬ met → ¬ full → ∃ t, SyncStands s k n c o t .waiting ∧ t.mem = s.mem ∧ (t.die o.loc.engine).waiters = table ++
      [{ who := .context k o.id, pkg := o.loc.pkg, pa := o.loc.pa, kind := o.watched, answered := false, progress := false }]) := by
  intro met table full
  obtain ⟨hmem, -, -, hcores⟩ := s.forSync_mem c o
  have htable : ((s.forSync c o).die o.loc.engine).waiters = table := (s.forSync_spec c o).2.1 o.loc.engine
  have hmet : watchHolds (s.forSync c o) o.loc.pkg o.loc.pa o.watched = true ↔ met := by
    rw [watchHolds_of_mem hmem]
    exact watchHolds_watched s o
  have hcycle : ((s.forSync c o).core c.coreKey).cycle = (s.core c.coreKey).cycle := by
    unfold State.core
    rw [hcores]
  have hdo := performSync_wait (s.forSync c o) k c o hop
  refine ⟨fun hm => ?_, fun hm hfull => ?_, fun hm hfull => ?_⟩
  · exact syncStands_quiet h ho hl hsend hst hb hf hrun hnone (hdo.trans (State.performWait_met (hmet.mpr hm)))
  · have hbusy := hdo.trans (State.performWait_full (mt hmet.mp hm) (by rw [htable]; exact hfull))
    rw [hcycle] at hbusy
    exact syncStands_quiet h ho hl hsend hst hb hf hrun hnone hbusy
  · have henter := hdo.trans (State.performWait_enters (mt hmet.mp hm) (by rw [htable]; exact hfull))
    obtain ⟨x, hstands⟩ := syncStands_performed h ho hl hsend hst hb hf hrun hnone henter rfl
    refine ⟨_, hstands, hmem, ?_⟩
    rw [← htable]
    exact congrArg Die.waiters (State.die_updDie_self (s.forSync c o) o.loc.engine (fun d => { d with waiters := d.waiters ++
      [{ who := .context k o.id, pkg := o.loc.pkg, pa := o.loc.pa, kind := o.watched, answered := false, progress := false }] }))

theorem sync_uli {d : Context} (hop : o.op.toNat = 16) (hbound : o.target < 2 ^ 25) (hne : o.target ≠ k)
    (hreach : s.reachable o.target c.id.tenant = none) (hd : s.ctx o.target = some d) :
    ∃ t d', SyncStands s k n c o t (.answered 0 false false) ∧ t.mem = s.mem ∧ t.ctx o.target = some d' ∧
      d'.thread = { d.thread with ulipend := d.thread.ulipend ||| BitVec.ofNat 64 (2 ^ (o.w.sub.toNat % 16)) } := by
  obtain ⟨⟨dies, honly⟩, -, -⟩ := s.forSync_spec c o
  have hdo := performSync_uli (s.forSync c o) k c o hop
  have hgo : ¬ (2 ^ 25 ≤ o.target ∨ (s.forSync c o).reachable o.target c.id.tenant ≠ none) := by
    rw [honly]
    exact fun hc => hc.elim (Nat.not_le.mpr hbound) (fun hn => hn hreach)
  rw [if_neg hgo, honly] at hdo
  have hset : ({ s with dies := dies } : State).setUlipend o.target o.w.sub.toNat = ({ s with dies := dies } : State).setCtx o.target
      { d.updSnapshots (Thread.pend o.w.sub.toNat) with thread := d.thread.pend o.w.sub.toNat } := State.updCtx_of (s := { s with dies := dies }) hd _
  rw [hset, ← honly] at hdo
  obtain ⟨t, x, hstands, rfl, hother⟩ := syncStands_of h ho hl hsend hst hb hf hrun ((State.syncStep_performed hnone).trans hdo)
    ⟨c, (State.ctx_setCtx_ne _ _ hne.symm).trans (by rw [honly]; exact h), rfl, rfl, rfl, rfl⟩
  refine ⟨_, _, hstands, ?_, (hother _ hne).trans (State.ctx_setCtx_self _ _ _), rfl⟩
  rw [honly]
  rfl

theorem sync_uli_refused (hop : o.op.toNat = 16) (hbad : 2 ^ 25 ≤ o.target ∨ s.reachable o.target c.id.tenant ≠ none) :
    ∃ t, SyncStands s k n c o t (.refused 1) ∧ t.mem = s.mem := by
  have hdo := performSync_uli (s.forSync c o) k c o hop
  have hbad' : 2 ^ 25 ≤ o.target ∨ (s.forSync c o).reachable o.target c.id.tenant ≠ none := by
    unfold State.reachable State.ctx at hbad ⊢
    rw [(s.forSync_mem c o).2.2.1]
    exact hbad
  rw [if_pos hbad'] at hdo
  exact syncStands_quiet h ho hl hsend hst hb hf hrun hnone hdo

theorem sync_fence (hop : o.op.toNat = 17) : ∃ t, SyncStands s k n c o t (.answered 0 false false) ∧ t.mem = s.mem :=
  syncStands_quiet h ho hl hsend hst hb hf hrun hnone (performSync_fence (s.forSync c o) k c o hop)

end performed

theorem asyncLog_free {c : Context} {o : SyncOp} (h : o.op ≠ 17 ∨ c.ord.asyncLog = []) : ¬ (o.op = 17 ∧ (!c.ord.asyncLog.isEmpty) = true) := by
  rintro ⟨hop, hlog⟩
  rcases h with h | h
  · exact h hop
  · rw [h] at hlog
    exact nomatch hlog

/-- Settles O53: a sync operation that stands at its home is performed in one step (`syncStands_of`), each operation by its own case of
`State.performSync`; what follows the step is an answer, a wait, a refusal or a repetition. -/
theorem syncResults : Obligations.SyncResults := by
  unfold Obligations.SyncResults
  refine ⟨fun s n cr hw hcr => barrierCredit_spec n cr hw hcr, ?_, fun ty old x cmp => atomicNew_table ty old x cmp, ?_, ?_,
    fun s k c h hr => waiterBusyResend_spec h hr⟩
  · intro b complete
    exact ⟨fun hc => if_pos hc, fun hc => if_neg hc, fun drop => rfl, fun m p => rfl, fun x => rfl⟩
  · intro s pkg line die mask data p g e t hm hdie he hpkg hlo hhi hw
    exact homeWriteLine_wakes s pkg line die mask data p g e hm hdie he hpkg hlo hhi hw
  · intro s k n c o h ho r wait home base w stands holds keeps live at_
    refine ⟨fun hr hs => syncOpPerform_retired h ho hr hs, fun hr hsend hw hf hrun => syncOpPerform_send h ho hr hsend hw hf hrun,
      fun hb hsend => syncOpPerform_blocked h ho hb hsend, fun hl hsend hst hb hf hrun => ⟨fun cause hc => ?_, fun hnone => ?_⟩, ?_, ?_, ?_, ?_⟩
    · exact ⟨syncStands_refused h ho hl hsend hst hb hf hrun hc, remoteRefusal_some hc⟩
    · refine ⟨remoteRefusal_none hnone, ?_⟩
      intro old x cmp
      refine ⟨fun hw _ hop => sync_atomic h ho hl hsend hst hb hf hrun hnone hw hop, fun hw hop => sync_red h ho hl hsend hst hb hf hrun hnone hw hop,
        fun hw hop => ?_, fun hw hop => ?_, fun hop => sync_test h ho hl hsend hst hb hf hrun hnone hop,
        fun hw hop => sync_signal h ho hl hsend hst hb hf hrun hnone hw hop, fun hop => sync_wait h ho hl hsend hst hb hf hrun hnone hop,
        fun d hop hbound hne hreach hd => sync_uli h ho hl hsend hst hb hf hrun hnone hop hbound hne hreach hd,
        fun hop hbad => sync_uli_refused h ho hl hsend hst hb hf hrun hnone hop hbad, fun hop => sync_fence h ho hl hsend hst hb hf hrun hnone hop⟩
      · have hdo := performSync_arrive (s.forSync c o) k c o hop
        rw [State.barrier_of_mem (s.forSync_mem c o).1] at hdo
        exact sync_barrier h ho hl hsend hst hb hf hrun hnone hw ((s.barrier_fits o.loc).arrive _) hdo
      · have hdo := performSync_reset (s.forSync c o) k c o hop
        rw [State.barrier_of_mem (s.forSync_mem c o).1] at hdo
        exact sync_barrier h ho hl hsend hst hb hf hrun hnone hw ((s.barrier_fits o.loc).reset _) hdo
    · intro data p g hr hs
      rw [syncAnswerArrival_answered h ho hr hs]
      refine ⟨fun hop hlog => ?_, fun hfree hst hhold => ?_, fun hfree hst => ?_⟩
      · rw [if_pos ⟨hop, by simpa using hlog⟩]
        rfl
      · rw [if_neg (asyncLog_free hfree), if_pos (by simp [hst, hhold])]
      · rw [if_neg (asyncLog_free hfree), if_neg (by simpa [imp_iff_not_or] using hst)]
    · exact fun hr hs => syncAnswerArrival_waiting h ho hr hs
    · intro data p g d
      obtain ⟨hops, hthread, hbe, hland, hhold, hkeep, hprog, hquiet, -, -, -⟩ := c.syncDone_spec o data p g
      exact ⟨hops, hthread, hbe, hland, hhold, hkeep, hprog, hquiet⟩
    · exact fun cause hs => asyncLogRecord_spec h ho hs

end Sys2Proof.Machine
end

section
/-! PROOFS. The matrix engine (O54; R185). The statement lets a slot of one core name a context whose core is another one. -/

namespace Sys2Proof.Machine

/-- An MCLR that waits in its queue, committed in core cycle 0. -/
def strayOp : MtxOp where
  id := 0
  idx := 1
  op := 6
  w := { cs := 0, sat := 0, rm := 0, typ := 0, half := 0, f := 0, zero := 0, offb := 0, offa := 0, k := 0, c := 0 }
  fmt := { a := 0, b := 0, acc := 0 }
  baseA := 0
  baseB := 0
  pc := 0
  seq := 0
  committed := true
  commitCycle := 0
  state := .queued
  begunAt := 0
  loaded := 0
  inArray := false
  groups := 0
  plane := []
  mis := false
  bad := false
  flags := 0
  loadPoison := []
  rows := 0

def strayIdent : Ident where
  ctxid := 0
  tenant := 0
  gang := 0
  taskidx := 0
  taskcnt := 0
  part := 0
  basePrio := 0
  s1root := none
  graph := 0
  templPa := 0
  templSize := 0
  zrel := []
  winF := 0
  winW := 0
  winC := 0

/-- A RESIDENT context of core 1 with that operation. -/
def strayContext : Context :=
  { Context.start strayIdent 0 1 with status := .resident, fl := { (Context.start strayIdent 0 1).fl with mtxOps := [strayOp] } }

/-- Slot 0 of core 0, whose CYCLE is 0, names it; core 1 is in core cycle 5. -/
def strayState : State := { State.reset with
  contexts := [(0, strayContext)], cores := [(0, { Core.reset with slots := [(0, 0)] }), (1, { Core.reset with cycle := 5 })] }

/-- The operation may begin in its own core's cycle, and bears it. -/
theorem stray_mayBegin : strayState.ctx 0 = some strayContext ∧ strayState.mayBegin strayContext = some strayOp ∧
    (strayOp.start strayState strayContext).begunAt = 5 ∧ (strayState.core 0).cycle = 0 :=
  ⟨rfl, rfl, rfl, rfl⟩

/-- Refutes O54: the clause for MATRIX_OP_BEGIN says that an operation bears the cycle of the core whose step begins it, of every state. Where a
slot of core 0 names a context of core 1, the operation bears core 1's cycle: 5, and not core 0's, 0. -/
theorem not_matrixResults : ¬ Obligations.MatrixResults := by
  unfold Obligations.MatrixResults
  rintro ⟨-, hsteps⟩
  obtain ⟨hctx, hmay, hbegun, hcycle⟩ := stray_mayBegin
  obtain ⟨t, -, -, -, -, hat, -⟩ := (hsteps strayState).1 0 0 0 strayContext strayOp rfl rfl (by decide) rfl hctx hmay
    (fun j hj => absurd hj (Nat.not_lt_zero j))
  exact absurd (hbegun.symm.trans (hat.trans hcycle)) (by decide)

end Sys2Proof.Machine
end

section
/-! PROOFS. Translation caches (O55; R51, R54). The statement says of every context that its core's TLB takes a translation, of a management
core's too, which has no TLB. -/

namespace Sys2Proof.Machine

/-- Three levels of stage 2 from 0x10000 and three of stage 1 from 0x20000, each with a first entry alone; the last is a leaf of 1 GiB at 0. -/
def tablesMem : List Host.Cell :=
  [(0x10000, 0x01), (0x10001, 0x10), (0x10002, 0x01), (0x11000, 0x01), (0x11001, 0x20), (0x11002, 0x01), (0x12000, 0x03),
   (0x20000, 0x01), (0x20001, 0x10), (0x20002, 0x02), (0x21000, 0x01), (0x21001, 0x20), (0x21002, 0x02), (0x22000, 0x03)]

def tablesState : State := { State.reset with mem := tablesMem, dies := [(0, { Die.reset with s2roots := [(0, 0x10000)] })] }

/-- A thread of a management core of die 0 with those tables. -/
def tablesContext : Context := agentCtx 0 0 0x20000

/-- The translation of address 0 by the tables. -/
def tablesEntry : TEntry where
  part := 0
  s1root := 0x20000
  size := 30
  vpage := 0
  isize := 30
  ipage := 0
  loc := { pkg := 0, pa := 0, home := 0, dev := false, own := false }
  ro1 := false
  ro2 := false
  x := false

theorem tables_walkPage : walkPage tablesState 0 0 0x20000 0 = .ok tablesEntry := by rfl

/-- The translation goes into the caches of the context's die; the TLB that its core's number names is another die's, and empty. -/
theorem tables_tlb : (tablesState.cacheTranslation tablesContext 0).tlb tablesContext.coreKey = [] := by rfl

/-- Refutes O55: of every context whose address the tables translate the statement says that its core's TLB holds the translation. A management
core's number lies beyond those of the Cobalt dies, and no TLB of it takes one. -/
theorem not_transferResults : ¬ Obligations.TransferResults := by
  unfold Obligations.TransferResults
  rintro ⟨-, -, hdies⟩
  obtain ⟨-, -, hcache, -⟩ := hdies tablesState 0
  obtain ⟨-, -, -, -, -, x, hx, -⟩ := hcache tablesContext 0x20000 0 tablesEntry rfl rfl tables_walkPage
  rw [tables_tlb] at hx
  exact nomatch hx

end Sys2Proof.Machine
end

section
/-! PROOFS. Hardware queue slots: the register QCTL, a slot put back twice, starts, resumptions, parking, doorbells and fetches (O57; R284-R286,
R288, R298). -/

namespace Sys2Proof.Machine

/-! ### A key put twice -/

theorem SMap.put_put {α : Type} (m : SMap α) (k : Nat) (a b : α) : SMap.put (SMap.put m k a) k b = SMap.put m k b := by
  induction m with
  | nil => simp [SMap.put]
  | cons x rest ih =>
    obtain ⟨j, c⟩ := x
    by_cases hlt : k < j
    · simp [SMap.put, hlt]
    · by_cases heq : k = j
      · simp [SMap.put, heq]
      · simp [SMap.put, hlt, heq, ih]

theorem State.queue_setQueue_self (s : State) (die h : Nat) (q : Queue) : (s.setQueue die h q).queue die h = q := by
  unfold State.queue State.setQueue
  rw [State.die_updDie_self]
  exact SMap.getD_put_self _ _ _ _

theorem State.setQueue_setQueue (s : State) (die h : Nat) (q r : Queue) : (s.setQueue die h q).setQueue die h r = s.setQueue die h r := by
  unfold State.setQueue
  rw [State.updDie, State.die_updDie_self]
  simp only [State.updDie, State.setDie, SMap.put_put]

/-! ### STATE, CAUSE and SUB (R284) -/

section
variable (q : Queue) (state cause sub : Nat)

theorem Queue.put_low (k w : Nat) (hk : (0xFFFFFFFFFFFF0008#64).extractLsb' k w = 0) :
    ((q.put state cause sub).qctl.extractLsb' k w).toNat =
      (state % 8 + cause % 16 * 16 + sub % 256 * 256) / 2 ^ k % 2 ^ w := by
  have hn : state % 8 + cause % 16 * 16 + sub % 256 * 256 < 18446744073709551616 := by omega
  show ((q.qctl &&& 0xFFFFFFFFFFFF0008#64 ||| BitVec.ofNat 64 _).extractLsb' k w).toNat = _
  generalize state % 8 + cause % 16 * 16 + sub % 256 * 256 = n at hn ⊢
  rw [BitVec.extractLsb'_or, BitVec.extractLsb'_and, hk]
  simp [BitVec.extractLsb'_toNat, Nat.shiftRight_eq_div_pow, Nat.mod_eq_of_lt hn]

theorem Queue.put_high (k w : Nat) (hk : 16 ≤ k) (hm : (0xFFFFFFFFFFFF0008#64).extractLsb' k w = BitVec.allOnes w) :
    (q.put state cause sub).qctl.extractLsb' k w = q.qctl.extractLsb' k w := by
  have hn : state % 8 + cause % 16 * 16 + sub % 256 * 256 < 2 ^ 16 := by omega
  show (q.qctl &&& 0xFFFFFFFFFFFF0008#64 ||| BitVec.ofNat 64 _).extractLsb' k w = _
  generalize state % 8 + cause % 16 * 16 + sub % 256 * 256 = n at hn ⊢
  have hp : 2 ^ 16 ≤ 2 ^ k := Nat.pow_le_pow_right (by decide) hk
  have hn64 : n < 18446744073709551616 := by omega
  have hz : (BitVec.ofNat 64 n).extractLsb' k w = 0 := by
    apply BitVec.eq_of_toNat_eq
    simp [BitVec.extractLsb'_toNat, Nat.shiftRight_eq_div_pow, Nat.mod_eq_of_lt hn64, Nat.div_eq_of_lt (Nat.lt_of_lt_of_le hn hp)]
  rw [BitVec.extractLsb'_or, BitVec.extractLsb'_and, hm, hz]
  simp

theorem Queue.state_put (h : state < 8) : (q.put state cause sub).state = state := by
  rw [Queue.state, Queue.put_low _ _ _ _ _ _ (by decide)]
  omega

theorem Queue.cause_put (h : cause < 16) : (q.put state cause sub).cause = cause := by
  rw [Queue.cause, Queue.put_low _ _ _ _ _ _ (by decide)]
  omega

theorem Queue.sub_put (h : sub < 256) : (q.put state cause sub).sub = sub := by
  rw [Queue.sub, Queue.put_low _ _ _ _ _ _ (by decide)]
  omega

@[simp] theorem Queue.log2n_put : (q.put state cause sub).log2n = q.log2n := by
  rw [Queue.log2n, Queue.put_high _ _ _ _ _ _ (by decide) (by decide), ← Queue.log2n]

@[simp] theorem Queue.part_put : (q.put state cause sub).part = q.part := by
  rw [Queue.part, Queue.put_high _ _ _ _ _ _ (by decide) (by decide), ← Queue.part]

@[simp] theorem Queue.qnum_put : (q.put state cause sub).qnum = q.qnum := by
  rw [Queue.qnum, Queue.put_high _ _ _ _ _ _ (by decide) (by decide), ← Queue.qnum]

@[simp] theorem Queue.overrun_put : (q.put state cause sub).overrun = q.overrun := by
  rw [Queue.overrun, Queue.log2n_put]
  rfl

end

/-! ### Stops (R286, R297) -/

/-- The state in which a queue has stopped at its position with a cause: the slot put back as another queue but for QCTL and QFAULT, and
the report posted. -/
def QueueStopped (s : State) (die h cause : Nat) (va : Word) (r : Queue) (o : Out) : Prop := ∃ (u : State) (q' : Queue),
  o = .next (u.post (.cobalt die) 4 h (BitVec.ofNat 64 cause) va) ∧ u = s.setQueue die h q' ∧
  q'.state = 2 ∧ q'.cause = cause ∧ q'.qfault = va ∧ q' = { r with qctl := q'.qctl, qfault := q'.qfault }

theorem State.stopQueue_stopped (s : State) (die h cause sub : Nat) (va : Word) (hc : cause < 16) :
    QueueStopped s die h cause va (s.queue die h) (.next (s.stopQueue die h cause sub va)) :=
  ⟨_, { (s.queue die h).put qSTOPPED cause sub with qfault := va }, rfl, rfl, Queue.state_put _ _ _ _ (by decide),
    Queue.cause_put _ _ _ _ hc, rfl, rfl⟩

theorem QueueStopped.of_setQueue {s : State} {die h cause : Nat} {va : Word} {r r' : Queue} {o : Out}
    (hs : QueueStopped (s.setQueue die h r) die h cause va r o) (hr : r = { r' with qctl := r.qctl, qfault := r.qfault }) :
    QueueStopped s die h cause va r' o := by
  obtain ⟨u, q', ho, hu, hstate, hcause, hfault, hq⟩ := hs
  refine ⟨u, q', ho, hu.trans (State.setQueue_setQueue ..), hstate, hcause, hfault, ?_⟩
  rw [hr] at hq
  exact hq

/-- A queue whose pointers fit, or that does not run, is left by the check of its pointers. -/
theorem State.checkPtr_setQueue_of_fits (s : State) (die h : Nat) (r : Queue) (hr : r.state = 1 → r.overrun = false) :
    (s.setQueue die h r).checkPtr die h = s.setQueue die h r := by
  unfold State.checkPtr
  rw [State.queue_setQueue_self, if_neg]
  rw [Bool.and_eq_true]
  rintro ⟨hrun, hover⟩
  rw [hr (of_decide_eq_true hrun)] at hover
  exact nomatch hover

theorem State.checkPtr_setQueue_of_overrun (s : State) (die h : Nat) (r : Queue) (hrun : r.state = 1) (hover : r.overrun = true)
    (hidle : r.phase = .idle) : QueueStopped (s.setQueue die h r) die h 7 r.pos.va r (.next ((s.setQueue die h r).checkPtr die h)) := by
  have hw : (s.setQueue die h r).withdrawWait die h = s.setQueue die h r := by
    unfold State.withdrawWait
    dsimp only
    rw [State.queue_setQueue_self, hidle]
  have hf : r.fetchFrom = r.pos := by
    unfold Queue.fetchFrom
    rw [hidle]
  have hc : (s.setQueue die h r).checkPtr die h = (s.setQueue die h r).stopQueue die h qBADPTR 0 r.pos.va := by
    unfold State.checkPtr
    rw [State.queue_setQueue_self, if_pos (by rw [hover, Queue.running, hrun]; rfl), hw]
    dsimp only
    rw [State.queue_setQueue_self, hf]
  have := State.stopQueue_stopped (s.setQueue die h r) die h qBADPTR 0 r.pos.va (by decide)
  rw [State.queue_setQueue_self] at this
  rw [hc]
  exact this

/-! ### What a stop or a parking withdraws (R285, log entry 51) -/

theorem Queue.unbegin_graphs (q : Queue) : q.unbegin.graphs.map (·.graph) = q.graphs.map (·.graph) := by
  simp [Queue.unbegin, Function.comp_def]

theorem State.withdrawWait_of_apart (s : State) (die h : Nat)
    (hp : (s.queue die h).phase = .idle ∨ ∃ gid len, (s.queue die h).phase = .invoking gid len) : s.withdrawWait die h = s := by
  unfold State.withdrawWait
  dsimp only
  obtain hp | ⟨gid, len, hp⟩ := hp <;> rw [hp]

theorem State.withdrawWait_of_access (s : State) (die h : Nat)
    (hp : (∃ loc ws, (s.queue die h).phase = .sent loc ws) ∨ ∃ ws, (s.queue die h).phase = .page (some ws)) :
    s.withdrawWait die h = s.setQueue die h { (s.queue die h).unbegin with phase := .idle } := by
  unfold State.withdrawWait
  dsimp only
  obtain ⟨loc, ws, hp⟩ | ⟨ws, hp⟩ := hp <;> rw [hp]

theorem State.withdrawWait_of_waiting (s : State) (die h : Nat) {loc : Loc} {len : Nat} (hp : (s.queue die h).phase = .waiting loc len) :
    s.withdrawWait die h =
      (s.dropWaiter loc.engine (.queue die h)).setQueue die h { (s.queue die h).unbegin with phase := .idle } := by
  unfold State.withdrawWait
  dsimp only
  rw [hp]

/-- No waiter of whom the home dropped remains there. -/
theorem State.dropWaiter_gone (s : State) (k : Nat) (who : Waiter) : ∀ w ∈ ((s.dropWaiter k who).die k).waiters, w.who ≠ who := by
  intro w hw
  unfold State.dropWaiter at hw
  rw [State.die_updDie_self] at hw
  simpa using (List.mem_filter.mp hw).2

theorem State.setQueue_waiters (s : State) (die h : Nat) (q : Queue) (k : Nat) :
    ((s.setQueue die h q).die k).waiters = (s.die k).waiters := by
  unfold State.setQueue
  by_cases hk : k = die
  · subst hk
    rw [State.die_updDie_self]
  · rw [State.die_updDie_ne _ _ hk]

/-! ### The steps of a slot -/

section
variable (s : State) (die h : Nat)

theorem State.queueStart_spec (hstate : (s.queue die h).state = 0) (hfree : s.queueTaken die h (s.queue die h) = false) :
    ∃ q', exec (.queueStart die h) s = .next (s.setQueue die h q') ∧ q'.state = 1 ∧ q'.cause = 0 ∧ q'.sub = 0 ∧
      q'.wptr = 0 ∧ q'.rptr = 0 ∧ q'.pos.va = (s.queue die h).qbase ∧ q'.pos.top.len = 2 ^ (s.queue die h).log2n ∧ q'.copies = [] ∧
      q'.graphs = [] ∧ q'.skip = [] ∧ q'.phase = .idle ∧ q'.qbase = (s.queue die h).qbase ∧ q'.qroot = (s.queue die h).qroot ∧
      q'.done = 0 ∧ q'.log2n = (s.queue die h).log2n ∧ q'.part = (s.queue die h).part ∧ q'.qnum = (s.queue die h).qnum := by
  have hexec : exec (.queueStart die h) s = .next (s.queueStart die h) := rfl
  unfold State.queueStart at hexec
  rw [if_neg (by simp [hstate, hfree, qDISABLED])] at hexec
  refine ⟨_, hexec, Queue.state_put _ 1 0 0 (by decide), Queue.cause_put _ 1 0 0 (by decide), Queue.sub_put _ 1 0 0 (by decide), rfl, rfl,
    ?_, rfl, rfl, rfl, rfl, rfl, rfl, rfl, rfl, Queue.log2n_put .., Queue.part_put .., Queue.qnum_put ..⟩
  simp [Pos.va, Pos.top, Frame.wordVa]

theorem State.queueStart_of_taken (hq : (s.queue die h).state ≠ 0 ∨ s.queueTaken die h (s.queue die h) = true) :
    exec (.queueStart die h) s = .next s :=
  congrArg Host.Outcome.next (if_pos hq)

theorem State.queueResume_eq (hq : (s.queue die h).state = 2 ∨ (s.queue die h).state = 3) :
    exec (.queueResume die h) s = .next ((s.setQueue die h { (s.queue die h).put 1 0 0 with copies := [] }).checkPtr die h) :=
  congrArg Host.Outcome.next (if_pos hq)

theorem State.queuePark_eq (hq : (s.queue die h).state = 1) : exec (.queuePark die h) s =
    .next ((s.withdrawWait die h).setQueue die h (((s.withdrawWait die h).queue die h).putState qPARKED)) :=
  congrArg Host.Outcome.next (if_pos (by rw [Queue.running, hq]; rfl))

theorem State.queueDisable_eq (hq : (s.queue die h).state ≠ 1 ∨ (s.queue die h).phase = .idle) :
    exec (.queueDisable die h) s = .next (s.setQueue die h ((s.queue die h).putState qDISABLED)) := by
  have hw : (if (s.queue die h).running then s.withdrawWait die h else s) = s := by
    split
    · rename_i hrun
      exact s.withdrawWait_of_apart die h (.inl (hq.resolve_left (fun hne => hne (of_decide_eq_true hrun))))
    · rfl
  show Host.Outcome.next (State.queueDisable s die h) = _
  unfold State.queueDisable
  rw [hw]

theorem State.queuePark_waiting (hq : (s.queue die h).state = 1) (loc : Loc) (len : Nat) (hp : (s.queue die h).phase = .waiting loc len) :
    ∃ t q', exec (.queuePark die h) s = .next t ∧ t.queue die h = q' ∧ q'.state = 3 ∧ q'.phase = .idle ∧ q'.pos = (s.queue die h).pos ∧
      (∀ w ∈ (t.die loc.engine).waiters, w.who ≠ .queue die h) := by
  have hexec := s.queuePark_eq die h hq
  rw [s.withdrawWait_of_waiting die h hp, State.queue_setQueue_self, State.setQueue_setQueue] at hexec
  refine ⟨_, _, hexec, State.queue_setQueue_self .., Queue.state_put _ 3 _ _ (by decide), rfl, rfl, ?_⟩
  rw [State.setQueue_waiters]
  exact s.dropWaiter_gone loc.engine _

theorem State.queuePark_access (hq : (s.queue die h).state = 1)
    (hp : (∃ loc ws, (s.queue die h).phase = .sent loc ws) ∨ ∃ ws, (s.queue die h).phase = .page (some ws)) :
    ∃ q', exec (.queuePark die h) s = .next (s.setQueue die h q') ∧ q'.state = 3 ∧ q'.phase = .idle ∧ q'.pos = (s.queue die h).pos ∧
      q'.graphs.map (·.graph) = (s.queue die h).graphs.map (·.graph) := by
  have hexec := s.queuePark_eq die h hq
  rw [s.withdrawWait_of_access die h hp, State.queue_setQueue_self, State.setQueue_setQueue] at hexec
  exact ⟨_, hexec, Queue.state_put _ 3 _ _ (by decide), rfl, rfl, Queue.unbegin_graphs _⟩

theorem State.doorbell_eq {part off : Nat} (hslot : s.doorbellSlot die part off = some h) (v : Word) (hv : v.extractLsb' 32 32 = 0) :
    exec (.doorbell die part off 8 v) s =
      .next ((s.setQueue die h { s.queue die h with wptr := v.extractLsb' 0 32 }).checkPtr die h) := by
  show Host.Outcome.next (s.doorbellStore die part off 8 v) = _
  unfold State.doorbellStore
  rw [hslot]
  exact congrArg Host.Outcome.next (if_neg (by simp [hv]))

theorem State.doorbell_ignored {part off size : Nat} {v : Word}
    (hd : s.doorbellSlot die part off = none ∨ size ≠ 8 ∨ v.extractLsb' 32 32 ≠ 0) : exec (.doorbell die part off size v) s = .next s := by
  show Host.Outcome.next (s.doorbellStore die part off size v) = _
  unfold State.doorbellStore
  split
  · rfl
  · rename_i hslot
    rw [hslot] at hd
    rw [if_pos (hd.resolve_left (fun hn => nomatch hn))]

/-! ### Packets read ahead (R298) -/

theorem State.packetFetch_words (hrun : (s.queue die h).state = 1) (hskip : (s.queue die h).skip = []) {p : Pos}
    (hp : pickFree s 5 ((s.queue die h).ahead s die (s.queue die h).fetchFrom (33 - (s.queue die h).behind)) = some p)
    {ws : List Word} (hread : readPacket s die (s.queue die h) p = .words ws) :
    exec (.packetFetch die h) s = .next (s.setQueue die h ((s.queue die h).keepCopy { pos := p, words := ws })) := by
  show execPacketFetch die h s = _
  unfold execPacketFetch
  dsimp only
  rw [if_neg (by simp [Queue.running, hrun, hskip, qRUNNING]), hp]
  dsimp only
  rw [hread]

theorem State.packetFetch_fault (hrun : (s.queue die h).state = 1) (hskip : (s.queue die h).skip = []) {p : Pos}
    (hp : pickFree s 5 ((s.queue die h).ahead s die (s.queue die h).fetchFrom (33 - (s.queue die h).behind)) = some p)
    {x : XFault} (hread : readPacket s die (s.queue die h) p = .fault x) : exec (.packetFetch die h) s =
      .next (if (s.queue die h).phase = .idle ∧ p = (s.queue die h).pos then s.queueXlate die h none x else s) := by
  show execPacketFetch die h s = _
  unfold execPacketFetch
  dsimp only
  rw [if_neg (by simp [Queue.running, hrun, hskip, qRUNNING]), hp]
  dsimp only
  rw [hread]
  simp

theorem Queue.mem_keepCopy (q : Queue) (x : PktCopy) : ∃ cs, q.keepCopy x = { q with copies := x :: cs } ∧
    ∀ c, c ∈ cs ↔ c ∈ q.copies ∧ c.pos ≠ x.pos ∧ (x ∈ q.copies ∨ c.pos.inside x.pos = false) := by
  refine ⟨_, rfl, fun c => ?_⟩
  simp [List.mem_filter]

theorem Queue.ahead_of_none (q : Queue) (s : State) (die : Nat) (p : Pos) (n : Nat) (hc : q.copies = []) :
    q.ahead s die p (n + 1) = [p] := by
  rw [Queue.ahead, hc]
  rfl

/-- The fetch of a queue that has nothing begun and no copy. -/
theorem State.packetFetch_first (hrun : (s.queue die h).state = 1) (hskip : (s.queue die h).skip = []) {ws : List Word}
    (hcopies : (s.queue die h).copies = []) (hidle : (s.queue die h).phase = .idle) (hgraphs : (s.queue die h).graphs = [])
    (hread : readPacket s die (s.queue die h) (s.queue die h).pos = .words ws) : exec (.packetFetch die h) s =
      .next (s.setQueue die h { s.queue die h with copies := [{ pos := (s.queue die h).pos, words := ws }] }) := by
  have hbehind : (s.queue die h).behind = 0 := by
    unfold Queue.behind
    rw [hgraphs, hidle]
    rfl
  have hfrom : (s.queue die h).fetchFrom = (s.queue die h).pos := by
    unfold Queue.fetchFrom
    rw [hidle]
  rw [s.packetFetch_words die h hrun hskip (by rw [hbehind, hfrom, Queue.ahead_of_none _ _ _ _ _ hcopies]; rfl) hread]
  simp only [Queue.keepCopy, hcopies, List.filter_nil]

theorem State.queueXlate_notPres {x : XFault} (hx : isNotPres x.sub = true) (words : Option (List Word)) :
    s.queueXlate die h words x = (s.setQueue die h { s.queue die h with phase := .page words }).queueFault (.cobalt die)
      { seq := 0, source := 3, who := h, va := x.va, pc := 0, emitseq := 0, sub := x.sub, unit := 0, record := [] } :=
  if_pos hx

theorem State.queueXlate_other {x : XFault} (hx : isNotPres x.sub = false) :
    s.queueXlate die h none x = s.stopQueue die h qXLATE x.sub.toNat (s.queue die h).pos.va := by
  unfold State.queueXlate
  rw [hx] <;> rfl

end

/-- Settles O57: each step of a slot by its own rule, the stops by that of stopQueue. -/
theorem queueControl : Obligations.QueueControl := by
  unfold Obligations.QueueControl
  intro s die h
  refine ⟨s.queueStart_spec die h, s.queueStart_of_taken die h, ?_, ?_, ?_, ?_, s.queuePark_waiting die h, s.queuePark_access die h, ?_, ?_,
    ?_, ?_, ?_⟩
  · intro hq hover
    refine ⟨(s.queueResume_eq die h hq).trans (congrArg _ (State.checkPtr_setQueue_of_fits _ _ _ _ (fun _ => ?_))),
      Queue.state_put _ _ _ _ (by decide), rfl⟩
    exact (Queue.overrun_put _ 1 0 0).trans hover
  · intro hq hover hidle
    rw [s.queueResume_eq die h hq]
    exact (State.checkPtr_setQueue_of_overrun s die h { (s.queue die h).put 1 0 0 with copies := [] } (Queue.state_put _ 1 0 0 (by decide))
      ((Queue.overrun_put _ 1 0 0).trans hover) hidle).of_setQueue rfl
  · intro h2 h3
    exact congrArg Host.Outcome.next (if_neg (by simp [h2, h3, qSTOPPED, qPARKED]))
  · intro hq hp
    have hexec := s.queuePark_eq die h hq
    rw [s.withdrawWait_of_apart die h hp] at hexec
    exact ⟨_, hexec, Queue.state_put _ 3 _ _ (by decide), rfl⟩
  · intro hq
    exact congrArg Host.Outcome.next (if_neg (by simp [Queue.running, hq, qRUNNING]))
  · intro hq
    exact ⟨_, s.queueDisable_eq die h hq, Queue.state_put _ 0 _ _ (by decide), rfl⟩
  · intro part off v hslot
    refine ⟨?_, ?_, fun size hsize => s.doorbell_ignored die (.inr hsize)⟩
    · intro hv hover
      rw [s.doorbell_eq die h hslot v hv, State.checkPtr_setQueue_of_fits _ _ _ _ hover]
    · intro hv hrun hover hidle
      rw [s.doorbell_eq die h hslot v hv]
      exact (State.checkPtr_setQueue_of_overrun s die h { s.queue die h with wptr := v.extractLsb' 0 32 } hrun hover hidle).of_setQueue rfl
  · intro part off size v hslot
    exact s.doorbell_ignored die (.inl hslot)
  · intro hrun hskip
    refine ⟨fun ws hcopies hidle hgraphs hread => s.packetFetch_first die h hrun hskip hcopies hidle hgraphs hread, ?_⟩
    intro p hp
    refine ⟨?_, ?_, ?_⟩
    · intro ws hread
      obtain ⟨cs, hkeep, hmem⟩ := Queue.mem_keepCopy (s.queue die h) { pos := p, words := ws }
      exact ⟨cs, (s.packetFetch_words die h hrun hskip hp hread).trans (by rw [hkeep]), hmem⟩
    · intro x hread hidle hpos
      have hexec := s.packetFetch_fault die h hrun hskip hp hread
      rw [if_pos ⟨hidle, hpos⟩] at hexec
      refine ⟨fun hx => hexec.trans (by rw [s.queueXlate_notPres die h hx]), fun hx => ?_⟩
      rw [s.queueXlate_other die h hx] at hexec
      exact hexec ▸ s.stopQueue_stopped die h qXLATE x.sub.toNat _ (by decide)
    · intro x hread hne
      have hexec := s.packetFetch_fault die h hrun hskip hp hread
      rwa [if_neg (fun hboth => hne.elim (fun hi => hi hboth.1) (fun hp => hp hboth.2))] at hexec

end Sys2Proof.Machine
end

section
/-! PROOFS. The service of page faults, stores to registers, steals and retirement (O56; R324-R327, R3, R14, R282, R348). -/

namespace Sys2Proof.Machine

/-! ### What a posted record leaves (R338) -/

theorem State.setFaultPage_die (s : State) (p : FaultPort) (f : FaultPage) (k : Nat) :
    ∃ g, (s.setFaultPage p f).die k = { s.die k with fault := g } ∧
      (f.open_ = (s.faultPage p).open_ → g.open_ = (s.die k).fault.open_) := by
  cases p with
  | serac j => exact ⟨_, rfl, fun _ => rfl⟩
  | cobalt d =>
    by_cases hk : k = d
    · subst hk
      exact ⟨_, s.die_updDie_self k _, id⟩
    · exact ⟨(s.die k).fault, s.die_updDie_ne _ hk, fun _ => rfl⟩

theorem State.forward_dies (s : State) (p : FaultPort) (event : Nat) (b : List Byte) : (s.forward p event b).dies = s.dies := by
  unfold State.forward
  (repeat' split) <;> rfl

theorem State.passCycles_dies (s : State) (p : FaultPort) : (s.passCycles p).dies = s.dies := by
  cases p <;> rfl

/-- Of a die a posted record changes the fault page, of which it opens and closes no entry, and the waiters that its bytes answer. -/
theorem State.post_die (s : State) (p : FaultPort) (event who : Nat) (d1 d2 : Word) (k : Nat) :
    ∃ g w, (s.post p event who d1 d2).die k = { s.die k with fault := g, waiters := w } ∧ g.open_ = (s.die k).fault.open_ := by
  cases h : queueConfigured (s.faultPage p).eqbase with
  | false =>
    obtain ⟨g, hg, hopen⟩ := s.setFaultPage_die p { s.faultPage p with dropped := satInc32 (s.faultPage p).dropped } k
    exact ⟨g, (s.die k).waiters, (congrArg (fun t : State => t.die k) (s.post_of_none p event who d1 d2 h)).trans hg, hopen rfl⟩
  | true =>
    rw [s.post_of_queue p event who d1 d2 h]
    obtain ⟨w, hw⟩ := (s.postStart p event (s.eventRecord p event who d1 d2)).homeWriteBytes_die (portPkg p)
      (queuePa (s.faultPage p).eqbase + 32 * ((s.faultPage p).eqTail.toNat % queueSize (s.faultPage p).eqbase))
      (s.eventRecord p event who d1 d2) false false k
    obtain ⟨g, hg, hopen⟩ := State.setFaultPage_die ((s.passCycles p).forward p event (s.eventRecord p event who d1 d2)) p
      ((((s.passCycles p).forward p event (s.eventRecord p event who d1 d2)).faultPage p).posted (s.faultPage p).eventsFull) k
    have hd : ((s.passCycles p).forward p event (s.eventRecord p event who d1 d2)).die k = s.die k := by
      unfold State.die
      rw [State.forward_dies, State.passCycles_dies]
    rw [hd] at hg hopen
    refine ⟨g, w, hw.trans ?_, hopen rfl⟩
    unfold State.postStart State.updFaultPage
    rw [hg]

theorem State.post_open (s : State) (p : FaultPort) (event who : Nat) (d1 d2 : Word) (k : Nat) :
    ((s.post p event who d1 d2).die k).fault.open_ = (s.die k).fault.open_ := by
  obtain ⟨g, w, h, hopen⟩ := s.post_die p event who d1 d2 k
  rw [h]
  exact hopen

/-! ### An entry is closed (R325) -/

/-- The state with the one open entry of a die's fault queue closed. -/
def State.shut (s : State) (die : Nat) : State := s.setFaultPage (.cobalt die) { (s.die die).fault with open_ := [] }

theorem State.shut_open (s : State) (die : Nat) : ((s.shut die).die die).fault.open_ = [] := by
  unfold State.shut State.setFaultPage
  rw [State.die_updDie_self]

theorem State.shut_ctx (s : State) (die k : Nat) : (s.shut die).ctx k = s.ctx k := rfl

theorem State.shut_bt (s : State) (die c : Nat) : (s.shut die).bt die c = s.bt die c := by
  unfold State.bt State.shut State.setFaultPage
  rw [State.die_updDie_self]
  rfl

/-! Registers of a block-transfer engine. -/

theorem State.bt_setBt (t : State) (k c : Nat) (x : BtEngine) : (t.setBt k c x).bt k c = x := by
  unfold State.bt State.setBt
  rw [State.die_updDie_self]
  exact SMap.getD_put_self _ _ _ _

theorem State.setBt_open (t : State) (k c : Nat) (x : BtEngine) : ((t.setBt k c x).die k).fault.open_ = (t.die k).fault.open_ := by
  unfold State.setBt
  rw [State.die_updDie_self]

theorem State.post_bt (t : State) (p : FaultPort) (event who : Nat) (d1 d2 : Word) (k c : Nat) :
    (t.post p event who d1 d2).bt k c = t.bt k c := by
  obtain ⟨g, w, h, -⟩ := t.post_die p event who d1 d2 k
  unfold State.bt
  rw [h]
  rfl

theorem State.btReport_spec (t : State) (k c code : Nat) : (t.btReport k c code).bt k c = { t.bt k c with report := code } ∧
    ((t.btReport k c code).die k).fault.open_ = (t.die k).fault.open_ := by
  unfold State.btReport
  exact ⟨(State.post_bt ..).trans (t.bt_setBt k c _), (State.post_open ..).trans (State.setBt_open ..)⟩

theorem State.btAbort_spec (t : State) (k c : Nat) : (t.btAbort k c).bt k c = { t.bt k c with run := none, report := 6 } ∧
    ((t.btAbort k c).die k).fault.open_ = (t.die k).fault.open_ := by
  unfold State.btAbort
  obtain ⟨hb, ho⟩ := (t.setBt k c { t.bt k c with run := none }).btReport_spec k c btFAULT
  obtain ⟨hb', ho'⟩ := ((t.setBt k c { t.bt k c with run := none }).btReport k c btFAULT).btReport_spec k c btABORTED
  rw [hb, State.bt_setBt] at hb'
  exact ⟨hb', ho'.trans (ho.trans (t.setBt_open k c _))⟩

section
variable {s : State} {die : Nat} {e : FaultEntry} (ho : (s.die die).fault.open_ = [e])
include ho

theorem State.closeFault_other {seq : BitVec 32} (hseq : seq ≠ e.seq) (b : Bool) : s.closeFault (.cobalt die) seq b = s := by
  have hf : (s.faultPage (.cobalt die)).open_.find? (fun x => decide (x.seq = seq)) = none := by
    rw [show (s.faultPage (.cobalt die)).open_ = [e] from ho]
    simp [Ne.symm hseq]
  unfold State.closeFault
  dsimp only
  rw [hf]

theorem State.closeFault_one (b : Bool) : s.closeFault (.cobalt die) e.seq b =
    if b then (s.shut die).serve (.cobalt die) e else (s.shut die).decline (.cobalt die) e := by
  have hopen : (s.faultPage (.cobalt die)).open_ = [e] := ho
  have hf : (s.faultPage (.cobalt die)).open_.find? (fun x => decide (x.seq = e.seq)) = some e := by
    rw [hopen]
    simp
  unfold State.closeFault
  dsimp only
  rw [hf]
  dsimp only
  rw [hopen, show [e].filter (fun x => decide (x.seq ≠ e.seq)) = [] by simp]
  rfl

theorem faultServed_eq : exec (.faultServed (.cobalt die) e.seq) s = .next ((s.shut die).serve (.cobalt die) e) :=
  congrArg Host.Outcome.next (State.closeFault_one ho true)

theorem faultDeclined_eq : exec (.faultDeclined (.cobalt die) e.seq) s = .next ((s.shut die).decline (.cobalt die) e) :=
  congrArg Host.Outcome.next (State.closeFault_one ho false)

theorem fault_unnamed (seq : BitVec 32) (b : Bool) (hseq : seq ≠ e.seq) :
    exec (if b then .faultServed (.cobalt die) seq else .faultDeclined (.cobalt die) seq) s = .next s := by
  cases b
  · exact congrArg Host.Outcome.next (State.closeFault_other ho hseq false)
  · exact congrArg Host.Outcome.next (State.closeFault_other ho hseq true)

/-! A thread that waits for its page. -/

section
variable {c : Context} (hc : s.ctx e.who = some c)
include hc

theorem genServed_spec (hsource : e.source = 0) (hw : c.wait = .page) :
    ∃ t, exec (.faultServed (.cobalt die) e.seq) s = .next t ∧ t.ctx e.who = some { c with wait := .none } ∧
      (t.die die).fault.open_ = [] ∧ (∀ a, t.memByte a = s.memByte a) := by
  have hexec := faultServed_eq ho
  unfold State.serve at hexec
  simp only [hsource] at hexec
  rw [State.genServed, State.updCtx_of (s := s.shut die) hc, if_pos (beq_iff_eq.mpr hw)] at hexec
  exact ⟨_, hexec, State.ctx_setCtx_self _ _ _, s.shut_open die, fun a => rfl⟩

theorem genDeclined_spec (hsource : e.source = 0) (hw : c.wait = .page) (hf : ∀ f, c.sch.freeze = some f → f.fatal = false)
    (hh : c.Handles) : ∃ t c', exec (.faultDeclined (.cobalt die) e.seq) s = .next t ∧
      t.ctx e.who = some c' ∧ c'.thread.pc = c.thread.tvec ∧ c'.thread.tpc = c.thread.pc ∧ c'.thread.tval = e.va ∧
      c'.thread.tcause = trapCause 3 e.sub.toNat (e.unit == 1) ∧ c'.wait = .none ∧ (t.die die).fault.open_ = [] ∧
      (∀ a, t.memByte a = s.memByte a) := by
  have hg : (s.shut die).genDeclined e.who e =
      (s.shut die).takeTrap e.who gXLATE e.sub.toNat c.thread.pc e.va (e.unit == 1) := by
    unfold State.genDeclined
    rw [State.shut_ctx, hc]
    dsimp only
    cases hfr : c.sch.freeze with
    | none => simp [hw]
    | some f => simp [hw, hf f hfr]
  have hexec := faultDeclined_eq ho
  unfold State.decline at hexec
  simp only [hsource] at hexec
  rw [hg, takeTrap_of_handles (s.shut die) e.who c hc _ _ _ _ _ hh] at hexec
  refine ⟨_, _, hexec, (State.frost_ctx ..).trans (State.ctx_setCtx_self _ _ _), rfl, rfl, rfl, rfl, rfl, ?_, fun a => ?_⟩
  · obtain ⟨cores, hfrost, -⟩ := State.frost_cases ((s.shut die).setCtx e.who { c.unwait with thread := { c.thread with
      tpc := c.thread.pc, tval := e.va, tcause := trapCause gXLATE e.sub.toNat (e.unit == 1)
      tstate := mkTstate c.thread.udep c.thread.depth c.thread.inUli true, pc := c.thread.tvec, boundary := true } }) e.who 4
      (frostTrap (BitVec.ofNat 8 (c.thread.cause gXLATE e.sub.toNat e.va).code) (BitVec.ofNat 8 (c.thread.cause gXLATE e.sub.toNat e.va).sub)
        (BitVec.ofNat 2 (c.thread.cause gXLATE e.sub.toNat e.va).cls) 0 c.thread.pc)
    rw [hfrost]
    exact s.shut_open die
  · unfold State.memByte
    rw [(State.frost_frame _ _ _ _).2.1]
    rfl

/-! A bundle that waits for its page. -/

theorem bundleServed_spec {r : Replay} (hsource : e.source = 1) (hr : c.fl.replay = some r) (hp : r.paging = true) :
    ∃ t c', exec (.faultServed (.cobalt die) e.seq) s = .next t ∧ t.ctx e.who = some c' ∧ c'.fl.replay = none ∧ c'.beFrozen = false ∧
      (r.entry.isDesc = false → c'.queue = .entry { r.entry with skip := 0 } :: c.queue) ∧ c'.thread = c.thread ∧
      (t.die die).fault.open_ = [] := by
  have hexec := faultServed_eq ho
  unfold State.serve at hexec
  simp only [hsource] at hexec
  rw [State.updCtx_of (s := s.shut die) hc] at hexec
  have hb : c.bundleServed = c.release := by
    unfold Context.bundleServed
    rw [hr]
    exact if_pos hp
  rw [hb] at hexec
  refine ⟨_, _, hexec, State.ctx_setCtx_self _ _ _, rfl, rfl, fun hd => ?_, rfl, s.shut_open die⟩
  unfold Context.release
  rw [hr]
  dsimp only
  rw [hd, hp]
  rfl

theorem bundleDeclined_spec {r : Replay} (hsource : e.source = 1) (hr : c.fl.replay = some r) (hp : r.paging = true) :
    ∃ t c', exec (.faultDeclined (.cobalt die) e.seq) s = .next t ∧ t.ctx e.who = some c' ∧ c'.bundleTrap = true ∧
      c'.fl.replay = some { r with paging := false } ∧ c'.thread.bfpc = r.entry.pc ∧ c'.thread.bfaddr = e.va ∧
      c'.thread.bfcause = BitVec.ofNat 64 (bXLATE + e.sub.toNat * 256 + r.entry.reps % 256 * 65536) ∧ (t.die die).fault.open_ = [] := by
  have hexec := faultDeclined_eq ho
  unfold State.decline at hexec
  simp only [hsource] at hexec
  rw [State.updCtx_of (s := s.shut die) hc] at hexec
  have hb : c.bundleDeclined e = { c with
      fl := { c.fl with replay := some { r with paging := false } }
      bundleTrap := true
      thread := c.thread.setBf r.entry { slot := e.unit, cause := bXLATE, sub := e.sub.toNat, addr := e.va } } := by
    unfold Context.bundleDeclined
    rw [hr]
    exact if_pos hp
  rw [hb] at hexec
  exact ⟨_, _, hexec, State.ctx_setCtx_self _ _ _, rfl, rfl, rfl, rfl, rfl, s.shut_open die⟩

/-! A copy operation. -/

omit hc in
theorem copyServed_spec (hsource : e.source = 2) : ∃ t, exec (.faultServed (.cobalt die) e.seq) s = .next t ∧
    t.contexts = s.contexts ∧ (t.die die).fault.open_ = [] := by
  have hexec := faultServed_eq ho
  unfold State.serve at hexec
  rw [hsource] at hexec
  exact ⟨_, hexec, rfl, s.shut_open die⟩

theorem copyDeclined_spec (hsource : e.source = 2) (hs : c.copySuspended e.unit = true) :
    ∃ t c', exec (.faultDeclined (.cobalt die) e.seq) s = .next t ∧ t.ctx e.who = some c' ∧ c'.thread = c.thread.pend 15 ∧
      (t.die die).fault.open_ = [] := by
  have hexec := faultDeclined_eq ho
  unfold State.decline at hexec
  simp only [hsource] at hexec
  rw [State.shut_ctx, hc] at hexec
  dsimp only at hexec
  rw [if_pos hs] at hexec
  refine ⟨_, _, hexec, State.copyDeclined_ctx (s := s.shut die) hc, rfl, ?_⟩
  unfold State.copyDeclined
  rw [State.shut_ctx, hc]
  dsimp only
  rw [State.post_open, State.setUlipend, State.updCtx_of (s := s.shut die) hc]
  exact s.shut_open die

end

/-! A block-transfer engine. -/

theorem transferServed_spec {r : BtRun} (hsource : e.source = 4) (hr : (s.bt die e.who).run = some r) :
    ∃ t, exec (.faultServed (.cobalt die) e.seq) s = .next t ∧
      t.bt die e.who = { s.bt die e.who with run := some { r with suspended := false, fault := none } } ∧ (t.die die).fault.open_ = [] := by
  have hexec := faultServed_eq ho
  unfold State.serve at hexec
  rw [hsource] at hexec
  dsimp only [portDie] at hexec
  have hb : (s.shut die).btServed die e.who =
      (s.shut die).setBt die e.who { s.bt die e.who with run := some { r with suspended := false, fault := none } } := by
    unfold State.btServed
    rw [State.shut_bt]
    dsimp only
    rw [hr]
  rw [hb] at hexec
  exact ⟨_, hexec, State.bt_setBt .., (State.setBt_open ..).trans (s.shut_open die)⟩

theorem transferDeclined_spec (hsource : e.source = 4) : ∃ t, exec (.faultDeclined (.cobalt die) e.seq) s = .next t ∧
    t.bt die e.who = { s.bt die e.who with run := none, report := 6 } ∧ (t.die die).fault.open_ = [] := by
  have hexec := faultDeclined_eq ho
  unfold State.decline at hexec
  rw [hsource] at hexec
  dsimp only [portDie] at hexec
  obtain ⟨hb, hopen⟩ := (s.shut die).btAbort_spec die e.who
  exact ⟨_, hexec, hb.trans (by rw [State.shut_bt]), hopen.trans (s.shut_open die)⟩

end

/-! ### Entries are written (R324, R327) -/

/-- The number of an entry that is written next, and who holds it. -/
def State.numbered (s : State) (p : FaultPort) (e : FaultEntry) : FaultEntry :=
  { e with seq := (s.faultPage p).fqTail, host := s.hosted (portSerac p) 0 }

theorem FaultEntry.bytes_length (e : FaultEntry) : e.bytes.length = 160 := by
  unfold FaultEntry.bytes
  have hrec : (if e.record.isEmpty then List.replicate 128 (0 : Byte) else (e.record ++ List.replicate 128 0).take 128).length = 128 := by
    split
    · exact List.length_replicate
    · rw [List.length_take, List.length_append, List.length_replicate]
      omega
  simp only [List.length_append, leBytes_length, hrec]

theorem State.report_frame (s : State) (k fn : Nat) (b : List Byte) (p : FaultPort) : (s.report k fn b).faultPage p = s.faultPage p ∧
    (s.report k fn b).contexts = s.contexts ∧ (s.report k fn b).mem = s.mem := by
  refine ⟨?_, rfl, rfl⟩
  cases p with
  | cobalt d => rfl
  | serac j =>
    unfold State.report State.faultPage
    dsimp only
    by_cases hj : j = k
    · subst hj
      rw [State.serac_updSerac_self]
      split <;> rfl
    · rw [State.serac_updSerac_ne _ _ hj]

/-- The state in which the bytes of an entry are written. -/
def State.entryStart (s : State) (p : FaultPort) (e : FaultEntry) : State :=
  (if (s.numbered p e).host then s.report (portSerac p) fwPFAULT (s.numbered p e).bytes else s).updFaultPage p
    (fun f => { f with fqTail := f.fqTail + 1, open_ := f.open_ ++ [s.numbered p e] })

theorem State.entryStart_frame (s : State) (p : FaultPort) (e : FaultEntry) :
    (s.entryStart p e).faultPage p =
      { s.faultPage p with fqTail := (s.faultPage p).fqTail + 1, open_ := (s.faultPage p).open_ ++ [s.numbered p e] } ∧
    (s.entryStart p e).contexts = s.contexts ∧ (s.entryStart p e).mem = s.mem := by
  obtain ⟨h1, h2, h3⟩ : (if (s.numbered p e).host then s.report (portSerac p) fwPFAULT (s.numbered p e).bytes else s).faultPage p =
        s.faultPage p ∧
      (if (s.numbered p e).host then s.report (portSerac p) fwPFAULT (s.numbered p e).bytes else s).contexts = s.contexts ∧
      (if (s.numbered p e).host then s.report (portSerac p) fwPFAULT (s.numbered p e).bytes else s).mem = s.mem := by
    split
    · exact s.report_frame _ _ _ p
    · exact ⟨rfl, rfl, rfl⟩
  unfold State.entryStart State.updFaultPage
  obtain ⟨g1, g2⟩ := State.setFaultPage_frame (if (s.numbered p e).host then s.report (portSerac p) fwPFAULT (s.numbered p e).bytes else s) p
    ((fun f : FaultPage => { f with fqTail := f.fqTail + 1, open_ := f.open_ ++ [s.numbered p e] })
      ((if (s.numbered p e).host then s.report (portSerac p) fwPFAULT (s.numbered p e).bytes else s).faultPage p))
  refine ⟨?_, g1.trans h2, g2.trans h3⟩
  rw [State.faultPage_setFaultPage, h1]

theorem State.writeFaultEntry_eq (s : State) (p : FaultPort) (e : FaultEntry) : s.writeFaultEntry p e =
    (s.entryStart p e).homeWriteBytes (portPkg p)
      (queuePa (s.faultPage p).fqbase + 160 * ((s.faultPage p).fqTail.toNat % queueSize (s.faultPage p).fqbase))
      (s.numbered p e).bytes false false := rfl

theorem State.writeFaultEntry_spec (s : State) (p : FaultPort) (e : FaultEntry) :
    (s.writeFaultEntry p e).faultPage p =
      { s.faultPage p with fqTail := (s.faultPage p).fqTail + 1, open_ := (s.faultPage p).open_ ++ [s.numbered p e] } ∧
    (s.writeFaultEntry p e).contexts = s.contexts ∧
    (s.MemWf → ∀ a,
      let at_ := memKey (portPkg p) (queuePa (s.faultPage p).fqbase + 160 * ((s.faultPage p).fqTail.toNat % queueSize (s.faultPage p).fqbase))
      (s.writeFaultEntry p e).memByte a =
        if at_ ≤ a ∧ a < at_ + 160 then (s.numbered p e).bytes.getD (a - at_) 0 else s.memByte a) := by
  obtain ⟨hpage, hctx, hmem⟩ := s.entryStart_frame p e
  rw [State.writeFaultEntry_eq]
  refine ⟨(State.homeWriteBytes_faultPage ..).trans hpage, ?_, fun hwf a => ?_⟩
  · exact (State.homeWriteBytes_contexts ..).trans hctx
  · have hwf' : (s.entryStart p e).MemWf := by
      unfold State.MemWf
      rw [hmem]
      exact hwf
    intro at_
    rw [State.homeWriteBytes_read _ _ _ _ _ _ hwf' a, FaultEntry.bytes_length]
    unfold State.memByte
    rw [hmem]

theorem State.drainFaults_stops (s : State) (p : FaultPort) (n : Nat)
    (h : (s.faultPage p).waiting = [] ∨ (s.faultPage p).hasRoom = false) : s.drainFaults p n = s := by
  cases n with
  | zero => rfl
  | succ n =>
    unfold State.drainFaults
    dsimp only
    obtain h | h := h
    · rw [h]
    · split
      · rfl
      · rw [h]
        rfl

theorem State.drainFaults_first (s : State) (p : FaultPort) {e : FaultEntry} (hw : (s.faultPage p).waiting = [e])
    (hroom : (s.faultPage p).hasRoom = true) :
    s.drainFaults p 1 = (s.setFaultPage p { s.faultPage p with waiting := [] }).writeFaultEntry p e := by
  unfold State.drainFaults
  dsimp only
  rw [hw]
  dsimp only
  rw [hroom]
  rfl

theorem State.setFaultPage_setFaultPage (s : State) (p : FaultPort) (f g : FaultPage) :
    (s.setFaultPage p f).setFaultPage p g = s.setFaultPage p g := by
  cases p with
  | cobalt d =>
    unfold State.setFaultPage
    dsimp only
    rw [State.updDie, State.die_updDie_self]
    simp only [State.updDie, State.setDie, SMap.put_put]
  | serac k =>
    unfold State.setFaultPage
    dsimp only
    rw [State.updSerac, State.serac_updSerac_self]
    simp only [State.updSerac, State.setSerac, SMap.put_put]

theorem State.hosted_setFaultPage (s : State) (p : FaultPort) (f : FaultPage) (k fn : Nat) :
    (s.setFaultPage p f).hosted k fn = s.hosted k fn := by
  unfold State.hosted
  cases p with
  | cobalt d => rfl
  | serac j =>
    unfold State.setFaultPage
    dsimp only
    by_cases hj : k = j
    · subst hj
      rw [State.serac_updSerac_self]
    · rw [State.serac_updSerac_ne _ _ hj]

section
variable (s : State) (p : FaultPort) (head : BitVec 32)

theorem faultHead_stays (h : (s.faultPage p).waiting = [] ∨ ({ s.faultPage p with fqHead := head } : FaultPage).hasRoom = false) :
    exec (.faultQueueHeadAdvance p head) s = .next (s.setFaultPage p { s.faultPage p with fqHead := head }) := by
  refine congrArg Host.Outcome.next (State.drainFaults_stops _ _ _ ?_)
  rw [State.faultPage_setFaultPage]
  exact h

theorem faultHead_takes {e : FaultEntry} (hw : (s.faultPage p).waiting = [e])
    (hroom : ({ s.faultPage p with fqHead := head } : FaultPage).hasRoom = true) (hwf : s.MemWf) :
    let f := s.faultPage p
    let e' : FaultEntry := { e with seq := f.fqTail, host := s.hosted (portSerac p) 0 }
    let at_ := memKey (portPkg p) (queuePa f.fqbase + 160 * (f.fqTail.toNat % queueSize f.fqbase))
    ∃ t, exec (.faultQueueHeadAdvance p head) s = .next t ∧
      t.faultPage p = { f with fqHead := head, waiting := [], fqTail := f.fqTail + 1, open_ := f.open_ ++ [e'] } ∧
      t.contexts = s.contexts ∧
      ∀ a, t.memByte a = if at_ ≤ a ∧ a < at_ + 160 then e'.bytes.getD (a - at_) 0 else s.memByte a := by
  intro f e' at_
  have hexec : exec (.faultQueueHeadAdvance p head) s = .next
      ((s.setFaultPage p { f with fqHead := head, waiting := [] }).writeFaultEntry p e) := by
    refine congrArg Host.Outcome.next ?_
    unfold State.moveFaultHead
    dsimp only
    rw [show (s.faultPage p).waiting.length = 1 by rw [hw]; rfl]
    refine (State.drainFaults_first _ p (by rw [State.faultPage_setFaultPage]; exact hw) (by rw [State.faultPage_setFaultPage]; exact hroom)).trans ?_
    rw [State.faultPage_setFaultPage, State.setFaultPage_setFaultPage]
  have hnum : (s.setFaultPage p { f with fqHead := head, waiting := [] }).numbered p e = e' := by
    unfold State.numbered
    rw [State.faultPage_setFaultPage, State.hosted_setFaultPage]
  obtain ⟨hctx, hmem⟩ := s.setFaultPage_frame p { f with fqHead := head, waiting := [] }
  obtain ⟨hpage, hctx', hbytes⟩ := (s.setFaultPage p { f with fqHead := head, waiting := [] }).writeFaultEntry_spec p e
  rw [hnum, State.faultPage_setFaultPage] at hpage
  refine ⟨_, hexec, hpage, hctx'.trans hctx, fun a => ?_⟩
  have hb := hbytes (by unfold State.MemWf; rw [hmem]; exact hwf) a
  rw [hnum, State.faultPage_setFaultPage] at hb
  refine hb.trans ?_
  unfold State.memByte
  rw [hmem]

theorem queueFault_waits (e : FaultEntry) (h : (s.faultPage p).hasRoom = false ∨ (s.faultPage p).waiting ≠ []) :
    s.queueFault p e = s.setFaultPage p { s.faultPage p with
      waiting := (s.faultPage p).waiting ++ [e], waited := satInc32 (s.faultPage p).waited } := by
  refine if_neg ?_
  rw [Bool.and_eq_true, List.isEmpty_iff]
  rintro ⟨hroom, hw⟩
  obtain h | h := h
  · rw [h] at hroom
    exact nomatch hroom
  · exact h hw

theorem queueFault_written (e : FaultEntry) (hroom : (s.faultPage p).hasRoom = true) (hw : (s.faultPage p).waiting = []) :
    (s.queueFault p e).faultPage p = { s.faultPage p with
      fqTail := (s.faultPage p).fqTail + 1
      open_ := (s.faultPage p).open_ ++ [{ e with seq := (s.faultPage p).fqTail, host := s.hosted (portSerac p) 0 }] } := by
  have hq : s.queueFault p e = s.writeFaultEntry p e := if_pos (by rw [hroom, hw]; rfl)
  rw [hq]
  exact (s.writeFaultEntry_spec p e).1

end

/-! ### Stores to registers (R3, R46) -/

/-- A store of a register's whole doubleword merges nothing of what it held. -/
theorem merge_whole (w v : Word) : (w &&& ~~~(BitVec.ofNat 64 ((2 ^ (8 * 8) - 1) * 2 ^ (8 * 0))) |||
    ((v <<< (8 * 0)) &&& BitVec.ofNat 64 ((2 ^ (8 * 8) - 1) * 2 ^ (8 * 0)))) = v := by
  have hm : BitVec.ofNat 64 ((2 ^ (8 * 8) - 1) * 2 ^ (8 * 0)) = BitVec.allOnes 64 := by decide
  rw [hm, BitVec.not_allOnes, BitVec.and_zero, BitVec.zero_or, Nat.mul_zero, BitVec.shiftLeft_zero, BitVec.and_allOnes]

section
variable (s : State) (v : Word)

theorem registerWrite_bdecay (die : Nat) :
    exec (.registerWrite (.sched die) 0x08 8 v) s = .next (s.setDie die { s.die die with bdecay := v &&& 0xFFFFFFFF }) := by
  have hexec : exec (.registerWrite (.sched die) 0x08 8 v) s = .next (s.pageStore (.sched die) 0x08 _) := rfl
  rw [merge_whole] at hexec
  exact hexec

theorem registerWrite_slice (die : Nat) : exec (.registerWrite (.sched die) 0x10 4 v) s = .next (s.setDie die { s.die die with slice :=
    ((s.die die).slice &&& 0xFFFFFFFF00000000 ||| v &&& 0xFFFFFFFF) &&& 0xFFFFFFFFFFFF }) := by
  have hexec : exec (.registerWrite (.sched die) 0x10 4 v) s = .next (s.pageStore (.sched die) 0x10
      ((s.die die).slice &&& ~~~(BitVec.ofNat 64 ((2 ^ (8 * 4) - 1) * 2 ^ (8 * 0))) |||
        ((v <<< (8 * 0)) &&& BitVec.ofNat 64 ((2 ^ (8 * 4) - 1) * 2 ^ (8 * 0))))) := rfl
  have hkept : ~~~(BitVec.ofNat 64 ((2 ^ (8 * 4) - 1) * 2 ^ (8 * 0))) = 0xFFFFFFFF00000000#64 := by decide
  have hmask : BitVec.ofNat 64 ((2 ^ (8 * 4) - 1) * 2 ^ (8 * 0)) = 0xFFFFFFFF#64 := by decide
  rw [hkept, hmask, Nat.mul_zero, BitVec.shiftLeft_zero] at hexec
  exact hexec

theorem registerWrite_invaddr (die : Nat) : exec (.registerWrite (.invalidation die) 0x00 8 v) s =
    .next (s.setDie die { s.die die with invaddr := v &&& 0x01FFFFFFFFFF0000 }) := by
  have hexec : exec (.registerWrite (.invalidation die) 0x00 8 v) s = .next (s.pageStore (.invalidation die) 0x00 _) := rfl
  rw [merge_whole] at hexec
  exact hexec

theorem registerWrite_tseq (k : Nat) :
    exec (.registerWrite (.collective k) 0x08 8 v) s = .next (s.setSerac k { s.serac k with tseq := v &&& 0x11FFF }) := by
  have hexec : exec (.registerWrite (.collective k) 0x08 8 v) s = .next (s.pageStore (.collective k) 0x08 _) := rfl
  rw [merge_whole] at hexec
  exact hexec

theorem registerWrite_fwmode (k : Nat) :
    exec (.registerWrite (.management k) 0x00 8 v) s = .next (s.setSerac k { s.serac k with fwmode := v &&& 0x3F }) := by
  have hexec : exec (.registerWrite (.management k) 0x00 8 v) s = .next (s.pageStore (.management k) 0x00 _) := rfl
  rw [merge_whole] at hexec
  exact hexec

theorem registerWrite_undoArea (k : Nat) : exec (.registerWrite (.tableEntry k) 0x10 8 v) s = .next (s.updDie (k / 1024) (fun d => { d with
    undoAreas := SMap.put d.undoAreas (k % 1024) (v &&& 0x000FFFFFFFFFF000) })) := by
  have hexec : exec (.registerWrite (.tableEntry k) 0x10 8 v) s = .next (s.pageStore (.tableEntry k) 0x10 _) := rfl
  rw [merge_whole] at hexec
  exact hexec

/-! The landing descriptor, which changes only while the ring is empty (R272). -/

theorem registerWrite_landDesc (k : Nat) : exec (.registerWrite (.tableEntry k) 0x00 8 v) s = .next (s.storeEntry k 0x00 v) := by
  have hexec : exec (.registerWrite (.tableEntry k) 0x00 8 v) s = .next (s.pageStore (.tableEntry k) 0x00 _) := rfl
  rw [merge_whole] at hexec
  exact hexec

theorem landDesc_stored (k : Nat) (he : ∀ c, s.ctx k = some c → c.land.head = c.land.tail) :
    ∃ t, exec (.registerWrite (.tableEntry k) 0x00 8 v) s = .next t ∧ t.landDesc k = v &&& 0x000FFFFFFFFFF03F ∧
      t.contexts = s.contexts ∧ t.mem = s.mem := by
  have hstore : s.storeEntry k 0x00 v =
      s.updDie (k / 1024) (fun d => { d with landDescs := SMap.put d.landDescs (k % 1024) (v &&& maskLandDesc) }) := by
    unfold State.storeEntry
    cases hc : s.ctx k with
    | none => rfl
    | some c => exact if_pos (beq_iff_eq.mpr (he c hc))
  refine ⟨_, (registerWrite_landDesc s v k).trans (congrArg _ hstore), ?_, rfl, rfl⟩
  unfold State.landDesc
  rw [State.die_updDie_self]
  exact SMap.getD_put_self _ _ _ _

theorem landDesc_kept (k : Nat) {c : Context} (hc : s.ctx k = some c) (hne : c.land.head ≠ c.land.tail) :
    exec (.registerWrite (.tableEntry k) 0x00 8 v) s = .next s := by
  refine (registerWrite_landDesc s v k).trans (congrArg _ ?_)
  unfold State.storeEntry
  rw [hc]
  exact if_neg (fun h => hne (beq_iff_eq.mp h))

end

/-! ### Steals (R14) -/

theorem firstSteal_spec (l : List (Nat × Graph × Steal)) (x : Nat × Graph × Steal) (h : firstSteal l = some x) :
    x ∈ l ∧ ∀ y ∈ l, x.2.2.seq ≤ y.2.2.seq := by
  induction l generalizing x with
  | nil => exact nomatch h
  | cons a rest ih =>
    unfold firstSteal at h
    cases hf : firstSteal rest with
    | none =>
      have hrest : rest = [] := by
        cases rest with
        | nil => rfl
        | cons b l =>
          unfold firstSteal at hf
          split at hf
          · exact nomatch hf
          · split at hf <;> exact nomatch hf
      rw [hf, Option.some_inj] at h
      subst h hrest
      simp
    | some y =>
      rw [hf] at h
      dsimp only at h
      obtain ⟨hmem, hmin⟩ := ih y hf
      split at h
      · rename_i hlt
        cases h
        exact ⟨List.mem_cons_of_mem _ hmem, List.forall_mem_cons.mpr ⟨Nat.le_of_lt hlt, hmin⟩⟩
      · rename_i hge
        cases h
        exact ⟨List.mem_cons_self, List.forall_mem_cons.mpr ⟨Nat.le_refl _, fun z hz => Nat.le_trans (Nat.le_of_not_lt hge) (hmin z hz)⟩⟩

section
variable (s : State) (die : Nat)

theorem stealRequest_first {gid : Nat} {g : Graph} {x : Steal} (h : firstSteal (s.stealRequests die) = some (gid, g, x)) :
    let lo := (g.share x.victim).1
    let hi := (g.share x.victim).2
    let n := if hi - lo < 2 then 0 else (hi - lo) / 2
    (gid, g, x) ∈ s.stealRequests die ∧ (∀ y ∈ s.stealRequests die, x.seq ≤ y.2.2.seq) ∧
    exec (.stealRequest die) s = .next (s.setGraph gid { g with
      shares := SMap.put g.shares x.victim (lo, hi - n)
      steals := g.steals.map (fun y => if y = x then { x with answer := some (hi - n, hi) } else y) }) := by
  obtain ⟨hmem, hmin⟩ := firstSteal_spec _ _ h
  refine ⟨hmem, hmin, ?_⟩
  rw [exec_stealRequest, execStealRequest, h]
  rfl

theorem stealRequest_none (h : s.stealRequests die = []) : exec (.stealRequest die) s = .next s := by
  rw [exec_stealRequest, execStealRequest, h]
  rfl

theorem Graph.takeAnswer_spec (g : Graph) (me : Nat) {x : Steal} {lo hi : Nat}
    (hf : g.steals.find? (fun x => decide (x.thief = me) && x.answer.isSome) = some x) (ha : x.answer = some (lo, hi)) :
    (g.takeAnswer me).steals = g.steals.filter (fun y => decide (y.thief ≠ me)) ∧
    (lo < hi → (g.takeAnswer me).share me = (lo, hi)) ∧
    (hi ≤ lo → (g.takeAnswer me).tried = g.tried ++ [(me, x.victim)] ∧ (g.takeAnswer me).shares = g.shares) := by
  unfold Graph.takeAnswer
  rw [hf]
  dsimp only
  rw [ha]
  dsimp only [Option.getD_some]
  by_cases hlt : lo < hi
  · rw [if_pos hlt]
    exact ⟨rfl, fun _ => SMap.getD_put_self _ _ _ _, fun hle => absurd hle (Nat.not_le_of_lt hlt)⟩
  · rw [if_neg hlt]
    exact ⟨rfl, fun h => absurd h hlt, fun _ => ⟨rfl, rfl⟩⟩

theorem stealAnswer_spec {gid : Nat} {g : Graph} {x : Steal} {lo hi : Nat} (hg : SMap.find s.graphs gid = some g)
    (hpkg : pkgOfDie g.queueDie = pkgOfDie die)
    (hf : g.steals.find? (fun x => decide (x.thief = die % 8) && x.answer.isSome) = some x) (ha : x.answer = some (lo, hi)) :
    ∃ t g', exec (.stealAnswer die) s = .next t ∧ SMap.find t.graphs gid = some g' ∧
      g'.steals = g.steals.filter (fun y => decide (y.thief ≠ die % 8)) ∧
      (lo < hi → g'.share (die % 8) = (lo, hi)) ∧ (hi ≤ lo → g'.tried = g.tried ++ [(die % 8, x.victim)] ∧ g'.shares = g.shares) ∧
      t.mem = s.mem ∧ t.contexts = s.contexts := by
  obtain ⟨hsteals, hsome, hnone⟩ := g.takeAnswer_spec (die % 8) hf ha
  refine ⟨_, g.takeAnswer (die % 8), rfl, ?_, hsteals, hsome, hnone, rfl, rfl⟩
  have hmap : s.graphs.map (fun p => if pkgOfDie p.2.queueDie = pkgOfDie die then (p.1, p.2.takeAnswer (die % 8)) else p) =
      s.graphs.map (fun p => (p.1, if pkgOfDie p.2.queueDie = pkgOfDie die then p.2.takeAnswer (die % 8) else p.2)) :=
    List.map_congr_left fun p _ => by split <;> rfl
  show SMap.find (s.graphs.map _) gid = _
  rw [hmap, SMap.find_map_values (fun q : Graph => if pkgOfDie q.queueDie = pkgOfDie die then q.takeAnswer (die % 8) else q), hg]
  exact congrArg some (if_pos hpkg)

end

/-! ### Capacity that remains (R259, R282) -/

/-- A property of the entries of a map that the change of one entry keeps, and that no missing entry has. -/
theorem SMap.any_put {α : Type} (P : Nat × α → Bool) (m : SMap α) (k : Nat) (f : α → α) (d : α) (hf : ∀ a, P (k, f a) = P (k, a))
    (hd : P (k, d) = false) : (SMap.put m k (f (SMap.getD m k d))).any P = m.any P := by
  induction m with
  | nil => simp [SMap.put, SMap.getD, SMap.find, hf, hd]
  | cons x rest ih =>
    obtain ⟨j, b⟩ := x
    by_cases heq : k = j
    · subst heq
      simp [SMap.put, SMap.getD, SMap.find, hf]
    · have hget : SMap.getD ((j, b) :: rest) k d = SMap.getD rest k d := by simp [SMap.getD, SMap.find, Ne.symm heq]
      by_cases hlt : k < j
      · have hput : SMap.put ((j, b) :: rest) k (f (SMap.getD rest k d)) = (k, f (SMap.getD rest k d)) :: (j, b) :: rest := by
          simp [SMap.put, hlt]
        rw [hget, hput, List.any_cons, hf]
        cases hP : P (k, SMap.getD rest k d) with
        | false => rfl
        | true =>
          have hmem : (k, SMap.getD rest k d) ∈ rest := by
            unfold SMap.getD at hP ⊢
            cases hfind : SMap.find rest k with
            | none =>
              rw [hfind] at hP
              exact absurd (hP.symm.trans hd) (by decide)
            | some a => exact SMap.find_of_mem hfind
          rw [Bool.true_or, List.any_eq_true.mpr ⟨_, List.mem_cons_of_mem _ hmem, hP⟩]
      · have hput : SMap.put ((j, b) :: rest) k (f (SMap.getD rest k d)) = (j, b) :: SMap.put rest k (f (SMap.getD rest k d)) := by
          simp [SMap.put, hlt, heq]
        rw [hget, hput, List.any_cons, List.any_cons, ih]

/-- What a retirement's consequences leave: contexts, cores, channels, links, the flash, the programmed minima, and the partitions of the dies
outside a set. -/
structure Spares (P : Nat → Prop) (s t : State) : Prop where
  contexts : t.contexts = s.contexts
  cores : t.cores = s.cores
  channels : ∀ k, (t.die k).retiredChannels = (s.die k).retiredChannels
  minima : ∀ k p, ((t.die k).part p).minima = ((s.die k).part p).minima
  parts : ∀ k, ¬ P k → (t.die k).parts = (s.die k).parts
  links : ∀ k, (t.serac k).retiredLinks = (s.serac k).retiredLinks
  flash : ∀ k, (t.serac k).flash = (s.serac k).flash
  retired : ∀ pkg, t.anyRetired pkg = s.anyRetired pkg

section
variable {P : Nat → Prop}

theorem Spares.refl (s : State) : Spares P s s :=
  ⟨rfl, rfl, fun _ => rfl, fun _ _ => rfl, fun _ _ => rfl, fun _ => rfl, fun _ => rfl, fun _ => rfl⟩

theorem Spares.trans {s t u : State} (h : Spares P s t) (g : Spares P t u) : Spares P s u where
  contexts := g.contexts.trans h.contexts
  cores := g.cores.trans h.cores
  channels k := (g.channels k).trans (h.channels k)
  minima k p := (g.minima k p).trans (h.minima k p)
  parts k hk := (g.parts k hk).trans (h.parts k hk)
  links k := (g.links k).trans (h.links k)
  flash k := (g.flash k).trans (h.flash k)
  retired pkg := (g.retired pkg).trans (h.retired pkg)

theorem Spares.mono {Q : Nat → Prop} {s t : State} (h : Spares P s t) (hpq : ∀ k, P k → Q k) : Spares Q s t :=
  { h with parts := fun k hk => h.parts k (fun hp => hk (hpq k hp)) }

theorem Spares.foldl {α : Type} (f : State → α → State) (hf : ∀ s a, Spares P s (f s a)) (l : List α) :
    ∀ s, Spares P s (l.foldl f s) := by
  induction l with
  | nil => exact Spares.refl
  | cons a l ih => exact fun s => (hf s a).trans (ih (f s a))

theorem Spares.updSerac (s : State) (k : Nat) (f : Serac → Serac)
    (hf : ∀ d, (f d).retiredLinks = d.retiredLinks ∧ (f d).flash = d.flash) : Spares P s (s.updSerac k f) where
  contexts := rfl
  cores := rfl
  channels _ := rfl
  minima _ _ := rfl
  parts _ _ := rfl
  links j := by
    by_cases hj : j = k
    · subst hj
      rw [State.serac_updSerac_self, (hf _).1]
    · rw [State.serac_updSerac_ne _ _ hj]
  flash j := by
    by_cases hj : j = k
    · subst hj
      rw [State.serac_updSerac_self, (hf _).2]
    · rw [State.serac_updSerac_ne _ _ hj]
  retired pkg := by
    unfold State.anyRetired
    refine congrArg _ (SMap.any_put _ s.seracs k f Serac.reset (fun a => ?_) ?_)
    · rw [(hf a).1]
    · simp [Serac.reset]

theorem Spares.updDie (s : State) (k : Nat) (f : Die → Die) (hc : ∀ d, (f d).retiredChannels = d.retiredChannels)
    (hm : ∀ d p, ((f d).part p).minima = (d.part p).minima) (hp : P k ∨ ∀ d, (f d).parts = d.parts) : Spares P s (s.updDie k f) where
  contexts := rfl
  cores := rfl
  channels j := by
    by_cases hj : j = k
    · subst hj
      rw [State.die_updDie_self, hc]
    · rw [State.die_updDie_ne _ _ hj]
  minima j p := by
    by_cases hj : j = k
    · subst hj
      rw [State.die_updDie_self, hm]
    · rw [State.die_updDie_ne _ _ hj]
  parts j hj' := by
    by_cases hj : j = k
    · subst hj
      rw [State.die_updDie_self, hp.resolve_left hj']
    · rw [State.die_updDie_ne _ _ hj]
  links _ := rfl
  flash _ := rfl
  retired pkg := by
    unfold State.anyRetired
    refine congrArg (fun b => b || _ || _) (SMap.any_put _ s.dies k f Die.reset (fun a => ?_) ?_)
    · rw [hc a]
    · simp [Die.reset]

theorem State.homeWriteLine_dies_any (Q : Nat → List Nat → Bool) (s : State) (pkg line : Nat) (mask : BitVec 64) (data : Line) (p g : Bool) :
    (s.homeWriteLine pkg line mask data p g).dies.any (fun x => Q x.1 x.2.retiredChannels) =
      s.dies.any (fun x => Q x.1 x.2.retiredChannels) := by
  unfold State.homeWriteLine
  split
  · rfl
  · dsimp only
    rw [State.answerWaiters_dies, State.tagLine_dies, List.any_map]
    refine congrArg (List.any s.dies) (funext fun x => ?_)
    dsimp only [Function.comp_apply]
    unfold Die.answered
    split <;> rfl

theorem State.homeWriteBytes_dies_any (Q : Nat → List Nat → Bool) (s : State) (pkg pa : Nat) (b : List Byte) (p g : Bool) :
    (s.homeWriteBytes pkg pa b p g).dies.any (fun x => Q x.1 x.2.retiredChannels) =
      s.dies.any (fun x => Q x.1 x.2.retiredChannels) := by
  unfold State.homeWriteBytes
  split
  · rfl
  · generalize List.range _ = l
    induction l generalizing s with
    | nil => rfl
    | cons i l ih =>
      rw [List.foldl_cons, ih]
      exact s.homeWriteLine_dies_any Q ..

theorem Spares.homeWriteBytes (s : State) (pkg pa : Nat) (b : List Byte) (p g : Bool) : Spares P s (s.homeWriteBytes pkg pa b p g) := by
  obtain ⟨x, y, z, h⟩ := State.homeWriteBytes_only s pkg pa b p g
  have hdie := s.homeWriteBytes_die pkg pa b p g
  have hany := fun Q => s.homeWriteBytes_dies_any Q pkg pa b p g
  refine ⟨by rw [h], by rw [h], fun k => ?_, fun k q => ?_, fun k _ => ?_, fun k => by rw [h]; rfl, fun k => by rw [h]; rfl, fun q => ?_⟩
  · obtain ⟨w, hw⟩ := hdie k
    rw [hw]
  · obtain ⟨w, hw⟩ := hdie k
    rw [hw]
    rfl
  · obtain ⟨w, hw⟩ := hdie k
    rw [hw]
  · unfold State.anyRetired
    rw [hany (fun k c => decide (pkgOfDie k = q) && !c.isEmpty), h]

theorem Spares.setFaultPage (s : State) (p : FaultPort) (f : FaultPage) : Spares P s (s.setFaultPage p f) := by
  cases p with
  | cobalt d => exact Spares.updDie s d (fun x => { x with fault := f }) (fun _ => rfl) (fun _ _ => rfl) (.inr fun _ => rfl)
  | serac k => exact Spares.updSerac s k (fun x => { x with fault := f }) (fun _ => ⟨rfl, rfl⟩)

theorem Spares.post (s : State) (p : FaultPort) (event who : Nat) (d1 d2 : Word) : Spares P s (s.post p event who d1 d2) := by
  cases h : queueConfigured (s.faultPage p).eqbase with
  | false =>
    rw [s.post_of_none p event who d1 d2 h]
    exact Spares.setFaultPage s p _
  | true =>
    rw [s.post_of_queue p event who d1 d2 h]
    have hcycles : Spares P s (s.passCycles p) := by
      cases p with
      | cobalt d => exact Spares.refl s
      | serac k => exact Spares.updSerac s k (fun d => { d with cycle := s.portCycle (.serac k) }) (fun _ => ⟨rfl, rfl⟩)
    have hforward : Spares P (s.passCycles p) ((s.passCycles p).forward p event (s.eventRecord p event who d1 d2)) := by
      unfold State.forward
      split
      · split
        · exact Spares.updSerac _ _ _ (fun _ => ⟨rfl, rfl⟩)
        · exact Spares.refl _
      · exact Spares.refl _
    exact ((hcycles.trans hforward).trans (Spares.setFaultPage _ p _)).trans (Spares.homeWriteBytes _ _ _ _ _ _)

theorem Spares.faultMembers (s : State) (k : Nat) (words : List Nat) (coord comm inst cause : Nat) (sub : BitVec 8) :
    Spares P s (s.faultMembers k words coord comm inst cause sub) := by
  refine Spares.foldl _ (fun t q => ?_) _ s
  dsimp only
  split
  · exact Spares.refl t
  · exact Spares.updSerac t _ _ (fun _ => ⟨rfl, rfl⟩)

theorem Spares.faultUnreached (s : State) (k : Nat) (lost : Nat → Bool) : Spares P s (s.faultUnreached k lost) := by
  refine Spares.foldl _ (fun t e => ?_) _ s
  split
  · exact Spares.refl t
  · split
    · refine Spares.foldl _ (fun u x => ?_) _ t
      split
      · exact Spares.refl u
      · exact Spares.faultMembers u _ _ _ _ _ _ _
    · exact Spares.refl t

theorem Spares.faultSevered (s : State) (k : Nat) : Spares P s (s.faultSevered k) := by
  unfold State.faultSevered
  split
  · exact Spares.refl s
  · exact Spares.foldl _ (fun t j => Spares.faultUnreached t j _) _ s

/-! The minima of a die are scaled. -/

theorem Spares.scaled {s t : State} (h : Spares P s t) (die kind n : Nat) : t.scaled die kind n = s.scaled die kind n := by
  have hcap : t.capacity die kind = s.capacity die kind := by
    unfold State.capacity State.core
    rw [h.cores, h.channels]
  have hsum : (t.die die).sumMin kind = (s.die die).sumMin kind := by
    unfold Die.sumMin
    simp only [h.minima]
  unfold State.scaled
  rw [hcap, hsum, h.retired]

/-- A partition's registers with the minima in force computed. -/
def State.effective (s : State) (die : Nat) (r : PartRegs) : PartRegs :=
  { r with effmin := BitVec.ofNat 64 ((List.range 3).foldl (fun a k => a + s.scaled die k (minimumOf k r.minima) * 2 ^ (16 * k)) 0) }

theorem Spares.effective {s t : State} (h : Spares P s t) (die : Nat) (r : PartRegs) : t.effective die r = s.effective die r := by
  unfold State.effective
  simp only [h.scaled]

/-- A die with its partitions' registers changed. -/
def Die.mapParts (g : PartRegs → PartRegs) (d : Die) : Die := { d with parts := d.parts.map (fun p => (p.1, g p.2)) }

theorem State.rescale_eq (s : State) (die : Nat) : s.rescale die = s.updDie die (Die.mapParts (s.effective die)) := rfl

theorem State.rescale_parts (s : State) (die : Nat) :
    ((s.rescale die).die die).parts = (s.die die).parts.map (fun p => (p.1, s.effective die p.2)) := by
  rw [State.rescale_eq, State.die_updDie_self]
  rfl

theorem Die.mapParts_minima (g : PartRegs → PartRegs) (hg : ∀ r, (g r).minima = r.minima) (d : Die) (p : Nat) :
    ((d.mapParts g).part p).minima = (d.part p).minima := by
  unfold Die.mapParts Die.part SMap.getD
  dsimp only
  rw [SMap.find_map_values g]
  cases SMap.find d.parts p with
  | none => rfl
  | some r => exact hg r

theorem Die.mapParts_channels (g : PartRegs → PartRegs) (d : Die) : (d.mapParts g).retiredChannels = d.retiredChannels := rfl

theorem State.effective_minima (s : State) (die : Nat) (r : PartRegs) : (s.effective die r).minima = r.minima := by
  unfold State.effective
  generalize List.foldl _ _ _ = n
  rfl

theorem Spares.rescale (s : State) (die : Nat) (hP : P die) : Spares P s (s.rescale die) := by
  rw [State.rescale_eq]
  exact Spares.updDie s die _ (Die.mapParts_channels _) (Die.mapParts_minima _ (s.effective_minima die)) (.inl hP)

theorem Spares.overcommit (s : State) (die : Nat) : Spares P s (s.overcommit die) := by
  refine Spares.foldl _ (fun t kind => ?_) _ s
  dsimp only
  split
  · exact Spares.post t _ _ _ _ _
  · exact Spares.refl t

end

/-- A die's minima after a retirement are computed again, and reported. -/
def State.rescaled (report : Bool) (s : State) (die : Nat) : State := if report then (s.rescale die).overcommit die else s.rescale die

theorem State.rescaled_spec (s : State) (report : Bool) (die : Nat) : Spares (· = die) s (s.rescaled report die) ∧
    ((s.rescaled report die).die die).parts = (s.die die).parts.map (fun p => (p.1, s.effective die p.2)) := by
  have hr : Spares (· = die) s (s.rescale die) := Spares.rescale s die rfl
  unfold State.rescaled
  cases report with
  | false => exact ⟨hr, s.rescale_parts die⟩
  | true =>
    have ho : Spares (fun _ => False) (s.rescale die) ((s.rescale die).overcommit die) := Spares.overcommit _ die
    exact ⟨hr.trans (ho.mono (fun _ h => h.elim)), (ho.parts die not_false).trans (s.rescale_parts die)⟩

theorem State.foldl_rescaled (report : Bool) (l : List Nat) (hl : l.Nodup) : ∀ s : State,
    Spares (· ∈ l) s (l.foldl (State.rescaled report) s) ∧ ∀ d ∈ l, ((l.foldl (State.rescaled report) s).die d).parts =
      (s.die d).parts.map (fun p => (p.1, s.effective d p.2)) := by
  induction l with
  | nil => exact fun s => ⟨Spares.refl s, fun d hd => nomatch hd⟩
  | cons a l ih =>
    intro s
    obtain ⟨ha, hnd⟩ := List.nodup_cons.mp hl
    obtain ⟨hstep, hparts⟩ := s.rescaled_spec report a
    obtain ⟨hrest, hall⟩ := ih hnd (s.rescaled report a)
    refine ⟨(hstep.mono (fun k hk => hk ▸ List.mem_cons_self)).trans (hrest.mono (fun k hk => List.mem_cons_of_mem _ hk)), fun d hd => ?_⟩
    obtain rfl | hd := List.mem_cons.mp hd
    · exact (hrest.parts d ha).trans hparts
    · have hne : d ≠ a := fun h => ha (h ▸ hd)
      refine (hall d hd).trans ?_
      rw [hstep.parts d hne]
      simp only [hstep.effective]

theorem State.afterRetirement_spec (s : State) (pkg : Nat) (report : Bool) :
    Spares (fun d => pkgOfDie d = pkg) s (s.afterRetirement pkg report) ∧ ∀ d, pkgOfDie d = pkg →
      ((s.afterRetirement pkg report).die d).parts = (s.die d).parts.map (fun p => (p.1, s.effective d p.2)) := by
  have hnd : ((List.range 8).map (8 * pkg + ·)).Nodup := List.nodup_range.map (fun a b h => Nat.add_left_cancel h)
  have hmem (d : Nat) : d ∈ (List.range 8).map (8 * pkg + ·) ↔ pkgOfDie d = pkg := by
    simp only [List.mem_map, List.mem_range, pkgOfDie]
    exact ⟨fun ⟨i, hi, h⟩ => by omega, fun h => ⟨d % 8, by omega, by omega⟩⟩
  obtain ⟨hs, hparts⟩ := State.foldl_rescaled report _ hnd s
  exact ⟨hs.mono (fun d hd => (hmem d).mp hd), fun d hd => hparts d ((hmem d).mpr hd)⟩

/-! ### Retirement (R282, R348) -/

/-- Recording a retirement changes retirement lists alone. -/
theorem State.listRetired_frame (s : State) (die : Nat) (u : RetireUnit) (out : Bool) :
    (s.listRetired die u out).contexts = s.contexts ∧ (s.listRetired die u out).cores = s.cores ∧
    (s.listRetired die u out).dies = s.dies ∧ ∀ k, ((s.listRetired die u out).serac k).retiredLinks = (s.serac k).retiredLinks := by
  unfold State.listRetired
  dsimp only
  split
  · exact ⟨rfl, rfl, rfl, fun _ => rfl⟩
  · refine ⟨rfl, rfl, rfl, fun k => ?_⟩
    by_cases hk : k = (retireRecord die u).1
    · subst hk
      rw [State.serac_updSerac_self]
    · rw [State.serac_updSerac_ne _ _ hk]

theorem State.listRetired_same (s : State) (die : Nat) (u : RetireUnit) (out : Bool) (h : s.isRetired die u = out) :
    s.listRetired die u out = s := if_pos h

theorem State.listRetired_list (s : State) (die : Nat) (u : RetireUnit) (out : Bool) (h : s.isRetired die u ≠ out) :
    ((s.listRetired die u out).serac (retireRecord die u).1).flash.retireList =
      if out then (s.serac (retireRecord die u).1).flash.retireList ++ [(retireRecord die u).2]
      else ((s.serac (retireRecord die u).1).flash.retireList.reverse.erase (retireRecord die u).2).reverse := by
  have hl : s.listRetired die u out = s.updSerac (retireRecord die u).1 (fun d => { d with flash := { d.flash with
      retireList := if out then d.flash.retireList ++ [(retireRecord die u).2]
        else (d.flash.retireList.reverse.erase (retireRecord die u).2).reverse } }) := if_neg h
  rw [hl, State.serac_updSerac_self]

/-- A unit out of service, or in service again: what stays as it is. -/
theorem State.setRetired_frame (s : State) (die : Nat) (u : RetireUnit) (out : Bool) :
    (s.setRetired die u out).contexts = s.contexts ∧ (∀ k, ((s.setRetired die u out).die k).parts = (s.die k).parts) ∧
    ∀ k, ((s.setRetired die u out).serac k).flash = (s.serac k).flash := by
  cases u with
  | core k => exact ⟨rfl, fun _ => rfl, fun _ => rfl⟩
  | hbmChannel n =>
    refine ⟨rfl, fun k => ?_, fun _ => rfl⟩
    unfold State.setRetired
    dsimp only
    by_cases hk : k = die
    · subst hk
      rw [State.die_updDie_self]
    · rw [State.die_updDie_ne _ _ hk]
  | link j l =>
    refine ⟨rfl, fun _ => rfl, fun k => ?_⟩
    unfold State.setRetired
    dsimp only
    by_cases hk : k = j
    · subst hk
      rw [State.serac_updSerac_self]
    · rw [State.serac_updSerac_ne _ _ hk]

/-- A number in a list of retired units. -/
theorem mem_retired (l : List Nat) (n : Nat) (out : Bool) :
    (n ∈ (if out then insertKey n l else l.filter (· ≠ n)) ↔ out = true) ∧
    ∀ j, j ≠ n → (j ∈ (if out then insertKey n l else l.filter (· ≠ n)) ↔ j ∈ l) := by
  cases out with
  | false => simp +contextual
  | true => simp +contextual [mem_insertKey]

theorem State.setRetired_core (s : State) (die k : Nat) (out : Bool) : ((s.setRetired die (.core k) out).core k).retired = out ∧
    ∀ j, j ≠ k → (s.setRetired die (.core k) out).core j = s.core j :=
  ⟨congrArg Core.retired (s.core_updCore_self k _), fun _ hj => s.core_updCore_ne _ hj⟩

theorem State.setRetired_channel (s : State) (die n : Nat) (out : Bool) :
    ((s.setRetired die (.hbmChannel n) out).die die).retiredChannels =
      if out then insertKey (n % 32) (s.die die).retiredChannels else (s.die die).retiredChannels.filter (· ≠ n % 32) :=
  congrArg Die.retiredChannels (s.die_updDie_self die _)

theorem State.setRetired_link (s : State) (die k l : Nat) (out : Bool) :
    ((s.setRetired die (.link k l) out).serac k).retiredLinks =
      if out then insertKey (l % 24) (s.serac k).retiredLinks else (s.serac k).retiredLinks.filter (· ≠ l % 24) :=
  congrArg Serac.retiredLinks (s.serac_updSerac_self k _)

/-- The unit is out of service and recorded. -/
def State.retire (s : State) (die : Nat) (x : Retire) : State := (s.listRetired die x.unit (!x.undo)).setRetired die x.unit (!x.undo)

/-- A step of a retirement: what follows of the unit's retirement is spared by all but the minima in force. -/
theorem retirement_spec (s : State) (die : Nat) (x : Retire) : ∃ t, exec (.retirement die x) s = .next t ∧
    Spares (fun d => pkgOfDie d = retirePkg die x.unit) (s.retire die x) t ∧
    ∀ d, pkgOfDie d = retirePkg die x.unit → (t.die d).parts = (s.die d).parts.map (fun p => (p.1, t.effective d p.2)) := by
  obtain ⟨u, hexec, hu⟩ : ∃ u, exec (.retirement die x) s = .next (u.afterRetirement (retirePkg die x.unit) (!x.undo)) ∧
      Spares (fun _ => False) (s.retire die x) u := by
    refine ⟨_, rfl, ?_⟩
    split
    · exact Spares.faultSevered _ _
    · exact Spares.refl _
  obtain ⟨hsp, hparts⟩ := u.afterRetirement_spec (retirePkg die x.unit) (!x.undo)
  refine ⟨_, hexec, (hu.mono (fun _ h => h.elim)).trans hsp, fun d hd => ?_⟩
  have hp : (u.die d).parts = (s.die d).parts := by
    rw [hu.parts d not_false, State.retire, (State.setRetired_frame _ _ _ _).2.1]
    unfold State.die
    rw [(s.listRetired_frame _ _ _).2.2.1]
  rw [hparts d hd, hp]
  simp only [hsp.effective]

/-- Three fields of 16 bits. -/
theorem foldl_fields (f : Nat → Nat) (b : Nat) :
    (List.range 3).foldl (fun a k => a + f k * b ^ (16 * k)) 0 = f 0 + f 1 * b ^ 16 + f 2 * b ^ 32 := by
  simp [List.range_succ]

/-- The minima in force of a partition in the terms of the statement. -/
theorem State.effective_eq (t : State) (d : Nat) (r : PartRegs) :
    let cap (kind : Nat) : Nat :=
      let cores := 64 - ((dieCores d).filter (fun k => (t.core k).retired)).length
      if kind = 0 then 4 * cores else if kind = 1 then 64 * cores else 4800 - 150 * (t.die d).retiredChannels.length
    let sum (kind : Nat) : Nat := (List.range 16).foldl (fun n p => n + minimumOf kind ((t.die d).part p).minima) 0
    let eff (kind : Nat) : Nat := if cap kind < sum kind ∧ t.anyRetired (pkgOfDie d) = true then minimumOf kind r.minima * cap kind / sum kind
      else minimumOf kind r.minima
    t.effective d r = { r with effmin := BitVec.ofNat 64 (eff 0 + eff 1 * 2 ^ 16 + eff 2 * 2 ^ 32) } := by
  intro cap sum eff
  unfold State.effective
  exact congrArg (fun n => ({ r with effmin := BitVec.ofNat 64 n } : PartRegs)) (foldl_fields (fun k => t.scaled d k (minimumOf k r.minima)) 2)

/-- Settles O56: each close by the rule of its source, each queue, register and steal by its own; a retirement by what its consequences
spare. -/
theorem serviceResults : Obligations.ServiceResults := by
  unfold Obligations.ServiceResults
  refine ⟨?_, ?_, ?_, ?_, ?_⟩
  · intro s die e ho
    refine ⟨fault_unnamed ho, fun c hc => ⟨?_, ?_, ?_⟩, ?_⟩
    · exact fun hsource hw => ⟨genServed_spec ho hc hsource hw, genDeclined_spec ho hc hsource hw⟩
    · exact fun r hsource hr hp => ⟨bundleServed_spec ho hc hsource hr hp, bundleDeclined_spec ho hc hsource hr hp⟩
    · exact fun hsource => ⟨copyServed_spec ho hsource, copyDeclined_spec ho hc hsource⟩
    · exact fun r x hsource hr _ _ => ⟨transferServed_spec ho hsource hr, transferDeclined_spec ho hsource⟩
  · exact fun s p head => ⟨faultHead_stays s p head, fun e => faultHead_takes s p head, queueFault_waits s p, queueFault_written s p⟩
  · exact fun s die k v => ⟨registerWrite_bdecay s v die, registerWrite_slice s v die, registerWrite_invaddr s v die, registerWrite_tseq s v k,
      registerWrite_fwmode s v k, rfl, registerWrite_undoArea s v k, landDesc_stored s v k, fun c => landDesc_kept s v k⟩
  · exact fun s die => ⟨fun gid g x => stealRequest_first s die, stealRequest_none s die, fun gid g x lo hi => stealAnswer_spec s die⟩
  · intro s die u undo
    obtain ⟨t, hexec, hsp, hparts⟩ := retirement_spec s die ⟨u, undo⟩
    obtain ⟨hctx, hcores, hdies, hlinks⟩ := s.listRetired_frame die u (!undo)
    obtain ⟨hctx', -, hflash⟩ := (s.listRetired die u (!undo)).setRetired_frame die u (!undo)
    have hretire : s.retire die ⟨u, undo⟩ = (s.listRetired die u (!undo)).setRetired die u (!undo) := rfl
    have hlist : (t.serac (retireRecord die u).1).flash.retireList =
        ((s.listRetired die u (!undo)).serac (retireRecord die u).1).flash.retireList := by
      rw [hsp.flash, hretire, hflash]
    refine ⟨t, hexec, ?_, ?_, ?_, ?_, ⟨?_, ?_, ?_⟩, ?_⟩
    · rw [hsp.contexts, hretire, hctx', hctx]
    · rintro core rfl
      obtain ⟨hself, hne⟩ := (s.listRetired die (.core core) (!undo)).setRetired_core die core (!undo)
      have hcore (j : Nat) : t.core j = (s.retire die ⟨.core core, undo⟩).core j := by
        unfold State.core
        rw [hsp.cores]
      refine ⟨(congrArg Core.retired (hcore core)).trans hself, fun j hj => (hcore j).trans ((hne j hj).trans ?_)⟩
      unfold State.core
      rw [hcores]
    · rintro ch rfl
      have hch : (t.die die).retiredChannels = if !undo then insertKey (ch % 32) (s.die die).retiredChannels
          else (s.die die).retiredChannels.filter (· ≠ ch % 32) := by
        rw [hsp.channels, hretire, State.setRetired_channel]
        unfold State.die
        rw [hdies]
      obtain ⟨hself, hne⟩ := mem_retired (s.die die).retiredChannels (ch % 32) (!undo)
      rw [hch]
      exact ⟨hself.trans (by cases undo <;> decide), hne⟩
    · rintro k l rfl
      have hl : (t.serac k).retiredLinks = if !undo then insertKey (l % 24) (s.serac k).retiredLinks
          else (s.serac k).retiredLinks.filter (· ≠ l % 24) := by
        rw [hsp.links, hretire, State.setRetired_link, hlinks]
      obtain ⟨hself, hne⟩ := mem_retired (s.serac k).retiredLinks (l % 24) (!undo)
      rw [hl]
      exact ⟨hself.trans (by cases undo <;> decide), hne⟩
    · intro h
      rw [hlist, s.listRetired_same die u _ h]
    · intro h hu
      subst hu
      rw [hlist, s.listRetired_list die u _ (by rw [h]; decide)]
      rfl
    · intro h hu
      subst hu
      rw [hlist, s.listRetired_list die u _ (by rw [h]; decide)]
      rfl
    · intro d p r hd hr
      have hminima (q : Nat) : ((t.die d).part q).minima = ((s.die d).part q).minima := by
        rw [hsp.minima, hretire]
        unfold Die.part
        rw [(State.setRetired_frame _ _ _ _).2.1]
        unfold State.die
        rw [hdies]
      have he := t.effective_eq d r
      simp only [hminima] at he
      intro cap sum eff
      rw [hparts d hd, SMap.find_map_values (t.effective d), hr]
      exact congrArg some he

end Sys2Proof.Machine
end

section
/-! PROOFS. Packets: a slot's next packet, what a begun packet keeps, and bytes read at a home (O58; R289-R297). -/

namespace Sys2Proof.Machine

/-! ### Bytes read at their home (R36, R56) -/

theorem Memory.readBytes_add (m : List Host.Cell) (a n k : Nat) :
    Memory.readBytes m a (n + k) = Memory.readBytes m a n ++ Memory.readBytes m (a + n) k := by
  have hlen : (Memory.readBytes m a (n + k)).length = n + k := Memory.readBytes_length ..
  have hfirst := Memory.readBytes_part m a (n + k) 0 n (by omega)
  have hrest := Memory.readBytes_part m a (n + k) n k (by omega)
  rw [List.drop_zero, Nat.add_zero] at hfirst
  rw [List.take_of_length_le (by rw [List.length_drop, hlen]; omega)] at hrest
  rw [← hfirst, ← hrest, List.take_append_drop]

theorem memKey_add (pkg a b : Nat) : memKey pkg a + b = memKey pkg (a + b) := Nat.add_assoc _ _ _

/-- The bytes of a piece that lies in one line. -/
theorem State.homeLine_piece (s : State) (pkg a n : Nat) (h : a % 64 + n ≤ 64) :
    ((bytesOfLine (s.homeLine pkg (a / 64))).drop (a % 64)).take n = s.homeBytes pkg a n := by
  unfold State.homeLine State.homeBytes
  rw [bytesOfLine_lineOfBytes _ (Memory.readBytes_length ..), Memory.readBytes_part _ _ _ _ _ h, memKey_add,
    Nat.div_add_mod' a 64]

/-- The first pieces of a range of bytes cover it from its start. -/
theorem State.homeBytes_pieces (s : State) (pkg pa n j : Nat) (hn : 0 < n) (hj : j ≤ (pa + n - 1) / 64 - pa / 64 + 1) :
    ((List.range j).map (fun i => (max pa ((pa / 64 + i) * 64),
        min (pa + n) ((pa / 64 + i + 1) * 64) - max pa ((pa / 64 + i) * 64)))).flatMap
      (fun p => ((bytesOfLine (s.homeLine pkg (p.1 / 64))).drop (p.1 % 64)).take p.2) =
    s.homeBytes pkg pa (min (pa + n) ((pa / 64 + j) * 64) - pa) := by
  induction j with
  | zero =>
    rw [show min (pa + n) ((pa / 64 + 0) * 64) - pa = 0 by omega]
    rfl
  | succ j ih =>
    rw [List.range_succ, List.map_append, List.flatMap_append, ih (by omega)]
    simp only [List.map_cons, List.map_nil, List.flatMap_cons, List.flatMap_nil, List.append_nil]
    obtain ⟨lo, hlo⟩ : ∃ lo, lo = max pa ((pa / 64 + j) * 64) := ⟨_, rfl⟩
    obtain ⟨len, hlen⟩ : ∃ len, len = min (pa + n) ((pa / 64 + j + 1) * 64) - lo := ⟨_, rfl⟩
    rw [← hlo, ← hlen, s.homeLine_piece pkg lo len (by omega)]
    obtain ⟨before, hbefore⟩ : ∃ before, before = min (pa + n) ((pa / 64 + j) * 64) - pa := ⟨_, rfl⟩
    rw [← hbefore, show min (pa + n) ((pa / 64 + (j + 1)) * 64) - pa = before + len by omega]
    unfold State.homeBytes
    rw [Memory.readBytes_add, memKey_add, show pa + before = lo by omega]

theorem State.readHomeBytes_of_fresh (s : State) (me : Option Nat) (pkg pa n : Nat) (h : s.ownPast = []) :
    (s.readHomeBytes me pkg pa n).map (·.1) = s.homeBytes pkg pa n := by
  unfold State.readHomeBytes linePieces
  by_cases hn : n = 0
  · subst hn
    rfl
  · rw [if_neg hn, List.map_flatMap]
    simp only [s.readHome_of_fresh me pkg _ h, List.map_map, Function.comp_def, List.map_id']
    refine (s.homeBytes_pieces pkg pa n _ (Nat.pos_of_ne_zero hn) (Nat.le_refl _)).trans ?_
    rw [show min (pa + n) ((pa / 64 + ((pa + n - 1) / 64 - pa / 64 + 1)) * 64) - pa = n by omega]

/-! ### The next packet of a slot (R289, R290) -/

/-- A packet's beginning as its slot keeps it: the copy is used up, the OVERLAP INVOKEs count it. -/
def Queue.begun (q : Queue) : Queue :=
  { q with copies := q.copies.filter (fun c => decide (c.pos ≠ q.pos)), graphs := q.graphs.map (fun g => { g with begun := g.begun + 1 }) }

/-- A slot's state after a packet of it has begun in this die cycle: memory and contexts are as before. -/
structure Begun (s : State) (die h : Nat) (r : Queue) (t : State) : Prop where
  queue : t.queue die h = r
  last : (t.die die).queueLast = h
  at_ : (t.die die).begunAt = some (s.die die).dieCycle
  mem : t.mem = s.mem
  contexts : t.contexts = s.contexts

section
variable (s : State) (die h : Nat)

theorem State.beginPacket_die (q : Queue) (k : Nat) : (s.beginPacket die h q).die k =
    if k = die then { s.die die with queues := SMap.put (s.die die).queues h q.begun, queueLast := h, begunAt := some (s.die die).dieCycle }
    else s.die k := by
  have hb : s.beginPacket die h q =
      (s.setQueue die h q.begun).updDie die (fun d => { d with queueLast := h, begunAt := some d.dieCycle }) := rfl
  rw [hb]
  by_cases hk : k = die
  · subst hk
    rw [if_pos rfl, State.die_updDie_self, State.setQueue, State.die_updDie_self]
  · rw [if_neg hk, State.die_updDie_ne _ _ hk, State.setQueue, State.die_updDie_ne _ _ hk]

theorem State.beginPacket_queue (q : Queue) : (s.beginPacket die h q).queue die h = q.begun := by
  unfold State.queue
  rw [State.beginPacket_die, if_pos rfl]
  exact SMap.getD_put_self _ _ _ _

/-- A step after the beginning that puts the slot back. -/
theorem Begun.setQueue (q r : Queue) (t : State) (hdies : t.dies = (s.beginPacket die h q).dies) (hmem : t.mem = s.mem)
    (hctx : t.contexts = s.contexts) : Begun s die h r (t.setQueue die h r) := by
  have hd : t.die die = (s.beginPacket die h q).die die := by
    unfold State.die
    rw [hdies]
  have hd' : (t.setQueue die h r).die die = { t.die die with queues := SMap.put (t.die die).queues h r } := t.die_updDie_self die _
  rw [s.beginPacket_die, if_pos rfl] at hd
  refine ⟨State.queue_setQueue_self .., ?_, ?_, hmem, hctx⟩
  · rw [hd', hd]
  · rw [hd', hd]

theorem State.prepared_idle {q' : Queue} {r : Ready} (hp : s.prepared die h = (q', r)) (hr : r ≠ .wait) :
    (s.queue die h).state = 1 ∧ (s.queue die h).phase = .idle := by
  unfold State.prepared at hp
  dsimp only at hp
  split at hp
  · rename_i hb
    rw [Bool.and_eq_true] at hb
    exact ⟨of_decide_eq_true hb.1, eq_of_beq hb.2⟩
  · cases hp
    exact absurd rfl hr

section
variable (kind : List Word → Bool) (f : State → Queue → List Word → State)

theorem atPacket_stop {q' : Queue} {cause sub : Nat} {va : Word} (hp : s.prepared die h = (q', .stop cause sub va)) :
    atPacket s die h kind f = .next ((s.setQueue die h q').stopQueue die h cause sub va) := by
  unfold atPacket
  rw [hp]

theorem atPacket_wait {q' : Queue} (hp : s.prepared die h = (q', .wait)) (hq : (s.queue die h).state = 1) :
    atPacket s die h kind f = .next (s.setQueue die h q') := by
  unfold atPacket
  rw [hp]
  exact congrArg Host.Outcome.next (if_pos (by rw [Queue.running, hq]; rfl))

theorem atPacket_begin {q' : Queue} {ws : List Word} (hp : s.prepared die h = (q', .begin ws)) (hk : kind ws = true)
    (ht : s.turnOf die h = true) : atPacket s die h kind f = .next (f (s.beginPacket die h q') q'.begun ws) := by
  unfold atPacket
  rw [hp]
  refine (congrArg Host.Outcome.next (if_pos (by rw [hk, ht]; rfl))).trans ?_
  dsimp only
  rw [s.beginPacket_queue]

end

theorem syncPacket_idle (kind : List Word → Bool) (acc : Access) (perform : State → Queue → Loc → List Word → State)
    (hidle : (s.queue die h).phase = .idle) : syncPacket s die h kind acc perform =
      atPacket s die h kind (fun s q ws => s.sendSync die h q ws acc) := by
  unfold syncPacket
  dsimp only
  rw [hidle]

theorem pktWait_idle (hidle : (s.queue die h).phase = .idle) : exec (.pktWait die h) s =
    atPacket s die h (isType 5) (fun s q ws => s.sendSync die h q ws .load) := by
  show execPktWait die h s = _
  unfold execPktWait
  dsimp only
  rw [hidle]
  exact syncPacket_idle s die h _ _ _ hidle

theorem pred_idle (hidle : (s.queue die h).phase = .idle) :
    exec (.pred die h) s = atPacket s die h (isType 3) (fun s q ws => s.sendSync die h q ws .load) := by
  rw [exec_pred, execPred]
  exact syncPacket_idle s die h _ _ _ hidle

theorem pktSigAdd_idle (hidle : (s.queue die h).phase = .idle) :
    exec (.pktSigAdd die h) s = atPacket s die h (isSig 0) (fun s q ws => s.sendSync die h q ws .store) := by
  rw [exec_pktSigAdd, execPktSigAdd]
  exact syncPacket_idle s die h _ _ _ hidle

theorem pktSigSet_idle (hidle : (s.queue die h).phase = .idle) :
    exec (.pktSigSet die h) s = atPacket s die h (isSig 1) (fun s q ws => s.sendSync die h q ws .store) := by
  rw [exec_pktSigSet, execPktSigSet]
  exact syncPacket_idle s die h _ _ _ hidle

/-- The steps of a slot whose next packet none of its own has begun. -/
theorem packet_step (hidle : (s.queue die h).phase = .idle) : ∀ i ∈ ([.pktNop die h, .ib die h, .pktLoop die h, .ffence die h, .invoke die h,
    .pred die h, .pktWait die h, .pktSigAdd die h, .pktSigSet die h] : List Instr), ∃ kind f, exec i s = atPacket s die h kind f := by
  simp only [List.forall_mem_cons]
  exact ⟨⟨_, _, by rw [exec_pktNop, execPktNop]⟩, ⟨_, _, by rw [exec_ib, execIb]⟩, ⟨_, _, by rw [exec_pktLoop, execPktLoop]⟩,
    ⟨_, _, by rw [exec_ffence, execFfence]⟩, ⟨_, _, by rw [exec_invoke, execInvoke]⟩, ⟨_, _, pred_idle s die h hidle⟩,
    ⟨_, _, pktWait_idle s die h hidle⟩, ⟨_, _, pktSigAdd_idle s die h hidle⟩, ⟨_, _, pktSigSet_idle s die h hidle⟩, fun _ hi => nomatch hi⟩

/-! ### Stops of a begun packet, and of pointers too far apart (R285, R286, R297) -/

theorem stopBegun_spec (cause sub : Nat) (va : Word) (hc : cause < 16) (hs : sub < 256) :
    let b := s.setQueue die h { (s.queue die h).unbegin with phase := .idle }
    let r := (b.queue die h).put 2 cause sub
    s.stopBegun die h cause sub va = (b.setQueue die h { r with qfault := va }).post (.cobalt die) 4 h (BitVec.ofNat 64 cause) va ∧
      r.state = 2 ∧ r.cause = cause ∧ r.sub = sub ∧ r.pos = (s.queue die h).pos ∧ r.phase = .idle := by
  intro b r
  have hq : b.queue die h = { (s.queue die h).unbegin with phase := .idle } := State.queue_setQueue_self ..
  refine ⟨rfl, Queue.state_put _ 2 _ _ (by decide), Queue.cause_put _ _ _ _ hc, Queue.sub_put _ _ _ _ hs, ?_, ?_⟩
  · exact (congrArg Queue.pos hq).trans rfl
  · exact congrArg Queue.phase hq

theorem State.checkPtr_of_fits (hq : (s.queue die h).state ≠ 1 ∨ (s.queue die h).overrun = false) : s.checkPtr die h = s := by
  refine if_neg ?_
  rw [Bool.and_eq_true]
  rintro ⟨hrun, hover⟩
  obtain hq | hq := hq
  · exact hq (of_decide_eq_true hrun)
  · rw [hq] at hover
    exact nomatch hover

theorem Queue.unbegin_rptr (q : Queue) (p : PktPhase) : ({ q.unbegin with phase := p } : Queue).rptr = q.rptr := by
  unfold Queue.rptr Queue.unbegin
  dsimp only
  rw [List.findSome?_map]
  rfl

/-- What is in progress beside an INVOKE is withdrawn: the slot at its position, memory and contexts as before. -/
theorem State.withdrawWait_spec : ∃ q', (s.withdrawWait die h).queue die h = q' ∧ q'.pos = (s.queue die h).pos ∧
    q'.rptr = (s.queue die h).rptr ∧ q'.wptr = (s.queue die h).wptr ∧ q'.done = (s.queue die h).done ∧
    (∀ gid len, (s.queue die h).phase = .invoking gid len → q'.phase = .invoking gid len) ∧
    ((∀ gid len, (s.queue die h).phase ≠ .invoking gid len) → q'.phase = .idle) ∧
    (s.withdrawWait die h).mem = s.mem ∧ (s.withdrawWait die h).contexts = s.contexts := by
  have hrptr := (s.queue die h).unbegin_rptr .idle
  cases hp : (s.queue die h).phase with
  | idle =>
    rw [s.withdrawWait_of_apart die h (.inl hp)]
    exact ⟨_, rfl, rfl, rfl, rfl, rfl, (fun _ _ hne => nomatch hne), fun _ => hp, rfl, rfl⟩
  | invoking gid len =>
    rw [s.withdrawWait_of_apart die h (.inr ⟨gid, len, hp⟩)]
    exact ⟨_, rfl, rfl, rfl, rfl, rfl, (fun _ _ he => hp.trans he), fun hne => absurd rfl (hne gid len), rfl, rfl⟩
  | sent loc ws =>
    rw [s.withdrawWait_of_access die h (.inl ⟨loc, ws, hp⟩)]
    exact ⟨_, State.queue_setQueue_self .., rfl, hrptr, rfl, rfl, (fun _ _ hne => nomatch hne), fun _ => rfl, rfl, rfl⟩
  | waiting loc len =>
    rw [s.withdrawWait_of_waiting die h hp]
    exact ⟨_, State.queue_setQueue_self .., rfl, hrptr, rfl, rfl, (fun _ _ hne => nomatch hne), fun _ => rfl, rfl, rfl⟩
  | page words =>
    cases words with
    | some ws =>
      rw [s.withdrawWait_of_access die h (.inr ⟨ws, hp⟩)]
      exact ⟨_, State.queue_setQueue_self .., rfl, hrptr, rfl, rfl, (fun _ _ hne => nomatch hne), fun _ => rfl, rfl, rfl⟩
    | none =>
      have hw : s.withdrawWait die h = s.setQueue die h { s.queue die h with phase := .idle } := by
        unfold State.withdrawWait
        dsimp only
        rw [hp]
      rw [hw]
      exact ⟨_, State.queue_setQueue_self .., rfl, rfl, rfl, rfl, (fun _ _ hne => nomatch hne), fun _ => rfl, rfl, rfl⟩

theorem State.checkPtr_of_overrun (hq : (s.queue die h).state = 1) (hover : (s.queue die h).overrun = true) :
    let q := s.queue die h
    ∃ (u : State) (q' : Queue), s.checkPtr die h = u.post (.cobalt die) 4 h 7 q'.qfault ∧ u.queue die h = q' ∧ q'.state = 2 ∧
      q'.cause = 7 ∧ (∀ gid len, q.phase = .invoking gid len → q'.qfault = ((q.pos.next len).settle maxLeaves).va) ∧
      ((∀ gid len, q.phase ≠ .invoking gid len) → q'.qfault = q.pos.va) ∧ q'.pos = q.pos ∧ q'.rptr = q.rptr ∧ q'.wptr = q.wptr ∧
      q'.done = q.done ∧ u.mem = s.mem ∧ u.contexts = s.contexts := by
  intro q
  have hc : s.checkPtr die h = (s.withdrawWait die h).stopQueue die h qBADPTR 0 ((s.withdrawWait die h).queue die h).fetchFrom.va :=
    if_pos (by rw [hover, Queue.running, hq]; rfl)
  obtain ⟨w, hw, hpos, hrptr, hwptr, hdone, hinv, hidle, hmem, hctx⟩ := s.withdrawWait_spec die h
  have hstop : (s.withdrawWait die h).stopQueue die h qBADPTR 0 ((s.withdrawWait die h).queue die h).fetchFrom.va =
      ((s.withdrawWait die h).setQueue die h { w.put 2 7 0 with qfault := w.fetchFrom.va }).post (.cobalt die) 4 h 7 w.fetchFrom.va := by
    rw [hw]
    unfold State.stopQueue
    rw [hw]
    rfl
  refine ⟨_, { w.put 2 7 0 with qfault := w.fetchFrom.va }, hc.trans hstop, State.queue_setQueue_self .., Queue.state_put _ 2 7 0 (by decide),
    Queue.cause_put _ 2 7 0 (by decide), fun gid len hp => ?_, fun hp => ?_, hpos, hrptr, hwptr, hdone, hmem, hctx⟩
  · show w.fetchFrom.va = _
    unfold Queue.fetchFrom
    rw [hinv gid len hp, hpos]
  · show w.fetchFrom.va = _
    unfold Queue.fetchFrom
    rw [hidle hp, hpos]

/-! ### A packet begins -/

section
variable {q' : Queue} {ws : List Word}

theorem State.beginPacket_parts (k : Nat) : ((s.beginPacket die h q').die k).parts = (s.die k).parts ∧
    ((s.beginPacket die h q').die k).modelTabs = (s.die k).modelTabs := by
  rw [s.beginPacket_die]
  split
  · rename_i hk
    rw [hk]
    exact ⟨rfl, rfl⟩
  · exact ⟨rfl, rfl⟩

theorem State.coreCounts_congr {t : State} (hparts : ∀ k, (t.die k).parts = (s.die k).parts) (hcores : t.cores = s.cores)
    (part : Nat) (record : List Byte) (k : Nat) : t.coresOf k part record = s.coresOf k part record := by
  unfold State.coresOf Die.part State.core
  rw [hparts, hcores]

theorem State.beginPacket_record (part slot : Nat) : (s.beginPacket die h q').modelRecord die part slot = s.modelRecord die part slot ∧
    ∀ record, (s.beginPacket die h q').coreCounts die part record = s.coreCounts die part record := by
  refine ⟨?_, fun record => ?_⟩
  · unfold State.modelRecord
    rw [(s.beginPacket_parts die h die).2]
    rfl
  · exact List.map_congr_left fun k _ => congrArg List.length
      (s.coreCounts_congr (fun k => (s.beginPacket_parts die h k).1) rfl part record k)

/-- A step that begins a packet and puts its slot back. -/
theorem Begun.of_begin (r : Queue) : Begun s die h r ((s.beginPacket die h q').setQueue die h r) :=
  Begun.setQueue s die h q' r _ rfl rfl rfl

variable (hp : s.prepared die h = (q', .begin ws)) (ht : s.turnOf die h = true)
include hp ht

theorem pktNop_begin (htype : (pktWord ws 0).toNat % 256 = 0) : exec (.pktNop die h) s =
    .next (((s.beginPacket die h q').setQueue die h (q'.begun.complete (lenOf ws))).checkPtr die h) := by
  rw [exec_pktNop, execPktNop]
  exact atPacket_begin s die h (isType 0) _ hp (decide_eq_true htype) ht

theorem ffence_begin (htype : (pktWord ws 0).toNat % 256 = 7) : exec (.ffence die h) s =
    .next (((s.beginPacket die h q').setQueue die h (({ q'.begun with copies := [] } : Queue).complete (lenOf ws))).checkPtr die h) := by
  rw [exec_ffence, execFfence]
  exact atPacket_begin s die h (isType 7) _ hp (decide_eq_true htype) ht

theorem ib_begin (htype : (pktWord ws 0).toNat % 256 = 2) : exec (.ib die h) s = .next (
    if q'.pos.frames.length = 5 then (s.beginPacket die h q').stopBegun die h qNESTING 1 q'.pos.va
    else (s.beginPacket die h q').setQueue die h { q'.begun with pos := (q'.pos.follow ws).getD q'.pos }) := by
  rw [exec_ib, execIb]
  exact atPacket_begin s die h (isType 2) _ hp (decide_eq_true htype) ht

theorem pktLoop_begin (htype : (pktWord ws 0).toNat % 256 = 4) : exec (.pktLoop die h) s = .next (
    if pktU32 ws 1 = 0 then ((s.beginPacket die h q').setQueue die h (q'.begun.emptyLoop q'.pos ws).finish).checkPtr die h
    else if q'.pos.loops.length = 2 then (s.beginPacket die h q').stopBegun die h qNESTING 2 q'.pos.va
    else (s.beginPacket die h q').setQueue die h { q'.begun with pos := (q'.pos.follow ws).getD q'.pos }) := by
  rw [exec_pktLoop, execPktLoop]
  exact atPacket_begin s die h (isType 4) _ hp (decide_eq_true htype) ht

/-- The task graph that an INVOKE makes. -/
def Queue.invoked (q : Queue) (die h : Nat) (ws : List Word) (record : List Byte) : Graph where
  queueDie := die
  queueSlot := h
  part := q.part
  prio := q.prio
  n := pktU32 ws 1
  overlap := (pktU32 ws 2).testBit 0
  persist := (pktU32 ws 2).testBit 1
  gang := BitVec.ofNat 20 (pktU32 ws 2 / 2 ^ 12)
  z := ws.drop 2
  record := record
  root := q.qroot.toNat
  started := false
  shares := []
  halted := 0
  steals := []
  tried := []

theorem invoke_stops (htype : (pktWord ws 0).toNat % 256 = 1) {cause : Nat}
    (hc : invokeStop (s.modelRecord die q'.part (pktHi (pktWord ws 0) % 64))
      (s.coreCounts die q'.part (s.modelRecord die q'.part (pktHi (pktWord ws 0) % 64))) (pktU32 ws 1) ((pktU32 ws 2).testBit 1) = some cause) :
    exec (.invoke die h) s = .next ((s.beginPacket die h q').stopBegun die h cause 0 q'.pos.va) := by
  obtain ⟨hrecord, hcounts⟩ := s.beginPacket_record die h (q' := q') q'.part (pktHi (pktWord ws 0) % 64)
  rw [exec_invoke, execInvoke]
  refine (atPacket_begin s die h (isType 1) _ hp (decide_eq_true htype) ht).trans ?_
  dsimp only
  rw [show q'.begun.part = q'.part from rfl, hrecord, hcounts, hc] <;> rfl

theorem invoke_begin (htype : (pktWord ws 0).toNat % 256 = 1)
    (hc : invokeStop (s.modelRecord die q'.part (pktHi (pktWord ws 0) % 64))
      (s.coreCounts die q'.part (s.modelRecord die q'.part (pktHi (pktWord ws 0) % 64))) (pktU32 ws 1) ((pktU32 ws 2).testBit 1) = none) :
    ∃ t g, exec (.invoke die h) s = .next t ∧ Begun s die h { q'.begun with phase := .invoking s.nextGraph (lenOf ws) } t ∧
      SMap.find t.graphs s.nextGraph = some g ∧ g = q'.invoked die h ws (s.modelRecord die q'.part (pktHi (pktWord ws 0) % 64)) ∧
      t.nextGraph = s.nextGraph + 1 := by
  obtain ⟨hrecord, hcounts⟩ := s.beginPacket_record die h (q' := q') q'.part (pktHi (pktWord ws 0) % 64)
  rw [exec_invoke, execInvoke, atPacket_begin s die h (isType 1) _ hp (decide_eq_true htype) ht]
  dsimp only
  rw [show q'.begun.part = q'.part from rfl, hrecord, hcounts, hc]
  refine ⟨_, _, rfl, Begun.setQueue s die h q' _ _ rfl rfl rfl, SMap.find_put_self .., rfl, rfl⟩

/-- A packet with a sync operation begins: its operation is on its way, or its address does not translate. -/
theorem sync_begin {i : Instr} {kind : List Word → Bool} {acc : Access}
    (hi : exec i s = atPacket s die h kind (fun s q ws => s.sendSync die h q ws acc)) (hk : kind ws = true) :
    let b := s.beginPacket die h q'
    (∀ loc, translate b (q'.begun.ctx die) (pktWord ws 1) acc = .ok loc → exec i s =
      .next (b.setQueue die h { q'.begun with phase := .sent loc ws })) ∧
    (∀ x, translate b (q'.begun.ctx die) (pktWord ws 1) acc = .error x →
      (isNotPres x.sub = false → exec i s = .next (b.stopBegun die h 4 x.sub.toNat q'.pos.va)) ∧
      (isNotPres x.sub = true → exec i s = .next ((b.setQueue die h { q'.begun with phase := .page (some ws) }).queueFault (.cobalt die)
        { seq := 0, source := 3, who := h, va := x.va, pc := 0, emitseq := 0, sub := x.sub, unit := 0, record := [] }))) := by
  intro b
  have hexec := hi.trans (atPacket_begin s die h kind _ hp hk ht)
  unfold State.sendSync at hexec
  refine ⟨fun loc hloc => ?_, fun x hx => ?_⟩
  · rw [hloc] at hexec
    exact hexec
  · rw [hx] at hexec
    dsimp only at hexec
    unfold State.queueXlate at hexec
    rw [s.beginPacket_queue] at hexec
    refine ⟨fun hn => ?_, fun hn => ?_⟩
    · rw [hn] at hexec
      exact hexec
    · exact hexec.trans (congrArg Host.Outcome.next (if_pos hn))

end

end

end Sys2Proof.Machine
end

section
/-! PROOFS. Packets: sync operations at their home, the end of a task graph (O58; R292, R295, R296). -/

namespace Sys2Proof.Machine

section
variable (s : State) (die h : Nat)

/-! ### A sync operation at its home (R257, R295, R296) -/

/-- The line most recently used changes a die's list of lines alone. -/
theorem State.holdLine_queue (l : Loc) (part : Nat) : (s.holdLine l part).queue die h = s.queue die h := by
  unfold State.holdLine
  split
  · unfold State.queue
    by_cases hk : die = l.engine
    · subst hk
      rw [State.die_updDie_self]
      rfl
    · rw [State.die_updDie_ne _ _ hk]
  · rfl

theorem State.holdLine_home (l : Loc) (part : Nat) : (s.holdLine l part).mem = s.mem ∧ (s.holdLine l part).contexts = s.contexts ∧
    (∀ pkg pa, (s.holdLine l part).home64 pkg pa = s.home64 pkg pa) ∧
    (∀ me pkg pa n, (s.holdLine l part).readHomeBytes me pkg pa n = s.readHomeBytes me pkg pa n) := by
  obtain ⟨⟨dies, hd⟩, -⟩ := s.holdLine_spec l part
  rw [hd]
  exact ⟨rfl, rfl, fun _ _ => rfl, fun _ _ _ _ => rfl⟩

/-- A PRED's condition, operator by operator. -/
theorem predHolds_eq (ws : List Word) (word : Word) : predHolds ws word =
    if pktHi (pktWord ws 0) % 256 = 0 then word == pktWord ws 2 else if pktHi (pktWord ws 0) % 256 = 1 then word != pktWord ws 2
    else if pktHi (pktWord ws 0) % 256 = 2 then decide (word.toNat < (pktWord ws 2).toNat)
    else if pktHi (pktWord ws 0) % 256 = 3 then decide ((pktWord ws 2).toNat ≤ word.toNat) else (word &&& pktWord ws 3) == pktWord ws 2 := by
  unfold predHolds
  generalize pktHi (pktWord ws 0) % 256 = op
  match op with
  | 0 => rfl
  | 1 => rfl
  | 2 => rfl
  | 3 => rfl
  | n + 4 => rfl

/-- A doubleword written at its home, after which the slot goes on. -/
theorem sig_written (loc : Loc) (v : Word) (q : Queue) (hwf : s.MemWf) :
    let t := ((s.holdLine loc (s.queue die h).part).homeWriteBytes loc.pkg loc.pa (leBytes 8 v.toNat) false false).setQueue die h q
    t.queue die h = q ∧ t.home64 loc.pkg loc.pa = v ∧
      ∀ a, a < memKey loc.pkg loc.pa ∨ memKey loc.pkg loc.pa + 8 ≤ a → t.memByte a = s.memByte a := by
  intro t
  have hmem := (s.holdLine_home loc (s.queue die h).part).1
  have hwf' : (s.holdLine loc (s.queue die h).part).MemWf := by
    unfold State.MemWf
    rw [hmem]
    exact hwf
  refine ⟨State.queue_setQueue_self .., State.home64_written _ _ _ v false false hwf', fun a ha => ?_⟩
  refine (State.homeWriteBytes_frame _ _ _ _ false false hwf' a (by rwa [leBytes_length])).trans ?_
  exact congrArg (Memory.read · a) hmem

section
variable {loc : Loc} {ws : List Word} (hp : (s.queue die h).phase = .sent loc ws)
include hp

theorem syncPacket_refused {kind : List Word → Bool} (acc : Access) (perform : State → Queue → Loc → List Word → State) (hk : kind ws = true)
    {cause : Nat} (hr : remoteRefusal s ((s.queue die h).ctx die) loc.engine (some loc) = some cause) (hq : (s.queue die h).state ≠ 0) :
    syncPacket s die h kind acc perform =
      .next ((s.setQueue die h { s.queue die h with phase := .idle }).stopBegun die h 8 cause (s.queue die h).pos.va) := by
  unfold syncPacket
  dsimp only
  rw [hp]
  dsimp only
  rw [hk, hr]
  exact congrArg Host.Outcome.next (if_neg hq)

theorem syncPacket_performed {kind : List Word → Bool} (acc : Access) (perform : State → Queue → Loc → List Word → State) (hk : kind ws = true)
    (hr : remoteRefusal s ((s.queue die h).ctx die) loc.engine (some loc) = none) :
    syncPacket s die h kind acc perform = .next (perform (s.holdLine loc (s.queue die h).part) (s.queue die h) loc ws) := by
  unfold syncPacket
  dsimp only
  rw [hp]
  dsimp only
  rw [hk, hr]
  rfl

theorem pktWait_sent : exec (.pktWait die h) s = syncPacket s die h (isType 5) .load (fun s q loc ws =>
      if watchHolds s loc.pkg loc.pa (.signal (pktWord ws 2)) then s.passQueue die h (q.complete (lenOf ws))
      else if 8192 ≤ ((s.die loc.engine).waiters.filter (fun w => !w.answered)).length then s
      else
        (s.setQueue die h { q with phase := .waiting loc (lenOf ws) }).updDie loc.engine (fun d => { d with waiters := d.waiters ++
          [{ who := .queue die h, pkg := loc.pkg, pa := loc.pa, kind := .signal (pktWord ws 2), answered := false, progress := false }] })) := by
  rw [exec_pktWait, execPktWait]
  dsimp only
  rw [hp]

/-- The steps of the four packets whose operation is on its way. -/
theorem sync_step {i : Instr} (hi : i = .pred die h ∧ (pktWord ws 0).toNat % 256 = 3 ∨ i = .pktWait die h ∧ (pktWord ws 0).toNat % 256 = 5 ∨
      i = .pktSigAdd die h ∧ (pktWord ws 0).toNat % 256 = 6 ∧ pktHi (pktWord ws 0) % 256 = 0 ∨
      i = .pktSigSet die h ∧ (pktWord ws 0).toNat % 256 = 6 ∧ pktHi (pktWord ws 0) % 256 = 1) :
    ∃ kind acc perform, kind ws = true ∧ exec i s = syncPacket s die h kind acc perform := by
  obtain ⟨rfl, ht⟩ | ⟨rfl, ht⟩ | ⟨rfl, ht, ho⟩ | ⟨rfl, ht, ho⟩ := hi
  · exact ⟨isType 3, _, _, decide_eq_true ht, by rw [exec_pred, execPred]⟩
  · exact ⟨isType 5, _, _, decide_eq_true ht, pktWait_sent s die h hp⟩
  · exact ⟨isSig 0, _, _, by simp [isSig, isType, pktType, ht, ho], by rw [exec_pktSigAdd, execPktSigAdd]⟩
  · exact ⟨isSig 1, _, _, by simp [isSig, isType, pktType, ht, ho], by rw [exec_pktSigSet, execPktSigSet]⟩

variable (hr : remoteRefusal s ((s.queue die h).ctx die) loc.engine (some loc) = none)
include hr

theorem pred_performed (htype : (pktWord ws 0).toNat % 256 = 3) :
    let t := (s.holdLine loc (s.queue die h).part).setQueue die h ((s.queue die h).afterPred ws
      (predHolds ws (BitVec.ofNat 64 (leNat ((s.readHomeBytes none loc.pkg loc.pa 8).map (·.1))))))
    exec (.pred die h) s = .next (t.checkPtr die h) := by
  intro t
  rw [exec_pred, execPred, syncPacket_performed s die h hp _ _ (decide_eq_true htype) hr]
  rw [(s.holdLine_home loc _).2.2.2]
  rfl

theorem pktWait_performed (htype : (pktWord ws 0).toNat % 256 = 5) : let u := s.holdLine loc (s.queue die h).part
    exec (.pktWait die h) s = .next (
      if (pktWord ws 2).toNat ≤ (s.home64 loc.pkg loc.pa).toNat then u.passQueue die h ((s.queue die h).complete (lenOf ws))
      else if 8192 ≤ ((s.die loc.engine).waiters.filter (fun w => !w.answered)).length then u
      else
        (u.setQueue die h { s.queue die h with phase := .waiting loc (lenOf ws) }).updDie loc.engine (fun d => { d with waiters := d.waiters ++
          [{ who := .queue die h, pkg := loc.pkg, pa := loc.pa, kind := .signal (pktWord ws 2), answered := false, progress := false }] })) := by
  intro u
  rw [pktWait_sent s die h hp, syncPacket_performed s die h hp _ _ (decide_eq_true htype) hr]
  dsimp only
  unfold watchHolds
  rw [(s.holdLine_home loc _).2.2.1, (s.holdLine_spec loc _).2.1]
  simp only [decide_eq_true_eq]
  rfl

theorem sigAdd_performed (htype : (pktWord ws 0).toNat % 256 = 6) (hop : pktHi (pktWord ws 0) % 256 = 0) :
    exec (.pktSigAdd die h) s = .next (((((s.holdLine loc (s.queue die h).part).homeWriteBytes loc.pkg loc.pa
      (leBytes 8 (s.home64 loc.pkg loc.pa + pktWord ws 2).toNat) false false).setQueue die h
        ((s.queue die h).complete (lenOf ws)))).checkPtr die h) := by
  rw [exec_pktSigAdd, execPktSigAdd,
    syncPacket_performed s die h hp _ _ (show isSig 0 ws = true by simp [isSig, isType, pktType, htype, hop]) hr]
  unfold State.agentSignal
  rw [(s.holdLine_home loc _).2.2.1]
  rfl

theorem sigSet_performed (htype : (pktWord ws 0).toNat % 256 = 6) (hop : pktHi (pktWord ws 0) % 256 = 1) :
    exec (.pktSigSet die h) s = .next (((((s.holdLine loc (s.queue die h).part).homeWriteBytes loc.pkg loc.pa
      (leBytes 8 (pktWord ws 2).toNat) false false).setQueue die h ((s.queue die h).complete (lenOf ws)))).checkPtr die h) := by
  rw [exec_pktSigSet, execPktSigSet,
    syncPacket_performed s die h hp _ _ (show isSig 1 ws = true by simp [isSig, isType, pktType, htype, hop]) hr]
  rfl

end

theorem pktWait_answered {loc : Loc} {len : Nat} {w : WaitEntry} (hp : (s.queue die h).phase = .waiting loc len)
    (hw : w ∈ (s.die loc.engine).waiters) (ha : w.answered = true) (hwho : w.who = .queue die h) : ∃ t : State,
      exec (.pktWait die h) s = .next (t.checkPtr die h) ∧ (∀ a, t.memByte a = s.memByte a) ∧
      t.queue die h = (s.queue die h).complete len ∧ (∀ x ∈ (t.die loc.engine).waiters, x.who ≠ .queue die h) := by
  have hany : (s.die loc.engine).waiters.any (fun w => w.answered && w.who == .queue die h) = true :=
    List.any_eq_true.mpr ⟨w, hw, by rw [ha, hwho]; simp⟩
  refine ⟨(s.dropWaiter loc.engine (.queue die h)).setQueue die h ((s.queue die h).complete len), ?_, fun _ => rfl,
    State.queue_setQueue_self .., ?_⟩
  · rw [exec_pktWait, execPktWait]
    dsimp only
    rw [hp]
    exact congrArg Host.Outcome.next (if_pos hany)
  · rw [State.setQueue_waiters]
    exact s.dropWaiter_gone loc.engine _

/-! ### The end of a task graph (R292) -/

theorem State.dropGraph_spec (gid : Nat) : SMap.find (s.dropGraph gid).graphs gid = none ∧ (s.dropGraph gid).mem = s.mem := by
  refine ⟨?_, rfl⟩
  show SMap.find (s.graphs.filter (fun p => p.1 ≠ gid)) gid = none
  generalize s.graphs = m
  induction m with
  | nil => rfl
  | cons p rest ih =>
    obtain ⟨j, g⟩ := p
    by_cases hj : j = gid
    · rw [List.filter_cons_of_neg (by simp [hj])]
      exact ih
    · rw [List.filter_cons_of_pos (by simp [hj])]
      exact (if_neg hj).trans ih

theorem taskGraphEnd_invoking {gid len : Nat} (hg : (s.queue die h).graphs = []) (hp : (s.queue die h).phase = .invoking gid len)
    (ho : s.graphOver gid = true) : ∃ t : State, exec (.taskGraphEnd die h) s = .next (t.checkPtr die h) ∧
      t.queue die h = (s.queue die h).complete len ∧ SMap.find t.graphs gid = none ∧ ∀ a, t.memByte a = s.memByte a := by
  refine ⟨(s.dropGraph gid).setQueue die h ((s.queue die h).complete len), ?_, State.queue_setQueue_self .., (s.dropGraph_spec gid).1,
    fun _ => rfl⟩
  rw [exec_taskGraphEnd, execTaskGraphEnd]
  dsimp only
  rw [hg, List.find?_nil, hp]
  exact congrArg Host.Outcome.next (if_pos ho)

theorem taskGraphEnd_overlap {o : Overlap} (hg : (s.queue die h).graphs = [o]) (ho : s.graphOver o.graph = true) :
    ∃ t : State, exec (.taskGraphEnd die h) s = .next (t.checkPtr die h) ∧
      t.queue die h = ({ s.queue die h with graphs := [], done := (s.queue die h).done + 1 } : Queue).settle maxLeaves ∧
      SMap.find t.graphs o.graph = none ∧ ∀ a, t.memByte a = s.memByte a := by
  refine ⟨(s.dropGraph o.graph).setQueue die h _, ?_, State.queue_setQueue_self .., (s.dropGraph_spec o.graph).1, fun _ => rfl⟩
  rw [exec_taskGraphEnd, execTaskGraphEnd]
  dsimp only
  rw [hg, List.find?_cons_of_pos (by exact ho)]
  dsimp only
  rw [show [o].filter (fun x => decide (x.graph ≠ o.graph)) = [] by simp]
  rfl

end

end Sys2Proof.Machine
end

section
/-! PROOFS. INVOKE starts: the static shares, and with PERSIST a table entry for every task (O58; R13, R14, R292). -/

namespace Sys2Proof.Machine

/-! ### The static shares (R13) -/

/-- The entry of a die in the order of the dies: its number and what falls to it from an index on; none where it has no cores. -/
def layShare (a : SMap (Nat × Nat) × Nat) (x : Nat × Nat × Nat) : SMap (Nat × Nat) × Nat :=
  if x.1 = 0 then a else (a.1 ++ [(x.2.2, (a.2, a.2 + x.2.1))], a.2 + x.2.1)

theorem foldl_layShare_keys (l : List (Nat × Nat × Nat)) : ∀ a : SMap (Nat × Nat) × Nat,
    (l.foldl layShare a).1.map (·.1) = a.1.map (·.1) ++ (l.filter (fun x => decide (x.1 ≠ 0))).map (·.2.2) := by
  induction l with
  | nil => simp
  | cons x l ih =>
    intro a
    rw [List.foldl_cons, ih]
    by_cases hx : x.1 = 0
    · simp [layShare, hx]
    · simp [layShare, hx]

theorem mem_zip_range {cores sizes : List Nat} {x : Nat × Nat × Nat} (h : x ∈ cores.zip (sizes.zip (List.range cores.length))) :
    cores[x.2.2]? = some x.1 := by
  obtain ⟨i, hi, hx⟩ := List.mem_iff_getElem.mp h
  simp only [List.length_zip, List.length_range] at hi
  have hlt : i < cores.length := by omega
  rw [List.getElem_zip, List.getElem_zip, List.getElem_range] at hx
  subst hx
  exact List.getElem?_eq_getElem hlt

/-- A die has one share, and only where it has cores. -/
theorem layShares_spec (cores sizes : List Nat) : ((layShares cores sizes).map (·.1)).Nodup ∧
    ∀ p ∈ layShares cores sizes, ∃ n, cores[p.1]? = some n ∧ n ≠ 0 := by
  have hkeys : (layShares cores sizes).map (·.1) =
      ((cores.zip (sizes.zip (List.range cores.length))).filter (fun x => decide (x.1 ≠ 0))).map (·.2.2) :=
    (foldl_layShare_keys _ ([], 0)).trans (by rw [List.map_nil, List.nil_append])
  refine ⟨?_, fun p hp => ?_⟩
  · rw [hkeys]
    have hall : ((cores.zip (sizes.zip (List.range cores.length))).map (·.2.2)).Nodup := by
      have hr : (cores.zip (sizes.zip (List.range cores.length))).map (·.2.2) =
          List.range (cores.zip (sizes.zip (List.range cores.length))).length := List.ext_getElem (by simp) (by simp)
      rw [hr]
      exact List.nodup_range
    exact hall.sublist (List.Sublist.map _ List.filter_sublist)
  · have hmem : p.1 ∈ (layShares cores sizes).map (·.1) := List.mem_map_of_mem hp
    rw [hkeys] at hmem
    obtain ⟨x, hx, hxp⟩ := List.mem_map.mp hmem
    obtain ⟨hz, hne⟩ := List.mem_filter.mp hx
    exact ⟨x.1, hxp ▸ mem_zip_range hz, of_decide_eq_true hne⟩

/-! ### Table entries that a placement may take -/

/-- The table entry of a key is unallocated or a HALTED context's. -/
def State.vacant (s : State) (k : Nat) : Bool :=
  match s.ctx k with
  | some c => c.status == .halted
  | none => true

theorem State.entriesLeft_eq (s : State) (die : Nat) : s.entriesLeft die = ((List.range 1024).map (1024 * die + ·)).countP s.vacant :=
  (List.countP_eq_length_filter ..).symm

theorem State.mem_freeEntries (s : State) (die key : Nat) (h : key ∈ s.freeEntries die) : key / 1024 = die ∧ s.vacant key = true := by
  have hkey (hk : key ∈ (List.range 1024).map (1024 * die + ·)) : key / 1024 = die := by
    obtain ⟨i, hi, rfl⟩ := List.mem_map.mp hk
    have := List.mem_range.mp hi
    omega
  unfold State.freeEntries at h
  dsimp only at h
  unfold State.vacant
  split at h
  · obtain ⟨hk, hv⟩ := List.mem_filter.mp h
    refine ⟨hkey hk, ?_⟩
    cases hc : s.ctx key with
    | none => rfl
    | some c =>
      rw [hc] at hv
      exact hv
  · obtain ⟨hk, hv⟩ := List.mem_filter.mp h
    refine ⟨hkey hk, ?_⟩
    rw [Option.isNone_iff_eq_none.mp hv] <;> rfl

theorem State.freeEntries_ne_nil (s : State) (die : Nat) (h : 0 < s.entriesLeft die) : s.freeEntries die ≠ [] := by
  rw [State.entriesLeft_eq, List.countP_pos_iff] at h
  obtain ⟨k, hk, hv⟩ := h
  unfold State.freeEntries
  dsimp only
  cases hc : s.ctx k with
  | none =>
    have hmem : k ∈ ((List.range 1024).map (1024 * die + ·)).filter (fun k => (s.ctx k).isNone) :=
      List.mem_filter.mpr ⟨hk, by rw [hc]; rfl⟩
    rw [if_neg (by rw [List.isEmpty_iff]; exact List.ne_nil_of_mem hmem)]
    exact List.ne_nil_of_mem hmem
  | some c =>
    split
    · refine List.ne_nil_of_mem (List.mem_filter.mpr ⟨hk, ?_⟩)
      unfold State.vacant at hv
      rw [hc] at hv ⊢
      exact hv
    · rename_i hne
      rwa [List.isEmpty_iff] at hne

/-- A change at one key changes a count by one at most. -/
theorem countP_le_succ {P Q : Nat → Bool} (k : Nat) (l : List Nat) (hl : l.Nodup) (h : ∀ j, j ≠ k → P j = Q j) :
    l.countP P ≤ l.countP Q + 1 := by
  induction l with
  | nil => exact Nat.zero_le _
  | cons a l ih =>
    obtain ⟨ha, hnd⟩ := List.nodup_cons.mp hl
    by_cases hak : a = k
    · have hsame : l.countP P = l.countP Q := List.countP_congr fun j hj => by
        rw [h j (fun he => ha (by rw [hak, ← he]; exact hj))]
      rw [List.countP_cons, List.countP_cons, hsame]
      split <;> split <;> omega
    · rw [List.countP_cons, List.countP_cons, h a hak]
      have := ih hnd
      omega

/-! ### A task takes its entry (R292) -/

/-- What placements leave: memory, cores, partitions, queues, graphs, and every NEW context. -/
structure Placing (s t : State) : Prop where
  mem : t.mem = s.mem
  cores : t.cores = s.cores
  graphs : t.graphs = s.graphs
  parts : ∀ d, (t.die d).parts = (s.die d).parts
  placed : ∀ k c, s.ctx k = some c → c.status = .new → t.ctx k = some c

theorem Placing.refl (s : State) : Placing s s := ⟨rfl, rfl, rfl, fun _ => rfl, fun _ _ h _ => h⟩

theorem Placing.trans {s t u : State} (h : Placing s t) (g : Placing t u) : Placing s u where
  mem := g.mem.trans h.mem
  cores := g.cores.trans h.cores
  graphs := g.graphs.trans h.graphs
  parts d := (g.parts d).trans (h.parts d)
  placed k c hk hc := g.placed k c (h.placed k c hk hc) hc

theorem Placing.coresOf {s t : State} (h : Placing s t) (d part : Nat) (record : List Byte) :
    t.coresOf d part record = s.coresOf d part record := s.coreCounts_congr h.parts h.cores part record d

/-- A task of a graph has a table entry of a die, in state NEW. -/
def State.HasTask (t : State) (die gid i : Nat) : Prop :=
  ∃ k c, t.ctx k = some c ∧ k / 1024 = die ∧ c.status = .new ∧ c.id.graph = gid ∧ c.id.taskidx = BitVec.ofNat 24 i

theorem Placing.hasTask {s t : State} (h : Placing s t) {die gid i : Nat} (ht : s.HasTask die gid i) : t.HasTask die gid i := by
  obtain ⟨k, c, hk, hd, hs, hg, hi⟩ := ht
  exact ⟨k, c, h.placed k c hk hs, hd, hs, hg, hi⟩

theorem Die.joinGang_parts (d : Die) (s : State) (tenant : BitVec 16) (gang : BitVec 20) : (d.joinGang s tenant gang).parts = d.parts := by
  unfold Die.joinGang
  split
  · rfl
  · dsimp only
    split <;> rfl

theorem State.taskPlaced_spec (s : State) (die gid : Nat) (g : Graph) (index core key : Nat) (hkey : key / 1024 = die)
    (hv : s.vacant key = true) : Placing s (s.taskPlaced die gid g index core key) ∧
      (s.taskPlaced die gid g index core key).HasTask die gid index ∧
      ∀ j, j ≠ key → (s.taskPlaced die gid g index core key).ctx j = s.ctx j := by
  have hne (j : Nat) (hj : j ≠ key) : (s.taskPlaced die gid g index core key).ctx j = s.ctx j := s.ctx_setCtx_ne _ hj
  have hself := s.ctx_setCtx_self key { Context.start (s.identOf key g gid index) (modelPc g.record) core with
    be := { (Context.start (s.identOf key g gid index) (modelPc g.record) core).be with nests := s.nestInit (pkgOfDie die) g.record }
    sch := { (Context.start (s.identOf key g gid index) (modelPc g.record) core).sch with
      wantingSince := some (s.core core).cycle.toNat, coldSince := (s.core core).cycle.toNat } }
  refine ⟨⟨rfl, rfl, rfl, fun d => ?_, fun k c hk hc => ?_⟩, ⟨key, _, hself, hkey, rfl, rfl, rfl⟩, hne⟩
  · unfold State.taskPlaced
    dsimp only
    by_cases hd : d = die
    · subst hd
      rw [State.die_updDie_self, Die.joinGang_parts]
      rfl
    · rw [State.die_updDie_ne _ _ hd]
      rfl
  · refine (hne k (fun he => ?_)).trans hk
    subst he
    unfold State.vacant at hv
    rw [hk] at hv
    simp [hc] at hv

theorem State.placeTask_spec (s : State) (die gid : Nat) (g : Graph) (index core : Nat) (hleft : 0 < s.entriesLeft die) :
    ∃ t, s.placeTask die gid g index core = t ∧ Placing s t ∧ t.HasTask die gid index ∧ s.entriesLeft die ≤ t.entriesLeft die + 1 ∧
      ∀ k, k / 1024 ≠ die → t.ctx k = s.ctx k := by
  obtain ⟨key, hkey, hpick⟩ := pickFree_mem s (4 * index + 1) (s.freeEntries_ne_nil die hleft)
  obtain ⟨hdie, hv⟩ := s.mem_freeEntries die key hkey
  obtain ⟨hplacing, htask, hne⟩ := s.taskPlaced_spec die gid g index core key hdie hv
  refine ⟨s.taskPlaced die gid g index core key, ?_, hplacing, htask, ?_, fun k hk => hne k (fun he => hk (he ▸ hdie))⟩
  · unfold State.placeTask
    rw [hpick] <;> rfl
  · rw [State.entriesLeft_eq, State.entriesLeft_eq]
    refine countP_le_succ key _ (List.nodup_range.map (fun a b h => Nat.add_left_cancel h)) (fun j hj => ?_)
    unfold State.vacant
    rw [hne j hj] <;> rfl

/-! ### A die places its share (R292) -/

/-- One task of a share is placed, on a core the spec leaves open. -/
def State.placeIndex (die gid : Nat) (g : Graph) (lo : Nat) (s : State) (i : Nat) : State :=
  match pickFree s (4 * (lo + i) + 3) (s.coresOf die g.part g.record) with
  | some core => s.placeTask die gid g (lo + i) core
  | none => s

theorem State.foldl_placeIndex (die gid : Nat) (g : Graph) (lo : Nat) (l : List Nat) : ∀ s : State,
    s.coresOf die g.part g.record ≠ [] → l.length ≤ s.entriesLeft die →
    Placing s (l.foldl (State.placeIndex die gid g lo) s) ∧
    (∀ i ∈ l, (l.foldl (State.placeIndex die gid g lo) s).HasTask die gid (lo + i)) ∧
    ∀ k, k / 1024 ≠ die → (l.foldl (State.placeIndex die gid g lo) s).ctx k = s.ctx k := by
  induction l with
  | nil => exact fun s _ _ => ⟨Placing.refl s, (fun _ hi => nomatch hi), fun _ _ => rfl⟩
  | cons a l ih =>
    intro s hcores hlen
    rw [List.length_cons] at hlen
    obtain ⟨core, -, hpick⟩ := pickFree_mem s (4 * (lo + a) + 3) hcores
    obtain ⟨t, ht, hplacing, htask, hleft, hother⟩ := s.placeTask_spec die gid g (lo + a) core (by omega)
    have hstep : State.placeIndex die gid g lo s a = t := by
      unfold State.placeIndex
      rw [hpick, ← ht]
    obtain ⟨hrest, htasks, hothers⟩ := ih t (by rwa [hplacing.coresOf]) (by omega)
    rw [List.foldl_cons, hstep]
    refine ⟨hplacing.trans hrest, fun i hi => ?_, fun k hk => (hothers k hk).trans (hother k hk)⟩
    obtain rfl | hi := List.mem_cons.mp hi
    · exact hrest.hasTask htask
    · exact htasks i hi

theorem State.placeShare_spec (s : State) (die gid : Nat) (g : Graph) (hcores : s.coresOf die g.part g.record ≠ [])
    (hleft : (g.share (die % 8)).2 - (g.share (die % 8)).1 ≤ s.entriesLeft die) :
    Placing s (s.placeShare die gid g) ∧
    (∀ i, (g.share (die % 8)).1 ≤ i → i < (g.share (die % 8)).2 → (s.placeShare die gid g).HasTask die gid i) ∧
    ∀ k, k / 1024 ≠ die → (s.placeShare die gid g).ctx k = s.ctx k := by
  obtain ⟨hplacing, htasks, hother⟩ := State.foldl_placeIndex die gid g (g.share (die % 8)).1
    (List.range ((g.share (die % 8)).2 - (g.share (die % 8)).1)) s hcores (by rwa [List.length_range])
  refine ⟨hplacing, fun i hlo hhi => ?_, hother⟩
  have := htasks (i - (g.share (die % 8)).1) (List.mem_range.mpr (by omega))
  rwa [Nat.add_sub_cancel' hlo] at this

theorem State.entriesLeft_congr {s t : State} {die : Nat} (h : ∀ k, k / 1024 = die → t.ctx k = s.ctx k) :
    t.entriesLeft die = s.entriesLeft die := by
  rw [State.entriesLeft_eq, State.entriesLeft_eq]
  refine List.countP_congr fun k hk => ?_
  obtain ⟨i, hi, rfl⟩ := List.mem_map.mp hk
  have := List.mem_range.mp hi
  unfold State.vacant
  rw [h _ (by omega)] <;> rfl

/-- Every die of a package places its share. -/
theorem State.foldl_placeShare (pkg gid : Nat) (g : Graph) (l : List (Nat × Nat × Nat)) (hnd : (l.map (·.1)).Nodup)
    (hshare : ∀ p ∈ l, p.1 < 8 ∧ g.share p.1 = p.2) : ∀ s : State,
    (∀ p ∈ l, s.coresOf (8 * pkg + p.1) g.part g.record ≠ [] ∧ p.2.2 - p.2.1 ≤ s.entriesLeft (8 * pkg + p.1)) →
    Placing s ((l.map (·.1)).foldl (fun s n => s.placeShare (8 * pkg + n) gid g) s) ∧
    ∀ p ∈ l, ∀ i, p.2.1 ≤ i → i < p.2.2 →
      ((l.map (·.1)).foldl (fun s n => s.placeShare (8 * pkg + n) gid g) s).HasTask (8 * pkg + p.1) gid i := by
  induction l with
  | nil => exact fun s _ => ⟨Placing.refl s, fun _ hp => nomatch hp⟩
  | cons a l ih =>
    intro s hs
    rw [List.map_cons] at hnd ⊢
    obtain ⟨ha, hnd'⟩ := List.nodup_cons.mp hnd
    obtain ⟨hlt, hash⟩ := hshare a List.mem_cons_self
    obtain ⟨hcores, hleft⟩ := hs a List.mem_cons_self
    have hmod : (8 * pkg + a.1) % 8 = a.1 := by omega
    obtain ⟨hplacing, htasks, hother⟩ := s.placeShare_spec (8 * pkg + a.1) gid g hcores (by rw [hmod, hash]; exact hleft)
    rw [hmod, hash] at htasks
    have hnext : ∀ p ∈ l, (s.placeShare (8 * pkg + a.1) gid g).coresOf (8 * pkg + p.1) g.part g.record ≠ [] ∧
        p.2.2 - p.2.1 ≤ (s.placeShare (8 * pkg + a.1) gid g).entriesLeft (8 * pkg + p.1) := by
      intro p hp
      obtain ⟨hc, hl⟩ := hs p (List.mem_cons_of_mem _ hp)
      have hne : p.1 ≠ a.1 := fun he => ha (he ▸ List.mem_map_of_mem hp)
      refine ⟨by rwa [hplacing.coresOf], ?_⟩
      rwa [State.entriesLeft_congr (s := s) (fun k hk => hother k (by omega))]
    obtain ⟨hrest, hall⟩ := ih hnd' (fun p hp => hshare p (List.mem_cons_of_mem _ hp)) _ hnext
    rw [List.foldl_cons]
    refine ⟨hplacing.trans hrest, fun p hp i hlo hhi => ?_⟩
    obtain rfl | hp := List.mem_cons.mp hp
    · exact hrest.hasTask (htasks i hlo hhi)
    · exact hall p hp i hlo hhi

end Sys2Proof.Machine
end

section
/-! PROOFS. INVOKE_START and the statement of the packets (O58). -/

namespace Sys2Proof.Machine

theorem SMap.find_of_nodup {α : Type} {m : SMap α} (hnd : (m.map (·.1)).Nodup) {p : Nat × α} (hp : p ∈ m) : SMap.find m p.1 = some p.2 := by
  induction m with
  | nil => exact nomatch hp
  | cons x rest ih =>
    rw [List.map_cons] at hnd
    obtain ⟨hx, hnd'⟩ := List.nodup_cons.mp hnd
    obtain rfl | hp := List.mem_cons.mp hp
    · exact if_pos rfl
    · exact (if_neg (fun he => hx (by rw [he]; exact List.mem_map_of_mem hp))).trans (ih hnd' hp)

section
variable (s : State) (die h : Nat)

/-! ### An INVOKE starts (R292) -/

/-- The static shares of a graph that starts. -/
def State.sharesOf (s : State) (die : Nat) (g : Graph) : SMap (Nat × Nat) :=
  layShares (s.coreCounts die g.part g.record) (shareSizes g.n (s.coreCounts die g.part g.record))

theorem State.coreCounts_getElem (part : Nat) (record : List Byte) (n c : Nat) (hn : (s.coreCounts die part record)[n]? = some c) :
    n < 8 ∧ c = (s.coresOf (8 * pkgOfDie die + n) part record).length := by
  unfold State.coreCounts siblings at hn
  rw [List.map_map, List.getElem?_map] at hn
  by_cases hlt : n < 8
  · rw [List.getElem?_range hlt] at hn
    exact ⟨hlt, (Option.some.inj hn).symm⟩
  · rw [List.getElem?_eq_none (by rw [List.length_range]; omega)] at hn
    exact nomatch hn

theorem State.sharesOf_spec (g : Graph) : ((s.sharesOf die g).map (·.1)).Nodup ∧
    ∀ p ∈ s.sharesOf die g, p.1 < 8 ∧ SMap.getD (s.sharesOf die g) p.1 (0, 0) = p.2 ∧
      s.coresOf (8 * pkgOfDie die + p.1) g.part g.record ≠ [] := by
  obtain ⟨hnd, hcores⟩ := layShares_spec (s.coreCounts die g.part g.record) (shareSizes g.n (s.coreCounts die g.part g.record))
  refine ⟨hnd, fun p hp => ?_⟩
  obtain ⟨c, hc, hne⟩ := hcores p hp
  obtain ⟨hlt, hlen⟩ := s.coreCounts_getElem die g.part g.record p.1 c hc
  refine ⟨hlt, ?_, fun hnil => hne (by rw [hlen, hnil]; rfl)⟩
  unfold SMap.getD
  rw [show SMap.find (s.sharesOf die g) p.1 = some p.2 from SMap.find_of_nodup hnd hp]

section
variable {gid len : Nat} {g : Graph} (hp : (s.queue die h).phase = .invoking gid len) (hg : SMap.find s.graphs gid = some g)
  (hs : g.started = false)
include hp hg hs

theorem invokeStart_eq : exec (.invokeStart die h) s = .next (
    let g1 := { g with started := true, shares := s.sharesOf die g }
    if g.persist && !s.sharesFit die (s.sharesOf die g) then s
    else
      ((if g.persist then ((s.sharesOf die g).map (·.1)).foldl (fun s n => s.placeShare (8 * pkgOfDie die + n) gid g1) s else s).setGraph gid
        (if g.persist then { g1 with shares := (s.sharesOf die g).map (fun p => (p.1, (p.2.2, p.2.2))) } else g1)).passQueue die h
          ((s.queue die h).started gid len g.overlap)) := by
  rw [exec_invokeStart, execInvokeStart]
  dsimp only
  rw [hp]
  dsimp only
  rw [hg]
  refine congrArg Host.Outcome.next (if_neg ?_)
  rw [hs]
  exact Bool.false_ne_true

theorem invokeStart_shares (hn : g.persist = false) : ∃ t : State, exec (.invokeStart die h) s = .next (t.checkPtr die h) ∧
    (∀ a, t.memByte a = s.memByte a) ∧ t.contexts = s.contexts ∧ t.queue die h = (s.queue die h).started gid len g.overlap ∧
    SMap.find t.graphs gid = some { g with started := true, shares := s.sharesOf die g } := by
  have hn' : ¬ g.persist = true := by rw [hn]; exact Bool.false_ne_true
  have hexec := invokeStart_eq s die h hp hg hs
  rw [if_neg (by rw [hn, Bool.false_and]; exact Bool.false_ne_true), if_neg hn', if_neg hn'] at hexec
  exact ⟨(s.setGraph gid { g with started := true, shares := s.sharesOf die g }).setQueue die h _, hexec, fun _ => rfl, rfl,
    State.queue_setQueue_self .., SMap.find_put_self ..⟩

theorem invokeStart_waits (hn : g.persist = true) (hf : s.sharesFit die (s.sharesOf die g) = false) :
    exec (.invokeStart die h) s = .next s := by
  have hexec := invokeStart_eq s die h hp hg hs
  simpa only [hn, hf, Bool.not_false, Bool.and_self, if_true] using hexec

theorem invokeStart_persist (hn : g.persist = true) (hf : s.sharesFit die (s.sharesOf die g) = true) :
    ∃ t : State, exec (.invokeStart die h) s = .next (t.checkPtr die h) ∧ (∀ a, t.memByte a = s.memByte a) ∧
      t.queue die h = (s.queue die h).started gid len g.overlap ∧
      SMap.find t.graphs gid = some { g with started := true, shares := (s.sharesOf die g).map (fun p => (p.1, (p.2.2, p.2.2))) } ∧
      ∀ p ∈ s.sharesOf die g, ∀ i, p.2.1 ≤ i → i < p.2.2 → t.HasTask (8 * pkgOfDie die + p.1) gid i := by
  obtain ⟨hnd, hshares⟩ := s.sharesOf_spec die g
  have hfit : ∀ p ∈ s.sharesOf die g, p.2.2 - p.2.1 ≤ s.entriesLeft (8 * pkgOfDie die + p.1) := by
    unfold State.sharesFit at hf
    exact fun p hm => of_decide_eq_true (List.all_eq_true.mp hf p hm)
  obtain ⟨g1, hg1⟩ : ∃ g1 : Graph, g1 = { g with started := true, shares := s.sharesOf die g } := ⟨_, rfl⟩
  have hshare : ∀ p ∈ s.sharesOf die g, p.1 < 8 ∧ g1.share p.1 = p.2 := by
    subst hg1
    exact fun p hm => ⟨(hshares p hm).1, (hshares p hm).2.1⟩
  have hroom : ∀ p ∈ s.sharesOf die g, s.coresOf (8 * pkgOfDie die + p.1) g1.part g1.record ≠ [] ∧
      p.2.2 - p.2.1 ≤ s.entriesLeft (8 * pkgOfDie die + p.1) := by
    subst hg1
    exact fun p hm => ⟨(hshares p hm).2.2, hfit p hm⟩
  obtain ⟨hplacing, htasks⟩ := State.foldl_placeShare (pkgOfDie die) gid g1 (s.sharesOf die g) hnd hshare s hroom
  have hexec := invokeStart_eq s die h hp hg hs
  rw [if_neg (by rw [hf, Bool.not_true, Bool.and_false]; exact Bool.false_ne_true), if_pos hn, if_pos hn, ← hg1] at hexec
  generalize ((s.sharesOf die g).map (·.1)).foldl (fun s n => s.placeShare (8 * pkgOfDie die + n) gid g1) s = u at hexec hplacing htasks
  rw [State.passQueue] at hexec
  subst hg1
  refine ⟨_, hexec, fun a => ?_, State.queue_setQueue_self .., SMap.find_put_self .., htasks⟩
  exact congrArg (Memory.read · a) hplacing.mem

end
end

theorem State.queue_updDie (u : State) (k : Nat) (f : Die → Die) (hf : ∀ d, (f d).queues = d.queues) (die h : Nat) :
    (u.updDie k f).queue die h = u.queue die h := by
  unfold State.queue
  by_cases hk : die = k
  · rw [hk, State.die_updDie_self, hf]
  · rw [State.die_updDie_ne _ _ hk]

/-- A slot stands in the waiter table of a home. -/
theorem waits_spec (u : State) (die h : Nat) (loc : Loc) (q : Queue) (w : WaitEntry) :
    let t := (u.setQueue die h q).updDie loc.engine (fun d => { d with waiters := d.waiters ++ [w] })
    t.queue die h = q ∧ (t.die loc.engine).waiters = (u.die loc.engine).waiters ++ [w] := by
  intro t
  refine ⟨(State.queue_updDie (u.setQueue die h q) loc.engine (fun d => { d with waiters := d.waiters ++ [w] }) (fun _ => rfl) die h).trans
    (u.queue_setQueue_self die h q), ?_⟩
  rw [State.die_updDie_self, State.setQueue_waiters]

/-- Settles O58: a slot's next packet by the rule of atPacket, a sync operation by that of syncPacket, PERSIST by the placement of the shares. -/
theorem packetResults : Obligations.PacketResults := by
  unfold Obligations.PacketResults
  intro s die h q keeps invokes
  have hkeeps {t : State} (hm : t.mem = s.mem) : keeps t := fun a => congrArg (Memory.read · a) hm
  refine ⟨?_, ?_, fun cause sub va hc hs => stopBegun_spec s die h cause sub va hc hs, s.checkPtr_of_fits die h, s.checkPtr_of_overrun die h,
    ?_, ?_, ?_, ?_, ?_, ?_⟩
  · intro q' cause sub va hp i hi
    obtain ⟨-, hidle⟩ := s.prepared_idle die h hp (fun hr => nomatch hr)
    obtain ⟨kind, f, hf⟩ := packet_step s die h hidle i hi
    exact hf.trans (atPacket_stop s die h kind f hp)
  · intro q' hp hrun hidle i hi
    obtain ⟨kind, f, hf⟩ := packet_step s die h hidle i hi
    exact hf.trans (atPacket_wait s die h kind f hp hrun)
  · intro q' ws hp hturn q1 b type len hi goes passes stops
    obtain ⟨-, hidle⟩ := s.prepared_idle die h hp (fun hr => nomatch hr)
    have hgoes (i : Instr) (r : Queue) (he : exec i s = .next (b.setQueue die h r)) : goes i r := by
      have hb : Begun s die h r (b.setQueue die h r) := Begun.of_begin s die h r
      exact ⟨_, he, hb.queue, hb.last, hb.at_, hkeeps hb.mem, hb.contexts⟩
    have hpasses (i : Instr) (r : Queue) (he : exec i s = .next ((b.setQueue die h r).checkPtr die h)) : passes i r := by
      have hb : Begun s die h r (b.setQueue die h r) := Begun.of_begin s die h r
      exact ⟨_, he, hb.queue, hb.last, hb.at_, hkeeps hb.mem, hb.contexts⟩
    refine ⟨fun ht => hpasses _ _ (pktNop_begin s die h hp hturn ht), fun ht => hpasses _ _ (ffence_begin s die h hp hturn ht),
      fun ht hl => hgoes _ _ ((ib_begin s die h hp hturn ht).trans (congrArg _ (if_neg hl))),
      fun ht hl => (ib_begin s die h hp hturn ht).trans (congrArg _ (if_pos hl)),
      fun ht hn => hpasses _ _ ((pktLoop_begin s die h hp hturn ht).trans (congrArg _ (if_pos hn))),
      fun ht hn hl => hgoes _ _ ((pktLoop_begin s die h hp hturn ht).trans (congrArg _ ((if_neg hn).trans (if_neg hl)))),
      fun ht hn hl => (pktLoop_begin s die h hp hturn ht).trans (congrArg _ ((if_neg hn).trans (if_pos hl))), ?_, ?_⟩
    · intro ht record n flags
      refine ⟨fun cause hc => invoke_stops s die h hp hturn ht hc, fun hc => ?_⟩
      obtain ⟨t, g, he, hb, hg, rfl, hnext⟩ := invoke_begin s die h hp hturn ht hc
      exact ⟨⟨t, he, hb.queue, hb.last, hb.at_, hkeeps hb.mem, hb.contexts⟩, t, _, he, hg, rfl, rfl, rfl, rfl, rfl, rfl, hnext⟩
    · intro i acc hcase
      obtain ⟨kind, hi', hk⟩ : ∃ kind, exec i s = atPacket s die h kind (fun s q ws => s.sendSync die h q ws acc) ∧ kind ws = true := by
        obtain ⟨rfl, ht, rfl⟩ | ⟨rfl, ht, rfl⟩ | ⟨rfl, ht, ho, rfl⟩ | ⟨rfl, ht, ho, rfl⟩ := hcase
        · exact ⟨_, pred_idle s die h hidle, decide_eq_true ht⟩
        · exact ⟨_, pktWait_idle s die h hidle, decide_eq_true ht⟩
        · exact ⟨_, pktSigAdd_idle s die h hidle, Bool.and_eq_true_iff.mpr ⟨decide_eq_true ht, decide_eq_true ho⟩⟩
        · exact ⟨_, pktSigSet_idle s die h hidle, Bool.and_eq_true_iff.mpr ⟨decide_eq_true ht, decide_eq_true ho⟩⟩
      obtain ⟨hok, herror⟩ := sync_begin s die h hp hturn hi' hk
      exact ⟨fun loc hloc => hgoes _ _ (hok loc hloc), herror⟩
  · intro gid len g hp hg hs shares
    exact ⟨invokeStart_shares s die h hp hg hs, invokeStart_persist s die h hp hg hs, invokeStart_waits s die h hp hg hs⟩
  · exact fun gid len hg hp ho => taskGraphEnd_invoking s die h hg hp ho
  · exact fun o hg ho => taskGraphEnd_overlap s die h hg ho
  · intro loc ws hp type len hi word read
    refine ⟨fun cause i hr hq hcase => ?_, fun hr => ?_⟩
    · obtain ⟨kind, acc, perform, hk, he⟩ := sync_step s die h hp hcase
      exact he.trans (syncPacket_refused s die h hp acc perform hk hr hq)
    · intro pending
      obtain ⟨hmem, -, -, -⟩ := s.holdLine_home loc (s.queue die h).part
      obtain ⟨-, hwaiters, -⟩ := s.holdLine_spec loc (s.queue die h).part
      refine ⟨fun ht => ?_, fun hown => ?_, fun ht hle => ?_, fun ht hlt hroom => ?_, fun ht hlt hfull => ?_, ?_⟩
      · refine ⟨_, pred_performed s die h hp hr ht, hkeeps hmem, ?_⟩
        rw [State.queue_setQueue_self, predHolds_eq]
      · show BitVec.ofNat 64 _ = State.home64 s loc.pkg loc.pa
        rw [s.readHomeBytes_of_fresh none loc.pkg loc.pa 8 hown]
        rfl
      · refine ⟨(s.holdLine loc (s.queue die h).part).setQueue die h _, (pktWait_performed s die h hp hr ht).trans (congrArg _ (if_pos hle)),
          hkeeps hmem, State.queue_setQueue_self ..⟩
      · have he := (pktWait_performed s die h hp hr ht).trans (congrArg _ ((if_neg (Nat.not_le_of_lt hlt)).trans
          (if_neg (Nat.not_le_of_lt hroom))))
        obtain ⟨hq, hw⟩ := waits_spec (s.holdLine loc (s.queue die h).part) die h loc { s.queue die h with phase := .waiting loc (lenOf ws) }
          { who := .queue die h, pkg := loc.pkg, pa := loc.pa, kind := .signal (pktWord ws 2), answered := false, progress := false }
        exact ⟨_, he, hkeeps hmem, hq, hw.trans (by rw [hwaiters])⟩
      · have he := (pktWait_performed s die h hp hr ht).trans (congrArg _ ((if_neg (Nat.not_le_of_lt hlt)).trans (if_pos hfull)))
        exact ⟨_, he, hkeeps hmem, s.holdLine_queue die h loc _, hwaiters _⟩
      · simp only [List.forall_mem_cons]
        refine ⟨fun hwf ht hop => ?_, fun hwf ht hop => ?_, fun _ hx => nomatch hx⟩
        · obtain ⟨hq, hw, hframe⟩ := sig_written s die h loc (s.home64 loc.pkg loc.pa + pktWord ws 2) ((s.queue die h).complete len) hwf
          exact ⟨_, sigAdd_performed s die h hp hr ht hop, hq, hw, hframe⟩
        · obtain ⟨hq, hw, hframe⟩ := sig_written s die h loc (pktWord ws 2) ((s.queue die h).complete len) hwf
          exact ⟨_, sigSet_performed s die h hp hr ht hop, hq, hw, hframe⟩
  · exact fun loc len w hp hw ha hwho => pktWait_answered s die h hp hw ha hwho

end Sys2Proof.Machine
end

section
/-! PROOFS. Collectives: fault messages, coordinators, the ticket sequencer, dies no longer reached (O59; R303, R311, R312, R319, R348). -/

namespace Sys2Proof.Machine

/-! ### Serac dies, and what of them reachability and communicators rest on -/

/-- A field that an update of a Serac die leaves is as before on every die. -/
theorem State.serac_updSerac_field {β : Type} (F : Serac → β) (s : State) (k : Nat) (f : Serac → Serac) (h : ∀ d, F (f d) = F d)
    (j : Nat) : F ((s.updSerac k f).serac j) = F (s.serac j) := by
  by_cases hj : j = k
  · subst hj
    rw [State.serac_updSerac_self, h]
  · rw [State.serac_updSerac_ne _ _ hj]

/-- What decides whether one die is reached from another. -/
def Serac.reach (d : Serac) : List Nat × BootState × List Nat := (d.unreachable, d.boot, d.retiredLinks)

theorem Serac.routed_congr {d e : Serac} (h : d.reach = e.reach) : d.routed = e.routed := by
  have hb : d.boot = e.boot := congrArg (·.2.1) h
  have hl : d.retiredLinks = e.retiredLinks := congrArg (·.2.2) h
  rw [Serac.routed, Serac.routed, hb, hl]

theorem State.seracLost_congr {s t : State} (h : ∀ j, (t.serac j).reach = (s.serac j).reach) (a b : Nat) :
    t.seracLost a b = s.seracLost a b := by
  have hu (j : Nat) : (t.serac j).unreachable = (s.serac j).unreachable := congrArg Prod.fst (h j)
  have hb (j : Nat) : (t.serac j).boot = (s.serac j).boot := congrArg (·.2.1) (h j)
  simp only [State.seracLost, hu, hb, Serac.routed_congr (h _)]

theorem State.seracLost_updSerac (s : State) (k : Nat) (f : Serac → Serac) (h : ∀ d, (f d).reach = d.reach) (a b : Nat) :
    (s.updSerac k f).seracLost a b = s.seracLost a b :=
  State.seracLost_congr (s.serac_updSerac_field Serac.reach k f h) a b

theorem State.commOf_congr {s t : State} (hm : t.mem = s.mem) {k : Nat} (h : (t.serac k).commbase = (s.serac k).commbase) (c : Nat) :
    t.commOf k c = s.commOf k c := by
  have hb : t.homeBytes = s.homeBytes := by
    funext a b n
    rw [State.homeBytes, hm]
    rfl
  unfold State.commOf
  rw [h, hb]

theorem State.commOf_updSerac (s : State) (k : Nat) (f : Serac → Serac) (h : ∀ d, (f d).commbase = d.commbase) (j c : Nat) :
    (s.updSerac k f).commOf j c = s.commOf j c :=
  State.commOf_congr (s := s) (t := s.updSerac k f) rfl (s.serac_updSerac_field Serac.commbase k f h j) c

/-- A communicator has at least one member, and a word for each. -/
theorem State.commOf_size {s : State} {serac c : Nat} {m : Comm} (h : s.commOf serac c = some m) :
    m.words.length = m.size ∧ 1 ≤ m.size := by
  unfold State.commOf at h
  obtain ⟨hok, hm⟩ := Option.ite_none_right_eq_some.mp h
  have hwords := (Bool.and_eq_true_iff.mp hok).1
  have hrest := (Bool.and_eq_true_iff.mp hwords).1
  have hfields := of_decide_eq_true (Bool.and_eq_true_iff.mp hrest).1
  obtain ⟨_, _, hsize, _⟩ := hfields
  have hw := congrArg Comm.words (Option.some.inj hm)
  have hs := congrArg Comm.size (Option.some.inj hm)
  dsimp only at hw hs
  rw [← hw, ← hs, List.length_map, List.length_range]
  exact ⟨rfl, hsize⟩

/-! ### Fault messages (R319) -/

/-- Nothing but fault messages has been added. -/
structure Tells (s t : State) : Prop where
  rest : ∃ q, t = { s with seracs := q }
  serac : ∀ j, ∃ l, t.serac j = { s.serac j with faultMsgs := (s.serac j).faultMsgs ++ l }

theorem Tells.refl (s : State) : Tells s s := ⟨⟨s.seracs, rfl⟩, fun j => ⟨[], by rw [List.append_nil]⟩⟩

theorem Tells.trans {s t u : State} (h : Tells s t) (g : Tells t u) : Tells s u where
  rest := by
    obtain ⟨q, rfl⟩ := h.rest
    obtain ⟨r, rfl⟩ := g.rest
    exact ⟨r, rfl⟩
  serac j := by
    obtain ⟨l, hl⟩ := h.serac j
    obtain ⟨r, hr⟩ := g.serac j
    exact ⟨l ++ r, by rw [hr, hl, List.append_assoc]⟩

/-- A field other than the fault messages. -/
theorem Tells.field {β : Type} (F : Serac → β) (hF : ∀ d l, F { d with faultMsgs := l } = F d) {s t : State} (h : Tells s t) (j : Nat) :
    F (t.serac j) = F (s.serac j) := by
  obtain ⟨l, hl⟩ := h.serac j
  rw [hl, hF]

theorem Tells.mem {s t : State} (h : Tells s t) : t.mem = s.mem := by
  obtain ⟨q, rfl⟩ := h.rest
  rfl

theorem Tells.memByte {s t : State} (h : Tells s t) (a : Nat) : t.memByte a = s.memByte a := by
  obtain ⟨q, rfl⟩ := h.rest
  rfl

theorem Tells.contexts {s t : State} (h : Tells s t) : t.contexts = s.contexts := by
  obtain ⟨q, rfl⟩ := h.rest
  rfl

theorem Tells.runs {s t : State} (h : Tells s t) : t.runs = s.runs := by
  obtain ⟨q, rfl⟩ := h.rest
  rfl

theorem Tells.seracLost {s t : State} (h : Tells s t) (a b : Nat) : t.seracLost a b = s.seracLost a b :=
  State.seracLost_congr (h.field Serac.reach (fun _ _ => rfl)) a b

theorem Tells.commOf {s t : State} (h : Tells s t) (k c : Nat) : t.commOf k c = s.commOf k c :=
  State.commOf_congr h.mem (h.field Serac.commbase (fun _ _ => rfl) k) c

theorem Tells.faultMsgs {s t : State} (h : Tells s t) {j : Nat} {f : FaultMsg} (hf : f ∈ (s.serac j).faultMsgs) :
    f ∈ (t.serac j).faultMsgs := by
  obtain ⟨l, hl⟩ := h.serac j
  rw [hl]
  exact List.mem_append_left l hf

theorem Tells.foldl {α : Type} (f : State → α → State) (hf : ∀ s a, Tells s (f s a)) (l : List α) : ∀ s, Tells s (l.foldl f s) := by
  induction l with
  | nil => exact Tells.refl
  | cons a l ih => exact fun s => (hf s a).trans (ih (f s a))

/-- What one step of a run of messages tells is told after it. -/
theorem Tells.foldl_mem {α : Type} (f : State → α → State) (hf : ∀ s a, Tells s (f s a)) (P : State → Prop)
    (hP : ∀ s t, Tells s t → P s → P t) {a : α} {l : List α} (ha : a ∈ l) (s : State) (h : ∀ u, Tells s u → P (f u a)) :
    P (l.foldl f s) := by
  induction l generalizing s with
  | nil => exact absurd ha List.not_mem_nil
  | cons b l ih =>
    rcases List.mem_cons.mp ha with rfl | hm
    · exact hP _ _ (Tells.foldl f hf l (f s a)) (h s (Tells.refl s))
    · exact ih hm (f s b) (fun u hu => h u ((hf s b).trans hu))

theorem Tells.updSerac (s : State) (k : Nat) (l : List FaultMsg) :
    Tells s (s.updSerac k (fun d => { d with faultMsgs := d.faultMsgs ++ l })) where
  rest := ⟨_, rfl⟩
  serac j := by
    by_cases hj : j = k
    · subst hj
      exact ⟨l, State.serac_updSerac_self ..⟩
    · exact ⟨[], by rw [State.serac_updSerac_ne _ _ hj, List.append_nil]⟩

theorem Tells.faultMembers (s : State) (k : Nat) (words : List Nat) (coord comm inst cause : Nat) (sub : BitVec 8) :
    Tells s (s.faultMembers k words coord comm inst cause sub) := by
  refine Tells.foldl _ (fun t q => ?_) _ s
  dsimp only
  split
  · exact Tells.refl t
  · exact Tells.updSerac t _ _

theorem Tells.faultAll (s : State) (k : Nat) (m : Comm) (coord comm inst cause : Nat) (sub : BitVec 8) :
    Tells s (s.faultAll k m coord comm inst cause sub) := Tells.faultMembers ..

/-- Every member of a list that is reached has a fault message of subcause 0. -/
def Told (k : Nat) (words : List Nat) (coord comm inst cause : Nat) (t : State) : Prop :=
  ∀ q, q < words.length → t.seracLost k (memberSerac (words.getD q 0)) = false →
    ({ coord := coord, comm := comm, inst := inst, rank := q, cause := cause, sub := 0 } : FaultMsg) ∈
      (t.serac (memberSerac (words.getD q 0))).faultMsgs

theorem Told.mono {k : Nat} {words : List Nat} {coord comm inst cause : Nat} (s t : State) (h : Tells s t)
    (hs : Told k words coord comm inst cause s) : Told k words coord comm inst cause t :=
  fun q hq hl => h.faultMsgs (hs q hq (by rw [← h.seracLost]; exact hl))

theorem told_faultMembers (s : State) (k : Nat) (words : List Nat) (coord comm inst cause : Nat) :
    Told k words coord comm inst cause (s.faultMembers k words coord comm inst cause 0) := by
  intro q hq hl
  rw [(Tells.faultMembers s ..).seracLost] at hl
  refine Tells.foldl_mem _ (fun t q => ?_) (fun t => _ ∈ (t.serac (memberSerac (words.getD q 0))).faultMsgs)
    (fun _ _ ht hs => ht.faultMsgs hs) (List.mem_range.mpr hq) s (fun u hu => ?_)
  · dsimp only
    split
    · exact Tells.refl t
    · exact Tells.updSerac t _ _
  · dsimp only
    rw [hu.seracLost, hl, if_neg Bool.false_ne_true, State.serac_updSerac_self]
    exact List.mem_append_right _ List.mem_cons_self

theorem told_faultAll (s : State) (k : Nat) (m : Comm) (coord comm inst cause : Nat) :
    Told k m.words coord comm inst cause (s.faultAll k m coord comm inst cause 0) :=
  told_faultMembers s k m.words coord comm inst cause

/-! ### The coordinator (R311, R315) -/

/-- A collective is settled: its notices leave, the next collective is awaited. -/
def State.settled (s : State) (coord comm inst : Nat) : State :=
  s.updSerac coord (fun d => { d with
    heldNotices := d.heldNotices.filter (fun n => !decide (n.comm = comm ∧ n.inst = inst))
    coordNext := SMap.put d.coordNext comm (inst + 1) })

/-- A ticket is asked for at a sequencer. -/
def State.asks (s : State) (k : Nat) (r : TicketReq) : State := s.updSerac k (fun q => { q with seqQueue := q.seqQueue ++ [r] })

section
variable (s : State) (coord comm inst : Nat) (m : Comm) {ns : List Notice}

theorem settleInstance_faulted (h : ∃ x ∈ ns, x.faulted = true) :
    s.settleInstance coord comm inst m ns = (s.settled coord comm inst).faultAll coord m coord comm inst 4 0 := by
  obtain ⟨x, hx, hf⟩ := h
  cases ns with
  | nil => cases hx
  | cons n rest => exact if_pos (List.any_eq_true.mpr ⟨x, hx, hf⟩)

theorem settleInstance_mismatch (hf : ∀ x ∈ ns, x.faulted = false) (h : ∃ x ∈ ns, ∃ y ∈ ns, x.fields ≠ y.fields) :
    s.settleInstance coord comm inst m ns = (s.settled coord comm inst).faultAll coord m coord comm inst 3 0 := by
  obtain ⟨x, hx, y, hy, hne⟩ := h
  cases ns with
  | nil => cases hx
  | cons n rest =>
    have hnone : ¬ (n :: rest).any (·.faulted) = true := fun ha => by
      obtain ⟨z, hz, hzf⟩ := List.any_eq_true.mp ha
      rw [hf z hz] at hzf
      cases hzf
    have hdiff : rest.any (fun z => decide (z.fields ≠ n.fields)) = true := by
      rw [List.any_eq_true]
      by_contra hall
      have heq (z : Notice) (hz : z ∈ n :: rest) : z.fields = n.fields := by
        rcases List.mem_cons.mp hz with rfl | hz
        · rfl
        · exact by_contra fun hzn => hall ⟨z, hz, decide_eq_true hzn⟩
      exact hne ((heq x hx).trans (heq y hy).symm)
    exact (if_neg hnone).trans (if_pos hdiff)

/-- Equal notices without a fault: a rank is asked for at the sequencer, where that is reached. -/
theorem settleInstance_good (hne : ns ≠ []) {fields : List Byte} (h : ∀ x ∈ ns, x.faulted = false ∧ x.fields = fields) :
    ∃ chunk ∈ ns.map (·.chunk),
      let w := (s.serac coord).choose (recField fields 0 4) (recField fields 4 4) (recField fields 8 8) m.size chunk
      s.settleInstance coord comm inst m ns =
        if s.seracLost coord (s.serac coord).sequencer then (s.settled coord comm inst).faultAll coord m coord comm inst 7 0
        else (s.settled coord comm inst).asks (s.serac coord).sequencer { members := m.words, ticket := {
          coord := coord, comm := comm, inst := inst, rank := 0, prev := 0, alg := w.1, chunk := w.2, die := 0 } } := by
  obtain ⟨chunk, hmem, hpick⟩ := pickFree_mem s 7 (l := ns.map (·.chunk)) (by simpa using hne)
  refine ⟨chunk, hmem, ?_⟩
  cases ns with
  | nil => exact absurd rfl hne
  | cons n rest =>
    have hnone : ¬ (n :: rest).any (·.faulted) = true := fun ha => by
      obtain ⟨z, hz, hzf⟩ := List.any_eq_true.mp ha
      rw [(h z hz).1] at hzf
      cases hzf
    have hn := (h n List.mem_cons_self).2
    have hsame : ¬ rest.any (fun z => decide (z.fields ≠ n.fields)) = true := fun ha => by
      obtain ⟨z, hz, hzn⟩ := List.any_eq_true.mp ha
      exact of_decide_eq_true hzn ((h z (List.mem_cons_of_mem _ hz)).2.trans hn.symm)
    refine (if_neg hnone).trans ((if_neg hsame).trans ?_)
    dsimp only
    rw [hpick, hn]
    rfl

/-- What has happened at the coordinator of a settled collective, memory and communicators as before. -/
structure Settles (s : State) (coord comm inst : Nat) (t : State) : Prop where
  memByte : ∀ a, t.memByte a = s.memByte a
  commOf : ∀ k c, t.commOf k c = s.commOf k c
  next : (t.serac coord).coordNext = SMap.put (s.serac coord).coordNext comm (inst + 1)
  held : (t.serac coord).heldNotices = (s.serac coord).heldNotices.filter (fun n => !decide (n.comm = comm ∧ n.inst = inst))

theorem settles_settled : Settles s coord comm inst (s.settled coord comm inst) := by
  unfold State.settled
  refine ⟨fun _ => rfl, s.commOf_updSerac coord _ (by intro _; rfl), ?_, ?_⟩
  all_goals rw [State.serac_updSerac_self]

omit m in
theorem Settles.tells {t u : State} (h : Settles s coord comm inst t) (ht : Tells t u) : Settles s coord comm inst u where
  memByte a := (ht.memByte a).trans (h.memByte a)
  commOf k c := (ht.commOf k c).trans (h.commOf k c)
  next := (ht.field Serac.coordNext (fun _ _ => rfl) coord).trans h.next
  held := (ht.field Serac.heldNotices (fun _ _ => rfl) coord).trans h.held

omit m in
theorem Settles.asks {t : State} (h : Settles s coord comm inst t) (k : Nat) (r : TicketReq) :
    Settles s coord comm inst (t.asks k r) := by
  unfold State.asks
  exact ⟨h.memByte, fun j c => (t.commOf_updSerac k _ (by intro _; rfl) j c).trans (h.commOf j c),
    (t.serac_updSerac_field Serac.coordNext k _ (by intro _; rfl) coord).trans h.next,
    (t.serac_updSerac_field Serac.heldNotices k _ (by intro _; rfl) coord).trans h.held⟩

theorem settles_settleInstance (hne : ns ≠ []) : Settles s coord comm inst (s.settleInstance coord comm inst m ns) := by
  have hbase := settles_settled s coord comm inst
  by_cases hf : ∃ x ∈ ns, x.faulted = true
  · rw [settleInstance_faulted s coord comm inst m hf]
    exact hbase.tells _ _ _ _ (Tells.faultAll ..)
  have hf (x : Notice) (hx : x ∈ ns) : x.faulted = false := Bool.eq_false_iff.mpr fun h => hf ⟨x, hx, h⟩
  by_cases hd : ∃ x ∈ ns, ∃ y ∈ ns, x.fields ≠ y.fields
  · rw [settleInstance_mismatch s coord comm inst m hf hd]
    exact hbase.tells _ _ _ _ (Tells.faultAll ..)
  obtain ⟨n, hn⟩ := List.exists_mem_of_ne_nil ns hne
  have hsame (x : Notice) (hx : x ∈ ns) : x.faulted = false ∧ x.fields = n.fields :=
    ⟨hf x hx, by_contra fun h => hd ⟨x, hx, n, hn, h⟩⟩
  obtain ⟨chunk, _, heq⟩ := settleInstance_good s coord comm inst m hne hsame
  rw [heq]
  split
  · exact hbase.tells _ _ _ _ (Tells.faultAll ..)
  · exact hbase.asks _ _ _ _ _ _

end

/-- The notices of a collective that a coordinator holds. -/
def Serac.noticesOf (d : Serac) (comm inst : Nat) : List Notice := d.heldNotices.filter (fun n => decide (n.comm = comm ∧ n.inst = inst))

theorem settleComm_of_short (s : State) (coord comm fuel : Nat) {m : Comm} (hm : s.commOf coord comm = some m)
    (h : ((s.serac coord).noticesOf comm (SMap.getD (s.serac coord).coordNext comm 0)).length ≠ m.size) :
    s.settleComm coord comm fuel = s := by
  cases fuel with
  | zero => rfl
  | succ fuel =>
    unfold State.settleComm
    dsimp only
    rw [hm]
    exact if_neg h

/-- The one complete collective of a communicator is settled, and nothing after it. -/
theorem settleComm_of_full (s : State) (coord comm fuel : Nat) {m : Comm} (hm : s.commOf coord comm = some m)
    (h : ((s.serac coord).noticesOf comm (SMap.getD (s.serac coord).coordNext comm 0)).length = m.size)
    (hall : ∀ x ∈ (s.serac coord).heldNotices, x.comm = comm → x.inst = SMap.getD (s.serac coord).coordNext comm 0) :
    s.settleComm coord comm (fuel + 1) = s.settleInstance coord comm (SMap.getD (s.serac coord).coordNext comm 0) m
      ((s.serac coord).noticesOf comm (SMap.getD (s.serac coord).coordNext comm 0)) := by
  have hsize := (State.commOf_size hm).2
  have hne : (s.serac coord).noticesOf comm (SMap.getD (s.serac coord).coordNext comm 0) ≠ [] := fun hnil => by
    rw [hnil, List.length_nil] at h
    omega
  obtain ⟨_, hcomm, hnext, hheld⟩ := settles_settleInstance s coord comm (SMap.getD (s.serac coord).coordNext comm 0) m hne
  have hstep : s.settleComm coord comm (fuel + 1) = (s.settleInstance coord comm (SMap.getD (s.serac coord).coordNext comm 0) m
      ((s.serac coord).noticesOf comm (SMap.getD (s.serac coord).coordNext comm 0))).settleComm coord comm fuel := by
    rw [State.settleComm, hm]
    exact if_pos h
  rw [hstep]
  refine settleComm_of_short _ coord comm fuel ((hcomm coord comm).trans hm) ?_
  rw [hnext, SMap.getD_put_self, Serac.noticesOf, hheld, List.filter_filter, List.filter_eq_nil_iff.mpr]
  · rw [List.length_nil]
    omega
  · intro x hx hboth
    simp only [Bool.and_eq_true, Bool.not_eq_true', decide_eq_true_eq, decide_eq_false_iff_not] at hboth
    obtain ⟨⟨hc, hi⟩, _⟩ := hboth
    have := hall x hx hc
    omega

section
variable {s : State} {serac k : Nat} {n : Notice} {m : Comm}

/-- A notice has arrived. -/
def State.noticed (s : State) (serac k : Nat) (n : Notice) : State :=
  s.updSerac serac (fun d => { d with notices := d.notices.eraseIdx k, heldNotices := d.heldNotices ++ [n] })

theorem State.noticed_serac (s : State) (serac k : Nat) (n : Notice) : (s.noticed serac k n).serac serac = { s.serac serac with
    notices := (s.serac serac).notices.eraseIdx k, heldNotices := (s.serac serac).heldNotices ++ [n] } :=
  State.serac_updSerac_self ..

theorem State.noticed_seracLost (s : State) (serac k : Nat) (n : Notice) (a b : Nat) :
    (s.noticed serac k n).seracLost a b = s.seracLost a b := by
  unfold State.noticed
  exact s.seracLost_updSerac serac _ (by intro _; rfl) a b

theorem State.noticed_commOf (s : State) (serac k : Nat) (n : Notice) (j c : Nat) :
    (s.noticed serac k n).commOf j c = s.commOf j c := by
  unfold State.noticed
  exact s.commOf_updSerac serac _ (by intro _; rfl) j c

theorem State.noticed_sequencer (s : State) (serac k : Nat) (n : Notice) :
    ((s.noticed serac k n).serac serac).sequencer = (s.serac serac).sequencer := by
  rw [State.noticed_serac]
  rfl

theorem State.noticed_choose (s : State) (serac k : Nat) (n : Notice) :
    ((s.noticed serac k n).serac serac).choose = (s.serac serac).choose := by
  rw [State.noticed_serac]
  rfl

theorem coordinatorNotice_eq (hn : (s.serac serac).notices[k]? = some n) : exec (.coordinatorNotice serac k) s =
    .next ((s.noticed serac k n).settleComm serac n.comm ((s.serac serac).heldNotices.length + 1)) := by
  rw [exec_coordinatorNotice, execCoordinatorNotice]
  dsimp only
  rw [hn]
  rfl

/-- The notices held of the collective that is next, with the one that arrives (R311). -/
def State.noticesWith (s : State) (serac : Nat) (n : Notice) : List Notice :=
  ((s.serac serac).heldNotices ++ [n]).filter (fun x => decide (x.comm = n.comm ∧ x.inst = SMap.getD (s.serac serac).coordNext n.comm 0))

theorem coordinatorNotice_short (hn : (s.serac serac).notices[k]? = some n) (hm : s.commOf serac n.comm = some m)
    (h : (s.noticesWith serac n).length ≠ m.size) :
    exec (.coordinatorNotice serac k) s = .next (s.noticed serac k n) := by
  rw [coordinatorNotice_eq hn, settleComm_of_short (m := m)]
  · exact (s.noticed_commOf ..).trans hm
  · rw [State.noticed_serac]
    exact h

theorem coordinatorNotice_full (hn : (s.serac serac).notices[k]? = some n) (hm : s.commOf serac n.comm = some m)
    (h : (s.noticesWith serac n).length = m.size) (hi : n.inst = SMap.getD (s.serac serac).coordNext n.comm 0)
    (hall : ∀ x ∈ (s.serac serac).heldNotices, x.comm = n.comm → x.inst = SMap.getD (s.serac serac).coordNext n.comm 0) :
    exec (.coordinatorNotice serac k) s = .next ((s.noticed serac k n).settleInstance serac n.comm
      (SMap.getD (s.serac serac).coordNext n.comm 0) m (s.noticesWith serac n)) := by
  rw [coordinatorNotice_eq hn, settleComm_of_full (m := m)]
  · rw [State.noticed_serac]
    rfl
  · exact (s.noticed_commOf ..).trans hm
  · rw [State.noticed_serac]
    exact h
  · rw [State.noticed_serac]
    intro x hx hc
    rcases List.mem_append.mp hx with hx | hx
    · exact hall x hx hc
    · rw [List.mem_singleton.mp hx, hi]

/-- A complete collective at its coordinator: PEERFAULT, MISMATCH, UNREACH, or a request for a rank (R311, R319). -/
theorem coordinatorNotice_settles (hn : (s.serac serac).notices[k]? = some n) (hm : s.commOf serac n.comm = some m)
    (h : (s.noticesWith serac n).length = m.size) (hi : n.inst = SMap.getD (s.serac serac).coordNext n.comm 0)
    (hall : ∀ x ∈ (s.serac serac).heldNotices, x.comm = n.comm → x.inst = SMap.getD (s.serac serac).coordNext n.comm 0) :
    let d := s.serac serac
    let i := SMap.getD d.coordNext n.comm 0
    let ns := s.noticesWith serac n
    ∃ t, exec (.coordinatorNotice serac k) s = .next t ∧ (∀ a, t.memByte a = s.memByte a) ∧
      SMap.find (t.serac serac).coordNext n.comm = some (i + 1) ∧
      ((∃ x ∈ ns, x.faulted = true) → Told serac m.words serac n.comm i 4 t) ∧
      ((∀ x ∈ ns, x.faulted = false) → (∃ x ∈ ns, ∃ y ∈ ns, x.fields ≠ y.fields) → Told serac m.words serac n.comm i 3 t) ∧
      ((∀ x ∈ ns, x.faulted = false ∧ x.fields = n.fields) → s.seracLost serac d.sequencer = true →
        Told serac m.words serac n.comm i 7 t) ∧
      ((∀ x ∈ ns, x.faulted = false ∧ x.fields = n.fields) → s.seracLost serac d.sequencer = false → ∃ chunk ∈ ns.map (·.chunk),
        let w := d.choose (recField n.fields 0 4) (recField n.fields 4 4) (recField n.fields 8 8) m.size chunk
        (t.serac d.sequencer).seqQueue = (s.serac d.sequencer).seqQueue ++ [{ members := m.words, ticket := {
          coord := serac, comm := n.comm, inst := i, rank := 0, prev := 0, alg := w.1, chunk := w.2, die := 0 } }]) := by
  intro d i ns
  have hne : ns ≠ [] := fun hnil => by
    have hl : ns.length = m.size := h
    rw [hnil, List.length_nil] at hl
    have := (State.commOf_size hm).2
    omega
  have hseq := s.noticed_sequencer serac k n
  have hchoose := s.noticed_choose serac k n
  have hlost := s.noticed_seracLost serac k n
  obtain ⟨hmem, _, hnext, _⟩ := settles_settleInstance (s.noticed serac k n) serac n.comm i m hne
  refine ⟨_, coordinatorNotice_full hn hm h hi hall, hmem, ?_, fun hf => ?_, fun hf hd => ?_, fun hg hl => ?_, fun hg hl => ?_⟩
  · rw [hnext, SMap.find_put_self]
  · rw [settleInstance_faulted _ _ _ _ _ hf]
    exact told_faultAll _ _ _ _ _ _ _
  · rw [settleInstance_mismatch _ _ _ _ _ hf hd]
    exact told_faultAll _ _ _ _ _ _ _
  · obtain ⟨chunk, _, heq⟩ := settleInstance_good (s.noticed serac k n) serac n.comm i m hne hg
    rw [heq, hlost, hseq, if_pos hl]
    exact told_faultAll _ _ _ _ _ _ _
  · obtain ⟨chunk, hc, heq⟩ := settleInstance_good (s.noticed serac k n) serac n.comm i m hne hg
    refine ⟨chunk, hc, ?_⟩
    rw [heq, hlost, hseq, hchoose, if_neg (Bool.eq_false_iff.mp hl), State.asks, State.serac_updSerac_self]
    refine congrArg (· ++ _) ?_
    unfold State.settled State.noticed
    exact (State.serac_updSerac_field Serac.seqQueue _ _ _ (by intro _; rfl) _).trans
      (State.serac_updSerac_field Serac.seqQueue _ _ _ (by intro _; rfl) _)

end

/-! ### The ticket sequencer (R312) -/

/-- Start tickets on their way to members: nothing else has changed. -/
theorem foldl_tickets (g : Nat × Nat → Ticket) (l : List (Nat × Nat)) (s : State) :
    let t := l.foldl (fun s wq => s.updSerac (memberSerac wq.1) (fun x => { x with tickets := x.tickets ++ [(wq.2, g wq)] })) s
    (∀ a, t.memByte a = s.memByte a) ∧
    (∀ j, ∃ r, t.serac j = { s.serac j with tickets := (s.serac j).tickets ++ r }) ∧
    ∀ wq ∈ l, (wq.2, g wq) ∈ (t.serac (memberSerac wq.1)).tickets := by
  induction l generalizing s with
  | nil => exact ⟨fun _ => rfl, fun j => ⟨[], by rw [List.append_nil]; rfl⟩, fun _ h => absurd h List.not_mem_nil⟩
  | cons x l ih =>
    obtain ⟨hmem, hserac, htickets⟩ := ih (s.updSerac (memberSerac x.1) (fun d => { d with tickets := d.tickets ++ [(x.2, g x)] }))
    have hself : ((s.updSerac (memberSerac x.1) (fun d => { d with tickets := d.tickets ++ [(x.2, g x)] })).serac
        (memberSerac x.1)).tickets = (s.serac (memberSerac x.1)).tickets ++ [(x.2, g x)] := by
      rw [State.serac_updSerac_self]
    refine ⟨hmem, fun j => ?_, fun wq hwq => ?_⟩
    · obtain ⟨r, hr⟩ := hserac j
      rw [List.foldl_cons, hr]
      by_cases hj : j = memberSerac x.1
      · subst hj
        exact ⟨[(x.2, g x)] ++ r, by rw [State.serac_updSerac_self, List.append_assoc]⟩
      · exact ⟨r, by rw [State.serac_updSerac_ne _ _ hj]⟩
    · rcases List.mem_cons.mp hwq with rfl | hm
      · obtain ⟨r, hr⟩ := hserac (memberSerac wq.1)
        rw [List.foldl_cons, hr]
        dsimp only
        rw [hself]
        exact List.mem_append_left r (List.mem_append_right _ List.mem_cons_self)
      · exact htickets wq hm

/-- The start ticket of a member, and the last ranks of the members after it. -/
def TicketReq.startTicket (r : TicketReq) (d : Serac) (wq : Nat × Nat) : Ticket :=
  { r.ticket with rank := d.seqRank + 1, prev := SMap.getD d.seqLast (memberDie wq.1) 0, die := memberDie wq.1 }

def TicketReq.lastRanks (r : TicketReq) (d : Serac) : SMap Word :=
  r.members.foldl (fun l w => SMap.put l (memberDie w) (d.seqRank + 1)) d.seqLast

section
variable {s : State} {serac : Nat} {r : TicketReq} {rest : List TicketReq} (hq : (s.serac serac).seqQueue = r :: rest)
  (ht : (s.serac serac).tseq.getLsbD 16 = true)
include hq ht

theorem ticketRequest_lost (hl : ∃ w ∈ r.members, s.seracLost serac (memberSerac w) = true) :
    exec (.ticketRequest serac) s = .next ((s.updSerac serac (fun d => { d with seqQueue := rest })).faultMembers serac r.members
      r.ticket.coord r.ticket.comm r.ticket.inst 7 0) := by
  have hany : r.members.any (fun w => s.seracLost serac (memberSerac w)) = true := List.any_eq_true.mpr hl
  rw [exec_ticketRequest, execTicketRequest]
  dsimp only
  simp only [hq, ht, hany, Bool.not_true, if_true, Bool.false_eq_true, if_false]
  rfl

theorem ticketRequest_unreached (hl : ∃ w ∈ r.members, s.seracLost serac (memberSerac w) = true) : ∃ t,
    exec (.ticketRequest serac) s = .next t ∧ (∀ a, t.memByte a = s.memByte a) ∧ (t.serac serac).seqQueue = rest ∧
    (t.serac serac).seqRank = (s.serac serac).seqRank ∧
    ∀ (q : Nat) w, r.members[q]? = some w → s.seracLost serac (memberSerac w) = false →
      ({ coord := r.ticket.coord, comm := r.ticket.comm, inst := r.ticket.inst, rank := q, cause := 7, sub := 0 } : FaultMsg) ∈
        (t.serac (memberSerac w)).faultMsgs := by
  have htells := Tells.faultMembers (s.updSerac serac (fun d => { d with seqQueue := rest })) serac r.members r.ticket.coord r.ticket.comm
    r.ticket.inst 7 0
  have htold := told_faultMembers (s.updSerac serac (fun d => { d with seqQueue := rest })) serac r.members r.ticket.coord r.ticket.comm
    r.ticket.inst 7
  have hreach := s.seracLost_updSerac serac (fun d => { d with seqQueue := rest }) (fun _ => rfl)
  refine ⟨_, ticketRequest_lost hq ht hl, htells.memByte, ?_, ?_, fun q w hw hlost => ?_⟩
  · rw [htells.field Serac.seqQueue (fun _ _ => rfl), State.serac_updSerac_self]
  · rw [htells.field Serac.seqRank (fun _ _ => rfl), State.serac_updSerac_self]
  · obtain ⟨hlt, hget⟩ := List.getElem?_eq_some_iff.mp hw
    have hd : r.members.getD q 0 = w := by rw [List.getD_eq_getElem?_getD, hw]; rfl
    have := htold q hlt (by rw [hd, htells.seracLost, hreach, hlost])
    rwa [hd] at this

/-- Every member is reached: the next rank goes to each (R312). -/
theorem ticketRequest_ranks (hl : ∀ w ∈ r.members, s.seracLost serac (memberSerac w) = false) : ∃ t,
    exec (.ticketRequest serac) s = .next t ∧ (∀ a, t.memByte a = s.memByte a) ∧
    (t.serac serac).seqRank = (s.serac serac).seqRank + 1 ∧ (t.serac serac).seqQueue = rest ∧
    (∀ (i : Nat) w, r.members[i]? = some w → ∃ tk, (i, tk) ∈ (t.serac (memberSerac w)).tickets ∧
      tk.rank = (s.serac serac).seqRank + 1 ∧ tk.prev = SMap.getD (s.serac serac).seqLast (memberDie w) 0 ∧
      tk.inst = r.ticket.inst ∧ tk.alg = r.ticket.alg ∧ tk.chunk = r.ticket.chunk ∧ tk.die = memberDie w) := by
  have hany : r.members.any (fun w => s.seracLost serac (memberSerac w)) = false :=
    List.any_eq_false.mpr fun w hw => by rw [hl w hw]; exact Bool.false_ne_true
  obtain ⟨hmem, hserac, htickets⟩ := foldl_tickets (r.startTicket (s.serac serac)) (r.members.zip (List.range r.members.length))
    (s.updSerac serac (fun d => { d with seqQueue := rest, seqRank := d.seqRank + 1, seqLast := r.lastRanks d }))
  obtain ⟨l, hl⟩ := hserac serac
  refine ⟨_, ?_, hmem, ?_, ?_, fun i w hw => ?_⟩
  · rw [exec_ticketRequest, execTicketRequest]
    dsimp only
    simp only [hq, ht, hany, Bool.not_true, Bool.false_eq_true, if_false]
    rfl
  · rw [hl, State.serac_updSerac_self]
  · rw [hl, State.serac_updSerac_self]
  · obtain ⟨hlt, hget⟩ := List.getElem?_eq_some_iff.mp hw
    have hz : (w, i) ∈ r.members.zip (List.range r.members.length) := by
      refine List.mem_iff_getElem.mpr ⟨i, by simpa using hlt, ?_⟩
      rw [List.getElem_zip, List.getElem_range, hget]
    exact ⟨_, htickets _ hz, rfl, rfl, rfl, rfl, rfl, rfl⟩

end

/-! ### Dies that are no longer reached (R319, R348) -/

/-- One entry's instances end with UNREACH where a member is lost. -/
def State.faultEntry (s : State) (serac : Nat) (lost : Nat → Bool) (e : Nat × Posted) : State :=
  match s.commOf serac e.2.comm with
  | none => s
  | some m =>
    if e.2.used && m.words.any (fun w => lost (memberSerac w)) then
      e.2.insts.foldl (fun s x => if x.ended then s else s.faultAll serac m e.2.coord e.2.comm x.number 7 0) s
    else s

theorem State.faultUnreached_eq (s : State) (serac : Nat) (lost : Nat → Bool) :
    s.faultUnreached serac lost = (s.serac serac).entries.foldl (fun s e => s.faultEntry serac lost e) s := rfl

theorem Tells.faultInst (s : State) (serac : Nat) (m : Comm) (coord comm : Nat) (x : Inst) :
    Tells s (if x.ended then s else s.faultAll serac m coord comm x.number 7 0) := by
  split
  · exact Tells.refl s
  · exact Tells.faultAll ..

theorem Tells.faultEntry (s : State) (serac : Nat) (lost : Nat → Bool) (e : Nat × Posted) : Tells s (s.faultEntry serac lost e) := by
  unfold State.faultEntry
  split
  · exact Tells.refl s
  · split
    · exact Tells.foldl _ (fun t x => Tells.faultInst t ..) _ s
    · exact Tells.refl s

theorem Tells.faultUnreached (s : State) (serac : Nat) (lost : Nat → Bool) : Tells s (s.faultUnreached serac lost) :=
  Tells.foldl _ (fun t e => Tells.faultEntry t serac lost e) _ s

/-- The members of a collective with a lost member hear of it (R319). -/
theorem told_faultUnreached (s : State) (serac : Nat) (lost : Nat → Bool) {e : Nat × Posted} (he : e ∈ (s.serac serac).entries)
    (hused : e.2.used = true) {m : Comm} (hm : s.commOf serac e.2.comm = some m) (hw : ∃ w ∈ m.words, lost (memberSerac w) = true)
    {x : Inst} (hx : x ∈ e.2.insts) (hopen : x.ended = false) :
    Told serac m.words e.2.coord e.2.comm x.number 7 (s.faultUnreached serac lost) := by
  rw [State.faultUnreached_eq]
  refine Tells.foldl_mem _ (fun t e => Tells.faultEntry t serac lost e) (Told serac m.words e.2.coord e.2.comm x.number 7)
    Told.mono he s (fun u hu => ?_)
  have hall : u.faultEntry serac lost e =
      e.2.insts.foldl (fun s x => if x.ended then s else s.faultAll serac m e.2.coord e.2.comm x.number 7 0) u := by
    have hcond : (e.2.used && m.words.any (fun w => lost (memberSerac w))) = true := by
      rw [hused, Bool.true_and, List.any_eq_true]
      exact hw
    unfold State.faultEntry
    rw [hu.commOf, hm]
    exact if_pos hcond
  rw [hall]
  refine Tells.foldl_mem _ (fun t x => Tells.faultInst t ..) (Told serac m.words e.2.coord e.2.comm x.number 7) Told.mono hx u
    (fun v _ => ?_)
  rw [hopen]
  exact told_faultAll v serac m _ _ _ _

theorem Inst.ended_eq_false {x : Inst} (hd : x.state ≠ .done) (hf : x.state ≠ .fault) : x.ended = false := by
  unfold Inst.ended
  cases h : x.state with
  | done => exact absurd h hd
  | fault => exact absurd h hf
  | _ => rfl

/-- PEER_UNREACHABLE (R319): the die is noted; every collective with a member there ends at every member still reached. -/
theorem peerUnreachable_spec (s : State) (serac lost : Nat) : ∃ t, exec (.peerUnreachable serac lost) s = .next t ∧
    (t.serac serac).unreachable = insertKey lost (s.serac serac).unreachable ∧ t.contexts = s.contexts ∧
    (∀ a, t.memByte a = s.memByte a) ∧ ∀ e ∈ (s.serac serac).entries, ∀ m x, e.2.used = true → s.commOf serac e.2.comm = some m →
      (∃ w ∈ m.words, memberSerac w = lost) → x ∈ e.2.insts → x.state ≠ .done → x.state ≠ .fault →
      Told serac m.words e.2.coord e.2.comm x.number 7 t := by
  have htells := Tells.faultUnreached (s.updSerac serac (fun d => { d with unreachable := insertKey lost d.unreachable })) serac
    (fun k => decide (k = lost))
  refine ⟨_, rfl, ?_, htells.contexts, htells.memByte, fun e he m x hused hm ⟨w, hw, hwl⟩ hx hd hf => ?_⟩
  · refine (htells.field Serac.unreachable (fun _ _ => rfl) serac).trans ?_
    rw [State.serac_updSerac_self]
  · refine told_faultUnreached (s.updSerac serac (fun d => { d with unreachable := insertKey lost d.unreachable })) serac _ ?_ hused ?_
      ⟨w, hw, decide_eq_true hwl⟩ hx (Inst.ended_eq_false hd hf)
    · rw [State.serac_updSerac_self]
      exact he
    · rw [State.commOf_updSerac s serac _ (by intro _; rfl)]
      exact hm

/-- Fault messages and reachability are as before. -/
def SameMsgs (s t : State) : Prop := ∀ j, (t.serac j).reach = (s.serac j).reach ∧ (t.serac j).faultMsgs = (s.serac j).faultMsgs

theorem SameMsgs.refl (s : State) : SameMsgs s s := fun _ => ⟨rfl, rfl⟩

theorem SameMsgs.trans {s t u : State} (h : SameMsgs s t) (g : SameMsgs t u) : SameMsgs s u :=
  fun j => ⟨(g j).1.trans (h j).1, (g j).2.trans (h j).2⟩

theorem SameMsgs.foldl {α : Type} (f : State → α → State) (hf : ∀ s a, SameMsgs s (f s a)) (l : List α) :
    ∀ s, SameMsgs s (l.foldl f s) := by
  induction l with
  | nil => exact SameMsgs.refl
  | cons a l ih => exact fun s => (hf s a).trans (ih (f s a))

/-- What a posted event leaves of a Serac die: every field but its fault page, its cycle and what goes to the host (R338). -/
theorem State.post_serac_field {β : Type} (F : Serac → β) (hfault : ∀ d f, F { d with fault := f } = F d)
    (hcycle : ∀ d c, F { d with cycle := c } = F d) (hinbox : ∀ d l, F { d with hostInbox := l } = F d) (s : State) (p : FaultPort)
    (event who : Nat) (d1 d2 : Word) (j : Nat) : F ((s.post p event who d1 d2).serac j) = F (s.serac j) := by
  have hpage (t : State) (f : FaultPage) : F ((t.setFaultPage p f).serac j) = F (t.serac j) := by
    cases p with
    | cobalt d => rfl
    | serac k => exact t.serac_updSerac_field F k (fun x => { x with fault := f }) (fun d => hfault d f) j
  cases h : queueConfigured (s.faultPage p).eqbase with
  | false =>
    rw [s.post_of_none p event who d1 d2 h]
    exact hpage s _
  | true =>
    have hcycles : F ((s.passCycles p).serac j) = F (s.serac j) := by
      cases p with
      | cobalt d => rfl
      | serac k => exact s.serac_updSerac_field F k (fun d => { d with cycle := s.portCycle (.serac k) }) (fun d => hcycle d _) j
    have hforward (t : State) (b : List Byte) : F ((t.forward p event b).serac j) = F (t.serac j) := by
      unfold State.forward
      split
      · split
        · exact t.serac_updSerac_field F (portSerac p) (fun d => { d with hostInbox := d.hostInbox ++ [b] }) (fun d => hinbox d _) j
        · rfl
      · rfl
    rw [s.post_of_queue p event who d1 d2 h, State.homeWriteBytes_serac]
    exact (hpage _ _).trans ((hforward _ _).trans hcycles)

theorem SameMsgs.post (s : State) (p : FaultPort) (event who : Nat) (d1 d2 : Word) : SameMsgs s (s.post p event who d1 d2) :=
  fun j => ⟨s.post_serac_field Serac.reach (fun _ _ => rfl) (fun _ _ => rfl) (fun _ _ => rfl) p event who d1 d2 j,
    s.post_serac_field Serac.faultMsgs (fun _ _ => rfl) (fun _ _ => rfl) (fun _ _ => rfl) p event who d1 d2 j⟩

theorem SameMsgs.rescaled (s : State) (report : Bool) (die : Nat) : SameMsgs s (s.rescaled report die) := by
  unfold State.rescaled
  split
  · refine (show SameMsgs s (s.rescale die) from SameMsgs.refl s).trans (SameMsgs.foldl _ (fun t kind => ?_) _ _)
    dsimp only
    split
    · exact SameMsgs.post _ _ _ _ _ _
    · exact SameMsgs.refl t
  · exact SameMsgs.refl s

theorem SameMsgs.afterRetirement (s : State) (pkg : Nat) (report : Bool) : SameMsgs s (s.afterRetirement pkg report) :=
  SameMsgs.foldl _ (fun t d => SameMsgs.rescaled t report d) _ s

theorem SameMsgs.told {s t : State} (h : SameMsgs s t) {k : Nat} {words : List Nat} {coord comm inst cause : Nat}
    (hs : Told k words coord comm inst cause s) : Told k words coord comm inst cause t := by
  intro q hq hl
  rw [State.seracLost_congr (fun j => (h j).1)] at hl
  rw [(h _).2]
  exact hs q hq hl

/-- A die of which the map holds no record has no entries. -/
theorem State.serac_listed {s : State} {k : Nat} {e : Nat × Posted} (he : e ∈ (s.serac k).entries) : k ∈ s.seracs.map (·.1) := by
  unfold State.serac SMap.getD at he
  cases hf : SMap.find s.seracs k with
  | some d => exact List.mem_map.mpr ⟨_, SMap.find_of_mem hf, rfl⟩
  | none =>
    rw [hf] at he
    exact absurd he List.not_mem_nil

/-- Without its last link a die is reached by no other package: the instances across it end (R348). -/
theorem told_faultSevered (s : State) (k serac : Nat) (hr : (s.serac k).routed = false) {e : Nat × Posted}
    (he : e ∈ (s.serac serac).entries) (hused : e.2.used = true) {m : Comm} (hm : s.commOf serac e.2.comm = some m)
    (hw : ∃ w ∈ m.words, (serac = k ∨ memberSerac w = k) ∧ s.seracLost serac (memberSerac w) = true) {x : Inst} (hx : x ∈ e.2.insts)
    (hopen : x.ended = false) : Told serac m.words e.2.coord e.2.comm x.number 7 (s.faultSevered k) := by
  have hall : s.faultSevered k = (s.seracs.map (·.1)).foldl (fun s j => s.faultUnreached j (fun t => decide (j = k ∨ t = k) &&
      s.seracLost j t)) s := if_neg (Bool.eq_false_iff.mp hr)
  rw [hall]
  refine Tells.foldl_mem _ (fun t j => Tells.faultUnreached t j _) _ Told.mono (State.serac_listed he) s (fun u hu => ?_)
  refine told_faultUnreached u serac _ ?_ hused ?_ ?_ hx hopen
  · rw [hu.field Serac.entries (fun _ _ => rfl)]
    exact he
  · rw [hu.commOf]
    exact hm
  · obtain ⟨w, hwm, hk, hl⟩ := hw
    exact ⟨w, hwm, by rw [hu.seracLost, hl, decide_eq_true hk]; rfl⟩

theorem Tells.faultSevered (s : State) (k : Nat) : Tells s (s.faultSevered k) := by
  unfold State.faultSevered
  split
  · exact Tells.refl s
  · exact Tells.foldl _ (fun t j => Tells.faultUnreached t j _) _ s

/-- A link's retirement, where the die is routed no more (R348). -/
theorem retirement_link_tells (s : State) (die k l serac : Nat) : ∃ t, exec (.retirement die ⟨.link k l, false⟩) s = .next t ∧
    ((t.serac k).routed = false → ∀ e ∈ (s.serac serac).entries, ∀ m x, e.2.used = true → s.commOf serac e.2.comm = some m →
      (∃ w ∈ m.words, (serac = k ∨ memberSerac w = k) ∧ t.seracLost serac (memberSerac w) = true) → x ∈ e.2.insts →
      x.state ≠ .done → x.state ≠ .fault → Told serac m.words e.2.coord e.2.comm x.number 7 t) := by
  have hkeep : ((s.retire die ⟨.link k l, false⟩).serac serac).entries = (s.serac serac).entries ∧
      ∀ c, (s.retire die ⟨.link k l, false⟩).commOf serac c = s.commOf serac c := by
    have hlist : ((s.listRetired die (.link k l) true).serac serac).entries = (s.serac serac).entries ∧
        ∀ c, (s.listRetired die (.link k l) true).commOf serac c = s.commOf serac c := by
      unfold State.listRetired
      dsimp only
      split
      · exact ⟨rfl, fun _ => rfl⟩
      · exact ⟨State.serac_updSerac_field Serac.entries _ _ _ (by intro _; rfl) _,
          fun c => State.commOf_updSerac _ _ _ (by intro _; rfl) _ _⟩
    unfold State.retire State.setRetired
    exact ⟨(State.serac_updSerac_field Serac.entries _ _ _ (by intro _; rfl) _).trans hlist.1,
      fun c => (State.commOf_updSerac _ _ _ (by intro _; rfl) _ _).trans (hlist.2 c)⟩
  obtain ⟨hentries, hcomm⟩ := hkeep
  have hs := Tells.faultSevered (s.retire die ⟨.link k l, false⟩) k
  have ha := SameMsgs.afterRetirement ((s.retire die ⟨.link k l, false⟩).faultSevered k) (retirePkg die (.link k l)) true
  have hreach (j : Nat) : ((((s.retire die ⟨.link k l, false⟩).faultSevered k).afterRetirement (retirePkg die (.link k l)) true).serac
      j).reach = ((s.retire die ⟨.link k l, false⟩).serac j).reach := (ha j).1.trans (hs.field Serac.reach (fun _ _ => rfl) j)
  refine ⟨_, rfl, fun hr e he m x hused hm hw hx hd hf => ?_⟩
  refine ha.told (told_faultSevered _ k serac ?_ ?_ hused ?_ ?_ hx (Inst.ended_eq_false hd hf))
  · exact (Serac.routed_congr (hreach k)).symm.trans hr
  · rw [hentries]
    exact he
  · rw [hcomm]
    exact hm
  · obtain ⟨w, hwm, hwk, hl⟩ := hw
    exact ⟨w, hwm, hwk, (State.seracLost_congr hreach _ _).symm.trans hl⟩

end Sys2Proof.Machine
end

section
/-! PROOFS. Posted collectives: entries, posts, tickets taken, reservations, confirmations (O59; R302, R305-R314). -/

namespace Sys2Proof.Machine

/-! ### The posted-collective table -/

@[simp] theorem State.posted_setPosted_self (s : State) (serac i : Nat) (p : Posted) : (s.setPosted serac i p).posted serac i = p := by
  unfold State.posted State.setPosted
  rw [State.serac_updSerac_self]
  exact SMap.getD_put_self ..

theorem State.posted_setPosted_ne (s : State) {serac i j k : Nat} (p : Posted) (h : ¬ (j = serac ∧ k = i)) :
    (s.setPosted serac i p).posted j k = s.posted j k := by
  unfold State.posted State.setPosted
  by_cases hj : j = serac
  · subst hj
    rw [State.serac_updSerac_self]
    exact SMap.getD_put_ne _ _ _ (fun hk => h ⟨rfl, hk⟩)
  · rw [State.serac_updSerac_ne _ _ hj]

theorem State.posted_updSerac (s : State) (k : Nat) (f : Serac → Serac) (h : ∀ d, (f d).entries = d.entries) (j i : Nat) :
    (s.updSerac k f).posted j i = s.posted j i := by
  unfold State.posted
  rw [State.serac_updSerac_field Serac.entries s k f h j]

theorem State.seracLost_setPosted (s : State) (k i : Nat) (p : Posted) (a b : Nat) :
    (s.setPosted k i p).seracLost a b = s.seracLost a b :=
  s.seracLost_updSerac k (fun d => { d with entries := SMap.put d.entries i p }) (fun _ => rfl) a b

theorem State.commOf_setPosted (s : State) (k i : Nat) (p : Posted) (j c : Nat) : (s.setPosted k i p).commOf j c = s.commOf j c :=
  s.commOf_updSerac k (fun d => { d with entries := SMap.put d.entries i p }) (fun _ => rfl) j c

/-! ### Posts (R307) -/

section
variable (s : State) (serac i : Nat) (p : Posted) (m : Comm) (q : Nat) (bad : Option Nat)

/-- The cause of a post's fault, also where its coordinator is not reached (R319). -/
def State.postFault (lost : Bool) : Option Nat := if bad.isNone && lost then some 7 else bad

/-- The collective of a post. -/
def State.newInst (lost : Bool) (n : Nat) : Inst :=
  match State.postFault bad lost with
  | some e => ({ Inst.start n with before := p.insts.getLast?.map (·.number) } : Inst).fail e 0
  | none => { Inst.start n with before := p.insts.getLast?.map (·.number) }

theorem State.newInst_number (lost : Bool) (n : Nat) : (State.newInst p bad lost n).number = n := by
  unfold State.newInst
  split <;> rfl

theorem State.newInst_state (lost : Bool) (n : Nat) :
    (State.newInst p bad lost n).state = if bad.isNone && !lost then .posted else .fault := by
  unfold State.newInst State.postFault
  cases bad <;> cases lost <;> rfl

theorem State.newInst_cause (lost : Bool) (n : Nat) :
    (∀ e, bad = some e → (State.newInst p bad lost n).cause = e) ∧ (bad = none → lost = true → (State.newInst p bad lost n).cause = 7) := by
  unfold State.newInst State.postFault
  refine ⟨fun e he => ?_, fun hb hl => ?_⟩
  · subst he
    rfl
  · subst hb hl
    rfl

/-- The entry of a post. -/
def State.postedEntry (lost : Bool) (n : Nat) : Posted :=
  { p with coord := m.coord, rank := q, insts := p.insts.filter (fun y => !(y.state == .done && y.over)) ++ [State.newInst p bad lost n] }

/-- A post takes a number, and its notice goes to a coordinator that is reached. -/
theorem postInstance_spec :
    let lost := s.seracLost serac m.coord
    let n := SMap.getD (s.serac serac).instCount (p.comm * 4096 + q) 0
    let t := s.postInstance serac i p m q bad
    t.contexts = s.contexts ∧ (∀ a, t.memByte a = s.memByte a) ∧ t.posted serac i = State.postedEntry p m q bad lost n ∧
    SMap.find (t.serac serac).instCount (p.comm * 4096 + q) = some (n + 1) ∧
    (lost = false → ∃ x ∈ (t.serac m.coord).notices, x.comm = p.comm ∧ x.inst = n ∧ x.rank = q ∧
      x.faulted = ((State.newInst p bad lost n).state == .fault)) := by
  intro lost n t
  have hbase : (((s.setPosted serac i (State.postedEntry p m q bad lost n)).updSerac serac (fun d =>
      { d with instCount := SMap.put d.instCount (p.comm * 4096 + q) (n + 1) })).posted serac i = State.postedEntry p m q bad lost n) ∧
      SMap.find (((s.setPosted serac i (State.postedEntry p m q bad lost n)).updSerac serac (fun d =>
        { d with instCount := SMap.put d.instCount (p.comm * 4096 + q) (n + 1) })).serac serac).instCount (p.comm * 4096 + q) =
          some (n + 1) := by
    refine ⟨?_, ?_⟩
    · rw [State.posted_updSerac _ _ _ (by intro _; rfl), State.posted_setPosted_self]
    · rw [State.serac_updSerac_self]
      exact SMap.find_put_self ..
  obtain ⟨hposted, hcount⟩ := hbase
  have hstate := State.newInst_state p bad lost n
  by_cases hl : lost = true
  · have ht : t = (s.setPosted serac i (State.postedEntry p m q bad lost n)).updSerac serac (fun d =>
        { d with instCount := SMap.put d.instCount (p.comm * 4096 + q) (n + 1) }) := if_pos hl
    rw [ht]
    exact ⟨rfl, fun _ => rfl, hposted, hcount, fun h => absurd hl (by rw [h]; decide)⟩
  · have ht : ∃ x : Notice, (x.comm = p.comm ∧ x.inst = n ∧ x.rank = q ∧ x.faulted = (State.postFault bad lost).isSome) ∧
        t = ((s.setPosted serac i (State.postedEntry p m q bad lost n)).updSerac serac (fun d =>
          { d with instCount := SMap.put d.instCount (p.comm * 4096 + q) (n + 1) })).updSerac m.coord
            (fun d => { d with notices := d.notices ++ [x] }) := ⟨_, ⟨rfl, rfl, rfl, rfl⟩, if_neg hl⟩
    obtain ⟨x, ⟨hcomm, hinst, hrank, hf⟩, ht⟩ := ht
    rw [ht]
    refine ⟨rfl, fun _ => rfl, ?_, ?_, fun _ => ⟨x, ?_, hcomm, hinst, hrank, ?_⟩⟩
    · rw [State.posted_updSerac _ _ _ (by intro _; rfl), hposted]
    · rw [State.serac_updSerac_field Serac.instCount _ _ _ (by intro _; rfl), hcount]
    · rw [State.serac_updSerac_self]
      exact List.mem_append_right _ List.mem_cons_self
    · rw [hf, hstate, State.postFault]
      have hl' := Bool.eq_false_iff.mpr hl
      cases bad <;> simp [hl']

end

/-- Faults that name an entry name it by another key. -/
def Serac.renamed (i j : Nat) (d : Serac) : Serac :=
  let entry (e : FaultEntry) : FaultEntry := if e.source = 5 ∧ e.who = i then { e with who := j } else e
  { d with fault := { d.fault with open_ := d.fault.open_.map entry, waiting := d.fault.waiting.map entry } }

/-- An entry set aside as a post reuses it: neither memory nor contexts nor what posts rest on has changed. -/
theorem State.setAside_frame (s : State) (serac i : Nat) :
    (s.setAside serac i).contexts = s.contexts ∧ (∀ a, (s.setAside serac i).memByte a = s.memByte a) ∧
    (∀ j, ((s.setAside serac i).serac j).reach = (s.serac j).reach) ∧
    ∀ j, ((s.setAside serac i).serac j).instCount = (s.serac j).instCount := by
  have hrename (j : Nat) : ((s.renameEntry serac i j).contexts = s.contexts) ∧ (∀ a, (s.renameEntry serac i j).memByte a = s.memByte a) ∧
      (∀ k, ((s.renameEntry serac i j).serac k).reach = (s.serac k).reach) ∧
      ∀ k, ((s.renameEntry serac i j).serac k).instCount = (s.serac k).instCount := by
    have hserac (k : Nat) : (s.renameEntry serac i j).serac k = (s.updSerac serac (Serac.renamed i j)).serac k := rfl
    refine ⟨rfl, fun _ => rfl, fun k => ?_, fun k => ?_⟩
    · rw [hserac, s.serac_updSerac_field Serac.reach serac (Serac.renamed i j) (fun _ => rfl)]
    · rw [hserac, s.serac_updSerac_field Serac.instCount serac (Serac.renamed i j) (fun _ => rfl)]
  unfold State.setAside
  dsimp only
  split
  · exact ⟨rfl, fun _ => rfl, fun _ => rfl, fun _ => rfl⟩
  · split
    · exact hrename _
    · obtain ⟨hctx, hmem, hreach, hcount⟩ := hrename (asideKey i (s.posted serac i).age)
      unfold State.setPosted
      exact ⟨hctx, hmem, fun j => (State.serac_updSerac_field Serac.reach _ _ _ (by intro _; rfl) j).trans (hreach j),
        fun j => (State.serac_updSerac_field Serac.instCount _ _ _ (by intro _; rfl) j).trans (hcount j)⟩

/-- The entry of a new post, before its collective. -/
def State.freshEntry (s : State) (c : Context) (k serac i : Nat) (r : List Byte) : Posted :=
  { (s.posted serac i).taken with
    persistent := recPersist r, record := r, ctx := k, tenant := c.id.tenant, part := c.id.part, die := c.die, s1root := c.id.s1root,
    gang := c.id.gang, comm := recComm r, age := (s.serac serac).posts }

/-- The state of a new post, before its collective. -/
def State.freshPost (s : State) (c : Context) (k serac i : Nat) (r : List Byte) : State :=
  ((s.setAside serac i).setPosted serac i (s.freshEntry c k serac i r)).updSerac serac (fun d => { d with posts := d.posts + 1 })

section
variable (s : State) (c : Context) (k serac i : Nat) (r : List Byte)

theorem State.freshPost_frame :
    (s.freshPost c k serac i r).contexts = s.contexts ∧ (∀ a, (s.freshPost c k serac i r).memByte a = s.memByte a) ∧
    (∀ a b, (s.freshPost c k serac i r).seracLost a b = s.seracLost a b) ∧
    ((s.freshPost c k serac i r).serac serac).instCount = (s.serac serac).instCount := by
  obtain ⟨hctx, hmem, hreach, hcount⟩ := s.setAside_frame serac i
  unfold State.freshPost
  refine ⟨hctx, hmem, fun a b => ?_, ?_⟩
  · rw [State.seracLost_updSerac _ _ _ (by intro _; rfl), State.seracLost_setPosted]
    exact State.seracLost_congr hreach a b
  · rw [State.serac_updSerac_field Serac.instCount _ _ _ (by intro _; rfl), State.setPosted,
      State.serac_updSerac_field Serac.instCount _ _ _ (by intro _; rfl), hcount]

theorem postNew_ranked {m : Comm} {q : Nat} (h : s.posterRank c serac (recComm r) = some (m, q)) :
    s.postNew c k serac i r false = (s.freshPost c k serac i r).postInstance serac i (s.freshEntry c k serac i r) m q
      (postCause (some (m, q)) r false) := by
  unfold State.postNew
  rw [h]
  dsimp only
  rw [Bool.not_false, Bool.and_true]
  rfl

theorem postNew_unranked (h : s.posterRank c serac (recComm r) = none) :
    s.postNew c k serac i r false = (s.freshPost c k serac i r).setPosted serac i { s.freshEntry c k serac i r with
      insts := [Inst.uncounted (s.serac serac).posts (if recordOk r then 2 else 1) 0] } := by
  unfold State.postNew
  rw [h]
  unfold postCause
  cases hok : recordOk r
  all_goals
    dsimp only
    rw [Bool.not_false, Bool.and_true]
    rfl

/-- Whether a post's record is good, and its cause where it is not (R305). -/
theorem postCause_ranked (m : Comm) (q : Nat) : postCause (some (m, q)) r false = if recordOk r && recordFits r m.size q then none else some 1 := by
  show (if false || !recordOk r then some 1 else if recordFits r m.size q then none else some 1) = _
  cases recordOk r <;> cases recordFits r m.size q <;> rfl

end

section
variable {s : State} {k : Nat} {c : Context} (u : State) (d i serac : Nat)

/-- CPOST has returned a handle. -/
def Accepted (s : State) (k d : Nat) (c : Context) (h : Word) (t : State) : Prop :=
  (∀ a, t.memByte a = s.memByte a) ∧ ∃ c', t.ctx k = some c' ∧ c'.wait = .none ∧
    c'.thread.reg (BitVec.ofNat 6 d) = (if BitVec.ofNat 6 d = 0 then 0 else h) ∧ c'.thread.pc = c.thread.nextPc (c.thread.pc + 4)

theorem Thread.reg_setReg_self (t : Thread) (x : BitVec 6) (v : Word) (p : Bool) : (t.setReg x v p).reg x = if x = 0 then 0 else v := by
  unfold Thread.setReg Thread.reg
  split
  · rfl
  · exact SMap.getD_put_self ..

theorem acceptPost_spec (hmem : ∀ a, u.memByte a = s.memByte a) :
    Accepted s k d c (postHandle i ((u.acceptPost k c d i serac).posted serac i)) (u.acceptPost k c d i serac) ∧
    (∀ j, (u.acceptPost k c d i serac).serac j = u.serac j) ∧ ∀ j n, (u.acceptPost k c d i serac).posted j n = u.posted j n := by
  refine ⟨⟨hmem, _, State.ctx_setCtx_self _ _ _, rfl, ?_, ?_⟩, fun _ => rfl, fun _ _ => rfl⟩
  · exact Thread.reg_setReg_self ..
  · show (c.thread.setReg _ _ _).nextPc ((c.thread.setReg _ _ _).pc + 4) = _
    rw [Thread.setReg_nextPc, Thread.setReg_pc]

end

/-! What a CPOST that has been sent finds at its Serac die. -/

section
variable {s : State} {k d : Nat} {c : Context} {va : Word} (hc : s.ctx k = some c) (hw : c.wait = .cpostSent d va none)
include hc hw

theorem postAccept_none (h : s.onRetired c = true ∨ (s.serac (seracOfDie c.die)).boot = .recovery) :
    exec (.postAccept k) s = .next s := by
  rw [exec_postAccept, execPostAccept]
  cases hr : s.onRetired c with
  | true => exact atCore_of_retired hc hr _
  | false =>
    rw [atCore_of hc hr, hw]
    have hb : (s.serac (seracOfDie c.die)).boot = .recovery := h.resolve_left (by rw [hr]; exact Bool.false_ne_true)
    dsimp only
    rw [hb]
    rfl

variable (hr : s.onRetired c = false) (hb : (s.serac (seracOfDie c.die)).boot ≠ .recovery) {i : Nat}
  (hi : s.takeEntry (seracOfDie c.die) = some i) (hf : (readRange s c va 256).fault = none)
include hr hb hi hf

theorem postAccept_eq : exec (.postAccept k) s =
    .next (s.postRecord k c d va (seracOfDie c.die) i false ((readRange s c va 256).bytes.map (·.1))) := by
  have hb' : ((s.serac (seracOfDie c.die)).boot == .recovery) = false := beq_eq_false_iff_ne.mpr hb
  rw [exec_postAccept, execPostAccept, atCore_of hc hr, hw]
  dsimp only
  rw [hb', hi]
  dsimp only
  rw [hf]
  rfl

/-- A record without a handle, or of no persistent entry, takes a new entry (R307). -/
theorem postAccept_new (hn : recPersist ((readRange s c va 256).bytes.map (·.1)) = false ∨
      recHandle ((readRange s c va 256).bytes.map (·.1)) = 0) :
    let serac := seracOfDie c.die
    let r := (readRange s c va 256).bytes.map (·.1)
    ∃ t x, (exec (.postAccept k) s = .next t ∧ Accepted s k d c (postHandle i (t.posted serac i)) t) ∧
      (t.posted serac i).used = true ∧ (t.posted serac i).record = r ∧ (t.posted serac i).ctx = k ∧
      (t.posted serac i).persistent = recPersist r ∧ (t.posted serac i).insts = [x] ∧
      (∀ m q, s.posterRank c serac (recComm r) = some (m, q) →
        x.number = SMap.getD (s.serac serac).instCount (recComm r * 4096 + q) 0 ∧
        SMap.find (t.serac serac).instCount (recComm r * 4096 + q) = some (x.number + 1) ∧
        let good := recordOk r && recordFits r m.size q
        let lost := s.seracLost serac m.coord
        (x.state = if good && !lost then .posted else .fault) ∧ (good = false → x.cause = 1) ∧ (good = true → lost = true → x.cause = 7) ∧
        (lost = false →
          ∃ n ∈ (t.serac m.coord).notices, n.comm = recComm r ∧ n.inst = x.number ∧ n.rank = q ∧ n.faulted = (x.state == .fault))) ∧
      (s.posterRank c serac (recComm r) = none → x.state = .fault ∧ x.counted = false ∧ (x.cause = if recordOk r then 2 else 1) ∧
        (t.serac serac).instCount = (s.serac serac).instCount) := by
  intro serac r
  have hexec : exec (.postAccept k) s = .next ((s.postNew c k serac i r false).acceptPost k c d i serac) := by
    rw [postAccept_eq hc hw hr hb hi hf]
    refine congrArg _ (if_neg ?_)
    obtain hp | hh := hn
    · rw [hp]
      exact Bool.false_ne_true
    · rw [hh]
      simp
  obtain ⟨_, hmem, hlost, hcount⟩ := s.freshPost_frame c k serac i r
  cases hrank : s.posterRank c serac (recComm r) with
  | some mq =>
    obtain ⟨m, q⟩ := mq
    rw [postNew_ranked s c k serac i r hrank, postCause_ranked] at hexec
    generalize hbad : (if recordOk r && recordFits r m.size q then none else some 1 : Option Nat) = bad at hexec
    obtain ⟨_, hmem', hposted, hfind, hnote⟩ := postInstance_spec (s.freshPost c k serac i r) serac i (s.freshEntry c k serac i r) m q bad
    generalize hu : (s.freshPost c k serac i r).postInstance serac i (s.freshEntry c k serac i r) m q bad = u at hexec hmem' hposted hfind hnote
    rw [hlost, hcount] at hposted hnote
    rw [hcount] at hfind
    obtain ⟨haccept, hserac, hpost⟩ := acceptPost_spec (s := s) (k := k) (c := c) u d i serac (fun a => (hmem' a).trans (hmem a))
    refine ⟨_, State.newInst (s.freshEntry c k serac i r) bad (s.seracLost serac m.coord)
      (SMap.getD (s.serac serac).instCount (recComm r * 4096 + q) 0), ⟨hexec, haccept⟩, ?_, ?_, ?_, ?_, ?_, fun m' q' hmq => ?_,
      fun h => nomatch h⟩
    · rw [hpost, hposted]
      rfl
    · rw [hpost, hposted]
      rfl
    · rw [hpost, hposted]
      rfl
    · rw [hpost, hposted]
      rfl
    · rw [hpost, hposted]
      rfl
    · obtain ⟨rfl, rfl⟩ := Prod.mk.inj (Option.some.inj hmq)
      obtain ⟨hcause, hcause7⟩ := State.newInst_cause (s.freshEntry c k serac i r) bad (s.seracLost serac m.coord)
        (SMap.getD (s.serac serac).instCount (recComm r * 4096 + q) 0)
      have hnumber := State.newInst_number (s.freshEntry c k serac i r) bad (s.seracLost serac m.coord)
        (SMap.getD (s.serac serac).instCount (recComm r * 4096 + q) 0)
      have hgood : bad.isNone = (recordOk r && recordFits r m.size q) := by
        rw [← hbad]
        cases recordOk r && recordFits r m.size q <;> rfl
      refine ⟨hnumber, ?_, ?_, fun hg => hcause 1 ?_, fun hg hl => hcause7 ?_ hl, fun hl => ?_⟩
      · rw [hserac, hnumber]
        exact hfind
      · rw [State.newInst_state, hgood]
      · rw [← hbad, hg]
        rfl
      · rw [← hbad, hg]
        rfl
      · obtain ⟨x, hx, hcomm, hinst, hrk, hfaulted⟩ := hnote hl
        exact ⟨x, by rw [hserac]; exact hx, hcomm, hinst.trans hnumber.symm, hrk, hfaulted⟩
  | none =>
    rw [postNew_unranked s c k serac i r hrank] at hexec
    obtain ⟨haccept, hserac, hpost⟩ := acceptPost_spec (s := s) (k := k) (c := c) ((s.freshPost c k serac i r).setPosted serac i
      { s.freshEntry c k serac i r with insts := [Inst.uncounted (s.serac serac).posts (if recordOk r then 2 else 1) 0] }) d i serac hmem
    refine ⟨_, Inst.uncounted (s.serac serac).posts (if recordOk r then 2 else 1) 0, ⟨hexec, haccept⟩, ?_, ?_, ?_, ?_, ?_,
      (by intro _ _ h; cases h), fun _ => ⟨rfl, rfl, rfl, ?_⟩⟩
    · rw [hpost, State.posted_setPosted_self]
      rfl
    · rw [hpost, State.posted_setPosted_self]
      rfl
    · rw [hpost, State.posted_setPosted_self]
      rfl
    · rw [hpost, State.posted_setPosted_self]
      rfl
    · rw [hpost, State.posted_setPosted_self]
    · rw [hserac, State.setPosted, State.serac_updSerac_field Serac.instCount _ _ _ (by intro _; rfl), hcount]

/-- A handle posts the record of its entry again (R310). -/
theorem postAccept_again {p : Posted} {m : Comm} {q : Nat} (hp : recPersist ((readRange s c va 256).bytes.map (·.1)) = true)
    (hh : recHandle ((readRange s c va 256).bytes.map (·.1)) ≠ 0)
    (he : s.handleEntry c (seracOfDie c.die) (recHandle ((readRange s c va 256).bytes.map (·.1))) = some p)
    (htwo : (p.insts.filter (fun x => x.state != .done)).length < 2) (hrank : s.entryRank p (seracOfDie c.die) = some (m, q))
    (hok : recordOk p.record = true) (hfits : recordFits p.record m.size q = true) :
    let serac := seracOfDie c.die
    let j := recHandle ((readRange s c va 256).bytes.map (·.1)) % 2 ^ 16
    ∃ t x, (exec (.postAccept k) s = .next t ∧ Accepted s k d c (postHandle j p) t) ∧ x ∈ (t.posted serac j).insts ∧
      (t.posted serac j).rank = q ∧ (s.seracLost serac m.coord = false → x.state = .posted) ∧
      (s.seracLost serac m.coord = true → x.state = .fault ∧ x.cause = 7) ∧
      x.number = SMap.getD (s.serac serac).instCount (p.comm * 4096 + q) 0 ∧ x.before = p.insts.getLast?.map (·.number) := by
  intro serac j
  have hcause : postCause (some (m, q)) p.record false = none := by
    rw [postCause_ranked, hok, hfits]
    rfl
  have hexec : exec (.postAccept k) s = .next ((s.postInstance serac j p m q none).acceptPost k c d j serac) := by
    rw [postAccept_eq hc hw hr hb hi hf]
    have hcond : (recPersist ((readRange s c va 256).bytes.map (·.1)) &&
        recHandle ((readRange s c va 256).bytes.map (·.1)) != 0) = true := by
      rw [hp, Bool.true_and]
      exact bne_iff_ne.mpr hh
    unfold State.postRecord
    rw [if_pos hcond, he]
    dsimp only
    rw [if_neg (by omega), hrank]
    dsimp only
    rw [hcause]
    rfl
  obtain ⟨_, hmem, hposted, _, _⟩ := postInstance_spec s serac j p m q none
  generalize hu : s.postInstance serac j p m q none = u at hexec hmem hposted
  obtain ⟨haccept, _, hpost⟩ := acceptPost_spec (s := s) (k := k) (c := c) u d j serac hmem
  have hhandle : postHandle j ((u.acceptPost k c d j serac).posted serac j) = postHandle j p := by
    rw [hpost, hposted]
    rfl
  rw [hhandle] at haccept
  refine ⟨_, State.newInst p none (s.seracLost serac m.coord) (SMap.getD (s.serac serac).instCount (p.comm * 4096 + q) 0),
    ⟨hexec, haccept⟩, ?_, ?_, fun hl => ?_, fun hl => ?_, State.newInst_number .., ?_⟩
  · rw [hpost, hposted]
    exact List.mem_append_right _ List.mem_cons_self
  · rw [hpost, hposted]
    rfl
  · rw [State.newInst_state, hl]
    rfl
  · refine ⟨?_, (State.newInst_cause ..).2 rfl hl⟩
    rw [State.newInst_state, hl]
    rfl
  · unfold State.newInst
    split <;> rfl

end

end Sys2Proof.Machine
end

section
/-! PROOFS. Collectives: tickets taken, reservations, confirmations (O59; R312-R314). -/

namespace Sys2Proof.Machine

/-! ### Tickets (R313) -/

section
variable {s : State} {serac k q : Nat} {tk : Ticket} (ht : (s.serac serac).tickets[k]? = some (q, tk))
include ht

theorem ticketTake_eq : exec (.ticketTake serac k) s = .next (match s.memberInst serac tk.coord tk.comm tk.inst q with
    | none => if s.chainReady serac tk.die tk then s.dropTicket serac k tk.die tk else s
    | some (i, p, x) =>
      if x.state == .posted then
        s.setPosted serac i (p.setInst { x with state := .ticketed, rank := tk.rank, prev := tk.prev, alg := tk.alg, chunk := tk.chunk })
      else if !s.chainReady serac tk.die tk then s
      else if x.state == .fault then s.dropTicket serac k tk.die tk
      else if !s.beforeDone serac p x then s
      else (s.setPosted serac i (p.setInst { x with taken := true })).dropTicket serac k tk.die tk) := by
  rw [exec_ticketTake, execTicketTake, ht] <;> rfl

section
variable {i : Nat} {p : Posted} {x : Inst} (hm : s.memberInst serac tk.coord tk.comm tk.inst q = some (i, p, x))
include hm

theorem ticketTake_received (hx : x.state = .posted) : exec (.ticketTake serac k) s = .next (s.setPosted serac i (p.setInst
    { x with state := .ticketed, rank := tk.rank, prev := tk.prev, alg := tk.alg, chunk := tk.chunk })) := by
  rw [ticketTake_eq ht, hm]
  dsimp only
  rw [hx]
  rfl

theorem ticketTake_waits (hx : x.state = .ticketed) (hprev : tk.prev ≠ 0) (hne : SMap.getD (s.serac serac).takenRank tk.die 0 ≠ tk.prev) :
    exec (.ticketTake serac k) s = .next s := by
  have hchain : s.chainReady serac tk.die tk = false := by
    rw [State.chainReady, beq_eq_false_iff_ne.mpr hprev, beq_eq_false_iff_ne.mpr hne]
    rfl
  rw [ticketTake_eq ht, hm]
  dsimp only
  rw [hx, hchain]
  rfl

theorem ticketTake_taken (hx : x.state = .ticketed) (hchain : s.chainReady serac tk.die tk = true)
    (hbefore : s.beforeDone serac p x = true) :
    ∃ t, exec (.ticketTake serac k) s = .next t ∧ t.posted serac i = p.setInst { x with taken := true } ∧
      (t.serac serac).tickets = (s.serac serac).tickets.eraseIdx k ∧ SMap.find (t.serac serac).takenRank tk.die = some tk.rank ∧
      ∀ a, t.memByte a = s.memByte a := by
  have hexec : exec (.ticketTake serac k) s =
      .next ((s.setPosted serac i (p.setInst { x with taken := true })).dropTicket serac k tk.die tk) := by
    rw [ticketTake_eq ht, hm]
    dsimp only
    rw [hx, hchain, hbefore]
    rfl
  refine ⟨_, hexec, ?_, ?_, ?_, fun _ => rfl⟩
  · rw [State.dropTicket, State.posted_updSerac _ _ _ (by intro _; rfl), State.posted_setPosted_self]
  · rw [State.dropTicket, State.serac_updSerac_self, State.setPosted, State.serac_updSerac_self]
  · rw [State.dropTicket, State.serac_updSerac_self]
    exact SMap.find_put_self ..

end

/-- The ticket of a collective whose entry is reused keeps its place in the chain. -/
theorem ticketTake_gone (hm : s.memberInst serac tk.coord tk.comm tk.inst q = none) (hchain : s.chainReady serac tk.die tk = true) :
    ∃ t, exec (.ticketTake serac k) s = .next t ∧ (t.serac serac).tickets = (s.serac serac).tickets.eraseIdx k ∧
      SMap.find (t.serac serac).takenRank tk.die = some tk.rank ∧ (t.serac serac).entries = (s.serac serac).entries := by
  have hexec : exec (.ticketTake serac k) s = .next (s.dropTicket serac k tk.die tk) := by
    rw [ticketTake_eq ht, hm]
    exact congrArg _ (if_pos hchain)
  refine ⟨_, hexec, ?_, ?_, ?_⟩
  · rw [State.dropTicket, State.serac_updSerac_self]
  · rw [State.dropTicket, State.serac_updSerac_self]
    exact SMap.find_put_self ..
  · rw [State.dropTicket, State.serac_updSerac_self]

end

/-! ### What claims need (R302, R314) -/

theorem totalNeed_eq (l : List Claim) :
    totalNeed l = ⟨(l.map (·.need.bytes)).sum, (l.map (·.need.lanes)).sum, (l.map (·.need.slots)).sum⟩ := by
  have hgen : ∀ n : Need, l.foldl (fun n h => ⟨n.bytes + h.need.bytes, n.lanes + h.need.lanes, n.slots + h.need.slots⟩) n =
      (⟨n.bytes + (l.map (·.need.bytes)).sum, n.lanes + (l.map (·.need.lanes)).sum, n.slots + (l.map (·.need.slots)).sum⟩ : Need) := by
    induction l with
    | nil => exact fun _ => rfl
    | cons c l ih =>
      intro n
      rw [List.foldl_cons, ih]
      simp only [List.map_cons, List.sum_cons, Nat.add_assoc]
  rw [totalNeed, hgen]
  simp only [Nat.zero_add]

/-- A claim fits where its partition's grant and the die have what it needs beside the claims that hold resources. -/
theorem fitsBeside_iff (d : Serac) (c : Claim) (held : List Claim) :
    let mine := c :: held.filter (fun h => decide (h.part = c.part))
    d.fitsBeside c held = true ↔ (mine.map (·.need.bytes)).sum ≤ d.grantBytes c.part ∧ (mine.map (·.need.slots)).sum ≤ d.grantSlots c.part ∧
      ((c :: held).map (·.need.bytes)).sum ≤ 128 * 2 ^ 20 ∧ ((c :: held).map (·.need.lanes)).sum ≤ 16 ∧
      ((c :: held).map (·.need.slots)).sum ≤ 128 := by
  intro mine
  unfold Serac.fitsBeside Serac.lacks
  rw [totalNeed_eq, totalNeed_eq]
  simp only [decide_eq_true_eq, Nat.sub_eq_zero_iff_le]
  exact Iff.rfl

/-! ### Instances of entries -/

/-- An entry has a collective of a number, in a state. -/
def State.HasInst (s : State) (j i n : Nat) (st : InstState) : Prop := ∃ y ∈ (s.posted j i).insts, y.number = n ∧ y.state = st

/-- An entry has a collective of a number. -/
def State.Numbers (s : State) (j i n : Nat) : Prop := ∃ y ∈ (s.posted j i).insts, y.number = n

section
variable {s : State} {j i n : Nat}

theorem State.posted_setInst_self (x : Inst) : (s.setInst j i x).posted j i = (s.posted j i).setInst x := State.posted_setPosted_self ..

theorem State.posted_setInst_ne {j' i' : Nat} (x : Inst) (h : ¬ (j' = j ∧ i' = i)) : (s.setInst j i x).posted j' i' = s.posted j' i' :=
  s.posted_setPosted_ne _ h

/-- A collective as an entry with one of its number put in place holds it. -/
theorem Posted.mem_setInst {p : Posted} {x y : Inst} (hy : y ∈ p.insts) :
    (if y.number = x.number then x else y) ∈ (p.setInst x).insts := List.mem_map_of_mem (f := fun y => if y.number = x.number then x else y) hy

theorem State.Numbers.setInst (h : s.Numbers j i n) (j' i' : Nat) (x : Inst) : (s.setInst j' i' x).Numbers j i n := by
  obtain ⟨y, hy, hn⟩ := h
  by_cases hs : j = j' ∧ i = i'
  · obtain ⟨rfl, rfl⟩ := hs
    refine ⟨if y.number = x.number then x else y, ?_, ?_⟩
    · rw [State.posted_setInst_self]
      exact Posted.mem_setInst hy
    · split
      · next hx => rw [← hx, hn]
      · exact hn
  · exact ⟨y, by rw [State.posted_setInst_ne x hs]; exact hy, hn⟩

theorem State.Numbers.hasInst {x : Inst} (h : s.Numbers j i x.number) : (s.setInst j i x).HasInst j i x.number x.state := by
  obtain ⟨y, hy, hn⟩ := h
  refine ⟨x, ?_, rfl, rfl⟩
  rw [State.posted_setInst_self]
  have := Posted.mem_setInst (x := x) hy
  rwa [if_pos hn] at this

theorem State.HasInst.setInst {st : InstState} (h : s.HasInst j i n st) (j' i' : Nat) (x : Inst)
    (hx : j = j' → i = i' → x.number = n → x.state = st) : (s.setInst j' i' x).HasInst j i n st := by
  obtain ⟨y, hy, hn, hst⟩ := h
  by_cases hs : j = j' ∧ i = i'
  · obtain ⟨rfl, rfl⟩ := hs
    refine ⟨if y.number = x.number then x else y, ?_, ?_, ?_⟩
    · rw [State.posted_setInst_self]
      exact Posted.mem_setInst hy
    · split
      · next he => rw [← he, hn]
      · exact hn
    · split
      · next he => exact hx rfl rfl (he.symm.trans hn)
      · exact hst
  · exact ⟨y, by rw [State.posted_setInst_ne x hs]; exact hy, hn, hst⟩

end

/-- Places of instances, each put in place in turn: die, entry, collective. -/
def State.setInsts (s : State) (l : List (Nat × Nat × Inst)) : State := l.foldl (fun s a => s.setInst a.1 a.2.1 a.2.2) s

theorem State.setInsts_frame (s : State) (l : List (Nat × Nat × Inst)) :
    (∀ a, (s.setInsts l).memByte a = s.memByte a) ∧ (s.setInsts l).contexts = s.contexts ∧ (s.setInsts l).runs = s.runs := by
  induction l generalizing s with
  | nil => exact ⟨fun _ => rfl, rfl, rfl⟩
  | cons a l ih => exact ih (s.setInst a.1 a.2.1 a.2.2)

theorem State.Numbers.setInsts {s : State} {j i n : Nat} (h : s.Numbers j i n) (l : List (Nat × Nat × Inst)) :
    (s.setInsts l).Numbers j i n := by
  induction l generalizing s with
  | nil => exact h
  | cons a l ih => exact ih (h.setInst ..)

theorem State.HasInst.setInsts {s : State} {j i n : Nat} {st : InstState} (h : s.HasInst j i n st) (l : List (Nat × Nat × Inst))
    (hl : ∀ a ∈ l, a.2.2.state = st) : (s.setInsts l).HasInst j i n st := by
  induction l generalizing s with
  | nil => exact h
  | cons a l ih =>
    exact ih (h.setInst _ _ _ (fun _ _ _ => hl a List.mem_cons_self)) (fun b hb => hl b (List.mem_cons_of_mem _ hb))

/-- Instances that are put in place in one state are in it. -/
theorem State.Numbers.hasInsts {s : State} {st : InstState} {l : List (Nat × Nat × Inst)} (hl : ∀ a ∈ l, a.2.2.state = st)
    {a : Nat × Nat × Inst} (ha : a ∈ l) (h : s.Numbers a.1 a.2.1 a.2.2.number) : (s.setInsts l).HasInst a.1 a.2.1 a.2.2.number st := by
  induction l generalizing s with
  | nil => exact absurd ha List.not_mem_nil
  | cons b l ih =>
    have hrest (c : Nat × Nat × Inst) (hc : c ∈ l) : c.2.2.state = st := hl c (List.mem_cons_of_mem _ hc)
    rcases List.mem_cons.mp ha with rfl | hm
    · have hst := hl a List.mem_cons_self
      subst hst
      exact h.hasInst.setInsts l hrest
    · exact ih hrest hm (h.setInst ..)

/-! ### Reservations (R314) -/

theorem mem_insertClaim {c x : Claim} {l : List Claim} : x ∈ insertClaim c l ↔ x = c ∨ x ∈ l := by
  induction l with
  | nil => simp [insertClaim]
  | cons h l ih =>
    unfold insertClaim
    split
    · simp
    · simp only [List.mem_cons, ih]
      tauto

theorem mem_higherFirst {c x : Claim} {held : List Claim} (hx : x ∈ higherFirst c held) :
    x ∈ held ∧ x.inst.state = .reserved ∧ c.inst.rank.toNat < x.inst.rank.toNat := by
  have hsort (l : List Claim) : x ∈ l.foldr insertClaim [] → x ∈ l := by
    induction l with
    | nil => exact id
    | cons h l ih =>
      rw [List.foldr_cons, mem_insertClaim, List.mem_cons]
      exact Or.imp_right ih
  obtain ⟨hheld, hp⟩ := List.mem_filter.mp (hsort _ hx)
  rw [Bool.and_eq_true, beq_iff_eq, decide_eq_true_eq] at hp
  exact ⟨hheld, hp⟩

/-- What is withdrawn was chosen before or is a candidate. -/
theorem mem_withdrawals (d : Serac) (c : Claim) (held : List Claim) {x : Claim} (l : List Claim) :
    ∀ chosen ws, d.withdrawals c held chosen l = some ws → x ∈ ws → x ∈ chosen ∨ x ∈ l := by
  induction l with
  | nil =>
    intro chosen ws h hx
    unfold Serac.withdrawals at h
    obtain ⟨_, h⟩ := Option.ite_none_right_eq_some.mp h
    rw [← Option.some.inj h] at hx
    exact .inl hx
  | cons a l ih =>
    intro chosen ws h hx
    unfold Serac.withdrawals at h
    dsimp only at h
    split at h
    · rw [← Option.some.inj h] at hx
      exact .inl hx
    · obtain hc | hl := ih _ _ h hx
      · split at hc
        · obtain hc | hc := List.mem_append.mp hc
          · exact .inl hc
          · exact .inr (List.mem_cons.mpr (.inl (List.mem_singleton.mp hc)))
        · exact .inl hc
      · exact .inr (List.mem_cons_of_mem _ hl)

theorem mem_reserveWith {s : State} {serac : Nat} {c w : Claim} {ws : List Claim} (h : s.reserveWith serac c = some ws) (hw : w ∈ ws) :
    w ∈ s.claims serac ∧ w.inst.state = .reserved ∧ c.inst.rank.toNat < w.inst.rank.toNat := by
  obtain hn | hl := mem_withdrawals _ _ _ _ _ _ h hw
  · exact absurd hn List.not_mem_nil
  · obtain ⟨hheld, hst, hrank⟩ := mem_higherFirst hl
    exact ⟨List.mem_of_mem_filter hheld, hst, hrank⟩

/-- The instances that a reservation puts in place: those withdrawn, then its own. -/
def Claim.puts (c : Claim) (serac k : Nat) (ws : List Claim) : State → State :=
  fun s => (s.setInsts (ws.map (fun w => (serac, w.entry, { w.inst with state := .ticketed })))).setInst serac k { c.inst with state := .reserved }

section
variable {s : State} {serac k : Nat} {c : Claim} (hc : s.waitingClaim serac k = some c)
include hc

/-- More than the partition's whole grant: NOBUF at every member. -/
theorem reservation_noBuf {m : Comm} (hbig : (s.serac serac).fitsBeside c [] = false)
    (hm : s.commOf serac (s.posted serac k).comm = some m) : exec (.reservation serac k) s =
      .next (s.faultAll serac m (s.posted serac k).coord (s.posted serac k).comm c.inst.number 6 0) := by
  have htoo : (s.serac serac).tooBig c = true := by rw [Serac.tooBig, hbig]; rfl
  rw [exec_reservation, execReservation, hc]
  dsimp only
  rw [if_pos htoo, hm] <;> rfl

theorem reservation_eq (hfit : (s.serac serac).fitsBeside c [] = true) (hfirst : ∀ o ∈ s.claims serac, o.waits = true →
      o.inst.rank.toNat < c.inst.rank.toNat → (s.serac serac).tooBig o = false → s.reserveWith serac o = none)
    {ws : List Claim} (hws : s.reserveWith serac c = some ws) :
    exec (.reservation serac k) s = .next (c.puts serac k ws s) := by
  have htoo : ¬ (s.serac serac).tooBig c = true := by rw [Serac.tooBig, hfit]; decide
  have hlow : ¬ (s.claims serac).any (fun o => o.waits && decide (o.inst.rank.toNat < c.inst.rank.toNat) && !(s.serac serac).tooBig o &&
      (s.reserveWith serac o).isSome) = true := by
    intro hany
    obtain ⟨o, ho, hcond⟩ := List.any_eq_true.mp hany
    simp only [Bool.and_eq_true, decide_eq_true_eq, Bool.not_eq_true'] at hcond
    obtain ⟨⟨⟨hw, hr⟩, hb⟩, hsome⟩ := hcond
    rw [hfirst o ho hw hr hb] at hsome
    cases hsome
  rw [exec_reservation, execReservation, hc]
  dsimp only
  rw [if_neg htoo, if_neg hlow, hws]
  dsimp only
  rw [Claim.puts, State.setInsts, List.foldl_map]

/-- The lowest rank that can reserve does, withdrawing unconfirmed reservations of higher ranks. -/
theorem reservation_reserves (hfit : (s.serac serac).fitsBeside c [] = true) (hfirst : ∀ o ∈ s.claims serac, o.waits = true →
      o.inst.rank.toNat < c.inst.rank.toNat → (s.serac serac).tooBig o = false → s.reserveWith serac o = none)
    {ws : List Claim} (hws : s.reserveWith serac c = some ws) :
    ∃ t, exec (.reservation serac k) s = .next t ∧ (∀ a, t.memByte a = s.memByte a) ∧ t.contexts = s.contexts ∧ t.runs = s.runs ∧
      (c.inst ∈ (s.posted serac k).insts → t.HasInst serac k c.inst.number .reserved) ∧
      ∀ w ∈ ws, w.entry ≠ k → w.inst ∈ (s.posted serac w.entry).insts → t.HasInst serac w.entry w.inst.number .ticketed := by
  obtain ⟨hmem, hctx, hruns⟩ := s.setInsts_frame (ws.map (fun w => (serac, w.entry, { w.inst with state := .ticketed })))
  refine ⟨_, reservation_eq hc hfit hfirst hws, hmem, hctx, hruns, fun hin => ?_, fun w hw hne hin => ?_⟩
  · have hn : s.Numbers serac k c.inst.number := ⟨_, hin, rfl⟩
    exact State.Numbers.hasInst (x := { c.inst with state := .reserved }) (hn.setInsts _)
  · have hn : s.Numbers serac w.entry w.inst.number := ⟨_, hin, rfl⟩
    refine State.HasInst.setInst ?_ _ _ _ (fun _ hk => absurd hk hne)
    refine State.Numbers.hasInsts (a := (serac, w.entry, { w.inst with state := .ticketed })) (fun a ha => ?_)
      (List.mem_map_of_mem (f := fun w : Claim => (serac, w.entry, ({ w.inst with state := .ticketed } : Inst))) hw) hn
    obtain ⟨v, _, rfl⟩ := List.mem_map.mp ha
    rfl

end

/-! ### Confirmations (R313) -/

/-- A list of which every element has a value. -/
theorem filterMap_getElem? {α β : Type} {f : α → Option β} {l : List α} (h : ∀ a ∈ l, (f a).isSome = true) (q : Nat) :
    (l.filterMap f)[q]? = l[q]?.bind f := by
  induction l generalizing q with
  | nil => rfl
  | cons a l ih =>
    obtain ⟨b, hb⟩ := Option.isSome_iff_exists.mp (h a List.mem_cons_self)
    rw [List.filterMap_cons_some hb]
    cases q with
    | zero => exact hb.symm
    | succ q => exact ih (fun x hx => h x (List.mem_cons_of_mem _ hx)) q

theorem length_filterMap_of_isSome {α β : Type} {f : α → Option β} {l : List α} (h : ∀ a ∈ l, (f a).isSome = true) :
    (l.filterMap f).length = l.length := by
  induction l with
  | nil => rfl
  | cons a l ih =>
    obtain ⟨b, hb⟩ := Option.isSome_iff_exists.mp (h a List.mem_cons_self)
    rw [List.filterMap_cons_some hb, List.length_cons, List.length_cons, ih (fun x hx => h x (List.mem_cons_of_mem _ hx))]

/-- The place of a member's collective as it begins to run. -/
def runningAt (o : Nat × Nat × Posted × Inst) : Nat × Nat × Inst := (o.1, o.2.1, { o.2.2.2 with state := .running })

/-- A member holds its reservation. -/
def isReserved : Option (Nat × Nat × Posted × Inst) → Bool
  | some (_, _, _, y) => y.state == .reserved
  | none => false

/-- A member of a run as its collective begins to run. -/
def memberOf (o : Nat × Nat × Posted × Inst) : RunMember where
  serac := o.1
  entry := o.2.1
  record := o.2.2.1.record
  die := o.2.2.1.die
  part := o.2.2.1.part
  s1root := o.2.2.1.s1root
  tenant := o.2.2.1.tenant
  gang := o.2.2.1.gang
  lost := false

/-- A member's collective begins to run. -/
def State.putRunning (s : State) : Option (Nat × Nat × Posted × Inst) → State
  | some (j, i, _, y) => s.setInst j i { y with state := .running }
  | none => s

theorem State.foldl_putRunning (l : List (Option (Nat × Nat × Posted × Inst))) (s : State) :
    l.foldl State.putRunning s = s.setInsts (l.filterMap (·.map runningAt)) := by
  induction l generalizing s with
  | nil => rfl
  | cons o l ih =>
    cases o with
    | none => exact ih s
    | some o => exact ih (s.putRunning (some o))

section
variable {s : State} {serac k : Nat} {x : Inst} {m : Comm} (hx : (s.posted serac k).insts.find? (fun x => x.state == .reserved) = some x)
  (hm : s.commOf serac (s.posted serac k).comm = some m)
include hx hm

theorem confirmation_unreached (hl : ∃ w ∈ m.words, s.seracLost serac (memberSerac w) = true) :
    exec (.confirmation serac k) s = .next s := by
  have hany : m.words.any (fun w => s.seracLost serac (memberSerac w)) = true := List.any_eq_true.mpr hl
  rw [exec_confirmation, execConfirmation]
  dsimp only
  rw [hx, hm]
  dsimp only
  rw [hany, Bool.or_true]
  rfl

theorem confirmation_eq (hall : ∀ q, q < m.size → ∃ o, s.member m (s.posted serac k).coord (s.posted serac k).comm x.number q = some o ∧
      o.2.2.2.state = .reserved) (hl : ∀ w ∈ m.words, s.seracLost serac (memberSerac w) = false) :
    exec (.confirmation serac k) s = .next { s.setInsts (((List.range m.size).map (fun q =>
        s.member m (s.posted serac k).coord (s.posted serac k).comm x.number q)).filterMap (·.map runningAt)) with
      runs := s.runs ++ [s.newRun m (s.posted serac k) x] } := by
  have hany : m.words.any (fun w => s.seracLost serac (memberSerac w)) = false :=
    List.any_eq_false.mpr fun w hw => by rw [hl w hw]; exact Bool.false_ne_true
  have hexec : exec (.confirmation serac k) s = if !(((List.range m.size).map (fun q =>
        s.member m (s.posted serac k).coord (s.posted serac k).comm x.number q)).all isReserved) ||
        m.words.any (fun w => s.seracLost serac (memberSerac w)) then .next s
      else .next { ((List.range m.size).map (fun q => s.member m (s.posted serac k).coord (s.posted serac k).comm x.number q)).foldl
          State.putRunning s with
        runs := (((List.range m.size).map (fun q => s.member m (s.posted serac k).coord (s.posted serac k).comm x.number q)).foldl
          State.putRunning s).runs ++ [s.newRun m (s.posted serac k) x] } := by
    rw [exec_confirmation, execConfirmation]
    dsimp only
    rw [hx, hm]
    rfl
  have hready : ((List.range m.size).map (fun q => s.member m (s.posted serac k).coord (s.posted serac k).comm x.number q)).all
      isReserved = true := by
    rw [List.all_eq_true]
    intro o ho
    obtain ⟨q, hq, rfl⟩ := List.mem_map.mp ho
    obtain ⟨o, ho, hst⟩ := hall q (List.mem_range.mp hq)
    rw [ho]
    exact beq_iff_eq.mpr hst
  rw [hexec, hready, hany, State.foldl_putRunning, (s.setInsts_frame _).2.2]
  rfl

/-- With every member's reservation, and every one reached, the collective runs at each (R313). -/
theorem confirmation_runs (hall : ∀ q, q < m.size → ∃ o, s.member m (s.posted serac k).coord (s.posted serac k).comm x.number q = some o ∧
      o.2.2.2.state = .reserved ∧ o.2.2.2 ∈ (s.posted o.1 o.2.1).insts) (hl : ∀ w ∈ m.words, s.seracLost serac (memberSerac w) = false) :
    let p := s.posted serac k
    ∃ t r, exec (.confirmation serac k) s = .next t ∧ (∀ a, t.memByte a = s.memByte a) ∧ t.contexts = s.contexts ∧
      t.runs = s.runs ++ [r] ∧ r.coord = p.coord ∧ r.comm = p.comm ∧ r.inst = x.number ∧ r.vc = m.vc ∧ r.prio = m.prio ∧
      r.weight = m.weight ∧ r.members.length = m.size ∧ r.chunks = [] ∧ r.writtenTo = [] ∧
      ∀ q, q < m.size → ∀ j i p' y, s.member m p.coord p.comm x.number q = some (j, i, p', y) →
        r.members[q]? = some (RunMember.mk j i p'.record p'.die p'.part p'.s1root p'.tenant p'.gang false) ∧
        ∃ y' ∈ (t.posted j i).insts, y'.number = y.number ∧ y'.state = .running := by
  intro p
  obtain ⟨hmem, hctx, _⟩ := s.setInsts_frame (((List.range m.size).map (fun q => s.member m p.coord p.comm x.number q)).filterMap
    (·.map runningAt))
  have hsome : ∀ q ∈ List.range m.size, ((s.member m p.coord p.comm x.number q).map memberOf).isSome = true := fun q hq => by
    obtain ⟨o, ho, _⟩ := hall q (List.mem_range.mp hq)
    rw [ho]
    rfl
  have hmembers : (s.newRun m p x).members = (List.range m.size).filterMap (fun q =>
    (s.member m p.coord p.comm x.number q).map memberOf) := rfl
  refine ⟨_, s.newRun m p x, confirmation_eq hx hm (fun q hq => ?_) hl, hmem, hctx, rfl, rfl, rfl, rfl, rfl, rfl, rfl, ?_, rfl, rfl,
    fun q hq j i p' y hmember => ⟨?_, ?_⟩⟩
  · obtain ⟨o, ho, hst, _⟩ := hall q hq
    exact ⟨o, ho, hst⟩
  · rw [hmembers, length_filterMap_of_isSome hsome, List.length_range]
  · rw [hmembers, filterMap_getElem? hsome, List.getElem?_range hq, Option.bind_some, hmember]
    rfl
  · obtain ⟨o, ho, _, hin⟩ := hall q hq
    rw [hmember] at ho
    obtain rfl := Option.some.inj ho
    have hn : s.Numbers j i y.number := ⟨y, hin, rfl⟩
    have hmemq : s.member m p.coord p.comm x.number q ∈ (List.range m.size).map (fun q => s.member m p.coord p.comm x.number q) :=
      List.mem_map_of_mem (f := fun q => s.member m p.coord p.comm x.number q) (List.mem_range.mpr hq)
    refine State.Numbers.hasInsts (a := runningAt (j, i, p', y)) (fun a ha => ?_) (List.mem_filterMap.mpr ⟨_, hmemq, ?_⟩) hn
    · obtain ⟨o, _, ho⟩ := List.mem_filterMap.mp ha
      obtain ⟨v, _, rfl⟩ := Option.map_eq_some_iff.mp ho
      rfl
    · rw [hmember]
      rfl

end

end Sys2Proof.Machine
end

section
/-! PROOFS. Collectives: chunk boundaries, what resources can serve, credits (O59; R306, R317). -/

namespace Sys2Proof.Machine

/-! ### The highest priority and the next turn (R317) -/

theorem foldl_max_spec {α : Type} (f : α → Nat) (l : List α) : ∀ a : Nat,
    (∀ x ∈ l, f x ≤ l.foldl (fun a x => max a (f x)) a) ∧ a ≤ l.foldl (fun a x => max a (f x)) a ∧
    (l.foldl (fun a x => max a (f x)) a = a ∨ ∃ x ∈ l, l.foldl (fun a x => max a (f x)) a = f x) := by
  induction l with
  | nil => exact fun a => ⟨fun _ h => absurd h List.not_mem_nil, Nat.le_refl a, .inl rfl⟩
  | cons b l ih =>
    intro a
    obtain ⟨hall, hge, heq⟩ := ih (max a (f b))
    rw [List.foldl_cons]
    refine ⟨fun x hx => ?_, by omega, ?_⟩
    · rcases List.mem_cons.mp hx with rfl | hx
      · omega
      · exact hall x hx
    · obtain heq | ⟨x, hx, heq⟩ := heq
      · rw [heq]
        obtain h | h := Nat.le_total a (f b)
        · exact .inr ⟨b, List.mem_cons_self, Nat.max_eq_right h⟩
        · exact .inl (Nat.max_eq_left h)
      · exact .inr ⟨x, List.mem_cons_of_mem _ hx, heq⟩

/-- The highest priority of a list is that of one of its candidates. -/
theorem highest_prio {l : List ChunkCand} (hl : l ≠ []) :
    (∃ x ∈ l, x.prio = l.foldl (fun a x => max a x.prio) 0) ∧ ∀ y ∈ l, y.prio ≤ l.foldl (fun a x => max a x.prio) 0 := by
  obtain ⟨hall, _, heq⟩ := foldl_max_spec ChunkCand.prio l 0
  refine ⟨?_, hall⟩
  obtain heq | ⟨x, hx, heq⟩ := heq
  · obtain ⟨x, hx⟩ := List.exists_mem_of_ne_nil l hl
    exact ⟨x, hx, by have := hall x hx; omega⟩
  · exact ⟨x, hx, heq.symm⟩

theorem foldl_min_spec {α : Type} (f : α → Nat) (l : List α) : ∀ a : Nat,
    (∀ x ∈ l, l.foldl (fun a x => min a (f x)) a ≤ f x) ∧ l.foldl (fun a x => min a (f x)) a ≤ a ∧
    (l.foldl (fun a x => min a (f x)) a = a ∨ ∃ x ∈ l, l.foldl (fun a x => min a (f x)) a = f x) := by
  induction l with
  | nil => exact fun a => ⟨fun _ h => absurd h List.not_mem_nil, Nat.le_refl a, .inl rfl⟩
  | cons b l ih =>
    intro a
    obtain ⟨hall, hle, heq⟩ := ih (min a (f b))
    rw [List.foldl_cons]
    refine ⟨fun x hx => ?_, by omega, ?_⟩
    · rcases List.mem_cons.mp hx with rfl | hx
      · omega
      · exact hall x hx
    · obtain heq | ⟨x, hx, heq⟩ := heq
      · rw [heq]
        obtain h | h := Nat.le_total a (f b)
        · exact .inl (Nat.min_eq_left h)
        · exact .inr ⟨b, List.mem_cons_self, Nat.min_eq_right h⟩
      · exact .inr ⟨x, List.mem_cons_of_mem _ hx, heq⟩

section
variable {comms : List (Nat × Nat)}

/-- The lowest communicator of a list. -/
def lowestComm (comms : List (Nat × Nat)) : Nat := comms.foldl (fun a c => min a c.1) (comms.headD (0, 0)).1

theorem lowestComm_le {x : Nat × Nat} (hx : x ∈ comms) : lowestComm comms ≤ x.1 := (foldl_min_spec Prod.fst comms _).1 x hx

theorem lowestComm_mem (h : comms ≠ []) : ∃ x ∈ comms, x.1 = lowestComm comms := by
  obtain heq | ⟨x, hx, heq⟩ := (foldl_min_spec Prod.fst comms (comms.headD (0, 0)).1).2.2
  · obtain ⟨a, l, rfl⟩ := List.exists_cons_of_ne_nil h
    exact ⟨a, List.mem_cons_self, heq.symm⟩
  · exact ⟨x, hx, heq.symm⟩

theorem nextTurn_stays {c n : Nat} (h : ∃ y ∈ comms, y.1 = c ∧ n < y.2) : nextTurn (some (c, n)) comms = (c, n) := by
  obtain ⟨y, hy, hc⟩ := h
  have hany : comms.any (fun x => decide (x.1 = c ∧ n < x.2)) = true := List.any_eq_true.mpr ⟨y, hy, decide_eq_true hc⟩
  exact if_pos hany

/-- A turn that has passed goes to the next communicator, beyond the highest to the lowest. -/
theorem nextTurn_moves {c n : Nat} (h : ∀ y ∈ comms, y.1 = c → y.2 ≤ n) : ∃ c', nextTurn (some (c, n)) comms = (c', 0) ∧
    (comms ≠ [] → ∃ y ∈ comms, y.1 = c') ∧ ((∃ y ∈ comms, c < y.1) → c < c' ∧ ∀ y ∈ comms, c < y.1 → c' ≤ y.1) ∧
    ((∀ y ∈ comms, y.1 ≤ c) → ∀ y ∈ comms, c' ≤ y.1) := by
  have hnone : ¬ comms.any (fun x => decide (x.1 = c ∧ n < x.2)) = true := fun hany => by
    obtain ⟨y, hy, hd⟩ := List.any_eq_true.mp hany
    obtain ⟨hyc, hlt⟩ := of_decide_eq_true hd
    have := h y hy hyc
    omega
  have hturn : nextTurn (some (c, n)) comms = match comms.filter (fun x => decide (c < x.1)) with
      | [] => (lowestComm comms, 0)
      | y :: ys => (ys.foldl (fun a x => min a x.1) y.1, 0) := by
    unfold nextTurn
    dsimp only
    rw [if_neg hnone] <;> rfl
  rw [hturn]
  cases habove : comms.filter (fun x => decide (c < x.1)) with
  | nil =>
    refine ⟨_, rfl, lowestComm_mem, fun ⟨y, hy, hlt⟩ => ?_, fun _ y hy => lowestComm_le hy⟩
    have hmem : y ∈ comms.filter (fun x => decide (c < x.1)) := List.mem_filter.mpr ⟨hy, decide_eq_true hlt⟩
    rw [habove] at hmem
    exact absurd hmem List.not_mem_nil
  | cons y ys =>
    obtain ⟨hall, hle, heq⟩ := foldl_min_spec Prod.fst ys y.1
    have habove' (z : Nat × Nat) (hz : z ∈ y :: ys) : z ∈ comms ∧ c < z.1 := by
      rw [← habove] at hz
      obtain ⟨hz, hd⟩ := List.mem_filter.mp hz
      exact ⟨hz, of_decide_eq_true hd⟩
    have hattained : ∃ z ∈ y :: ys, z.1 = ys.foldl (fun a x => min a x.1) y.1 := by
      obtain heq | ⟨z, hz, heq⟩ := heq
      · exact ⟨y, List.mem_cons_self, heq.symm⟩
      · exact ⟨z, List.mem_cons_of_mem _ hz, heq.symm⟩
    obtain ⟨z, hz, hzc⟩ := hattained
    obtain ⟨hzm, hzlt⟩ := habove' z hz
    refine ⟨_, rfl, fun _ => ⟨z, hzm, hzc⟩, fun _ => ⟨by rw [hzc] at hzlt; exact hzlt, fun w hw hlt => ?_⟩, fun hle' => ?_⟩
    · have hw' : w ∈ y :: ys := by
        rw [← habove]
        exact List.mem_filter.mpr ⟨hw, decide_eq_true hlt⟩
      rcases List.mem_cons.mp hw' with rfl | hw'
      · exact hle
      · exact hall w hw'
    · have := hle' z hzm
      omega

theorem nextTurn_mem (cur : Option (Nat × Nat)) (h : comms ≠ []) : ∃ y ∈ comms, y.1 = (nextTurn cur comms).1 := by
  cases cur with
  | none => exact lowestComm_mem h
  | some t =>
    obtain ⟨c, n⟩ := t
    by_cases hs : ∃ y ∈ comms, y.1 = c ∧ n < y.2
    · rw [nextTurn_stays hs]
      obtain ⟨y, hy, hc, _⟩ := hs
      exact ⟨y, hy, hc⟩
    · obtain ⟨c', heq, hmem, _⟩ := nextTurn_moves (comms := comms) (c := c) (n := n)
        (fun y hy hc => Nat.le_of_not_lt fun hlt => hs ⟨y, hy, hc, hlt⟩)
      rw [heq]
      exact hmem h

end

/-! ### What a resource can serve (R306, R317) -/

theorem mem_readyChunks {s : State} {serac : Nat} {res : CollResource} {x : ChunkCand} (h : x ∈ s.readyChunks serac res) :
    x ∈ s.chunkCands serac res := by
  unfold State.readyChunks at h
  dsimp only at h
  split at h
  · exact h
  · exact List.mem_of_mem_filter h

theorem readyChunks_ne_nil {s : State} {serac : Nat} {res : CollResource} (h : s.chunkCands serac res ≠ []) :
    s.readyChunks serac res ≠ [] := by
  unfold State.readyChunks
  dsimp only
  split
  · exact h
  · next hne => exact fun hnil => hne (by rw [hnil]; rfl)

/-- Whether a resource can serve a member of a run. -/
def State.able (s : State) (serac : Nat) (res : CollResource) (r : CollRun) (x : Nat × RunMember) : Bool :=
  match res with
  | .link n => (s.serac serac).linkUp n && decide (0 < (s.serac serac).credits n r.vc) && s.supplies r x.2 x.1 && r.sends x.1
  | .alu => r.reduces && s.receives r x.2 x.1 && r.combines x.1
  | .within => false

theorem mem_chunkCands {s : State} {serac : Nat} {res : CollResource} {x : ChunkCand} (h : x ∈ s.chunkCands serac res) :
    ∃ m, s.able serac res x.run (x.rank, m) = true := by
  unfold State.chunkCands at h
  obtain ⟨r, _, hr⟩ := List.mem_flatMap.mp h
  obtain ⟨⟨q, m⟩, _, hx⟩ := List.mem_filterMap.mp hr
  obtain ⟨⟨_, hable⟩, hx⟩ := Option.ite_none_right_eq_some.mp hx
  obtain rfl := Option.some.inj hx
  exact ⟨m, hable⟩

theorem chunkCands_link {s : State} {serac n : Nat} {x : ChunkCand} (h : x ∈ s.chunkCands serac (.link n)) :
    n < 24 ∧ n ∉ (s.serac serac).retiredLinks ∧ 0 < (s.serac serac).credits n x.run.vc ∧
      ∃ u e, (x.run.toRead x.rank u e).isSome = true ∧ x.run.samePkg x.rank e = false := by
  obtain ⟨m, hable⟩ := mem_chunkCands h
  simp only [State.able, Serac.linkUp, CollRun.sends, Bool.and_eq_true, decide_eq_true_eq, Bool.not_eq_true', List.any_eq_true,
    List.contains_eq_mem, decide_eq_false_iff_not] at hable
  obtain ⟨⟨⟨⟨hn, hret⟩, hcredit⟩, _⟩, u, _, e, _, hread, hpkg⟩ := hable
  exact ⟨hn, hret, hcredit, u, e, hread, hpkg⟩

theorem chunkCands_alu {s : State} {serac : Nat} {x : ChunkCand} (h : x ∈ s.chunkCands serac .alu) :
    (x.run.desc.op = 1 ∨ x.run.desc.op = 2) ∧ ∃ u, (x.run.toWrite u x.rank).isSome = true := by
  obtain ⟨m, hable⟩ := mem_chunkCands h
  simp only [State.able, CollRun.reduces, CollRun.combines, Bool.and_eq_true, Bool.or_eq_true, beq_iff_eq, List.any_eq_true] at hable
  obtain ⟨⟨hop, _⟩, u, _, hwrite⟩ := hable
  exact ⟨hop, u, hwrite⟩

/-! ### A chunk boundary (R317) -/

section
variable {s : State} {serac : Nat} {res : CollResource} (hp : SMap.find (s.serac serac).picks (resKey res) = none)
  (hc : s.chunkCands serac res ≠ [])
include hp hc

theorem chunkBoundary_spec : ∃ t x, exec (.chunkBoundary serac res) s = .next t ∧ x ∈ s.readyChunks serac res ∧
    (∀ y ∈ s.readyChunks serac res, y.prio ≤ x.prio) ∧ (∀ a, t.memByte a = s.memByte a) ∧ t.contexts = s.contexts ∧
    SMap.find (t.serac serac).picks (resKey res) =
      some { coord := x.run.coord, comm := x.run.comm, inst := x.run.inst, rank := x.rank, left := none } ∧
    let top := (s.readyChunks serac res).filter (fun y => decide (y.prio = x.prio))
    let key := resKey res * 8 + x.prio
    ∀ c n, SMap.find (s.serac serac).turn key = some (c, n) →
      ((∃ y ∈ top, y.run.comm = c ∧ n < y.run.weight) → x.run.comm = c ∧ SMap.find (t.serac serac).turn key = some (c, n + 1)) ∧
      ((∀ y ∈ top, y.run.comm = c → y.run.weight ≤ n) → SMap.find (t.serac serac).turn key = some (x.run.comm, 1) ∧
        ((∃ y ∈ top, c < y.run.comm) → c < x.run.comm ∧ ∀ y ∈ top, c < y.run.comm → x.run.comm ≤ y.run.comm) ∧
        ((∀ y ∈ top, y.run.comm ≤ c) → ∀ y ∈ top, x.run.comm ≤ y.run.comm)) := by
  have hne := readyChunks_ne_nil hc
  obtain ⟨⟨b, hb, hbp⟩, hmax⟩ := highest_prio hne
  generalize hl : s.readyChunks serac res = l at hne hb hbp hmax
  generalize hprio : l.foldl (fun a x => max a x.prio) 0 = prio at hbp hmax
  generalize htop : l.filter (fun y => decide (y.prio = prio)) = top
  have hcomms : top.map (fun x => (x.run.comm, x.run.weight)) ≠ [] := by
    intro hnil
    have hbt : b ∈ top := by rw [← htop]; exact List.mem_filter.mpr ⟨hb, decide_eq_true hbp⟩
    rw [List.map_eq_nil_iff.mp hnil] at hbt
    exact absurd hbt List.not_mem_nil
  generalize hturn : nextTurn (SMap.find (s.serac serac).turn (resKey res * 8 + prio)) (top.map (fun x => (x.run.comm, x.run.weight))) = turn
  have hpicks : top.filter (fun x => decide (x.run.comm = turn.1)) ≠ [] := by
    obtain ⟨y, hy, hyc⟩ := nextTurn_mem (SMap.find (s.serac serac).turn (resKey res * 8 + prio)) hcomms
    obtain ⟨z, hz, rfl⟩ := List.mem_map.mp hy
    rw [hturn] at hyc
    exact List.ne_nil_of_mem (List.mem_filter.mpr ⟨hz, decide_eq_true hyc⟩)
  obtain ⟨x, hx, hpick⟩ := pickFree_mem s 8 hpicks
  obtain ⟨hxtop, hxc⟩ := List.mem_filter.mp hx
  have hxc := of_decide_eq_true hxc
  have hxl : x ∈ l ∧ x.prio = prio := by
    rw [← htop] at hxtop
    obtain ⟨hxl, hxp⟩ := List.mem_filter.mp hxtop
    exact ⟨hxl, of_decide_eq_true hxp⟩
  obtain ⟨hxl, hxp⟩ := hxl
  have hexec : exec (.chunkBoundary serac res) s = .next (s.updSerac serac (fun d => { d with
      picks := SMap.put d.picks (resKey res) { coord := x.run.coord, comm := x.run.comm, inst := x.run.inst, rank := x.rank, left := none }
      turn := SMap.put d.turn (resKey res * 8 + prio) (turn.1, turn.2 + 1) })) := by
    rw [exec_chunkBoundary, execChunkBoundary]
    dsimp only
    rw [hp, hl, hprio, htop, hturn, hpick]
    rfl
  refine ⟨_, x, hexec, hxl, fun y hy => by rw [hxp]; exact hmax y hy, fun _ => rfl, rfl, ?_, ?_⟩
  · rw [State.serac_updSerac_self]
    exact SMap.find_put_self ..
  · rw [hxp, htop]
    intro top' key c n hfind
    have hfind' : SMap.find ((s.updSerac serac (fun d => { d with
        picks := SMap.put d.picks (resKey res) { coord := x.run.coord, comm := x.run.comm, inst := x.run.inst, rank := x.rank, left := none }
        turn := SMap.put d.turn (resKey res * 8 + prio) (turn.1, turn.2 + 1) })).serac serac).turn key = some (turn.1, turn.2 + 1) := by
      rw [State.serac_updSerac_self]
      exact SMap.find_put_self ..
    rw [hfind']
    rw [hfind] at hturn
    refine ⟨fun ⟨y, hy, hyc, hlt⟩ => ?_, fun hall => ?_⟩
    · rw [nextTurn_stays ⟨_, List.mem_map_of_mem hy, hyc, hlt⟩] at hturn
      rw [hxc, ← hturn]
      exact ⟨rfl, rfl⟩
    · obtain ⟨c', heq, _, habove, hbelow⟩ := nextTurn_moves (c := c) (n := n) (comms := top'.map (fun x => (x.run.comm, x.run.weight)))
        (fun y hy hyc => by
          obtain ⟨z, hz, rfl⟩ := List.mem_map.mp hy
          exact hall z hz hyc)
      rw [heq] at hturn
      rw [hxc, ← hturn]
      refine ⟨rfl, fun ⟨y, hy, hlt⟩ => ?_, fun hle y hy => ?_⟩
      · obtain ⟨hlt', hmin⟩ := habove ⟨_, List.mem_map_of_mem hy, hlt⟩
        exact ⟨hlt', fun z hz hz' => hmin _ (List.mem_map_of_mem (f := fun x : ChunkCand => (x.run.comm, x.run.weight)) hz) hz'⟩
      · refine hbelow (fun z hz => ?_) _ (List.mem_map_of_mem (f := fun x : ChunkCand => (x.run.comm, x.run.weight)) hy)
        obtain ⟨w, hw, rfl⟩ := List.mem_map.mp hz
        exact hle w hw

end

/-! ### Bytes read at their home, and credits -/

theorem linePieces_of_one {pa n : Nat} (hn : n ≠ 0) (h : pa % 64 + n ≤ 64) : linePieces pa n = [(pa, n)] := by
  unfold linePieces
  rw [if_neg hn, show (pa + n - 1) / 64 - pa / 64 + 1 = 1 by omega, List.range_one, List.map_singleton]
  dsimp only
  rw [show max pa ((pa / 64 + 0) * 64) = pa by omega, show min (pa + n) ((pa / 64 + 0 + 1) * 64) - pa = n by omega]

/-- Bytes within a line, of a home that no task has written through an OWN page. -/
theorem readHomeBytes_of_line (s : State) (ho : s.ownPast = []) (me : Option Nat) (pkg pa n : Nat) (h : pa % 64 + n ≤ 64) :
    s.readHomeBytes me pkg pa n = (s.homeBytes pkg pa n).map (fun b => (b, s.linePoisoned pkg (pa / 64))) := by
  unfold State.readHomeBytes
  by_cases hn : n = 0
  · subst hn
    rfl
  · rw [linePieces_of_one hn h, List.flatMap_singleton]
    dsimp only
    rw [s.readHome_of_fresh me pkg _ ho]
    dsimp only
    rw [s.homeLine_piece pkg pa n h]

theorem creditReturn_spec {s : State} {serac link vc n : Nat} (hl : link < 24) (hv : vc < 16)
    (hs : SMap.find (s.serac serac).spent (link * 16 + vc) = some (n + 1)) : exec (.creditReturn serac link vc) s =
      .next (s.setSerac serac { s.serac serac with spent := SMap.put (s.serac serac).spent (link * 16 + vc) n }) := by
  have hget : SMap.getD (s.serac serac).spent (link * 16 + vc) 0 = n + 1 := by
    unfold SMap.getD
    rw [hs]
  have hcond : ¬ (n + 1 = 0 ∨ linkCount ≤ link ∨ 16 ≤ vc) := by
    have : linkCount = 24 := rfl
    omega
  rw [exec_creditReturn, execCreditReturn]
  dsimp only
  rw [hget, if_neg hcond]
  rfl

end Sys2Proof.Machine
end

section
/-! PROOFS. Collectives: chunks as they move, on a link, within a package, at the ALUs (O59; R306, R316, R317). -/

namespace Sys2Proof.Machine

theorem SMap.find_drop_self {α : Type} (m : SMap α) (k : Nat) : SMap.find (SMap.drop m k) k = none := by
  induction m with
  | nil => rfl
  | cons x m ih =>
    obtain ⟨j, a⟩ := x
    unfold SMap.drop at ih ⊢
    by_cases hj : j = k
    · rw [List.filter_cons_of_neg (by simpa using hj)]
      exact ih
    · rw [List.filter_cons_of_pos (by simpa using hj), SMap.find, if_neg hj]
      exact ih

/-! ### Transfers of a run (R306) -/

/-- A transfer has a number and a rank that its run has. -/
theorem CollDesc.piece_bounds {c : CollDesc} {u d : Nat} {pc : Piece} (h : c.piece u d = some pc) : u < c.transfers ∧ d < c.size := by
  by_contra hn
  have hout : c.transfers ≤ u ∨ c.size ≤ d := by omega
  have hnone : c.piece u d = none := if_pos hout
  rw [hnone] at h
  cases h

theorem CollRun.sends_of_toRead {r : CollRun} {q u e : Nat} {x : Nat × Word} (h : r.toRead q u e = some x) (hp : r.samePkg q e = false) :
    r.sends q = true := by
  have hpiece : ∃ pc, r.desc.piece u e = some pc := by
    unfold CollRun.toRead at h
    obtain ⟨_, h⟩ := Option.ite_none_left_eq_some.mp h
    obtain ⟨pc, hpc, _⟩ := Option.bind_eq_some_iff.mp h
    exact ⟨pc, hpc⟩
  obtain ⟨pc, hpc⟩ := hpiece
  obtain ⟨hu, he⟩ := CollDesc.piece_bounds hpc
  rw [CollRun.sends, List.any_eq_true]
  refine ⟨u, List.mem_range.mpr hu, List.any_eq_true.mpr ⟨e, List.mem_range.mpr he, ?_⟩⟩
  rw [h, hp]
  rfl

theorem CollRun.combines_of_toWrite {r : CollRun} {u q : Nat} {x : Word × List (Nat × List (Byte × Bool))} (h : r.toWrite u q = some x) :
    r.combines q = true := by
  have hpiece : ∃ pc, r.desc.piece u q = some pc := by
    unfold CollRun.toWrite at h
    split at h
    · cases h
    · next pc hpc => exact ⟨pc, hpc⟩
  obtain ⟨pc, hpc⟩ := hpiece
  rw [CollRun.combines, List.any_eq_true]
  exact ⟨u, List.mem_range.mpr (CollDesc.piece_bounds hpc).1, by rw [h]; rfl⟩

/-! ### What a chunk rests on, where only the records of Serac dies differ -/

section
variable (s : State) (k : Nat) (f : Serac → Serac)

theorem rangeParts_updSerac (c : Context) (va : Word) (n : Nat) (acc : Access) :
    rangeParts (s.updSerac k f) c va n acc = rangeParts s c va n acc := rfl

theorem homeLost_updSerac (h : ∀ d, (f d).reach = d.reach) (j : Nat) (l : Loc) : (s.updSerac k f).homeLost j l = s.homeLost j l := by
  unfold State.homeLost
  rw [s.seracLost_updSerac k f h]
  rfl

theorem readHomeBytes_updSerac (me : Option Nat) (pkg pa n : Nat) :
    (s.updSerac k f).readHomeBytes me pkg pa n = s.readHomeBytes me pkg pa n := rfl

theorem memberInst_updSerac (h : ∀ d, (f d).entries = d.entries) (j coord comm inst q : Nat) :
    (s.updSerac k f).memberInst j coord comm inst q = s.memberInst j coord comm inst q := by
  unfold State.memberInst
  rw [s.serac_updSerac_field Serac.entries k f h]

theorem receives_updSerac (h : ∀ d, (f d).entries = d.entries) (r : CollRun) (m : RunMember) (q : Nat) :
    (s.updSerac k f).receives r m q = s.receives r m q := by
  unfold State.receives State.rankState
  rw [memberInst_updSerac s k f h]

end

/-! ### A contribution is read (R316) -/

section
variable {s : State} {r : CollRun} {m : RunMember} {q u e len : Nat} {va : Word}

/-- A run with a contribution more. -/
def CollRun.withChunk (r : CollRun) (u e q : Nat) (b : List (Byte × Bool)) : CollRun := { r with chunks := r.chunks ++ [(u, e, q, b)] }

/-- The bytes of a range at its homes. -/
def State.partBytes (s : State) (l : List (Loc × Nat)) : List (Byte × Bool) := l.flatMap (fun y => s.readHomeBytes none y.1.pkg y.1.pa y.2)

theorem readChunk_of_ok {l : List (Loc × Nat)} (hp : rangeParts s m.ctxOf va len .load = .ok l)
    (hl : ∀ y ∈ l, s.homeLost m.serac y.1 = false) :
    s.readChunk r m q u e len va = s.setRun (r.withChunk u e q (s.partBytes l)) := by
  have hany : ¬ l.any (fun y => s.homeLost m.serac y.1) = true := fun h => by
    obtain ⟨y, hy, hlost⟩ := List.any_eq_true.mp h
    rw [hl y hy] at hlost
    cases hlost
  unfold State.readChunk
  rw [hp]
  exact if_neg hany

theorem readChunk_of_error {f : XFault} (hp : rangeParts s m.ctxOf va len .load = .error f) :
    s.readChunk r m q u e len va = s.chunkFault r m q f := by
  unfold State.readChunk
  rw [hp] <;> rfl

/-- Within a package a contribution is read. -/
theorem transfer_within {serac : Nat} (hm : m.serac = serac) (hq : r.members[q]? = some m) (hr : s.runOf r.coord r.comm r.inst = some r)
    (hpkg : r.samePkg q e = true) (hs : s.supplies r m q = true) (hread : r.toRead q u e = some (len, va)) :
    exec (.chunkTransfer serac .within [r.coord, r.comm, r.inst, q, u, e]) s = .next (s.readChunk r m q u e len va) := by
  have hexec : exec (.chunkTransfer serac .within [r.coord, r.comm, r.inst, q, u, e]) s = .next (s.moveWithin serac r q u e) := by
    rw [exec_chunkTransfer]
    unfold execChunkTransfer
    simp only [hr]
  have hcond : (r.samePkg q e && s.supplies r m q && (r.toRead q u e).isSome) = true := by
    rw [hpkg, hs, hread]
    rfl
  rw [hexec, State.moveWithin, hq]
  dsimp only
  rw [if_neg (fun h => h hm), if_pos hcond, hread]

end

/-! ### On a link (R317) -/

/-- A chunk's credits are taken, as far as its channel has them. -/
def Serac.spend (d : Serac) (n vc k : Nat) : SMap Nat :=
  if k = 0 then d.spent else SMap.put d.spent (n * 16 + vc) (SMap.getD d.spent (n * 16 + vc) 0 + k)

theorem Serac.credits_spend (d : Serac) (n vc k : Nat) :
    ({ d with spent := d.spend n vc k } : Serac).credits n vc = d.credits n vc - k := by
  unfold Serac.credits Serac.spend
  dsimp only
  split
  · next h =>
    subst h
    rfl
  · rw [SMap.getD_put_self, Nat.sub_sub]

/-- All credits of a chunk are taken, and its pick goes. -/
def Serac.sent (d : Serac) (n vc k : Nat) : Serac := { d with spent := d.spend n vc k, picks := SMap.drop d.picks (n + 1) }

/-- A channel has given all it has, and the pick waits for the rest of what its chunk needs. -/
def Serac.paused (d : Serac) (n vc u e need : Nat) (k : Pick) : Serac :=
  { d with
    spent := d.spend n vc (d.credits n vc)
    picks := SMap.put d.picks (n + 1) { k with left := some (u, e, need - d.credits n vc) } }

section
variable {s : State} {serac n : Nat} {pick : Pick} (hpick : SMap.find (s.serac serac).picks (n + 1) = some pick)
include hpick

/-- The pick of a link goes. -/
def State.unpick (s : State) (serac n : Nat) : State :=
  s.setSerac serac { s.serac serac with picks := SMap.drop (s.serac serac).picks (n + 1) }

theorem transfer_link {r : CollRun} (hr : s.runOf pick.coord pick.comm pick.inst = some r) (u e : Nat) :
    exec (.chunkTransfer serac (.link n) [u, e]) s = .next (s.moveLink serac n pick r u e) := by
  rw [exec_chunkTransfer]
  unfold execChunkTransfer
  simp only [resKey, hpick, hr]

theorem transfer_linkDown (hd : (s.serac serac).linkUp n = false) (u e : Nat) :
    exec (.chunkTransfer serac (.link n) [u, e]) s = .next (s.unpick serac n) := by
  cases hr : s.runOf pick.coord pick.comm pick.inst with
  | none =>
    rw [exec_chunkTransfer]
    unfold execChunkTransfer
    simp only [resKey, hpick, hr]
    rfl
  | some r =>
    rw [transfer_link hpick hr, State.moveLink]
    dsimp only
    cases hm : r.members[pick.rank]? with
    | none => rfl
    | some m =>
      dsimp only
      rw [hd]
      rfl

/-- A transfer that names no chunk of the pick's member moves nothing. -/
theorem transfer_unnamed (hleft : pick.left = none) {r : CollRun} (hr : s.runOf pick.coord pick.comm pick.inst = some r) {m : RunMember}
    (hm : r.members[pick.rank]? = some m) (hup : (s.serac serac).linkUp n = true) (hs : s.supplies r m pick.rank = true)
    (hsend : r.sends pick.rank = true) {u e : Nat} (hno : r.toRead pick.rank u e = none ∨ r.samePkg pick.rank e = true) :
    exec (.chunkTransfer serac (.link n) [u, e]) s = .next s := by
  have hnone : r.onLink pick.rank u e = none := by
    unfold CollRun.onLink
    split
    · rfl
    · next hp => exact hno.resolve_right hp
  rw [transfer_link hpick hr, State.moveLink]
  dsimp only
  rw [hleft, hm]
  dsimp only
  rw [hup, hs, hsend, hnone]
  rfl

section
variable {r : CollRun} {m : RunMember} {u e len left : Nat} {va : Word} {l : List (Loc × Nat)}
  (hread : r.toRead pick.rank u e = some (len, va)) (hp : rangeParts s m.ctxOf va len .load = .ok l)
  (hl : ∀ y ∈ l, s.homeLost m.serac y.1 = false) (hms : m.serac = serac) (hup : (s.serac serac).linkUp n = true)
  (hs : s.supplies r m pick.rank = true) (he : ∀ y, r.members[e]? = some y → s.seracLost serac y.serac = false)
  (hr : s.runOf pick.coord pick.comm pick.inst = some r) (hm : r.members[pick.rank]? = some m) (hpkg : r.samePkg pick.rank e = false)
  (hleft : pick.left.getD (u, e, (len + 255) / 256) = (u, e, left))
include hread hp hl hms hup hs he hr hm hpkg hleft

/-- A chunk that can go takes its credits, and goes once it has all. -/
theorem transfer_link_eq : exec (.chunkTransfer serac (.link n) [u, e]) s = .next (
    if (s.spendCredits serac n pick r u e left).2 then (s.spendCredits serac n pick r u e left).1.readChunk r m pick.rank u e len va
    else (s.spendCredits serac n pick r u e left).1) := by
  have hsend := CollRun.sends_of_toRead hread hpkg
  have hlink : r.onLink pick.rank u e = some (len, va) := by
    rw [CollRun.onLink, hpkg, if_neg Bool.false_ne_true, hread]
  have hreach : ¬ (l.any (fun y => s.homeLost serac y.1) || (r.members[e]?).any (fun y => s.seracLost serac y.serac)) = true := by
    intro h
    rcases Bool.or_eq_true_iff.mp h with h | h
    · obtain ⟨y, hy, hlost⟩ := List.any_eq_true.mp h
      rw [← hms, hl y hy] at hlost
      cases hlost
    · obtain ⟨y, hy, hlost⟩ := (Option.any_eq_true _ _).mp h
      rw [he y hy] at hlost
      cases hlost
  have hneed : (∀ x, pick.left = some x → x = (u, e, left)) ∧ (pick.left = none → (len + 255) / 256 = left) := by
    refine ⟨fun x hx => ?_, fun hx => ?_⟩
    · rw [hx] at hleft
      exact hleft
    · rw [hx] at hleft
      exact (Prod.mk.inj (Prod.mk.inj hleft).2).2
  rw [transfer_link hpick hr, State.moveLink]
  refine congrArg _ ?_
  cases hk : pick.left with
  | none =>
    obtain rfl := hneed.2 hk
    dsimp only
    rw [hm]
    dsimp only
    rw [hup, hs, hsend, hlink]
    dsimp only
    rw [hp]
    exact if_neg hreach
  | some x =>
    obtain rfl := hneed.1 x hk
    dsimp only
    rw [hm]
    dsimp only
    rw [hup, hs, hsend, hlink]
    dsimp only
    rw [hp]
    exact if_neg hreach

/-- A channel without enough credits gives all it has, and the pick waits for the rest. -/
theorem transfer_link_waits (hlt : (s.serac serac).credits n r.vc < left) :
    ∃ t, exec (.chunkTransfer serac (.link n) [u, e]) s = .next t ∧ (∀ a, t.memByte a = s.memByte a) ∧ t.contexts = s.contexts ∧
      SMap.find (t.serac serac).picks (n + 1) = some { pick with left := some (u, e, left - (s.serac serac).credits n r.vc) } ∧
      (t.serac serac).credits n r.vc = 0 ∧ t.runs = s.runs := by
  have hspend : s.spendCredits serac n pick r u e left = (s.updSerac serac (fun d => d.paused n r.vc u e left pick), false) := by
    have hmin : min left ((s.serac serac).credits n r.vc) = (s.serac serac).credits n r.vc := Nat.min_eq_right (Nat.le_of_lt hlt)
    unfold State.spendCredits
    dsimp only
    rw [hmin, if_pos hlt]
    rfl
  have hexec := transfer_link_eq hpick hread hp hl hms hup hs he hr hm hpkg hleft
  rw [hspend] at hexec
  refine ⟨_, hexec.trans (congrArg _ (if_neg Bool.false_ne_true)), fun _ => rfl, rfl, ?_, ?_, rfl⟩
  · rw [State.serac_updSerac_self]
    exact SMap.find_put_self ..
  · rw [State.serac_updSerac_self]
    exact ((s.serac serac).credits_spend n r.vc _).trans (Nat.sub_self _)

/-- With all its credits a chunk is read and sent. -/
theorem transfer_link_sends (hle : left ≤ (s.serac serac).credits n r.vc) :
    ∃ t, exec (.chunkTransfer serac (.link n) [u, e]) s = .next t ∧ (∀ a, t.memByte a = s.memByte a) ∧ t.contexts = s.contexts ∧
      SMap.find (t.serac serac).picks (n + 1) = none ∧ (t.serac serac).credits n r.vc = (s.serac serac).credits n r.vc - left ∧
      t.runs = (s.setRun (r.withChunk u e pick.rank (s.partBytes l))).runs := by
  have hspend : s.spendCredits serac n pick r u e left = (s.updSerac serac (fun d => d.sent n r.vc left), true) := by
    have hmin : min left ((s.serac serac).credits n r.vc) = left := Nat.min_eq_left hle
    unfold State.spendCredits
    dsimp only
    rw [hmin, if_neg (Nat.lt_irrefl left)]
    rfl
  have hchunk : (s.updSerac serac (fun d => d.sent n r.vc left)).readChunk r m pick.rank u e len va =
      (s.updSerac serac (fun d => d.sent n r.vc left)).setRun (r.withChunk u e pick.rank (s.partBytes l)) := by
    refine readChunk_of_ok (s := s.updSerac serac (fun d => d.sent n r.vc left)) hp (fun y hy => ?_)
    rw [homeLost_updSerac s serac (fun d => d.sent n r.vc left) (fun _ => rfl)]
    exact hl y hy
  have hserac : ((s.updSerac serac (fun d => d.sent n r.vc left)).setRun (r.withChunk u e pick.rank (s.partBytes l))).serac serac =
      (s.serac serac).sent n r.vc left := s.serac_updSerac_self serac (fun d => d.sent n r.vc left)
  have hexec := transfer_link_eq hpick hread hp hl hms hup hs he hr hm hpkg hleft
  rw [hspend] at hexec
  refine ⟨_, hexec.trans (congrArg _ ((if_pos rfl).trans hchunk)), fun _ => rfl, rfl, ?_, ?_, rfl⟩
  · rw [hserac]
    exact SMap.find_drop_self ..
  · rw [hserac]
    exact (s.serac serac).credits_spend n r.vc left

end

end

/-! ### At the ALUs (R306, R316) -/

/-- A piece of data is written at its home. -/
def State.putPiece (a : State × List (Byte × Bool)) (y : Loc × Nat) : State × List (Byte × Bool) :=
  (a.1.homeWriteBytes y.1.pkg y.1.pa ((a.2.take y.2).map (·.1)) ((a.2.take y.2).any (·.2)) false, a.2.drop y.2)

/-- An address within a piece. -/
def inPiece (a : Nat) (y : Loc × Nat) : Prop := memKey y.1.pkg y.1.pa ≤ a ∧ a < memKey y.1.pkg y.1.pa + y.2

/-- Pieces with no byte in common. -/
def piecesApart (x y : Loc × Nat) : Prop :=
  memKey x.1.pkg x.1.pa + x.2 ≤ memKey y.1.pkg y.1.pa ∨ memKey y.1.pkg y.1.pa + y.2 ≤ memKey x.1.pkg x.1.pa

theorem putPiece_spec (a : State × List (Byte × Bool)) (y : Loc × Nat) (hw : a.1.MemWf) :
    (State.putPiece a y).1.MemWf ∧ (∀ x, ¬ inPiece x y → (State.putPiece a y).1.memByte x = a.1.memByte x) ∧
    (∀ j, j < y.2 → j < a.2.length → (State.putPiece a y).1.memByte (memKey y.1.pkg y.1.pa + j) = (a.2.getD j (0, false)).1) ∧
    (∀ k, (State.putPiece a y).1.serac k = a.1.serac k) ∧ (State.putPiece a y).1.runs = a.1.runs := by
  have hlen : ((a.2.take y.2).map (·.1)).length = min y.2 a.2.length := by rw [List.length_map, List.length_take]
  refine ⟨State.homeWriteBytes_memWf _ _ _ _ _ hw, fun x hx => ?_, fun j hj hlt => ?_, State.homeWriteBytes_serac _ _ _ _ _ _, ?_⟩
  · refine (State.homeWriteBytes_read _ _ _ _ _ _ hw x).trans (if_neg ?_)
    rw [hlen]
    unfold inPiece at hx
    omega
  · refine (State.homeWriteBytes_read _ _ _ _ _ _ hw _).trans ((if_pos ?_).trans ?_)
    · rw [hlen]
      omega
    · rw [Nat.add_sub_cancel_left, List.getD, List.getD, List.getElem?_map, List.getElem?_take, if_pos hj, List.getElem?_eq_getElem hlt]
      rfl
  · obtain ⟨x, z, w, h⟩ := a.1.homeWriteBytes_only y.1.pkg y.1.pa ((a.2.take y.2).map (·.1)) ((a.2.take y.2).any (·.2)) false
    rw [State.putPiece, h]

/-- Data written in pieces with no byte in common, one after another. -/
theorem foldl_putPiece (l : List (Loc × Nat)) (hl : l.Pairwise piecesApart) : ∀ a : State × List (Byte × Bool), a.1.MemWf →
    (∀ x, (∀ y ∈ l, ¬ inPiece x y) → (l.foldl State.putPiece a).1.memByte x = a.1.memByte x) ∧
    (∀ (i : Nat) y, l[i]? = some y → ∀ j, j < y.2 → ((l.take i).map (·.2)).sum + j < a.2.length →
      (l.foldl State.putPiece a).1.memByte (memKey y.1.pkg y.1.pa + j) = (a.2.getD (((l.take i).map (·.2)).sum + j) (0, false)).1) ∧
    (∀ k, (l.foldl State.putPiece a).1.serac k = a.1.serac k) ∧ (l.foldl State.putPiece a).1.runs = a.1.runs := by
  induction l with
  | nil => exact fun a _ => ⟨fun _ _ => rfl, (by intro i y hy; cases hy), fun _ => rfl, rfl⟩
  | cons z l ih =>
    intro a hw
    obtain ⟨hz, hl'⟩ := List.pairwise_cons.mp hl
    obtain ⟨hwf, hout, hin, hserac, hruns⟩ := putPiece_spec a z hw
    obtain ⟨hout', hin', hserac', hruns'⟩ := ih hl' (State.putPiece a z) hwf
    rw [List.foldl_cons]
    refine ⟨fun x hx => ?_, fun i y hy j hj hlt => ?_, fun k => (hserac' k).trans (hserac k), hruns'.trans hruns⟩
    · rw [hout' x (fun y hy => hx y (List.mem_cons_of_mem _ hy)), hout x (hx z List.mem_cons_self)]
    · cases i with
      | zero =>
        obtain rfl := Option.some.inj hy
        rw [List.take_zero, List.map_nil, List.sum_nil, Nat.zero_add] at hlt ⊢
        rw [hout' _ (fun y hym hyin => ?_), hin j hj hlt]
        have hap := hz y hym
        unfold inPiece at hyin
        unfold piecesApart at hap
        omega
      | succ i =>
        rw [List.take_succ_cons, List.map_cons, List.sum_cons, Nat.add_assoc] at hlt ⊢
        have hdrop : (State.putPiece a z).2 = a.2.drop z.2 := rfl
        rw [hin' i y hy j hj (by rw [hdrop, List.length_drop]; omega), hdrop, List.getD, List.getElem?_drop]
        rfl

section
variable {s : State} {serac : Nat} {pick : Pick} {r : CollRun} {m : RunMember} {u : Nat} {va : Word}
  {got : List (Nat × List (Byte × Bool))} (hpick : SMap.find (s.serac serac).picks 0 = some pick)
  (hr : s.runOf pick.coord pick.comm pick.inst = some r) (hm : r.members[pick.rank]? = some m)
  (hwrite : r.toWrite u pick.rank = some (va, got)) (hs : s.receives r m pick.rank = true)
include hpick hr hm hwrite hs

theorem transfer_alu_eq (order : List Nat) : exec (.chunkTransfer serac .alu (u :: pick.rank :: order)) s =
    .next ((s.updSerac serac (fun d => { d with picks := SMap.drop d.picks 0 })).writeChunk r m u pick.rank va
      (reduceBy (recType m.record) (recRed m.record) order got)) := by
  have hexec : exec (.chunkTransfer serac .alu (u :: pick.rank :: order)) s = .next (s.moveAlu serac pick r u order) := by
    rw [exec_chunkTransfer]
    unfold execChunkTransfer
    simp only [resKey, hpick, hr]
  have hcond : ¬ (!s.receives r m pick.rank || !r.combines pick.rank) = true := by
    rw [hs, CollRun.combines_of_toWrite hwrite]
    decide
  have hreceives := receives_updSerac s serac (fun d => { d with picks := SMap.drop d.picks 0 }) (fun _ => rfl) r m pick.rank
  rw [hexec, State.moveAlu, hm]
  dsimp only
  rw [if_neg hcond, hwrite, Option.isNone_some, if_neg Bool.false_ne_true, State.applyChunk, hwrite]
  exact congrArg _ (if_pos (hreceives.trans hs))

/-- The pick's results are combined and written, piece by piece, and no other byte (R306). -/
theorem transfer_alu (hw : s.MemWf) (order : List Nat) {l : List (Loc × Nat)}
    (hp : rangeParts s m.ctxOf va (reduceBy (recType m.record) (recRed m.record) order got).length .store = .ok l)
    (hl : ∀ y ∈ l, s.homeLost m.serac y.1 = false) (hap : l.Pairwise piecesApart) :
    let data := reduceBy (recType m.record) (recRed m.record) order got
    ∃ t, exec (.chunkTransfer serac .alu (u :: pick.rank :: order)) s = .next t ∧
      (∀ (i : Nat) y, l[i]? = some y → ∀ j, j < y.2 → ((l.take i).map (·.2)).sum + j < data.length →
        t.memByte (memKey y.1.pkg y.1.pa + j) = (data.getD (((l.take i).map (·.2)).sum + j) (0, false)).1) ∧
      (∀ a, (∀ y ∈ l, ¬ inPiece a y) → t.memByte a = s.memByte a) ∧
      t.runs = (s.setRun { r with chunks := r.chunks.filter (fun c => !decide (c.1 = u ∧ c.2.1 = pick.rank)),
                                  writtenTo := r.writtenTo ++ [(u, pick.rank)] }).runs ∧
      SMap.find (t.serac serac).picks 0 = none := by
  intro data
  have hlost : ¬ l.any (fun y => (s.updSerac serac (fun d => { d with picks := SMap.drop d.picks 0 })).homeLost m.serac y.1) = true := by
    intro h
    obtain ⟨y, hy, hlost⟩ := List.any_eq_true.mp h
    rw [homeLost_updSerac s serac (fun d => { d with picks := SMap.drop d.picks 0 }) (fun _ => rfl), hl y hy] at hlost
    cases hlost
  obtain ⟨hout, hin, hserac, hruns⟩ := foldl_putPiece l hap (s.updSerac serac (fun d => { d with picks := SMap.drop d.picks 0 }), data) hw
  have hexec := transfer_alu_eq hpick hr hm hwrite hs order
  rw [State.writeChunk, rangeParts_updSerac, hp] at hexec
  dsimp only at hexec
  rw [if_neg hlost] at hexec
  refine ⟨_, hexec, hin, hout, ?_, ?_⟩
  · exact congrArg (List.map _) hruns
  · refine (congrArg (fun d : Serac => SMap.find d.picks 0) (hserac serac)).trans ?_
    rw [State.serac_updSerac_self]
    exact SMap.find_drop_self ..

end

end Sys2Proof.Machine
end

section
/-! PROOFS. Collectives: completion and faults of instances; the obligation (O59; R306, R319). -/

namespace Sys2Proof.Machine

theorem Posted.setInst_one {p : Posted} {x y : Inst} (h : p.insts = [x]) (hn : y.number = x.number) : (p.setInst y).insts = [y] := by
  unfold Posted.setInst
  rw [h]
  exact congrArg (fun z => [z]) (if_pos hn.symm)

/-- An entry of the table whose context goes on is as before. -/
theorem State.freeIfEnded_of_open (s : State) (serac : Nat) {k : Nat} (hk : k < 1024) (he : (s.posted serac k).ended = false) :
    s.freeIfEnded serac k = s := by
  have h1 : ¬ (1024 ≤ k ∧ (s.posted serac k).insts.all Inst.over = true) := fun h => Nat.not_le_of_lt hk h.1
  have h2 : ¬ (s.posted serac k).ended = true := by rw [he]; exact Bool.false_ne_true
  exact (if_neg h1).trans (if_neg h2)

/-! ### Completion (R306, R319) -/

theorem State.dropRun_frame (s : State) (m : Comm) (p : Posted) (inst : Nat) :
    (∀ j i, (s.dropRun m p inst).posted j i = s.posted j i) ∧ ∀ a, (s.dropRun m p inst).memByte a = s.memByte a := by
  unfold State.dropRun
  dsimp only
  split
  · exact ⟨fun _ _ => rfl, fun _ => rfl⟩
  · exact ⟨fun _ _ => rfl, fun _ => rfl⟩

section
variable {s : State} {serac k : Nat} {x : Inst} {m : Comm} (hin : (s.posted serac k).insts = [x])
  (hm : s.commOf serac (s.posted serac k).comm = some m) (hpage : x.page = false)
include hin hm hpage

theorem instanceComplete_running (hx : x.state = .running) {r : CollRun} (hr : s.findRun (s.posted serac k) x = some r) :
    exec (.instanceComplete serac k) s = .next (
      if !r.completeAt r.desc (s.posted serac k).rank then s
      else (if (s.posted serac k).persistent then
          (s.setInst serac k { x with state := .done, stage := 1 }).noteComplete m (s.posted serac k) x.number
        else s.setInst serac k { x with state := .done, stage := 1 }).dropRun m (s.posted serac k) x.number) := by
  rw [exec_instanceComplete, execInstanceComplete]
  dsimp only
  rw [hin, hm, List.find?_cons_of_pos (by rw [hx]; rfl)]
  dsimp only
  rw [hpage, hx, hr]
  rfl

/-- A collective of which a piece is still to be written at its member goes on. -/
theorem instanceComplete_waits (hx : x.state = .running) {r : CollRun} (hr : s.findRun (s.posted serac k) x = some r) {u : Nat}
    (hu : u < r.desc.transfers) (hpiece : r.desc.piece u (s.posted serac k).rank ≠ none)
    (hno : (u, (s.posted serac k).rank) ∉ r.writtenTo) (hsize : (s.posted serac k).rank < r.desc.size) :
    exec (.instanceComplete serac k) s = .next s := by
  have hwritten : r.writtenAt r.desc (s.posted serac k).rank = false := by
    rw [CollRun.writtenAt, List.all_eq_false]
    refine ⟨u, List.mem_range.mpr hu, ?_⟩
    rw [Bool.or_eq_true, Option.isNone_iff_eq_none, List.contains_eq_mem, decide_eq_true_eq]
    exact fun h => h.elim hpiece hno
  have hcomplete : r.completeAt r.desc (s.posted serac k).rank = false := by
    unfold CollRun.completeAt
    split
    · rw [List.all_eq_false]
      exact ⟨_, List.mem_range.mpr hsize, by rw [hwritten]; exact Bool.false_ne_true⟩
    · rw [hwritten, Bool.false_and]
  rw [instanceComplete_running hin hm hpage hx hr, hcomplete]
  rfl

/-- A RUNNING collective that is complete is DONE. -/
theorem instanceComplete_done (hx : x.state = .running) {r : CollRun} (hr : s.findRun (s.posted serac k) x = some r)
    (hall : ∀ q, q < r.desc.size → (r.desc.op = 5 ∨ q = (s.posted serac k).rank) → ∀ u, u < r.desc.transfers → r.desc.piece u q ≠ none →
      (u, q) ∈ r.writtenTo) (hsize : (s.posted serac k).rank < r.desc.size) (hwalk : r.desc.nest = true → r.walked r.desc = true)
    (hpers : (s.posted serac k).persistent = false) :
    ∃ t, exec (.instanceComplete serac k) s = .next t ∧ (t.posted serac k).insts = [{ x with state := .done, stage := 1 }] ∧
      ∀ a, t.memByte a = s.memByte a := by
  have hwritten (q : Nat) (hq : q < r.desc.size) (h : r.desc.op = 5 ∨ q = (s.posted serac k).rank) : r.writtenAt r.desc q = true := by
    rw [CollRun.writtenAt, List.all_eq_true]
    intro u hu
    rw [Bool.or_eq_true, Option.isNone_iff_eq_none, List.contains_eq_mem, decide_eq_true_eq]
    by_cases hp : r.desc.piece u q = none
    · exact .inl hp
    · exact .inr (hall q hq h u (List.mem_range.mp hu) hp)
  have hcomplete : r.completeAt r.desc (s.posted serac k).rank = true := by
    unfold CollRun.completeAt
    split
    · next h5 => exact List.all_eq_true.mpr fun q hq => hwritten q (List.mem_range.mp hq) (.inl h5)
    · rw [hwritten _ hsize (.inr rfl), Bool.true_and]
      cases hn : r.desc.nest with
      | false => rfl
      | true => exact hwalk hn
  have hexec : exec (.instanceComplete serac k) s =
      .next ((s.setInst serac k { x with state := .done, stage := 1 }).dropRun m (s.posted serac k) x.number) := by
    rw [instanceComplete_running hin hm hpage hx hr, hcomplete, hpers]
    rfl
  obtain ⟨hposted, hmem⟩ := (s.setInst serac k { x with state := .done, stage := 1 }).dropRun_frame m (s.posted serac k) x.number
  refine ⟨_, hexec, ?_, hmem⟩
  rw [hposted, State.posted_setInst_self]
  exact Posted.setInst_one hin rfl

/-- A DONE collective whose signal is still to be given. -/
theorem instanceComplete_signal (hw : s.MemWf) (hx : x.state = .done) (hstage : x.stage = 1) (hsig : recSignal (s.posted serac k).record ≠ 0)
    {loc : Loc} (hloc : translate s (s.posted serac k).ctxOf (BitVec.ofNat 64 (recSignal (s.posted serac k).record)) .store = .ok loc) :
    ∃ t, exec (.instanceComplete serac k) s = .next t ∧ (t.posted serac k).insts = [{ x with stage := 2 }] ∧
      t.home64 loc.pkg loc.pa = s.home64 loc.pkg loc.pa + 1 ∧
      ∀ a, a < memKey loc.pkg loc.pa ∨ memKey loc.pkg loc.pa + 8 ≤ a → t.memByte a = s.memByte a := by
  have hexec : exec (.instanceComplete serac k) s = .next ((s.setInst serac k { x with stage := 2 }).agentSignal loc 1 false true) := by
    rw [exec_instanceComplete, execInstanceComplete]
    dsimp only
    rw [hin, hm, List.find?_cons_of_pos (by rw [hx, Inst.over, hstage]; rfl)]
    dsimp only
    rw [if_neg (by rw [hpage]; exact Bool.false_ne_true), if_neg (by rw [hx]; decide), if_pos hstage, State.collSignal]
    rw [if_neg hsig, hloc] <;> rfl
  refine ⟨_, hexec, ?_, ?_, fun a ha => ?_⟩
  · unfold State.agentSignal State.posted
    rw [State.homeWriteBytes_serac]
    refine (congrArg Posted.insts (State.posted_setInst_self _)).trans ?_
    exact Posted.setInst_one hin rfl
  · exact State.home64_written (s.setInst serac k { x with stage := 2 }) loc.pkg loc.pa (s.home64 loc.pkg loc.pa + 1) false true hw
  · exact State.homeWriteBytes_frame (s.setInst serac k { x with stage := 2 }) loc.pkg loc.pa _ false true hw a
      (by rwa [leBytes_length])

/-- A DONE collective whose interrupt is still to be given. -/
theorem instanceComplete_uli (hx : x.state = .done) (hstage : x.stage = 2) : exec (.instanceComplete serac k) s =
      .next (((s.setInst serac k { x with stage := 3 }).collUli serac (s.posted serac k) true).freeIfEnded serac k) := by
  rw [exec_instanceComplete, execInstanceComplete]
  dsimp only
  rw [hin, hm, List.find?_cons_of_pos (by rw [hx, Inst.over, hstage]; rfl)]
  dsimp only
  rw [hpage, hx, hstage]
  rfl

section
variable (hk : k < 1024) (hopen : (s.posted serac k).ended = false)
include hk hopen

/-- Without a target no interrupt is given. -/
theorem instanceComplete_over (hx : x.state = .done) (hstage : x.stage = 2) (ht : recTarget (s.posted serac k).record = 2 ^ 32 - 1) :
    ∃ t, exec (.instanceComplete serac k) s = .next t ∧ (t.posted serac k).insts = [{ x with stage := 3 }] ∧
      ∀ a, t.memByte a = s.memByte a := by
  have hposted : (s.setInst serac k { x with stage := 3 }).posted serac k = (s.posted serac k).setInst { x with stage := 3 } :=
    State.posted_setInst_self _
  have hexec : exec (.instanceComplete serac k) s = .next (s.setInst serac k { x with stage := 3 }) := by
    rw [instanceComplete_uli hin hm hpage hx hstage, State.collUli, if_pos (.inr ht), State.freeIfEnded_of_open _ serac hk]
    rw [hposted]
    exact hopen
  refine ⟨_, hexec, ?_, fun _ => rfl⟩
  rw [hposted]
  exact Posted.setInst_one hin rfl

/-- The interrupt of a target that is reached is pending at it. -/
theorem instanceComplete_interrupt (hx : x.state = .done) (hstage : x.stage = 2) (hrec : (s.posted serac k).record ≠ [])
    (ht : recTarget (s.posted serac k).record < 2 ^ 25) (hreach : s.reachable (recTarget (s.posted serac k).record)
      (s.posted serac k).tenant = none) {c : Context} (hc : s.ctx (recTarget (s.posted serac k).record) = some c) :
    ∃ t c', exec (.instanceComplete serac k) s = .next t ∧ (t.posted serac k).insts = [{ x with stage := 3 }] ∧
      t.ctx (recTarget (s.posted serac k).record) = some c' ∧ c'.thread = c.thread.pend (recVector (s.posted serac k).record) ∧
      ∀ a, t.memByte a = s.memByte a := by
  have hposted : (s.setInst serac k { x with stage := 3 }).posted serac k = (s.posted serac k).setInst { x with stage := 3 } :=
    State.posted_setInst_self _
  have hno : ¬ ((s.posted serac k).record.isEmpty = true ∨ recTarget (s.posted serac k).record = 2 ^ 32 - 1) := by
    rintro (he | he)
    · exact hrec (List.isEmpty_iff.mp he)
    · omega
  have huli : (s.setInst serac k { x with stage := 3 }).collUli serac (s.posted serac k) true =
      ((s.setInst serac k { x with stage := 3 }).setUlipend (recTarget (s.posted serac k).record)
        (recVector (s.posted serac k).record)).updCtx (recTarget (s.posted serac k).record) Context.progress := by
    have hreach' : (s.setInst serac k { x with stage := 3 }).reachable (recTarget (s.posted serac k).record) (s.posted serac k).tenant =
        none := hreach
    rw [State.collUli, if_neg hno, State.agentUli, if_neg (by omega), hreach']
    rfl
  have hc' : (s.setInst serac k { x with stage := 3 }).ctx (recTarget (s.posted serac k).record) = some c := hc
  rw [State.setUlipend, State.updCtx_of hc', State.updCtx_of (State.ctx_setCtx_self _ _ _)] at huli
  have hexec := instanceComplete_uli hin hm hpage hx hstage
  have hfree := State.freeIfEnded_of_open ((s.setInst serac k { x with stage := 3 }).collUli serac (s.posted serac k) true) serac hk
    (by rw [huli]; exact (congrArg Posted.ended hposted).trans hopen)
  rw [hfree, huli] at hexec
  refine ⟨_, _, hexec, ?_, State.ctx_setCtx_self _ _ _, rfl, fun _ => rfl⟩
  exact (congrArg Posted.insts hposted).trans (Posted.setInst_one hin rfl)

end

end

/-! ### Faults (R319) -/

/-- A fault that arrives ends the collective of its member. -/
theorem instanceFault_arrives {s : State} {serac k : Nat} {f : FaultMsg} (hf : (s.serac serac).faultMsgs = [f])
    (hn : (s.posted serac k).named f = true) {i : Nat} {p : Posted} {x : Inst}
    (hm : s.memberInst serac f.coord f.comm f.inst f.rank = some (i, p, x)) (hd : x.state ≠ .done) (hx : x.state ≠ .fault) : ∃ t,
      exec (.instanceFault serac k) s = .next t ∧ (t.serac serac).faultMsgs = [] ∧
      t.posted serac i = p.setInst { x with state := .fault, cause := f.cause, sub := f.sub, stage := 1 } ∧
      ∀ a, t.memByte a = s.memByte a := by
  have hexec : exec (.instanceFault serac k) s = .next ((s.updSerac serac (fun d => { d with faultMsgs := [] })).applyFault serac f) := by
    rw [exec_instanceFault, execInstanceFault]
    dsimp only
    rw [hf, List.findIdx?_cons, hn]
    rfl
  have hopen : ¬ (x.state == .done || x.state == .fault) = true := by
    simp [hd, hx]
  have hmember := memberInst_updSerac s serac (fun d => { d with faultMsgs := [] }) (fun _ => rfl) serac f.coord f.comm f.inst f.rank
  rw [State.applyFault, hmember, hm] at hexec
  dsimp only at hexec
  rw [if_neg hopen] at hexec
  refine ⟨_, hexec, ?_, State.posted_setPosted_self .., fun _ => rfl⟩
  rw [State.setPosted, State.serac_updSerac_field Serac.faultMsgs _ _ _ (by intro _; rfl), State.serac_updSerac_self]

/-- A faulted collective without a target is reported, and over. -/
theorem instanceFault_reports {s : State} {serac k : Nat} {x : Inst} (hk : k < 1024) (hf : (s.serac serac).faultMsgs = [])
    (hin : (s.posted serac k).insts = [x]) (hopen : (s.posted serac k).ended = false) (hx : x.state = .fault) (hstage : x.stage < 3)
    (ht : recTarget (s.posted serac k).record = 2 ^ 32 - 1) : exec (.instanceFault serac k) s =
      .next ((s.setPosted serac k { s.posted serac k with insts := [{ x with stage := 3 }] }).post (.serac serac) 6 k
        (BitVec.ofNat 64 x.cause) (BitVec.ofNat 64 x.number)) := by
  have hput : s.setInst serac k { x with stage := 3 } = s.setPosted serac k { s.posted serac k with insts := [{ x with stage := 3 }] } := by
    have hp : (s.posted serac k).setInst { x with stage := 3 } = { s.posted serac k with insts := [{ x with stage := 3 }] } := by
      have := Posted.setInst_one (y := { x with stage := 3 }) hin rfl
      rw [← this]
      rfl
    rw [State.setInst, hp]
  have hnumber : entryNumber k = k := Nat.mod_eq_of_lt (Nat.lt_trans hk (by decide))
  have hover : (x.state == .fault && !x.over) = true := by
    rw [hx, Inst.over, decide_eq_false (by omega)]
    rfl
  rw [exec_instanceFault, execInstanceFault]
  dsimp only
  rw [hf, List.findIdx?_nil]
  dsimp only
  rw [hin, List.find?_cons_of_pos (by exact hover)]
  dsimp only
  rw [hput, State.reportColl, hnumber, State.collUli, if_pos (.inr ht), State.freeIfEnded_of_open _ serac hk]
  rw [State.posted, State.post_serac_field Serac.entries (fun _ _ => rfl) (fun _ _ => rfl) (fun _ _ => rfl)]
  exact (congrArg Posted.ended (State.posted_setPosted_self ..)).trans hopen

/-! ### The obligation -/

theorem Told.byRank {s t : State} {serac k c : Nat} {m : Comm} (hm : s.commOf k c = some m) {coord comm inst cause : Nat}
    (h : Told serac m.words coord comm inst cause t) (q : Nat) (hq : q < m.size)
    (hl : t.seracLost serac (memberSerac (m.words.getD q 0)) = false) :
    ({ coord := coord, comm := comm, inst := inst, rank := q, cause := cause, sub := 0 } : FaultMsg) ∈
      (t.serac (memberSerac (m.words.getD q 0))).faultMsgs :=
  h q (by rw [(State.commOf_size hm).1]; exact hq) hl

/-- Settles O59: each step of a posted collective by its own rule: posts, notices, tickets, reservations, chunks, completion, faults. -/
theorem collectiveResults : Obligations.CollectiveResults := by
  unfold Obligations.CollectiveResults
  intro s
  refine ⟨?_, ?_, fun serac => ⟨?_, ?_, ?_, ?_, ?_, ?_, ?_, ?_, ?_, ?_, ?_, ?_, ?_, ?_, ?_, ?_, ?_, ?_, ?_, ?_, ?_, ?_, ?_⟩⟩
  · exact fun k c d va hc hw h => postAccept_none hc hw h
  · intro k c d va i hc hw hr serac hb r accepted hi hf
    refine ⟨fun hn => ?_, fun p m q hp hh he htwo hrank hok hfits => ?_⟩
    · obtain ⟨t, x, hacc, hused, hrec, hctx, hpers, hinsts, hranked, hunranked⟩ := postAccept_new hc hw hr hb hi hf hn
      exact ⟨t, x, hacc, hused, hrec, hctx, hpers, hinsts, hranked, hunranked⟩
    · obtain ⟨t, x, hacc, hin, hrk, hposted, hlost, hnumber, hbefore⟩ := postAccept_again hc hw hr hb hi hf hp hh he htwo hrank hok hfits
      exact ⟨t, x, hacc, hin, hrk, hposted, hlost, hnumber, hbefore⟩
  · intro k n m hn hm i ns
    refine ⟨fun h => coordinatorNotice_short hn hm h, fun h hi hall => ?_⟩
    obtain ⟨t, hexec, hmem, hnext, hfault, hmis, hunr, hgood⟩ := coordinatorNotice_settles hn hm h hi hall
    exact ⟨t, hexec, hmem, hnext, fun hf => (hfault hf).byRank hm, fun hf hd => (hmis hf hd).byRank hm,
      fun hg hl => (hunr hg hl).byRank hm, hgood⟩
  · exact fun r rest hq ht hl => ticketRequest_unreached hq ht hl
  · exact fun r rest hq ht hl => ticketRequest_ranks hq ht hl
  · intro k q tk ht
    refine ⟨fun i p x hm => ⟨fun hx => ticketTake_received ht hm hx, fun hx hchain hbefore => ticketTake_taken ht hm hx hchain hbefore,
      fun hx hprev hne => ticketTake_waits ht hm hx hprev hne⟩, fun hm hchain => ticketTake_gone ht hm hchain⟩
  · exact fun c held => fitsBeside_iff (s.serac serac) c held
  · intro k c hc
    refine ⟨fun m hbig hm => ?_, fun ws hfit hfirst hws => ⟨fun w hw => mem_reserveWith hws hw, fun hnil => ?_, ?_⟩⟩
    · have ht := Tells.faultAll s serac m (s.posted serac k).coord (s.posted serac k).comm c.inst.number 6 0
      exact ⟨_, reservation_noBuf hc hbig hm, (told_faultAll s serac m _ _ _ _).byRank hm, ht.runs, ht.memByte⟩
    · subst hnil
      exact reservation_eq hc hfit hfirst hws
    · exact reservation_reserves hc hfit hfirst hws
  · intro k x m p hx hm hall
    refine ⟨fun hl => confirmation_unreached hx hm hl, fun hl => confirmation_runs hx hm (fun q hq => ?_) hl⟩
    obtain ⟨j, i, p', y, hmember, hst, hposted, hin⟩ := hall q hq
    exact ⟨_, hmember, hst, by rw [hposted]; exact hin⟩
  · exact fun res hp hc => chunkBoundary_spec hp hc
  · exact fun x res h => mem_readyChunks h
  · exact fun x n h => chunkCands_link h
  · exact fun x h => chunkCands_alu h
  · exact fun ho pkg pa n h => readHomeBytes_of_line s ho none pkg pa n h
  · intro r m q u e len va l hread hp hl got
    refine ⟨fun n pick left hms hup hs he hpick hrank hr hm hpkg hleft => ?_, fun hms hq hr hpkg hs => ?_⟩
    · subst hrank
      exact ⟨fun hlt => transfer_link_waits hpick hread hp hl hms hup hs he hr hm hpkg hleft hlt,
        fun hle => transfer_link_sends hpick hread hp hl hms hup hs he hr hm hpkg hleft hle⟩
    · rw [transfer_within hms hq hr hpkg hs hread, readChunk_of_ok hp hl]
      rfl
  · exact fun n pick r m u e hpick hleft hr hm hup hs hsend hno => transfer_unnamed hpick hleft hr hm hup hs hsend hno
  · exact fun n pick u e hpick hd => transfer_linkDown hpick hd u e
  · intro r m q u e len va f hread hp hms hq hr hpkg hs
    have hexec := transfer_within hms hq hr hpkg hs hread
    rw [readChunk_of_error hp] at hexec
    subst hms
    refine ⟨fun hn => hexec.trans (congrArg _ (if_pos hn)), fun c hn hc => hexec.trans (congrArg _ ?_)⟩
    refine (if_neg (by rw [hn]; exact Bool.false_ne_true)).trans ?_
    unfold State.failRun
    rw [hc] <;> rfl
  · intro pick r m u order va got l hw hpick hr hm hwrite hs data start hp hl hap
    obtain ⟨t, hexec, hin, hout, hruns, hpicks⟩ := transfer_alu hpick hr hm hwrite hs hw order hp hl hap
    refine ⟨t, hexec, hin, fun a ha => hout a (fun y hy hpiece => ?_), hruns, hpicks⟩
    have := ha y hy
    unfold inPiece at hpiece
    omega
  · exact fun link vc n hl hv hs => creditReturn_spec hl hv hs
  · intro k x m p hk hin hopen hm hpage
    refine ⟨fun r hx hr => ⟨fun hall hsize hwalk hpers => instanceComplete_done hin hm hpage hx hr hall hsize hwalk hpers,
      fun u hu hpiece hno hsize => instanceComplete_waits hin hm hpage hx hr hu hpiece hno hsize⟩,
      fun loc hw hx hstage hsig hloc => instanceComplete_signal hin hm hpage hw hx hstage hsig hloc,
      fun hx hstage ht => instanceComplete_over hin hm hpage hk hopen hx hstage ht,
      fun c hx hstage hrec ht hreach hc => instanceComplete_interrupt hin hm hpage hk hopen hx hstage hrec ht hreach hc⟩
  · exact fun k x f i p hf hn hm hd hx => instanceFault_arrives hf hn hm hd hx
  · exact fun k x hk hf hin hopen hx hstage ht => instanceFault_reports hk hf hin hopen hx hstage ht
  · intro lost
    obtain ⟨t, hexec, hun, hctx, hmem, htold⟩ := peerUnreachable_spec s serac lost
    exact ⟨t, hexec, hun, hctx, hmem, fun e he m x hu hm hw hx hd hf => (htold e he m x hu hm hw hx hd hf).byRank hm⟩
  · intro die k l
    obtain ⟨t, hexec, htold⟩ := retirement_link_tells s die k l serac
    exact ⟨t, hexec, fun hr e he m x hu hm hw hx hd hf => (htold hr e he m x hu hm hw hx hd hf).byRank hm⟩

end Sys2Proof.Machine
end
